-- ==== Sys2Proof/Word.lean ====
section
/-!
DEFINITION. The word types and the sorted table used for every sparse store.

A `Tab α` is a list of (key, value) pairs in one canonical form: keys strictly rising and no entry equal to the
value that an unlisted key has. That value is given by a default function, so that a register file whose registers
differ at reset is a table too. Equal contents are then equal data.
-/

namespace Sys2Proof

/-- A byte. -/
abbrev Byte := BitVec 8

/-- A 64-bit word: a scalar register, a sync object, a register of BAR0 (R10, R45). -/
abbrev Word := BitVec 64

/-- A sparse table keyed by natural numbers. -/
abbrev Tab (α : Type) := List (Nat × α)

/-- The value at key `k`, or `d k` where the table lists none. -/
def Tab.get {α : Type} (d : Nat → α) : Tab α → Nat → α
  | [], k => d k
  | (j, v) :: t, k => if k = j then v else Tab.get d t k

/-- Remove the entry at key `k`, if there is one. -/
def Tab.erase {α : Type} : Tab α → Nat → Tab α
  | [], _ => []
  | (j, v) :: t, k => if k = j then Tab.erase t k else (j, v) :: Tab.erase t k

/-- Insert or replace the entry at key `k`. -/
def Tab.put {α : Type} : Tab α → Nat → α → Tab α
  | [], k, x => [(k, x)]
  | (j, v) :: t, k, x =>
    if k = j then (k, x) :: t else if k < j then (k, x) :: (j, v) :: t else (j, v) :: Tab.put t k x

/-- Write `x` at key `k`, keeping the canonical form: a value equal to the default is not listed. -/
def Tab.set {α : Type} [DecidableEq α] (d : Nat → α) (t : Tab α) (k : Nat) (x : α) : Tab α :=
  if x = d k then Tab.erase t k else Tab.put t k x

/-- Every key of the table is above `b`, and the keys rise strictly. -/
def Tab.above {α : Type} : Nat → Tab α → Bool
  | _, [] => true
  | b, (j, _) :: t => decide (b < j) && Tab.above j t

/-- The keys rise strictly. -/
def Tab.sorted {α : Type} : Tab α → Bool
  | [] => true
  | (j, _) :: t => Tab.above j t

/-- No entry equals what an unlisted key reads as. -/
def Tab.sparse {α : Type} [DecidableEq α] (d : Nat → α) : Tab α → Bool
  | [] => true
  | (j, v) :: t => decide (v ≠ d j) && Tab.sparse d t

/-- The canonical form of a table. -/
def Tab.wf {α : Type} [DecidableEq α] (d : Nat → α) (t : Tab α) : Bool :=
  Tab.sorted t && Tab.sparse d t

/-- Write `f k` at each key `k` of the list. -/
def Tab.setAll {α : Type} [DecidableEq α] (d : Nat → α) (t : Tab α) : List (Nat × α) → Tab α
  | [] => t
  | (k, x) :: r => Tab.setAll d (Tab.set d t k x) r

/-- The bits `[lo + n - 1 : lo]` of a natural number. -/
def bits (x lo n : Nat) : Nat := (x / 2 ^ lo) % 2 ^ n

/-- Bit `i` of a natural number. -/
def bit (x i : Nat) : Bool := x.testBit i

end Sys2Proof
end

