-- ==== Sys2Proof/Syntax.lean ====
section
/-!
DEFINITION. The commands of the module: one constructor of `Instr` per row of the table of operations and events.

A command carries what its row leaves open: the cell and the fields of the instruction word for a cell
instruction, the packet for a packet that arrives, the register and value for a BAR0 write, and the readings, data
or outcomes that come from outside the module. Numbers (cells, ports, partitions, devices) are plain naturals and
checked by `WellFormed`; fields of encoded words are bit vectors of the width the spec gives.
-/

namespace Sys2Proof

/-! ### Fields of an instruction word (R98, R99) -/

/-- The guarding predicate of every instruction word: bits [53:50] (R98). -/
structure Guard where
  pr : BitVec 3
  pn : Bool
  deriving DecidableEq, Repr

/-- Format F0, register (R99). -/
structure F0 where
  g   : Guard
  rd  : BitVec 5
  ra  : BitVec 5
  rb  : BitVec 5
  rc  : BitVec 5
  ty  : BitVec 4
  rm  : BitVec 3
  ri  : BitVec 5
  xop : BitVec 6
  res : BitVec 12
  deriving DecidableEq, Repr

/-- Format F1, immediate (R99). -/
structure F1 where
  g   : Guard
  rd  : BitVec 5
  ra  : BitVec 5
  ty  : BitVec 4
  res : BitVec 4
  imm : BitVec 32
  deriving DecidableEq, Repr

/-- Format F2, branch (R99). -/
structure F2 where
  g      : Guard
  ra     : BitVec 5
  target : BitVec 14
  res    : BitVec 31
  deriving DecidableEq, Repr

/-- Format F3, matrix (R99). -/
structure F3 where
  g   : Guard
  acc : BitVec 2
  ta  : BitVec 4
  tb  : BitVec 4
  sk  : BitVec 5
  sm  : BitVec 5
  sn  : BitVec 5
  cm  : BitVec 2
  ri  : BitVec 5
  aty : BitVec 4
  res : BitVec 14
  deriving DecidableEq, Repr

/-- Format F4, tile (R99). -/
structure F4 where
  g   : Guard
  td  : BitVec 4
  ts  : BitVec 4
  id  : BitVec 2
  sg  : BitVec 5
  res : BitVec 35
  deriving DecidableEq, Repr

/-- Format F5, extended (R99). -/
structure F5 where
  g   : Guard
  sa  : BitVec 5
  sb  : BitVec 5
  sd  : BitVec 5
  pd  : BitVec 3
  imm : BitVec 32
  deriving DecidableEq, Repr

/-! ### Quedar packets and flits (R382, R387) -/

/-- A Quedar packet: the header fields of R387, and the operand or payload bytes that follow the header. -/
structure Packet where
  type    : BitVec 5
  cls     : BitVec 3
  esc     : Bool
  hops    : BitVec 2
  seqd    : Bool
  gen     : BitVec 10
  age     : BitVec 11
  dstPhys : BitVec 12
  srcPhys : BitVec 12
  plen    : BitVec 7
  srcLog  : BitVec 12
  dstLog  : BitVec 12
  seq     : BitVec 16
  etag    : BitVec 16
  res     : BitVec 8
  arg0    : BitVec 64
  arg1    : BitVec 32
  pcrc    : BitVec 32
  data    : List Byte
  deriving DecidableEq, Repr

/-- A link flit: the header fields of R382, the 240 payload bytes, the CRC, and whether its FEC codeword could be
corrected (R383). -/
structure Flit where
  fseq    : BitVec 12
  aseq    : BitVec 12
  nak     : Bool
  vc      : BitVec 4
  start   : BitVec 4
  cvc     : BitVec 4
  ccount  : BitVec 12
  res     : BitVec 15
  payload : List Byte
  crc     : BitVec 64
  fecOk   : Bool
  deriving DecidableEq, Repr

/-- The five classes that every seam and port carries (R16). -/
inductive Cls where
  | ctl | req | rsp | fwd | col
  deriving DecidableEq, Repr

/-- A packet inside the package: its class, the router it is for, an identifier of its content, whether it has used a spine seam (R18,
R19), and whether it is an escape packet (R396). Routers are those of the dies, C0-C7 as 0-7, M0-M7 as 8-15, Q0-Q2 as 16-18 and H as
19 (R491), and those of the combs, comb `k` as 20 + k (R68). -/
structure SeamPkt where
  cls   : Cls
  dst   : Nat
  tag   : Nat
  spine : Bool
  esc   : Bool
  deriving DecidableEq, Repr

/-! ### What the outside world supplies -/

/-- The requesters of a cell-memory bank, in the fixed order of R50. -/
inductive BankUser where
  | matrix | vector | tile | scalar | router
  deriving DecidableEq, Repr

/-- How a read of the far tier fails for good: refused, poisoned, or with no completion twice (R228). -/
inductive ReadFail where
  | unsupported | poisoned | timeout
  deriving DecidableEq, Repr

/-- A doorbell slot as it comes (R343): its value, whether it is the first of its re-read, and how the read of its line in a far window
has failed, if it has (R228). -/
structure SlotRead where
  value : BitVec 32
  first : Bool
  fail  : Option ReadFail
  deriving DecidableEq, Repr

/-- A report line as it comes, with the failure of its read. -/
structure LineRead where
  line : BitVec 512
  fail : Option ReadFail
  deriving DecidableEq, Repr

/-- A ring entry as it comes, with the failure of its read. -/
structure EntryRead where
  desc : BitVec 1024
  fail : Option ReadFail
  deriving DecidableEq, Repr

/-- Granules that are rebuilt from the lining, with the failure of its read. -/
structure RepairRead where
  granules : List Nat
  fail     : Option ReadFail
  deriving DecidableEq, Repr

/-- A partition that has restored from the lining, with the failure of its read. -/
structure RestoreRead where
  part : Nat
  fail : Option ReadFail
  deriving DecidableEq, Repr

/-- The outcome of a far access (R228). -/
inductive FarOutcome where
  | ok | unsupported | poisoned
  deriving DecidableEq, Repr

/-- What reset a domain (R545): a write of `AVL_RESET`, a hung unit, a watchdog, a reload, or a function-level
reset. Resets of the first and last kind are not counted (R564). -/
inductive ResetCause where
  | requested | hung | watchdog | reload | flr | refReturn
  deriving DecidableEq, Repr

/-- The embedded controllers (R562, R569 reason 20). -/
inductive Controller where
  | steward | sequencer | processor | link
  deriving DecidableEq, Repr

/-- A sender of on-module heartbeats (R562). -/
inductive Beater where
  | cell | forager | steward | sequencer | processor | link
  deriving DecidableEq, Repr

/-- Why a GDDR7 device is retired (R213). -/
inductive DevCause where
  | noSpareRow | errorRows | interface | forager
  deriving DecidableEq, Repr

/-- What the residue checks of an exact accumulator see (R61, R182): no mismatch, one that a repeat clears, or one that the
repeat shows again. -/
inductive Upset where
  | none | repeated | lasting
  deriving DecidableEq, Repr

/-- What the hot-swap monitor, the 171 point-of-load phases and the two standby regulators report of one 50 µs window (R42,
R458): the voltage in mV and the current in mA of the input and of each phase, in the order of R42: C-dies 0-127, M-dies 128-143,
GDDR7 144-155, Q-dies 156-167, H-die 168-170. -/
structure PowerReading where
  vin     : Nat
  iin     : Nat
  phases  : List (Nat × Nat)
  standby : List (Nat × Nat)
  deriving DecidableEq, Repr

/-- Input power in mW (R458). -/
def PowerReading.input (r : PowerReading) : Nat := r.vin * r.iin / 1000

/-- The power of phases `f` to `f + n - 1` in mW (R458). -/
def PowerReading.rails (r : PowerReading) (f n : Nat) : Nat :=
  ((r.phases.drop f).take n).foldl (fun x e => x + e.1 * e.2 / 1000) 0

/-- Rail power of the compute domain: the C-die core rails (R461). -/
def PowerReading.compute (r : PowerReading) : Nat := r.rails 0 128

/-- Rail power of the memory domain: M-die and GDDR7 rails (R461). -/
def PowerReading.memory (r : PowerReading) : Nat := r.rails 128 28

/-- Rail power of the link domain: Q-die rails (R461). -/
def PowerReading.links (r : PowerReading) : Nat := r.rails 156 12

/-- Rail power of the other domain: H-die and standby (R461). -/
def PowerReading.other (r : PowerReading) : Nat := r.rails 168 3 + r.standby.foldl (fun x e => x + e.1 * e.2 / 1000) 0

/-- One die sensor's answer in 1/16 °C, or none where it does not respond (R489). -/
abbrev Reading := Option Int

/-- The outcomes of the steps of a start that the module cannot decide itself (R577-R587): which bank's image
verifies, whether a regulator check left each rail enough phases, whether the reference and the input voltage are
present, what the memory test and the self-test found, and the lines (device, line) that the quick pass had to correct. -/
structure StartFinds where
  imageA    : Bool
  imageB    : Bool
  railsOk   : Bool
  refOk     : Bool
  vinOk     : Bool
  coolOk    : Bool
  badPhases : List Nat
  badRows   : List (Nat × Nat × Nat × Nat)
  corrected : List (Nat × Nat)
  badDevs   : List Nat
  badCells  : List Nat
  badCombs  : List Nat
  badFrgs   : List Nat
  deriving DecidableEq, Repr

/-- What one loop of the governor measures besides power and temperature, which are in the state (R475, R478): whether the
link control held traffic back, and the close-memory bytes each running phase moved; and the rail limits in A that firmware lowers
in it, by rail number (R469). -/
structure LoopFinds where
  linkHeld : Bool
  moved    : List (Nat × Nat)
  lower    : List (Nat × Nat)
  deriving DecidableEq, Repr

/-- Requesters that want one bank of cell memory for a number of clocks (R50). -/
structure BankWait where
  clocks : Nat
  users  : List BankUser
  deriving DecidableEq, Repr

/-- An acc.rd word, and what the residue checks of its accumulators see (R118, R181). -/
structure AccRead where
  f : F3
  u : Upset
  deriving DecidableEq, Repr

/-- A word that the nop command issues: a nop, or any word that spells no instruction (R101). -/
structure NopWord where
  f   : F2
  raw : Option Word
  deriving DecidableEq, Repr

/-- The end of accesses to a save area: the host comb's cell or the partition, and the outcome, none where they were not answered in
time (R81, R82, R228). -/
structure AreaEnd where
  of  : Nat
  out : Option FarOutcome
  deriving DecidableEq, Repr

/-- A descriptor of a class that uses exact accumulators: what their residue checks see, and in which forager (R182, R233). -/
structure AdderRun where
  id  : Nat
  u   : Upset
  frg : Nat
  deriving DecidableEq, Repr

/-- The host's answer to a back-invalidation: the line, and its data where the host held it modified (R312). -/
structure LineAnswer where
  line : Nat
  data : Option (List Byte)
  deriving DecidableEq, Repr

/-- An HDM offset, and whether a peer over Unordered I/O reaches it in place of the host (R317). -/
structure HdmAccess where
  off  : Nat
  peer : Bool
  deriving DecidableEq, Repr

/-- Who writes a register: a function's host or, with `fw`, module firmware (R222). -/
structure RegWriter where
  fn : Nat
  fw : Bool
  deriving DecidableEq, Repr

/-- A packet whose contribution a collective folds, and what the residue checks of its accumulators see (R182). -/
structure CollPacket where
  pkt : Packet
  u   : Upset
  deriving DecidableEq, Repr

/-! ### The commands -/

/-- One constructor per row of the table of operations and events, in the table's order. -/
inductive Instr where
  -- the package and its clocks
  | seamPacketArrival (frm at_ : Nat) (inj : Option SeamPkt) (crcOk : Bool)
  | droopTrip (island : Nat)
  | droopClear (island : Nat)
  | referenceLoss
  | standbyPresent (straps : BitVec 3)
  | standbyLoss
  | zeroFillComplete
  | bankStarvation (cell off : Nat) (w : BankWait)
  -- scalar instructions
  | add (c : Nat) (f : F0)
  | sub (c : Nat) (f : F0)
  | mul (c : Nat) (f : F0)
  | mulh (c : Nat) (f : F0)
  | mulhu (c : Nat) (f : F0)
  | div (c : Nat) (f : F0)
  | divu (c : Nat) (f : F0)
  | rem (c : Nat) (f : F0)
  | remu (c : Nat) (f : F0)
  | and (c : Nat) (f : F0)
  | or (c : Nat) (f : F0)
  | xor (c : Nat) (f : F0)
  | shl (c : Nat) (f : F0)
  | shr (c : Nat) (f : F0)
  | sra (c : Nat) (f : F0)
  | min (c : Nat) (f : F0)
  | max (c : Nat) (f : F0)
  | cmp (c : Nat) (f : F0)
  | plog (c : Nat) (f : F0)
  | csrr (c : Nat) (f : F0)
  | csrw (c : Nat) (f : F0)
  | rdid (c : Nat) (f : F0)
  | addi (c : Nat) (f : F1)
  | li (c : Nat) (f : F1)
  | lui (c : Nat) (f : F1)
  | ld (c : Nat) (f : F1)
  | st (c : Nat) (f : F1)
  | cmpi (c : Nat) (f : F1)
  | andi (c : Nat) (f : F1)
  -- vector instructions
  | vadd (c : Nat) (f : F0)
  | vsub (c : Nat) (f : F0)
  | vmul (c : Nat) (f : F0)
  | vfma (c : Nat) (f : F0)
  | vfms (c : Nat) (f : F0)
  | vmin (c : Nat) (f : F0)
  | vmax (c : Nat) (f : F0)
  | vun (c : Nat) (f : F0)
  | vand (c : Nat) (f : F0)
  | vor (c : Nat) (f : F0)
  | vxor (c : Nat) (f : F0)
  | vsh (c : Nat) (f : F0)
  | vcmp (c : Nat) (f : F0)
  | vsel (c : Nat) (f : F0)
  | vperm (c : Nat) (f : F0)
  | vslide (c : Nat) (f : F0)
  | vcvt (c : Nat) (f : F0)
  | vtr (c : Nat) (f : F0)
  | vbcast (c : Nat) (f : F0)
  | vins (c : Nat) (f : F0)
  | vext (c : Nat) (f : F0)
  | vld (c : Nat) (f : F1)
  | vst (c : Nat) (f : F1)
  -- matrix issue and tile moves
  | mma (c : Nat) (f : F3)
  | accLd (c : Nat) (f : F3)
  | accRd (c : Nat) (r : AccRead)
  | tm (c : Nat) (f : F4)
  | tileMoveComplete (c slot : Nat)
  | tmWait (c : Nat) (f : F4)
  | ldt (c : Nat) (f : F1)
  | stt (c : Nat) (f : F1)
  | tset (c : Nat) (f : F0)
  | tadv (c : Nat) (f : F0)
  -- exact accumulate
  | eaClr (c : Nat) (f : F0)
  | eaAdd (c : Nat) (f : F0) (u : Upset)
  | eaAddm (c : Nat) (f : F0) (u : Upset)
  | eaRd (c : Nat) (f : F0) (u : Upset)
  | eaLdi (c : Nat) (f : F1)
  | eaAddi (c : Nat) (f : F1) (u : Upset)
  | eaSti (c : Nat) (f : F1) (u : Upset)
  | eaMerge (c : Nat) (f : F0) (u : Upset)
  -- sync port, fences, hand-over
  | sigAdd (c : Nat) (f : F5)
  | sigSet (c : Nat) (f : F5)
  | waitGe (c : Nat) (f : F5)
  | waitEq (c : Nat) (f : F5)
  | testGe (c : Nat) (f : F5)
  | sread (c : Nat) (f : F5)
  | cellWaitPoll (c : Nat)
  | fenceLocal (c : Nat) (f : F5)
  | fenceRemote (c : Nat) (f : F5)
  | coll (c : Nat) (f : F5)
  | forg (c : Nat) (f : F5)
  | forgRefusal (c : Nat)
  -- control
  | br (c : Nat) (f : F2)
  | brl (c : Nat) (f : F2)
  | jr (c : Nat) (f : F2)
  | loop (c : Nat) (f : F2)
  | nop (c : Nat) (w : NopWord)
  | halt (c : Nat) (f : F2)
  -- cells and the remap table
  | cellFailed (phys : Nat)
  | guestSwitch (host : Nat)
  | guestSwitchComplete (e : AreaEnd)
  | saveAreaMoveComplete (e : AreaEnd)
  -- commands of the rings
  | kernel (id : Nat)
  | kernelImageLoaded (id : Nat)
  | move (id piece : Nat)
  | forage (id : Nat)
  | collect (id : Nat)
  | sync (id : Nat)
  | fence (id : Nat)
  | epoch (id : Nat)
  | powerWakeTolerance (id : Nat)
  | powerDefaultOpp (id : Nat)
  | nopCommand (id : Nat)
  | commandStart (id : Nat)
  | commandComplete (id : Nat)
  | voltageSettled (die : Nat)
  -- close memory and the far tier
  | closeMemoryRequest (addr : Nat) (wr : Option (List Byte)) (len : Nat) (errs : List (Nat × Byte)) (cmd : Option Nat)
  | deviceRetire (dev : Nat) (cause : DevCause)
  | scrub (dev line : Nat) (errs : List (Nat × Byte)) (flips : Word)
  | farCompletion (tag : Nat) (out : FarOutcome)
  | farTimeout (tag : Nat)
  | windowDrainComplete (host : Bool) (window : Nat)
  -- forager classes
  | stream (id : Nat)
  | reduce (r : AdderRun)
  | gather (id : Nat)
  | scatter (r : AdderRun)
  | histogram (id : Nat)
  | compact (id : Nat)
  | transpose (id : Nat)
  | csr (r : AdderRun)
  | copy (id : Nat)
  | fill (id : Nat)
  | foragerDescriptorComplete (id : Nat)
  | liningCopy (part granule : Nat)
  | liningBudgetSplit
  | copyBeforeWrite (dev granule off : Nat) (data : List Byte)
  | cellCopyBeforeWrite (cell granule off : Nat) (data : List Byte)
  | foragerRetire (frg : Nat)
  -- sync objects and the host link
  | syncObjectUpdate (sig : Nat)
  | waitRetest (id : Nat)
  | backInvalidateComplete (a : LineAnswer)
  | hostMemRead (fn : Nat) (a : HdmAccess)
  | hostMemWrite (fn : Nat) (a : HdmAccess) (data : List Byte)
  | hostLinkDown
  | hostLinkLost
  | perstAssert
  | perstDeassert
  -- BAR0
  | registerWrite (w : RegWriter) (off size : Nat) (value : Word)
  | cfgCommit (fn : Nat)
  | commitComplete (fn : Nat)
  -- doorbells and intake
  | watchedLineInvalidation (part line : Nat)
  | watchedLinePoll
  | farLinePoll (part : Nat)
  | doorbellUpdate (part ring : Nat) (slot : SlotRead)
  | reportLineUpdate (part : Nat) (line : LineRead)
  | entryIntake (part ring : Nat) (desc : EntryRead)
  | dripPointerMismatch (cp : Nat)
  | headLineWrite (part ring : Nat)
  -- Quedar
  | portTrained (port : Nat) (phys : BitVec 12) (pport : BitVec 5) (serial : Word)
  | laneRetire (port lane : Nat)
  | linkRetrain (port : Nat)
  | portFailed (port : Nat)
  | flitReceive (port : Nat) (f : Flit)
  | replayTimeout (port : Nat)
  | idleFlit (port : Nat)
  | packetRoute (frm : Option Nat) (p : Packet) (residence : Nat)
  | decideAgain (place residence : Nat)
  | ageDiscard (place : Nat)
  | retransmitTimeout (cls : BitVec 3) (dstLog : BitVec 12) (seq : BitVec 16)
  | write (p : Packet)
  | read (p : Packet)
  | rdata (p : Packet)
  | ack (p : Packet)
  | refuse (p : Packet)
  | sigaddPkt (p : Packet)
  | sigsetPkt (p : Packet)
  | relay (p : Packet)
  | mgmt (p : Packet)
  | quench (p : Packet)
  | quenchRelease (p : Packet)
  -- collectives
  | allreduce (id : Nat)
  | reduceScatter (id : Nat)
  | allgather (id : Nat)
  | broadcast (id : Nat)
  | barrier (id : Nat)
  | allToAll (id : Nat)
  | waggle (r : CollPacket)
  | grant (p : Packet)
  | coldata (r : CollPacket)
  | collectiveComplete (id : Nat)
  -- the swarm
  | swarmHeartbeatSend
  | swarmHeartbeat (p : Packet)
  | tableUpdate (p : Packet)
  | admissionRequest (p : Packet)
  | admissionResult (p : Packet)
  | takeover (p : Packet)
  | managerLost
  | faultNotice (p : Packet)
  | collectiveAbort (p : Packet)
  | boundaryRequest (p : Packet)
  | memberDeclaredFailed (module : Nat)
  | noManager
  -- power, thermal, cooling
  | governorLoop (m : LoopFinds)
  | powerSample (r : PowerReading)
  | brakeAssert
  | brakeRelease
  | offDrainTimeout
  | mainDomainShutdown
  | idleDepthEntry (part : Nat) (idleUs : Nat)
  | wake (part : Nat)
  | sensorSample (dies : List Reading) (inlet outlet : Reading)
  | sensorRetrust (sensor : Nat)
  | coolFaultAssert
  | riseLimitExceeded
  | coastClear
  | inletOverLimit
  | leakDetected
  | leakSelfTest (isOpen : Bool)
  -- epochs, lining, recovery
  | epochTimer (part : Nat)
  | takeBoundary (part : Nat)
  | syncInEdge
  | syncOutEdge
  | markerDrain (part : Nat) (p : Option Packet)
  | drainComplete (part : Nat)
  | markerDrained (part : Nat) (p : Option Packet)
  | contextWritten (part : Nat)
  | markerCaptured (part : Nat) (p : Option Packet)
  | localCommit (part : Nat)
  | markerCommitted (part : Nat) (p : Option Packet)
  | repair (part : Nat) (granules : RepairRead)
  | recoveryStart (part : Nat) (p : Option Packet)
  | restoreComplete (read : RestoreRead)
  | swarmRestored (part : Nat) (p : Option Packet)
  | replayDone (part : Nat)
  -- resets, hangs
  | cellReset (cell : Nat) (cause : ResetCause)
  | combReset (comb : Nat) (cause : ResetCause)
  | partitionReset (part : Nat) (cause : ResetCause)
  | wholeModuleReset (cause : ResetCause) (finds : StartFinds)
  | resetComplete (domain number : Nat)
  | drainLimit (domain number : Nat)
  | watchdogExpiry (id : Nat)
  | heartbeat (kind : Beater) (unit : Nat)
  | cellHung (cell : Nat)
  | foragerHung (frg : Nat)
  | controllerHung (kind : Controller) (index : Nat)
  | fatalStop (trigger : Nat) (record : List Byte)
  -- start and pins
  | start (finds : StartFinds)
  | pwrEnRelease
  | vinUndervoltage
  | vinRecover
  | vinIsolate
  | placementGo (length : Nat)
  | placementCheck (readOk : Bool) (bytes : List Byte)
  -- management
  | dynamicAddressAssign (setdasa : Option (BitVec 7)) (addr : BitVec 7)
  | mctpControl (known : Bool)
  | pldmGetSensor (sensor : Nat)
  | pldmSetEffecter (effecter value : Nat)
  | pldmPollEvent
  | ibi
  | i3cBusStuck
  | i3cBusRecover
  | getStatus
  | setRackCap (w : BitVec 16)
  | setRun (on : Bool)
  | setHoldup (on : Bool)
  | lights (locate : BitVec 2) (seconds : BitVec 12)
  | lightsClearService
  | locateExpiry
  | readInventory
  | appendRework (entry : List Byte)
  | readFatal (off : BitVec 16)
  | readMember (module : BitVec 12)
  | setStart (quickOk forceFull : Bool)
  | identity
  | attest (nonce : BitVec 256)
  | readLog (first : BitVec 8)
  | fwBegin (length : BitVec 32)
  | fwData (off : BitVec 32) (data : List Byte)
  | fwReceiveTimeout
  | fwEnd
  | fwVerifyDone (loaded : Bool)
  | fwActivate
  | fwActivationTimeout
  | fwConfirm
  | fwAbort
  | ownerEnrol (key : List Byte)
  | ownerSetLock (serial sequence : Word) (body signature : List Byte)
  | ownerClearLock (serial sequence : Word) (body signature : List Byte)
  | ownerReplaceKey (serial sequence : Word) (key body signature : List Byte)
  | ownerRelease (serial sequence : Word) (body signature : List Byte)
  | silentHoldEnter
  | demandClear (fn : Nat)
  -- debug and in-service tests
  | freeze (fn : Nat)
  | freezeRelease (fn : Nat)
  | dumpComplete
  | istCell
  | istForager
  | istLane
  | istPhase
  | istComplete (passed : Bool) (errors : Nat)
  -- rows listed last in the table
  | hostLinkUp (flit256 : Bool)
  | coolFaultDeassert
  | regulatorPhaseRetire (phase : Nat)
  | fwControllersReady
  | wakeComplete (part : Nat)
  | hourCountUpdate
  deriving DecidableEq, Repr

end Sys2Proof
end

