-- ==== Sys2Proof/Decode.lean ====
section
/-!
DEFINITION. Decoding. No row of the table of operations gives bits, so no table word spells a command. The words of
cell instructions (R98-R102) are encoded and decoded here as well: bits [63:61] format, [60:54] opcode, [53:50] the
guarding predicate, and the fields of the format.
-/

namespace Sys2Proof

/-- The command that a table word spells: none, since no row gives bits. -/
def decodeTableWord (_nbits _w : Nat) : Option Instr := none

/-! ### Encoding of cell instructions (R98, R99, R102) -/

/-- Bits [63:50] of a word. -/
def wordHead (fmt : BitVec 3) (op : BitVec 7) (g : Guard) : BitVec 14 := fmt ++ op ++ g.pr ++ BitVec.ofBool g.pn

/-- A register word. -/
def encF0 (op : BitVec 7) (f : F0) : BitVec 64 :=
  wordHead 0 op f.g ++ f.rd ++ f.ra ++ f.rb ++ f.rc ++ f.ty ++ f.rm ++ f.ri ++ f.xop ++ f.res

/-- An immediate word. -/
def encF1 (op : BitVec 7) (f : F1) : BitVec 64 := wordHead 1 op f.g ++ f.rd ++ f.ra ++ f.ty ++ f.res ++ f.imm

/-- A branch word. -/
def encF2 (op : BitVec 7) (f : F2) : BitVec 64 := wordHead 2 op f.g ++ f.ra ++ f.target ++ f.res

/-- A matrix word. -/
def encF3 (op : BitVec 7) (f : F3) : BitVec 64 :=
  wordHead 3 op f.g ++ f.acc ++ f.ta ++ f.tb ++ f.sk ++ f.sm ++ f.sn ++ f.cm ++ f.ri ++ f.aty ++ f.res

/-- A tile word. -/
def encF4 (op : BitVec 7) (f : F4) : BitVec 64 := wordHead 4 op f.g ++ f.td ++ f.ts ++ f.id ++ f.sg ++ f.res

/-- An extended word. -/
def encF5 (op : BitVec 7) (f : F5) : BitVec 64 := wordHead 5 op f.g ++ f.sa ++ f.sb ++ f.sd ++ f.pd ++ f.imm

/-- The word of a cell instruction, and the cell that issues it; none for any
other command. A word says nothing of an upset (R61). -/
def encodeCell (i : Instr) : Option (Nat × BitVec 64) :=
  match i with
  | .add c f => some (c, encF0 0x00 f)
  | .sub c f => some (c, encF0 0x01 f)
  | .mul c f => some (c, encF0 0x02 f)
  | .mulh c f => some (c, encF0 0x03 f)
  | .mulhu c f => some (c, encF0 0x04 f)
  | .div c f => some (c, encF0 0x05 f)
  | .divu c f => some (c, encF0 0x06 f)
  | .rem c f => some (c, encF0 0x07 f)
  | .remu c f => some (c, encF0 0x08 f)
  | .and c f => some (c, encF0 0x09 f)
  | .or c f => some (c, encF0 0x0A f)
  | .xor c f => some (c, encF0 0x0B f)
  | .shl c f => some (c, encF0 0x0C f)
  | .shr c f => some (c, encF0 0x0D f)
  | .sra c f => some (c, encF0 0x0E f)
  | .min c f => some (c, encF0 0x0F f)
  | .max c f => some (c, encF0 0x10 f)
  | .cmp c f => some (c, encF0 0x11 f)
  | .plog c f => some (c, encF0 0x12 f)
  | .csrr c f => some (c, encF0 0x13 f)
  | .csrw c f => some (c, encF0 0x14 f)
  | .rdid c f => some (c, encF0 0x15 f)
  | .addi c f => some (c, encF1 0x18 f)
  | .li c f => some (c, encF1 0x19 f)
  | .lui c f => some (c, encF1 0x1A f)
  | .ld c f => some (c, encF1 0x1B f)
  | .st c f => some (c, encF1 0x1C f)
  | .cmpi c f => some (c, encF1 0x1D f)
  | .andi c f => some (c, encF1 0x1E f)
  | .vadd c f => some (c, encF0 0x20 f)
  | .vsub c f => some (c, encF0 0x21 f)
  | .vmul c f => some (c, encF0 0x22 f)
  | .vfma c f => some (c, encF0 0x23 f)
  | .vfms c f => some (c, encF0 0x24 f)
  | .vmin c f => some (c, encF0 0x25 f)
  | .vmax c f => some (c, encF0 0x26 f)
  | .vun c f => some (c, encF0 0x27 f)
  | .vand c f => some (c, encF0 0x28 f)
  | .vor c f => some (c, encF0 0x29 f)
  | .vxor c f => some (c, encF0 0x2A f)
  | .vsh c f => some (c, encF0 0x2B f)
  | .vcmp c f => some (c, encF0 0x2C f)
  | .vsel c f => some (c, encF0 0x2D f)
  | .vperm c f => some (c, encF0 0x2E f)
  | .vslide c f => some (c, encF0 0x2F f)
  | .vcvt c f => some (c, encF0 0x30 f)
  | .vtr c f => some (c, encF0 0x31 f)
  | .vbcast c f => some (c, encF0 0x32 f)
  | .vins c f => some (c, encF0 0x33 f)
  | .vext c f => some (c, encF0 0x34 f)
  | .vld c f => some (c, encF1 0x38 f)
  | .vst c f => some (c, encF1 0x39 f)
  | .mma c f => some (c, encF3 0x40 f)
  | .accLd c f => some (c, encF3 0x41 f)
  | .accRd c ⟨f, .none⟩ => some (c, encF3 0x42 f)
  | .tm c f => some (c, encF4 0x50 f)
  | .tmWait c f => some (c, encF4 0x51 f)
  | .ldt c f => some (c, encF1 0x52 f)
  | .stt c f => some (c, encF1 0x53 f)
  | .tset c f => some (c, encF0 0x54 f)
  | .tadv c f => some (c, encF0 0x55 f)
  | .eaClr c f => some (c, encF0 0x58 f)
  | .eaAdd c f .none => some (c, encF0 0x59 f)
  | .eaAddm c f .none => some (c, encF0 0x5A f)
  | .eaRd c f .none => some (c, encF0 0x5B f)
  | .eaLdi c f => some (c, encF1 0x5C f)
  | .eaAddi c f .none => some (c, encF1 0x5D f)
  | .eaSti c f .none => some (c, encF1 0x5E f)
  | .eaMerge c f .none => some (c, encF0 0x5F f)
  | .sigAdd c f => some (c, encF5 0x60 f)
  | .sigSet c f => some (c, encF5 0x61 f)
  | .waitGe c f => some (c, encF5 0x62 f)
  | .waitEq c f => some (c, encF5 0x63 f)
  | .testGe c f => some (c, encF5 0x64 f)
  | .sread c f => some (c, encF5 0x65 f)
  | .fenceLocal c f => some (c, encF5 0x66 f)
  | .fenceRemote c f => some (c, encF5 0x67 f)
  | .coll c f => some (c, encF5 0x68 f)
  | .forg c f => some (c, encF5 0x6C f)
  | .br c f => some (c, encF2 0x70 f)
  | .brl c f => some (c, encF2 0x71 f)
  | .jr c f => some (c, encF2 0x72 f)
  | .loop c f => some (c, encF2 0x73 f)
  | .nop c ⟨f, none⟩ => some (c, encF2 0x7E f)
  | .nop c ⟨_, some w⟩ => some (c, w)
  | .halt c f => some (c, encF2 0x7F f)
  | _ => none

/-! ### Decoding of cell instructions -/

/-- The guarding predicate of a word. -/
def decGuard (w : BitVec 64) : Guard := { pr := w.extractLsb' 51 3, pn := w.getLsbD 50 }

/-- The fields of a register word. -/
def decF0 (w : BitVec 64) : F0 :=
  { g := decGuard w, rd := w.extractLsb' 45 5, ra := w.extractLsb' 40 5, rb := w.extractLsb' 35 5,
    rc := w.extractLsb' 30 5, ty := w.extractLsb' 26 4, rm := w.extractLsb' 23 3, ri := w.extractLsb' 18 5,
    xop := w.extractLsb' 12 6, res := w.extractLsb' 0 12 }

/-- The fields of a immediate word. -/
def decF1 (w : BitVec 64) : F1 :=
  { g := decGuard w, rd := w.extractLsb' 45 5, ra := w.extractLsb' 40 5, ty := w.extractLsb' 36 4,
    res := w.extractLsb' 32 4, imm := w.extractLsb' 0 32 }

/-- The fields of a branch word. -/
def decF2 (w : BitVec 64) : F2 :=
  { g := decGuard w, ra := w.extractLsb' 45 5, target := w.extractLsb' 31 14, res := w.extractLsb' 0 31 }

/-- The fields of a matrix word. -/
def decF3 (w : BitVec 64) : F3 :=
  { g := decGuard w, acc := w.extractLsb' 48 2, ta := w.extractLsb' 44 4, tb := w.extractLsb' 40 4,
    sk := w.extractLsb' 35 5, sm := w.extractLsb' 30 5, sn := w.extractLsb' 25 5, cm := w.extractLsb' 23 2,
    ri := w.extractLsb' 18 5, aty := w.extractLsb' 14 4, res := w.extractLsb' 0 14 }

/-- The fields of a tile word. -/
def decF4 (w : BitVec 64) : F4 :=
  { g := decGuard w, td := w.extractLsb' 46 4, ts := w.extractLsb' 42 4, id := w.extractLsb' 40 2,
    sg := w.extractLsb' 35 5, res := w.extractLsb' 0 35 }

/-- The fields of a extended word. -/
def decF5 (w : BitVec 64) : F5 :=
  { g := decGuard w, sa := w.extractLsb' 45 5, sb := w.extractLsb' 40 5, sd := w.extractLsb' 35 5,
    pd := w.extractLsb' 32 3, imm := w.extractLsb' 0 32 }

/-- The instructions of register words, by opcode. -/
def opF0 (op c : Nat) (f : F0) : Option Instr :=
  match op with
  | 0x00 => some (.add c f)
  | 0x01 => some (.sub c f)
  | 0x02 => some (.mul c f)
  | 0x03 => some (.mulh c f)
  | 0x04 => some (.mulhu c f)
  | 0x05 => some (.div c f)
  | 0x06 => some (.divu c f)
  | 0x07 => some (.rem c f)
  | 0x08 => some (.remu c f)
  | 0x09 => some (.and c f)
  | 0x0A => some (.or c f)
  | 0x0B => some (.xor c f)
  | 0x0C => some (.shl c f)
  | 0x0D => some (.shr c f)
  | 0x0E => some (.sra c f)
  | 0x0F => some (.min c f)
  | 0x10 => some (.max c f)
  | 0x11 => some (.cmp c f)
  | 0x12 => some (.plog c f)
  | 0x13 => some (.csrr c f)
  | 0x14 => some (.csrw c f)
  | 0x15 => some (.rdid c f)
  | 0x20 => some (.vadd c f)
  | 0x21 => some (.vsub c f)
  | 0x22 => some (.vmul c f)
  | 0x23 => some (.vfma c f)
  | 0x24 => some (.vfms c f)
  | 0x25 => some (.vmin c f)
  | 0x26 => some (.vmax c f)
  | 0x27 => some (.vun c f)
  | 0x28 => some (.vand c f)
  | 0x29 => some (.vor c f)
  | 0x2A => some (.vxor c f)
  | 0x2B => some (.vsh c f)
  | 0x2C => some (.vcmp c f)
  | 0x2D => some (.vsel c f)
  | 0x2E => some (.vperm c f)
  | 0x2F => some (.vslide c f)
  | 0x30 => some (.vcvt c f)
  | 0x31 => some (.vtr c f)
  | 0x32 => some (.vbcast c f)
  | 0x33 => some (.vins c f)
  | 0x34 => some (.vext c f)
  | 0x54 => some (.tset c f)
  | 0x55 => some (.tadv c f)
  | 0x58 => some (.eaClr c f)
  | 0x59 => some (.eaAdd c f .none)
  | 0x5A => some (.eaAddm c f .none)
  | 0x5B => some (.eaRd c f .none)
  | 0x5F => some (.eaMerge c f .none)
  | _ => none

/-- The instructions of immediate words, by opcode. -/
def opF1 (op c : Nat) (f : F1) : Option Instr :=
  match op with
  | 0x18 => some (.addi c f)
  | 0x19 => some (.li c f)
  | 0x1A => some (.lui c f)
  | 0x1B => some (.ld c f)
  | 0x1C => some (.st c f)
  | 0x1D => some (.cmpi c f)
  | 0x1E => some (.andi c f)
  | 0x38 => some (.vld c f)
  | 0x39 => some (.vst c f)
  | 0x52 => some (.ldt c f)
  | 0x53 => some (.stt c f)
  | 0x5C => some (.eaLdi c f)
  | 0x5D => some (.eaAddi c f .none)
  | 0x5E => some (.eaSti c f .none)
  | _ => none

/-- The instructions of branch words, by opcode. -/
def opF2 (op c : Nat) (f : F2) : Option Instr :=
  match op with
  | 0x70 => some (.br c f)
  | 0x71 => some (.brl c f)
  | 0x72 => some (.jr c f)
  | 0x73 => some (.loop c f)
  | 0x7E => some (.nop c ⟨f, none⟩)
  | 0x7F => some (.halt c f)
  | _ => none

/-- The instructions of matrix words, by opcode. -/
def opF3 (op c : Nat) (f : F3) : Option Instr :=
  match op with
  | 0x40 => some (.mma c f)
  | 0x41 => some (.accLd c f)
  | 0x42 => some (.accRd c ⟨f, .none⟩)
  | _ => none

/-- The instructions of tile words, by opcode. -/
def opF4 (op c : Nat) (f : F4) : Option Instr :=
  match op with
  | 0x50 => some (.tm c f)
  | 0x51 => some (.tmWait c f)
  | _ => none

/-- The instructions of extended words, by opcode. -/
def opF5 (op c : Nat) (f : F5) : Option Instr :=
  match op with
  | 0x60 => some (.sigAdd c f)
  | 0x61 => some (.sigSet c f)
  | 0x62 => some (.waitGe c f)
  | 0x63 => some (.waitEq c f)
  | 0x64 => some (.testGe c f)
  | 0x65 => some (.sread c f)
  | 0x66 => some (.fenceLocal c f)
  | 0x67 => some (.fenceRemote c f)
  | 0x68 => some (.coll c f)
  | 0x6C => some (.forg c f)
  | _ => none

/-- The instruction that a word spells at cell `c`: none for formats 6 and 7, an opcode that is not assigned, and an
opcode of another format (R101, R102). -/
def decodeCell (c : Nat) (w : BitVec 64) : Option Instr :=
  let op := (w.extractLsb' 54 7).toNat
  match (w.extractLsb' 61 3).toNat with
  | 0 => opF0 op c (decF0 w)
  | 1 => opF1 op c (decF1 w)
  | 2 => opF2 op c (decF2 w)
  | 3 => opF3 op c (decF3 w)
  | 4 => opF4 op c (decF4 w)
  | 5 => opF5 op c (decF5 w)
  | _ => none

end Sys2Proof
end

