-- ==== Sys2Proof/Config.lean ====
section
/-!
DEFINITION. The values the spec leaves open, as opaque constants: nothing can evaluate them, so a statement about the
model holds whatever they are. Each is named in the assumption log.
-/

namespace Sys2Proof.Config

/-- Log 1: a fresh value the spec does not state, by the model's counter. -/
opaque freeValue : Nat → Nat

/-- Log 8: the bits of a `vtr` result for an ordinary input (R161), by `arev`, function and FP32 input. -/
opaque vtrBits : Nat → Nat → Nat → Nat

/-- Log 9: the sum field of an accumulator that leaves its range (R172, R178), by kind and exact sum. -/
opaque overflowSum : Nat → Int → Nat

/-- Log 31: the bin of a `HISTOGRAM` element for which the bin's own arithmetic gives a NaN (R266), by `arev`, format, element, lo
and scale. -/
opaque nanBin : Nat → Nat → Nat → Nat → Nat → Int

/-- Log 10: the internal order of accumulator array 0-3 in a save area (R689): which byte of the array each place of its 16 KiB
holds. -/
opaque accOrder : Nat → Equiv.Perm (Fin 16384)

/-- Log 3: what a byte of host memory or of the far tier holds before the module writes it, by address. -/
opaque extByte : Nat → BitVec 8

/-- Log 5: the voltage of a comb operating point as calibrated, in mV, by index (R462). -/
opaque oppMv : Nat → Nat

/-- Log 4: the silicon stepping (R328). -/
opaque stepping : BitVec 4

/-- Log 4: the module's serial number (R328, R614). -/
opaque serial : BitVec 64

/-- Log 92: SHAKE256 with a 512-bit output (R620), which the spec names and does not define. -/
opaque shake256 : List (BitVec 8) → BitVec 512

/-- Log 92: whether a signature verifies (R616, R617): the signed bytes, the key, the signature. -/
opaque signed : List (BitVec 8) → List (BitVec 8) → List (BitVec 8) → Bool

/-- Log 92: a signature that the identity key makes with an index over bytes. -/
opaque signature : Nat → List (BitVec 8) → List (BitVec 8)

/-- Log 4: the bytes of the firmware image as shipped. -/
opaque shippedBytes : List (BitVec 8)

/-- Log 4: the digest of the boot ROM. -/
opaque romDigest : BitVec 512

/-- Log 4: the digest of the firmware key in fuses. -/
opaque keyDigest : BitVec 512

/-- Log 93: the event kinds of the measurement log (R621), in the order of this model. -/
opaque measKind : Nat → BitVec 8

/-- Log 4: the module's identity public key, and Uliarn's endorsement of it (R623). -/
opaque identity : List (BitVec 8)

/-- Log 100: the 8 bytes of light states in GET_STATUS (R607), by the patterns of the status, service and locate lights. -/
opaque lightWord : Nat → Nat → Nat → Nat

/-- Log 121: the stored bit of cell memory that an upset flips at a reference tick, if any: the 64-bit word from the first address
of cell memory, and one of its 72 stored bits (R51). -/
opaque upset : Nat → Option (Nat × Nat)

end Sys2Proof.Config
end

