-- ==== Sys2Proof/Machine/Num.lean ====
section
/-!
DEFINITION. Number formats, exact arithmetic and rounding (R141-R161).

A floating-point value is a NaN, an infinity, or a finite sign, magnitude and power of two, so that sums and products
are exact; rounding happens once, in `roundTo`. Flags are the bits of `xstat` (R137) as a natural number.
-/

namespace Sys2Proof.Machine

/-! ### Flags (R137, R158) -/

/-- Invalid operation. -/
def fNv : Nat := 1
/-- Division by zero. -/
def fDz : Nat := 2
/-- Overflow. -/
def fOf : Nat := 4
/-- Underflow. -/
def fUf : Nat := 8
/-- Inexact. -/
def fNx : Nat := 16
/-- Exact-accumulator range exceeded. -/
def fEovf : Nat := 32
/-- Integer saturation. -/
def fSat : Nat := 64

/-- The flag `f` where the condition holds. -/
def flagIf (b : Bool) (f : Nat) : Nat := if b then f else 0

/-- The union of two sets of flags. -/
def orf (a b : Nat) : Nat := a ||| b

/-! ### Two's complement -/

/-- The signed reading of the low `w` bits of `x` (R142). -/
def toSigned (w x : Nat) : Int :=
  let y := x % 2 ^ w
  if y < 2 ^ (w - 1) then Int.ofNat y else Int.ofNat y - Int.ofNat (2 ^ w)

/-- The low `w` bits of an integer. -/
def wrap (w : Nat) (x : Int) : Nat := (x % Int.ofNat (2 ^ w)).toNat

/-- The integer `x` clamped to a signed width, and whether it was outside. -/
def saturate (w : Nat) (x : Int) : Nat × Bool :=
  if x < - Int.ofNat (2 ^ (w - 1)) then (2 ^ (w - 1), true)
  else if Int.ofNat (2 ^ (w - 1)) ≤ x then (2 ^ (w - 1) - 1, true)
  else (wrap w x, false)

/-! ### Formats (R141, R144) -/

/-- A floating-point format: exponent and mantissa widths, bias, whether it has an infinity and NaNs, the default
NaN, and the code of the largest finite value. -/
structure FpFmt where
  ew      : Nat
  mw      : Nat
  bias    : Nat
  hasInf  : Bool
  hasNan  : Bool
  nan     : Nat
  maxCode : Nat
  deriving DecidableEq, Repr

/-- FP64. -/
def fp64 : FpFmt :=
  { ew := 11, mw := 52, bias := 1023, hasInf := true, hasNan := true, nan := 0x7FF8000000000000,
    maxCode := 0x7FEFFFFFFFFFFFFF }
/-- FP32. -/
def fp32 : FpFmt :=
  { ew := 8, mw := 23, bias := 127, hasInf := true, hasNan := true, nan := 0x7FC00000, maxCode := 0x7F7FFFFF }
/-- BF16. -/
def bf16 : FpFmt :=
  { ew := 8, mw := 7, bias := 127, hasInf := true, hasNan := true, nan := 0x7FC0, maxCode := 0x7F7F }
/-- FP16. -/
def fp16 : FpFmt :=
  { ew := 5, mw := 10, bias := 15, hasInf := true, hasNan := true, nan := 0x7E00, maxCode := 0x7BFF }
/-- FP8 E5M2 and the MXFP8 E5M2 element. -/
def e5m2 : FpFmt :=
  { ew := 5, mw := 2, bias := 15, hasInf := true, hasNan := true, nan := 0x7E, maxCode := 0x7B }
/-- FP8 E4M3 and the MXFP8 E4M3 element: its NaN has exponent and mantissa all ones. -/
def e4m3 : FpFmt :=
  { ew := 4, mw := 3, bias := 7, hasInf := false, hasNan := true, nan := 0x7F, maxCode := 0x7E }
/-- MXFP6 E3M2 element. -/
def e3m2 : FpFmt :=
  { ew := 3, mw := 2, bias := 3, hasInf := false, hasNan := false, nan := 0, maxCode := 0x1F }
/-- MXFP6 E2M3 element. -/
def e2m3 : FpFmt :=
  { ew := 2, mw := 3, bias := 1, hasInf := false, hasNan := false, nan := 0, maxCode := 0x1F }
/-- MXFP4 E2M1 element. -/
def e2m1 : FpFmt :=
  { ew := 2, mw := 1, bias := 1, hasInf := false, hasNan := false, nan := 0, maxCode := 0x7 }

/-- The width of a format in bits. -/
def FpFmt.width (f : FpFmt) : Nat := 1 + f.ew + f.mw

/-- The element formats of the format codes (R107): an integer of some width, a floating-point format, or MXINT8. -/
inductive Elem where
  | int (w : Nat)
  | fp (f : FpFmt)
  | mxint8
  deriving DecidableEq, Repr

/-- The format of a 4-bit type code (R107). -/
def elemOf : Nat → Elem
  | 0 => .int 8 | 1 => .int 16 | 2 => .int 32 | 3 => .int 64
  | 4 => .fp e4m3 | 5 => .fp e5m2 | 6 => .fp fp16 | 7 => .fp bf16 | 8 => .fp fp32 | 9 => .fp fp64
  | 10 => .fp e4m3 | 11 => .fp e5m2 | 12 => .fp e3m2 | 13 => .fp e2m3 | 14 => .fp e2m1 | _ => .mxint8

/-- The element width of a format code in bits, 640 for an image (R107). -/
def codeWidth : Nat → Nat
  | 0 => 8 | 1 => 16 | 2 => 32 | 3 => 64 | 4 => 8 | 5 => 8 | 6 => 16 | 7 => 16 | 8 => 32 | 9 => 64
  | 10 => 8 | 11 => 8 | 12 => 6 | 13 => 6 | 14 => 4 | 15 => 8 | _ => 640

/-- The code names an MX format (R107). -/
def isMx (c : Nat) : Bool := 10 ≤ c && c ≤ 15

/-- The code names an integer format (R107). -/
def isInt (c : Nat) : Bool := c ≤ 3

/-! ### Values -/

/-- An exact value: a NaN (with whether it signals), an infinity, or `(-1)^neg * m * 2^e`. -/
inductive Fp where
  | nan (signals : Bool)
  | inf (neg : Bool)
  | fin (neg : Bool) (m : Nat) (e : Int)
  deriving DecidableEq, Repr

/-- The value of a bit pattern (R141, R145, R146). -/
def FpFmt.decode (f : FpFmt) (x : Nat) : Fp :=
  let neg := bit x (f.ew + f.mw)
  let ex := bits x f.mw f.ew
  let mant := bits x 0 f.mw
  if f.hasInf && ex == 2 ^ f.ew - 1 then
    if mant == 0 then .inf neg else .nan (! bit mant (f.mw - 1))
  else if !f.hasInf && f.hasNan && bits x 0 (f.ew + f.mw) == f.nan then .nan false
  else if ex == 0 then .fin neg mant (1 - Int.ofNat f.bias - Int.ofNat f.mw)
  else .fin neg (2 ^ f.mw + mant) (Int.ofNat ex - Int.ofNat f.bias - Int.ofNat f.mw)

/-- A value is a signalling NaN (R145). -/
def Fp.snan : Fp → Bool
  | .nan b => b
  | _ => false

/-- A value is a NaN. -/
def Fp.isNan : Fp → Bool
  | .nan _ => true
  | _ => false

/-- The value of an MX element's own bits (R147): MXINT8 is its integer times 2^-6. -/
def Elem.decode : Elem → Nat → Fp
  | .int w, x =>
    let v := toSigned w x
    .fin (decide (v < 0)) v.natAbs 0
  | .fp f, x => f.decode x
  | .mxint8, x =>
    let v := toSigned 8 x
    .fin (decide (v < 0)) v.natAbs (-6)

/-- The value with its sign inverted. -/
def Fp.negate : Fp → Fp
  | .nan b => .nan b
  | .inf n => .inf (!n)
  | .fin n m e => .fin (!n) m e

/-- The value times a power of two. -/
def Fp.scale (k : Int) : Fp → Fp
  | .nan b => .nan b
  | .inf n => .inf n
  | .fin n m e => .fin n m (e + k)

/-- The signed integer `v / 2^e0` of a finite value whose exponent is at least `e0`. -/
def Fp.atExp (e0 : Int) : Fp → Int
  | .fin n m e =>
    let k := Int.ofNat (m * 2 ^ (e - e0).toNat)
    if n then -k else k
  | _ => 0

/-- The exponent of a finite value, or `d`. -/
def Fp.expOr (d : Int) : Fp → Int
  | .fin _ _ e => e
  | _ => d

/-- The exact product, and `nv` for 0 × infinity and signalling inputs (R158). -/
def Fp.mul (a b : Fp) : Fp × Nat :=
  let sn := flagIf (a.snan || b.snan) fNv
  match a, b with
  | .nan _, _ => (.nan false, sn)
  | _, .nan _ => (.nan false, sn)
  | .inf x, .inf y => (.inf (x != y), 0)
  | .inf x, .fin y m _ => if m = 0 then (.nan false, fNv) else (.inf (x != y), 0)
  | .fin x m _, .inf y => if m = 0 then (.nan false, fNv) else (.inf (x != y), 0)
  | .fin x m e, .fin y n g => (.fin (x != y) (m * n) (e + g), 0)

/-- The sign of an exact zero sum (R154): negative only when every addend is -0, or when the mode is RD and not
every addend is +0. -/
def zeroSign (rd allNeg allPos : Bool) : Bool := allNeg || (rd && !allPos)

/-- The exact sum of a list of values, and its flags (R154, R158, R163). `rd` is that the mode is RD. -/
def Fp.sum (rd : Bool) (vs : List Fp) : Fp × Nat :=
  let sn := flagIf (vs.any Fp.snan) fNv
  if vs.any Fp.isNan then (.nan false, sn)
  else
    let pos := vs.any (fun v => v == .inf false)
    let neg := vs.any (fun v => v == .inf true)
    if pos && neg then (.nan false, orf sn fNv)
    else if pos then (.inf false, sn)
    else if neg then (.inf true, sn)
    else
      let e0 := vs.foldl (fun a v => min a (v.expOr a)) ((vs.head?.getD (.fin false 0 0)).expOr 0)
      let t := vs.foldl (fun a v => a + v.atExp e0) 0
      if t = 0 then
        let allNeg := !vs.isEmpty && vs.all (fun v => match v with | .fin n m _ => n && m == 0 | _ => false)
        let allPos := vs.isEmpty || vs.all (fun v => match v with | .fin n m _ => !n && m == 0 | _ => false)
        (.fin (zeroSign rd allNeg allPos) 0 0, sn)
      else (.fin (decide (t < 0)) t.natAbs e0, sn)

/-! ### Rounding (R152-R156) -/

/-- The rounding modes of R152. -/
inductive RMode where
  | rne | rz | ru | rd | sr
  deriving DecidableEq, Repr

/-- The mode of a code 0-4 (R152); other codes are refused before. -/
def rmodeOf : Nat → RMode
  | 0 => .rne | 1 => .rz | 2 => .ru | 3 => .rd | _ => .sr

/-- The 32 bits that stochastic rounding draws for index `idx` (R155). -/
def stochDraw (seed idx : Word) : Nat :=
  let x := seed ^^^ (idx * 0x9E3779B97F4A7C15#64)
  let x := x ^^^ (x >>> 30)
  let x := x * 0xBF58476D1CE4E5B9#64
  let x := x ^^^ (x >>> 27)
  let x := x * 0x94D049BB133111EB#64
  let x := x ^^^ (x >>> 31)
  x.toNat / 2 ^ 32

/-- Round `num / 2^d` to an integer under a mode (R152, R156), and whether it was inexact. `r` is the stochastic
draw. -/
def roundInt (mode : RMode) (r : Nat) (neg : Bool) (num d : Nat) : Nat × Bool :=
  let m := num / 2 ^ d
  let f := num % 2 ^ d
  if f = 0 then (m, false)
  else
    let up := match mode with
      | .rne => decide (2 ^ d < 2 * f) || (2 * f == 2 ^ d && m % 2 == 1)
      | .rz => false
      | .ru => !neg
      | .rd => neg
      | .sr => decide (r < f * 2 ^ 32 / 2 ^ d)
    (if up then m + 1 else m, true)

/-- Round a nonzero magnitude `m * 2^e` to a multiple of `2^q`. -/
def roundAt (mode : RMode) (r : Nat) (neg : Bool) (m : Nat) (e q : Int) : Nat × Bool :=
  if q ≤ e then (m * 2 ^ (e - q).toNat, false) else roundInt mode r neg m (q - e).toNat

/-- The bit pattern of a finite magnitude `k * 2^q` that the format represents, with `q` the weight of the format's
last place at that magnitude. -/
def FpFmt.pack (f : FpFmt) (k : Nat) (q : Int) : Nat :=
  let qmin : Int := 1 - Int.ofNat f.bias - Int.ofNat f.mw
  if k < 2 ^ f.mw then k
  else ((q - qmin).toNat + 1) * 2 ^ f.mw + (k - 2 ^ f.mw)

/-- Round a finite nonzero value once to a format (R152, R153), with the flags of R158. `clamp` makes finite
overflow clamp in every mode, as in a format without infinity and in a conversion to an MX format. -/
def FpFmt.roundFin (f : FpFmt) (clamp : Bool) (mode : RMode) (r : Nat) (neg : Bool) (m : Nat) (e : Int) :
    Nat × Nat :=
  let sgn := if neg then 2 ^ (f.ew + f.mw) else 0
  let top := Int.ofNat (Nat.log2 m) + e
  let qmin : Int := 1 - Int.ofNat f.bias - Int.ofNat f.mw
  let q := max (top - Int.ofNat f.mw) qmin
  let (k, inex) := roundAt mode r neg m e q
  let code := f.pack k q
  let exceeds := decide (f.maxCode < code)
  if exceeds then
    let toMax := clamp || !f.hasInf || mode == .rz || (mode == .ru && neg) || (mode == .rd && !neg)
    (sgn + (if toMax then f.maxCode else (2 ^ f.ew - 1) * 2 ^ f.mw), orf fOf fNx)
  else
    -- tininess after rounding (R158): the value rounded with an unbounded exponent lies below the smallest normal
    let qu := top - Int.ofNat f.mw
    let (ku, _) := roundAt mode r neg m e qu
    let tiny := decide (qu < qmin) && !(qu + 1 == qmin && ku == 2 ^ (f.mw + 1))
    (sgn + code, orf (flagIf inex fNx) (flagIf (inex && tiny) fUf))

/-- Round a value once to a format (R144, R152, R153). -/
def FpFmt.round (f : FpFmt) (mode : RMode) (r : Nat) (v : Fp) : Nat × Nat :=
  match v with
  | .nan s => (f.nan, flagIf s fNv)
  | .inf n =>
    if f.hasInf then ((if n then 2 ^ (f.ew + f.mw) else 0) + (2 ^ f.ew - 1) * 2 ^ f.mw, 0) else (f.nan, fNv)
  | .fin n m e =>
    if m = 0 then ((if n then 2 ^ (f.ew + f.mw) else 0), 0) else f.roundFin false mode r n m e

/-- Round a value to a signed integer of width `w`: saturating, a NaN giving 0 (R103, R158). -/
def roundToInt (w : Nat) (mode : RMode) (r : Nat) (v : Fp) : Nat × Nat :=
  match v with
  | .nan _ => (0, fNv)
  | .inf n => (if n then 2 ^ (w - 1) else 2 ^ (w - 1) - 1, fNv)
  | .fin n m e =>
    let (k, inex) := if m = 0 then (0, false) else roundAt mode r n m e 0
    let x : Int := if n then - Int.ofNat k else Int.ofNat k
    let (y, out) := saturate w x
    (y, if out then fNv else flagIf inex fNx)

/-! ### Lane operations (R103, R159, R160) -/

/-- The lane count of a type code 0-9 (R58). -/
def laneCount (ty : Nat) : Nat := 2048 / codeWidth ty

/-- Lane `l` of a register with lanes of `w` bits. -/
def lane (w x l : Nat) : Nat := bits x (l * w) w

/-- The register whose lanes from lane 0 are the list, each of `w` bits. -/
def ofLanes (w : Nat) : List Nat → Nat
  | [] => 0
  | x :: xs => x % 2 ^ w + 2 ^ w * ofLanes w xs

/-- A lane-wise operation that gives a value and flags, over `n` lanes: the register and the union of the flags. -/
def mapLanes (w n : Nat) (op : Nat → Nat × Nat) : Nat × Nat :=
  let rs := (List.range n).map op
  (ofLanes w (rs.map Prod.fst), rs.foldl (fun a p => orf a p.2) 0)

/-- The comparison codes of cmp (R102) on 64-bit or narrower integers. -/
def intCmp (w xop a b : Nat) : Bool :=
  match xop with
  | 0 => a == b
  | 1 => a != b
  | 2 => decide (toSigned w a < toSigned w b)
  | 3 => decide (toSigned w a ≤ toSigned w b)
  | 4 => decide (a < b)
  | _ => decide (a ≤ b)

/-- The order of two values that are not NaN; `none` when one is. -/
def Fp.cmp (a b : Fp) : Option Ordering :=
  match a, b with
  | .nan _, _ => none
  | _, .nan _ => none
  | .inf x, .inf y => some (if x == y then .eq else if x then .lt else .gt)
  | .inf x, .fin _ _ _ => some (if x then .lt else .gt)
  | .fin _ _ _, .inf y => some (if y then .gt else .lt)
  | .fin x m e, .fin y n g =>
    let e0 := min e g
    some (compare ((Fp.fin x m e).atExp e0) ((Fp.fin y n g).atExp e0))

/-- The comparisons of vcmp on floating-point lanes (R102, R160), and `nv`. Ordered comparisons other than eq, ne,
unordered and ordered signal on a quiet NaN under IEEE 754-2019 only where the spec says so: it lists a signalling
input alone (R158). -/
def fpCmp (xop : Nat) (a b : Fp) : Bool × Nat :=
  let o := a.cmp b
  let r := match xop with
    | 0 => o == some .eq
    | 1 => o != some .eq
    | 2 => o == some .lt
    | 3 => o == some .lt || o == some .eq
    | 6 => o == none
    | _ => o != none
  (r, flagIf (a.snan || b.snan) fNv)

/-- vmin and vmax on floating-point lanes (R160): -0 below +0, and a NaN gives the default NaN. -/
def fpMinMax (f : FpFmt) (isMax : Bool) (x y : Nat) : Nat × Nat :=
  let a := f.decode x
  let b := f.decode y
  let fl := flagIf (a.snan || b.snan) fNv
  match a.cmp b with
  | none => (f.nan, fl)
  | some .eq =>
    -- equal values differ at most in the sign of zero
    let negx := bit x (f.ew + f.mw)
    (if negx != isMax then x else y, fl)
  | some .lt => (if isMax then y else x, fl)
  | some .gt => (if isMax then x else y, fl)

end Sys2Proof.Machine
end

