-- ==== Sys2Proof/Machine/Exact.lean ====
section
/-!
DEFINITION. Exact accumulators and their 80-byte images (R168-R178).

An accumulator is its 640-bit image as a natural number below 2^640. The residues of its limbs (R179) change no result (R182); a cell
holds them beside its accumulators.
-/

namespace Sys2Proof.Machine

/-- An accumulator opened into its fields (R168, R169, R174). `x` is the `EXACT` sum, `b0`-`b2` the bins. -/
structure Accu where
  kind : Nat
  nan  : Bool
  pinf : Bool
  ninf : Bool
  ovf  : Bool
  bwin : Int
  x    : Int
  b0   : Int
  b1   : Int
  b2   : Int
  deriving DecidableEq, Repr

/-- The empty accumulator. -/
def Accu.empty : Accu :=
  { kind := 0, nan := false, pinf := false, ninf := false, ovf := false, bwin := 0, x := 0, b0 := 0, b1 := 0,
    b2 := 0 }

/-- Open an image. -/
def accuOpen (img : Nat) : Accu :=
  let k := bits img 576 2
  { kind := k, nan := bit img 578, pinf := bit img 579, ninf := bit img 580, ovf := bit img 581,
    bwin := toSigned 8 (bits img 584 8),
    x := if k = 1 then toSigned 576 (bits img 0 576) else 0,
    b0 := if k = 2 then toSigned 128 (bits img 0 128) else 0,
    b1 := if k = 2 then toSigned 128 (bits img 128 128) else 0,
    b2 := if k = 2 then toSigned 128 (bits img 256 128) else 0 }

/-- Bit `n` where the condition holds. -/
def bitIf (b : Bool) (n : Nat) : Nat := if b then 2 ^ n else 0

/-- The image of an accumulator. -/
def accuImage (a : Accu) : Nat :=
  if a.kind = 0 then 0
  else
    let hdr := a.kind + bitIf a.nan 2 + bitIf a.pinf 3 + bitIf a.ninf 4 + bitIf a.ovf 5 + wrap 8 a.bwin * 2 ^ 8
    let sum :=
      if a.kind = 1 then (if a.ovf then Config.overflowSum 1 a.x % 2 ^ 576 else wrap 576 a.x)
      else if a.ovf then Config.overflowSum 2 (a.b0 + a.b1 * 2 ^ 256 + a.b2 * 2 ^ 512) % 2 ^ 384
      else wrap 128 a.b0 + wrap 128 a.b1 * 2 ^ 128 + wrap 128 a.b2 * 2 ^ 256
    sum + hdr * 2 ^ 576

/-- The image is malformed (R170). -/
def imageMalformed (img : Nat) : Bool :=
  let k := bits img 576 2
  let bw := toSigned 8 (bits img 584 8)
  k == 3 || (k == 0 && img != 0) || bits img 582 2 != 0 || bits img 592 48 != 0 || (k == 1 && bw != 0) ||
    (k == 2 && (bits img 384 192 != 0 || decide (bw < -26) || decide (26 < bw)))

/-- An integer does not fit a signed width. -/
def outside (w : Nat) (x : Int) : Bool := (saturate w x).2

/-- Record that a sum has left its range (R172, R178). -/
def Accu.checked (a : Accu) : Accu :=
  { a with ovf := a.ovf || (a.kind == 1 && outside 576 a.x) ||
      (a.kind == 2 && (outside 128 a.b0 || outside 128 a.b1 || outside 128 a.b2)) }

/-- The window of a finite nonzero value (R175). -/
def window (m : Nat) (e : Int) : Int := (Int.ofNat (Nat.log2 m) + e).fdiv 40 + 1

/-- The slot-`g` part of a finite value (R175). -/
def slotPart (neg : Bool) (m : Nat) (e g : Int) : Int :=
  let w := 40 * (g - 1)
  let k := if w ≤ e then m * 2 ^ (e - w).toNat else m / 2 ^ (w - e).toNat
  let k := Int.ofNat (k % 2 ^ 40)
  if neg then -k else k

/-- Shift the bins up by `d` slots (R175). -/
def Accu.shift (a : Accu) (d : Nat) : Accu :=
  match d with
  | 0 => a
  | 1 => { a with b2 := a.b1, b1 := a.b0, b0 := 0, bwin := a.bwin + 1 }
  | 2 => { a with b2 := a.b0, b1 := 0, b0 := 0, bwin := a.bwin + 2 }
  | d => { a with b2 := 0, b1 := 0, b0 := 0, bwin := a.bwin + Int.ofNat d }

/-- Note a special value, or add a finite one (R171). -/
def Accu.addExact (a : Accu) (v : Fp) : Accu :=
  let a := { a with kind := 1 }
  match v with
  | .nan _ => { a with nan := true }
  | .inf false => { a with pinf := true }
  | .inf true => { a with ninf := true }
  | .fin _ m _ => if m = 0 then a else Accu.checked { a with x := a.x + v.atExp (-192) }

/-- Add a value to a `BINNED64` accumulator (R175). -/
def Accu.addBinned (a : Accu) (v : Fp) : Accu :=
  let a := if a.kind = 0 then { a with kind := 2, bwin := -26 } else a
  match v with
  | .nan _ => { a with nan := true }
  | .inf false => { a with pinf := true }
  | .inf true => { a with ninf := true }
  | .fin n m e =>
    if m = 0 then a
    else
      let a := if a.bwin < window m e then a.shift (window m e - a.bwin).toNat else a
      Accu.checked { a with
        b0 := a.b0 + slotPart n m e a.bwin, b1 := a.b1 + slotPart n m e (a.bwin - 1),
        b2 := a.b2 + slotPart n m e (a.bwin - 2) }

/-- Add a value under a kind: 1 `EXACT`, 2 `BINNED64`. -/
def Accu.add (kind : Nat) (a : Accu) (v : Fp) : Accu := if kind = 1 then a.addExact v else a.addBinned v

/-- Merge two accumulators of one kind, or where one is empty (R171, R175). -/
def Accu.merge (a o : Accu) : Accu :=
  if o.kind = 0 then a
  else if a.kind = 0 then o
  else
    let b := max a.bwin o.bwin
    let a := a.shift (b - a.bwin).toNat
    let o := o.shift (b - o.bwin).toNat
    Accu.checked { a with
      nan := a.nan || o.nan, pinf := a.pinf || o.pinf, ninf := a.ninf || o.ninf, ovf := a.ovf || o.ovf,
      x := a.x + o.x, b0 := a.b0 + o.b0, b1 := a.b1 + o.b1, b2 := a.b2 + o.b2 }

/-- The exact sum an accumulator holds, as `n * 2^e` (R169, R175). -/
def Accu.sum (a : Accu) : Int × Int :=
  if a.kind = 1 then (a.x, -192)
  else (a.b0 * 2 ^ 80 + a.b1 * 2 ^ 40 + a.b2, 40 * (a.bwin - 3))

/-- Read an accumulator out to a format (R173, R154), with the flags. -/
def Accu.readOut (f : FpFmt) (mode : RMode) (r : Nat) (a : Accu) : Nat × Nat :=
  if a.ovf then (f.nan, fNv)
  else if a.nan then (f.nan, 0)
  else if a.pinf && a.ninf then (f.nan, fNv)
  else if a.pinf then f.round mode r (.inf false)
  else if a.ninf then f.round mode r (.inf true)
  else
    let (n, e) := a.sum
    if n = 0 then (0, 0) else f.round mode r (.fin (decide (n < 0)) n.natAbs e)

/-- Two kinds may not meet (R121). -/
def kindsClash (a b : Nat) : Bool := a != 0 && b != 0 && a != b

end Sys2Proof.Machine
end

