-- ==== Sys2Proof/Machine/Elementary.lean ====
section
/-!
DEFINITION. The elementary functions of `vtr` (R161), in fixed point with 512 fraction bits: exponential, logarithm, sine and cosine
to far more bits than FP32 has, and the FP32 patterns that lie within a number of units in the last place of a value.
-/

namespace Sys2Proof.Machine

/-! ### Fixed point -/

/-- The value 1. -/
def fxOne : Int := 2 ^ 512

/-- A product. -/
def fxMul (a b : Int) : Int := a * b / fxOne

/-- A finite magnitude `m * 2 ^ e`. -/
def fxOf (m : Nat) (e : Int) : Nat := if 0 ≤ e + 512 then m * 2 ^ (e + 512).toNat else m / 2 ^ (-(e + 512)).toNat

/-- The exponential by its series, for arguments of magnitude up to 1. -/
def fxExpSmall (x : Int) : Int := (List.range 110).foldr (fun k acc => fxOne + fxMul x acc / (k + 1 : Nat)) fxOne

/-- The exponential of an argument of magnitude up to 128: that of its 128th part, squared seven times. -/
def fxExp (x : Int) : Int := (List.range 7).foldl (fun y _ => fxMul y y) (fxExpSmall (x / 128))

/-- The inverse hyperbolic tangent by its series, for arguments up to 1/3. -/
def fxAtanh (z : Int) : Int :=
  fxMul z ((List.range 170).foldr (fun k acc => fxOne / (2 * k + 1 : Nat) + fxMul (fxMul z z) acc) 0)

/-- The natural logarithm of `m * 2 ^ e`, `m` not 0. -/
def fxLog (m : Nat) (e : Int) : Int :=
  let p : Int := 2 ^ Nat.log2 m
  (Int.ofNat (Nat.log2 m) + e) * (2 * fxAtanh (fxOne / 3)) + 2 * fxAtanh ((Int.ofNat m - p) * fxOne / (Int.ofNat m + p))

/-- The inverse tangent by its series, for small arguments. -/
def fxAtan (z : Int) : Int :=
  fxMul z ((List.range 120).foldr (fun k acc => fxOne / (2 * k + 1 : Nat) - fxMul (fxMul z z) acc) 0)

/-- Half of pi, by Machin's formula. -/
def fxHalfPi : Int := 8 * fxAtan (fxOne / 5) - 2 * fxAtan (fxOne / 239)

/-- Sine and cosine by their series, for small arguments. -/
def fxSinSmall (r : Int) : Int :=
  fxMul r ((List.range 60).foldr (fun k acc => fxOne - fxMul (fxMul r r) acc / ((2 * k + 2) * (2 * k + 3) : Nat)) fxOne)

/-- The cosine. -/
def fxCosSmall (r : Int) : Int :=
  (List.range 60).foldr (fun k acc => fxOne - fxMul (fxMul r r) acc / ((2 * k + 1) * (2 * k + 2) : Nat)) fxOne

/-- The sine of an argument, `turn` quarters further: 0 for the sine, 1 for the cosine. -/
def fxSin (turn x : Int) : Int :=
  let h := fxHalfPi
  let q := (2 * x + h) / (2 * h)
  let r := x - q * h
  let k := (q + turn) % 4
  if k = 0 then fxSinSmall r else if k = 1 then fxCosSmall r else if k = 2 then -fxSinSmall r else -fxCosSmall r

/-! ### Patterns near a value -/

/-- The value of a nonnegative FP32 pattern; that of infinity is 2 ^ 128. -/
def fxPattern (r : Nat) : Nat :=
  match fp32.decode r with
  | .fin _ m e => fxOf m e
  | _ => 2 ^ 640

/-- The FP32 patterns within `n` ulp of a value that lies at `v`, or above it by less than a unit if `more`. -/
def nearPatterns (n v : Nat) (more : Bool) : List Nat :=
  let t := (fp32.roundFin false .rz 0 false v (-512)).1
  let ulp := 2 ^ (max (Nat.log2 v) (512 - 126) - 23)
  let top := v + if more then 1 else 0
  if 2 ^ 640 ≤ v then [0x7F800000]
  else ((List.range (4 * n + 2)).map fun i => t + i - 2 * n).eraseDups.filter fun r =>
    decide (r ≤ 0x7F800000) && decide (fxPattern r ≤ v + n * ulp) && decide (top ≤ fxPattern r + n * ulp)

/-- One of the FP32 patterns within `n` ulp of a value (R161): the spec leaves open which (log 8). -/
def nearUlp (free n v : Nat) (more : Bool) : Nat :=
  let l := nearPatterns n v more
  l.getD (free % l.length) 0

end Sys2Proof.Machine
end

