-- ==== Sys2Proof/Machine/Crc.lean ====
section
/-!
DEFINITION. The cyclic redundancy checks the spec names (R383, R387, R427, R524, R592): CRC-64/XZ and CRC-32C with
the parameters of their catalogue (PRESUMED, log 15).
-/

namespace Sys2Proof.Machine

/-- Shift a reflected remainder by one bit. -/
def crcShift (poly x : Nat) : Nat := if x % 2 = 1 then (x / 2) ^^^ poly else x / 2

/-- Feed one byte to a reflected remainder. -/
def crcByte (poly x : Nat) (b : Byte) : Nat :=
  let x := x ^^^ b.toNat
  let x := crcShift poly (crcShift poly (crcShift poly (crcShift poly x)))
  crcShift poly (crcShift poly (crcShift poly (crcShift poly x)))

/-- CRC-64/XZ of a list of bytes. -/
def crc64 (bs : List Byte) : Nat :=
  (bs.foldl (crcByte 0xC96C5795D7870F42) (2 ^ 64 - 1)) ^^^ (2 ^ 64 - 1)

/-- CRC-32C of a list of bytes. -/
def crc32c (bs : List Byte) : Nat := (bs.foldl (crcByte 0x82F63B78) (2 ^ 32 - 1)) ^^^ (2 ^ 32 - 1)

end Sys2Proof.Machine
end

