-- ==== Sys2Proof/Machine/Parts.lean ====
section
/-!
DEFINITION. The parts of the machine's state that belong to cells, commands, memory and foragers.

Each structure is plain data with its value at reset beside it. The docstrings name the rule of the spec that gives
the module the state.
-/

namespace Sys2Proof.Machine

/-! ### A cell (R45, R46) -/

/-- The architected state of a cell (R45): every row of the table except instruction memory and cell memory.
`acc` holds the four accumulator arrays as 32-bit words, word `w` of array `a` at key `4096 * a + w`; an array
carries no type (R116). `res` holds the residues of the ten limbs of each exact accumulator, 6 bits each (R179). -/
structure Arch where
  s     : Tab Word
  p     : BitVec 8
  pc    : BitVec 14
  v     : Tab (BitVec 2048)
  ea    : Tab (BitVec 640)
  res   : Tab (BitVec 60)
  acc   : Tab (BitVec 32)
  t     : Tab (BitVec 256)
  rmode : BitVec 3
  seed  : Word
  amode : BitVec 2
  xstat : BitVec 32
  deriving DecidableEq, Repr

/-- The values after a cell reset (R45): everything 0, and p0 reads 1. -/
def Arch.reset : Arch :=
  { s := [], p := 1, pc := 0, v := [], ea := [], res := [], acc := [], t := [], rmode := 0, seed := 0, amode := 0, xstat := 0 }

/-- The identity registers the dispatcher sets (R46). -/
structure Ident where
  cellid : BitVec 9
  combid : BitVec 6
  rank   : BitVec 9
  ncells : BitVec 10
  part   : BitVec 2
  arev   : BitVec 16
  cmdtag : BitVec 32
  deriving DecidableEq, Repr

/-- DESIGN CHOICE (log 2): 0 before the dispatcher has set them. -/
def Ident.reset : Ident :=
  { cellid := 0, combid := 0, rank := 0, ncells := 0, part := 0, arev := 0, cmdtag := 0 }

/-- What the issue of a cell is doing. `waitObj` is a wait on a sync object (R129), polled when its wait table was
full (R131); `waitSlot` a stall on a tile-move slot (R126), `advance` true for tm.wait, which completes when the
slot frees. -/
inductive Run where
  | idle
  | issuing
  | waitObj (obj : Nat) (eq : Bool) (v : Word) (polled : Bool)
  | waitSlot (slot : Nat) (advance : Bool)
  | halted
  | faulted
  | quenched
  | hung
  deriving DecidableEq, Repr

/-- A fence that still holds later instructions (R128). -/
inductive Fence where
  | none | localOnly | remote
  deriving DecidableEq, Repr

/-- A tile move in flight (R70, R124-R127): both descriptors as read at issue (R112), and the signal address named by sg. -/
structure TileMove where
  src : BitVec 256
  dst : BitVec 256
  sg  : Option Word
  deriving DecidableEq, Repr

/-- What waits in the sync-port queue of a cell (R62, R133): a descriptor that coll or forg has read and its engine has not yet
accepted, or a sig.add or sig.set behind one, with its place in the order of issue. -/
inductive PortItem where
  | desc (isColl : Bool) (bytes : List Byte) (pc : BitVec 14)
  | sig (set : Bool) (addr v : Word) (ord : Nat)
  deriving DecidableEq, Repr

/-- One logical cell. Cell memory lies in the module's memory. `inAt` is when it was switched in, `waitAt` when its present wait
on a sync object began (R80). -/
structure Cell where
  arch       : Arch
  imem       : Tab Word
  imageLen   : Nat
  ident      : Ident
  run        : Run
  fence      : Fence
  cmd        : Option Nat
  slots      : Tab (Option TileMove)
  portQ      : List PortItem
  refusal    : Option (BitVec 4 × BitVec 14)
  live       : BitVec 1024
  frozen     : BitVec 1024
  switchedIn : Bool
  inAt       : Word
  waitAt     : Word
  deriving DecidableEq, Repr

/-- A cell at power-on. Instruction memory and the image length are DESIGN CHOICE 0 (log 2). -/
def Cell.reset : Cell :=
  { arch := Arch.reset, imem := [], imageLen := 0, ident := Ident.reset, run := .idle, fence := .none, cmd := none,
    slots := [], portQ := [], refusal := none, live := 0, frozen := 0, switchedIn := true, inAt := 0, waitAt := 0 }

/-! ### Remap table and physical units (R75-R89, R639) -/

/-- An entry of the remap table (R87). -/
structure Remap where
  slot    : Nat
  comb    : Nat
  die     : Nat
  state   : Nat
  changes : Nat
  deriving DecidableEq, Repr

/-- The entry of logical cell `n` at full yield (R76, R87). -/
def Remap.full (n : Nat) : Remap :=
  { slot := n % 8, comb := (n / 8) % 8, die := n / 64, state := 0, changes := 0 }

/-- A physical cell: whether it is retired (R77), and its four always-on counters (R639). -/
structure Phys where
  retired : Bool
  cnt     : Tab Word
  deriving DecidableEq, Repr

/-- A physical cell at power-on. -/
def Phys.reset : Phys := { retired := false, cnt := [] }

/-- A bank of cell memory (R50): for each requester in the fixed order the consecutive clocks in which it has been refused, and
the requester served last, 0 for none. -/
structure Bank where
  refused : List Nat
  served  : Nat
  deriving DecidableEq, Repr

/-- A bank at reset. -/
def Bank.reset : Bank := { refused := [0, 0, 0, 0, 0], served := 0 }

/-- A guest switch in progress (R81): the host logical cell, who goes out and who comes in. -/
structure Switch where
  host     : Nat
  outgoing : Nat
  incoming : Nat
  deriving DecidableEq, Repr

/-! ### Engines, signals and waits (R282, R291, R304) -/

/-- The engines of the module (R282), and remote modules as the source of an update. -/
inductive Engine where
  | cell (n : Nat)
  | mover (comb : Nat)
  | forager (n : Nat)
  | collective
  | processor (n : Nat)
  | remote
  deriving DecidableEq, Repr

/-- A signal issued and not yet applied by the router island of its object (R291). `ord` is its place in the order of
issue, which its release semantics compares with earlier accesses (R293); `cmd` the command on whose behalf the
engine signals; `ack` the packet to acknowledge once the update has been performed (R409). -/
structure Sig where
  eng  : Engine
  part : Nat
  obj  : Nat
  set  : Bool
  v    : Word
  cmd  : Option Nat
  ord  : Nat
  ack  : Option Packet
  deriving DecidableEq, Repr

/-- Who holds an entry of a wait table (R304). -/
inductive Waiter where
  | cell (n : Nat)
  | command (id idx : Nat)
  | collective (id : Nat)
  deriving DecidableEq, Repr

/-- An entry of a wait table; `held` is false for a wait that a full table has not accepted (R304). -/
structure WaitEntry where
  who  : Waiter
  obj  : Nat
  eq   : Bool
  v    : Word
  held : Bool
  deriving DecidableEq, Repr

/-! ### Commands and rings (R335-R369) -/

/-- Where a command taken in stands: in the drip queue's stages or overflow ring, parked on its waits, started,
or finished with a status and not yet recorded. -/
inductive Phase where
  | queued | parked | started | finished
  deriving DecidableEq, Repr

/-- A command taken in and not complete (R349-R356). `claimed` is the comb mask it occupies (R91), `pieces` the
`MOVE` pieces handed out, each with the comb that moves it (R358), `fetch` what has come of the image or descriptor it names, by
place, once that is being read (R93, R357), `performed` whether its class has had its effect, `signalled` whether its signal entries
have been issued, `t0` and `snap` the counters at the start decision (R643), `sel` the selections it started with
(R642), `ends` the counters at its last effect, `logged` whether its effect record is appended (R528), `extra` the epoch an
`EPOCH` waits for (R510), `stamp` the place of its intake record among the accesses issued (R526), `order` the number of its start
decision among those of the commands now in the module (R80). -/
structure Cmd where
  id        : Nat
  part      : Nat
  ring      : Nat
  entry     : Nat
  wrap      : Bool
  prio      : Nat
  seq       : Nat
  desc      : BitVec 1024
  intake    : Nat
  phase     : Phase
  status    : Nat
  claimed   : BitVec 64
  pieces    : List (Nat × Nat)
  fetch     : Option (List (Nat × List Byte))
  performed : Bool
  loaded    : Bool
  signalled : Bool
  fault     : Option (Nat × BitVec 4 × BitVec 14)
  hwFail    : Bool
  hwLost    : Bool
  detail    : Nat
  opp       : Nat
  t0        : Word
  snap      : List Word
  ends      : List Word
  sel       : BitVec 128
  latch     : Bool
  logged    : Bool
  extra     : Nat
  stamp     : Nat
  order     : Nat
  deriving DecidableEq, Repr

/-- An intake record (R527). -/
structure IntakeRec where
  intake : Nat
  ring   : Nat
  entry  : Nat
  wrap   : Bool
  epoch  : Nat
  desc   : BitVec 1024
  deriving DecidableEq, Repr

/-- A command ring (R337): what the module knows of it besides its set-up registers. `rd` is the next entry to
read; `relog` holds the intake records of entries that are read again in the epoch that logged them (R351, R526). -/
structure Ring where
  active   : Bool
  head     : Nat
  headWrap : Bool
  tail     : Nat
  tailWrap : Bool
  rd       : Nat
  rdWrap   : Bool
  bad      : Bool
  lineDue  : Bool
  relog    : List IntakeRec
  deriving DecidableEq, Repr

/-- A ring at reset. -/
def Ring.reset : Ring :=
  { active := false, head := 0, headWrap := false, tail := 0, tailWrap := false, rd := 0, rdWrap := false,
    bad := false, lineDue := false, relog := [] }

/-- A report (R367, R369): its type, the time stamp, and the 48 bytes of body as one number. -/
structure Report where
  type : Nat
  time : Word
  body : BitVec 384
  deriving DecidableEq, Repr

/-- The report ring of a partition (R337, R340, R367, R368). `held` are the reports that wait: for space, or for the
ring to be enabled (R86, log 12). -/
structure RepRing where
  active   : Bool
  tail     : Nat
  wrap     : Bool
  seq      : Nat
  held     : List Report
  lost     : Nat
  lostFlag : Bool
  head     : Nat
  headWrap : Bool
  bad      : Bool
  deriving DecidableEq, Repr

/-- A report ring at reset. -/
def RepRing.reset : RepRing :=
  { active := false, tail := 0, wrap := false, seq := 0, held := [], lost := 0, lostFlag := false, head := 0,
    headWrap := false, bad := false }

/-- A watched line (R343): the value read last, and whether a re-read is outstanding and one more is due. -/
structure Watch where
  last  : BitVec 512
  out   : Bool
  again : Bool
  deriving DecidableEq, Repr

/-- A watched line at reset. -/
def Watch.reset : Watch := { last := 0, out := false, again := false }

/-- The commit state of a function and its clamp log (R332-R334). -/
structure Commit where
  busy     : Bool
  again    : Bool
  count    : Nat
  clamped  : Bool
  overflow : Bool
  log      : List (Nat × Nat × Nat × Nat)
  deriving DecidableEq, Repr

/-- The commit state at reset. -/
def Commit.reset : Commit :=
  { busy := false, again := false, count := 0, clamped := false, overflow := false, log := [] }

/-! ### Far accesses (R226-R228) -/

/-- Who waits for a far access, a remote access or an acknowledgement; `piece` for a piece of a `MOVE`, `fetch` for a command's image
or descriptor, `log` for the records of a partition's intake
and effect logs (R526, R528). The unit of a lining copy is forager 0-31, or
32 + the comb whose mover copies. -/
inductive Owner where
  | slot (cell slot : Nat)
  | cmd (id : Nat)
  | piece (id k : Nat)
  | fetch (id : Nat)
  | lining (part unit : Nat)
  | fdesc (id : Nat)
  | coll (id : Nat)
  | cell (n : Nat)
  | log (part : Nat)
  | none
  deriving DecidableEq, Repr

/-- An active far window. -/
structure FarWin where
  num    : Nat
  lo     : Nat
  size   : Nat
  target : Nat
  data   : Bool
  lining : Bool
  rings  : Bool
  ro     : Bool
  shared : Bool
  part   : Nat
  deriving DecidableEq, Repr

/-- An Unordered I/O request (R226): the engine that makes it, whether it has been sent, `again` true once it has been reissued (R228),
and `dead` once its data have come poisoned and its consumer waits for a recovery (R228, R503). `off` is the
window offset and `addr` the key of the storage in `ext`. A write carries its data; a read carries the engine
global address its data goes to. -/
structure FarReq where
  tag   : Nat
  owner : Owner
  eng   : Nat
  part  : Nat
  wr    : Bool
  off   : Nat
  addr  : Nat
  len   : Nat
  data  : List Byte
  dest  : Nat
  again : Bool
  sent  : Bool
  dead  : Bool
  deriving DecidableEq, Repr

/-- The size of a request: 64 bytes where one line holds what it is for, or else 256 (R226). -/
def FarReq.size (r : FarReq) : Nat := if r.addr / 64 = (r.addr + r.len - 1) / 64 then 64 else 256

/-- The address of a request, aligned to its size (R226). -/
def FarReq.base (r : FarReq) : Nat := r.addr / r.size * r.size

/-- The byte enables of a write request (R226). -/
def FarReq.enables (r : FarReq) : Nat := (2 ^ r.len - 1) * 2 ^ (r.addr - r.base)

/-- Bytes of an engine's read that have come and wait for the rest of the line they go to, which the read writes as one (R289, R290). -/
structure Gathered where
  owner : Owner
  eng   : Nat
  part  : Nat
  dest  : Nat
  data  : List Byte
  deriving DecidableEq, Repr

/-- A window whose setting a commit has changed and whose earlier accesses are outstanding (R224, R326): a host or a far
window, the accesses issued under the old setting, and the place in the order of issue from which accesses wait. -/
structure Drain where
  host  : Bool
  num   : Nat
  tags  : List Nat
  stamp : Nat
  deriving DecidableEq, Repr

/-! ### Foragers (R230-R281) -/

/-- A dirty-granule bitmap (R230): the granules whose bit is set. -/
structure Bitmap where
  t : Tab Bool
  deriving DecidableEq, Repr

/-- The empty bitmap. -/
def Bitmap.empty : Bitmap := { t := [] }

/-- Who issued a forager or collective descriptor. -/
inductive Issuer where
  | cell (n : Nat) (pc : BitVec 14)
  | cmd (id : Nat)
  deriving DecidableEq, Repr

/-- Where an accepted forager descriptor stands (R235, R258, R259): `recorded` once its result record is on its way. -/
inductive DPhase where
  | placed | queued | performed | recorded | quenched
  deriving DecidableEq, Repr

/-- An accepted forager descriptor (R239) and what its class leaves for the result record (R257). `startedBy` are
the foragers it uses. -/
structure FDesc where
  id     : Nat
  raw    : BitVec 3072
  part   : Nat
  issuer : Issuer
  seqr   : Nat
  frgs   : List Nat
  phase  : DPhase
  flags  : BitVec 7
  count1 : Word
  count2 : Word
  value  : Word
  image  : BitVec 640
  deriving DecidableEq, Repr

/-- A forager (R230): retirement, its queue of accepted descriptors, exact accumulators, working registers, scratch as one
number (undefined at the start of every descriptor, R231), bitmaps, lining share, counters
(R639), and whether it is under an in-service test (R657). -/
structure Frg where
  retired   : Bool
  queue     : List Nat
  running   : Option Nat
  ea        : Tab (BitVec 640)
  w         : Tab (BitVec 1024)
  scratch   : Nat
  live      : Bitmap
  frozen    : Bitmap
  share     : Nat
  cnt       : Tab Word
  completed : Nat
  underTest : Bool
  deriving DecidableEq, Repr

/-- A forager at reset (R230; its working registers, accumulators and scratch, log 2). -/
def Frg.reset : Frg :=
  { retired := false, queue := [], running := none, ea := [], w := [], scratch := 0, live := Bitmap.empty,
    frozen := Bitmap.empty, share := 0, cnt := [], completed := 0, underTest := false }

/-! ### GDDR7 devices (R191-R219) -/

/-- A device (R191-R219): retirement; spared rows as (row key, spare index); corrected errors as (row key,
device line, time); uncorrectable errors as (row key, time); rows that need sparing where no spare row is free; device
lines now uncorrectable; the next line the scrubber reads, and its completed passes; and the page stamps as stored (R193, R199). -/
structure Dev where
  retired : Bool
  spared  : List (Nat × Nat)
  corr    : List (Nat × Nat × Word)
  ues     : List (Nat × Word)
  need    : List Nat
  lost    : List Nat
  scrubAt : Nat
  passes  : Nat
  stamps  : Tab Word
  deriving DecidableEq, Repr

/-- A device at reset: the memory test of the start and every zero-fill have written the stamp of each page (R199). -/
def Dev.reset : Dev :=
  { retired := false, spared := [], corr := [], ues := [], need := [], lost := [], scrubAt := 0, passes := 0, stamps := [] }

/-! ### Host link and snoop filter (R312, R319-R322) -/

/-- What waits for a back-invalidation (R309, R312): a host read that needs the entry, an update, an engine's write, an engine's
read with the address its data go to, or a packet that has not been performed yet. -/
inductive BiWhat where
  | evict (fn off : Nat)
  | sig (s : Sig)
  | write (owner : Owner) (eng addr : Nat) (data : List Byte)
  | read (owner : Owner) (eng part addr len dest : Nat)
  | packet
  deriving DecidableEq, Repr

/-- A back-invalidation in progress. -/
structure Bi where
  line : Nat
  what : BiWhat
  ord  : Nat
  deriving DecidableEq, Repr

/-- The host link: whether it is up, at reduced width (L0p, R486), PERST#, whether its loss has been reported or it has not been up
yet; lines a host may hold, oldest first; host accesses that wait for the end of a reset, a write with its data (R550); and the last
data returned to a host read. -/
structure HostLink where
  up       : Bool
  l0p      : Bool
  perst    : Bool
  lost     : Bool
  snoop    : List (Nat × Nat)
  bis      : List Bi
  held     : List (Nat × Nat × Option (List Byte))
  lastRead : Option (Nat × Nat × List Byte)
  deriving DecidableEq, Repr

/-- The host link at reset: down; an open PERST# reads asserted (R671). -/
def HostLink.reset : HostLink :=
  { up := false, l0p := false, perst := true, lost := true, snoop := [], bis := [], held := [], lastRead := none }

/-! ### Seams (R15-R19) -/

/-- The packets that wait at a seam: the seam as 32 × from + to, and its packets in arrival order. -/
abbrev Seams := Tab (List SeamPkt)

end Sys2Proof.Machine
end

