-- ==== Sys2Proof/Machine/Parts2.lean ====
section
/-!
DEFINITION. The parts of the machine's state that belong to the fabric, the swarm, power, epochs, resets, start,
management and debug.
-/

namespace Sys2Proof.Machine

/-! ### Quedar (R371-R419) -/

/-- A flit's payload that waits at a port for its turn (R384, R395): its channel, where its first packet begins, and whether it goes
before other flits of `CTL`. -/
structure TxFlit where
  vc      : Nat
  start   : Nat
  urgent  : Bool
  payload : List Byte
  deriving DecidableEq, Repr

/-- A Quedar port (R379, R382-R385, R393, R415). `tx` is the next fseq, `unacked` the replay buffer, `rx` the last
flit accepted, `nak` that the receiver is discarding until the successor of `rx` arrives. Credits and buckets are
what is left; `owed` the credits to return; `rxBuf` the bytes of each channel that do not yet make a packet; `lastTx` the
flits last sent; `queue` the flits of packets placed at the port and not sent yet. -/
structure Port where
  trained  : Bool
  state    : Nat
  healthy  : BitVec 9
  lanes    : BitVec 9
  pPhys    : BitVec 12
  pPort    : BitVec 5
  pSerial  : Word
  retrains : Nat
  tx       : BitVec 12
  unacked  : List Flit
  rx       : BitVec 12
  nak      : Bool
  replays  : Nat
  credits  : Tab Nat
  bucket   : Nat
  rxBuf    : Tab (List Byte)
  owed     : Tab Nat
  lastTx   : List Flit
  queue    : List TxFlit
  deriving DecidableEq, Repr

/-- A port at reset (R379): untrained, all lanes healthy; the credits of R393 are the table's default; the bucket
is full at the reset depth of 64 KiB (DESIGN CHOICE, log 7). -/
def Port.reset : Port :=
  { trained := false, state := 0, healthy := 0x1FF, lanes := 0, pPhys := 0, pPort := 0, pSerial := 0, retrains := 0,
    tx := 0, unacked := [], rx := 0xFFF, nak := false, replays := 0, credits := [], bucket := 65536,
    rxBuf := [], owed := [], lastTx := [], queue := [] }

/-- The destination's state of a stream (R408): base and window. -/
structure RxStream where
  base : BitVec 16
  win  : BitVec 256
  deriving DecidableEq, Repr

/-- A stream nothing has arrived on. -/
def RxStream.reset : RxStream := { base := 0, win := 0 }

/-- A packet of the retransmit store (R410, R411): who waits for it, its source engine, the switch plane it was last
sent on, and whether it has been sent. -/
structure Rtx where
  pkt   : Packet
  owner : Owner
  eng   : Nat
  plane : Nat
  sent  : Bool
  ord   : Nat
  deriving DecidableEq, Repr

/-- A read-tracking entry (R412): where the RDATA goes, and when the READ was last sent again. -/
structure ReadTrack where
  etag  : BitVec 16
  phys  : BitVec 12
  dest  : Word
  len   : Nat
  owner : Owner
  eng   : Nat
  gen   : BitVec 10
  again : Option Word
  ord   : Nat
  deriving DecidableEq, Repr

/-- An entry of the routing table (R398). -/
structure Route where
  valid : Bool
  phys  : BitVec 12
  mask  : BitVec 12
  deriving DecidableEq, Repr

/-- A routing entry at reset. -/
def Route.reset : Route := { valid := false, phys := 0, mask := 0 }

/-- An entry of the hive table (R400). -/
structure Hive where
  adaptive : BitVec 6
  switchOk : Bool
  prefer   : Bool
  deriving DecidableEq, Repr

/-- A hive entry at reset (R400). -/
def Hive.reset : Hive := { adaptive := 0x3F, switchOk := true, prefer := false }

/-- The fabric side of the module (R397-R418): own numbers, tables, ports, packets that wait for a decision (R403), packets originated
and not yet routed, streams, the retransmit store, read tracking, the rotating pointers (R405), when a transit packet last passed
(R486), whether stream state was lost by a whole-module reset (R547), and the times at which reads whose entries may not be reserved
at once were last sent (R412). -/
structure Fabric where
  phys      : BitVec 12
  logical   : BitVec 12
  placed    : Bool
  routes    : Tab Route
  hives     : Tab Hive
  ports     : Tab Port
  waiting   : List (Option Nat × Packet)
  outbox    : List Packet
  tx        : Tab (BitVec 16)
  rx        : Tab RxStream
  rtx       : List Rtx
  reads     : List ReadTrack
  etag      : BitVec 16
  rotor     : Tab Nat
  transitAt : Option Word
  noStreams : Bool
  issued    : Tab Nat
  acked     : Tab Nat
  ctlCredit : Nat
  quiet     : List Word
  deriving DecidableEq, Repr

/-- The fabric at reset. -/
def Fabric.reset : Fabric :=
  { phys := 0, logical := 0, placed := false, routes := [], hives := [], ports := [], waiting := [], outbox := [],
    tx := [], rx := [], rtx := [], reads := [], etag := 0, rotor := [], transitAt := none, noStreams := false, issued := [],
    acked := [], ctlCredit := 64, quiet := [] }

/-! ### Collectives (R420-R448) -/

/-- A team's sequence state (R424-R426) and the collectives of it that an abort has named (R427). -/
structure Team where
  next    : Nat
  aborted : List Nat
  deriving DecidableEq, Repr

/-- A team at reset. -/
def Team.reset : Team := { next := 0, aborted := [] }

/-- A collective descriptor accepted (R431): its 128 bytes, issuer, whether it has started, its path, the waggle stage
and the state that travels (R437), contributions received and not yet read out, the (phase, rank, chunk) received,
granted (up to a chunk) and sent, the groups of chunks of the own segment read out (R440-R443), the chunks that it has read to send,
by their address (R433), whether its result is ready, its status, when it started, and which rank arrived last and when (R447). -/
structure Coll where
  id       : Nat
  raw      : BitVec 1024
  part     : Nat
  issuer   : Issuer
  started  : Bool
  waggle   : Bool
  stage    : Nat
  state    : List Byte
  got      : List (Nat × Nat × Nat × List Byte)
  mask     : List (Nat × Nat × Nat)
  grants   : List (Nat × Nat × Nat)
  sent     : List (Nat × Nat × Nat)
  outs     : List Nat
  src      : List (Nat × List Byte)
  ready    : Bool
  status   : Nat
  t0       : Word
  lastRank : Nat
  lastTime : Word
  deriving DecidableEq, Repr

/-- An entry of the waggle table (R439): the pair it is for, the mask of (stage, rank, piece) received, the
pieces not yet folded, and the agreement codes they carried (R427). -/
structure WEntry where
  team   : Nat
  cseq   : Nat
  mask   : List (Nat × Nat × Nat)
  pieces : List (Nat × Nat × Nat × List Byte)
  codes  : List Nat
  deriving DecidableEq, Repr

/-- Credit granted to this member (R441): team, cseq, phase, granting rank, first chunk, chunks, agreement code. -/
structure Credit where
  team  : Nat
  cseq  : Nat
  phase : Nat
  frm   : Nat
  first : Nat
  n     : Nat
  code  : Nat
  deriving DecidableEq, Repr

/-- The collective engine (R431, R439, R447, R448). -/
structure CollEng where
  teams       : Tab Team
  colls       : List Coll
  waggle      : List WEntry
  credits     : List Credit
  lastLaggard : Nat
  lastWait    : Nat
  lagCount    : Nat
  deriving DecidableEq, Repr, Inhabited

/-- The collective engine at reset. -/
def CollEng.reset : CollEng :=
  { teams := [], colls := [], waggle := [], credits := [], lastLaggard := 0, lastWait := 0, lagCount := 0 }

/-! ### The swarm (R449-R457) -/

/-- What the manager keeps of a member (R450): `RETIRE` and `ESCALATE` counts and the last reason. -/
structure MemberRep where
  retire   : Nat
  escalate : Nat
  reason   : Nat
  deriving DecidableEq, Repr

/-- Nothing reported. -/
def MemberRep.reset : MemberRep := { retire := 0, escalate := 0, reason := 0 }

/-- A change of the swarm's tables that waits for the deputy's ACK (R453). -/
structure TableChange where
  logical : BitVec 12
  phys    : BitVec 12
  valid   : Bool
  seq     : BitVec 16
  deriving DecidableEq, Repr

/-- The swarm side of the module (R449-R456). `quench` lists the QUENCH reasons in force on the fabric-owner
partition; `missed` the heartbeats missed from each logical module, and
`notices` the modules that have given notice of a failure, with its cause (R452, R457), and `serials` the serial numbers that
came with admission requests (R451); `headless` that the loss of the last manager has been reported (R455); `marked` the logical
numbers marked failed by table update (R539); `taking` the old manager while a takeover is not complete (R454); `turned` that the
manager has refused this module's admission (R451). -/
structure Swarm where
  role      : Nat
  manager   : Nat
  deputies  : List Nat
  hasDeputy : Bool
  term      : Nat
  admitted  : Bool
  members   : List Nat
  spares    : List Nat
  admittedM : List Nat
  missed    : Tab Nat
  failed    : List Nat
  reports   : Tab MemberRep
  pending   : List TableChange
  quench    : List Nat
  hbStopped : Bool
  notices   : List (Nat × Nat)
  serials   : Tab Word
  headless  : Bool
  marked    : List Nat
  taking    : Option Nat
  turned    : Bool
  deriving DecidableEq, Repr

/-- The swarm state at reset (R449). -/
def Swarm.reset : Swarm :=
  { role := 0, manager := 0, deputies := [], hasDeputy := false, term := 0, admitted := false, members := [],
    spares := [], admittedM := [], missed := [], failed := [], reports := [], pending := [],
    quench := [], hbStopped := false, notices := [], serials := [],
    headless := false, marked := [], taking := none, turned := false }

/-! ### Placement (R591-R598) -/

/-- A port-table entry of the placement (R594). -/
structure PPort where
  wired  : Bool
  phys   : BitVec 12
  port   : BitVec 5
  serial : Word
  deriving DecidableEq, Repr

/-- An unwired port. -/
def PPort.reset : PPort := { wired := false, phys := 0, port := 0, serial := 0 }

/-- A region entry of the placement (R595). -/
structure Region where
  module : Nat
  kind   : Nat
  part   : Nat
  target : Nat
  size   : Nat
  deriving DecidableEq, Repr

/-- The placement in effect, as its descriptor gave it, and the state of its registers (R591). -/
structure Place where
  raw     : List Byte
  id      : Word
  ports   : Tab PPort
  regions : List Region
  envSeq  : Word
  busy    : Bool
  refused : Bool
  reason  : Nat
  offset  : Nat
  length  : Nat
  deriving DecidableEq, Repr

/-- No placement. -/
def Place.reset : Place :=
  { raw := [], id := 0, ports := [], regions := [], envSeq := 0, busy := false, refused := false, reason := 0, offset := 0,
    length := 0 }

/-! ### Power, thermal, cooling (R458-R502) -/

/-- An entry of the demand table (R479). -/
structure Demand where
  comb    : Nat
  mem     : Nat
  samples : Nat
  deriving DecidableEq, Repr

/-- A demand entry at reset (R479). -/
def Demand.reset : Demand := { comb := 238, mem := 3360, samples := 0 }

/-- A die sensor (R491): its last reading, its state, the times of its returns to trust, and since when every reading of it has
been plausible (R490), none after one that is not. -/
structure Sensor where
  temp    : Int
  state   : Nat
  returns : List Word
  since   : Option Word
  deriving DecidableEq, Repr

/-- A sensor at reset (R491). -/
def Sensor.reset : Sensor := { temp := 0, state := 0, returns := [], since := none }

/-- Power for the three governed domains, in mW (R475). -/
structure Give where
  links : Nat
  mem   : Nat
  comp  : Nat
  deriving DecidableEq, Repr

/-- The power side of the module. `rails` holds the current limits of the 22 rails as the envelope gives them (R469, R595), empty
before one is in effect; `governed` what the last loop gave each domain; `hostOrder` that the host has written a run order of on since
the last commit (R471); `idleFrom` since when a partition at a depth has been idle (R486). `wins` holds the last twenty 50 µs windows,
newest first (1 ms); `opp` the comb indices in effect, `rise` those that wait for voltage or droop, `gov` the governor's indices,
`rail` the settled voltage index of each C-die; `allow` the thermal allowance of each die in percent; `therm` when a die was last
limited; `offKind` what ends the run of the main domain: 1 an off order, 2 the inlet, 3 PWR_EN, 4 a leak. `lowered` holds the rail
limits that firmware has lowered (R469, log 119); `brakeAt` and `fastAt` when the brake and the fast cut began (R482); `hot` the inlet
limit under which a module that an inlet above it has shut down starts again (R498); `owed` the `THERMAL` reports of the leak test,
with their caps, that the module raises when its functions report ready (log 136). -/
structure Power where
  rack      : Nat
  env       : Nat
  inletMax  : Nat
  riseMax   : Nat
  rails     : List Nat
  lowered   : Tab Nat
  rackOn    : Bool
  hostOrder : Bool
  running   : Bool
  draining  : Bool
  offKind   : Nat
  brakePin  : Bool
  brake     : Bool
  vinBrake  : Bool
  fastCut   : Bool
  brakeAt   : Word
  fastAt    : Word
  brakes    : Nat
  coolPin   : Bool
  riseHigh  : Bool
  coast     : Bool
  guarded   : Bool
  leakOpen  : Bool
  leakWet   : Bool
  leakPass  : Nat
  wins      : List PowerReading
  opp       : Tab Nat
  rise      : Tab Nat
  gov       : Tab Nat
  rail      : Tab Nat
  memPct    : Nat
  linkPct   : Nat
  gate      : Nat
  governed  : Give
  allow     : Tab Nat
  therm     : Tab (Option Word)
  thermDies : Nat
  demand    : Tab Demand
  depth     : Tab Nat
  idleFrom  : Tab Word
  waking    : List Nat
  sensors   : Tab Sensor
  inlet     : Int
  outlet    : Int
  inletOk   : Bool
  outletOk  : Bool
  phases    : List Nat
  hold      : Bool
  hot       : Option Nat
  owed      : List (Nat × Nat × Nat)
  deriving DecidableEq, Repr

/-- The power side at reset (R472, R491, R496). -/
def Power.reset : Power :=
  { rack := 2400, env := 2400, inletMax := 45, riseMax := 20, rails := [], lowered := [], rackOn := true, hostOrder := false, running := false,
    draining := false, offKind := 0, brakePin := false, brake := false, vinBrake := false, fastCut := false, brakeAt := 0, fastAt := 0,
    brakes := 0,
    coolPin := false, riseHigh := false, coast := false, guarded := false, leakOpen := false, leakWet := false,
    leakPass := 0, wins := [], opp := [], rise := [], gov := [], rail := [], memPct := 100, linkPct := 100, gate := 1,
    governed := { links := 0, mem := 0, comp := 0 },
    idleFrom := [], allow := [], therm := [], thermDies := 0, demand := [], depth := [], waking := [], sensors := [],
    inlet := 0, outlet := 0, inletOk := true, outletOk := true, phases := [], hold := false, hot := none, owed := [] }

/-! ### Epochs, lining, recovery (R503-R544) -/

/-- What a cut captures of a partition (R512, R513): cells, sync objects, waits, rings, commands, forager descriptors and
foragers, collectives, streams, completion counts and set-up registers; the places of the logs at the cut, how many effect
records there were, and the time (R524). -/
structure Ctx where
  epoch     : Nat
  cells     : Tab Cell
  sync      : Tab Word
  waits     : List WaitEntry
  rings     : Tab Ring
  cmds      : List Cmd
  fdescs    : List FDesc
  frgs      : Tab Frg
  coll      : CollEng
  tx        : Tab (BitVec 16)
  rx        : Tab RxStream
  issued    : Tab Nat
  acked     : Tab Nat
  bar       : Tab Word
  intakeNo  : Nat
  intakePos : Nat
  effectPos : Nat
  effects   : Nat
  at_       : Word
  deriving DecidableEq, Repr, Inhabited

/-- An effect record (R529). -/
structure EffectRec where
  kind  : Nat
  obj   : Nat
  rseq  : Nat
  ref   : Nat
  value : Word
  lap   : Nat
  deriving DecidableEq, Repr

/-- What a failure has destroyed and a repair or recovery must rebuild (R503, R504): a granule by its lining number, the
memory of a logical cell, or the data of a device. -/
inductive Lost where
  | granule (k : Nat)
  | cell (n : Nat)
  | device (d : Nat)
  deriving DecidableEq, Repr

/-- The epoch control of a partition (R507-R530). `taken` says that a boundary has been taken and the drain step has not begun; `step`
is the step of the cut in progress: 1 draining, 2 cut, 3 copying (0 none). `stopped` says that intake and engines are stopped;
`contrib`, `stage` and `heard` are the barrier in progress: whether the member has contributed, the stage it waits in (5 when it is
complete), and the (step, module) whose MARKERs have arrived. `loc` is the last epoch committed locally and `locList` its list, kept
until it is applied (R531). `wasHeld` and `heldCut` say that the boundary requested, and the boundary of the present cut, had to wait
(R509); `recWin` is where a spare's recovery window for the lining leads (R536). `freezing` and `frozen` are a debug freeze, with the
barrier of its own (R571), `fwPoint` the drain for a firmware activation (R631). `list` is the commit list, `side` and `present` the
maps. `recStep` is the step of a recovery (R532), `failedM` and `spareM` the member it is for and its spare, and `others` the failed
members, spares and serial numbers that it covers besides (R539). -/
structure Epoch where
  state     : Nat
  epoch     : Nat
  committed : Nat
  applied   : Nat
  taken     : Bool
  step      : Nat
  stopped   : Bool
  contrib   : Bool
  stage     : Nat
  heard     : List (Nat × Nat)
  requested : Bool
  urgent    : Bool
  forced    : Bool
  wasHeld   : Bool
  heldCut   : Bool
  recWin    : Option Nat
  lastCut   : Option Word
  freezing  : Bool
  frozen    : Bool
  fwPoint   : Bool
  fContrib  : Bool
  fStage    : Nat
  active    : Bool
  first     : Bool
  list      : List (Nat × Bool)
  loc       : Nat
  locList   : List (Nat × Bool)
  side      : Tab Bool
  present   : Tab Bool
  ctx       : Tab (Option Ctx)
  written   : Bool
  bytes     : Nat
  abandoned : Nat
  commitMs  : Nat
  intakeNo  : Nat
  intake    : List IntakeRec
  intakePos : Nat
  effects   : List EffectRec
  effectPos : Nat
  lap       : Nat
  recStep   : Nat
  target    : Nat
  failedM   : Nat
  spareM    : Nat
  failedSer : Word
  spareSer  : Word
  restored  : List Nat
  replay    : List IntakeRec
  replayEff : List EffectRec
  recAt     : Word
  lostU     : List Lost
  recWant   : Bool
  others    : List (Nat × Nat × Word × Word)
  deriving DecidableEq, Repr

/-- The epoch control at reset (R525). -/
def Epoch.reset : Epoch :=
  { state := 0, epoch := 0, committed := 0, applied := 0, taken := false, step := 0, stopped := false, contrib := false,
    stage := 0, heard := [], requested := false, urgent := false, forced := false, wasHeld := false, heldCut := false,
    recWin := none, lastCut := none,
    freezing := false, frozen := false, fwPoint := false, fContrib := false, fStage := 0, active := false, first := false, list := [], loc := 0,
    locList := [], side := [], present := [], ctx := [], written := false, bytes := 0, abandoned := 0, commitMs := 0,
    intakeNo := 0, intake := [], intakePos := 0, effects := [], effectPos := 0, lap := 0, recStep := 0, target := 0,
    failedM := 0, spareM := 0, failedSer := 0, spareSer := 0, restored := [], replay := [], replayEff := [], recAt := 0,
    lostU := [], recWant := false, others := [] }

/-! ### Resets and escalation (R545-R576) -/

/-- A reset in progress: domain 0-3 and unit, and whether its drain limit has passed (R549). -/
structure ResetIn where
  domain : Nat
  number : Nat
  late   : Bool
  deriving DecidableEq, Repr

/-- Resets, escalation, generation tags and the fatal record (R553, R561, R562, R564-R568, R573-R575). `request` is the
reset that `AVL_RESET` asked for; `counts` the times of the counted resets of each physical unit; `resets` and `outcomes` are
the fields of `AVL_ESC`; `beats` the last heartbeat of each sender; `wdog` the ticks
that the watchdog of each started command has counted (R557). -/
structure Resets where
  busy      : Bool
  request   : Option (Nat × Nat)
  running   : List ResetIn
  counts    : Tab (List Word)
  resets    : Tab Nat
  outcomes  : Tab Nat
  gens      : Tab (BitVec 10)
  genAt     : Tab (Option Word)
  expired   : Tab (List Nat)
  combOos   : List Nat
  partOos   : List Nat
  moduleOos : Bool
  fatal     : List Byte
  fatalRead : Bool
  stopped   : Bool
  trigger   : Nat
  stopTime  : Word
  beats     : Tab Word
  wdog      : Tab Nat
  deriving DecidableEq, Repr

/-- Resets at power-on. -/
def Resets.reset : Resets :=
  { busy := false, request := none, running := [], counts := [], resets := [], outcomes := [], gens := [],
    genAt := [], expired := [], combOos := [], partOos := [], moduleOos := false, fatal := [], fatalRead := false,
    stopped := false, trigger := 0, stopTime := 0, beats := [], wdog := [] }

/-! ### Power domains and start (R29, R43, R44, R577-R590, R664) -/

/-- The state of the start and of the supplies. `droop` lists the islands whose detector is tripped (R26);
`oscHeld` that every island holds its last setting (R29); `again` says that PWR_EN has risen during a shutdown (R673). -/
structure Boot where
  standby   : Bool
  pwrEn     : Bool
  mainOn    : Bool
  isolated  : Bool
  refOk     : Bool
  oscHeld   : Bool
  oos       : Bool
  step      : Nat
  halt      : Nat
  kind      : Nat
  elapsed   : Nat
  zeroFill  : List Nat
  ready     : List Nat
  recValid  : Bool
  invalid   : Nat
  ageH      : Nat
  modeNow   : Nat
  ownerNow  : Nat
  reserveOn : Bool
  homeNow   : Tab Nat
  droop     : List Nat
  fatalDue  : Bool
  tripDue   : Bool
  again     : Bool
  deriving DecidableEq, Repr

/-- Before standby power: R590, R33, R205, R206 at reset. -/
def Boot.reset : Boot :=
  { standby := false, pwrEn := false, mainOn := false, isolated := false, refOk := true, oscHeld := false,
    oos := false, step := 0, halt := 0, kind := 0,
    elapsed := 0, zeroFill := [], ready := [], recValid := false, invalid := 1, ageH := 0,
    modeNow := 0, ownerNow := 0, reserveOn := false, homeNow := [], droop := [],
    fatalDue := false, tripDue := false, again := false }

/-! ### Management, security, firmware (R599-R635) -/

/-- A queued event of the management port (R604): its code and its detail. -/
structure MEvent where
  code   : Nat
  detail : Nat
  deriving DecidableEq, Repr

/-- A light (R612). -/
inductive Pattern where
  | off | steady | blink1 | blink4 | double
  deriving DecidableEq, Repr

/-- A firmware image in a flash bank, as its header gives it (R624), with its bytes where it was received; those of the image
as shipped are `Config.shippedBytes`. `good` says whether it verifies (R625) but for its security version. -/
structure Image where
  data    : Option (List Byte)
  release : BitVec 32
  arev    : BitVec 16
  secver  : Nat
  good    : Bool
  deriving DecidableEq, Repr

/-- An entry of the measurement log (R621). -/
structure LogEntry where
  reg    : Nat
  kind   : Nat
  time   : Word
  digest : BitVec 512
  deriving DecidableEq, Repr

/-- The management side of the Balden complex. `resp` is the last response: completion code and body (R606). `msgCount` counts the
requests of the second `msgSec` (R602); `block` is next_block and `index` the next index in the block in use, 1,024 where none
is (R619); `nv` holds the hour and start counts as non-volatile storage has them (R615). -/
structure Mgmt where
  straps    : BitVec 3
  dyn       : Option (BitVec 7)
  stuck     : Bool
  events    : List MEvent
  evLost    : Nat
  ibiAt     : Option Word
  ibiDue    : Bool
  msgSec    : Nat
  msgCount  : Nat
  resp      : Option (Nat × List Byte)
  lastHost  : Word
  lastRack  : Word
  holdup    : Bool
  brakeAt   : Option Word
  locate    : Pattern
  locateEnd : Word
  service   : Bool
  steady    : List Nat
  board     : Word
  made      : BitVec 32
  mainHrs   : Nat
  stbyHrs   : Nat
  starts    : Nat
  fulls     : Nat
  lots      : Tab Word
  rework    : Tab (List Byte)
  used      : Nat
  nextSlot  : Nat
  owner     : Option (List Byte)
  ownerSeq  : Word
  lock      : Bool
  block     : Nat
  index     : Nat
  attestAt  : Option Word
  meas      : Tab (BitVec 512)
  log       : List LogEntry
  logOver   : Bool
  fwState   : Nat
  fwResult  : Nat
  bank      : Bool
  trial     : Bool
  fuses     : Nat
  fwLen     : Nat
  fwBytes   : List Byte
  images    : Tab Image
  nv        : Nat × Nat × Nat × Nat
  collarAt  : Option Word
  deriving DecidableEq, Repr

/-- The image as shipped (R686): both banks hold one verified image at `arev` 1; its release and security version
are DESIGN CHOICE 0 (log 4). -/
def Image.shipped : Image := { data := none, release := 0, arev := 1, secver := 0, good := true }

/-- Management at power-on: straps 7 (open, R671), no owner key (R686). -/
def Mgmt.reset : Mgmt :=
  { straps := 7, dyn := none, stuck := false, events := [], evLost := 0, ibiAt := none,
    ibiDue := false, msgSec := 0, msgCount := 0, resp := none,
    lastHost := 0, lastRack := 0, holdup := false, brakeAt := none, locate := .off, locateEnd := 0, service := false,
    steady := [], board := 0, made := 0, mainHrs := 0, stbyHrs := 0, starts := 0, fulls := 0,
    lots := [], rework := [], used := 0, nextSlot := 0, owner := none, ownerSeq := 0, lock := false, block := 0,
    index := 1024, attestAt := none, meas := [], log := [], logOver := false, fwState := 0,
    fwResult := 0, bank := false, trial := false, fuses := 0, fwLen := 0, fwBytes := [], images := [],
    nv := (0, 0, 0, 0), collarAt := none }

/-! ### Debug (R636-R659) -/

/-- Counters, trace, freeze and in-service test (R636-R659). -/
structure Debug where
  aon      : Tab Word
  part     : Tab Word
  crecNext : Tab Nat
  trHead   : Nat
  trWraps  : Nat
  trFull   : Bool
  trLost   : Bool
  frState  : Nat
  frNumber : Nat
  istReq   : Option (Nat × Nat × Nat)
  istRun   : Option (Nat × Nat × Nat)
  istRes   : Nat
  istErr   : Nat
  deriving DecidableEq, Repr

/-- Debug at reset. -/
def Debug.reset : Debug :=
  { aon := [], part := [], crecNext := [], trHead := 0, trWraps := 0, trFull := false, trLost := false,
    frState := 0, frNumber := 0, istReq := none, istRun := none, istRes := 0,
    istErr := 0 }

end Sys2Proof.Machine
end

