-- ==== Sys2Proof/Machine/State.lean ====
section
/-!
DEFINITION. The state of the module, the reasons a step can stop, and the state at reset.

`State` holds every piece of state the spec gives the module, and the queue of commands that wait. It is plain data.
-/

namespace Sys2Proof.Machine

/-- Reasons for which a step ends in a fault. -/
inductive Fault where
  /-- Raised by CLOSE_MEMORY_REQUEST at an address outside the local map (R189): the spec gives a request there no
  place to go. Safe: the model stops. -/
  | noSuchAddress
  deriving DecidableEq, Repr

/-- Reasons for which a step refuses a command. -/
inductive Refusal where
  /-- Raised by a command whose row has no meaning yet. Safe: the model stops. -/
  | notModelled (mnemonic : String)
  /-- Raised by a command whose operands name a unit the module does not have, or whose data has not
  the length its row gives it. Safe: no such command exists. -/
  | illFormed
  /-- Raised by every event that needs the standby or the main power domain while that domain is off
  (R43, R44). Safe: the event does not exist there. -/
  | unpowered
  /-- Raised by every event of a module that has stopped after a fatal error (R573). Safe. -/
  | stopped
  /-- Raised by a cell instruction when the cell has no instruction to issue: no command, halted, faulted,
  quenched, held by a wait, a fence or a switch. Safe: the instruction is not issued there. -/
  | cellNotIssuing
  /-- Raised by an event whose operand names a command, descriptor, packet, request or signal that is not in the
  state, or is at another stage. Safe: the event does not exist. -/
  | noSuchItem
  /-- Raised by an event whose condition, as its rule gives it, does not hold in the state. Safe: the event does
  not happen there. -/
  | notDue
  deriving DecidableEq, Repr

/-- The stages and the overflow ring of a command processor's drip queue (R350), oldest first, as command ids; the ring
that is being read, and the entries of it read in its present turn (R349). -/
structure Drip where
  stages   : List Nat
  overflow : List Nat
  turn     : Nat
  got      : Nat
  deriving DecidableEq, Repr

/-- An empty drip queue. -/
def Drip.reset : Drip := { stages := [], overflow := [], turn := 0, got := 0 }

/-- The SYNC_OUT output and the SYNC_IN input: when the last pulse of SYNC_OUT rose, whether an edge is due (R511), and the
stamp of the last edge of SYNC_IN (R508). SYNC_OUT is low but for the pulse (R677). -/
structure SyncPins where
  edgeAt  : Option Word
  due     : Bool
  inStamp : Option Word
  deriving DecidableEq, Repr

/-- Both pins at reset. -/
def SyncPins.reset : SyncPins := { edgeAt := none, due := false, inStamp := none }

/-- A move of a partition's save areas in progress (R82): where they lie until it ends, and the far windows through which they are
reached there. -/
structure SaveMove where
  part : Nat
  base : Nat
  wins : List FarWin
  deriving DecidableEq, Repr

/-- The module. `wrote` holds the bits of each register written since the last commit (R330); `farTurn` is the partition whose turn
on the CXL link comes next (R39); `flips` holds the stored bits of cell memory that upsets have flipped, by 64-bit word from the
first address of cell memory: a mask of its 64 data bits and 8 check bits (R51). -/
structure State where
  cells     : Tab Cell
  remap     : Tab Remap
  phys      : Tab Phys
  switches  : List Switch
  saveMoves : List SaveMove
  mem       : Tab Byte
  ext       : Tab Byte
  sync      : Tab Word
  sigs      : List Sig
  waits     : List WaitEntry
  cmds      : List Cmd
  drips     : Tab Drip
  rings     : Tab Ring
  reps      : Tab RepRing
  watches   : Tab Watch
  commits   : Tab Commit
  bar       : Tab Word
  stg       : Tab Word
  wrote     : Tab Word
  frgs      : Tab Frg
  fdescs    : List FDesc
  devs      : Tab Dev
  reserve   : Option Nat
  far       : List FarReq
  farTag    : Nat
  farTurn   : Nat
  gather    : List Gathered
  drains    : List Drain
  link      : HostLink
  seams     : Seams
  starve    : Tab Bank
  flips     : Tab Nat
  fab       : Fabric
  coll      : CollEng
  swarm     : Swarm
  place     : Place
  power     : Power
  epochs    : Tab Epoch
  pins      : SyncPins
  resets    : Resets
  boot      : Boot
  mgmt      : Mgmt
  dbg       : Debug
  nextId    : Nat
  freeCtr   : Nat
  pending   : List Instr
  deriving DecidableEq, Repr

/-- The module as shipped, before standby power (R590, R686): every table empty, every register at the value its
row gives for reset, and no command waiting. -/
def State.reset : State :=
  { cells := [], remap := [], phys := [], switches := [], saveMoves := [], mem := [], ext := [], sync := [],
    sigs := [], waits := [], cmds := [], drips := [], rings := [], reps := [], watches := [], commits := [],
    bar := [], stg := [], wrote := [], frgs := [], fdescs := [], devs := [], reserve := none, far := [],
    farTag := 0, farTurn := 0, gather := [], drains := [], link := HostLink.reset, seams := [], starve := [], flips := [],
    fab := Fabric.reset, coll := CollEng.reset,
    swarm := Swarm.reset, place := Place.reset, power := Power.reset, epochs := [], pins := SyncPins.reset,
    resets := Resets.reset, boot := Boot.reset, mgmt := Mgmt.reset, dbg := Debug.reset, nextId := 0, freeCtr := 0,
    pending := [] }

end Sys2Proof.Machine
end

