-- ==== Sys2Proof/Machine/Regs.lean ====
section
/-!
DEFINITION. The set-up registers of BAR0 (R327) that something other than the module itself writes: where each lies,
who writes it, and the limits a commit clamps its fields to.

A register of the `HIF` block is one register per function (R337) and has the key `function * 2^24 + offset`; every
other register has its offset as its key. Fields that only the module writes are state of their own.
-/

namespace Sys2Proof.Machine

/-- How a field is written (R329). -/
inductive Acc where
  | rwc | rw | w1c | wo
  deriving DecidableEq, Repr

/-- A field: its bits, its access, its value at reset, and the limits of step 1 of a commit (R330). -/
structure Field where
  lsb   : Nat
  width : Nat
  acc   : Acc
  rst   : Nat
  low   : Nat
  high  : Nat
  deriving DecidableEq, Repr

/-- A field with no limits. -/
def fld (lsb width : Nat) (acc : Acc) (rst : Nat) : Field :=
  { lsb := lsb, width := width, acc := acc, rst := rst, low := 0, high := 2 ^ width - 1 }

/-- A committed field with limits. -/
def fldLim (lsb width rst low high : Nat) : Field :=
  { lsb := lsb, width := width, acc := .rwc, rst := rst, low := low, high := high }

/-- Who may write a register (R40): function 0, each function its own copy, the function of the register's number,
or the function of the host window's partition (R324). -/
inductive Writer where
  | fn0 | own | nth | window
  deriving DecidableEq, Repr

/-- A row of registers: the offset of number 0, the distance between numbers, how many there are. -/
structure RegRow where
  base   : Nat
  stride : Nat
  count  : Nat
  writer : Writer
  fields : List Field
  deriving DecidableEq, Repr

/-- The registers of the `CFG` and `HIF` blocks (R324, R332, R337). -/
def regRowsHif : List RegRow := [
  { base := 0x001008, stride := 8, count := 1, writer := .own, fields := [fld 0 1 .w1c 0, fld 1 1 .w1c 0] },
  { base := 0x010000, stride := 8, count := 1, writer := .own, fields := [fldLim 0 7 1 1 100] },
  { base := 0x010010, stride := 8, count := 4, writer := .own, fields := [fld 6 58 .rwc 0] },
  { base := 0x010030, stride := 8, count := 1, writer := .own, fields := [fld 6 58 .rwc 0] },
  { base := 0x010038, stride := 8, count := 1, writer := .own, fields := [fld 12 52 .rwc 0] },
  { base := 0x010040, stride := 8, count := 1, writer := .own, fields := [fld 0 1 .rwc 0, fldLim 1 5 6 6 16] },
  { base := 0x014000, stride := 0x40, count := 64, writer := .own, fields := [fld 12 52 .rwc 0] },
  { base := 0x014008, stride := 0x40, count := 64, writer := .own,
    fields := [fld 0 1 .rwc 0, fldLim 1 5 6 6 16, fld 6 2 .rwc 0] },
  { base := 0x014010, stride := 0x40, count := 64, writer := .own, fields := [fld 6 58 .rwc 0] },
  { base := 0x011000, stride := 0x10, count := 16, writer := .window, fields := [fld 12 40 .rwc 0] },
  { base := 0x011008, stride := 0x10, count := 16, writer := .window,
    fields := [fld 0 1 .rwc 0, fld 1 1 .rwc 0, fld 2 1 .rwc 0, fld 3 1 .rwc 0, fld 8 28 .rwc 0] }]

/-- The registers of the `MEM` block (R205, R206, R219, R221). -/
def regRowsMem : List RegRow := [
  { base := 0x020000, stride := 8, count := 1, writer := .fn0, fields := [fld 0 1 .rwc 0] },
  { base := 0x020008, stride := 8, count := 1, writer := .fn0, fields := [fldLim 0 8 24 1 168] },
  { base := 0x020010, stride := 8, count := 4, writer := .nth, fields := [fldLim 0 13 0 0 5120] },
  { base := 0x021000, stride := 0x10, count := 8, writer := .fn0,
    fields := [fld 0 13 .rwc 0, fld 16 14 .rwc 0, fld 32 22 .rwc 0] },
  { base := 0x021008, stride := 0x10, count := 8, writer := .fn0,
    fields := [fld 0 1 .rwc 0, fld 1 1 .rwc 0, fld 2 1 .rwc 0, fld 3 1 .rwc 0, fld 4 1 .rwc 0, fld 5 1 .rwc 0,
               fld 6 2 .rwc 0] }]

/-- The registers of the `QFB` and `COL` blocks (R380, R398, R401, R424, R448). -/
def regRowsNet : List RegRow := [
  { base := 0x030008, stride := 8, count := 1, writer := .fn0, fields := [fld 0 1 .rwc 1] },
  { base := 0x030200, stride := 8, count := 18, writer := .fn0,
    fields := [fld 0 1 .rwc 1, fldLim 8 8 200 1 200, fldLim 16 16 64 4 1024] },
  { base := 0x038000, stride := 8, count := 4096, writer := .fn0, fields := [fld 13 12 .rw 0] },
  { base := 0x040008, stride := 8, count := 1, writer := .fn0, fields := [fldLim 0 16 100 1 65535] },
  { base := 0x040100, stride := 8, count := 16, writer := .fn0,
    fields := [fld 0 12 .rwc 0, fldLim 12 12 1 1 4095, fldLim 24 13 0 1 4096, fld 37 1 .rwc 0] }]

/-- The registers of the `PWR` block (R472). -/
def regRowsPwr : List RegRow := [
  { base := 0x050000, stride := 8, count := 1, writer := .fn0, fields := [fldLim 0 12 2400 800 2400] },
  { base := 0x050008, stride := 8, count := 1, writer := .fn0, fields := [fld 0 1 .rwc 1] },
  { base := 0x050010, stride := 8, count := 1, writer := .fn0,
    fields := [fld 0 6 .rwc 0x24, fldLim 8 10 400 50 1000, fld 18 1 .rwc 1, fld 19 1 .wo 0] },
  { base := 0x050018, stride := 8, count := 1, writer := .fn0,
    fields := [fld 0 10 .rwc 225, fld 16 10 .rwc 120, fld 32 10 .rwc 160] },
  { base := 0x050020, stride := 8, count := 1, writer := .fn0,
    fields := [fldLim 0 8 1 1 255, fldLim 8 8 1 1 255, fldLim 16 8 1 1 255, fldLim 24 8 1 1 255] },
  { base := 0x050028, stride := 8, count := 1, writer := .fn0, fields := [fldLim 0 8 100 70 105] },
  { base := 0x050100, stride := 8, count := 4, writer := .nth,
    fields := [fldLim 0 17 1000 1 100000, fld 20 4 .rwc 13] }]

/-- The registers of the `AVL` block (R82, R507, R521, R559, R566, R568). -/
def regRowsAvl : List RegRow := [
  { base := 0x060000, stride := 8, count := 1, writer := .fn0,
    fields := [fldLim 0 15 2000 250 30000, fldLim 16 7 25 1 100, fldLim 24 6 8 1 32, fld 30 1 .rwc 1,
               fldLim 32 2 2 0 2] },
  { base := 0x060100, stride := 0x10, count := 4, writer := .fn0, fields := [fld 0 13 .rwc 0, fld 16 13 .rwc 0] },
  { base := 0x060108, stride := 0x10, count := 4, writer := .fn0, fields := [fld 0 1 .rwc 0] },
  { base := 0x060300, stride := 8, count := 4, writer := .fn0, fields := [fld 0 13 .rwc 0, fld 16 1 .rwc 0] },
  { base := 0x061000, stride := 8, count := 1, writer := .fn0,
    fields := [fld 0 2 .wo 0, fld 8 9 .wo 0, fld 17 1 .wo 0] },
  { base := 0x061008, stride := 8, count := 1, writer := .fn0, fields := [fldLim 0 22 10000 1 3600000] },
  { base := 0x061100, stride := 8, count := 1, writer := .fn0, fields := [fldLim 0 4 3 1 15, fldLim 8 11 10 1 1440] },
  { base := 0x061108, stride := 8, count := 1, writer := .fn0, fields := [fldLim 0 4 3 1 15, fldLim 8 11 30 1 1440] },
  { base := 0x061110, stride := 8, count := 1, writer := .fn0, fields := [fldLim 0 4 4 1 15, fldLim 8 11 60 1 1440] },
  { base := 0x061118, stride := 8, count := 1, writer := .fn0,
    fields := [fldLim 0 4 3 1 15, fldLim 8 11 60 1 1440] }]

/-- The registers of the `DBG` and `PRT` blocks (R33, R590, R591, R627, R641, R645, R652, R659). -/
def regRowsDbg : List RegRow := [
  { base := 0x078000, stride := 0x100, count := 4, writer := .nth,
    fields := (List.range 8).map fun j => fld (8 * j) 8 .rwc 0 },
  { base := 0x078008, stride := 0x100, count := 4, writer := .nth,
    fields := (List.range 8).map fun j => fld (8 * j) 8 .rwc 0 },
  { base := 0x078010, stride := 0x100, count := 4, writer := .nth, fields := [fld 8 56 .rwc 0] },
  { base := 0x078018, stride := 0x100, count := 4, writer := .nth, fields := [fld 0 1 .rwc 0, fldLim 1 5 8 4 20] },
  { base := 0x07A000, stride := 8, count := 1, writer := .fn0, fields := [fld 12 36 .rwc 0] },
  { base := 0x07A008, stride := 8, count := 1, writer := .fn0,
    fields := [fld 0 1 .rwc 0, fld 1 1 .rwc 0, fldLim 2 6 24 16 32, fld 9 24 .rwc 0x7FFE] },
  { base := 0x07B000, stride := 8, count := 1, writer := .fn0,
    fields := [fld 0 1 .wo 0, fld 1 1 .wo 0, fld 2 1 .rwc 0] },
  { base := 0x07B008, stride := 8, count := 1, writer := .fn0, fields := [fld 12 52 .rwc 0] },
  { base := 0x07C000, stride := 8, count := 1, writer := .fn0,
    fields := [fld 0 3 .wo 0, fld 3 10 .wo 0, fld 13 1 .wo 0, fld 14 16 .wo 0] },
  { base := 0x080000, stride := 8, count := 1, writer := .fn0, fields := [fldLim 0 2 0 0 2, fld 16 2 .rwc 0] },
  { base := 0x080010, stride := 8, count := 1, writer := .fn0, fields := [fld 12 40 .rw 0] },
  { base := 0x080018, stride := 8, count := 1, writer := .fn0, fields := [fld 0 18 .rw 0, fld 18 1 .wo 0] },
  { base := 0x080020, stride := 8, count := 1, writer := .fn0, fields := [fld 0 1 .rw 1, fld 1 1 .rw 0] },
  { base := 0x080030, stride := 8, count := 1, writer := .fn0, fields := [fld 0 1 .rw 0] }]

/-- Every register row. -/
def regRows : List RegRow :=
  regRowsHif ++ regRowsMem ++ regRowsNet ++ regRowsPwr ++ regRowsAvl ++ regRowsDbg

/-- The register of a row that lies at the offset, by number. -/
def RegRow.index (r : RegRow) (off : Nat) : Option Nat :=
  if r.base ≤ off && (off - r.base) % r.stride == 0 && decide ((off - r.base) / r.stride < r.count) then
    some ((off - r.base) / r.stride)
  else none

/-- The row of the register at an offset, and its number in the row. -/
def regAt (off : Nat) : Option (RegRow × Nat) :=
  regRows.findSome? fun r => (r.index off).map fun i => (r, i)

/-- The value at reset of the register with a key. -/
def regReset (key : Nat) : Word :=
  match regAt (key % 2 ^ 24) with
  | some (r, _) => BitVec.ofNat 64 (r.fields.foldl (fun a f => a + f.rst * 2 ^ f.lsb) 0)
  | none => 0

/-- The key of a register read or written through a function (R337). -/
def regKey (fn off : Nat) : Nat :=
  match regAt off with
  | some (r, _) => if r.writer == .own then fn * 2 ^ 24 + off else off
  | none => off

/-- The word in effect of the register with a key. -/
def State.barW (s : State) (key : Nat) : Nat := (Tab.get regReset s.bar key).toNat

/-- The word staged for the register with a key. -/
def State.stgW (s : State) (key : Nat) : Nat := (Tab.get regReset s.stg key).toNat

/-- A field in effect. -/
def State.barF (s : State) (key lsb width : Nat) : Nat := bits (s.barW key) lsb width

/-- A one-bit field in effect. -/
def State.barB (s : State) (key lsb : Nat) : Bool := bit (s.barW key) lsb

/-- A word with a field replaced. -/
def setBits (w lsb width v : Nat) : Nat := w - bits w lsb width * 2 ^ lsb + (v % 2 ^ width) * 2 ^ lsb

/-- Put a word in effect and stage it too: a field that the module itself sets (R33, R359, R507). -/
def State.setBar (s : State) (key w : Nat) : State :=
  { s with bar := Tab.set regReset s.bar key (BitVec.ofNat 64 w),
           stg := Tab.set regReset s.stg key (BitVec.ofNat 64 w) }

/-- Set one field of a register in effect, and stage it; what is staged in its other fields stays (R329). -/
def State.setBarF (s : State) (key lsb width v : Nat) : State :=
  { s with bar := Tab.set regReset s.bar key (BitVec.ofNat 64 (setBits (s.barW key) lsb width v)),
           stg := Tab.set regReset s.stg key (BitVec.ofNat 64 (setBits (s.stgW key) lsb width v)) }

end Sys2Proof.Machine
end

