-- ==== Sys2Proof/WellFormed.lean ====
section
/-!
DEFINITION. Well-formed commands: every unit that a command names exists in the module (R2, R24, R31, R371, R491), and
what it carries has a length that its rule allows.
-/

namespace Sys2Proof

/-- A reading of power names each of the 171 point-of-load phases and the two standby regulators (R42). -/
def readingOk (r : PowerReading) : Bool := r.phases.length == 171 && r.standby.length == 2

/-- A packet that a link can carry: at most 66 blocks of 64 bytes after its header (R387). -/
def packetOk (p : Packet) : Bool := decide (p.data.length ≤ 4224)

/-- A sender of heartbeats and its number (R562). -/
def beaterOk (k : Beater) (n : Nat) : Bool :=
  match k with
  | .cell => decide (n < 576)
  | .forager => decide (n < 32)
  | .steward => decide (n < 8)
  | .sequencer => decide (n < 8)
  | .processor => decide (n < 4)
  | .link => decide (n < 3)

/-- A controller and its number (R562). -/
def controllerOk (k : Controller) (n : Nat) : Bool :=
  match k with
  | .steward => decide (n < 8)
  | .sequencer => decide (n < 8)
  | .processor => decide (n < 4)
  | .link => decide (n < 3)

/-- A reset domain and the number of its unit (R545). -/
def domainOk (d n : Nat) : Bool :=
  match d with
  | 0 => decide (n < 512)
  | 1 => decide (n < 64)
  | 2 => decide (n < 4)
  | 3 => decide (n < 1)
  | _ => false

/-- Every unit that a command names exists, and its data has an allowed length. -/
def wellFormed (i : Instr) : Bool :=
  match i with
  | .seamPacketArrival frm at_ inj _ => decide (frm < 84) && decide (at_ < 84) && inj.all (fun p => decide (p.dst < 84))
  | .droopTrip island => decide (island < 137)
  | .droopClear island => decide (island < 137)
  | .referenceLoss => true
  | .standbyPresent _ => true
  | .standbyLoss => true
  | .zeroFillComplete => true
  | .bankStarvation cell off w =>
    decide (cell < 512) && decide (off < 0x400000) && decide (w.clocks ≤ 17) && !w.users.isEmpty
  | .add c _ => decide (c < 512)
  | .sub c _ => decide (c < 512)
  | .mul c _ => decide (c < 512)
  | .mulh c _ => decide (c < 512)
  | .mulhu c _ => decide (c < 512)
  | .div c _ => decide (c < 512)
  | .divu c _ => decide (c < 512)
  | .rem c _ => decide (c < 512)
  | .remu c _ => decide (c < 512)
  | .and c _ => decide (c < 512)
  | .or c _ => decide (c < 512)
  | .xor c _ => decide (c < 512)
  | .shl c _ => decide (c < 512)
  | .shr c _ => decide (c < 512)
  | .sra c _ => decide (c < 512)
  | .min c _ => decide (c < 512)
  | .max c _ => decide (c < 512)
  | .cmp c _ => decide (c < 512)
  | .plog c _ => decide (c < 512)
  | .csrr c _ => decide (c < 512)
  | .csrw c _ => decide (c < 512)
  | .rdid c _ => decide (c < 512)
  | .addi c _ => decide (c < 512)
  | .li c _ => decide (c < 512)
  | .lui c _ => decide (c < 512)
  | .ld c _ => decide (c < 512)
  | .st c _ => decide (c < 512)
  | .cmpi c _ => decide (c < 512)
  | .andi c _ => decide (c < 512)
  | .vadd c _ => decide (c < 512)
  | .vsub c _ => decide (c < 512)
  | .vmul c _ => decide (c < 512)
  | .vfma c _ => decide (c < 512)
  | .vfms c _ => decide (c < 512)
  | .vmin c _ => decide (c < 512)
  | .vmax c _ => decide (c < 512)
  | .vun c _ => decide (c < 512)
  | .vand c _ => decide (c < 512)
  | .vor c _ => decide (c < 512)
  | .vxor c _ => decide (c < 512)
  | .vsh c _ => decide (c < 512)
  | .vcmp c _ => decide (c < 512)
  | .vsel c _ => decide (c < 512)
  | .vperm c _ => decide (c < 512)
  | .vslide c _ => decide (c < 512)
  | .vcvt c _ => decide (c < 512)
  | .vtr c _ => decide (c < 512)
  | .vbcast c _ => decide (c < 512)
  | .vins c _ => decide (c < 512)
  | .vext c _ => decide (c < 512)
  | .vld c _ => decide (c < 512)
  | .vst c _ => decide (c < 512)
  | .mma c _ => decide (c < 512)
  | .accLd c _ => decide (c < 512)
  | .accRd c _ => decide (c < 512)
  | .tm c _ => decide (c < 512)
  | .tileMoveComplete c slot => decide (c < 512) && decide (slot < 4)
  | .tmWait c _ => decide (c < 512)
  | .ldt c _ => decide (c < 512)
  | .stt c _ => decide (c < 512)
  | .tset c _ => decide (c < 512)
  | .tadv c _ => decide (c < 512)
  | .eaClr c _ => decide (c < 512)
  | .eaAdd c _ _ => decide (c < 512)
  | .eaAddm c _ _ => decide (c < 512)
  | .eaRd c _ _ => decide (c < 512)
  | .eaLdi c _ => decide (c < 512)
  | .eaAddi c _ _ => decide (c < 512)
  | .eaSti c _ _ => decide (c < 512)
  | .eaMerge c _ _ => decide (c < 512)
  | .sigAdd c _ => decide (c < 512)
  | .sigSet c _ => decide (c < 512)
  | .waitGe c _ => decide (c < 512)
  | .waitEq c _ => decide (c < 512)
  | .testGe c _ => decide (c < 512)
  | .sread c _ => decide (c < 512)
  | .cellWaitPoll c => decide (c < 512)
  | .fenceLocal c _ => decide (c < 512)
  | .fenceRemote c _ => decide (c < 512)
  | .coll c _ => decide (c < 512)
  | .forg c _ => decide (c < 512)
  | .forgRefusal c => decide (c < 512)
  | .br c _ => decide (c < 512)
  | .brl c _ => decide (c < 512)
  | .jr c _ => decide (c < 512)
  | .loop c _ => decide (c < 512)
  | .nop c _ => decide (c < 512)
  | .halt c _ => decide (c < 512)
  | .cellFailed phys => decide (phys < 576)
  | .guestSwitch host => decide (host < 512)
  | .guestSwitchComplete e => decide (e.of < 512)
  | .saveAreaMoveComplete e => decide (e.of < 4)
  | .kernel _ => true
  | .kernelImageLoaded _ => true
  | .move _ _ => true
  | .forage _ => true
  | .collect _ => true
  | .sync _ => true
  | .fence _ => true
  | .epoch _ => true
  | .powerWakeTolerance _ => true
  | .powerDefaultOpp _ => true
  | .nopCommand _ => true
  | .commandStart _ => true
  | .commandComplete _ => true
  | .voltageSettled die => decide (die < 8)
  | .closeMemoryRequest addr wr len _ _ => wr.all (fun d => d.length == len) && decide (0 < len) && decide (addr % 64 + len ≤ 64)
  | .deviceRetire dev _ => decide (dev < 32)
  | .scrub dev line _ _ => decide (dev < 32) && decide (line < 94371840)
  | .farCompletion _ _ => true
  | .farTimeout _ => true
  | .windowDrainComplete host window => decide (window < if host then 16 else 8)
  | .stream _ => true
  | .reduce r => decide (r.frg < 32)
  | .gather _ => true
  | .scatter r => decide (r.frg < 32)
  | .histogram _ => true
  | .compact _ => true
  | .transpose _ => true
  | .csr r => decide (r.frg < 32)
  | .copy _ => true
  | .fill _ => true
  | .foragerDescriptorComplete _ => true
  | .liningCopy part _ => decide (part < 4)
  | .liningBudgetSplit => true
  | .copyBeforeWrite dev _ off data => decide (dev < 32) && decide (0 < data.length) && decide (off + data.length ≤ 4096)
  | .cellCopyBeforeWrite cell granule off data => decide (cell < 512) && decide (granule < 1024) && decide (0 < data.length) && decide (off + data.length ≤ 4096)
  | .foragerRetire frg => decide (frg < 32)
  | .syncObjectUpdate _ => true
  | .waitRetest _ => true
  | .backInvalidateComplete a => a.data.all (fun d => d.length == 64)
  | .hostMemRead fn _ => decide (fn < 4)
  | .hostMemWrite fn _ data => decide (fn < 4) && decide (0 < data.length) && decide (data.length ≤ 64)
  | .hostLinkDown => true
  | .hostLinkLost => true
  | .perstAssert => true
  | .perstDeassert => true
  | .registerWrite w _ _ _ => decide (w.fn < 4)
  | .cfgCommit fn => decide (fn < 4)
  | .commitComplete fn => decide (fn < 4)
  | .watchedLineInvalidation part _ => decide (part < 4)
  | .watchedLinePoll => true
  | .farLinePoll part => decide (part < 4)
  | .doorbellUpdate part ring _ => decide (part < 4) && decide (ring < 64)
  | .reportLineUpdate part _ => decide (part < 4)
  | .entryIntake part ring _ => decide (part < 4) && decide (ring < 64)
  | .dripPointerMismatch cp => decide (cp < 4)
  | .headLineWrite part ring => decide (part < 4) && decide (ring < 64)
  | .portTrained port _ _ _ => decide (port < 18)
  | .laneRetire port lane => decide (port < 18) && decide (lane < 9)
  | .linkRetrain port => decide (port < 18)
  | .portFailed port => decide (port < 18)
  | .flitReceive port f => decide (port < 18) && f.payload.length == 240
  | .replayTimeout port => decide (port < 18)
  | .idleFlit port => decide (port < 18)
  | .packetRoute frm p _ => frm.all (fun n => decide (n < 18)) && packetOk p
  | .decideAgain _ _ => true
  | .ageDiscard _ => true
  | .retransmitTimeout _ _ _ => true
  | .write p => packetOk p
  | .read p => packetOk p
  | .rdata p => packetOk p
  | .ack p => packetOk p
  | .refuse p => packetOk p
  | .sigaddPkt p => packetOk p
  | .sigsetPkt p => packetOk p
  | .relay p => packetOk p
  | .mgmt p => packetOk p
  | .quench p => packetOk p
  | .quenchRelease p => packetOk p
  | .allreduce _ => true
  | .reduceScatter _ => true
  | .allgather _ => true
  | .broadcast _ => true
  | .barrier _ => true
  | .allToAll _ => true
  | .waggle p => packetOk p.pkt
  | .grant p => packetOk p
  | .coldata p => packetOk p.pkt
  | .collectiveComplete _ => true
  | .swarmHeartbeatSend => true
  | .swarmHeartbeat p => packetOk p
  | .tableUpdate p => packetOk p
  | .admissionRequest p => packetOk p
  | .admissionResult p => packetOk p
  | .takeover p => packetOk p
  | .managerLost => true
  | .faultNotice p => packetOk p
  | .collectiveAbort p => packetOk p
  | .boundaryRequest p => packetOk p
  | .memberDeclaredFailed _ => true
  | .noManager => true
  | .governorLoop _ => true
  | .powerSample r => readingOk r
  | .brakeAssert => true
  | .brakeRelease => true
  | .offDrainTimeout => true
  | .mainDomainShutdown => true
  | .idleDepthEntry part _ => decide (part < 4)
  | .wake part => decide (part < 4)
  | .sensorSample dies _ _ => dies.length == 60
  | .sensorRetrust sensor => decide (sensor < 60)
  | .coolFaultAssert => true
  | .riseLimitExceeded => true
  | .coastClear => true
  | .inletOverLimit => true
  | .leakDetected => true
  | .leakSelfTest _ => true
  | .epochTimer part => decide (part < 4)
  | .takeBoundary part => decide (part < 4)
  | .syncInEdge => true
  | .syncOutEdge => true
  | .markerDrain part p => decide (part < 4) && p.all packetOk
  | .drainComplete part => decide (part < 4)
  | .markerDrained part p => decide (part < 4) && p.all packetOk
  | .contextWritten part => decide (part < 4)
  | .markerCaptured part p => decide (part < 4) && p.all packetOk
  | .localCommit part => decide (part < 4)
  | .markerCommitted part p => decide (part < 4) && p.all packetOk
  | .repair part _ => decide (part < 4)
  | .recoveryStart part p => decide (part < 4) && p.all packetOk
  | .restoreComplete r => decide (r.part < 4)
  | .swarmRestored part p => decide (part < 4) && p.all packetOk
  | .replayDone part => decide (part < 4)
  | .cellReset cell _ => decide (cell < 512)
  | .combReset comb _ => decide (comb < 64)
  | .partitionReset part _ => decide (part < 4)
  | .wholeModuleReset _ _ => true
  | .resetComplete domain number => domainOk domain number
  | .drainLimit domain number => domainOk domain number
  | .watchdogExpiry _ => true
  | .heartbeat kind unit => beaterOk kind unit
  | .cellHung cell => decide (cell < 512)
  | .foragerHung frg => decide (frg < 32)
  | .controllerHung kind index => controllerOk kind index
  | .fatalStop trigger record => decide (1 ≤ trigger) && decide (trigger ≤ 3) && record.length == 8768
  | .start _ => true
  | .pwrEnRelease => true
  | .vinUndervoltage => true
  | .vinRecover => true
  | .vinIsolate => true
  | .placementGo _ => true
  | .placementCheck _ _ => true
  | .dynamicAddressAssign _ _ => true
  | .mctpControl _ => true
  | .pldmGetSensor _ => true
  | .pldmSetEffecter _ _ => true
  | .pldmPollEvent => true
  | .ibi => true
  | .i3cBusStuck => true
  | .i3cBusRecover => true
  | .getStatus => true
  | .setRackCap _ => true
  | .setRun _ => true
  | .setHoldup _ => true
  | .lights _ _ => true
  | .lightsClearService => true
  | .locateExpiry => true
  | .readInventory => true
  | .appendRework _ => true
  | .readFatal _ => true
  | .readMember _ => true
  | .setStart _ _ => true
  | .identity => true
  | .attest _ => true
  | .readLog _ => true
  | .fwBegin _ => true
  | .fwData _ _ => true
  | .fwReceiveTimeout => true
  | .fwEnd => true
  | .fwVerifyDone _ => true
  | .fwActivate => true
  | .fwActivationTimeout => true
  | .fwConfirm => true
  | .fwAbort => true
  | .ownerEnrol _ => true
  | .ownerSetLock _ _ _ _ => true
  | .ownerClearLock _ _ _ _ => true
  | .ownerReplaceKey _ _ _ _ _ => true
  | .ownerRelease _ _ _ _ => true
  | .silentHoldEnter => true
  | .demandClear fn => decide (fn < 4)
  | .freeze fn => decide (fn < 4)
  | .freezeRelease fn => decide (fn < 4)
  | .dumpComplete => true
  | .istCell => true
  | .istForager => true
  | .istLane => true
  | .istPhase => true
  | .istComplete _ _ => true
  | .hostLinkUp _ => true
  | .coolFaultDeassert => true
  | .regulatorPhaseRetire phase => decide (phase < 171)
  | .fwControllersReady => true
  | .wakeComplete part => decide (part < 4)
  | .hourCountUpdate => true

end Sys2Proof
end

