-- ==== Sys2Proof/Machine/Ops.lean ====
section
/-!
DEFINITION. The named operations over the parts of the state: cells, units, partitions, counters and free values.
-/

namespace Sys2Proof.Machine

/-! ### Cells -/

/-- Logical cell `n`. -/
def State.cell (s : State) (n : Nat) : Cell := Tab.get (fun _ => Cell.reset) s.cells n

/-- Replace logical cell `n`. -/
def State.setCell (s : State) (n : Nat) (c : Cell) : State :=
  { s with cells := Tab.set (fun _ => Cell.reset) s.cells n c }

/-- Scalar register `r`: `s0` reads as 0 (R45). -/
def Arch.sreg (a : Arch) (r : Nat) : Word := if r = 0 then 0 else Tab.get (fun _ => 0) a.s r

/-- Write scalar register `r`: writes to `s0` are discarded (R45). -/
def Arch.setS (a : Arch) (r : Nat) (x : Word) : Arch :=
  if r = 0 then a else { a with s := Tab.set (fun _ => 0) a.s r x }

/-- Predicate `r`: `p0` reads as 1 (R45). -/
def Arch.preg (a : Arch) (r : Nat) : Bool := if r = 0 then true else a.p.getLsbD r

/-- Write predicate `r`: writes to `p0` are discarded (R45). -/
def Arch.setP (a : Arch) (r : Nat) (b : Bool) : Arch :=
  if r = 0 then a
  else
    let m : BitVec 8 := 1#8 <<< r
    { a with p := if b then a.p ||| m else a.p &&& ~~~m }

/-- Vector register `r`. -/
def Arch.vreg (a : Arch) (r : Nat) : BitVec 2048 := Tab.get (fun _ => 0) a.v r

/-- Write vector register `r`. -/
def Arch.setV (a : Arch) (r : Nat) (x : BitVec 2048) : Arch := { a with v := Tab.set (fun _ => 0) a.v r x }

/-- Exact accumulator `r`. -/
def Arch.ereg (a : Arch) (r : Nat) : BitVec 640 := Tab.get (fun _ => 0) a.ea r

/-- The residue of a 64-bit limb (R179). -/
def residue (limb : Nat) : Nat := limb % 63

/-- The 64-bit limb `i` of an accumulator image. -/
def limbOf (x i : Nat) : Nat := x / 2 ^ (64 * i) % 2 ^ 64

/-- The residues of the ten limbs of an image (R179). -/
def residuesOf (x : BitVec 640) : BitVec 60 :=
  BitVec.ofNat 60 ((List.range 10).foldl (fun r i => r + residue (limbOf x.toNat i) * 2 ^ (6 * i)) 0)

/-- Write exact accumulator `r`: its limbs, and their residues (R179). -/
def Arch.setE (a : Arch) (r : Nat) (x : BitVec 640) : Arch :=
  { a with ea := Tab.set (fun _ => 0) a.ea r x, res := Tab.set (fun _ => 0) a.res r (residuesOf x) }

/-- The stored residues of exact accumulator `r` agree with its limbs (R181). -/
def Arch.residuesOk (a : Arch) (r : Nat) : Bool := Tab.get (fun _ => 0) a.res r == residuesOf (a.ereg r)

/-- The residue that a limb adder predicts (R180): of operands with residues `ra` and `rb`, the carry in and the carry out. -/
def predicted (ra rb cin cout : Nat) : Nat := (ra + rb + cin + 47 * cout) % 63

/-- One limb addition: the sum, and its carry out. -/
def limbAdd (a b cin : Nat) : Nat × Nat := ((a + b + cin) % 2 ^ 64, (a + b + cin) / 2 ^ 64)

/-- The adder's check of one limb addition: the prediction equals the residue of the result (R180). -/
def limbChecks (a b cin : Nat) : Bool :=
  predicted (residue a) (residue b) cin (limbAdd a b cin).2 == residue (limbAdd a b cin).1

/-- The check of every limb of the addition of two images, from limb `i` up (R180). -/
def addChecks (x y : Nat) : Nat → Nat → Nat → Bool
  | 0, _, _ => true
  | n + 1, i, cin =>
    limbChecks (limbOf x i) (limbOf y i) cin && addChecks x y n (i + 1) (limbAdd (limbOf x i) (limbOf y i) cin).2

/-- Tile descriptor `r`. -/
def Arch.treg (a : Arch) (r : Nat) : BitVec 256 := Tab.get (fun _ => 0) a.t r

/-- Write tile descriptor `r`. -/
def Arch.setT (a : Arch) (r : Nat) (x : BitVec 256) : Arch := { a with t := Tab.set (fun _ => 0) a.t r x }

/-- 32-bit word `w` of accumulator array `n` (R45, R116). -/
def Arch.accW (a : Arch) (n w : Nat) : BitVec 32 := Tab.get (fun _ => 0) a.acc (4096 * n + w)

/-- Write 32-bit word `w` of accumulator array `n`. -/
def Arch.setAccW (a : Arch) (n w : Nat) (x : BitVec 32) : Arch :=
  { a with acc := Tab.set (fun _ => 0) a.acc (4096 * n + w) x }

/-- Set sticky flags of `xstat` (R137, R158). -/
def Arch.flags (a : Arch) (f : Nat) : Arch := { a with xstat := a.xstat ||| BitVec.ofNat 32 (f % 128) }

/-- Record a fault in `xstat` (R137, R140). -/
def Arch.faultAt (a : Arch) (cause : Nat) : Arch :=
  { a with xstat := BitVec.ofNat 32 (setBits (setBits a.xstat.toNat 8 4 cause) 12 14 a.pc.toNat) }

/-- The 14-bit program counter advanced by one. -/
def Arch.advance (a : Arch) : Arch := { a with pc := a.pc + 1 }

/-! ### Partitions (R31) -/

/-- The number of partitions of the mode in effect. -/
def State.parts (s : State) : Nat := 2 ^ min s.boot.modeNow 2

/-- Cells of a partition. -/
def State.cellsPer (s : State) : Nat := 512 / s.parts

/-- Combs of a partition. -/
def State.combsPer (s : State) : Nat := 64 / s.parts

/-- Devices of a partition. -/
def State.devsPer (s : State) : Nat := 32 / s.parts

/-- C-dies of a partition. -/
def State.diesPer (s : State) : Nat := 8 / s.parts

/-- The partition of a logical cell. -/
def State.partOfCell (s : State) (n : Nat) : Nat := n / s.cellsPer

/-- The partition of a logical comb. -/
def State.partOfComb (s : State) (c : Nat) : Nat := c / s.combsPer

/-- The partition of a device or its forager. -/
def State.partOfDev (s : State) (d : Nat) : Nat := d / s.devsPer

/-- The partition of a sync object: that of the C-die which holds it (R72). -/
def State.partOfSync (s : State) (n : Nat) : Nat := n / 8192 / s.diesPer

/-- The partition that may use Quedar (R33, R37). -/
def State.owner (s : State) : Nat := s.boot.ownerNow

/-- The comb mask of a partition. -/
def State.partMask (s : State) (p : Nat) : Nat := (2 ^ s.combsPer - 1) * 2 ^ (p * s.combsPer)

/-! ### Physical units (R75-R87, R639) -/

/-- The remap entry of logical cell `n`. -/
def State.remapOf (s : State) (n : Nat) : Remap := Tab.get Remap.full s.remap n

/-- Replace the remap entry of logical cell `n`. -/
def State.setRemap (s : State) (n : Nat) (r : Remap) : State :=
  { s with remap := Tab.set Remap.full s.remap n r }

/-- The number of a physical cell (R639). -/
def physNum (die comb slot : Nat) : Nat := 72 * die + 9 * comb + slot

/-- The physical cell that a remap entry names. -/
def Remap.phys (r : Remap) : Nat := physNum r.die r.comb r.slot

/-- Physical cell `c`. -/
def State.physOf (s : State) (c : Nat) : Phys := Tab.get (fun _ => Phys.reset) s.phys c

/-- Replace physical cell `c`. -/
def State.setPhys (s : State) (c : Nat) (p : Phys) : State :=
  { s with phys := Tab.set (fun _ => Phys.reset) s.phys c p }

/-- Forager `d`. -/
def State.frg (s : State) (d : Nat) : Frg := Tab.get (fun _ => Frg.reset) s.frgs d

/-- Replace forager `d`. -/
def State.setFrg (s : State) (d : Nat) (f : Frg) : State :=
  { s with frgs := Tab.set (fun _ => Frg.reset) s.frgs d f }

/-- Device `d`. -/
def State.dev (s : State) (d : Nat) : Dev := Tab.get (fun _ => Dev.reset) s.devs d

/-- Replace device `d`. -/
def State.setDev (s : State) (d : Nat) (x : Dev) : State :=
  { s with devs := Tab.set (fun _ => Dev.reset) s.devs d x }

/-- Port `p`. -/
def State.port (s : State) (p : Nat) : Port := Tab.get (fun _ => Port.reset) s.fab.ports p

/-- Replace port `p`. -/
def State.setPort (s : State) (p : Nat) (x : Port) : State :=
  { s with fab := { s.fab with ports := Tab.set (fun _ => Port.reset) s.fab.ports p x } }

/-- The epoch control of partition `p`. -/
def State.epochOf (s : State) (p : Nat) : Epoch := Tab.get (fun _ => Epoch.reset) s.epochs p

/-- Replace the epoch control of partition `p`. -/
def State.setEpoch (s : State) (p : Nat) (e : Epoch) : State :=
  { s with epochs := Tab.set (fun _ => Epoch.reset) s.epochs p e }

/-- Ring `i` of partition `p`. -/
def State.ring (s : State) (p i : Nat) : Ring := Tab.get (fun _ => Ring.reset) s.rings (64 * p + i)

/-- Replace ring `i` of partition `p`. -/
def State.setRing (s : State) (p i : Nat) (r : Ring) : State :=
  { s with rings := Tab.set (fun _ => Ring.reset) s.rings (64 * p + i) r }

/-- The report ring of partition `p`. -/
def State.rep (s : State) (p : Nat) : RepRing := Tab.get (fun _ => RepRing.reset) s.reps p

/-- Replace the report ring of partition `p`. -/
def State.setRep (s : State) (p : Nat) (r : RepRing) : State :=
  { s with reps := Tab.set (fun _ => RepRing.reset) s.reps p r }

/-- The drip queue of command processor `k`. -/
def State.drip (s : State) (k : Nat) : Drip := Tab.get (fun _ => Drip.reset) s.drips k

/-- Replace the drip queue of command processor `k`. -/
def State.setDrip (s : State) (k : Nat) (d : Drip) : State :=
  { s with drips := Tab.set (fun _ => Drip.reset) s.drips k d }

/-- The commit state of function `f`. -/
def State.commitOf (s : State) (f : Nat) : Commit := Tab.get (fun _ => Commit.reset) s.commits f

/-- Replace the commit state of function `f`. -/
def State.setCommit (s : State) (f : Nat) (c : Commit) : State :=
  { s with commits := Tab.set (fun _ => Commit.reset) s.commits f c }

/-- The routing entry of logical module `n` (R398). -/
def State.route (s : State) (n : Nat) : Route := Tab.get (fun _ => Route.reset) s.fab.routes n

/-- An in-service test of a unit ends early, with result 3 (R657, R658). -/
def State.endTests (s : State) (hit : Nat → Nat → Bool) : State :=
  match s.dbg.istRun with
  | some (k, t, _) =>
    if hit k t then
      let s1 := { s with dbg := { s.dbg with istRun := none, istRes := 3 } }
      if k = 2 then s1.setFrg t { s1.frg t with underTest := false } else s1
    else s
  | none => s

/-! ### Counters (R636-R639) -/

/-- Always-on counter `n`. -/
def State.aon (s : State) (n : Nat) : Word := Tab.get (fun _ => 0) s.dbg.aon n

/-- Count `k` events in always-on counter `n`. -/
def State.bump (s : State) (n k : Nat) : State :=
  { s with dbg := { s.dbg with aon := Tab.set (fun _ => 0) s.dbg.aon n (s.aon n + BitVec.ofNat 64 k) } }

/-- The reference count: counter 63. -/
def State.now (s : State) : Word := s.aon 63

/-- Count `k` events in counter `i` of physical cell `c`. -/
def State.bumpCell (s : State) (c i k : Nat) : State :=
  let p := s.physOf c
  s.setPhys c { p with cnt := Tab.set (fun _ => 0) p.cnt i (Tab.get (fun _ => 0) p.cnt i + BitVec.ofNat 64 k) }

/-- Count `k` events in counter `i` of forager `d`. -/
def State.bumpFrg (s : State) (d i k : Nat) : State :=
  let f := s.frg d
  s.setFrg d { f with cnt := Tab.set (fun _ => 0) f.cnt i (Tab.get (fun _ => 0) f.cnt i + BitVec.ofNat 64 k) }

/-- The partition event `code` of partition `p`, and the mask event of comb `c` (R640): key 256 * unit + code, with
combs as units 16-79. -/
def State.event (s : State) (p code : Nat) : Word := Tab.get (fun _ => 0) s.dbg.part (256 * p + code)

/-- Count `k` partition events. -/
def State.bumpPart (s : State) (p code k : Nat) : State :=
  { s with dbg := { s.dbg with
      part := Tab.set (fun _ => 0) s.dbg.part (256 * p + code) (s.event p code + BitVec.ofNat 64 k) } }

/-- Count `k` mask events of logical comb `c`. -/
def State.bumpComb (s : State) (c code k : Nat) : State := s.bumpPart (16 + c) code k

/-! ### The firmware image in effect (R185, R624) -/

/-- The image in a flash bank. -/
def State.image (s : State) (bank : Bool) : Image :=
  Tab.get (fun _ => Image.shipped) s.mgmt.images (if bank then 1 else 0)

/-- The bank of the image in effect: while a reset is pending, the pointer already names the other (R186, R628). -/
def State.runBank (s : State) : Bool := if s.mgmt.fwState = 7 then !s.mgmt.bank else s.mgmt.bank

/-- The arithmetic revision in effect (R185, R328). -/
def State.arev (s : State) : Nat := (s.image s.runBank).arev.toNat

/-! ### Free values (log 1) -/

/-- A fresh free value, and the state in which it is used up. -/
def State.fresh (s : State) : Nat × State := (Config.freeValue s.freeCtr, { s with freeCtr := s.freeCtr + 1 })

/-! ### Availability -/

/-- The main domain runs and has not stopped after a fatal error (R43, R573). -/
def State.live (s : State) : Bool := s.boot.standby && s.boot.mainOn && !s.resets.stopped

/-- Partition `p` is at no idle depth (R485, R487). -/
def State.awake (s : State) (p : Nat) : Bool :=
  Tab.get (fun _ => 0) s.power.depth p == 0 && !s.power.waking.contains p

/-- A partition at an idle depth begins to wake (R487). -/
def State.wake (s : State) (p : Nat) : State :=
  if Tab.get (fun _ => 0) s.power.depth p == 0 || s.power.waking.contains p then s
  else { s with power := { s.power with waking := s.power.waking ++ [p] } }

/-- An access to partition `p` is performed when it is awake. At an idle depth it wakes the partition and waits where it comes from,
which gives it again when the wake completes (R487, log 120). -/
def whenAwake (s : State) (p : Nat) (k : Host.Outcome State Fault Refusal) : Host.Outcome State Fault Refusal :=
  if s.awake p then k else .next (s.wake p)

/-- The memory of partition `p` is in self-refresh: its accesses, scrub and lining copies wait for a wake (R485, R487, R488). -/
def State.asleep (s : State) (p : Nat) : Bool := decide (3 ≤ Tab.get (fun _ => 0) s.power.depth p)

/-- An access to the memory of partition `p` is performed out of self-refresh: it wakes a partition in it, and waits where it comes from
(R485, R487, R488, log 120). -/
def whenRoused (s : State) (p : Nat) (k : Host.Outcome State Fault Refusal) : Host.Outcome State Fault Refusal :=
  if s.asleep p then .next (s.wake p) else k

/-- Partition `p` is under reset (R550). -/
def State.inReset (s : State) (p : Nat) : Bool :=
  s.resets.running.any fun r => r.domain == 3 || (r.domain == 2 && r.number == p)

/-- The physical cell that serves logical cell `n` is under reset (R545, R552). -/
def State.resettingCell (s : State) (n : Nat) : Bool :=
  s.resets.running.any fun r => match r.domain with
    | 0 => (s.remapOf r.number).phys == (s.remapOf n).phys
    | 1 => r.number == 8 * (s.remapOf n).die + (s.remapOf n).comb
    | 2 => r.number == s.partOfCell n
    | _ => true

/-- Partition `p` exists, reports ready and serves commands: not out of service, not at an idle depth (R32, R471,
R487, R567). -/
def State.serving (s : State) (p : Nat) : Bool :=
  decide (p < s.parts) && s.power.running && s.boot.ready.contains p && !s.resets.partOos.contains p &&
    !s.resets.moduleOos && s.awake p

/-- The reason why an event of the main domain does not exist, if it does not. -/
def State.dead (s : State) : Refusal := if s.resets.stopped then .stopped else .unpowered

/-- An event of the main domain: refused while the domain is off or stopped. -/
def whenLive (s : State) (k : Host.Outcome State Fault Refusal) : Host.Outcome State Fault Refusal :=
  if s.live then k else .refused s.dead

/-- An event of the standby domain (R43). -/
def whenStandby (s : State) (k : Host.Outcome State Fault Refusal) : Host.Outcome State Fault Refusal :=
  if s.boot.standby then k else .refused .unpowered

/-- An event that happens only under a condition. -/
def whenDue (b : Bool) (k : Host.Outcome State Fault Refusal) : Host.Outcome State Fault Refusal :=
  if b then k else .refused .notDue

/-- What the spec holds until a condition waits where it stands, and its row is taken again (R85, R216, R279, R504, R549). -/
def whenFree (b : Bool) (s : State) (k : Host.Outcome State Fault Refusal) : Host.Outcome State Fault Refusal :=
  if b then k else .next s

/-- A command whose operands name units the module has, and whose data has the length its row gives it. -/
def whenFormed (b : Bool) (k : Host.Outcome State Fault Refusal) : Host.Outcome State Fault Refusal :=
  if b then k else .refused .illFormed

/-- An event that names an item of the state. -/
def withItem {α : Type} (o : Option α) (k : α → Host.Outcome State Fault Refusal) :
    Host.Outcome State Fault Refusal :=
  match o with
  | some a => k a
  | none => .refused .noSuchItem

/-- Fold a state over a list. -/
def foldS {α : Type} (f : State → α → State) (s : State) (l : List α) : State := l.foldl f s

/-! ### The test record (R588) -/

/-- The test record becomes invalid for a reason of `PRT_START`.invalid; the first reason stays. -/
def State.spoilRecord (s : State) (why : Nat) : State :=
  if s.boot.recValid then { s with boot := { s.boot with recValid := false, invalid := why } } else s

/-! ### Bytes -/

/-- The little-endian number of a list of bytes (R7). -/
def leNat : List Byte → Nat
  | [] => 0
  | b :: t => b.toNat + 256 * leNat t

/-- The `n` little-endian bytes of a number (R7). -/
def leBytes : Nat → Nat → List Byte
  | 0, _ => []
  | n + 1, x => BitVec.ofNat 8 x :: leBytes n (x / 256)

end Sys2Proof.Machine
end

