-- ==== Sys2Proof/Machine/Mem.lean ====
section
/-!
DEFINITION. Memory: the local map, interleaving, dirty granules and copy-before-write, and what an engine may reach
(R188-R204, R220, R274-R276, R323, R517, R518, R523).

`mem` holds close and cell memory by local-map offset; a byte nothing has written reads as 0 (log 3). `ext` holds host
memory and the far tier by a tagged key; a byte the module has not written there reads as `Config.extByte` (log 3).
-/

namespace Sys2Proof.Machine

/-! ### Bytes of memory -/

/-- What an unlisted byte of the local map reads as (log 3). -/
def memDefault (_ : Nat) : Byte := 0

/-- One byte of the local map. -/
def State.memByte (s : State) (a : Nat) : Byte := Tab.get memDefault s.mem a

/-- One byte of host memory or of the far tier. -/
def State.extByte (s : State) (a : Nat) : Byte := Tab.get Config.extByte s.ext a

/-- The key of a CXL address of the far tier. -/
def farKey (cxl : Nat) : Nat := 2 * 2 ^ 60 + cxl

/-- The key of a host physical address. -/
def hostKey (hpa : Nat) : Nat := 3 * 2 ^ 60 + hpa

/-- `n` bytes of the local map. -/
def State.memBytes (s : State) (a n : Nat) : List Byte := (List.range n).map fun i => s.memByte (a + i)

/-- `n` bytes of `ext`. -/
def State.extBytes (s : State) (a n : Nat) : List Byte := (List.range n).map fun i => s.extByte (a + i)

/-- Write bytes into a table of bytes from address `a`. -/
def putBytes (d : Nat → Byte) (t : Tab Byte) (a : Nat) : List Byte → Tab Byte
  | [] => t
  | b :: bs => putBytes d (Tab.set d t a b) (a + 1) bs

/-- Write bytes of the local map, and nothing else. -/
def State.pokeMem (s : State) (a : Nat) (bs : List Byte) : State := { s with mem := putBytes memDefault s.mem a bs }

/-- Write bytes of `ext`, and nothing else. -/
def State.pokeExt (s : State) (a : Nat) (bs : List Byte) : State :=
  { s with ext := putBytes Config.extByte s.ext a bs }

/-! ### The local map (R189) -/

/-- The first address of cell memory. -/
def cellBase : Nat := 0x004000000000

/-- The first address of the sync range. -/
def syncBase : Nat := 0x004100000000

/-- The bytes of one cell's memory. -/
def cellBytes : Nat := 0x400000

/-- The first address of a logical cell's memory (R48). -/
def cellMem (n : Nat) : Nat := cellBase + cellBytes * n

/-- An offset lies in close memory. -/
def isClose (o : Nat) : Bool := decide (o < 0x2D00000000)

/-- An offset lies in cell memory. -/
def isCellMem (o : Nat) : Bool := decide (cellBase ≤ o) && decide (o < cellBase + 512 * cellBytes)

/-- An offset lies in the sync range. -/
def isSync (o : Nat) : Bool := decide (syncBase ≤ o) && decide (o < syncBase + 0x80000)

/-! ### Interleaving (R200-R204, R214) -/

/-- The granules of 4 KiB of one device. -/
def devGranules : Nat := 1474560

/-- The granules each device holds back (R200). -/
def State.reserveG (s : State) : Nat := if s.boot.reserveOn then 46080 else 0

/-- The home granules of each device of partition `p` in effect (R200). -/
def State.homeG (s : State) (p : Nat) : Nat := 256 * Tab.get (fun _ => 0) s.boot.homeNow p

/-- The bytes of a partition's slice of close memory (R201). -/
def State.sliceBytes (s : State) : Nat := s.devsPer * devGranules * 4096

/-- The first address of a partition's slice (R201). -/
def State.sliceStart (s : State) (p : Nat) : Nat := p * s.sliceBytes

/-- The addressable bytes of a slice (R201). -/
def State.addressable (s : State) : Nat := s.devsPer * (devGranules - s.reserveG) * 4096

/-- The bytes of the striped part of a slice (R201). -/
def State.stripedBytes (s : State) (p : Nat) : Nat :=
  s.devsPer * (devGranules - s.homeG p - s.reserveG) * 4096

/-- The partition whose slice holds a close-memory offset. -/
def State.partOfClose (s : State) (o : Nat) : Nat := o / s.sliceBytes

/-- The exclusive or of every higher `b`-bit field of `g` (R202). -/
def foldFields (b g : Nat) : Nat := (List.range (29 / b)).foldl (fun x k => x ^^^ bits g ((k + 1) * b) b) 0

/-- The device and device granule of a striped granule (R202). -/
def State.striped (s : State) (p g : Nat) : Nat × Nat :=
  let b := Nat.log2 s.devsPer
  (p * s.devsPer + (g % 2 ^ b ^^^ foldFields b g), g / 2 ^ b)

/-- The device and device granule of a close-memory offset before any retirement (R202, R203). -/
def State.mapGranule (s : State) (o : Nat) : Nat × Nat :=
  let p := s.partOfClose o
  let x := o - s.sliceStart p
  if x < s.stripedBytes p then s.striped p (x / 4096)
  else
    let h := s.homeG p * 4096
    let y := x - s.stripedBytes p
    (p * s.devsPer + y / h, devGranules - s.homeG p - s.reserveG + y % h / 4096)

/-- Where the data of device granule `k` of device `d` lives after a retirement into the reserve (R214). -/
def State.relocate (s : State) (d k : Nat) : Nat × Nat :=
  if s.reserve = some d then
    let t := k % 31
    ((if t < d then t else t + 1), devGranules - s.reserveG + k / 31)
  else (d, k)

/-- The device and device granule in which a close-memory offset lives. -/
def State.place4K (s : State) (o : Nat) : Nat × Nat :=
  let (d, k) := s.mapGranule o
  s.relocate d k

/-- Where a device line lies: page, line in page, the bytes of the page that hold its data and its check bytes, channel, bank and row
(R193, R204). -/
structure LinePlace where
  page  : Nat
  slot  : Nat
  data  : Nat
  check : Nat
  chan  : Nat
  bank  : Nat
  row   : Nat
  deriving DecidableEq, Repr

/-- The storage of device line `l` (R193, R204). -/
def linePlace (l : Nat) : LinePlace :=
  let p := l / 30
  { page := p, slot := l % 30, data := 64 * (l % 30), check := 1920 + 4 * (l % 30), chan := p % 4, bank := p / 4 % 16,
    row := p / 64 }

/-- The stamp of page `p`, in its bytes 2,040-2,047: its index, then the complement of it (R193). -/
def pageStamp (p : Nat) : Word := BitVec.ofNat 64 (p % 2 ^ 32 + (2 ^ 32 - 1 - p % 2 ^ 32) * 2 ^ 32)

/-- The stamp that page `p` of device `d` holds. -/
def State.stampOf (s : State) (d p : Nat) : Word := Tab.get pageStamp (s.dev d).stamps p

/-- The stamp of page `p` of device `d` as it stands with bits of it flipped. -/
def State.flipStamp (s : State) (d p : Nat) (m : Word) : State :=
  s.setDev d { s.dev d with stamps := Tab.set pageStamp (s.dev d).stamps p (s.stampOf d p ^^^ m) }

/-- Every page of device `d` has its stamp written (R199). -/
def State.writeStamps (s : State) (d : Nat) : State := s.setDev d { s.dev d with stamps := [] }

/-- The device and device line of a close-memory offset. -/
def State.lineOf (s : State) (o : Nat) : Nat × Nat :=
  let (d, k) := s.place4K o
  (d, (k * 4096 + o % 4096) / 64)

/-- A range of the local map lies in the memory of a cell under a cell or comb reset: requests of other engines are held until the
reset ends (R549). -/
def State.resetHolds (s : State) (o len : Nat) : Bool :=
  let n := (o - cellBase) / cellBytes
  let m := (o + (len - 1) - cellBase) / cellBytes
  isCellMem o && len != 0 && s.resets.running.any fun r =>
    (r.domain == 0 && decide (n ≤ r.number) && decide (r.number ≤ m)) ||
      (r.domain == 1 && decide (n / 8 ≤ r.number) && decide (r.number ≤ m / 8))

/-- A range to be read waits: a line of it is uncorrectable and not yet rewritten, and a consumer waits for its repair (R198,
R504), or it lies in the memory of a cell under reset (R549). -/
def State.lostIn (s : State) (o len : Nat) : Bool :=
  s.resetHolds o len || s.devs.any (fun e => !e.2.lost.isEmpty) && isClose o && len != 0 && (s.epochOf (s.partOfClose o)).active &&
    (List.range ((o + len - 1) / 64 - o / 64 + 1)).any fun i =>
      let (d, l) := s.lineOf (64 * (o / 64 + i))
      (s.dev d).lost.contains l

/-- A granule of a range of close memory lay on a device that is retired without a place in the reserve (R216). -/
def State.goneIn (s : State) (o len : Nat) : Bool :=
  s.devs.any (fun e => e.2.retired) && isClose o && len != 0 &&
    (List.range ((o + len - 1) / 4096 - o / 4096 + 1)).any fun i =>
      (s.dev (s.place4K (4096 * (o / 4096 + i))).1).retired

/-! ### Dirty maps (R274, R517) -/

/-- A granule's bit. -/
def Bitmap.get (b : Bitmap) (k : Nat) : Bool := Tab.get (fun _ => false) b.t k

/-- Set a granule's bit. -/
def Bitmap.set (b : Bitmap) (k : Nat) (v : Bool) : Bitmap := { t := Tab.set (fun _ => false) b.t k v }

/-- No bit is set. -/
def Bitmap.clear (b : Bitmap) : Bool := b.t.isEmpty

/-! ### Windows (R220, R324) -/

/-- Far window `i` as in effect, if it is active (R221). -/
def State.farWin (s : State) (i : Nat) : Option FarWin :=
  let m := 0x021000 + 0x10 * i
  let c := 0x021008 + 0x10 * i
  if s.barB c 0 then
    some { num := i, lo := s.barF m 0 13 * 2 ^ 30, size := s.barF m 16 14 * 2 ^ 30,
           target := s.barF m 32 22 * 2 ^ 30, data := s.barB c 1, lining := s.barB c 2, rings := s.barB c 3,
           ro := s.barB c 4, shared := s.barB c 5, part := s.barF c 6 2 }
  else none

/-- The active far windows, in order. -/
def State.farWins (s : State) : List FarWin := (List.range 8).filterMap s.farWin

/-- The first of some windows that a partition's offset matches (R220). -/
def matchFar (l : List FarWin) (p o : Nat) : Option FarWin :=
  l.find? fun w => decide (w.lo ≤ o) && decide (o < w.lo + w.size) && (w.part == p || w.shared)

/-- The active far window that a partition's offset matches (R220). -/
def State.farMatch (s : State) (p o : Nat) : Option FarWin := matchFar s.farWins p o

/-- An active host window. -/
structure HostWin where
  num  : Nat
  lo   : Nat
  size : Nat
  data : Bool
  rings : Bool
  ro   : Bool
  deriving DecidableEq, Repr

/-- The partition of host window `j` (R324). -/
def State.hostWinPart (s : State) (j : Nat) : Nat := j / (16 / s.parts)

/-- Host window `j` as in effect, if it is active (R324). -/
def State.hostWin (s : State) (j : Nat) : Option HostWin :=
  let b := 0x011000 + 0x10 * j
  let c := 0x011008 + 0x10 * j
  if s.barB c 0 then
    some { num := j, lo := s.barF b 12 40 * 4096, size := s.barF c 8 28 * 4096, data := s.barB c 2,
           rings := s.barB c 3, ro := s.barB c 1 }
  else none

/-- The active host window of a partition that holds a host physical address. -/
def State.hostMatch (s : State) (p a : Nat) : Option HostWin :=
  (List.range 16).findSome? fun j =>
    match s.hostWin j with
    | some w => if decide (w.lo ≤ a) && decide (a < w.lo + w.size) && s.hostWinPart j == p then some w else none
    | none => none

/-! ### What an engine may reach (R36, R37, R188, R190, R220, R323) -/

/-- What an access is for (R220, R323). -/
inductive Use where
  | data | rings | lining
  deriving DecidableEq, Repr

/-- Where an address leads. -/
inductive Home where
  | loc (off : Nat)
  | rem (module off : Nat)
  | far (off cxl : Nat)
  | host (hpa : Nat)
  deriving DecidableEq, Repr

/-- The answer of a reach check: allowed, `bound` for an access that starts where it may and runs past the region,
`denied` for one that may not start there. -/
inductive Reach where
  | ok (h : Home)
  | bound
  | denied
  deriving DecidableEq, Repr

/-- The bounds of the region of the local map in which an offset lies, for partition `p`: its first offset and the
offset past its end; `none` where the partition may not start an access. `perCell` makes one cell's memory a region
(R363); a tile's region is the partition's part of the range (R125, log 13). Offsets the layout leaves unaddressable
lie past the end of the slice's region (R190). -/
def State.localRegion (s : State) (p : Nat) (perCell : Bool) (o : Nat) : Option (Nat × Nat) :=
  if isClose o then
    if s.partOfClose o = p then some (s.sliceStart p, s.sliceStart p + s.addressable) else none
  else if isCellMem o then
    let n := (o - cellBase) / cellBytes
    if s.partOfCell n = p then
      if perCell then some (cellMem n, cellMem n + cellBytes)
      else some (cellMem (p * s.cellsPer), cellMem ((p + 1) * s.cellsPer))
    else none
  else none

/-- The region of another module's local map in which an offset lies (R125, R363). The sync range is reached only by
sync operations (R292). -/
def remoteRegion (o : Nat) : Option (Nat × Nat) :=
  if isClose o then some (0, 0x2D00000000)
  else if isCellMem o then some (cellBase, cellBase + 512 * cellBytes)
  else none

/-- Compare an access of `len` bytes with its region. -/
def within (r : Nat × Nat) (o len : Nat) (h : Home) : Reach :=
  if decide (r.2 ≤ o) || decide (r.2 < o + len) then .bound else .ok h

/-- The active trace ring, as a range of close memory (R645, R647). -/
def State.traceRing (s : State) : Option (Nat × Nat) :=
  if s.barB 0x07A008 0 then
    let a := s.barF 0x07A000 12 36 * 4096
    some (a, a + 2 ^ s.barF 0x07A008 2 6)
  else none

/-- The active trace ring overlaps a range of the local map. -/
def State.inTrace (s : State) (o len : Nat) : Bool :=
  match s.traceRing with
  | some (a, b) => decide (o < b) && decide (a < o + len)
  | none => false

/-- What partition `p` reaches at an engine global address (R188), for an access of `len` bytes. The region of an address of another
module, or of this one by its number, is a range of R189 (R363; what runs into another partition's part of it, log 13). -/
def State.reach (s : State) (p : Nat) (use : Use) (wr perCell : Bool) (a len : Nat) : Reach :=
  match a / 2 ^ 60 with
  | 0 =>
    let o := a % 2 ^ 60
    match s.localRegion p perCell o with
    | some r => if wr && s.inTrace o len then .denied else within r o len (.loc o)
    | none => .denied
  | 1 =>
    let m := bits a 48 12
    let o := bits a 0 48
    if s.owner != p || !(s.route m).valid then .denied
    else if m == s.fab.logical.toNat then
      match s.localRegion p false o with
      | some r =>
        if wr && s.inTrace o len then .denied
        else if isCellMem o && decide (r.2 < o + len) && decide (o + len ≤ cellBase + 512 * cellBytes) then .denied
        else if isClose o && decide (s.sliceStart p + s.sliceBytes < o + len) && decide (o + len ≤ 0x2D00000000) then .denied
        else within r o len (.loc o)
      | none => .denied
    else
      match remoteRegion o with
      | some r => within r o len (.rem m o)
      | none => .denied
  | 2 =>
    let o := a % 2 ^ 60
    match s.farMatch p o with
    | some w =>
      let allowed := match use with | .data => w.data | .rings => w.rings | .lining => w.lining
      if !allowed || (wr && w.ro) then .denied else within (w.lo, w.lo + w.size) o len (.far o (w.target + (o - w.lo)))
    | none => .denied
  | 3 =>
    let h := bits a 0 52
    if bits a 52 8 != 0 then .denied
    else
      match s.hostMatch p h with
      | some w =>
        let allowed := match use with | .data => w.data | .rings => w.rings | .lining => false
        if !allowed || (wr && w.ro) then .denied else within (w.lo, w.lo + w.size) h len (.host h)
      | none => .denied
  | _ => .denied

/-- The place of a home `k` bytes on. -/
def Home.add (h : Home) (k : Nat) : Home :=
  match h with
  | .loc o => .loc (o + k)
  | .rem m o => .rem m (o + k)
  | .far o c => .far (o + k) (c + k)
  | .host a => .host (a + k)

/-! ### Engines (R282, R298, R553) -/

/-- The number of an engine among those that carry generation tags and completion counts (R298, R553). -/
def Engine.key : Engine → Nat
  | .cell n => n
  | .mover c => 512 + c
  | .forager d => 576 + d
  | .collective => 608
  | .processor k => 609 + k
  | .remote => 620

/-- The number that stands for the embedded controllers, which are no engines of R282 and carry no generation tag
(log 59). -/
def ctlKey : Nat := 613

/-- The engine that copies a unit of a lining: a forager, the mover of a comb, or the epoch control. -/
def unitKey (u : Nat) : Nat := if u < 32 then (Engine.forager u).key else if u < 96 then (Engine.mover (u - 32)).key else ctlKey

/-! ### Far requests (R226) -/

/-- Put a far or host access among the outstanding requests. `farTag` numbers accesses in the order of issue. -/
def State.pushFar (s : State) (r : FarReq) : State :=
  { s with far := s.far ++ [{ r with tag := s.farTag }], farTag := s.farTag + 1 }

/-- The pieces of `[a, a + len)` cut at multiples of `g`: offset from the start, and length. -/
def cuts (g a len : Nat) : List (Nat × Nat) :=
  let first := a / g
  let last := (a + len - 1) / g
  if len = 0 then []
  else (List.range (last - first + 1)).map fun i =>
    let lo := max a ((first + i) * g)
    let hi := min (a + len) ((first + i + 1) * g)
    (lo - a, hi - lo)

/-- Issue far writes of a run of bytes: each request covers what lies in one aligned block of 256 bytes. -/
def State.farWrite (s : State) (owner : Owner) (eng p off key : Nat) (bs : List Byte) : State :=
  foldS (fun s c =>
    s.pushFar { tag := 0, owner := owner, eng := eng, part := p, wr := true, off := off + c.1, addr := key + c.1, len := c.2,
                data := (bs.drop c.1).take c.2, dest := 0, again := false, sent := false, dead := false })
    s (cuts 256 key bs.length)

/-- Issue far reads of a run of bytes whose data go to engine global address `dest`. -/
def State.farRead (s : State) (owner : Owner) (eng p off key len dest : Nat) : State :=
  foldS (fun s c =>
    s.pushFar { tag := 0, owner := owner, eng := eng, part := p, wr := false, off := off + c.1, addr := key + c.1, len := c.2,
                data := [], dest := dest + c.1, again := false, sent := false, dead := false }) s (cuts 256 key len)

/-- Accesses to host memory proceed: the link is up and no host window drains (R319, R326). -/
def State.hostOpen (s : State) : Bool := s.link.up && !s.drains.any Drain.host

/-- An access to `len` bytes of host memory is performed at once: nothing holds it, no request waits for its turn on the link (R39),
and no earlier access to its lines waits (R286, R319, R326). -/
def State.hostAtOnce (s : State) (a len : Nat) : Bool :=
  s.hostOpen && !s.far.any fun r => !r.sent ||
    (decide (r.addr / 64 * 64 < hostKey a + len) && decide (hostKey a / 64 * 64 < r.addr + r.len))

/-! ### The lining of a partition (R518, R521, R523) -/

/-- A size rounded up to a multiple of 1 MiB. -/
def roundMiB (n : Nat) : Nat := (n + 0xFFFFF) / 0x100000 * 0x100000

/-- The addressable close-memory granules of a partition: *A* (R523). -/
def State.linA (s : State) : Nat := s.devsPer * (devGranules - s.reserveG)

/-- The granules of a partition: *Q* (R523). -/
def State.linQ (s : State) : Nat := s.linA + 1024 * s.cellsPer

/-- The areas of a lining (R523), by their place in the table. -/
inductive LinArea where
  | headers | side | present | list0 | list1 | ctx0 | ctx1 | saves | intake | effect | image
  deriving DecidableEq, Repr

/-- The sizes of the areas, in table order. -/
def State.linSizes (s : State) : List (LinArea × Nat) :=
  let q := s.linQ
  [(.headers, 8192), (.side, (q + 7) / 8), (.present, (q + 7) / 8), (.list0, 4 * q), (.list1, 4 * q),
   (.ctx0, 80 * 2 ^ 20), (.ctx1, 80 * 2 ^ 20), (.saves, s.cellsPer / 2 * (2 ^ 22 + 2 ^ 18)), (.intake, 64 * 2 ^ 20),
   (.effect, 64 * 2 ^ 20), (.image, 2 * q * 4096)]

/-- The offset of an area from the lining's start. -/
def State.linOffset (s : State) (a : LinArea) : Nat :=
  (s.linSizes.takeWhile (fun e => e.1 != a)).foldl (fun o e => o + roundMiB e.2) 0

/-- The size a lining requires, in GiB (R523). -/
def State.linNeed (s : State) : Nat :=
  (s.linSizes.foldl (fun o e => o + roundMiB e.2) 0 + 2 ^ 30 - 1) / 2 ^ 30

/-- The far-window offset at which the lining of partition `p` starts. -/
def State.linBase (s : State) (p : Nat) : Nat := s.barF (0x060100 + 0x10 * p) 0 13 * 2 ^ 30

/-- The lining of partition `p` is on (R521). -/
def State.linOn (s : State) (p : Nat) : Bool := (s.epochOf p).active

/-- Where the lining of partition `p` lies in the far tier, at an offset from its start: far-window offset and storage. A spare
reaches it through its recovery window (R536). -/
def State.linPlace (s : State) (p off : Nat) : Option (Nat × Nat) :=
  match (s.epochOf p).recWin with
  | some b => some (off, farKey (b + off))
  | none =>
    let o := s.linBase p + off
    (s.farMatch p o).map fun w => (o, farKey (w.target + (o - w.lo)))

/-- Write bytes of the lining of partition `p`, at an offset from its start. -/
def State.linWrite (s : State) (owner : Owner) (p off : Nat) (bs : List Byte) : State :=
  match s.linPlace p off with
  | some (o, k) => (s.farWrite owner (match owner with | .lining _ u => unitKey u | _ => ctlKey) p o k bs).bump 58 bs.length
  | none => s

/-- A far window drains: accesses of the lining and the save areas of a partition wait until it has (R224). -/
def State.linDrains (s : State) (p : Nat) : Bool :=
  s.drains.any fun d => !d.host && match s.farWin d.num with
    | some w => w.part == p || w.shared
    | none => false

/-- Bytes of the lining of partition `p` as the far tier holds them. -/
def State.linRead (s : State) (p off len : Nat) : List Byte :=
  match s.linPlace p off with
  | some (_, k) => s.extBytes k len
  | none => []

/-- The lining granule of a local-map offset (R523). -/
def State.linGranule (s : State) (o : Nat) : Nat :=
  if isClose o then (o - s.sliceStart (s.partOfClose o)) / 4096
  else
    let n := (o - cellBase) / cellBytes
    s.linA + 1024 * (n % s.cellsPer) + (o - cellBase) % cellBytes / 4096

/-! ### Check bits of cell memory (R51, R52) -/

/-- How many of the bits of a 72-bit word are set. -/
def bitCount (m : Nat) : Nat := (List.range 72).foldl (fun x i => if m.testBit i then x + 1 else x) 0

/-- The 64-bit words of cell memory that a range touches and of which stored bits have flipped, with how many. -/
def State.flaws (s : State) (o len : Nat) : List (Nat × Nat) :=
  if len = 0 then []
  else (s.flips.filter fun e => decide (o / 8 ≤ cellBase / 8 + e.1) && decide (cellBase / 8 + e.1 ≤ (o + len - 1) / 8)).map
    fun e => (e.1, bitCount e.2)

/-- The words of a range in which a read finds an uncorrectable error: more than one stored bit has flipped (R51, R52). -/
def State.badWords (s : State) (o len : Nat) : List Nat := ((s.flaws o len).filter fun e => decide (2 ≤ e.2)).map Prod.fst

/-- The single-bit errors that a read of a range corrects (R51). -/
def State.correctable (s : State) (o len : Nat) : Nat := ((s.flaws o len).filter fun e => e.2 == 1).length

/-- A write of `len` bytes at `o` fills a word of cell memory. -/
def fills (o len w : Nat) : Bool := decide (o ≤ cellBase + 8 * w) && decide (cellBase + 8 * w + 8 ≤ o + len)

/-- A write stores new check bits with each word it fills. A narrower write is a read-modify-write, which corrects a single-bit
error of its word, and counts it (R51); an uncorrectable word stays one, and the next read of it finds it (R52, log 115). -/
def State.freshen (s : State) (o len : Nat) : State :=
  if s.flips.isEmpty then s
  else
    let mended := (s.flaws o len).filter fun e => e.2 == 1 && !fills o len e.1
    { s with flips := s.flips.filter fun e =>
        !fills o len e.1 && !mended.any fun m => m.1 == e.1 }.bump 51 mended.length

/-! ### Copies to the lining (R275, R517, R518) -/

/-- Copy the granule at a local-map offset into the lining of its partition (R275, R276, R517, R518): it goes to the
side opposite its side-map bit unless all its bytes are zero, and its number is appended to the commit list. The single-bit errors of a
granule of cell memory are corrected in the copy, and counted (R51). -/
def State.linCopy (s : State) (p unit o : Nat) : State :=
  let s := s.bump 51 (s.correctable (o / 4096 * 4096) 4096)
  let bs := s.memBytes (o / 4096 * 4096) 4096
  let k := s.linGranule o
  let e := s.epochOf p
  let zero := bs.all (fun b => b == 0)
  let side := if Tab.get (fun _ => false) e.side k then 0 else 1
  let s1 := if zero then s else s.linWrite (.lining p unit) p (s.linOffset .image + (2 * k + side) * 4096) bs
  let area : LinArea := if e.epoch % 2 = 0 then .list0 else .list1
  let s2 := s1.linWrite (.lining p unit) p (s.linOffset area + 4 * e.list.length)
    (leBytes 4 (k + if zero then 2 ^ 31 else 0))
  s2.setEpoch p { e with list := e.list ++ [(k, zero)], bytes := e.bytes + 4 + if zero then 0 else 4096 }

/-! ### Save areas (R81-R83) -/

/-- The bytes of one save area: 4 MiB + 256 KiB. -/
def saveBytes : Nat := 2 ^ 22 + 2 ^ 18

/-- The far-window offset at which the save areas of partition `p` start: the old place while a move is under way, the
lining while it is on, the save region while it is enabled (R82). -/
def State.saveBase (s : State) (p : Nat) : Option Nat :=
  match s.saveMoves.find? (fun m => m.part == p) with
  | some m => some m.base
  | none =>
    if s.linOn p then some (s.linBase p + s.linOffset .saves)
    else if s.barB (0x060300 + 8 * p) 16 then some (s.barF (0x060300 + 8 * p) 0 13 * 2 ^ 30)
    else none

/-- Byte `k` of the save area of the pair of logical cell `n`: its window offset and its key in `ext` (R82, R523). While the areas
of its partition move, it is reached as before the move. -/
def State.savePlace (s : State) (n k : Nat) : Option (Nat × Nat) :=
  let p := s.partOfCell n
  let i := n % s.cellsPer
  match s.saveBase p with
  | none => none
  | some b =>
    let o := b + (i / 16 * 8 + i % 8) * saveBytes + k
    let wins := match s.saveMoves.find? (fun m => m.part == p) with
      | some m => m.wins
      | none => s.farWins
    (matchFar wins p o).map fun w => (o, farKey (w.target + (o - w.lo)))

/-- Put bytes into the save area of a pair in a switch or a move of the areas, `k` bytes from its start, page by page: the windows that
hold two pages may lead to different targets (R82, R220, log 50). The bytes are counted (R638). -/
def State.savePoke (s : State) (n k : Nat) (bs : List Byte) : State :=
  foldS (fun s c =>
    match s.savePlace n (k + c.1) with
    | some (_, a) => ((s.pokeExt a ((bs.drop c.1).take c.2)).bump 60 c.2).bumpPart (s.partOfCell n) 17 c.2
    | none => s) s (cuts 4096 k bs.length)

/-- Write bytes of the save area of a pair through requests, for an engine (R83, R226). -/
def State.saveWrite (s : State) (owner : Owner) (eng n k : Nat) (bs : List Byte) : State :=
  foldS (fun s c =>
    match s.savePlace n (k + c.1) with
    | some (o, a) => s.farWrite owner eng (s.partOfCell n) o a ((bs.drop c.1).take c.2)
    | none => s) s (cuts 4096 k bs.length)

/-- Bytes of the save area of a pair, page by page. A page that no window reaches reads as the memory it stands for. -/
def State.saveRead (s : State) (n k len : Nat) : List Byte :=
  (cuts 4096 k len).flatMap fun c =>
    match s.savePlace n (k + c.1) with
    | some (_, a) => s.extBytes a c.2
    | none => s.memBytes (cellMem n + (k + c.1)) c.2

/-- The memory of logical cell `n` is in its save area: it is switched out, and no switch still takes it there (R81, R83). -/
def State.isAway (s : State) (n : Nat) : Bool := !(s.cell n).switchedIn && !s.switches.any fun w => w.outgoing == n

/-! ### Performing a write at its home (R274-R276, R517) -/

/-- Staging buffers whose granules await their far completions, of a forager or a comb mover (R230, R517). -/
def State.staged (s : State) (p unit : Nat) : Nat :=
  ((s.far.filter fun r => r.owner == .lining p unit && r.len == 256).map fun r => r.addr / 4096).eraseDups.length

/-- A staging buffer is free. -/
def State.stagingFree (s : State) (p unit : Nat) : Bool := decide (s.staged p unit < 8)

/-- The granule of cell memory at an offset is frozen. -/
def State.frozenCell (s : State) (o : Nat) : Bool :=
  (s.cell ((o - cellBase) / cellBytes)).frozen.getLsbD ((o - cellBase) % cellBytes / 4096)

/-- A write of `len` bytes finds a staging buffer for each frozen granule (R276, R517), and each such granule of cell memory can be
read. -/
def State.stageOk (s : State) (o len : Nat) : Bool :=
  (cuts 4096 o len).all fun c =>
    let a := o + c.1
    if isClose a then
      let (d, k) := s.place4K a
      !(s.frg d).frozen.get k || s.stagingFree (s.partOfClose a) d
    else
      let n := (a - cellBase) / cellBytes
      !s.frozenCell a || (s.stagingFree (s.partOfCell n) (32 + n / 8) && (s.badWords (a / 4096 * 4096) 4096).isEmpty)

/-- Clear the frozen bit of a granule of close memory after copying it: the copy counts against the forager's share of the budget,
spent or not (R275, R276). -/
def State.stageClose (s : State) (o : Nat) : State :=
  let (d, k) := s.place4K o
  if (s.frg d).frozen.get k then
    let s := s.linCopy (s.partOfClose o) d o
    s.setFrg d { s.frg d with frozen := (s.frg d).frozen.set k false, share := (s.frg d).share - 4096 }
  else s

/-- Mark a granule of close memory written (R274). -/
def State.markClose (s : State) (o : Nat) : State :=
  let (d, k) := s.place4K o
  s.setFrg d { s.frg d with live := (s.frg d).live.set k true }

/-- Clear the frozen bit of a granule of cell memory after copying it (R517). -/
def State.stageCell (s : State) (o : Nat) : State :=
  let n := (o - cellBase) / cellBytes
  let k := (o - cellBase) % cellBytes / 4096
  let c := s.cell n
  if c.frozen.getLsbD k then
    let s := s.linCopy (s.partOfCell n) (32 + n / 8) o
    let c := s.cell n
    s.setCell n { c with frozen := c.frozen &&& ~~~(1#1024 <<< k) }
  else s

/-- Mark a granule of cell memory written (R517). -/
def State.markCell (s : State) (o : Nat) : State :=
  let n := (o - cellBase) / cellBytes
  let k := (o - cellBase) % cellBytes / 4096
  let c := s.cell n
  s.setCell n { c with live := c.live ||| (1#1024 <<< k) }

/-- Perform a write inside one granule of the local map. -/
def State.writeGranule (s : State) (o : Nat) (bs : List Byte) : State :=
  if isClose o then ((s.stageClose o).markClose o).pokeMem o bs
  else (((s.stageCell o).markCell o).pokeMem o bs).freshen o bs.length

/-- A write of the memory of a cell that is switched out also goes to its save area, through the mover of its comb (R83). -/
def State.writeAway (s : State) (owner : Owner) (o : Nat) (bs : List Byte) : State :=
  let n := (o - cellBase) / cellBytes
  if isCellMem o && s.isAway n then
    s.saveWrite owner (Engine.mover (n / 8)).key n ((o - cellBase) % cellBytes) bs
  else s

/-- Perform a write of the local map for an owner: granule by granule. -/
def State.writeFor (s : State) (owner : Owner) (o : Nat) (bs : List Byte) : State :=
  foldS (fun s c =>
    let d := (bs.drop c.1).take c.2
    (s.writeGranule (o + c.1) d).writeAway owner (o + c.1) d) s (cuts 4096 o bs.length)

/-- Perform a write of the local map that no engine's later access waits for. -/
def State.writeLocal (s : State) (o : Nat) (bs : List Byte) : State := s.writeFor .none o bs

/-! ### Writes to lines that a host may hold (R309, R312, R322) -/

/-- The line of HDM or of the sync window that holds a local-map offset is recorded in the snoop filter. -/
def State.hostHolds (s : State) (line : Nat) : Bool := s.link.snoop.any (fun e => e.2 == line)

/-- A line that a host may hold, or that already waits for a back-invalidation: an access of it waits its turn (R286, R312). -/
def State.lineHeld (s : State) (line : Nat) : Bool := s.hostHolds line || s.link.bis.any (fun b => b.line == line)

/-- Put an access of a line behind its back-invalidation. -/
def State.pushBi (s : State) (line : Nat) (w : BiWhat) : State :=
  { s with link := { s.link with bis := s.link.bis ++ [{ line := line, what := w, ord := s.farTag }] }, farTag := s.farTag + 1 }

/-- A line touches a range of bytes. -/
def touches (o len line : Nat) : Bool := len != 0 && decide (o / 64 ≤ line) && decide (line ≤ (o + len - 1) / 64)

/-- Some line of a range of close memory waits for a back-invalidation. -/
def State.waitsBi (s : State) (o len : Nat) : Bool := isClose o && s.link.bis.any fun b => touches o len b.line

/-- A line of a range of close memory is held. -/
def State.heldIn (s : State) (o len : Nat) : Bool :=
  isClose o && (s.link.snoop.any (fun e => touches o len e.2) || s.link.bis.any fun b => touches o len b.line)

/-- The lines of a range of close memory that a host may hold, and of which no back-invalidation is under way. -/
def State.heldLines (s : State) (o len : Nat) : List Nat :=
  if isClose o then
    ((s.link.snoop.map Prod.snd).filter fun l => touches o len l && !s.link.bis.any fun b => b.line == l).eraseDups
  else []

/-- Back-invalidate lines before what needs them is performed. -/
def State.invalidate (s : State) (l : List Nat) : State := foldS (fun t n => t.pushBi n .packet) s l

/-- Run `k`, which reads ranges of the local map, once no host may hold a line of them (R312): the row is taken again while their
back-invalidations are under way. -/
def withRecall (ranges : List (Nat × Nat)) (s : State) (k : Host.Outcome State Fault Refusal) :
    Host.Outcome State Fault Refusal :=
  if ranges.any fun r => s.heldIn r.1 r.2 then
    let l := (ranges.flatMap fun r => s.heldLines r.1 r.2).eraseDups
    if l.isEmpty then .next s else .next (s.invalidate l)
  else k

/-- A write of a range can be performed at once: no host may hold a line of it and no earlier access waits for one (R286, R312), and
frozen granules find a staging buffer (R276). -/
def State.writable (s : State) (o len : Nat) : Bool :=
  !s.link.snoop.any (fun e => touches o len e.2) && !s.link.bis.any (fun b => touches o len b.line) && s.stageOk o len

/-- An engine write of the local map: pieces in lines that a host may hold wait for a back-invalidation (R312), and pieces of frozen
granules for a staging buffer (R276). -/
def State.engineWrite (s : State) (owner : Owner) (eng o : Nat) (bs : List Byte) : State :=
  if s.writable o bs.length then s.writeFor owner o bs
  else foldS (fun s c =>
    let a := o + c.1
    let d := (bs.drop c.1).take c.2
    if s.writable a d.length then s.writeFor owner a d else s.pushBi (a / 64) (.write owner eng a d)) s (cuts 64 o bs.length)

/-- A write waits for a staging buffer of forager `d`, and goes before all other work of it (R276, R277). -/
def State.writeParked (s : State) (d : Nat) : Bool :=
  s.link.bis.any fun b => match b.what with
    | .write _ _ a _ => isClose a && !s.hostHolds b.line && (s.place4K a).1 == d && (s.frg d).frozen.get (s.place4K a).2
    | _ => false

end Sys2Proof.Machine
end

