-- ==== Sys2Proof/Machine/Packets.lean ====
section
/-!
DEFINITION. Packets that the module originates (R387-R392, R407-R413), packets of the swarm (R449, R456), and requests for an
epoch boundary (R508).
-/

namespace Sys2Proof.Machine

/-- The generation tag of an engine (R553). -/
def State.gen (s : State) (e : Nat) : BitVec 10 := Tab.get (fun _ => 0) s.resets.gens e

/-! ### Headers (R387) -/

/-- The first 64 bits of a packet header; the CRC counts age, esc and hops as zero. -/
def pktWord0 (p : Packet) (forCrc : Bool) : Nat :=
  p.type.toNat + p.cls.toNat * 2 ^ 5 + (if p.esc && !forCrc then 2 ^ 8 else 0) +
  (if forCrc then 0 else p.hops.toNat * 2 ^ 9) + (if p.seqd then 2 ^ 11 else 0) + p.gen.toNat * 2 ^ 12 +
  (if forCrc then 0 else p.age.toNat * 2 ^ 22) + p.dstPhys.toNat * 2 ^ 33 + p.srcPhys.toNat * 2 ^ 45 +
  p.plen.toNat * 2 ^ 57

/-- The second 64 bits of a packet header. -/
def pktWord1 (p : Packet) : Nat :=
  p.srcLog.toNat + p.dstLog.toNat * 2 ^ 12 + p.seq.toNat * 2 ^ 24 + p.etag.toNat * 2 ^ 40 + p.res.toNat * 2 ^ 56

/-- The CRC of a packet: over bytes 0x00-0x1B of the header and the bytes after it (log 15). -/
def pktCrc (p : Packet) : BitVec 32 :=
  BitVec.ofNat 32 (crc32c (leBytes 8 (pktWord0 p true) ++ leBytes 8 (pktWord1 p) ++ leBytes 8 p.arg0.toNat ++
    leBytes 4 p.arg1.toNat ++ p.data))

/-- The bytes of a packet on a link. -/
def pktBytes (p : Packet) : List Byte :=
  leBytes 8 (pktWord0 p false) ++ leBytes 8 (pktWord1 p) ++ leBytes 8 p.arg0.toNat ++ leBytes 4 p.arg1.toNat ++
    leBytes 4 p.pcrc.toNat ++ p.data

/-- The packet that a list of bytes spells. -/
def packetOf (bs : List Byte) : Packet :=
  let w0 := leNat (bs.take 8)
  let w1 := leNat ((bs.drop 8).take 8)
  { type := BitVec.ofNat 5 w0, cls := BitVec.ofNat 3 (bits w0 5 3), esc := bit w0 8, hops := BitVec.ofNat 2 (bits w0 9 2),
    seqd := bit w0 11, gen := BitVec.ofNat 10 (bits w0 12 10), age := BitVec.ofNat 11 (bits w0 22 11),
    dstPhys := BitVec.ofNat 12 (bits w0 33 12), srcPhys := BitVec.ofNat 12 (bits w0 45 12),
    plen := BitVec.ofNat 7 (bits w0 57 7), srcLog := BitVec.ofNat 12 w1, dstLog := BitVec.ofNat 12 (bits w1 12 12),
    seq := BitVec.ofNat 16 (bits w1 24 16), etag := BitVec.ofNat 16 (bits w1 40 16), res := BitVec.ofNat 8 (bits w1 56 8),
    arg0 := BitVec.ofNat 64 (leNat ((bs.drop 16).take 8)), arg1 := BitVec.ofNat 32 (leNat ((bs.drop 24).take 4)),
    pcrc := BitVec.ofNat 32 (leNat ((bs.drop 28).take 4)), data := bs.drop 32 }

/-- The size of a packet in bytes. -/
def pktSize (p : Packet) : Nat := 32 + p.data.length

/-! ### Origination (R390, R391, R407, R410) -/

/-- The stream of packets of class `cls` to or from logical module `m`. -/
def streamKey (m cls : Nat) : Nat := 8 * m + cls

/-- The bytes of a payload padded with zeros to a multiple of 64. -/
def padTo64 (bs : List Byte) : List Byte := bs ++ List.replicate ((64 - bs.length % 64) % 64) 0

/-- A packet of this module before its sequence number and CRC. -/
def State.packet (s : State) (type cls gen dstLog : Nat) (arg0 arg1 etag : Nat) (payload : Bool) (data : List Byte) :
    Packet :=
  { type := BitVec.ofNat 5 type, cls := BitVec.ofNat 3 cls, esc := false, hops := 0, seqd := cls != 2,
    gen := BitVec.ofNat 10 gen, age := 0, dstPhys := (s.route dstLog).phys, srcPhys := s.fab.phys,
    plen := if payload then BitVec.ofNat 7 (data.length / 64) else 0, srcLog := s.fab.logical,
    dstLog := BitVec.ofNat 12 dstLog, seq := 0, etag := BitVec.ofNat 16 etag, res := 0, arg0 := BitVec.ofNat 64 arg0,
    arg1 := BitVec.ofNat 32 arg1, pcrc := 0, data := data }

/-- Originate a sequenced packet: it takes the next sequence number of its stream, goes into the retransmit store,
and waits to be routed (R407, R410). -/
def State.originate (s : State) (owner : Owner) (eng : Nat) (p : Packet) : State :=
  let k := streamKey p.dstLog.toNat p.cls.toNat
  let n := Tab.get (fun _ => 0) s.fab.tx k
  let p := { p with seq := n }
  let p := { p with pcrc := pktCrc p }
  { s with
    farTag := s.farTag + 1,
    fab := { s.fab with
      tx := Tab.set (fun _ => 0) s.fab.tx k (n + 1), outbox := s.fab.outbox ++ [p],
      rtx := s.fab.rtx ++ [{ pkt := p, owner := owner, eng := eng, plane := 0, sent := false, ord := s.farTag }] } }

/-- Originate an unsequenced response to packet `q` (R392, R409, R555). -/
def State.respond (s : State) (q : Packet) (type arg0 arg1 : Nat) (payload : Bool) (data : List Byte) : State :=
  let p := s.packet type 2 q.gen.toNat q.srcLog.toNat arg0 arg1 q.etag.toNat payload data
  let p := { p with dstPhys := q.srcPhys, seq := q.seq }
  let p := { p with pcrc := pktCrc p }
  { s with fab := { s.fab with outbox := s.fab.outbox ++ [p] } }

/-- Acknowledge a sequenced packet (R409): folded into an ACK of its stream and generation that still waits, for its decision or for
credit, and covers its number, or as an ACK of its own. -/
def State.ackPkt (s : State) (q : Packet) : State :=
  let fits := fun (a : Packet) => a.type == 4 && a.dstLog == q.srcLog && a.arg1.toNat == q.cls.toNat && a.gen == q.gen &&
    decide ((q.seq - a.seq).toNat < 64)
  if s.fab.outbox.any fits || s.fab.waiting.any fun e => e.1.isNone && fits e.2 then
    let fold := fun (a : Packet) =>
      let b := { a with arg0 := a.arg0 ||| (1#64 <<< (q.seq - a.seq).toNat) }
      if fits a then { b with pcrc := pktCrc b } else a
    { s with fab := { s.fab with
        outbox := s.fab.outbox.map fold, waiting := s.fab.waiting.map fun e => if e.1.isNone then (e.1, fold e.2) else e } }
  else s.respond q 4 1 q.cls.toNat false []

/-- Refuse a sequenced packet, with a reason of R388. -/
def State.refusePkt (s : State) (q : Packet) (reason : Nat) : State :=
  s.respond q 5 0 (q.cls.toNat + reason * 16) false []

/-- Count a remote write or signal issued by an engine (R298). -/
def State.countIssued (s : State) (eng : Nat) : State :=
  { s with fab := { s.fab with issued := Tab.set (fun _ => 0) s.fab.issued eng (Tab.get (fun _ => 0) s.fab.issued eng + 1) } }

/-- Count a remote write or signal acknowledged to an engine (R298). -/
def State.countAcked (s : State) (eng : Nat) : State :=
  { s with fab := { s.fab with acked := Tab.set (fun _ => 0) s.fab.acked eng (Tab.get (fun _ => 0) s.fab.acked eng + 1) } }

/-- The completion counts of an engine are equal (R298). -/
def State.quiet (s : State) (eng : Nat) : Bool :=
  Tab.get (fun _ => 0) s.fab.issued eng == Tab.get (fun _ => 0) s.fab.acked eng

/-- Write bytes of another module's memory, in packets of at most 4,096 bytes (R388). -/
def State.remWrite (s : State) (owner : Owner) (eng m off : Nat) (bs : List Byte) : State :=
  foldS (fun s c =>
    let d := (bs.drop c.1).take c.2
    let p := s.packet 1 1 (s.gen eng).toNat m (off + c.1) c.2 0 true (padTo64 d)
    (s.originate owner eng p).countIssued eng) s (cuts 4096 off bs.length)

/-- Read bytes of another module's memory to engine global address `dest` (R388, R412). -/
def State.remRead (s : State) (owner : Owner) (eng m off len dest : Nat) : State :=
  foldS (fun s c =>
    let p := s.packet 2 1 (s.gen eng).toNat m (off + c.1) c.2 s.fab.etag.toNat false []
    let s := s.originate owner eng p
    { s with
      farTag := s.farTag + 1,
      fab := { s.fab with
        reads := s.fab.reads ++ [{ etag := s.fab.etag, phys := (s.route m).phys, dest := BitVec.ofNat 64 (dest + c.1),
                                   len := c.2, owner := owner, eng := eng, gen := s.gen eng, again := none, ord := s.farTag }],
        etag := s.fab.etag + 1 } }) s (cuts 4096 off len)

/-! ### The swarm (R449, R456, R508) -/

/-- This module is an admitted worker, deputy or manager of a swarm (R449). -/
def State.inSwarm (s : State) : Bool :=
  (s.swarm.role == 1 || s.swarm.role == 2 || s.swarm.role == 3) && s.swarm.admitted

/-- Send a SWARM packet (R456). -/
def State.swarmSend (s : State) (m subtype arg1 : Nat) (data : List Byte) : State :=
  s.originate .none ctlKey (s.packet 14 0 0 m (subtype + s.swarm.term * 2 ^ 8) arg1 0 false data)

/-- The ticks of the reference in one epoch length *L* (R507). -/
def State.epochTicks (s : State) : Nat := s.barF 0x060000 0 15 * 100000

/-- At least `n` ticks have passed since the last cut of partition `p`. -/
def State.sinceCut (s : State) (p n : Nat) : Bool :=
  match (s.epochOf p).lastCut with
  | some t => decide (n ≤ (s.now - t).toNat)
  | none => true

/-- A boundary that is requested now can be taken (R509): the spacing is kept, unless R530 asked for it, and the previous
epoch has been swarm-committed and applied. -/
def State.boundaryOpen (s : State) (p : Nat) : Bool :=
  let e := s.epochOf p
  (e.urgent || s.sinceCut p (s.epochTicks / 4)) && e.step == 0 && !e.taken && e.recStep == 0 && !e.recWant &&
    !e.freezing && !e.fwPoint

/-- A boundary is taken, or its cut is in progress: until the captured barrier completes (R509, R512). -/
def Epoch.cutting (e : Epoch) : Bool := e.taken || e.step == 1 || e.step == 2

/-- A boundary is requested in a partition (R508, R509): a member other than the manager sends each request to the manager.
`urgent` for a request made under R530, which arg1 names (log 73). A request that arrives while a boundary is taken or a cut is in
progress merges into that boundary. -/
def State.requestBoundary (s : State) (p : Nat) (urgent : Bool) : State :=
  if s.inSwarm && s.owner == p && s.swarm.role != 3 then s.swarmSend s.swarm.manager 8 (if urgent then 1 else 0) []
  else if (s.epochOf p).cutting then s
  else
    let e := s.epochOf p
    let s1 := s.setEpoch p { e with requested := true, urgent := e.urgent || urgent }
    s1.setEpoch p { s1.epochOf p with wasHeld := e.wasHeld || !s1.boundaryOpen p }

end Sys2Proof.Machine
end

