-- ==== Sys2Proof/Machine/Report.lean ====
section
/-!
DEFINITION. Trace records, the effect log, and report records (R367-R370, R528-R530, R645-R650).
-/

namespace Sys2Proof.Machine

/-! ### Trace (R646-R650) -/

/-- Write a trace record (R648, R649). The buffer of R648 empties at once in this model (log 14), so a record is lost
only while `stop` holds the ring full. -/
def State.trace (s : State) (type p src a b c : Nat) : State :=
  if s.barB 0x07A008 0 && bit (s.barF 0x07A008 9 24) type then
    if s.dbg.trFull then { s.bump 62 1 with dbg := { (s.bump 62 1).dbg with trLost := true } }
    else
      let replay := (s.epochOf p).recStep == 6
      let w1 := type + p * 2 ^ 5 + (if replay then 2 ^ 7 else 0) + (if s.dbg.trLost then 2 ^ 8 else 0) +
        (src % 2 ^ 16) * 2 ^ 16 + (a % 2 ^ 32) * 2 ^ 32
      let bs := leBytes 8 s.now.toNat ++ leBytes 8 w1 ++ leBytes 8 b ++ leBytes 8 c
      let n := 2 ^ (s.barF 0x07A008 2 6 - 5)
      let base := s.barF 0x07A000 12 36 * 4096
      let s1 := s.pokeMem (base + 32 * s.dbg.trHead) bs
      let last := s.dbg.trHead + 1 == n
      { s1 with dbg := { s1.dbg with
          trHead := if last then 0 else s.dbg.trHead + 1,
          trWraps := if last then min (s.dbg.trWraps + 1) 65535 else s.dbg.trWraps,
          trFull := last && s.barB 0x07A008 1, trLost := false } }
  else s

/-! ### The effect log (R528-R530) -/

/-- The 32 bytes of an effect record (R529). -/
def effectBytes (r : EffectRec) : List Byte :=
  let bs := leBytes 8 (r.kind + r.obj % 2 ^ 16 * 2 ^ 16 + r.rseq % 2 ^ 32 * 2 ^ 32) ++ leBytes 8 r.ref ++
    leBytes 8 r.value.toNat
  bs ++ leBytes 8 (crc32c bs + r.lap % 2 ^ 32 * 2 ^ 32)

/-- The records that the effect log holds (R523, R529). -/
def effectCap : Nat := 2 ^ 21

/-- The records that the intake log holds (R523, R527). -/
def intakeCap : Nat := 2 ^ 18

/-- The effect log of partition `p` is full: the logged effect waits (R530). -/
def State.effectFull (s : State) (p : Nat) : Bool := s.linOn p && decide (effectCap ≤ (s.epochOf p).effects.length)

/-- Append a record to the effect log of a partition whose lining is active (R528, R530). -/
def State.appendEffect (s : State) (p kind obj rseq ref : Nat) (value : Word) : State :=
  if s.linOn p then
    let e := s.epochOf p
    let r : EffectRec := { kind := kind, obj := obj, rseq := rseq, ref := ref, value := value, lap := e.lap }
    let s1 := s.linWrite (.log p) p (s.linOffset .effect + 32 * e.effectPos) (effectBytes r)
    let last := e.effectPos + 1 == effectCap
    let s2 := s1.setEpoch p { e with
      effects := e.effects ++ [r], effectPos := if last then 0 else e.effectPos + 1,
      lap := if last then e.lap + 1 else e.lap }
    if effectCap * 3 ≤ (e.effects.length + 1) * 4 then s2.requestBoundary p true else s2
  else s

/-! ### Reports (R367-R369) -/

/-- A field of a report body: `v` at byte offset `off` of the record and bit `lsb`. -/
def bodyF (off lsb v : Nat) : Nat := v * 2 ^ (8 * (off - 16) + lsb)

/-- The report ring of a partition has no free slot (R368). -/
def RepRing.full (r : RepRing) : Bool := r.tail == r.head && r.wrap != r.headWrap

/-- The entries of the report ring of partition `p`. -/
def State.repSize (s : State) (p : Nat) : Nat := 2 ^ s.barF (regKey p 0x010040) 1 5

/-- Write one structure of a ring: host memory at once while nothing holds the access, the far
tier through requests (R319, R323, R326, R226). -/
def State.ringWrite (s : State) (owner : Owner) (p a : Nat) (bs : List Byte) : State :=
  match s.reach p .rings true false a bs.length with
  | .ok (.host h) => if s.hostAtOnce h bs.length then (s.pokeExt (hostKey h) bs).bump 61 bs.length
    else s.farWrite owner ctlKey p h (hostKey h) bs
  | .ok (.far o cxl) => s.farWrite owner ctlKey p o (farKey cxl) bs
  | _ => s

/-- The 64 bytes of a report record (R367). -/
def reportBytes (p seq : Nat) (wrap lost : Bool) (r : Report) : List Byte :=
  leBytes 8 (r.type + p * 2 ^ 8 + (if wrap then 0 else 2 ^ 10) + (if lost then 2 ^ 11 else 0) + seq % 2 ^ 32 * 2 ^ 32) ++
    leBytes 8 r.time.toNat ++ leBytes 48 r.body.toNat

/-- Write a report into the next slot (R367), and its record in the effect log (R528). -/
def State.writeReport (s : State) (p : Nat) (r : Report) : State :=
  let q := s.rep p
  let last := q.tail + 1 == s.repSize p
  let s1 := s.ringWrite .none p (s.barF (regKey p 0x010038) 12 52 * 4096 + 64 * q.tail)
    (reportBytes p (q.seq + 1) q.wrap q.lostFlag r)
  let q1 := { q with tail := if last then 0 else q.tail + 1, wrap := if last then !q.wrap else q.wrap,
                     seq := (q.seq + 1) % 2 ^ 32, lostFlag := false }
  (s1.setRep p q1).appendEffect p 2 0 q1.seq (q1.tail + if q1.wrap then 2 ^ 16 else 0) 0

/-- Write the reports that wait, while the ring has space (R368). -/
def State.flushReports (s : State) (p : Nat) : State :=
  (s.rep p).held.foldl (fun s r =>
    let q := s.rep p
    if q.active && !q.full then
      let s1 := s.writeReport p r
      s1.setRep p { s1.rep p with held := (s1.rep p).held.drop 1 }
    else s) s

/-- Raise a report in partition `p` (R367, R368); `reason` and `subject` go to the trace record (R650). -/
def State.report (s : State) (p type reason subject body : Nat) : State :=
  let r : Report := { type := type, time := s.now, body := BitVec.ofNat 384 body }
  let q := s.rep p
  let s1 := s.trace 3 p type reason (q.seq + q.held.length + 1) subject
  if q.active && !q.full && q.held.isEmpty then s1.writeReport p r
  else if q.held.length < 256 then s1.setRep p { q with held := q.held ++ [r] }
  else s1.setRep p { q with lost := min (q.lost + 1) 65535, lostFlag := true }

/-- Raise a report in every partition. -/
def State.reportAll (s : State) (type reason subject body : Nat) : State :=
  foldS (fun s p => s.report p type reason subject body) s (List.range s.parts)

/-- The body of an `ESCALATE` report (R369). -/
def escalateBody (reason subject detail : Nat) : Nat :=
  bodyF 0x10 0 reason + bodyF 0x18 0 (subject % 2 ^ 64) + bodyF 0x20 0 (detail % 2 ^ 64)

/-- The body of a `RETIRE` report (R369). -/
def retireBody (unit state number old new : Nat) : Nat :=
  bodyF 0x10 0 unit + bodyF 0x10 4 state + bodyF 0x10 16 number + bodyF 0x18 0 old + bodyF 0x20 0 new

/-- The body of a `POWER_EVENT` or `THERMAL` report (R369). -/
def powerBody (reason before after : Nat) : Nat :=
  bodyF 0x10 0 reason + bodyF 0x18 0 before + bodyF 0x18 32 after

end Sys2Proof.Machine
end

