-- ==== Sys2Proof/Machine/Net.lean ====
section
/-!
DEFINITION. Reports that go on to the swarm manager and the management port (R450, R452, R604), and the transfers that
engines make between any two addresses (R188, R226, R284).
-/

namespace Sys2Proof.Machine

/-! ### Reports with their copies to the manager and the management port (R450, R604) -/

/-- Queue an event of the management port: the oldest is discarded when 64 wait (R604). -/
def State.mEvent (s : State) (code detail : Nat) : State :=
  let m := s.mgmt
  let full := decide (64 ≤ m.events.length)
  { s with mgmt := { m with
      events := (if full then m.events.drop 1 else m.events) ++ [{ code := code, detail := detail }],
      evLost := if full then m.evLost + 1 else m.evLost, ibiDue := true } }

/-- A module's report as the manager keeps it (R450). -/
def MemberRep.count (r : MemberRep) (type reason : Nat) : MemberRep :=
  if type = 2 then { r with retire := r.retire + 1 }
  else { r with escalate := r.escalate + 1, reason := reason }

/-- The manager counts a report of member `m` (R450). -/
def State.countReport (s : State) (m type reason : Nat) : State :=
  let r := (Tab.get (fun _ => MemberRep.reset) s.swarm.reports m).count type reason
  { s with swarm := { s.swarm with reports := Tab.set (fun _ => MemberRep.reset) s.swarm.reports m r } }

/-- Pass a `RETIRE` or `ESCALATE` report on to the swarm manager as a RELAY packet (R450): arg0 holds its first body
word, arg1 its type (log 16). The manager counts its own. -/
def State.relayReport (s : State) (type body : Nat) : State :=
  if s.inSwarm && s.swarm.role == 3 then s.countReport s.fab.logical.toNat type (bits body 0 8)
  else if s.inSwarm then
    s.originate .none ctlKey (s.packet 8 3 0 s.swarm.manager (body % 2 ^ 64) type 0 false (leBytes 32 (body / 2 ^ 64)))
  else s

/-- A fault notice to the manager (R452, R551): for the fabric-owner partition of an admitted member. A manager that
fails itself notes it (log 52); for reason 17 it wants the recovery itself. -/
def State.faultNotice (s : State) (p reason : Nat) : State :=
  if s.inSwarm && s.owner == p then
    if s.swarm.role == 3 then
      if reason == 17 then s
      else { s with swarm := { s.swarm with notices := s.swarm.notices ++ [(s.fab.logical.toNat, 2)] } }
    else s.swarmSend s.swarm.manager 6 reason []
  else s

/-- Raise an `ESCALATE` report in a partition, count it, and pass it on (R369, R450, R638). -/
def State.escalate (s : State) (p reason subject detail : Nat) : State :=
  let b := escalateBody reason subject detail
  ((s.report p 4 reason subject b).bump 47 1).relayReport 4 b

/-- Raise an `ESCALATE` report about the module: in every partition (log 61), passed on once. -/
def State.escalateAll (s : State) (reason subject detail : Nat) : State :=
  let b := escalateBody reason subject detail
  (foldS (fun s p => (s.report p 4 reason subject b).bump 47 1) s (List.range s.parts)).relayReport 4 b

/-- Raise a `RETIRE` report in a partition and pass it on (R369, R450). -/
def State.retire (s : State) (p unit state number old new : Nat) : State :=
  let b := retireBody unit state number old new
  (s.report p 2 0 number b).relayReport 2 b

/-- A port takes another state: its `RETIRE` report for unit 6 and its trace record (R378, R650). -/
def State.setPortState (s : State) (p st : Nat) : State :=
  let s1 := s.setPort p { s.port p with state := st }
  (s1.retire s1.owner 6 st p p p).trace 12 s1.owner p st (s.port p).pPhys.toNat 0

/-! ### Ports out of use (R377-R380) -/

/-- What a port loses when it fails: its replay buffer and the packets placed in its queue (R385, R406). -/
def Port.drop (q : Port) : Port := { q with lanes := 0, unacked := [], nak := false, replays := 0, rxBuf := [], lastTx := [], queue := [] }

/-- The state of a port that is not trained (R377, R379, R380): not wired in the placement, disabled by the host, or untrained. -/
def State.restState (s : State) (p : Nat) : Nat :=
  if s.fab.placed && !(Tab.get (fun _ => PPort.reset) s.place.ports p).wired then 7
  else if !s.barB (0x030200 + 8 * p) 0 then 6
  else 0

/-- Take a port out of use, or make it ready to train again: it holds nothing and carries no data (R379, R380). -/
def State.restPort (s : State) (p : Nat) : State :=
  let st := s.restState p
  let s1 := s.setPort p { (s.port p).drop with trained := false }
  if (s.port p).state = st then s1 else s1.setPortState p st

/-! ### The places of originated packets (R402, R410, R412) -/

/-- The column of a C-die (R14). -/
def dieCol (d : Nat) : Nat := d % 4

/-- The Q-die at which an engine's packets are routed (R402). -/
def State.homeQ (s : State) (eng : Nat) : Nat :=
  let col := if eng < 512 then dieCol (s.remapOf eng).die else if eng < 576 then dieCol ((eng - 512) / 8)
    else if eng < 608 then dieCol ((eng - 576) / 4) else 3
  min 2 col

/-- The place of a packet in its stream, the store, and the read-tracking entries (R410, R412). -/
def State.storeTakes (s : State) (r : Rtx) : Bool :=
  let before := s.fab.rtx.takeWhile fun x => x != r
  let q := s.homeQ r.eng
  let stream := (before.filter fun x => x.pkt.dstLog == r.pkt.dstLog && x.pkt.cls == r.pkt.cls).length
  let store := (before.filter fun x => s.homeQ x.eng == q).foldl (fun n x => n + pktSize x.pkt) 0
  decide (stream < 256) && decide (store + pktSize r.pkt ≤ 2 ^ 23) &&
    (r.pkt.type != 2 || decide ((before.filter fun x => x.pkt.type == 2).length +
      (s.fab.quiet.filter fun t => decide ((s.now - t).toNat < 200000)).length < 4096))

/-- An engine is held by back-pressure: a packet that it has originated has no place yet (R410, R412). -/
def State.engineHeld (s : State) (eng : Nat) : Bool := s.fab.rtx.any fun r => r.eng == eng && !r.sent && !s.storeTakes r

/-! ### Transfers (R226, R284, R358) -/

/-- Put bytes at their home: at once in the local map and in host memory, through requests in the far tier and while
accesses to it wait, through packets in another module. -/
def State.deliver (s : State) (owner : Owner) (eng p : Nat) (h : Home) (bs : List Byte) : State :=
  match h with
  | .loc o => s.engineWrite owner eng o bs
  | .host a => if s.hostAtOnce a bs.length then (s.pokeExt (hostKey a) bs).bump 61 bs.length
    else s.farWrite owner eng p a (hostKey a) bs
  | .far o cxl => s.farWrite owner eng p o (farKey cxl) bs
  | .rem m o => s.remWrite owner eng m o bs

/-- Data that an engine has read arrive: at the address they are for, or with the command that fetches them. -/
def State.arriveAt (s : State) (owner : Owner) (eng p dest : Nat) (bs : List Byte) : State :=
  match owner with
  | .fetch id => { s with cmds := s.cmds.map fun c =>
      if c.id == id then { c with fetch := c.fetch.map fun l => l ++ [(dest, bs)] } else c }
  | _ =>
    match s.reach p .data false false dest bs.length with
    | .ok h => s.deliver owner eng p h bs
    | _ => s

/-- Bytes that an owner reads and that go to a line are still to come. -/
def State.lineOwed (s : State) (o : Owner) (line : Nat) : Bool :=
  s.far.any (fun r => !r.wr && r.owner == o && touches r.dest r.len line) ||
    s.fab.reads.any (fun r => r.owner == o && touches r.dest.toNat r.len line) ||
    s.link.bis.any fun b => match b.what with
      | .read w _ _ _ len dest => w == o && touches dest len line
      | _ => false

/-- The runs of consecutive bytes of a line among some pieces, with their addresses. -/
def lineRuns (line : Nat) (ps : List Gathered) : List (Nat × List Byte) :=
  let at_ := fun a => ps.findSome? fun g => if g.dest ≤ a then g.data[a - g.dest]? else none
  ((List.range 64).foldr (fun i acc =>
    match at_ (64 * line + i), acc with
    | none, _ => acc
    | some b, (a, l) :: t => if a = 64 * line + i + 1 then (64 * line + i, b :: l) :: t else (64 * line + i, [b]) :: acc
    | some b, [] => [(64 * line + i, [b])]) [])

/-- The gathered bytes of an owner, cut at lines. -/
def State.gathered (s : State) (o : Owner) : List Gathered :=
  (s.gather.filter fun g => g.owner == o).flatMap fun g => (cuts 64 g.dest g.data.length).map fun c =>
    { g with dest := g.dest + c.1, data := (g.data.drop c.1).take c.2 }

/-- Deliver the gathered bytes of an owner that go to lines of which no byte is still to come, each line as one write (R289, R290). -/
def State.pour (s : State) (o : Owner) : State :=
  let ps := s.gathered o
  let ready := ps.filter fun g => !s.lineOwed o (g.dest / 64)
  let s1 := { s with gather := s.gather.filter (fun g => g.owner != o) ++ ps.filter fun g => s.lineOwed o (g.dest / 64) }
  foldS (fun s line => match ready.find? fun g => g.dest / 64 == line with
    | some g => foldS (fun s r => s.arriveAt o g.eng g.part r.1 r.2) s (lineRuns line (ready.filter fun g => g.dest / 64 == line))
    | none => s) s1 (ready.map fun g => g.dest / 64).eraseDups

/-- Put bytes of a read with those that wait for the rest of their line. -/
def State.gatherAt (s : State) (owner : Owner) (eng p dest : Nat) (bs : List Byte) : State :=
  { s with gather := s.gather ++ [{ owner := owner, eng := eng, part := p, dest := dest, data := bs }] }

/-- Data that an engine has read later than it asked for them arrive: what a command fetches joins it, and the rest is written a line at
a time (R289, R290). -/
def State.comeTo (s : State) (owner : Owner) (eng p dest : Nat) (bs : List Byte) : State :=
  match owner with
  | .fetch _ => s.arriveAt owner eng p dest bs
  | _ => (s.gatherAt owner eng p dest bs).pour owner

/-- Bytes that an owner has gathered are not wanted any more. -/
def State.dropGathered (s : State) (o : Owner) : State := { s with gather := s.gather.filter fun g => g.owner != o }

/-- Read `len` bytes of the local map and pass them on with `k`, a place in them at a time: bytes of lines that a host holds when
their line has been back-invalidated (R312), the rest at once. `dest` is where they go. -/
def State.readLocal (s : State) (owner : Owner) (eng p o len dest : Nat) (k : State → Nat → List Byte → State) : State :=
  if s.heldIn o len then
    foldS (fun s c =>
      let a := o + c.1
      if s.lineHeld (a / 64) then s.pushBi (a / 64) (.read owner eng p a c.2 (dest + c.1))
      else k s c.1 (s.memBytes a c.2)) s (cuts 64 o len)
  else k s 0 (s.memBytes o len)

/-- The bytes at a home are at hand: in the local map with no line that a host holds and not in a save area, or in host memory while
nothing holds the access. -/
def State.atHand (s : State) (src : Home) (len : Nat) : Bool :=
  match src with
  | .loc o => !s.heldIn o len && !(isCellMem o && s.isAway ((o - cellBase) / cellBytes))
  | .host a => s.hostAtOnce a len
  | _ => false

/-- Read bytes that are at hand; those of host memory are counted. -/
def State.take (s : State) (src : Home) (len : Nat) : State × List Byte :=
  match src with
  | .loc o => (s, s.memBytes o len)
  | .host a => (s.bump 61 len, s.extBytes (hostKey a) len)
  | _ => (s, [])

/-- Read `len` bytes at a home, to be gathered for the address `dest`: at once or when the read completes. The memory of a cell that is
switched out is read from its save area, through requests (R83). -/
def State.readFor (s : State) (owner : Owner) (eng p : Nat) (src : Home) (dest len : Nat) : State :=
  match src with
  | .loc o =>
    let n := (o - cellBase) / cellBytes
    if isCellMem o && s.isAway n then
      foldS (fun s c => match s.savePlace n ((o - cellBase) % cellBytes + c.1) with
        | some (w, k) => s.farRead owner eng p w k c.2 (dest + c.1)
        | none => s.gatherAt owner eng p (dest + c.1) (s.memBytes (o + c.1) c.2)) s (cuts 4096 o len)
    else s.readLocal owner eng p o len dest fun s c bs => s.gatherAt owner eng p (dest + c) bs
  | .host a => if s.hostAtOnce a len then (s.bump 61 len).gatherAt owner eng p dest (s.extBytes (hostKey a) len)
    else s.farRead owner eng p a (hostKey a) len dest
  | .far o cxl => s.farRead owner eng p o (farKey cxl) len dest
  | .rem m o => s.remRead owner eng m o len dest

/-- Copy runs of bytes (source offset, destination offset, length) from one home to another: from a source whose `span` bytes are at
hand run by run; from another a destination line at a time, as its bytes come. `dest` is the engine global address of the
destination. -/
def State.transfer (s : State) (owner : Owner) (eng p : Nat) (src dst : Home) (dest span : Nat) (runs : List (Nat × Nat × Nat)) : State :=
  let s := s.dropGathered owner
  if s.atHand src span then
    foldS (fun s r =>
      let (t, bs) := s.take (src.add r.1) r.2.2
      t.deliver owner eng p (dst.add r.2.1) bs) s runs
  else (foldS (fun s r => s.readFor owner eng p (src.add r.1) (dest + r.2.1) r.2.2) s runs).pour owner

/-- Read `len` bytes at a home for a command, whose `fetch` they join from place `at_` on (R93, R319, R357). -/
def State.fetchFrom (s : State) (id eng p : Nat) (src : Home) (at_ len : Nat) : State :=
  match src with
  | .loc o => s.readLocal (.fetch id) eng p o len at_ fun s c bs => s.arriveAt (.fetch id) eng p (at_ + c) bs
  | .host a => if s.hostAtOnce a len then (s.bump 61 len).arriveAt (.fetch id) eng p at_ (s.extBytes (hostKey a) len)
    else s.farRead (.fetch id) eng p a (hostKey a) len at_
  | .far o cxl => s.farRead (.fetch id) eng p o (farKey cxl) len at_
  | .rem m o => s.remRead (.fetch id) eng m o len at_

/-- An access issued before `stamp` whose owner satisfies `q` is still outstanding: a far access, a remote access, or
a write that waits for a back-invalidation. -/
def State.pendingBefore (s : State) (stamp : Nat) (q : Owner → Bool) : Bool :=
  s.far.any (fun r => q r.owner && decide (r.tag < stamp)) || s.fab.rtx.any (fun r => q r.owner && decide (r.ord < stamp)) ||
    s.fab.reads.any (fun r => q r.owner && decide (r.ord < stamp)) ||
    s.link.bis.any (fun b => decide (b.ord < stamp) && match b.what with
      | .write o _ _ _ => q o
      | .read o _ _ _ _ _ => q o
      | _ => false)

/-- An access with this owner is still outstanding. -/
def State.outstanding (s : State) (w : Owner) : Bool := s.pendingBefore s.farTag (fun o => o == w)

/-- An owner is a command, a piece of it, or what it fetches. -/
def Owner.ofCmd (id : Nat) : Owner → Bool
  | .cmd i => i == id
  | .piece i _ => i == id
  | .fetch i => i == id
  | _ => false

/-- An access that a command has issued itself is still outstanding. -/
def State.cmdPending (s : State) (id : Nat) : Bool := s.pendingBefore s.farTag (Owner.ofCmd id)

/-- Something that a command fetches by engine `eng` is still on its way. -/
def State.fetching (s : State) (id eng : Nat) : Bool :=
  s.far.any (fun r => r.owner == .fetch id && r.eng == eng) || s.fab.reads.any (fun r => r.owner == .fetch id && r.eng == eng) ||
    s.link.bis.any fun b => match b.what with
      | .read o e _ _ _ _ => o == .fetch id && e == eng
      | _ => false

/-- The transfers that the mover of comb `b` has in flight (R69, R93): pieces of `MOVE` commands, and images of `KERNEL` commands. -/
def State.moverLoad (s : State) (b : Nat) : Nat :=
  (s.cmds.flatMap fun c => c.pieces.filter fun e => e.2 == b && s.outstanding (.piece c.id e.1)).length +
    (s.cmds.filter fun c => s.fetching c.id (Engine.mover b).key).length

/-- The local-map offset that an engine global address names, under either name of this module; any other address itself. -/
def State.homeAt (s : State) (a : Nat) : Nat :=
  if a / 2 ^ 60 = 1 ∧ bits a 48 12 = s.fab.logical.toNat then bits a 0 48 else a

/-- Bytes of a range of the local map that engine `eng` has yet to write, or has read and not written yet. -/
def State.owes (s : State) (eng o len : Nat) : Bool :=
  let meets := fun (a n : Nat) => decide (a < o + len) && decide (o < a + n)
  s.far.any (fun r => !r.wr && r.eng == eng && meets (s.homeAt r.dest) r.len) ||
    s.fab.reads.any (fun r => r.eng == eng && meets (s.homeAt r.dest.toNat) r.len) ||
    s.gather.any (fun g => g.eng == eng && meets (s.homeAt g.dest) g.data.length) ||
    s.link.bis.any fun b => match b.what with
      | .read _ e _ _ n dest => e == eng && meets (s.homeAt dest) n
      | .write _ e a bs => e == eng && meets a bs.length
      | _ => false

/-- An owner is a cell or one of its tile-move slots. -/
def Owner.ofCell (n : Nat) : Owner → Bool
  | .slot c _ => c == n
  | .cell c => c == n
  | _ => false

/-- A local access that cell `n` issued is still outstanding (R296): a far access, a remote read, a held write, or a
signal not yet applied. -/
def State.localPending (s : State) (n : Nat) : Bool :=
  s.far.any (fun r => r.owner.ofCell n) || s.fab.reads.any (fun r => r.owner.ofCell n) ||
    s.link.bis.any (fun b => match b.what with
      | .write o _ _ _ => o.ofCell n
      | .read o _ _ _ _ _ => o.ofCell n
      | .sig g => g.eng == .cell n
      | _ => false) ||
    s.sigs.any (fun g => g.eng == .cell n) ||
    (s.cell n).portQ.any fun d => match d with
      | .sig _ _ _ _ => true
      | _ => false

end Sys2Proof.Machine
end

