-- ==== Sys2Proof/Machine/Issue.lean ====
section
/-!
DEFINITION. How a cell issues an instruction: the image end, illegal words, the guarding predicate, faults and their
quench (R62, R63, R99-R101, R105, R135, R140).
-/

namespace Sys2Proof.Machine

/-! ### Commands in the state -/

/-- The command with an identifier. -/
def State.cmd (s : State) (id : Nat) : Option Cmd := s.cmds.find? (fun c => c.id == id)

/-- Replace the command with the identifier of `c`. -/
def State.setCmd (s : State) (c : Cmd) : State :=
  { s with cmds := s.cmds.map fun d => if d.id == c.id then c else d }

/-- The logical cells of a comb mask, ascending (R91). -/
def cellsOfMask (m : Nat) : List Nat :=
  ((List.range 64).filter (fun c => bit m c)).flatMap fun c => (List.range 8).map fun i => 8 * c + i

/-- The logical cells that run a command. -/
def Cmd.cells (c : Cmd) : List Nat := cellsOfMask c.claimed.toNat

/-! ### Faults and quench (R140) -/

/-- A cell still issues, or would after a wait. -/
def Run.active : Run → Bool
  | .issuing => true
  | .waitObj _ _ _ _ => true
  | .waitSlot _ _ => true
  | .hung => true
  | _ => false

/-- Stop the issue of a cell at its next instruction boundary (R140): a wait it holds ends. -/
def State.quenchCell (s : State) (n : Nat) : State :=
  let c := s.cell n
  if c.run.active then
    let s1 := s.setCell n { c with run := .quenched }
    { s1 with waits := s1.waits.filter fun w => w.who != Waiter.cell n }
  else s

/-- Record a program fault of cell `n` with its command: the fault of the lowest rank decides (R140). -/
def State.noteFault (s : State) (n cause : Nat) (pc : BitVec 14) : State :=
  match (s.cell n).cmd with
  | none => s
  | some id =>
    match s.cmd id with
    | none => s
    | some c =>
      let keep := match c.fault with
        | some (m, _, _) => decide (m < n)
        | none => false
      s.setCmd (if keep then c else { c with fault := some (n, BitVec.ofNat 4 cause, pc) })

/-- The cells that run the same command as cell `n`. -/
def State.peers (s : State) (n : Nat) : List Nat :=
  match (s.cell n).cmd with
  | some id => match s.cmd id with | some c => c.cells.filter (fun m => m != n) | none => []
  | none => []

/-- A program fault at instruction `pc` of cell `n`: cause and fault_pc are recorded, the cell stops, and the
command's other cells are quenched (R140). -/
def State.programFaultAt (s : State) (n cause : Nat) (pc : BitVec 14) : State :=
  let c := s.cell n
  let a := { c.arch with pc := pc }
  let s1 := s.setCell n { c with arch := { a.faultAt cause with pc := c.arch.pc }, run := .faulted }
  let s2 := { s1 with waits := s1.waits.filter fun w => w.who != Waiter.cell n }
  foldS State.quenchCell (s2.noteFault n cause pc) (s2.peers n)

/-- A program fault at the current instruction. -/
def State.programFault (s : State) (n cause : Nat) : State := s.programFaultAt n cause (s.cell n).arch.pc

/-! ### Issue -/

/-- What the sync-port queue of a cell holds before issue stalls (R62, R133). -/
def portDepth : Nat := 8

/-- What an instruction does when it executes: its effect, a fault with its cause, or a hold of issue without
executing. -/
inductive Eff where
  | done (s : State)
  | fault (cause : Nat)

/-- A fence of cell `n` still holds every later instruction (R128, R297). -/
def State.remoteFence (s : State) (n : Nat) : Bool :=
  (s.cell n).fence == .remote && (!s.quiet (Engine.key (.cell n)) || s.localPending n)

/-- A fence of cell `n` still holds later memory accesses (R128, R296). -/
def State.localFence (s : State) (n : Nat) : Bool := (s.cell n).fence != .none && s.localPending n

/-- A memory access of cell `n` may not issue: a fence holds it, or back-pressure holds the engine (R128, R296, R410). -/
def State.memHeld (s : State) (n : Nat) : Bool := s.localFence n || s.engineHeld (Engine.key (.cell n))

/-- Cell `n` has an instruction to issue: its rails are on, it runs, it is served and switched in, no fence and no cut holds it
(R62, R80, R85, R128, R471, R512). -/
def State.canIssue (s : State) (n : Nat) : Bool :=
  let c := s.cell n
  s.power.running && c.run == .issuing && c.switchedIn && (s.remapOf n).state != 3 && !s.remoteFence n && !s.resettingCell n &&
    !(s.epochOf (s.partOfCell n)).stopped

/-- The guarding predicate holds (R105). -/
def Arch.guard (a : Arch) (g : Guard) : Bool := a.preg g.pr.toNat != g.pn

/-- A fence that lets an instruction issue has done its work: later accesses are not held by it. -/
def State.endFence (s : State) (n : Nat) (memory : Bool) : State :=
  let c := s.cell n
  if c.fence == .remote || (memory && c.fence == .localOnly) then s.setCell n { c with fence := .none } else s

/-- Advance the program counter of cell `n`. -/
def State.advancePc (s : State) (n : Nat) : State :=
  let c := s.cell n
  s.setCell n { c with arch := c.arch.advance }

/-- Issue an instruction of cell `n`. `legal` is that the word is legal (R101); `memory` that it accesses memory
(R128, R410). The image end is checked first, then the word, then the predicate (log 17). -/
def issue (n : Nat) (g : Guard) (legal memory : Bool) (s : State) (body : State → Eff) :
    Host.Outcome State Fault Refusal :=
  whenLive s <|
    if !s.canIssue n || (memory && s.memHeld n) then .refused .cellNotIssuing
    else
    let s := s.endFence n memory
    if (s.cell n).imageLen ≤ (s.cell n).arch.pc.toNat then .next (s.programFault n 2)
    else if !legal then .next (s.programFault n 1)
    else if !(s.cell n).arch.guard g then .next (s.advancePc n)
    else
      match body s with
      | .done t => .next t
      | .fault k => .next (s.programFault n k)

/-- The result of an instruction that reads and writes only the architected state. -/
inductive ArchEff where
  | ok (a : Arch)
  | fault (cause : Nat)

/-- Issue an instruction that reads and writes only the architected state of its cell, and goes on to the next
word. -/
def issueArch (n : Nat) (g : Guard) (legal : Bool) (s : State) (f : Arch → ArchEff) :
    Host.Outcome State Fault Refusal :=
  issue n g legal false s fun s =>
    let c := s.cell n
    match f c.arch with
    | .ok a => .done (s.setCell n { c with arch := a.advance })
    | .fault k => .fault k

/-! ### Unused and restricted fields (R99-R101) -/

/-- Which fields of a register word an instruction uses. -/
structure UseF0 where
  rd : Bool := false
  ra : Bool := false
  rb : Bool := false
  rc : Bool := false
  ty : Bool := false
  rm : Bool := false
  deriving DecidableEq, Repr

/-- A register word has no nonzero unused field, and no rounding field with a forbidden value (R100, R101). An
instruction that rounds uses rm and ri. -/
def legalF0 (u : UseF0) (f : F0) (xopOk : Bool) : Bool :=
  (u.rd || f.rd == 0) && (u.ra || f.ra == 0) && (u.rb || f.rb == 0) && (u.rc || f.rc == 0) && (u.ty || f.ty == 0) &&
    (u.rm || (f.rm == 0 && f.ri == 0)) && !(f.rm == 5 || f.rm == 6) && f.res == 0 && xopOk

/-- An immediate word has no nonzero unused field (R101). -/
def legalF1 (rd ra ty : Bool) (f : F1) : Bool :=
  (rd || f.rd == 0) && (ra || f.ra == 0) && (ty || f.ty == 0) && f.res == 0

/-- Bit 4 of a field that names an exact accumulator or a tile descriptor is 0 (R100). -/
def half (r : BitVec 5) : Bool := decide (r.toNat < 16)

/-- Bits [4:3] of a field that names a predicate are 0 (R100). -/
def predField (r : BitVec 5) : Bool := decide (r.toNat < 8)

/-- imm32 sign-extended to 64 bits (R100). -/
def immS (x : BitVec 32) : Word := x.signExtend 64

/-- The rounding mode that rm selects (R100, R152). -/
def Arch.mode (a : Arch) (rm : BitVec 3) : RMode := rmodeOf (if rm == 7 then a.rmode.toNat else rm.toNat)

/-- The stochastic draw of result `e` (R123, R155). -/
def Arch.draw (a : Arch) (ri : BitVec 5) (e : Nat) : Nat :=
  stochDraw a.seed (a.sreg ri.toNat + BitVec.ofNat 64 e)

end Sys2Proof.Machine
end

