-- ==== Sys2Proof/Machine/Scalar.lean ====
section
/-!
DEFINITION. The scalar instructions (R103, R104, R136-R138).
-/

namespace Sys2Proof.Machine

/-! ### Register to register -/

/-- A scalar result of two registers. -/
def scalarRR (n : Nat) (f : F0) (legal : Bool) (s : State) (op : Word → Word → Word) :
    Host.Outcome State Fault Refusal :=
  issueArch n f.g legal s fun a => .ok (a.setS f.rd.toNat (op (a.sreg f.ra.toNat) (a.sreg f.rb.toNat)))

/-- The word uses rd, ra and rb and nothing else (R101). -/
def legalRR (f : F0) : Bool := legalF0 { rd := true, ra := true, rb := true } f (f.xop == 0)

/-- add: the low 64 bits of the sum (R103). -/
def execAdd (c : Nat) (f : F0) (s : State) : Host.Outcome State Fault Refusal :=
  scalarRR c f (legalRR f) s fun x y => x + y

/-- sub: the low 64 bits of the difference (R103). -/
def execSub (c : Nat) (f : F0) (s : State) : Host.Outcome State Fault Refusal :=
  scalarRR c f (legalRR f) s fun x y => x - y

/-- mul: the low 64 bits of the product (R103). -/
def execMul (c : Nat) (f : F0) (s : State) : Host.Outcome State Fault Refusal :=
  scalarRR c f (legalRR f) s fun x y => x * y

/-- mulh: the high 64 bits of the signed product (R103). -/
def execMulh (c : Nat) (f : F0) (s : State) : Host.Outcome State Fault Refusal :=
  scalarRR c f (legalRR f) s fun x y => BitVec.ofInt 64 (x.toInt * y.toInt / 2 ^ 64)

/-- mulhu: the high 64 bits of the unsigned product (R103). -/
def execMulhu (c : Nat) (f : F0) (s : State) : Host.Outcome State Fault Refusal :=
  scalarRR c f (legalRR f) s fun x y => BitVec.ofNat 64 (x.toNat * y.toNat / 2 ^ 64)

/-- A division: by zero, `byZero` of the dividend and `xstat.dz` (R138). -/
def scalarDiv (n : Nat) (f : F0) (s : State) (byZero : Word → Word) (op : Word → Word → Word) :
    Host.Outcome State Fault Refusal :=
  issueArch n f.g (legalRR f) s fun a =>
    let x := a.sreg f.ra.toNat
    let y := a.sreg f.rb.toNat
    if y = 0 then .ok ((a.setS f.rd.toNat (byZero x)).flags fDz) else .ok (a.setS f.rd.toNat (op x y))

/-- div: the signed quotient rounded towards zero; -2^63 by -1 gives -2^63 (R103, R138). -/
def execDiv (c : Nat) (f : F0) (s : State) : Host.Outcome State Fault Refusal :=
  scalarDiv c f s (fun _ => BitVec.allOnes 64) fun x y => BitVec.ofInt 64 (x.toInt.tdiv y.toInt)

/-- divu: the unsigned quotient (R103, R138). -/
def execDivu (c : Nat) (f : F0) (s : State) : Host.Outcome State Fault Refusal :=
  scalarDiv c f s (fun _ => BitVec.allOnes 64) fun x y => BitVec.ofNat 64 (x.toNat / y.toNat)

/-- rem: the signed remainder with the sign of the dividend; -2^63 by -1 gives 0 (R103, R138). -/
def execRem (c : Nat) (f : F0) (s : State) : Host.Outcome State Fault Refusal :=
  scalarDiv c f s id fun x y => BitVec.ofInt 64 (x.toInt.tmod y.toInt)

/-- remu: the unsigned remainder (R103, R138). -/
def execRemu (c : Nat) (f : F0) (s : State) : Host.Outcome State Fault Refusal :=
  scalarDiv c f s id fun x y => BitVec.ofNat 64 (x.toNat % y.toNat)

/-- and (R103). -/
def execAnd (c : Nat) (f : F0) (s : State) : Host.Outcome State Fault Refusal :=
  scalarRR c f (legalRR f) s fun x y => x &&& y

/-- or (R103). -/
def execOr (c : Nat) (f : F0) (s : State) : Host.Outcome State Fault Refusal :=
  scalarRR c f (legalRR f) s fun x y => x ||| y

/-- xor (R103). -/
def execXor (c : Nat) (f : F0) (s : State) : Host.Outcome State Fault Refusal :=
  scalarRR c f (legalRR f) s fun x y => x ^^^ y

/-- shl: left by rb mod 64 (R103). -/
def execShl (c : Nat) (f : F0) (s : State) : Host.Outcome State Fault Refusal :=
  scalarRR c f (legalRR f) s fun x y => x <<< (y.toNat % 64)

/-- shr: logically right by rb mod 64 (R103). -/
def execShr (c : Nat) (f : F0) (s : State) : Host.Outcome State Fault Refusal :=
  scalarRR c f (legalRR f) s fun x y => x >>> (y.toNat % 64)

/-- sra: arithmetically right by rb mod 64 (R103). -/
def execSra (c : Nat) (f : F0) (s : State) : Host.Outcome State Fault Refusal :=
  scalarRR c f (legalRR f) s fun x y => x.sshiftRight (y.toNat % 64)

/-- min and max take xop 0 or 1 (R102). -/
def legalMinMax (f : F0) : Bool := legalF0 { rd := true, ra := true, rb := true } f (f.xop == 0 || f.xop == 1)

/-- `x` lies below `y`: signed, or unsigned under xop 1 (R103). -/
def scalarLt (unsigned : Bool) (x y : Word) : Bool := if unsigned then x.ult y else x.slt y

/-- min (R103). -/
def execMin (c : Nat) (f : F0) (s : State) : Host.Outcome State Fault Refusal :=
  scalarRR c f (legalMinMax f) s fun x y => if scalarLt (f.xop == 1) y x then y else x

/-- max (R103). -/
def execMax (c : Nat) (f : F0) (s : State) : Host.Outcome State Fault Refusal :=
  scalarRR c f (legalMinMax f) s fun x y => if scalarLt (f.xop == 1) x y then y else x

/-! ### Predicates -/

/-- cmp: the predicate rd takes the comparison under xop 0-5 (R100, R102, R103). -/
def execCmp (c : Nat) (f : F0) (s : State) : Host.Outcome State Fault Refusal :=
  issueArch c f.g
    (legalF0 { rd := true, ra := true, rb := true } f (decide (f.xop.toNat ≤ 5)) && predField f.rd) s fun a =>
    .ok (a.setP f.rd.toNat (intCmp 64 f.xop.toNat (a.sreg f.ra.toNat).toNat (a.sreg f.rb.toNat).toNat))

/-- The predicate logic of plog (R102, R103). -/
def plogOp (xop : Nat) (x y : Bool) : Bool :=
  match xop with
  | 0 => x && y
  | 1 => x || y
  | 2 => x != y
  | _ => !x

/-- plog: `not` uses ra only, so its rb must be zero (R101, R103). -/
def execPlog (c : Nat) (f : F0) (s : State) : Host.Outcome State Fault Refusal :=
  issueArch c f.g
    (legalF0 { rd := true, ra := true, rb := f.xop != 3 } f (decide (f.xop.toNat ≤ 3)) && predField f.rd &&
      predField f.ra && predField f.rb) s fun a =>
    .ok (a.setP f.rd.toNat (plogOp f.xop.toNat (a.preg f.ra.toNat) (a.preg f.rb.toNat)))

/-! ### Special registers (R136, R137) -/

/-- The special register of a code 0-3. -/
def Arch.csr (a : Arch) (code : Nat) : Word :=
  match code with
  | 0 => a.rmode.setWidth 64
  | 1 => a.seed
  | 2 => a.amode.setWidth 64
  | _ => a.xstat.setWidth 64

/-- csrr (R136). -/
def execCsrr (c : Nat) (f : F0) (s : State) : Host.Outcome State Fault Refusal :=
  issueArch c f.g (legalF0 { rd := true } f (decide (f.xop.toNat ≤ 3))) s fun a =>
    .ok (a.setS f.rd.toNat (a.csr f.xop.toNat))

/-- Write a special register: rmode 0-4, amode 0-2, and bits [6:0] of xstat; a wider value faults with cause 5
(R136, R137). -/
def Arch.setCsr (a : Arch) (code : Nat) (x : Word) : ArchEff :=
  match code with
  | 0 => if 4 < x.toNat then .fault 5 else .ok { a with rmode := x.setWidth 3 }
  | 1 => .ok { a with seed := x }
  | 2 => if 2 < x.toNat then .fault 5 else .ok { a with amode := x.setWidth 2 }
  | _ => .ok { a with xstat := BitVec.ofNat 32 (setBits a.xstat.toNat 0 7 x.toNat) }

/-- csrw (R136, R137). -/
def execCsrw (c : Nat) (f : F0) (s : State) : Host.Outcome State Fault Refusal :=
  issueArch c f.g (legalF0 { ra := true } f (decide (f.xop.toNat ≤ 3))) s fun a =>
    a.setCsr f.xop.toNat (a.sreg f.ra.toNat)

/-- The identity register of a code 0-6 (R46, R136). -/
def Ident.get (i : Ident) (code : Nat) : Word :=
  match code with
  | 0 => i.cellid.setWidth 64
  | 1 => i.combid.setWidth 64
  | 2 => i.rank.setWidth 64
  | 3 => i.ncells.setWidth 64
  | 4 => i.part.setWidth 64
  | 5 => i.arev.setWidth 64
  | _ => i.cmdtag.setWidth 64

/-- rdid (R136). -/
def execRdid (c : Nat) (f : F0) (s : State) : Host.Outcome State Fault Refusal :=
  issueArch c f.g (legalF0 { rd := true } f (decide (f.xop.toNat ≤ 6))) s fun a =>
    .ok (a.setS f.rd.toNat ((s.cell c).ident.get f.xop.toNat))

/-! ### Immediates -/

/-- addi (R103). -/
def execAddi (c : Nat) (f : F1) (s : State) : Host.Outcome State Fault Refusal :=
  issueArch c f.g (legalF1 true true false f) s fun a => .ok (a.setS f.rd.toNat (a.sreg f.ra.toNat + immS f.imm))

/-- li (R103). -/
def execLi (c : Nat) (f : F1) (s : State) : Host.Outcome State Fault Refusal :=
  issueArch c f.g (legalF1 true false false f) s fun a => .ok (a.setS f.rd.toNat (immS f.imm))

/-- lui: imm32 × 2^32 OR the low 32 bits of ra (R103). -/
def execLui (c : Nat) (f : F1) (s : State) : Host.Outcome State Fault Refusal :=
  issueArch c f.g (legalF1 true true false f) s fun a =>
    .ok (a.setS f.rd.toNat ((immS f.imm <<< 32) ||| (a.sreg f.ra.toNat &&& 0xFFFFFFFF)))

/-- cmpi: type holds the comparison code 0-5 (R103). -/
def execCmpi (c : Nat) (f : F1) (s : State) : Host.Outcome State Fault Refusal :=
  issueArch c f.g (legalF1 true true true f && decide (f.ty.toNat ≤ 5) && predField f.rd) s fun a =>
    .ok (a.setP f.rd.toNat (intCmp 64 f.ty.toNat (a.sreg f.ra.toNat).toNat (immS f.imm).toNat))

/-- andi (R103). -/
def execAndi (c : Nat) (f : F1) (s : State) : Host.Outcome State Fault Refusal :=
  issueArch c f.g (legalF1 true true false f) s fun a => .ok (a.setS f.rd.toNat (a.sreg f.ra.toNat &&& immS f.imm))

/-! ### Own cell memory (R104) -/

/-- The local address of a cell-memory address of an instruction: bits [63:60] select the local space (R188). -/
def Arch.address (a : Arch) (f : F1) : Nat := (a.sreg f.ra.toNat + immS f.imm).toNat

/-- The cause of the first check of R104 that an access of cell `n` fails, or none: alignment, its first byte, its
last byte. -/
def ownCheck (n align addr len : Nat) : Option Nat :=
  if addr % align ≠ 0 then some 3
  else if addr < cellMem n ∨ cellMem n + cellBytes ≤ addr then some 7
  else if cellMem n + cellBytes < addr + len then some 6
  else none

/-- A tile move in flight still has to write bytes that an access of its cell overlaps (R47, R119). -/
def State.moveOverlaps (s : State) (n addr len : Nat) : Bool := len != 0 && s.owes (Engine.cell n).key addr len

/-- The word at the pc of cell `n` is the one that executes when the cell issues: it lies in the image, is legal, and its
predicate holds (R101, R105, R135). -/
def State.executes (s : State) (n : Nat) (g : Guard) (legal : Bool) : Bool :=
  s.canIssue n && decide ((s.cell n).arch.pc.toNat < (s.cell n).imageLen) && legal && (s.cell n).arch.guard g

/-- Issue an instruction that accesses ranges of memory (address and length): it is not issued while a move in flight
still has to write into one of them (R119). -/
def issueTouch (n : Nat) (g : Guard) (legal : Bool) (ranges : List (Nat × Nat)) (s : State) (body : State → Eff) :
    Host.Outcome State Fault Refusal :=
  if s.executes n g legal && ranges.any (fun r => s.moveOverlaps n r.1 r.2) then .refused .cellNotIssuing
  else issue n g legal true s body

/-- Issue an access of the own cell memory by an immediate word: the checks of R104, then the effect. -/
def issueOwn (n : Nat) (f : F1) (legal : Bool) (align len : Nat) (s : State) (body : Nat → State → Eff) :
    Host.Outcome State Fault Refusal :=
  let addr := (s.cell n).arch.address f
  issueTouch n f.g legal [(addr, len)] s fun s =>
    match ownCheck n align addr len with
    | some k => .fault k
    | none => body addr s

/-- Issue a store to the own cell memory: it is held while a granule that it writes is frozen and finds no staging buffer (R517). -/
def issueStore (n : Nat) (f : F1) (legal : Bool) (align len : Nat) (s : State) (body : Nat → State → Eff) :
    Host.Outcome State Fault Refusal :=
  let addr := (s.cell n).arch.address f
  if s.executes n f.g legal && (ownCheck n align addr len).isNone && !s.stageOk addr len then .refused .cellNotIssuing
  else issueOwn n f legal align len s body

/-- The bytes of a scalar load or store by type (R103). -/
def scalarBytes (ty : BitVec 4) : Nat := 2 ^ ty.toNat

/-- ld: 1, 2, 4 or 8 bytes, zero-extended (R103, R104). -/
def runLd (c : Nat) (f : F1) (s : State) : Host.Outcome State Fault Refusal :=
  issueOwn c f (legalF1 true true true f && decide (f.ty.toNat ≤ 3)) (scalarBytes f.ty) (scalarBytes f.ty) s
    fun addr s =>
      let k := s.cell c
      let x := BitVec.ofNat 64 (leNat (s.memBytes addr (scalarBytes f.ty)))
      .done (s.setCell c { k with arch := (k.arch.setS f.rd.toNat x).advance })

/-- st: the low 1, 2, 4 or 8 bytes of rd (R103, R104). -/
def runSt (c : Nat) (f : F1) (s : State) : Host.Outcome State Fault Refusal :=
  issueStore c f (legalF1 true true true f && decide (f.ty.toNat ≤ 3)) (scalarBytes f.ty) (scalarBytes f.ty) s
    fun addr s =>
      let x := ((s.cell c).arch.sreg f.rd.toNat).toNat
      .done ((s.writeLocal addr (leBytes (scalarBytes f.ty) x)).advancePc c)

end Sys2Proof.Machine
end

