-- ==== Sys2Proof/Machine/Vector.lean ====
section
/-!
DEFINITION. The vector instructions (R58, R59, R103, R147-R161, R687).
-/

namespace Sys2Proof.Machine

/-! ### Types (R687) -/

/-- Types 0-3 and 6-9: those with arithmetic. -/
def arithType (ty : Nat) : Bool := decide (ty ≤ 3) || (decide (6 ≤ ty) && decide (ty ≤ 9))

/-- Types 0-9: those with lanes. -/
def laneType (ty : Nat) : Bool := decide (ty ≤ 9)

/-- A vector result that also sets flags. -/
def vecResult (a : Arch) (rd : BitVec 5) (r : Nat × Nat) : ArchEff :=
  .ok ((a.setV rd.toNat (BitVec.ofNat 2048 r.1)).flags r.2)

/-- Issue a vector instruction: a type that it does not accept faults with cause 4 (R687). -/
def issueVec (n : Nat) (f : F0) (legal accepted : Bool) (s : State) (k : Arch → ArchEff) :
    Host.Outcome State Fault Refusal :=
  issueArch n f.g legal s fun a => if accepted then k a else .fault 4

/-- Lane `l` of vector register `r` under type `ty`. -/
def Arch.vlane (a : Arch) (ty : Nat) (r : BitVec 5) (l : Nat) : Nat :=
  lane (codeWidth ty) (a.vreg r.toNat).toNat l

/-- A lane-wise instruction: each lane's value and flags. -/
def laneWise (a : Arch) (f : F0) (op : Nat → Nat × Nat) : ArchEff :=
  vecResult a f.rd (mapLanes (codeWidth f.ty.toNat) (laneCount f.ty.toNat) op)

/-! ### Arithmetic (R103, R159) -/

/-- Lane arithmetic on three values: exact on the values of a floating-point type and rounded once, modulo 2^w on
integers. -/
def laneArith (a : Arch) (f : F0) (opF : RMode → Fp → Fp → Fp → Fp × Nat) (opI : Int → Int → Int → Int) (l : Nat) :
    Nat × Nat :=
  let ty := f.ty.toNat
  let x := a.vlane ty f.ra l
  let y := a.vlane ty f.rb l
  let z := a.vlane ty f.rc l
  match elemOf ty with
  | .fp ff =>
    let mode := a.mode f.rm
    let (v, fl) := opF mode (ff.decode x) (ff.decode y) (ff.decode z)
    let (b, g) := ff.round mode (a.draw f.ri l) v
    (b, orf fl g)
  | _ => (wrap (codeWidth ty) (opI (toSigned (codeWidth ty) x) (toSigned (codeWidth ty) y)
      (toSigned (codeWidth ty) z)), 0)

/-- A two-operand arithmetic word (R101). -/
def legalV2 (f : F0) : Bool := legalF0 { rd := true, ra := true, rb := true, ty := true, rm := true } f (f.xop == 0)

/-- A three-operand arithmetic word (R101). -/
def legalV3 (f : F0) : Bool :=
  legalF0 { rd := true, ra := true, rb := true, rc := true, ty := true, rm := true } f (f.xop == 0)

/-- vadd (R103). -/
def execVadd (c : Nat) (f : F0) (s : State) : Host.Outcome State Fault Refusal :=
  issueVec c f (legalV2 f) (arithType f.ty.toNat) s fun a =>
    laneWise a f (laneArith a f (fun m x y _ => Fp.sum (m == .rd) [x, y]) fun x y _ => x + y)

/-- vsub (R103). -/
def execVsub (c : Nat) (f : F0) (s : State) : Host.Outcome State Fault Refusal :=
  issueVec c f (legalV2 f) (arithType f.ty.toNat) s fun a =>
    laneWise a f (laneArith a f (fun m x y _ => Fp.sum (m == .rd) [x, y.negate]) fun x y _ => x - y)

/-- vmul (R103). -/
def execVmul (c : Nat) (f : F0) (s : State) : Host.Outcome State Fault Refusal :=
  issueVec c f (legalV2 f) (arithType f.ty.toNat) s fun a =>
    laneWise a f (laneArith a f (fun _ x y _ => Fp.mul x y) fun x y _ => x * y)

/-- A fused multiply and add, rounded once: the flags of the product and of the sum. -/
def fusedSum (m : RMode) (x y z : Fp) : Fp × Nat :=
  let (p, g) := Fp.mul x y
  let (v, h) := Fp.sum (m == .rd) [p, z]
  (v, orf g h)

/-- vfma: ra × rb + rc, rounded once (R103, R159). -/
def execVfma (c : Nat) (f : F0) (s : State) : Host.Outcome State Fault Refusal :=
  issueVec c f (legalV3 f) (arithType f.ty.toNat) s fun a =>
    laneWise a f (laneArith a f (fun m x y z => fusedSum m x y z) fun x y z => x * y + z)

/-- vfms: ra × rb - rc, rounded once (R103, R159). -/
def execVfms (c : Nat) (f : F0) (s : State) : Host.Outcome State Fault Refusal :=
  issueVec c f (legalV3 f) (arithType f.ty.toNat) s fun a =>
    laneWise a f (laneArith a f (fun m x y z => fusedSum m x y z.negate) fun x y z => x * y - z)

/-! ### Minimum, maximum, sign (R103, R160) -/

/-- The word of vmin or vmax: xop 1 for integer types only (R687). -/
def legalVmm (f : F0) : Bool :=
  legalF0 { rd := true, ra := true, rb := true, ty := true } f
    (f.xop == 0 || (f.xop == 1 && (isInt f.ty.toNat || !arithType f.ty.toNat)))

/-- One lane of vmin or vmax. -/
def laneMinMax (a : Arch) (f : F0) (isMax : Bool) (l : Nat) : Nat × Nat :=
  let ty := f.ty.toNat
  let x := a.vlane ty f.ra l
  let y := a.vlane ty f.rb l
  match elemOf ty with
  | .fp ff => fpMinMax ff isMax x y
  | _ =>
    let w := codeWidth ty
    let less := intCmp w (if f.xop == 1 then 4 else 2) x y
    (if less != isMax then x else y, 0)

/-- vmin (R103, R160). -/
def execVmin (c : Nat) (f : F0) (s : State) : Host.Outcome State Fault Refusal :=
  issueVec c f (legalVmm f) (arithType f.ty.toNat) s fun a => laneWise a f (laneMinMax a f false)

/-- vmax (R103, R160). -/
def execVmax (c : Nat) (f : F0) (s : State) : Host.Outcome State Fault Refusal :=
  issueVec c f (legalVmm f) (arithType f.ty.toNat) s fun a => laneWise a f (laneMinMax a f true)

/-- One lane of vun: abs or neg. A floating-point lane changes only its sign, and a NaN gives the default NaN. -/
def laneUn (a : Arch) (f : F0) (l : Nat) : Nat × Nat :=
  let ty := f.ty.toNat
  let w := codeWidth ty
  let x := a.vlane ty f.ra l
  match elemOf ty with
  | .fp ff =>
    let v := ff.decode x
    if v.isNan then (ff.nan, flagIf v.snan fNv)
    else if f.xop == 0 then (x % 2 ^ (w - 1), 0) else (x ^^^ 2 ^ (w - 1), 0)
  | _ =>
    let v := toSigned w x
    (wrap w (if f.xop == 0 then Int.ofNat v.natAbs else -v), 0)

/-- vun: xop 0 abs, 1 neg (R103). -/
def execVun (c : Nat) (f : F0) (s : State) : Host.Outcome State Fault Refusal :=
  issueVec c f (legalF0 { rd := true, ra := true, ty := true } f (f.xop == 0 || f.xop == 1)) (arithType f.ty.toNat) s
    fun a => laneWise a f (laneUn a f)

/-! ### Bits and shifts -/

/-- A bitwise word: any type, which is ignored (R687). -/
def legalVbit (f : F0) : Bool := legalF0 { rd := true, ra := true, rb := true, ty := true } f (f.xop == 0)

/-- A bitwise result over all 2,048 bits. -/
def vecBits (n : Nat) (f : F0) (s : State) (op : BitVec 2048 → BitVec 2048 → BitVec 2048) :
    Host.Outcome State Fault Refusal :=
  issueVec n f (legalVbit f) true s fun a =>
    .ok (a.setV f.rd.toNat (op (a.vreg f.ra.toNat) (a.vreg f.rb.toNat)))

/-- vand (R103). -/
def execVand (c : Nat) (f : F0) (s : State) : Host.Outcome State Fault Refusal := vecBits c f s fun x y => x &&& y

/-- vor (R103). -/
def execVor (c : Nat) (f : F0) (s : State) : Host.Outcome State Fault Refusal := vecBits c f s fun x y => x ||| y

/-- vxor (R103). -/
def execVxor (c : Nat) (f : F0) (s : State) : Host.Outcome State Fault Refusal := vecBits c f s fun x y => x ^^^ y

/-- One lane of vsh: shl, shr or sra by lane `l` of rb mod the lane width. -/
def laneShift (a : Arch) (f : F0) (l : Nat) : Nat × Nat :=
  let ty := f.ty.toNat
  let w := codeWidth ty
  let x := a.vlane ty f.ra l
  let k := a.vlane ty f.rb l % w
  (match f.xop.toNat with
    | 0 => x * 2 ^ k % 2 ^ w
    | 1 => x / 2 ^ k
    | _ => wrap w (toSigned w x / 2 ^ k), 0)

/-- vsh: floating-point types shift as the bit pattern of their width (R103, R687). -/
def execVsh (c : Nat) (f : F0) (s : State) : Host.Outcome State Fault Refusal :=
  issueVec c f (legalF0 { rd := true, ra := true, rb := true, ty := true } f (decide (f.xop.toNat ≤ 2)))
    (laneType f.ty.toNat) s fun a => laneWise a f (laneShift a f)

/-! ### Compare, select, permute -/

/-- The comparison codes of vcmp for a type: 0-5 on integers, 0-3, 6 and 7 on floating-point types (R687). -/
def vcmpXop (ty xop : Nat) : Bool :=
  if isInt ty then decide (xop ≤ 5)
  else if arithType ty then decide (xop ≤ 3) || xop == 6 || xop == 7
  else decide (xop ≤ 7)

/-- One lane of vcmp: all ones where the comparison holds. -/
def laneCmp (a : Arch) (f : F0) (l : Nat) : Nat × Nat :=
  let ty := f.ty.toNat
  let w := codeWidth ty
  let x := a.vlane ty f.ra l
  let y := a.vlane ty f.rb l
  let r := match elemOf ty with
    | .fp ff => fpCmp f.xop.toNat (ff.decode x) (ff.decode y)
    | _ => (intCmp w f.xop.toNat x y, 0)
  (if r.1 then 2 ^ w - 1 else 0, r.2)

/-- vcmp (R103, R160). -/
def execVcmp (c : Nat) (f : F0) (s : State) : Host.Outcome State Fault Refusal :=
  issueVec c f
    (legalF0 { rd := true, ra := true, rb := true, ty := true } f (vcmpXop f.ty.toNat f.xop.toNat))
    (arithType f.ty.toNat) s fun a => laneWise a f (laneCmp a f)

/-- vsel: lane of ra where the lane of rc is nonzero, else of rb (R103). -/
def execVsel (c : Nat) (f : F0) (s : State) : Host.Outcome State Fault Refusal :=
  issueVec c f (legalF0 { rd := true, ra := true, rb := true, rc := true, ty := true } f (f.xop == 0))
    (laneType f.ty.toNat) s fun a =>
      laneWise a f fun l =>
        (if a.vlane f.ty.toNat f.rc l != 0 then a.vlane f.ty.toNat f.ra l else a.vlane f.ty.toNat f.rb l, 0)

/-- vperm: lane `k` of ra, with `k` lane `l` of rb mod the lane count (R103). -/
def execVperm (c : Nat) (f : F0) (s : State) : Host.Outcome State Fault Refusal :=
  issueVec c f (legalVbit f) (laneType f.ty.toNat) s fun a =>
    laneWise a f fun l => (a.vlane f.ty.toNat f.ra (a.vlane f.ty.toNat f.rb l % laneCount f.ty.toNat), 0)

/-- One lane of vslide: lane `l` less the signed value of scalar rb, zero outside the register. -/
def laneSlide (a : Arch) (f : F0) (l : Nat) : Nat × Nat :=
  let j := Int.ofNat l - (a.sreg f.rb.toNat).toInt
  (if decide (0 ≤ j) && decide (j < Int.ofNat (laneCount f.ty.toNat)) then a.vlane f.ty.toNat f.ra j.toNat else 0, 0)

/-- vslide (R103). -/
def execVslide (c : Nat) (f : F0) (s : State) : Host.Outcome State Fault Refusal :=
  issueVec c f (legalVbit f) (laneType f.ty.toNat) s fun a => laneWise a f (laneSlide a f)

/-! ### Conversion (R103, R150, R151, R153) -/

/-- Convert one element (R103): integers saturate when narrowed, and set `sat`. -/
def cvtElem (src dst : Elem) (mode : RMode) (r x : Nat) : Nat × Nat :=
  match src, dst with
  | .int v, .int w =>
    if w < v then
      let (y, out) := saturate w (toSigned v x)
      (y, flagIf out fSat)
    else (wrap w (toSigned v x), 0)
  | e, .int w => roundToInt w mode r (e.decode x)
  | e, .fp f => f.round mode r (e.decode x)
  | e, .mxint8 => roundToInt 8 mode r (e.decode x)

/-- Convert between two types 0-9: the lanes common to both go over, the other destination lanes are zero. -/
def cvtPlain (a : Arch) (f : F0) (src : Nat) : Nat × Nat :=
  let dst := f.ty.toNat
  let m := 2048 / max (codeWidth src) (codeWidth dst)
  mapLanes (codeWidth dst) m fun l =>
    cvtElem (elemOf src) (elemOf dst) (a.mode f.rm) (a.draw f.ri l) (a.vlane src f.ra l)

/-- The largest exponent of an MX element format (R150). -/
def mxEmax : Nat → Int
  | 10 => 8 | 11 => 15 | 12 => 4 | 13 => 2 | 14 => 2 | _ => 0

/-- Round one finite lane divided by 2^E to an MX element (R150, R153). -/
def mxElem (code : Nat) (mode : RMode) (r : Nat) (e : Int) (v : Fp) : Nat × Nat :=
  match elemOf code, v.scale (-e) with
  | .fp f, .fin n m x =>
    if m = 0 then ((if n then 2 ^ (f.ew + f.mw) else 0), 0) else f.roundFin true mode r n m x
  | _, .fin n m x =>
    let (k, inex) := if m = 0 then (0, false) else roundAt mode r n m x (-6)
    let clamped := decide (127 < k)
    let k := min k 127
    (wrap 8 (if n then -(Int.ofNat k) else Int.ofNat k), if clamped then orf fOf fNx else flagIf inex fNx)
  | _, _ => (0, 0)

/-- The floor of log2 of a finite nonzero magnitude. -/
def fpLog2 (m : Nat) (e : Int) : Int := Int.ofNat (Nat.log2 m) + e

/-- The greatest exponent floor(log2) among finite nonzero lanes, if any lane is nonzero. -/
def maxLog2 (vs : List Fp) : Option Int :=
  vs.foldl (fun acc v =>
    match v with
    | .fin _ m e => if m = 0 then acc else some (match acc with | some x => max x (fpLog2 m e) | none => fpLog2 m e)
    | _ => acc) none

/-- Convert one block of 32 lanes (R150): the scale byte, the elements, and the flags. `draw i` is the draw of lane
`i` of the block. -/
def mxBlock (code : Nat) (mode : RMode) (draw : Nat → Nat) (vs : List Fp) : Nat × List Nat × Nat :=
  let sn := flagIf (vs.any Fp.snan) fNv
  let infs := vs.any (fun v => match v with | .inf _ => true | _ => false)
  if infs || vs.any Fp.isNan then (0xFF, vs.map fun _ => 0, orf sn (flagIf infs fOf))
  else
    match maxLog2 vs with
    | none => (0, vs.map fun _ => 0, 0)
    | some x =>
      let e := max (-127) (min 127 (x - mxEmax code))
      let rs := (vs.zip (List.range vs.length)).map fun p => mxElem code mode (draw p.2) e p.1
      ((e + 127).toNat, rs.map Prod.fst, rs.foldl (fun g p => orf g p.2) 0)

/-- vcvt to an MX format: packed elements from bit 0, scale bytes from byte 192 (R150, R151). -/
def cvtToMx (a : Arch) (f : F0) (src : Nat) : Nat × Nat :=
  let code := f.ty.toNat
  let blocks := laneCount src / 32
  let bs := (List.range blocks).map fun b =>
    mxBlock code (a.mode f.rm) (fun i => a.draw f.ri (32 * b + i))
      ((List.range 32).map fun i => (elemOf src).decode (a.vlane src f.ra (32 * b + i)))
  (ofLanes (codeWidth code) (bs.flatMap fun b => b.2.1) + ofLanes 8 (bs.map fun b => b.1) * 2 ^ 1536,
    bs.foldl (fun g b => orf g b.2.2) 0)

/-- The value of element `i` of an MX register (R147, R148, R151): NaN under a scale byte of 0xFF, signalling where the element's
own bits are (R145). -/
def mxValue (code x i : Nat) : Fp :=
  let scale := bits x (1536 + 8 * (i / 32)) 8
  let e := (elemOf code).decode (lane (codeWidth code) x i)
  if scale == 0xFF then .nan e.snan else e.scale (Int.ofNat scale - 127)

/-- vcvt from an MX format (R151). -/
def cvtFromMx (a : Arch) (f : F0) (src : Nat) : Nat × Nat :=
  let dst := f.ty.toNat
  mapLanes (codeWidth dst) (laneCount dst) fun l =>
    match elemOf dst with
    | .fp g => g.round (a.mode f.rm) (a.draw f.ri l) (mxValue src (a.vreg f.ra.toNat).toNat l)
    | _ => (0, 0)

/-- The pairs of types that vcvt accepts (R687). -/
def cvtAccepts (src dst : Nat) : Bool :=
  (laneType src && laneType dst) || (isMx dst && (src == 7 || src == 8)) || (isMx src && (dst == 7 || dst == 8))

/-- vcvt: xop[3:0] is the source type (R103, R687). -/
def execVcvt (c : Nat) (f : F0) (s : State) : Host.Outcome State Fault Refusal :=
  let src := f.xop.toNat
  issueVec c f (legalF0 { rd := true, ra := true, ty := true, rm := true } f (decide (src < 16)))
    (cvtAccepts src f.ty.toNat) s fun a =>
      vecResult a f.rd (if isMx f.ty.toNat then cvtToMx a f src else if isMx src then cvtFromMx a f src
        else cvtPlain a f src)

/-! ### Transcendental approximations (R161) -/

/-- The integer square root by bisection: the largest `k` below 2^b with `k * k ≤ x`. -/
def isqrt (x : Nat) : Nat → Nat → Nat
  | 0, k => k
  | b + 1, k => let j := k + 2 ^ b; isqrt x b (if j * j ≤ x then j else k)

/-- The flags of an FP32 magnitude that is not exact (R158). -/
def inexactFlags (r : Nat) : Nat := orf fNx (orf (flagIf (r == 0x7F800000) fOf) (flagIf (decide (r < 0x800000)) fUf))

/-- A result within `n` ulp of a magnitude that is never exact, with a sign. -/
def vtrNear (free n v : Nat) (neg : Bool) : Nat × Nat :=
  let r := nearUlp free n (v - 1) true
  ((if neg then 2 ^ 31 else 0) + r, inexactFlags r)

/-- The FP32 value and flags of `vtr` for an FP32 input (R158, R161): special inputs as IEEE 754-2019 clause 9.2
recommends, other results open within the bounds of R161 (log 8). -/
def vtr32 (arev fn x : Nat) : Nat × Nat :=
  let v := fp32.decode x
  let free := Config.vtrBits arev fn x
  let one := 0x3F800000
  let inf := 0x7F800000
  let sgn := 2 ^ 31
  match fn, v with
  | _, .nan sg => (fp32.nan, flagIf sg fNv)
  | 0, .inf n => (if n then 0 else inf, 0)
  | 0, .fin n m e =>
    if m = 0 then (one, 0)
    else if 128 * 2 ^ 512 ≤ fxOf m e then (if n then vtrNear free 2 1 false else (inf, orf fOf fNx))
    else vtrNear free 2 (fxExp (if n then -Int.ofNat (fxOf m e) else Int.ofNat (fxOf m e))).toNat false
  | 1, .inf n => if n then (fp32.nan, fNv) else (inf, 0)
  | 1, .fin n m e =>
    if m = 0 then (sgn + inf, fDz)
    else if n then (fp32.nan, fNv)
    else if x = one then (0, 0)
    else
      let y := fxLog m e
      vtrNear free 2 y.natAbs (decide (y < 0))
  | 2, .inf n => (if n then sgn else 0, 0)
  | 2, .fin n m e =>
    if m = 0 then ((if n then sgn else 0) + inf, fDz)
    else
      -- 2 ^ -e / m, with the rest
      let num := 2 ^ (512 - e).toNat
      let exact := decide (num % m = 0)
      let r := nearUlp free 1 (num / m) (!exact)
      ((if n then sgn else 0) + r, if exact && r != inf && fxPattern r == num / m then 0 else inexactFlags r)
  | 3, .inf n => if n then (fp32.nan, fNv) else (0, 0)
  | 3, .fin n m e =>
    if m = 0 then ((if n then sgn else 0) + inf, fDz)
    else if n then (fp32.nan, fNv)
    else
      -- the root of 2 ^ (1024 - e) / m
      let num := 2 ^ (1024 - e).toNat
      let k := isqrt (num / m) 620 0
      let exact := decide (k * k * m = num)
      let r := nearUlp free 1 k (!exact)
      (r, if exact && fxPattern r == k then 0 else inexactFlags r)
  | _, .inf _ => (fp32.nan, fNv)
  | k, .fin n m e =>
    if m = 0 then (if k = 4 then (if n then sgn else 0) else one, 0)
    else if fxOf m e ≤ 32768 * 2 ^ 512 then
      let y := fxSin (if k = 4 then 0 else 1) (if n then -Int.ofNat (fxOf m e) else Int.ofNat (fxOf m e))
      vtrNear free 2 y.natAbs (decide (y < 0))
    else
      let r := free % (one + 1)
      ((if bit free 40 then sgn else 0) + r, inexactFlags r)

/-- One lane of vtr: a BF16 result is the FP32 result rounded once (R161). -/
def laneTr (a : Arch) (arev : Nat) (f : F0) (l : Nat) : Nat × Nat :=
  let x := a.vlane f.ty.toNat f.ra l
  if f.ty.toNat = 8 then vtr32 arev f.xop.toNat x
  else
    let (r, g) := vtr32 arev f.xop.toNat (x * 2 ^ 16)
    let (b, h) := bf16.round .rne 0 (fp32.decode r)
    (b, orf g h)

/-- vtr: rm must be 0 (R103, R161). -/
def execVtr (c : Nat) (f : F0) (s : State) : Host.Outcome State Fault Refusal :=
  issueVec c f (legalF0 { rd := true, ra := true, ty := true } f (decide (f.xop.toNat ≤ 5)))
    (f.ty.toNat == 7 || f.ty.toNat == 8) s fun a => laneWise a f (laneTr a s.arev f)

/-! ### Broadcast, insert, extract -/

/-- vbcast: every lane takes the low bits of scalar ra (R103). -/
def execVbcast (c : Nat) (f : F0) (s : State) : Host.Outcome State Fault Refusal :=
  issueVec c f (legalF0 { rd := true, ra := true, ty := true } f (f.xop == 0)) (laneType f.ty.toNat) s fun a =>
    laneWise a f fun _ => ((a.sreg f.ra.toNat).toNat % 2 ^ codeWidth f.ty.toNat, 0)

/-- vins: one lane takes the low bits of scalar ra (R103). -/
def execVins (c : Nat) (f : F0) (s : State) : Host.Outcome State Fault Refusal :=
  issueVec c f (legalF0 { rd := true, ra := true, rb := true, ty := true } f (f.xop == 0)) (laneType f.ty.toNat) s
    fun a =>
      let k := (a.sreg f.rb.toNat).toNat % laneCount f.ty.toNat
      laneWise a f fun l =>
        (if l = k then (a.sreg f.ra.toNat).toNat % 2 ^ codeWidth f.ty.toNat else a.vlane f.ty.toNat f.rd l, 0)

/-- vext: scalar rd takes one lane of vector ra, zero-extended (R103). -/
def execVext (c : Nat) (f : F0) (s : State) : Host.Outcome State Fault Refusal :=
  issueVec c f (legalF0 { rd := true, ra := true, rb := true, ty := true } f (f.xop == 0)) (laneType f.ty.toNat) s
    fun a =>
      .ok (a.setS f.rd.toNat (BitVec.ofNat 64
        (a.vlane f.ty.toNat f.ra ((a.sreg f.rb.toNat).toNat % laneCount f.ty.toNat))))

/-! ### Loads and stores (R103, R104) -/

/-- vld: 256 bytes, 8-byte aligned (R103, R104). -/
def runVld (c : Nat) (f : F1) (s : State) : Host.Outcome State Fault Refusal :=
  issueOwn c f (legalF1 true true false f) 8 256 s fun addr s =>
    let k := s.cell c
    .done (s.setCell c { k with
      arch := (k.arch.setV f.rd.toNat (BitVec.ofNat 2048 (leNat (s.memBytes addr 256)))).advance })

/-- vst: 256 bytes, 8-byte aligned (R103, R104). -/
def execVst (c : Nat) (f : F1) (s : State) : Host.Outcome State Fault Refusal :=
  issueStore c f (legalF1 true true false f) 8 256 s fun addr s =>
    .done ((s.writeLocal addr (leBytes 256 ((s.cell c).arch.vreg f.rd.toNat).toNat)).advancePc c)

end Sys2Proof.Machine
end

