-- ==== Sys2Proof/Machine/ExactAcc.lean ====
section
/-!
DEFINITION. The exact-accumulate instructions (R60, R120-R122, R166-R182).
-/

namespace Sys2Proof.Machine

/-- The kind of accumulator that a type adds into (R121): 1 `EXACT`, 2 `BINNED64`, 0 for a type not accepted. -/
def eaKind (ty : Nat) : Nat := if ty = 9 then 2 else if 4 ≤ ty ∧ ty ≤ 8 then 1 else 0

/-- The flag of a range exceeded by an operation (R158, R172, R178). -/
def eovfFlag (before after : Accu) : Nat := flagIf (after.ovf && !before.ovf) fEovf

/-- Write accumulator `rd` of cell `n`, set flags, count the values added (R640), and go on. -/
def eaDone (s : State) (n : Nat) (rd : BitVec 5) (x : Nat) (flags values : Nat) : Eff :=
  let c := s.cell n
  let a := (c.arch.setE rd.toNat (BitVec.ofNat 640 x)).flags flags
  .done ((s.setCell n { c with arch := a.advance }).bumpComb (n / 8) 8 values)

/-- ea.clr (R120). -/
def execEaClr (c : Nat) (f : F0) (s : State) : Host.Outcome State Fault Refusal :=
  issueArch c f.g (legalF0 { rd := true } f (f.xop == 0) && half f.rd) s fun a => .ok (a.setE f.rd.toNat 0)

/-- Add a list of lanes into accumulator rd (R120, R121, R171, R175). -/
def eaAddLanes (s : State) (n : Nat) (f : F0) (lanes : List Nat) : Eff :=
  let a := (s.cell n).arch
  let k := eaKind f.ty.toNat
  let acc := accuOpen (a.ereg f.rd.toNat).toNat
  if k = 0 || kindsClash acc.kind k then .fault 4
  else
    let vs := lanes.map fun l => (elemOf f.ty.toNat).decode (a.vlane f.ty.toNat f.ra l)
    let out := vs.foldl (Accu.add k) acc
    eaDone s n f.rd (accuImage out) (orf (flagIf (vs.any Fp.snan) fNv) (eovfFlag acc out)) lanes.length

/-- ea.add: every lane of ra (R120). -/
def runEaAdd (c : Nat) (f : F0) (s : State) : Host.Outcome State Fault Refusal :=
  issue c f.g (legalF0 { rd := true, ra := true, ty := true } f (f.xop == 0) && half f.rd) false s fun s =>
    eaAddLanes s c f (List.range (laneCount f.ty.toNat))

/-- ea.addm: the lanes of ra where the lane of rb is nonzero (R120). -/
def runEaAddm (c : Nat) (f : F0) (s : State) : Host.Outcome State Fault Refusal :=
  issue c f.g (legalF0 { rd := true, ra := true, rb := true, ty := true } f (f.xop == 0) && half f.rd) false s
    fun s => eaAddLanes s c f
      ((List.range (laneCount f.ty.toNat)).filter fun l => (s.cell c).arch.vlane f.ty.toNat f.rb l != 0)

/-- Merge an image or accumulator into accumulator rd (R120, R121). -/
def eaMergeInto (s : State) (n : Nat) (rd : BitVec 5) (img : Nat) : Eff :=
  let acc := accuOpen ((s.cell n).arch.ereg rd.toNat).toNat
  let o := accuOpen img
  if kindsClash acc.kind o.kind then .fault 4
  else
    let out := acc.merge o
    eaDone s n rd (accuImage out) (flagIf (out.ovf && !acc.ovf && !o.ovf) fEovf) 1

/-- ea.merge (R120). -/
def runEaMerge (c : Nat) (f : F0) (s : State) : Host.Outcome State Fault Refusal :=
  issue c f.g (legalF0 { rd := true, ra := true } f (f.xop == 0) && half f.rd && half f.ra) false s fun s =>
    eaMergeInto s c f.rd ((s.cell c).arch.ereg f.ra.toNat).toNat

/-- The destination of ea.rd for a type, if the accumulator's kind allows it (R122). -/
def eaRdFmt (kind ty : Nat) : Option FpFmt :=
  if ty = 9 then some fp64
  else if kind = 2 then none
  else if ty = 8 then some fp32 else if ty = 7 then some bf16 else if ty = 6 then some fp16 else none

/-- ea.rd: the accumulator rounded once, zero-extended (R120, R122, R173). -/
def runEaRd (c : Nat) (f : F0) (s : State) : Host.Outcome State Fault Refusal :=
  issueArch c f.g (legalF0 { rd := true, ra := true, ty := true, rm := true } f (f.xop == 0) && half f.ra) s fun a =>
    let acc := accuOpen (a.ereg f.ra.toNat).toNat
    match eaRdFmt acc.kind f.ty.toNat with
    | none => .fault 4
    | some ff =>
      let (x, g) := acc.readOut ff (a.mode f.rm) (a.draw f.ri 0)
      .ok ((a.setS f.rd.toNat (BitVec.ofNat 64 x)).flags g)

/-- The word of an image access. -/
def legalImage (f : F1) : Bool := legalF1 true true false f && half f.rd

/-- Read an image of the own cell memory: a malformed one faults with cause 4 (R170). -/
def withImage (s : State) (addr : Nat) (k : Nat → Eff) : Eff :=
  let img := leNat (s.memBytes addr 80)
  if imageMalformed img then .fault 4 else k img

/-- ea.ldi: accumulator rd takes the image; a different kind into a non-empty accumulator faults (R120, R121). -/
def runEaLdi (c : Nat) (f : F1) (s : State) : Host.Outcome State Fault Refusal :=
  issueOwn c f (legalImage f) 16 80 s fun addr s =>
    withImage s addr fun img =>
      if kindsClash (accuOpen ((s.cell c).arch.ereg f.rd.toNat).toNat).kind (accuOpen img).kind then .fault 4
      else eaDone s c f.rd img 0 0

/-- ea.addi: the image added exactly into accumulator rd (R120). -/
def runEaAddi (c : Nat) (f : F1) (s : State) : Host.Outcome State Fault Refusal :=
  issueOwn c f (legalImage f) 16 80 s fun addr s => withImage s addr fun img => eaMergeInto s c f.rd img

/-- ea.sti: the image of accumulator rd stored (R120). -/
def runEaSti (c : Nat) (f : F1) (s : State) : Host.Outcome State Fault Refusal :=
  issueStore c f (legalImage f) 16 80 s fun addr s =>
    .done ((s.writeLocal addr (leBytes 80 ((s.cell c).arch.ereg f.rd.toNat).toNat)).advancePc c)

end Sys2Proof.Machine
end

