-- ==== Sys2Proof/Machine/Operands.lean ====
section
/-!
DEFINITION. Tile descriptors: their fields, their well-formedness, and where their elements lie (R107-R113).
-/

namespace Sys2Proof.Machine

/-- A tile descriptor opened into its fields (R108). -/
structure Tile where
  base   : Nat
  d0     : Nat
  d1     : Nat
  d2     : Nat
  res    : Nat
  s1     : Nat
  s2     : Nat
  fmt    : Nat
  layout : Nat
  scale  : Nat
  deriving DecidableEq, Repr

/-- Open a descriptor (R108). -/
def tileOf (x : BitVec 256) : Tile :=
  let n := x.toNat
  { base := bits n 0 64, d0 := bits n 64 16, d1 := bits n 80 16, d2 := bits n 96 16, res := bits n 112 16,
    s1 := bits n 128 32, s2 := bits n 160 32, fmt := bits n 192 5, layout := bits n 197 3, scale := bits n 200 56 }

/-- The width of one element in bits. -/
def Tile.width (t : Tile) : Nat := codeWidth t.fmt

/-- The alignment that base and strides need (R110). -/
def Tile.align (t : Tile) : Nat := if t.fmt = 16 ∨ t.width < 8 then 16 else t.width / 8

/-- The descriptor is malformed (R110); layout 1 is allowed only for the destination of tm. -/
def Tile.malformed (t : Tile) (tmDest : Bool) : Bool :=
  t.res != 0 || decide (16 < t.fmt) || decide (1 < t.layout) || (t.layout == 1 && !tmDest) ||
    t.base % t.align != 0 || t.s1 % t.align != 0 || t.s2 % t.align != 0 ||
    ((decide (t.width < 8) || isMx t.fmt) && t.d0 % 32 != 0) || (!isMx t.fmt && t.scale != 0)

/-- The tile has no elements (R111). -/
def Tile.empty (t : Tile) : Bool := t.d0 == 0 || t.d1 == 0 || t.d2 == 0

/-- The bytes of one row. -/
def Tile.rowBytes (t : Tile) : Nat := (t.d0 * t.width + 7) / 8

/-- The address of the first byte of row `r` of plane `p` (R109). -/
def Tile.rowAddr (t : Tile) (r p : Nat) : Nat := t.base + p * t.s2 + r * t.s1

/-- The length of the bounding range of the first `planes` planes (R119). -/
def Tile.span (t : Tile) (planes : Nat) : Nat := (planes - 1) * t.s2 + (t.d1 - 1) * t.s1 + t.rowBytes

/-- `n` elements of row `r` of plane 0 from column `c`, as bit patterns (R109, R143). -/
def Tile.elems (t : Tile) (s : State) (r c n : Nat) : List Nat :=
  let x := leNat (s.memBytes (t.rowAddr r 0 + c * t.width / 8) ((n * t.width + 7) / 8))
  (List.range n).map fun i => bits x (i * t.width) t.width

/-- The address of the scale byte of element (`r`, `c`, 0) (R109). -/
def Tile.scaleAddr (t : Tile) (r c : Nat) : Nat := t.scale + r * t.d0 / 32 + c / 32

/-- The values of `n` elements of row `r` of plane 0 from column `c`, an MX element with its block's scale
(R147-R149). -/
def Tile.values (t : Tile) (s : State) (r c n : Nat) : List Fp :=
  let xs := t.elems s r c n
  if isMx t.fmt then
    (xs.zip (List.range n)).map fun p =>
      let sb := (s.memByte (t.scaleAddr r (c + p.2))).toNat
      if sb = 0xFF then .nan ((elemOf t.fmt).decode p.1).snan else ((elemOf t.fmt).decode p.1).scale (Int.ofNat sb - 127)
  else xs.map (elemOf t.fmt).decode

/-- A range lies wholly in the own cell memory of cell `n`. -/
def ownRange (n a len : Nat) : Bool := decide (cellMem n ≤ a) && decide (a + len ≤ cellMem n + cellBytes)

/-! ### tset, tadv, ldt, stt (R108, R112, R113) -/

/-- The place of a descriptor field of tset (R108, R112): lowest bit, width, and greatest value. -/
def tsetField : Nat → Nat × Nat × Nat
  | 0 => (0, 64, 2 ^ 64 - 1)
  | 1 => (64, 16, 2 ^ 16 - 1)
  | 2 => (80, 16, 2 ^ 16 - 1)
  | 3 => (96, 16, 2 ^ 16 - 1)
  | 4 => (128, 32, 2 ^ 32 - 1)
  | 5 => (160, 32, 2 ^ 32 - 1)
  | 6 => (192, 5, 16)
  | 7 => (197, 3, 1)
  | _ => (200, 56, 2 ^ 56 - 1)

/-- tset: one field of descriptor rd from ra; a wider value or a reserved format or layout faults with cause 5. -/
def execTset (c : Nat) (f : F0) (s : State) : Host.Outcome State Fault Refusal :=
  issueArch c f.g (legalF0 { rd := true, ra := true } f (decide (f.xop.toNat ≤ 8)) && half f.rd) s fun a =>
    let (lsb, w, most) := tsetField f.xop.toNat
    let x := (a.sreg f.ra.toNat).toNat
    if most < x then .fault 5
    else .ok (a.setT f.rd.toNat (BitVec.ofNat 256 (setBits (a.treg f.rd.toNat).toNat lsb w x)))

/-- tadv: base of descriptor rd plus ra (R112, R113). -/
def execTadv (c : Nat) (f : F0) (s : State) : Host.Outcome State Fault Refusal :=
  issueArch c f.g (legalF0 { rd := true, ra := true } f (f.xop == 0) && half f.rd) s fun a =>
    let x := (a.treg f.rd.toNat).toNat
    .ok (a.setT f.rd.toNat (BitVec.ofNat 256 (setBits x 0 64 ((BitVec.ofNat 64 x) + a.sreg f.ra.toNat).toNat)))

/-- ldt: descriptor rd from 32 bytes at 32-byte alignment (R104, R108). -/
def runLdt (c : Nat) (f : F1) (s : State) : Host.Outcome State Fault Refusal :=
  issueOwn c f (legalF1 true true false f && half f.rd) 32 32 s fun addr s =>
    let k := s.cell c
    .done (s.setCell c { k with
      arch := (k.arch.setT f.rd.toNat (BitVec.ofNat 256 (leNat (s.memBytes addr 32)))).advance })

/-- stt: descriptor rd to 32 bytes at 32-byte alignment (R104, R108). -/
def execStt (c : Nat) (f : F1) (s : State) : Host.Outcome State Fault Refusal :=
  issueStore c f (legalF1 true true false f && half f.rd) 32 32 s fun addr s =>
    .done ((s.writeLocal addr (leBytes 32 ((s.cell c).arch.treg f.rd.toNat).toNat)).advancePc c)

end Sys2Proof.Machine
end

