-- ==== Sys2Proof/Machine/Matrix.lean ====
section
/-!
DEFINITION. The matrix instructions mma, acc.ld and acc.rd (R54, R57, R114-R118, R162-R168).
-/

namespace Sys2Proof.Machine

/-- The shape of one mma: M, N, K, and the accumulator element type (R54). -/
def mmaShape : Nat → Option (Nat × Nat × Nat × Nat)
  | 0 => some (64, 64, 128, 2)
  | 4 => some (64, 64, 128, 8)
  | 5 => some (64, 64, 128, 8)
  | 6 => some (64, 64, 64, 8)
  | 7 => some (64, 64, 64, 8)
  | 8 => some (64, 64, 16, 8)
  | 9 => some (32, 64, 16, 9)
  | 10 => some (64, 64, 128, 8)
  | 11 => some (64, 64, 128, 8)
  | 12 => some (64, 64, 128, 8)
  | 13 => some (64, 64, 128, 8)
  | 14 => some (64, 64, 256, 8)
  | 15 => some (64, 64, 128, 8)
  | _ => none

/-- A format of the FP8 row of R54, any of which may be combined (R115). -/
def fp8Row (c : Nat) : Bool := c == 4 || c == 5 || (10 ≤ c && c ≤ 13) || c == 15

/-- Two operand formats may be combined (R115). -/
def mmaPair (a b : Nat) : Bool := a == b || (fp8Row a && fp8Row b)

/-- Element `e` of accumulator array `n`, as a bit pattern of type `at_`: FP64 elements take two words, in order
(log 18). -/
def Arch.accElem (a : Arch) (n at_ e : Nat) : Nat :=
  if at_ = 9 then (a.accW n (2 * e)).toNat + (a.accW n (2 * e + 1)).toNat * 2 ^ 32 else (a.accW n e).toNat

/-- Write element `e` of accumulator array `n`. -/
def Arch.setAccElem (a : Arch) (n at_ e x : Nat) : Arch :=
  if at_ = 9 then (a.setAccW n (2 * e) (BitVec.ofNat 32 x)).setAccW n (2 * e + 1) (BitVec.ofNat 32 (x / 2 ^ 32))
  else a.setAccW n e (BitVec.ofNat 32 x)

/-- The products of two rows, and their flags. -/
def products (xs ys : List Fp) : List Fp × Nat :=
  let ps := List.zipWith Fp.mul xs ys
  (ps.map Prod.fst, ps.foldl (fun g p => orf g p.2) 0)

/-- One output element of a floating-point mma: the exact sum of the products and the accumulator element, rounded
once under RNE (R162, R163). -/
def mmaElem (f : FpFmt) (cm : Nat) (acc : Nat) (xs ys : List Fp) : Nat × Nat :=
  let (ps, g) := products xs ys
  let ps := if cm = 2 then ps.map Fp.negate else ps
  let (v, h) := Fp.sum false (if cm = 1 then ps else f.decode acc :: ps)
  let (b, k) := f.round .rne 0 v
  (b, orf g (orf h k))

/-- One output element of an INT8 mma, modulo 2^32 (R164). -/
def mmaInt (cm acc : Nat) (xs ys : List Nat) : Nat :=
  let p := (List.zipWith (fun x y => toSigned 8 x * toSigned 8 y) xs ys).foldl (· + ·) 0
  wrap 32 (match cm with
    | 0 => toSigned 32 acc + p
    | 1 => p
    | _ => toSigned 32 acc - p)

/-- The scale bytes of `rows` rows from `r0` and the K step at column `c` lie in the own cell memory (R115). -/
def scalesOwn (n : Nat) (t : Tile) (r0 rows c k : Nat) : Bool :=
  !isMx t.fmt || (List.range rows).all fun i => ownRange n (t.scaleAddr (r0 + i) c) (k / 32)

/-- The cause with which an mma faults, if it does; the cases are tested in the order in which R115 lists them
(log 19). An empty operand skips the checks of where bytes lie (R111). -/
def mmaCheck (n : Nat) (ta tb : Tile) (m q k at_ : Nat) : Option Nat :=
  let empty := ta.empty || tb.empty
  if ta.malformed false || tb.malformed false then some 4
  else if !empty && !(ownRange n ta.base (ta.span 1) && ownRange n tb.base (tb.span 1)) then some 6
  else if ta.base % 64 ≠ 0 ∨ ta.s1 % 64 ≠ 0 ∨ tb.base % 64 ≠ 0 ∨ tb.s1 % 64 ≠ 0 then some 4
  else if !mmaPair ta.fmt tb.fmt then some 4
  else
    match mmaShape ta.fmt with
    | none => some 4
    | some (M, N, K, acc) =>
      if !empty && !(decide ((m + 1) * M ≤ ta.d1) && decide ((q + 1) * N ≤ tb.d1) && decide ((k + 1) * K ≤ ta.d0) &&
          decide ((k + 1) * K ≤ tb.d0)) then some 6
      else if !empty && !(scalesOwn n ta (m * M) M (k * K) K && scalesOwn n tb (q * N) N (k * K) K) then some 6
      else if at_ ≠ acc then some 4
      else none

/-- The accumulator array after an mma, and the flags. -/
def mmaRun (s : State) (a : Arch) (acc cm : Nat) (ta tb : Tile) (m q k : Nat) : Arch × Nat :=
  match mmaShape ta.fmt with
  | none => (a, 0)
  | some (M, N, K, at_) =>
    let cells := (List.range M).flatMap fun i => (List.range N).map fun j => (i, j)
    if ta.fmt = 0 then
      let xs := (List.range M).map fun i => ta.elems s (m * M + i) (k * K) K
      let ys := (List.range N).map fun j => tb.elems s (q * N + j) (k * K) K
      (cells.foldl (fun b p =>
        b.setAccElem acc at_ (p.1 * 64 + p.2)
          (mmaInt cm (a.accElem acc at_ (p.1 * 64 + p.2)) (xs.getD p.1 []) (ys.getD p.2 []))) a, 0)
    else
      let xs := (List.range M).map fun i => ta.values s (m * M + i) (k * K) K
      let ys := (List.range N).map fun j => tb.values s (q * N + j) (k * K) K
      let f := if at_ = 9 then fp64 else fp32
      cells.foldl (fun b p =>
        let (x, g) := mmaElem f cm (a.accElem acc at_ (p.1 * 64 + p.2)) (xs.getD p.1 []) (ys.getD p.2 [])
        (b.1.setAccElem acc at_ (p.1 * 64 + p.2) x, orf b.2 g)) (a, 0)

/-- The word of a matrix instruction has no nonzero unused or reserved field. -/
def legalF3 (tb sk ri : Bool) (f : F3) : Bool :=
  (tb || f.tb == 0) && (sk || f.sk == 0) && (ri || f.ri == 0) && f.res == 0

/-- The bounding range of plane 0 of the tile in descriptor `r`, which a tile of no elements does not have (R111, R119). -/
def Arch.tileRange (a : Arch) (r : BitVec 4) : Nat × Nat :=
  let t := tileOf (a.treg r.toNat)
  (t.base, if t.empty then 0 else t.span 1)

/-- The ranges that an mma reads: plane 0 of each tile, and the scale bytes of its rows; none where a tile has no elements (R109, R111,
R119). -/
def Arch.mmaRanges (a : Arch) (f : F3) : List (Nat × Nat) :=
  let one := fun (r : BitVec 4) =>
    let t := tileOf (a.treg r.toNat)
    a.tileRange r :: if isMx t.fmt then [(t.scale, t.d1 * t.d0 / 32)] else []
  if (tileOf (a.treg f.ta.toNat)).empty || (tileOf (a.treg f.tb.toNat)).empty then [] else one f.ta ++ one f.tb

/-- mma: cm 3 is illegal (R114). -/
def runMma (c : Nat) (f : F3) (s : State) : Host.Outcome State Fault Refusal :=
  issueTouch c f.g (legalF3 true true false f && f.cm != 3)
    ((s.cell c).arch.mmaRanges f) s fun s =>
    let k := s.cell c
    let a := k.arch
    let ta := tileOf (a.treg f.ta.toNat)
    let tb := tileOf (a.treg f.tb.toNat)
    let m := (a.sreg f.sm.toNat).toNat
    let q := (a.sreg f.sn.toNat).toNat
    let j := (a.sreg f.sk.toNat).toNat
    match mmaCheck c ta tb m q j f.aty.toNat with
    | some e => .fault e
    | none =>
      let s1 := (s.bumpCell (s.remapOf c).phys 1 1).bumpComb (c / 8) 3 1
      if ta.empty || tb.empty then .done (s1.setCell c { k with arch := a.advance })
      else
        let (b, g) := mmaRun s a f.acc.toNat f.cm.toNat ta tb m q j
        .done (s1.setCell c { k with arch := (b.flags g).advance })

/-! ### Accumulator arrays and cell memory (R117, R118) -/

/-- The rows of a block of an accumulator type (R117). -/
def blockRows (at_ : Nat) : Nat := if at_ = 9 then 32 else 64

/-- The cause with which the block (m, q) of a tile faults by where it lies (R139): the tile starts in the own cell
memory and the block lies within the tile and the memory. -/
def blockCheck (n : Nat) (t : Tile) (at_ m q : Nat) : Option Nat :=
  let r := blockRows at_
  if t.base < cellMem n ∨ cellMem n + cellBytes ≤ t.base then some 7
  else if t.d1 < (m + 1) * r ∨ t.d0 < (q + 1) * 64 then some 6
  else if !ownRange n (t.rowAddr (m * r) 0 + q * 64 * t.width / 8) ((r - 1) * t.s1 + 64 * t.width / 8) then some 6
  else none

/-- acc.ld: array acc from block (sm, sn) of tile ta, whose format is at (R117); cm must be 0 (R118). -/
def runAccLd (c : Nat) (f : F3) (s : State) : Host.Outcome State Fault Refusal :=
  issueTouch c f.g (legalF3 false false false f && f.cm == 0) [(s.cell c).arch.tileRange f.ta] s fun s =>
    let k := s.cell c
    let a := k.arch
    let t := tileOf (a.treg f.ta.toNat)
    let m := (a.sreg f.sm.toNat).toNat
    let q := (a.sreg f.sn.toNat).toNat
    let at_ := f.aty.toNat
    if t.malformed false || t.fmt != at_ || !(at_ == 2 || at_ == 8 || at_ == 9) then .fault 4
    else if t.empty then .done (s.setCell c { k with arch := a.advance })
    else
      match blockCheck c t at_ m q with
      | some e => .fault e
      | none =>
        let b := (List.range (blockRows at_)).foldl (fun b i =>
          ((t.elems s (m * blockRows at_ + i) (q * 64) 64).zip (List.range 64)).foldl (fun b p =>
            b.setAccElem f.acc.toNat at_ (i * 64 + p.2) p.1) b) a
        .done (s.setCell c { k with arch := b.advance })

/-- The destination formats of a `NORMAL` read-out (R117). -/
def rdNormal (at_ dst : Nat) : Bool :=
  (at_ == 8 && (dst == 8 || dst == 7 || dst == 6 || dst == 4 || dst == 5)) || (at_ == 9 && (dst == 9 || dst == 8)) ||
    (at_ == 2 && dst ≤ 2)

/-- One element of a `NORMAL` read-out: rounded under rmode, or saturated (R117, R153, R164). -/
def rdElem (a : Arch) (ri : BitVec 5) (at_ dst e x : Nat) : Nat × Nat :=
  match elemOf dst with
  | .int w =>
    let (y, out) := saturate w (toSigned 32 x)
    (y, flagIf out fSat)
  | .fp f => f.round (rmodeOf a.rmode.toNat) (a.draw ri e) ((elemOf at_).decode x)
  | .mxint8 => (0, 0)

/-- One element of an image read-out (R118, R171, R175): the image of the element, or the image at its place with the
element added; `none` where that image is malformed or of another kind. -/
def rdImage (at_ cm old x : Nat) : Option (Nat × Nat) :=
  let kind := if at_ = 9 then 2 else 1
  let v := (elemOf at_).decode x
  let acc := if cm = 1 then accuOpen old else Accu.empty
  if cm = 1 && (imageMalformed old || kindsClash acc.kind kind) then none
  else
    let out := acc.add kind v
    some (accuImage out, orf (flagIf v.snan fNv) (eovfFlag acc out))

/-- The rows of a read-out: for each row, its bytes, with the flags of all; `none` for a fault with cause 4. -/
def rdRows (s : State) (a : Arch) (f : F3) (t : Tile) (m q : Nat) (image : Bool) : Option (List (Nat × List Byte) × Nat) :=
  let at_ := f.aty.toNat
  let rows := blockRows at_
  (List.range rows).foldl (fun acc i =>
    match acc with
    | none => none
    | some (out, fl) =>
      let addr := t.rowAddr (m * rows + i) 0 + q * 64 * t.width / 8
      let es := (List.range 64).map fun j =>
        let x := a.accElem f.acc.toNat at_ (i * 64 + j)
        if image then rdImage at_ f.cm.toNat (leNat (s.memBytes (addr + 80 * j) 80)) x
        else some (rdElem a f.ri at_ t.fmt (i * 64 + j) x)
      if es.any Option.isNone then none
      else
        let vs := es.filterMap id
        some (out ++ [(addr, leBytes (64 * t.width / 8) (ofLanes t.width (vs.map Prod.fst)))],
          vs.foldl (fun g p => orf g p.2) fl)) (some ([], 0))

/-- acc.rd: array acc to block (sm, sn) of tile ta (R117, R118, R165). It is held while a granule of the tile is frozen and finds no
staging buffer (R517). -/
def runAccRd (c : Nat) (f : F3) (s : State) : Host.Outcome State Fault Refusal :=
  let image := (s.cell c).arch.amode != 0
  let legal := legalF3 false false true f && (f.cm == 0 || (image && f.cm == 1))
  let r := (s.cell c).arch.tileRange f.ta
  if s.executes c f.g legal && ownRange c r.1 r.2 && !s.stageOk r.1 r.2 then .refused .cellNotIssuing
  else issueTouch c f.g legal [r] s fun s =>
    let a := (s.cell c).arch
    let t := tileOf (a.treg f.ta.toNat)
    let m := (a.sreg f.sm.toNat).toNat
    let q := (a.sreg f.sn.toNat).toNat
    let at_ := f.aty.toNat
    let agrees := if image then t.fmt == 16 && (at_ == 8 || at_ == 9) else rdNormal at_ t.fmt
    if t.malformed false || !agrees then .fault 4
    else if t.empty then .done (s.advancePc c)
    else
      match blockCheck c t at_ m q with
      | some e => .fault e
      | none =>
        match rdRows s a f t m q image with
        | none => .fault 4
        | some (rows, g) =>
          let s1 := foldS (fun s r => s.writeLocal r.1 r.2) s rows
          let k := s1.cell c
          .done (s1.setCell c { k with arch := (k.arch.flags g).advance })

end Sys2Proof.Machine
end

