-- ==== Sys2Proof/Machine/Boot.lean ====
section
/-!
DEFINITION. Power domains, the service light, and what the module loses with a supply (R43, R44, R588, R590, R609,
R612, R613, R636).
-/

namespace Sys2Proof.Machine

/-! ### The service light (R612) -/

/-- The steady-service conditions of R612. -/
inductive Service where
  | startHalted | refLost | leak | leakOpen | fatal | outOfService | thermalTrip | isolated
  deriving DecidableEq, Repr

/-- The place of a condition in the list kept by the management side. -/
def Service.num : Service → Nat
  | .startHalted => 1
  | .refLost => 2
  | .leak => 3
  | .leakOpen => 4
  | .fatal => 5
  | .outOfService => 6
  | .thermalTrip => 7
  | .isolated => 8

/-- A steady-service condition arises and lights the service light. -/
def State.lightService (s : State) (k : Service) : State :=
  { s with mgmt := { s.mgmt with service := true, steady := k.num :: s.mgmt.steady.filter (fun x => x != k.num) } }

/-- A steady-service condition no longer holds. The light stays on until it is cleared (R613). -/
def State.endService (s : State) (k : Service) : State :=
  { s with mgmt := { s.mgmt with steady := s.mgmt.steady.filter (fun x => x != k.num) } }

/-! ### What the test record keeps (R588) -/

/-! ### Loss of supplies -/

/-- A cell unit as the test record keeps it: its retirement. -/
def keepPhys (t : Tab Phys) : Tab Phys :=
  t.foldl (fun a e => Tab.set (fun _ => Phys.reset) a e.1 { Phys.reset with retired := e.2.retired }) []

/-- A forager as the test record keeps it: its retirement. -/
def keepFrgs (t : Tab Frg) : Tab Frg :=
  t.foldl (fun a e => Tab.set (fun _ => Frg.reset) a e.1 { Frg.reset with retired := e.2.retired }) []

/-- A forager whose work is lost: what is counted since power-on stays with its retirement (R281, R636). -/
def lostFrgs (t : Tab Frg) : Tab Frg :=
  t.foldl (fun a e => Tab.set (fun _ => Frg.reset) a e.1
    { Frg.reset with retired := e.2.retired, cnt := e.2.cnt, completed := e.2.completed }) []

/-- A device that loses what it holds, and with it what was known of its lines: what is counted since power-on, its spared rows, its
errors, its place in the scrub and its stamps stay (R212, R218, R219, R546). -/
def lostDevs (t : Tab Dev) : Tab Dev :=
  t.foldl (fun a e => Tab.set (fun _ => Dev.reset) a e.1 { e.2 with need := [], lost := [] }) []

/-- A device as the test record keeps it: retirement and spared rows. -/
def keepDevs (t : Tab Dev) : Tab Dev :=
  t.foldl (fun a e =>
    Tab.set (fun _ => Dev.reset) a e.1 { Dev.reset with retired := e.2.retired, spared := e.2.spared }) []

/-- Retired lanes of a port, as the test record keeps them. -/
def keepPorts (t : Tab Port) : Tab Port :=
  t.foldl (fun a e => Tab.set (fun _ => Port.reset) a e.1 { Port.reset with healthy := e.2.healthy }) []

/-- The key of `PRT_START`, whose quick_ok and force_full hold while standby is present (R590). -/
def startKey : Nat := 0x080020

/-- The main domain turns off: what the main domain holds is gone; the Balden complex, the test record, the
management port, the coolant sensors and the pins stay (R43, R588, R590, R575). Always-on counters stay until the
next start clears them (R636). -/
def State.mainOff (s : State) : State :=
  { State.reset with
    ext := s.ext, remap := s.remap, phys := s.phys, frgs := keepFrgs s.frgs, devs := keepDevs s.devs,
    reserve := s.reserve,
    bar := Tab.set regReset [] startKey (Tab.get regReset s.bar startKey),
    stg := Tab.set regReset [] startKey (Tab.get regReset s.bar startKey),
    fab := { Fabric.reset with ports := keepPorts s.fab.ports },
    power := { Power.reset with
      rack := s.power.rack, rackOn := s.power.rackOn, brakePin := s.power.brakePin, coolPin := s.power.coolPin,
      guarded := s.power.guarded, leakOpen := s.power.leakOpen, leakWet := s.power.leakWet,
      leakPass := s.power.leakPass, inlet := s.power.inlet, outlet := s.power.outlet, inletOk := s.power.inletOk,
      outletOk := s.power.outletOk, phases := s.power.phases, hold := s.power.hold, hot := s.power.hot, owed := s.power.owed },
    pins := SyncPins.reset,
    resets := { Resets.reset with
      combOos := s.resets.combOos, fatal := s.resets.fatal, fatalRead := s.resets.fatalRead, trigger := s.resets.trigger,
      stopTime := s.resets.stopTime },
    boot := { Boot.reset with
      standby := s.boot.standby, pwrEn := s.boot.pwrEn, isolated := s.boot.isolated, refOk := s.boot.refOk,
      oos := s.boot.oos, recValid := s.boot.recValid,
      droop := s.boot.droop.filter (fun i => i == 136), invalid := s.boot.invalid, ageH := s.boot.ageH, halt := s.boot.halt, again := s.boot.again },
    mgmt := s.mgmt,
    dbg := { Debug.reset with aon := s.dbg.aon },
    link := { HostLink.reset with perst := s.link.perst },
    nextId := s.nextId, freeCtr := s.freeCtr, pending := s.pending }

/-- Standby power goes: the non-volatile storage and the fuses stay, everything else is as before power-on
(R588, R590, R609, R614-R619, R626, R630). -/
def State.standbyOff (s : State) : State :=
  let t := s.mainOff
  { t with
    bar := [], stg := [], wrote := [],
    power := { Power.reset with phases := s.power.phases, brakePin := s.power.brakePin, coolPin := s.power.coolPin },
    resets := Resets.reset,
    boot := { Boot.reset with
      pwrEn := s.boot.pwrEn, recValid := false, invalid := if s.boot.recValid then 3 else s.boot.invalid },
    mgmt := { Mgmt.reset with
      board := s.mgmt.board, made := s.mgmt.made, mainHrs := s.mgmt.nv.1, stbyHrs := s.mgmt.nv.2.1,
      starts := s.mgmt.nv.2.2.1, fulls := s.mgmt.nv.2.2.2, lots := s.mgmt.lots, rework := s.mgmt.rework,
      used := s.mgmt.used, nextSlot := s.mgmt.nextSlot, owner := s.mgmt.owner, ownerSeq := s.mgmt.ownerSeq,
      lock := s.mgmt.lock, block := s.mgmt.block, bank := s.mgmt.bank, trial := s.mgmt.trial,
      fuses := s.mgmt.fuses, images := s.mgmt.images, nv := s.mgmt.nv,
      fwState := if s.mgmt.trial then 6 else 0 },
    dbg := Debug.reset }

/-- The hour counts and the start counts go to non-volatile storage (R615). -/
def State.storeCounts (s : State) : State :=
  { s with mgmt := { s.mgmt with nv := (s.mgmt.mainHrs, s.mgmt.stbyHrs, s.mgmt.starts, s.mgmt.fulls) } }

/-! ### Substitution (R455, R505, R506) -/

/-- A spare can take this module's place for partition `p`: it is an admitted member of a swarm with a manager and spares left, which
has not marked its number failed (R539), and the partition is the fabric owner with an active lining. -/
def State.substitutes (s : State) (p : Nat) : Bool :=
  p == s.owner && !s.swarm.marked.contains s.fab.logical.toNat && (s.swarm.role == 1 || s.swarm.role == 2 || s.swarm.role == 3) &&
    s.swarm.admitted && !s.swarm.spares.isEmpty && !s.swarm.headless &&
    s.linOn s.owner && !(s.epochOf s.owner).first

end Sys2Proof.Machine
end

