-- ==== Sys2Proof/Machine/Sync.lean ====
section
/-!
DEFINITION. Sync objects: addresses, signals on their way, the update order, and the wait tables (R72, R130, R291-R306,
R309, R528).
-/

namespace Sys2Proof.Machine

/-- The value of a sync object. -/
def State.obj (s : State) (n : Nat) : Word := Tab.get (fun _ => 0) s.sync n

/-- What a sync address names: an object of this module, an object of another module, or a fault with its cause. -/
inductive SyncRef where
  | loc (obj : Nat)
  | rem (module obj : Nat)
  | bad (cause : Nat)
  deriving DecidableEq, Repr

/-- The object of this module at an offset of the local map, for partition `p`. -/
def State.localObj (s : State) (p o : Nat) : SyncRef :=
  if isSync o then
    let n := (o - syncBase) / 8
    if s.partOfSync n = p then .loc n else .bad 7
  else .bad 7

/-- What a sync address names for partition `p` (R130). -/
def State.syncRef (s : State) (p a : Nat) : SyncRef :=
  if a % 8 ≠ 0 then .bad 3
  else
    match a / 2 ^ 60 with
    | 0 => s.localObj p (a % 2 ^ 60)
    | 1 =>
      let m := bits a 48 12
      let o := bits a 0 48
      if s.owner != p || !(s.route m).valid then .bad 7
      else if m == s.fab.logical.toNat then s.localObj p o
      else if isSync o then .rem m ((o - syncBase) / 8) else .bad 7
    | _ => .bad 7

/-- Issue a signal: it travels to the island of its object, or to another module as a packet (R129, R298, R303).
`after` is the place in the order of issue before which accesses must have been performed. -/
def State.issueSig (s : State) (eng : Engine) (owner : Owner) (p : Nat) (cmd : Option Nat) (after : Nat) (r : SyncRef)
    (set : Bool) (v : Word) : State :=
  match r with
  | .loc n => { s with
      sigs := s.sigs ++ [{ eng := eng, part := p, obj := n, set := set, v := v, cmd := cmd, ord := after, ack := none }],
      farTag := s.farTag + 1 }
  | .rem m n =>
    (s.originate owner eng.key
      (s.packet (if set then 7 else 6) 0 (s.gen eng.key).toNat m v.toNat n 0 false [])).countIssued eng.key
  | .bad _ => s

/-- The owners whose accesses an engine's signal releases. -/
def Sig.releases (g : Sig) (o : Owner) : Bool :=
  match g.eng with
  | .cell n => o.ofCell n
  | _ => match g.cmd with
    | some id => o.ofCmd id
    | none => false

/-- Every access that the engine issued before the signal has been performed (R293). -/
def State.released (s : State) (g : Sig) : Bool :=
  !s.pendingBefore g.ord g.releases &&
    !s.sigs.any (fun h => h.eng == g.eng && h.cmd == g.cmd && decide (h.ord < g.ord)) &&
    !s.link.bis.any (fun b => decide (b.ord < g.ord) && match b.what with
      | .sig h => h.eng == g.eng && h.cmd == g.cmd
      | _ => false)

/-- The local-map line of a sync object. -/
def objLine (n : Nat) : Nat := (syncBase + 8 * n) / 64

/-- The value of an object after a signal. -/
def Sig.apply (g : Sig) (v : Word) : Word := if g.set then g.v else v + g.v

/-- A wait is satisfied by a value (R301). -/
def WaitEntry.met (w : WaitEntry) (v : Word) : Bool := if w.eq then v == w.v else w.v.ule v

/-- A wait that is satisfied lets its cell issue the next instruction (R129). -/
def State.resumeCell (s : State) (n : Nat) : State :=
  let c := s.cell n
  match c.run with
  | .waitObj _ _ _ _ => s.setCell n { c with run := .issuing, arch := c.arch.advance }
  | _ => s

/-- Test the entries that a wait table holds for an object against its value (R304). -/
def State.testWaits (s : State) (n : Nat) : State :=
  let v := s.obj n
  let done := s.waits.filter fun w => w.held && w.obj == n && w.met v
  let s1 := { s with waits := s.waits.filter fun w => !(w.held && w.obj == n && w.met v) }
  foldS (fun s w => match w.who with | .cell c => s.resumeCell c | _ => s) s1 done

/-- In a replay, an update of an object passes one of its effect records (R538). -/
def State.passEffect (s : State) (n : Nat) : State :=
  let p := s.partOfSync n
  let e := s.epochOf p
  match e.replayEff.find? fun r => r.kind == 3 && r.obj == n with
  | some r => s.setEpoch p { e with replayEff := e.replayEff.erase r }
  | none => s

/-- Perform an update of a sync object (R291, R304), and acknowledge a remote one (R409). -/
def State.updateObj (s : State) (g : Sig) : State :=
  let s1 := (({ s with sync := Tab.set (fun _ => 0) s.sync g.obj (g.apply (s.obj g.obj)) }).passEffect g.obj).testWaits g.obj
  match g.ack with
  | some q => s1.ackPkt q
  | none => s1

/-- The wait table of the C-die of an object is full (R304). -/
def State.waitFull (s : State) (n : Nat) : Bool :=
  decide (1024 ≤ (s.waits.filter fun w => w.held && w.obj / 8192 == n / 8192).length)

/-- Enter a wait into the wait table of its object: it is tested once, and held when it is not satisfied; a full
table does not accept it (R131, R304). -/
def State.enterWait (s : State) (w : WaitEntry) : State :=
  if w.met (s.obj w.obj) then s else { s with waits := s.waits ++ [{ w with held := !s.waitFull w.obj }] }

/-- The intake number of the command on whose behalf a signal is made, or 0 (R529). -/
def State.sigRef (s : State) (g : Sig) : Nat :=
  match g.cmd with
  | some id => match s.cmd id with | some c => c.intake | none => 0
  | none => 0

/-- The value an object will have after the updates that wait for its line. -/
def State.objLater (s : State) (n : Nat) : Word :=
  s.link.bis.foldl (fun v b => match b.what with
    | .sig g => if g.obj == n then g.apply v else v
    | _ => v) (s.obj n)

/-- The update of an object: at once, or after the back-invalidation of a line that a host may hold, with its record
in the effect log (R309, R528). -/
def State.applySig (s : State) (g : Sig) : State :=
  let line := objLine g.obj
  if s.lineHeld line then
    (s.appendEffect g.part 3 g.obj 0 (s.sigRef g) (g.apply (s.objLater g.obj))).pushBi line (.sig g)
  else s.updateObj g

end Sys2Proof.Machine
end

