-- ==== Sys2Proof/Machine/Tiles.lean ====
section
/-!
DEFINITION. Tile moves: tm, its completion, tm.wait (R111, R119, R124-R127, R298).
-/

namespace Sys2Proof.Machine

/-- A tile word uses td, ts and sg only where its instruction does (R101). -/
def legalF4 (tiles sg : Bool) (f : F4) : Bool :=
  (tiles || (f.td == 0 && f.ts == 0)) && (sg || f.sg == 0) && f.res == 0

/-- Slot `i` of cell `n`. -/
def Cell.slot (c : Cell) (i : Nat) : Option TileMove := Tab.get (fun _ => none) c.slots i

/-- Set slot `i` of a cell. -/
def Cell.setSlot (c : Cell) (i : Nat) (m : Option TileMove) : Cell :=
  { c with slots := Tab.set (fun _ => none) c.slots i m }

/-- The shape rules of R124, for two well-formed descriptors. -/
def tileShapes (src dst : Tile) : Bool :=
  src.fmt == dst.fmt &&
    (if dst.layout = 0 then src.d0 == dst.d0 && src.d1 == dst.d1 && src.d2 == dst.d2
     else dst.d0 == src.d1 && dst.d1 == src.d0 && dst.d2 == src.d2 && decide (8 ≤ src.width))

/-- The length of the whole bounding range of a tile. -/
def Tile.extent (t : Tile) : Nat := t.span t.d2

/-- An address lies in the own cell memory of cell `n`. -/
def inOwn (n a : Nat) : Bool := decide (cellMem n ≤ a) && decide (a < cellMem n + cellBytes)

/-- What a cell reaches with a tile: the own cell memory is a region of its own (R125). -/
def State.tileReach (s : State) (n : Nat) (wr : Bool) (t : Tile) : Reach :=
  if inOwn n t.base then within (cellMem n, cellMem n + cellBytes) t.base t.extent (.loc t.base)
  else s.reach (s.partOfCell n) .data wr false t.base t.extent

/-- One number for the place of a byte, whichever space it lies in. -/
def Home.place : Home → Nat
  | .loc o => o
  | .rem m o => 2 ^ 60 + m * 2 ^ 48 + o
  | .far _ c => farKey c
  | .host a => hostKey a

/-- The homes of two tiles that pass the checks of R125, or the cause of the first that fails. -/
def State.tileHomes (s : State) (n : Nat) (src dst : Tile) : Except Nat (Home × Home) :=
  if !inOwn n src.base && !inOwn n dst.base then .error 7
  else
    match s.tileReach n false src, s.tileReach n true dst with
    | .denied, _ => .error 7
    | _, .denied => .error 7
    | .bound, _ => .error 6
    | _, .bound => .error 6
    | .ok a, .ok b =>
      if a.place < b.place + dst.extent ∧ b.place < a.place + src.extent then .error 8 else .ok (a, b)

/-- The runs of bytes that a tile move copies: source offset, destination offset and length, rows for layout 0 and
elements for layout 1 (R109, R124). -/
def tileRuns (src dst : Tile) : List (Nat × Nat × Nat) :=
  (List.range src.d2).flatMap fun p => (List.range src.d1).flatMap fun r =>
    if dst.layout = 0 then
      [(src.rowAddr r p - src.base, dst.rowAddr r p - dst.base, src.rowBytes)]
    else
      let w := src.width / 8
      (List.range src.d0).map fun c =>
        (src.rowAddr r p - src.base + c * w, dst.rowAddr c p - dst.base + r * w, w)

/-- Start a tile move whose checks have passed: the tile mover of the cell issues its accesses (R70, R124, R126). -/
def State.startMove (s : State) (n slot : Nat) (m : TileMove) (hs hd : Home) : State :=
  let src := tileOf m.src
  let dst := tileOf m.dst
  let s1 := s.setCell n ((s.cell n).setSlot slot (some m))
  (s1.transfer (.slot n slot) (Engine.key (.cell n)) (s.partOfCell n) hs hd dst.base src.extent (tileRuns src dst)).bumpComb (n / 8) 6
    (src.rowBytes * src.d1 * src.d2)

/-- The cause with which a tm faults before its tiles are placed, or none: descriptor fields and shapes, then the
signal address (R110, R111, R124, R130; log 25). -/
def State.tmCheck (s : State) (n : Nat) (src dst : Tile) (sg : Option Word) : Option Nat :=
  if src.malformed false || dst.malformed true || !tileShapes src dst then some 4
  else
    match sg with
    | none => none
    | some a => match s.syncRef (s.partOfCell n) a.toNat with | .bad k => some k | _ => none

/-- tm (R124-R127): a busy slot stalls issue, and so do a source line that waits for its repair (R504), memory of a device that
is gone (R216) and memory of another cell under reset (R549); otherwise the checks, and the move. A tile of no elements moves nothing
and needs no place (R111). -/
def runTm (c : Nat) (f : F4) (s : State) : Host.Outcome State Fault Refusal :=
  let k := s.cell c
  let src := tileOf (k.arch.treg f.ts.toNat)
  let dst := tileOf (k.arch.treg f.td.toNat)
  let own := [src, dst].filterMap fun t => if inOwn c t.base && !t.empty then some (t.base, t.extent) else none
  if s.executes c f.g (legalF4 true true f) && !src.malformed false && !src.empty && !dst.empty &&
      (s.lostIn src.base src.extent || s.resetHolds dst.base dst.extent || s.goneIn src.base src.extent || s.goneIn dst.base dst.extent) then
    .refused .cellNotIssuing
  else issueTouch c f.g (legalF4 true true f) own s fun s =>
    let slot := f.id.toNat
    let k := s.cell c
    let sg := if f.sg = 0 then none else some (k.arch.sreg f.sg.toNat)
    let m : TileMove := { src := k.arch.treg f.ts.toNat, dst := k.arch.treg f.td.toNat, sg := sg }
    if (k.slot slot).isSome then .done (s.setCell c { k with run := .waitSlot slot false })
    else
      match s.tmCheck c src dst sg with
      | some e => .fault e
      | none =>
        if src.empty || dst.empty then .done ((s.setCell c (k.setSlot slot (some m))).advancePc c)
        else
          match s.tileHomes c src dst with
          | .error e => .fault e
          | .ok (a, b) => .done ((s.startMove c slot m a b).advancePc c)

/-- tm.wait: issue goes on once the slot is free (R126). -/
def execTmWait (c : Nat) (f : F4) (s : State) : Host.Outcome State Fault Refusal :=
  issue c f.g (legalF4 false false f) false s fun s =>
    let k := s.cell c
    if (k.slot f.id.toNat).isSome then .done (s.setCell c { k with run := .waitSlot f.id.toNat true })
    else .done (s.advancePc c)

/-- The destination of a move is another module's memory. -/
def State.remoteDest (s : State) (m : TileMove) : Bool :=
  let a := (tileOf m.dst).base
  a / 2 ^ 60 == 1 && bits a 48 12 != s.fab.logical.toNat

/-- A stall or wait on a slot ends (R126). -/
def State.resumeSlot (s : State) (n slot : Nat) : State :=
  let c := s.cell n
  match c.run with
  | .waitSlot i adv =>
    if i = slot then s.setCell n { c with run := .issuing, arch := if adv then c.arch.advance else c.arch } else s
  | _ => s

/-- TILE_MOVE_COMPLETE (R70, R126, R127, R298): every byte is written at its home; the slot is free, and the completion
signals. A remote move waits until the cell's completion counts are equal. The signal releases the bytes the move wrote, as R127 says, and
waits for no other access of the cell (log 135). -/
def execTileMoveComplete (c slot : Nat) (s : State) : Host.Outcome State Fault Refusal :=
  whenFormed (decide (c < 512) && decide (slot < 4)) <|
  whenLive s <| withItem ((s.cell c).slot slot) fun m =>
    whenDue (!s.outstanding (.slot c slot) && (!s.remoteDest m || s.quiet (Engine.key (.cell c)))) <|
      let s1 := s.setCell c ((s.cell c).setSlot slot none)
      let s2 := match m.sg with
        | some a => s1.issueSig (.cell c) (.cell c) (s.partOfCell c) (s.cell c).cmd 0
            (s1.syncRef (s.partOfCell c) a.toNat) false 1
        | none => s1
      .next (s2.resumeSlot c slot)

end Sys2Proof.Machine
end

