-- ==== Sys2Proof/Machine/SyncPort.lean ====
section
/-!
DEFINITION. The sync port, fences and control instructions (R63, R128-R131, R134, R135).
-/

namespace Sys2Proof.Machine

/-- An extended word uses sb, sd and pd only where its instruction does (R101). -/
def legalF5 (sa sb sd pd imm : Bool) (f : F5) : Bool :=
  (sa || f.sa == 0) && (sb || f.sb == 0) && (sd || f.sd == 0) && (pd || f.pd == 0) && (imm || f.imm == 0)

/-- The operand V of a sync-port instruction (R129). -/
def Arch.operand (a : Arch) (f : F5) : Word := a.sreg f.sb.toNat + immS f.imm

/-- sig.add and sig.set (R62, R129, R130): behind what waits in the sync-port queue they take a place in it; while it is full, issue
stalls. -/
def cellSignal (n : Nat) (f : F5) (set : Bool) (s : State) : Host.Outcome State Fault Refusal :=
  let legal := legalF5 true true false false true f
  if s.executes n f.g legal && decide (portDepth ≤ (s.cell n).portQ.length) then .refused .cellNotIssuing
  else issue n f.g legal true s fun s =>
    let k := s.cell n
    let a := k.arch.sreg f.sa.toNat
    match s.syncRef (s.partOfCell n) a.toNat with
    | .bad e => .fault e
    | r =>
      if k.portQ.isEmpty then
        .done ((s.issueSig (.cell n) (.cell n) (s.partOfCell n) k.cmd s.farTag r set (k.arch.operand f)).advancePc n)
      else
        let u : State := { s with farTag := s.farTag + 1 }
        .done ((u.setCell n { k with portQ := k.portQ ++ [.sig set a (k.arch.operand f) s.farTag] }).advancePc n)

/-- The object of this module that a wait, test or read names, or the cause of its fault (R130). -/
def State.ownObj (s : State) (n : Nat) (a : Word) : Except Nat Nat :=
  match s.syncRef (s.partOfCell n) a.toNat with
  | .loc o => .ok o
  | .rem _ _ => .error 7
  | .bad e => .error e

/-- A signal of cell `n` to object `o` has not been performed. -/
def State.ownSignal (s : State) (n o : Nat) : Bool :=
  s.sigs.any (fun g => g.eng == Engine.cell n && g.obj == o) || s.link.bis.any fun b => match b.what with
    | .sig g => g.eng == Engine.cell n && g.obj == o
    | _ => false

/-- Run a sync-port instruction that reads an object: it is held until the sync-port queue before it is empty (R62, log 130), and until
every earlier signal of its cell to the object has been performed (R286). -/
def afterSignals (n : Nat) (f : F5) (s : State) (k : Host.Outcome State Fault Refusal) : Host.Outcome State Fault Refusal :=
  match s.ownObj n ((s.cell n).arch.sreg f.sa.toNat) with
  | .ok o => if s.executes n f.g true && (!(s.cell n).portQ.isEmpty || s.ownSignal n o) then .refused .cellNotIssuing else k
  | .error _ => k

/-- wait.ge and wait.eq: issue goes on when the object satisfies the wait; until then the wait table holds it, or the
port polls (R129, R131, R304). -/
def cellWait (n : Nat) (f : F5) (eq : Bool) (s : State) : Host.Outcome State Fault Refusal :=
  issue n f.g (legalF5 true true false false true f) true s fun s =>
    let k := s.cell n
    match s.ownObj n (k.arch.sreg f.sa.toNat) with
    | .error e => .fault e
    | .ok o =>
      let w : WaitEntry := { who := .cell n, obj := o, eq := eq, v := k.arch.operand f, held := true }
      if w.met (s.obj o) then .done (s.advancePc n)
      else if s.waitFull o then .done (s.setCell n { k with run := .waitObj o eq w.v true, waitAt := s.now })
      else .done ((s.setCell n { k with run := .waitObj o eq w.v false, waitAt := s.now }).enterWait w)

/-- sig.add (R129). -/
def execSigAdd (c : Nat) (f : F5) (s : State) : Host.Outcome State Fault Refusal := cellSignal c f false s

/-- sig.set (R129). -/
def execSigSet (c : Nat) (f : F5) (s : State) : Host.Outcome State Fault Refusal := cellSignal c f true s

/-- wait.ge (R129). -/
def execWaitGe (c : Nat) (f : F5) (s : State) : Host.Outcome State Fault Refusal :=
  afterSignals c f s (cellWait c f false s)

/-- wait.eq (R129). -/
def execWaitEq (c : Nat) (f : F5) (s : State) : Host.Outcome State Fault Refusal :=
  afterSignals c f s (cellWait c f true s)

/-- test.ge: predicate pd, without a wait (R129). -/
def execTestGe (c : Nat) (f : F5) (s : State) : Host.Outcome State Fault Refusal :=
  afterSignals c f s <| issue c f.g (legalF5 true true false true true f) true s fun s =>
    let k := s.cell c
    match s.ownObj c (k.arch.sreg f.sa.toNat) with
    | .error e => .fault e
    | .ok o => .done (s.setCell c { k with
        arch := (k.arch.setP f.pd.toNat ((k.arch.operand f).ule (s.obj o))).advance })

/-- sread: register sd from the object (R129). -/
def execSread (c : Nat) (f : F5) (s : State) : Host.Outcome State Fault Refusal :=
  afterSignals c f s <| issue c f.g (legalF5 true false true false false f) true s fun s =>
    let k := s.cell c
    match s.ownObj c (k.arch.sreg f.sa.toNat) with
    | .error e => .fault e
    | .ok o => .done (s.setCell c { k with arch := (k.arch.setS f.sd.toNat (s.obj o)).advance })

/-- CELL_WAIT_POLL: the port repeats the test of a wait that its table did not accept, until the test succeeds or the
table accepts the wait (R131, R304, R305). -/
def execCellWaitPoll (c : Nat) (s : State) : Host.Outcome State Fault Refusal :=
  whenLive s <|
    match (s.cell c).run with
    | .waitObj o eq v true =>
      let w : WaitEntry := { who := .cell c, obj := o, eq := eq, v := v, held := true }
      if w.met (s.obj o) then .next (s.resumeCell c)
      else if s.waitFull o then .next s
      else .next ((s.setCell c { s.cell c with run := .waitObj o eq v false }).enterWait w)
    | _ => .refused .noSuchItem

/-- fence.local: later memory accesses wait for every earlier local access (R128, R296). -/
def execFenceLocal (c : Nat) (f : F5) (s : State) : Host.Outcome State Fault Refusal :=
  issue c f.g (legalF5 false false false false false f) false s fun s =>
    let k := s.cell c
    .done ((s.setCell c { k with fence := if k.fence == .remote then .remote else .localOnly }).advancePc c)

/-- fence.remote: every later instruction waits for every earlier access (R128, R297). -/
def execFenceRemote (c : Nat) (f : F5) (s : State) : Host.Outcome State Fault Refusal :=
  issue c f.g (legalF5 false false false false false f) false s fun s =>
    (.done ((s.setCell c { s.cell c with fence := .remote }).advancePc c))

/-! ### Control (R134, R135) -/

/-- A branch word uses ra and target only where its instruction does (R101). -/
def legalF2 (ra target : Bool) (f : F2) : Bool :=
  (ra || f.ra == 0) && (target || f.target == 0) && f.res == 0

/-- Issue an instruction that sets its own next pc. -/
def issueJump (n : Nat) (f : F2) (legal : Bool) (s : State) (k : Arch → ArchEff) : Host.Outcome State Fault Refusal :=
  issue n f.g legal false s fun s =>
    let c := s.cell n
    match k c.arch with
    | .ok a => .done (s.setCell n { c with arch := a })
    | .fault e => .fault e

/-- br: pc from target. -/
def execBr (c : Nat) (f : F2) (s : State) : Host.Outcome State Fault Refusal :=
  issueJump c f (legalF2 false true f) s fun a => .ok { a with pc := f.target }

/-- brl: pc + 1 to ra, pc from target. -/
def execBrl (c : Nat) (f : F2) (s : State) : Host.Outcome State Fault Refusal :=
  issueJump c f (legalF2 true true f) s fun a =>
    .ok { a.setS f.ra.toNat (BitVec.ofNat 64 (a.pc.toNat + 1)) with pc := f.target }

/-- jr: pc from ra; a value of more than 14 bits faults with cause 5. -/
def execJr (c : Nat) (f : F2) (s : State) : Host.Outcome State Fault Refusal :=
  issueJump c f (legalF2 true false f) s fun a =>
    let v := (a.sreg f.ra.toNat).toNat
    if 2 ^ 14 ≤ v then .fault 5 else .ok { a with pc := BitVec.ofNat 14 v }

/-- loop: nothing at 0; otherwise ra is decremented, and pc is target while ra is nonzero. -/
def execLoop (c : Nat) (f : F2) (s : State) : Host.Outcome State Fault Refusal :=
  issueJump c f (legalF2 true true f) s fun a =>
    let v := a.sreg f.ra.toNat
    if v = 0 then .ok a.advance
    else
      let b := a.setS f.ra.toNat (v - 1)
      .ok (if v - 1 = 0 then b.advance else { b with pc := f.target })

/-- nop. The same command also issues any word that spells no instruction (`w.raw`: format 6 or 7, an opcode that is not assigned,
or an opcode of another format): such a word is illegal, cause 1 (R101; log 106). -/
def execNop (c : Nat) (w : NopWord) (s : State) : Host.Outcome State Fault Refusal :=
  match w.raw with
  | none => issueJump c w.f (legalF2 false false w.f) s fun a => .ok a.advance
  | some r => whenFormed (decodeCell c r).isNone <| issueJump c { w.f with g := decGuard r } false s fun a => .ok a

/-- halt: issue stops (R95, R134). -/
def execHalt (c : Nat) (f : F2) (s : State) : Host.Outcome State Fault Refusal :=
  issue c f.g (legalF2 false false f) false s fun s =>
    .done (s.setCell c { s.cell c with run := .halted })

end Sys2Proof.Machine
end

