-- ==== Sys2Proof/Machine/ForageDesc.lean ====
section
/-!
DEFINITION. Forager descriptors: their fields, the checks of the sequencer, and acceptance (R234-R244, R250-R253, R259,
R263-R271).
-/

namespace Sys2Proof.Machine

/-- Why a command, descriptor or packet is refused (R236, R363, R413). -/
inductive Bad where
  | format | denied | bound
  deriving DecidableEq, Repr

/-- The fault cause of a refused forg or coll (R237). -/
def Bad.cause : Bad → Nat
  | .format => 4
  | .denied => 7
  | .bound => 6

/-! ### Fields (R239-R242) -/

/-- A field of a descriptor: `width` bits at byte offset `off` and bit `lsb`. -/
def dfield (d off lsb width : Nat) : Nat := bits d (8 * off + lsb) width

/-- An operand slot (R240). -/
structure Slot where
  base   : Nat
  extent : Nat
  fmt    : Nat
  rest   : Nat
  deriving DecidableEq, Repr

/-- Slot `i` of a descriptor. -/
def dslot (d i : Nat) : Slot :=
  let o := 0x40 + 0x20 * i
  { base := dfield d o 0 64, extent := dfield d (o + 8) 0 64, fmt := dfield d (o + 0x10) 0 5,
    rest := dfield d (o + 0x10) 5 59 + dfield d (o + 0x18) 0 64 }

/-- A slot that is not all zero. -/
def Slot.used (s : Slot) : Bool := s.base != 0 || s.extent != 0 || s.fmt != 0 || s.rest != 0

/-- The element width of a slot in bytes. -/
def Slot.w (s : Slot) : Nat := codeWidth s.fmt / 8

/-- The class of a descriptor. -/
def dclass (d : Nat) : Nat := dfield d 0 0 5

/-- The device a descriptor names. -/
def ddevice (d : Nat) : Nat := dfield d 0 16 5

/-- The number of micro-operations. -/
def dnchain (d : Nat) : Nat := dfield d 0 24 4

/-- The working type. -/
def detype (d : Nat) : Nat := dfield d 0 32 5

/-- The rounding mode. -/
def drm (d : Nat) : Nat := dfield d 0 37 3

/-- The element count. -/
def dcount (d : Nat) : Nat := dfield d 8 0 64

/-- A micro-operation (R250). -/
structure Uop where
  op : Nat
  d  : Nat
  a  : Nat
  b  : Nat
  c  : Nat
  deriving DecidableEq, Repr

/-- Micro-operation word `i`. -/
def dword (d i : Nat) : Nat := dfield d (0xC0 + 8 * i) 0 64

/-- Micro-operation `i`. -/
def duop (d i : Nat) : Uop :=
  let x := dword d i
  { op := bits x 0 8, d := bits x 8 4, a := bits x 12 4, b := bits x 16 4, c := bits x 20 4 }

/-- Constant `i`. -/
def dconst (d i : Nat) : Nat := dfield d (0x100 + 8 * i) 0 64

/-- Class-parameter word `i`. -/
def dparam (d i : Nat) : Nat := dfield d (0x140 + 8 * i) 0 64

/-- How many operands a micro-operation uses (R251). -/
def uopArity (op : Nat) : Nat :=
  match op with
  | 0 => 1 | 8 => 1 | 9 => 1 | 4 => 3 | 5 => 3 | 13 => 3
  | _ => 2

/-- The operands a micro-operation names. -/
def Uop.named (u : Uop) : List Nat := [u.a, u.b, u.c].take (uopArity u.op)

/-! ### Check 1 (R236, R241-R243, R250-R253, R263-R271) -/

/-- What a class does with slot `i`: `some true` used, `some false` unused, `none` either (R241). -/
def slotRole (cls i : Nat) : Option Bool :=
  match cls, i with
  | 1, 1 => none | 1, 2 => none
  | 2, 1 => none | 2, 2 => some false | 2, 3 => none
  | 3, 2 => some false
  | 5, 1 => some false | 5, 2 => some false
  | 6, 1 => none | 6, 2 => none
  | 7, 1 => some false | 7, 2 => some false
  | 9, 1 => some false | 9, 2 => some false
  | 10, 0 => some false | 10, 1 => some false | 10, 2 => some false
  | 11, _ => none
  | 12, _ => none
  | _, _ => some true

/-- The class uses slot `i` in this descriptor; one that it requires is used whatever it holds (log 141). -/
def slotUsed (d i : Nat) : Bool :=
  match slotRole (dclass d) i with
  | some b => b
  | none => (dslot d i).used

/-- The slots a descriptor uses. -/
def usedSlots (d : Nat) : List Nat := (List.range 4).filter (slotUsed d)

/-- nchain is legal for a class (R241). -/
def nchainOk (cls n : Nat) : Bool :=
  if cls = 6 then decide (1 ≤ n) && decide (n ≤ 8)
  else if (1 ≤ cls ∧ cls ≤ 4) ∨ 11 ≤ cls then decide (n ≤ 8) else n == 0

/-- A legal working type (R239). -/
def etypeOk (e : Nat) : Bool := e == 2 || e == 3 || e == 7 || e == 8 || e == 9

/-- A micro-operation of the chain is legal (R250, R251). -/
def uopOk (d i : Nat) : Bool :=
  let u := duop d i
  let n := uopArity u.op
  bits (dword d i) 24 40 == 0 && decide (u.op ≤ 0x10) && decide (u.d ≤ 7) &&
    (decide (u.op < 0x0E) || isInt (detype d)) && ([u.a, u.b, u.c].drop n).all (fun x => x == 0)

/-- Every constant that the chain names has zero higher bits (R252). -/
def constsOk (d : Nat) : Bool :=
  (List.range (dnchain d)).all fun i => (duop d i).named.all fun x =>
    decide (x < 8) || decide (dconst d (x - 8) < 2 ^ codeWidth (detype d))

/-- The class-parameter bits that a class defines (R242), per word. -/
def paramMask (cls i : Nat) : Nat :=
  match cls, i with
  | 2, 0 => 2 ^ 64 - 1 | 2, 1 => 3
  | 3, 0 => 2 ^ 64 - 1
  | 4, 0 => 7
  | 5, 0 => 2 ^ 64 - 1 | 5, 1 => 2 ^ 64 - 1 | 5, 2 => 2 ^ 16 - 1
  | 7, 0 => 2 ^ 64 - 1 | 7, 1 => 2 ^ 64 - 1
  | 8, 0 => 2 ^ 64 - 1 | 8, 1 => 2 ^ 64 - 1 | 8, 2 => 1 | 8, 3 => 2 ^ 64 - 1
  | _, _ => 0

/-- The formats that convert exactly into a working type (R253). -/
def inputFmts (e : Nat) : List Nat :=
  match e with
  | 9 => [9, 8, 7, 6, 4, 5, 0, 1, 2]
  | 8 => [8, 7, 6, 4, 5, 0, 1]
  | 7 => [7, 4, 5, 0]
  | 3 => [0, 1, 2, 3]
  | _ => [0, 1, 2]

/-- The formats to which the sum of a working type reads out (R122, R263); every format for an integer type. -/
def sumFmts (e : Nat) : List Nat := if isInt e then List.range 10 else if e = 9 then [9] else [9, 8, 7, 6]

/-- The number of segments of a `REDUCE` (R263). -/
def segments (d : Nat) : Nat := if dparam d 0 = 0 then 1 else (dcount d + dparam d 0 - 1) / dparam d 0

/-- A slot's format is one of a list, where the slot is used. -/
def fmtIn (d i : Nat) (l : List Nat) : Bool := !slotUsed d i || l.contains (dslot d i).fmt

/-- The formats, parameters and class rules of check 1; the internal classes leave their slots and chain open (R241). -/
def classOk (d : Nat) : Bool :=
  let e := detype d
  match dclass d with
  | 1 => (List.range 3).all fun i => fmtIn d i (inputFmts e)
  | 2 =>
    let sum := bits (dparam d 1) 0 2 == 0
    fmtIn d 0 [e] && fmtIn d 1 [e] && bits (dparam d 1) 0 2 != 3 && (!sum || fmtIn d 3 (sumFmts e)) &&
      (slotUsed d 3 || decide (segments d ≤ 1))
  | 3 => fmtIn d 0 (inputFmts e) && fmtIn d 1 [2, 3]
  | 4 => fmtIn d 0 (inputFmts e) && fmtIn d 1 [2, 3] && (bits (dparam d 0) 0 2 != 0 || fmtIn d 3 (sumFmts e))
  | 5 =>
    let n := bits (dparam d 2) 0 15
    fmtIn d 0 (inputFmts e) && fmtIn d 3 [3] && decide (1 ≤ n) && decide (n ≤ 16384)
  | 6 => fmtIn d 0 (inputFmts e) && fmtIn d 1 (inputFmts e) && fmtIn d 2 [3]
  | 7 => (dslot d 0).fmt == (dslot d 3).fmt && bits (dparam d 0) 0 32 * bits (dparam d 0) 32 32 == dcount d
  | 8 => (e == 8 || e == 9) && fmtIn d 0 [2, 3] && fmtIn d 1 [2] && fmtIn d 2 [e] && fmtIn d 3 [e]
  | 11 => true
  | 12 => true
  | _ => fmtIn d 0 [0] && fmtIn d 3 [0]

/-- The ranges that a descriptor's slots, and y, cover (R243). -/
def dranges (d : Nat) : List (Nat × Nat × Nat) :=
  (usedSlots d).map (fun i => ((dslot d i).base, (dslot d i).extent, i)) ++
    if dclass d = 8 then [(dparam d 0, dparam d 1, 4)] else []

/-- Two ranges overlap where they may not (R243); an empty range overlaps none. -/
def clash (d : Nat) (x y : Nat × Nat × Nat) : Bool :=
  x.2.1 != 0 && y.2.1 != 0 && decide (x.1 < y.1 + y.2.1) && decide (y.1 < x.1 + x.2.1) &&
    !(dclass d == 1 && (x.2.2 == 3 || y.2.2 == 3) && dslot d x.2.2 == dslot d y.2.2)

/-- No forbidden overlap. -/
def noClash (d : Nat) : List (Nat × Nat × Nat) → Bool
  | [] => true
  | x :: t => t.all (fun y => !clash d x y) && noClash d t

/-- Check 1 of R236, but for the length. -/
def formatOk (d : Nat) : Bool :=
  let c := dclass d
  dfield d 0 5 3 == 0 && dfield d 0 10 6 == 0 && dfield d 0 21 3 == 0 && dfield d 0 28 4 == 0 &&
    dfield d 0 40 24 == 0 && dfield d 0x30 0 128 == 0 &&
    decide (1 ≤ c) && decide (c ≤ 12) && decide (dfield d 0 8 2 ≤ 1) && etypeOk (detype d) &&
    decide (drm d ≤ 4) && nchainOk c (dnchain d) &&
    ((List.range 8).all fun i => if i < dnchain d then uopOk d i else dword d i == 0) && constsOk d &&
    ((List.range 4).all fun i => (dslot d i).rest == 0 && (slotUsed d i || !(dslot d i).used) &&
      decide ((dslot d i).fmt ≤ 9)) &&
    ((List.range 8).all fun i => dparam d i &&& paramMask c i == dparam d i) && classOk d &&
    dfield d 0x20 0 64 % 8 == 0 && dfield d 0x28 0 64 % 128 == 0 && noClash d (dranges d)

/-! ### Checks 2 and 3 (R236, R244) -/

/-- A range lies where the placement of a descriptor requires it (R244). -/
def State.placedOk (s : State) (p d base extent : Nat) : Bool :=
  let x := base - s.sliceStart p
  if !isClose base || decide (base < s.sliceStart p) then false
  else if dfield d 0 8 2 = 0 then
    let h := s.homeG p * 4096
    let lo := s.stripedBytes p + (ddevice d - p * s.devsPer) * h
    h != 0 && decide (lo ≤ x) && decide (x + extent ≤ lo + h)
  else decide (x + extent ≤ s.stripedBytes p)

/-- A range lies in local close or cell memory of the partition. -/
def State.localData (s : State) (p a len : Nat) : Bool :=
  a / 2 ^ 60 == 0 && match s.reach p .data true false a len with | .ok _ => true | _ => false

/-- The destination of a `COPY`: local close or cell memory, or a far window with use_data (R244). -/
def State.copyDest (s : State) (p a len : Nat) : Bool :=
  s.localData p a len || (a / 2 ^ 60 == 2 && match s.reach p .data true true a len with | .ok _ => true | _ => false)

/-- Check 2 of R236. -/
def State.deniedOk (s : State) (p d : Nat) : Bool :=
  let done := dfield d 0x20 0 64
  let result := dfield d 0x28 0 64
  dclass d != 11 && dclass d != 12 && s.partOfDev (ddevice d) == p &&
    ((usedSlots d).all fun i =>
      let t := dslot d i
      if dclass d = 9 ∧ i = 3 then s.copyDest p t.base t.extent else s.placedOk p d t.base t.extent) &&
    (dclass d != 8 || s.placedOk p d (dparam d 0) (dparam d 1)) &&
    (done == 0 || match s.syncRef p done with | .loc _ => done / 2 ^ 60 == 0 | _ => false) &&
    (result == 0 || s.localData p result 128)

/-- The bytes that each slot needs, by slot number, with y as slot 4 (R262-R271). -/
def needs (d : Nat) : List (Nat × Nat) :=
  let n := dcount d
  let w := fun i => (dslot d i).w
  if n = 0 then []
  else
    match dclass d with
    | 1 => (usedSlots d).map fun i => (i, n * w i)
    | 2 => ((usedSlots d).filter (fun i => i != 3)).map (fun i => (i, n * w i)) ++
        if slotUsed d 3 then [(3, segments d * w 3)] else []
    | 3 => [(1, n * w 1), (3, n * w 3)]
    | 4 => [(0, n * w 0), (1, n * w 1), (2, 32 * n)]
    | 5 => [(0, n * w 0), (3, (bits (dparam d 2) 0 15 + 2) * 8)]
    | 6 => ((usedSlots d).filter (fun i => decide (i ≤ 1))).map fun i => (i, n * w i)
    | 7 =>
      let rows := bits (dparam d 0) 0 32
      let cols := bits (dparam d 0) 32 32
      [(0, (rows - 1) * bits (dparam d 1) 0 32 + cols * w 0), (3, (cols - 1) * bits (dparam d 1) 32 32 + rows * w 3)]
    | 8 => [(0, (n + 1) * w 0), (4, n * w 2)]
    | 9 => [(0, n), (3, n)]
    | _ => [(3, n)]

/-- Check 3 of R236. -/
def boundOk (d : Nat) : Bool :=
  (needs d).all fun e => decide (e.2 ≤ if e.1 = 4 then dparam d 1 else (dslot d e.1).extent)

/-- The checks of R236 in their order, on a descriptor of some length. -/
def State.checkForage (s : State) (p : Nat) (bs : List Byte) : Option Bad :=
  let d := leNat bs
  if bs.length ≠ 384 then some .format
  else if !formatOk d then some .format
  else if !s.deniedOk p d then some .denied
  else if !boundOk d then some .bound
  else none

/-! ### Acceptance (R235, R246, R259, R278, R280) -/

/-- The forager that does the work of device `d`: itself, or its proxy while it is retired or under test (R278, R656). -/
def State.worker (s : State) (d : Nat) : Nat :=
  if (s.frg d).retired || (s.frg d).underTest then (if d % 2 = 0 then d + 1 else d - 1) else d

/-- The foragers that a descriptor uses: a `HOME` descriptor of a retired device runs as a `STRIPED` one (R280). -/
def State.foragersOf (s : State) (p d : Nat) : List Nat :=
  if dfield d 0 8 2 = 0 ∧ !(s.dev (ddevice d)).retired then [s.worker (ddevice d)]
  else ((List.range s.devsPer).map fun i => s.worker (p * s.devsPer + i)).eraseDups

/-- Both foragers of the pair of device `d` are retired (R279). -/
def State.lostPair (s : State) (d : Nat) : Bool := (s.frg d).retired && (s.frg (d ^^^ 1)).retired

/-- A range of the local map touches a device whose pair of foragers is lost. -/
def State.onLostPair (s : State) (o len : Nat) : Bool :=
  (List.range 32).any s.lostPair && isClose o && len != 0 &&
    (List.range ((o + len - 1) / 4096 - o / 4096 + 1)).any fun i => s.lostPair (s.place4K (4096 * (o / 4096 + i))).1

/-- The ranges that a descriptor touches: its operands, y, and its result record. -/
def touched (d : Nat) : List (Nat × Nat) :=
  (dranges d).map (fun r => (r.1, r.2.1)) ++ if dfield d 0x28 0 64 = 0 then [] else [(dfield d 0x28 0 64, 128)]

/-- A descriptor touches a device of a lost pair of foragers: with an operand, with y, with its result record, or with the work of a
forager (R279). -/
def State.pairLost (s : State) (x : FDesc) : Bool :=
  x.frgs.any s.lostPair || (touched x.raw.toNat).any fun r => s.onLostPair r.1 r.2

/-- The accepted descriptors that occupy places of a sequencer (R235). -/
def State.places (s : State) (q : Nat) : Nat :=
  (s.fdescs.filter fun d => d.seqr == q && d.phase == .placed).length

/-- The foragers of a partition have changed: descriptors that have not started go back to their places, with the foragers they use
now (R278, R280). -/
def State.reassign (s : State) (p : Nat) : State :=
  let moved := fun (x : FDesc) => x.part == p && (x.phase == .placed || x.phase == .queued) && x.frgs != s.foragersOf p x.raw.toNat
  let ids := (s.fdescs.filter moved).map FDesc.id
  if ids.isEmpty then s
  else
    let s1 := foldS (fun t d => t.setFrg d { t.frg d with queue := (t.frg d).queue.filter fun i => !ids.contains i }) s (List.range 32)
    { s1 with fdescs := s1.fdescs.map fun x =>
        if ids.contains x.id then { x with phase := .placed, frgs := s.foragersOf p x.raw.toNat } else x }

/-- Move accepted descriptors into the queues of the foragers they use, in the order of acceptance (R235). -/
def State.fillQueues (s : State) : State :=
  (s.fdescs.filter fun d => d.phase == .placed).foldl (fun s d =>
    if d.frgs.all (fun f => decide ((s.frg f).queue.length < 16)) then
      let s1 := foldS (fun s f => s.setFrg f { s.frg f with queue := (s.frg f).queue ++ [d.id] }) s d.frgs
      { s1 with fdescs := s1.fdescs.map fun e => if e.id == d.id then { e with phase := .queued } else e }
    else s) s

/-- Accept a descriptor that passes its checks, for a sequencer with a free place. -/
def State.acceptForage (s : State) (p : Nat) (issuer : Issuer) (bs : List Byte) : State :=
  let d := leNat bs
  let x : FDesc :=
    { id := s.nextId, raw := BitVec.ofNat 3072 d, part := p, issuer := issuer, seqr := ddevice d / 4,
      frgs := s.foragersOf p d, phase := .placed, flags := 0, count1 := 0, count2 := 0, value := 0, image := 0 }
  ({ s with fdescs := s.fdescs ++ [x], nextId := s.nextId + 1 }).fillQueues

/-- The sequencer that a descriptor names. -/
def seqOf (bs : List Byte) : Nat := ddevice (leNat (bs.take 8)) / 4

end Sys2Proof.Machine
end

