-- ==== Sys2Proof/Machine/ForageOps.lean ====
section
/-!
DEFINITION. What a forager computes: op chains, conversions, and the classes over plain lists (R249-R256, R262-R271).

Working registers and results are bit patterns of the working type.
-/

namespace Sys2Proof.Machine

/-! ### Conversions (R252-R254) -/

/-- The floating-point format of a code, and FP64 for any other. -/
def fpOf (code : Nat) : FpFmt :=
  match elemOf code with
  | .fp f => f
  | _ => fp64

/-- A value in a working type, rounded under RNE; an integer wraps. The conversions of R253 are exact; an existing floating-point
destination under an integer type is converted as vcvt converts it (R265, log 28). -/
def toEtype (e : Nat) (fmt x : Nat) : Nat × Nat :=
  if isInt e then
    if isInt fmt then (wrap (codeWidth e) (toSigned (codeWidth fmt) x), 0)
    else roundToInt (codeWidth e) .rne 0 ((elemOf fmt).decode x)
  else (fpOf e).round .rne 0 ((elemOf fmt).decode x)

/-- A result in another format (R254): integers narrow with saturation, everything else is rounded once. -/
def fromEtype (e fmt : Nat) (mode : RMode) (draw : Nat) (x : Nat) : Nat × Nat :=
  if isInt e then
    let v := toSigned (codeWidth e) x
    if isInt fmt then
      let (y, out) := saturate (codeWidth fmt) v
      (y, flagIf out fSat)
    else (fpOf fmt).round mode draw (.fin (decide (v < 0)) v.natAbs 0)
  else if e = fmt then (x, 0)
  else if isInt fmt then roundToInt (codeWidth fmt) mode draw ((fpOf e).decode x)
  else (fpOf fmt).round mode draw ((fpOf e).decode x)

/-! ### Op chains (R249-R252) -/

/-- A floating-point operand passed on unchanged: a NaN becomes the default NaN (R144, R145). -/
def passFp (f : FpFmt) (x : Nat) : Nat × Nat :=
  let v := f.decode x
  if v.isNan then (f.nan, flagIf v.snan fNv) else (x, 0)

/-- 1 or 0 as a floating-point pattern. -/
def boolFp (f : FpFmt) (r : Bool × Nat) : Nat × Nat := (if r.1 then f.bias * 2 ^ f.mw else 0, r.2)

/-- A micro-operation on floating-point operands (R251). -/
def uopFp (f : FpFmt) (mode : RMode) (op x y z : Nat) : Nat × Nat :=
  let a := f.decode x
  let b := f.decode y
  let c := f.decode z
  let arith := fun (r : Fp × Nat) =>
    let (k, g) := f.round mode 0 r.1
    (k, orf r.2 g)
  match op with
  | 0 => passFp f x
  | 1 => arith (Fp.sum (mode == .rd) [a, b])
  | 2 => arith (Fp.sum (mode == .rd) [a, b.negate])
  | 3 => arith (Fp.mul a b)
  | 4 => arith (fusedSum mode a b c)
  | 5 => arith (fusedSum mode a b c.negate)
  | 6 => fpMinMax f false x y
  | 7 => fpMinMax f true x y
  | 8 => let (k, g) := passFp f x
    (if a.isNan then k else k % 2 ^ (f.ew + f.mw), g)
  | 9 => let (k, g) := passFp f x
    (if a.isNan then k else k ^^^ 2 ^ (f.ew + f.mw), g)
  | 10 => boolFp f (fpCmp 2 a b)
  | 11 => boolFp f (fpCmp 3 a b)
  | 12 => boolFp f (fpCmp 0 a b)
  | _ =>
    let zero := match c with | .fin _ m _ => m == 0 | _ => false
    let (k, g) := passFp f (if zero then y else x)
    (k, orf g (flagIf (a.snan || b.snan || c.snan) fNv))

/-- A micro-operation on integer operands of width `w` (R251, R252). -/
def uopInt (w op x y z : Nat) : Nat :=
  let a := toSigned w x
  let b := toSigned w y
  let c := toSigned w z
  match op with
  | 0 => x
  | 1 => wrap w (a + b)
  | 2 => wrap w (a - b)
  | 3 => wrap w (a * b)
  | 4 => wrap w (a * b + c)
  | 5 => wrap w (a * b - c)
  | 6 => if a ≤ b then x else y
  | 7 => if a ≤ b then y else x
  | 8 => wrap w (Int.ofNat a.natAbs)
  | 9 => wrap w (-a)
  | 10 => if a < b then 1 else 0
  | 11 => if a ≤ b then 1 else 0
  | 12 => if a = b then 1 else 0
  | 13 => if z = 0 then y else x
  | 14 => x &&& y
  | 15 => x ||| y
  | _ => x ^^^ y

/-- The rounding mode of micro-operations (R254). -/
def chainMode (d : Nat) : RMode := if drm d ≤ 3 then rmodeOf (drm d) else .rne

/-- Run the op chain of a descriptor on the inputs of one element (R249). `acc` says that the result enters an
accumulator: the last micro-operation makes the value that enters, and rounds it under RNE (R167, R254, R255, log 28). -/
def chain (d : Nat) (acc : Bool) (w0 w1 w2 : Nat) : Nat × Nat :=
  let e := detype d
  let n := dnchain d
  let init : Nat × List Nat × Nat := (w0, [w0, w1, w2, 0, 0, 0, 0, 0], 0)
  let r := (List.range n).foldl (fun st i =>
    let (_, w, g) := st
    let u := duop d i
    let arg := fun x => if x < 8 then w.getD x 0 else dconst d (x - 8)
    let mode := if acc ∧ i + 1 = n then .rne else chainMode d
    let (k, h) :=
      if isInt e then (uopInt (codeWidth e) u.op (arg u.a) (arg u.b) (arg u.c), 0)
      else uopFp (fpOf e) mode u.op (arg u.a) (arg u.b) (arg u.c)
    (k, w.set u.d k, orf g h)) init
  (r.1, r.2.2)

/-- The stochastic draw of result `i` of a descriptor (R254). -/
def ddraw (d i : Nat) : Nat :=
  stochDraw (BitVec.ofNat 64 (dfield d 0x10 0 64)) (BitVec.ofNat 64 (dfield d 0x18 0 64 + i))

/-- Convert result `i` to the format of a slot. -/
def dout (d fmt i x : Nat) : Nat × Nat := fromEtype (detype d) fmt (rmodeOf (drm d)) (ddraw d i) x

/-! ### Elements in memory -/

/-- Element `i` of a slot, as a bit pattern. -/
def State.slotElem (s : State) (t : Slot) (i : Nat) : Nat := leNat (s.memBytes (t.base + i * t.w) t.w)

/-- Element `i` of a slot, read as a signed integer. -/
def State.slotInt (s : State) (t : Slot) (i : Nat) : Int := toSigned (8 * t.w) (s.slotElem t i)

/-- Element `i` of input slot `k`, converted to the working type; 0 for an unused slot (R249). -/
def State.input (s : State) (d k i : Nat) : Nat × Nat :=
  if slotUsed d k then toEtype (detype d) (dslot d k).fmt (s.slotElem (dslot d k) i) else (0, 0)

/-- What a class leaves: writes by local-map address, flags, counts, value and image. -/
structure Done where
  out    : List (Nat × List Byte) := []
  flags  : Nat := 0
  count1 : Nat := 0
  count2 : Nat := 0
  value  : Nat := 0
  image  : Nat := 0

/-- The union of the flags of a list of results. -/
def flagsOf (l : List (Nat × Nat)) : Nat := l.foldl (fun g p => orf g p.2) 0

/-! ### The classes (R262-R269) -/

/-- `STREAM` (R262). -/
def doStream (s : State) (d : Nat) : Done :=
  let t := dslot d 3
  let rs := (List.range (dcount d)).map fun e =>
    let (a, f0) := s.input d 0 e
    let (b, f1) := s.input d 1 e
    let (c, f2) := s.input d 2 e
    let (x, f3) := chain d false a b c
    let (y, f4) := dout d t.fmt e x
    (y, orf (orf (orf f0 f1) (orf f2 f3)) f4)
  { out := [(t.base, rs.flatMap fun r => leBytes t.w r.1)], flags := flagsOf rs, count1 := dcount d }

/-- The chain results of elements `lo` to `hi - 1` of a `REDUCE`, and their flags. -/
def reduceVals (s : State) (d lo hi : Nat) : List (Nat × Nat) :=
  (List.range (hi - lo)).map fun i =>
    let (a, f0) := s.input d 0 (lo + i)
    let (b, f1) := s.input d 1 (lo + i)
    let (x, f2) := chain d true a b 0
    (x, orf (orf f0 f1) f2)

/-- The sum of working-type values under the kind of the type, and its flags (R166, R263). -/
def exactSum (e : Nat) (a : Accu) (xs : List Nat) : Accu × Nat :=
  let vs := xs.map (fpOf e).decode
  let out := vs.foldl (Accu.add (eaKind e)) a
  (out, orf (flagIf (vs.any Fp.snan) fNv) (eovfFlag a out))

/-- The sum of integers modulo 2^w. -/
def wrapSum (w : Nat) (xs : List Nat) : Nat := xs.foldl (· + ·) 0 % 2 ^ w

/-- The least or greatest of a nonempty list of working-type values (R160). -/
def extremum (e : Nat) (isMax : Bool) : List Nat → Nat × Nat
  | [] => (0, 0)
  | x :: xs => xs.foldl (fun a y =>
      if isInt e then (uopInt (codeWidth e) (if isMax then 7 else 6) a.1 y 0, 0)
      else
        let (k, g) := fpMinMax (fpOf e) isMax a.1 y
        (k, orf a.2 g)) (if isInt e then (x, 0) else passFp (fpOf e) x)

/-- Read result `i` of a sum out to a format (R173, R254). -/
def sumOut (d fmt i : Nat) (a : Accu) : Nat × Nat := a.readOut (fpOf fmt) (rmodeOf (drm d)) (ddraw d i)

/-- One segment of a `REDUCE`: its result in a format, its flags, and its image (R263). -/
def doSegment (s : State) (d fmt i : Nat) : Nat × Nat × Nat :=
  let e := detype d
  let n := dcount d
  let len := if dparam d 0 = 0 then n else dparam d 0
  let vs := reduceVals s d (i * len) (min n ((i + 1) * len))
  let g := flagsOf vs
  let xs := vs.map Prod.fst
  match bits (dparam d 1) 0 2 with
  | 0 =>
    if isInt e then
      let (y, h) := dout d fmt i (wrapSum (codeWidth e) xs)
      (y, orf g h, 0)
    else
      let (a, h) := exactSum e Accu.empty xs
      let (y, k) := sumOut d fmt i a
      (y, orf g (orf h k), accuImage a)
  | op =>
    let (x, h) := extremum e (op == 2) xs
    let (y, k) := dout d fmt i x
    (y, orf g (orf h k), 0)

/-- `REDUCE` (R263). -/
def doReduce (s : State) (d : Nat) : Done :=
  let t := dslot d 3
  let fmt := if slotUsed d 3 then t.fmt else detype d
  let rs := (List.range (segments d)).map (doSegment s d fmt)
  let one := segments d == 1
  let first := rs.headD (0, 0, 0)
  { out := if slotUsed d 3 then [(t.base, rs.flatMap fun r => leBytes t.w r.1)] else [],
    flags := rs.foldl (fun g r => orf g r.2.1) 0, count1 := dcount d,
    value := if one then first.1 else 0, image := if one then first.2.2 else 0 }

/-- The elements of a slot, by its extent. -/
def Slot.elems (t : Slot) : Nat := t.extent / t.w

/-- `GATHER` (R264; the index as `w1`, log 29). -/
def doGather (s : State) (d : Nat) : Done :=
  let t := dslot d 3
  let rs := (List.range (dcount d)).map fun e =>
    let i := s.slotInt (dslot d 1) e
    if i < 0 ∨ Int.ofNat (dslot d 0).elems ≤ i then ((dparam d 0, 0), true)
    else
      let (a, f0) := s.input d 0 i.toNat
      let (b, f1) := toEtype (detype d) (dslot d 1).fmt (s.slotElem (dslot d 1) e)
      let (x, f2) := chain d false a b 0
      let (y, f3) := dout d t.fmt e x
      ((y, orf (orf f0 f1) (orf f2 f3)), false)
  { out := [(t.base, rs.flatMap fun r => leBytes t.w r.1.1)], flags := flagsOf (rs.map Prod.fst),
    count1 := dcount d, count2 := (rs.filter Prod.snd).length }

/-- The contributions of a `SCATTER` that are not discarded, in source order: destination and chain result with its
flags (R265). -/
def contributions (s : State) (d : Nat) : List (Nat × Nat × Nat) :=
  let combine := bits (dparam d 0) 0 2
  (List.range (dcount d)).filterMap fun e =>
    let i := s.slotInt (dslot d 1) e
    if i < 0 ∨ Int.ofNat (dslot d 3).elems ≤ i ∨ 2 ^ 32 ≤ i then none
    else
      let (a, f0) := s.input d 0 e
      let (b, f1) := toEtype (detype d) (dslot d 1).fmt (s.slotElem (dslot d 1) e)
      let (x, f2) := chain d (combine == 0) a b 0
      some (i.toNat, x, orf (orf f0 f1) f2)

/-- Combine the contributions of one destination (R265). -/
def combineDest (s : State) (d i : Nat) (xs : List Nat) : Nat × Nat :=
  let e := detype d
  let t := dslot d 3
  let keep := bit (dparam d 0) 2
  let (old, f0) := toEtype e t.fmt (s.slotElem t i)
  let ys := if keep then old :: xs else xs
  let f0 := if keep then f0 else 0
  match bits (dparam d 0) 0 2 with
  | 0 =>
    if isInt e then
      let (y, g) := dout d t.fmt i (wrapSum (codeWidth e) ys)
      (y, orf f0 g)
    else
      let (a, g) := exactSum e Accu.empty ys
      let (y, h) := sumOut d t.fmt i a
      (y, orf f0 (orf g h))
  | 3 => dout d t.fmt i (xs.getLastD 0)
  | op =>
    let (x, g) := extremum e (op == 2) ys
    let (y, h) := dout d t.fmt i x
    (y, orf f0 (orf g h))

/-- `SCATTER` (R265): every destination with a contribution is combined once. The work buffer is left undefined: its
bytes are those of the free value `free`. -/
def doScatter (s : State) (d free : Nat) : Done :=
  let cs := contributions s d
  let t := dslot d 3
  let dests := (cs.map Prod.fst).eraseDups
  let rs := dests.map fun i => (i, combineDest s d i ((cs.filter fun c => c.1 == i).map fun c => c.2.1))
  { out := ((dslot d 2).base, leBytes (32 * dcount d) free) :: rs.map fun r => (t.base + r.1 * t.w, leBytes t.w r.2.1),
    flags := orf (cs.foldl (fun g c => orf g c.2.2) 0) (flagsOf (rs.map Prod.snd)),
    count1 := dests.length, count2 := dcount d - cs.length }

/-- The bin of a `HISTOGRAM` element: none for a NaN. A NaN that arises from the bin's own arithmetic takes a bin that the spec does
not state, a function of the inputs and of `arev` (R183, log 31). -/
def histBin (d rev x : Nat) : Option Int × Nat :=
  let f := (dslot d 0).fmt
  if isInt f then (some (toSigned (codeWidth f) x - toSigned 64 (dparam d 0)), 0)
  else
    let v := (elemOf f).decode x
    if v.isNan then (none, flagIf v.snan fNv)
    else
      let (p, g) := Fp.sum false [v, (fp64.decode (dparam d 0)).negate]
      let (a, h) := fp64.round .rne 0 p
      let (q, k) := Fp.mul (fp64.decode a) (fp64.decode (dparam d 1))
      let (b, l) := fp64.round .rne 0 q
      let fl := orf (orf g h) (orf k l)
      match fp64.decode b with
      | .nan _ => (some (Config.nanBin rev f x (dparam d 0) (dparam d 1)), fl)
      | .inf n => (some (if n then -1 else 2 ^ 64), fl)
      | .fin n m e => (some ((Fp.fin n m e).atExp (min e 0) / 2 ^ (- min e 0).toNat), fl)

/-- `HISTOGRAM` (R266). -/
def doHistogram (s : State) (d : Nat) : Done :=
  let n := bits (dparam d 2) 0 15
  let t := dslot d 3
  let bs := (List.range (dcount d)).map fun e => histBin d s.arev (s.slotElem (dslot d 0) e)
  let hits := bs.filterMap fun b => b.1.map fun (i : Int) =>
    if i < 0 then 0 else if Int.ofNat n ≤ i then n + 1 else i.toNat + 1
  let old := fun k => if bit (dparam d 2) 15 then s.slotElem t k else 0
  { out := [(t.base, (List.range (n + 2)).flatMap fun k => leBytes 8 (old k + hits.count k))],
    flags := bs.foldl (fun g b => orf g b.2) 0, count1 := (bs.filter fun b => b.1.isNone).length }

/-- `COMPACT` (R267; the number of a result, log 30). -/
def doCompact (s : State) (d : Nat) : Done :=
  let t := dslot d 3
  let u := dslot d 2
  let rs := (List.range (dcount d)).map fun e =>
    let (a, f0) := s.input d 0 e
    let (b, f1) := s.input d 1 e
    let (x, f2) := chain d false a b 0
    let hit := if isInt (detype d) then x != 0
      else match (fpOf (detype d)).decode x with | .fin _ m _ => m != 0 | _ => true
    (e, hit, orf (orf f0 f1) f2)
  let sel := (rs.filter fun r => r.2.1).map Prod.fst
  let cap := if slotUsed d 2 then min t.elems u.elems else t.elems
  let put := sel.take cap
  let vals := put.map fun e =>
    if t.fmt = (dslot d 0).fmt then (s.slotElem (dslot d 0) e, 0) else dout d t.fmt e (s.input d 0 e).1
  { out := (t.base, vals.flatMap fun v => leBytes t.w v.1) ::
      if slotUsed d 2 then [(u.base, put.flatMap fun e => leBytes 8 e)] else [],
    flags := orf (rs.foldl (fun g r => orf g r.2.2) 0) (flagsOf vals), count1 := sel.length,
    count2 := sel.length - cap }

/-- `TRANSPOSE` (R268). -/
def doTranspose (s : State) (d : Nat) : Done :=
  let t := dslot d 3
  let src := dslot d 0
  let rows := bits (dparam d 0) 0 32
  let cols := bits (dparam d 0) 32 32
  let ss := bits (dparam d 1) 0 32
  let ds := bits (dparam d 1) 32 32
  { out := (List.range rows).flatMap fun i => (List.range cols).map fun j =>
      (t.base + j * ds + i * t.w, s.memBytes (src.base + i * ss + j * t.w) t.w) }

/-- One product of a `CSR` row, rounded to the working type (R167, R255, R269), or none outside the window. -/
def csrTerm (s : State) (d j : Nat) : Option (Nat × Nat) :=
  let f := fpOf (detype d)
  let c := s.slotInt (dslot d 1) j - toSigned 64 (dparam d 3)
  if c < 0 ∨ Int.ofNat (dslot d 3).elems ≤ c then none
  else
    let (p, g) := Fp.mul (f.decode (s.slotElem (dslot d 2) j)) (f.decode (s.slotElem (dslot d 3) c.toNat))
    let (x, h) := f.round .rne 0 p
    some (x, orf g h)

/-- Row `i` of a `CSR` may not be computed (R269). -/
def csrBad (s : State) (d i : Nat) : Bool :=
  let a := s.slotInt (dslot d 0) i
  let b := s.slotInt (dslot d 0) (i + 1)
  decide (a < 0) || decide (b < 0) || decide (b < a) || decide (Int.ofNat (dslot d 1).elems < b) ||
    decide (Int.ofNat (dslot d 2).elems < b)

/-- Row `i` of a `CSR`: y, its flags, and the entries skipped. -/
def csrRow (s : State) (d i : Nat) : Nat × Nat × Nat :=
  let w := codeWidth (detype d) / 8
  let a := (s.slotInt (dslot d 0) i).toNat
  let b := (s.slotInt (dslot d 0) (i + 1)).toNat
  let ts := (List.range (b - a)).map fun k => csrTerm s d (a + k)
  let xs := ts.filterMap id
  let y := leNat (s.memBytes (dparam d 0 + i * w) w)
  let (acc, g) := exactSum (detype d) Accu.empty ((if bit (dparam d 2) 0 then [y] else []) ++ xs.map Prod.fst)
  let (r, h) := sumOut d (detype d) i acc
  (r, orf (flagsOf xs) (orf g h), (ts.filter Option.isNone).length)

/-- `CSR` (R269). -/
def doCsr (s : State) (d : Nat) : Done :=
  let w := codeWidth (detype d) / 8
  let n := dcount d
  let good := ((List.range n).takeWhile fun i => !csrBad s d i).length
  let rs := (List.range good).map (csrRow s d)
  { out := [(dparam d 0, rs.flatMap fun r => leBytes w r.1)], flags := rs.foldl (fun g r => orf g r.2.1) 0,
    count1 := n - good, count2 := rs.foldl (fun k r => k + r.2.2) 0 }

/-- `FILL` (R271). -/
def doFill (d : Nat) : Done :=
  { out := [((dslot d 3).base, ((List.range (dcount d / 8 + 1)).flatMap fun _ => leBytes 8 (dconst d 0)).take (dcount d))] }

end Sys2Proof.Machine
end

