-- ==== Sys2Proof/Machine/CollDesc.lean ====
section
/-!
DEFINITION. Collective descriptors: teams, fields, checks and acceptance (R420, R424-R432).
-/

namespace Sys2Proof.Machine

/-! ### Teams (R424) -/

/-- A team as in effect. -/
structure TeamRec where
  first  : Nat
  stride : Nat
  size   : Nat
  active : Bool
  deriving DecidableEq, Repr

/-- The key of `COL_TEAM`t. -/
def teamKey (t : Nat) : Nat := 0x040100 + 8 * t

/-- Team `t`. -/
def State.team (s : State) (t : Nat) : TeamRec :=
  let k := teamKey t
  { first := s.barF k 0 12, stride := s.barF k 12 12, size := s.barF k 24 13, active := s.barB k 37 }

/-- The logical module of a rank. -/
def TeamRec.member (t : TeamRec) (r : Nat) : Nat := t.first + t.stride * r

/-- The rank of a logical module, if it lies in the team. -/
def TeamRec.rankOf (t : TeamRec) (m : Nat) : Option Nat :=
  if t.first ≤ m ∧ t.stride ≠ 0 ∧ (m - t.first) % t.stride = 0 ∧ (m - t.first) / t.stride < t.size then
    some ((m - t.first) / t.stride)
  else none

/-- This module's rank in team `t`. -/
def State.rank (s : State) (t : Nat) : Option Nat := (s.team t).rankOf s.fab.logical.toNat

/-- The sequence state of team `t` (R426). -/
def State.teamSeq (s : State) (t : Nat) : Team := Tab.get (fun _ => Team.reset) s.coll.teams t

/-- Replace the sequence state of team `t`. -/
def State.setTeamSeq (s : State) (t : Nat) (x : Team) : State :=
  { s with coll := { s.coll with teams := Tab.set (fun _ => Team.reset) s.coll.teams t x } }

/-! ### Fields (R428) -/

/-- The operation. -/
def cop (d : Nat) : Nat := dfield d 0 0 4

/-- The reduction. -/
def crop (d : Nat) : Nat := dfield d 0 4 2

/-- The element type. -/
def ctype (d : Nat) : Nat := dfield d 0 6 5

/-- The rounding mode. -/
def crm (d : Nat) : Nat := dfield d 0 11 3

/-- The team. -/
def cteam (d : Nat) : Nat := dfield d 0 14 4

/-- The root of a broadcast. -/
def croot (d : Nat) : Nat := dfield d 0 20 12

/-- The sequence number. -/
def cseqOf (d : Nat) : Nat := dfield d 0 32 32

/-- The elements per block. -/
def ccount (d : Nat) : Nat := dfield d 8 0 64

/-- The send buffer. -/
def csend (d : Nat) : Nat := dfield d 0x10 0 64

/-- The receive buffer. -/
def crecv (d : Nat) : Nat := dfield d 0x18 0 64

/-- The bytes of one block. -/
def cblock (d : Nat) : Nat := ccount d * codeWidth (ctype d) / 8

/-- The bytes of the send buffer at rank `me` of a team of `n` (R429). -/
def sendBytes (d n me : Nat) : Nat :=
  match cop d with
  | 1 => cblock d
  | 2 => n * cblock d
  | 3 => cblock d
  | 4 => if me = croot d then cblock d else 0
  | 6 => n * cblock d
  | _ => 0

/-- The bytes of the receive buffer (R429). -/
def recvBytes (d n : Nat) : Nat :=
  match cop d with
  | 1 => cblock d
  | 2 => cblock d
  | 3 => n * cblock d
  | 4 => cblock d
  | 6 => n * cblock d
  | _ => 0

/-! ### The division of the chunked path (R440-R442) -/

/-- The operation reduces: allreduce or reduce-scatter. -/
def creduces (d : Nat) : Bool := cop d == 1 || cop d == 2

/-- The chunks that are read out together: one, or five where images straddle chunks (log 36). -/
def chunkGroup (d : Nat) : Nat := if creduces d ∧ ctype d = 16 then 5 else 1

/-- The chunks of a number of bytes. -/
def chunksOf (len : Nat) : Nat := (len + 4095) / 4096

/-- Where segment `r` of an allreduce over `n` members begins, in bytes (log 36). -/
def segStart (d n r : Nat) : Nat :=
  let g := chunkGroup d
  min (cblock d) (4096 * g * ((chunksOf (cblock d) + g - 1) / g * r / n))

/-- The bytes of segment `r`. -/
def segBytes (d n r : Nat) : Nat := segStart d n (r + 1) - segStart d n r

/-- A block, or a segment of an allreduce, is larger than 2^19 chunks (R442, log 117). -/
def tooLong (d n : Nat) : Bool :=
  if cop d = 1 then (List.range n).any fun r => decide (2 ^ 31 < segBytes d n r) else decide (2 ^ 31 < cblock d)

/-! ### Checks (R430) -/

/-- The first failed check of a list of (holds, descriptor offset). -/
def firstBad (l : List (Bool × Nat)) : Option Nat := (l.find? fun e => !e.1).map Prod.snd

/-- The type and reduction are allowed for the operation (R420, log 41). -/
def collTypeOk (d : Nat) : Bool :=
  let t := ctype d
  match cop d with
  | 5 => crop d == 0 && decide (t ≤ 16)
  | 1 => if crop d = 0 then [2, 3, 6, 7, 8, 9, 16].contains t else [0, 1, 2, 3, 6, 7, 8, 9].contains t
  | 2 => if crop d = 0 then [2, 3, 6, 7, 8, 9, 16].contains t else [0, 1, 2, 3, 6, 7, 8, 9].contains t
  | _ => crop d == 0 && decide (t ≤ 16)

/-- The alignment of a buffer (R432). -/
def bufAlign (t : Nat) : Nat := if codeWidth t < 8 ∨ t = 16 then 64 else codeWidth t / 8

/-- The buffers overlap where they may not (R432). -/
def bufClash (d n me : Nat) : Bool :=
  let a := sendBytes d n me
  let b := recvBytes d n
  a != 0 && b != 0 && decide (csend d < crecv d + b) && decide (crecv d < csend d + a) &&
    !(csend d == crecv d && (cop d == 1 || (cop d == 4 && me == croot d)))

/-- The `FORMAT` checks but for the length, each with the offset of its field (R430; a clash of the buffers is one of recv, log
124). -/
def State.collFormatList (s : State) (d : Nat) : List (Bool × Nat) :=
  let t := s.team (cteam d)
  let me := (s.rank (cteam d)).getD 0
  [(decide (1 ≤ cop d) && decide (cop d ≤ 6) && crop d != 3 && decide (crm d ≤ 4) && dfield d 0 19 1 == 0 && collTypeOk d &&
      (cop d == 4 || croot d == 0) && t.active && !s.swarm.turned && (s.rank (cteam d)).isSome && decide (croot d < t.size), 0),
   ((cop d != 5 || ccount d == 0) && ccount d * codeWidth (ctype d) % 8 == 0, 8),
   (sendBytes d t.size me == 0 || csend d % bufAlign (ctype d) == 0, 0x10),
   ((recvBytes d t.size == 0 || crecv d % bufAlign (ctype d) == 0) && !bufClash d t.size me, 0x18),
   (dfield d 0x20 0 64 % 8 == 0, 0x20), (dfield d 0x38 0 64 % 8 == 0, 0x38), (dfield d 0x48 0 256 == 0, 0x48),
   (dfield d 0x68 0 192 == 0, 0x68)]

/-- A buffer of a collective: its reach, in local close or cell memory of the partition (R430, R432). -/
def State.bufReach (s : State) (p : Nat) (wr : Bool) (a len : Nat) : Reach :=
  if len = 0 then .ok (.loc 0) else if a / 2 ^ 60 ≠ 0 then .denied else s.reach p .data wr true a len

/-- An object named by a descriptor of partition `p` is one of its own, or is absent. -/
def State.ownObject (s : State) (p a : Nat) : Bool :=
  a == 0 || (a / 2 ^ 60 == 0 && match s.syncRef p a with | .loc _ => true | _ => false)

/-- The `DENIED` checks (R430). -/
def State.collDeniedList (s : State) (p d : Nat) : List (Bool × Nat) :=
  let n := (s.team (cteam d)).size
  let me := (s.rank (cteam d)).getD 0
  [(s.owner == p, 0), (s.bufReach p false (csend d) (sendBytes d n me) != .denied, 0x10),
   (s.bufReach p true (crecv d) (recvBytes d n) != .denied, 0x18), (s.ownObject p (dfield d 0x20 0 64), 0x20),
   (s.ownObject p (dfield d 0x38 0 64), 0x38)]

/-- The `BOUND` checks (R430, log 117). -/
def State.collBoundList (s : State) (p d : Nat) : List (Bool × Nat) :=
  let n := (s.team (cteam d)).size
  let me := (s.rank (cteam d)).getD 0
  [(!tooLong d n, 8), (s.bufReach p false (csend d) (sendBytes d n me) != .bound, 0x10),
   (s.bufReach p true (crecv d) (recvBytes d n) != .bound, 0x18)]

/-- The checks of R430 in their order, on a descriptor of some length: the status, and the offset of the first field that failed. -/
def State.collBad (s : State) (p : Nat) (bs : List Byte) : Option (Bad × Nat) :=
  let d := leNat bs
  if bs.length ≠ 128 then some (.format, 0)
  else match firstBad (s.collFormatList d) with
    | some o => some (.format, o)
    | none => match firstBad (s.collDeniedList p d) with
      | some o => some (.denied, o)
      | none => (firstBad (s.collBoundList p d)).map fun o => (.bound, o)

/-- The status of the first check of R430 that fails. -/
def State.checkColl (s : State) (p : Nat) (bs : List Byte) : Option Bad := (s.collBad p bs).map Prod.fst

/-! ### Acceptance (R431) -/

/-- A place of the collective engine is free. -/
def State.collRoom (s : State) : Bool := decide (s.coll.colls.length < 64)

/-- Accept a descriptor that passes its checks; its start object is waited for (R428). -/
def State.acceptColl (s : State) (p : Nat) (issuer : Issuer) (bs : List Byte) : State :=
  let d := leNat bs
  let c : Coll :=
    { id := s.nextId, raw := BitVec.ofNat 1024 d, part := p, issuer := issuer, started := false, waggle := false,
      stage := 0, state := [], got := [], mask := [], grants := [], sent := [], outs := [], src := [], ready := false,
      status := 0, t0 := 0, lastRank := 0, lastTime := 0 }
  let s1 := { s with coll := { s.coll with colls := s.coll.colls ++ [c] }, nextId := s.nextId + 1 }
  match s.syncRef p (dfield d 0x38 0 64) with
  | .loc o =>
    if dfield d 0x38 0 64 = 0 then s1
    else s1.enterWait
      { who := .collective c.id, obj := o, eq := false, v := BitVec.ofNat 64 (dfield d 0x40 0 64), held := true }
  | _ => s1

end Sys2Proof.Machine
end

