-- ==== Sys2Proof/Machine/Handover.lean ====
section
/-!
DEFINITION. coll and forg: how a descriptor passes from a cell to its engine, and how a refusal comes back (R132, R133,
R235, R237, R430, R431).
-/

namespace Sys2Proof.Machine

/-- What is first in the sync-port queue of cell `n` goes on: a signal is issued; a descriptor is accepted or refused when its engine has
a place (R62, R133, R237). -/
def State.acceptFirst (s : State) (n : Nat) : State :=
  let c := s.cell n
  let p := s.partOfCell n
  match c.portQ with
  | [] => s
  | .sig set a v ord :: t =>
    (s.setCell n { c with portQ := t }).issueSig (.cell n) (.cell n) p c.cmd ord (s.syncRef p a.toNat) set v
  | .desc isColl bs pc :: t =>
    let room := if isColl then s.collRoom else decide (s.places (seqOf bs) < 64)
    if !room then s
    else
      let bad := if isColl then s.checkColl p bs else s.checkForage p bs
      match bad with
      | some b => s.setCell n { c with portQ := t, refusal := some (BitVec.ofNat 4 b.cause, pc) }
      | none =>
        let s1 := s.setCell n { c with portQ := t }
        if isColl then s1.acceptColl p (.cell n pc) bs else s1.acceptForage p (.cell n pc) bs

/-- Take what the queue of cell `n` holds, in order, while its engines have places. A refusal that has not reached the
cell holds the rest. -/
def State.acceptPort (s : State) (n : Nat) : State :=
  (List.range portDepth).foldl (fun s _ => if (s.cell n).refusal.isSome then s else s.acceptFirst n) s

/-- Take what every cell has queued, in ascending cell number (log 34). -/
def State.acceptPorts (s : State) : State :=
  foldS State.acceptPort s ((s.cells.filter fun e => !e.2.portQ.isEmpty).map Prod.fst)

/-- coll and forg: read a descriptor of the own cell memory and queue it for its engine. -/
def handOver (n : Nat) (f : F5) (isColl : Bool) (s : State) : Host.Outcome State Fault Refusal :=
  let k := s.cell n
  let a := (k.arch.sreg f.sa.toNat).toNat
  let len := (k.arch.operand f).toNat
  if s.executes n f.g (legalF5 true true false false true f) && len != 0 && decide (portDepth ≤ k.portQ.length) then
    .refused .cellNotIssuing
  else
    issueTouch n f.g (legalF5 true true false false true f) (if len = 0 then [] else [(a, len)]) s fun s =>
      if len = 0 then .done (s.advancePc n)
      else if 512 < len ∨ len % 64 ≠ 0 then .fault 5
      else
        match ownCheck n 64 a len with
        | some e => .fault e
        | none =>
          let d : PortItem := .desc isColl (s.memBytes a len) k.arch.pc
          .done (((s.setCell n { s.cell n with portQ := k.portQ ++ [d] }).advancePc n).acceptPort n)

/-- FORG_REFUSAL (R237): the refusal reaches the cell, which faults at its next instruction boundary, with fault_pc
the pc of the forg or coll. Descriptors handed over after it are taken as before; a cell that has faulted already
keeps its first fault. -/
def execForgRefusal (c : Nat) (s : State) : Host.Outcome State Fault Refusal :=
  whenLive s <| withItem (s.cell c).refusal fun r =>
    let s1 := s.setCell c { s.cell c with refusal := none }
    .next ((if (s.cell c).run = .faulted then s1 else s1.programFaultAt c r.1.toNat r.2).acceptPort c)

end Sys2Proof.Machine
end

