-- ==== Sys2Proof/Machine/Forager.lean ====
section
/-!
DEFINITION. The forager classes and the completion of a descriptor (R256-R271, R279).
-/

namespace Sys2Proof.Machine

/-- The descriptor with an identifier. -/
def State.fdesc (s : State) (id : Nat) : Option FDesc := s.fdescs.find? (fun d => d.id == id)

/-- Replace the descriptor with the identifier of `d`. -/
def State.setFdesc (s : State) (d : FDesc) : State :=
  { s with fdescs := s.fdescs.map fun e => if e.id == d.id then d else e }

/-- Two issuers are one: a cell, or a command ring (R259). -/
def State.sameIssuer (s : State) (a b : Issuer) : Bool :=
  match a, b with
  | .cell m _, .cell n _ => m == n
  | .cmd i, .cmd j =>
    match s.cmd i, s.cmd j with
    | some c, some e => c.part == e.part && c.ring == e.ring
    | _, _ => i == j
  | _, _ => false

/-- An earlier descriptor of the same issuer has not started, or uses one of the foragers and is not complete (R259). -/
def State.behind (s : State) (d : FDesc) : Bool :=
  (s.fdescs.takeWhile (fun e => e.id != d.id)).any fun e =>
    s.sameIssuer e.issuer d.issuer &&
      (e.phase == .placed || e.phase == .queued || e.frgs.any (fun f => d.frgs.contains f))

/-- A descriptor needs a lost pair of foragers, or a device that is retired with no reserve (R216, R279). -/
def State.stranded (s : State) (x : FDesc) : Bool :=
  s.pairLost x || (touched x.raw.toNat).any fun r => s.goneIn r.1 r.2

/-- A forager copies to the lining before other work: it has a frozen granule, a staging buffer, and budget left (R277). -/
def State.copyDue (s : State) (d : Nat) : Bool :=
  let p := s.partOfDev d
  !(s.frg d).frozen.clear && decide (4096 ≤ (s.frg d).share) && s.stagingFree p d && (s.epochOf p).state == 3 && !s.asleep p

/-- A descriptor may start: it is in the queue of each of its foragers, they run no other, its partition is not
stopped at a cut, every earlier one it follows is complete, no write that waits for a staging buffer and no copy to the lining goes
before, and no operand waits for a repair (R198, R235, R259, R277, R279, R504, R512). -/
def State.canStart (s : State) (d : FDesc) : Bool :=
  d.phase == .queued && d.frgs.all (fun f => (s.frg f).running.isNone && !s.copyDue f && !s.writeParked f) && !s.behind d && !s.stranded d &&
    !(s.epochOf d.part).stopped && !(dranges d.raw.toNat).any fun r => s.lostIn r.1 r.2.1

/-- Put a performed descriptor on its foragers, whose scratch contents are undefined at its start (R231, log 1). -/
def State.startOn (s : State) (d : FDesc) : State :=
  foldS (fun s f =>
    let x := s.frg f
    ({ s with freeCtr := s.freeCtr + 1 }).setFrg f { x with
      queue := x.queue.filter (fun i => i != d.id), running := some d.id, scratch := Config.freeValue s.freeCtr }) s d.frgs

/-- What the class of a descriptor writes and records (R262-R271). `free` gives the bytes of a `SCATTER` work buffer (log 1). -/
def State.classDone (s : State) (d free : Nat) : Done :=
  if dcount d = 0 then {}
  else
    match dclass d with
    | 1 => doStream s d
    | 2 => doReduce s d
    | 3 => doGather s d
    | 4 => doScatter s d free
    | 5 => doHistogram s d
    | 6 => doCompact s d
    | 7 => doTranspose s d
    | 8 => doCsr s d
    | 9 => { out := [((dslot d 3).base, s.memBytes (dslot d 0).base (dcount d))] }
    | _ => doFill d

/-- Perform a write of a descriptor: of the local map, or of a far window (R271). -/
def State.classWrite (s : State) (x : FDesc) (a : Nat) (bs : List Byte) : State :=
  let eng := (Engine.forager (ddevice x.raw.toNat)).key
  if a / 2 ^ 60 = 0 then s.engineWrite (.fdesc x.id) eng a bs
  else match s.reach x.part .data true true a bs.length with
    | .ok h => s.deliver (.fdesc x.id) eng x.part h bs
    | _ => s

/-- The ranges of the local map that a descriptor names: its operands, and the vectors of a `CSR` (R238, R269). -/
def readRanges (d : Nat) : List (Nat × Nat) :=
  (((usedSlots d).map fun i => ((dslot d i).base, (dslot d i).extent)) ++
    if dclass d = 8 then [(dparam d 0, dparam d 1)] else []).filter fun r => r.1 / 2 ^ 60 == 0

/-- Perform a descriptor of a class: its writes, and what its result record will say. A count of 0 moves nothing
(R238). -/
def runClass (id cls : Nat) (s : State) : Host.Outcome State Fault Refusal :=
  whenLive s <| withItem (s.fdesc id) fun x =>
    let d := x.raw.toNat
    whenDue (dclass d == cls && s.canStart x) <| withRecall (readRanges d) s <|
      let r := s.classDone d (Config.freeValue s.freeCtr)
      let s1 := foldS (fun s w => s.classWrite x w.1 w.2) { s with freeCtr := s.freeCtr + 1 } r.out
      let s2 := s1.setFdesc { x with
        phase := .performed, flags := BitVec.ofNat 7 r.flags, count1 := BitVec.ofNat 64 r.count1,
        count2 := BitVec.ofNat 64 r.count2, value := BitVec.ofNat 64 r.value, image := BitVec.ofNat 640 r.image }
      .next ((s2.startOn x).fillQueues.acceptPorts)

/-- STREAM (R262). -/
def execStream (id : Nat) (s : State) : Host.Outcome State Fault Refusal := runClass id 1 s

/-- GATHER (R264). -/
def execGather (id : Nat) (s : State) : Host.Outcome State Fault Refusal := runClass id 3 s

/-- HISTOGRAM (R266). -/
def execHistogram (id : Nat) (s : State) : Host.Outcome State Fault Refusal := runClass id 5 s

/-- COMPACT (R267). -/
def execCompact (id : Nat) (s : State) : Host.Outcome State Fault Refusal := runClass id 6 s

/-- TRANSPOSE (R268). -/
def execTranspose (id : Nat) (s : State) : Host.Outcome State Fault Refusal := runClass id 7 s

/-- COPY (R271): its destination may lie in a far window. -/
def execCopy (id : Nat) (s : State) : Host.Outcome State Fault Refusal := runClass id 9 s

/-- FILL (R271). -/
def execFill (id : Nat) (s : State) : Host.Outcome State Fault Refusal := runClass id 10 s

/-! ### A descriptor that is cut short (R246, R261) -/

/-- The lead operand of a descriptor: y of a `CSR`, slot 3, or slot 0 where slot 3 is unused (R246). -/
def leadRange (d : Nat) : Nat × Nat :=
  if dclass d = 8 then (dparam d 0, dparam d 1)
  else
    let t := dslot d (if slotUsed d 3 then 3 else 0)
    (t.base, t.extent)

/-- The forager that does the element whose lead operand lies at `a`: in `HOME` placement the named device's (R245); in `STRIPED` that of
the device which holds the granule, or its proxy (R246, R278, R280), and the lead device's for what lies elsewhere. -/
def State.ownerAt (s : State) (d a : Nat) : Nat :=
  let home := dfield d 0 8 2 == 0 && !(s.dev (ddevice d)).retired
  s.worker (if !home && a / 2 ^ 60 == 0 && isClose a then (s.place4K a).1 else ddevice d)

/-- The writes of a descriptor cut into pieces of one granule of `g` bytes. -/
def Done.pieces (r : Done) (g : Nat) : List (Nat × List Byte) :=
  r.out.flatMap fun w => (cuts g w.1 w.2.length).map fun c => (w.1 + c.1, (w.2.drop c.1).take c.2)

/-- Abandon a descriptor that may be in progress (R261): each forager has finished a prefix of its share, in ascending order of
lead-operand granule; elsewhere each 32-byte granule is written or not. How far each has come is a free value (log 33). -/
def State.cutShort (s : State) (x : FDesc) : State :=
  let d := x.raw.toNat
  let k := s.freeCtr
  let r := s.classDone d (Config.freeValue k)
  let (lo, len) := leadRange d
  let lead := fun (w : Nat × List Byte) => decide (lo ≤ w.1) && decide (w.1 < lo + len)
  let mine := (r.pieces 4096).filter lead
  let granules := fun f => ((mine.map fun w => w.1 / 4096).filter fun g => s.ownerAt d (4096 * g) == f).eraseDups.mergeSort (· ≤ ·)
  let done := (List.range 32).flatMap fun f =>
    let l := granules f
    l.take (Config.freeValue (k + 1 + f) % (l.length + 1))
  let rest := (((r.pieces 32).filter fun w => !lead w).zipIdx.filter fun e => Config.freeValue (k + 33 + e.2) % 2 == 1).map Prod.fst
  let n := (r.pieces 32).length
  foldS (fun s w => s.classWrite x w.1 w.2) { s with freeCtr := k + 33 + n }
    ((mine.filter fun w => done.contains (w.1 / 4096)) ++ rest)

/-! ### Completion (R257, R258, R261) -/

/-- The 128 bytes of a result record (R257). -/
def resultBytes (x : FDesc) : List Byte :=
  leBytes 8 x.flags.toNat ++ leBytes 8 x.count1.toNat ++ leBytes 8 x.count2.toNat ++ leBytes 8 x.value.toNat ++
    leBytes 16 0 ++ leBytes 80 x.image.toNat

/-- Take a descriptor off its foragers. -/
def State.leave (s : State) (x : FDesc) : State :=
  let s1 := foldS (fun s f =>
    let y := s.frg f
    s.setFrg f { y with queue := y.queue.filter (fun i => i != x.id),
                        running := if y.running = some x.id then none else y.running }) s x.frgs
  { s1 with fdescs := s1.fdescs.filter fun e => e.id != x.id }

/-- The `FORAGE` command of a descriptor takes a status. -/
def State.endForage (s : State) (x : FDesc) (status : Nat) : State :=
  match x.issuer with
  | .cmd id => match s.cmd id with
    | some c => s.setCmd { c with phase := .finished, status := if c.status = 0 then status else c.status }
    | none => s
  | .cell _ _ => s

/-- A descriptor is complete: the done object is signalled after everything it has written, and it leaves its foragers (R258). -/
def State.finishForage (s : State) (x : FDesc) : State :=
  let d := x.raw.toNat
  let done := dfield d 0x20 0 64
  let cmd := match x.issuer with | .cmd i => some i | .cell n _ => (s.cell n).cmd
  let s1 := if done = 0 then s
    else s.issueSig (.forager (ddevice d)) (.fdesc x.id) x.part cmd 0 (s.syncRef x.part done) false 1
  let s2 := foldS (fun s f =>
    s.setFrg f { s.frg f with completed := min ((s.frg f).completed + 1) (2 ^ 32 - 1) }) s1 x.frgs
  ((s2.leave x).endForage x 0).fillQueues.acceptPorts

/-- FORAGER_DESCRIPTOR_COMPLETE (R257, R258): every write has been performed; the result record is written, and once that has been
performed too the done object is signalled. The row is taken again where the record must wait. A quenched descriptor writes no record
and signals nothing (R261); one whose foragers or device are lost with no substitution to come ends with `ABORTED` (R216, R279). -/
def execForagerDescriptorComplete (id : Nat) (s : State) : Host.Outcome State Fault Refusal :=
  whenLive s <| withItem (s.fdesc id) fun x =>
    if x.phase = .quenched then
      whenDue (!s.outstanding (.fdesc id)) <| .next (((s.leave x).endForage x 4).fillQueues.acceptPorts)
    else if x.phase = .recorded then whenDue (!s.outstanding (.fdesc id)) <| .next (s.finishForage x)
    else if s.stranded x && x.phase != .performed then
      whenFree (!s.substitutes x.part) s <| .next (((s.leave x).endForage x 4).fillQueues.acceptPorts)
    else
      whenDue (x.phase == .performed && !s.outstanding (.fdesc id)) <|
        let d := x.raw.toNat
        let rec_ := dfield d 0x28 0 64
        let s1 := if rec_ = 0 then s
          else s.engineWrite (.fdesc id) (Engine.forager (ddevice d)).key rec_ (resultBytes x)
        .next (if s1.outstanding (.fdesc id) then s1.setFdesc { x with phase := .recorded } else s1.finishForage x)

end Sys2Proof.Machine
end

