-- ==== Sys2Proof/Machine/Rows.lean ====
section
/-!
DEFINITION. Rows of a device: sparing, and lines in error that have been handled (R204, R211-R213).
-/

namespace Sys2Proof.Machine

/-- One number for a row of a device, as R369 packs channel, bank and row. -/
def LinePlace.rowKey (l : LinePlace) : Nat := l.chan + 4 * l.bank + 64 * l.row

/-- The row of a device line. -/
def rowOf (line : Nat) : Nat := (linePlace line).rowKey

/-- The bank group of a row, with its channel. -/
def groupOf (row : Nat) : Nat := row % 4 + 4 * (row / 4 % 16 / 4)

/-- 24 h in reference ticks. -/
def dayTicks : Nat := 8640000000000

/-- A time lies in the last 24 h. -/
def State.recent (s : State) (t : Word) : Bool := decide ((s.now - t).toNat ≤ dayTicks)

/-- Spare a row (R212): the next spare row of its bank group, with its report (log 56); a row with none waits for its
device's retirement (R213). -/
def State.spareRow (s : State) (d row : Nat) : State :=
  let v := s.dev d
  let used := (v.spared.filter fun e => groupOf e.1 == groupOf row).length
  if used < 16 then
    let s1 := s.setDev d { v with
      spared := v.spared ++ [(row, used)], corr := v.corr.filter fun e => e.1 != row }
    (s1.bump 50 1).retire (s.partOfDev d) 3 1 d (d + 32 * row)
      (d + 32 * (row % 64 + 64 * (49152 + used)))
  else s.setDev d { v with need := v.need.filter (fun r => r != row) ++ [row] }

/-- The uncorrectable errors of these lines have been handled where no line of their row is lost any more: the row is spared
(R211). -/
def State.spareHandled (s : State) (d : Nat) (lines : List Nat) : State :=
  foldS (fun s r => s.spareRow d r) s
    ((lines.map rowOf).eraseDups.filter fun r => !(s.dev d).lost.any fun l => rowOf l == r)

/-- Lost lines of a device are whole again, or given up. -/
def State.endLost (s : State) (d : Nat) (p : Nat → Bool) : State :=
  let v := s.dev d
  (s.setDev d { v with lost := v.lost.filter fun l => !p l }).spareHandled d (v.lost.filter p)

end Sys2Proof.Machine
end

