-- ==== Sys2Proof/Machine/Package.lean ====
section
/-!
DEFINITION. The package: routes between dies, seams, droop, the reference, standby power, the zero-fill and bank
starvation (R14-R35, R43, R44, R50, R466, R491).
-/

namespace Sys2Proof.Machine

/-! ### Routes (R14, R15, R18) -/

/-- The row of a C-die. -/
def dieRow (d : Nat) : Nat := d / 4

/-- The spine die of a column: Q0, Q1, Q2, H. -/
def spineDie (col : Nat) : Nat := 16 + col

/-- A die of the spine. -/
def isSpine (d : Nat) : Bool := decide (16 ≤ d)

/-- The C-die through which a C-die or M-die is reached. -/
def ownCDie (d : Nat) : Nat := if d < 8 then d else d - 8

/-- The place of M-die `m` on the ring, clockwise from M0. -/
def ringPos (m : Nat) : Nat := if m < 4 then m else 11 - m

/-- The M-die at a place of the ring. -/
def ringAt (p : Nat) : Nat := if p < 4 then p else 11 - p

/-- The next die on the way around the M ring: the shorter way, clockwise when the two are equal. -/
def ringNext (m t : Nat) : Nat :=
  let d := (ringPos t + 8 - ringPos m) % 8
  if d ≤ 4 then ringAt ((ringPos m + 1) % 8) else ringAt ((ringPos m + 7) % 8)

/-- The next C-die of a row on the way to a column. -/
def rowNext (c col : Nat) : Nat := if dieCol c < col then c + 1 else c - 1

/-- The next die on the route of a packet at die `d` for die `t`, `d ≠ t` (R18). -/
def nextDie (d t : Nat) : Nat :=
  if isSpine d then
    if isSpine t then
      if d = 19 ∨ t = 19 then t else if d < t then d + 1 else d - 1
    else 4 * dieRow (ownCDie t) + (d - 16)
  else if 8 ≤ d then
    if 8 ≤ t ∧ t < 16 then 8 + ringNext (d - 8) (t - 8) else d - 8
  else if isSpine t then
    if dieCol d = t - 16 then t else rowNext d (t - 16)
  else
    let u := ownCDie t
    if u = d then t
    else if dieRow d = dieRow u then rowNext d (dieCol u)
    else spineDie (dieCol d)

/-- The die of a place of the package: dies 0-19, and after them the other clock islands of R24: combs 20-83, foragers 84-115 on
their M-dies, ports 116-133 on their Q-dies, and the H-die's host, command and Balden islands 134-136 (R24, R27, R71). -/
def routerDie (n : Nat) : Nat :=
  if n < 20 then n else if n < 84 then (n - 20) / 8 else if n < 116 then 8 + (n - 84) / 4 else if n < 134 then 16 + (n - 116) / 6
  else 19

/-- The next comb of a die's 2 × 4 mesh on the way to another comb of it: along the row first, then along the column; comb `k`
sits at column `k` mod 4 and row `k` ÷ 4 (R71). -/
def meshNext (k u : Nat) : Nat :=
  if k % 4 < u % 4 then k + 1 else if u % 4 < k % 4 then k - 1 else if k / 4 < u / 4 then k + 4 else k - 4

/-- The next place on the route of a packet at `n` for `t`, `n ≠ t` (R18, R71): an island other than a comb has its die's router alone. -/
def nextRouter (n t : Nat) : Nat :=
  if 84 ≤ n then routerDie n
  else if 20 ≤ n then
    if 20 ≤ t ∧ t < 84 ∧ routerDie n = routerDie t then 20 + 8 * routerDie n + meshNext ((n - 20) % 8) ((t - 20) % 8) else routerDie n
  else if routerDie t = n then t else nextDie n (routerDie t)

/-- The key of the crossing from one router to the next. -/
def seamKey (frm at_ : Nat) : Nat := 256 * frm + at_

/-- The packets that wait behind a seam or a comb link in one direction, in their order. -/
def State.seam (s : State) (frm at_ : Nat) : List SeamPkt := Tab.get (fun _ => []) s.seams (seamKey frm at_)

/-- Replace the packets on a seam. -/
def State.setSeam (s : State) (frm at_ : Nat) (l : List SeamPkt) : State :=
  { s with seams := Tab.set (fun _ => []) s.seams (seamKey frm at_) l }

/-- Two packets take the same buffer of a crossing: one class, and on the same side of the first spine seam (R16, R19, R68). -/
def sameBuffer (p q : SeamPkt) : Bool := p.cls == q.cls && p.spine == q.spine

/-- A packet as it is on its next seam: one that uses a seam with an end in the spine is in the second set of buffers from then
on (R19). -/
def seamAfter (p : SeamPkt) (at_ n : Nat) : SeamPkt :=
  { p with spine := p.spine || (decide (at_ < 20) && decide (n < 20) && (isSpine at_ || isSpine n)) }

/-- A spine seam with an end at a Q-die: of each of its buffers a share of one packet is for escape packets only (R396). -/
def keepsShare (at_ n : Nat) : Bool :=
  decide (at_ < 20) && decide (n < 20) && ((isSpine at_ && at_ != 19) || (isSpine n && n != 19))

/-- The places of a buffer that a packet may take: a FIFO of 8 entries (R27), but for the share of R396. -/
def placesFor (p : SeamPkt) (at_ n : Nat) : Nat := if keepsShare at_ n && !p.esc then 7 else 8

/-- A packet has a place in a buffer: a place is free, and outside the share one is (R27, R396). -/
def hasPlace (p : SeamPkt) (at_ n : Nat) (l : List SeamPkt) : Bool :=
  decide (l.length < 8) && decide ((l.filter fun q => p.esc || !q.esc).length < placesFor p at_ n)

/-- The next crossing can take a packet: its buffer has a place, or the packet is at its router. A full one holds the sender
(R27). -/
def State.crosses (s : State) (at_ : Nat) (p : SeamPkt) : Bool :=
  let n := nextRouter at_ p.dst
  p.dst == at_ || hasPlace p at_ n ((s.seam at_ n).filter (sameBuffer (seamAfter p at_ n)))

/-- Forward a packet at a router onto the next seam or comb link of its route, or deliver it (R18, R71). -/
def State.forward (s : State) (at_ : Nat) (p : SeamPkt) : State :=
  if p.dst = at_ then s
  else s.setSeam at_ (nextRouter at_ p.dst) (s.seam at_ (nextRouter at_ p.dst) ++ [seamAfter p at_ (nextRouter at_ p.dst)])

/-- The packets that head their buffers and whose next crossing has room. Where a crossing keeps a share for escape packets, they do
not wait behind the others (R396, R419). -/
def State.movable (s : State) (frm at_ : Nat) (l : List SeamPkt) : List SeamPkt :=
  let ahead := fun (p q : SeamPkt) => sameBuffer p q && (!keepsShare frm at_ || p.esc == q.esc)
  l.filter fun p => s.crosses at_ p && l.find? (ahead p) == some p

/-- The packet that a router serves next from a crossing: a CTL packet with strict priority, or else the oldest that can move
(R16, R68, log 21). -/
def State.seamPick (s : State) (frm at_ : Nat) : Option SeamPkt :=
  let l := s.movable frm at_ (s.seam frm at_)
  match l.find? (fun p => p.cls == .ctl) with
  | some p => some p
  | none => l.head?

/-- SEAM_PACKET_ARRIVAL (R16-R19, R27, R68, R71, R396): a packet injected at its own router, or the next packet of a crossing, is
forwarded on its fixed route. A packet that fails the seam's CRC stays on the seam, which resends it in order (R17). -/
def execSeamPacketArrival (frm at_ : Nat) (inj : Option SeamPkt) (crcOk : Bool) (s : State) :
    Host.Outcome State Fault Refusal :=
  whenFormed (decide (frm < 137) && decide (at_ < 137) && inj.all (fun p => decide (p.dst < 137))) <|
  whenLive s <|
    match inj with
    | some p => whenDue (frm == at_ && !p.spine && s.crosses at_ p) <| .next (s.forward at_ p)
    | none => withItem (s.seamPick frm at_) fun p =>
      if crcOk then .next ((s.setSeam frm at_ ((s.seam frm at_).erase p)).forward at_ p) else .next s

/-! ### Droop (R26, R466) -/

/-- The island of the Balden complex, which runs on standby power (R24). Islands are numbered in the order of the table of R24
(log 119): combs 0-63, foragers 64-95, ports 96-113, C-die routers 114-121, M-die routers 122-129, Q-die routers 130-132, and the
H-die's host, command, fabric and Balden islands 133-136. -/
def baldenIsland : Nat := 136

/-- A clock island runs: with the main domain, or on standby power. -/
def State.islandOn (s : State) (island : Nat) : Bool := s.live || (s.boot.standby && island == baldenIsland)

/-- A droop detector of one of the comb islands of C-die `d` is tripped. -/
def State.dieDroop (s : State) (d : Nat) : Bool := s.boot.droop.any fun i => decide (i / 8 = d)

/-- Apply the rises that wait on C-die `d` and that neither voltage nor droop holds back, nor the loss of the reference (R29,
R465, R466). -/
def State.applyRises (s : State) (d : Nat) : State :=
  foldS (fun s i =>
    let c := 8 * d + i
    let r := Tab.get (fun _ => 0) s.power.rise c
    if r ≠ 0 ∧ !s.boot.oscHeld ∧ r ≤ Tab.get (fun _ => 0) s.power.rail d ∧ !s.boot.droop.contains c then
      { s with power := { s.power with
          opp := Tab.set (fun _ => 0) s.power.opp c r, rise := Tab.set (fun _ => 0) s.power.rise c 0 } }
    else s) s (List.range 8)

/-- DROOP_TRIP (R26): the island's detector trips and its clock is stretched. -/
def execDroopTrip (island : Nat) (s : State) : Host.Outcome State Fault Refusal :=
  whenFormed (decide (island < 137)) <|
  whenStandby s <| whenDue (s.islandOn island && !s.boot.droop.contains island) <|
    .next { s with boot := { s.boot with droop := s.boot.droop ++ [island] } }

/-- DROOP_CLEAR (R26, R466): the detector has been clear for 2 µs; a rise it held back is applied. -/
def execDroopClear (island : Nat) (s : State) : Host.Outcome State Fault Refusal :=
  whenFormed (decide (island < 137)) <|
  whenStandby s <| whenDue (s.islandOn island && s.boot.droop.contains island) <|
    let t := { s with boot := { s.boot with droop := s.boot.droop.filter (fun i => i != island) } }
    .next (if island < 64 then t.applyRises (island / 8) else t)

/-! ### Reference and standby power (R29, R43, R44) -/

/-- REFERENCE_LOSS (R29): islands hold their settings; intake, injection and heartbeats stop; event 1, and the
service light. -/
def execReferenceLoss (s : State) : Host.Outcome State Fault Refusal :=
  whenStandby s <| whenDue s.boot.refOk <|
    let t := { s with
      boot := { s.boot with refOk := false, oscHeld := s.boot.mainOn },
      swarm := { s.swarm with hbStopped := s.swarm.hbStopped || s.boot.mainOn } }
    .next ((t.mEvent 1 0).lightService .refLost)

/-- STANDBY_PRESENT (R43, R636, R670): the Balden complex starts, the straps are sampled, counter 63 starts at 0. -/
def execStandbyPresent (straps : BitVec 3) (s : State) : Host.Outcome State Fault Refusal :=
  whenDue (!s.boot.standby) <|
    .next { s with
      boot := { s.boot with standby := true },
      mgmt := { s.mgmt with straps := straps },
      dbg := { s.dbg with aon := Tab.set (fun _ => 0) s.dbg.aon 63 0 } }

/-- STANDBY_LOSS (R44, R588): the point-of-load phases shut down, and the module is out of service until standby
returns and PWR_EN is asserted again. -/
def execStandbyLoss (s : State) : Host.Outcome State Fault Refusal :=
  whenStandby s <|
    let t := s.standbyOff
    .next { t with boot := { t.boot with oos := s.boot.mainOn } }

/-! ### Zero-fill (R35, R199, R207) -/

/-- Remove the bytes of `mem` in `[lo, hi)`: they read as 0. -/
def State.zeroRange (s : State) (lo hi : Nat) : State :=
  { s with mem := s.mem.filter fun e => decide (e.1 < lo) || decide (hi ≤ e.1) }

/-- Fill a partition's slice of close memory with zeros: every line is valid afterwards, and every page has its stamp (R199). -/
def State.zeroSlice (s : State) (p : Nat) : State :=
  foldS (fun s i => (s.endLost (p * s.devsPer + i) fun _ => true).writeStamps (p * s.devsPer + i))
    (s.zeroRange (s.sliceStart p) (s.sliceStart p + s.sliceBytes)) (List.range s.devsPer)

/-- ZERO_FILL_COMPLETE (R35, R207): the fill that is due ends and the functions may report ready. Entry 4 of the list
stands for all close and cell memory, entries 0-3 for a partition's close memory. -/
def execZeroFillComplete (s : State) : Host.Outcome State Fault Refusal :=
  whenLive s <| whenDue (!s.boot.zeroFill.isEmpty) <|
    let ps := if s.boot.zeroFill.contains 4 then List.range s.parts else s.boot.zeroFill
    let t := foldS State.zeroSlice s ps
    let t := if s.boot.zeroFill.contains 4 then { t.zeroRange cellBase (cellBase + 512 * cellBytes) with flips := [] } else t
    .next { t with boot := { t.boot with
      zeroFill := [], ready := t.boot.ready ++ ps.filter (fun p => !t.boot.ready.contains p && !t.inReset p) } }

/-! ### Bank starvation (R50) -/

/-- The number of a requester of a bank, from 1. -/
def userNum : BankUser → Nat
  | .matrix => 1
  | .vector => 2
  | .tile => 3
  | .scalar => 4
  | .router => 5

/-- The bank of a cell-memory offset, the line in the bank, and the byte in the line (R48). -/
def bankOf (o : Nat) : Nat × Nat × Nat := (bits o 6 5, bits o 11 11, bits o 0 6)

/-- Bank `b` of logical cell `n`. -/
def State.bank (s : State) (n b : Nat) : Bank := Tab.get (fun _ => Bank.reset) s.starve (32 * n + b)

/-- The requester that a bank serves in a clock (R50): one refused for 16 consecutive clocks first, and then the first in the
fixed order. Where several have been refused so long, the first of them in that order (log 22). -/
def Bank.pick (b : Bank) (wants : List Nat) : Option Nat :=
  let order := (List.range 5).map (· + 1)
  match order.find? fun u => wants.contains u && decide (16 ≤ b.refused.getD (u - 1) 0) with
  | some u => some u
  | none => order.find? fun u => wants.contains u

/-- A clock of a bank: the requester picked is served; another that wants the bank has been refused once more; one that does not
starts anew. -/
def Bank.clock (b : Bank) (wants : List Nat) : Bank :=
  match b.pick wants with
  | none => b
  | some u =>
    { refused := (List.range 5).map fun i => if wants.contains (i + 1) ∧ i + 1 ≠ u then b.refused.getD i 0 + 1 else 0
      served := u }

/-- Clocks in which the same requesters want a bank. -/
def Bank.clocks (b : Bank) (wants : List Nat) : Nat → Bank
  | 0 => b
  | n + 1 => (b.clock wants).clocks wants n

/-- BANK_STARVATION (R48, R50, R639, R640): for a number of clocks, up to the 17 in which a starved requester is served, the
requesters named want the bank of a cell-memory offset. A clock in which one of them was refused is counted. -/
def execBankStarvation (cell off : Nat) (w : BankWait) (s : State) : Host.Outcome State Fault Refusal :=
  whenFormed (decide (cell < 512) && decide (off < cellBytes) && decide (w.clocks ≤ 17) && !w.users.isEmpty) <|
  whenLive s <|
    let b := (bankOf off).1
    let wants := (w.users.map userNum).eraseDups
    let n := if wants.length ≤ 1 then 0 else w.clocks
    let t := (s.bumpCell (s.remapOf cell).phys 3 n).bumpComb (cell / 8) 5 n
    .next { t with starve := Tab.set (fun _ => Bank.reset) t.starve (32 * cell + b) ((s.bank cell b).clocks wants w.clocks) }

end Sys2Proof.Machine
end

