-- ==== Sys2Proof/Machine/SaveArea.lean ====
section
/-!
DEFINITION. The image of a logical cell in the save area of its pair (R81, R82, R689).
-/

namespace Sys2Proof.Machine

/-- The architected state of a cell in a save area (R689): each item at a multiple of 32 bytes. -/
def archBytes (a : Arch) : List Byte :=
  let acc := (List.range 4).flatMap fun n => (List.finRange 16384).map fun i =>
    let j := (Config.accOrder n i).val
    BitVec.ofNat 8 ((a.accW n (j / 4)).toNat / 2 ^ (8 * (j % 4)))
  (List.range 32).flatMap (fun i => leBytes 8 (a.sreg i).toNat) ++
    leBytes 32 ((List.range 8).foldl (fun x i => x + if a.preg i then 2 ^ i else 0) 0) ++ leBytes 32 a.pc.toNat ++
    (List.range 32).flatMap (fun i => leBytes 256 (a.vreg i).toNat) ++
    (List.range 16).flatMap (fun i => leBytes 80 (a.ereg i).toNat) ++ acc ++
    (List.range 16).flatMap (fun i => leBytes 32 (a.treg i).toNat) ++ leBytes 32 a.rmode.toNat ++
    leBytes 32 a.seed.toNat ++ leBytes 32 a.amode.toNat ++ leBytes 32 a.xstat.toNat ++ leBytes 5952 0

/-- The instruction memory of a cell, as a save area holds it (R81). -/
def Cell.code (k : Cell) : List Byte := (List.range 16384).flatMap fun i => leBytes 8 (Tab.get (fun _ => 0) k.imem i).toNat

/-- The image of logical cell `n` is put into the save area of its pair by a switch, or a move of the areas (R81). -/
def State.saveNow (s : State) (n : Nat) : State :=
  let k := s.cell n
  ((s.savePoke n 0 (s.memBytes (cellMem n) cellBytes)).savePoke n 0x400000 k.code).savePoke n 0x420000 (archBytes k.arch)

/-- The instruction memory and the architected state of logical cell `n` are written to the save area of its pair, through requests
(R81, R93). -/
def State.saveState (s : State) (owner : Owner) (n : Nat) : State :=
  let k := s.cell n
  let eng := (Engine.mover (n / 8)).key
  (s.saveWrite owner eng n 0x400000 k.code).saveWrite owner eng n 0x420000 (archBytes k.arch)

/-- The image of logical cell `n` is written to the save area of its pair, through requests (R81, R226). -/
def State.saveCell (s : State) (owner : Owner) (n : Nat) : State :=
  (s.saveWrite owner (Engine.mover (n / 8)).key n 0 (s.memBytes (cellMem n) cellBytes)).saveState owner n

/-- A write to the save area of the pair of logical cell `n` is under way. -/
def State.areaBusy (s : State) (n : Nat) : Bool :=
  match s.savePlace n 0 with
  | some (o, _) => s.far.any fun r => r.wr && decide (r.addr < hostKey 0) && r.part == s.partOfCell n && decide (o ≤ r.off) &&
      decide (r.off < o + saveBytes)
  | none => false

/-- The architected state that the bytes of a save area hold (R689): what `archBytes` has written. -/
def archOf (bs : List Byte) : Arch :=
  let at_ := fun o n => leNat ((bs.drop o).take n)
  let ints := fun (n o stride w : Nat) => (List.range n).map fun i => (i, at_ (o + stride * i) w)
  let a0 := { Arch.reset with
    p := BitVec.ofNat 8 (at_ 256 32), pc := BitVec.ofNat 14 (at_ 288 32), rmode := BitVec.ofNat 3 (at_ 75840 32),
    seed := BitVec.ofNat 64 (at_ 75872 32), amode := BitVec.ofNat 2 (at_ 75904 32), xstat := BitVec.ofNat 32 (at_ 75936 32) }
  let a1 := (ints 32 0 8 8).foldl (fun a e => a.setS e.1 (BitVec.ofNat 64 e.2)) a0
  let a2 := (ints 32 320 256 256).foldl (fun a e => a.setV e.1 (BitVec.ofNat 2048 e.2)) a1
  let a3 := (ints 16 8512 80 80).foldl (fun a e => a.setE e.1 (BitVec.ofNat 640 e.2)) a2
  let a4 := (List.range 4).foldl (fun a n => (List.finRange 16384).foldl (fun a i =>
    let j := (Config.accOrder n i).val
    let w := (a.accW n (j / 4)).toNat
    a.setAccW n (j / 4) (BitVec.ofNat 32 (setBits w (8 * (j % 4)) 8 (at_ (9792 + 16384 * n + i.val) 1)))) a) a3
  (ints 16 75328 32 32).foldl (fun a e => a.setT e.1 (BitVec.ofNat 256 e.2)) a4

/-- A logical cell takes what the save area of its pair holds: its memory, its instruction memory and its architected state
(R81). Limbs of exact accumulators come from an image, so their residues are computed anew (R179). The bytes are counted (R638). -/
def State.restoreCell (s : State) (n : Nat) : State :=
  let code := s.saveRead n 0x400000 0x20000
  let k := s.cell n
  let s1 := (s.pokeMem (cellMem n) (s.saveRead n 0 cellBytes)).freshen (cellMem n) cellBytes
  ((s1.setCell n { k with
    arch := archOf (s.saveRead n 0x420000 0x14000)
    imem := Tab.setAll (fun _ => 0) [] ((List.range 16384).map fun i =>
      (i, BitVec.ofNat 64 (leNat ((code.drop (8 * i)).take 8)))) }).bump 59 (cellBytes + 0x34000)).bumpPart
    (s.partOfCell n) 16 (cellBytes + 0x34000)

end Sys2Proof.Machine
end

