-- ==== Sys2Proof/Machine/Command.lean ====
section
/-!
DEFINITION. Commands: the descriptor, the checks of R362, operating points that commands request, and quenching (R90,
R96, R140, R261, R355-R363, R463).
-/

namespace Sys2Proof.Machine

/-! ### The descriptor (R355, R356) -/

/-- The descriptor of a command as a number. -/
def Cmd.d (c : Cmd) : Nat := c.desc.toNat

/-- The class code. -/
def kclass (d : Nat) : Nat := dfield d 0 0 8

/-- nwait. -/
def knwait (d : Nat) : Nat := dfield d 0 12 3

/-- nsig. -/
def knsig (d : Nat) : Nat := dfield d 0 15 2

/-- The comb mask. -/
def kmask (d : Nat) : Nat := dfield d 0x10 0 64

/-- Class argument `i`. -/
def karg (d i : Nat) : Nat := dfield d (0x28 + 8 * i) 0 64

/-- Wait entry `i` (R360). -/
def kwait (d i : Nat) : Nat := dfield d (0x40 + 8 * i) 0 64

/-- The object of signal entry `i` (R361). -/
def ksigObj (d i : Nat) : Nat := dfield d (0x60 + 16 * i) 0 64

/-- The value of signal entry `i`. -/
def ksigVal (d i : Nat) : Nat := dfield d (0x68 + 16 * i) 0 64

/-- The image bytes of a `KERNEL`, and the length of a `FORAGE` or `COLLECT`. -/
def klen (d : Nat) : Nat := bits (karg d 1) 0 32

/-! ### The checks (R362, R363) -/

/-- Where the bytes of an address lie, whatever the permissions (R358): kind of storage and place. -/
def State.storage (s : State) (p a : Nat) : Option (Nat × Nat) :=
  match a / 2 ^ 60 with
  | 0 => some (0, a % 2 ^ 60)
  | 1 =>
    let m := bits a 48 12
    if m = s.fab.logical.toNat then some (0, bits a 0 48) else some (16 + m, bits a 0 48)
  | 2 => (s.farMatch p (a % 2 ^ 60)).map fun w => (2, w.target + (a % 2 ^ 60 - w.lo))
  | 3 => some (3, bits a 0 52)
  | _ => none

/-- The local-map offset of an address of this module, under either of its names; any other address itself. -/
def State.localAt (s : State) (p a : Nat) : Nat :=
  match s.storage p a with
  | some (0, o) => o
  | _ => a

/-- Source and destination of a `MOVE` overlap (R358). -/
def State.moveClash (s : State) (p d : Nat) : Bool :=
  let n := karg d 2
  match s.storage p (karg d 0), s.storage p (karg d 1) with
  | some (k, a), some (j, b) => k == j && n != 0 && decide (a < b + n) && decide (b < a + n)
  | _, _ => false

/-- Check 1 of R362, field by field in the order of their offsets. -/
def State.formatList (s : State) (p d : Nat) : List (Bool × Nat) :=
  let c := kclass d
  let noArgs := fun k => karg d k == 0
  let three := c == 1 || c == 2
  [(decide (1 ≤ c) && decide (c ≤ 9), 0), (decide (knwait d ≤ 4), 0), (decide (knsig d ≤ 2), 0),
   (dfield d 0 34 30 == 0, 0), (c != 9 || (knwait d == 0 && knsig d == 0), 0), (dfield d 8 32 32 == 0, 8),
   (if c = 1 then kmask d &&& s.partMask p == kmask d else kmask d == 0, 0x10),
   (match c with
    | 1 => klen d == 0 || karg d 0 % 8 == 0
    | 2 => true
    | 3 => klen d == 0 || karg d 0 % 64 == 0
    | 4 => klen d == 0 || karg d 0 % 64 == 0
    | 8 => decide (karg d 0 ≤ 1)
    | _ => noArgs 0, 0x28),
   (match c with
    | 1 => klen d % 8 == 0
    | 2 => !s.moveClash p d
    | 3 => karg d 1 == 0 || karg d 1 == 384
    | 4 => karg d 1 == 0 || karg d 1 == 128
    | 8 => if karg d 0 = 0 then decide (1 ≤ karg d 1) && decide (karg d 1 ≤ 100000) else decide (karg d 1 ≤ 15)
    | _ => noArgs 1, 0x30),
   (three || noArgs 2, 0x38)] ++
  (List.range 4).map (fun i => (if i < knwait d then bits (kwait d i) 17 7 == 0 else kwait d i == 0, 0x40 + 8 * i)) ++
  (List.range 2).flatMap fun i =>
    if i < knsig d then [(ksigObj d i % 8 == 0, 0x60 + 16 * i)]
    else [(ksigObj d i == 0, 0x60 + 16 * i), (ksigVal d i == 0, 0x68 + 16 * i)]

/-- What a command of partition `p` reaches with an argument: an address that governs a movement of length 0 is not
checked (R363). -/
def State.argReach (s : State) (p : Nat) (wr : Bool) (a len : Nat) : Reach :=
  if len = 0 then .ok (.loc 0) else s.reach p .data wr true a len

/-- An image lies in close memory, or in a far or host window (R357, log 47). -/
def imagePlace (a : Nat) : Bool := (a / 2 ^ 60 == 0 && isClose a) || a / 2 ^ 60 == 2 || a / 2 ^ 60 == 3

/-- The places a command names, with the offset of the argument that names each. -/
def State.argPlaces (s : State) (p d : Nat) : List (Reach × Nat) :=
  match kclass d with
  | 1 => [(if klen d ≠ 0 ∧ !imagePlace (karg d 0) then .denied else s.argReach p false (karg d 0) (klen d), 0x28),
          (s.argReach p false (karg d 2) (bits (karg d 1) 32 32), 0x38)]
  | 2 => [(s.argReach p false (karg d 0) (karg d 2), 0x28), (s.argReach p true (karg d 1) (karg d 2), 0x30)]
  | 3 => [(s.argReach p false (karg d 0) (klen d), 0x28)]
  | 4 => [(s.argReach p false (karg d 0) (klen d), 0x28)]
  | _ => []

/-- Check 2 of R362. -/
def State.deniedList (s : State) (p d : Nat) : List (Bool × Nat) :=
  (dfield d 0 8 2 == p, 0) :: (s.argPlaces p d).map (fun e => (e.1 != .denied, e.2)) ++
  (List.range (knwait d)).map (fun i => (s.partOfSync (bits (kwait d i) 0 16) == p, 0x40 + 8 * i)) ++
  (List.range (knsig d)).map fun i =>
    (match s.syncRef p (ksigObj d i) with | .bad _ => false | _ => true, 0x60 + 16 * i)

/-- Check 3 of R362: the field that fails is the length. -/
def State.boundList (s : State) (p d : Nat) : List (Bool × Nat) :=
  (s.argPlaces p d).map (fun e => (e.1 != .bound, if kclass d = 2 then 0x38 else 0x30)) ++
    [(kclass d != 1 || decide (klen d ≤ 131072), 0x30)]

/-- The status of a refusal (R364). -/
def Bad.status : Bad → Nat
  | .bound => 1
  | .format => 2
  | .denied => 3

/-- The checks of R362 in their order: the status, and the offset of the first field that failed. -/
def State.checkCmd (s : State) (p d : Nat) : Option (Bad × Nat) :=
  match firstBad (s.formatList p d) with
  | some o => some (.format, o)
  | none => match firstBad (s.deniedList p d) with
    | some o => some (.denied, o)
    | none => (firstBad (s.boundList p d)).map fun o => (.bound, o)

/-! ### Operating points (R96, R463-R466) -/

/-- The commands that a physical comb carries: those of the logical cells that its cells serve. -/
def State.carried (s : State) (comb : Nat) : List Cmd :=
  let ids := s.cells.filterMap fun e =>
    let r := s.remapOf e.1
    if 8 * r.die + r.comb = comb ∧ r.state ≠ 3 then e.2.cmd else none
  s.cmds.filter fun c => ids.contains c.id

/-- The index a physical comb should run at: the least its commands request, and not above the governor's. A comb that
carries no command keeps its index under the governor's. -/
def State.wantedOpp (s : State) (comb : Nat) : Nat :=
  let g := Tab.get (fun _ => 15) s.power.gov comb
  let l := (s.carried comb).map Cmd.opp
  if l.isEmpty then min g (Tab.get (fun _ => 0) s.power.opp comb) else l.foldl min g

/-- Bring a physical comb to its wanted index: a lower one at once, a higher one when voltage and droop allow
(OPP_CHANGE, R465, R466). While the reference is lost every island holds its setting (R29). -/
def State.retune (s : State) (comb : Nat) : State :=
  let w := s.wantedOpp comb
  let o := Tab.get (fun _ => 0) s.power.opp comb
  if s.boot.oscHeld then s
  else
    let s1 := { s with power := { s.power with
      opp := Tab.set (fun _ => 0) s.power.opp comb (min w o),
      rise := Tab.set (fun _ => 0) s.power.rise comb (if o < w then w else 0) } }
    s1.applyRises (comb / 8)

/-- Bring every comb to its wanted index. -/
def State.retuneAll (s : State) : State := foldS State.retune s (List.range 64)

/-! ### Quenching a command (R140, R261, R341, R560) -/

/-- Quench the descriptors that a command, or a cell of it, has with the foragers: those that may be in progress are cut short, and a
result record that has not been performed is not written (R261). -/
def State.quenchForagers (s : State) (c : Cmd) : State :=
  let mine := fun (i : Issuer) => match i with
    | .cmd id => id == c.id
    | .cell n _ => (s.cell n).cmd == some c.id
  let written := (s.fdescs.filter fun d => mine d.issuer && d.phase == .recorded).map fun d => Owner.fdesc d.id
  let s0 := { s with
    far := s.far.filter fun r => r.sent || !written.contains r.owner,
    link := { s.link with bis := s.link.bis.map fun b => match b.what with
      | .write o _ _ _ => if written.contains o then { b with what := .packet } else b
      | _ => b } }
  let s1 := foldS State.cutShort s0 (s.fdescs.filter fun d => mine d.issuer && s.canStart d)
  { s1 with fdescs := s1.fdescs.map fun d => if mine d.issuer then { d with phase := .quenched } else d }

/-- Withdraw collectives of a command that have not started. -/
def State.quenchColls (s : State) (c : Cmd) : State :=
  let mine := fun (i : Issuer) => match i with
    | .cmd id => id == c.id
    | .cell n _ => (s.cell n).cmd == some c.id
  let gone := s.coll.colls.filter fun x => mine x.issuer && !x.started
  { s with coll := { s.coll with colls := s.coll.colls.filter fun x => !(mine x.issuer && !x.started) },
           waits := s.waits.filter fun w => !gone.any fun x => w.who == Waiter.collective x.id }

/-- Items of the overflow ring fall into free stages (R350). -/
def Drip.refill (q : Drip) : Drip :=
  let k := 16 - q.stages.length
  { q with stages := q.stages ++ q.overflow.take k, overflow := q.overflow.drop k }

/-- Quench a command that has started, or withdraw one that has not: it completes with the status unless it has
completed its effects. -/
def State.quenchCmd (s : State) (id status : Nat) : State :=
  match s.cmd id with
  | none => s
  | some c =>
    if c.phase = .finished then s
    else if c.phase = .started then
      let s1 := foldS State.quenchCell s (c.cells.filter fun n => (s.cell n).cmd == some id)
      let s2 := (s1.quenchForagers c).quenchColls c
      match s2.cmd id with
      | some d => s2.setCmd { d with
          status := if d.status = 0 then status else d.status,
          phase := if s1.coll.colls.any fun x => x.issuer == Issuer.cmd id && !x.started then .finished else d.phase }
      | none => s2
    else
      let k := 4
      let s1 := foldS (fun s j =>
        let q := s.drip j
        s.setDrip j
          { q with stages := q.stages.filter (fun i => i != id), overflow := q.overflow.filter (fun i => i != id) }.refill)
        s (List.range k)
      let s2 := { s1 with waits := s1.waits.filter fun w => match w.who with
        | .command i _ => i != id
        | _ => true }
      s2.setCmd { c with phase := .finished, status := status, signalled := true, t0 := s2.now }

end Sys2Proof.Machine
end

