-- ==== Sys2Proof/Machine/Failure.lean ====
section
/-!
DEFINITION. What a failure destroys and what follows: repair, recovery with the module as its own spare, or commands
that end with `ABORTED` (R198, R215, R503-R506, R551).
-/

namespace Sys2Proof.Machine

/-! ### Granules (R523) -/

/-- The local-map offset of lining granule `k` of partition `p`. -/
def State.granuleOff (s : State) (p k : Nat) : Nat :=
  if k < s.linA then s.sliceStart p + 4096 * k
  else cellMem (p * s.cellsPer + (k - s.linA) / 1024) + (k - s.linA) % 1024 * 4096

/-- Both dirty bits of a lining granule are clear. -/
def State.cleanGranule (s : State) (p k : Nat) : Bool :=
  if k < s.linA then
    let (d, g) := s.place4K (s.granuleOff p k)
    !(s.frg d).live.get g && !(s.frg d).frozen.get g
  else
    let c := s.cell (p * s.cellsPer + (k - s.linA) / 1024)
    let j := (k - s.linA) % 1024
    !c.live.getLsbD j && !c.frozen.getLsbD j

/-- The lining granules of partition `p` that a loss takes. -/
def State.lostGranules (s : State) (p : Nat) : Lost → List Nat
  | .granule k => [k]
  | .cell n => (List.range 1024).map fun j => s.linA + 1024 * (n % s.cellsPer) + j
  | .device d => (List.range s.linA).filter fun k => (s.mapGranule (s.granuleOff p k)).1 == d

/-- The lining of a partition can serve a repair or a recovery: it is active, and its first full copy has committed
(R506, R522). -/
def State.linSafe (s : State) (p : Nat) : Bool := s.linOn p && !(s.epochOf p).first

/-- Repair may rebuild the granules (R504): no epoch lies between its cut and its swarm commit, every granule is clean,
and no engine context has been lost. -/
def State.mayRepair (s : State) (p : Nat) (ks : List Nat) : Bool :=
  let e := s.epochOf p
  s.linSafe p && (e.state == 1 || e.state == 6 || (e.state == 2 && e.step == 1)) && !e.recWant && ks.all (s.cleanGranule p)

/-! ### Commands that end with a failure (R364, R506) -/

/-- A hardware failure ends a command: it is quenched and completes with `ABORTED`. -/
def State.abortCmd (s : State) (id : Nat) : State :=
  let s1 := s.quenchCmd id 4
  match s1.cmd id with
  | some c => if c.phase = .started then s1.setCmd { c with hwFail := true } else s1
  | none => s1

/-- The serial number of a module, as its admission gave it (R451). -/
def State.serialOf (s : State) (m : Nat) : Word :=
  if m = s.fab.logical.toNat then Config.serial else Tab.get (fun _ => 0) s.swarm.serials m

/-- The manager wants a recovery for member `f` with the spare `x`; one that is wanted or under way for another member covers
both (R539). -/
def State.wantFor (s : State) (p f x : Nat) : State :=
  let e := s.epochOf p
  let old := if e.failedM = f ∨ (e.recStep = 0 ∧ !e.recWant) then []
    else if e.recWant then [(e.failedM, e.spareM, s.serialOf e.failedM, s.serialOf e.spareM)]
    else [(e.failedM, e.spareM, e.failedSer, e.spareSer)]
  let kept := if e.recStep = 0 ∧ !e.recWant then [] else e.others.filter fun q => q.1 != f && q.1 != e.failedM
  s.setEpoch p { e with recWant := true, failedM := f, spareM := x, others := kept ++ old }

/-- Recovery is wanted, with the module as its own spare (R505, R551, log 51): by the manager, or of it. -/
def State.wantRecovery (s : State) (p : Nat) : State :=
  if s.inSwarm && s.owner == p && s.swarm.role == 3 then s.wantFor p s.fab.logical.toNat s.fab.logical.toNat
  else (s.setEpoch p { s.epochOf p with recWant := true }).faultNotice p 17

/-- A failure that needs repair or recovery where no lining serves (R506): in a swarm the manager marks the number failed, as
R539 says, for which it must know of the failure: the notice of reason 37 tells it (log 51). -/
def State.noLining (s : State) (p : Nat) : State :=
  if s.inSwarm && s.owner == p && s.swarm.role == 3 then s.wantFor p s.fab.logical.toNat s.fab.logical.toNat
  else s.faultNotice p 37

/-- A command has lost what it needs, and a recovery executes it again: until then it does not complete (R140, R503). -/
def State.loseCmd (s : State) (id : Nat) : State :=
  match s.cmd id with
  | some c => s.setCmd { c with hwLost := true }
  | none => s

/-- No recovery executes the commands of partition `p` again that have lost what they need: they end with `ABORTED` (R140, R506). -/
def State.endLostCmds (s : State) (p : Nat) : State :=
  foldS (fun s c => (s.setCmd { c with hwLost := false }).abortCmd c.id) s (s.cmds.filter fun c => c.part == p && c.hwLost)

/-- State that commands need has been lost in an engine of partition `p` (R551): recovery while the lining is active, or
their end with `ABORTED`. `unit` holds the reset domain in its low two bits and the logical number from bit 8. -/
def State.loseEngine (s : State) (p unit : Nat) (ids : List Nat) : State :=
  if ids.isEmpty then s
  else if s.linSafe p then
    (foldS (fun s id => (s.escalate p 17 unit (match s.cmd id with | some c => c.intake | none => 0)).loseCmd id) s ids).wantRecovery p
  else (foldS State.abortCmd s ids).noLining p

/-! ### Data that is lost (R503, R506) -/

/-- Bytes of the local map become free values (log 53). -/
def State.freeBytes (s : State) (a n : Nat) : State :=
  let s1 := s.pokeMem a ((List.range n).map fun i => BitVec.ofNat 8 (Config.freeValue (s.freeCtr + i)))
  { s1 with freeCtr := s.freeCtr + n }

/-- Data of partition `p` are lost: they wait for a repair where R504 allows one, or else for a recovery; with no
lining, `ids` end with `ABORTED` and the bytes are free values. -/
def State.loseData (s : State) (p : Nat) (u : Lost) (ids : List Nat) : State :=
  if s.linSafe p then
    let s1 := s.setEpoch p { s.epochOf p with lostU := (s.epochOf p).lostU ++ [u] }
    let repair := match u with
      | .device _ => false
      | _ => s.mayRepair p (s.lostGranules p u)
    if repair then s1 else s1.wantRecovery p
  else
    let s1 := (foldS State.abortCmd s ids).noLining p
    match u with
    | .cell n => s1.freeBytes (cellMem n) cellBytes
    | _ => foldS (fun s k => s.freeBytes (s.granuleOff p k) 4096) s1 (s.lostGranules p u)

/-- A word of cell memory in which a read has found an uncorrectable error waits for its repair (R504). -/
def State.awaitsRepair (s : State) (p : Nat) (words : List Nat) : Bool :=
  words.any fun w => (s.epochOf p).lostU.contains (.granule (s.linGranule (cellBase + 8 * w)))

/-- A read of cell memory has found uncorrectable errors, and its data are not delivered (R52, R503); the test record becomes
invalid (R588). The granules of the words
wait for a repair or a recovery, and the consumer with them; with no lining the commands that consume them end with `ABORTED`, and
the words become free values. -/
def State.loseWords (s : State) (p : Nat) (ids words : List Nat) : State :=
  let s := s.spoilRecord 4
  if s.linSafe p then
    foldS (fun s k => s.loseData p (.granule k) ids) s (words.map fun w => s.linGranule (cellBase + 8 * w)).eraseDups
  else
    foldS (fun s w => (s.freeBytes (cellBase + 8 * w) 8).freshen (cellBase + 8 * w) 8)
      ((foldS State.abortCmd s ids).noLining p) words

/-- The started commands of a partition. -/
def State.startedIn (s : State) (p : Nat) : List Nat :=
  (s.cmds.filter fun c => c.part == p && c.phase == .started).map Cmd.id

/-- The commands with a descriptor that uses a forager. -/
def State.frgUsers (s : State) (f : Nat) : List Nat :=
  ((s.fdescs.filter fun d => d.frgs.contains f && d.phase != .quenched).filterMap fun d =>
    match d.issuer with
    | .cmd id => some id
    | .cell n _ => (s.cell n).cmd).eraseDups

end Sys2Proof.Machine
end

