-- ==== Sys2Proof/Machine/Cells.lean ====
section
/-!
DEFINITION. The remap table in service: failed cells, spares, guests and unserved cells, guest switches, and save areas
(R75-R89, R503, R650, R689).
-/

namespace Sys2Proof.Machine

/-! ### Entries of the remap table (R76-R79, R86) -/

/-- The location of an entry as R87 [9:0] gives it. -/
def Remap.loc (r : Remap) : Nat := r.slot + 16 * r.comb + 128 * r.die

/-- The guest that logical cell `n` hosts, if it hosts one (R78). -/
def State.guestOf (s : State) (n : Nat) : Option Nat :=
  let g := n ^^^ 8
  if (s.remapOf g).state = 2 then some g else none

/-- The logical cell that a physical cell serves other than as a guest. -/
def State.servedBy (s : State) (c : Nat) : Option Nat :=
  (List.range 512).find? fun n =>
    let r := s.remapOf n
    r.phys == c && (r.state == 0 || r.state == 1)

/-- A physical cell is under test: it is its comb's spare when it passes (R656, R657). -/
def State.testedCell (s : State) (c : Nat) : Bool :=
  match s.dbg.istRun with
  | some (k, t, _) => k == 1 && t == c
  | none => false

/-- The slot of a healthy cell of a comb that serves no logical cell and is not under test, if the comb is in service (R77, R567,
R657). -/
def State.spareOf (s : State) (comb : Nat) : Option Nat :=
  if s.resets.combOos.contains comb then none
  else (List.range 9).find? fun i =>
    let c := physNum (comb / 8) (comb % 8) i
    !(s.physOf c).retired && (s.servedBy c).isNone && !s.testedCell c

/-- Change an entry: it is counted, reported and traced (R86, R87, R650), and the combs it leaves and joins run at the point of what
they carry (R96). -/
def State.changeRemap (s : State) (n : Nat) (r : Remap) : State :=
  let o := s.remapOf n
  let p := s.partOfCell n
  let s1 := s.setRemap n { r with changes := min (o.changes + 1) 65535 }
  let s2 := (s1.retire p 0 r.state n o.loc r.loc).trace 9 p n r.state o.loc r.loc
  (s2.retune (8 * o.die + o.comb)).retune (8 * r.die + r.comb)

/-- The host of logical cell `n` can take it as a guest (R78, R79). -/
def State.hostFree (s : State) (n : Nat) : Bool :=
  let h := n ^^^ 8
  let r := s.remapOf h
  (r.state == 0 || r.state == 1) && !s.resets.combOos.contains (h / 8)

/-- Logical cell `n` is switched in, or out. -/
def State.switchTo (s : State) (n : Nat) (b : Bool) : State :=
  s.setCell n { s.cell n with switchedIn := b, inAt := if b then s.now else (s.cell n).inAt }

/-- A logical cell has a running command. -/
def State.runs (s : State) (n : Nat) : Bool := (s.cell n).cmd.isSome && (s.cell n).run.active

/-- The number of the start decision of a logical cell's command. -/
def State.startOf (s : State) (n : Nat) : Nat :=
  match (s.cell n).cmd with
  | some id => match s.cmd id with | some c => c.order | none => 0
  | none => 0

/-- Logical cell `n` becomes unserved (R79, R85): reported, and its guest with it. A command that runs on it is held until the
module is substituted, and ends with `ABORTED` where no substitution can take place. -/
def State.unserve (s : State) (n : Nat) : State :=
  let one := fun (s : State) m =>
    let p := s.partOfCell m
    let s1 := (((s.changeRemap m { s.remapOf m with state := 3 }).escalate p 1 m 0)).faultNotice p 1
    match (s.cell m).cmd with
    | some id => if s1.substitutes p then s1 else s1.abortCmd id
    | none => s1
  match s.guestOf n with
  | some g => one (one s n) g
  | none => one s n

/-- Logical cell `n` becomes the guest of its host (R78). Of the two, the one whose command started first runs first,
the host where they started together (R80); the other goes to the save area of the pair. -/
def State.makeGuest (s : State) (n : Nat) : State :=
  let h := n ^^^ 8
  let s1 := s.changeRemap n { s.remapOf h with state := 2 }
  let first := s1.runs n && (!s1.runs h || decide (s1.startOf n < s1.startOf h))
  ((s1.switchTo n first).switchTo h (!first)).saveCell (.cell (if first then h else n)) (if first then h else n)

/-- Logical cell `n` loses the cell that serves it and no spare takes it (R78, R79, R82). -/
def State.displace (s : State) (n : Nat) : State :=
  if s.hostFree n && (s.guestOf n).isNone && (s.saveBase (s.partOfCell n)).isSome then s.makeGuest n
  else s.unserve n

/-- A cell that has no place for its save area becomes a guest when one becomes available (R82). -/
def State.regainGuests (s : State) (p : Nat) : State :=
  if (s.saveBase p).isNone then s
  else foldS (fun s n => if (s.remapOf n).state == 3 && s.hostFree n then s.makeGuest n else s) s
    ((List.range s.cellsPer).map fun i => p * s.cellsPer + i)

/-- Move logical cell `n`, with its guest, to a spare cell of its comb, or displace it (R77-R79). -/
def State.replaceCell (s : State) (n : Nat) : State :=
  let r := s.remapOf n
  match s.spareOf (n / 8) with
  | some i =>
    let guest := s.guestOf n
    let s1 := s.changeRemap n { r with slot := i, state := if i = n % 8 then 0 else 1 }
    match guest with
    | some g => s1.changeRemap g { s1.remapOf g with slot := i }
    | none => s1
  | none => s.displace n

/-- The logical cell whose state a physical cell holds: of a host and its guest, the one switched in. -/
def State.insideOf (s : State) (n : Nat) : Nat :=
  match s.guestOf n with
  | some g => if (s.cell n).switchedIn then n else g
  | none => n

/-- The state of logical cell `n` is lost with its physical cell (R503): its memory, and with a running command its
architected state. -/
def State.loseCell (s : State) (n : Nat) : State :=
  let p := s.partOfCell n
  match (s.cell n).cmd with
  | some id =>
    let s1 := s.setCell n { s.cell n with run := if (s.cell n).run.active then .hung else (s.cell n).run }
    (s1.loseData p (.cell n) [id]).loseEngine p (256 * n) [id]
  | none => s.loseData p (.cell n) []

/-- Retire a physical cell that serves logical cell `n` (R77). What is lost of a cell that is now a guest and switched out is lost in
its save area. -/
def State.retireCell (s : State) (phys n : Nat) : State :=
  let s1 := s.setPhys phys { s.physOf phys with retired := true }
  let inside := s1.insideOf n
  let s2 := (s1.replaceCell n).loseCell inside
  if (s2.remapOf inside).state == 2 && s2.isAway inside then s2.saveNow inside else s2

/-- CELL_FAILED (R77-R79, R85, R86, R503). One that serves no logical cell is no longer a healthy spare. -/
def execCellFailed (phys : Nat) (s : State) : Host.Outcome State Fault Refusal :=
  whenFormed (decide (phys < 576)) <|
  whenLive s <| whenDue (!(s.physOf phys).retired) <|
    match s.servedBy phys with
    | some n => .next (s.retireCell phys n)
    | none => .next (s.setPhys phys { s.physOf phys with retired := true })

/-! ### Guest switches (R80, R81) -/

/-- The running cell of a pair gives way (R80): it has waited on a sync object for 2 µs, has run for 1 ms since it was switched in,
or has no running command. -/
def State.mayYield (s : State) (n : Nat) : Bool :=
  let k := s.cell n
  let ran := decide (100000 ≤ (s.now - k.inAt).toNat)
  !s.runs n || ran || match k.run with
    | .waitObj _ _ _ _ => decide (200 ≤ (s.now - k.waitAt).toNat)
    | _ => false

/-- GUEST_SWITCH (R80, R640, R650): the running cell is switched out; neither issues until the switch ends. The switch
is counted at the comb of the cell that comes in (log 58). -/
def execGuestSwitch (host : Nat) (s : State) : Host.Outcome State Fault Refusal :=
  whenFormed (decide (host < 512)) <|
  whenLive s <| withItem (s.guestOf host) fun g =>
    let (o, i) := if (s.cell host).switchedIn then (host, g) else (g, host)
    whenDue ((s.cell o).switchedIn && s.runs i && s.mayYield o && !s.switches.any (fun w => w.host == host) &&
        !s.saveMoves.any (fun m => m.part == s.partOfCell host) && !s.linDrains (s.partOfCell host) && !s.areaBusy host && s.link.up) <|
      let s1 := s.switchTo o false
      let w : Switch := { host := host, outgoing := o, incoming := i }
      let s2 : State := { s1 with switches := s1.switches ++ [w] }
      .next ((s2.trace 13 (s.partOfCell host) host i 0 0).bumpComb (i / 8) 10 1)

/-- An access to the save area of logical cell `n` has failed (R228, R370): `none` stands for a second timeout. Its command ends with
`DENIED` or `ABORTED`; poisoned data are a state that is lost. The report gives the window offset at which the area starts (log 86). -/
def State.saveFails (s : State) (n : Nat) (out : Option FarOutcome) : State :=
  let p := s.partOfCell n
  let off := ((s.savePlace n 0).map Prod.fst).getD 0
  match out with
  | some .ok => s
  | some .unsupported =>
    let s1 := s.escalate p 3 off 0
    match (s.cell n).cmd with | some id => s1.quenchCmd id 3 | none => s1
  | some .poisoned => (s.bump 49 1).loseCell n
  | none =>
    let s1 := s.escalate p 4 off 0
    match (s.cell n).cmd with | some id => s1.abortCmd id | none => s1

/-- Put the state of the outgoing cell of a switch into the save area and take the incoming one's out of it, and run that (R81). -/
def State.exchange (s : State) (w : Switch) : State :=
  let s1 := s.bump 51 (s.correctable (cellMem w.outgoing) cellBytes)
  let s2 := { s1 with switches := s1.switches.filter fun v => v.host != w.host }
  ((s2.restoreCell w.incoming).saveNow w.outgoing).switchTo w.incoming true

/-- The exact accumulators of a cell whose stored residues do not match (R181). -/
def State.badSums (s : State) (n : Nat) : List Nat := (List.range 16).filter fun e => !(s.cell n).arch.residuesOk e

/-- The residues of a cell's exact accumulators are computed anew. -/
def Arch.freshResidues (a : Arch) : Arch := (List.range 16).foldl (fun b e => b.setE e (b.ereg e)) a

/-- GUEST_SWITCH_COMPLETE (R81, R228): the two cells of the pair have changed places, the outgoing one into the save area and the
incoming one out of it, and the incoming one runs. A reset
of the physical cell holds the end of the switch back (R552), and so does a write to the area that is still under way (R83, R84). Where
the accesses of the switch fail, the outgoing cell stays, unless
the state of the incoming one came poisoned. Reading the outgoing cell finds uncorrectable words of its memory (R52), and sums that do
not match their residues as they are stored (R181): the row is taken again when they have been handled. -/
def execGuestSwitchComplete (e : AreaEnd) (s : State) : Host.Outcome State Fault Refusal :=
  let host := e.of
  let out := e.out
  whenFormed (decide (host < 512)) <|
  whenLive s <| withItem (s.switches.find? fun w => w.host == host) fun w =>
    whenDue (!s.resettingCell host && s.link.up && !s.areaBusy host) <|
      let p := s.partOfCell host
      let bad := s.badWords (cellMem w.outgoing) cellBytes
      let s1 := { s with switches := s.switches.filter fun v => v.host != host }
      if out ≠ some .ok ∧ out ≠ some .poisoned then .next ((s1.switchTo w.outgoing true).saveFails w.incoming out)
      else if !bad.isEmpty then whenFree (!s.awaitsRepair p bad) s <| .next (s.loseWords p (s.cell w.outgoing).cmd.toList bad)
      else if !(s.badSums w.outgoing).isEmpty then
        .next ((((s.setCell w.outgoing { s.cell w.outgoing with arch := (s.cell w.outgoing).arch.freshResidues }).bump 52 1).bumpPart p 19 1
          |>.spoilRecord 4).retireCell (s.remapOf host).phys host)
      else if out = some .ok then .next (s.exchange w)
      else .next (((s1.saveNow w.outgoing).switchTo w.incoming true).saveFails w.incoming out)

/-! ### Moving the save areas (R82) -/

/-- SAVE_AREA_MOVE_COMPLETE (R82, R228): every save area in use has been copied to its new place, which is used from then
on. -/
def execSaveAreaMoveComplete (e : AreaEnd) (s : State) : Host.Outcome State Fault Refusal :=
  let part := e.of
  let out := e.out
  whenFormed (decide (part < 4)) <|
  whenLive s <| withItem (s.saveMoves.find? fun m => m.part == part) fun m =>
    whenDue (s.link.up && !s.linDrains part && !((List.range s.cellsPer).any fun i => s.areaBusy (part * s.cellsPer + i))) <|
      let s1 := { s with saveMoves := s.saveMoves.filter fun x => x.part != m.part }
      let outs := ((List.range s.cellsPer).map fun i => part * s.cellsPer + i).filter fun n =>
        s.isAway n
      .next (if out = some .ok then foldS (fun t n => t.savePoke n 0 (s.saveRead n 0 saveBytes)) s1 outs
        else foldS (fun t n => t.saveFails n out) s1 outs)

end Sys2Proof.Machine
end

