-- ==== Sys2Proof/Machine/CloseMemory.lean ====
section
/-!
DEFINITION. Close memory at its controllers: the ECC code, requests, row sparing, scrub, and retired devices (R191-R219,
R503).
-/

namespace Sys2Proof.Machine

/-! ### The code RS(72,68) over GF(256) (R194, R195) -/

/-- Multiply by α: x^8 + x^4 + x^3 + x^2 + 1. -/
def gfX (a : Nat) : Nat := if 128 ≤ a then (2 * a) ^^^ 0x11D else 2 * a

/-- The product of two field elements, by the bits of the first from the top. -/
def gfMul (a b : Nat) : Nat :=
  [7, 6, 5, 4, 3, 2, 1, 0].foldl (fun r i => gfX r ^^^ (if bit a i then b else 0)) 0

/-- The powers of α. -/
def gfPow : Nat → Nat
  | 0 => 1
  | n + 1 => gfX (gfPow n)

/-- Evaluate a polynomial, first coefficient highest, by Horner's rule. -/
def gfEval (l : List Nat) (x : Nat) : Nat := l.foldl (fun r c => gfMul r x ^^^ c) 0

/-- The generator polynomial (x − 1)(x − α)(x − α²)(x − α³), without its leading 1. -/
def rsGen : List Nat :=
  let mulRoot := fun (p : List Nat) (r : Nat) => List.zipWith (· ^^^ ·) (p ++ [0]) (0 :: p.map (gfMul r))
  ((List.range 4).foldl (fun p i => mulRoot p (gfPow i)) [1]).drop 1

/-- The four check bytes of a message: the remainder of message × x^4 (R194). -/
def rsCheck (msg : List Nat) : List Nat :=
  msg.foldl (fun r m =>
    let f := m ^^^ r.headD 0
    List.zipWith (· ^^^ ·) (r.drop 1 ++ [0]) (rsGen.map (gfMul f))) [0, 0, 0, 0]

/-- The check bytes of a line, which its page holds at `LinePlace.check` (R193, R194). -/
def checkBytes (data : List Byte) (line : Nat) : List Byte :=
  (rsCheck ((data ++ leBytes 4 line).map BitVec.toNat)).map (BitVec.ofNat 8)

/-- The codeword of a line: its 64 bytes, its line index, and its check bytes. -/
def rsWord (data : List Byte) (line : Nat) : List Nat :=
  let msg := (data ++ leBytes 4 line).map BitVec.toNat
  msg ++ rsCheck msg

/-- What the decoder makes of a codeword. -/
inductive Decoded where
  | clean (data : List Byte)
  | corrected (data : List Byte)
  | lost
  deriving DecidableEq, Repr

/-- Change the symbols of a word. -/
def addErrors (w : List Nat) (errs : List (Nat × Byte)) : List Nat :=
  errs.foldl (fun w e => w.set e.1 (w.getD e.1 0 ^^^ e.2.toNat)) w

/-- Decode: one symbol in error is corrected, and any other nonzero syndrome, or an error located in the line index or
outside the word, is uncorrectable (R195, log 55). -/
def rsDecode (w : List Nat) : Decoded :=
  let s := (List.range 4).map fun i => gfEval w (gfPow i)
  let out := fun (w : List Nat) => (w.take 64).map (BitVec.ofNat 8)
  if s.all (fun x => x == 0) then .clean (out w)
  else
    let v := s.headD 0
    match (List.range 72).find? fun i => (List.range 4).all fun j => s.getD j 0 == gfMul v (gfPow (j * (71 - i))) with
    | some i => if v = 0 ∨ (64 ≤ i ∧ i < 68) then .lost else .corrected (out (w.set i (w.getD i 0 ^^^ v)))
    | none => .lost

/-- Read a line of a device with errors in its stored symbols: the 64 data bytes and the 4 check bytes. The line index
is not stored (R194). -/
def readLine (data : List Byte) (line : Nat) (errs : List (Nat × Byte)) : Decoded :=
  rsDecode (addErrors (rsWord data line) (errs.filter fun e => decide (e.1 < 64) || (decide (68 ≤ e.1) && decide (e.1 < 72))))

/-! ### Errors that are counted (R197, R211, R213, R218) -/

/-- Count a corrected error (R197, R638, R639, R640), and spare its row where R211 says so. -/
def State.countCorrected (s : State) (d line : Nat) : State :=
  let v := s.dev d
  let row := rowOf line
  let again := v.corr.any fun e => e.2.1 == line
  let lines := ((v.corr.filter fun e => e.1 == row && s.recent e.2.2).map fun e => e.2.1) ++ [line]
  let s1 := s.setDev d { v with corr := v.corr ++ [(row, line, s.now)] }
  let s2 := ((s1.bump 48 1).bumpFrg d 3 1).bumpPart (s.partOfDev d) 18 1
  if again || decide (3 ≤ lines.eraseDups.length) then s2.spareRow d row else s2

/-- Count an uncorrectable error, which makes the test record invalid (R213, R218, R588). -/
def State.countLost (s : State) (d line : Nat) : State :=
  let v := s.dev d
  let s1 := s.setDev d { v with ues := v.ues.filter (fun e => s.recent e.2) ++ [(rowOf line, s.now)] }
  (s1.bump 49 1).spoilRecord 4

/-! ### From storage back to addresses (R200-R204, R214) -/

/-- The device granule whose data a granule of the reserve holds, once the reserve is used (R214). -/
def State.unrelocate (s : State) (d k : Nat) : Option (Nat × Nat) :=
  let first := devGranules - s.reserveG
  if k < first then some (d, k)
  else match s.reserve with
    | some x => if d = x then none else some (x, 31 * (k - first) + if d < x then d else d - 1)
    | none => none

/-- The close-memory offset of a device granule before any retirement (R202, R203). -/
def State.offsetOf (s : State) (d k : Nat) : Option Nat :=
  let p := s.partOfDev d
  let i := d - p * s.devsPer
  let h := s.homeG p
  let first := devGranules - h - s.reserveG
  let b := Nat.log2 s.devsPer
  if k < first then some (s.sliceStart p + 4096 * (k * 2 ^ b + (i ^^^ foldFields b (k * 2 ^ b))))
  else if k < first + h then some (s.sliceStart p + s.stripedBytes p + 4096 * (i * h + (k - first)))
  else none

/-- The close-memory offset whose data lives in device line `l` of device `d`, if one does. -/
def State.offsetOfLine (s : State) (d l : Nat) : Option Nat :=
  match s.unrelocate d (l / 64) with
  | some (e, k) => (s.offsetOf e k).map fun o => o + 64 * (l % 64)
  | none => none

/-- A line is uncorrectable (R198): with a lining it waits for its repair or a recovery; with none, the commands `ids`
end with `ABORTED`, its bytes are free values (log 53), and the error has been handled. -/
def State.loseLine (s : State) (d l : Nat) (ids : List Nat) : State :=
  let s1 := s.countLost d l
  match s1.offsetOfLine d l with
  | none => s1
  | some o =>
    let p := s1.partOfClose o
    if s1.linSafe p then
      let v := s1.dev d
      (s1.setDev d { v with lost := v.lost.filter (fun x => x != l) ++ [l] }).loseData p (.granule (s1.linGranule o)) ids
    else ((foldS State.abortCmd s1 ids).noLining p).freeBytes o 64

/-! ### Requests (R189, R195-R198) -/

/-- An address of close memory that the layout in effect makes addressable (R190, R201). -/
def State.addressed (s : State) (a : Nat) : Bool :=
  isClose a && decide (a - s.sliceStart (s.partOfClose a) < s.addressable)

/-- CLOSE_MEMORY_REQUEST (R190, R195-R197, R487, R639, R640): a read, a write, or a read-modify-write of one line at its controller.
`errs` gives the stored symbols that read wrong, `cmd` the command the request is made for (log 60). A request that falls in no
range, or past what the layout makes addressable, is not performed and ends its command; one of a line that a host may hold waits for
its back-invalidation (R312), one of a line in error for its repair (R198), and a write of a frozen granule for a staging buffer (R276). -/
def execCloseMemoryRequest (addr : Nat) (wr : Option (List Byte)) (len : Nat) (errs : List (Nat × Byte))
    (cmd : Option Nat) (s : State) : Host.Outcome State Fault Refusal :=
  whenFormed (wr.all (fun d => d.length == len) && decide (0 < len) && decide (addr % 64 + len ≤ 64)) <|
  whenLive s <|
    if !s.addressed addr then
      match cmd with
      | some id => .next (s.quenchCmd id (if isClose addr then 1 else 3))
      | none => .fault .noSuchAddress
    else
      let p := s.partOfClose addr
      let (d, l) := s.lineOf addr
      whenRoused s p <|
      whenDue (!(s.dev d).retired) <| whenFree (!(s.dev d).lost.contains l && (wr.isNone || s.stageOk addr len)) s <|
      withRecall [(addr, len)] s <|
        let data := s.memBytes (addr / 64 * 64) 64
        let reads := wr.isNone || decide (len < 64)
        let found := if reads then readLine data l errs else .clean data
        let s1 := if reads then (s.bumpFrg d 1 64).bumpPart p 11 64 else s
        let s2 := match found with
          | .clean b => s1.pokeMem (addr / 64 * 64) b
          | .corrected b => (s1.pokeMem (addr / 64 * 64) b).countCorrected d l
          | .lost => s1
        let s3 := match wr with
          | some bs => ((s2.writeLocal addr bs).bumpFrg d 2 64).bumpPart p 12 64
          | none => s2
        .next (match found with
          | .lost => (s3.loseLine d l cmd.toList).spareHandled d [l]
          | _ => s3)

/-! ### Scrub (R199, R209, R210) -/

/-- A forager has a software descriptor to run: one is running, or may start (R277). -/
def State.softwareDue (s : State) (d : Nat) : Bool :=
  (s.frg d).running.isSome || s.fdescs.any fun x => x.frgs.contains d && s.canStart x

/-- The lines of the page of a device line. -/
def pageLines (l : Nat) : List Nat := (List.range 30).map fun i => l / 30 * 30 + i

/-- The last line of a device. -/
def lastLine : Nat := 94371839

/-- SCRUB (R197, R199, R209, R210, R219, R488): the next line of a device is read; a correctable error is corrected, a line
in error is lost, and a stamp that does not match takes every line of its page. The reads run in ascending order (log 57).
No bitmap bit is set (R274). `flips` are the bits of the page's stored stamp that an upset has changed since it was written. Every
other work of the forager goes before (R277). -/
def execScrub (dev line : Nat) (errs : List (Nat × Byte)) (flips : Word) (s : State) :
    Host.Outcome State Fault Refusal :=
  whenFormed (decide (dev < 32) && decide (line < 94371840)) <|
  whenLive s <| whenRoused s (s.partOfDev dev) <|
  whenDue (!(s.dev dev).retired && (s.dev dev).scrubAt == line && !s.softwareDue dev &&
      !s.writeParked dev && ((s.frg dev).frozen.clear || (s.epochOf (s.partOfDev dev)).state != 3)) <|
    let s := s.flipStamp dev (linePlace line).page flips
    let v := s.dev dev
    let s1 := s.setDev dev (if line = lastLine then { v with scrubAt := 0, passes := min (v.passes + 1) (2 ^ 32 - 1) }
      else { v with scrubAt := line + 1 })
    let data := match s1.offsetOfLine dev line with
      | some o => s1.memBytes o 64
      | none => List.replicate 64 0
    let s2 := (s1.bumpFrg dev 1 64).bumpPart (s.partOfDev dev) 11 64
    if s.stampOf dev (linePlace line).page ≠ pageStamp (linePlace line).page then
      let ls := (pageLines line).filter fun l => !(v.lost.contains l)
      .next ((foldS (fun s l => s.loseLine dev l []) s2 ls).spareHandled dev ls)
    else if v.lost.contains line then .next s2
    else
      .next (match readLine data line errs with
        | .clean _ => s2
        | .corrected _ => s2.countCorrected dev line
        | .lost => (s2.loseLine dev line []).spareHandled dev [line])

/-! ### Retired devices (R213-R217) -/

/-- Retire a device (R214-R216): into the reserve, whose data are rebuilt from the lining with the module as its own
spare, or for substitution. The test record becomes invalid (R588). -/
def State.retireDevice (s : State) (d : Nat) : State :=
  let p := s.partOfDev d
  let v := s.dev d
  let s1 := ((s.setDev d { v with retired := true, lost := [], need := [] }).retire p 4 1 d d d).spoilRecord 5
  if s.boot.reserveOn && s.reserve.isNone then
    let ks := s1.startedIn p
    ((({ s1 with reserve := some d }).reassign p).fillQueues).loseData p (.device d) ks
  else (((s1.reassign p).fillQueues).escalate p 2 d 0).faultNotice p 2

/-- The condition of R213 holds. What the controller itself sees of the interface is the environment's. -/
def State.deviceFails (s : State) (d : Nat) (c : DevCause) : Bool :=
  let v := s.dev d
  match c with
  | .noSpareRow => !v.need.isEmpty
  | .errorRows => decide (4 ≤ ((v.ues.filter fun e => s.recent e.2).map Prod.fst).eraseDups.length)
  | .interface => true
  | .forager => (s.frg d).retired && s.homeG (s.partOfDev d) != 0

/-- DEVICE_RETIRE (R213-R216). -/
def execDeviceRetire (dev : Nat) (cause : DevCause) (s : State) : Host.Outcome State Fault Refusal :=
  whenFormed (decide (dev < 32)) <|
  whenLive s <| whenDue (!(s.dev dev).retired && s.deviceFails dev cause) <| .next (s.retireDevice dev)

end Sys2Proof.Machine
end

