-- ==== Sys2Proof/Machine/Commands.lean ====
section
/-!
DEFINITION. The commands of the rings: start, effects and completion (R80, R90-R96, R106, R310-R314, R352-R366, R463,
R510, R528, R640-R644).
-/

namespace Sys2Proof.Machine

/-! ### The drip queue (R350) -/

/-- The command processors of each partition (R38). -/
def State.procs (s : State) : Nat := 4 / s.parts

/-- The command processor that serves a ring (R38, R348). -/
def State.procOf (s : State) (p ring : Nat) : Nat := p * s.procs + ring % s.procs

/-- Take a command out of its drip queue. -/
def State.undrip (s : State) (c : Cmd) : State :=
  let k := s.procOf c.part c.ring
  let q := s.drip k
  s.setDrip k { q with stages := q.stages.filter (fun i => i != c.id) }.refill

/-! ### Command-latched counters (R640-R644) -/

/-- The value of an event for a command (R640). -/
def State.eventValue (s : State) (c : Cmd) (code : Nat) : Word :=
  if code = 0 then 0
  else if code ≤ 10 then
    ((List.range 64).filter (fun b => bit (kmask c.d) b)).foldl (fun a b => a + s.event (16 + b) code) 0
  else if code ≤ 19 then s.event c.part code
  else if code = 20 then s.now
  else 0

/-- The selections of a partition as in effect (R641). -/
def State.selections (s : State) (p : Nat) : Nat :=
  s.barW (0x078000 + 0x100 * p) + s.barW (0x078008 + 0x100 * p) * 2 ^ 64

/-- The 16 counters of a command. -/
def State.counters (s : State) (c : Cmd) (sel : Nat) : List Word :=
  (List.range 16).map fun j => s.eventValue c (bits sel (8 * j) 8)

/-- Counter records are in effect for a partition (R641, R642). -/
def State.crecOn (s : State) (p : Nat) : Bool := s.barB (0x078018 + 0x100 * p) 0

/-! ### The start decision (R92, R310, R352, R362) -/

/-- Another command of the same ring stands before `c` in intake order. -/
def Cmd.before (b c : Cmd) : Bool := b.part == c.part && b.ring == c.ring && decide (b.seq < c.seq)

/-- Not yet started. -/
def Cmd.waiting (c : Cmd) : Bool := c.phase == .queued || c.phase == .parked

/-- The turn of a command in its ring has come: every earlier one has started, and no earlier `FENCE` is incomplete. -/
def State.ringTurn (s : State) (c : Cmd) : Bool :=
  !s.cmds.any fun b => b.before c && (b.waiting || kclass b.d == 6)

/-- The combs of a mask that running commands occupy (R91). -/
def State.busyCombs (s : State) : Nat := s.cmds.foldl (fun m c => m ||| c.claimed.toNat) 0

/-- No wait entry of a command is outstanding. -/
def State.waitsMet (s : State) (id : Nat) : Bool :=
  !s.waits.any fun w => match w.who with
    | .command i _ => i == id
    | _ => false

/-- A command that waits for combs: it is queued, or parked with its waits satisfied, and its ring's turn has come
(log 45). -/
def State.wantsCombs (s : State) (c : Cmd) : Bool :=
  kclass c.d == 1 && s.ringTurn c && (c.phase == .queued || (c.phase == .parked && s.waitsMet c.id))

/-- Every comb in the mask of a `KERNEL` is free, and none is kept for a command before it (R92). -/
def State.combsFree (s : State) (c : Cmd) : Bool :=
  kclass c.d != 1 ||
    (kmask c.d &&& s.busyCombs == 0 &&
      !s.cmds.any fun b => b.id != c.id && s.wantsCombs b && kmask b.d &&& kmask c.d != 0 &&
        (decide (c.prio < b.prio) || (b.prio == c.prio && decide (b.seq < c.seq)) ||
          (decide (b.seq < c.seq) && decide (c.prio ≤ b.prio))))

/-- An item that the reader takes before `c`: of higher priority, or as high and older (R350). -/
def State.readerAhead (s : State) (c : Cmd) : Bool :=
  let q := s.drip (s.procOf c.part c.ring)
  s.cmds.any fun b => b.id != c.id && q.stages.contains b.id && b.phase == .queued && s.ringTurn b && s.combsFree b &&
    (decide (c.prio < b.prio) || (b.prio == c.prio && decide (b.seq < c.seq)))

/-- The intake record of a command has been performed (R526). -/
def State.recorded (s : State) (c : Cmd) : Bool := !s.pendingBefore c.stamp fun o => o == .log c.part

/-- A start may be decided in a partition: a placement stands, and no cut or freeze holds it (R1, R512). -/
def State.starts (s : State) (p : Nat) : Bool := s.serving p && s.fab.placed && !(s.epochOf p).stopped

/-- A logical cell that the command needs is unserved (R85), or memory it names is gone (R216). -/
def State.strandedCmd (s : State) (c : Cmd) : Bool :=
  (kclass c.d == 1 && (cellsOfMask (kmask c.d)).any fun n => (s.remapOf n).state == 3) ||
    (kclass c.d == 2 && (s.goneIn (karg c.d 0) (karg c.d 2) || s.goneIn (karg c.d 1) (karg c.d 2)))

/-- The entry after an entry of a ring, with its pass. -/
def State.nextEntry (s : State) (p ring e : Nat) (w : Bool) : Nat × Bool :=
  if e + 1 = 2 ^ s.barF (regKey p (0x014008 + 0x40 * ring)) 1 5 then (0, !w) else (e + 1, w)

/-- head passes the entry of a command, and the head line is due (R353). -/
def State.passHead (s : State) (c : Cmd) : State :=
  let r := s.ring c.part c.ring
  let (h, w) := s.nextEntry c.part c.ring c.entry c.wrap
  s.setRing c.part c.ring { r with head := h, headWrap := w, lineDue := true }

/-- Refuse a command, or end one before it starts: no wait, signal or other effect (R362). -/
def State.refuseCmd (s : State) (c : Cmd) (status detail : Nat) : State :=
  ((s.undrip c).setCmd { c with
    phase := .finished, status := status, detail := detail, signalled := true, t0 := s.now }).passHead c

/-- The index that a command requests (R463): its own, or its partition's default. -/
def State.requestOpp (s : State) (c : Cmd) : Nat :=
  if dfield c.d 0 19 1 = 1 then dfield c.d 0 20 4 else s.barF (0x050100 + 8 * c.part) 20 4

/-- Start a command (R352, R643). A `KERNEL` takes its combs (R92). -/
def State.begin (s : State) (c : Cmd) : State :=
  let sel := s.selections c.part
  let latch := dfield c.d 0 11 1 == 1 && s.crecOn c.part
  let s1 := (s.undrip c).setCmd { c with
    phase := .started, t0 := s.now, order := 1 + s.cmds.foldl (fun m b => max m b.order) 0, opp := s.requestOpp c,
    latch := latch, sel := BitVec.ofNat 128 sel,
    snap := if latch then s.counters c sel else [],
    claimed := if kclass c.d = 1 then BitVec.ofNat 64 (kmask c.d) else 0,
    extra := (s.epochOf c.part).epoch + 1 }
  let s2 := if kclass c.d = 1 then
      foldS (fun s n => s.setCell n { s.cell n with cmd := some c.id }) s1 (cellsOfMask (kmask c.d))
    else s1
  (s2.trace 1 c.part c.ring c.entry (if s.linOn c.part then c.intake else 0) (dfield c.d 0x20 0 64)).passHead c

/-- Enter the wait entries of a command (R310, R360). -/
def State.enterWaits (s : State) (c : Cmd) : State :=
  foldS (fun s i =>
    let x := kwait c.d i
    s.enterWait { who := .command c.id i, obj := bits x 0 16, eq := bit x 16, v := BitVec.ofNat 64 (bits x 24 40),
                  held := true }) s (List.range (knwait c.d))

/-! ### What commands read -/

/-- Read `len` bytes that a command names, from place `at_` of what it fetches on. What is not valid any more ends the command
(R190). -/
def State.fetchAt (s : State) (c : Cmd) (eng a len at_ : Nat) : State :=
  match s.reach c.part .data false true a len with
  | .ok h => s.fetchFrom c.id eng c.part h at_ len
  | .bound => s.quenchCmd c.id 1
  | .denied => s.quenchCmd c.id 3

/-- The `len` bytes from place `at_` of what a command has fetched. -/
def Cmd.fetched (c : Cmd) (at_ len : Nat) : List Byte :=
  let t := (c.fetch.getD []).foldl (fun t e => putBytes memDefault t e.1 e.2) []
  (List.range len).map fun i => Tab.get memDefault t (at_ + i)

/-- Nothing that a command fetches is still on its way. -/
def State.fetchedAll (s : State) (id : Nat) : Bool := !s.outstanding (.fetch id)

/-- Memory that an access reads is whole: no line of it waits for a repair, none of it lay on a device that is gone, and no reset
holds it (R198, R216, R549). -/
def State.whole (s : State) (a len : Nat) : Bool := !s.lostIn a len && !s.goneIn a len

/-- Where a command that had not started has ended, head passes its entry. -/
def State.passEnded (s : State) (c : Cmd) : State :=
  if c.waiting && (s.cmd c.id).any (fun d => d.phase == .finished) then s.passHead c else s

/-- An access of a command that reads the `n` bytes at `a` and writes those at `b`. One that touches memory on a device that is gone
waits for a substitution, or ends the command (R216); one that finds an uncorrectable word of cell memory waits, or ends it (R52);
one on the memory of a cell under reset waits (R549).
Otherwise the access goes on with the corrections counted. -/
def moveReads (c : Cmd) (a b n : Nat) (s : State) (k : State → Host.Outcome State Fault Refusal) :
    Host.Outcome State Fault Refusal :=
  if s.goneIn a n || s.goneIn b n then whenFree (!s.substitutes c.part) s <| .next ((s.abortCmd c.id).passEnded c)
  else if s.lostIn a n || s.resetHolds b n then .next s
  else
    let bad := s.badWords a n
    if bad.isEmpty then k (s.bump 51 (s.correctable a n))
    else whenFree (!s.awaitsRepair c.part bad) s <| .next ((s.loseWords c.part [c.id] bad).passEnded c)

/-- Run `k` on the `len` bytes of the descriptor that a command names, once they have come: the row is taken again while they are on
their way (R226, R319). -/
def withDesc (c : Cmd) (s : State) (k : State → Cmd → List Byte → Host.Outcome State Fault Refusal) :
    Host.Outcome State Fault Refusal :=
  let a := karg c.d 0
  let len := klen c.d
  let go := fun (s : State) =>
    if s.fetchedAll c.id then
      withItem (s.cmd c.id) fun d => if d.status = 0 then k s d (d.fetched 0 len) else .next (s.passEnded c)
    else whenDue c.fetch.isNone <| .next s
  if c.fetch.isSome then go s
  else moveReads c (s.localAt c.part a) (s.localAt c.part a) len s fun s =>
    go ((s.setCmd { c with fetch := some [] }).fetchAt c (Engine.processor (s.procOf c.part c.ring)).key a len 0)

/-- The checks of R362 on a command whose turn has come: it is refused, or `k` goes on. The descriptor that a `COLLECT` names is read for
them (R428, R430), and read again once the command has started. -/
def checkedCmd (c : Cmd) (s : State) (k : State → Cmd → Host.Outcome State Fault Refusal) : Host.Outcome State Fault Refusal :=
  let readable := match s.argReach c.part false (karg c.d 0) (klen c.d) with
    | .ok _ => kclass c.d == 4 && klen c.d != 0
    | _ => false
  match s.checkCmd c.part c.d with
  | some (.format, o) => .next (s.refuseCmd c Bad.format.status o)
  | r =>
    if readable then
      withDesc c s fun s c bs =>
        match s.collBad c.part bs, r with
        | some (.format, o), _ => .next (s.refuseCmd c Bad.format.status o)
        | _, some (b, o) => .next (s.refuseCmd c b.status o)
        | some (b, o), none => .next (s.refuseCmd c b.status o)
        | none, none => k s { c with fetch := none }
    else match r with
      | some (b, o) => .next (s.refuseCmd c b.status o)
      | none => k s c

/-- COMMAND_START (R1, R85, R92, R310, R352, R362): a command's turn comes; it is checked, its waits are tested, and it
starts, or is refused, parked, or ended when it can never run. The row is taken again while a descriptor is on its way. -/
def execCommandStart (id : Nat) (s : State) : Host.Outcome State Fault Refusal :=
  whenLive s <| withItem (s.cmd id) fun c =>
    whenDue (c.waiting && s.starts c.part && s.ringTurn c && s.recorded c) <|
      if c.phase = .queued then
        whenDue ((s.drip (s.procOf c.part c.ring)).stages.contains id && !s.readerAhead c) <|
          checkedCmd c s fun s c =>
            let s1 := s.enterWaits c
            if !s1.waitsMet id then .next ((s1.undrip c).setCmd { c with phase := .parked })
            else if s.strandedCmd c then whenFree (!s.substitutes c.part) s <| .next (s.refuseCmd c 4 0)
            else whenFree (s.combsFree c) s <| .next (s1.begin c)
      else
        whenFree (s.waitsMet id) s <|
          if s.strandedCmd c then whenFree (!s.substitutes c.part) s <| .next (s.refuseCmd c 4 0)
          else whenFree (s.combsFree c) s <| .next (s.begin c)

/-! ### What the classes do (R93, R94, R106, R314, R356-R359, R510) -/

/-- An effect of a command of a class that has started and is not quenched. -/
def classEffect (id cls : Nat) (s : State) (k : Cmd → Host.Outcome State Fault Refusal) :
    Host.Outcome State Fault Refusal :=
  whenLive s <| withItem (s.cmd id) fun c =>
    whenDue (c.phase == .started && c.status == 0 && kclass c.d == cls && !(s.epochOf c.part).stopped) <| k c

/-- The class has had its effect. -/
def Cmd.perform (c : Cmd) : Cmd := { c with performed := true }

/-- The place from which the mover of comb `b` puts the image that it reads: above any image. -/
def imageAt (b : Nat) : Nat := 2 ^ 20 * b

/-- The combs of a mask. -/
def combsIn (m : Nat) : List Nat := (List.range 64).filter fun b => bit m b

/-- KERNEL (R69, R90, R93, R96, R357): the combs take up the command and its operating point, and the mover of each reads the image, once it
has fewer than 16 transfers in flight. No image or no comb ends it with `OK`. -/
def execKernel (id : Nat) (s : State) : Host.Outcome State Fault Refusal :=
  classEffect id 1 s fun c => whenDue (!c.performed) <|
    if klen c.d = 0 ∨ kmask c.d = 0 then .next (s.setCmd { c.perform with phase := .finished })
    else
      let a := s.localAt c.part (karg c.d 0)
      whenFree ((combsIn (kmask c.d)).all fun b => decide (s.moverLoad b < 16)) s <|
      moveReads c a a (klen c.d) s fun s =>
      let s1 := (s.setCmd { c.perform with fetch := some [] }).retuneAll
      .next (foldS (fun s b => s.fetchAt c (Engine.mover b).key (karg c.d 0) (klen c.d) (imageAt b)) s1 (combsIn (kmask c.d)))

/-- The word list of an image. -/
def imageWords (bs : List Byte) : Tab Word :=
  Tab.setAll (fun _ => 0) [] ((List.range (bs.length / 8)).map fun i =>
    (i, BitVec.ofNat 64 (leNat ((bs.drop (8 * i)).take 8))))

/-- A cell starts a command (R46, R106). A cell that shares its physical cell and is switched out waits for its switch (R80): its
state and its image go to its save area (R93). -/
def State.startCell (s : State) (c : Cmd) (img : Tab Word) (len rank ncells n : Nat) : State :=
  let k := s.cell n
  let a := ((Arch.reset.setS 1 (BitVec.ofNat 64 (karg c.d 2))).setS 2 (BitVec.ofNat 64 (bits (karg c.d 1) 32 32)))
  let put := fun (t : State) => if t.isAway n then t.saveState (.cmd c.id) n else t
  put <| s.setCell n { k with
    arch := a, imem := img, imageLen := len, run := .issuing, fence := .none, slots := [], portQ := [], refusal := none,
    ident := { cellid := BitVec.ofNat 9 n, combid := BitVec.ofNat 6 (n / 8), rank := BitVec.ofNat 9 rank,
               ncells := BitVec.ofNat 10 ncells, part := BitVec.ofNat 2 c.part, arev := BitVec.ofNat 16 s.arev,
               cmdtag := BitVec.ofNat 32 (dfield c.d 0x18 32 32) } }

/-- KERNEL_IMAGE_LOADED (R46, R93, R94, R106): the image has come, and is in every serving cell of each comb at once; the identity
registers are set, and every cell issues from index 0. -/
def execKernelImageLoaded (id : Nat) (s : State) : Host.Outcome State Fault Refusal :=
  classEffect id 1 s fun c => whenDue (c.performed && !c.loaded && s.fetchedAll id) <|
    let cells := cellsOfMask (kmask c.d)
    let load := fun s b =>
      let img := imageWords (c.fetched (imageAt b) (klen c.d))
      foldS (fun s n => s.startCell c img (klen c.d / 8) (cells.idxOf n) cells.length n) s (cells.filter fun n => n / 8 == b)
    .next (foldS load (s.setCmd { c with loaded := true, fetch := none }) (combsIn (kmask c.d)))

/-- The comb mover of a partition with the fewest transfers in flight, the lowest among equals (R358). -/
def State.idleMover (s : State) (p : Nat) : Nat :=
  let first := p * s.combsPer
  (List.range s.combsPer).foldl (fun m i => if s.moverLoad (first + i) < s.moverLoad m then first + i else m) first

/-- The pieces of a `MOVE`. -/
def pieces (d : Nat) : Nat := (karg d 2 + 4095) / 4096

/-- MOVE (R69, R286, R358): one piece of up to 4 KiB, by a comb mover with fewer than 16 transfers in flight, in any order; a piece waits
for bytes of it that earlier pieces have its mover still to write. -/
def execMove (id piece : Nat) (s : State) : Host.Outcome State Fault Refusal :=
  classEffect id 2 s fun c => whenDue (decide (piece < pieces c.d) && !c.pieces.any fun e => e.1 == piece) <|
    let o := 4096 * piece
    let n := min 4096 (karg c.d 2 - o)
    moveReads c (s.localAt c.part (karg c.d 0 + o)) (s.localAt c.part (karg c.d 1 + o)) n s fun s =>
      let b := s.idleMover c.part
      let e := (Engine.mover b).key
      whenFree (decide (s.moverLoad b < 16) && !s.engineHeld e && !s.owes e (s.localAt c.part (karg c.d 0 + o)) n &&
          !s.owes e (s.localAt c.part (karg c.d 1 + o)) n) s <|
        let s1 := s.setCmd { c with pieces := c.pieces ++ [(piece, b)] }
        let s2 := match s.reach c.part .data false true (karg c.d 0) (karg c.d 2),
            s.reach c.part .data true true (karg c.d 1) (karg c.d 2) with
          | .ok a, .ok h =>
            s1.transfer (.piece id piece) e c.part (a.add o) (h.add o) (karg c.d 1 + o) n [(0, 0, n)]
          | _, _ => s1.setCmd { c with pieces := c.pieces ++ [(piece, b)], status := 3 }
        .next (s2.bumpComb b 7 n)

/-- FORAGE (R234-R237): the sequencer accepts the descriptor, or the command ends with the status of its refusal. -/
def execForage (id : Nat) (s : State) : Host.Outcome State Fault Refusal :=
  classEffect id 3 s fun c => whenDue (!c.performed) <|
    if klen c.d = 0 then .next (s.setCmd { c.perform with phase := .finished })
    else withDesc c s fun s c bs =>
      whenFree (decide (s.places (seqOf bs) < 64)) s <|
        match s.checkForage c.part bs with
        | some b => .next (s.setCmd { c.perform with phase := .finished, status := b.status, signalled := true })
        | none => .next ((s.setCmd c.perform).acceptForage c.part (.cmd id) bs)

/-- COLLECT (R428-R431): the collective engine accepts the descriptor, or the command ends with the status of its
refusal. -/
def execCollect (id : Nat) (s : State) : Host.Outcome State Fault Refusal :=
  classEffect id 4 s fun c => whenDue (!c.performed) <|
    if klen c.d = 0 then .next (s.setCmd { c.perform with phase := .finished })
    else whenFree s.collRoom s <| withDesc c s fun s c bs =>
      match s.collBad c.part bs with
      | some (b, o) => .next (s.setCmd { c.perform with phase := .finished, status := b.status, detail := o, signalled := true })
      | none => .next ((s.setCmd c.perform).acceptColl c.part (.cmd id) bs)

/-- SYNC (R314): its wait entries have been satisfied; its signal entries follow at completion. -/
def execSync (id : Nat) (s : State) : Host.Outcome State Fault Refusal :=
  classEffect id 5 s fun c => whenDue (!c.performed) <| .next (s.setCmd { c.perform with phase := .finished })

/-- FENCE (R314, R356): it waits until every earlier command of its ring is complete. -/
def execFence (id : Nat) (s : State) : Host.Outcome State Fault Refusal :=
  classEffect id 6 s fun c => whenDue (!c.performed) <| whenFree (!s.cmds.any fun b => b.before c) s <|
    .next (s.setCmd { c.perform with phase := .finished })

/-- EPOCH (R508, R510): a boundary is requested; the command completes when the epoch whose cut follows its start is
swarm-committed. -/
def execEpoch (id : Nat) (s : State) : Host.Outcome State Fault Refusal :=
  classEffect id 7 s fun c => whenDue (!c.performed) <|
    .next ((s.setCmd c.perform).requestBoundary c.part false)

/-- A `POWER` command writes a field of `PWR_PART` of its partition, staged and in effect (R359, R473). -/
def powerField (id action lsb width : Nat) (s : State) : Host.Outcome State Fault Refusal :=
  classEffect id 8 s fun c => whenDue (!c.performed && karg c.d 0 == action) <|
    .next ((s.setBarF (0x050100 + 8 * c.part) lsb width (karg c.d 1)).setCmd { c.perform with phase := .finished })

/-- POWER_WAKE_TOLERANCE: action 0. -/
def execPowerWakeTolerance (id : Nat) (s : State) : Host.Outcome State Fault Refusal := powerField id 0 0 17 s

/-- POWER_DEFAULT_OPP: action 1. -/
def execPowerDefaultOpp (id : Nat) (s : State) : Host.Outcome State Fault Refusal := powerField id 1 20 4 s

/-- NOP_COMMAND (R356). -/
def execNopCommand (id : Nat) (s : State) : Host.Outcome State Fault Refusal :=
  classEffect id 9 s fun c => whenDue (!c.performed) <| .next (s.setCmd { c.perform with phase := .finished })

/-! ### Completion (R95, R139, R140, R311, R313, R365, R366, R528, R643, R644) -/

/-- A cell of a `KERNEL` has nothing left to do (R95, R237; log 143). -/
def State.cellDone (s : State) (n : Nat) : Bool :=
  let k := s.cell n
  !k.run.active && k.slots.isEmpty && k.portQ.isEmpty && k.refusal.isNone && !s.localPending n &&
    !s.fab.rtx.any fun r => r.owner.ofCell n

/-- Every effect of a command has been performed. -/
def State.effectsDone (s : State) (c : Cmd) : Bool :=
  (match kclass c.d with
    | 1 => c.phase == .finished || (c.loaded && c.cells.all s.cellDone) || (!c.loaded && c.status != 0)
    | 2 => c.phase == .finished || c.status != 0 || (c.phase == .started && c.pieces.length == pieces c.d)
    | 6 => c.phase == .finished || c.status != 0
    | 7 => c.phase == .finished || c.status != 0 ||
        (c.performed && decide (c.extra ≤ (s.epochOf c.part).committed))
    | _ => c.phase == .finished || (c.status != 0 && !c.performed)) && !s.cmdPending c.id &&
    !s.sigs.any (fun g => g.cmd == some c.id) &&
    !s.link.bis.any fun b => match b.what with
      | .sig g => g.cmd == some c.id
      | _ => false

/-- The status of a program fault cause (R139). -/
def causeStatus (k : Nat) : Nat := if k = 6 then 1 else if k = 7 then 3 else 2

/-- The status with which a command completes (R140, R364). -/
def Cmd.final (c : Cmd) : Nat :=
  if c.hwFail then 4
  else match c.fault with
    | some (_, k, _) => causeStatus k.toNat
    | none => c.status

/-- The record of the command is in the effect log of a replay (R538). -/
def State.replayed (s : State) (c : Cmd) : Bool :=
  let e := s.epochOf c.part
  e.recStep == 6 && e.replayEff.any fun r => r.kind == 1 && r.ref == c.intake

/-- The counter record of a command is written (R643). -/
def State.writesCrec (s : State) (c : Cmd) : Bool := c.latch && !s.replayed c

/-- The number of the next counter record of a partition (R641). -/
def State.crecNext (s : State) (p : Nat) : Nat := Tab.get (fun _ => 0) s.dbg.crecNext p

/-- The address of counter record `r` of partition `p` (R642). -/
def State.crecAddr (s : State) (p r : Nat) : Nat :=
  s.barF (0x078010 + 0x100 * p) 8 56 * 256 + 256 * (r % 2 ^ s.barF (0x078018 + 0x100 * p) 1 5)

/-- The 256 bytes of a counter record (R644). -/
def State.crecBytes (s : State) (c : Cmd) (r : Nat) : List Byte :=
  leBytes 8 (dfield c.d 0x20 0 64) ++
    leBytes 8 (c.entry + c.ring * 2 ^ 16 + c.part * 2 ^ 22 + c.final * 2 ^ 24) ++
    leBytes 8 (dfield c.d 0x18 0 64) ++
    leBytes 8 (dfield c.d 0 24 10 + c.opp * 2 ^ 10 + r % 2 ^ 32 * 2 ^ 32) ++
    leBytes 8 c.t0.toNat ++ leBytes 8 s.now.toNat ++ leBytes 16 c.sel.toNat ++
    (List.zipWith (fun e b => leBytes 8 (e - b).toNat) c.ends c.snap).flatten ++ leBytes 64 0

/-- Write the counter record of a command, if it has one. -/
def State.writeCrec (s : State) (c : Cmd) : State :=
  if s.writesCrec c then
    let r := s.crecNext c.part
    let a := s.crecAddr c.part r
    let s1 := { s with dbg := { s.dbg with crecNext := Tab.set (fun _ => 0) s.dbg.crecNext c.part ((r + 1) % 2 ^ 32) } }
    match s.reach c.part .data true false a 256 with
    | .ok h => (s1.deliver (.cmd c.id) (Engine.processor 0).key c.part h (s.crecBytes c r)).setCmd { c with extra := a }
    | _ => s1.setCmd { c with extra := 0 }
  else s.setCmd { c with extra := 0 }

/-- The 32 bytes of a completion record (R365). `extra` holds the address of the counter record. -/
def State.cplBytes (s : State) (c : Cmd) : List Byte :=
  let us := min ((s.now - c.t0).toNat / 100) (2 ^ 32 - 1)
  let f := match c.fault with
    | some (n, k, pc) => n + k.toNat * 2 ^ 9 + pc.toNat * 2 ^ 13
    | none => 0
  leBytes 8 (dfield c.d 0x20 0 64) ++
    leBytes 8 (c.entry + c.ring * 2 ^ 16 + c.part * 2 ^ 22 + c.final * 2 ^ 24 + (if c.wrap then 0 else 2 ^ 28) +
      (if c.fault.isSome then 2 ^ 29 else 0) + us * 2 ^ 32) ++
    leBytes 8 (f + c.detail * 2 ^ 32) ++ leBytes 8 c.extra

/-- The address of the completion area of a ring. -/
def State.cplBase (s : State) (p ring : Nat) : Nat := s.barF (regKey p (0x014010 + 0x40 * ring)) 6 58 * 64

/-- No command of a ring is queued, waiting or running, and every record of it has been written (R337, R341). -/
def State.ringIdle (s : State) (p ring : Nat) : Bool :=
  let a := s.cplBase p ring
  !s.cmds.any (fun c => c.part == p && c.ring == ring) && !s.far.any fun r =>
    r.wr && r.part == p && r.addr / 2 ^ 60 == a / 2 ^ 60 && decide (a % 2 ^ 60 ≤ r.off) &&
      decide (r.off < a % 2 ^ 60 + 32 * 2 ^ s.barF (regKey p (0x014008 + 0x40 * ring)) 1 5)

/-- The ticks that the watchdog of a command has counted. -/
def State.counted (s : State) (id : Nat) : Nat := Tab.get (fun _ => 0) s.resets.wdog id

/-- Set them. -/
def State.setCounted (s : State) (id n : Nat) : State :=
  { s with resets := { s.resets with wdog := Tab.set (fun _ => 0) s.resets.wdog id n } }

/-- Free what a command holds: its cells, its combs, its place in the list. -/
def State.freeCmd (s : State) (c : Cmd) : State :=
  let s1 := foldS (fun s n =>
    let k := s.cell n
    if k.cmd = some c.id then s.setCell n { k with cmd := none, run := .idle, portQ := [], refusal := none } else s)
    s c.cells
  let s2 := { s1.setCounted c.id 0 with cmds := s1.cmds.filter fun b => b.id != c.id }
  let r := s2.ring c.part c.ring
  let s3 := if s2.ringIdle c.part c.ring then s2.setRing c.part c.ring { r with lineDue := true } else s2
  if c.claimed = 0 then s3 else s3.retuneAll

/-- The signal entries of a command are issued (R311). -/
def State.issueSignals (s : State) (c : Cmd) : State :=
  foldS (fun s i =>
    s.issueSig (.processor (s.procOf c.part c.ring)) (.cmd c.id) c.part (some c.id) s.farTag
      (s.syncRef c.part (ksigObj c.d i)) (dfield c.d 0 (17 + i) 1 == 1) (BitVec.ofNat 64 (ksigVal c.d i)))
    s (List.range (knsig c.d))

/-- Write the completion record and free the command (R365, R366). -/
def State.finishCmd (s : State) (c : Cmd) : State :=
  let quiet := dfield c.d 0 10 1 == 1 && c.final == 0
  let s1 := if quiet || s.replayed c then s
    else s.ringWrite .none c.part (s.cplBase c.part c.ring + 32 * c.entry) (s.cplBytes c)
  let s2 := (s1.bump 54 1).bump 55 (if c.final = 0 then 0 else 1)
  (s2.trace 2 c.part c.ring c.entry c.final (dfield c.d 0x20 0 64)).freeCmd c

/-- The watchdogs of a partition do not count (R558). -/
def State.watchPaused (s : State) (p : Nat) : Bool :=
  let e := s.epochOf p
  (p == s.owner && !s.swarm.quench.isEmpty) || e.freezing || e.frozen || e.recStep != 0 || e.recWant

/-- A spare that has taken a member's place does not reach the structures of the command's ring yet: no window of its host covers
them (R537). -/
def State.lacksRing (s : State) (c : Cmd) : Bool :=
  (s.epochOf c.part).recWin.isSome && match s.reach c.part .rings true false (s.cplBase c.part c.ring + 32 * c.entry) 32 with
    | .ok _ => false
    | _ => true

/-- The watchdogs count for one tick (R557, R558). -/
def State.watchdogs (s : State) : State :=
  foldS (fun t c => t.setCounted c.id (t.counted c.id + 1)) s (s.cmds.filter fun c =>
    c.phase == .started && !s.watchPaused c.part && !s.lacksRing c)

/-- The last two stages of a completion: the counter record and the effect record, and then, when those have been
performed, the completion record (R313, R528). -/
def State.recordCmd (s : State) (c : Cmd) : Host.Outcome State Fault Refusal :=
  if !c.logged then
    whenFree (!s.effectFull c.part && (s.replayed c || !s.lacksRing c)) s <|
      let s1 := (s.writeCrec { c with logged := true }).appendEffect c.part 1 0 0 c.intake 0
      if s1.cmdPending c.id || s1.outstanding (.log c.part) then .next s1
      else withItem (s1.cmd c.id) fun d => .next (s1.finishCmd d)
  else whenFree (!s.outstanding (.log c.part)) s <| .next (s.finishCmd c)

/-- COMMAND_COMPLETE (R95, R140, R311, R313, R365): every effect has been performed. Signal entries come first, then
the counter record and the record in the effect log, then the completion record; the row is taken again where the next
of these must wait for the one before (log 44). A command that does not end with `OK` signals nothing (log 43). -/
def execCommandComplete (id : Nat) (s : State) : Host.Outcome State Fault Refusal :=
  whenLive s <| withItem (s.cmd id) fun c => whenDue (!c.waiting && !c.hwLost && s.effectsDone c) <|
    if !c.signalled then
      let d := { c with signalled := true, ends := if c.latch then s.counters c c.sel.toNat else [] }
      let s1 := s.setCmd d
      if d.final = 0 ∧ 0 < knsig d.d then .next (s1.issueSignals d) else s1.recordCmd d
    else s.recordCmd c

/-! ### Voltage (R464-R466) -/

/-- VOLTAGE_SETTLED: the rail of a C-die has settled for the highest index in use or waiting on the die; rises that it
held back are applied. A droop on the die holds a rise. -/
def execVoltageSettled (die : Nat) (s : State) : Host.Outcome State Fault Refusal :=
  whenFormed (decide (die < 8)) <|
  whenLive s <|
    let top := (List.range 8).foldl (fun m i =>
      max m (max (Tab.get (fun _ => 0) s.power.opp (8 * die + i)) (Tab.get (fun _ => 0) s.power.rise (8 * die + i)))) 0
    let now := Tab.get (fun _ => 0) s.power.rail die
    whenDue (top != now && !(decide (now < top) && s.dieDroop die)) <|
      .next (({ s with power := { s.power with rail := Tab.set (fun _ => 0) s.power.rail die top } }).applyRises die)

end Sys2Proof.Machine
end

