-- ==== Sys2Proof/Machine/HostLink.lean ====
section
/-!
DEFINITION. Sync-object updates, waits that a full table refused, the host link, and host accesses to the HDM range
(R291, R304, R307-R312, R318-R322, R550, R668).
-/

namespace Sys2Proof.Machine

/-! ### Sync objects (R291-R293, R304, R528) -/

/-- SYNC_OBJECT_UPDATE (R291, R293, R304, R309): the signal at a place of the list of signals under way is applied to its
object. It waits for what it releases, and for room in the effect log where its line may be held by a host. -/
def execSyncObjectUpdate (sig : Nat) (s : State) : Host.Outcome State Fault Refusal :=
  whenLive s <| withItem s.sigs[sig]? fun g =>
    let line := objLine g.obj
    whenFree (s.released g && !(s.lineHeld line && s.effectFull g.part)) s <|
      .next (({ s with sigs := s.sigs.eraseIdx sig }).applySig g)

/-- The wait belongs to a command or a collective with this identifier. -/
def Waiter.isFor (w : Waiter) (id : Nat) : Bool :=
  match w with
  | .cell _ => false
  | .command i _ => i == id
  | .collective i => i == id

/-- WAIT_RETEST (R304): a wait that a full table has not accepted is tested, and enters the table when it has room. -/
def execWaitRetest (id : Nat) (s : State) : Host.Outcome State Fault Refusal :=
  whenLive s <| whenDue (s.waits.any fun w => !w.held && w.who.isFor id) <|
    let mine := s.waits.filter fun w => !w.held && w.who.isFor id
    let rest := s.waits.filter fun w => !(!w.held && w.who.isFor id)
    .next (foldS State.enterWait { s with waits := rest } mine)

/-! ### The HDM range (R307, R320) -/

/-- What lies at an HDM offset of a function. -/
inductive HdmPlace where
  | close (off : Nat)
  | sync (obj : Nat)
  | hole
  deriving DecidableEq, Repr

/-- The bytes of the sync window of a function (R307). -/
def State.syncWindow (s : State) : Nat := 524288 / s.parts

/-- What lies at HDM offset `off` of function `fn` (R320, R321). -/
def State.hdm (s : State) (fn off : Nat) : HdmPlace :=
  let top := s.sliceBytes + 2 ^ 28
  if off < s.addressable then .close (s.sliceStart fn + off)
  else if top - s.syncWindow ≤ off ∧ off < top then .sync (8192 * s.diesPer * fn + (off - (top - s.syncWindow)) / 8)
  else .hole

/-- The line of an HDM place in the snoop filter. -/
def HdmPlace.line : HdmPlace → Nat
  | .close o => o / 64
  | .sync n => objLine n
  | .hole => 0

/-- The value of an object as a host reads it: in a recovery's replay, that of its last effect record until as many updates have
been performed as there are records (R538). -/
def State.hostObj (s : State) (n : Nat) : Word :=
  match ((s.epochOf (s.partOfSync n)).replayEff.filter fun r => r.kind == 3 && r.obj == n).getLast? with
  | some r => r.value
  | none => s.obj n

/-- The 64 bytes of the line of a place. -/
def State.hdmLine (s : State) (h : HdmPlace) : List Byte :=
  match h with
  | .close o => s.memBytes (o / 64 * 64) 64
  | .sync n => (List.range 8).flatMap fun i => leBytes 8 (s.hostObj (n / 8 * 8 + i)).toNat
  | .hole => List.replicate 64 0

/-- The entries of the snoop filter that a partition may use (R322). -/
def State.snoopShare (s : State) : Nat := 4194304 / s.parts

/-- A line that a host reads is recorded in the snoop filter; an entry keeps its age when it is read again (log 63). -/
def State.snoopAdd (s : State) (fn line : Nat) : State :=
  if s.link.snoop.contains (fn, line) then s
  else { s with link := { s.link with snoop := s.link.snoop ++ [(fn, line)] } }

/-- Answer a read of the HDM range, by the host or by a peer. -/
def State.answerRead (s : State) (fn off : Nat) (peer : Bool) : State :=
  let h := s.hdm fn off
  let s1 := match h with
    | .hole => s.bump 46 1
    | _ => if peer then s else s.snoopAdd fn h.line
  { s1 with link := { s1.link with lastRead := some (fn, off, s.hdmLine h) } }

/-- Serve a host read (R308, R312, R321, R322): where it needs an entry and its partition's share is full, the line with
the oldest entry is back-invalidated first, and the read waits. -/
def State.hostRead (s : State) (fn off : Nat) : State :=
  let h := s.hdm fn off
  let mine := s.link.snoop.filter fun e => e.1 == fn
  if h ≠ .hole ∧ !s.link.snoop.contains (fn, h.line) ∧ s.snoopShare ≤ mine.length then
    match mine.head? with
    | some e => s.pushBi e.2 (.evict fn off)
    | none => s.answerRead fn off false
  else s.answerRead fn off false

/-- Perform a host write (R308, R312, R321, R647). -/
def State.hostWrite (s : State) (fn off : Nat) (data : List Byte) : State :=
  match s.hdm fn off with
  | .close o => if s.inTrace o data.length then s.bump 46 1 else s.writeLocal o data
  | _ => s.bump 46 1

/-- A host access that waited for the end of a partition reset or of a wake is performed (R487, R550); a write of a frozen granule
when it finds a staging buffer (R276). -/
def State.serveHeld (s : State) (a : Nat × Nat × Option (List Byte)) : State :=
  match a.2.2 with
  | none => s.hostRead a.1 a.2.1
  | some d =>
    match s.hdm a.1 a.2.1 with
    | .close o => if s.stageOk o d.length then s.hostWrite a.1 a.2.1 d else s.pushBi (o / 64) (.write .none ctlKey o d)
    | _ => s.hostWrite a.1 a.2.1 d

/-- The host accesses that wait for function `fn` are performed. -/
def State.serveWaiting (s : State) (fn : Nat) : State :=
  if s.inReset fn || !s.awake fn then s
  else foldS State.serveHeld { s with link := { s.link with held := s.link.held.filter fun a => a.1 != fn } }
    (s.link.held.filter fun a => a.1 == fn)

/-- A host access waits for the end of a partition reset (R550), or of the wake that it begins (R487). -/
def State.holdHost (s : State) (fn off : Nat) (data : Option (List Byte)) : State :=
  ({ s with link := { s.link with held := s.link.held ++ [(fn, off, data)] } }).wake fn

/-- A host may reach the HDM range of a function. -/
def State.hdmOpen (s : State) (fn : Nat) : Bool :=
  s.link.up && decide (fn < s.parts) && (s.boot.ready.contains fn || s.inReset fn)

/-- Serve an access of a peer over Unordered I/O (R317): it leaves no copy of the line with the peer, and so no entry in the snoop
filter; lines that a host may hold are back-invalidated first (R312; log 123). In a partition reset it waits (R549). -/
def State.peerServed (s : State) (fn off : Nat) (data : Option (List Byte)) : Host.Outcome State Fault Refusal :=
  if s.inReset fn then .next s
  else whenAwake s fn <|
    withRecall (match s.hdm fn off with | .close o => [(o / 64 * 64, 64)] | _ => []) s <|
      .next (match data with
        | none => s.answerRead fn off true
        | some d => s.hostWrite fn off d)

/-- HOST_MEM_READ (R307, R308, R312, R317, R321, R322): a read of the line that holds an HDM offset, by the host or by a peer. A
line in error is read when it has been repaired (R198). -/
def execHostMemRead (fn : Nat) (a : HdmAccess) (s : State) : Host.Outcome State Fault Refusal :=
  let off := a.off
  whenFormed (decide (fn < 4)) <|
  whenLive s <| whenDue (s.hdmOpen fn && decide (off < s.sliceBytes + 2 ^ 28)) <|
    whenFree (!(match s.hdm fn off with | .close o => s.lostIn (o / 64 * 64) 64 | _ => false)) s <|
    if a.peer then s.peerServed fn off none
    else .next (if s.inReset fn || !s.awake fn then s.holdHost fn off none else s.hostRead fn off)

/-- HOST_MEM_WRITE (R308, R312, R317, R321): a write inside one line, by the host or by a peer; in a frozen granule once a
staging buffer is free (R276). -/
def execHostMemWrite (fn : Nat) (a : HdmAccess) (data : List Byte) (s : State) : Host.Outcome State Fault Refusal :=
  let off := a.off
  whenFormed (decide (fn < 4) && decide (0 < data.length) && decide (data.length ≤ 64)) <|
  whenLive s <| whenDue (s.hdmOpen fn && decide (off < s.sliceBytes + 2 ^ 28) && decide (off % 64 + data.length ≤ 64)) <|
    whenFree (match s.hdm fn off with | .close o => s.stageOk o data.length | _ => true) s <|
    if a.peer then s.peerServed fn off (some data)
    else .next (if s.inReset fn || !s.awake fn then s.holdHost fn off (some data) else s.hostWrite fn off data)

/-! ### Back-invalidation (R309, R312, R322) -/

/-- Perform what waited for a back-invalidation. -/
def State.afterBi (s : State) (b : Bi) : State :=
  match b.what with
  | .evict fn off => s.hostRead fn off
  | .sig g => s.updateObj g
  | .write w _ a d => s.writeFor w a d
  | .read o eng p a len dest => s.comeTo o eng p dest (s.memBytes a len)
  | .packet => s

/-- The data that a host returns to a back-invalidate: a write of the line (R312). The sync window is not written (R308). -/
def State.hostReturns (s : State) (line : Nat) (data : Option (List Byte)) : State :=
  match data with
  | some d => if isClose (64 * line) && !s.inTrace (64 * line) 64 then s.writeLocal (64 * line) d else s.bump 46 1
  | none => s

/-! ### The link (R318, R319, R370, R668) -/

/-- HOST_LINK_DOWN (R319): device-initiated accesses wait. -/
def execHostLinkDown (s : State) : Host.Outcome State Fault Refusal :=
  whenLive s <| whenDue s.link.up <| .next { s with link := { s.link with up := false } }

/-- HOST_LINK_LOST (R319, R370): the link has stayed down beyond the completion timeout. -/
def execHostLinkLost (s : State) : Host.Outcome State Fault Refusal :=
  whenLive s <| whenDue (!s.link.up && !s.link.lost) <|
    .next (({ s with link := { s.link with lost := true } }).escalateAll 8 0 0)

/-- HOST_LINK_UP (R318, R319): training ends; a partner without 256-byte flits keeps the link in training, and the
failure is an event of the management port (log 62). -/
def execHostLinkUp (flit256 : Bool) (s : State) : Host.Outcome State Fault Refusal :=
  whenLive s <| whenDue (!s.link.up && !s.link.perst) <|
    .next (if flit256 then { s with link := { s.link with up := true, lost := false } } else s.mEvent 2 0)

/-- PERST_ASSERT (R668): the CXL controller is held in reset and the link goes down. -/
def execPerstAssert (s : State) : Host.Outcome State Fault Refusal :=
  whenStandby s <| whenDue (!s.link.perst) <| .next { s with link := { s.link with perst := true, up := false } }

/-- PERST_DEASSERT (R668): link training may begin. -/
def execPerstDeassert (s : State) : Host.Outcome State Fault Refusal :=
  whenStandby s <| whenDue s.link.perst <| .next { s with link := { s.link with perst := false } }

end Sys2Proof.Machine
end

