-- ==== Sys2Proof/Machine/Power.lean ====
section
/-!
DEFINITION. The effective cap, the brake, and off orders (R13, R467-R472, R481-R483, R501, R650).
-/

namespace Sys2Proof.Machine

/-! ### The effective cap (R13, R467, R472) -/

/-- The settings and protections in force: value in W, and limiter code. -/
def State.caps (s : State) : List (Nat × Nat) :=
  [(s.power.env, 0), (s.barF 0x050000 0 12, 1), (s.power.rack, 2)] ++
    (if s.power.brake || s.power.vinBrake || s.power.fastCut then [(900, 3)] else []) ++
    (if s.power.coast then [(s.power.env * 40 / 100, 4)] else []) ++
    if s.power.guarded then [(s.power.env * 60 / 100, 5)] else []

/-- The effective cap, with its source; of equal sources the first in the table of R467 (log 64). -/
def State.capNow (s : State) : Nat × Nat :=
  s.caps.foldl (fun m c => if c.1 < m.1 then c else m) (s.power.env, 0)

/-- The effective cap in W. -/
def State.cap (s : State) : Nat := s.capNow.1

/-- A power report in every partition: its type and reason, with the cap before and after (R501). -/
def State.powerReport (s : State) (type reason before after : Nat) : State :=
  s.reportAll type reason 0 (powerBody reason before after)

/-- The trace of a change of the effective cap (R650). -/
def State.traceCap (s : State) (before : Nat) : State :=
  if s.cap = before then s else s.trace 6 0 s.capNow.2 s.cap before 0

/-- The mean input power of the last 50 µs, in mW. -/
def State.inputNow (s : State) : Nat := match s.power.wins with | w :: _ => w.input | [] => 0

/-! ### Operating points (R462) -/

/-- Frequency in MHz and core voltage in mV, typ, of an operating point. -/
def oppRow (i : Nat) : Nat × Nat :=
  [(200, 600), (250, 615), (300, 630), (350, 645), (400, 660), (450, 675), (500, 690), (550, 705), (600, 720),
   (650, 740), (700, 760), (750, 780), (800, 800), (850, 820), (925, 880), (1000, 950)].getD i (1000, 950)

/-- f · V² of an operating point. -/
def oppScale (i : Nat) : Nat := (oppRow i).1 * (oppRow i).2 * (oppRow i).2

/-! ### The demand table (R477-R479) -/

/-- The entry of a phase. -/
def State.demandOf (s : State) (ph : Nat) : Demand := Tab.get (fun _ => Demand.reset) s.power.demand ph

/-- The phase of a command. -/
def Cmd.phaseId (c : Cmd) : Nat := dfield c.d 0 24 10

/-- The demand-table entry that a comb uses, in 0.1 W: of two commands the larger (R477). -/
def State.combEntry (s : State) (comb : Nat) : Nat :=
  ((s.carried comb).map fun c => (s.demandOf c.phaseId).comb).foldl max 0

/-- The index that a comb's commands request. -/
def State.requested (s : State) (comb : Nat) : Nat := ((s.carried comb).map Cmd.opp).foldl min 15

/-- The predicted power of a comb at an index, in mW (R477). -/
def State.predict (s : State) (comb i : Nat) : Nat := s.combEntry comb * 100 * oppScale i / oppScale 13

/-- The combs that run a command. -/
def State.runningCombs (s : State) : List Nat := (List.range 64).filter fun c => !(s.carried c).isEmpty

/-- The predicted power of combs at the lower of their requested index and a level. -/
def State.predictAll (s : State) (cs : List Nat) (l : Nat) : Nat :=
  cs.foldl (fun x c => x + s.predict c (min (s.requested c) l)) 0

/-! ### The brake (R481-R483) -/

/-- The brake controls are in force (R481, R483, R664). -/
def State.braking (s : State) : Bool := s.power.brake || s.power.vinBrake || s.power.fastCut

/-- The brake controls: every comb at operating point 0, memory at 50 %, originated traffic held (R481). What the brake leaves to
each domain is what a later rise starts from (R482). -/
def State.brakeControls (s : State) : State :=
  ({ s with power := { s.power with
      gov := (List.range 64).map (fun c => (c, 0)), rise := [], memPct := 50, linkPct := 0,
      governed := { links := 0, mem := s.power.governed.mem / 2,
                    comp := min s.power.governed.comp (s.predictAll s.runningCombs 0 + 1000 * (64 - s.runningCombs.length)) }
      } }).retuneAll

/-- The brake actions, one more application of the brake (R472, R481). -/
def State.brakeActions (s : State) : State :=
  ({ s with power := { s.power with brakes := min (s.power.brakes + 1) (2 ^ 24 - 1) } }).brakeControls

/-- A fast cut: the effective cap has fallen to more than 300 W below the input mean (R483). -/
def State.fastDue (s : State) (before : Nat) : Bool :=
  decide (s.cap < before) && decide ((s.cap + 300) * 1000 < s.inputNow) && !s.power.fastCut

/-- A fast cut takes the brake actions, with reason 5 (R483). -/
def State.fastCutCheck (s : State) (before : Nat) : State :=
  let after := s.cap
  if s.fastDue before then
    let s1 := ({ s with power := { s.power with fastCut := true, fastAt := s.now } }).brakeActions
    (s1.powerReport 5 5 after s1.cap).traceCap after
  else s

/-- A change that may move the effective cap: a change made by a setting raises reason 1 or 2 (R467, R501), and a fall
may cause a fast cut. -/
def State.setCap (s : State) (f : State → State) : State :=
  let before := s.cap
  let s1 := f s
  let after := s1.cap
  let s2 := if after < before then s1.powerReport 5 1 before after
    else if before < after then s1.powerReport 5 2 before after else s1
  (s2.traceCap before).fastCutCheck before

/-- A protection is set or cleared, with its own report and that of a fast cut, in the order of the reason table and each with the
caps before and after its own change (R502); `amid` raises other reports whose place is just before its own. -/
def State.protectAmid (s : State) (type reason : Nat) (f amid : State → State) : State :=
  let before := s.cap
  let s1 := f s
  let after := s1.cap
  if type = 6 then (amid ((s1.traceCap before).fastCutCheck before)).powerReport type reason before after
  else ((((amid s1).powerReport type reason before after).traceCap before).fastCutCheck before)

/-- A protection is set or cleared. -/
def State.protect (s : State) (type reason : Nat) (f : State → State) : State := s.protectAmid type reason f id

/-- BRAKE_ASSERT (R481, R630, R674): with the main domain off the pin has no effect but for its time. -/
def execBrakeAssert (s : State) : Host.Outcome State Fault Refusal :=
  whenStandby s <| whenDue (!s.power.brakePin) <|
    let s1 := { s with
      power := { s.power with brakePin := true }, mgmt := { s.mgmt with brakeAt := some s.now } }
    .next (if s.live then
        (s1.protect 5 3 fun s => { s with power := { s.power with brake := true, brakeAt := s.now } }).brakeActions
      else s1)

/-- One millisecond in reference ticks. -/
def msTicks : Nat := 100000

/-- The brake has been applied for 1 ms (R482). -/
def State.brakeHeld (s : State) : Bool := decide (msTicks ≤ (s.now - s.power.brakeAt).toNat)

/-- The fast cut has lasted 1 ms (R482, R483). -/
def State.fastHeld (s : State) : Bool := decide (msTicks ≤ (s.now - s.power.fastAt).toNat)

/-- End a fast cut (R483): reason 2 where the effective cap rises. -/
def State.endFast (s : State) : State :=
  let f := fun (s : State) => { s with power := { s.power with fastCut := false } }
  if (f s).cap = s.cap then f s else s.protect 5 2 f

/-- Release the brake that BRAKE# applied (R482). -/
def State.endBrake (s : State) : State :=
  s.protect 5 4 fun s => { s with power := { s.power with brake := false } }

/-- BRAKE_RELEASE (R482): a release less than 1 ms after the assertion is held, and the governor's loop takes it. -/
def execBrakeRelease (s : State) : Host.Outcome State Fault Refusal :=
  whenStandby s <| whenDue s.power.brakePin <|
    let s1 := { s with power := { s.power with brakePin := false } }
    .next (if s1.live && s1.power.brake && s1.brakeHeld then s1.endBrake else s1)

/-- VIN_UNDERVOLTAGE (R664): the brake actions with reason 3. -/
def execVinUndervoltage (s : State) : Host.Outcome State Fault Refusal :=
  whenLive s <| whenDue (!s.power.vinBrake) <|
    .next (s.protect 5 3 fun s => { s with power := { s.power with vinBrake := true, brakeAt := s.now } }).brakeActions

/-- VIN_RECOVER (R482, R664): VIN_54 has been at or above 47 V for 1 ms. -/
def execVinRecover (s : State) : Host.Outcome State Fault Refusal :=
  whenLive s <| whenDue s.power.vinBrake <|
    .next (s.protect 5 4 fun s => { s with power := { s.power with vinBrake := false } })

/-! ### Off orders (R471, R498, R673) -/

/-- Commands not yet started end with `ABORTED` (R471), and the heads of their rings pass them (log 49). -/
def State.abortWaiting (s : State) (p : Nat) : State :=
  foldS (fun s c => (s.quenchCmd c.id 4).passHead c) s (s.cmds.filter fun c => c.part == p && c.waiting)

/-- The report of step 1 of R471, unless its steps are in progress. -/
def State.reportOff (s : State) : State := if s.power.draining then s else s.powerReport 5 6 s.cap s.cap

/-- Intake stops, and commands not yet started end (R471, R499). What already takes the module down keeps its kind unless the new one
is graver. -/
def State.drain (s : State) (kind : Nat) : State :=
  let s2 := { s with power := { s.power with draining := true, offKind := max s.power.offKind kind } }
  foldS State.abortWaiting s2 (List.range s2.parts)

/-- Steps 1 and 2 of R471: `POWER_EVENT` in every partition, intake stops, and commands not yet started end. -/
def State.beginOff (s : State) (kind : Nat) : State := s.reportOff.drain kind

/-- Quench everything that runs: it ends with `ABORTED` (R140, R261, R471), and so do collectives in progress. -/
def State.quenchAll (s : State) : State :=
  let s1 := foldS (fun s id => s.quenchCmd id 4) s ((s.cmds.filter fun c => c.phase == .started).map Cmd.id)
  { s1 with coll := { s1.coll with colls := s1.coll.colls.map fun c =>
      if c.started && !c.ready then { c with ready := true, status := 4 } else c } }

/-- OFF_DRAIN_TIMEOUT (R471). -/
def execOffDrainTimeout (s : State) : Host.Outcome State Fault Refusal :=
  whenLive s <| whenDue (s.power.draining && s.cmds.any fun c => c.phase == .started) <| .next s.quenchAll

/-- What the C-die, M-die and GDDR7 rails hold is lost (R471): cells but for the remap table, memory, sync objects, the
engines' state, and the linings, whose images stay in far memory. Failed units, rows and devices stay known, and the
rings stay as they are. -/
def State.railsOff (s : State) : State :=
  { s with
    cells := [], switches := [], saveMoves := [], mem := [], sync := [], sigs := [], waits := [],
    frgs := lostFrgs s.frgs, fdescs := [], devs := lostDevs s.devs, starve := [], flips := [],
    coll := { s.coll with colls := [], waggle := [], credits := [] },
    epochs := (List.range 4).filterMap fun p =>
      let e := s.epochOf p
      if e.abandoned = 0 then none else some (p, { Epoch.reset with abandoned := e.abandoned }),
    link := { s.link with bis := [], held := [], snoop := [], l0p := false },
    boot := { s.boot with ready := [], zeroFill := [] },
    swarm := { s.swarm with role := 0, admitted := false, hbStopped := true },
    power := { s.power with
      running := false, draining := false, offKind := 0, opp := [], rise := [], gov := [], rail := [], depth := [],
      waking := [] } }

/-- Every completion record has been written. -/
def State.recordsWritten (s : State) : Bool := s.cmds.isEmpty && !s.far.any fun r => r.owner == .none

/-- MAIN_DOMAIN_SHUTDOWN (R471, R498, R499, R673): after an off order, or with an inlet above its limit, the C-die, M-die and GDDR7
rails go down and the rest goes on; after PWR_EN was released, or with a leak, every main rail goes down. -/
def execMainDomainShutdown (s : State) : Host.Outcome State Fault Refusal :=
  whenLive s <| whenDue (s.power.draining && s.recordsWritten) <|
    .next (if s.power.offKind ≤ 2 then s.railsOff.storeCounts else s.mainOff.storeCounts)

/-- PWR_EN_RELEASE (R579, R673): during a start the start stops, with halt reason 4; in service the module shuts down in
order. -/
def execPwrEnRelease (s : State) : Host.Outcome State Fault Refusal :=
  whenStandby s <| whenDue s.boot.pwrEn <|
    let s1 := { s with boot := { s.boot with pwrEn := false, again := false } }
    .next (if s.live && s.power.running && s.boot.step == 8 then s1.beginOff 3
      else if s.live && s.power.draining then { s1 with power := { s1.power with offKind := max s1.power.offKind 3 } }
      else if s.live then s1.mainOff
      else if 1 ≤ s.boot.step ∧ s.boot.step < 8 then
        let t := s1.mainOff
        { t with boot := { t.boot with step := 15, halt := 4 } }
      else { s1 with boot := { s1.boot with step := 0, halt := if s.boot.step = 15 then s.boot.halt else 0 } })

/-! ### Idle depths (R485-R487) -/

/-- A partition is idle (R485): no entry of its rings is left to read, and nothing of it is queued, parked or in progress. -/
def State.idlePart (s : State) (p : Nat) : Bool :=
  !(s.cmds.any fun c => c.part == p) && !(s.fdescs.any fun d => d.part == p) &&
    !(s.coll.colls.any fun c => c.part == p) && !(List.range 64).any fun i =>
      let r := s.ring p i
      r.active && !(r.rd == r.tail && r.rdWrap == r.tailWrap)

/-- The wake time of a depth in µs, its dwell in µs. -/
def depthRow : Nat → Nat × Nat
  | 1 => (1, 0)
  | 2 => (20, 100)
  | 3 => (400, 2000)
  | _ => (30000, 100000)

/-- The wake-latency tolerance of a partition in µs (R472). -/
def State.wakeUs (s : State) (p : Nat) : Nat := s.barF (0x050100 + 8 * p) 0 17

/-- No transit packet waits in the module, and none has passed for 100 ms (R23, R486). -/
def State.noTransit (s : State) : Bool :=
  s.seams.isEmpty && s.fab.waiting.isEmpty && match s.fab.transitAt with
    | none => true
    | some t => decide (100 * msTicks ≤ (s.now - t).toNat)

/-- A partition at a depth has been idle for 100 ms, and its tolerance allows D4 (R485, R486). -/
def State.ready4 (s : State) (q : Nat) : Bool :=
  decide (3 ≤ Tab.get (fun _ => 0) s.power.depth q) &&
    decide (100 * msTicks ≤ (s.now - Tab.get (fun _ => 0) s.power.idleFrom q).toNat)

/-- The depth a partition may enter after it has been idle for some time: D4 only when every partition qualifies for
it and no transit packet has passed (R23, R485, R486). -/
def State.depthFor (s : State) (p us : Nat) : Nat :=
  let ok := fun d => decide ((depthRow d).1 ≤ s.wakeUs p) && decide ((depthRow d).2 ≤ us)
  let all4 := s.noTransit && (List.range s.parts).all fun q =>
    s.idlePart q && decide (30000 ≤ s.wakeUs q) && (q == p || s.ready4 q)
  if ok 4 && all4 then 4 else if ok 3 then 3 else if ok 2 then 2 else if ok 1 then 1 else 0

/-- IDLE_DEPTH_ENTRY (R485, R486): a partition that has been idle enters the deepest depth it may. The host link narrows while
every partition is at D3 or D4 (log 120). -/
def execIdleDepthEntry (part idleUs : Nat) (s : State) : Host.Outcome State Fault Refusal :=
  whenFormed (decide (part < 4)) <|
  whenLive s <|
    let d := s.depthFor part idleUs
    whenDue (s.power.running && decide (part < s.parts) && s.boot.ready.contains part && s.idlePart part &&
        !s.power.waking.contains part && decide (Tab.get (fun _ => 0) s.power.depth part < d)) <|
      let depth := Tab.set (fun _ => 0) s.power.depth part d
      .next { s with
        power := { s.power with
          depth := depth
          idleFrom := Tab.set (fun _ => 0) s.power.idleFrom part (s.now - BitVec.ofNat 64 (100 * idleUs)) }
        link := { s.link with l0p := (List.range s.parts).all fun q => decide (3 ≤ Tab.get (fun _ => 0) depth q) } }

/-- WAKE (R487): an update, a marker or a scrub request, or any other of the accesses that wake a partition, arrives at it. The access
waits for the end of the wake. -/
def execWake (part : Nat) (s : State) : Host.Outcome State Fault Refusal :=
  whenFormed (decide (part < 4)) <|
  whenLive s <| whenDue (Tab.get (fun _ => 0) s.power.depth part != 0 && !s.power.waking.contains part) <|
    .next (s.wake part)

/-- A module that leaves D4: its partitions are at D3 or above. -/
def shallow (depth : Tab Nat) : Tab Nat :=
  (List.range 4).foldl (fun t q => Tab.set (fun _ => 0) t q (min 3 (Tab.get (fun _ => 0) t q))) depth

/-- A transit packet passes: the module leaves D4 (R486, R487). -/
def State.transit (s : State) : State :=
  { s with fab := { s.fab with transitAt := some s.now }, power := { s.power with depth := shallow s.power.depth } }

/-- WAKE_COMPLETE (R487): the partition is awake, and the host accesses that wait for it are performed; another access that woke it comes
again as its own command. A module at D4 leaves it whole. -/
def execWakeComplete (part : Nat) (s : State) : Host.Outcome State Fault Refusal :=
  whenFormed (decide (part < 4)) <|
  whenLive s <| whenDue (s.power.waking.contains part) <|
    let depth := Tab.set (fun _ => 0) s.power.depth part 0
    .next (({ s with
      power := { s.power with
        waking := s.power.waking.filter (fun q => q != part)
        depth := shallow depth }
      link := { s.link with l0p := false } }).serveWaiting part)

end Sys2Proof.Machine
end

