-- ==== Sys2Proof/Machine/Governor.lean ====
section
/-!
DEFINITION. The governor: power samples, the demand table, and the loop (R458-R466, R474-R480, R492, R493). Powers are in
mW, and every quotient is rounded down (log 66).
-/

namespace Sys2Proof.Machine

/-! ### Measurements (R458) -/

/-! ### Phases and rails (R42, R469, R480, R595) -/

/-- The point-of-load phases of a die's rail in the order of R42: first index and count, by die index; C-dies 16, M-dies 2,
Q-dies 4, the H-die 3. -/
def phasesOf (die : Nat) : Nat × Nat :=
  if die < 8 then (16 * die, 16) else if die < 16 then (128 + 2 * (die - 8), 2)
  else if die < 19 then (156 + 4 * (die - 16), 4) else (168, 3)

/-- The phases that carry nothing: those retired, and one under test (R480, R657). -/
def State.phasesOut (s : State) : List Nat :=
  match s.dbg.istRun with
  | some (4, t, _) => if s.power.phases.contains t then s.power.phases else s.power.phases ++ [t]
  | _ => s.power.phases

/-- How many of a run of phases carry current. -/
def State.phasesIn (s : State) (f n : Nat) : Nat :=
  n - (s.phasesOut.filter fun p => decide (f ≤ p) && decide (p < f + n)).length

/-- The phases of a die that carry its rail. -/
def State.phasesLeft (s : State) (die : Nat) : Nat := s.phasesIn (phasesOf die).1 (phasesOf die).2

/-- The phases of rail `i` of R595: first and count. Of the twelve GDDR7 phases the first eight feed the core rail (log 119). -/
def railPhases (i : Nat) : Nat × Nat :=
  if i < 16 then phasesOf i else if i = 16 then (144, 8) else if i = 17 then (152, 4) else phasesOf (i - 2)

/-- The largest current limit of a rail in A (R595). -/
def railMax (i : Nat) : Nat :=
  if i < 8 then 320 else if i < 16 then 40 else if i = 16 then 160 else if i < 21 then 80 else 60

/-- The largest limit that rail `i` may have in A: the envelope's, or the rail's own before there is one (R469). -/
def State.railTop (s : State) (i : Nat) : Nat := s.power.rails.getD i (railMax i)

/-- The current limit of rail `i` in A with all its phases, or what firmware has lowered it to (R469, log 119). -/
def State.railAmps (s : State) (i : Nat) : Nat := min (s.railTop i) (Tab.get s.railTop s.power.lowered i)

/-- The current limit of rail `i` in mA, less the share of each phase that carries nothing (R469, R480). -/
def State.railLimit (s : State) (i : Nat) : Nat :=
  1000 * s.railAmps i * s.phasesIn (railPhases i).1 (railPhases i).2 / (railPhases i).2

/-- Firmware lowers rail limits; it never raises one (R469, R633). -/
def State.lowerRails (s : State) (l : List (Nat × Nat)) : State :=
  { s with power := { s.power with
      lowered := (l.filter fun e => decide (e.1 < 22)).foldl (fun t e =>
        Tab.set s.railTop t e.1 (min (min (s.railTop e.1) (Tab.get s.railTop t e.1)) e.2)) s.power.lowered } }

/-- The current of rail `i` in a window, in mA. -/
def railCurrent (r : PowerReading) (i : Nat) : Nat :=
  ((r.phases.drop (railPhases i).1).take (railPhases i).2).foldl (fun x e => x + e.2) 0

/-- The rails that a window shows held at their limit (R469). -/
def State.railsHeld (s : State) (r : PowerReading) : List Nat :=
  (List.range 22).filter fun i => decide (s.railLimit i ≤ railCurrent r i)

/-- The rails held at their limit in each of the last twenty windows: for 1 ms (R573, R633). -/
def State.railsStuck (s : State) : List Nat :=
  (List.range 22).filter fun i =>
    decide (20 ≤ s.power.wins.length) && s.power.wins.all fun r => decide (s.railLimit i ≤ railCurrent r i)

/-- The clock islands that a rail feeds (R24, log 119). -/
def railIslands (i : Nat) : List Nat :=
  if i < 8 then (List.range 8).map (8 * i + ·) ++ [114 + i]
  else if i < 16 then (List.range 4).map (64 + 4 * (i - 8) + ·) ++ [122 + (i - 8)]
  else if i < 18 then []
  else if i < 21 then (List.range 6).map (96 + 6 * (i - 18) + ·) ++ [130 + (i - 18)]
  else [133, 134, 135]

/-- POWER_SAMPLE (R458, R469): the readings of a 50 µs window. The last twenty are kept, for the mean over 1 ms. A rail held at
its limit causes droop in its islands. -/
def execPowerSample (r : PowerReading) (s : State) : Host.Outcome State Fault Refusal :=
  whenFormed (readingOk r) <|
  whenLive s <|
    let hit := ((s.railsHeld r).flatMap railIslands).filter fun i => !s.boot.droop.contains i
    .next { s with
      power := { s.power with wins := (r :: s.power.wins).take 20 }
      boot := { s.boot with droop := s.boot.droop ++ hit } }

/-- The mean of a reading over the last `n` windows. -/
def State.meanOf (s : State) (n : Nat) (f : PowerReading → Nat) : Nat :=
  let l := (s.power.wins.take n).map f
  if l.isEmpty then 0 else l.foldl (· + ·) 0 / l.length

/-- The rail power of a die over the last loop, in mW (R458, R478). -/
def State.dieRail (s : State) (die : Nat) : Nat := s.meanOf 5 fun r => r.rails (phasesOf die).1 (phasesOf die).2

/-- Move an entry a sixteenth of the way to a sample (R478). -/
def learnStep (entry sample : Nat) : Nat :=
  if entry ≤ sample then entry + (sample - entry) / 16 else entry - (entry - sample) / 16

/-- Write an entry of the demand table. -/
def State.setDemand (s : State) (ph : Nat) (d : Demand) : State :=
  { s with power := { s.power with demand := Tab.set (fun _ => Demand.reset) s.power.demand ph d } }

/-- One compute sample: a comb's share of its die's rail power, normalised to index 13. -/
def State.learnComb (s : State) (share comb : Nat) : State :=
  let i := Tab.get (fun _ => 0) s.power.opp comb
  let sample := share * oppScale 13 / oppScale i / 100
  foldS (fun s c =>
    let d := s.demandOf c.phaseId
    s.setDemand c.phaseId { d with comb := learnStep d.comb sample % 65536, samples := min (d.samples + 1) 65535 })
    s (s.carried comb)

/-- The updates of a loop (R478): compute from each C-die's rail power, memory from the bytes that each phase moved. -/
def State.learn (s : State) (m : LoopFinds) : State :=
  if !s.barB 0x050010 18 then s
  else
    let s1 := foldS (fun s d =>
      let cs := (List.range 8).map fun i => 8 * d + i
      let run := cs.filter fun c => !(s.carried c).isEmpty
      if run.isEmpty then s
      else
        let p := s.dieRail d - 1000 * (8 - run.length)
        foldS (fun s c => s.learnComb (p / run.length) c) s run) s (List.range 8)
    let bytes := m.moved.foldl (fun x e => x + e.2) 0
    let mem := s.meanOf 5 PowerReading.memory - 60000
    if bytes = 0 ∨ s.parts ≠ 1 then s1
    else foldS (fun s e =>
      let d := s.demandOf e.1
      s.setDemand e.1 { d with
        mem := learnStep d.mem (mem * e.2 / bytes / 100) % 65536, samples := min (d.samples + 1) 65535 }) s1 m.moved

/-- Writing `PWR_CTL`.clear returns every entry to its reset value (R472). -/
def State.clearDemand (s : State) : State := { s with power := { s.power with demand := [] } }

/-! ### Sharing (R474-R476) -/

/-- The sum. -/
def Give.sum (g : Give) : Nat := g.links + g.mem + g.comp

/-- Scale by `a / b`. -/
def Give.scale (g : Give) (a b : Nat) : Give :=
  if b = 0 then g else { links := g.links * a / b, mem := g.mem * a / b, comp := g.comp * a / b }

/-- The demands of a loop (R474). -/
def State.demands (s : State) (m : LoopFinds) : Give :=
  let run := s.runningCombs
  { links := if m.linkHeld then 225000 else s.meanOf 5 PowerReading.links,
    mem := if s.power.memPct < 100 then 336000 else s.meanOf 5 PowerReading.memory,
    comp := run.foldl (fun x c => x + s.predict c (s.requested c)) (1000 * (64 - run.length)) }

/-- The power available to the governed domains (R475). -/
def State.available (s : State) : Nat :=
  let cap := s.cap * 1000
  let target := cap - max 10000 (cap / 50)
  let rail := s.meanOf 5 fun r => r.compute + r.memory + r.links + r.other
  let input := s.meanOf 5 PowerReading.input
  (if input = 0 then target else target * rail / input) - s.meanOf 5 PowerReading.other

/-- Give a domain more, up to its demand. -/
def Give.more (g d : Give) (code rest : Nat) : Give × Nat :=
  match code with
  | 0 => let x := min rest (d.links - g.links); ({ g with links := g.links + x }, rest - x)
  | 1 => let x := min rest (d.mem - g.mem); ({ g with mem := g.mem + x }, rest - x)
  | _ => let x := min rest (d.comp - g.comp); ({ g with comp := g.comp + x }, rest - x)

/-- The shares of a loop before the compute level is set (R475). -/
def State.shares (s : State) (d : Give) : Give :=
  let f := fun k => s.barF 0x050018 k 10 * 1000
  let g : Give := { links := min (f 0) d.links, mem := min (f 16) d.mem, comp := min (f 32) d.comp }
  let avail := s.available
  let g := if avail < g.sum then g.scale avail g.sum else g
  let rest := avail - g.sum
  if s.parts = 1 then
    let w : Give := { links := d.links - g.links, mem := d.mem - g.mem, comp := d.comp - g.comp }
    if w.sum = 0 then g
    else { links := g.links + rest * w.links / w.sum, mem := g.mem + rest * w.mem / w.sum,
           comp := g.comp + rest * w.comp / w.sum }
  else
    let o := s.barF 0x050010 0 6
    ([o % 4, o / 4 % 4, o / 16].foldl (fun (a : Give × Nat) c => a.1.more d c a.2) (g, rest)).1

/-- The highest index at which combs keep within an allowance; none where even index 0 exceeds it (R476). -/
def State.level (s : State) (cs : List Nat) (allow : Nat) : Option Nat :=
  (List.range 16).reverse.find? fun l => decide (s.predictAll cs l ≤ allow)

/-- The duty of issue gating below index 0: 1, 2 or 4. -/
def State.gateFor (s : State) (cs : List Nat) (allow : Nat) : Nat :=
  if s.predictAll cs 0 ≤ allow then 1 else if s.predictAll cs 0 ≤ 2 * allow then 2 else 4

/-- The running combs of a partition. -/
def State.partCombs (s : State) (p : Nat) : List Nat := s.runningCombs.filter fun c => s.partOfComb c == p

/-- One round of sharing a rest in proportion to weights among the partitions whose allowance is short of their need. -/
def shareRound (w need : Nat → Nat) (allow : List (Nat × Nat)) (rest : Nat) : List (Nat × Nat) :=
  let sum := (allow.filter fun e => decide (e.2 < need e.1)).foldl (fun x e => x + w e.1) 0
  allow.map fun e => (e.1, e.2 + min (need e.1 - e.2) (rest * w e.1 / max 1 sum))

/-- Rounds of sharing: what a partition does not need goes to the others again (R476). -/
def shareOut (w need : Nat → Nat) (comp : Nat) : Nat → List (Nat × Nat) → List (Nat × Nat)
  | 0, l => l
  | n + 1, l => shareOut w need comp n (shareRound w need l (comp - l.foldl (fun x e => x + e.2) 0))

/-- The compute allowance of each partition with running combs (R476): in proportion to `PWR_SHARE`; what a partition leaves
unused goes to the others in the same proportion, until no partition is short or nothing is left. -/
def State.partAllow (s : State) (comp : Nat) : List (Nat × Nat) :=
  let ps := (List.range s.parts).filter fun p => !(s.partCombs p).isEmpty
  shareOut (fun p => s.barF 0x050020 (8 * p) 8) (fun p => s.predictAll (s.partCombs p) 15) comp 4 (ps.map fun p => (p, 0))

/-! ### The limits of a die (R480, R492, R493) -/

/-- The trusted sensors of a die. -/
def State.trusted (s : State) (die : Nat) : List Sensor :=
  ((List.range 3).map fun j => Tab.get (fun _ => Sensor.reset) s.power.sensors (3 * die + j)).filter fun x => x.state == 0

/-- The hottest trusted reading of a die, in 1/16 °C. -/
def State.hottest (s : State) (die : Nat) : Option Int :=
  match (s.trusted die).map Sensor.temp with
  | [] => none
  | t :: l => some (l.foldl max t)

/-- The allowance of a die in percent. -/
def State.allowance (s : State) (die : Nat) : Nat := Tab.get (fun _ => 100) s.power.allow die

/-- One loop of R492 for a die. -/
def State.thermLoop (s : State) (die : Nat) : State :=
  match s.hottest die with
  | none => s
  | some t =>
    let target : Int := 16 * (s.barF 0x050028 0 8 : Nat)
    let a := s.allowance die
    let put := fun (s : State) x => { s with power := { s.power with allow := Tab.set (fun _ => 100) s.power.allow die x } }
    if target < t then
      let last := Tab.get (fun _ => none) s.power.therm die
      let s1 := put s (a - 5)
      let s2 := { s1 with power := { s1.power with therm := Tab.set (fun _ => none) s1.power.therm die (some s.now) } }
      let fresh := match last with
        | none => true
        | some w => decide (10000 * msTicks < (s.now - w).toNat)
      if fresh then s2.powerReport 6 1 s2.cap s2.cap else s2
    else if t ≤ target - 48 then put s (min 100 (a + 2))
    else s

/-- The inlet temperature that R493 uses, in 1/16 °C (R495). -/
def State.inletFor (s : State) : Int := if s.power.inletOk then s.power.inlet else 16 * (s.power.inletMax : Int)

/-- *P*safe of a die in mW (R493). -/
def State.pSafe (s : State) (die : Nat) : Nat :=
  let k : Int := 95 * 16 - s.inletFor
  let theta := if die < 8 then 400 else if die < 16 then 2000 else if die < 19 then 600 else 1000
  (k * 1000000 / (16 * theta)).toNat

/-- The power in mW that a die's remaining phases carry at a rail voltage in mV; none while none of its phases is out (R480). -/
def State.phaseCarry (s : State) (die mv : Nat) : Option Nat :=
  if s.phasesLeft die = (phasesOf die).2 then none else some (s.railLimit (if die < 16 then die else die + 2) * mv / 1000)

/-- The voltage of a die's rail in the last window, in mV: the mean over its phases. -/
def State.railMv (s : State) (die : Nat) : Nat :=
  match s.power.wins with
  | [] => 0
  | w :: _ => ((w.phases.drop (phasesOf die).1).take (phasesOf die).2).foldl (fun x e => x + e.1) 0 / (phasesOf die).2

/-- The percentage at which a control holds a die to a power: the die's rail power is taken to follow the control in force, `now`
(log 66). -/
def State.holdPct (s : State) (die now lim : Nat) : Nat :=
  if s.dieRail die = 0 then 100 else min 100 (max now 1 * lim / s.dieRail die)

/-- The percentage at which a control holds a die to its limits: its allowance (R492), what its remaining phases carry (R480), and with
no trusted sensor *P*safe (R493). -/
def State.diePct (s : State) (die now : Nat) : Nat :=
  let p := match s.phaseCarry die (s.railMv die) with
    | some lim => s.holdPct die now lim
    | none => 100
  min (min (s.allowance die) p) (if (s.trusted die).isEmpty then s.holdPct die now (s.pSafe die) else 100)

/-- The index that a C-die's combs keep to under the limits of the die (R480, R492, R493): what its remaining phases carry is taken at
the typ voltage of the index. -/
def State.dieLevel (s : State) (die l : Nat) : Nat :=
  let cs := s.runningCombs.filter fun c => c / 8 == die
  let lim := s.predictAll cs l * s.allowance die / 100
  let lim := if (s.trusted die).isEmpty then min lim (s.pSafe die) else lim
  let fits := fun i => decide (s.predictAll cs i ≤ lim) && match s.phaseCarry die (oppRow i).2 with
    | some p => decide (s.predictAll cs i ≤ p)
    | none => true
  ((List.range (l + 1)).reverse.find? fits).getD 0

/-- The dies held below their allowance. -/
def State.heldDies (s : State) : Nat :=
  ((List.range 20).filter fun d => decide (s.allowance d < 100) || (s.trusted d).isEmpty).length

/-! ### The loop (R475, R476, R482, R483) -/

/-- The water level of a comb's partition under a compute allowance (R476). -/
def State.waterLevel (s : State) (comp c : Nat) : Nat :=
  match (s.partAllow comp).find? fun e => e.1 == s.partOfComb c with
  | some (p, a) => (s.level (s.partCombs p) a).getD 0
  | none => 15

/-- The level of each comb under a compute allowance: the water level, and under it the limits of its die (R475, R480, R492, R493). -/
def State.combLevel (s : State) (comp c : Nat) : Nat := s.dieLevel (c / 8) (s.waterLevel comp c)

/-- The predicted compute power of the running combs at the water level (R475). -/
def State.predicted (s : State) (comp : Nat) : Nat :=
  s.runningCombs.foldl (fun x c => x + s.predict c (min (s.requested c) (s.waterLevel comp c))) 0

/-- What a domain takes after a rise has been limited: one that does not rise keeps what it gets, and those that rise share what
the ramp and the falls of the others allow, in proportion to their rises (R475, R482). -/
def rampTo (old new up room : Nat) : Nat := if new ≤ old then new else old + (new - old) * min up room / max up 1

/-- Limit the rise of governed power to `step` mW. -/
def Give.ramp (old new : Give) (step : Nat) : Give :=
  let up := (new.links - old.links) + (new.mem - old.mem) + (new.comp - old.comp)
  let down := (old.links - new.links) + (old.mem - new.mem) + (old.comp - new.comp)
  { links := rampTo old.links new.links up (step + down), mem := rampTo old.mem new.mem up (step + down),
    comp := rampTo old.comp new.comp up (step + down) }

/-- The shares of a loop as the water level and the spare of compute leave them (R475). -/
def State.settle (s : State) (d : Give) : Give :=
  let g := s.shares d
  let (g1, left) := g.more d 1 (g.comp - s.predicted g.comp)
  (g1.more d 0 left).1

/-- Set the controls from the shares; the limits of the dies hold under them (R475, R476, R492, R493). -/
def State.setControls (s : State) (d : Give) : State :=
  let g := s.power.governed.ramp (s.settle d) (s.barF 0x050010 8 10 * 250)
  let gate := ((s.partAllow g.comp).map fun e => s.gateFor (s.partCombs e.1) e.2).foldl max 1
  let pct := fun (x n : Nat) => if n = 0 then 100 else min 100 (x * 100 / n)
  let hold := fun (now x die : Nat) => min x (s.diePct die now)
  let mem := ((List.range 8).map (8 + ·)).foldl (hold s.power.memPct) (pct g.mem d.mem)
  let link := ((List.range 3).map (16 + ·)).foldl (hold s.power.linkPct) (pct g.links d.links)
  let gov := (List.range 64).map fun c => (c, s.combLevel g.comp c)
  { s with power := { s.power with
      gov := Tab.setAll (fun _ => 15) [] gov, memPct := max 25 mem, linkPct := link, gate := gate, governed := g,
      thermDies := s.heldDies } }

/-- GOVERNOR_LOOP (R469, R474-R478, R482, R483, R492, R502): firmware lowers rail limits, a fast cut that has lasted 1 ms and a held
release of the brake end, the demand table learns, and the controls are set, unless the brake is in force. -/
def execGovernorLoop (m : LoopFinds) (s : State) : Host.Outcome State Fault Refusal :=
  whenLive s <| whenDue s.power.running <|
    let s0 := s.lowerRails m.lower
    let s1 := if s0.power.fastCut && s0.fastHeld then s0.endFast else s0
    let s2 := if s1.power.brake && !s1.power.brakePin && s1.brakeHeld then s1.endBrake else s1
    let s3 := (foldS State.thermLoop s2 (List.range 20)).learn m
    .next (if s3.braking then s3 else (s3.setControls (s3.demands m)).retuneAll)

end Sys2Proof.Machine
end

