-- ==== Sys2Proof/Machine/Thermal.lean ====
section
/-!
DEFINITION. Sensors, coolant, leaks, and the input supply (R480, R489-R500, R664).
-/

namespace Sys2Proof.Machine

/-! ### Die sensors (R489-R491, R494) -/

/-- Sensor `i` (R491). -/
def State.sensor (s : State) (i : Nat) : Sensor := Tab.get (fun _ => Sensor.reset) s.power.sensors i

/-- Replace sensor `i`. -/
def State.setSensor (s : State) (i : Nat) (x : Sensor) : State :=
  { s with power := { s.power with sensors := Tab.set (fun _ => Sensor.reset) s.power.sensors i x } }

/-- A day in reference ticks. -/
def dayOf : Nat := 24 * 3600 * 100000000

/-- The returns to trust of a sensor in the last 24 h (R490). -/
def State.returnsOf (s : State) (x : Sensor) : Nat := (x.returns.filter fun t => decide ((s.now - t).toNat < dayOf)).length

/-- A reading by which a sensor is discarded until a whole-module reset (R489, third condition). -/
def deadReading (r : Reading) : Bool :=
  match r with
  | none => true
  | some t => decide (t < -320) || decide (2400 < t)

/-- A reading that lies below the coolant inlet, or more than 15 °C below every other trusted sensor of its die (R489).
-/
def State.oddReading (s : State) (dies : List Reading) (i : Nat) (t : Int) : Bool :=
  let others := ((List.range 3).map fun j => 3 * (i / 3) + j).filter fun j => j != i && (s.sensor j).state == 0
  let temps := others.filterMap fun j => (dies.getD j none)
  decide (t < s.power.inlet) || (!temps.isEmpty && temps.all fun u => decide (t + 240 < u))

/-- The new state of a sensor after a reading: its temperature, and whether it is discarded. -/
def State.judge (s : State) (dies : List Reading) (i : Nat) : Sensor :=
  let x := s.sensor i
  let r := dies.getD i none
  let ok := !deadReading r && !s.oddReading dies i (r.getD 0)
  let y := { x with temp := r.getD x.temp, since := if ok then some (x.since.getD s.now) else none }
  if x.state = 2 then y
  else if deadReading r then { y with state := 2 }
  else if x.state = 0 ∧ s.oddReading dies i y.temp then { y with state := if s.returnsOf x < 3 then 1 else 2 }
  else y

/-- The readings of the sixty die sensors (R489, R493, R494): every discarded sensor raises a report, and so does a die
that loses its last trusted sensor. A sensor that is not discarded and reads 110 °C trips. -/
def State.readDies (s : State) (dies : List Reading) : State :=
  let all := List.range 60
  let fresh := all.map fun i => (i, s.judge dies i)
  let s1 := foldS (fun t e => t.setSensor e.1 e.2) s fresh
  let lost := all.filter fun i => (s.sensor i).state == 0 && (s1.sensor i).state != 0
  let s2 := foldS (fun t _ => t.powerReport 6 2 t.cap t.cap) s1 lost
  let bare := (List.range 20).filter fun d => !(s.trusted d).isEmpty && (s1.trusted d).isEmpty
  let s3 := foldS (fun t _ => t.powerReport 6 3 t.cap t.cap) s2 bare
  let trip := all.any fun i => (s3.sensor i).state == 0 && decide (1760 ≤ (s3.sensor i).temp)
  if trip then { s3 with boot := { s3.boot with tripDue := true } } else s3

/-! ### Coolant (R495, R497) -/

/-- Set the coast cap, with the reason that sets it (R497). -/
def State.setCoast (s : State) (reason : Nat) : State :=
  s.protect 6 reason fun t => { t with power := { t.power with coast := true } }

/-- Set the coast cap for a coolant sensor, after the reports of the die sensors (R495, R502). -/
def State.coastSensor (s : State) (amid : State → State) : State :=
  s.protectAmid 6 11 (fun t => { t with power := { t.power with coast := true } }) amid

/-- A coolant reading in range (R495). -/
def coolReadingOk (r : Reading) : Bool :=
  match r with
  | some t => decide (0 ≤ t) && decide (t ≤ 1520)
  | none => false

/-- The readings of the coolant sensors (R495). A rise no longer above its limit ends that condition. -/
def State.readCoolant (s : State) (inlet outlet : Reading) : State :=
  let i := inlet.getD s.power.inlet
  let o := outlet.getD s.power.outlet
  let inOk := coolReadingOk inlet && !(decide (o + 32 < i) && decide (300000 < s.inputNow))
  let outOk := coolReadingOk outlet
  let high := s.power.riseHigh && decide (16 * (s.power.riseMax : Int) < o - i)
  { s with power := { s.power with
    inlet := i, outlet := o, inletOk := inOk, outletOk := outOk, riseHigh := high } }

/-- SENSOR_SAMPLE (R489, R495, R502): the coolant sensors run on standby, the die sensors with the main domain. A coolant sensor that
becomes untrusted sets the coast cap. -/
def execSensorSample (dies : List Reading) (inlet outlet : Reading) (s : State) : Host.Outcome State Fault Refusal :=
  whenFormed (dies.length == 60) <|
  whenStandby s <|
    let s1 := s.readCoolant inlet outlet
    let rd := fun (t : State) => t.readDies dies
    .next (if !s.live then s1
      else match s.power.inletOk && !s1.power.inletOk, s.power.outletOk && !s1.power.outletOk with
        | true, true => (s1.coastSensor rd).coastSensor id
        | false, false => rd s1
        | _, _ => s1.coastSensor rd)

/-- A minute in reference ticks. -/
def minuteTicks : Nat := 60 * 100000000

/-- SENSOR_RETRUST (R490): 60 s of plausible readings, at most three times in 24 h. -/
def execSensorRetrust (sensor : Nat) (s : State) : Host.Outcome State Fault Refusal :=
  whenFormed (decide (sensor < 60)) <|
  whenLive s <|
    let x := s.sensor sensor
    whenDue (x.state == 1 && decide (s.returnsOf x < 3) && (match x.since with
      | some t => decide (minuteTicks ≤ (s.now - t).toNat)
      | none => false)) <|
      .next (s.setSensor sensor { x with
        state := 0, returns := (x.returns.filter fun t => decide ((s.now - t).toNat < dayOf)) ++ [s.now] })

/-- COOL_FAULT_ASSERT (R497, R579): before the main domain is up it delays the start. -/
def execCoolFaultAssert (s : State) : Host.Outcome State Fault Refusal :=
  whenStandby s <| whenDue (!s.power.coolPin) <|
    let s1 := { s with power := { s.power with coolPin := true } }
    .next (if s.live then s1.setCoast 4 else s1)

/-- COOL_FAULT_DEASSERT (R497). -/
def execCoolFaultDeassert (s : State) : Host.Outcome State Fault Refusal :=
  whenStandby s <| whenDue s.power.coolPin <| .next { s with power := { s.power with coolPin := false } }

/-- RISE_LIMIT_EXCEEDED (R495, R497): the rise has been above its limit for 1 s. -/
def execRiseLimitExceeded (s : State) : Host.Outcome State Fault Refusal :=
  whenLive s <| whenDue (!s.power.riseHigh && decide (16 * (s.power.riseMax : Int) < s.power.outlet - s.power.inlet)) <|
    .next (({ s with power := { s.power with riseHigh := true } }).setCoast 5)

/-- No condition that sets the coast cap holds (R497). -/
def State.coastOver (s : State) : Bool :=
  !s.power.coolPin && !s.power.riseHigh && s.power.inletOk && s.power.outletOk

/-- COAST_CLEAR (R497): none of the conditions has held for 60 s. -/
def execCoastClear (s : State) : Host.Outcome State Fault Refusal :=
  whenLive s <| whenDue (s.power.coast && s.coastOver) <|
    .next (s.protect 6 6 fun t => { t with power := { t.power with coast := false } })

/-- INLET_OVER_LIMIT (R498, R502): an orderly shutdown, once; 5 °C above the limit allows no completion time. -/
def execInletOverLimit (s : State) : Host.Outcome State Fault Refusal :=
  whenLive s <|
    let limit : Int := 16 * (s.power.inletMax : Int)
    let far := decide (limit + 80 ≤ s.power.inlet)
    whenDue (decide (limit < s.power.inlet) && (s.power.hot.isNone || (s.power.draining && far))) <|
      let s1 := if s.power.hot.isSome then s
        else
          let s0 := s.reportOff
          ({ s0.powerReport 6 9 s0.cap s0.cap with power := { s0.power with hot := some s0.power.inletMax } }).drain 2
      .next (if far then s1.quenchAll else s1)

/-! ### Leaks (R499, R500) -/

/-- LEAK_DETECTED (R499): all work is quenched and the main rails go down. With the main domain off it is recorded. -/
def execLeakDetected (s : State) : Host.Outcome State Fault Refusal :=
  whenStandby s <| whenDue (!s.power.leakWet) <|
    let s1 := (({ s with power := { s.power with leakWet := true } }).mEvent 4 0).lightService .leak
    .next (if s.live then ((s1.powerReport 6 10 s1.cap s1.cap).drain 4).quenchAll else s1)

/-- The guarded cap is set or cleared, with its report; with the main domain off the report waits for the functions (log 136). -/
def State.setGuarded (s : State) (g : Bool) : State :=
  let f := fun (t : State) => { t with power := { t.power with guarded := g } }
  let reason := if g then 7 else 8
  if s.live then s.protect 6 reason f
  else
    let t := f s
    { t with power := { t.power with owed := t.power.owed ++ [(reason, s.cap, t.cap)] } }

/-- LEAK_SELF_TEST (R500): a test that finds an open circuit sets the guarded cap; three passes in a row clear it. The trace is watched
on standby. -/
def execLeakSelfTest (isOpen : Bool) (s : State) : Host.Outcome State Fault Refusal :=
  whenStandby s <|
    .next (if isOpen then
        let s1 := { s with power := { s.power with leakOpen := true, leakPass := 0 } }
        ((s1.setGuarded true).mEvent 5 0).lightService .leakOpen
      else
        let s1 := ({ s with power := { s.power with leakOpen := false, leakPass := min 3 (s.power.leakPass + 1) } }).endService .leakOpen
        if s.power.guarded ∧ 2 ≤ s.power.leakPass then s1.setGuarded false else s1)

/-! ### Regulators and the input (R480, R588, R664) -/

/-- A regulator phase is retired, with its report (R480). -/
def State.reportPhase (s : State) (phase : Nat) : State :=
  let b := retireBody 7 1 phase phase phase
  let s1 := { s with power := { s.power with phases := s.power.phases ++ [phase] } }
  foldS (fun t p => t.report p 2 0 phase b) (s1.relayReport 2 b) (List.range s1.parts)

/-- REGULATOR_PHASE_RETIRE (R480): the phase's share of its rail is gone, which the governor holds the die to. -/
def execRegulatorPhaseRetire (phase : Nat) (s : State) : Host.Outcome State Fault Refusal :=
  whenFormed (decide (phase < 171)) <|
  whenLive s <| whenDue (!s.power.phases.contains phase) <| .next (s.reportPhase phase)

/-- VIN_ISOLATE (R664): the input is isolated, and every main rail is off. -/
def execVinIsolate (s : State) : Host.Outcome State Fault Refusal :=
  whenStandby s <| whenDue (s.boot.mainOn || decide (3 ≤ s.boot.step ∧ s.boot.step < 8)) <|
    let t := s.mainOff
    .next (({ t with boot := { t.boot with isolated := true, step := 15, halt := 2, again := false } }.mEvent 8 2).lightService .isolated)

end Sys2Proof.Machine
end

