-- ==== Sys2Proof/Machine/Contact.lean ====
section
/-!
DEFINITION. Contact by the host and by the rack manager, and the silent-authority hold (R610, R611).
-/

namespace Sys2Proof.Machine

/-- Enter or leave the hold: `POWER_EVENT` reason 8 and event 9 (R610). With the main domain off there is no report. -/
def State.setHold (s : State) (b : Bool) : State :=
  if s.power.hold = b then s
  else
    let t := ({ s with power := { s.power with hold := b } }).mEvent 9 (if b then 1 else 0)
    if s.live then t.powerReport 5 8 t.cap t.cap else t

/-- The host makes contact (R610): a hold ends before the contacting access takes effect (R611). -/
def State.hostContact (s : State) : State :=
  ({ s with mgmt := { s.mgmt with lastHost := s.now } }).setHold false

/-- The rack manager makes contact (R610). -/
def State.rackContact (s : State) : State :=
  ({ s with mgmt := { s.mgmt with lastRack := s.now } }).setHold false

/-- SILENT_HOLD_ENTER (R610): neither has made contact for 60 s. -/
def execSilentHoldEnter (s : State) : Host.Outcome State Fault Refusal :=
  whenStandby s <|
    whenDue (!s.power.hold && decide (minuteTicks ≤ (s.now - s.mgmt.lastHost).toNat) &&
        decide (minuteTicks ≤ (s.now - s.mgmt.lastRack).toNat)) <| .next (s.setHold true)

/-- DEMAND_CLEAR (R40, R472): through function 0. -/
def execDemandClear (fn : Nat) (s : State) : Host.Outcome State Fault Refusal :=
  whenFormed (decide (fn < 4)) <|
  whenLive s <| whenDue (decide (fn < s.parts)) <|
    .next (if fn = 0 then s.hostContact.clearDemand else s.hostContact)

end Sys2Proof.Machine
end

