-- ==== Sys2Proof/Machine/EpochOps.lean ====
section
/-!
DEFINITION. The dirty maps of a partition, and an epoch that is abandoned (R274, R517-R520).
-/

namespace Sys2Proof.Machine

/-- The devices of a partition. -/
def State.devsOf (s : State) (p : Nat) : List Nat := (List.range s.devsPer).map fun i => p * s.devsPer + i

/-- The logical cells of a partition. -/
def State.cellsOf (s : State) (p : Nat) : List Nat := (List.range s.cellsPer).map fun i => p * s.cellsPer + i

/-- Set every bit of `b` in `a`. -/
def Bitmap.join (a b : Bitmap) : Bitmap := { t := Tab.setAll (fun _ => false) a.t b.t }

/-- Swap the maps at a cut: live becomes frozen, and live is clear (R274, R517). -/
def State.freezeMaps (s : State) (p : Nat) : State :=
  let s1 := foldS (fun s d => s.setFrg d { s.frg d with frozen := (s.frg d).live, live := Bitmap.empty }) s (s.devsOf p)
  foldS (fun s n => s.setCell n { s.cell n with frozen := (s.cell n).live, live := 0 }) s1 (s.cellsOf p)

/-- Frozen bits go back into the live maps. -/
def State.unfreezeMaps (s : State) (p : Nat) : State :=
  let s1 := foldS (fun s d =>
    s.setFrg d { s.frg d with live := (s.frg d).live.join (s.frg d).frozen, frozen := Bitmap.empty }) s (s.devsOf p)
  foldS (fun s n => s.setCell n { s.cell n with live := (s.cell n).live ||| (s.cell n).frozen, frozen := 0 }) s1
    (s.cellsOf p)

/-- Every frozen bit of a partition is clear (R519). -/
def State.mapsClear (s : State) (p : Nat) : Bool :=
  (s.devsOf p).all (fun d => (s.frg d).frozen.clear) && (s.cellsOf p).all fun n => (s.cell n).frozen == 0

/-- Mark a lining granule dirty. -/
def State.markGranule (s : State) (p k : Nat) : State :=
  let o := s.granuleOff p k
  if k < s.linA then s.markClose o else s.markCell o

/-- Engines and intake of a partition are held: by a cut in progress, a freeze, an activation point or a recovery (R512,
R532, R571, R631). -/
def Epoch.held (e : Epoch) : Bool :=
  e.step == 1 || e.step == 2 || e.freezing || e.fwPoint || (decide (2 ≤ e.recStep) && decide (e.recStep ≤ 5))

/-- An `EPOCH` command that waits for an epoch which was abandoned waits for the next cut (R510). -/
def State.recallEpochs (s : State) (p : Nat) : State :=
  { s with cmds := s.cmds.map fun c =>
      if c.part == p then { c with extra := min c.extra ((s.epochOf p).committed + 1) } else c }

/-- Abandon the epoch between its drain step and its swarm commit (R520): its copies are left unreferenced, what they
held counts as dirty again, and engines and intake go on. A list that was committed locally is kept (R531). `again` for an
abandonment that no failure caused: a new boundary is wanted. -/
def State.abandonEpoch (s : State) (p : Nat) (again : Bool) : State :=
  let e := s.epochOf p
  if e.step = 0 then s
  else
    let s1 := foldS (fun s k => s.markGranule p k.1) (s.unfreezeMaps p) e.list
    let e := s1.epochOf p
    let e1 : Epoch := { e with
      state := if e.active then 1 else 0, step := 0, contrib := false, stage := 0, heard := [], written := false, list := [],
      epoch := e.committed,
      ctx := if e.loc = e.epoch then e.ctx else Tab.set (fun _ => none) e.ctx (e.epoch % 2) none,
      abandoned := min (e.abandoned + 1) (2 ^ 24 - 1), requested := e.requested || again, urgent := e.urgent || again }
    (s1.setEpoch p { e1 with stopped := e1.held }).recallEpochs p

/-! ### An epoch abandoned in every member (R520) -/

/-- The members of the swarm that have a module, in ascending logical number (the list is kept so): their places are the ranks
of a swarm barrier. -/
def State.ranks (s : State) : List Nat :=
  s.swarm.members.filter fun m => (s.route m).valid

/-- Partition `p` takes its epochs with other modules. -/
def State.withSwarm (s : State) (p : Nat) : Bool := s.inSwarm && s.owner == p && decide (2 ≤ s.swarm.members.length)

/-- Tell a member, or the manager, of an epoch that a failing lining write abandons (log 145). -/
def State.tellAbandon (s : State) (m reason n : Nat) : State := s.swarmSend m 6 (reason + 2 ^ 8 * (n % 2 ^ 24)) []

/-- A write of the lining has failed for good (R228, R520): the epoch is abandoned here, and through the manager at every member. No
failure of a member caused it, so a new boundary is wanted of the one that takes boundaries. -/
def State.abandonSwarm (s : State) (p reason : Nat) : State :=
  let e := s.epochOf p
  if e.step = 0 ∨ !s.withSwarm p then s.abandonEpoch p true
  else if s.swarm.role = 3 then
    foldS (fun t m => t.tellAbandon m reason e.epoch) (s.abandonEpoch p true) (s.ranks.filter fun m => m != s.fab.logical.toNat)
  else (s.abandonEpoch p false).tellAbandon s.swarm.manager reason e.epoch

/-- A notice that an epoch is abandoned (R520, log 145) has effect on that epoch only. -/
def State.hearAbandon (s : State) (p reason n : Nat) : State :=
  let e := s.epochOf p
  if e.step = 0 ∨ e.epoch % 2 ^ 24 ≠ n then s
  else if s.swarm.role = 3 then s.abandonSwarm p reason
  else s.abandonEpoch p false

end Sys2Proof.Machine
end

