-- ==== Sys2Proof/Machine/Far.lean ====
section
/-!
DEFINITION. The far tier: completions, timeouts, and windows that drain (R224-R228, R319, R520).
-/

namespace Sys2Proof.Machine

/-- A request to host memory. -/
def FarReq.toHost (r : FarReq) : Bool := decide (hostKey 0 ≤ r.addr)

/-- The window, host or far, that a request uses. -/
def State.windowOf (s : State) (r : FarReq) : Option (Bool × Nat) :=
  if r.toHost then (s.hostMatch r.part r.off).map fun w => (true, w.num)
  else (s.farMatch r.part r.off).map fun w => (false, w.num)

/-- Two requests have a line in common. -/
def FarReq.meets (q r : FarReq) : Bool := decide (q.base < r.base + r.size) && decide (r.base < q.base + q.size)

/-- A request waits: for an earlier one of the same engine to one of its lines (R226, R286), or for its window to drain
(R224). -/
def State.farHeld (s : State) (r : FarReq) : Bool :=
  ((s.far.takeWhile fun q => q.tag != r.tag).any fun q => q.eng == r.eng && q.meets r) ||
    s.drains.any fun d => decide (d.stamp ≤ r.tag) && s.windowOf r == some (d.host, d.num)

/-- The request that a partition sends next. -/
def State.farNext (s : State) (p : Nat) : Option FarReq := s.far.find? fun r => !r.sent && r.part == p && !s.farHeld r

/-- Send one request, a 256-byte flit, for the next partition in turn that has one to send, while fewer than 1,024 are outstanding
and the link is up (R39, R226, R319). -/
def State.sendOne (s : State) : State :=
  if !s.link.up || decide (1024 ≤ (s.far.filter FarReq.sent).length) then s
  else
    match (List.range 4).findSome? fun i => s.farNext ((s.farTurn + i) % 4) with
    | some r => { s with
        far := s.far.map fun q => if q.tag == r.tag then { q with sent := true } else q, farTurn := (r.part + 1) % 4 }
    | none => s

/-- Send every request that can be sent. -/
def State.sendFar (s : State) : State := foldS (fun t _ => t.sendOne) s s.far

/-- The command that waits for an access. -/
def State.ownerCmd (s : State) (o : Owner) : Option Nat :=
  let issuer := fun (i : Issuer) => match i with
    | .cmd id => some id
    | .cell n _ => (s.cell n).cmd
  match o with
  | .slot c _ => (s.cell c).cmd
  | .cell n => (s.cell n).cmd
  | .cmd id => some id
  | .piece id _ => some id
  | .fetch id => some id
  | .fdesc id => ((s.fdescs.find? fun d => d.id == id).map FDesc.issuer).bind issuer
  | .coll id => ((s.coll.colls.find? fun d => d.id == id).map Coll.issuer).bind issuer
  | _ => none

/-- Take a request off the list. -/
def State.dropFar (s : State) (tag : Nat) : State := { s with far := s.far.filter fun r => r.tag != tag }

/-- Count the bytes of a far or host access that has been performed (R638, R640). -/
def State.countFar (s : State) (r : FarReq) : State :=
  if r.toHost then s.bump 61 r.len
  else if r.wr then (s.bump 60 r.len).bumpPart r.part 17 r.len
  else (s.bump 59 r.len).bumpPart r.part 16 r.len

/-- A read of the far tier that no command waits for has failed (R228): a refusal and a second timeout are reported, poisoned data are
counted. -/
def State.readFailed (s : State) (p off : Nat) (f : ReadFail) : State :=
  match f with
  | .unsupported => s.escalate p 3 off 0
  | .timeout => s.escalate p 4 off 0
  | .poisoned => s.bump 49 1

/-- Count a read of a structure of partition `p` in the far tier or in host memory (R226, R638, R640). -/
def State.countRead (s : State) (p a n : Nat) : State :=
  if a / 2 ^ 60 = 2 then (s.bump 59 n).bumpPart p 16 n else if a / 2 ^ 60 = 3 then s.bump 61 n else s

/-- A record has been written, or its write has failed for good: a ring that is idle with it has its head line written (R353). -/
def State.idleLines (s : State) (r : FarReq) : State :=
  if !r.wr then s
  else foldS (fun s i =>
    let a := s.cplBase r.part i
    let q := s.ring r.part i
    if q.active && r.addr / 2 ^ 60 == a / 2 ^ 60 && decide (a % 2 ^ 60 ≤ r.off) &&
        decide (r.off < a % 2 ^ 60 + 32 * 2 ^ s.barF (regKey r.part (0x014008 + 0x40 * i)) 1 5) && s.ringIdle r.part i
    then s.setRing r.part i { q with lineDue := true } else s) s (List.range 64)

/-- An access of an owner has failed: its command ends with a status. A write to the lining that fails abandons the
epoch (R520), with the reason of its `ESCALATE` report, which is 3 or 4 as the status is (R228). -/
def State.failOwner (s : State) (o : Owner) (status : Nat) : State :=
  let s := s.dropGathered o
  match o with
  | .lining p _ => s.abandonSwarm p status
  | _ => match s.ownerCmd o with
    | some id =>
      match s.cmd id with
      | some c =>
        if c.phase = .finished then s.setCmd { c with status := if c.status = 0 then status else c.status }
        else (if status = 4 then s.abortCmd id else s.quenchCmd id status).passEnded c
      | none => s
    | none => s

/-- Data have come poisoned, which is handled as an uncorrectable error of close memory (R198, R228): with a lining a recovery
follows, and the consumer waits for it; with none its command ends with `ABORTED`. -/
def State.poisoned (s : State) (r : FarReq) : State :=
  let s1 := s.bump 49 1
  if s1.linSafe r.part then
    ({ s1 with far := s1.far.map fun (q : FarReq) => if q.tag == r.tag then { q with dead := true } else q }).wantRecovery r.part
  else ((s1.dropFar r.tag).failOwner r.owner 4).noLining r.part

/-- FAR_COMPLETION (R39, R226-R228): what can be sent has been; a write is performed and a read's data delivered; a refused access
ends its command with `DENIED`; poisoned data are handled as an uncorrectable error. -/
def execFarCompletion (tag : Nat) (out : FarOutcome) (s : State) : Host.Outcome State Fault Refusal :=
  whenLive s <|
    let s := s.sendFar
    withItem (s.far.find? fun r => r.tag == tag) fun r =>
      whenDue (s.link.up && r.sent && !r.dead) <|
        let s1 := s.dropFar tag
        match out with
        | .ok =>
          let s2 := s1.countFar r
          .next (if r.wr then (s2.pokeExt r.addr r.data).idleLines r else s2.comeTo r.owner r.eng r.part r.dest (s.extBytes r.addr r.len))
        | .unsupported => .next (((s1.escalate r.part 3 r.off 0).failOwner r.owner 3).idleLines r)
        | .poisoned => whenDue (!r.wr) <| .next (s.poisoned r)

/-- FAR_TIMEOUT (R228, R319): the request is reissued once; a second timeout ends its command with `ABORTED`. A request that waits for
the link is outstanding too. -/
def execFarTimeout (tag : Nat) (s : State) : Host.Outcome State Fault Refusal :=
  whenLive s <|
    let s := s.sendFar
    withItem (s.far.find? fun r => r.tag == tag) fun r =>
      whenDue ((r.sent || !s.link.up) && !r.dead) <|
        if r.again then .next ((((s.dropFar tag).escalate r.part 4 r.off 0).failOwner r.owner 4).idleLines r)
        else .next { s with far := s.far.map fun q => if q.tag == tag then { q with again := true } else q }

/-- WINDOW_DRAIN_COMPLETE (R224, R326): every access issued under a window's old setting has completed. -/
def execWindowDrainComplete (host : Bool) (window : Nat) (s : State) : Host.Outcome State Fault Refusal :=
  whenFormed (decide (window < if host then 16 else 8)) <|
  whenLive s <| withItem (s.drains.find? fun d => d.host == host && d.num == window) fun d =>
    whenDue (!s.far.any fun r => d.tags.contains r.tag && !r.dead) <|
      .next { s with drains := s.drains.filter fun e => !(e.host == host && e.num == window) }

end Sys2Proof.Machine
end

