-- ==== Sys2Proof/Machine/Commit.lean ====
section
/-!
DEFINITION. Commits of staged registers: clamps, the clamp log, and what takes effect (R33, R82, R206, R219-R225, R324-R341,
R424, R425, R472, R483, R521, R522, R640-R646).
-/

namespace Sys2Proof.Machine

/-! ### Candidate registers -/

/-- Put a word in effect without staging it. -/
def State.putBar (s : State) (key w : Nat) : State :=
  { s with bar := Tab.set regReset s.bar key (BitVec.ofNat 64 w) }

/-- Put a field in effect without staging it. -/
def State.putF (s : State) (key lsb width v : Nat) : State := s.putBar key (setBits (s.barW key) lsb width v)

/-- The registers with committed fields that a function commits (R40): each key with its offset and fields. -/
def State.commitRegs (s : State) (fn : Nat) : List (Nat × Nat × List Field) :=
  (regRows.filter fun r => r.fields.any fun f => f.acc == .rwc).flatMap fun r =>
    (List.range r.count).filterMap fun i =>
      let off := r.base + r.stride * i
      let mine := match r.writer with
        | .fn0 => fn == 0
        | .own => true
        | .nth => i == fn
        | .window => s.hostWinPart i == fn
      if mine then some (if r.writer = .own then fn * 2 ^ 24 + off else off, off, r.fields) else none

/-- The bits of a register written since the last commit of its function. -/
def State.wroteW (s : State) (key : Nat) : Nat := (Tab.get (fun _ => 0) s.wrote key).toNat

/-- Step 1 of R330 for one register: each committed field takes its staged value, clamped to its own limits where it has been
written since the last commit (log 69). -/
def rangeWord (fields : List Field) (old stg wrote : Nat) : Nat :=
  fields.foldl (fun w f =>
    if f.acc = .rwc then
      let v := bits stg f.lsb f.width
      setBits w f.lsb f.width (if bits wrote f.lsb f.width = 0 then v else max f.low (min f.high v))
    else w) old

/-- Step 1 of R330: every register of the function. -/
def State.rangeClamp (s : State) (fn : Nat) : State :=
  foldS (fun t r => t.putBar r.1 (rangeWord r.2.2 (s.barW r.1) (s.stgW r.1) (s.wroteW r.1))) s (s.commitRegs fn)

/-! ### Clamps inside one register, or against another field (R33, R324, R424, R472, R640) -/

/-- Three domain codes in some order (R472). -/
def orderOk (o : Nat) : Bool :=
  [o % 4, o / 4 % 4, o / 16].all (fun c => decide (c < 3)) && o % 4 != o / 4 % 4 && o % 4 != o / 16 && o / 4 % 4 != o / 16

/-- The floors come down to a sum of 600 W (R472). -/
def State.clampFloors (t : State) : State :=
  let k := 0x050018
  let l := t.barF k 0 10
  let m := t.barF k 16 10
  let c := t.barF k 32 10
  let excess := l + m + c - 600
  let c1 := c - excess
  let excess := excess - c
  let m1 := m - excess
  ((t.putF k 32 10 c1).putF k 16 10 m1).putF k 0 10 (l - (excess - m))

/-- The clamps of a team (R424, R425): `s` is the state before the commit. -/
def State.clampTeam (s t : State) (i : Nat) : State :=
  let k := teamKey i
  let first := t.barF k 0 12
  let stride := t.barF k 12 12
  let size := t.barF k 24 13
  let t1 := if 4095 < first + stride * (size - 1) then t.putF k 24 13 ((4095 - first) / stride + 1) else t
  if s.coll.colls.any fun c => cteam c.raw.toNat == i then t1.putBar k (s.barW k) else t1

/-- An event code outside the table is not counted (R640). -/
def State.clampSel (t : State) (k : Nat) : State :=
  foldS (fun t j => if 20 < t.barF k (8 * j) 8 then t.putF k (8 * j) 8 0 else t) t (List.range 8)

/-- The clamps of function 0 that compare fields. -/
def State.clampZero (s t : State) : State :=
  let top := 2 ^ t.barF 0x080000 0 2 - 1
  let t1 := if top < t.barF 0x080000 16 2 then t.putF 0x080000 16 2 top else t
  let t2 := if orderOk (t1.barF 0x050010 0 6) then t1 else t1.putF 0x050010 0 6 0x24
  let t3 := foldS (fun t i => s.clampTeam t i) t2.clampFloors (List.range 16)
  foldS (fun t i =>
    let m := 0x021000 + 0x10 * i
    let c := 0x021008 + 0x10 * i
    let t1 := if 8192 < t.barF m 0 13 + t.barF m 16 14 then t.putF m 16 14 (8192 - t.barF m 0 13) else t
    if s.parts ≤ t1.barF c 6 2 then t1.putF c 6 2 (s.parts - 1) else t1) t3 (List.range 8)

/-- The host windows of a partition. -/
def State.winsOf (s : State) (p : Nat) : List Nat := (List.range 16).filter fun j => s.hostWinPart j == p

/-- Step 2 of R330. -/
def State.crossClamp (s t : State) (fn : Nat) : State :=
  let t1 := if fn = 0 then s.clampZero t else t
  let t2 := foldS (fun t j =>
    let b := 0x011000 + 0x10 * j
    let c := 0x011008 + 0x10 * j
    let room := 2 ^ 40 - t.barF b 12 40
    if room < t.barF c 8 28 then t.putF c 8 28 room else t) t1 (s.winsOf fn)
  (t2.clampSel (0x078000 + 0x100 * fn)).clampSel (0x078008 + 0x100 * fn)

/-! ### What windows hold (R225, R326, R335) -/

/-- The structures of the rings in effect of a partition: address and size. -/
def State.ringSpans (s : State) (p : Nat) : List (Nat × Nat) :=
  let rings := (List.range 64).flatMap fun i =>
    if (s.ring p i).active then
      let k := regKey p (0x014008 + 0x40 * i)
      let n := 2 ^ s.barF k 1 5
      [(s.barF (regKey p (0x014000 + 0x40 * i)) 12 52 * 4096, 128 * n),
       (s.barF (regKey p (0x014010 + 0x40 * i)) 6 58 * 64, 32 * n + 64),
       (s.barF (regKey p (0x010010 + 8 * (i / 16))) 6 58 * 64, 64)]
    else []
  rings ++ if (s.rep p).active then
      [(s.barF (regKey p 0x010038) 12 52 * 4096, 64 * s.repSize p), (s.barF (regKey p 0x010030) 6 58 * 64, 64)]
    else []

/-- A structure of a ring in effect lies in `[lo, lo + size)` of an address space, used by one of the partitions. -/
def State.holdsRings (s : State) (ps : List Nat) (space lo size : Nat) : Bool :=
  ps.any fun p => (s.ringSpans p).any fun e =>
    e.1 / 2 ^ 60 == space && decide (e.1 % 2 ^ 60 < lo + size) && decide (lo < e.1 % 2 ^ 60 + e.2)

/-- The partitions that may use a far window. -/
def State.farUsers (s : State) (w : FarWin) : List Nat := if w.shared then List.range s.parts else [w.part]

/-- The lining in effect of a user of a far window lies in it. -/
def State.holdsLining (s : State) (w : FarWin) : Bool :=
  (s.farUsers w).any fun p =>
    let lo := s.linBase p
    s.linOn p && decide (lo < w.lo + w.size) && decide (w.lo < lo + s.barF (0x060100 + 0x10 * p) 16 13 * 2 ^ 30)

/-- A commit would take from what far window `i` holds: disable it, shrink it, make it read-only, move it or change its
target (R225). -/
def State.farTaken (s t : State) (i : Nat) : Bool :=
  match s.farWin i with
  | none => false
  | some w =>
    (s.holdsLining w || s.holdsRings (s.farUsers w) 2 w.lo w.size) &&
      match t.farWin i with
      | none => true
      | some x => x.lo != w.lo || decide (x.size < w.size) || x.target != w.target || (x.ro && !w.ro)

/-- The same for a host window (R326). -/
def State.hostTaken (s t : State) (j : Nat) : Bool :=
  match s.hostWin j with
  | none => false
  | some w =>
    s.holdsRings [s.hostWinPart j] 3 w.lo w.size &&
      match t.hostWin j with
      | none => true
      | some x => x.lo != w.lo || decide (x.size < w.size) || (x.ro && !w.ro)

/-- Two ranges overlap. -/
def overlap (a m b n : Nat) : Bool := decide (a < b + n) && decide (b < a + m)

/-- Step 3 of R330 for far windows (R223, R225), where the windows `keep` keep their settings. Such a window is not cleared by another
(log 71). -/
def State.clampFarKept (s t : State) (keep : List Nat) : State :=
  let t1 := foldS (fun t i =>
    let m := 0x021000 + 0x10 * i
    (t.putBar m (s.barW m)).putBar (m + 8) (s.barW (m + 8))) t keep
  foldS (fun t i =>
    let c := 0x021008 + 0x10 * i
    if keep.contains i then t
    else
      let t1 := if t.barB c 4 then t.putF c 2 1 0 else t
      match t1.farWin i with
      | none => t1
      | some w =>
        let clash := (List.range 8).any fun j => (decide (j < i) || (keep.contains j && j != i)) &&
          match t1.farWin j with
          | some x => overlap x.lo x.size w.lo w.size
          | none => false
        if w.size = 0 ∨ clash then t1.putF c 0 1 0 else t1) t1 (List.range 8)

/-- Keep more windows until none is taken from: `n` bounds the windows that may still join `keep`. -/
def keepMore (clamp : List Nat → State) (taken : State → Nat → Bool) (all : List Nat) : Nat → List Nat → State
  | 0, keep => clamp keep
  | n + 1, keep =>
    let u := clamp keep
    let more := all.filter fun i => keep.contains i || taken u i
    if more = keep then u else keepMore clamp taken all n more

/-- Step 3 of R330 for far windows: those that what they hold would be taken from, by their own change or by an overlap with another
window, keep their settings (R225). -/
def State.clampFar (s t : State) : State :=
  keepMore (s.clampFarKept t) s.farTaken (List.range 8) 8 ((List.range 8).filter fun i => s.farTaken t i)

/-- Step 3 of R330 for the host windows of a partition (R325, R326), where the windows `keep` keep their settings. -/
def State.clampHostKept (s t : State) (p : Nat) (keep : List Nat) : State :=
  let t1 := foldS (fun t j =>
    let b := 0x011000 + 0x10 * j
    (t.putBar b (s.barW b)).putBar (b + 8) (s.barW (b + 8))) t keep
  foldS (fun t j =>
    if keep.contains j then t
    else
      match t.hostWin j with
      | none => t
      | some w =>
        let clash := (s.winsOf p).any fun i => (decide (i < j) || (keep.contains i && i != j)) &&
          match t.hostWin i with
          | some x => overlap x.lo x.size w.lo w.size
          | none => false
        if w.size = 0 ∨ clash then t.putF (0x011008 + 0x10 * j) 0 1 0 else t) t1 (s.winsOf p)

/-- Step 3 of R330 for the host windows of a partition: as for far windows (R326). -/
def State.clampHost (s t : State) (p : Nat) : State :=
  keepMore (s.clampHostKept t p) s.hostTaken (s.winsOf p) 16 ((s.winsOf p).filter fun j => s.hostTaken t j)

/-! ### Rings and the report ring (R336, R338, R339) -/

/-- A structure lies wholly in an active window with use_rings. -/
def State.inRings (t : State) (p a n : Nat) : Bool :=
  match t.reach p .rings false false a n with
  | .ok (.host _) => true
  | .ok (.far _ _) => true
  | _ => false

/-- Bytes of a ring structure as a commit reads them. -/
def State.ringRead (t : State) (p a n : Nat) : List Byte :=
  match t.reach p .rings false false a n with
  | .ok (.host h) => t.extBytes (hostKey h) n
  | .ok (.far _ c) => t.extBytes (farKey c) n
  | _ => []

/-- The key of a doorbell line. -/
def dbKey (p q : Nat) : Nat := regKey p (0x010010 + 8 * q)

/-- The address of the doorbell line of a ring (R342). -/
def State.dbAddr (s : State) (p i : Nat) : Nat := s.barF (dbKey p (i / 16)) 6 58 * 64

/-- The address of the report line. -/
def State.repLine (s : State) (p : Nat) : Nat := s.barF (regKey p 0x010030) 6 58 * 64

/-- The report ring's enable passes (R336, R339). -/
def State.repFits (s t : State) (p : Nat) : Bool :=
  t.inRings p (t.barF (regKey p 0x010038) 12 52 * 4096) (64 * t.repSize p) && t.inRings p (t.repLine p) 64 &&
    ((s.rep p).active || (t.ringRead p (t.repLine p) 64).all fun b => b == 0)

/-- The enable of a ring passes (R336). -/
def State.ringFits (t : State) (p i : Nat) : Bool :=
  let n := 2 ^ t.barF (regKey p (0x014008 + 0x40 * i)) 1 5
  t.inRings p (t.barF (regKey p (0x014000 + 0x40 * i)) 12 52 * 4096) (128 * n) &&
    t.inRings p (t.barF (regKey p (0x014010 + 0x40 * i)) 6 58 * 64) (32 * n + 64) && t.inRings p (t.dbAddr p i) 64

/-- Changes of a ring or report ring that stays enabled are clamped (R338). -/
def State.keepRings (s t : State) (p : Nat) : State :=
  let t1 := foldS (fun t i =>
    let k := regKey p (0x014008 + 0x40 * i)
    if (s.ring p i).active && t.barB k 0 then
      let same := fun (t : State) k => t.putBar k (s.barW k)
      (same (same (same t (regKey p (0x014000 + 0x40 * i))) (regKey p (0x014010 + 0x40 * i))) (dbKey p (i / 16))).putF
        k 1 5 (s.barF k 1 5)
    else t) t (List.range 64)
  let k := regKey p 0x010040
  if (s.rep p).active && t1.barB k 0 then
    let t2 := (t1.putBar (regKey p 0x010030) (s.barW (regKey p 0x010030))).putBar (regKey p 0x010038)
      (s.barW (regKey p 0x010038))
    t2.putF k 1 5 (s.barF k 1 5)
  else t1

/-- Enables of rings and of the report ring are checked (R336, R339). -/
def State.clampRings (s t : State) (p : Nat) : State :=
  let k := regKey p 0x010040
  let t1 := if t.barB k 0 && !s.repFits t p then t.putF k 0 1 0 else t
  foldS (fun t i =>
    let c := regKey p (0x014008 + 0x40 * i)
    if t.barB c 0 && !(t.barB k 0 && t.ringFits p i) then t.putF c 0 1 0 else t) t1 (List.range 64)

/-! ### Lining, save regions, counter records and trace (R82, R522, R642, R646) -/

/-- `n` GiB from far offset `lo` GiB lie in active far windows of a partition with use_lining. -/
def State.inLining (t : State) (p lo n : Nat) : Bool :=
  (List.range n).all fun i =>
    match t.farMatch p ((lo + i) * 2 ^ 30) with
    | some w => w.lining
    | none => false

/-- Where the placement must agree (R522): the range maps to the lining region that it lists for this module. -/
def State.liningPlaced (t : State) (p lo n : Nat) : Bool :=
  !(p == t.owner && t.swarm.role != 0) ||
    t.place.regions.any fun r =>
      r.module == t.fab.logical.toNat && r.kind == 1 && (List.range n).all fun i =>
        match t.farMatch p ((lo + i) * 2 ^ 30) with
        | some w =>
          let a := (w.target + ((lo + i) * 2 ^ 30 - w.lo)) / 2 ^ 30
          decide (r.target ≤ a) && decide (a < r.target + r.size)
        | none => false

/-- The enable of a lining passes (R522). -/
def State.liningFits (t : State) (p : Nat) : Bool :=
  let lo := t.barF (0x060100 + 0x10 * p) 0 13
  let n := t.barF (0x060100 + 0x10 * p) 16 13
  decide (p < t.parts) && decide (t.linNeed ≤ n) && t.inLining p lo n && t.liningPlaced p lo n

/-- The size of a save region in GiB, rounded up (R82). -/
def State.saveGiB (s : State) : Nat := (s.cellsPer / 2 * saveBytes + 2 ^ 30 - 1) / 2 ^ 30

/-- The enable of a save region passes (R82). -/
def State.saveFits (t : State) (p : Nat) : Bool :=
  decide (p < t.parts) && t.inLining p (t.barF (0x060300 + 8 * p) 0 13) t.saveGiB

/-- A save area of a partition is in use. -/
def State.savesUsed (s : State) (p : Nat) : Bool := (s.cellsOf p).any fun n => (s.remapOf n).state == 2

/-- Lining and save region of one partition (R82, R522). -/
def State.clampLining (s t : State) (p : Nat) : State :=
  let b := 0x060100 + 0x10 * p
  let c := 0x060108 + 0x10 * p
  let v := 0x060300 + 8 * p
  let t1 := if s.linOn p && t.barB c 0 then t.putBar b (s.barW b) else t
  let t2 := if t1.barB c 0 && !t1.liningFits p then t1.putF c 0 1 0 else t1
  let t3 := if t2.barB v 16 && !t2.saveFits p then t2.putF v 16 1 0 else t2
  if s.savesUsed p && !t3.barB c 0 && !t3.barB v 16 then
    let t4 := (t3.putF c 0 1 (s.barF c 0 1)).putBar v (s.barW v)
    if s.linOn p then t4.putBar b (s.barW b) else t4
  else t3

/-- Counter records of a partition (R642). -/
def State.clampCrec (t : State) (p : Nat) : State :=
  let a := t.barF (0x078010 + 0x100 * p) 8 56 * 256
  let c := 0x078018 + 0x100 * p
  let n := 256 * 2 ^ t.barF c 1 5
  let fits := match t.reach p .data false false a n with
    | .ok (.loc o) => isClose o
    | .ok (.host _) => true
    | .ok (.far _ _) => true
    | _ => false
  if t.barB c 0 && !fits then t.putF c 0 1 0 else t

/-- A range of the local map lies in the addressable close memory of one slice (R201, R229; log 140). -/
def State.addressableRange (t : State) (a n : Nat) : Bool :=
  isClose a && decide (a + n ≤ t.sliceStart (t.partOfClose a) + t.addressable)

/-- The trace ring (R646). -/
def State.clampTrace (t : State) : State :=
  let a := t.barF 0x07A000 12 36 * 4096
  let n := 2 ^ t.barF 0x07A008 2 6
  if t.barB 0x07A008 0 && !(t.addressableRange a n && a % n == 0) then t.putF 0x07A008 0 1 0 else t

/-- Every clamp of a commit, in the order of R330. -/
def State.clampAll (s : State) (fn : Nat) : State :=
  let t1 := s.crossClamp (s.rangeClamp fn) fn
  let t2 := s.keepRings (s.clampHost (if fn = 0 then s.clampFar t1 else t1) fn) fn
  let t3 := if fn = 0 then (foldS (fun t p => s.clampLining t p) t2 (List.range 4)).clampTrace else t2
  (s.clampRings t3 fn).clampCrec fn

/-! ### The clamp log (R331, R333) -/

/-- The fields whose applied value differs from the staged one: offset, lowest bit, written, applied. -/
def State.clamped (s t : State) (fn : Nat) : List (Nat × Nat × Nat × Nat) :=
  (s.commitRegs fn).flatMap fun r =>
    (r.2.2.filter fun f => f.acc == .rwc).filterMap fun f =>
      let w := bits (s.stgW r.1) f.lsb f.width
      let a := bits (t.barW r.1) f.lsb f.width
      if w = a then none else some (r.2.1, f.lsb, w, a)

/-- Record the clamps of a commit, and send one `CLAMP` report (R331, R369, R638). -/
def State.logClamps (s : State) (fn : Nat) (l : List (Nat × Nat × Nat × Nat)) : State :=
  let c := s.commitOf fn
  let excess := decide (64 < l.length)
  let s1 := s.setCommit fn { c with
    log := l.take 64, clamped := c.clamped || !l.isEmpty, overflow := c.overflow || excess }
  if l.isEmpty then s1
  else (s1.bump 46 l.length).report fn 1 0 ((c.count + 1) % 2 ^ 32)
    (bodyF 0x10 0 ((c.count + 1) % 2 ^ 32) + bodyF 0x10 32 (min 64 l.length) + if excess then bodyF 0x10 39 1 else 0)

/-! ### What takes effect -/

/-- The applied values become the staged ones (R329). -/
def State.restage (s : State) (fn : Nat) : State :=
  { s with stg := (s.commitRegs fn).foldl (fun t r => Tab.set regReset t r.1 (Tab.get regReset s.bar r.1)) s.stg,
           wrote := (s.commitRegs fn).foldl (fun t r => Tab.set (fun _ => 0) t r.1 0) s.wrote }

/-- A window whose setting has changed drains (R224, R326): `s` is the state before the commit. -/
def State.drainWindow (s t : State) (host : Bool) (num : Nat) (changed : Bool) : State :=
  let tags := (s.far.filter fun r => s.windowOf r == some (host, num)).map FarReq.tag
  if changed && !tags.isEmpty then
    { t with drains := (t.drains.filter fun d => !(d.host == host && d.num == num)) ++
        [{ host := host, num := num,
           tags := tags ++ ((t.drains.filter fun d => d.host == host && d.num == num).flatMap Drain.tags),
           stamp := s.farTag }] }
  else t

/-- The windows that a commit has changed while they were active. -/
def State.drainAll (s t : State) : State :=
  let t1 := foldS (fun u i => s.drainWindow u false i ((s.farWin i).isSome && s.farWin i != t.farWin i)) t (List.range 8)
  foldS (fun u j => s.drainWindow u true j ((s.hostWin j).isSome && s.hostWin j != t.hostWin j)) t1 (List.range 16)

/-- A slot value breaks no condition of R345 but the distance. -/
def slotOk (k v : Nat) : Bool := decide (v % 2 ^ 16 < 2 ^ k) && decide (v < 2 ^ 17)

/-- A watched line of a partition. -/
def State.watch (s : State) (p l : Nat) : Watch := Tab.get (fun _ => Watch.reset) s.watches (8 * p + l)

/-- Replace a watched line. -/
def State.setWatch (s : State) (p l : Nat) (w : Watch) : State :=
  { s with watches := Tab.set (fun _ => Watch.reset) s.watches (8 * p + l) w }

/-- A line of watched data with a slot replaced. -/
def putSlot (line : BitVec 512) (j v : Nat) : BitVec 512 :=
  BitVec.ofNat 512 (setBits line.toNat (32 * j) 32 v)

/-- Bring a ring into effect (R339): it starts empty at the slot's value, which later reads are compared with (R343). A value that
R345 does not allow is ignored and reported, and the ring starts at entry 0 (log 70). -/
def State.openRing (s : State) (p i : Nat) : State :=
  let k := s.barF (regKey p (0x014008 + 0x40 * i)) 1 5
  let v := leNat ((s.ringRead p (s.dbAddr p i + 4 * (i % 16)) 4))
  let ok := slotOk k v
  let h := if ok then v % 2 ^ 16 else 0
  let w := ok && bit v 16
  let s1 := s.setRing p i { Ring.reset with
    active := true, head := h, headWrap := w, tail := h, tailWrap := w, rd := h, rdWrap := w, bad := !ok }
  let o := s1.watch p (i / 16)
  let s2 := s1.setWatch p (i / 16) { o with last := putSlot o.last (i % 16) v }
  if ok then s2 else s2.escalate p 6 i v

/-- Take a ring out of effect (R341): commands of it that have not started complete with `ABORTED` and head passes them
(log 49), and running ones are quenched. -/
def State.closeRing (s : State) (p i : Nat) : State :=
  let s1 := s.setRing p i { s.ring p i with active := false }
  foldS (fun t c => if c.waiting then (t.quenchCmd c.id 4).passHead c else t.quenchCmd c.id 4) s1
    (s.cmds.filter fun c => c.part == p && c.ring == i)

/-- The doorbell slot of a ring is read only when the host link is up and the windows of its partition have drained (R224, R319, R326). -/
def State.slotDrains (s : State) (p i : Nat) : Bool :=
  match s.reach p .rings false false (s.dbAddr p i) 64 with
  | .ok (.host _) => !s.link.up || s.drains.any Drain.host
  | .ok (.far _ _) => !s.link.up || s.linDrains p
  | _ => false

/-- Bring rings and the report ring of a partition to their enables (R339, R341, R86). -/
def State.setRings (s : State) (p : Nat) : State :=
  let on := s.barB (regKey p 0x010040) 0
  let q := s.rep p
  let s1 := if on && !q.active then
      (s.setRep p { RepRing.reset with active := true, held := q.held, lostFlag := q.lostFlag }).flushReports p
    else if q.active && !on then s.setRep p { q with active := false } else s
  foldS (fun t i =>
    let e := t.barB (regKey p (0x014008 + 0x40 * i)) 0
    let a := (t.ring p i).active
    if e && !a then (if t.slotDrains p i then t else t.openRing p i) else if a && !e then t.closeRing p i else t) s1 (List.range 64)

/-- The lining of a partition turns off (R522): its epochs are discarded, an epoch in progress ends and work goes on, and
data that waited for a repair or a recovery is lost (log 53). -/
def State.liningOff (s : State) (p : Nat) : State :=
  let e := s.epochOf p
  let s1 := s.setEpoch p { Epoch.reset with
    abandoned := if e.step = 0 then e.abandoned else min (e.abandoned + 1) (2 ^ 24 - 1), commitMs := e.commitMs,
    requested := e.requested, lastCut := e.lastCut, freezing := e.freezing, frozen := e.frozen,
    stopped := e.frozen }
  let s2 := foldS (fun t u =>
    match u with
    | .cell n => t.freeBytes (cellMem n) cellBytes
    | _ => foldS (fun t k => t.freeBytes (t.granuleOff p k) 4096) t (t.lostGranules p u)) s1 e.lostU
  (foldS (fun t d => t.endLost d fun _ => true) s2 (if e.lostU.isEmpty then [] else s.devsOf p)).endLostCmds p

/-- The lining of a partition turns on (R522): every granule counts as written. -/
def State.liningStart (s : State) (p : Nat) : State :=
  let e := s.epochOf p
  let s1 := s.setEpoch p { Epoch.reset with
    state := 1, active := true, first := true, abandoned := e.abandoned, commitMs := e.commitMs, lastCut := e.lastCut,
    requested := e.requested, freezing := e.freezing, frozen := e.frozen, stopped := e.stopped }
  foldS (fun t k => t.markGranule p k) s1 (List.range s1.linQ)

/-- Bring a lining to its enable. -/
def State.setLining (s : State) (p : Nat) : State :=
  let e := s.barB (0x060108 + 0x10 * p) 0
  if e && !s.linOn p then s.liningStart p else if s.linOn p && !e then s.liningOff p else s

/-- The place of save areas has changed while areas are in use: they move (R82). -/
def State.moveSaves (s t : State) (p : Nat) : State :=
  if s.savesUsed p ∧ s.saveBase p ≠ t.saveBase p ∧ !t.saveMoves.any (fun m => m.part == p) then
    match s.saveBase p with
    | some b => { t with saveMoves := t.saveMoves ++ [{ part := p, base := b, wins := s.farWins }] }
    | none => t
  else t

/-- What function 0 brings into effect besides registers: linings, save regions, the cap, run orders, ports, trace and
teams (R82, R380, R425, R467, R471, R522, R646). -/
def State.applyZero (s t : State) : State :=
  let t1 := foldS State.setLining t (List.range 4)
  let t2 := foldS (fun u p => (s.moveSaves u p).regainGuests p) t1 (List.range s.parts)
  let t3 := if !t2.barB 0x050008 0 && s.barB 0x050008 0 && t2.power.running then t2.beginOff 1 else t2
  let t4 := foldS (fun u p =>
    let k := 0x030200 + 8 * p
    let q := u.port p
    if (q.state ≠ 6 ∧ q.state ≠ 7 ∧ !u.barB k 0) ∨ (q.state = 6 ∧ u.barB k 0) then u.restPort p
    else u.setPort p { q with bucket := min q.bucket (1024 * u.barF k 16 16) }) t3 (List.range 18)
  let t5 := if t4.barB 0x07A008 0 && !s.barB 0x07A008 0 then
      { t4 with dbg := { t4.dbg with trHead := 0, trWraps := 0, trFull := false } }
    else t4
  foldS (fun u i => if (u.team i).active && !(s.team i).active then u.setTeamSeq i Team.reset else u) t5 (List.range 16)

/-- A host on order while the rack manager orders off changes nothing (R471): host_on keeps its value. -/
def State.keepRun (s t : State) : State :=
  if s.power.hostOrder && !s.power.rackOn && t.barB 0x050008 0 then t.putF 0x050008 0 1 (s.barF 0x050008 0 1) else t

/-- A committed run order has been taken: one against the rack manager's is reported (R471). -/
def State.takeOrder (s t : State) : State :=
  let u := if s.power.hostOrder && !s.power.rackOn then t.powerReport 5 7 t.cap t.cap else t
  { u with power := { u.power with hostOrder := false } }

/-- Commit the staged fields of a function (R330). -/
def State.commit (s : State) (fn : Nat) : State :=
  let t0 := s.clampAll fn
  let clamps := s.clamped t0 fn
  let t := if fn = 0 then s.keepRun t0 else t0
  let put := fun (u : State) => { u with bar := t.bar }
  let t1 := if fn = 0 then s.setCap put else put s
  let t2 := s.drainAll (t1.restage fn)
  let t3 := if fn = 0 then s.takeOrder (s.applyZero t2) else t2
  (t3.setRings fn).logClamps fn clamps

/-- CFG_COMMIT.go is written (R330, R334): a commit in progress is followed by one more. -/
def State.requestCommit (s : State) (fn : Nat) : State :=
  let c := s.commitOf fn
  if c.busy then s.setCommit fn { c with again := true }
  else
    let s1 := s.commit fn
    s1.setCommit fn { s1.commitOf fn with busy := true }

/-- A function exists in the mode in effect. -/
def State.hasFn (s : State) (fn : Nat) : Bool := decide (fn < s.parts)

/-- CFG_COMMIT (R319, R330, R334): the host's write comes over the link, and the commit reads the report line over it (R339). -/
def execCfgCommit (fn : Nat) (s : State) : Host.Outcome State Fault Refusal :=
  whenFormed (decide (fn < 4)) <|
  whenLive s <| whenDue (s.hasFn fn && s.link.up) <| .next (s.hostContact.requestCommit fn)

/-- A ring that a commit has enabled waits for its doorbell slot (R224, R339). -/
def State.opening (s : State) (p : Nat) : Bool :=
  (List.range 64).any fun i => s.barB (regKey p (0x014008 + 0x40 * i)) 0 && !(s.ring p i).active && s.slotDrains p i

/-- COMMIT_COMPLETE (R332, R334): the last rings open, busy clears, the commit is counted, and one more follows where it was
requested. -/
def execCommitComplete (fn : Nat) (s : State) : Host.Outcome State Fault Refusal :=
  whenFormed (decide (fn < 4)) <|
  whenLive s <| whenDue ((s.commitOf fn).busy && !s.opening fn && (!(s.commitOf fn).again || s.link.up)) <|
    let s := s.setRings fn
    let c := s.commitOf fn
    let s1 := s.setCommit fn { c with busy := false, again := false, count := (c.count + 1) % 2 ^ 32 }
    .next (if c.again then s1.requestCommit fn else s1)

end Sys2Proof.Machine
end

