-- ==== Sys2Proof/Machine/Ports.lean ====
section
/-!
DEFINITION. Quedar ports: training, lanes, flits and link-level retry, credits and the Collar's checks of packets (R371-R386,
R393-R396, R406, R416).
-/

namespace Sys2Proof.Machine

/-! ### Port states (R377-R379) -/

/-- A port is up (R403). -/
def Port.up (q : Port) : Bool := q.state == 1 || q.state == 2 || q.state == 3

/-- The state and active lanes that the healthy lanes of a trained port allow (R378). -/
def laneState (healthy : BitVec 9) : Nat × BitVec 9 :=
  let ok := (List.range 9).filter fun j => healthy.getLsbD j
  let mask := fun (l : List Nat) => l.foldl (fun (m : BitVec 9) j => m ||| (1#9 <<< j)) 0
  if healthy.toNat % 256 = 255 then (1, 0xFF#9)
  else if ok.length = 8 then (2, healthy)
  else if 4 ≤ ok.length then (3, mask (ok.take 4))
  else (5, 0)

/-- A port enters state 5. -/
def State.failPort (s : State) (p : Nat) : State := (s.setPort p (s.port p).drop).setPortState p 5

/-- A trained port takes the state that its partner and its lanes give it (R377, R594): held in state 4 where the partner is
not the one that the placement names. One that the placement does not wire is not trained, and one that it wires now may be. -/
def State.comparePort (s : State) (p : Nat) : State :=
  let q := s.port p
  let e := Tab.get (fun _ => PPort.reset) s.place.ports p
  if !e.wired then (if q.state = 7 then s else (s.setPort p q.drop).setPortState p 7)
  else if q.state = 7 then s.restPort p
  else if !q.trained || q.state = 6 then s
  else if q.pPhys = e.phys ∧ q.pPort = e.port ∧ (e.serial = 0 ∨ e.serial = q.pSerial) then
    let (st, lanes) := laneState q.healthy
    let s1 := s.setPort p { q with lanes := lanes }
    if st = 5 then s1.failPort p else if q.state = st then s1 else s1.setPortState p st
  else (if q.state = 4 then s else (s.setPort p { q with lanes := 0 }).setPortState p 4).mEvent 11 p

/-- PORT_TRAINED (R377): what the partner has sent is kept; until a placement is accepted the port stays in state 0. -/
def execPortTrained (port : Nat) (phys : BitVec 12) (pport : BitVec 5) (serial : Word) (s : State) :
    Host.Outcome State Fault Refusal :=
  whenFormed (decide (port < 18)) <|
  whenLive s <| whenDue ((s.port port).state == 0 && !(s.port port).trained) <|
    let s1 := s.setPort port { s.port port with
      trained := true, pPhys := phys, pPort := pport, pSerial := serial, tx := 0, rx := 0xFFF, unacked := [], credits := [],
      owed := [], nak := false, replays := 0, queue := [] }
    .next (if s.fab.placed then s1.comparePort port else s1)

/-- Retire a lane (R378, R638): the spare takes its place, or the port degrades or fails. A test of a spare that is needed ends
(R657). -/
def State.retireLane (s : State) (port lane : Nat) : State :=
  let q := s.port port
  let h := q.healthy &&& ~~~(1#9 <<< lane)
  let n := port + 32 * lane
  let s := if lane < 8 then s.endTests fun k t => k == 3 && t == port else s
  let s1 := ((s.setPort port { q with healthy := h }).bump 37 1).retire s.owner 5 1 n n n
  if q.up then
    let (st, lanes) := laneState h
    if st = 5 then s1.failPort port
    else
      let s2 := s1.setPort port { s1.port port with lanes := lanes }
      if st = q.state then s2 else s2.setPortState port st
  else s1

/-- LANE_RETIRE (R378). -/
def execLaneRetire (port lane : Nat) (s : State) : Host.Outcome State Fault Refusal :=
  whenFormed (decide (port < 18) && decide (lane < 9)) <|
  whenLive s <| whenDue ((s.port port).healthy.getLsbD lane) <| .next (s.retireLane port lane)

/-- LINK_RETRAIN (R379, R385): after eight replays that begin at one flit. Nothing of any channel is lost. -/
def execLinkRetrain (port : Nat) (s : State) : Host.Outcome State Fault Refusal :=
  whenFormed (decide (port < 18)) <|
  whenLive s <|
    let q := s.port port
    whenDue (q.up && decide (8 ≤ q.replays)) <|
      .next (s.setPort port { q with retrains := min (q.retrains + 1) 65535, replays := 0, lastTx := q.unacked })

/-- PORT_FAILED (R381, R385, R406): the third retrain in 10 s has failed. -/
def execPortFailed (port : Nat) (s : State) : Host.Outcome State Fault Refusal :=
  whenFormed (decide (port < 18)) <|
  whenLive s <| whenDue (s.port port).up <| .next (s.failPort port)

/-! ### Flits (R382-R385, R394) -/

/-- The credits of a channel at a partner that has returned them all (R393). -/
def creditInit (vc : Nat) : Nat :=
  match vc with
  | 0 => 64
  | 1 => 2048
  | 3 => 2048
  | 5 => 512
  | 7 => 2048
  | _ => 160

/-- Credits of channel `vc` left at a port. -/
def Port.credit (q : Port) (vc : Nat) : Nat := Tab.get creditInit q.credits vc

/-- The channel of a packet's class, adaptive or escape (R382, R393). -/
def vcOf (cls : Nat) (esc : Bool) : Nat := if cls = 0 then 0 else 2 * cls - 1 + if esc then 1 else 0

/-- The header of a flit. -/
def flitHead (f : Flit) : Nat :=
  f.fseq.toNat + f.aseq.toNat * 2 ^ 12 + (if f.nak then 2 ^ 24 else 0) + f.vc.toNat * 2 ^ 25 + f.start.toNat * 2 ^ 29 +
    f.cvc.toNat * 2 ^ 33 + f.ccount.toNat * 2 ^ 37 + f.res.toNat * 2 ^ 49

/-- The CRC of a flit (R383). -/
def flitCrc (f : Flit) : BitVec 64 := BitVec.ofNat 64 (crc64 (leBytes 8 (flitHead f) ++ f.payload))

/-- The credits that the next flit returns: those of the first channel that owes some. -/
def Port.giveBack (q : Port) : BitVec 4 × BitVec 12 :=
  match q.owed.head? with
  | some (vc, n) => (BitVec.ofNat 4 vc, BitVec.ofNat 12 (min n 4095))
  | none => (15, 0)

/-- Send a flit: it takes the next sequence number and stays in the replay buffer (R385). -/
def Port.sendFlit (q : Port) (vc start : Nat) (payload : List Byte) : Port :=
  let (cvc, n) := q.giveBack
  let f : Flit := { fseq := q.tx, aseq := q.rx, nak := q.nak, vc := BitVec.ofNat 4 vc, start := BitVec.ofNat 4 start, cvc := cvc,
                    ccount := n, res := 0, payload := payload, crc := 0, fecOk := true }
  let f := { f with crc := flitCrc f }
  let k := cvc.toNat
  { q with
    tx := q.tx + 1, unacked := q.unacked ++ [f], lastTx := q.lastTx ++ [f],
    owed := if n = 0 then q.owed else Tab.set (fun _ => 0) q.owed k (Tab.get (fun _ => 0) q.owed k - n.toNat) }

/-- Bytes of a channel cut into flits, the first of which has its first packet header at a 16-byte slot. -/
def cutFlits (vc start : Nat) (urgent : Bool) (bs : List Byte) : List TxFlit :=
  (List.range ((bs.length + 239) / 240)).map fun i =>
    { vc := vc, start := if i = 0 then start else 15, urgent := urgent, payload := (bs.drop (240 * i)).take 240 }

/-- The bytes of a packet can follow those of a waiting flit: it is not full, and a packet of `CTL`, which others may overtake, stays in
one flit (R384, R395). -/
def TxFlit.takes (x : TxFlit) (bs : List Byte) : Bool :=
  decide (x.payload.length < 240) && (x.vc != 0 || decide (x.payload.length + bs.length ≤ 240))

/-- Place a packet in the queue of a port: the packets of a channel follow each other in one byte stream, so that it begins in what the
last waiting flit of its kind leaves free, or in a flit of its own (R384; log 74). -/
def Port.queueBytes (q : Port) (vc : Nat) (urgent : Bool) (bs : List Byte) : Port :=
  let mine := fun (x : TxFlit) => x.vc == vc && x.urgent == urgent
  let fresh := { q with queue := q.queue ++ cutFlits vc 0 urgent bs }
  match (q.queue.filter mine).getLast? with
  | none => fresh
  | some x =>
    if x.takes bs then
      let start := if x.start = 15 then x.payload.length / 16 else x.start
      { q with queue := q.queue.filter (fun y => !mine y) ++ (q.queue.filter mine).dropLast ++
          cutFlits vc start urgent (x.payload ++ bs) }
    else fresh

/-- The flit that a port sends next (R384, R395): one of `CTL` before any other, QUENCH and MARKER first; among the other channels
`pick` chooses, and the flits of each keep their order. -/
def Port.nextFlit (q : Port) (pick : Nat) : Option TxFlit :=
  let vcs := (q.queue.map TxFlit.vc).eraseDups
  (q.queue.find? fun x => x.vc == 0 && x.urgent).or <| (q.queue.find? fun x => x.vc == 0).or <|
    (vcs[pick % vcs.length]?).bind fun v => q.queue.find? fun x => x.vc == v

/-- Send one waiting flit, while the replay buffer has a place (R385); what its packets leave free is zero. -/
def Port.pump (q : Port) (pick : Nat) : Port :=
  if 512 ≤ q.unacked.length then q
  else match q.nextFlit pick with
    | some x => ({ q with queue := q.queue.erase x }).sendFlit x.vc x.start
        (x.payload ++ List.replicate (240 - x.payload.length) 0)
    | none => q

/-- The flits that a port sends in one tick of 10 ns (R376): 8 on eight lanes, 4 on four (log 125). -/
def State.pumpPort (s : State) (p : Nat) : State :=
  let q := s.port p
  if !q.up || q.queue.isEmpty then s
  else
    let n := if q.state = 3 then 4 else 8
    ({ s with freeCtr := s.freeCtr + n }).setPort p
      ((List.range n).foldl (fun q i => q.pump (Config.freeValue (s.freeCtr + i))) { q with lastTx := [] })

/-- The flits that `aseq` covers leave the replay buffer (R385). -/
def Port.acked (q : Port) (aseq : BitVec 12) : Port :=
  match q.unacked with
  | [] => q
  | f :: _ =>
    let n := (aseq - f.fseq).toNat + 1
    if n ≤ q.unacked.length then { q with unacked := q.unacked.drop n, replays := 0 } else q

/-- Replay every flit that is not acknowledged, oldest first. -/
def Port.replay (q : Port) : Port :=
  if q.unacked = [] then q else { q with lastTx := q.unacked, replays := q.replays + 1 }

/-- The length of the packet whose bytes begin a list, once its header is there (R387, R388). -/
def pktLen (bs : List Byte) : Option Nat :=
  if bs.length < 32 then none
  else
    let p := packetOf (bs.take 32)
    if p.plen ≠ 0 then some (32 + 64 * p.plen.toNat)
    else if p.type = 8 ∨ p.type = 13 then some 64
    else if p.type = 14 then some (if [2, 3, 7, 9].contains (p.arg0.toNat % 256) then 64 else 32)
    else some 32

/-- The whole packets at the start of a byte stream, and what is left. A zero header is padding (log 74). -/
def splitPkts : Nat → List Byte → List Packet × List Byte
  | 0, bs => ([], bs)
  | n + 1, bs =>
    if bs.all fun b => b == 0 then ([], [])
    else match pktLen bs with
      | none => ([], bs)
      | some k =>
        if (bs.take 32).all fun b => b == 0 then ([], [])
        else if bs.length < k then ([], bs)
        else
          let (l, r) := splitPkts n (bs.drop k)
          (packetOf (bs.take k) :: l, r)

/-- The packets that the payload of a flit completes, and the bytes of its channel that wait for more (R382, R384). -/
def takePayload (buf : List Byte) (start : Nat) (payload : List Byte) : List Packet × List Byte :=
  let all := buf ++ payload
  let rest := if start = 15 then [] else payload.drop (16 * start)
  if buf = [] then splitPkts 8 rest
  else match pktLen all with
    | none => ([], all)
    | some k =>
      if all.length < k then ([], all)
      else
        let (l, r) := splitPkts 8 rest
        (packetOf (all.take k) :: l, r)

/-- Collar clamps are counted, with at most one event a second (R604, R638). -/
def State.collarClamp (s : State) : State :=
  let s1 := s.bump 45 1
  let due := match s.mgmt.collarAt with
    | none => true
    | some t => decide (100000000 ≤ (s.now - t).toNat)
  if due then
    let s2 := s1.mEvent 12 0
    { s2 with mgmt := { s2.mgmt with collarAt := some s.now } }
  else s1

/-- The channel of a packet by its header. -/
def chanOf (p : Packet) : Nat := vcOf p.cls.toNat p.esc

/-- The credits of a packet that leaves a channel's buffer at a port are owed to the partner (R394). -/
def State.owe (s : State) (k vc : Nat) (p : Packet) : State :=
  let q := s.port k
  if 9 ≤ vc then s
  else s.setPort k { q with owed := Tab.set (fun _ => 0) q.owed vc (Tab.get (fun _ => 0) q.owed vc + (pktSize p + 31) / 32) }

/-- A packet has come in on a channel of a port: it waits at the Q-die for a decision. One that claims to come from this module is
discarded and counted (R416), and so is one whose class or escape bit is not its channel's, a reserved class among them (R388; log 137);
its credits go back to the channel (R394). -/
def State.arrive (s : State) (port vc : Nat) (p : Packet) : State :=
  let s1 := s.bump (18 + port) (pktSize p)
  if p.srcPhys = s.fab.phys then (s1.owe port vc p).collarClamp
  else if chanOf p ≠ vc ∨ 9 ≤ vc then (s1.owe port vc p).bump 41 1
  else { s1 with fab := { s1.fab with waiting := s1.fab.waiting ++ [(some port, p)] } }

/-- An accepted flit: acknowledgement, replay request and credits, then its payload (R382, R385, R394). -/
def State.acceptFlit (s : State) (port : Nat) (f : Flit) : State :=
  let q := (s.port port).acked f.aseq
  let q := { q with rx := f.fseq, nak := false }
  let k := f.cvc.toNat
  let q := if k < 9 then { q with credits := Tab.set creditInit q.credits k (q.credit k + f.ccount.toNat) } else q
  let again := f.nak && !q.unacked.isEmpty
  let q := if f.nak then q.replay else q
  let vc := f.vc.toNat
  let buf := Tab.get (fun _ => []) q.rxBuf vc
  let (ps, rest) := takePayload buf f.start.toNat f.payload
  let s1 := if again then s.bump 36 1 else s
  if 9 ≤ vc then s1.setPort port q
  else foldS (fun t p => t.arrive port vc p)
    (s1.setPort port { q with rxBuf := Tab.set (fun _ => []) q.rxBuf vc rest }) ps

/-- FLIT_RECEIVE (R382-R385): a flit that fails its CRC or FEC, or is not the successor of the last accepted one, is
discarded, and the next flit sent asks for a replay. -/
def execFlitReceive (port : Nat) (f : Flit) (s : State) : Host.Outcome State Fault Refusal :=
  whenFormed (decide (port < 18) && f.payload.length == 240) <|
  whenLive s <|
    let q := s.port port
    whenDue q.up <|
      if !f.fecOk || f.crc != flitCrc f then .next ((s.setPort port { q with nak := true }).bump 38 1)
      else if f.fseq = q.rx + 1 then .next (s.acceptFlit port f)
      else .next (s.setPort port { q with nak := true })

/-- REPLAY_TIMEOUT (R385). -/
def execReplayTimeout (port : Nat) (s : State) : Host.Outcome State Fault Refusal :=
  whenFormed (decide (port < 18)) <|
  whenLive s <|
    let q := s.port port
    whenDue (q.up && !q.unacked.isEmpty) <| .next ((s.setPort port q.replay).bump 36 1)

/-- IDLE_FLIT (R384): a port with nothing to send. -/
def execIdleFlit (port : Nat) (s : State) : Host.Outcome State Fault Refusal :=
  whenFormed (decide (port < 18)) <|
  whenLive s <|
    let q := s.port port
    whenDue (q.up && q.queue.isEmpty && decide (q.unacked.length < 512)) <|
      .next (s.setPort port (({ q with lastTx := [] }).sendFlit 15 15 (List.replicate 240 0)))

end Sys2Proof.Machine
end

