-- ==== Sys2Proof/Machine/Routing.lean ====
section
/-!
DEFINITION. Routing and origination of Quedar packets, and end-to-end retransmission (R29, R293, R298, R374, R390, R400-R418,
R481).
-/

namespace Sys2Proof.Machine

/-! ### The hive cube (R372, R374, R404) -/

/-- The neighbour of a position in a dimension. -/
def neighbour (d p : Nat) : Nat :=
  match d with
  | 0 => p ^^^ 1
  | 1 => p ^^^ 2
  | _ => if p % 2 = 0 then p ^^^ 4 else p ^^^ 6

/-- The first dimension of the ascending route from one position to another. -/
def cubeEscapeDim (p q : Nat) : Nat :=
  if p % 2 ≠ q % 2 then 0
  else
    let w := (q / 2 % 2) ^^^ ((q % 2) &&& ((p / 4 % 2) ^^^ (q / 4 % 2)))
    if p / 2 % 2 ≠ w then 1 else 2

/-- The links between two positions of a hive: the diameter is 2. -/
def cubeDist (p q : Nat) : Nat :=
  if p = q then 0 else if (List.range 3).any fun d => neighbour d p == q then 1 else 2

/-- The position of a physical module in its hive. -/
def position (phys : BitVec 12) : Nat := phys.toNat % 8

/-- Two modules are of one rack and hive. -/
def sameHive (a b : BitVec 12) : Bool := a.toNat / 8 == b.toNat / 8

/-! ### Ports for a packet (R402-R405) -/

/-- Switch planes on which a logical module can be reached. -/
def State.planeOk (s : State) (m : BitVec 12) (k : Nat) : Bool := (s.port k).up && (s.route m.toNat).mask.getLsbD k

/-- The switch ports in the order of R403. -/
def planeOrder (t : BitVec 12) : List Nat := (List.range 12).map fun j => (t.toNat + j) % 12

/-- The escape port of a packet. -/
def State.escapePort (s : State) (p : Packet) : Option Nat :=
  let cube :=
    if sameHive p.dstPhys s.fab.phys then
      let d := cubeEscapeDim (position s.fab.phys) (position p.dstPhys)
      [12 + 2 * d, 13 + 2 * d].find? fun k => (s.port k).up
    else none
  match cube with
  | some k => some k
  | none => (planeOrder p.dstPhys).find? fun k => s.planeOk p.dstLog k

/-- Sort ports: most free credits first, ties by the rotating pointer of the Q-die (R405). -/
def State.byCredit (s : State) (die vc : Nat) (l : List Nat) : List Nat :=
  let r := Tab.get (fun _ => 0) s.fab.rotor die
  let key := fun k => ((s.port k).credit vc, (k + 18 - r) % 18)
  let before := fun a b => decide ((key b).1 < (key a).1) || ((key a).1 == (key b).1 && decide ((key a).2 ≤ (key b).2))
  l.foldl (fun acc k => acc.takeWhile (fun x => before x k) ++ [k] ++ acc.dropWhile (fun x => before x k)) []

/-- The adaptive candidates of a packet at a Q-die, in their order (R405). -/
def State.adaptivePorts (s : State) (die : Nat) (p : Packet) : List Nat :=
  let vc := vcOf p.cls.toNat false
  let own := position s.fab.phys
  let dest := position p.dstPhys
  let planes := (List.range 12).filter fun k => s.planeOk p.dstLog k
  if sameHive p.dstPhys s.fab.phys then
    let h := Tab.get (fun _ => Hive.reset) s.fab.hives (64 * (p.cls.toNat - 1) + 8 * own + dest)
    let cube := if p.hops.toNat < 2 then
        (List.range 6).filter fun j => (s.port (12 + j)).up && h.adaptive.getLsbD j &&
          decide (cubeDist (neighbour (j / 2) own) dest < cubeDist own dest)
      else []
    let cube := s.byCredit die vc (cube.map fun j => 12 + j)
    let sw := if h.switchOk then s.byCredit die vc planes else []
    if h.prefer then sw ++ cube else cube ++ sw
  else
    s.byCredit die vc planes ++
      if p.hops = 0 then s.byCredit die vc (((List.range 6).map fun j => 12 + j).filter fun k => (s.port k).up) else []

/-- A packet of `CTL` that goes before the others: a QUENCH or a MARKER (R395). -/
def urgentPkt (p : Packet) : Bool := p.type == 11 || p.type == 12

/-- An originated packet that takes its size from the injection bucket (R415). -/
def bucketed (p : Packet) : Bool := p.cls != 2 && !urgentPkt p

/-- A port can take a packet on a channel: it is up, has credits for the whole packet, and the bucket holds its size (R394, R403,
R415). -/
def State.portTakes (s : State) (k vc : Nat) (orig : Bool) (p : Packet) : Bool :=
  let q := s.port k
  let n := pktSize p
  q.up && decide ((n + 31) / 32 ≤ q.credit vc) && (!(orig && bucketed p) || decide (n ≤ q.bucket))

/-- The retransmit-store entry of a packet. -/
def Rtx.isFor (r : Rtx) (p : Packet) : Bool :=
  p.seqd && r.pkt.seq == p.seq && r.pkt.dstLog == p.dstLog && r.pkt.cls == p.cls

/-- The switch plane that a resend tries first: the next after the previous one in the order of R403 (R411). -/
def State.nextPlane (s : State) (r : Rtx) : Option Nat :=
  let order := planeOrder r.pkt.dstPhys
  let rest := if r.plane = 0 then order
    else (order.dropWhile fun k => k + 1 != r.plane).drop 1 ++ order.takeWhile fun k => k + 1 != r.plane
  (rest ++ if r.plane = 0 then [] else [r.plane - 1]).find? fun k => s.planeOk r.pkt.dstLog k

/-! ### Leaving and sending -/

/-- Withdraw packets that this module has originated and that have not left (R411). -/
def State.withdraw (s : State) (gone : Packet → Bool) : State :=
  { s with fab := { s.fab with
      outbox := s.fab.outbox.filter fun q => !gone q, waiting := s.fab.waiting.filter fun e => !(e.1.isNone && gone e.2) } }

/-- A packet leaves the buffers in which it waited, and its credits are owed to the partner (R394). -/
def State.unpark (s : State) (p : Packet) : State :=
  match s.fab.waiting.find? fun e => e.2 == p with
  | none => s
  | some e =>
    let s1 := { s with fab := { s.fab with waiting := s.fab.waiting.erase e } }
    match e.1 with
    | none => s1
    | some k => s1.owe k (chanOf p) p

/-- Send a packet on a port: age, hops and escape bit, credits, bucket, flits and counts (R390, R394, R403, R412, R415, R638). -/
def State.sendOn (s : State) (die k : Nat) (esc orig : Bool) (p : Packet) (residence : Nat) : State :=
  let n := pktSize p
  let vc := vcOf p.cls.toNat esc
  let out := { p with
    age := BitVec.ofNat 11 (p.age.toNat + residence + 1), esc := p.esc || esc,
    hops := if 12 ≤ k then p.hops + 1 else p.hops }
  let q := s.port k
  let q1 := { q with
    credits := Tab.set creditInit q.credits vc (q.credit vc - (n + 31) / 32),
    bucket := if orig && bucketed p then q.bucket - n else q.bucket }
  let s1 := (s.setPort k (q1.queueBytes vc (urgentPkt p) (pktBytes out))).bump k n
  let s2 := if orig then s1.bumpPart s1.owner 14 n else s1
  { s2 with fab := { s2.fab with
      rotor := Tab.set (fun _ => 0) s2.fab.rotor die ((k + 1) % 18),
      rtx := if orig then
          s2.fab.rtx.map fun r => if r.isFor p then { r with sent := true, plane := if k < 12 then k + 1 else r.plane } else r
        else s2.fab.rtx,
      reads := if orig then s2.fab.reads.map fun t => if p.type = 2 ∧ t.etag = p.etag ∧ t.again.isSome then { t with again := some s.now } else t
        else s2.fab.reads } }

/-! ### Holding back originated packets (R29, R410-R412, R417, R418, R481) -/

/-- A local signal that the engine of a packet issued before it. -/
def Rtx.follows (r : Rtx) (g : Sig) : Bool :=
  decide (g.ord < r.ord) && g.eng.key == r.eng && match r.owner with
    | .cmd id => g.cmd == some id
    | _ => true

/-- A remote signal has what it releases behind it (R293, R298): no earlier access and no earlier signal of its engine is
outstanding. -/
def State.sigReleased (s : State) (r : Rtx) : Bool :=
  !(r.pkt.type == 6 || r.pkt.type == 7) || r.owner == .none ||
    (!s.pendingBefore r.ord (fun o => o == r.owner || match r.owner with
      | .cell n => o.ofCell n
      | _ => false) && !s.sigs.any r.follows && !s.link.bis.any fun b => match b.what with
        | .sig g => r.follows g
        | _ => false)

/-- The 64-byte lines of another module's memory that a remote access touches: the first and the last (R388). -/
def packetLines (p : Packet) : Option (Nat × Nat) :=
  let a := p.arg0.toNat
  match p.type.toNat with
  | 1 => some (a / 64, (a + p.arg1.toNat - 1) / 64)
  | 2 => some (a / 64, (a + p.arg1.toNat - 1) / 64)
  | 6 => some ((syncBase + 8 * p.arg1.toNat) / 64, (syncBase + 8 * p.arg1.toNat) / 64)
  | 7 => some ((syncBase + 8 * p.arg1.toNat) / 64, (syncBase + 8 * p.arg1.toNat) / 64)
  | _ => none

/-- Two accesses to one module meet in a 64-byte line. -/
def packetsMeet (p q : Packet) : Bool :=
  p.dstLog == q.dstLog && match packetLines p, packetLines q with
    | some (a, b), some (c, d) => decide (a ≤ d) && decide (c ≤ b)
    | _, _ => false

/-- A remote access is held until every earlier access of its engine to a line of it has been performed (R286). -/
def State.lineFree (s : State) (r : Rtx) : Bool :=
  !s.fab.rtx.any fun x => decide (x.ord < r.ord) && x.eng == r.eng && packetsMeet x.pkt r.pkt

/-- Nothing holds an originated packet back. A response passes always. Without the reference the `CTL` packets of the controllers leave
(R29; log 139). -/
def State.mayLeave (s : State) (p : Packet) : Bool :=
  let r := s.fab.rtx.find? fun x => x.isFor p
  let ctl := match r with
    | some x => x.eng == ctlKey
    | none => false
  if s.boot.oscHeld then p.cls == 0 && ctl && decide (0 < s.fab.ctlCredit)
  else if p.cls = 2 then true
  else if p.cls = 0 then
    (!ctl || decide (0 < s.fab.ctlCredit)) && match r with
      | some x => x.sent || (s.storeTakes x && s.sigReleased x && s.lineFree x)
      | none => true
  else s.swarm.quench.isEmpty && s.power.linkPct != 0 && match r with
    | some x => x.sent || (s.storeTakes x && s.lineFree x)
    | none => true

/-- A controller's `CTL` packet takes from the Collar's allowance (R417). -/
def State.spendCtl (s : State) (p : Packet) : State :=
  match s.fab.rtx.find? fun x => x.isFor p with
  | some x => if x.eng = ctlKey ∧ p.cls = 0 then { s with fab := { s.fab with ctlCredit := s.fab.ctlCredit - 1 } } else s
  | none => s

/-! ### The port of a packet (R395, R403, R411) -/

/-- A QUENCH or MARKER waits for credits of a port (R395). -/
def State.urgentAt (s : State) (k : Nat) : Bool :=
  s.fab.waiting.any fun e => urgentPkt e.2 && e.2.dstPhys != s.fab.phys && (e.1.isSome || s.mayLeave e.2) && s.escapePort e.2 == some k

/-- The switch plane that a resend takes (R411), unless every packet is on its escape route (R401). -/
def State.planeFor (s : State) (orig : Bool) (p : Packet) : Option Nat :=
  if orig && s.barB 0x030008 0 then (s.fab.rtx.find? fun r => r.sent && r.isFor p).bind s.nextPlane else none

/-- The port and channel on which a packet leaves now, if there is one (R395, R401, R403, R411): a resend waits for its plane, on the
channel of its class or the escape channel (log 137). -/
def State.choose (s : State) (die : Nat) (orig : Bool) (p : Packet) : Option (Nat × Bool) :=
  let cls := p.cls.toNat
  let takes := fun k esc => s.portTakes k (vcOf cls esc) orig p && (cls != 0 || urgentPkt p || !s.urgentAt k)
  let escape := fun (e : Option Nat) => e.bind fun k => if takes k true then some (k, true) else none
  if cls = 0 then
    ((s.planeFor orig p).or (s.escapePort p)).bind fun k => if takes k false then some (k, false) else none
  else match s.planeFor orig p with
    | some k => if takes k false then some (k, false) else escape (some k)
    | none =>
      let adaptive := if !p.esc && s.barB 0x030008 0 then s.adaptivePorts die p else []
      match adaptive.find? fun k => takes k false with
      | some k => some (k, false)
      | none => escape (s.escapePort p)

/-! ### The decision (R388, R390, R403, R416) -/

/-- Every class has a channel, and every type its class (R388). -/
def typeClass (type : Nat) : Option Nat :=
  match type with
  | 1 => some 1
  | 2 => some 1
  | 3 => some 2
  | 4 => some 2
  | 5 => some 2
  | 6 => some 0
  | 7 => some 0
  | 8 => some 3
  | 9 => some 4
  | 10 => some 0
  | 11 => some 0
  | 12 => some 0
  | 13 => some 0
  | 14 => some 0
  | 15 => some 0
  | _ => none

/-- The packet waits for a decision or for its consumption. -/
def State.park (s : State) (frm : Option Nat) (p : Packet) : State :=
  if s.fab.waiting.any fun e => e.2 == p then s
  else { s with fab := { s.fab with waiting := s.fab.waiting ++ [(frm, p)] } }

/-- The age of a packet has reached 2,000 (R390). -/
def aged (p : Packet) (residence : Nat) : Bool := decide (2000 ≤ p.age.toNat + residence)

/-- Discard a packet for its age, and count it (R390). One that this module has originated is sent again as one that was lost on its way,
even if it has never left (R411, R419). -/
def State.ageOut (s : State) (frm : Option Nat) (p : Packet) : State :=
  let s1 := (s.unpark p).bump 40 1
  if frm.isNone then
    { s1 with fab := { s1.fab with rtx := s1.fab.rtx.map fun r => if r.isFor p then { r with sent := true } else r } }
  else s1

/-- One decision of a Q-die about a packet (R403). Its age counts the link on which it would leave (R390). A MARKER for this module in
a wrong class is discarded when it is consumed (R514). -/
def State.decide_ (s : State) (frm : Option Nat) (p : Packet) (residence : Nat) : State :=
  let die := match frm with
    | some k => k / 6
    | none => match s.fab.rtx.find? fun r => r.isFor p with
      | some r => s.homeQ r.eng
      | none => 2
  let fromSwitch := match frm with
    | some k => decide (k < 12)
    | none => false
  if aged p (residence + if p.dstPhys = s.fab.phys then 0 else 1) then s.ageOut frm p
  else if typeClass p.type.toNat ≠ some p.cls.toNat ∧ (p.type ≠ 12 ∨ 5 ≤ p.cls.toNat ∨ p.dstPhys ≠ s.fab.phys) then (s.unpark p).bump 41 1
  else if p.dstPhys = s.fab.phys then s.park frm p
  else if fromSwitch then (s.unpark p).bump 41 1
  else if frm = none ∧ !(p.srcPhys = s.fab.phys ∧ p.srcLog = s.fab.logical) then (s.unpark p).collarClamp
  else match s.choose die frm.isNone p with
    | some (k, esc) =>
      let s1 := (s.unpark p).sendOn die k esc frm.isNone p residence
      if frm.isNone then s1.spendCtl p else s1.transit
    | none => if frm.isNone then s.park frm p else s.transit.park frm p

/-- PACKET_ROUTE (R390, R403, R416, R418): a packet that the module originates, or one that a port has received. -/
def execPacketRoute (frm : Option Nat) (p : Packet) (residence : Nat) (s : State) : Host.Outcome State Fault Refusal :=
  whenFormed (frm.all (fun n => decide (n < 18))) <|
  whenLive s <|
    match frm with
    | none => whenDue (s.fab.outbox.contains p && s.mayLeave p) <|
        .next (({ s with fab := { s.fab with outbox := s.fab.outbox.erase p } }).decide_ none p residence)
    | some k =>
      if s.fab.waiting.contains (some k, p) then .next (s.decide_ (some k) p residence)
      else whenDue (s.port k).up <|
        let s1 := s.arrive k (chanOf p) p
        .next (if s1.fab.waiting.contains (some k, p) then s1.decide_ (some k) p residence else s1)

/-- DECIDE_AGAIN (R403): the packet at a place of the waiting list. -/
def execDecideAgain (i residence : Nat) (s : State) : Host.Outcome State Fault Refusal :=
  whenLive s <| withItem s.fab.waiting[i]? fun e =>
    whenDue (e.2.dstPhys != s.fab.phys && (e.1.isSome || s.mayLeave e.2)) <| .next (s.decide_ e.1 e.2 residence)

/-- AGE_DISCARD (R390): a waiting packet has reached its age. -/
def execAgeDiscard (i : Nat) (s : State) : Host.Outcome State Fault Refusal :=
  whenLive s <| withItem s.fab.waiting[i]? fun e => .next (s.ageOut e.1 e.2)

/-- RETRANSMIT_TIMEOUT (R411, R412): a packet sent and unanswered for 2.5 ms is sent again, with its age at 0. -/
def execRetransmitTimeout (cls : BitVec 3) (dstLog : BitVec 12) (seq : BitVec 16) (s : State) :
    Host.Outcome State Fault Refusal :=
  whenLive s <|
    withItem (s.fab.rtx.find? fun r => r.pkt.cls == cls && r.pkt.dstLog == dstLog && r.pkt.seq == seq) fun r =>
      whenDue (r.sent && !s.fab.outbox.contains r.pkt && !s.fab.waiting.contains (none, r.pkt)) <|
        let s1 := s.bump 43 1
        .next { s1 with fab := { s1.fab with
          outbox := s1.fab.outbox ++ [r.pkt],
          reads := s1.fab.reads.map fun t => if r.pkt.type = 2 ∧ t.etag = r.pkt.etag then { t with again := some s.now } else t } }

end Sys2Proof.Machine
end

