-- ==== Sys2Proof/Machine/Receive.lean ====
section
/-!
DEFINITION. The consumption of packets from other modules: streams, and WRITE, READ, RDATA, SIGADD, SIGSET and MGMT (R184,
R303, R387-R392, R407-R413, R549, R555).
-/

namespace Sys2Proof.Machine

/-! ### Streams (R407, R408, R547) -/

/-- Shift a window past the numbers that have been taken. -/
def RxStream.shift : Nat → RxStream → RxStream
  | 0, r => r
  | n + 1, r => if r.win.getLsbD 0 then RxStream.shift n { base := r.base + 1, win := r.win >>> 1 } else r

/-- Take the number at a distance from the base. -/
def RxStream.take (r : RxStream) (d : Nat) : RxStream := RxStream.shift 257 { r with win := r.win ||| (1#256 <<< d) }

/-- The destination's state of a packet's stream. -/
def State.rxOf (s : State) (p : Packet) : RxStream :=
  Tab.get (fun _ => RxStream.reset) s.fab.rx (streamKey p.srcLog.toNat p.cls.toNat)

/-- Replace it. -/
def State.setRx (s : State) (p : Packet) (r : RxStream) : State :=
  { s with fab := { s.fab with
      rx := Tab.set (fun _ => RxStream.reset) s.fab.rx (streamKey p.srcLog.toNat p.cls.toNat) r } }

/-- After a whole-module reset the module holds no state of a stream until a placement is accepted (R547). -/
def State.unknownStream (s : State) (p : Packet) : Bool := s.fab.noStreams && s.rxOf p == RxStream.reset

/-! ### One packet (R388, R389, R408, R413) -/

/-- How the performance of a packet ends: acknowledged now, refused with a reason, or acknowledged by what has been
started. -/
inductive Verdict where
  | done
  | refused (reason : Nat)
  | held
  deriving DecidableEq, Repr

/-- Answer a packet as its performance says. -/
def State.answer (s : State) (p : Packet) (v : Verdict) : State :=
  match v with
  | .done => s.ackPkt p
  | .refused r => s.refusePkt p r
  | .held => s

/-- A sequenced packet at its destination (R408): performed once and answered; `dup` answers a duplicate. -/
def State.sequence (s : State) (p : Packet) (perform : State → State × Verdict) (dup : State → State) : State :=
  if p.dstLog ≠ s.fab.logical ∨ s.unknownStream p then s.refusePkt p 4
  else
    let r := s.rxOf p
    let d := (p.seq - r.base).toNat
    if d < 256 ∧ !r.win.getLsbD d then
      let (t, v) := perform (s.setRx p (r.take d))
      t.answer p v
    else if d < 256 ∨ 32768 ≤ d then dup s
    else s.bump 41 1

/-- A packet claims to come from this module and is none of those it has sent to itself (R416). -/
def State.claimsSelf (s : State) (p : Packet) : Bool := p.srcPhys == s.fab.phys && !s.fab.waiting.contains (none, p)

/-- The checks that precede the stream (R388-R390, R413, R416): the packet has left its buffer. One of a sequenced class without a
sequence number is malformed. -/
def State.checked (s : State) (cls : Nat) (p : Packet) (k : State → State) : State :=
  let s1 := (s.unpark p).bumpPart s.owner 15 (pktSize p)
  if aged p 0 then s1.bump 40 1
  else if s.claimsSelf p then s1.collarClamp
  else if p.pcrc ≠ pktCrc p then s1.bump 39 1
  else if p.cls.toNat ≠ cls ∨ (cls = 2 ∧ p.seqd) then s1.bump 41 1
  else if cls ≠ 2 ∧ !p.seqd then s1.refusePkt p 3
  else k s1

/-- A packet of a type is consumed (R387, R388, R416, R487): it is for this module, whose fabric-owner partition it wakes. -/
def consume (type : Nat) (p : Packet) (s : State) (k : State → Host.Outcome State Fault Refusal) :
    Host.Outcome State Fault Refusal :=
  whenLive s <| whenDue (p.type.toNat == type && p.dstPhys == s.fab.phys && s.fab.placed) <|
    if s.claimsSelf p then .next (s.checked 0 p id)
    else if s.awake s.owner then k s else .next ((s.park none p).wake s.owner)

/-- A packet is performed when nothing holds its effect back; until then it waits, and its row is given again. -/
def whenPerformed (c : Bool) (p : Packet) (s : State) (k : Host.Outcome State Fault Refusal) : Host.Outcome State Fault Refusal :=
  if c then k else .next (s.park none p)

/-- The payload of a data packet fits its byte count (R388). -/
def dataOk (p : Packet) : Bool :=
  let n := p.arg1.toNat
  decide (1 ≤ n) && decide (n ≤ 4096) && p.plen.toNat == (n + 63) / 64 && p.data.length == 64 * p.plen.toNat

/-- A control packet of 32 bytes. -/
def shortOk (p : Packet) : Bool := p.plen == 0 && p.data.isEmpty

/-- A control packet of 64 bytes. -/
def longOk (p : Packet) : Bool := p.plen == 0 && p.data.length == 32

/-- The fabric-owner partition is under reset (R549). -/
def State.ownerReset (s : State) : Bool := s.inReset s.owner

/-- An offset lies in the memory of a cell under a cell or comb reset, where requests are held (R549). -/
def State.cellInReset (s : State) (o : Nat) : Bool :=
  s.resetHolds o 1

/-- The check of an access from another module: none where it may be performed, or the reason of its refusal (R190, R413,
R549). -/
def State.remoteBad (s : State) (wr : Bool) (o n : Nat) : Option Nat :=
  if s.ownerReset then some 1
  else match s.localRegion s.owner false o with
    | none => some 1
    | some r => if wr && s.inTrace o n then some 1 else if r.2 ≤ o ∨ r.2 < o + n then some 2 else none

/-! ### Data (R388, R408, R413) -/

/-- A WRITE is performed. -/
def State.performWrite (s : State) (p : Packet) : State × Verdict :=
  let n := p.arg1.toNat
  let o := p.arg0.toNat
  if !dataOk p then (s, .refused 3)
  else match s.remoteBad true o n with
    | some r => (s, .refused r)
    | none => (s.writeLocal o (p.data.take n), .done)

/-- WRITE (R388, R408, R413). A write to lines that a host may hold waits for their back-invalidation (R312), one of a cell under reset
for its end (R549), and one of frozen granules for a staging buffer (R276). -/
def execWrite (p : Packet) (s : State) : Host.Outcome State Fault Refusal :=
  consume 1 p s fun s =>
    let o := p.arg0.toNat
    let n := p.arg1.toNat
    whenPerformed (!s.waitsBi o n && !s.cellInReset o && s.stageOk o n) p s <|
      if s.heldLines o n ≠ [] ∧ (s.remoteBad true o n).isNone ∧ dataOk p then
        .next ((s.park none p).invalidate (s.heldLines o n))
      else .next (s.checked 1 p fun s => s.sequence p (fun s => s.performWrite p) fun s => s.ackPkt p)

/-- A READ is performed: its answer carries the bytes (R388, R412). -/
def State.performRead (s : State) (p : Packet) : State × Verdict :=
  let n := p.arg1.toNat
  let o := p.arg0.toNat
  if !(shortOk p && decide (1 ≤ n) && decide (n ≤ 4096)) then (s, .refused 3)
  else match s.remoteBad false o n with
    | some r => (s, .refused r)
    | none => (s.respond p 3 0 n true (padTo64 (s.memBytes o n)), .held)

/-- READ (R388, R408). A read of lines that a host may hold waits for their back-invalidation (R312), one of a cell under
reset for its end (R549), and one of a line in error for its repair (R198). A duplicate is answered again
with the data (log 75). -/
def execRead (p : Packet) (s : State) : Host.Outcome State Fault Refusal :=
  consume 2 p s fun s =>
    let again := fun (t : State) =>
      let (u, v) := t.performRead p
      u.answer p v
    let o := p.arg0.toNat
    let n := p.arg1.toNat
    whenPerformed (!s.waitsBi o n && !s.lostIn o n && !s.cellInReset o) p s <|
      if s.heldLines o n ≠ [] ∧ (s.remoteBad false o n).isNone ∧ shortOk p then
        .next ((s.park none p).invalidate (s.heldLines o n))
      else .next (s.checked 1 p fun s => s.sequence p (fun s => s.performRead p) again)

/-- Take a READ's entries out of the store and the read tracking; an entry whose READ was sent more than once is not
reserved at once (R412). -/
def State.endRead (s : State) (t : ReadTrack) : State :=
  { s with fab := { s.fab with
      reads := s.fab.reads.erase t,
      rtx := s.fab.rtx.filter fun r => !(r.pkt.type == 2 && r.pkt.etag == t.etag),
      quiet := (s.fab.quiet.filter fun w => decide ((s.now - w).toNat < 200000)) ++ t.again.toList } }

/-- RDATA (R388, R412, R555, R638). -/
def execRdata (p : Packet) (s : State) : Host.Outcome State Fault Refusal :=
  consume 3 p s fun s =>
    .next (s.checked 2 p fun s =>
      match s.fab.reads.find? fun t => t.etag == p.etag && t.phys == p.srcPhys with
      | none => s.bump 41 1
      | some t =>
        if !(dataOk p && p.arg1.toNat == t.len) then s.bump 41 1
        else
          let s1 := s.endRead t
          if t.eng < 612 ∧ p.gen ≠ s1.gen t.eng then s1.bump 42 1
          else s1.comeTo t.owner t.eng s1.owner t.dest.toNat (p.data.take t.len))

/-! ### Signals (R303) -/

/-- A remote signal is performed: only on an object of the fabric-owner partition. -/
def State.performSig (s : State) (set : Bool) (p : Packet) : State × Verdict :=
  let n := p.arg1.toNat
  if !(shortOk p && decide (n < 65536)) then (s, .refused 3)
  else if s.ownerReset ∨ s.partOfSync n ≠ s.owner then (s, .refused 1)
  else
    (s.applySig { eng := .remote, part := s.owner, obj := n, set := set, v := p.arg0, cmd := none, ord := s.farTag,
                  ack := some p }, .held)

/-- A signal that a packet has brought waits to be performed: the packet is acknowledged then, once (R298). -/
def State.signalWaits (s : State) (p : Packet) : Bool :=
  s.link.bis.any fun b => match b.what with
    | .sig g => g.ack.any fun q => q.srcLog == p.srcLog && q.cls == p.cls && q.gen == p.gen && q.seq == p.seq
    | _ => false

/-- A remote signal arrives. Where its update needs a record in a full effect log, it waits (R530). -/
def remoteSig (set : Bool) (type : Nat) (p : Packet) (s : State) : Host.Outcome State Fault Refusal :=
  consume type p s fun s =>
    whenPerformed (!s.effectFull s.owner) p s <|
      .next (s.checked 0 p fun s => s.sequence p (fun s => s.performSig set p) fun s =>
        if s.signalWaits p then s else s.ackPkt p)

/-- SIGADD (R303). -/
def execSigaddPkt (p : Packet) (s : State) : Host.Outcome State Fault Refusal := remoteSig false 6 p s

/-- SIGSET (R303). -/
def execSigsetPkt (p : Packet) (s : State) : Host.Outcome State Fault Refusal := remoteSig true 7 p s

/-- MGMT (R388): a Balden message; the spec gives it no effect but its acknowledgement. -/
def execMgmt (p : Packet) (s : State) : Host.Outcome State Fault Refusal :=
  consume 15 p s fun s =>
    .next (s.checked 0 p fun s =>
      s.sequence p (fun s => (s, if shortOk p then .done else .refused 3)) fun s => s.ackPkt p)

end Sys2Proof.Machine
end

