-- ==== Sys2Proof/Machine/CollMath.lean ====
section
/-!
DEFINITION. What a collective computes: wire forms, combination, read-out, the agreement code, and how the result is divided
(R420-R423, R427, R435-R437, R440).
-/

namespace Sys2Proof.Machine

/-! ### Kinds of collective -/

/-- The collective moves no data: it synchronises the team (R430). -/
def csyncs (d : Nat) : Bool := cop d == 5 || ccount d == 0

/-- The stochastic draw of result element `e` (R422). -/
def cdraw (d e : Nat) : Nat :=
  stochDraw (BitVec.ofNat 64 (dfield d 0x28 0 64)) (BitVec.ofNat 64 (dfield d 0x30 0 64 + e))

/-- The elements of `w` bytes that a list of bytes holds. -/
def elemsIn (w : Nat) (bs : List Byte) : List Nat :=
  (List.range (bs.length / w)).map fun j => leNat ((bs.drop (j * w)).take w)

/-- An exact sum read out under the descriptor's rounding (R173, R422). -/
def csum (d e : Nat) (a : Accu) : Nat := (a.readOut (fpOf (ctype d)) (rmodeOf (crm d)) (cdraw d e)).1

/-- An image of kind 1 with nan set and every other bit zero (R421). -/
def nanImage : Nat := 2 ^ 576 + 2 ^ 578

/-- The images of an element cannot be merged (R421): one is malformed, or their kinds mix. -/
def imagesBad (xs : List Nat) : Bool :=
  xs.any imageMalformed || (xs.any (fun x => bits x 576 2 == 1) && xs.any fun x => bits x 576 2 == 2)

/-- Result element `e` from the elements of every rank (R420-R422). -/
def combine (d e : Nat) (xs : List Nat) : Nat :=
  let t := ctype d
  if t = 16 then
    if imagesBad xs then nanImage else accuImage ((xs.map accuOpen).foldl Accu.merge Accu.empty)
  else if crop d = 0 then
    if isInt t then wrapSum (codeWidth t) xs else csum d e (exactSum t Accu.empty xs).1
  else (extremum t (crop d == 2) xs).1

/-! ### Wire forms of the waggle path (R436) -/

/-- The bytes of the compact form of a `BINNED64` accumulator. -/
def compactOf (a : Accu) : List Byte :=
  leBytes 7 (wrap 56 a.b0) ++ leBytes 7 (wrap 56 a.b1) ++ leBytes 7 (wrap 56 a.b2) ++ leBytes 1 (wrap 8 a.bwin) ++
    leBytes 1 (bitIf a.nan 0 + bitIf a.pinf 1 + bitIf a.ninf 2 + bitIf a.ovf 3) ++ leBytes 1 a.kind

/-- The accumulator that a compact form spells. -/
def compactOpen (bs : List Byte) : Accu :=
  let x := leNat bs
  { kind := bits x 184 8, nan := bit x 176, pinf := bit x 177, ninf := bit x 178, ovf := bit x 179,
    bwin := toSigned 8 (bits x 168 8), x := 0, b0 := toSigned 56 (bits x 0 56), b1 := toSigned 56 (bits x 56 56),
    b2 := toSigned 56 (bits x 112 56) }

/-- The wire bytes of one element of an allreduce. -/
def wireWidth (d : Nat) : Nat :=
  if crop d = 0 ∧ ¬isInt (ctype d) then (if ctype d = 9 then 24 else 80) else codeWidth (ctype d) / 8

/-- The wire bytes of one member's data. -/
def wireBytes (d : Nat) : Nat :=
  match cop d with
  | 1 => ccount d * wireWidth d
  | 4 => cblock d
  | _ => 0

/-- The number of WAGGLE packets that a state takes. -/
def wirePieces (d : Nat) : Nat := max 1 ((wireBytes d + 31) / 32)

/-- The waggle path carries a collective of a team of `n` (R435). -/
def takesWaggle (d n : Nat) : Bool :=
  !bit d 18 && decide (wireBytes d ≤ 256) && ctype d != 16 && (cop d == 1 || cop d == 4 || cop d == 5) &&
    n % 8 == 0 && (decide (n ≤ 64) || n % 64 == 0)

/-- The wire form of one element of an allreduce. -/
def wireStart (d x : Nat) : List Byte :=
  let t := ctype d
  if crop d = 0 ∧ ¬isInt t then
    let a := (exactSum t Accu.empty [x]).1
    if t = 9 then compactOf a else leBytes 80 (accuImage a)
  else if isInt t then leBytes (wireWidth d) x
  else leBytes (wireWidth d) (passFp (fpOf t) x).1

/-- Combine the wire forms of one element. -/
def wireJoin (d : Nat) (a b : List Byte) : List Byte :=
  let t := ctype d
  if crop d = 0 ∧ ¬isInt t then
    if t = 9 then compactOf ((compactOpen a).merge (compactOpen b))
    else leBytes 80 (accuImage ((accuOpen (leNat a)).merge (accuOpen (leNat b))))
  else leBytes (wireWidth d) (combine d 0 [leNat a, leNat b])

/-- Read one element of a wire form out. -/
def wireEnd (d e : Nat) (a : List Byte) : Nat :=
  let t := ctype d
  if crop d = 0 ∧ ¬isInt t then csum d e (if t = 9 then compactOpen a else accuOpen (leNat a)) else leNat a

/-- The wire form that a member starts with: that of its send buffer, and for a broadcast the root's bytes or an empty
state, which travels as zeros (R436, log 39). -/
def wireOf (d : Nat) (root : Bool) (bs : List Byte) : List Byte :=
  match cop d with
  | 1 => (elemsIn (codeWidth (ctype d) / 8) bs).flatMap (wireStart d)
  | 4 => if root then bs else List.replicate (cblock d) 0
  | _ => []

/-- Combine two states of a collective (R437). -/
def wireMix (d : Nat) (a b : List Byte) : List Byte :=
  match cop d with
  | 1 => (List.range (ccount d)).flatMap fun j =>
      wireJoin d ((a.drop (j * wireWidth d)).take (wireWidth d)) ((b.drop (j * wireWidth d)).take (wireWidth d))
  | 4 => List.zipWith (fun x y => x ||| y) a b
  | _ => []

/-- The result bytes of a state. -/
def wireResult (d : Nat) (a : List Byte) : List Byte :=
  match cop d with
  | 1 => (List.range (ccount d)).flatMap fun e =>
      leBytes (codeWidth (ctype d) / 8) (wireEnd d e ((a.drop (e * wireWidth d)).take (wireWidth d)))
  | 4 => a
  | _ => []

/-! ### Stages (R437) -/

/-- The ranks whose state is combined in a stage: 0-2 the rounds of stage 1, 3 stage 2, 4 stage 3. -/
def stagePartners (n me stage : Nat) : List Nat :=
  match stage with
  | 3 => ((List.range (if n ≤ 64 then n / 8 else 8)).map fun o => me - me % 64 + 8 * o + me % 8).filter fun r => r != me
  | 4 => if n ≤ 64 then [] else ((List.range (n / 64)).map fun b => 64 * b + me % 64).filter fun r => r != me
  | _ => [me - me % 8 + neighbour stage (me % 8)]

/-! ### The agreement code (R427, log 39) -/

/-- The agreement code of a collective on a team. -/
def agreement (d : Nat) (t : TeamRec) : Nat :=
  crc32c (leBytes 1 (cop d) ++ leBytes 1 (crop d) ++ leBytes 1 (ctype d) ++ leBytes 1 (crm d) ++
    leBytes 1 (if takesWaggle d t.size then 0 else 1) ++ leBytes 8 (ccount d) ++ leBytes 8 (dfield d 0x28 0 64) ++
    leBytes 8 (dfield d 0x30 0 64) ++ leBytes 2 t.first ++ leBytes 2 t.stride ++ leBytes 2 t.size)

/-! ### The division of the chunked path (R440-R442) -/

/-- What member `me` sends to rank `r` in a phase: address and bytes (R440). -/
def sendSpan (d n me phase r : Nat) : Nat × Nat :=
  if csyncs d then (0, 0)
  else if phase = 0 then
    match cop d with
    | 1 => (csend d + segStart d n r, segBytes d n r)
    | 2 => (csend d + r * cblock d, cblock d)
    | 3 => (csend d, cblock d)
    | 4 => if me = croot d then (csend d, cblock d) else (0, 0)
    | _ => (csend d + r * cblock d, cblock d)
  else if cop d = 1 then (crecv d + segStart d n me, segBytes d n me)
  else (0, 0)

/-- Where what rank `r` sends to member `me` belongs: address and bytes. The contributions to a reduction in phase 0 are
folded for that place. -/
def recvSpan (d n me phase r : Nat) : Nat × Nat :=
  if csyncs d then (0, 0)
  else if phase = 0 then
    match cop d with
    | 1 => (crecv d + segStart d n me, segBytes d n me)
    | 2 => (crecv d, cblock d)
    | 4 => if r = croot d then (crecv d, cblock d) else (0, 0)
    | _ => (crecv d + r * cblock d, cblock d)
  else if cop d = 1 then (crecv d + segStart d n r, segBytes d n r)
  else (0, 0)

/-- The number of the first result element of member `me`'s own segment or block (R422). -/
def firstElem (d n me : Nat) : Nat :=
  if cop d = 1 then segStart d n me / (codeWidth (ctype d) / 8) else me * ccount d

end Sys2Proof.Machine
end

