-- ==== Sys2Proof/Machine/CollRun.lean ====
section
/-!
DEFINITION. How the collective engine carries collectives on: the waggle path and the chunked path, aborts, and when a result
is ready (R421-R443).

A collective advances whenever something arrives for it, unless the engines of the fabric-owner partition are stopped: its
clean point is the end of a chunk or of a WAGGLE packet (R513), and nothing is originated while they are (R512).
-/

namespace Sys2Proof.Machine

/-! ### Collectives and members -/

/-- The collective with an identifier. -/
def State.coll_ (s : State) (id : Nat) : Option Coll := s.coll.colls.find? fun c => c.id == id

/-- Replace the collective with the identifier of `c`. -/
def State.setColl (s : State) (c : Coll) : State :=
  { s with coll := { s.coll with colls := s.coll.colls.map fun e => if e.id == c.id then c else e } }

/-- The descriptor as a number. -/
def Coll.d (c : Coll) : Nat := c.raw.toNat

/-- The team of a collective. -/
def State.teamOf (s : State) (c : Coll) : TeamRec := s.team (cteam c.d)

/-- This module's rank in it. -/
def State.rankIn (s : State) (c : Coll) : Nat := (s.rank (cteam c.d)).getD 0

/-- The ranks of the other members. -/
def State.collPeers (s : State) (c : Coll) : List Nat :=
  (List.range (s.teamOf c).size).filter fun r => r != s.rankIn c

/-- Some entry of the waggle table, or credit, is for this collective. -/
def Coll.owns (c : Coll) (team cseq : Nat) : Bool := team == cteam c.d && cseq == cseqOf c.d

/-- The collective in progress that a packet names. -/
def State.running (s : State) (team cseq : Nat) : Option Coll :=
  s.coll.colls.find? fun c => c.started && !c.ready && c.owns team cseq

/-- A packet's collective has not been started here yet (R426, R439). -/
def State.future (s : State) (team cseq : Nat) : Bool :=
  decide ((cseq + 2 ^ 32 - (s.teamSeq team).next) % 2 ^ 32 < 2 ^ 31)

/-- The first 36 bits of arg0 in every packet of a collective (R438, R442). -/
def collHead (d : Nat) : Nat := cseqOf d + cteam d * 2 ^ 32

/-- Originate a packet of the collective engine. -/
def State.collSend (s : State) (c : Coll) (type cls r arg0 arg1 : Nat) (payload : Bool) (data : List Byte) : State :=
  s.originate (.coll c.id) Engine.collective.key
    (s.packet type cls (s.gen Engine.collective.key).toNat ((s.teamOf c).member r) arg0 arg1 0 payload data)

/-! ### Ends other than a result (R421, R427) -/

/-- The collective has the status `FORMAT`, and every member is told. -/
def State.abortTeam (s : State) (c : Coll) : State :=
  let t := s.teamOf c
  foldS (fun u r => u.swarmSend (t.member r) 7 (cteam c.d) (leBytes 32 (cseqOf c.d)))
    (s.setColl { c with status := 2 }) (s.collPeers c)

/-- A member has received an agreement code different from its own (R427). -/
def State.disagree (s : State) (c : Coll) : State :=
  (s.abortTeam { c with ready := true }).escalate c.part 32 (cseqOf c.d) (cteam c.d)

/-! ### The waggle path (R437-R439) -/

/-- The entry of the waggle table for a pair. -/
def State.wentry (s : State) (team cseq : Nat) : WEntry :=
  (s.coll.waggle.find? fun e => e.team == team && e.cseq == cseq).getD
    { team := team, cseq := cseq, mask := [], pieces := [], codes := [] }

/-- Replace it. -/
def State.setWentry (s : State) (w : WEntry) : State :=
  { s with coll := { s.coll with
      waggle := s.coll.waggle.filter (fun e => !(e.team == w.team && e.cseq == w.cseq)) ++ [w] } }

/-- Send the state to the partners of the stage that begins. -/
def State.sendStage (s : State) (c : Coll) : State :=
  let me := s.rankIn c
  foldS (fun u (e : Nat × Nat) =>
    let data := ((c.state.drop (32 * e.2)).take 32)
    let arg0 := collHead c.d + c.stage * 2 ^ 36 + e.2 * 2 ^ 39 + me * 2 ^ 42
    u.collSend c 13 0 e.1 arg0 (agreement c.d (u.teamOf c)) false (data ++ List.replicate (32 - data.length) 0)) s
    ((stagePartners (s.teamOf c).size me c.stage).flatMap fun r => (List.range (wirePieces c.d)).map fun i => (r, i))

/-- The state that rank `r` has sent in a stage, once all its pieces are here. -/
def WEntry.stateOf (w : WEntry) (d stage r : Nat) : Option (List Byte) :=
  let ps := (List.range (wirePieces d)).map fun i =>
    (w.pieces.find? fun e => e.1 == stage && e.2.1 == r && e.2.2.1 == i).map fun e => e.2.2.2
  if ps.all Option.isSome then some ((ps.flatMap fun o => o.getD []).take (wireBytes d)) else none

/-- Write the result into the receive buffer (R432, R433). -/
def State.collWrite (s : State) (c : Coll) (a : Nat) (bs : List Byte) : State :=
  if bs.isEmpty then s else s.engineWrite (.coll c.id) Engine.collective.key a bs

/-- Fold the stages whose states are all here, and begin the next ones; after the last the result is read out. -/
def State.waggleOn : Nat → State → Coll → State
  | 0, s, c => s.setColl c
  | k + 1, s, c =>
    if 5 ≤ c.stage then (s.collWrite c (crecv c.d) (wireResult c.d c.state)).setColl { c with ready := true }
    else
      let w := s.wentry (cteam c.d) (cseqOf c.d)
      let got := (stagePartners (s.teamOf c).size (s.rankIn c) c.stage).map fun r => w.stateOf c.d c.stage r
      if got.all Option.isSome then
        let x := got.foldl (fun a o => wireMix c.d a (o.getD [])) c.state
        let c1 : Coll := { c with state := x, stage := c.stage + 1 }
        State.waggleOn k (if c1.stage < 5 then s.sendStage c1 else s) c1
      else s.setColl c

/-! ### The chunked path (R440-R443) -/

/-- The bytes of chunk `i` of a span. -/
def chunkLen (len i : Nat) : Nat := min 4096 (len - 4096 * i)

/-- The chunks granted to rank `r` in a phase so far. -/
def Coll.granted (c : Coll) (phase r : Nat) : Nat :=
  ((c.grants.find? fun g => g.1 == phase && g.2.1 == r).map fun g => g.2.2).getD 0

/-- The bytes of accumulator store that a group of chunks takes (R441, log 40): an 80-byte accumulator for an element of a sum that is
not of integers, and the width of the element for another. -/
def accBytes (d : Nat) : Nat :=
  let w := codeWidth (ctype d) / 8
  4096 * chunkGroup d / w * if crop d = 0 ∧ ¬isInt (ctype d) then 80 else w

/-- The groups of chunks of the own segment of which some chunk has been granted are those below this number. -/
def Coll.groupsOpen (c : Coll) : Nat :=
  (((c.grants.filter fun g => g.1 == 0).map fun g => g.2.2).foldl max 0 + chunkGroup c.d - 1) / chunkGroup c.d

/-- The bytes of the accumulator store of Q-die unit `u` in use: group `g` of a reduction is folded in unit `g` mod 3 (log 40). -/
def State.storeUsed (s : State) (u : Nat) : Nat :=
  ((s.coll.colls.filter fun c => c.started && !c.ready && creduces c.d && !csyncs c.d).map fun c =>
    ((List.range c.groupsOpen).filter fun g => g % 3 == u && !c.outs.contains g).length * accBytes c.d).sum

/-- The accumulator store can take chunk `i` of the own segment: its group has its accumulators, or the unit has 1 MiB for it and
for the groups before it (R441). -/
def State.storeRoom (s : State) (c : Coll) (i : Nat) : Bool :=
  let g := i / chunkGroup c.d
  let new := ((List.range (g + 1)).filter fun k => decide (c.groupsOpen ≤ k) && k % 3 == g % 3).length
  decide (g < c.groupsOpen) || decide (s.storeUsed (g % 3) + new * accBytes c.d ≤ 2 ^ 20)

/-- Grant rank `r` its next chunks in a phase, once those granted before have arrived: at most eight are outstanding, and the
accumulator store can take them (R441). -/
def State.grantNext (s : State) (id phase r : Nat) : State :=
  match s.coll_ id with
  | none => s
  | some c =>
    let n := (s.teamOf c).size
    let total := if csyncs c.d then (if phase = 0 then 1 else 0)
      else chunksOf (recvSpan c.d n (s.rankIn c) phase r).2
    let g := c.granted phase r
    let here := if csyncs c.d then 0 else (c.mask.filter fun m => m.1 == phase && m.2.1 == r).length
    if g < total && g == here then
      let fold := creduces c.d && !csyncs c.d && phase == 0
      let k := ((List.range (min 8 (total - g))).takeWhile fun j => !fold || s.storeRoom c (g + j)).length
      let c1 := { c with grants := c.grants.filter (fun x => !(x.1 == phase && x.2.1 == r)) ++ [(phase, r, g + k)] }
      if k = 0 then s
      else (s.setColl c1).collSend c1 10 0 r (collHead c.d + phase * 2 ^ 36 + g * 2 ^ 37 + k * 2 ^ 56)
        (agreement c.d (s.teamOf c)) false []
    else s

/-- The contributions of every rank to a group of chunks: each rank's bytes, or none while some are missing. -/
def Coll.groupOf (c : Coll) (n own g : Nat) : Option (List (List Byte)) :=
  let k := chunkGroup c.d
  let ids := (List.range k).filterMap fun i => if k * g + i < chunksOf own then some (k * g + i) else none
  let rows := (List.range n).map fun r => ids.map fun i =>
    (c.got.find? fun e => e.1 == 0 && e.2.1 == r && e.2.2.1 == i).map fun e => e.2.2.2
  if rows.all fun l => l.all Option.isSome then some (rows.map fun l => l.flatMap fun o => o.getD []) else none

/-- Read out a group of chunks of the own segment once every contribution has arrived (R421, R422, R440): what is read out is what
every member gets (R433). With images that cannot be merged the collective has the status `FORMAT`, and goes on. -/
def State.readGroup (s : State) (id g : Nat) : State :=
  match s.coll_ id with
  | none => s
  | some c =>
    let n := (s.teamOf c).size
    let me := s.rankIn c
    let (a, own) := recvSpan c.d n me 0 me
    if c.ready || c.outs.contains g then s
    else match c.groupOf n own g with
      | none => s
      | some rows =>
        let w := codeWidth (ctype c.d) / 8
        let k := 4096 * chunkGroup c.d * g
        let cols := rows.map (elemsIn w)
        let m := (cols.headD []).length
        let xs := (List.range m).map fun j => cols.map fun l => l.getD j 0
        let out := (List.range m).flatMap fun j =>
          leBytes w (combine c.d (firstElem c.d n me + k / w + j) (xs.getD j []))
        let c1 := { c with
          outs := c.outs ++ [g], got := c.got.filter (fun e => e.2.2.1 / chunkGroup c.d != g),
          src := c.src ++ if cop c.d = 1 then (cuts 4096 (a + k) out.length).map fun e => (a + k + e.1, (out.drop e.1).take e.2) else [] }
        let s1 := (s.collWrite c (a + k) out).setColl c1
        if ctype c.d = 16 ∧ xs.any imagesBad ∧ c.status ≠ 2 then s1.abortTeam c1 else s1

/-- A chunk may be sent in a phase: the own result only once it has been read out. -/
def Coll.maySend (c : Coll) (phase i : Nat) : Bool := phase == 0 || c.outs.contains (i / chunkGroup c.d)

/-- The commands that a collective is part of: the `COLLECT` command, or the command of the cell that issued it. -/
def State.collCmds (s : State) (c : Coll) : List Nat :=
  match c.issuer with
  | .cmd i => [i]
  | .cell n _ => (s.cell n).cmd.toList

/-- A chunk of the send buffer is sent to a rank. -/
def State.putChunk (s : State) (c : Coll) (x : Nat × Nat × Nat) (bs : List Byte) : State :=
  (s.setColl { c with sent := c.sent ++ [x] }).collSend c 9 4 x.2.1
    (collHead c.d + x.1 * 2 ^ 36 + s.rankIn c * 2 ^ 37) (bs.length + x.2.2 * 2 ^ 13) true (padTo64 bs)

/-- Send a chunk from the send buffer, unless the engine is held (R410): it is read once, whoever gets it (R433). It waits for lines
that a host may hold (R312), and for data that await a repair or a substitution (R198, R216); data with an uncorrectable error are not
sent (R52). -/
def State.sendChunk (s : State) (c : Coll) (x : Nat × Nat × Nat) (a n : Nat) : State :=
  let bad := s.badWords a n
  if s.engineHeld Engine.collective.key then s
  else match c.src.find? fun e => e.1 == a with
  | some e => s.putChunk c x e.2
  | none =>
    if s.heldIn a n then s.invalidate (s.heldLines a n)
    else if !s.whole a n || s.awaitsRepair c.part bad then s
    else if !bad.isEmpty then s.loseWords c.part (s.collCmds c) bad
    else (s.bump 51 (s.correctable a n)).putChunk { c with src := c.src ++ [(a, s.memBytes a n)] } x (s.memBytes a n)

/-- Send the chunks for which credit is here (R414, R441). -/
def State.sendCredits (s : State) (id : Nat) : State :=
  foldS (fun u (k : Credit) => foldS (fun v i =>
      match v.coll_ id with
      | none => v
      | some c =>
        let (a, len) := sendSpan c.d (v.teamOf c).size (v.rankIn c) k.phase k.frm
        let x := (k.phase, k.frm, i)
        if !c.owns k.team k.cseq || c.sent.contains x || decide (chunksOf len ≤ i) || !c.maySend k.phase i then v
        else v.sendChunk c x (a + 4096 * i) (chunkLen len i)) u
      ((List.range k.n).map fun j => k.first + j)) s s.coll.credits

/-- Everything has arrived, been read out and been sent (R434). -/
def State.collDone (s : State) (c : Coll) : Bool :=
  let n := (s.teamOf c).size
  let me := s.rankIn c
  let rs := s.collPeers c
  if csyncs c.d then
    rs.all fun r => s.coll.credits.any fun k => c.owns k.team k.cseq && k.phase == 0 && k.frm == r
  else
    let count := fun (f : Nat → Nat → Nat × Nat) => (rs.map fun r => chunksOf (f 0 r).2 + chunksOf (f 1 r).2).sum
    c.mask.length == count (recvSpan c.d n me) && c.sent.length == count (sendSpan c.d n me) &&
      (!creduces c.d ||
        c.outs.length == (chunksOf (recvSpan c.d n me 0 me).2 + chunkGroup c.d - 1) / chunkGroup c.d)

/-- One round of a collective on the chunked path: grants, read-out, sending. -/
def State.chunkOn (s : State) (id : Nat) : State :=
  match s.coll_ id with
  | none => s
  | some c =>
    let own := (recvSpan c.d (s.teamOf c).size (s.rankIn c) 0 (s.rankIn c)).2
    let gs := if creduces c.d ∧ ¬csyncs c.d then (chunksOf own + chunkGroup c.d - 1) / chunkGroup c.d else 0
    let s1 := foldS (fun u r => (u.grantNext id 0 r).grantNext id 1 r) s (s.collPeers c)
    let s2 := foldS (fun u g => u.readGroup id g) s1 (List.range gs)
    let s3 := s2.sendCredits id
    match s3.coll_ id with
    | none => s3
    | some e => if !e.ready && s3.collDone e then s3.setColl { e with ready := true } else s3

/-! ### Driving -/

/-- The engines of the fabric-owner partition run: it is under no drain, freeze, quench or reset. -/
def State.collRuns (s : State) : Bool := !(s.epochOf s.owner).stopped && !s.ownerReset

/-- Carry a collective on as far as it goes. -/
def State.drive (s : State) (id : Nat) : State :=
  match s.coll_ id with
  | none => s
  | some c =>
    if !c.started || c.ready || !s.collRuns then s
    else if c.waggle then s.waggleOn 6 c
    else s.chunkOn id

/-- Carry every collective on: the engines resume (R512). -/
def State.driveAll (s : State) : State := foldS State.drive s (s.coll.colls.map Coll.id)

/-! ### Back-invalidations -/

/-- BACK_INVALIDATE_COMPLETE (R309, R312, R322, R528): no host holds the line any more; the data of one that held it modified are
written, and what waited for it is performed in order; collectives that waited to read it go on. An update waits for its effect record
too. -/
def execBackInvalidateComplete (a : LineAnswer) (s : State) : Host.Outcome State Fault Refusal :=
  let line := a.line
  let data := a.data
  whenFormed (data.all fun d => d.length == 64) <|
  whenLive s <|
    let mine := s.link.bis.filter fun b => b.line == line
    whenDue (!mine.isEmpty && (s.link.up || !s.hostHolds line) && (data.isNone || s.hostHolds line)) <|
    whenFree ((data.isNone || s.stageOk (64 * line) 64) && mine.all fun b => match b.what with
        | .sig g => !s.pendingBefore b.ord fun o => o == .log g.part
        | .write _ _ a d => s.stageOk a d.length
        | _ => true) s <|
      let s1 := { s with link := { s.link with
        bis := s.link.bis.filter (fun b => b.line != line), snoop := s.link.snoop.filter fun e => e.2 != line } }
      .next (foldS State.afterBi (s1.hostReturns line data) mine).driveAll

end Sys2Proof.Machine
end

