-- ==== Sys2Proof/Machine/Collect.lean ====
section
/-!
DEFINITION. The collectives (R420-R448): their start, the packets WAGGLE, GRANT and COLDATA, and their completion.
-/

namespace Sys2Proof.Machine

/-! ### Start (R426, R437, R440) -/

/-- An end with `FORMAT` of a descriptor that may not run: its number has been started already, or has been aborted (R426,
R427). -/
def Coll.refuse (c : Coll) (s : State) : Coll := { c with ready := true, status := 2, t0 := s.now, lastTime := s.now }

/-- The own contribution to the own segment, or the local copy of the own block (R440). -/
def State.ownPart (s : State) (c : Coll) : State :=
  let n := (s.teamOf c).size
  let me := s.rankIn c
  let (a, len) := sendSpan c.d n me 0 me
  if creduces c.d then
    s.setColl { c with got := (List.range (chunksOf len)).map fun i =>
      (0, me, i, s.memBytes (a + 4096 * i) (chunkLen len i)) }
  else
    let (b, m) := recvSpan c.d n me 0 me
    if m = 0 ∨ len = 0 ∨ a = b then s.setColl c
    else (s.setColl { c with src := (cuts 4096 a len).map fun e => (a + e.1, s.memBytes (a + e.1) e.2) }).collWrite c b (s.memBytes a len)

/-- The agreement codes that have arrived before the start. -/
def State.earlyCodes (s : State) (c : Coll) : List Nat :=
  (s.wentry (cteam c.d) (cseqOf c.d)).codes ++
    (s.coll.credits.filter fun k => c.owns k.team k.cseq).map Credit.code

/-- A collective starts: its send buffer is read, and its first packets leave. -/
def State.startColl (s : State) (c : Coll) : State :=
  let t := cteam c.d
  let x := s.teamSeq t
  let way := takesWaggle c.d (s.teamOf c).size
  let s1 := s.setTeamSeq t { next := (x.next + 1) % 2 ^ 32, aborted := x.aborted.filter fun n => n != cseqOf c.d }
  let c1 := { c with started := true, waggle := way, t0 := s.now, lastTime := s.now, lastRank := s.rankIn c }
  if x.aborted.contains (cseqOf c.d) then s1.setColl (c1.refuse s)
  else if (s.earlyCodes c).any fun k => k != agreement c.d (s.teamOf c) then (s1.setColl c1).disagree c1
  else if way then
    let c2 := { c1 with state := wireOf c.d (s.rankIn c == croot c.d) (s.memBytes (csend c.d)
      (sendBytes c.d (s.teamOf c).size (s.rankIn c))) }
    ((s1.setColl c2).sendStage c2).drive c.id
  else (s1.ownPart c1).drive c.id

/-- The start of a collective on buffers in memory that is gone waits for a substitution, or its command ends (R216); it waits for
data of its send buffer that await a repair or lines that a host may hold, and does not read data with an uncorrectable error (R52,
R198, R312); memory of a cell under reset holds it (R549). -/
def collReads (c : Coll) (s : State) (k : State → Host.Outcome State Fault Refusal) : Host.Outcome State Fault Refusal :=
  let n := (s.teamOf c).size
  let a := csend c.d
  let len := sendBytes c.d n (s.rankIn c)
  if s.goneIn a len || s.goneIn (crecv c.d) (recvBytes c.d n) then
    whenFree (!s.substitutes c.part) s <| .next (foldS State.abortCmd s (s.collCmds c))
  else if s.lostIn a len || s.resetHolds (crecv c.d) (recvBytes c.d n) then .next s
  else withRecall [(a, len)] s <|
    let bad := s.badWords a len
    if bad.isEmpty then k (s.bump 51 (if takesWaggle c.d n || creduces c.d then s.correctable a len else 0))
    else whenFree (!s.awaitsRepair c.part bad) s <| .next (s.loseWords c.part (s.collCmds c) bad)

/-- A collective of an operation starts (R426): its start object has been reached, its number is the next of its team, and
the collective 16 numbers before it is complete. One whose number has been started already ends with `FORMAT`. -/
def startOp (op id : Nat) (s : State) : Host.Outcome State Fault Refusal :=
  whenLive s <| withItem (s.coll_ id) fun c =>
    whenDue (cop c.d == op && !c.started && !c.ready) <|
    whenFree (s.serving c.part && s.collRuns && !s.waits.any fun w => w.who == Waiter.collective id) s <|
      let t := cteam c.d
      let n := cseqOf c.d
      if !s.future t n || s.swarm.turned then .next (s.setColl (c.refuse s))
      else whenFree (n == (s.teamSeq t).next &&
          !s.coll.colls.any fun e => e.started && e.owns t ((n + 2 ^ 32 - 16) % 2 ^ 32)) s <|
        collReads c s fun s => .next (s.startColl c)

/-- ALLREDUCE (R420-R423, R440). -/
def execAllreduce (id : Nat) (s : State) : Host.Outcome State Fault Refusal := startOp 1 id s

/-- REDUCE_SCATTER (R440). -/
def execReduceScatter (id : Nat) (s : State) : Host.Outcome State Fault Refusal := startOp 2 id s

/-- ALLGATHER (R440). -/
def execAllgather (id : Nat) (s : State) : Host.Outcome State Fault Refusal := startOp 3 id s

/-- BROADCAST (R440). -/
def execBroadcast (id : Nat) (s : State) : Host.Outcome State Fault Refusal := startOp 4 id s

/-- BARRIER (R437). -/
def execBarrier (id : Nat) (s : State) : Host.Outcome State Fault Refusal := startOp 5 id s

/-- ALL_TO_ALL (R440). -/
def execAllToAll (id : Nat) (s : State) : Host.Outcome State Fault Refusal := startOp 6 id s

/-! ### Packets (R438-R443) -/

/-- A packet of the collective engine is consumed (R388, R451, R549): discarded in a reset of the fabric-owner partition, and at a
module whose admission was refused. -/
def consumeColl (type cls : Nat) (p : Packet) (s : State) (ok : Bool) (k : State → State) :
    Host.Outcome State Fault Refusal :=
  consume type p s fun s =>
    .next (s.checked cls p fun s =>
      s.sequence p (fun s =>
        if !ok then (s, .refused 3)
        else if s.ownerReset || s.swarm.turned then (s.bump 41 1, .done)
        else (k s, .done)) fun s => s.ackPkt p)

/-- The cseq that a packet names. -/
def packetCseq (p : Packet) : Nat := bits p.arg0.toNat 0 32

/-- The team that a packet names. -/
def packetTeam (p : Packet) : Nat := bits p.arg0.toNat 32 4

/-- The collective has heard from a rank (R447). -/
def Coll.heard (c : Coll) (r : Nat) (t : Word) : Coll := { c with lastRank := r, lastTime := t }

/-- A repeated mismatch of a residue of the collective engine's accumulators (R182): the result is not delivered, so the receive
buffer holds free values (log 121); the collective ends with no signal, as one whose engine is lost (R551). -/
def State.loseColl (s : State) (c : Coll) : State :=
  let s1 := (s.spoilRecord 4).freeBytes (crecv c.d) (recvBytes c.d (s.teamOf c).size)
  let s2 := { s1 with coll := { s1.coll with
    colls := s1.coll.colls.filter (fun e => e.id != c.id),
    waggle := s1.coll.waggle.filter (fun w => !(c.started && c.owns w.team w.cseq)),
    credits := s1.coll.credits.filter (fun k => !(c.started && c.owns k.team k.cseq)) } }
  (s2.loseEngine c.part (2 + 256 * c.part) (s.collCmds c)).acceptPorts

/-- What a collective has summed and read out so far: its stage, and the groups of its segment. -/
def State.summed (s : State) (id : Nat) : Option (Nat × Nat) := (s.coll_ id).map fun c => (c.stage, c.outs.length)

/-- Carry a collective on under the residue checks of its accumulators (R61, R181, R182): where it sums, a mismatch that a repeat clears
is counted; a repeated one is found before anything is read out, and the result goes nowhere. -/
def State.driveChecked (s : State) (c : Coll) (u : Upset) : State :=
  let t := s.drive c.id
  if u == .none || !creduces c.d || csyncs c.d || t.summed c.id == s.summed c.id then t
  else
    let count := fun (x : State) => (x.bump 52 1).bumpPart c.part 19 1
    if u == .repeated then count t else (count s).loseColl c

/-- WAGGLE (R427, R437-R439): a piece is kept once for its stage and rank, and folded when its stage is complete. -/
def execWaggle (g : CollPacket) (s : State) : Host.Outcome State Fault Refusal :=
  let p := g.pkt
  consumeColl 13 0 p s (longOk p && decide (bits p.arg0.toNat 36 3 ≤ 4)) fun s =>
    let a := p.arg0.toNat
    let t := packetTeam p
    let n := packetCseq p
    let r := bits a 42 12
    let x := (bits a 36 3, r, bits a 39 3)
    let w := s.wentry t n
    let keep := s.setWentry
      { w with mask := w.mask ++ [x], pieces := w.pieces ++ [(x.1, x.2.1, x.2.2, p.data)], codes := w.codes ++ [p.arg1.toNat] }
    match s.running t n with
    | some c =>
      if p.arg1.toNat ≠ agreement c.d (s.teamOf c) then s.disagree c
      else if w.mask.contains x then s
      else (keep.setColl (c.heard r s.now)).driveChecked c g.u
    | none => if s.future t n ∧ !w.mask.contains x then keep else s

/-- GRANT (R414, R427, R441, R442): credit of a member of the team is recorded, and spent when the collective has started. -/
def execGrant (p : Packet) (s : State) : Host.Outcome State Fault Refusal :=
  consumeColl 10 0 p s (shortOk p) fun s =>
    let a := p.arg0.toNat
    let t := packetTeam p
    let n := packetCseq p
    match (s.team t).rankOf p.srcLog.toNat with
    | none => s
    | some r =>
    let k : Credit := { team := t, cseq := n, phase := bits a 36 1, frm := r, first := bits a 37 19, n := min 8 (bits a 56 4),
                        code := p.arg1.toNat }
    let keep := { s with coll := { s.coll with credits := s.coll.credits ++ [k] } }
    match s.running t n with
    | some c =>
      if k.code ≠ agreement c.d (s.teamOf c) then s.disagree c
      else (keep.setColl (if csyncs c.d then c.heard r s.now else c)).drive c.id
    | none => if s.future t n then keep else s

/-- A COLDATA packet carries the bytes it says it does (R388, R442). -/
def coldataOk (p : Packet) : Bool :=
  let n := bits p.arg1.toNat 0 13
  decide (1 ≤ n) && decide (n ≤ 4096) && p.plen.toNat == (n + 63) / 64 && p.data.length == 64 * p.plen.toNat

/-- COLDATA (R433, R440-R443): a chunk that was granted is folded, or written to the receive buffer, once. -/
def execColdata (g : CollPacket) (s : State) : Host.Outcome State Fault Refusal :=
  let p := g.pkt
  consumeColl 9 4 p s (coldataOk p) fun s =>
    let a := p.arg0.toNat
    let phase := bits a 36 1
    let r := bits a 37 12
    let i := bits p.arg1.toNat 13 19
    let n := bits p.arg1.toNat 0 13
    match s.running (packetTeam p) (packetCseq p) with
    | none => s
    | some c =>
      let (b, len) := recvSpan c.d (s.teamOf c).size (s.rankIn c) phase r
      if c.granted phase r ≤ i ∨ n ≠ chunkLen len i ∨ c.mask.contains (phase, r, i) then s
      else
        let bs := p.data.take n
        let c1 := { c.heard r s.now with mask := c.mask ++ [(phase, r, i)] }
        let s1 := if creduces c.d ∧ phase = 0 then s.setColl { c1 with got := c.got ++ [(0, r, i, bs)] }
          else (s.setColl c1).collWrite c (b + 4096 * i) bs
        (s1.driveChecked c g.u).driveAll

/-! ### Completion (R434, R447, R448) -/

/-- The `COLLECT` command of a collective takes its status. -/
def State.endCollect (s : State) (c : Coll) : State :=
  match c.issuer with
  | .cmd id => match s.cmd id with
    | some k => s.setCmd { k with phase := .finished, status := if k.status = 0 then c.status else k.status }
    | none => s
  | .cell _ _ => s

/-- COLLECTIVE_COMPLETE (R434, R447, R448): every write of the receive buffer has been performed. The done object is signalled,
whatever the status (log 78); who arrived last is recorded; and the place is free, its accumulator store with it. -/
def execCollectiveComplete (id : Nat) (s : State) : Host.Outcome State Fault Refusal :=
  whenLive s <| withItem (s.coll_ id) fun c =>
    whenDue (c.ready && !s.link.bis.any fun b => match b.what with
        | .write o _ _ _ => o == .coll id
        | _ => false) <|
      let wait := (c.lastTime - c.t0).toNat / 100
      let done := dfield c.d 0x20 0 64
      let cmd := match c.issuer with
        | .cmd i => some i
        | .cell n _ => (s.cell n).cmd
      let s1 := if done = 0 then s else s.issueSig .collective (.coll id) c.part cmd 0 (s.syncRef c.part done) false 1
      let s2 := { s1 with coll := { s1.coll with
        colls := s1.coll.colls.filter (fun e => e.id != id),
        waggle := s1.coll.waggle.filter (fun w => !(c.started && c.owns w.team w.cseq)),
        credits := s1.coll.credits.filter (fun k => !(c.started && c.owns k.team k.cseq)),
        lastLaggard := c.lastRank, lastWait := min wait (2 ^ 20 - 1),
        lagCount := if s.barF 0x040008 0 16 < wait then min (s1.coll.lagCount + 1) (2 ^ 24 - 1) else s1.coll.lagCount } }
      let s3 := s2.trace 14 c.part (cteam c.d) (cseqOf c.d) c.lastRank wait
      .next ((s3.endCollect c).acceptPorts).driveAll

end Sys2Proof.Machine
end

