-- ==== Sys2Proof/Machine/Lining.lean ====
section
/-!
DEFINITION. Copies to the lining, copies before a write, the lining budget, and retired foragers (R213, R274-R279, R517,
R518).
-/

namespace Sys2Proof.Machine

/-- The lowest frozen device granule of a forager: copies run in ascending order (R275). -/
def Frg.nextFrozen (f : Frg) : Option Nat := (f.frozen.t.head?).map Prod.fst

/-- Read a granule of cell memory for a copy, and go on with `k`; where a word of it is uncorrectable, the copy is not made and the loss is
handled (R52, R503, R517). -/
def copyCell (p o : Nat) (s : State) (k : State → State) : Host.Outcome State Fault Refusal :=
  let bad := s.badWords (o / 4096 * 4096) 4096
  if bad.isEmpty then .next (k s) else whenFree (!s.awaitsRepair p bad) s <| .next (s.loseWords p [] bad)

/-- LINING_COPY (R275, R277, R488, R517, R518): the next frozen granule of a forager, within its share of the budget or while
it has no descriptor to run, or a frozen granule of a cell. A write that waits for a staging buffer goes before. -/
def execLiningCopy (part granule : Nat) (s : State) : Host.Outcome State Fault Refusal :=
  whenFormed (decide (part < 4)) <|
  whenLive s <| whenDue (s.linOn part && (s.epochOf part).state == 3 && decide (granule < s.linQ)) <|
    whenRoused s part <|
    let o := s.granuleOff part granule
    if granule < s.linA then
      let (d, g) := s.place4K o
      let f := s.frg d
      whenDue (f.nextFrozen == some g && s.stagingFree part d && !s.writeParked d &&
          (decide (4096 ≤ f.share) || !s.softwareDue d)) <|
        .next ((s.stageClose o).bumpFrg d 1 4096)
    else
      let n := (o - cellBase) / cellBytes
      whenDue (s.frozenCell o && s.stagingFree part (32 + n / 8)) <|
        copyCell part o s fun s => s.stageCell o

/-- The bytes of the lining budget of one millisecond (R275, R507, R518). -/
def State.liningBudget (s : State) : Nat := s.barF 0x060000 16 7 * 1210000

/-- LINING_BUDGET_SPLIT (R275): the budget of each partition is divided equally among its foragers with frozen bits. -/
def execLiningBudgetSplit (s : State) : Host.Outcome State Fault Refusal :=
  whenLive s <|
    .next (foldS (fun s p =>
      let want := (s.devsOf p).filter fun d => !(s.frg d).frozen.clear
      foldS (fun s d => s.setFrg d { s.frg d with
        share := if want.contains d then s.liningBudget / want.length else 0 }) s (s.devsOf p)) s (List.range s.parts))

/-- COPY_BEFORE_WRITE (R276, R312): a write to a frozen granule of a device is held while the granule is staged, and until no host may
hold a line of it. -/
def execCopyBeforeWrite (dev granule off : Nat) (data : List Byte) (s : State) : Host.Outcome State Fault Refusal :=
  whenFormed (decide (dev < 32) && decide (0 < data.length) && decide (off + data.length ≤ 4096)) <|
  whenLive s <| whenDue ((s.frg dev).frozen.get granule) <| whenFree (s.stagingFree (s.partOfDev dev) dev) s <|
    withItem ((s.unrelocate dev granule).bind fun e => s.offsetOf e.1 e.2) fun o =>
      withRecall [(o + off, data.length)] s <| .next ((s.bumpFrg dev 1 4096).writeLocal (o + off) data)

/-- CELL_COPY_BEFORE_WRITE (R517): the same for cell memory, staged by the comb mover. -/
def execCellCopyBeforeWrite (cell granule off : Nat) (data : List Byte) (s : State) :
    Host.Outcome State Fault Refusal :=
  whenFormed (decide (cell < 512) && decide (granule < 1024) && decide (0 < data.length) && decide (off + data.length ≤ 4096)) <|
  whenLive s <| whenDue ((s.cell cell).frozen.getLsbD granule) <| whenFree (s.stagingFree (s.partOfCell cell) (32 + cell / 8)) s <|
    let o := cellMem cell + 4096 * granule
    copyCell (s.partOfCell cell) o s fun s => s.writeLocal (o + off) data

/-! ### Retired foragers (R278-R281) -/

/-- The descriptors that a retired forager, or one under test, has not started go to the foragers that work for it now: back to their
places, and into the queues as these have room (R235, R278, R280). -/
def State.handOff (s : State) (f : Nat) : State := (s.reassign (s.partOfDev f)).fillQueues

/-- Retire a forager's datapath (R278, R279, R503): its pair becomes its proxy; with a home region in effect its device
is retired; with its pair retired too, the pair is lost. A descriptor in progress loses it. -/
def State.retireForager (s : State) (f : Nat) : State :=
  let p := s.partOfDev f
  let users := (s.frgUsers f).filter fun id => (s.fdescs.any fun d =>
    (s.frg f).running == some d.id && (match d.issuer with | .cmd i => i == id | .cell n _ => (s.cell n).cmd == some id))
  let pair := f ^^^ 1
  let s1 := s.setFrg f { s.frg f with retired := true, running := none }
  let s2 :=
    if (s1.frg pair).retired then
      (((s1.retire p 2 2 f f f).retire p 2 2 pair pair pair).escalate p 5 (min f pair) 0).faultNotice p 5
    else if s1.homeG p ≠ 0 ∧ !(s1.dev f).retired then (s1.handOff f).retireDevice f
    else (s1.handOff f).retire p 2 1 f f f
  s2.loseEngine p (256 * f) users

/-- FORAGER_RETIRE (R278, R279). -/
def execForagerRetire (frg : Nat) (s : State) : Host.Outcome State Fault Refusal :=
  whenFormed (decide (frg < 32)) <|
  whenLive s <| whenDue (!(s.frg frg).retired) <| .next (s.retireForager frg)

/-! ### The classes that use exact accumulators, under their residue checks (R182, R233, R263, R265, R269) -/

/-- Run a class under the residue checks of its accumulators: a mismatch that a repeat clears in forager `r.frg` is counted and
changes no result; a repeated mismatch makes the test record invalid (R588) and retires that forager's datapath with the descriptor in
progress, and its result is not delivered. -/
def withChecks (r : AdderRun) (s : State) (k : Host.Outcome State Fault Refusal) : Host.Outcome State Fault Refusal :=
  match r.u with
  | .none => k
  | .repeated =>
    match k with
    | .next t => withItem (s.fdesc r.id) fun x => whenDue (x.frgs.contains r.frg) <|
        .next ((t.bump 52 1).bumpPart (s.partOfDev r.frg) 19 1)
    | o => o
  | .lasting =>
    match k with
    | .next _ =>
      withItem (s.fdesc r.id) fun x => whenDue (x.frgs.contains r.frg && !(s.frg r.frg).retired) <|
        .next ((((s.bump 52 1).bumpPart (s.partOfDev r.frg) 19 1).spoilRecord 4
          |>.setFrg r.frg { s.frg r.frg with running := some r.id }).retireForager r.frg)
    | o => o

/-- REDUCE (R263). -/
def execReduce (r : AdderRun) (s : State) : Host.Outcome State Fault Refusal :=
  whenFormed (decide (r.frg < 32)) <| withChecks r s (runClass r.id 2 s)

/-- SCATTER (R265). -/
def execScatter (r : AdderRun) (s : State) : Host.Outcome State Fault Refusal :=
  whenFormed (decide (r.frg < 32)) <| withChecks r s (runClass r.id 4 s)

/-- CSR (R269). -/
def execCsr (r : AdderRun) (s : State) : Host.Outcome State Fault Refusal :=
  whenFormed (decide (r.frg < 32)) <| withChecks r s (runClass r.id 8 s)

end Sys2Proof.Machine
end

