-- ==== Sys2Proof/Machine/Swarm.lean ====
section
/-!
DEFINITION. The swarm: heartbeats, admission, tables, takeover, quench, reports, and acknowledgements and refusals of packets
that the module has sent (R399, R409-R413, R418, R427, R449-R457, R535, R539, R556, R570).
-/

namespace Sys2Proof.Machine

/-! ### Senders and terms (R454, R456) -/

/-- The role of this module may take part in the swarm: a worker, deputy, manager or spare. -/
def State.inRole (s : State) : Bool := decide (1 ≤ s.swarm.role) && decide (s.swarm.role ≤ 4)

/-- The deputy in service. -/
def State.deputy (s : State) : Option Nat := if s.swarm.hasDeputy then s.swarm.deputies.head? else none

/-- A packet comes from the manager. -/
def State.fromManager (s : State) (p : Packet) : Bool := p.srcLog.toNat == s.swarm.manager

/-- A packet comes from the manager or the deputy. -/
def State.fromHeads (s : State) (p : Packet) : Bool := s.fromManager p || s.deputy == some p.srcLog.toNat

/-- A packet comes from a member or a spare. -/
def State.fromSwarm (s : State) (p : Packet) : Bool :=
  s.swarm.members.contains p.srcLog.toNat || s.swarm.spares.contains p.srcLog.toNat

/-- A SWARM, QUENCH or MARKER packet is discarded and counted (R454, R456, R514, R638). -/
def State.dropSwarm (s : State) (p : Packet) (subtype : Nat) : State :=
  (s.bump 44 1).escalate s.owner 38 p.srcPhys.toNat subtype

/-- The subtype of a SWARM packet. -/
def subtypeOf (p : Packet) : Nat := bits p.arg0.toNat 0 8

/-- The term of a SWARM packet. -/
def termOf (p : Packet) : Nat := bits p.arg0.toNat 8 32

/-- A new manager heads the swarm: the deputies after it remain, an epoch in progress is abandoned (R454, R520). -/
def State.newManager (s : State) (m term : Nat) : State :=
  let rest := (s.swarm.deputies.dropWhile fun d => d != m).drop 1
  let own := s.fab.logical.toNat
  let role := if s.swarm.role = 4 then 4 else if m = own then 3 else if rest.head? = some own then 2 else 1
  let s1 := { s with swarm := { s.swarm with
    manager := m, deputies := rest, hasDeputy := !rest.isEmpty, term := term, role := role,
    missed := Tab.set (fun _ => 0) s.swarm.missed m 0 } }
  s1.abandonEpoch s1.owner false

/-- A packet of a higher term reaches an old manager, which stops all manager duties (R454): the sender is the new manager, or a member
that has acknowledged the new term. -/
def State.meetTerm (s : State) (src term : Nat) : State :=
  if s.swarm.role ≠ 3 ∨ term ≤ s.swarm.term then s
  else if s.swarm.deputies.contains src then s.newManager src term
  else if s.swarm.members.contains src || s.swarm.spares.contains src then
    { s with swarm := { s.swarm with role := 1, term := term } }
  else s

/-- A SWARM packet has a reserved subtype (R456, R508, R532, R539). -/
def reservedSwarm (p : Packet) : Bool := !(decide (1 ≤ subtypeOf p) && decide (subtypeOf p ≤ 11))

/-- A SWARM packet of a subtype is consumed, or refused as malformed where its subtype is reserved (R413, R456): discarded where its
sender is not one that may send it, or its term is lower; acknowledged in every case (log 77). A takeover (subtype 5) meets the term
itself. -/
def consumeSwarm (subtype : Nat) (long : Bool) (p : Packet) (s : State) (ok : State → Bool) (k : State → State) :
    Host.Outcome State Fault Refusal :=
  consume 14 p s fun s => whenDue (subtypeOf p == subtype || reservedSwarm p) <|
    .next (s.checked 0 p fun s =>
      s.sequence p (fun s =>
        if reservedSwarm p then (s, .refused 3) else
        let s := if subtype = 5 then s else s.meetTerm p.srcLog.toNat (termOf p)
        if !(if long then longOk p else shortOk p) then (s, .refused 3)
        else if !s.inRole || decide (termOf p < s.swarm.term) || !ok s then (s.dropSwarm p subtype, .done)
        else (k s, .done)) fun s => s.ackPkt p)

/-- Field of the operand of a 64-byte control packet, by byte offset from 0x20. -/
def operandF (p : Packet) (off n : Nat) : Nat := leNat ((p.data.drop off).take n)

/-! ### Heartbeats (R451, R452) -/

/-- Those who send heartbeats to this module: to the manager every member and spare, to the others the manager. -/
def State.watchedBy (s : State) : List Nat :=
  if s.swarm.role = 3 then
    ((s.swarm.members.filter fun m => !s.swarm.failed.contains m) ++ s.swarm.spares).filter fun m =>
      m != s.fab.logical.toNat
  else [s.swarm.manager]

/-- Heartbeats missed from a module. -/
def State.missedOf (s : State) (m : Nat) : Nat := Tab.get (fun _ => 0) s.swarm.missed m

/-- Set the heartbeats missed from a module. -/
def State.setMissed (s : State) (m n : Nat) : State :=
  { s with swarm := { s.swarm with missed := Tab.set (fun _ => 0) s.swarm.missed m n } }

/-- Those to whom this module sends heartbeats. -/
def State.beatTo (s : State) : List Nat :=
  if s.swarm.role = 3 then s.watchedBy
  else ([s.swarm.manager] ++ s.deputy.toList).eraseDups.filter fun m => m != s.fab.logical.toNat

/-- SWARM_HEARTBEAT_SEND (R29, R451, R452): the interval of 10 ms ends. A heartbeat of an admitted module goes to each receiver, and one
more is missed from each sender until it arrives. -/
def execSwarmHeartbeatSend (s : State) : Host.Outcome State Fault Refusal :=
  whenLive s <| whenDue (s.inRole && !s.swarm.hbStopped) <|
    let s1 := foldS (fun t m => t.setMissed m (t.missedOf m + 1)) s s.watchedBy
    .next (if s.swarm.admitted then foldS (fun t m => t.swarmSend m 1 t.fab.logical.toNat []) s1 s.beatTo else s1)

/-- SWARM_HEARTBEAT (R187, R452). A deputy learns from it who is admitted: only members and spares send heartbeats, and one refused
for its `arev` is neither (R451). -/
def execSwarmHeartbeat (p : Packet) (s : State) : Host.Outcome State Fault Refusal :=
  consumeSwarm 1 false p s (fun s => s.fromManager p || ((s.swarm.role == 2 || s.swarm.role == 3) && s.fromSwarm p))
    fun s =>
      let m := p.srcLog.toNat
      let s1 := s.setMissed m 0
      if s.swarm.role = 2 then
        { s1 with swarm := { s1.swarm with admittedM := s1.swarm.admittedM.filter (fun x => x != m) ++ [m] } }
      else s1

/-! ### Tables (R399, R450, R453, R539) -/

/-- A takeover is complete once every module that can be reached has acknowledged the new term and the next deputy holds the tables: no
packet of them waits for its ACK (R454; log 77). -/
def State.endTakeover (s : State) : State :=
  match s.swarm.taking with
  | some old =>
    if s.fab.rtx.any fun r => r.pkt.type == 14 && (subtypeOf r.pkt == 5 || (subtypeOf r.pkt == 2 && s.deputy == some r.pkt.dstLog.toNat))
    then s
    else ({ s with swarm := { s.swarm with taking := none } }).escalate s.owner 34 old s.swarm.term
  | none => s

/-- What waits for a module that is marked failed ends with `ABORTED` (R539): commands with packets to it, and the
collectives of its teams. -/
def State.abandonModule (s : State) (m : Nat) : State :=
  let gone := s.fab.rtx.filter fun r => r.pkt.dstLog.toNat == m
  let tags := (gone.filter fun r => r.pkt.type == 2).map fun r => r.pkt.etag
  let s0 := s.withdraw fun q => q.seqd && q.dstLog.toNat == m
  let s1 := foldS (fun t r => t.endRead r) { s0 with fab := { s0.fab with rtx := s0.fab.rtx.filter fun r => r.pkt.dstLog.toNat != m } }
    (s.fab.reads.filter fun t => tags.contains t.etag)
  let s2 := foldS (fun t (r : Rtx) => if r.eng < 612 then t.countAcked r.eng else t) s1
    (gone.filter fun r => [1, 6, 7].contains r.pkt.type.toNat)
  let s3 := foldS (fun t (r : Rtx) => t.failOwner r.owner 4) s2 gone
  { s3 with coll := { s3.coll with colls := s3.coll.colls.map fun c =>
      if ((s3.team (cteam c.raw.toNat)).rankOf m).isSome then { c with ready := true, status := 4 } else c } }

/-- No substitution takes place any more: started commands of the fabric-owner partition that one held end with `ABORTED` (R85, R216,
R279, R455, R539). -/
def State.endHeld (s : State) : State :=
  foldS State.abortCmd s ((s.cmds.filter fun c => c.part == s.owner && c.phase == .started && s.strandedCmd c).map Cmd.id)

/-- Put a routing entry in effect (R398, R399). A module that the entry gives the number takes it, and one that loses its
number leaves the swarm (R532). What waits for a substitution of a number marked failed ends (R539). -/
def State.setRoute (s : State) (n : Nat) (phys : BitVec 12) (valid : Bool) : State :=
  let r : Route := { s.route n with phys := phys, valid := valid }
  let marked := s.swarm.marked.filter (fun m => m != n) ++ if valid then [] else [n]
  let s1 := { s with
    fab := { s.fab with routes := Tab.set (fun _ => Route.reset) s.fab.routes n r }, swarm := { s.swarm with marked := marked } }
  if !valid then
    let s2 := s1.abandonModule n
    (if s.fab.logical.toNat = n then (s2.endLostCmds s2.owner).endHeld else s2).endTakeover
  else if phys = s.fab.phys ∧ s.fab.logical.toNat ≠ n ∧ s.swarm.role = 4 then
    { s1 with
      fab := { s1.fab with logical := BitVec.ofNat 12 n },
      swarm := { s1.swarm with role := 1, spares := s1.swarm.spares.filter fun m => m != s.fab.logical.toNat } }
  else if s.fab.logical.toNat = n ∧ phys ≠ s.fab.phys then
    { s1 with swarm := { s1.swarm with role := 0, admitted := false, hbStopped := true } }
  else s1

/-- The operand of a table update: physical number and valid bit (log 76). -/
def tableOperand (phys : BitVec 12) (valid : Bool) : List Byte :=
  leBytes 32 (phys.toNat + if valid then 2 ^ 12 else 0)

/-- Every member and spare but this module. -/
def State.others (s : State) : List Nat :=
  ((s.swarm.members ++ s.swarm.spares).eraseDups).filter fun m => m != s.fab.logical.toNat

/-- Act on a table change: in effect here, and sent to everyone but the deputy, who has it (R453). -/
def State.actTable (s : State) (c : TableChange) : State :=
  let tell := s.others.filter fun m => s.deputy != some m
  (foldS (fun t m => t.swarmSend m 2 c.logical.toNat (tableOperand c.phys c.valid)) s tell).setRoute c.logical.toNat c.phys
    c.valid

/-- The manager changes its tables: the deputy is told first, and the change waits for its ACK (R453). -/
def State.changeTable (s : State) (logical : Nat) (phys : BitVec 12) (valid : Bool) : State :=
  match s.deputy with
  | some d =>
    let seq := Tab.get (fun _ => 0) s.fab.tx (streamKey d 0)
    let c : TableChange := { logical := BitVec.ofNat 12 logical, phys := phys, valid := valid, seq := seq }
    let s1 := s.swarmSend d 2 logical (tableOperand phys valid)
    { s1 with swarm := { s1.swarm with pending := s1.swarm.pending ++ [c] } }
  | none => s.actTable { logical := BitVec.ofNat 12 logical, phys := phys, valid := valid, seq := 0 }

/-- TABLE_UPDATE (R399, R453). -/
def execTableUpdate (p : Packet) (s : State) : Host.Outcome State Fault Refusal :=
  consumeSwarm 2 true p s (fun s => s.fromHeads p) fun s =>
    s.setRoute (p.arg1.toNat % 4096) (BitVec.ofNat 12 (operandF p 0 4)) (bit (operandF p 0 4) 12)

/-! ### Admission (R187, R451) -/

/-- The operand of an admission request (log 76). -/
def State.admission (s : State) : List Byte :=
  leBytes 8 s.arev ++ leBytes 8 Config.serial.toNat ++ leBytes 16 s.fab.logical.toNat

/-- A member or spare asks for its admission; the manager admits itself. -/
def State.askAdmission (s : State) : State :=
  if s.swarm.role = 3 then { s with swarm := { s.swarm with admitted := true } }
  else if s.inRole then s.swarmSend s.swarm.manager 3 0 s.admission
  else s

/-- ADMISSION_REQUEST (R451, R457). -/
def execAdmissionRequest (p : Packet) (s : State) : Host.Outcome State Fault Refusal :=
  consumeSwarm 3 true p s (fun s => s.swarm.role == 3 && s.fromSwarm p) fun s =>
    let m := p.srcLog.toNat
    let a := operandF p 0 2
    if a = s.arev then
      ({ s with swarm := { s.swarm with
          admittedM := s.swarm.admittedM.filter (fun x => x != m) ++ [m],
          serials := Tab.set (fun _ => 0) s.swarm.serials m (BitVec.ofNat 64 (operandF p 8 8)) } }).swarmSend m 4 1 []
    else
      let s1 := { s with swarm := { s.swarm with admittedM := s.swarm.admittedM.filter fun x => x != m } }
      (s1.swarmSend m 4 0 []).escalate s.owner 33 m (a + s.arev * 2 ^ 16)

/-- ADMISSION_RESULT (R451). -/
def execAdmissionResult (p : Packet) (s : State) : Host.Outcome State Fault Refusal :=
  consumeSwarm 4 false p s (fun s => s.fromManager p) fun s =>
    if p.arg1 = 1 then { s with swarm := { s.swarm with admitted := true, turned := false } }
    else { s with swarm := { s.swarm with admitted := false, role := 0, turned := true } }

/-! ### Takeover (R454, R455) -/

/-- TAKEOVER (R454): the deputy's new term is acknowledged; an old manager stops its duties. -/
def execTakeover (p : Packet) (s : State) : Host.Outcome State Fault Refusal :=
  consumeSwarm 5 false p s
    (fun s => s.swarm.deputies.contains p.srcLog.toNat && decide (s.swarm.term < termOf p))
    fun s => s.newManager p.srcLog.toNat (termOf p)

/-- MANAGER_LOST (R454): the deputy takes over. The new term goes to every member and spare, the tables to the next deputy,
and the old manager counts as failed. A substitution in progress starts again from its first step. Those admitted are those whose
heartbeats have come (R187). -/
def execManagerLost (s : State) : Host.Outcome State Fault Refusal :=
  whenLive s <| whenDue (s.swarm.role == 2 && s.swarm.admitted && decide (3 ≤ s.missedOf s.swarm.manager)) <|
    let old := s.swarm.manager
    let s1 := s.newManager s.fab.logical.toNat (s.swarm.term + 1)
    let s2 := foldS (fun t m => t.swarmSend m 5 0 []) s1 s1.others
    let s3 := match s2.deputy with
      | some d => foldS (fun t (e : Nat × Route) => t.swarmSend d 2 e.1 (tableOperand e.2.phys e.2.valid)) s2 s2.fab.routes
      | none => s2
    let e := s3.epochOf s3.owner
    let s4 := if e.recStep = 0 then s3 else s3.wantFor s3.owner e.failedM e.spareM
    .next ({ s4 with swarm := { s4.swarm with
      notices := s4.swarm.notices ++ [(old, 1)], taking := some old,
      admittedM := s4.fab.logical.toNat :: s4.swarm.admittedM.filter fun m => m != old && m != s4.fab.logical.toNat } }).endTakeover

/-- NO_MANAGER (R455): no deputy is in service, and failures are not substituted until a new placement; what a substitution holds ends
with `ABORTED`, and so do waiting commands when their rows are taken. -/
def execNoManager (s : State) : Host.Outcome State Fault Refusal :=
  whenLive s <|
    whenDue (s.inSwarm && s.swarm.role != 3 && s.deputy.isNone && decide (3 ≤ s.missedOf s.swarm.manager) &&
        !s.swarm.headless) <|
      .next ((({ s with swarm := { s.swarm with headless := true } }).escalate s.owner 35 0 0).endHeld)

/-! ### Failures of members (R452, R503, R532, R539) -/

/-- No spare is available for a failed member: its number is marked failed (R539). -/
def State.noSpare (s : State) (m : Nat) : State :=
  (s.escalate s.owner 37 m 0).changeTable m (s.route m).phys false

/-- A fault notice of an epoch that is abandoned (R520, log 145). -/
def tellsAbandon (p : Packet) : Bool := bits p.arg1.toNat 0 8 == 3 || bits p.arg1.toNat 0 8 == 4

/-- FAULT_NOTICE (R452, R551): a notice for `ESCALATE` reason 1, 2 or 5 counts; reason 17 asks for a recovery with the module as its own
spare, and reason 37 tells that no lining serves one (R506, log 51). Reasons 3 and 4 tell of an epoch that is abandoned, and go on from
the manager to the members (R520, log 145). -/
def execFaultNotice (p : Packet) (s : State) : Host.Outcome State Fault Refusal :=
  consumeSwarm 6 false p s (fun s => if s.swarm.role = 3 then s.fromSwarm p else s.fromManager p && tellsAbandon p) fun s =>
    let m := p.srcLog.toNat
    if tellsAbandon p then s.hearAbandon s.owner (bits p.arg1.toNat 0 8) (bits p.arg1.toNat 8 24)
    else
    if p.arg1 = 17 then s.wantFor s.owner m m
    else if p.arg1 = 37 then s.noSpare m
    else if [1, 2, 5].contains p.arg1.toNat then { s with swarm := { s.swarm with notices := s.swarm.notices ++ [(m, 2)] } }
    else s

/-- The cause for which the manager declares a module failed (R452, R457). -/
def State.failCause (s : State) (m : Nat) : Option Nat :=
  match s.swarm.notices.find? fun e => e.1 == m with
  | some e => some e.2
  | none => if 3 ≤ s.missedOf m then some 1 else none

/-- A spare is chosen already, for a recovery that has not begun. -/
def State.chosen (s : State) (m : Nat) : Bool :=
  let e := s.epochOf s.owner
  e.recWant && (e.spareM == m || e.others.any fun q => q.2.1 == m)

/-- The spare that the manager chooses: the first of the list that it has admitted and not chosen already. -/
def State.nextSpare (s : State) : Option Nat := s.swarm.spares.find? fun m => s.swarm.admittedM.contains m && !s.chosen m

/-- A recovery is no longer wanted for member `f`; one that is wanted for others goes on (R539). -/
def State.dropWant (s : State) (p f : Nat) : State :=
  let e := s.epochOf p
  if e.failedM = f then
    match e.others.getLast? with
    | some q => s.setEpoch p { e with recWant := true, failedM := q.1, spareM := q.2.1, others := e.others.dropLast }
    | none => s.setEpoch p { e with recWant := false }
  else s.setEpoch p { e with others := e.others.filter fun q => q.1 != f }

/-- A chosen spare fails (R539): the manager takes the next spare, or marks the number failed. -/
def State.respare (s : State) (x : Nat) : State :=
  let p := s.owner
  let e := s.epochOf p
  let f := if e.spareM = x then some e.failedM else (e.others.find? fun q => q.2.1 == x).map Prod.fst
  match f with
  | none => s
  | some f =>
    if !e.recWant || f == x then s
    else match s.nextSpare with
      | some y => s.wantFor p f y
      | none => (s.dropWant p f).noSpare f

/-- MEMBER_DECLARED_FAILED (R452, R457, R503, R520, R539): the manager abandons the epoch and chooses a spare, or marks the
number failed. -/
def execMemberDeclaredFailed (module : Nat) (s : State) : Host.Outcome State Fault Refusal :=
  whenLive s <| whenDue (s.swarm.role == 3 && (s.swarm.members.contains module || s.swarm.spares.contains module) &&
      !s.swarm.failed.contains module) <|
    withItem (s.failCause module) fun cause =>
      let s1 := { s with swarm := { s.swarm with
        failed := s.swarm.failed ++ [module], notices := s.swarm.notices.filter (fun e => e.1 != module),
        spares := s.swarm.spares.filter (fun m => m != module), missed := Tab.set (fun _ => 0) s.swarm.missed module 0 } }
      let s2 := s1.escalate s1.owner 36 module cause
      if !s.swarm.members.contains module then .next (s2.respare module)
      else
        let s3 := s2.abandonEpoch s2.owner false
        match s3.nextSpare with
        | none => .next (s3.noSpare module)
        | some x =>
          .next (s3.wantFor s3.owner module x)

/-! ### Aborts, boundaries, reports, quench (R418, R427, R450, R456, R508, R570) -/

/-- Every other member has granted credit under this member's own agreement code: the team agrees, and an abort tells of images that
cannot be merged (R421, R427; log 138). -/
def State.agreed (s : State) (c : Coll) : Bool :=
  ctype c.d == 16 && (s.collPeers c).all fun r =>
    s.coll.credits.any fun k => c.owns k.team k.cseq && k.frm == r && k.code == agreement c.d (s.teamOf c)

/-- COLLECTIVE_ABORT (R421, R427): the collective completes with `FORMAT` here too, even if it starts only later: at once, or when all of
its result has been written where the team agrees. -/
def execCollectiveAbort (p : Packet) (s : State) : Host.Outcome State Fault Refusal :=
  consumeSwarm 7 true p s (fun s => ((s.team (p.arg1.toNat % 16)).rankOf p.srcLog.toNat).isSome) fun s =>
    let t := p.arg1.toNat % 16
    let n := operandF p 0 4
    let x := s.teamSeq t
    let s1 := s.setTeamSeq t { x with aborted := x.aborted ++ [n] }
    { s1 with coll := { s1.coll with colls := s1.coll.colls.map fun c =>
        if c.started && !c.ready && cteam c.raw.toNat == t && cseqOf c.raw.toNat == n then
          { c with ready := !s.agreed c, status := 2 }
        else c } }

/-- BOUNDARY_REQUEST (R508): a member's request reaches the manager. -/
def execBoundaryRequest (p : Packet) (s : State) : Host.Outcome State Fault Refusal :=
  consumeSwarm 8 false p s (fun s => s.swarm.role == 3 && s.fromSwarm p) fun s =>
    s.requestBoundary s.owner (p.arg1 == 1)

/-- RELAY (R450, R452): the manager counts a member's report; one of a lost host link is a notice of its failure. A module
that is not the manager has no use for it. In a partition reset it is discarded (R549). -/
def execRelay (p : Packet) (s : State) : Host.Outcome State Fault Refusal :=
  consume 8 p s fun s =>
    .next (s.checked 3 p fun s =>
      s.sequence p (fun s =>
        if !longOk p then (s, .refused 3)
        else if s.ownerReset then (s.bump 41 1, .done)
        else if s.swarm.role = 3 ∧ s.fromSwarm p then
          let m := p.srcLog.toNat
          let reason := bits p.arg0.toNat 0 8
          let type := p.arg1.toNat
          let s := s.countReport m type reason
          ({ s with swarm := { s.swarm with
              notices := if type = 4 ∧ reason = 8 then s.swarm.notices ++ [(m, 3)] else s.swarm.notices } }, .done)
        else (s, .done)) fun s => s.ackPkt p)

/-- The action, reason and term of a QUENCH (R456). -/
def quenchAct (p : Packet) : Nat := bits p.arg0.toNat 0 2

/-- The reason of a QUENCH. -/
def quenchReason (p : Packet) : Nat := bits p.arg0.toNat 8 8

/-- Set whether engines and intake of a partition are stopped, and carry its collectives on when they resume. -/
def State.goOn (s : State) (p : Nat) : State :=
  let e := s.epochOf p
  let s1 := s.setEpoch p { e with stopped := e.held }
  if e.stopped && !e.held && p == s.owner then s1.driveAll else s1

/-- Apply a quench to the fabric-owner partition (R570): reason 1 stops every engine, reason 2 begins a freeze, which waits for
the resume of a cut in progress (R572). -/
def State.applyQuench (s : State) (reason : Nat) : State :=
  let s1 := { s with swarm := { s.swarm with quench := s.swarm.quench.filter (fun r => r != reason) ++ [reason] } }
  let e := s1.epochOf s1.owner
  if reason = 1 then
    (s1.setEpoch s1.owner { e with recStep := max e.recStep 2, state := 5, freezing := false, frozen := false }).goOn s1.owner
  else if reason = 2 then
    let t := { s1 with dbg := { s1.dbg with frState := 1, frNumber := (s1.dbg.frNumber + 1) % 2 ^ 32 } }
    (t.setEpoch t.owner { e with freezing := true }).goOn t.owner
  else s1

/-- The module runs again after a freeze (R650, R652). -/
def State.endFreeze (s : State) : State :=
  ({ s with dbg := { s.dbg with frState := 0 } }).trace 5 s.owner 2 s.dbg.frNumber ((s.epochOf s.owner).committed + 1) 0

/-- Release a quench (R532, R570, R571): after a recovery's replay begins; a freeze ends. -/
def State.releaseQuench (s : State) (reason : Nat) : State :=
  let s1 := { s with swarm := { s.swarm with quench := s.swarm.quench.filter fun r => r != reason } }
  let e := s1.epochOf s1.owner
  if reason = 1 then
    (s1.setEpoch s1.owner { e with
      recStep := if e.recStep = 0 then 0 else 6, state := if e.recStep = 0 then e.state else 6 }).goOn s1.owner
  else if reason = 2 then
    ((s1.setEpoch s1.owner { e with
      freezing := false, frozen := false, fContrib := false, fStage := 0,
      heard := if e.step = 1 then e.heard else e.heard.filter fun h => h.1 != 2 }).goOn s1.owner).driveAll.endFreeze
  else s1.driveAll

/-- A QUENCH packet is consumed: refused as malformed where its action is reserved (R413), discarded where it does not come from the
manager or the deputy, or its term is lower. -/
def consumeQuench (act : Nat) (p : Packet) (s : State) (k : State → State) : Host.Outcome State Fault Refusal :=
  consume 11 p s fun s => whenDue (quenchAct p == act || quenchAct p == 0 || quenchAct p == 3) <|
    .next (s.checked 0 p fun s =>
      s.sequence p (fun s =>
        if quenchAct p ≠ act then (s, .refused 3) else
        let s := s.meetTerm p.srcLog.toNat (bits p.arg0.toNat 16 32)
        if !shortOk p then (s, .refused 3)
        else if !s.inRole || !s.fromHeads p || decide (bits p.arg0.toNat 16 32 < s.swarm.term) then
          (s.dropSwarm p act, .done)
        else (k s, .done)) fun s => s.ackPkt p)

/-- QUENCH (R418, R456, R570). -/
def execQuench (p : Packet) (s : State) : Host.Outcome State Fault Refusal :=
  consumeQuench 1 p s fun s => s.applyQuench (quenchReason p)

/-- QUENCH_RELEASE (R456, R570). -/
def execQuenchRelease (p : Packet) (s : State) : Host.Outcome State Fault Refusal :=
  consumeQuench 2 p s fun s => s.releaseQuench (quenchReason p)

/-- Send QUENCH or its release to every member and spare, and apply it here (R456). -/
def State.sendQuench (s : State) (act reason : Nat) : State :=
  foldS (fun t m =>
    t.originate .none ctlKey (t.packet 11 0 0 m (act + reason * 2 ^ 8 + t.swarm.term * 2 ^ 16) 0 0 false [])) s s.others

/-! ### Answers to packets that this module has sent (R298, R409, R410, R413, R535, R556) -/

/-- A response belongs to an engine's present generation; controllers carry no tag (R555, log 59). -/
def State.fresh_ (s : State) (r : Rtx) (p : Packet) : Bool := decide (612 < r.eng) || p.gen == s.gen r.eng

/-- A packet leaves the retransmit store, and counts toward its engine's completions unless the answer is stale (R298,
R556). -/
def State.retireRtx (s : State) (r : Rtx) (p : Packet) : State :=
  let s1 := ({ s with fab := { s.fab with rtx := s.fab.rtx.erase r } }).withdraw r.isFor
  if s.fresh_ r p ∧ [1, 6, 7].contains r.pkt.type.toNat then s1.countAcked r.eng else s1

/-- A table change whose deputy has acknowledged it takes effect (R453). -/
def State.deputyAcked (s : State) (m : Nat) (seq : BitVec 16) : State :=
  if s.deputy = some m then
    match s.swarm.pending.find? fun c => c.seq == seq with
    | some c => ({ s with swarm := { s.swarm with pending := s.swarm.pending.erase c } }).actTable c
    | none => s
  else s

/-- One acknowledged number of a stream. -/
def State.ackOne (s : State) (p : Packet) (j : Nat) : State :=
  let seq := p.seq + BitVec.ofNat 16 j
  match s.fab.rtx.find? fun r => r.pkt.dstLog == p.srcLog && r.pkt.cls.toNat == p.arg1.toNat % 8 && r.pkt.seq == seq with
  | none => s
  | some r =>
    let s1 := s.retireRtx r p
    if r.pkt.cls = 0 then s1.deputyAcked p.srcLog.toNat seq else s1

/-- ACK (R298, R409, R410, R556): numbers that are not in the store are acknowledged already. -/
def execAck (p : Packet) (s : State) : Host.Outcome State Fault Refusal :=
  consume 4 p s fun s =>
    .next (s.checked 2 p fun s =>
      (foldS (fun t j => t.ackOne p j) s ((List.range 64).filter fun j => p.arg0.getLsbD j)).endTakeover)

/-- The status that a reason for refusal gives a command (R413); `DENIED` for a piece of a `MOVE` (R363). -/
def refuseStatus (o : Owner) (reason : Nat) : Nat :=
  match o, reason with
  | .piece _ _, _ => 3
  | _, 2 => 1
  | _, 3 => 2
  | _, _ => 3

/-- A refused packet ends its part of its command. -/
def State.endRefused (s : State) (r : Rtx) (p : Packet) (reason : Nat) : State :=
  let s1 := s.retireRtx r p
  let s2 := foldS (fun t x => t.endRead x) s1 (s1.fab.reads.filter fun t => r.pkt.type == 2 && t.etag == r.pkt.etag)
  if s.fresh_ r p then s2.failOwner r.owner (refuseStatus r.owner reason) else s2

/-- REFUSE (R413, R535, R556): a packet to a number that has moved is sent again to the module that now serves it. -/
def execRefuse (p : Packet) (s : State) : Host.Outcome State Fault Refusal :=
  consume 5 p s fun s =>
    .next (s.checked 2 p fun s =>
      let reason := bits p.arg1.toNat 4 4
      match s.fab.rtx.find? fun r => r.pkt.dstPhys == p.srcPhys && r.pkt.cls.toNat == p.arg1.toNat % 8 && r.pkt.seq == p.seq with
      | none => s
      | some r =>
        let phys := (s.route r.pkt.dstLog.toNat).phys
        if reason = 4 ∧ phys ≠ r.pkt.dstPhys then
          let q := { r.pkt with dstPhys := phys }
          let q := { q with pcrc := pktCrc q }
          { s with fab := { s.fab with
              rtx := s.fab.rtx.map (fun x => if x = r then { r with pkt := q } else x),
              reads := s.fab.reads.map (fun t =>
                if r.pkt.type = 2 ∧ t.etag = q.etag then { t with phys := phys, again := some s.now } else t),
              outbox := (s.fab.outbox.filter fun x => !r.isFor x) ++ [q],
              waiting := s.fab.waiting.filter fun e => !(e.1.isNone && r.isFor e.2) } }
        else s.endRefused r p reason)

end Sys2Proof.Machine
end

