-- ==== Sys2Proof/Machine/Markers.lean ====
section
/-!
DEFINITION. MARKER packets and the swarm barriers that they make (R437, R512, R514).
-/

namespace Sys2Proof.Machine

/-- The size of the swarm lets a barrier run in the stages of R437. -/
def inStages (n : Nat) : Bool := n % 8 == 0 && (decide (n ≤ 64) || n % 64 == 0)

/-- Send a MARKER of a step. -/
def State.sendMarker (s : State) (p m step : Nat) : State :=
  s.originate .none ctlKey
    (s.packet 12 0 0 m (step + s.swarm.term * 2 ^ 8) ((s.epochOf p).epoch % 2 ^ 32) 0 false [])

/-- The members with which this one exchanges MARKERs in a stage. -/
def State.stageMates (s : State) (stage : Nat) : List Nat :=
  let l := s.ranks
  match l.findIdx? fun m => m == s.fab.logical.toNat with
  | none => []
  | some me => (stagePartners l.length me stage).filterMap fun r => l[r]?

/-- Spread the drain step (R514): to the partners of every stage, or from the manager to everyone. -/
def State.spreadDrain (s : State) (p : Nat) : State :=
  if !s.withSwarm p then s
  else if inStages s.ranks.length then
    foldS (fun t m => t.sendMarker p m 1) s ((List.range 5).flatMap s.stageMates).eraseDups
  else if s.swarm.role = 3 then
    foldS (fun t m => t.sendMarker p m 1) s (s.ranks.filter fun m => m != s.fab.logical.toNat)
  else s

/-- The MARKERs of a step from a list of members have arrived. -/
def State.heardAll (s : State) (p step : Nat) (l : List Nat) : Bool :=
  l.all fun m => (s.epochOf p).heard.contains (step, m)

/-- Go through the stages of a barrier whose MARKERs have arrived: the state, and the stage that is waited in. -/
def State.passStages (p step : Nat) : Nat → State → Nat → State × Nat
  | 0, s, k => (s, k)
  | f + 1, s, k =>
    if 5 ≤ k then (s, k)
    else if s.heardAll p step (s.stageMates k) then
      State.passStages p step f (foldS (fun t m => t.sendMarker p m step) s (if k < 4 then s.stageMates (k + 1) else [])) (k + 1)
    else (s, k)

/-- Carry a barrier on after the member has contributed: complete at once in a swarm of one; in stages; or through the
manager, which answers when everyone has contributed (R514). -/
def State.barrierOn (s : State) (p step k : Nat) : State × Nat :=
  let own := s.fab.logical.toNat
  if 5 ≤ k then (s, k)
  else if !s.withSwarm p then (s, 5)
  else if inStages s.ranks.length then State.passStages p step 6 s k
  else if s.swarm.role = 3 then
    let l := s.ranks.filter fun m => m != own
    if s.heardAll p step l then (foldS (fun t m => t.sendMarker p m step) s l, 5) else (s, k)
  else (s, if s.heardAll p step [s.swarm.manager] then 5 else k)

/-- The first MARKERs of a member's contribution to a barrier. -/
def State.announce (s : State) (p step : Nat) : State :=
  if !s.withSwarm p then s
  else if inStages s.ranks.length then foldS (fun t m => t.sendMarker p m step) s (s.stageMates 0)
  else if s.swarm.role = 3 then s
  else s.sendMarker p s.swarm.manager step

/-- Contribute to the barrier of the cut in progress. -/
def State.contribute (s : State) (p step : Nat) : State :=
  let (t, k) := (s.announce p step).barrierOn p step 0
  t.setEpoch p { t.epochOf p with contrib := true, stage := k }

/-- Contribute to the drained barrier of a freeze (R571). -/
def State.contributeFreeze (s : State) (p : Nat) : State :=
  let (t, k) := (s.announce p 2).barrierOn p 2 0
  t.setEpoch p { t.epochOf p with fContrib := true, fStage := k }

/-- The drained barrier of a freeze is the one in progress: no cut drains. -/
def Epoch.freezeDrain (e : Epoch) : Bool := e.freezing && !e.frozen && e.step != 1 && e.step != 2

/-- A MARKER of a barrier's step has arrived: it is noted, and the barrier goes on where this member has contributed. -/
def State.hear (s : State) (p step m : Nat) : State :=
  let e := s.epochOf p
  let s1 := s.setEpoch p { e with heard := if e.heard.contains (step, m) then e.heard else e.heard ++ [(step, m)] }
  if step = 2 ∧ e.freezeDrain then
    if e.fContrib then
      let (t, k) := s1.barrierOn p 2 e.fStage
      t.setEpoch p { t.epochOf p with fStage := k }
    else s1
  else if e.contrib ∧ step = e.step + 1 then
    let (t, k) := s1.barrierOn p step e.stage
    t.setEpoch p { t.epochOf p with stage := k }
  else s1

/-- The barrier of the cut in progress is complete; what was heard for it is forgotten. -/
def State.endBarrier (s : State) (p step : Nat) : State :=
  let e := s.epochOf p
  s.setEpoch p { e with contrib := false, stage := 0, heard := e.heard.filter fun h => h.1 != step }

/-- The step, term and sender of a MARKER let it count (R454, R514). -/
def State.markerOk (s : State) (p : Packet) : Bool :=
  s.inRole && decide (s.swarm.term ≤ bits p.arg0.toNat 8 32) && s.swarm.members.contains p.srcLog.toNat

/-- A MARKER of a step is consumed (R413, R514): refused as malformed where its step is reserved; on any class but `CTL`, of a lower
term, or of no member, it is discarded and counted. -/
def consumeMarker (part step : Nat) (p : Packet) (s : State) (k : State → State) : Host.Outcome State Fault Refusal :=
  consume 12 p s fun s =>
    let reserved := !(decide (1 ≤ bits p.arg0.toNat 0 8) && decide (bits p.arg0.toNat 0 8 ≤ 4))
    whenDue ((bits p.arg0.toNat 0 8 == step || reserved) && part == s.owner) <|
    if p.cls ≠ 0 then .next (((s.unpark p).bumpPart s.owner 15 (pktSize p)).bump 44 1)
    else .next (s.checked 0 p fun s =>
      s.sequence p (fun s =>
        if reserved then (s, .refused 3) else
        let s := s.meetTerm p.srcLog.toNat (bits p.arg0.toNat 8 32)
        if !shortOk p then (s, .refused 3)
        else if s.markerOk p then (k s, .done)
        else (s.bump 44 1, .done)) fun s => s.ackPkt p)

end Sys2Proof.Machine
end

