-- ==== Sys2Proof/Machine/Measure.lean ====
section
/-!
DEFINITION. Measurements, their log, and the images in flash (R620, R621, R624-R626).
-/

namespace Sys2Proof.Machine

/-! ### Images (R624, R625) -/

/-- The bytes of the image in a bank: as received, or as shipped. -/
def State.imageBytes (s : State) (bank : Bool) : List Byte :=
  match (s.image bank).data with
  | some d => d
  | none => Config.shippedBytes

/-- The bytes `[off, off + n)` of a list. -/
def slice (bs : List Byte) (off n : Nat) : List Byte := (bs.drop off).take n

/-- The section of kind `k` of an image. -/
def imageSection (bs : List Byte) (k : Nat) : List Byte :=
  (List.range 8).flatMap fun i =>
    let e := leNat (slice bs (0x10 + 16 * i) 16)
    if bits e 64 8 = k then slice bs (4096 + bits e 0 32) (bits e 32 32) else []

/-- The image in a bank verifies, at or above the fuse count (R625). `read` says that flash read back whole. -/
def State.verifies (s : State) (bank read : Bool) : Bool :=
  read && (s.image bank).good && decide (s.mgmt.fuses ≤ (s.image bank).secver)

/-! ### The state of an update (R628) -/

/-- The result with which R630 refuses or holds an update, or 0: a swarm member without maintenance, the brake in the last 60 s
or hold-up, the lock. -/
def State.fwRefusal (s : State) : Nat :=
  let braked := s.power.brakePin || match s.mgmt.brakeAt with
    | some t => decide ((s.now - t).toNat < 6000000000)
    | none => false
  if 1 ≤ s.swarm.role ∧ s.swarm.role ≤ 4 ∧ !s.barB 0x080030 0 then 1
  else if braked || s.mgmt.holdup then 2 else if s.mgmt.lock then 3 else 0

/-- The release that an `UPDATE` report concerns: that of the image staged, on trial, or in effect; 0 while none is verified
(log 95). -/
def State.fwRelease (s : State) (st : Nat) : Nat :=
  if st = 1 ∨ st = 2 then 0
  else (s.image (if 3 ≤ st ∧ st ≤ 5 then !s.mgmt.bank else s.mgmt.bank)).release.toNat

/-- A change of state of an update, with its result: an `UPDATE` report in every partition, and event 10 (R369, R628). -/
def State.setFw (s : State) (st res : Nat) : State :=
  let s1 := ({ s with mgmt := { s.mgmt with fwState := st, fwResult := res } }).mEvent 10 0
  if s1.live then s1.reportAll 7 0 st (bodyF 0x10 0 st + bodyF 0x10 8 res + bodyF 0x18 0 (s1.fwRelease st)) else s1

/-! ### Extension (R620, R621) -/

/-- Extend a measurement register with data, and append the log entry. `kind` is the place of the event kind in
`Config.measKind`. -/
def State.extend (s : State) (reg kind : Nat) (d : List Byte) : State :=
  let dg := Config.shake256 d
  let m := Tab.get (fun _ => 0) s.mgmt.meas reg
  let full := decide (256 ≤ s.mgmt.log.length)
  let e : LogEntry := { reg := reg, kind := (Config.measKind kind).toNat, time := s.now, digest := dg }
  { s with mgmt := { s.mgmt with
      meas := Tab.set (fun _ => 0) s.mgmt.meas reg (Config.shake256 (leBytes 64 m.toNat ++ leBytes 64 dg.toNat)),
      log := if full then s.mgmt.log else s.mgmt.log ++ [e], logOver := s.mgmt.logOver || full } }

/-- The measurement registers are zeroed, and their log with them (log 94). -/
def State.zeroMeasures (s : State) : State := { s with mgmt := { s.mgmt with meas := [], log := [], logOver := false } }

/-- `M1` and `M2`: the image in effect. -/
def State.measureImage (s : State) : State :=
  let b := s.imageBytes s.mgmt.bank
  (s.extend 1 1 (slice b 0 512 ++ [if s.mgmt.bank then 1 else 0])).extend 2 2 (imageSection b 1)

/-- `M3` to `M5`: the sections loaded into the controllers. -/
def State.measureControllers (s : State) : State :=
  let b := s.imageBytes s.mgmt.bank
  ((s.extend 3 3 (imageSection b 2)).extend 4 4 (imageSection b 3 ++ imageSection b 4)).extend 5 5
    (imageSection b 5 ++ imageSection b 6)

/-- `M0` to `M2` at start step 1, and at a whole-module reset. -/
def State.measureBoot (s : State) : State :=
  (s.extend 0 0 (leBytes 64 Config.romDigest.toNat ++ leBytes 64 Config.keyDigest.toNat ++
    leBytes 8 s.mgmt.fuses)).measureImage

/-- The envelope of a descriptor (R592). -/
def envelopeOf (raw : List Byte) : List Byte := slice raw 0x0600 512

/-- `M6` and `M7` for an accepted placement. -/
def State.measurePlacement (s : State) : State :=
  (s.extend 6 6 (envelopeOf s.place.raw)).extend 7 7 s.place.raw

/-- `M7` for the owner key in effect, or for none. -/
def State.measureOwner (s : State) : State := s.extend 7 8 (s.mgmt.owner.getD [])

/-- `M7` for the rollback lock. -/
def State.measureLock (s : State) : State := s.extend 7 9 [if s.mgmt.lock then 1 else 0]

/-- What a whole-module reset measures again (R620). -/
def State.measureAgain (s : State) : State :=
  let s1 := s.zeroMeasures.measureBoot.measureControllers
  let s2 := if s1.fab.placed then s1.measurePlacement else s1
  if s2.mgmt.owner.isSome then s2.measureOwner.measureLock else s2

end Sys2Proof.Machine
end

