-- ==== Sys2Proof/Machine/Epochs.lean ====
section
/-!
DEFINITION. Epochs (R507-R531, R570-R572, R631): boundaries, the drain, the cut and its contexts, the lining copy's end, and the
swarm commit.
-/

namespace Sys2Proof.Machine

/-! ### SYNC_IN and SYNC_OUT (R507, R508, R511, R677) -/

/-- A SYNC_OUT edge falls due at the moment that sync_out selects: 1 each cut, 2 each swarm commit. Edges merge. -/
def State.syncOut (s : State) (moment : Nat) : State :=
  if s.barF 0x060000 32 2 = moment then { s with pins := { s.pins with due := true } } else s

/-- SYNC_OUT_EDGE (R511, R677): a due edge is driven, 1 ms after the one before. -/
def execSyncOutEdge (s : State) : Host.Outcome State Fault Refusal :=
  whenLive s <|
    whenDue (s.pins.due && match s.pins.edgeAt with
      | some t => decide (100000 ≤ (s.now - t).toNat)
      | none => true) <|
      .next (({ s with pins := { s.pins with due := false, edgeAt := some s.now } }).trace 8 0 0 0 0 0)

/-- SYNC_IN_EDGE (R508, R676): the edge is stamped, and requests a boundary of every partition while sync_in is 1. While the main
domain is off, and before a placement has been accepted, it is ignored. -/
def execSyncInEdge (s : State) : Host.Outcome State Fault Refusal :=
  whenStandby s <| if s.live && s.fab.placed then
    let s1 := ({ s with pins := { s.pins with inStamp := some s.now } }).trace 7 0 0 0 0 0
    .next (if s1.barB 0x060000 30 then foldS (fun t p => t.requestBoundary p false) s1 (List.range s1.parts) else s1)
  else .next s

/-! ### Boundaries (R506, R509) -/

/-- This partition's epoch control takes its boundaries: the manager's, or that of a swarm of one. -/
def State.roots (s : State) (p : Nat) : Bool := decide (p < s.parts) && (!(s.inSwarm && s.owner == p) || s.swarm.role == 3)

/-- The epoch control of a partition works: its rails are on and no reset holds it. -/
def State.epochRuns (s : State) (p : Nat) : Bool := s.power.running && !s.inReset p && decide (p < s.parts)

/-- EPOCH_TIMER (R509): no request has arrived by 1.5 *L* after the last cut, and the boundary is forced. -/
def execEpochTimer (part : Nat) (s : State) : Host.Outcome State Fault Refusal :=
  whenFormed (decide (part < 4)) <|
  whenLive s <|
    whenDue (s.roots part && s.epochRuns part && !(s.epochOf part).requested && (s.epochOf part).step == 0 &&
        !(s.epochOf part).taken && s.sinceCut part (s.epochTicks * 3 / 2)) <|
      let s1 := s.requestBoundary part false
      .next (s1.setEpoch part { s1.epochOf part with forced := true })

/-- TAKE_BOUNDARY (R509): a requested boundary is taken once its conditions hold. -/
def execTakeBoundary (part : Nat) (s : State) : Host.Outcome State Fault Refusal :=
  whenFormed (decide (part < 4)) <|
  whenLive s <| whenDue (s.roots part && s.epochRuns part && (s.epochOf part).requested && s.boundaryOpen part) <|
    let e := s.epochOf part
    .next (s.setEpoch part { e with
      taken := true, requested := false, urgent := false, heldCut := e.wasHeld, wasHeld := false })

/-! ### The drain (R512-R514) -/

/-- The drain step reaches a member: intake and engines stop, and an epoch number is given to the cut. -/
def State.beginDrain (s : State) (p n : Nat) : State :=
  let e := s.epochOf p
  let s1 := s.setEpoch p { e with
    taken := false, step := 1, epoch := n, contrib := false, stage := 0, list := [], locList := [], loc := e.committed,
    state := if e.active then 2 else 0, written := false, bytes := 0 }
  ((s1.goOn p).trace 4 p 1 n n s.swarm.term).spreadDrain p

/-- MARKER_DRAIN (R512, R514): from a MARKER, or at the module that takes the boundary. A further MARKER of the step changes
nothing. -/
def execMarkerDrain (part : Nat) (p : Option Packet) (s : State) : Host.Outcome State Fault Refusal :=
  whenFormed (decide (part < 4)) <|
  match p with
  | some q => consumeMarker part 1 q s fun s =>
      let e := s.epochOf part
      let n := (e.committed + 1) / 2 ^ 32 * 2 ^ 32 + q.arg1.toNat
      if e.step = 0 ∧ e.recStep = 0 ∧ n ≠ e.committed then s.beginDrain part n else s
  | none => whenLive s <| whenDue (s.epochOf part).taken <| .next (s.beginDrain part ((s.epochOf part).committed + 1))

/-- The partition of the command or engine that waits for a far access, a held write or a packet. -/
def State.ownerPart (s : State) : Owner → Option Nat
  | .slot c _ => some (s.partOfCell c)
  | .cell c => some (s.partOfCell c)
  | .cmd id => (s.cmd id).map Cmd.part
  | .piece id _ => (s.cmd id).map Cmd.part
  | .fetch id => (s.cmd id).map Cmd.part
  | .fdesc id => (s.fdesc id).map FDesc.part
  | .coll _ => some s.owner
  | _ => none

/-- Every engine of a partition is at its clean point (R512, R513): what it has issued is performed and tile moves are
complete, and for the fabric-owner partition every packet is acknowledged and every READ answered. -/
def State.drained (s : State) (p : Nat) : Bool :=
  s.far.all (fun r => r.part != p || (match r.owner with | .lining _ _ => true | _ => false)) &&
    s.sigs.all (fun g => g.part != p) &&
    s.link.bis.all (fun b => match b.what with
      | .sig g => g.part != p || g.eng == .remote
      | .write o _ _ _ => s.ownerPart o != some p
      | .read o _ _ _ _ _ => s.ownerPart o != some p
      | _ => true) &&
    s.cells.all (fun e => s.partOfCell e.1 != p || e.2.slots.isEmpty) &&
    (p != s.owner || (s.fab.reads.isEmpty && s.fab.rtx.all fun r => decide (612 < r.eng)))

/-- The activation point of an update is due: it is armed, and no condition of R630 holds it (R630, R631). -/
def State.fwDue (s : State) : Bool := s.mgmt.fwState == 4 && s.fwRefusal == 0

/-- The activation point (R631): every other partition is held, and the controllers switch. -/
def State.fwActivating (s : State) : State :=
  let s1 := s.setFw 5 s.mgmt.fwResult
  foldS (fun t p => if p = t.owner then t else
    (t.setEpoch p { t.epochOf p with fwPoint := true }).goOn p) s1 (List.range s1.parts)

/-- DRAIN_COMPLETE (R512, R571, R631): the member contributes to the drained barrier of its cut or its freeze, or has
reached the activation point of an update that drains it locally. -/
def execDrainComplete (part : Nat) (s : State) : Host.Outcome State Fault Refusal :=
  whenFormed (decide (part < 4)) <|
  whenLive s <| whenDue (s.epochRuns part && s.drained part) <|
    let e := s.epochOf part
    if e.step = 1 then whenDue (!e.contrib) <| .next (s.contribute part 2)
    else if e.freezeDrain then whenDue (!e.fContrib) <| .next (s.contributeFreeze part)
    else whenDue (part == s.owner && e.fwPoint && s.fwDue) <| .next s.fwActivating

/-! ### The cut (R512, R513) -/

/-- The keys of the set-up image of a partition: its rings and report ring, power and save registers, its far windows, and for
the fabric-owner partition its teams and the epoch control. -/
def State.setupKeys (s : State) (p : Nat) : List Nat :=
  let own := (regRowsHif.filter fun r => r.writer == .own && r.base != 0x001008).flatMap fun r =>
    (List.range r.count).map fun i => p * 2 ^ 24 + r.base + i * r.stride
  let wins := ((List.range 8).filter fun w => s.barF (0x021008 + 16 * w) 6 2 == p).flatMap fun w =>
    [0x021000 + 16 * w, 0x021008 + 16 * w]
  let teams := if p = s.owner then (List.range 16).map teamKey ++ [0x060000] else []
  own ++ [0x050100 + 8 * p] ++ wins ++ teams

/-- The keys of the set-up image that a spare does not adopt (R536): the partition's host windows, and its save area. -/
def State.placeKeys (s : State) (p : Nat) : List Nat :=
  (s.winsOf p).flatMap (fun w => [0x011000 + 16 * w, 0x011008 + 16 * w]) ++ [0x060300 + 8 * p]

/-- The part of a table whose keys satisfy a condition. -/
def Tab.part {α : Type} (t : Tab α) (f : Nat → Bool) : Tab α := t.filter fun e => f e.1

/-- Replace the part of a table whose keys satisfy a condition by that of another. -/
def Tab.mix {α : Type} [DecidableEq α] (d : Nat → α) (cur old : Tab α) (f : Nat → Bool) : Tab α :=
  Tab.setAll d (Tab.part cur fun k => !f k) (Tab.part old f)

/-- The engines of a partition, by their numbers (R553). -/
def State.enginesOf (s : State) (p : Nat) : List Nat :=
  s.cellsOf p ++ ((List.range s.combsPer).map fun i => 512 + p * s.combsPer + i) ++
    ((s.devsOf p).map fun d => 576 + d) ++ (if p = s.owner then [608] else []) ++
    (List.range s.procs).map fun k => 609 + p * s.procs + k

/-- A wait is made by a partition. -/
def State.waitPart (s : State) (w : WaitEntry) : Nat :=
  match w.who with
  | .cell n => s.partOfCell n
  | .command id _ => match s.cmd id with | some c => c.part | none => 4
  | .collective _ => s.owner

/-- What a cut captures of a partition (R513). -/
def State.capture (s : State) (p : Nat) : Ctx :=
  let e := s.epochOf p
  let keys := s.setupKeys p ++ s.placeKeys p
  let engines := s.enginesOf p
  let mine := p == s.owner
  { epoch := e.epoch, cells := Tab.part s.cells fun n => s.partOfCell n == p,
    sync := Tab.part s.sync fun n => s.partOfSync n == p, waits := s.waits.filter fun w => s.waitPart w == p,
    rings := Tab.part s.rings fun k => k / 64 == p, cmds := s.cmds.filter fun c => c.part == p,
    fdescs := s.fdescs.filter fun d => d.part == p, frgs := Tab.part s.frgs fun d => s.partOfDev d == p,
    coll := if mine then s.coll else CollEng.reset, tx := if mine then s.fab.tx else [], rx := if mine then s.fab.rx else [],
    issued := Tab.part s.fab.issued fun k => engines.contains k, acked := Tab.part s.fab.acked fun k => engines.contains k,
    bar := Tab.part s.bar fun k => keys.contains k, intakeNo := e.intakeNo, intakePos := e.intakePos,
    effectPos := e.effectPos, effects := e.effects.length, at_ := s.now }

/-- The cut of a member (R512): the maps swap, and contexts and set-up image go to the context area of the epoch's parity. The
spec does not lay the area out: the bytes written are a free number (log 80). -/
def State.cut (s : State) (p : Nat) : State :=
  let e := s.epochOf p
  let c := s.capture p
  let s1 := (s.endBarrier p 2).trace 4 p 2 e.epoch e.epoch s.swarm.term
  let s2 := if s1.linOn p then s1.freezeMaps p else s1
  let (n, s3) := if s2.linOn p then s2.fresh else (0, s2)
  let e1 := s3.epochOf p
  let s4 := s3.setEpoch p { e1 with
    step := 2, lastCut := some s.now, bytes := n, ctx := Tab.set (fun _ => none) e1.ctx (e.epoch % 2) (some c) }
  let s5 := if n = 0 then s4 else s4.bump 58 n
  let s6 := if p = s5.owner ∧ s5.fwDue then s5.fwActivating else s5
  s6.syncOut 1

/-! ### The freeze capture (R571, R654) -/

/-- The bytes of a context area (R523). -/
def ctxBytes : Nat := 80 * 2 ^ 20

/-- The bytes of a dump: header, contexts, and cell memory where it is asked for. -/
def State.dumpBytes (s : State) (p : Nat) : Nat :=
  4096 + ctxBytes + if s.barB 0x07B000 2 then (s.cellsOf p).length * cellBytes else 0

/-- Where the dump area lies, if it lies wholly in the addressable close memory of partition `p`, or in an active host or far
window with use_data (R653). -/
def State.dumpHome (s : State) (p : Nat) : Option Home :=
  match s.reach p .data true false (s.barF 0x07B008 12 52 * 4096) (s.dumpBytes p) with
  | .ok (.loc o) => if isClose o then some (.loc o) else none
  | .ok (.far o c) => some (.far o c)
  | .ok (.host h) => some (.host h)
  | _ => none

/-- The header of a dump: its items in the order of R654, eight bytes each (log 98). -/
def State.dumpHeader (s : State) (p : Nat) : List Byte :=
  leBytes 8 Config.serial.toNat ++ leBytes 8 s.dbg.frNumber ++ leBytes 8 s.now.toNat ++ leBytes 8 ((s.epochOf p).committed + 1) ++
    leBytes 8 (s.barF 0x07B000 2 1) ++ leBytes 8 (s.dumpBytes p) ++ leBytes 4048 0

/-- The memory of a logical cell for a dump: of one that is switched out, what its save area holds (R654). -/
def State.cellDump (s : State) (n : Nat) : List Byte :=
  if !s.isAway n then s.memBytes (cellMem n) cellBytes else s.saveRead n 0 cellBytes

/-- The bytes of a dump. How contexts are laid out is not given, so that part is free values (log 80). -/
def State.dump (s : State) (p : Nat) : List Byte × State :=
  let ctx := (List.range ctxBytes).map fun i => BitVec.ofNat 8 (Config.freeValue (s.freeCtr + i))
  let mem := if s.barB 0x07B000 2 then (s.cellsOf p).flatMap s.cellDump else []
  (s.dumpHeader p ++ ctx ++ mem, { s with freeCtr := s.freeCtr + ctxBytes })

/-- Write the dump: no dirty bit is set (R655). -/
def State.writeDump (s : State) (p : Nat) : State :=
  match s.dumpHome p with
  | none => s
  | some h =>
    let (bs, s1) := s.dump p
    match h with
    | .loc o => s1.pokeMem o bs
    | h => s1.deliver (.log p) ctlKey p h bs

/-- The freeze capture (R571, R654): the dump is written to the dump area; the member holds at its cut. -/
def State.freezeCapture (s : State) (p : Nat) : State :=
  let e := s.epochOf p
  let s1 := s.setEpoch p { e with frozen := true, fContrib := false, fStage := 0, heard := e.heard.filter fun h => h.1 != 2 }
  (s1.writeDump p).trace 5 p 1 s1.dbg.frNumber (e.committed + 1) 0

/-- The drained barrier may be complete: the member takes its cut, or its freeze capture. -/
def State.afterDrained (s : State) (p : Nat) : State :=
  let e := s.epochOf p
  if e.step = 1 ∧ e.contrib ∧ e.stage = 5 then s.cut p
  else if e.freezeDrain ∧ e.fContrib ∧ e.fStage = 5 then s.freezeCapture p
  else s

/-- MARKER_DRAINED (R512, R514, R571): a MARKER of the barrier arrives, or the barrier is complete at the member. -/
def execMarkerDrained (part : Nat) (p : Option Packet) (s : State) : Host.Outcome State Fault Refusal :=
  whenFormed (decide (part < 4)) <|
  match p with
  | some q => consumeMarker part 2 q s fun s => (s.hear part 2 q.srcLog.toNat).afterDrained part
  | none =>
    let e := s.epochOf part
    whenLive s <| whenDue ((e.step == 1 && e.contrib && e.stage == 5) || (e.freezeDrain && e.fContrib && e.fStage == 5)) <|
      .next (s.afterDrained part)

/-- CONTEXT_WRITTEN (R512): the member contributes to the captured barrier, after the activation of an update that has
reached its point here (R631). -/
def execContextWritten (part : Nat) (s : State) : Host.Outcome State Fault Refusal :=
  whenFormed (decide (part < 4)) <|
  whenLive s <|
    whenDue (s.epochRuns part && (s.epochOf part).step == 2 && !(s.epochOf part).contrib &&
        !(part == s.owner && s.mgmt.fwState == 5)) <|
      .next (s.contribute part 3)

/-- Engines and intake resume, and the lining copy starts (R512). -/
def State.afterCaptured (s : State) (p : Nat) : State :=
  let e := s.epochOf p
  if e.step = 2 ∧ e.contrib ∧ e.stage = 5 then
    let s1 := (s.endBarrier p 3).trace 4 p 3 e.epoch e.epoch s.swarm.term
    (s1.setEpoch p { s1.epochOf p with step := 3, state := if e.active then 3 else 0 }).goOn p
  else s

/-- MARKER_CAPTURED (R512, R514). -/
def execMarkerCaptured (part : Nat) (p : Option Packet) (s : State) : Host.Outcome State Fault Refusal :=
  whenFormed (decide (part < 4)) <|
  match p with
  | some q => consumeMarker part 3 q s fun s => (s.hear part 3 q.srcLog.toNat).afterCaptured part
  | none =>
    let e := s.epochOf part
    whenLive s <| whenDue (e.step == 2 && e.contrib && e.stage == 5) <| .next (s.afterCaptured part)

/-! ### The commit (R518, R519, R524) -/

/-- The context of the epoch that is being cut or copied. -/
def Epoch.cutCtx (e : Epoch) : Option Ctx := Tab.get (fun _ => none) e.ctx (e.epoch % 2)

/-- The 4 KiB of a header (R524). -/
def State.headerBytes (s : State) (p : Nat) : List Byte :=
  let e := s.epochOf p
  let c := e.cutCtx
  let f := fun (g : Ctx → Nat) => (c.map g).getD 0
  let bs := leBytes 8 (1 + s.arev * 2 ^ 16 + p * 2 ^ 32 + s.boot.modeNow * 2 ^ 34) ++ leBytes 8 Config.serial.toNat ++
    leBytes 8 e.epoch ++ leBytes 8 e.applied ++ leBytes 8 e.list.length ++ leBytes 8 s.linQ ++ leBytes 8 (f Ctx.intakeNo) ++
    leBytes 8 (f Ctx.intakePos + f Ctx.effectPos * 2 ^ 32) ++ leBytes 8 (f fun c => c.at_.toNat)
  let all := bs ++ List.replicate (0xFF8 - bs.length) 0
  all ++ leBytes 8 (crc64 all)

/-- Write the header of the epoch's parity. -/
def State.writeHeader (s : State) (p : Nat) : State :=
  s.linWrite (.lining p 96) p (4096 * ((s.epochOf p).epoch % 2)) (s.headerBytes p)

/-- Slot, list and header writes of a partition are outstanding. -/
def State.liningBusy (s : State) (p : Nat) : Bool :=
  s.far.any fun r => match r.owner with
    | .lining q _ => q == p
    | _ => false

/-- LOCAL_COMMIT (R519): every frozen bit is clear and every write of the copy performed. The header is written first; once it
has been performed, the row is taken again and the member contributes to the committed barrier. -/
def execLocalCommit (part : Nat) (s : State) : Host.Outcome State Fault Refusal :=
  whenFormed (decide (part < 4)) <|
  whenLive s <|
    let e := s.epochOf part
    whenDue (s.epochRuns part && e.step == 3 && !e.contrib && !s.liningBusy part && (!s.linOn part || s.mapsClear part)) <|
      if s.linOn part && !e.written then
        let s1 := s.writeHeader part
        .next (s1.setEpoch part { s1.epochOf part with written := true })
      else
        .next ((s.setEpoch part { e with
          loc := e.epoch, locList := e.list, state := if e.active then 4 else 0 }).contribute part 4)

/-- Apply a list to the maps (R519): a nonzero entry flips the side and sets the present bit; a zero entry clears it. -/
def applyList (maps : Tab Bool × Tab Bool) (l : List (Nat × Bool)) : Tab Bool × Tab Bool :=
  l.foldl (fun m k =>
    if k.2 then (m.1, Tab.set (fun _ => false) m.2 k.1 false)
    else (Tab.set (fun _ => false) m.1 k.1 (!Tab.get (fun _ => false) m.1 k.1), Tab.set (fun _ => false) m.2 k.1 true)) maps

/-- A byte of a map, as the lining holds it (R523). -/
def mapByte (t : Tab Bool) (i : Nat) : Byte :=
  BitVec.ofNat 8 ((List.range 8).foldl (fun n j => n + bitIf (Tab.get (fun _ => false) t (8 * i + j)) j) 0)

/-- Apply the list of the last epoch committed locally, in the module and in the lining. -/
def State.applyLoc (s : State) (p : Nat) : State :=
  let e := s.epochOf p
  let (side, present) := applyList (e.side, e.present) e.locList
  let s1 := s.setEpoch p { e with side := side, present := present, applied := e.loc, locList := [] }
  foldS (fun t i =>
    (t.linWrite (.lining p 96) p (t.linOffset .side + i) [mapByte side i]).linWrite (.lining p 96) p
      (t.linOffset .present + i) [mapByte present i]) s1 ((e.locList.map fun k => k.1 / 8).eraseDups)

/-- The logs are released up to the cut (R530). -/
def Epoch.release (e : Epoch) (c : Ctx) : Epoch :=
  { e with intake := e.intake.filter (fun r => decide (c.intakeNo ≤ r.intake)), effects := e.effects.drop c.effects }

/-- The epoch is swarm-committed at a member (R519). -/
def State.afterCommitted (s : State) (p : Nat) : State :=
  let e := s.epochOf p
  if e.step = 3 ∧ e.contrib ∧ e.stage = 5 then
    let s1 := ((s.endBarrier p 4).trace 4 p 4 e.epoch e.epoch s.swarm.term).bump 56 1
    let s2 := if s1.linOn p then (s1.applyLoc p).writeHeader p else s1
    let dt := match e.lastCut with | some t => (s2.now - t).toNat | none => 0
    let e1 := s2.epochOf p
    let e2 := match e1.cutCtx with | some c => e1.release c | none => e1
    let s3 := s2.setEpoch p { e2 with
      committed := e.epoch, applied := e.epoch, step := 0, state := if e.active then 1 else 0, first := false, list := [],
      commitMs := dt / 100000, forced := false, heldCut := false }
    let body := bodyF 0x10 0 (e.epoch % 2 ^ 64) + bodyF 0x18 0 (e.bytes % 2 ^ 64) + bodyF 0x20 0 ((dt / 100) % 2 ^ 32) +
      bodyF 0x20 32 ((if e.heldCut then 1 else 0) + if e.forced then 2 else 0)
    (s3.report p 8 0 0 body).syncOut 2
  else s

/-- MARKER_COMMITTED (R514, R519, R530). -/
def execMarkerCommitted (part : Nat) (p : Option Packet) (s : State) : Host.Outcome State Fault Refusal :=
  whenFormed (decide (part < 4)) <|
  match p with
  | some q => consumeMarker part 4 q s fun s => (s.hear part 4 q.srcLog.toNat).afterCommitted part
  | none =>
    let e := s.epochOf part
    whenLive s <| whenDue (e.step == 3 && e.contrib && e.stage == 5) <| .next (s.afterCommitted part)

end Sys2Proof.Machine
end

