-- ==== Sys2Proof/Machine/Intake.lean ====
section
/-!
DEFINITION. Doorbells, report lines, and the intake of ring entries (R29, R335-R354, R471, R512, R526, R527, R610).
-/

namespace Sys2Proof.Machine

/-! ### Watched lines (R343, R347) -/

/-- The report line's number among the watched lines of a partition, after its four doorbell lines. -/
def repWatch : Nat := 4

/-- A line is watched: a ring of it, or the report ring, is in effect. -/
def State.watched (s : State) (p l : Nat) : Bool :=
  if l = repWatch then (s.rep p).active
  else (List.range 16).any fun j => (s.ring p (16 * l + j)).active

/-- The address of a watched line. -/
def State.watchAddr (s : State) (p l : Nat) : Nat := if l = repWatch then s.repLine p else s.dbAddr p (16 * l)

/-- A watched line lies in host memory. -/
def State.hostWatch (s : State) (p l : Nat) : Bool := s.watched p l && s.watchAddr p l / 2 ^ 60 == 3

/-- A re-read of a watched line begins; an invalidation during one asks for one more. -/
def State.reread (s : State) (p l : Nat) (inval : Bool) : State :=
  let w := s.watch p l
  s.setWatch p l (if w.out then { w with again := w.again || inval } else { w with out := true })

/-- Data of a line come. With its first slot a re-read returns, and one more follows where an invalidation arrived meanwhile. -/
def State.returned (s : State) (p l : Nat) (first : Bool) (data : BitVec 512) : State :=
  let w := s.watch p l
  s.setWatch p l (if first then { last := data, out := w.again, again := false } else { w with last := data })

/-- The read of a watched line has failed (R228): the line keeps its value, and is read again when its turn comes. -/
def State.lineFailed (s : State) (p l : Nat) (f : ReadFail) : State :=
  (s.returned p l true (s.watch p l).last).readFailed p (s.watchAddr p l % 2 ^ 60) f

/-- Every watched line of every partition. -/
def State.watchList (s : State) : List (Nat × Nat) :=
  (List.range s.parts).flatMap fun p => (List.range 5).map fun l => (p, l)

/-- WATCHED_LINE_INVALIDATION (R343). -/
def execWatchedLineInvalidation (part line : Nat) (s : State) : Host.Outcome State Fault Refusal :=
  whenFormed (decide (part < 4)) <|
  whenLive s <| whenDue (decide (part < s.parts) && decide (line < 5) && s.hostWatch part line) <|
    .next (s.reread part line true)

/-- WATCHED_LINE_POLL (R343): every watched line in host memory. -/
def execWatchedLinePoll (s : State) : Host.Outcome State Fault Refusal :=
  whenLive s <| .next (foldS (fun t e => t.reread e.1 e.2 false) s (s.watchList.filter fun e => s.hostWatch e.1 e.2))

/-- FAR_LINE_POLL (R347): the doorbell and report lines of a partition that lie in far windows. -/
def execFarLinePoll (part : Nat) (s : State) : Host.Outcome State Fault Refusal :=
  whenFormed (decide (part < 4)) <|
  whenLive s <| whenDue (decide (part < s.parts)) <|
    .next (foldS (fun t l => t.reread part l false) s
      ((List.range 5).filter fun l => s.watched part l && s.watchAddr part l / 2 ^ 60 == 2))

/-- The data of a line arrives: the host link is up, or the line is in the far tier behind it (R319). -/
def State.lineReadable (s : State) (p l : Nat) : Bool := s.watched p l && s.link.up

/-! ### Slots (R342, R345) -/

/-- The distance from one place of a ring of 2^k entries to another, passes included. -/
def ahead (k head : Nat) (hw : Bool) (tail : Nat) (tw : Bool) : Nat :=
  let at_ := fun i (w : Bool) => i + if w then 2 ^ k else 0
  (at_ tail tw + 2 ^ (k + 1) - at_ head hw) % 2 ^ (k + 1)

/-- log2 of the entries of a ring. -/
def State.ringLog (s : State) (p i : Nat) : Nat := s.barF (regKey p (0x014008 + 0x40 * i)) 1 5

/-- A slot value breaks no condition of R345. -/
def State.slotGood (s : State) (p i v : Nat) : Bool :=
  let k := s.ringLog p i
  let r := s.ring p i
  slotOk k v && decide (ahead k r.head r.headWrap (v % 2 ^ 16) (bit v 16) ≤ 2 ^ k)

/-- A slot value is taken: its tail, or one `ESCALATE` report with reason 6 until a valid value is read (R345). -/
def State.takeSlot (s : State) (p i v : Nat) : State :=
  let r := s.ring p i
  if s.slotGood p i v then s.setRing p i { r with tail := v % 2 ^ 16, tailWrap := bit v 16, bad := false }
  else if r.bad then s
  else (s.setRing p i { r with bad := true }).escalate p 6 i v

/-- DOORBELL_UPDATE (R228, R343, R345, R347, R487, R610): a slot as its line was read. A change of it is contact by the host. -/
def execDoorbellUpdate (part ring : Nat) (slot : SlotRead) (s : State) : Host.Outcome State Fault Refusal :=
  whenFormed (decide (part < 4) && decide (ring < 64)) <|
  whenLive s <| whenDue (s.hasFn part && (s.ring part ring).active && s.lineReadable part (ring / 16)) <|
    whenAwake s part <|
    let w := s.watch part (ring / 16)
    match slot.fail with
    | some f => whenDue (s.watchAddr part (ring / 16) / 2 ^ 60 == 2) <| .next (s.lineFailed part (ring / 16) f)
    | none =>
      let v := slot.value.toNat
      let old := bits w.last.toNat (32 * (ring % 16)) 32
      let s1 := if old = v then s else s.hostContact
      let s2 := s1.returned part (ring / 16) slot.first (putSlot w.last (ring % 16) v)
      let s3 := if slot.first then s2.countRead part (s.watchAddr part (ring / 16)) 64 else s2
      .next (s3.takeSlot part ring v)

/-- A report line breaks no condition of R340. -/
def State.headGood (s : State) (p v : Nat) : Bool :=
  let k := s.barF (regKey p 0x010040) 1 5
  let q := s.rep p
  slotOk k v && decide (ahead k (v % 2 ^ 16) (bit v 16) q.tail q.wrap ≤ 2 ^ k)

/-- REPORT_LINE_UPDATE (R228, R340, R343, R368): a valid head frees report slots, and reports that wait are written. -/
def execReportLineUpdate (part : Nat) (line : LineRead) (s : State) : Host.Outcome State Fault Refusal :=
  whenFormed (decide (part < 4)) <|
  whenLive s <| whenDue (s.hasFn part && s.lineReadable part repWatch) <|
    match line.fail with
    | some f => whenDue (s.watchAddr part repWatch / 2 ^ 60 == 2) <| .next (s.lineFailed part repWatch f)
    | none =>
    let s1 := (s.returned part repWatch true line.line).countRead part (s.watchAddr part repWatch) 64
    let v := line.line.toNat
    let q := s1.rep part
    .next (if s.headGood part v then
        (s1.setRep part { q with head := v % 2 ^ 16, headWrap := bit v 16, bad := false }).flushReports part
      else if q.bad then s1
      else (s1.setRep part { q with bad := true }).escalate part 9 part (v % 2 ^ 32))

/-! ### Intake (R349-R351, R354, R526, R527) -/

/-- A ring has an entry that intake may take: one below its tail whose place no earlier command holds (R354). -/
def State.unread (s : State) (p i : Nat) : Bool :=
  let r := s.ring p i
  r.active && !(r.rd == r.tail && r.rdWrap == r.tailWrap) &&
    !s.cmds.any fun c => c.part == p && c.ring == i && c.entry == r.rd

/-- The rings of a command processor, by number. -/
def State.ringsOf (s : State) (p k : Nat) : List Nat := (List.range 64).filter fun i => s.procOf p i == k

/-- The rings of a command processor with entries below their tails. -/
def State.behindTail (s : State) (p k : Nat) : List Nat :=
  (s.ringsOf p k).filter fun i => (s.ring p i).active && !((s.ring p i).rd == (s.ring p i).tail && (s.ring p i).rdWrap == (s.ring p i).tailWrap)

/-- No changed ring of a command processor has unread entries any more: what changes next is taken from the lowest ring on (R349). -/
def State.endSweep (s : State) (p k : Nat) : State :=
  if (s.behindTail p k).isEmpty then s.setDrip k { s.drip k with turn := 0, got := 0 } else s

/-- The ring that a command processor reads next (R349): up to 16 entries of a ring in its turn, then the next ring in
ascending order. -/
def State.nextRing (s : State) (p k : Nat) : Option Nat :=
  let q := s.drip k
  let can := (s.ringsOf p k).filter fun i => s.unread p i
  if q.got < 16 ∧ can.contains q.turn then some q.turn
  else match can.find? fun i => decide (q.turn < i) with
    | some i => some i
    | none => can.head?

/-- The drip queue has a place (R350). -/
def Drip.room (q : Drip) : Bool := decide (q.overflow.length < 4096)

/-- An item enters a drip queue: a free stage, or the overflow ring (R350). -/
def Drip.push (q : Drip) (id : Nat) : Drip :=
  if q.stages.length < 16 ∧ q.overflow = [] then { q with stages := q.stages ++ [id] }
  else { q with overflow := q.overflow ++ [id] }

/-- Count an entry read from a ring in the present turn. -/
def Drip.took (q : Drip) (i : Nat) : Drip :=
  { q with turn := i, got := if q.turn = i ∧ q.got < 16 then q.got + 1 else 1 }

/-- Intake goes on in a partition: it serves, the reference is present, no off order is under way, and no cut, freeze or
full log holds it; a replay takes in what the log holds (R29, R471, R512, R530, R538). -/
def State.intakes (s : State) (p : Nat) : Bool :=
  let e := s.epochOf p
  s.serving p && s.boot.refOk && !s.boot.oscHeld && !s.power.draining && !e.stopped && (e.recStep == 0 || e.recStep == 6) &&
    (!(s.linOn p && decide (intakeCap ≤ e.intake.length)) || (e.recStep == 6 && !e.replay.isEmpty))

/-- The 256 bytes of an intake record (R527). -/
def intakeBytes (r : IntakeRec) : List Byte :=
  let bs := leBytes 128 r.desc.toNat ++ leBytes 8 r.intake ++
    leBytes 8 (r.entry + r.ring * 2 ^ 16 + if r.wrap then 2 ^ 22 else 0) ++ leBytes 8 r.epoch ++ leBytes 96 0
  bs ++ leBytes 8 (crc32c bs)

/-- Append an intake record (R526, R527, R530). -/
def State.logIntake (s : State) (p : Nat) (r : IntakeRec) : State :=
  let e := s.epochOf p
  let s1 := s.linWrite (.log p) p (s.linOffset .intake + 256 * e.intakePos) (intakeBytes r)
  let s2 := s1.setEpoch p { e with
    intake := e.intake ++ [r], intakePos := if e.intakePos + 1 = intakeCap then 0 else e.intakePos + 1,
    intakeNo := r.intake + 1 }
  if intakeCap * 3 ≤ (e.intake.length + 1) * 4 then s2.requestBoundary p true else s2

/-- A command as it is taken in (R349). -/
def newCmd (s : State) (p i : Nat) (r : IntakeRec) : Cmd :=
  { id := s.nextId, part := p, ring := i, entry := r.entry, wrap := r.wrap,
    prio := s.barF (regKey p (0x014008 + 0x40 * i)) 6 2, seq := s.nextId, desc := r.desc, intake := r.intake,
    phase := .queued, status := 0, claimed := 0, pieces := [], fetch := none, performed := false, loaded := false, signalled := false,
    fault := none, hwFail := false, hwLost := false, detail := 0, opp := 0, t0 := 0, snap := [], ends := [], sel := 0, latch := false,
    logged := false, extra := 0, stamp := s.farTag, order := 0 }

/-- Put a command into the drip queue of its ring. -/
def State.letIn (s : State) (c : Cmd) : State :=
  let k := s.procOf c.part c.ring
  ({ s with cmds := s.cmds ++ [c], nextId := s.nextId + 1 }).setDrip k (((s.drip k).push c.id).took c.ring)

/-- The entry and pass after the one just read. -/
def State.advanceRead (s : State) (p i : Nat) : State :=
  let r := s.ring p i
  let (e, w) := s.nextEntry p i r.rd r.rdWrap
  (s.setRing p i { r with rd := e, rdWrap := w }).endSweep p (s.procOf p i)

/-- Take in the entry at a ring's reading place. One that is read again has its intake record already (R351, R526). -/
def State.takeIn (s : State) (p i : Nat) (desc : BitVec 1024) : State :=
  let r := s.ring p i
  let e := s.epochOf p
  match r.relog.find? fun q => q.entry == r.rd && q.wrap == r.rdWrap && q.desc == desc && q.epoch == e.epoch && s.linOn p with
  | some q => ((s.setRing p i { r with relog := r.relog.erase q }).letIn (newCmd s p i q)).advanceRead p i
  | none =>
  let rec_ : IntakeRec :=
    { intake := e.intakeNo, ring := i, entry := r.rd, wrap := r.rdWrap, epoch := e.epoch, desc := desc }
  let s1 := if s.linOn p then s.logIntake p rec_ else s
  (s1.letIn (newCmd s1 p i rec_)).advanceRead p i

/-- Take in the next command of the intake log in a replay (R526, R538). -/
def State.takeLogged (s : State) (p : Nat) (r : IntakeRec) (rest : List IntakeRec) : State :=
  let s1 := s.setEpoch p { s.epochOf p with replay := rest }
  let s2 := s1.letIn (newCmd s1 p r.ring r)
  let (e, w) := s2.nextEntry p r.ring r.entry r.wrap
  s2.setRing p r.ring { s2.ring p r.ring with rd := e, rdWrap := w }

/-- The address of the entry that a ring reads next (R342). -/
def State.entryAddr (s : State) (p i : Nat) : Nat :=
  s.barF (regKey p (0x014000 + 0x40 * i)) 12 52 * 4096 + 128 * (s.ring p i).rd

/-- ENTRY_INTAKE (R29, R39, R228, R349, R350, R354, R471, R526): the data of the entry that the command processor has requested
arrives, and the entry is copied into the drip queue; one whose read from a far window fails stays unread. In a replay, the entries come
from the intake log in its order. -/
def execEntryIntake (part ring : Nat) (read : EntryRead) (s : State) : Host.Outcome State Fault Refusal :=
  whenFormed (decide (part < 4) && decide (ring < 64)) <|
  whenLive s <| whenDue (s.hasFn part && s.intakes part && (s.drip (s.procOf part ring)).room) <|
    let e := s.epochOf part
    match e.recStep, e.replay with
    | 6, r :: rest => whenDue (r.ring == ring && r.desc == read.desc && read.fail.isNone) <| .next (s.takeLogged part r rest)
    | _, _ => whenDue (s.nextRing part (s.procOf part ring) == some ring && s.link.up) <|
      let a := s.entryAddr part ring
      let t := s.sendFar
      let t1 := { t with farTurn := (part + 1) % 4 }
      match read.fail with
      | some f => whenDue (a / 2 ^ 60 == 2) <| .next (t1.readFailed part (a % 2 ^ 60) f)
      | none => .next ((t1.countRead part a 128).takeIn part ring read.desc)

/-- The commands of a ring that have not started (R351). -/
def State.unstarted (s : State) (p i : Nat) : List Cmd :=
  s.cmds.filter fun c => c.part == p && c.ring == i && c.waiting

/-- A ring is read again from its head: its commands that have not started are discarded, parked ones too (log 72). -/
def State.rereadRing (s : State) (p i : Nat) : State :=
  let gone := (s.unstarted p i).map Cmd.id
  let r := s.ring p i
  let s1 := { s with
    cmds := s.cmds.filter fun c => !gone.contains c.id,
    waits := s.waits.filter fun w => match w.who with
      | .command id _ => !gone.contains id
      | _ => true }
  let again := (s.unstarted p i).map fun c =>
    { intake := c.intake, ring := i, entry := c.entry, wrap := c.wrap, epoch := (s.epochOf p).epoch, desc := c.desc : IntakeRec }
  s1.setRing p i { r with rd := r.head, rdWrap := r.headWrap, relog := if s.linOn p then again else [] }

/-- DRIP_POINTER_MISMATCH (R351): the drip queue is emptied, and each affected ring is read again from its head. -/
def execDripPointerMismatch (cp : Nat) (s : State) : Host.Outcome State Fault Refusal :=
  whenFormed (decide (cp < 4)) <|
  whenLive s <|
    let p := cp / s.procs
    let q := s.drip cp
    let ids := q.stages ++ q.overflow
    let rings := ((s.cmds.filter fun c => ids.contains c.id).map Cmd.ring).eraseDups
    let s1 := s.setDrip cp { q with stages := [], overflow := [] }
    .next ((foldS (fun t i => t.rereadRing p i) s1 rings).escalate p 7 cp 0)

/-- HEAD_LINE_WRITE (R353): head and head_wrap go to the line that ends the completion area. -/
def execHeadLineWrite (part ring : Nat) (s : State) : Host.Outcome State Fault Refusal :=
  whenFormed (decide (part < 4) && decide (ring < 64)) <|
  whenLive s <| whenDue (s.hasFn part && (s.ring part ring).lineDue) <|
    let r := s.ring part ring
    let s1 := s.setRing part ring { r with lineDue := false }
    .next (s1.ringWrite .none part (s.cplBase part ring + 32 * 2 ^ s.ringLog part ring)
      (leBytes 4 (r.head + if r.headWrap then 2 ^ 16 else 0)))

end Sys2Proof.Machine
end

