-- ==== Sys2Proof/Machine/Recovery.lean ====
section
/-!
DEFINITION. Repair and recovery (R503-R506, R531-R543): lost granules rebuilt in place, the return of a swarm to its committed
epoch, and the replay.
-/

/-- Log 81: what the context area of another module's lining holds (R512, R513), by the model's counter. -/
opaque Sys2Proof.Config.memberCtx : Nat → Sys2Proof.Machine.Ctx

namespace Sys2Proof.Machine

/-! ### Generation tags (R553, R554) -/

/-- The last advance of an engine's tag. -/
def State.genTime (s : State) (e : Nat) : Option Word := Tab.get (fun _ => none) s.resets.genAt e

/-- The tags of these engines may advance: 4 µs have passed since each last did. -/
def State.gensFree (s : State) (l : List Nat) : Bool :=
  l.all fun e => match s.genTime e with
    | some t => decide (400 ≤ (s.now - t).toNat)
    | none => true

/-- Advance the generation tags of engines; their completion counts start equal (R553, R556). -/
def State.advanceGens (s : State) (l : List Nat) : State :=
  { s with
    resets := { s.resets with
      gens := l.foldl (fun t e => Tab.set (fun _ => 0) t e (s.gen e + 1)) s.resets.gens,
      genAt := l.foldl (fun t e => Tab.set (fun _ => none) t e (some s.now)) s.resets.genAt },
    fab := { s.fab with
      issued := l.foldl (fun t e => Tab.set (fun _ => 0) t e 0) s.fab.issued,
      acked := l.foldl (fun t e => Tab.set (fun _ => 0) t e 0) s.fab.acked } }

/-! ### Granules in the lining (R504, R523, R533) -/

/-- The committed bytes of a granule: those of its slot, or zeros where it is not present. -/
def State.slotBytes (s : State) (p k : Nat) : List Byte :=
  let e := s.epochOf p
  if Tab.get (fun _ => false) e.present k then
    s.linRead p (s.linOffset .image + (2 * k + if Tab.get (fun _ => false) e.side k then 1 else 0) * 4096) 4096
  else List.replicate 4096 0

/-- Bring a granule back to its committed bytes. -/
def State.rebuild (s : State) (p k : Nat) : State :=
  (s.pokeMem (s.granuleOff p k) (s.slotBytes p k)).freshen (s.granuleOff p k) 4096

/-- Count the bytes of the lining that a rebuild of granules reads: a granule that is not present reads none (R504, R640). -/
def State.countRebuild (s : State) (p : Nat) (l : List Nat) : State :=
  s.countRead p (2 * 2 ^ 60) (4096 * (l.filter fun k => Tab.get (fun _ => false) (s.epochOf p).present k).length)

/-- Bring granules back in a restore, which leaves an active trace ring as it is (R647). -/
def State.rebuildAll (s : State) (p : Nat) (l : List Nat) : State :=
  foldS (fun t k => if t.inTrace (t.granuleOff p k) 4096 then t else t.rebuild p k) (s.countRebuild p l) l

/-- The device lines of a granule of close memory are whole again. -/
def State.healLines (s : State) (p k : Nat) : State :=
  if k < s.linA then
    let (d, g) := s.place4K (s.granuleOff p k)
    s.endLost d fun l => l / 64 == g
  else s

/-- REPAIR (R198, R228, R503, R504): lost granules are rebuilt from the lining, and what waited for them goes on. Where a condition of R504
holds no longer, as after a write beside what is lost, or the lining is not read, a recovery follows (R503). -/
def execRepair (part : Nat) (read : RepairRead) (s : State) : Host.Outcome State Fault Refusal :=
  whenFormed (decide (part < 4)) <|
  whenLive s <|
    let e := s.epochOf part
    let granules := read.granules
    let lost := e.lostU.flatMap (s.lostGranules part)
    whenDue (s.epochRuns part && s.link.up && !granules.isEmpty && granules.all (fun k => lost.contains k) &&
        !(s.epochOf part).recWant && !s.linDrains part) <|
      match read.fail with
      | some f => .next ((s.readFailed part (s.linBase part) f).wantRecovery part)
      | none =>
      if !s.mayRepair part granules then .next (s.wantRecovery part)
      else
      let s1 := foldS (fun t k => (t.rebuild part k).healLines part k) (s.countRebuild part granules) granules
      .next (s1.setEpoch part { s1.epochOf part with
        lostU := e.lostU.filter fun u => !(s.lostGranules part u).all fun k => granules.contains k }).driveAll

/-! ### The start of a recovery (R531, R532, R534) -/

/-- An owner belongs to an engine of partition `p`. -/
def State.ofPart (s : State) (p : Nat) (o : Owner) : Bool :=
  match o with
  | .lining q _ => q == p
  | _ => s.ownerPart o == some p

/-- The packets, reads and collective traffic of the fabric-owner partition's engines are discarded (R534, R598). -/
def State.dropTraffic (s : State) : State :=
  let gone := s.fab.rtx.filter fun r => decide (r.eng ≤ 612)
  let s1 := s.withdraw fun q => gone.any fun r => r.isFor q
  { s1 with
    fab := { s1.fab with rtx := s1.fab.rtx.filter fun r => decide (612 < r.eng), reads := [] },
    coll := { s1.coll with waggle := [], credits := [] } }

/-- The engines of a partition stop where they stand, and what they had under way is abandoned. -/
def State.stopEngines (s : State) (p : Nat) : State :=
  { s with
    far := s.far.filter fun r => !(r.part == p && s.ofPart p r.owner),
    gather := s.gather.filter fun g => !s.ofPart p g.owner,
    sigs := s.sigs.filter fun g => g.part != p,
    link := { s.link with bis := s.link.bis.map fun b => match b.what with
      | .sig g => if g.part = p then { b with what := .packet } else b
      | .write o _ _ _ => if s.ofPart p o then { b with what := .packet } else b
      | .read o _ _ _ _ _ => if s.ofPart p o then { b with what := .packet } else b
      | _ => b } }

/-- A recovery begins at a member (R532, R534): step 2. It ends a freeze (R572). -/
def State.recoverFrom (s : State) (p t f x : Nat) (fs xs : Word) : State :=
  let s1 := (s.abandonEpoch p false).stopEngines p
  let s2 := s1.advanceGens (s1.enginesOf p)
  let s3 := if p = s2.owner then s2.dropTraffic else s2
  let e := s3.epochOf p
  let s4 := s3.setEpoch p { e with
    taken := false, freezing := false, frozen := false, fwPoint := false, fContrib := false, fStage := 0, recStep := 4,
    state := 5, target := t, failedM := f, spareM := x, failedSer := fs, spareSer := xs, restored := [], recAt := s3.now,
    recWant := false,
    others := e.others.filter (fun q => q.1 != f && q.1 != e.failedM) ++
      if e.recStep = 0 ∨ e.failedM = f then [] else [(e.failedM, e.spareM, e.failedSer, e.spareSer)] }
  let s5 := if p = s4.owner ∧ s4.dbg.frState ≠ 0 then
      { s4 with dbg := { s4.dbg with frState := 0 }, swarm := { s4.swarm with quench := s4.swarm.quench.filter fun r => r != 2 } }
    else s4
  ((s5.goOn p).trace 10 p 2 f t xs.toNat).bump 57 1

/-- The operand of SWARM subtype 9 (log 76): target epoch, spare, and the serial numbers of the failed module and the spare. -/
def recoveryOperand (t x : Nat) (fs xs : Word) : List Byte :=
  leBytes 8 t ++ leBytes 8 x ++ leBytes 8 fs.toNat ++ leBytes 8 xs.toNat

/-- The `arev` in a header that lies at `base` in the far tier (R186, R524). -/
def State.arevAt (s : State) (base epoch : Nat) : Nat := leNat (s.extBytes (farKey (base + 4096 * (epoch % 2) + 2)) 2)

/-- The spare `x` can serve for `f` in a recovery to epoch `t` (R186, R532, step 3): it is the module itself, or it is admitted, the
regions of `f` are listed in the placement, and the lining there was committed under the `arev` in effect. -/
def State.spareOk (s : State) (f x t : Nat) : Bool :=
  f == x || (s.swarm.admittedM.contains x && match s.place.regions.find? fun r => r.module == f && r.kind == 1 with
    | some r => s.arevAt (r.target * 2 ^ 30) t == s.arev
    | none => false)

/-- The target epoch (R531): the least epoch committed locally by any member. Where the last epoch committed here has not been
swarm-committed, whether every other member has it too is not known: a free value chooses, except in a swarm of one. -/
def State.targetEpoch (s : State) (p : Nat) : Nat × State :=
  let e := s.epochOf p
  if e.loc ≤ e.committed then (e.committed, s)
  else if !s.withSwarm p then (e.loc, s)
  else
    let (v, s1) := s.fresh
    (if v % 2 = 0 then e.committed else e.loc, s1)

/-- The manager moves the number of a failed member to its spare (R399, R532, step 3). -/
def State.moveNumber (s : State) (f x : Nat) (xs : Word) : State :=
  if f = x then s
  else
    let t := { s with swarm := { s.swarm with
      spares := s.swarm.spares.filter (fun m => m != x), failed := s.swarm.failed.filter (fun m => m != f),
      serials := Tab.set (fun _ => 0) s.swarm.serials f xs } }
    t.changeTable f (t.route x).phys true

/-- The manager starts a recovery (R532, steps 2 and 3): quench, the recovery's packet, and the new place of the failed
number. -/
def State.startRecovery (s : State) (p : Nat) : State :=
  let e := s.epochOf p
  let own := s.fab.logical.toNat
  let alone := !s.withSwarm p
  let f := if alone then own else e.failedM
  let x := if alone then own else e.spareM
  let (t, s1) := s.targetEpoch p
  if !s.linSafe p || !s.spareOk f x t then
    if alone then (s.setEpoch p { e with recWant := false }).endLostCmds p else (s.dropWant p f).noSpare f
  else
    let fs := s1.serialOf f
    let xs := s1.serialOf x
    let s2 := s1.recoverFrom p t f x fs xs
    if alone then s2
    else
      let s3 := (s2.sendQuench 1 1).applyQuench 1
      let all := (s3.epochOf p).others ++ [(f, x, fs, xs)]
      let dest := s3.others.filter fun m => !all.any fun q => q.1 == m && q.2.1 != m
      let s4 := foldS (fun u q => foldS (fun u m => u.swarmSend m 9 q.1 (recoveryOperand t q.2.1 q.2.2.1 q.2.2.2)) u dest) s3 all
      foldS (fun u q => u.moveNumber q.1 q.2.1 q.2.2.2) s4 all

/-- RECOVERY_START (R531, R532, R534): SWARM subtype 9 at a member, or the manager's own start. -/
def execRecoveryStart (part : Nat) (p : Option Packet) (s : State) : Host.Outcome State Fault Refusal :=
  whenFormed (decide (part < 4)) <|
  match p with
  | some q => whenDue (part == s.owner) <| consumeSwarm 9 true q s (fun s => s.fromHeads q) fun s =>
      s.recoverFrom part (operandF q 0 8) q.arg1.toNat (operandF q 8 8) (BitVec.ofNat 64 (operandF q 16 8))
        (BitVec.ofNat 64 (operandF q 24 8))
  | none => whenLive s <|
    whenDue (s.epochRuns part && s.roots part && (s.epochOf part).recWant && s.gensFree (s.enginesOf part)) <|
      .next (s.startRecovery part)

/-! ### The restore (R533, R541) -/

/-- A logical cell as captured, in the place and with the maps of the present one. -/
def Cell.restore (now cut : Cell) : Cell :=
  { cut with live := now.live, frozen := now.frozen, switchedIn := now.switchedIn }

/-- A forager's work as captured. -/
def Frg.restore (now cut : Frg) : Frg :=
  { now with queue := cut.queue, running := cut.running, ea := cut.ea, w := cut.w, scratch := cut.scratch }

/-- The drip queues of a partition hold its queued commands again, oldest first. -/
def State.refillDrips (s : State) (p : Nat) : State :=
  foldS (fun t k =>
    let ids := (t.cmds.filter fun c => c.phase == .queued && c.part == p && t.procOf p c.ring == k).map Cmd.id
    t.setDrip k { Drip.reset with stages := ids.take 16, overflow := ids.drop 16 }) s
    ((List.range s.procs).map fun i => p * s.procs + i)

/-- The far windows of a partition in a set-up image. -/
def Ctx.winKeys (c : Ctx) (p : Nat) : List Nat :=
  ((List.range 8).filter fun w =>
    let x := (Tab.get regReset c.bar (0x021008 + 16 * w)).toNat
    bit x 0 && bits x 6 2 == p).flatMap fun w => [0x021000 + 16 * w, 0x021008 + 16 * w]

/-- Every member restores sync objects, contexts, stream state and set-up image from the target's context
area; cells that are switched out are in their save areas again. `own` says that the context is the module's own: a spare does not
adopt host windows (R536). -/
def State.restoreCtx (s : State) (p : Nat) (c : Ctx) (own : Bool) : State :=
  let mine := p == s.owner
  let engines := s.enginesOf p
  let keys := s.setupKeys p ++ c.winKeys p ++ if own then s.placeKeys p else []
  let member := fun k => mine && s.swarm.members.contains (k / 8)
  let ringOf := fun (k : Nat) => Tab.get (fun _ => Ring.reset) c.rings k
  let s1 := foldS (fun t n => t.setCell n (Cell.restore (t.cell n) (Tab.get (fun _ => Cell.reset) c.cells n))) s (s.cellsOf p)
  let s2 := foldS (fun t d => t.setFrg d (Frg.restore (t.frg d) (Tab.get (fun _ => Frg.reset) c.frgs d))) s1 (s.devsOf p)
  let s3 := { s2 with
    sync := Tab.mix (fun _ => 0) s2.sync c.sync fun n => s.partOfSync n == p,
    waits := s2.waits.filter (fun w => s.waitPart w != p) ++ c.waits,
    cmds := s2.cmds.filter (fun d => d.part != p) ++ c.cmds.map (fun d => { d with hwLost := false }),
    fdescs := s2.fdescs.filter (fun d => d.part != p) ++ c.fdescs,
    coll := if mine then { c.coll with
        lastLaggard := s2.coll.lastLaggard, lastWait := s2.coll.lastWait, lagCount := s2.coll.lagCount } else s2.coll,
    fab := { s2.fab with
      tx := Tab.mix (fun _ => 0) s2.fab.tx c.tx member, rx := Tab.mix (fun _ => RxStream.reset) s2.fab.rx c.rx member,
      issued := Tab.mix (fun _ => 0) s2.fab.issued c.issued fun k => engines.contains k,
      acked := Tab.mix (fun _ => 0) s2.fab.acked c.acked fun k => engines.contains k },
    bar := Tab.mix regReset s2.bar c.bar fun k => keys.contains k }
  let s4 := foldS (fun t i =>
    let r := t.ring p i
    let q := ringOf (64 * p + i)
    t.setRing p i { r with head := q.head, headWrap := q.headWrap, rd := q.rd, rdWrap := q.rdWrap, relog := [] }) s3 (List.range 64)
  let s5 := ((s4.refillDrips p).reassign p).fillQueues
  (foldS (fun t n => t.saveCell (.cell n) n) s5 ((s.cellsOf p).filter fun n => !(s5.cell n).switchedIn)).retuneAll

/-- The granules of partition `p` that a survivor restores: those of its dirty maps, and of units it has lost. -/
def State.dirtyGranules (s : State) (p : Nat) : List Nat :=
  let close := (s.devsOf p).flatMap fun d => (((s.frg d).live.t ++ (s.frg d).frozen.t).map Prod.fst).filterMap fun g =>
    ((s.unrelocate d g).bind fun e => s.offsetOf e.1 e.2).map s.linGranule
  let cell := (s.cellsOf p).flatMap fun n =>
    ((List.range 1024).filter fun j => (s.cell n).live.getLsbD j || (s.cell n).frozen.getLsbD j).map fun j =>
      s.linGranule (cellMem n + 4096 * j)
  (close ++ cell ++ (s.epochOf p).lostU.flatMap (s.lostGranules p)).eraseDups

/-- Both dirty maps of a partition are clear, and nothing is lost. -/
def State.cleanMaps (s : State) (p : Nat) : State :=
  let s1 := foldS (fun t d => (t.setFrg d { t.frg d with live := Bitmap.empty, frozen := Bitmap.empty }).endLost d
    fun _ => true) s (s.devsOf p)
  let s2 := foldS (fun t n => t.setCell n { t.cell n with live := 0, frozen := 0 }) s1 (s.cellsOf p)
  s2.setEpoch p { s2.epochOf p with lostU := [] }

/-- A survivor, or a module that is its own spare, restores (R531, R533): the target's list is applied where it is not yet, the
granules that have changed since come back, and then the contexts. -/
def State.restoreOwn (s : State) (p : Nat) : State :=
  let e := s.epochOf p
  let released := decide (e.target ≤ e.committed)
  let s1 := if e.applied < e.target then (s.applyLoc p).writeHeader p else s
  let s2 := (s1.rebuildAll p (s1.dirtyGranules p)).cleanMaps p
  match Tab.get (fun _ => none) e.ctx (e.target % 2) with
  | none => s2
  | some c =>
    let s3 := (s2.restoreCtx p c true).setRings p
    s3.setEpoch p { s3.epochOf p with
      committed := e.target, epoch := e.target, replay := e.intake.filter fun r => decide (c.intakeNo ≤ r.intake),
      replayEff := if released then e.effects else e.effects.drop c.effects }

/-! ### The restore of a spare (R533, R536, R538) -/

/-- A map of the lining, read from its area. -/
def State.readMap (s : State) (p : Nat) (a : LinArea) : Tab Bool :=
  let n := (s.linQ + 7) / 8
  let bs := s.linRead p (s.linOffset a) n
  ((List.range s.linQ).filter fun k => (bs.getD (k / 8) 0).getLsbD (k % 8)).map fun k => (k, true)

/-- A word of the header of the target epoch (R524). -/
def State.headWord (s : State) (p off : Nat) : Nat := leNat (s.linRead p (4096 * ((s.epochOf p).target % 2) + off) 8)

/-- The commit list of the target epoch (R518). -/
def State.readList (s : State) (p : Nat) : List (Nat × Bool) :=
  let area : LinArea := if (s.epochOf p).target % 2 = 0 then .list0 else .list1
  (List.range (s.headWord p 0x20 % 2 ^ 32)).map fun i =>
    let w := leNat (s.linRead p (s.linOffset area + 4 * i) 4)
    (w % 2 ^ 28, bit w 31)

/-- The intake records from a place on (R527): those with the next intake numbers and a correct CRC. -/
def State.readIntake (s : State) (p pos no : Nat) : Nat → List IntakeRec
  | 0 => []
  | n + 1 =>
    let bs := s.linRead p (s.linOffset .intake + 256 * pos) 256
    let word := fun o => leNat ((bs.drop o).take 8)
    if word 0x80 = no ∧ word 0xF8 = crc32c (bs.take 0xF8) then
      { intake := no, ring := bits (word 0x88) 16 6, entry := bits (word 0x88) 0 16, wrap := bit (word 0x88) 22,
        epoch := word 0x90, desc := BitVec.ofNat 1024 (leNat (bs.take 128)) : IntakeRec } ::
        s.readIntake p (if pos + 1 = intakeCap then 0 else pos + 1) (no + 1) n
    else []

/-- The effect record at a place, if its CRC is correct (R529). -/
def State.effectAt (s : State) (p pos : Nat) : Option EffectRec :=
  let bs := s.linRead p (s.linOffset .effect + 32 * pos) 32
  let word := fun o => leNat ((bs.drop o).take 8)
  if word 0x18 % 2 ^ 32 = crc32c (bs.take 0x18) then
    some { kind := bits (word 0) 0 8, obj := bits (word 0) 16 16, rseq := bits (word 0) 32 32, ref := word 8,
           value := BitVec.ofNat 64 (word 0x10), lap := bits (word 0x18) 32 32 }
  else none

/-- The pass of the log in which the record at a place must have been written: that of the record before it. -/
def State.lapAt (s : State) (p pos : Nat) : Nat :=
  if pos = 0 then match s.effectAt p (effectCap - 1) with | some r => r.lap + 1 | none => 0
  else match s.effectAt p (pos - 1) with | some r => r.lap | none => 0

/-- The effect records from a place on (R529): those of the passes that follow one another. -/
def State.readEffects (s : State) (p pos lap : Nat) : Nat → List EffectRec
  | 0 => []
  | n + 1 =>
    match s.effectAt p pos with
    | some r =>
      if r.lap = lap then
        r :: (if pos + 1 = effectCap then s.readEffects p 0 (lap + 1) n else s.readEffects p (pos + 1) lap n)
      else []
    | none => []

/-- Rings and report ring of the failed member go on in a spare (R536, R538): a ring where its context left it, the report
ring at the last record of kind 2; where no record since the cut tells it, at a free place (log 81). -/
def State.adoptRings (s : State) (p : Nat) (c : Ctx) (es : List EffectRec) : State :=
  let s1 := foldS (fun t i => t.setRing p i { Tab.get (fun _ => Ring.reset) c.rings (64 * p + i) with
    active := t.barB (regKey p (0x014008 + 0x40 * i)) 0, relog := [] }) s (List.range 64)
  let (q, w, k) := match (es.filter fun r => r.kind == 2).getLast? with
    | some r => (r.rseq, r.ref, s1.freeCtr)
    | none => (Config.freeValue s1.freeCtr % 2 ^ 32, Config.freeValue (s1.freeCtr + 1), s1.freeCtr + 2)
  let r := s1.rep p
  ({ s1 with freeCtr := k }).setRep p { r with
    active := s1.barB (regKey p 0x010040) 0, tail := w % 2 ^ 16 % s1.repSize p, wrap := bit w 16, seq := q }

/-- A spare restores (R531, R533, R536): maps, lists and logs as the failed member left them in its lining, every present granule
through the recovery window and zeros elsewhere, and the contexts of the target's cut. The spec does not lay the context area
out, so what it holds is a free value (log 81). -/
def State.restoreSpare (s : State) (p f : Nat) : State :=
  match s.place.regions.find? fun r => r.module == f && r.kind == 1 && r.part == p with
  | none => s
  | some r =>
    let e := s.epochOf p
    let s1 := s.setEpoch p { e with
      recWin := some (r.target * 2 ^ 30), active := true, first := false, epoch := e.target, loc := e.target }
    let es := s1.readEffects p (s1.headWord p 0x38 / 2 ^ 32) (s1.lapAt p (s1.headWord p 0x38 / 2 ^ 32)) effectCap
    let rs := s1.readIntake p (s1.headWord p 0x38 % 2 ^ 32) (s1.headWord p 0x30) intakeCap
    let c := { Config.memberCtx s1.freeCtr with
      epoch := e.target, intakeNo := s1.headWord p 0x30, intakePos := s1.headWord p 0x38 % 2 ^ 32,
      effectPos := s1.headWord p 0x38 / 2 ^ 32, effects := 0, at_ := BitVec.ofNat 64 (s1.headWord p 0x40) }
    let c := { c with
      cmds := c.cmds.map (fun k => { k with part := p, ring := k.ring % 64 }),
      fdescs := c.fdescs.map fun d => { d with part := p } }
    let s2 := { s1.setEpoch p { s1.epochOf p with
      side := s1.readMap p .side, present := s1.readMap p .present, applied := s1.headWord p 0x18, locList := s1.readList p,
      list := [], ctx := Tab.set (fun _ => none) [] (e.target % 2) (some c) } with freeCtr := s1.freeCtr + 1 }
    let s3 := if (s2.epochOf p).applied < e.target then (s2.applyLoc p).writeHeader p else s2
    let s4 := (s3.rebuildAll p (List.range s3.linQ)).cleanMaps p
    let s5 := (s4.restoreCtx p c false).adoptRings p c es
    let top := c.cmds.foldl (fun n k => max n (k.id + 1)) s5.nextId
    let lap := es.foldl (fun _ r => r.lap) (s1.lapAt p (s1.headWord p 0x38 / 2 ^ 32))
    let pos := (s1.headWord p 0x38 / 2 ^ 32 + es.length) % effectCap
    { s5.setEpoch p { s5.epochOf p with
      committed := e.target, applied := e.target, locList := [], intake := rs, intakeNo := s1.headWord p 0x30 + rs.length,
      intakePos := (s1.headWord p 0x38 % 2 ^ 32 + rs.length) % intakeCap, effects := es, effectPos := pos,
      lap := if pos = 0 ∧ !es.isEmpty then lap + 1 else lap, replay := rs, replayEff := es } with nextId := top }

/-- The failed members and spares that a recovery covers (R539). -/
def Epoch.pairs (e : Epoch) : List (Nat × Nat) := (e.failedM, e.spareM) :: e.others.map fun q => (q.1, q.2.1)

/-- This module is the spare of a recovery, and its new number has not arrived yet. -/
def State.awaitsNumber (s : State) (p : Nat) : Bool :=
  s.swarm.role == 4 && s.owner == p && (s.epochOf p).pairs.any fun q => q.2 == s.fab.logical.toNat && q.1 != q.2

/-- A spare may replay the lining of `f`: it was committed under the spare's `arev` (R186). -/
def State.mayReplay (s : State) (p f : Nat) : Bool :=
  match s.place.regions.find? fun r => r.module == f && r.kind == 1 && r.part == p with
  | some r => s.arevAt (r.target * 2 ^ 30) (s.epochOf p).target == s.arev
  | none => true

/-- The lining cannot be read (R228, R539): a swarm of one gives the recovery up, and its commands that wait for it end with `ABORTED`; a
member tells the manager, which marks its number failed (log 51). -/
def State.unreadable (s : State) (p : Nat) (f : ReadFail) : State :=
  let s1 := s.readFailed p (s.linBase p) f
  if s1.withSwarm p then
    if s1.swarm.role = 3 then s1.noSpare s1.fab.logical.toNat else s1.faultNotice p 37
  else
    let e := s1.epochOf p
    ((s1.setEpoch p { e with recStep := 0, recWant := false, state := if e.active then 1 else 0 }).endLostCmds p).goOn p

/-- RESTORE_COMPLETE (R228, R533, R539): the member has restored, and reports it to the manager (R532, step 5). -/
def execRestoreComplete (read : RestoreRead) (s : State) : Host.Outcome State Fault Refusal :=
  let part := read.part
  whenFormed (decide (part < 4)) <|
  whenLive s <| whenDue (s.epochRuns part && (s.epochOf part).recStep == 4 && s.link.up && !s.awaitsNumber part && !s.linDrains part) <|
    let e := s.epochOf part
    let own := s.fab.logical.toNat
    let taken := part == s.owner && e.spareM != own && e.pairs.any fun q => q.1 == own && q.2 != own
    whenDue (!taken || s.mayReplay part own) <|
    match read.fail with
    | some f => .next (s.unreadable part f)
    | none =>
    let s1 := if taken then s.restoreSpare part own else s.restoreOwn part
    let e1 := s1.epochOf part
    let s2 := (s1.setEpoch part { e1 with recStep := 5, restored := e1.restored ++ [own] }).trace 10 part 4 e.failedM e.target
      e.spareSer.toNat
    .next (if s2.roots part then s2 else s2.swarmSend s2.swarm.manager 10 e.failedM [])

/-- Every member has restored: the manager releases the quench, and replay begins (R532, step 5). -/
def State.afterRestored (s : State) (p : Nat) : State :=
  let e := s.epochOf p
  if s.roots p ∧ e.recStep = 5 ∧ (!s.withSwarm p ∨ s.ranks.all fun m => e.restored.contains m) then
    if s.withSwarm p then (s.sendQuench 2 1).releaseQuench 1
    else (s.setEpoch p { e with recStep := 6, state := 6 }).goOn p
  else s

/-- SWARM_RESTORED (R532): a member's report reaches the manager, or every report is there. A member's report of the end of
its replay (subtype 11) changes nothing. -/
def execSwarmRestored (part : Nat) (p : Option Packet) (s : State) : Host.Outcome State Fault Refusal :=
  whenFormed (decide (part < 4)) <|
  match p with
  | some q => whenDue (part == s.owner) <|
    if subtypeOf q = 11 then consumeSwarm 11 false q s (fun s => s.swarm.role == 3 && s.fromSwarm q) id
    else consumeSwarm 10 false q s (fun s => s.swarm.role == 3 && s.fromSwarm q) fun s =>
      let e := s.epochOf part
      let m := q.srcLog.toNat
      (s.setEpoch part { e with restored := e.restored.filter (fun x => x != m) ++ [m] }).afterRestored part
  | none =>
    let e := s.epochOf part
    whenLive s <| whenDue (s.epochRuns part && s.roots part && e.recStep == 5 &&
        (!s.withSwarm part || s.ranks.all fun m => e.restored.contains m)) <| .next (s.afterRestored part)

/-- REPLAY_DONE (R532, R538, R543): the last intake record has been taken in and the last effect record passed. In a swarm the pause
also holds the time since the last heartbeat and that of the slowest member, a free number (log 85). -/
def execReplayDone (part : Nat) (s : State) : Host.Outcome State Fault Refusal :=
  whenFormed (decide (part < 4)) <|
  whenLive s <|
    let e := s.epochOf part
    whenDue (s.epochRuns part && e.recStep == 6 && e.replay.isEmpty && !e.replayEff.any fun r =>
        r.kind == 3 || (r.kind == 1 && s.cmds.any fun c => c.part == part && c.intake == r.ref)) <|
      let s1 := s.setEpoch part { e with recStep := 0, state := if e.active then 1 else 0, replayEff := [], restored := [], others := [] }
      let s2 := s1.trace 10 part 6 e.failedM e.target e.spareSer.toNat
      let (wait, s2) := if s2.withSwarm part then s2.fresh else (0, s2)
      let ms := (s.now - e.recAt).toNat / 100000 + wait
      let s3 := foldS (fun t (q : Nat × Nat × Word × Word) =>
        t.report part 3 0 q.1 (bodyF 0x10 0 q.1 + bodyF 0x18 0 q.2.2.1.toNat + bodyF 0x20 0 q.2.2.2.toNat +
          bodyF 0x28 0 (e.target % 2 ^ 64) + bodyF 0x30 0 (ms % 2 ^ 32))) s2
        (e.others ++ [(e.failedM, e.spareM, e.failedSer, e.spareSer)])
      .next (if s3.roots part then s3 else s3.swarmSend s3.swarm.manager 11 e.failedM [])

end Sys2Proof.Machine
end

