-- ==== Sys2Proof/Machine/Resets.lean ====
section
/-!
DEFINITION. Reset domains, hung units, watchdogs, escalation, and the fatal stop (R545-R576).
-/

namespace Sys2Proof.Machine

/-! ### Counts (R564-R566) -/

/-- The unit of a forager datapath among the physical units that are counted; a physical cell has its own number. -/
def frgUnit (f : Nat) : Nat := 600 + f

/-- The unit of a comb. -/
def combUnit (k : Nat) : Nat := 700 + k

/-- The unit of a partition. -/
def partUnit (p : Nat) : Nat := 800 + p

/-- The unit of the module. -/
def moduleUnit : Nat := 900

/-- `AVL_ESC` of a domain. -/
def escKey (d : Nat) : Nat := 0x061100 + 8 * d

/-- The counted resets of a unit that lie in the window of its domain. -/
def State.countsOf (s : State) (d unit : Nat) : List Word :=
  (Tab.get (fun _ => []) s.resets.counts unit).filter fun t => decide ((s.now - t).toNat < s.barF (escKey d) 8 11 * minuteTicks)

/-- Count a reset of a unit (R564, R566). -/
def State.countReset (s : State) (d unit : Nat) : State :=
  { s with resets := { s.resets with
      counts := Tab.set (fun _ => []) s.resets.counts unit (s.countsOf d unit ++ [s.now]),
      resets := Tab.set (fun _ => 0) s.resets.resets d (min (Tab.get (fun _ => 0) s.resets.resets d + 1) 65535) } }

/-- The count of a unit has reached the threshold of its domain (R565). -/
def State.overCount (s : State) (d unit : Nat) : Bool := decide (s.barF (escKey d) 0 4 ≤ (s.countsOf d unit).length)

/-- An outcome is applied (R566). -/
def State.countOutcome (s : State) (d : Nat) : State :=
  { s with resets := { s.resets with
      outcomes := Tab.set (fun _ => 0) s.resets.outcomes d (min (Tab.get (fun _ => 0) s.resets.outcomes d + 1) 65535) } }

/-! ### Outcomes (R565, R567) -/

/-- Every command of a partition ends with `ABORTED` (R567). -/
def State.endPart (s : State) (p : Nat) : State :=
  foldS State.abortCmd (s.abortWaiting p) (s.startedIn p)

/-- A partition goes out of service (R567, R604, R612). -/
def State.partOut (s : State) (p : Nat) : State :=
  let s1 := ((s.endPart p).mEvent 6 0).lightService .outOfService
  let stop := p == s.owner && s.inSwarm
  { s1 with
    resets := { s1.resets with partOos := s1.resets.partOos.filter (fun q => q != p) ++ [p] },
    swarm := { s1.swarm with hbStopped := s1.swarm.hbStopped || stop } }

/-- The module goes out of service (R567). -/
def State.moduleOut (s : State) : State :=
  let s1 := ((foldS State.endPart s (List.range s.parts)).mEvent 6 0).lightService .outOfService
  { s1 with
    resets := { s1.resets with moduleOos := true },
    swarm := { s1.swarm with hbStopped := s1.swarm.hbStopped || s.inSwarm } }

/-- A comb goes out of service (R567): its logical cells are treated as failed, with no spare. -/
def State.degradeComb (s : State) (k : Nat) : State :=
  let s1 := { s with resets := { s.resets with combOos := s.resets.combOos.filter (fun j => j != k) ++ [k] } }
  let s2 := s1.retire (s1.partOfComb k) 1 1 k k k
  foldS (fun t n =>
    if (t.remapOf n).state ≤ 1 then (t.displace n).loseCell (t.insideOf n) else t) s2
    ((List.range 8).map fun i => 8 * k + i)

/-- A cell reset is counted against the physical cell, and its outcome applied (R565). -/
def State.countCell (s : State) (n : Nat) : State :=
  let c := (s.remapOf n).phys
  let s1 := s.countReset 0 c
  if s1.overCount 0 c then
    match s1.servedBy c with
    | some m => ((s1.retireCell c m).countOutcome 0).escalate (s1.partOfCell m) 21 (256 * m) (s1.countsOf 0 c).length
    | none => s1
  else s1

/-- A forager restart is counted, and its outcome applied (R563, R565). -/
def State.countFrg (s : State) (f : Nat) : State :=
  let u := frgUnit f
  let s1 := s.countReset 0 u
  if s1.overCount 0 u && !(s1.frg f).retired then
    ((s1.retireForager f).countOutcome 0).escalate (s1.partOfDev f) 21 (1 + 256 * f) (s1.countsOf 0 u).length
  else s1

/-- A comb reset is counted, and its outcome applied. -/
def State.countComb (s : State) (k : Nat) : State :=
  let u := combUnit k
  let s1 := s.countReset 1 u
  if s1.overCount 1 u && !s1.resets.combOos.contains k then
    ((s1.degradeComb k).countOutcome 1).escalate (s1.partOfComb k) 22 k (s1.countsOf 1 u).length
  else s1

/-- A partition reset is counted, and its outcome applied. -/
def State.countPart (s : State) (p : Nat) : State :=
  let u := partUnit p
  let s1 := s.countReset 2 u
  if s1.overCount 2 u && !s1.resets.partOos.contains p then
    ((s1.partOut p).countOutcome 2).escalate p 23 p (s1.countsOf 2 u).length
  else s1

/-- A whole-module reset is counted, and its outcome applied (log 90). -/
def State.countModule (s : State) : State :=
  let s1 := s.countReset 3 moduleUnit
  if s1.overCount 3 moduleUnit then
    (s1.moduleOut.countOutcome 3).escalateAll 24 0 (s1.countsOf 3 moduleUnit).length
  else s1

/-! ### What a domain holds (R545, R549) -/

/-- The logical cells of a domain under reset. -/
def State.resetCells (s : State) (r : ResetIn) : List Nat :=
  match r.domain with
  | 0 => [r.number, r.number ^^^ 8].filter fun m => (s.remapOf m).phys == (s.remapOf r.number).phys && (s.remapOf m).state != 3
  | 1 => ((List.range 8).map fun i => 8 * r.number + i).filter fun m => decide ((s.remapOf m).state ≤ 1)
  | 2 => s.cellsOf r.number
  | _ => []

/-- The engines of a domain under reset whose tags it advances (R553). -/
def State.resetEngines (s : State) (r : ResetIn) : List Nat :=
  match r.domain with
  | 0 => s.resetCells r
  | 1 => s.resetCells r ++ [512 + r.number]
  | 2 => s.enginesOf r.number
  | _ => []

/-- An access was issued by the domain. -/
def State.domainOwns (s : State) (r : ResetIn) (o : Owner) : Bool :=
  match r.domain, o with
  | 0, .slot n _ => (s.resetCells r).contains n
  | 0, .cell n => (s.resetCells r).contains n
  | 1, .slot n _ => (s.resetCells r).contains n
  | 1, .cell n => (s.resetCells r).contains n
  | 1, .lining _ u => u == 32 + r.number
  | 2, o => s.ofPart r.number o
  | _, _ => false

/-- The signal was issued by the domain. -/
def State.domainSig (s : State) (r : ResetIn) (g : Sig) : Bool := (s.resetEngines r).contains g.eng.key

/-- The held write or signal was issued by the domain. -/
def State.domainBi (s : State) (r : ResetIn) (b : Bi) : Bool :=
  match b.what with
  | .write o e _ _ => s.domainOwns r o || (s.resetEngines r).contains e
  | .read o e _ _ _ _ => s.domainOwns r o || (s.resetEngines r).contains e
  | .sig g => s.domainSig r g
  | _ => false

/-- The tile moves in flight of a cell. -/
def Cell.moving (c : Cell) : Nat := (c.slots.filter fun e => e.2.isSome).length

/-- The accesses of a domain that are still pending. -/
def State.domainPending (s : State) (r : ResetIn) : Nat :=
  (s.far.filter fun q => s.domainOwns r q.owner || (s.resetEngines r).contains q.eng).length +
    (s.fab.reads.filter fun q => (s.resetEngines r).contains q.eng).length +
    (s.sigs.filter (s.domainSig r)).length + (s.link.bis.filter (s.domainBi r)).length +
    ((s.resetCells r).map fun n => (s.cell n).moving).foldl (· + ·) 0

/-- The pending accesses of a domain are abandoned (R549): a read's entry stays until its stale response comes (R555). -/
def State.abandonDomain (s : State) (r : ResetIn) : State :=
  let es := s.resetEngines r
  let s1 := { s with
    far := s.far.filter fun q => !(s.domainOwns r q.owner || (s.resetEngines r).contains q.eng),
    gather := s.gather.filter fun g => !(s.domainOwns r g.owner || es.contains g.eng),
    sigs := s.sigs.filter fun g => !s.domainSig r g,
    fab := { s.fab with reads := s.fab.reads.map fun q => if es.contains q.eng then { q with owner := .none } else q },
    link := { s.link with bis := s.link.bis.map fun b => if s.domainBi r b then { b with what := .packet } else b } }
  foldS (fun t n => t.setCell n { t.cell n with slots := [] }) s1 (s.resetCells r)

/-! ### The domain resets (R546, R548, R551, R552) -/

/-- The architected state of a logical cell takes the values after a cell reset, and what the cell waits for is dropped
(R45, R546). Instruction memory, cell memory and the dirty map stay. -/
def State.clearCell (s : State) (n : Nat) : State :=
  let k := s.cell n
  let s1 := s.setCell n { k with
    arch := Arch.reset, run := if k.run.active then .hung else k.run, fence := .none, portQ := [], refusal := none }
  { s1 with waits := s1.waits.filter fun w => w.who != Waiter.cell n }

/-- Clear a logical cell, and deal with its command (R551). `domain` is that of the reset. -/
def State.wipeCell (s : State) (domain n : Nat) : State :=
  let p := s.partOfCell n
  (s.clearCell n).loseEngine p (domain + 256 * n) (s.cell n).cmd.toList

/-- Begin a reset: it is traced, and counted among those under way (R545, R650). -/
def State.beginReset (s : State) (domain number : Nat) : State :=
  let p := match domain with
    | 0 => s.partOfCell number
    | 1 => s.partOfComb number
    | 2 => number
    | _ => 0
  ({ s with resets := { s.resets with running := s.resets.running ++
      [({ domain := domain, number := number, late := false } : ResetIn)] } }).trace 11 p domain number 0 0

/-- The logical cells whose state a reset of the cell that serves `n` clears (R552, log 91): the one switched in; during a
switch the outgoing one, and `n` itself where it is the incoming one. -/
def State.resetTargets (s : State) (n : Nat) : List Nat :=
  let r := s.remapOf n
  let h := if r.state = 2 then n ^^^ 8 else n
  if r.state = 3 then []
  else match s.switches.find? fun w => w.host == h with
    | some w => if n = w.incoming then [w.outgoing, n] else [w.outgoing]
    | none => [s.insideOf h]

/-- Reset the physical cell that serves a logical cell. -/
def State.resetCell (s : State) (n : Nat) : State :=
  foldS (fun t m => t.wipeCell 0 m) (s.beginReset 0 n) (s.resetTargets n)

/-- A guest that a comb hosts is switched out and its state kept until the comb returns (R97). -/
def State.expelGuest (s : State) (n : Nat) : State :=
  match s.guestOf n with
  | none => s
  | some g =>
    let s1 := { s with switches := s.switches.filter fun w => w.host != n }
    let s2 := if s.isAway g then s1 else s1.saveCell (.cell g) g
    (s2.switchTo g false).switchTo n true

/-- The `MOVE` commands that a comb's mover has accesses under way for. -/
def State.moverUsers (s : State) (k : Nat) : List Nat :=
  let e := Engine.key (.mover k)
  let owned := (s.fab.rtx.filter fun r => r.eng == e).map Rtx.owner ++ (s.fab.reads.filter fun r => r.eng == e).map ReadTrack.owner ++
    (s.far.filter fun r => r.eng == e).map FarReq.owner
  (owned.filterMap fun o => match o with | .cmd id => some id | .piece id _ => some id | .fetch id => some id | _ => none).eraseDups

/-- Reset a comb. -/
def State.resetComb (s : State) (k : Nat) : State :=
  let cells := (List.range 8).map fun i => 8 * k + i
  let s0 := s.endTests fun kind t => kind == 1 && t / 9 == k
  let s1 := foldS State.expelGuest (s0.beginReset 1 k) cells
  let s2 := foldS (fun t n => if (t.remapOf n).state ≤ 1 then t.wipeCell 1 n else t) s1 cells
  s2.loseEngine (s2.partOfComb k) (1 + 256 * k) (s2.moverUsers k)

/-- Collectives are dropped by their engine, and the commands that asked for them end with a status. -/
def State.dropColls (s : State) (mine : Coll → Bool) (status : Nat) : State :=
  let gone := s.coll.colls.filter mine
  let s1 := { s with
    coll := { s.coll with colls := s.coll.colls.filter fun c => !mine c },
    waits := s.waits.filter fun w => !gone.any fun x => w.who == Waiter.collective x.id }
  foldS (fun t c => match c.issuer with
    | .cmd id => match t.cmd id with
      | some k => t.setCmd { k with phase := .finished, status := if k.status = 0 then status else k.status }
      | none => t
    | .cell _ _ => t) s1 gone

/-- A forager's working registers, accumulators and scratch are cleared (R563). -/
def State.clearFrg (s : State) (f : Nat) : State := s.setFrg f { s.frg f with ea := [], w := [], scratch := 0 }

/-- The started commands of a partition whose engines hold state for them. -/
def State.engineUsers (s : State) (p : Nat) : List Nat :=
  (s.cmds.filter fun c => c.part == p && c.phase == .started && decide (kclass c.d ≤ 4)).map Cmd.id

/-- Reset a partition (R546, R551, R561): its function is not ready until the reset ends. A home-region change that waits takes
effect, and the partition's close memory is filled with zeros (R207). -/
def State.resetPart (s : State) (p : Nat) : State :=
  let users := s.engineUsers p
  let s0 := s.endTests fun kind t => (kind == 1 && t / 9 / s.combsPer == p) || (kind == 2 && s.partOfDev t == p)
  let s1 := foldS State.clearCell (s0.beginReset 2 p) (s.cellsOf p)
  let s2 := (foldS State.clearFrg s1 (s.devsOf p)).loseEngine p (2 + 256 * p) users
  let s3 := (s2.abortWaiting p).dropColls (fun c => c.part == p) 4
  let keep := fun (d : FDesc) => d.part != p || !s3.linSafe p
  let s4 := { s3 with
    fdescs := s3.fdescs.filter keep,
    resets := { s3.resets with expired := Tab.set (fun _ => []) s3.resets.expired p [] },
    boot := { s3.boot with ready := s3.boot.ready.filter fun q => q != p } }
  let s5 := if s4.linSafe p then
      foldS (fun t f => t.setFrg f { t.frg f with queue := [], running := none }) s4 (s4.devsOf p)
    else s4
  let home := s5.barF (0x020010 + 8 * p) 0 13
  if home = Tab.get (fun _ => 0) s5.boot.homeNow p then s5
  else
    let s6 := { s5 with boot := { s5.boot with
      homeNow := Tab.set (fun _ => 0) s5.boot.homeNow p home,
      zeroFill := s5.boot.zeroFill.filter (fun q => q != p) ++ [p] } }
    if s6.linOn p then s6.liningOff p else s6

/-! ### The rows of the domains (R545, R549, R568) -/

/-- A reset of a domain is under way. -/
def State.resetting (s : State) (d n : Nat) : Bool := s.resets.running.any fun r => r.domain == d && r.number == n

/-- A reset that `AVL_RESET` has asked for and that has not begun (R568). -/
def State.asked (s : State) (d n : Nat) : Bool := s.resets.request == some (d, n) && !s.resetting d n

/-- The last heartbeat of a sender; a start or a reload counts as one (R562). -/
def State.beatOf (s : State) (k : Nat) : Nat :=
  max (Tab.get (fun _ => 0) s.resets.beats k).toNat (Tab.get (fun _ => 0) s.resets.beats 999).toNat

/-- A sender's heartbeat has come. -/
def State.beat (s : State) (k : Nat) : State :=
  { s with resets := { s.resets with beats := Tab.set (fun _ => 0) s.resets.beats k s.now } }

/-- Three consecutive heartbeats of a sender are missing: 3.0 ms since the last (R562). -/
def State.silent (s : State) (k : Nat) : Bool := s.boot.refOk && decide (s.beatOf k + 3 * msTicks ≤ s.now.toNat)

/-- A cell that its steward declares hung is reset (R562). -/
def State.cellHung (s : State) (n : Nat) : Host.Outcome State Fault Refusal :=
  let r := s.remapOf n
  let h := if r.state = 2 then n ^^^ 8 else n
  whenDue (s.power.running && r.state != 3 && s.insideOf h == n && s.silent r.phys && !s.resettingCell n) <|
    let s1 := (s.escalate (s.partOfCell n) 18 n r.loc).resetCell n
    .next ((s1.countCell n).beat r.phys)

/-- CELL_RESET (R545, R548, R551, R552). A watchdog's resets are part of WATCHDOG_EXPIRY. -/
def execCellReset (cell : Nat) (cause : ResetCause) (s : State) : Host.Outcome State Fault Refusal :=
  whenFormed (decide (cell < 512)) <|
  whenLive s <|
    match cause with
    | .requested => whenDue (s.asked 0 cell && s.power.running) <| .next (s.resetCell cell)
    | .hung => s.cellHung cell
    | _ => .refused .illFormed

/-- COMB_RESET (R545, R97). A steward's reload resets its combs in CONTROLLER_HUNG. -/
def execCombReset (comb : Nat) (cause : ResetCause) (s : State) : Host.Outcome State Fault Refusal :=
  whenFormed (decide (comb < 64)) <|
  whenLive s <|
    match cause with
    | .requested => whenDue (s.asked 1 comb && s.power.running) <| .next (s.resetComb comb)
    | _ => .refused .illFormed

/-- PARTITION_RESET (R545, R551). A command processor's reload resets its partitions in CONTROLLER_HUNG. -/
def execPartitionReset (part : Nat) (cause : ResetCause) (s : State) : Host.Outcome State Fault Refusal :=
  whenFormed (decide (part < 4)) <|
  whenLive s <|
    match cause with
    | .requested => whenDue (s.asked 2 part && s.power.running) <| .next (s.resetPart part)
    | .flr => whenDue (decide (part < s.parts) && s.power.running && !s.inReset part) <| .next (s.resetPart part)
    | _ => .refused .illFormed

/-- The milliseconds from the trigger: timing is the environment's, so a free value (log 1). -/
def State.elapsedNow (s : State) : State :=
  let (v, t) := s.fresh
  { t with boot := { t.boot with elapsed := v % 2 ^ 32 } }

/-- The reset is over. -/
def State.endReset (s : State) (d n : Nat) : State :=
  let mine := s.resets.request == some (d, n)
  let s1 := { s with resets := { s.resets with
      running := s.resets.running.filter fun r => !(r.domain == d && r.number == n),
      busy := s.resets.busy && !mine, request := if mine then none else s.resets.request } }
  if d = 2 then
    ({ s1 with boot := { s1.boot with ready := s1.boot.ready.filter (fun q => q != n) ++ [n] } }).serveWaiting n
  else if d = 3 then
    let s1 := s1.elapsedNow
    { s1 with
      boot := { s1.boot with step := 8, ready := if s1.power.running then List.range s1.parts else [] },
      resets := { s1.resets with beats := Tab.set (fun _ => 0) s1.resets.beats 999 s1.now } }
  else s1

/-- RESET_COMPLETE (R545, R549, R550, R554): the domain's accesses have been performed or abandoned, its engines' tags advance,
and what was held is performed. -/
def execResetComplete (domain number : Nat) (s : State) : Host.Outcome State Fault Refusal :=
  whenFormed (domainOk domain number) <|
  whenLive s <| withItem (s.resets.running.find? fun r => r.domain == domain && r.number == number) fun r =>
    let es := s.resetEngines r
    let filling := (domain == 2 && (s.boot.zeroFill.contains number || s.boot.zeroFill.contains 4)) ||
      (domain == 3 && !s.boot.zeroFill.isEmpty)
    whenDue ((r.late || (s.domainPending r == 0 && s.gensFree es)) && !filling) <|
      .next ((if r.late then s else s.advanceGens es).endReset domain number)

/-- DRAIN_LIMIT (R549, R555): pending accesses are abandoned, and the tags advance, so that their responses are stale. -/
def execDrainLimit (domain number : Nat) (s : State) : Host.Outcome State Fault Refusal :=
  whenFormed (domainOk domain number) <|
  whenLive s <| withItem (s.resets.running.find? fun r => r.domain == domain && r.number == number && !r.late) fun r =>
    let n := s.domainPending r
    let es := s.resetEngines r
    let p := match domain with
      | 0 => s.partOfCell number
      | 1 => s.partOfComb number
      | _ => number
    whenDue (n != 0 && s.gensFree es) <|
      let s1 := ((s.abandonDomain r).advanceGens es).escalate p 27 (domain + 256 * number) n
      .next { s1 with resets := { s1.resets with
        running := s1.resets.running.map fun q => if q = r then { q with late := true } else q } }

/-! ### Watchdogs (R557-R561) -/

/-- The budget of a command in ticks of the reference (R557, R559). -/
def State.budget (s : State) (c : Cmd) : Nat :=
  let us := dfield c.d 8 0 32
  100 * if us = 0 then 1000 * s.barF 0x061008 0 22 else us

/-- `ESCALATE` subject of reasons 16 and 26 (R569). -/
def Cmd.subject (c : Cmd) : Nat := c.ring + 2 ^ 6 * c.part + 2 ^ 16 * c.entry

/-- A started collective works for a command. -/
def State.collFor (s : State) (id : Nat) (c : Coll) : Bool :=
  match c.issuer with
  | .cmd i => i == id
  | .cell n _ => (s.cell n).cmd == some id

/-- Enter an intake number in the expired table: the last 16 stay (R561). -/
def State.enterExpired (s : State) (p intake : Nat) : State :=
  let l := Tab.get (fun _ => []) s.resets.expired p ++ [intake]
  { s with resets := { s.resets with expired := Tab.set (fun _ => []) s.resets.expired p (l.drop (l.length - 16)) } }

/-- Stop what foragers do for a command, and its collectives that have not started; the command stays as it is until the recovery
(R560). -/
def State.dropWork (s : State) (c : Cmd) : State :=
  let mine := fun (d : FDesc) => match d.issuer with
    | .cmd id => id == c.id
    | .cell n _ => (s.cell n).cmd == some c.id
  (foldS State.leave s (s.fdescs.filter mine)).quenchColls c

/-- WATCHDOG_EXPIRY (R557, R558, R560, R561). -/
def execWatchdogExpiry (id : Nat) (s : State) : Host.Outcome State Fault Refusal :=
  whenLive s <| withItem (s.cmd id) fun c =>
    whenDue (c.phase == .started && !s.watchPaused c.part && decide (s.budget c ≤ s.counted id)) <|
      let p := c.part
      let s1 := s.escalate p 16 c.subject ((s.now - c.t0).toNat / 100)
      let cells := if kclass c.d = 1 then c.cells.filter fun n => (s.cell n).run.active else []
      let again := s.linSafe p && !(Tab.get (fun _ => []) s.resets.expired p).contains c.intake
      let s2 := foldS (fun t n => foldS State.clearCell (t.beginReset 0 n) (t.resetTargets n)) s1 cells
      if again then
        let s3 := (((s2.dropWork c).enterExpired p c.intake).escalate p 17 (256 * cells.headD 0) c.intake).wantRecovery p
        .next (foldS State.countCell s3 cells)
      else
        let s3 := (s2.quenchCmd id 5).dropColls (s2.collFor id) 5
        .next ((foldS State.countCell s3 cells).escalate p 26 c.subject c.intake)

/-! ### Heartbeats and hung units (R562, R563) -/

/-- The place of a sender among the heartbeats. -/
def beatKey (k : Beater) (n : Nat) : Nat :=
  match k with
  | .cell => n
  | .forager => 600 + n
  | .steward => 640 + n
  | .sequencer => 650 + n
  | .processor => 660 + n
  | .link => 670 + n

/-- A sender is powered and expected to send. -/
def State.beats (s : State) (k : Beater) (n : Nat) : Bool :=
  match k with
  | .cell => s.power.running && (s.servedBy n).isSome
  | .forager => s.power.running && !(s.frg n).retired
  | .steward => s.power.running
  | .sequencer => s.power.running
  | .processor => true
  | .link => true

/-- HEARTBEAT (R562). -/
def execHeartbeat (kind : Beater) (unit : Nat) (s : State) : Host.Outcome State Fault Refusal :=
  whenFormed (beaterOk kind unit) <|
  whenLive s <| whenDue (s.boot.refOk && s.beats kind unit) <| .next (s.beat (beatKey kind unit))

/-- CELL_HUNG (R562). -/
def execCellHung (cell : Nat) (s : State) : Host.Outcome State Fault Refusal :=
  whenFormed (decide (cell < 512)) <|
  whenLive s <| s.cellHung cell

/-- The commands whose descriptor a forager has started and not performed to the end. -/
def State.runningOn (s : State) (f : Nat) : List Nat :=
  ((s.fdescs.filter fun d => d.frgs.contains f && d.phase != .quenched && (s.frg f).running == some d.id).filterMap fun d =>
    match d.issuer with
    | .cmd id => some id
    | .cell n _ => (s.cell n).cmd).eraseDups

/-- Restart a forager datapath (R551, R563). -/
def State.restartFrg (s : State) (f : Nat) : State :=
  ((s.clearFrg f).loseEngine (s.partOfDev f) (256 * f) (s.runningOn f)).countFrg f

/-- FORAGER_HUNG (R562, R563). -/
def execForagerHung (frg : Nat) (s : State) : Host.Outcome State Fault Refusal :=
  whenFormed (decide (frg < 32)) <|
  whenLive s <| whenDue (s.power.running && !(s.frg frg).retired && s.silent (frgUnit frg)) <|
    .next (((s.escalate (s.partOfDev frg) 19 frg 0).restartFrg frg).beat (frgUnit frg))

/-- A controller as a sender of heartbeats. -/
def controllerSender : Controller → Beater
  | .steward => .steward
  | .sequencer => .sequencer
  | .processor => .processor
  | .link => .link

/-- The kind of a controller in a report (R569). -/
def controllerNum : Controller → Nat
  | .steward => 0
  | .sequencer => 1
  | .processor => 2
  | .link => 3

/-- The commands whose descriptors a sequencer has accepted. -/
def State.sequencerUsers (s : State) (i : Nat) : List Nat :=
  ((List.range 4).flatMap fun j => s.frgUsers (4 * i + j)).eraseDups

/-- CONTROLLER_HUNG (R562, R563): the controller is reloaded, with what follows from it. -/
def execControllerHung (kind : Controller) (index : Nat) (s : State) : Host.Outcome State Fault Refusal :=
  whenFormed (controllerOk kind index) <|
  whenLive s <|
    let b := controllerSender kind
    let subject := controllerNum kind + 256 * index
    let part := match kind with
      | .steward => s.partOfComb (8 * index)
      | .sequencer => s.partOfDev (4 * index)
      | _ => index / s.procs
    whenDue (s.beats b index && s.silent (beatKey b index)) <|
      let s1 := match kind with
        | .link => s.escalateAll 20 subject 0
        | _ => s.escalate part 20 subject 0
      let s2 := match kind with
        | .steward => foldS (fun t k => if t.resetting 1 k then t else (t.resetComb k).countComb k) s1
            ((List.range 8).map fun i => 8 * index + i)
        | .sequencer =>
            let t := s1.loseEngine part (1024 * index) (s1.sequencerUsers index)
            foldS State.restartFrg t ((List.range 4).map fun j => 4 * index + j)
        | .processor => if s1.inReset part || !s1.power.running then s1 else (s1.resetPart part).countPart part
        | .link => s1
      .next (s2.beat (beatKey b index))

/-! ### The fatal stop (R573-R576) -/

/-- FATAL_STOP (R494, R573-R576, R588, R604, R633): trigger 1 is the thermal trip, trigger 2 a rail held at its limit for 1 ms,
trigger 3 the Collar's check of itself. Every island stops, the record is written, and the main rails turn off. A thermal
trip is reported over the management port too. -/
def execFatalStop (trigger : Nat) (record : List Byte) (s : State) : Host.Outcome State Fault Refusal :=
  whenFormed (decide (1 ≤ trigger) && decide (trigger ≤ 3) && record.length == 8768) <|
  whenLive s <| whenDue ((trigger != 1 || s.boot.tripDue) && (trigger != 2 || !s.railsStuck.isEmpty)) <|
    let t := (s.spoilRecord 6).mainOff
    let t1 := { t with
      resets := { t.resets with fatal := record, fatalRead := false, trigger := trigger, stopTime := s.now, stopped := true },
      boot := { t.boot with fatalDue := true, tripDue := trigger == 1, again := false } }
    let t2 := (t1.mEvent 7 0).lightService .fatal
    .next (if trigger = 1 then (t2.mEvent 3 0).lightService .thermalTrip else t2)

end Sys2Proof.Machine
end

