-- ==== Sys2Proof/Machine/Debug.lean ====
section
/-!
DEFINITION. The debug freeze and in-service tests (R571, R572, R652-R659).
-/

namespace Sys2Proof.Machine

/-! ### The debug freeze (R652-R655) -/

/-- The module freezes itself, or its swarm: it is the manager, or in a swarm of one (R653). -/
def State.mayFreeze (s : State) : Bool := !s.inRole || s.swarm.role == 3

/-- Go (R653): a module that may not freeze, or whose dump area is not in place, shows state 4. -/
def State.freezeGo (s : State) : State :=
  if s.dbg.frState = 1 ∨ s.dbg.frState = 2 then s
  else if !s.mayFreeze || (s.dumpHome s.owner).isNone then { s with dbg := { s.dbg with frState := 4 } }
  else (s.sendQuench 1 2).applyQuench 2

/-- Release (R653, R655): the members resume together. -/
def State.freezeEnd (s : State) : State :=
  if s.mayFreeze && (s.dbg.frState == 1 || s.dbg.frState == 2) then (s.sendQuench 2 2).releaseQuench 2 else s

/-- FREEZE (R40, R571, R652, R653): written through function 0. -/
def execFreeze (fn : Nat) (s : State) : Host.Outcome State Fault Refusal :=
  whenFormed (decide (fn < 4)) <|
  whenLive s <| whenDue (s.hasFn fn) <|
    let t := s.hostContact
    .next (if fn = 0 then t.freezeGo else t)

/-- FREEZE_RELEASE (R571, R653). -/
def execFreezeRelease (fn : Nat) (s : State) : Host.Outcome State Fault Refusal :=
  whenFormed (decide (fn < 4)) <|
  whenLive s <| whenDue (s.hasFn fn) <|
    let t := s.hostContact
    .next (if fn = 0 then t.freezeEnd else t)

/-- DUMP_COMPLETE (R654): every member's dump has been performed. Of the other members' the environment knows. -/
def execDumpComplete (s : State) : Host.Outcome State Fault Refusal :=
  whenLive s <|
    whenDue (s.dbg.frState == 1 && (s.epochOf s.owner).frozen && !s.outstanding (.log s.owner)) <|
      .next { s with dbg := { s.dbg with frState := 2 } }

/-! ### In-service tests (R656-R659) -/

/-- Go of `DBG_IST_CTL`: no effect while a test runs or waits (R659). -/
def State.testGo (s : State) (kind target seconds : Nat) : State :=
  if s.dbg.istReq.isSome || s.dbg.istRun.isSome then s
  else if kind = 0 ∨ 4 < kind then { s with dbg := { s.dbg with istRes := 2 } }
  else { s with dbg := { s.dbg with istReq := some (kind, target, max 1 seconds) } }

/-- No cut, freeze or recovery is in progress (R658). -/
def State.testsOpen (s : State) : Bool :=
  (List.range s.parts).all fun p => !(s.epochOf p).held && !(s.epochOf p).frozen && (s.epochOf p).recStep == 0

/-- The test asked for is refused. -/
def State.refuseTest (s : State) : State := { s with dbg := { s.dbg with istReq := none, istRes := 2 } }

/-- The test asked for starts. -/
def State.startTest (s : State) (r : Nat × Nat × Nat) : State := { s with dbg := { s.dbg with istReq := none, istRun := some r } }

/-- A test of a kind has been asked for and may start. -/
def withTest (kind : Nat) (s : State) (k : Nat × Nat × Nat → Host.Outcome State Fault Refusal) :
    Host.Outcome State Fault Refusal :=
  whenLive s <| withItem s.dbg.istReq fun r => whenDue (r.1 == kind && s.testsOpen && s.power.running) <| k r

/-- IST_CELL (R656, R657): a spare or a retired cell, or a serving cell that hands its logical number to a spare. A serving cell
that carries work is tested when it carries none. -/
def execIstCell (s : State) : Host.Outcome State Fault Refusal :=
  withTest 1 s fun r =>
    let c := r.2.1
    if 576 ≤ c then .next s.refuseTest
    else match s.servedBy c with
      | none => .next (s.startTest r)
      | some n =>
        if (s.physOf c).retired then .next (s.startTest r)
        else if (s.spareOf (n / 8)).isNone then .next s.refuseTest
        else whenDue ((s.cell n).cmd.isNone && ((s.guestOf n).all fun g => (s.cell g).cmd.isNone)) <|
          .next ((s.replaceCell n).startTest r)

/-- IST_FORAGER (R656): the pair proxies meanwhile. -/
def execIstForager (s : State) : Host.Outcome State Fault Refusal :=
  withTest 2 s fun r =>
    let f := r.2.1
    if 32 ≤ f ∨ s.homeG (s.partOfDev f) ≠ 0 ∨ (s.frg (f ^^^ 1)).retired then .next s.refuseTest
    else whenDue (s.frg f).running.isNone <|
      .next (((s.setFrg f { s.frg f with underTest := true }).handOff f).startTest r)

/-- IST_LANE (R656): lane 8 of a port in state 1. -/
def execIstLane (s : State) : Host.Outcome State Fault Refusal :=
  withTest 3 s fun r =>
    let q := s.port r.2.1
    if 18 ≤ r.2.1 ∨ q.state ≠ 1 ∨ q.lanes.getLsbD 8 ∨ !q.healthy.getLsbD 8 then .next s.refuseTest
    else .next (s.startTest r)

/-- The rail of R595 that a phase feeds. -/
def railOf (phase : Nat) : Nat :=
  ((List.range 22).find? fun i => decide (phase < (railPhases i).1 + (railPhases i).2)).getD 0

/-- What the phases of a rail other than `phase` carry, in mA: their shares of its current limit (R480, log 99). -/
def State.othersCarry (s : State) (phase : Nat) : Nat :=
  let g := railPhases (railOf phase)
  let left := s.phasesIn g.1 g.2 - (if s.phasesOut.contains phase then 0 else 1)
  1000 * s.railAmps (railOf phase) * left / g.2

/-- The 1 ms current of a phase's rail is at or below 80 % of what its other phases carry (R656). -/
def State.phaseSpare (s : State) (phase : Nat) : Bool :=
  let sum := s.power.wins.foldl (fun x r => x + railCurrent r (railOf phase)) 0
  decide (5 * sum ≤ 4 * s.othersCarry phase * s.power.wins.length)

/-- IST_PHASE (R656): one point-of-load phase. -/
def execIstPhase (s : State) : Host.Outcome State Fault Refusal :=
  withTest 4 s fun r => .next (if r.2.1 < 171 ∧ s.phaseSpare r.2.1 = true then s.startTest r else s.refuseTest)

/-- A cell fails its test: a serving or spare cell is retired, with its report. What a spare's report gives as its logical
number and state is not stated (log 99). -/
def State.failTested (s : State) (c : Nat) : State :=
  if (s.physOf c).retired then s
  else
    let s1 := s.setPhys c { s.physOf c with retired := true }
    let (n, s2) := s1.fresh
    let (st, s3) := s2.fresh
    let loc := c % 9 + 16 * (c / 9 % 8) + 128 * (c / 72)
    s3.retire (s3.partOfComb (c / 9)) 0 (st % 16) (n % 2 ^ 16) loc loc

/-- IST_COMPLETE (R656, R657): the unit returns, or is retired; a retired cell that passes stays retired. -/
def execIstComplete (passed : Bool) (errors : Nat) (s : State) : Host.Outcome State Fault Refusal :=
  whenLive s <| withItem s.dbg.istRun fun r =>
    let t := r.2.1
    let s1 := { s with dbg := { s.dbg with istRun := none, istRes := if passed then 0 else 1 } }
    let s2 := if r.1 = 3 then { s1 with dbg := { s1.dbg with istErr := min errors (2 ^ 48 - 1) } } else s1
    let s3 := if r.1 = 2 then s2.setFrg t { s2.frg t with underTest := false } else s2
    .next (if passed then s3
      else match r.1 with
        | 1 => s3.failTested t
        | 2 => if (s3.frg t).retired then s3 else s3.retireForager t
        | 3 => s3.retireLane t 8
        | _ => if s3.power.phases.contains t then s3 else s3.reportPhase t)

end Sys2Proof.Machine
end

