-- ==== Sys2Proof/Machine/Status.lean ====
section
/-!
DEFINITION. What the management port shows of the module: the status registers, the lights, the inventory record, the
sensors (R449, R472, R496, R590, R603, R612, R614, R622, R627).
-/

namespace Sys2Proof.Machine

/-! ### Register words -/

/-- A word put together from fields: place, width, value. -/
def packW (l : List (Nat × Nat × Nat)) : Nat := l.foldl (fun a f => a + f.2.2 % 2 ^ f.2.1 * 2 ^ f.1) 0

/-- A truth value as a field. -/
def bitN (b : Bool) : Nat := if b then 1 else 0

/-- A number in two's complement of 16 bits. -/
def int16 (x : Int) : Nat := (BitVec.ofInt 16 x).toNat

/-- `PWR_CAP` (R472). -/
def State.pwrCapWord (s : State) : Nat :=
  packW [(0, 12, s.barF 0x050000 0 12), (16, 12, s.cap), (32, 12, s.power.rack), (48, 12, s.power.env), (60, 3, s.capNow.2)]

/-- `PWR_STAT` (R472). -/
def State.pwrStatWord (s : State) : Nat :=
  packW [(0, 1, bitN (s.power.brake || s.power.vinBrake)), (1, 1, bitN s.power.coast), (2, 1, bitN s.power.guarded),
    (3, 1, bitN s.power.fastCut), (4, 1, bitN s.power.hold), (5, 8, s.power.thermDies), (16, 24, s.power.brakes)]

/-- `PWR_RUN` (R472). -/
def State.pwrRunWord (s : State) : Nat :=
  packW [(0, 1, s.barF 0x050008 0 1), (1, 1, bitN s.power.rackOn), (2, 1, bitN s.power.running), (3, 1, bitN s.power.draining)]

/-- `PRT_BOOT` (R590). -/
def State.prtBootWord (s : State) : Nat :=
  packW [(0, 4, s.boot.step), (4, 4, s.boot.halt), (8, 2, s.boot.kind), (16, 32, s.boot.elapsed)]

/-- The second condition of R630 holds: the brake in the last 60 s, or hold-up. -/
def State.heldUp (s : State) : Bool :=
  s.power.brakePin || s.mgmt.holdup || match s.mgmt.brakeAt with
    | some t => decide ((s.now - t).toNat < 6000000000)
    | none => false

/-- `PRT_FW_STAT` (R627). -/
def State.fwStatWord (s : State) : Nat :=
  packW [(0, 4, s.mgmt.fwState), (4, 4, s.mgmt.fwResult), (8, 1, bitN s.mgmt.bank), (9, 1, bitN s.mgmt.trial),
    (10, 1, bitN s.mgmt.owner.isSome), (11, 1, bitN s.mgmt.lock), (12, 1, bitN s.heldUp), (13, 7, s.mgmt.fuses),
    (24, 32, if 3 ≤ s.mgmt.fwState then (s.image (!s.mgmt.bank)).release.toNat else 0)]

/-- `COL_SWARM` (R449). -/
def State.swarmWord (s : State) : Nat :=
  packW [(0, 3, s.swarm.role), (3, 12, s.swarm.manager), (15, 12, s.swarm.deputies.head?.getD 0),
    (27, 1, bitN s.swarm.hasDeputy), (28, 32, s.swarm.term), (60, 1, bitN s.swarm.admitted)]

/-- `PWR_COOL` (R496). -/
def State.coolWord (s : State) : Nat :=
  packW [(0, 16, int16 s.power.inlet), (16, 16, int16 s.power.outlet), (32, 8, s.power.inletMax), (40, 8, s.power.riseMax),
    (48, 1, bitN s.power.inletOk), (49, 1, bitN s.power.outletOk), (50, 1, bitN s.power.leakOpen),
    (51, 1, bitN s.power.leakWet)]

/-! ### The lights (R612, R629) -/

/-- A pattern as a number; 5 where R612 states none. -/
def patternNum : Option Pattern → Nat
  | some .off => 0
  | some .steady => 1
  | some .blink1 => 2
  | some .blink4 => 3
  | some .double => 4
  | none => 5

/-- The status light; none where no row of R612 applies. -/
def State.statusLight (s : State) : Option Pattern :=
  if !s.boot.standby then some .off
  else if s.power.hold then some .double
  else if (decide (1 ≤ s.boot.step) && decide (s.boot.step ≤ 7)) || s.mgmt.fwState == 5 then some .blink4
  else if s.boot.mainOn && (List.range s.parts).all s.boot.ready.contains then some .steady
  else if !s.boot.mainOn then some .blink1
  else none

/-- The service light: the flash is being written while an image is received (R629, log 100). -/
def State.serviceLight (s : State) : Pattern :=
  if s.mgmt.service then .steady else if s.mgmt.fwState = 1 then .blink1 else .off

/-- The light states as GET_STATUS gives them: R607 lays the 8 bytes out no further (log 100). -/
def State.lightsWord (s : State) : Nat :=
  Config.lightWord (patternNum s.statusLight) (patternNum (some s.serviceLight)) (patternNum (some s.mgmt.locate))

/-! ### The inventory record (R614, R615) -/

/-- The product name, in ASCII, zero-padded. -/
def productBytes : List Byte := leBytes 16 (leNat [0x55, 0x4C, 0x4A, 0x2D, 0x34, 0x38, 0x32, 0x30])

/-- A rework entry's slot. -/
def State.reworkSlot (s : State) (i : Nat) : List Byte :=
  leBytes 24 (leNat (Tab.get (fun _ => List.replicate 24 0) s.mgmt.rework i))

/-- The inventory record but for its last 4 bytes. -/
def State.inventoryHead (s : State) : List Byte :=
  leBytes 4 (2 + 512 * 2 ^ 16) ++ productBytes ++ leBytes 8 Config.serial.toNat ++ leBytes 8 s.mgmt.board.toNat ++
    leBytes 4 s.mgmt.made.toNat ++ leBytes 4 s.mgmt.mainHrs ++ leBytes 4 s.mgmt.stbyHrs ++ leBytes 4 s.mgmt.starts ++
    leBytes 4 s.mgmt.fulls ++
    (List.range 20).flatMap (fun i => leBytes 8 (Tab.get (fun _ => (0 : Word)) s.mgmt.lots i).toNat) ++
    (List.range 12).flatMap s.reworkSlot ++
    leBytes 4 (s.mgmt.used + s.mgmt.nextSlot * 2 ^ 8)

/-- The inventory record (R614). -/
def State.inventory (s : State) : List Byte := s.inventoryHead ++ leBytes 4 (crc32c s.inventoryHead)

/-- A rework entry is well formed (R615): a known action, a location of a die or a device, and zeros at its end. -/
def reworkOk (e : List Byte) : Bool :=
  let action := leNat (slice e 8 2)
  let place := leNat (slice e 10 2)
  decide (1 ≤ action) && decide (action ≤ 3) && (decide (place < 20) || (decide (32 ≤ place) && decide (place < 64))) &&
    leNat (slice e 20 4) == 0

/-! ### Free bytes -/

/-- `n` bytes the spec does not state, and the state in which they are used up. -/
def State.freshBytes (s : State) (n : Nat) : List Byte × State :=
  ((List.range n).map fun i => BitVec.ofNat 8 (Config.freeValue (s.freeCtr + i)), { s with freeCtr := s.freeCtr + n })

/-! ### Sensors (R603) -/

/-- What state sensor 41 may show: each condition that holds, or 0. Where several hold, R603 does not say which is shown
(log 104). -/
def State.conditions (s : State) : List Nat :=
  let l := (if s.power.guarded then [1] else []) ++ (if s.power.coast then [2] else []) ++
    (if s.boot.oos || s.resets.moduleOos then [3] else []) ++ (if s.boot.step = 15 then [4] else [])
  if l.isEmpty then [0] else l

/-- One of a list, by a free number where there is a choice. -/
def State.oneOf (s : State) (l : List Nat) : Nat × State :=
  match l with
  | [] => (0, s)
  | [x] => (x, s)
  | _ => let (n, s1) := s.fresh; (l.getD (n % l.length) 0, s1)

/-- The value of a sensor, and the state after the choice of what the spec leaves open; none where the sensor does not exist.
Temperatures are whole degrees, rounded down (log 104); that of a die with no trusted sensor is a free number. -/
def State.sensorValue (s : State) (k : Nat) : Option (Int × State) :=
  if k = 1 then some (((s.meanOf 20 PowerReading.input / 1000 : Nat) : Int), s)
  else if k = 2 then some ((s.cap : Int), s)
  else if k = 3 then some (s.power.inlet / 16, s)
  else if k = 4 then some (s.power.outlet / 16, s)
  else if 10 ≤ k ∧ k ≤ 29 then
    match s.hottest (k - 10) with
    | some t => some (t / 16, s)
    | none => let (n, s1) := s.fresh; some ((n : Int), s1)
  else if k = 40 then some ((s.boot.step : Int), s)
  else if k = 41 then let (n, s1) := s.oneOf s.conditions; some ((n : Int), s1)
  else none

end Sys2Proof.Machine
end

