-- ==== Sys2Proof/Machine/Mgmt.lean ====
section
/-!
DEFINITION. The management port and its messages, but for those about firmware and owners (R590, R599-R609, R612-R615,
R619-R623, R633, R634).
-/

namespace Sys2Proof.Machine

/-! ### The port (R599-R605) -/

/-- The static I3C address (R670). -/
def State.staticAddr (s : State) : BitVec 7 := 0x40 + s.mgmt.straps.setWidth 7

/-- DYNAMIC_ADDRESS_ASSIGN (R599, R670): by ENTDAA, or by SETDASA to the module's static address. One to another target, or
while the bus is ignored, changes nothing. -/
def execDynamicAddressAssign (setdasa : Option (BitVec 7)) (addr : BitVec 7) (s : State) : Host.Outcome State Fault Refusal :=
  whenStandby s <|
    .next (if s.mgmt.stuck || (setdasa.isSome && setdasa != some s.staticAddr) then s
      else { s with mgmt := { s.mgmt with dyn := some addr } })

/-- The module answers a message: completion code and body (R606, R608). -/
def State.reply (s : State) (cc : Nat) (body : List Byte) : State := { s with mgmt := { s.mgmt with resp := some (cc, body) } }

/-- A second of the reference count. -/
def secTicks : Nat := 100000000

/-- The second of the reference count. -/
def State.second (s : State) : Nat := s.now.toNat / secTicks

/-- The requests already counted in this second (log 101). -/
def State.requestsNow (s : State) : Nat := if s.mgmt.msgSec = s.second then s.mgmt.msgCount else 0

/-- One more request is processed. -/
def State.countRequest (s : State) : State :=
  { s with mgmt := { s.mgmt with msgSec := s.second, msgCount := s.requestsNow + 1 } }

/-- A request has arrived (R601, R602, R605, R610): while the bus is ignored it is lost; beyond 2,000 in a second it is
answered BUSY, as a Collar bound. -/
def onRequest (s : State) (k : State → State) : Host.Outcome State Fault Refusal :=
  whenStandby s <|
    .next (if s.mgmt.stuck then s
      else
        let t := s.rackContact
        if 2000 ≤ t.requestsNow then t.collarClamp.reply 4 [] else k t.countRequest)

/-- MCTP_CONTROL (R600): an MCTP base or control message is answered, with a content that DSP0236 gives and the spec does not
(log 105); a message of an unknown type is discarded and counted. -/
def execMctpControl (known : Bool) (s : State) : Host.Outcome State Fault Refusal :=
  onRequest s fun t =>
    if known then let (b, t1) := t.freshBytes 8; t1.reply 0 b else t.bump 53 1

/-- A completion code of PLDM, which the spec does not give (log 105). -/
def State.pldmError (s : State) : State := let (n, s1) := s.fresh; s1.reply (n % 255 + 1) []

/-- PLDM_GET_SENSOR (R603): the value, in 4 bytes (log 104). -/
def execPldmGetSensor (sensor : Nat) (s : State) : Host.Outcome State Fault Refusal :=
  onRequest s fun t =>
    match t.sensorValue sensor with
    | some (v, t1) => t1.reply 0 (leBytes 4 (BitVec.ofInt 32 v).toNat)
    | none => t.pldmError

/-- The rack cap as applied: clamped to 800-2,400 W (R607). -/
def clampRack (w : Nat) : Nat := max 800 (min 2400 w)

/-- The rack cap is set (R467, R473). -/
def State.setRack (s : State) (w : Nat) : State :=
  let f := fun (u : State) => { u with power := { u.power with rack := clampRack w } }
  if s.live then s.setCap f else f s

/-- The rack manager's run order (R471). -/
def State.setRun (s : State) (on : Bool) : State :=
  let t := { s with power := { s.power with rackOn := on } }
  if !on && t.live && t.power.running && !t.power.draining then t.beginOff 1 else t

/-- The locate light for a time (R607, R612). -/
def State.setLocate (s : State) (p : Pattern) (seconds : Nat) : State :=
  { s with mgmt := { s.mgmt with locate := p, locateEnd := s.now + BitVec.ofNat 64 (seconds * secTicks) } }

/-- PLDM_SET_EFFECTER (R603): as the vendor message of the same effect. -/
def execPldmSetEffecter (effecter value : Nat) (s : State) : Host.Outcome State Fault Refusal :=
  onRequest s fun t =>
    if effecter = 101 then (t.setRack value).reply 0 []
    else if effecter = 102 ∧ (value = 1 ∨ value = 2) then (t.setRun (value == 1)).reply 0 []
    else if effecter = 103 ∧ value = 1 then (t.setLocate .off 0).reply 0 []
    else if effecter = 103 ∧ value = 2 then (t.setLocate .blink1 600).reply 0 []
    else t.pldmError

/-- PLDM_POLL_EVENT (R604): the oldest event is delivered, with the number of entries lost before it. The layout is this
model's (log 105). -/
def execPldmPollEvent (s : State) : Host.Outcome State Fault Refusal :=
  onRequest s fun t =>
    match t.mgmt.events with
    | [] => t.reply 0 []
    | e :: l =>
      ({ t with mgmt := { t.mgmt with events := l, evLost := 0, ibiDue := t.mgmt.ibiDue && !l.isEmpty } }).reply 0
        (leBytes 4 e.code ++ leBytes 8 e.detail ++ leBytes 4 t.mgmt.evLost)

/-- IBI (R602, R604): at most one in 10 ms. -/
def execIbi (s : State) : Host.Outcome State Fault Refusal :=
  whenStandby s <|
    whenDue (s.mgmt.ibiDue && !s.mgmt.stuck && !s.mgmt.events.isEmpty && (match s.mgmt.ibiAt with
        | none => true
        | some t => decide (1000000 ≤ (s.now - t).toNat))) <|
      .next { s with mgmt := { s.mgmt with ibiDue := false, ibiAt := some s.now } }

/-- I3C_BUS_STUCK (R605). -/
def execI3cBusStuck (s : State) : Host.Outcome State Fault Refusal :=
  whenStandby s <| .next { s with mgmt := { s.mgmt with stuck := true } }

/-- I3C_BUS_RECOVER (R605). -/
def execI3cBusRecover (s : State) : Host.Outcome State Fault Refusal :=
  whenStandby s <| whenDue s.mgmt.stuck <| .next { s with mgmt := { s.mgmt with stuck := false } }

/-! ### Status and orders (R607) -/

/-- GET_STATUS (R607): 64 bytes. -/
def execGetStatus (s : State) : Host.Outcome State Fault Refusal :=
  onRequest s fun t => t.reply 0 (leBytes 8 t.pwrCapWord ++ leBytes 8 t.pwrStatWord ++ leBytes 8 t.pwrRunWord ++
    leBytes 8 t.prtBootWord ++ leBytes 8 t.fwStatWord ++ leBytes 8 t.swarmWord ++ leBytes 8 t.coolWord ++
    leBytes 8 t.lightsWord)

/-- SET_RACK_CAP (R607): the answer holds the cap applied. -/
def execSetRackCap (w : BitVec 16) (s : State) : Host.Outcome State Fault Refusal :=
  onRequest s fun t => (t.setRack w.toNat).reply 0 (leBytes 2 (clampRack w.toNat))

/-- SET_RUN (R471, R607). -/
def execSetRun (on : Bool) (s : State) : Host.Outcome State Fault Refusal :=
  onRequest s fun t => (t.setRun on).reply 0 []

/-- SET_HOLDUP (R607, R609). -/
def execSetHoldup (on : Bool) (s : State) : Host.Outcome State Fault Refusal :=
  onRequest s fun t => ({ t with mgmt := { t.mgmt with holdup := on } }).reply 0 []

/-- LIGHTS (R607, R612): the seconds are clamped to 1-3,600. -/
def execLights (locate : BitVec 2) (seconds : BitVec 12) (s : State) : Host.Outcome State Fault Refusal :=
  onRequest s fun t =>
    let p : Pattern := match locate.toNat with | 0 => .off | 1 => .blink1 | 2 => .blink4 | _ => .steady
    (t.setLocate p (max 1 (min 3600 seconds.toNat))).reply 0 []

/-- LIGHTS_CLEAR_SERVICE (R613): ignored while a steady-service condition holds. -/
def execLightsClearService (s : State) : Host.Outcome State Fault Refusal :=
  onRequest s fun t =>
    (if t.mgmt.steady.isEmpty then { t with mgmt := { t.mgmt with service := false } } else t).reply 0 []

/-- LOCATE_EXPIRY (R612). -/
def execLocateExpiry (s : State) : Host.Outcome State Fault Refusal :=
  whenStandby s <| whenDue (s.mgmt.locate != .off && decide (s.mgmt.locateEnd.toNat ≤ s.now.toNat)) <|
    .next { s with mgmt := { s.mgmt with locate := .off } }

/-! ### Records (R575, R607, R614, R615) -/

/-- READ_INVENTORY (R614). -/
def execReadInventory (s : State) : Host.Outcome State Fault Refusal := onRequest s fun t => t.reply 0 t.inventory

/-- APPEND_REWORK (R607, R615): only with the main domain off and the update lock clear. -/
def execAppendRework (entry : List Byte) (s : State) : Host.Outcome State Fault Refusal :=
  onRequest s fun t =>
    if t.boot.mainOn || t.mgmt.lock then t.reply 3 []
    else if entry.length ≠ 24 then t.reply 2 []
    else if !reworkOk entry then t.reply 1 []
    else
      ({ t with mgmt := { t.mgmt with
          rework := Tab.set (fun _ => List.replicate 24 0) t.mgmt.rework t.mgmt.nextSlot entry,
          used := min 12 (t.mgmt.used + 1), nextSlot := (t.mgmt.nextSlot + 1) % 12 } }).reply 0 []

/-- The bytes of the fatal record (R575). -/
def fatalBytes : Nat := 8768

/-- READ_FATAL (R607): the record counts as read once its last byte has been returned. With no record its bytes are free. -/
def execReadFatal (off : BitVec 16) (s : State) : Host.Outcome State Fault Refusal :=
  onRequest s fun t =>
    let o := off.toNat
    let n := min 4096 (fatalBytes - o)
    if fatalBytes ≤ o then t.reply 1 []
    else if t.resets.fatal.isEmpty then let (b, t1) := t.freshBytes n; t1.reply 0 b
    else
      ({ t with resets := { t.resets with fatalRead := t.resets.fatalRead || decide (o + n = fatalBytes) } }).reply 0
        (slice t.resets.fatal o n)

/-- READ_MEMBER (R450, R607): at the manager only. -/
def execReadMember (module : BitVec 12) (s : State) : Host.Outcome State Fault Refusal :=
  onRequest s fun t =>
    if t.swarm.role ≠ 3 then t.reply 3 []
    else
      let r := Tab.get (fun _ => MemberRep.reset) t.swarm.reports module.toNat
      t.reply 0 (leBytes 4 r.retire ++ leBytes 4 r.escalate ++ leBytes 8 r.reason)

/-- SET_START (R590, R607). -/
def execSetStart (quickOk forceFull : Bool) (s : State) : Host.Outcome State Fault Refusal :=
  onRequest s fun t => ((t.setBarF startKey 0 1 (bitN quickOk)).setBarF startKey 1 1 (bitN forceFull)).reply 0 []

/-! ### Identity and attestation (R616-R623) -/

/-- IDENTITY (R623). -/
def execIdentity (s : State) : Host.Outcome State Fault Refusal := onRequest s fun t => t.reply 0 Config.identity

/-- The key_id of the owner key, or 0 (R616). -/
def State.keyId (s : State) : Nat := match s.mgmt.owner with
  | some k => leNat ((leBytes 64 (Config.shake256 k).toNat).take 8)
  | none => 0

/-- The bytes of an attestation record that the signature covers (R622). -/
def State.attested (s : State) (nonce : BitVec 256) : List Byte :=
  let img := s.image s.runBank
  leBytes 8 (1 + 10533 * 2 ^ 16) ++ leBytes 8 Config.serial.toNat ++ leBytes 32 nonce.toNat ++ leBytes 8 s.now.toNat ++
    leBytes 8 (packW [(0, 32, img.release.toNat), (32, 16, img.arev.toNat), (48, 16, img.secver)]) ++
    leBytes 8 (packW [(0, 7, s.mgmt.fuses), (7, 1, bitN s.runBank), (8, 1, bitN s.mgmt.trial), (9, 1, bitN s.mgmt.lock),
      (10, 1, bitN s.power.hold), (11, 1, bitN s.mgmt.logOver)]) ++
    leBytes 8 s.keyId ++ leBytes 8 s.place.id.toNat ++ leBytes 8 s.place.envSeq.toNat ++
    leBytes 32 s.mgmt.log.length ++
    (List.range 8).flatMap fun i => leBytes 64 (Tab.get (fun _ => (0 : BitVec 512)) s.mgmt.meas i).toNat

/-- The 9,893 bytes of a signature of the identity key with an index: the index in the first 5, most significant first as RFC 8391
orders a signature (R7, R616, R622; log 122). -/
def signatureBytes (index : Nat) (d : List Byte) : List Byte :=
  (leBytes 5 index).reverse ++ (List.range 9888).map fun i => (Config.signature index d).getD i 0

/-- Take a signature index: the next of the block in use, or the first of a fresh block (R619); none when the blocks are
spent. -/
def State.takeIndex (s : State) : Option (Nat × State) :=
  if s.mgmt.index < 1024 then
    some ((s.mgmt.block - 1) * 1024 + s.mgmt.index, { s with mgmt := { s.mgmt with index := s.mgmt.index + 1 } })
  else if s.mgmt.block < 2 ^ 30 then
    some (s.mgmt.block * 1024, { s with mgmt := { s.mgmt with block := s.mgmt.block + 1, index := 1 } })
  else none

/-- ATTEST (R602, R619, R622): one a second, else BUSY as a Collar bound. -/
def execAttest (nonce : BitVec 256) (s : State) : Host.Outcome State Fault Refusal :=
  onRequest s fun t =>
    let early := match t.mgmt.attestAt with
      | none => false
      | some a => decide ((t.now - a).toNat < secTicks)
    if early then t.collarClamp.reply 4 []
    else
      match t.takeIndex with
      | none => t.reply 3 []
      | some (i, t1) =>
        let d := t1.attested nonce
        ({ t1 with mgmt := { t1.mgmt with attestAt := some t1.now } }).reply 0 (d ++ signatureBytes i d)

/-- The 80 bytes of an entry of the measurement log (R621). -/
def LogEntry.bytes (e : LogEntry) : List Byte :=
  leBytes 8 (e.reg + e.kind * 2 ^ 8) ++ leBytes 8 e.time.toNat ++ leBytes 64 e.digest.toNat

/-- READ_LOG (R607, R621): up to 64 entries. -/
def execReadLog (first : BitVec 8) (s : State) : Host.Outcome State Fault Refusal :=
  onRequest s fun t => t.reply 0 (((t.mgmt.log.drop first.toNat).take 64).flatMap LogEntry.bytes)

/-! ### The hour (R588, R614, R615) -/

/-- HOUR_COUNT_UPDATE (R588, R614, R615): an hour of standby has passed, and one of the main domain where it runs (log 102). -/
def execHourCountUpdate (s : State) : Host.Outcome State Fault Refusal :=
  whenStandby s <|
    let t := { s with
      mgmt := { s.mgmt with
        stbyHrs := (s.mgmt.stbyHrs + 1) % 2 ^ 32,
        mainHrs := if s.power.running then (s.mgmt.mainHrs + 1) % 2 ^ 32 else s.mgmt.mainHrs },
      boot := { s.boot with ageH := min 65535 (s.boot.ageH + 1) } }
    .next (if 168 < t.boot.ageH then (t.spoilRecord 2).storeCounts else t.storeCounts)

end Sys2Proof.Machine
end

