-- ==== Sys2Proof/Machine/Firmware.lean ====
section
/-!
DEFINITION. Updating firmware, and the owner's commands (R186, R590, R607, R608, R616-R618, R620, R624-R632).
-/

namespace Sys2Proof.Machine

/-! ### Images (R624, R625) -/

/-- The bytes of a range are all zero. -/
def zeroBytes (bs : List Byte) (lo hi : Nat) : Bool := (slice bs lo (hi - lo)).all (· == 0)

/-- A section entry of a header. -/
def sectionEntry (bs : List Byte) (i : Nat) : Nat := leNat (slice bs (0x10 + 16 * i) 16)

/-- The kind of a section entry. -/
def sectionKind (bs : List Byte) (i : Nat) : Nat := bits (sectionEntry bs i) 64 8

/-- The length of an image's body. -/
def bodyLen (bs : List Byte) : Nat := leNat (slice bs 0x0C 4)

/-- Version, product, reserved bytes and sections of an image are in order (R625). -/
def imageForm (bs : List Byte) : Bool :=
  leNat (slice bs 0 4) == 1 + 0x4820 * 2 ^ 16 && zeroBytes bs 0x114 0x200 && zeroBytes bs 0xD04 0x1000 &&
    decide (bodyLen bs ≤ 67104768) &&
    ((List.range 8).all fun i =>
      let e := sectionEntry bs i
      bits e 72 56 == 0 && decide (sectionKind bs i ≤ 6) &&
        (sectionKind bs i == 0 || decide (bits e 0 32 + bits e 32 32 ≤ bodyLen bs))) &&
    ((List.range 6).all fun k => ((List.range 8).filter fun i => sectionKind bs i == k + 1).length == 1)

/-- The key, the signature and the body digest of an image verify (R616, R625). -/
def imageSigned (bs : List Byte) : Bool :=
  let key := slice bs 0xD0 68
  Config.shake256 key == Config.keyDigest && Config.signed (slice bs 0 0x200) key (slice bs 0x200 2820) &&
    slice bs 0x90 64 == leBytes 64 (Config.shake256 (slice bs 4096 (bodyLen bs))).toNat

/-- The security version of an image. -/
def imageSecver (bs : List Byte) : Nat := leNat (slice bs 0x08 2)

/-- An image as received, with what its header says. -/
def imageOf (bs : List Byte) : Image :=
  { data := some bs, release := BitVec.ofNat 32 (leNat (slice bs 4 4)), arev := BitVec.ofNat 16 (leNat (slice bs 0x0A 2)),
    secver := imageSecver bs, good := imageForm bs && imageSigned bs }

/-- The result with which verification ends, or 0 (R632). -/
def State.imageResult (s : State) (bs : List Byte) : Nat :=
  if !imageForm bs then 6 else if !imageSigned bs then 4 else if imageSecver bs < s.mgmt.fuses then 5 else 0

/-- Put an image into the inactive bank. -/
def State.stage (s : State) (i : Image) : State :=
  { s with mgmt := { s.mgmt with
      images := Tab.set (fun _ => Image.shipped) s.mgmt.images (if s.mgmt.bank then 0 else 1) i } }

/-! ### Answers (R608, R632) -/

/-- A request is turned away: REFUSED or SEQUENCE, with the result recorded. -/
def State.turnAway (s : State) (cc res : Nat) : State :=
  ({ s with mgmt := { s.mgmt with fwResult := res } }).reply cc []

/-- FW_BEGIN (R628, R630): the inactive bank is erased. -/
def execFwBegin (length : BitVec 32) (s : State) : Host.Outcome State Fault Refusal :=
  onRequest s fun t =>
    if t.mgmt.fwState ≠ 0 then t.turnAway 7 8
    else if t.fwRefusal ≠ 0 then t.turnAway 5 t.fwRefusal
    else if 64 * 2 ^ 20 < length.toNat then t.turnAway 5 7
    else
      let t1 := t.stage (imageOf [])
      (({ t1 with mgmt := { t1.mgmt with fwLen := length.toNat, fwBytes := [] } }).setFw 1 t1.mgmt.fwResult).reply 0 []

/-- FW_DATA (R607, R628): in state 1, 1-4,096 bytes at the next offset, within the length given. -/
def execFwData (off : BitVec 32) (data : List Byte) (s : State) : Host.Outcome State Fault Refusal :=
  onRequest s fun t =>
    let got := t.mgmt.fwBytes.length
    if t.mgmt.fwState ≠ 1 then t.reply 3 []
    else if data.length = 0 ∨ 4096 < data.length then t.reply 2 []
    else if off.toNat ≠ got then t.turnAway 7 8
    else if t.mgmt.fwLen < got + data.length then t.reply 2 []
    else ({ t with mgmt := { t.mgmt with fwBytes := t.mgmt.fwBytes ++ data } }).reply 0 []

/-- FW_RECEIVE_TIMEOUT (R628). -/
def execFwReceiveTimeout (s : State) : Host.Outcome State Fault Refusal :=
  whenStandby s <| whenDue (s.mgmt.fwState == 1) <| .next (s.setFw 0 10)

/-- FW_END (R628, R632): with bytes missing the update stays in state 1. -/
def execFwEnd (s : State) : Host.Outcome State Fault Refusal :=
  onRequest s fun t =>
    if t.mgmt.fwState ≠ 1 then t.reply 3 []
    else if t.mgmt.fwBytes.length ≠ t.mgmt.fwLen then t.turnAway 5 7
    else (t.setFw 2 t.mgmt.fwResult).reply 0 []

/-- FW_VERIFY_DONE (R628, R629, R632): the image is staged when it verifies and its code is loaded. The result of a failed load
is a free number (log 103). -/
def execFwVerifyDone (loaded : Bool) (s : State) : Host.Outcome State Fault Refusal :=
  whenStandby s <| whenDue (s.mgmt.fwState == 2) <|
    let bs := s.mgmt.fwBytes
    let s1 := s.stage (imageOf bs)
    let r := s.imageResult bs
    .next (if r ≠ 0 then s1.setFw 0 r
      else if loaded then s1.setFw 3 s1.mgmt.fwResult
      else let (n, s2) := s1.fresh; s2.setFw 0 (n % 16))

/-- The partitions held for an activation go on. -/
def State.endPoint (s : State) : State :=
  foldS (fun t p => if (t.epochOf p).fwPoint then (t.setEpoch p { t.epochOf p with fwPoint := false }).goOn p else t) s
    (List.range 4)

/-- The update is armed (R631): the fabric-owner partition's next cut is requested; with its lining off the drain begins
at once. -/
def State.armFw (s : State) : State :=
  let s1 := s.setFw 4 s.mgmt.fwResult
  if !s1.live then s1
  else if (s1.epochOf s1.owner).active then s1.requestBoundary s1.owner false
  else (s1.setEpoch s1.owner { s1.epochOf s1.owner with fwPoint := true }).goOn s1.owner

/-- FW_ACTIVATE (R186, R607, R628, R630): an image of another `arev` waits for a reset. -/
def execFwActivate (s : State) : Host.Outcome State Fault Refusal :=
  onRequest s fun t =>
    if t.mgmt.fwState ≠ 3 ∧ t.mgmt.fwState ≠ 6 then t.reply 3 []
    else if t.fwRefusal ≠ 0 then t.turnAway 5 t.fwRefusal
    else if (t.image (!t.mgmt.bank)).arev.toNat = t.arev then t.armFw.reply 0 []
    else (({ t with mgmt := { t.mgmt with bank := !t.mgmt.bank, trial := true } }).setFw 7 t.mgmt.fwResult).reply 0 []

/-- FW_CONTROLLERS_READY (R620, R628, R631): the image is in effect, on trial; what was held goes on, and a member in a cut
contributes to the captured barrier. -/
def execFwControllersReady (s : State) : Host.Outcome State Fault Refusal :=
  whenLive s <| whenDue (s.mgmt.fwState == 5) <|
    let s1 := { s with mgmt := { s.mgmt with bank := !s.mgmt.bank, trial := true } }
    let s2 := (s1.measureImage.measureControllers.setFw 6 0).endPoint
    let e := s2.epochOf s2.owner
    .next (if e.step = 2 ∧ !e.contrib then s2.contribute s2.owner 3 else s2)

/-- FW_ACTIVATION_TIMEOUT (R631): every controller returns to the old code bank. -/
def execFwActivationTimeout (s : State) : Host.Outcome State Fault Refusal :=
  whenLive s <| whenDue (s.mgmt.fwState == 5) <| .next (s.setFw 0 9).endPoint

/-- FW_CONFIRM (R607, R632): fuses are blown up to the image's security version, where there are as many. -/
def execFwConfirm (s : State) : Host.Outcome State Fault Refusal :=
  onRequest s fun t =>
    let v := (t.image t.mgmt.bank).secver
    if t.mgmt.fwState ≠ 6 then t.reply 3 []
    else if 64 < v then ({ t with mgmt := { t.mgmt with fuses := 64 } }).turnAway 5 11
    else (({ t with mgmt := { t.mgmt with fuses := max t.mgmt.fuses v, trial := false } }).setFw 0 0).reply 0 []

/-- FW_ABORT (R607, R628). -/
def execFwAbort (s : State) : Host.Outcome State Fault Refusal :=
  onRequest s fun t =>
    if t.mgmt.fwState = 1 ∨ t.mgmt.fwState = 3 then (t.setFw 0 10).reply 0 [] else t.reply 3 []

/-! ### The owner (R616-R618) -/

/-- OWNER_ENROL (R607, R617): installs the first owner key. -/
def execOwnerEnrol (key : List Byte) (s : State) : Host.Outcome State Fault Refusal :=
  onRequest s fun t =>
    if t.mgmt.owner.isSome then t.reply 3 []
    else if key.length ≠ 68 then t.reply 2 []
    else (({ t with mgmt := { t.mgmt with owner := some key } }).measureOwner).reply 0 []

/-- The bytes 0x000-0x05F of an owner command (R617). -/
def ownerBody (op : Nat) (serial sequence : Word) (key : List Byte) : List Byte :=
  leBytes 8 op ++ leBytes 8 serial.toNat ++ leBytes 8 sequence.toNat ++ key ++ leBytes 4 0

/-- An OWNER_COMMAND (R607, R617): accepted when it is well formed, names this module, its sequence is above the last, and
the owner's signature covers it. The order of the checks is this model's (log 103). -/
def onOwner (s : State) (op : Nat) (serial sequence : Word) (key body signature : List Byte) (k : State → State) :
    Host.Outcome State Fault Refusal :=
  onRequest s fun t =>
    match t.mgmt.owner with
    | none => t.reply 3 []
    | some o =>
      if body ≠ ownerBody op serial sequence key ∨ serial ≠ Config.serial then t.reply 1 []
      else if sequence.toNat ≤ t.mgmt.ownerSeq.toNat then t.reply 7 []
      else if !Config.signed body o signature then t.reply 6 []
      else (k { t with mgmt := { t.mgmt with ownerSeq := sequence } }).reply 0 []

/-- The zero bytes where an owner command carries no key. -/
def noKey : List Byte := List.replicate 68 0

/-- Setting the lock ends an update that is not yet activating (R630). -/
def State.lockUpdate (s : State) : State :=
  let f := s.mgmt.fwState
  if 1 ≤ f ∧ f ≤ 4 then (s.setFw 0 3).endPoint
  else if f = 7 then ({ s with mgmt := { s.mgmt with bank := !s.mgmt.bank, trial := false } }).setFw 0 3
  else s

/-- The lock changes, and the change is measured (R620). -/
def State.setLock (s : State) (b : Bool) : State :=
  if s.mgmt.lock = b then s else ({ s with mgmt := { s.mgmt with lock := b } }).measureLock

/-- OWNER_SET_LOCK (R617, R630). -/
def execOwnerSetLock (serial sequence : Word) (body signature : List Byte) (s : State) : Host.Outcome State Fault Refusal :=
  onOwner s 1 serial sequence noKey body signature fun t => (t.setLock true).lockUpdate

/-- OWNER_CLEAR_LOCK (R617). -/
def execOwnerClearLock (serial sequence : Word) (body signature : List Byte) (s : State) : Host.Outcome State Fault Refusal :=
  onOwner s 2 serial sequence noKey body signature fun t => t.setLock false

/-- OWNER_REPLACE_KEY (R617). -/
def execOwnerReplaceKey (serial sequence : Word) (key body signature : List Byte) (s : State) :
    Host.Outcome State Fault Refusal :=
  onOwner s 3 serial sequence (leBytes 68 (leNat key)) body signature fun t =>
    ({ t with mgmt := { t.mgmt with owner := some (leBytes 68 (leNat key)) } }).measureOwner

/-- OWNER_RELEASE (R617). -/
def execOwnerRelease (serial sequence : Word) (body signature : List Byte) (s : State) : Host.Outcome State Fault Refusal :=
  onOwner s 4 serial sequence noKey body signature fun t =>
    (({ t with mgmt := { t.mgmt with owner := none } }).measureOwner).setLock false

end Sys2Proof.Machine
end

