-- ==== Sys2Proof/Machine/Start.lean ====
section
/-!
DEFINITION. Starts, restarts and the whole-module reset (R35, R207, R546, R547, R577-R590, R620, R626).
-/

namespace Sys2Proof.Machine

/-! ### Tables built by a full start (R582, R583, R587) -/

/-- The physical cells of a comb that passed, and the entry of a logical cell: its own slot, or the spare for the first
failing slot of its comb, or unserved. No save area has a place at power-on, so no cell becomes a guest (R82). -/
def builtEntry (bad combs : List Nat) (n : Nat) : Remap :=
  let k := n / 8
  let c := fun i => physNum (k / 8) (k % 8) i
  let fails := (List.range 8).filter fun i => bad.contains (c i)
  let r := Remap.full n
  if combs.contains k then { r with state := 3 }
  else if !fails.contains (n % 8) then r
  else if fails.head? = some (n % 8) ∧ !bad.contains (c 8) then { r with slot := 8, state := 1 }
  else { r with state := 3 }

/-- The rows of a device that failed, each with the next spare row of its bank group. -/
def builtRows (rows : List Nat) : List (Nat × Nat) :=
  rows.foldl (fun a r => a ++ [(r, (a.filter fun e => groupOf e.1 == groupOf r).length)]) []

/-- The key of a row: channel, bank and row. -/
def rowKeyOf (e : Nat × Nat × Nat × Nat) : Nat := e.2.1 + 4 * e.2.2.1 + 64 * e.2.2.2

/-- The rows of a device among those found. -/
def rowsOf (l : List (Nat × Nat × Nat × Nat)) (d : Nat) : List Nat := ((l.filter fun e => e.1 == d).map rowKeyOf).eraseDups

/-- A device as the full test leaves it: retired where a channel fails, or where a bank group has no spare row left. -/
def builtDev (f : StartFinds) (d : Nat) : Dev :=
  let rows := builtRows (rowsOf f.badRows d)
  { Dev.reset with retired := f.badDevs.contains d || rows.any (fun e => decide (16 ≤ e.2)), spared := rows.filter fun e => decide (e.2 < 16) }

/-- Rebuild every table from the tests of a full start. It is no change, and is not reported (R86, R587). -/
def State.buildTables (s : State) (f : StartFinds) : State :=
  let s1 := { s with
    phys := f.badCells.eraseDups.foldl (fun t c => Tab.set (fun _ => Phys.reset) t c { Phys.reset with retired := true }) [],
    remap := (List.range 512).foldl (fun t n => Tab.set Remap.full t n (builtEntry f.badCells f.badCombs n)) [],
    frgs := f.badFrgs.eraseDups.foldl (fun t d => Tab.set (fun _ => Frg.reset) t d { Frg.reset with retired := true }) [],
    devs := (List.range 32).foldl (fun t d => Tab.set (fun _ => Dev.reset) t d (builtDev f d)) [],
    reserve := none,
    resets := { s.resets with combOos := f.badCombs.eraseDups } }
  { s1 with boot := { s1.boot with recValid := true, invalid := 0, ageH := 0 },
            mgmt := { s1.mgmt with fulls := (s1.mgmt.fulls + 1) % 2 ^ 32 } }

/-! ### The quick pass (R583, R584, R587) -/

/-- A device fails at a start: into the reserve, or its partition goes out of service (R583). -/
def State.startDevice (s : State) (d : Nat) : State :=
  let p := s.partOfDev d
  if s.boot.reserveOn && s.reserve.isNone then
    ({ s.setDev d { s.dev d with retired := true, need := [] } with reserve := some d }).retire p 4 1 d d d
  else ((s.setDev d { s.dev d with retired := true, need := [] }).escalate p 2 d 0).partOut p

/-- A cell fails the self-test: it is retired, and what it served moves (R77-R79). -/
def State.failCell (s : State) (c : Nat) : State :=
  if (s.physOf c).retired then s
  else
    let s1 := s.setPhys c { s.physOf c with retired := true }
    match s1.servedBy c with
    | some n => s1.replaceCell n
    | none => s1

/-- A comb's router or mover fails (R567, R587). -/
def State.failComb (s : State) (k : Nat) : State :=
  if s.resets.combOos.contains k then s
  else
    let s1 := ({ s with resets := { s.resets with combOos := s.resets.combOos ++ [k] } }).retire (s.partOfComb k) 1 1 k k k
    foldS (fun t n => if (t.remapOf n).state ≤ 1 then t.displace n else t) s1 ((List.range 8).map fun i => 8 * k + i)

/-- The quick pass and the self-test of a quick start or a restart: units that fail are retired and reported, a line that needs
correction is counted, and an uncorrectable line spares its row and spoils the test record (R197, R211, R584, R587, R588). Every page
is filled with zeros and has its stamp written (R199). -/
def State.quickPass (s : State) (f : StartFinds) : State :=
  let s0 := foldS (fun t e => if e.1 < 32 ∧ !(t.dev e.1).retired then t.countCorrected e.1 e.2 else t) s f.corrected
  let s1 := foldS (fun t e => t.spareRow e.1 (rowKeyOf e)) s0 f.badRows
  let s2 := if f.badRows.isEmpty then s1 else s1.spoilRecord 4
  let worn := (List.range 32).filter fun d => !(s2.dev d).need.isEmpty
  let gone := ((f.badDevs ++ worn).filter fun d => !(s2.dev d).retired).eraseDups
  let s3 := foldS State.startDevice s2 gone
  let s4 := if gone.isEmpty then s3 else s3.spoilRecord 5
  let s5 := foldS State.failComb (foldS State.failCell (foldS State.writeStamps s4 (List.range 32)) f.badCells) f.badCombs
  foldS (fun t d => if (t.frg d).retired then t else t.retireForager d) s5 f.badFrgs

/-! ### Step 8 (R577, R585) -/

/-- The guests of the remap table are switched out when cells begin to serve. -/
def State.parkGuests (s : State) : State :=
  foldS (fun t e => if e.2.state = 2 then t.switchTo e.1 false else t) s s.remap

/-- The C-die, M-die and GDDR7 rails are up, and every function reports ready. BRAKE# that is asserted then
applies, and an untrusted coolant sensor sets the coast cap (R495, R579). Reports of the leak test that waited are raised (log 136). -/
def State.reachReady (s : State) (kind : Nat) : State :=
  let s1 := s.elapsedNow.parkGuests
  let s2 := { s1 with
    power := { s1.power with running := true, draining := false, offKind := 0, hot := none, owed := [] },
    boot := { s1.boot with kind := kind, step := 8, halt := 0, ready := List.range s1.parts },
    resets := { s1.resets with beats := Tab.set (fun _ => 0) s1.resets.beats 999 s1.now } }
  let s3 := s2.endService .startHalted
  let s4 := if (!s3.power.inletOk || !s3.power.outletOk) && !s3.power.coast then s3.setCoast 11 else s3
  let s5 := if s4.power.brakePin then
      (s4.protect 5 3 fun t => { t with power := { t.power with brake := true, brakeAt := t.now } }).brakeActions
    else s4
  foldS (fun t r => t.powerReport 6 r.1 r.2.1 r.2.2) s5 s.power.owed

/-! ### A start from PWR_EN (R577-R579, R589, R590, R626) -/

/-- A start halts: shown, reported and lit (R578, R604, R612). -/
def State.haltStart (s : State) (reason : Nat) : State :=
  (({ s with boot := { s.boot with step := 15, halt := reason } }).mEvent 8 reason).lightService .startHalted

/-- A start waits at a step, with its halt reason shown (R579). -/
def State.waitStart (s : State) (step reason : Nat) : State := { s with boot := { s.boot with step := step, halt := reason } }

/-- The bank whose image a start takes (R626): the active one, or else the other. -/
def State.startBank (s : State) (f : StartFinds) : Option Bool :=
  let ok := fun (b : Bool) => s.verifies b (if b then f.imageB else f.imageA)
  if ok s.mgmt.bank then some s.mgmt.bank else if ok (!s.mgmt.bank) then some (!s.mgmt.bank) else none

/-- Phases that fail their check are retired (R480, R579). -/
def State.failPhases (s : State) (l : List Nat) : State :=
  foldS (fun t ph =>
    if t.power.phases.contains ph then t
    else t.reportPhase ph) s l

/-- What is reported at the next start after a fatal stop (R494, R569). -/
def State.reportStop (s : State) : State :=
  let s1 := if s.boot.fatalDue then s.escalateAll 25 s.resets.trigger s.resets.stopTime.toNat else s
  let s2 := if s.boot.tripDue then s1.powerReport 6 12 s1.cap s1.cap else s1
  { s2 with boot := { s2.boot with fatalDue := false, tripDue := false } }

/-- Steps 4 to 8 of a start from PWR_EN. The rack manager's off order holds back the C-die, M-die and GDDR7 rails (R471). -/
def State.bringUp (s : State) (f : StartFinds) : State :=
  let s1 := ({ s with
    boot := { s.boot with mainOn := true },
    mgmt := { s.mgmt with fwState := if s.mgmt.fwState = 7 then 6 else s.mgmt.fwState } }).reportStop
  let s2 := s1.failPhases f.badPhases
  if !s2.power.rackOn then { s2 with boot := { s2.boot with step := 4, kind := 0, halt := 0 } }
  else
    let quick := s2.boot.recValid && s2.barB startKey 0 && !s2.barB startKey 1
    if quick then (s2.quickPass f).reachReady 1
    else
      let s3 := s2.buildTables f
      let lost := (List.range 32).filter fun d => (s3.dev d).retired
      let s4 := foldS (fun t d => (t.escalate (t.partOfDev d) 2 d 0).partOut (t.partOfDev d)) s3 lost
      let pairs := (List.range 16).filter fun i => (s4.frg (2 * i)).retired && (s4.frg (2 * i + 1)).retired
      (foldS (fun t i => t.escalate (t.partOfDev (2 * i)) 5 (2 * i) 0) s4 pairs).reachReady 0

/-- The coolant keeps a start at step 3: COOL_FAULT#, or an inlet above 45 °C (R579), or above the limit over which the module shut
down (R498). -/
def State.coolWaits (s : State) : Bool :=
  s.power.coolPin || decide (720 < s.power.inlet) || match s.power.hot with
    | some m => decide (16 * (m : Int) < s.power.inlet)
    | none => false

/-- Steps 2 and 3: the checks that can make a start wait or halt. -/
def State.startChecks (s : State) (f : StartFinds) : State :=
  if !f.refOk then (s.waitStart 2 5).lightService .startHalted
  else
    let s1 := ({ s with boot := { s.boot with refOk := true } }).endService .refLost
    if !f.coolOk || s1.coolWaits then s1.waitStart 3 3
    else
      let s2 := ({ s1 with power := { s1.power with leakWet := false } }).endService .leak
      if !f.vinOk || !f.railsOk then s2.haltStart 2 else s2.bringUp f

/-- A start that halts while the trial flag is set goes back to the other bank, and runs once more (R626). -/
def State.startRun (s : State) (f : StartFinds) : State :=
  match s.startBank f with
  | none => s.haltStart 1
  | some b =>
    let s1 := if b = s.mgmt.bank then s else ({ s with mgmt := { s.mgmt with bank := b } }).mEvent 8 0
    (s1.measureBoot.measureControllers).startChecks f

/-- The trial image has failed: the pointer goes back, and the flag is cleared (R626). -/
def State.revertTrial (s : State) : State :=
  let t := { s with mgmt := { s.mgmt with bank := !s.mgmt.bank, trial := false } }
  t.setFw 0 9

/-- PWR_EN is asserted anew, with the main domain off (R576, R577, R588, R607, R614, R619, R620, R636). -/
def State.newStart (s : State) : State :=
  let s1 := s.zeroMeasures
  let s2 := { s1 with
    phys := keepPhys s1.phys, frgs := keepFrgs s1.frgs, devs := keepDevs s1.devs,
    boot := { s1.boot with pwrEn := true, again := false, isolated := false, oos := false, halt := 0, step := 1, kind := 0, elapsed := 0 },
    resets := { s1.resets with
      stopped := false, fatal := if s1.resets.fatalRead then [] else s1.resets.fatal, fatalRead := false },
    mgmt := { s1.mgmt with starts := (s1.mgmt.starts + 1) % 2 ^ 32, index := 1024 },
    dbg := { s1.dbg with aon := Tab.set (fun _ => 0) [] 63 s1.now } }
  ((s2.endService .isolated).endService .fatal).endService .thermalTrip

/-- A restart of the main domain after an off order (R580): the tables stay, the swarm role is 0. -/
def State.restart (s : State) (f : StartFinds) : State :=
  let s1 := { s with boot := { s.boot with step := 3 } }
  if !f.refOk then s1.waitStart 2 5
  else if !f.coolOk || s1.coolWaits then s1.waitStart 3 3
  else if !f.vinOk || !f.railsOk then s1.haltStart 2
  else ((s1.failPhases f.badPhases).quickPass f).reachReady 3

/-- A start waits at a step for its condition. -/
def State.startWaits (s : State) : Bool := (s.boot.step == 2 && s.boot.halt == 5) || (s.boot.step == 3 && s.boot.halt == 3)

/-- START (R577-R590): PWR_EN is asserted with the main domain off, a start that waits goes on, or both run orders are on again
after an off order. PWR_EN that rises while the main domain still shuts down begins nothing then, and a start follows (R673). -/
def execStart (f : StartFinds) (s : State) : Host.Outcome State Fault Refusal :=
  whenStandby s <|
    if s.boot.mainOn then
      if !s.boot.pwrEn then .next { s with boot := { s.boot with pwrEn := true, again := true } }
      else whenDue (!s.power.running && !s.power.draining && s.power.hot.isNone && s.power.rackOn && s.barB 0x050008 0) <| .next (s.restart f)
    else
      let anew := !s.boot.pwrEn || s.boot.again
      whenDue (anew || s.startWaits) <|
        let s2 := if anew then s.newStart.startRun f else s.startChecks f
        .next (if s2.boot.step = 15 ∧ s2.mgmt.trial then s2.revertTrial.startRun f else s2)

/-! ### The whole-module reset (R546, R547, R580, R620) -/

/-- Every command that the module holds ends with `ABORTED` (R551). -/
def State.endAll (s : State) : State :=
  let s1 := foldS State.abortWaiting s (List.range s.parts)
  { s1 with cmds := s1.cmds.map fun c =>
      if c.phase = .started then
        { c with phase := .finished, status := if c.status = 0 then 4 else c.status, claimed := 0, signalled := true,
                 hwFail := true }
      else c }

/-- A port trains again: what it knows of its lanes stays (R546). -/
def retrainPort (q : Port) : Port := { Port.reset with state := q.state, healthy := q.healthy, retrains := q.retrains }

/-- A die sensor in a whole-module reset: it is trusted again; its reading and its returns of the last 24 h stay (R490, R491). -/
def trustSensors (t : Tab Sensor) : Tab Sensor :=
  t.foldl (fun a e => Tab.set (fun _ => Sensor.reset) a e.1 { e.2 with state := 0 }) []

/-- The linings turn off: their enables read 0, and the images in far memory stay (R547, log 96). -/
def State.liningsOff (s : State) : State :=
  foldS (fun t p => t.setBarF (0x060108 + 0x10 * p) 0 1 0) s (List.range 4)

/-- The rings stay enabled, and intake resumes from their heads. -/
def Ring.rewind (r : Ring) : Ring := { r with rd := r.head, rdWrap := r.headWrap, relog := [] }

/-- What a whole-module reset clears and keeps (R546). `back` says that it is taken after the reference has returned: any other
reset leaves a module without its reference as it is in that (R29). Droop detectors stay as they are (R26), and the brake stays
in force (R481). -/
def State.resetAll (s : State) (back : Bool) : State :=
  let keep := fun (u : State) => if s.braking then u.brakeControls else u
  let t := s.endAll.liningsOff
  let b := t.boot
  let w := fun k lo n => t.barF k lo n
  keep { State.reset with
    ext := t.ext, remap := t.remap,
    phys := t.phys,
    frgs := lostFrgs t.frgs, devs := lostDevs t.devs, reserve := t.reserve,
    cmds := t.cmds, rings := t.rings.map fun e => (e.1, e.2.rewind), reps := t.reps, watches := t.watches,
    commits := t.commits, bar := t.bar, stg := t.bar, farTag := t.farTag,
    link := { HostLink.reset with perst := t.link.perst },
    fab := { Fabric.reset with
      phys := t.fab.phys, logical := t.fab.logical, placed := t.fab.placed, routes := t.fab.routes, hives := t.fab.hives,
      ports := t.fab.ports.foldl (fun a e => Tab.set (fun _ => Port.reset) a e.1 (retrainPort e.2)) [], noStreams := true },
    swarm := { Swarm.reset with hbStopped := true },
    epochs := t.epochs.filterMap fun e =>
      if e.2.abandoned = 0 then none else some (e.1, { Epoch.reset with abandoned := e.2.abandoned }),
    place := { t.place with busy := false },
    power := { t.power with
      wins := [], opp := [], rise := [],
      gov := [], rail := [], memPct := 100, linkPct := 100, gate := 1, governed := { links := 0, mem := 0, comp := 0 }, idleFrom := [], allow := [], therm := [],
      thermDies := 0, depth := [], waking := [], sensors := trustSensors t.power.sensors },
    resets := { t.resets with
      busy := t.resets.busy, running := [({ domain := 3, number := 0, late := false } : ResetIn)], gens := [], genAt := [],
      expired := [], partOos := [], moduleOos := false },
    boot := { b with
      refOk := b.refOk || back, oscHeld := b.oscHeld && !back, kind := 2, step := 7, halt := 0, ready := [],
      modeNow := min (w 0x080000 0 2) 2, ownerNow := w 0x080000 16 2, reserveOn := w 0x020000 0 1 == 1,
      homeNow := (List.range 4).foldl (fun a p => Tab.set (fun _ => 0) a p (w (0x020010 + 8 * p) 0 13)) [],
      zeroFill := if w 0x080000 0 2 ≠ b.modeNow ∨ (w 0x020000 0 1 == 1) ≠ b.reserveOn then [4]
        else (List.range 4).filter fun p => w (0x020010 + 8 * p) 0 13 != Tab.get (fun _ => 0) b.homeNow p },
    mgmt := { t.mgmt with fwState := if t.mgmt.fwState = 7 then 6 else if t.mgmt.fwState = 5 then 0 else t.mgmt.fwState },
    dbg := { t.dbg with frState := 0, istReq := none, istRun := none, istRes := if t.dbg.istRun.isSome then 3 else t.dbg.istRes },
    nextId := t.nextId, freeCtr := t.freeCtr, pending := t.pending }

/-- WHOLE_MODULE_RESET (R29, R545-R547, R580, R620): requested, or taken after the reference has returned. The functions
report ready when RESET_COMPLETE ends it. -/
def execWholeModuleReset (cause : ResetCause) (finds : StartFinds) (s : State) : Host.Outcome State Fault Refusal :=
  whenLive s <|
    let due := match cause with
      | .requested => s.asked 3 0
      | .refReturn => !s.boot.refOk && !s.resetting 3 0
      | _ => false
    whenDue due <|
      let s1 := s.trace 11 0 3 0 0 0
      let s2 := (foldS State.restPort (s1.resetAll (cause == .refReturn)) (List.range 18)).measureAgain
      let s3 := if s2.power.running then (s2.quickPass finds).parkGuests else s2
      let s4 := (if cause = .refReturn then s3.endService .refLost else s3).endService .outOfService
      .next (if cause = .refReturn then s4.countModule else s4)

end Sys2Proof.Machine
end

