-- ==== Sys2Proof/Machine/Placement.lean ====
section
/-!
DEFINITION. The placement descriptor: its read, its checks, and its acceptance (R449, R468, R591-R598).
-/

namespace Sys2Proof.Machine

/-! ### Fields of the descriptor (R592-R595) -/

/-- The 8-byte word of a descriptor at an offset. -/
def pword (raw : List Byte) (off : Nat) : Nat := leNat (slice raw off 8)

/-- The field of a descriptor at an offset. -/
def pfield (raw : List Byte) (off lsb width : Nat) : Nat := bits (pword raw off) lsb width

/-- The own physical number. -/
def placePhys (raw : List Byte) : Nat := pfield raw 0x10 0 12

/-- The own logical number. -/
def placeLogical (raw : List Byte) : Nat := pfield raw 0x10 12 12

/-- The swarm role. -/
def placeRole (raw : List Byte) : Nat := pfield raw 0x10 24 3

/-- The manager. -/
def placeManager (raw : List Byte) : Nat := pfield raw 0x10 28 12

/-- The deputies listed, in succession order. -/
def placeDeputies (raw : List Byte) : List Nat := (List.range (pfield raw 0x10 40 3)).map fun j => pfield raw 0x18 (12 * j) 12

/-- The spares listed, in order of preference. -/
def placeSpares (raw : List Byte) : List Nat :=
  (List.range (pfield raw 0x10 48 7)).map fun j => leNat (slice raw (0x0220 + 2 * j) 2) % 4096

/-- Logical module `n` is a member. -/
def placeMember (raw : List Byte) (n : Nat) : Bool := bit (leNat (slice raw (0x0400 + n / 8) 1)) (n % 8)

/-- The members in ascending order. -/
def placeMembers (raw : List Byte) : List Nat := (List.range 4096).filter (placeMember raw)

/-- The routing entry of logical module `n`. -/
def placeRoute (raw : List Byte) (n : Nat) : Route :=
  let w := pword raw (0x8000 + 8 * n)
  { valid := bit w 0, phys := BitVec.ofNat 12 (bits w 1 12), mask := BitVec.ofNat 12 (bits w 13 12) }

/-- The hive entry of an index. -/
def placeHive (raw : List Byte) (i : Nat) : Hive :=
  let w := pword raw (0x4000 + 8 * i)
  { adaptive := BitVec.ofNat 6 w, switchOk := bit w 6, prefer := bit w 7 }

/-- The port entry of port `p`. -/
def placePort (raw : List Byte) (p : Nat) : PPort :=
  let w := pword raw (0x0100 + 16 * p)
  { wired := bit w 0, phys := BitVec.ofNat 12 (bits w 1 12), port := BitVec.ofNat 5 (bits w 13 5),
    serial := BitVec.ofNat 64 (pword raw (0x0108 + 16 * p)) }

/-- The number of region entries. -/
def placeCount (raw : List Byte) : Nat := pfield raw 0x20 0 13

/-- Region entry `i`. -/
def placeRegion (raw : List Byte) (i : Nat) : Region :=
  let o := 0x10000 + 32 * i
  { module := pfield raw o 0 12, kind := pfield raw o 12 4, part := pfield raw o 16 2, target := pfield raw (o + 8) 0 22,
    size := pfield raw (o + 16) 0 14 }

/-- Every region entry. -/
def placeRegions (raw : List Byte) : List Region := (List.range (placeCount raw)).map (placeRegion raw)

/-- The current limit of rail `i` in A. -/
def placeRail (raw : List Byte) (i : Nat) : Nat := leNat (slice raw (0x0640 + 2 * i) 2)

/-! ### The checks (R596) -/

/-- The bits of the word at an offset that are reserved or padding (R592-R595). The signature section is none of them: it holds
a signature of either length (log 97). -/
def reservedBits (off : Nat) : Nat :=
  let all := 2 ^ 64 - 1
  let above := fun (k : Nat) => all - (2 ^ k - 1)
  if off = 0x00 then 0xFFFF0000
  else if off = 0x10 then 2 ^ 27 + (2 ^ 48 - 2 ^ 43) + above 55
  else if off = 0x18 then above 48
  else if off = 0x20 then above 13
  else if off < 0x30 then 0
  else if off < 0xF8 then all
  else if off < 0x100 then 0
  else if off < 0x220 then (if off % 16 = 0 then above 18 else 0)
  else if off < 0x2A0 then 0xF000F000F000F000
  else if off < 0x400 then all
  else if off < 0x600 then 0
  else if off = 0x600 then above 16
  else if off = 0x610 then 0xF000 + above 32
  else if off < 0x628 then 0
  else if off < 0x640 then all
  else if off < 0x668 then 0
  else if off = 0x668 then above 32
  else if off < 0x1000 then all
  else if off < 0x4000 then 0
  else if off < 0x4800 then above 8
  else if off < 0x8000 then all
  else if off < 0x10000 then above 25
  else if off % 32 = 0 then above 18
  else if off % 32 = 8 then above 22
  else if off % 32 = 16 then above 14
  else all

/-- Check 2: the first word with a reserved or padding bit set. -/
def firstReserved (raw : List Byte) : Option Nat :=
  ((List.range (raw.length / 8)).map fun i => 8 * i).find? fun o => pword raw o &&& reservedBits o != 0

/-- Check 5: the first wired port whose expected partner is not the one that its link reaches. -/
def firstPort (raw : List Byte) : Option Nat :=
  let own := placePhys raw
  ((List.range 18).find? fun p =>
    let e := placePort raw p
    let phys := if p < 12 then own else own / 8 * 8 + neighbour ((p - 12) / 2) (own % 8)
    e.wired && !(e.phys.toNat == phys && e.port.toNat == p)).map fun p => 0x0100 + 16 * p

/-- Check 6: role, manager, deputies and spares agree. -/
def roleFault (raw : List Byte) : Option Nat :=
  let own := placeLogical raw
  let role := placeRole raw
  let valid := fun n => (placeRoute raw n).valid
  let mine := placeMember raw own
  if 4 < pfield raw 0x10 40 3 ∨ 64 < pfield raw 0x10 48 7 ∨ 4 < role then some 0x10
  else if role = 3 ∧ placeManager raw ≠ own then some 0x10
  else if role = 2 ∧ (placeDeputies raw).head? ≠ some own then some 0x10
  else if 1 ≤ role ∧ role ≤ 3 ∧ !mine then some (0x0400 + own / 64 * 8)
  else if role = 4 ∧ mine then some (0x0400 + own / 64 * 8)
  else if !valid (placeManager raw) then some 0x10
  else if !(placeDeputies raw).all valid then some 0x18
  else ((List.range (placeSpares raw).length).find? fun j => !valid ((placeSpares raw).getD j 0)).map fun j => 0x0220 + 2 * j

/-- Check 7: the envelope's signature verifies under the owner key; without one, none does (R617). -/
def State.envelopeSigned (s : State) (raw : List Byte) : Bool :=
  match s.mgmt.owner with
  | some k => Config.signed (envelopeOf raw) k (slice raw 0x1000 12288)
  | none => false

/-- Check 9: the first value of the envelope outside R595. -/
def envelopeFault (raw : List Byte) : Option Nat :=
  let watts := pfield raw 0x0610 0 12
  let inlet := pfield raw 0x0610 16 8
  let rise := pfield raw 0x0610 24 8
  if watts < 800 ∨ 2400 < watts ∨ inlet < 20 ∨ 45 < inlet ∨ rise < 5 ∨ 25 < rise then some 0x0610
  else ((List.range 22).find? fun i => decide (placeRail raw i < 1) || decide (railMax i < placeRail raw i)).map fun i => 0x0640 + 2 * i

/-- Check 10: the first region entry of size 0, or of a module and kind that an earlier entry has. -/
def regionFault (raw : List Byte) : Option Nat :=
  let l := placeRegions raw
  ((List.range l.length).find? fun i =>
    let e := placeRegion raw i
    e.size == 0 || (l.take i).any fun d => d.module == e.module && d.kind == e.kind).map fun i => 0x10000 + 32 * i

/-- The CRC of a descriptor, over it with its own field counted as zero. -/
def placeCrc (raw : List Byte) : Nat := crc64 (raw.take 0xF8 ++ List.replicate 8 0 ++ raw.drop 0x100)

/-- Check 1. -/
def State.formFault (s : State) (readOk : Bool) (raw : List Byte) : Option Nat :=
  if !readOk || raw.length != s.place.length || decide (raw.length < 0x10000) then some 0
  else if pfield raw 0 32 32 ≠ raw.length ∨ 0x10000 + 32 * placeCount raw ≠ raw.length ∨ 4096 < placeCount raw then some 0
  else if pfield raw 0 0 16 ≠ 1 then some 0
  else if pword raw 0xF8 ≠ placeCrc raw then some 0xF8
  else if pfield raw 0x0600 0 16 ≠ 1 then some 0x0600
  else none

/-- Check 11: a placement stands, and the fabric-owner partition is at work. -/
def State.placeBusy (s : State) : Bool :=
  s.fab.placed && (((List.range 64).any fun r => !s.ringIdle s.owner r) || !s.coll.colls.isEmpty)

/-- The first check that fails: its reason, and the offset of the field (R596). -/
def State.checkPlacement (s : State) (readOk : Bool) (raw : List Byte) : Option (Nat × Nat) :=
  let own := placeLogical raw
  match s.formFault readOk raw with
  | some o => some (1, o)
  | none => match firstReserved raw with
    | some o => some (2, o)
    | none =>
      if pword raw 0x08 ≠ Config.serial.toNat then some (3, 0x08)
      else if pword raw 0x0608 ≠ Config.serial.toNat then some (3, 0x0608)
      else if !(placeRoute raw own).valid || (placeRoute raw own).phys.toNat != placePhys raw then some (4, 0x8000 + 8 * own)
      else match firstPort raw with
        | some o => some (5, o)
        | none => match roleFault raw with
          | some o => some (6, o)
          | none =>
            if !s.envelopeSigned raw then some (7, 0x1000)
            else if pword raw 0x0620 < s.place.envSeq.toNat then some (8, 0x0620)
            else match envelopeFault raw with
              | some o => some (9, o)
              | none => match regionFault raw with
                | some o => some (10, o)
                | none => if s.placeBusy then some (11, 0) else none

/-! ### Acceptance (R597, R598) -/

/-- The lining regions that a placement lists for one module. -/
def ownRegions (l : List Region) (n : Nat) : List Region := l.filter fun r => r.module == n && r.kind == 1

/-- What a placement that replaces another clears (R598): streams and retransmit store, with new tags; and the lining, where the
module's numbers, role or own lining region change. -/
def State.replacePlacement (s : State) (raw : List Byte) : State :=
  let p := s.owner
  let s1 := s.dropTraffic.withdraw fun q => q.seqd
  let s2 := { s1 with fab := { s1.fab with tx := [], rx := [], rtx := [] } }
  let s3 := s2.advanceGens (s2.enginesOf p)
  let same := placePhys raw == s.fab.phys.toNat && placeLogical raw == s.fab.logical.toNat && placeRole raw == s.swarm.role &&
    ownRegions (placeRegions raw) (placeLogical raw) == ownRegions s.place.regions (placeLogical raw)
  if same || !s3.linOn p then s3 else (s3.setBarF (0x060108 + 0x10 * p) 0 1 0).liningOff p

/-- The registers and tables that the descriptor gives (R399, R449, R597). -/
def State.loadPlacement (s : State) (raw : List Byte) : State :=
  let deps := placeDeputies raw
  { s with
    fab := { s.fab with
      phys := BitVec.ofNat 12 (placePhys raw), logical := BitVec.ofNat 12 (placeLogical raw), placed := true,
      routes := (List.range 4096).foldl (fun t n => Tab.set (fun _ => Route.reset) t n (placeRoute raw n)) [],
      hives := (List.range 256).foldl (fun t i => Tab.set (fun _ => Hive.reset) t i (placeHive raw i)) [], noStreams := false },
    swarm := { Swarm.reset with
      role := placeRole raw, manager := placeManager raw, deputies := deps, hasDeputy := !deps.isEmpty,
      members := placeMembers raw, spares := placeSpares raw, quench := s.swarm.quench },
    place := { s.place with
      raw := raw, id := BitVec.ofNat 64 (pword raw 0x28),
      ports := (List.range 18).foldl (fun t p => Tab.set (fun _ => PPort.reset) t p (placePort raw p)) [],
      regions := placeRegions raw, envSeq := BitVec.ofNat 64 (pword raw 0x0620), refused := false, reason := 0, offset := 0 } }

/-- The envelope takes effect, with `POWER_EVENT` reason 9 (R468, R469, R597). -/
def State.loadEnvelope (s : State) (raw : List Byte) : State :=
  let s1 := s.setCap fun t => { t with power := { t.power with
    lowered := [], env := pfield raw 0x0610 0 12, inletMax := pfield raw 0x0610 16 8, riseMax := pfield raw 0x0610 24 8,
    rails := (List.range 22).map (placeRail raw) } }
  s1.powerReport 5 9 s1.cap s1.cap

/-- Accept a descriptor: it takes effect at once (R597). -/
def State.acceptPlacement (s : State) (raw : List Byte) : State :=
  let s1 := if s.fab.placed then s.replacePlacement raw else s
  let s2 := (s1.loadPlacement raw).loadEnvelope raw
  let s3 := foldS State.comparePort s2 (List.range 18)
  s3.measurePlacement.askAdmission

/-- Go: the descriptor is read, unless one is being read or checked (R591). -/
def State.placementGo (s : State) (length : Nat) : State :=
  if s.place.busy then s else { s with place := { s.place with busy := true, length := length } }

/-- PLACEMENT_GO (R591). -/
def execPlacementGo (length : Nat) (s : State) : Host.Outcome State Fault Refusal :=
  whenLive s <|
    let t := s.hostContact.setBarF 0x080018 0 18 length
    .next (t.placementGo (length % 2 ^ 18))

/-- PLACEMENT_CHECK (R596-R598): the read has ended, and the descriptor is accepted or refused whole. Tags may advance only 4 µs
after they last did (R554). -/
def execPlacementCheck (readOk : Bool) (bytes : List Byte) (s : State) : Host.Outcome State Fault Refusal :=
  whenLive s <| whenDue (s.place.busy && (!s.fab.placed || s.gensFree (s.enginesOf s.owner))) <|
    let s1 := { s with place := { s.place with busy := false } }
    .next (match s1.checkPlacement (readOk && s.link.up) bytes with
      | some (r, o) => { s1 with place := { s1.place with refused := true, reason := r, offset := o } }
      | none => s1.acceptPlacement bytes)

end Sys2Proof.Machine
end

