-- ==== Sys2Proof/Machine/RegisterWrite.lean ====
section
/-!
DEFINITION. Writes of BAR0 registers (R40, R327, R329, R332, R398, R472, R568, R591, R618, R627, R652, R659).
-/

namespace Sys2Proof.Machine

/-- A write of BAR0: the offset of its 8-byte register, the bits it reaches, and the values for them (R327): 4 or 8 bytes,
naturally aligned. -/
def writeLanes (off size : Nat) (value : Word) : Option (Nat × Word × Word) :=
  if size = 8 ∧ off % 8 = 0 then some (off, BitVec.allOnes 64, value)
  else if size = 4 ∧ off % 4 = 0 then
    let m : Word := if off % 8 = 0 then 0xFFFFFFFF else 0xFFFFFFFF00000000
    some (off - off % 8, m, (if off % 8 = 0 then value else value <<< 32) &&& m)
  else none

/-- The function may write a register (R40, R324). -/
def State.mayWrite (s : State) (fn : Nat) (r : RegRow) (i : Nat) : Bool :=
  match r.writer with
  | .fn0 => fn == 0
  | .own => true
  | .nth => i == fn
  | .window => s.hostWinPart i == fn

/-- The bits of the fields of an access. -/
def accMask (fields : List Field) (a : Acc) : Word :=
  fields.foldl (fun m f => if f.acc = a then m ||| BitVec.ofNat 64 ((2 ^ f.width - 1) * 2 ^ f.lsb) else m) 0

/-- A word with the bits of a mask replaced. -/
def blend (old m v : Word) : Word := (old &&& ~~~m) ||| (v &&& m)

/-- The stored fields of a register are written: RWC fields are staged, RW fields take effect (R329). -/
def State.storeReg (s : State) (key : Nat) (fields : List Field) (m v : Word) : State :=
  let c := m &&& accMask fields .rwc
  let w := m &&& accMask fields .rw
  { s with
    stg := Tab.set regReset s.stg key (blend (Tab.get regReset s.stg key) (c ||| w) v),
    wrote := Tab.set (fun _ => 0) s.wrote key (Tab.get (fun _ => 0) s.wrote key ||| c),
    bar := Tab.set regReset s.bar key (blend (Tab.get regReset s.bar key) w v) }

/-- `QFB_RT` (R398): the host writes plane_mask, which the routing table holds. -/
def State.writePlanes (s : State) (n : Nat) (m v : Word) : State :=
  let r := s.route n
  let old : Word := (r.mask.setWidth 64) <<< 13
  { s with fab := { s.fab with
      routes := Tab.set (fun _ => Route.reset) s.fab.routes n
        { r with mask := ((blend old m v) >>> 13).setWidth 12 } } }

/-- `CFG_STATUS` (R332): writing 1 clears a sticky bit. -/
def State.clearSticky (s : State) (fn : Nat) (v : Word) : State :=
  let c := s.commitOf fn
  s.setCommit fn { c with clamped := c.clamped && !v.getLsbD 0, overflow := c.overflow && !v.getLsbD 1 }

/-- `AVL_RESET` (R568): a reset is asked for, unless one is under way or the number names nothing in the mode. -/
def State.askReset (s : State) (domain number : Nat) : State :=
  let ok := match domain with
    | 0 => decide (number < 512)
    | 1 => decide (number < 64)
    | 2 => decide (number < s.parts)
    | _ => true
  if s.resets.busy || !ok then s
  else { s with resets := { s.resets with busy := true, request := some (domain, if domain = 3 then 0 else number) } }

/-- What the write-only bits of a register do. -/
def State.writeOnly (s : State) (off : Nat) (v : Word) : State :=
  let w := v.toNat
  if off = 0x050010 then if bit w 19 then s.clearDemand else s
  else if off = 0x061000 then if bit w 17 then s.askReset (bits w 0 2) (bits w 8 9) else s
  else if off = 0x07B000 then
    let s1 := if bit w 0 then s.freezeGo else s
    if bit w 1 then s1.freezeEnd else s1
  else if off = 0x07C000 then if bit w 13 then s.testGo (bits w 0 3) (bits w 3 10) (bits w 14 16) else s
  else if off = 0x080018 then if bit w 18 then s.placementGo (s.barF 0x080018 0 18) else s
  else s

/-- A write that reaches the bits `m` of the register at an offset with the values `v`. RWL fields ignore it while the update
lock is set (R618). -/
def State.writeReg (s : State) (fn off : Nat) (m v : Word) : State :=
  if off = 0x001000 then if v.getLsbD 0 then s.requestCommit fn else s
  else match regAt off with
    | none => s
    | some (r, i) =>
      if !s.mayWrite fn r i then s
      else if off = 0x001008 then s.clearSticky fn v
      else if r.base = 0x038000 then s.writePlanes i (m &&& accMask r.fields .rw) v
      else if off = 0x080030 ∧ s.mgmt.lock then s
      else
        let t := (s.storeReg (regKey fn off) r.fields m v).writeOnly off v
        if off = 0x050008 ∧ m.getLsbD 0 then { t with power := { t.power with hostOrder := v.getLsbD 0 } } else t

/-- The registers that the Collar keeps from module firmware (R633): far and host windows and the `QFB` block (R222, R326, R399).
-/
def collarReg (off : Nat) : Bool :=
  (decide (0x021000 ≤ off) && decide (off < 0x021080)) || (decide (0x011000 ≤ off) && decide (off < 0x011100)) ||
    off / 0x10000 == 3

/-- REGISTER_WRITE (R40, R222, R327, R329, R610, R634): a write of another size or alignment is discarded. A write that originates
in module firmware (`fw`) to a register that the Collar keeps is discarded, counted and reported; the spec has firmware write no
other register of BAR0. -/
def execRegisterWrite (w : RegWriter) (off size : Nat) (value : Word) (s : State) : Host.Outcome State Fault Refusal :=
  whenFormed (decide (w.fn < 4)) <|
  whenLive s <| whenDue (s.hasFn w.fn && (!w.fw || collarReg off)) <|
    if w.fw then .next s.collarClamp
    else
      let t := s.hostContact
      .next (match writeLanes off size value with
        | some (o, m, v) => t.writeReg w.fn o m v
        | none => t)

end Sys2Proof.Machine
end

