-- ==== Sys2Proof/Machine/Words.lean ====
section
/-!
DEFINITION. The instructions that read cell memory, under its check bits (R51, R52): a single-bit error is corrected and counted;
data with an uncorrectable error are not delivered, and the instruction waits or its command ends (R503).
-/

namespace Sys2Proof.Machine

/-- Run an instruction of cell `c` that reads the ranges `ranges` of memory. -/
def withWords (c : Nat) (g : Guard) (ranges : List (Nat × Nat)) (s : State) (k : Host.Outcome State Fault Refusal) :
    Host.Outcome State Fault Refusal :=
  if s.flips.isEmpty then k
  else
    match k with
    | .next t =>
      if s.executes c g true && (t.cell c).run == .issuing then
        let bad := (ranges.flatMap fun r => s.badWords r.1 r.2).eraseDups
        if bad.isEmpty then .next (t.bump 51 (ranges.foldl (fun x r => x + s.correctable r.1 r.2) 0))
        else if s.awaitsRepair (s.partOfCell c) bad then .refused .cellNotIssuing
        else .next (s.loseWords (s.partOfCell c) (s.cell c).cmd.toList bad)
      else .next t
    | o => o

/-- The bytes that hold `n` elements from column `c` of `rows` rows of plane 0, with their scale bytes (R109). -/
def Tile.reads (t : Tile) (r0 rows c n : Nat) : List (Nat × Nat) :=
  (List.range rows).flatMap fun i =>
    (t.rowAddr (r0 + i) 0 + c * t.width / 8, (n * t.width + 7) / 8) ::
      if isMx t.fmt then [(t.scaleAddr (r0 + i) c, n / 32)] else []

/-- ld. -/
def execLd (c : Nat) (f : F1) (s : State) : Host.Outcome State Fault Refusal :=
  withWords c f.g [((s.cell c).arch.address f, scalarBytes f.ty)] s (runLd c f s)

/-- st: a store narrower than a word reads the rest of it, which `State.freshen` corrects (R51); it is not performed where that has an
uncorrectable error (R52). -/
def execSt (c : Nat) (f : F1) (s : State) : Host.Outcome State Fault Refusal :=
  let r := ((s.cell c).arch.address f, scalarBytes f.ty)
  if f.ty.toNat < 3 && !(s.badWords r.1 r.2).isEmpty then withWords c f.g [r] s (runSt c f s) else runSt c f s

/-- vld. -/
def execVld (c : Nat) (f : F1) (s : State) : Host.Outcome State Fault Refusal :=
  withWords c f.g [((s.cell c).arch.address f, 256)] s (runVld c f s)

/-- ldt. -/
def execLdt (c : Nat) (f : F1) (s : State) : Host.Outcome State Fault Refusal :=
  withWords c f.g [((s.cell c).arch.address f, 32)] s (runLdt c f s)

/-- ea.ldi. -/
def execEaLdi (c : Nat) (f : F1) (s : State) : Host.Outcome State Fault Refusal :=
  withWords c f.g [((s.cell c).arch.address f, 80)] s (runEaLdi c f s)

/-- mma: the rows of both operands at its K step. -/
def execMma (c : Nat) (f : F3) (s : State) : Host.Outcome State Fault Refusal :=
  let a := (s.cell c).arch
  let ta := tileOf (a.treg f.ta.toNat)
  let tb := tileOf (a.treg f.tb.toNat)
  let ranges := match mmaShape ta.fmt with
    | some (M, N, K, _) => if ta.empty || tb.empty then [] else
        ta.reads ((a.sreg f.sm.toNat).toNat * M) M ((a.sreg f.sk.toNat).toNat * K) K ++
          tb.reads ((a.sreg f.sn.toNat).toNat * N) N ((a.sreg f.sk.toNat).toNat * K) K
    | none => []
  withWords c f.g ranges s (runMma c f s)

/-- acc.ld: the rows of its block. -/
def execAccLd (c : Nat) (f : F3) (s : State) : Host.Outcome State Fault Refusal :=
  let a := (s.cell c).arch
  let t := tileOf (a.treg f.ta.toNat)
  let r := blockRows f.aty.toNat
  withWords c f.g (if t.empty then [] else t.reads ((a.sreg f.sm.toNat).toNat * r) r ((a.sreg f.sn.toNat).toNat * 64) 64) s
    (runAccLd c f s)

/-- tm: the rows of its source, where they lie in cell memory. -/
def execTm (c : Nat) (f : F4) (s : State) : Host.Outcome State Fault Refusal :=
  let t := tileOf ((s.cell c).arch.treg f.ts.toNat)
  withWords c f.g (if t.empty || t.malformed false then [] else
      (List.range t.d2).flatMap fun p => (List.range t.d1).map fun r => (t.rowAddr r p, t.rowBytes)) s (runTm c f s)

/-- coll and forg: the descriptor. -/
def readDesc (c : Nat) (f : F5) (s : State) (k : Host.Outcome State Fault Refusal) : Host.Outcome State Fault Refusal :=
  let a := (s.cell c).arch
  withWords c f.g [((a.sreg f.sa.toNat).toNat, (a.operand f).toNat)] s k

/-- coll: hand a descriptor to the collective engine. -/
def execColl (c : Nat) (f : F5) (s : State) : Host.Outcome State Fault Refusal := readDesc c f s (handOver c f true s)

/-- forg: hand a descriptor to a forager sequencer. -/
def execForg (c : Nat) (f : F5) (s : State) : Host.Outcome State Fault Refusal := readDesc c f s (handOver c f false s)

end Sys2Proof.Machine
end

