-- ==== Sys2Proof/Machine/Residue.lean ====
section
/-!
DEFINITION. The exact-accumulate instructions under the residue checks of their adders (R61, R179-R182).
-/

namespace Sys2Proof.Machine

/-- Count a residue repeat (R638, R640). -/
def State.countRepeat (s : State) (c : Nat) : State := (s.bump 52 1).bumpPart (s.partOfCell c) 19 1

/-- Run an instruction under the residue checks (R61, R182): a repeat changes no result; a second mismatch makes the
cell a failed unit, its result is never delivered, and the test record becomes invalid (R588). -/
def withResidue (c : Nat) (g : Guard) (u : Upset) (s : State) (k : Host.Outcome State Fault Refusal) :
    Host.Outcome State Fault Refusal :=
  match u with
  | .none => k
  | .repeated =>
    match k with
    | .next t => .next (if s.executes c g true && (t.cell c).run == .issuing then t.countRepeat c else t)
    | o => o
  | .lasting =>
    match k with
    | .next t =>
      let phys := (s.remapOf c).phys
      match s.servedBy phys with
      | some n => .next (if s.executes c g true && (t.cell c).run == .issuing then ((s.countRepeat c).spoilRecord 4).retireCell phys n else t)
      | none => .next t
    | o => o

/-- What the checks before a read-out or an image store of accumulator `r` see (R181): stored residues that differ from those of the
limbs differ in the repeat too. -/
def State.storedUpset (s : State) (c r : Nat) (u : Upset) : Upset :=
  if (s.cell c).arch.residuesOk r then u else .lasting

/-- What is presented to a chain of limb adders (R180): the sum so far, the other operand, the carry in, and the limbs. -/
structure LimbChain where
  a     : Nat
  b     : Nat
  cin   : Nat
  limbs : Nat
  deriving DecidableEq, Repr

/-- A signed part added to a sum of `n` limbs: a negative one is presented as the complement of its magnitude, with a carry in. -/
def chainOf (n : Nat) (a part : Int) : LimbChain :=
  let m := wrap (64 * n) part.natAbs
  { a := wrap (64 * n) a, b := if part < 0 then 2 ^ (64 * n) - 1 - m else m, cin := if part < 0 then 1 else 0, limbs := n }

/-- The adders' predictions agree with the residues of their sums (R180). -/
def LimbChain.ok (c : LimbChain) : Bool := addChecks c.a c.b c.limbs 0 c.cin

/-- The limb additions of a value (R169, R175): nine limbs of an `EXACT` sum, two of each bin of a `BINNED64` one, in its window. -/
def Accu.valueChains (kind : Nat) (a : Accu) (v : Fp) : List LimbChain :=
  match v with
  | .fin n m e =>
    if m = 0 then []
    else if kind = 1 then [chainOf 9 a.x (v.atExp (-192))]
    else
      let a := if a.kind = 0 then { a with bwin := -26 } else a
      let a := if a.bwin < window m e then a.shift (window m e - a.bwin).toNat else a
      [chainOf 2 a.b0 (slotPart n m e a.bwin), chainOf 2 a.b1 (slotPart n m e (a.bwin - 1)),
        chainOf 2 a.b2 (slotPart n m e (a.bwin - 2))]
  | _ => []

/-- The limb additions of an accumulator to another of its kind (R171, R175): two's complements, in one window. -/
def Accu.mergeChains (a o : Accu) : List LimbChain :=
  if a.kind = 0 ∨ o.kind = 0 then []
  else if a.kind = 1 then [{ a := wrap 576 a.x, b := wrap 576 o.x, cin := 0, limbs := 9 }]
  else
    let b := max a.bwin o.bwin
    let a := a.shift (b - a.bwin).toNat
    let o := o.shift (b - o.bwin).toNat
    [(a.b0, o.b0), (a.b1, o.b1), (a.b2, o.b2)].map fun e => { a := wrap 128 e.1, b := wrap 128 e.2, cin := 0, limbs := 2 }

/-- The limb additions of a list of values, one after another. -/
def Accu.sumChains (kind : Nat) : Accu → List Fp → List LimbChain
  | _, [] => []
  | a, v :: vs => a.valueChains kind v ++ Accu.sumChains kind (a.add kind v) vs

/-- What the adders' checks see (R180): the predictions hold for every sum that is right. -/
def adderUpset (cs : List LimbChain) (u : Upset) : Upset := if cs.all LimbChain.ok then u else .lasting

/-- The limb additions of the lanes of ra into accumulator rd. -/
def State.laneChains (s : State) (n : Nat) (f : F0) (lanes : List Nat) : List LimbChain :=
  let a := (s.cell n).arch
  Accu.sumChains (eaKind f.ty.toNat) (accuOpen (a.ereg f.rd.toNat).toNat)
    (lanes.map fun l => (elemOf f.ty.toNat).decode (a.vlane f.ty.toNat f.ra l))

/-- The limb additions of an image into accumulator rd. -/
def State.imageChains (s : State) (n : Nat) (rd : BitVec 5) (img : Nat) : List LimbChain :=
  (accuOpen ((s.cell n).arch.ereg rd.toNat).toNat).mergeChains (accuOpen img)

/-- ea.add. -/
def execEaAdd (c : Nat) (f : F0) (u : Upset) (s : State) : Host.Outcome State Fault Refusal :=
  withResidue c f.g (adderUpset (s.laneChains c f (List.range (laneCount f.ty.toNat))) u) s (runEaAdd c f s)

/-- ea.addm. -/
def execEaAddm (c : Nat) (f : F0) (u : Upset) (s : State) : Host.Outcome State Fault Refusal :=
  withResidue c f.g (adderUpset (s.laneChains c f
    ((List.range (laneCount f.ty.toNat)).filter fun l => (s.cell c).arch.vlane f.ty.toNat f.rb l != 0)) u) s (runEaAddm c f s)

/-- ea.rd: the stored residues are compared before the read-out (R181). -/
def execEaRd (c : Nat) (f : F0) (u : Upset) (s : State) : Host.Outcome State Fault Refusal :=
  withResidue c f.g (s.storedUpset c f.ra.toNat u) s (runEaRd c f s)

/-- ea.merge. -/
def execEaMerge (c : Nat) (f : F0) (u : Upset) (s : State) : Host.Outcome State Fault Refusal :=
  withResidue c f.g (adderUpset (s.imageChains c f.rd ((s.cell c).arch.ereg f.ra.toNat).toNat) u) s (runEaMerge c f s)

/-- ea.addi. -/
def execEaAddi (c : Nat) (f : F1) (u : Upset) (s : State) : Host.Outcome State Fault Refusal :=
  withWords c f.g [((s.cell c).arch.address f, 80)] s <|
    withResidue c f.g (adderUpset (s.imageChains c f.rd (leNat (s.memBytes ((s.cell c).arch.address f) 80))) u) s (runEaAddi c f s)

/-- ea.sti: the stored residues are compared before the store (R181). -/
def execEaSti (c : Nat) (f : F1) (u : Upset) (s : State) : Host.Outcome State Fault Refusal :=
  withResidue c f.g (s.storedUpset c f.rd.toNat u) s (runEaSti c f s)

/-- acc.rd: images are summed and stored under the residue checks (R118, R181); images that are added to are read. -/
def execAccRd (c : Nat) (w : AccRead) (s : State) : Host.Outcome State Fault Refusal :=
  let f := w.f
  let a := (s.cell c).arch
  let t := tileOf (a.treg f.ta.toNat)
  let r := blockRows f.aty.toNat
  let image := a.amode != 0
  withWords c f.g (if image && f.cm == 1 && !t.empty then
      t.reads ((a.sreg f.sm.toNat).toNat * r) r ((a.sreg f.sn.toNat).toNat * 64) 64 else []) s <|
    withResidue c f.g (if image then w.u else .none) s (runAccRd c f s)

end Sys2Proof.Machine
end

