-- ==== Sys2Proof/Machine/Dispatch.lean ====
section
/-!
DEFINITION. The dispatch: one arm per command, each a direct call of the command's meaning.
-/

namespace Sys2Proof.Machine

/-- The effect of a command on everything but the queue. -/
def exec (i : Instr) (s : State) : Host.Outcome State Fault Refusal :=
  match i with
  | .seamPacketArrival frm at_ inj crcOk => Sys2Proof.Machine.execSeamPacketArrival frm at_ inj crcOk s
  | .droopTrip island => Sys2Proof.Machine.execDroopTrip island s
  | .droopClear island => Sys2Proof.Machine.execDroopClear island s
  | .referenceLoss => Sys2Proof.Machine.execReferenceLoss s
  | .standbyPresent straps => Sys2Proof.Machine.execStandbyPresent straps s
  | .standbyLoss => Sys2Proof.Machine.execStandbyLoss s
  | .zeroFillComplete => Sys2Proof.Machine.execZeroFillComplete s
  | .bankStarvation cell off w => Sys2Proof.Machine.execBankStarvation cell off w s
  | .add c f => Sys2Proof.Machine.execAdd c f s
  | .sub c f => Sys2Proof.Machine.execSub c f s
  | .mul c f => Sys2Proof.Machine.execMul c f s
  | .mulh c f => Sys2Proof.Machine.execMulh c f s
  | .mulhu c f => Sys2Proof.Machine.execMulhu c f s
  | .div c f => Sys2Proof.Machine.execDiv c f s
  | .divu c f => Sys2Proof.Machine.execDivu c f s
  | .rem c f => Sys2Proof.Machine.execRem c f s
  | .remu c f => Sys2Proof.Machine.execRemu c f s
  | .and c f => Sys2Proof.Machine.execAnd c f s
  | .or c f => Sys2Proof.Machine.execOr c f s
  | .xor c f => Sys2Proof.Machine.execXor c f s
  | .shl c f => Sys2Proof.Machine.execShl c f s
  | .shr c f => Sys2Proof.Machine.execShr c f s
  | .sra c f => Sys2Proof.Machine.execSra c f s
  | .min c f => Sys2Proof.Machine.execMin c f s
  | .max c f => Sys2Proof.Machine.execMax c f s
  | .cmp c f => Sys2Proof.Machine.execCmp c f s
  | .plog c f => Sys2Proof.Machine.execPlog c f s
  | .csrr c f => Sys2Proof.Machine.execCsrr c f s
  | .csrw c f => Sys2Proof.Machine.execCsrw c f s
  | .rdid c f => Sys2Proof.Machine.execRdid c f s
  | .addi c f => Sys2Proof.Machine.execAddi c f s
  | .li c f => Sys2Proof.Machine.execLi c f s
  | .lui c f => Sys2Proof.Machine.execLui c f s
  | .ld c f => Sys2Proof.Machine.execLd c f s
  | .st c f => Sys2Proof.Machine.execSt c f s
  | .cmpi c f => Sys2Proof.Machine.execCmpi c f s
  | .andi c f => Sys2Proof.Machine.execAndi c f s
  | .vadd c f => Sys2Proof.Machine.execVadd c f s
  | .vsub c f => Sys2Proof.Machine.execVsub c f s
  | .vmul c f => Sys2Proof.Machine.execVmul c f s
  | .vfma c f => Sys2Proof.Machine.execVfma c f s
  | .vfms c f => Sys2Proof.Machine.execVfms c f s
  | .vmin c f => Sys2Proof.Machine.execVmin c f s
  | .vmax c f => Sys2Proof.Machine.execVmax c f s
  | .vun c f => Sys2Proof.Machine.execVun c f s
  | .vand c f => Sys2Proof.Machine.execVand c f s
  | .vor c f => Sys2Proof.Machine.execVor c f s
  | .vxor c f => Sys2Proof.Machine.execVxor c f s
  | .vsh c f => Sys2Proof.Machine.execVsh c f s
  | .vcmp c f => Sys2Proof.Machine.execVcmp c f s
  | .vsel c f => Sys2Proof.Machine.execVsel c f s
  | .vperm c f => Sys2Proof.Machine.execVperm c f s
  | .vslide c f => Sys2Proof.Machine.execVslide c f s
  | .vcvt c f => Sys2Proof.Machine.execVcvt c f s
  | .vtr c f => Sys2Proof.Machine.execVtr c f s
  | .vbcast c f => Sys2Proof.Machine.execVbcast c f s
  | .vins c f => Sys2Proof.Machine.execVins c f s
  | .vext c f => Sys2Proof.Machine.execVext c f s
  | .vld c f => Sys2Proof.Machine.execVld c f s
  | .vst c f => Sys2Proof.Machine.execVst c f s
  | .mma c f => Sys2Proof.Machine.execMma c f s
  | .accLd c f => Sys2Proof.Machine.execAccLd c f s
  | .accRd c r => Sys2Proof.Machine.execAccRd c r s
  | .tm c f => Sys2Proof.Machine.execTm c f s
  | .tileMoveComplete c slot => Sys2Proof.Machine.execTileMoveComplete c slot s
  | .tmWait c f => Sys2Proof.Machine.execTmWait c f s
  | .ldt c f => Sys2Proof.Machine.execLdt c f s
  | .stt c f => Sys2Proof.Machine.execStt c f s
  | .tset c f => Sys2Proof.Machine.execTset c f s
  | .tadv c f => Sys2Proof.Machine.execTadv c f s
  | .eaClr c f => Sys2Proof.Machine.execEaClr c f s
  | .eaAdd c f u => Sys2Proof.Machine.execEaAdd c f u s
  | .eaAddm c f u => Sys2Proof.Machine.execEaAddm c f u s
  | .eaRd c f u => Sys2Proof.Machine.execEaRd c f u s
  | .eaLdi c f => Sys2Proof.Machine.execEaLdi c f s
  | .eaAddi c f u => Sys2Proof.Machine.execEaAddi c f u s
  | .eaSti c f u => Sys2Proof.Machine.execEaSti c f u s
  | .eaMerge c f u => Sys2Proof.Machine.execEaMerge c f u s
  | .sigAdd c f => Sys2Proof.Machine.execSigAdd c f s
  | .sigSet c f => Sys2Proof.Machine.execSigSet c f s
  | .waitGe c f => Sys2Proof.Machine.execWaitGe c f s
  | .waitEq c f => Sys2Proof.Machine.execWaitEq c f s
  | .testGe c f => Sys2Proof.Machine.execTestGe c f s
  | .sread c f => Sys2Proof.Machine.execSread c f s
  | .cellWaitPoll c => Sys2Proof.Machine.execCellWaitPoll c s
  | .fenceLocal c f => Sys2Proof.Machine.execFenceLocal c f s
  | .fenceRemote c f => Sys2Proof.Machine.execFenceRemote c f s
  | .coll c f => Sys2Proof.Machine.execColl c f s
  | .forg c f => Sys2Proof.Machine.execForg c f s
  | .forgRefusal c => Sys2Proof.Machine.execForgRefusal c s
  | .br c f => Sys2Proof.Machine.execBr c f s
  | .brl c f => Sys2Proof.Machine.execBrl c f s
  | .jr c f => Sys2Proof.Machine.execJr c f s
  | .loop c f => Sys2Proof.Machine.execLoop c f s
  | .nop c w => Sys2Proof.Machine.execNop c w s
  | .halt c f => Sys2Proof.Machine.execHalt c f s
  | .cellFailed phys => Sys2Proof.Machine.execCellFailed phys s
  | .guestSwitch host => Sys2Proof.Machine.execGuestSwitch host s
  | .guestSwitchComplete e => Sys2Proof.Machine.execGuestSwitchComplete e s
  | .saveAreaMoveComplete e => Sys2Proof.Machine.execSaveAreaMoveComplete e s
  | .kernel id => Sys2Proof.Machine.execKernel id s
  | .kernelImageLoaded id => Sys2Proof.Machine.execKernelImageLoaded id s
  | .move id piece => Sys2Proof.Machine.execMove id piece s
  | .forage id => Sys2Proof.Machine.execForage id s
  | .collect id => Sys2Proof.Machine.execCollect id s
  | .sync id => Sys2Proof.Machine.execSync id s
  | .fence id => Sys2Proof.Machine.execFence id s
  | .epoch id => Sys2Proof.Machine.execEpoch id s
  | .powerWakeTolerance id => Sys2Proof.Machine.execPowerWakeTolerance id s
  | .powerDefaultOpp id => Sys2Proof.Machine.execPowerDefaultOpp id s
  | .nopCommand id => Sys2Proof.Machine.execNopCommand id s
  | .commandStart id => Sys2Proof.Machine.execCommandStart id s
  | .commandComplete id => Sys2Proof.Machine.execCommandComplete id s
  | .voltageSettled die => Sys2Proof.Machine.execVoltageSettled die s
  | .closeMemoryRequest addr wr len errs cmd => Sys2Proof.Machine.execCloseMemoryRequest addr wr len errs cmd s
  | .deviceRetire dev cause => Sys2Proof.Machine.execDeviceRetire dev cause s
  | .scrub dev line errs flips => Sys2Proof.Machine.execScrub dev line errs flips s
  | .farCompletion tag out => Sys2Proof.Machine.execFarCompletion tag out s
  | .farTimeout tag => Sys2Proof.Machine.execFarTimeout tag s
  | .windowDrainComplete host window => Sys2Proof.Machine.execWindowDrainComplete host window s
  | .stream id => Sys2Proof.Machine.execStream id s
  | .reduce r => Sys2Proof.Machine.execReduce r s
  | .gather id => Sys2Proof.Machine.execGather id s
  | .scatter r => Sys2Proof.Machine.execScatter r s
  | .histogram id => Sys2Proof.Machine.execHistogram id s
  | .compact id => Sys2Proof.Machine.execCompact id s
  | .transpose id => Sys2Proof.Machine.execTranspose id s
  | .csr r => Sys2Proof.Machine.execCsr r s
  | .copy id => Sys2Proof.Machine.execCopy id s
  | .fill id => Sys2Proof.Machine.execFill id s
  | .foragerDescriptorComplete id => Sys2Proof.Machine.execForagerDescriptorComplete id s
  | .liningCopy part granule => Sys2Proof.Machine.execLiningCopy part granule s
  | .liningBudgetSplit => Sys2Proof.Machine.execLiningBudgetSplit s
  | .copyBeforeWrite dev granule off data => Sys2Proof.Machine.execCopyBeforeWrite dev granule off data s
  | .cellCopyBeforeWrite cell granule off data => Sys2Proof.Machine.execCellCopyBeforeWrite cell granule off data s
  | .foragerRetire frg => Sys2Proof.Machine.execForagerRetire frg s
  | .syncObjectUpdate sig => Sys2Proof.Machine.execSyncObjectUpdate sig s
  | .waitRetest id => Sys2Proof.Machine.execWaitRetest id s
  | .backInvalidateComplete a => Sys2Proof.Machine.execBackInvalidateComplete a s
  | .hostMemRead fn a => Sys2Proof.Machine.execHostMemRead fn a s
  | .hostMemWrite fn a data => Sys2Proof.Machine.execHostMemWrite fn a data s
  | .hostLinkDown => Sys2Proof.Machine.execHostLinkDown s
  | .hostLinkLost => Sys2Proof.Machine.execHostLinkLost s
  | .perstAssert => Sys2Proof.Machine.execPerstAssert s
  | .perstDeassert => Sys2Proof.Machine.execPerstDeassert s
  | .registerWrite w off size value => Sys2Proof.Machine.execRegisterWrite w off size value s
  | .cfgCommit fn => Sys2Proof.Machine.execCfgCommit fn s
  | .commitComplete fn => Sys2Proof.Machine.execCommitComplete fn s
  | .watchedLineInvalidation part line => Sys2Proof.Machine.execWatchedLineInvalidation part line s
  | .watchedLinePoll => Sys2Proof.Machine.execWatchedLinePoll s
  | .farLinePoll part => Sys2Proof.Machine.execFarLinePoll part s
  | .doorbellUpdate part ring slot => Sys2Proof.Machine.execDoorbellUpdate part ring slot s
  | .reportLineUpdate part line => Sys2Proof.Machine.execReportLineUpdate part line s
  | .entryIntake part ring desc => Sys2Proof.Machine.execEntryIntake part ring desc s
  | .dripPointerMismatch cp => Sys2Proof.Machine.execDripPointerMismatch cp s
  | .headLineWrite part ring => Sys2Proof.Machine.execHeadLineWrite part ring s
  | .portTrained port phys pport serial => Sys2Proof.Machine.execPortTrained port phys pport serial s
  | .laneRetire port lane => Sys2Proof.Machine.execLaneRetire port lane s
  | .linkRetrain port => Sys2Proof.Machine.execLinkRetrain port s
  | .portFailed port => Sys2Proof.Machine.execPortFailed port s
  | .flitReceive port f => Sys2Proof.Machine.execFlitReceive port f s
  | .replayTimeout port => Sys2Proof.Machine.execReplayTimeout port s
  | .idleFlit port => Sys2Proof.Machine.execIdleFlit port s
  | .packetRoute frm p residence => Sys2Proof.Machine.execPacketRoute frm p residence s
  | .decideAgain place residence => Sys2Proof.Machine.execDecideAgain place residence s
  | .ageDiscard place => Sys2Proof.Machine.execAgeDiscard place s
  | .retransmitTimeout cls dstLog seq => Sys2Proof.Machine.execRetransmitTimeout cls dstLog seq s
  | .write p => Sys2Proof.Machine.execWrite p s
  | .read p => Sys2Proof.Machine.execRead p s
  | .rdata p => Sys2Proof.Machine.execRdata p s
  | .ack p => Sys2Proof.Machine.execAck p s
  | .refuse p => Sys2Proof.Machine.execRefuse p s
  | .sigaddPkt p => Sys2Proof.Machine.execSigaddPkt p s
  | .sigsetPkt p => Sys2Proof.Machine.execSigsetPkt p s
  | .relay p => Sys2Proof.Machine.execRelay p s
  | .mgmt p => Sys2Proof.Machine.execMgmt p s
  | .quench p => Sys2Proof.Machine.execQuench p s
  | .quenchRelease p => Sys2Proof.Machine.execQuenchRelease p s
  | .allreduce id => Sys2Proof.Machine.execAllreduce id s
  | .reduceScatter id => Sys2Proof.Machine.execReduceScatter id s
  | .allgather id => Sys2Proof.Machine.execAllgather id s
  | .broadcast id => Sys2Proof.Machine.execBroadcast id s
  | .barrier id => Sys2Proof.Machine.execBarrier id s
  | .allToAll id => Sys2Proof.Machine.execAllToAll id s
  | .waggle r => Sys2Proof.Machine.execWaggle r s
  | .grant p => Sys2Proof.Machine.execGrant p s
  | .coldata r => Sys2Proof.Machine.execColdata r s
  | .collectiveComplete id => Sys2Proof.Machine.execCollectiveComplete id s
  | .swarmHeartbeatSend => Sys2Proof.Machine.execSwarmHeartbeatSend s
  | .swarmHeartbeat p => Sys2Proof.Machine.execSwarmHeartbeat p s
  | .tableUpdate p => Sys2Proof.Machine.execTableUpdate p s
  | .admissionRequest p => Sys2Proof.Machine.execAdmissionRequest p s
  | .admissionResult p => Sys2Proof.Machine.execAdmissionResult p s
  | .takeover p => Sys2Proof.Machine.execTakeover p s
  | .managerLost => Sys2Proof.Machine.execManagerLost s
  | .faultNotice p => Sys2Proof.Machine.execFaultNotice p s
  | .collectiveAbort p => Sys2Proof.Machine.execCollectiveAbort p s
  | .boundaryRequest p => Sys2Proof.Machine.execBoundaryRequest p s
  | .memberDeclaredFailed module => Sys2Proof.Machine.execMemberDeclaredFailed module s
  | .noManager => Sys2Proof.Machine.execNoManager s
  | .governorLoop m => Sys2Proof.Machine.execGovernorLoop m s
  | .powerSample r => Sys2Proof.Machine.execPowerSample r s
  | .brakeAssert => Sys2Proof.Machine.execBrakeAssert s
  | .brakeRelease => Sys2Proof.Machine.execBrakeRelease s
  | .offDrainTimeout => Sys2Proof.Machine.execOffDrainTimeout s
  | .mainDomainShutdown => Sys2Proof.Machine.execMainDomainShutdown s
  | .idleDepthEntry part idleUs => Sys2Proof.Machine.execIdleDepthEntry part idleUs s
  | .wake part => Sys2Proof.Machine.execWake part s
  | .sensorSample dies inlet outlet => Sys2Proof.Machine.execSensorSample dies inlet outlet s
  | .sensorRetrust sensor => Sys2Proof.Machine.execSensorRetrust sensor s
  | .coolFaultAssert => Sys2Proof.Machine.execCoolFaultAssert s
  | .riseLimitExceeded => Sys2Proof.Machine.execRiseLimitExceeded s
  | .coastClear => Sys2Proof.Machine.execCoastClear s
  | .inletOverLimit => Sys2Proof.Machine.execInletOverLimit s
  | .leakDetected => Sys2Proof.Machine.execLeakDetected s
  | .leakSelfTest isOpen => Sys2Proof.Machine.execLeakSelfTest isOpen s
  | .epochTimer part => Sys2Proof.Machine.execEpochTimer part s
  | .takeBoundary part => Sys2Proof.Machine.execTakeBoundary part s
  | .syncInEdge => Sys2Proof.Machine.execSyncInEdge s
  | .syncOutEdge => Sys2Proof.Machine.execSyncOutEdge s
  | .markerDrain part p => Sys2Proof.Machine.execMarkerDrain part p s
  | .drainComplete part => Sys2Proof.Machine.execDrainComplete part s
  | .markerDrained part p => Sys2Proof.Machine.execMarkerDrained part p s
  | .contextWritten part => Sys2Proof.Machine.execContextWritten part s
  | .markerCaptured part p => Sys2Proof.Machine.execMarkerCaptured part p s
  | .localCommit part => Sys2Proof.Machine.execLocalCommit part s
  | .markerCommitted part p => Sys2Proof.Machine.execMarkerCommitted part p s
  | .repair part granules => Sys2Proof.Machine.execRepair part granules s
  | .recoveryStart part p => Sys2Proof.Machine.execRecoveryStart part p s
  | .restoreComplete part => Sys2Proof.Machine.execRestoreComplete part s
  | .swarmRestored part p => Sys2Proof.Machine.execSwarmRestored part p s
  | .replayDone part => Sys2Proof.Machine.execReplayDone part s
  | .cellReset cell cause => Sys2Proof.Machine.execCellReset cell cause s
  | .combReset comb cause => Sys2Proof.Machine.execCombReset comb cause s
  | .partitionReset part cause => Sys2Proof.Machine.execPartitionReset part cause s
  | .wholeModuleReset cause finds => Sys2Proof.Machine.execWholeModuleReset cause finds s
  | .resetComplete domain number => Sys2Proof.Machine.execResetComplete domain number s
  | .drainLimit domain number => Sys2Proof.Machine.execDrainLimit domain number s
  | .watchdogExpiry id => Sys2Proof.Machine.execWatchdogExpiry id s
  | .heartbeat kind unit => Sys2Proof.Machine.execHeartbeat kind unit s
  | .cellHung cell => Sys2Proof.Machine.execCellHung cell s
  | .foragerHung frg => Sys2Proof.Machine.execForagerHung frg s
  | .controllerHung kind index => Sys2Proof.Machine.execControllerHung kind index s
  | .fatalStop trigger record => Sys2Proof.Machine.execFatalStop trigger record s
  | .start finds => Sys2Proof.Machine.execStart finds s
  | .pwrEnRelease => Sys2Proof.Machine.execPwrEnRelease s
  | .vinUndervoltage => Sys2Proof.Machine.execVinUndervoltage s
  | .vinRecover => Sys2Proof.Machine.execVinRecover s
  | .vinIsolate => Sys2Proof.Machine.execVinIsolate s
  | .placementGo length => Sys2Proof.Machine.execPlacementGo length s
  | .placementCheck readOk bytes => Sys2Proof.Machine.execPlacementCheck readOk bytes s
  | .dynamicAddressAssign setdasa addr => Sys2Proof.Machine.execDynamicAddressAssign setdasa addr s
  | .mctpControl known => Sys2Proof.Machine.execMctpControl known s
  | .pldmGetSensor sensor => Sys2Proof.Machine.execPldmGetSensor sensor s
  | .pldmSetEffecter effecter value => Sys2Proof.Machine.execPldmSetEffecter effecter value s
  | .pldmPollEvent => Sys2Proof.Machine.execPldmPollEvent s
  | .ibi => Sys2Proof.Machine.execIbi s
  | .i3cBusStuck => Sys2Proof.Machine.execI3cBusStuck s
  | .i3cBusRecover => Sys2Proof.Machine.execI3cBusRecover s
  | .getStatus => Sys2Proof.Machine.execGetStatus s
  | .setRackCap w => Sys2Proof.Machine.execSetRackCap w s
  | .setRun on => Sys2Proof.Machine.execSetRun on s
  | .setHoldup on => Sys2Proof.Machine.execSetHoldup on s
  | .lights locate seconds => Sys2Proof.Machine.execLights locate seconds s
  | .lightsClearService => Sys2Proof.Machine.execLightsClearService s
  | .locateExpiry => Sys2Proof.Machine.execLocateExpiry s
  | .readInventory => Sys2Proof.Machine.execReadInventory s
  | .appendRework entry => Sys2Proof.Machine.execAppendRework entry s
  | .readFatal off => Sys2Proof.Machine.execReadFatal off s
  | .readMember module => Sys2Proof.Machine.execReadMember module s
  | .setStart quickOk forceFull => Sys2Proof.Machine.execSetStart quickOk forceFull s
  | .identity => Sys2Proof.Machine.execIdentity s
  | .attest nonce => Sys2Proof.Machine.execAttest nonce s
  | .readLog first => Sys2Proof.Machine.execReadLog first s
  | .fwBegin length => Sys2Proof.Machine.execFwBegin length s
  | .fwData off data => Sys2Proof.Machine.execFwData off data s
  | .fwReceiveTimeout => Sys2Proof.Machine.execFwReceiveTimeout s
  | .fwEnd => Sys2Proof.Machine.execFwEnd s
  | .fwVerifyDone loaded => Sys2Proof.Machine.execFwVerifyDone loaded s
  | .fwActivate => Sys2Proof.Machine.execFwActivate s
  | .fwActivationTimeout => Sys2Proof.Machine.execFwActivationTimeout s
  | .fwConfirm => Sys2Proof.Machine.execFwConfirm s
  | .fwAbort => Sys2Proof.Machine.execFwAbort s
  | .ownerEnrol key => Sys2Proof.Machine.execOwnerEnrol key s
  | .ownerSetLock serial sequence body signature => Sys2Proof.Machine.execOwnerSetLock serial sequence body signature s
  | .ownerClearLock serial sequence body signature => Sys2Proof.Machine.execOwnerClearLock serial sequence body signature s
  | .ownerReplaceKey serial sequence key body signature => Sys2Proof.Machine.execOwnerReplaceKey serial sequence key body signature s
  | .ownerRelease serial sequence body signature => Sys2Proof.Machine.execOwnerRelease serial sequence body signature s
  | .silentHoldEnter => Sys2Proof.Machine.execSilentHoldEnter s
  | .demandClear fn => Sys2Proof.Machine.execDemandClear fn s
  | .freeze fn => Sys2Proof.Machine.execFreeze fn s
  | .freezeRelease fn => Sys2Proof.Machine.execFreezeRelease fn s
  | .dumpComplete => Sys2Proof.Machine.execDumpComplete s
  | .istCell => Sys2Proof.Machine.execIstCell s
  | .istForager => Sys2Proof.Machine.execIstForager s
  | .istLane => Sys2Proof.Machine.execIstLane s
  | .istPhase => Sys2Proof.Machine.execIstPhase s
  | .istComplete passed errors => Sys2Proof.Machine.execIstComplete passed errors s
  | .hostLinkUp flit256 => Sys2Proof.Machine.execHostLinkUp flit256 s
  | .coolFaultDeassert => Sys2Proof.Machine.execCoolFaultDeassert s
  | .regulatorPhaseRetire phase => Sys2Proof.Machine.execRegulatorPhaseRetire phase s
  | .fwControllersReady => Sys2Proof.Machine.execFwControllersReady s
  | .wakeComplete part => Sys2Proof.Machine.execWakeComplete part s
  | .hourCountUpdate => Sys2Proof.Machine.execHourCountUpdate s

end Sys2Proof.Machine
end

