-- ==== Sys2Proof/Machine/Tick.lean ====
section
/-!
DEFINITION. What the module does while no command waits: one tick of the 100 MHz reference (R415, R417, R636, R638; log 20).
-/

namespace Sys2Proof.Machine

/-- A port's injection bucket fills for one tick: at 1 GB/s, 10 bytes in 10 ns, up to its depth (R380, R415). -/
def State.fillPort (s : State) (p : Nat) : State :=
  let k := 0x030200 + 8 * p
  let q := s.port p
  s.setPort p { q with bucket := min (q.bucket + 10 * s.barF k 8 8) (1024 * s.barF k 16 16) }

/-- One more `CTL` packet may leave each microsecond, up to 64 (R417). -/
def State.fillCtl (s : State) : State :=
  if s.now.toNat % 100 = 0 then { s with fab := { s.fab with ctlCredit := min 64 (s.fab.ctlCredit + 1) } } else s

/-- An upset flips a stored bit of cell memory (R51, log 121): a data or check bit of one of its 64-bit words. -/
def State.flip (s : State) : Option (Nat × Nat) → State
  | some (w, b) =>
    if w < 2 ^ 28 ∧ b < 72 then
      { s with flips := Tab.set (fun _ => 0) s.flips w (Tab.get (fun _ => 0) s.flips w ^^^ 2 ^ b) }
    else s
  | none => s

/-- Counter 63 advances while standby power and the reference are present (R29, R636); the buckets fill, the ports send and
the watchdogs count while the main domain runs, and upsets strike the cell memory while its rails are on. -/
def State.tick (s : State) : State :=
  if s.boot.standby && s.boot.refOk then
    let t := s.bump 63 1
    if t.live then
      let u := (foldS State.pumpPort (foldS State.fillPort t (List.range 18)) (List.range 18)).fillCtl.watchdogs
      if u.power.running then u.flip (Config.upset u.now.toNat) else u
    else t
  else s

end Sys2Proof.Machine
end

