-- ==== Sys2Proof/Machine/Step.lean ====
section
/-!
DEFINITION. One step: the command at the front of the queue, or one tick of the reference where none waits.
-/

namespace Sys2Proof.Machine

/-- The state with a queue of commands. -/
def State.withQueue (s : State) (q : List Instr) : State := { s with pending := q }

/-- One step: the command at the front of the queue is taken off it and runs; on an empty queue the reference ticks. -/
def step (s : State) : Host.Outcome State Fault Refusal :=
  match s.pending with
  | [] => .next s.tick
  | c :: q => exec c (s.withQueue q)

/-- The command that a table word spells, put at the front of the queue. No row of the table gives bits, so no word
spells a command and the state is unchanged. -/
def State.withFetchWord (s : State) (nbits w : Nat) : State :=
  match decodeTableWord nbits w with
  | some c => s.withQueue (c :: s.pending)
  | none => s

end Sys2Proof.Machine
end

