-- ==== Sys2Proof/Machine/RegRead.lean ====
section
/-!
DEFINITION. What a read of BAR0 returns (R327-R329 and the register tables of every block). No row of the opcode table reads a
register and no rule gives a read an effect: the view is a function of the state.
-/

namespace Sys2Proof.Machine

/-! ### Fields that something other than the module writes (R329) -/

/-- What the written fields of a register read as: an RWC field its staged value, which a commit makes the value applied (R329),
but in a register that only function 0 may write the value in effect (R41); an RW field its value; a write-only field 0 (log
107). -/
def State.setUpWord (s : State) (fn off : Nat) : Nat :=
  match regAt off with
  | none => 0
  | some (r, _) =>
    let key := regKey fn off
    packW (r.fields.map fun f => (f.lsb, f.width, match f.acc with
      | .rwc => bits (if r.writer == .fn0 then s.barW key else s.stgW key) f.lsb f.width
      | .rw => bits (s.barW key) f.lsb f.width
      | _ => 0))

/-! ### Fields that only the module writes -/

/-- The number of a register of a row that starts at `base`, with a distance of `stride`, if the offset is one of `count`. -/
def nthAt (base stride count off : Nat) : Option Nat :=
  if base ≤ off ∧ (off - base) % stride = 0 ∧ (off - base) / stride < count then some ((off - base) / stride) else none

/-- `ID` (R328). -/
def State.idWord (s : State) (fn off : Nat) : Nat :=
  match off with
  | 0x00 => packW [(0, 16, 0x4820), (16, 4, Config.stepping.toNat)]
  | 0x08 => packW [(0, 16, s.arev)]
  | 0x10 => packW [(0, 2, fn), (2, 2, min s.boot.modeNow 2)]
  | 0x18 => Config.serial.toNat
  | 0x20 => packW [(0, 32, (s.image s.runBank).release.toNat), (32, 1, bitN s.runBank)]
  | _ => 0

/-- `CFG` and the clamp log (R332, R333; fields of more than 48 bits, log 144). -/
def State.cfgWord (s : State) (fn off : Nat) : Nat :=
  let c := s.commitOf fn
  if off = 0x001000 then packW [(1, 1, bitN c.busy), (2, 1, bitN c.again), (16, 32, c.count)]
  else if off = 0x001008 then packW [(0, 1, bitN c.clamped), (1, 1, bitN c.overflow), (8, 7, c.log.length)]
  else match nthAt 0x001400 8 128 off with
    | none => 0
    | some i => match c.log[i / 2]? with
      | none => 0
      | some (o, lsb, written, applied) =>
        let e := packW [(0, 24, o), (24, 6, lsb), (32, 48, written), (80, 48, applied)]
        bits e (64 * (i % 2)) 64

/-- A window that drains (R224, R326). -/
def State.drainsOf (s : State) (host : Bool) (i : Nat) : Bool := s.drains.any fun d => d.host == host && d.num == i

/-- `HIF` (R324, R337). -/
def State.hifWord (s : State) (fn off : Nat) : Nat :=
  if off = 0x010040 then packW [(6, 1, bitN (s.rep fn).active)]
  else if off = 0x010048 then
    let q := s.rep fn
    packW [(0, 16, q.tail), (16, 1, bitN q.wrap), (32, 9, q.held.length), (48, 16, min q.lost 65535)]
  else match nthAt 0x011008 0x10 16 off with
    | some j => packW [(36, 1, bitN (s.hostWin j).isSome), (37, 1, bitN (s.drainsOf true j))]
    | none => match nthAt 0x014008 0x40 64 off with
      | some i => packW [(8, 1, bitN (s.ring fn i).active), (9, 1, bitN (s.ringIdle fn i))]
      | none => match nthAt 0x014018 0x40 64 off with
        | some i =>
          let r := s.ring fn i
          packW [(0, 16, r.head), (16, 1, bitN r.headWrap), (32, 16, r.tail), (48, 1, bitN r.tailWrap)]
        | none => 0

/-- The bank groups of a device without a free spare row (R211, R218). -/
def Dev.exhausted (v : Dev) : Nat :=
  ((List.range 16).filter fun g => decide (16 ≤ (v.spared.filter fun e => groupOf e.1 == g).length)).length

/-- The state of a forager (R278, R279, R281; with its device retired, log 142). -/
def State.frgState (s : State) (n : Nat) : Nat :=
  if !(s.frg n).retired then 0 else if (s.frg (n ^^^ 1)).retired then 2 else 1

/-- `MEM` (R205, R206, R208, R218, R219, R221, R281). -/
def State.memWord (s : State) (off : Nat) : Nat :=
  if off = 0x020000 then
    packW [(1, 1, bitN s.boot.reserveOn), (2, 1, bitN (s.barB 0x020000 0 != s.boot.reserveOn))]
  else if off = 0x020008 then
    packW [(16, 32, (((List.range 32).filter fun d => !(s.dev d).retired).map fun d => (s.dev d).passes).foldl min (2 ^ 32 - 1))]
  else if off = 0x020040 then
    packW [(0, 18, s.addressable / 2 ^ 20), (24, 1, bitN s.boot.reserveOn), (25, 1, bitN s.reserve.isSome), (26, 5, s.reserve.getD 0)]
  else match nthAt 0x020010 8 4 off with
    | some p =>
      let a := Tab.get (fun _ => 0) s.boot.homeNow p
      packW [(16, 13, a), (31, 1, bitN (s.barF (0x020010 + 8 * p) 0 13 != a))]
    | none => match nthAt 0x020100 8 32 off with
      | some d =>
        let v := s.dev d
        packW [(0, 2, bitN v.retired), (2, 9, v.spared.length), (11, 5, v.exhausted),
          (16, 16, min 65535 (v.ues.filter fun e => s.recent e.2).length)]
      | none => match nthAt 0x020200 8 32 off with
        | some n =>
          let f := s.frg n
          packW [(0, 2, s.frgState n), (2, 1, bitN f.running.isSome), (3, 5, f.queue.length), (16, 32, min f.completed (2 ^ 32 - 1))]
        | none => match nthAt 0x021008 0x10 8 off with
          | some i => packW [(16, 1, bitN (s.farWin i).isSome), (17, 1, bitN (s.drainsOf false i))]
          | none => 0

/-- `QFB` (R379, R397, R398, R400). -/
def State.qfbWord (s : State) (off : Nat) : Nat :=
  if off = 0x030000 then packW [(0, 12, s.fab.phys.toNat), (12, 12, s.fab.logical.toNat), (24, 1, bitN s.fab.placed)]
  else match nthAt 0x030100 8 18 off with
    | some k =>
      let q := s.port k
      packW [(0, 3, q.state), (3, 9, q.lanes.toNat), (12, 12, q.pPhys.toNat), (24, 5, q.pPort.toNat), (32, 16, min q.retrains 65535)]
    | none => match nthAt 0x031000 8 256 off with
      | some i =>
        let h := Tab.get (fun _ => Hive.reset) s.fab.hives i
        packW [(0, 6, h.adaptive.toNat), (6, 1, bitN h.switchOk), (7, 1, bitN h.prefer)]
      | none => match nthAt 0x038000 8 4096 off with
        | some n =>
          let r := s.route n
          packW [(0, 1, bitN r.valid), (1, 12, r.phys.toNat), (13, 12, r.mask.toNat)]
        | none => 0

/-- `COL` (R424, R448, R449). -/
def State.colWord (s : State) (off : Nat) : Nat :=
  if off = 0x040000 then s.swarmWord
  else if off = 0x040010 then
    packW [(0, 7, s.coll.colls.length), (8, 12, s.coll.lastLaggard), (20, 20, s.coll.lastWait), (40, 24, s.coll.lagCount)]
  else match nthAt 0x040100 8 16 off with
    | some t => packW [(38, 1, bitN (s.team t).active), (40, 1, bitN (s.rank t).isSome), (41, 12, (s.rank t).getD 0)]
    | none => 0

/-- `PWR` (R462, R472, R479, R491, R496). `PWR_MEAS` is the mean of the twenty windows of the last 1 ms, in whole W. -/
def State.pwrWord (s : State) (off : Nat) : Nat :=
  if off = 0x050000 then s.pwrCapWord - s.barF 0x050000 0 12
  else if off = 0x050008 then s.pwrRunWord - s.barF 0x050008 0 1
  else if off = 0x050040 then
    let m := fun f => s.meanOf 20 f / 1000
    packW [(0, 12, m (·.input)), (12, 12, m (·.compute)), (24, 12, m (·.memory)), (36, 12, m (·.links)), (48, 12, m (·.other))]
  else if off = 0x050048 then s.pwrStatWord
  else if off = 0x050058 then s.coolWord
  else match nthAt 0x050100 8 4 off with
    | some p => packW [(24, 3, Tab.get (fun _ => 0) s.power.depth p)]
    | none => match nthAt 0x050200 8 16 off with
      | some i => packW [(0, 11, (oppRow i).1), (16, 10, Config.oppMv i)]
      | none => match nthAt 0x050300 8 60 off with
        | some n =>
          let x := s.sensor n
          packW [(0, 16, int16 x.temp), (16, 2, x.state), (18, 2, min 3 (s.returnsOf x))]
        | none => match nthAt 0x058000 8 1024 off with
          | some i =>
            let e := s.demandOf i
            packW [(0, 16, e.comb), (16, 16, e.mem), (32, 16, min e.samples 65535)]
          | none => 0

/-- `AVL_CELL_CAP` (R88). -/
def State.cellCapWord (s : State) : Nat :=
  let n := fun k => ((List.range 512).filter fun c => k (s.remapOf c).state).length
  let free := (List.range 64).map fun k => if s.resets.combOos.contains k then 0 else
    ((List.range 9).filter fun i =>
      let c := physNum (k / 8) (k % 8) i
      !(s.physOf c).retired && (s.servedBy c).isNone).length
  packW [(0, 10, n fun x => decide (x ≤ 1)), (10, 10, n fun x => x == 2), (20, 10, n fun x => x == 3),
    (32, 7, free.foldl (· + ·) 0)]

/-- `AVL` (R82, R87, R88, R521, R525, R566, R568). -/
def State.avlWord (s : State) (off : Nat) : Nat :=
  if off = 0x061000 then packW [(18, 1, bitN s.resets.busy)]
  else if off = 0x068000 then s.cellCapWord
  else match nthAt 0x060108 0x10 4 off with
    | some p => packW [(1, 1, bitN (s.linOn p)), (2, 1, bitN (s.epochOf p).first), (16, 13, s.linNeed)]
    | none => match nthAt 0x060200 0x10 4 off with
      | some p => (s.epochOf p).committed % 2 ^ 64
      | none => match nthAt 0x060208 0x10 4 off with
        | some p =>
          let e := s.epochOf p
          packW [(0, 3, e.state), (3, 1, bitN (e.requested && !s.boundaryOpen p)), (8, 24, e.abandoned), (32, 32, e.commitMs)]
        | none => match nthAt 0x060300 8 4 off with
          | some p => packW [(17, 1, bitN (s.barB (0x060300 + 8 * p) 16))]
          | none => match nthAt 0x061100 8 4 off with
            | some d => packW [(32, 16, Tab.get (fun _ => 0) s.resets.resets d), (48, 16, Tab.get (fun _ => 0) s.resets.outcomes d)]
            | none => match nthAt 0x069000 8 512 off with
              | some c =>
                let r := s.remapOf c
                packW [(0, 4, r.slot), (4, 3, r.comb), (7, 3, r.die), (10, 2, r.state), (16, 16, min r.changes 65535)]
              | none => 0

/-- `DBG` (R637, R639, R641, R645, R652, R659). -/
def State.dbgWord (s : State) (off : Nat) : Nat :=
  if off = 0x07A008 then packW [(8, 1, bitN s.traceRing.isSome)]
  else if off = 0x07A010 then packW [(0, 32, s.dbg.trHead), (32, 16, min s.dbg.trWraps 65535), (48, 1, bitN s.dbg.trFull)]
  else if off = 0x07B000 then packW [(3, 3, s.dbg.frState), (32, 32, s.dbg.frNumber)]
  else if off = 0x07C008 then
    packW [(0, 1, bitN (s.dbg.istReq.isSome || s.dbg.istRun.isSome)), (1, 3, s.dbg.istRes), (16, 48, s.dbg.istErr)]
  else match nthAt 0x070000 8 64 off with
    | some n => (s.aon n).toNat
    | none => match nthAt 0x071000 8 2304 off with
      | some i => (Tab.get (fun _ => 0) (s.physOf (i / 4)).cnt (i % 4)).toNat
      | none => match nthAt 0x076000 8 128 off with
        | some i => (Tab.get (fun _ => 0) (s.frg (i / 4)).cnt (i % 4)).toNat
        | none => match nthAt 0x078018 0x100 4 off with
          | some p => packW [(6, 1, bitN (s.crecOn p)), (32, 32, s.crecNext p)]
          | none => 0

/-- `PRT` (R33, R590, R591, R627). -/
def State.prtWord (s : State) (off : Nat) : Nat :=
  match off with
  | 0x080000 =>
    packW [(8, 2, s.boot.modeNow), (18, 2, s.boot.ownerNow),
      (24, 1, bitN (s.barF 0x080000 0 2 != s.boot.modeNow || s.barF 0x080000 16 2 != s.boot.ownerNow))]
  | 0x080008 => s.prtBootWord
  | 0x080018 =>
    packW [(19, 1, bitN s.place.busy), (20, 1, bitN s.fab.placed), (21, 1, bitN s.place.refused), (24, 6, s.place.reason),
      (32, 18, s.place.offset)]
  | 0x080020 => packW [(2, 1, bitN s.boot.recValid), (3, 3, s.boot.invalid), (8, 16, min s.boot.ageH 65535)]
  | 0x080028 => s.place.id.toNat
  | 0x080038 => s.fwStatWord
  | _ => 0

/-- The block in which an offset lies reads its fields (R327); an offset in none reads as zero. -/
def State.moduleWord (s : State) (fn off : Nat) : Nat :=
  match off / 0x1000 with
  | 0 => s.idWord fn off
  | 1 => s.cfgWord fn off
  | _ => match off / 0x10000 with
    | 1 => s.hifWord fn off
    | 2 => s.memWord off
    | 3 => s.qfbWord off
    | 4 => s.colWord off
    | 5 => s.pwrWord off
    | 6 => s.avlWord off
    | 7 => s.dbgWord off
    | 8 => s.prtWord off
    | _ => 0

/-! ### A read -/

/-- The word of a register as function `fn` reads it. -/
def State.regWord (s : State) (fn off : Nat) : Word := BitVec.ofNat 64 (s.setUpWord fn off) ||| BitVec.ofNat 64 (s.moduleWord fn off)

/-- What a read of BAR0 returns: 4 or 8 bytes, aligned; of any other size or alignment, zero (R327). -/
def State.barRead (s : State) (fn off size : Nat) : Word :=
  if size = 8 ∧ off % 8 = 0 then s.regWord fn off
  else if size = 4 ∧ off % 4 = 0 then (s.regWord fn (off / 8 * 8) >>> (8 * (off % 8))) &&& 0xFFFFFFFF
  else 0

end Sys2Proof.Machine
end

