-- ==== Sys2Proof/Safety.lean ====
section
/-!
DEFINITION. What the claims about this model are stated in terms of: the canonical form of memory, a cell whose next word
executes, and what a step leaves as it was.
-/

namespace Sys2Proof.Machine

/-- Both stores of bytes are in canonical form: keys strictly rising, and no entry equal to what an unlisted key reads as. -/
def Memory.wf (s : State) : Bool := Tab.wf memDefault s.mem && Tab.wf Config.extByte s.ext

/-- Cell `n` issues its next word and the word's predicate lets it execute: the main domain runs, the cell has an
instruction to issue, nothing holds an access of memory, the pc lies in the image (R62, R105, R128, R135). -/
def Issues (s : State) (n : Nat) (g : Guard) (memory : Bool) : Prop :=
  s.live = true ∧ s.canIssue n = true ∧ (memory = true → s.memHeld n = false) ∧
    (s.cell n).arch.pc.toNat < (s.cell n).imageLen ∧ (s.cell n).arch.guard g = true

/-- Everything but the architected state of cell `n`, with a fence that has done its work gone (R128). -/
def State.withArch (s : State) (n : Nat) (memory : Bool) (a : Arch) : State :=
  (s.endFence n memory).setCell n { (s.endFence n memory).cell n with arch := a }

/-- A state without what raising reports, events and notices may change: memory and far requests, the report rings, the effect logs,
trace and always-on counters, the packets originated, the notices and counted reports of the swarm, and the queued events (R367, R450,
R452, R528, R604, R646). -/
def State.bare (s : State) : State :=
  { s with
    mem := [], ext := [], far := [], farTag := 0, reps := [], epochs := [],
    fab := { s.fab with tx := [], outbox := [], rtx := [] },
    swarm := { s.swarm with notices := [], reports := [] },
    mgmt := { s.mgmt with events := [], evLost := 0, ibiDue := false },
    dbg := { s.dbg with aon := [], trHead := 0, trWraps := 0, trFull := false, trLost := false } }

/-- `t` is `s` but for what reports, events and notices change. -/
def Reported (s t : State) : Prop := t.bare = s.bare

/-- No register or flag of a word is used but rd, ra and rb, and it does not round (R101). -/
def plainF0 (f : F0) : Prop := f.rc = 0 ∧ f.ty = 0 ∧ f.rm = 0 ∧ f.ri = 0 ∧ f.res = 0

/-- Two states differ in cells at most, and there in cell `n` only. -/
def OnlyCell (s t : State) (n : Nat) : Prop := t = { s with cells := t.cells } ∧ ∀ m, m ≠ n → t.cell m = s.cell m

/-- Nothing stands in the way of an access of a range of the own cell memory: no tile move in flight still has to write there (R119),
and no stored bit of cell memory has flipped (R51). -/
def Clear (s : State) (n addr len : Nat) : Prop := s.moveOverlaps n addr len = false ∧ s.flips = []

/-- What a command reads, its image or its descriptor, lies at offset `o` of the local map, whole, without an error in cell memory, in
lines that no host holds, not in the memory of a cell under reset, and nothing that it reads is under way (R51, R198, R216, R312,
R549). -/
def ReadsHere (s : State) (c : Cmd) (o : Nat) : Prop :=
  s.reach c.part .data false true (karg c.d 0) (klen c.d) = .ok (.loc o) ∧ s.localAt c.part (karg c.d 0) = o ∧
    s.whole o (klen c.d) = true ∧ s.resetHolds o (klen c.d) = false ∧ s.badWords o (klen c.d) = [] ∧ s.heldIn o (klen c.d) = false ∧
    s.fetchedAll c.id = true

/-- An access of `len` bytes at `addr` passes the checks of R104. -/
def OwnAccess (n align addr len : Nat) : Prop :=
  addr % align = 0 ∧ cellMem n ≤ addr ∧ addr + len ≤ cellMem n + cellBytes

/-- What a lane-wise vector instruction leaves: register rd with the lanes given, flags set, the pc one on, nothing else. -/
def VectorOut (s : State) (n : Nat) (f : F0) (flags : Nat) (lanes : Nat → Nat) (o : Host.Outcome State Fault Refusal) : Prop :=
  ∃ x : BitVec 2048,
    o = .next (s.withArch n false { ((s.cell n).arch.setV f.rd.toNat x).advance with
      xstat := (s.cell n).arch.xstat ||| BitVec.ofNat 32 flags }) ∧
    ∀ l, l < laneCount f.ty.toNat → lane (codeWidth f.ty.toNat) x.toNat l = lanes l

/-- The union of the flags of the lanes of a register. -/
def laneFlags (ty : Nat) (g : Nat → Nat) : Nat := ((List.range (laneCount ty)).map g).foldl orf 0

/-! ### Packets that arrive (R387-R389, R407, R408) -/

/-- A packet has not reached its age, and does not claim to come from this module unless this module has sent it to itself (R390,
R416). -/
def Genuine (s : State) (p : Packet) : Prop := p.age.toNat < 2000 ∧ (p.srcPhys ≠ s.fab.phys ∨ (none, p) ∈ s.fab.waiting)

/-- A packet is consumed, of a type and class that belong together, and its CRC holds: the main domain runs, a placement is
accepted, the fabric-owner partition is awake (R388, R389, R487). -/
def Arrives (s : State) (p : Packet) (type cls : Nat) : Prop :=
  s.live = true ∧ s.fab.placed = true ∧ s.awake s.owner = true ∧ Genuine s p ∧ p.type.toNat = type ∧ p.dstPhys = s.fab.phys ∧
    p.pcrc = pktCrc p ∧ p.cls.toNat = cls ∧ p.seqd = (cls != 2)

/-- The packet has left the buffer in which it waited, and its bytes are counted (R394, R638). -/
def State.taken (s : State) (p : Packet) : State := (s.unpark p).bumpPart s.owner 15 (pktSize p)

/-- The distance of a packet's number from the base of its stream. -/
def RxStream.dist (r : RxStream) (seq : BitVec 16) : Nat := (seq - r.base).toNat

/-- A sequenced packet has not been performed yet, is for this module's logical number, and lies in the window (R408, R413). -/
def FirstTime (s : State) (p : Packet) : Prop :=
  p.dstLog = s.fab.logical ∧ s.unknownStream p = false ∧ (s.rxOf p).dist p.seq < 256 ∧
    (s.rxOf p).win.getLsbD ((s.rxOf p).dist p.seq) = false

/-- The packet has left its buffer, and its number is taken in its stream. -/
def State.received (s : State) (p : Packet) : State := (s.taken p).setRx p ((s.rxOf p).take ((s.rxOf p).dist p.seq))

/-- The commands that consume a sequenced packet, with the type and the class of the packet (R388). -/
def arrival (i : Instr) : Option (Packet × Nat × Nat) :=
  match i with
  | .write p => some (p, 1, 1)
  | .read p => some (p, 2, 1)
  | .sigaddPkt p => some (p, 6, 0)
  | .sigsetPkt p => some (p, 7, 0)
  | .relay p => some (p, 8, 3)
  | .coldata p => some (p.pkt, 9, 4)
  | .grant p => some (p, 10, 0)
  | .quench p | .quenchRelease p => some (p, 11, 0)
  | .markerDrain _ (some p) | .markerDrained _ (some p) | .markerCaptured _ (some p) | .markerCommitted _ (some p) =>
    some (p, 12, 0)
  | .waggle p => some (p.pkt, 13, 0)
  | .swarmHeartbeat p | .tableUpdate p | .admissionRequest p | .admissionResult p | .takeover p | .faultNotice p
  | .collectiveAbort p | .boundaryRequest p | .recoveryStart _ (some p) | .swarmRestored _ (some p) => some (p, 14, 0)
  | .mgmt p => some (p, 15, 0)
  | _ => none

/-- What else a command that consumes a packet asks for: its subtype, action or step, and that nothing holds the packet's
effect back. -/
def arrivalDue (i : Instr) (s : State) : Prop :=
  match i with
  | .write p => s.cellInReset p.arg0.toNat = false ∧ s.link.bis = [] ∧ s.link.snoop = [] ∧
      s.stageOk p.arg0.toNat p.arg1.toNat = true
  | .read p => s.cellInReset p.arg0.toNat = false ∧ s.link.bis = [] ∧ s.link.snoop = [] ∧
      s.lostIn p.arg0.toNat p.arg1.toNat = false
  | .sigaddPkt _ | .sigsetPkt _ => s.effectFull s.owner = false
  | .quench p => quenchAct p = 1
  | .quenchRelease p => quenchAct p = 2
  | .markerDrain k (some p) => k < 4 ∧ k = s.owner ∧ bits p.arg0.toNat 0 8 = 1
  | .markerDrained k (some p) => k < 4 ∧ k = s.owner ∧ bits p.arg0.toNat 0 8 = 2
  | .markerCaptured k (some p) => k < 4 ∧ k = s.owner ∧ bits p.arg0.toNat 0 8 = 3
  | .markerCommitted k (some p) => k < 4 ∧ k = s.owner ∧ bits p.arg0.toNat 0 8 = 4
  | .swarmHeartbeat p => subtypeOf p = 1
  | .tableUpdate p => subtypeOf p = 2
  | .admissionRequest p => subtypeOf p = 3
  | .admissionResult p => subtypeOf p = 4
  | .takeover p => subtypeOf p = 5
  | .faultNotice p => subtypeOf p = 6
  | .collectiveAbort p => subtypeOf p = 7
  | .boundaryRequest p => subtypeOf p = 8
  | .recoveryStart k (some p) => k < 4 ∧ k = s.owner ∧ subtypeOf p = 9
  | .swarmRestored k (some p) => k < 4 ∧ k = s.owner ∧ (subtypeOf p = 10 ∨ subtypeOf p = 11)
  | _ => True

/-! ### Messages of the rack manager (R601, R602) -/

/-- The commands that are requests over the management port. -/
def isRequest (i : Instr) : Bool :=
  match i with
  | .mctpControl _ | .pldmGetSensor _ | .pldmSetEffecter _ _ | .pldmPollEvent | .getStatus | .setRackCap _ | .setRun _
  | .setHoldup _ | .lights _ _ | .lightsClearService | .readInventory | .appendRework _ | .readFatal _ | .readMember _
  | .setStart _ _ | .identity | .attest _ | .readLog _ | .fwBegin _ | .fwData _ _ | .fwEnd | .fwActivate | .fwConfirm
  | .fwAbort | .ownerEnrol _ | .ownerSetLock _ _ _ _ | .ownerClearLock _ _ _ _ | .ownerReplaceKey _ _ _ _ _
  | .ownerRelease _ _ _ _ => true
  | _ => false

/-- A request is processed: standby power is present, the bus is not ignored, and fewer than 2,000 requests have come in this
second (R602, R605). -/
def Served (s : State) : Prop := s.boot.standby = true ∧ s.mgmt.stuck = false ∧ s.requestsNow < 2000

/-- The state in which a request that is processed has its effect: the rack manager has made contact (R610). -/
def State.served (s : State) : State := s.rackContact.countRequest

/-! ### The registers of an instruction (R103, R112, R120, R134, R136) -/

/-- The cell of an instruction that reads and writes only registers and, for sread and test.ge, reads an object; ea
instructions without an upset. -/
def regInstr (i : Instr) : Option Nat :=
  match i with
  | .add c _ | .sub c _ | .mul c _ | .mulh c _ | .mulhu c _ | .div c _ | .divu c _ | .rem c _ | .remu c _
  | .and c _ | .or c _ | .xor c _ | .shl c _ | .shr c _ | .sra c _ | .min c _ | .max c _ | .csrr c _
  | .rdid c _ | .cmp c _ | .plog c _ | .csrw c _ | .vadd c _ | .vsub c _ | .vmul c _ | .vfma c _
  | .vfms c _ | .vmin c _ | .vmax c _ | .vun c _ | .vand c _ | .vor c _ | .vxor c _ | .vsh c _ | .vcmp c _
  | .vsel c _ | .vperm c _ | .vslide c _ | .vcvt c _ | .vtr c _ | .vbcast c _ | .vins c _ | .vext c _
  | .tset c _ | .tadv c _ | .eaClr c _ => some c
  | .addi c _ | .li c _ | .lui c _ | .andi c _ | .cmpi c _ => some c
  | .br c _ | .brl c _ | .jr c _ | .loop c _ | .nop c _ | .halt c _ | .testGe c _ | .sread c _ => some c
  | .eaAdd c _ .none | .eaAddm c _ .none | .eaRd c _ .none | .eaMerge c _ .none => some c
  | _ => none

/-- The scalar register that an instruction writes. -/
def destS (i : Instr) : Option Nat :=
  match i with
  | .add _ f | .sub _ f | .mul _ f | .mulh _ f | .mulhu _ f | .div _ f | .divu _ f | .rem _ f | .remu _ f
  | .and _ f | .or _ f | .xor _ f | .shl _ f | .shr _ f | .sra _ f | .min _ f | .max _ f | .csrr _ f
  | .rdid _ f | .vext _ f => some f.rd.toNat
  | .addi _ f | .li _ f | .lui _ f | .andi _ f | .ld _ f => some f.rd.toNat
  | .eaRd _ f _ => some f.rd.toNat
  | .sread _ f => some f.sd.toNat
  | .brl _ f | .loop _ f => some f.ra.toNat
  | _ => none

/-- The vector register that an instruction writes. -/
def destV (i : Instr) : Option Nat :=
  match i with
  | .vadd _ f | .vsub _ f | .vmul _ f | .vfma _ f | .vfms _ f | .vmin _ f | .vmax _ f | .vun _ f
  | .vand _ f | .vor _ f | .vxor _ f | .vsh _ f | .vcmp _ f | .vsel _ f | .vperm _ f | .vslide _ f
  | .vcvt _ f | .vtr _ f | .vbcast _ f | .vins _ f => some f.rd.toNat
  | .vld _ f => some f.rd.toNat
  | _ => none

/-- The exact accumulator that an instruction writes. -/
def destE (i : Instr) : Option Nat :=
  match i with
  | .eaClr _ f => some f.rd.toNat
  | .eaAdd _ f _ | .eaAddm _ f _ | .eaMerge _ f _ => some f.rd.toNat
  | .eaLdi _ f => some f.rd.toNat
  | .eaAddi _ f _ => some f.rd.toNat
  | _ => none

/-- The predicate that an instruction writes. -/
def destP (i : Instr) : Option Nat :=
  match i with
  | .cmp _ f | .plog _ f => some f.rd.toNat
  | .cmpi _ f => some f.rd.toNat
  | .testGe _ f => some f.pd.toNat
  | _ => none

/-- The tile descriptor that an instruction writes. -/
def destT (i : Instr) : Option Nat :=
  match i with
  | .tset _ f | .tadv _ f => some f.rd.toNat
  | .ldt _ f => some f.rd.toNat
  | _ => none

/-- The instruction may set flags in `xstat` (R137, R158). -/
def setsFlags (i : Instr) : Bool :=
  match i with
  | .div _ _ | .divu _ _ | .rem _ _ | .remu _ _ | .csrw _ _ | .vadd _ _ | .vsub _ _ | .vmul _ _ | .vfma _ _
  | .vfms _ _ | .vmin _ _ | .vmax _ _ | .vun _ _ | .vcmp _ _ | .vcvt _ _ | .vtr _ _ => true
  | .eaAdd _ _ _ | .eaAddm _ _ _ | .eaRd _ _ _ | .eaMerge _ _ _ => true
  | _ => false

/-- A cell instruction: its cell, its guarding predicate, and whether it accesses memory, so that a local fence holds it (R128). -/
def cellWord (i : Instr) : Option (Nat × Guard × Bool) :=
  match i with
  | .add c f | .sub c f | .mul c f | .mulh c f | .mulhu c f | .div c f | .divu c f | .rem c f
  | .remu c f | .and c f | .or c f | .xor c f | .shl c f | .shr c f | .sra c f | .min c f | .max c f
  | .cmp c f | .plog c f | .csrr c f | .csrw c f | .rdid c f | .vadd c f | .vsub c f | .vmul c f
  | .vfma c f | .vfms c f | .vmin c f | .vmax c f | .vun c f | .vand c f | .vor c f | .vxor c f
  | .vsh c f | .vcmp c f | .vsel c f | .vperm c f | .vslide c f | .vcvt c f | .vtr c f | .vbcast c f
  | .vins c f | .vext c f | .tset c f | .tadv c f | .eaClr c f => some (c, f.g, false)
  | .addi c f | .li c f | .lui c f | .cmpi c f | .andi c f => some (c, f.g, false)
  | .ld c f | .st c f | .vld c f | .vst c f | .ldt c f | .stt c f | .eaLdi c f => some (c, f.g, true)
  | .br c f | .brl c f | .jr c f | .loop c f | .nop c ⟨f, none⟩ | .halt c f => some (c, f.g, false)
  | .nop c ⟨_, some w⟩ => if (decodeCell c w).isNone then some (c, decGuard w, false) else none
  | .eaAdd c f _ | .eaAddm c f _ | .eaRd c f _ | .eaMerge c f _ => some (c, f.g, false)
  | .eaAddi c f _ | .eaSti c f _ => some (c, f.g, true)
  | .mma c f | .accLd c f | .accRd c ⟨f, _⟩ => some (c, f.g, true)
  | .tm c f => some (c, f.g, true)
  | .tmWait c f => some (c, f.g, false)
  | .sigAdd c f | .sigSet c f | .waitGe c f | .waitEq c f | .testGe c f | .sread c f | .coll c f
  | .forg c f => some (c, f.g, true)
  | .fenceLocal c f | .fenceRemote c f => some (c, f.g, false)
  | _ => none

end Sys2Proof.Machine
end

