-- ==== Sys2Proof/Certificates/Slice0/Obligations.lean ====
section
/-!
DEFINITION. The statements for the provers: what the spec's rules say the commands of the module do. A statement of the form
`exec c s = .next t` under hypotheses on the state and the operands says where the command completes.

A statement of several parts is the conjunction of its parts, which stand as `Claims.<Part>` before it.
-/

open Sys2Proof Sys2Proof.Machine

/-! ### Steps and words -/

/-- A step takes the command at the front of the queue off it and answers what the command does to the rest. -/
def Obligations.StepRunsTheFrontCommand : Prop :=
  ∀ (c : Instr) (q : List Instr) (s : State), step (s.withQueue (c :: q)) = exec c (s.withQueue q)

/-- With no command waiting, a step is one tick of the 100 MHz reference: the reference count goes up by one while standby
is present, and memory, cells, sync objects, commands and the queue stay as they are (the model's choice, log 6). -/
def Claims.EmptyQueueTicks : Prop :=
  ∀ s : State, s.pending = [] → ∃ t, step s = .next t ∧
    t.now = (if s.boot.standby && s.boot.refOk then s.now + 1 else s.now) ∧
    t.cells = s.cells ∧ t.mem = s.mem ∧ t.ext = s.ext ∧ t.sync = s.sync ∧ t.cmds = s.cmds ∧ t.pending = []

/-- Every well-formed word of a cell instruction decodes to the instruction and fields it was encoded from. -/
def Claims.DecodeOfEncode : Prop :=
  ∀ (i : Instr) (c : Nat) (w : BitVec 64), encodeCell i = some (c, w) → decodeCell c w = some i

/-- A word that decodes to an instruction is that instruction's encoding: no bit of a word is dropped (R98, R99, R102). -/
def Claims.EncodeOfDecode : Prop :=
  ∀ (c : Nat) (w : BitVec 64) (i : Instr), decodeCell c w = some i → encodeCell i = some (c, w)

/-! ### Scalar instructions (R103, R138) -/

/-- A scalar instruction on two registers writes its result to rd, modulo 2^64, and nothing else: the pc goes on by one. A
write to `s0` is discarded (R45), as `Arch.setS` says. -/
def Claims.ScalarResults : Prop :=
  ∀ (s : State) (n : Nat) (f : F0), Issues s n f.g false → plainF0 f →
    let a := (s.cell n).arch
    let x := a.sreg f.ra.toNat
    let y := a.sreg f.rb.toNat
    let out (r : Word) : Host.Outcome State Fault Refusal := .next (s.withArch n false (a.setS f.rd.toNat r).advance)
    (f.xop = 0 →
      exec (.add n f) s = out (x + y) ∧ exec (.sub n f) s = out (x - y) ∧ exec (.mul n f) s = out (x * y) ∧
      exec (.mulh n f) s = out ((x.signExtend 128 * y.signExtend 128).extractLsb' 64 64) ∧
      exec (.mulhu n f) s = out ((x.setWidth 128 * y.setWidth 128).extractLsb' 64 64) ∧
      exec (.and n f) s = out (x &&& y) ∧ exec (.or n f) s = out (x ||| y) ∧ exec (.xor n f) s = out (x ^^^ y) ∧
      exec (.shl n f) s = out (x <<< (y.toNat % 64)) ∧ exec (.shr n f) s = out (x >>> (y.toNat % 64)) ∧
      exec (.sra n f) s = out (x.sshiftRight (y.toNat % 64)) ∧
      exec (.min n f) s = out (if x.toInt ≤ y.toInt then x else y) ∧
      exec (.max n f) s = out (if x.toInt < y.toInt then y else x)) ∧
    (f.xop = 1 →
      exec (.min n f) s = out (if x.toNat ≤ y.toNat then x else y) ∧
      exec (.max n f) s = out (if x.toNat < y.toNat then y else x))

/-- Quotients and remainders: rounded towards zero, the remainder with the dividend's sign; by zero, all ones or the dividend,
and dz is set in `xstat` (R103, R138). -/
def Obligations.ScalarDivision : Prop :=
  ∀ (s : State) (n : Nat) (f : F0), Issues s n f.g false → plainF0 f → f.xop = 0 →
    let a := (s.cell n).arch
    let x := a.sreg f.ra.toNat
    let y := a.sreg f.rb.toNat
    let out (r : Word) (dz : BitVec 32) : Host.Outcome State Fault Refusal :=
      .next (s.withArch n false { (a.setS f.rd.toNat r).advance with xstat := a.xstat ||| dz })
    (y ≠ 0 →
      exec (.div n f) s = out (x.sdiv y) 0 ∧ exec (.divu n f) s = out (x / y) 0 ∧
      exec (.rem n f) s = out (x.srem y) 0 ∧ exec (.remu n f) s = out (x % y) 0) ∧
    (y = 0 →
      exec (.div n f) s = out (BitVec.allOnes 64) 2 ∧ exec (.divu n f) s = out (BitVec.allOnes 64) 2 ∧
      exec (.rem n f) s = out x 2 ∧ exec (.remu n f) s = out x 2)

/-- Comparisons and predicate logic write one predicate; a write to `p0` is discarded, as `Arch.setP` says (R45, R102, R103).
The comparison codes are 0 eq, 1 ne, 2 lt, 3 le, 4 ltu, 5 leu; the logic codes 0 and, 1 or, 2 xor, 3 not. -/
def Claims.Predicates : Prop :=
  ∀ (s : State) (n : Nat),
    let a := (s.cell n).arch
    let out (p : BitVec 5) (b : Bool) : Host.Outcome State Fault Refusal :=
      .next (s.withArch n false (a.setP p.toNat b).advance)
    let compare (code : Nat) (x y : Word) : Bool :=
      match code with
      | 0 => x == y | 1 => x != y | 2 => x.slt y | 3 => x.sle y | 4 => x.ult y | _ => x.ule y
    (∀ f : F0, Issues s n f.g false → plainF0 f → f.rd.toNat < 8 → f.xop.toNat ≤ 5 →
      exec (.cmp n f) s = out f.rd (compare f.xop.toNat (a.sreg f.ra.toNat) (a.sreg f.rb.toNat))) ∧
    (∀ f : F1, Issues s n f.g false → f.res = 0 → f.rd.toNat < 8 → f.ty.toNat ≤ 5 →
      exec (.cmpi n f) s = out f.rd (compare f.ty.toNat (a.sreg f.ra.toNat) (f.imm.signExtend 64))) ∧
    (∀ f : F0, Issues s n f.g false → plainF0 f → f.rd.toNat < 8 → f.ra.toNat < 8 → f.rb.toNat < 8 →
      (f.xop = 0 → exec (.plog n f) s = out f.rd (a.preg f.ra.toNat && a.preg f.rb.toNat)) ∧
      (f.xop = 1 → exec (.plog n f) s = out f.rd (a.preg f.ra.toNat || a.preg f.rb.toNat)) ∧
      (f.xop = 2 → exec (.plog n f) s = out f.rd (a.preg f.ra.toNat ^^ a.preg f.rb.toNat)) ∧
      (f.xop = 3 → f.rb = 0 → exec (.plog n f) s = out f.rd (!a.preg f.ra.toNat)))

/-- The immediate instructions: imm32 is sign-extended; li followed by lui builds any 64-bit constant (R100, R103). -/
def Claims.Immediates : Prop :=
  ∀ (s : State) (n : Nat) (f : F1), Issues s n f.g false → f.ty = 0 → f.res = 0 →
    let a := (s.cell n).arch
    let x := a.sreg f.ra.toNat
    let out (r : Word) : Host.Outcome State Fault Refusal := .next (s.withArch n false (a.setS f.rd.toNat r).advance)
    exec (.addi n f) s = out (x + f.imm.signExtend 64) ∧
    exec (.andi n f) s = out (x &&& f.imm.signExtend 64) ∧
    exec (.lui n f) s = out (f.imm ++ x.setWidth 32) ∧
    (f.ra = 0 → exec (.li n f) s = out (f.imm.signExtend 64))

/-- The special registers: csrr reads and csrw writes `rmode`, `seed`, `amode` and bits [6:0] of `xstat`; rmode 5-7 and amode 3
fault with cause 5; rdid reads the identity registers (R136, R137). -/
def Claims.SpecialRegisters : Prop :=
  ∀ (s : State) (n : Nat) (f : F0), Issues s n f.g false → f.rb = 0 → plainF0 f →
    let a := (s.cell n).arch
    let k := (s.cell n).ident
    let v := a.sreg f.ra.toNat
    let out (b : Arch) : Host.Outcome State Fault Refusal := .next (s.withArch n false b.advance)
    let fault5 : Host.Outcome State Fault Refusal := .next ((s.endFence n false).programFault n 5)
    (f.ra = 0 →
      (f.xop = 0 → exec (.csrr n f) s = out (a.setS f.rd.toNat (a.rmode.setWidth 64))) ∧
      (f.xop = 1 → exec (.csrr n f) s = out (a.setS f.rd.toNat a.seed)) ∧
      (f.xop = 2 → exec (.csrr n f) s = out (a.setS f.rd.toNat (a.amode.setWidth 64))) ∧
      (f.xop = 3 → exec (.csrr n f) s = out (a.setS f.rd.toNat (a.xstat.setWidth 64))) ∧
      (f.xop = 0 → exec (.rdid n f) s = out (a.setS f.rd.toNat (k.cellid.setWidth 64))) ∧
      (f.xop = 1 → exec (.rdid n f) s = out (a.setS f.rd.toNat (k.combid.setWidth 64))) ∧
      (f.xop = 2 → exec (.rdid n f) s = out (a.setS f.rd.toNat (k.rank.setWidth 64))) ∧
      (f.xop = 3 → exec (.rdid n f) s = out (a.setS f.rd.toNat (k.ncells.setWidth 64))) ∧
      (f.xop = 4 → exec (.rdid n f) s = out (a.setS f.rd.toNat (k.part.setWidth 64))) ∧
      (f.xop = 5 → exec (.rdid n f) s = out (a.setS f.rd.toNat (k.arev.setWidth 64))) ∧
      (f.xop = 6 → exec (.rdid n f) s = out (a.setS f.rd.toNat (k.cmdtag.setWidth 64)))) ∧
    (f.rd = 0 →
      (f.xop = 0 → exec (.csrw n f) s = if v.toNat ≤ 4 then out { a with rmode := v.setWidth 3 } else fault5) ∧
      (f.xop = 1 → exec (.csrw n f) s = out { a with seed := v }) ∧
      (f.xop = 2 → exec (.csrw n f) s = if v.toNat ≤ 2 then out { a with amode := v.setWidth 2 } else fault5) ∧
      (f.xop = 3 → exec (.csrw n f) s = out { a with xstat := a.xstat.extractLsb' 7 25 ++ v.setWidth 7 }))

/-- The control instructions (R134): br, brl, jr, loop, nop and halt. -/
def Claims.Control : Prop :=
  ∀ (s : State) (n : Nat) (f : F2), Issues s n f.g false → f.res = 0 →
    let a := (s.cell n).arch
    let v := a.sreg f.ra.toNat
    let out (b : Arch) : Host.Outcome State Fault Refusal := .next (s.withArch n false b)
    (f.ra = 0 → exec (.br n f) s = out { a with pc := f.target }) ∧
    exec (.brl n f) s = out { a.setS f.ra.toNat (BitVec.ofNat 64 (a.pc.toNat + 1)) with pc := f.target } ∧
    (f.target = 0 → exec (.jr n f) s =
      if v.toNat < 2 ^ 14 then out { a with pc := v.setWidth 14 }
      else .next ((s.endFence n false).programFault n 5)) ∧
    exec (.loop n f) s =
      (if v = 0 then out a.advance
      else if v = 1 then out (a.setS f.ra.toNat 0).advance
      else out { a.setS f.ra.toNat (v - 1) with pc := f.target }) ∧
    (f.ra = 0 → f.target = 0 →
      exec (.nop n ⟨f, none⟩) s = out a.advance ∧
      exec (.halt n f) s = .next ((s.endFence n false).setCell n { (s.endFence n false).cell n with run := .halted }))

/-- An instruction that reads and writes only registers, when it goes on without a fault: nothing outside its cell changes but
the counts of values accumulated (R640), no other cell changes, and in its cell no register but the one it names, no flag and
no mode but where its row says so. An ea.rd of an accumulator with a wrong residue is no such instruction: `ExactAccumulate` says what
it does (R45, R63, R103, R112, R120, R134, R136, R181). -/
def Obligations.RegisterInstructionFrame : Prop :=
  ∀ (s t : State) (n : Nat) (i : Instr), regInstr i = some n → (∀ f, i = .eaRd n f .none → (s.cell n).arch.residuesOk f.ra.toNat = true) →
    exec i s = .next t → (t.cell n).run ≠ .faulted →
    let a := (s.cell n).arch
    let b := (t.cell n).arch
    t = { s with cells := t.cells, dbg := { s.dbg with part := t.dbg.part } } ∧ (∀ m, m ≠ n → t.cell m = s.cell m) ∧
    t.cell n = { s.cell n with arch := b, fence := (t.cell n).fence, run := (t.cell n).run } ∧
    (∀ r, destS i ≠ some r → b.sreg r = a.sreg r) ∧ (∀ r, destV i ≠ some r → b.vreg r = a.vreg r) ∧
    (∀ r, destE i ≠ some r → b.ereg r = a.ereg r) ∧ (∀ r, r < 8 → destP i ≠ some r → b.preg r = a.preg r) ∧
    (∀ r, destT i ≠ some r → b.treg r = a.treg r) ∧ b.acc = a.acc ∧ (setsFlags i = false → b.xstat = a.xstat) ∧
    ((∀ f, i ≠ .csrw n f) → b.rmode = a.rmode ∧ b.seed = a.seed ∧ b.amode = a.amode)

/-! ### Vector instructions (R58, R103, R159-R161, R687) -/

/-- Integer lanes: arithmetic wraps modulo 2^w; minimum and maximum are signed, or unsigned with xop 1; abs of the most negative
value is itself; vcmp gives all ones or zero. No flag is set (R103, R142, R687). -/
def Claims.VectorIntegerLanes : Prop :=
  ∀ (s : State) (n : Nat) (f : F0), Issues s n f.g false → f.ty.toNat ≤ 3 → f.rm = 0 → f.ri = 0 → f.res = 0 →
    let ty := f.ty.toNat
    let w := codeWidth ty
    let a := (s.cell n).arch
    let x := a.vlane ty f.ra
    let y := a.vlane ty f.rb
    let z := a.vlane ty f.rc
    let is (i : Instr) (r : Nat → Nat) : Prop := VectorOut s n f 0 r (exec i s)
    (f.xop = 0 → f.rc = 0 →
      is (.vadd n f) (fun l => (x l + y l) % 2 ^ w) ∧ is (.vsub n f) (fun l => (x l + (2 ^ w - y l)) % 2 ^ w) ∧
      is (.vmul n f) (fun l => x l * y l % 2 ^ w)) ∧
    (f.xop = 0 →
      is (.vfma n f) (fun l => (x l * y l + z l) % 2 ^ w) ∧
      is (.vfms n f) (fun l => (x l * y l + (2 ^ w - z l)) % 2 ^ w)) ∧
    (f.rc = 0 →
      (f.xop = 0 →
        is (.vmin n f) (fun l => if toSigned w (x l) ≤ toSigned w (y l) then x l else y l) ∧
        is (.vmax n f) (fun l => if toSigned w (x l) ≤ toSigned w (y l) then y l else x l)) ∧
      (f.xop = 1 → is (.vmin n f) (fun l => min (x l) (y l)) ∧ is (.vmax n f) (fun l => max (x l) (y l)))) ∧
    (f.rb = 0 → f.rc = 0 →
      (f.xop = 0 → is (.vun n f) (fun l => if toSigned w (x l) < 0 then (2 ^ w - x l) % 2 ^ w else x l)) ∧
      (f.xop = 1 → is (.vun n f) (fun l => (2 ^ w - x l) % 2 ^ w))) ∧
    (f.rc = 0 →
      let ones (b : Bool) : Nat := if b then 2 ^ w - 1 else 0
      (f.xop = 0 → is (.vcmp n f) fun l => ones (x l == y l)) ∧ (f.xop = 1 → is (.vcmp n f) fun l => ones (x l != y l)) ∧
      (f.xop = 2 → is (.vcmp n f) fun l => ones (decide (toSigned w (x l) < toSigned w (y l)))) ∧
      (f.xop = 3 → is (.vcmp n f) fun l => ones (decide (toSigned w (x l) ≤ toSigned w (y l)))) ∧
      (f.xop = 4 → is (.vcmp n f) fun l => ones (decide (x l < y l))) ∧
      (f.xop = 5 → is (.vcmp n f) fun l => ones (decide (x l ≤ y l))))

/-- Bitwise instructions over all 2,048 bits whatever the type, shifts of lanes as the integers of their width, and the
instructions that move lanes (R103, R687). -/
def Claims.VectorBitsAndMoves : Prop :=
  ∀ (s : State) (n : Nat) (f : F0), Issues s n f.g false → f.rm = 0 → f.ri = 0 → f.res = 0 →
    let ty := f.ty.toNat
    let w := codeWidth ty
    let m := laneCount ty
    let a := (s.cell n).arch
    let va := a.vreg f.ra.toNat
    let vb := a.vreg f.rb.toNat
    let x := a.vlane ty f.ra
    let y := a.vlane ty f.rb
    let k := a.sreg f.rb.toNat
    let whole (v : BitVec 2048) : Host.Outcome State Fault Refusal := .next (s.withArch n false (a.setV f.rd.toNat v).advance)
    let is (i : Instr) (r : Nat → Nat) : Prop := VectorOut s n f 0 r (exec i s)
    (f.xop = 0 → f.rc = 0 →
      exec (.vand n f) s = whole (va &&& vb) ∧ exec (.vor n f) s = whole (va ||| vb) ∧
      exec (.vxor n f) s = whole (va ^^^ vb)) ∧
    (ty ≤ 9 →
      (f.rc = 0 →
        (f.xop = 0 → is (.vsh n f) fun l => x l * 2 ^ (y l % w) % 2 ^ w) ∧
        (f.xop = 1 → is (.vsh n f) fun l => x l / 2 ^ (y l % w)) ∧
        (f.xop = 2 → is (.vsh n f) fun l => wrap w (toSigned w (x l) / 2 ^ (y l % w)))) ∧
      (f.xop = 0 →
        is (.vsel n f) (fun l => if a.vlane ty f.rc l = 0 then y l else x l)) ∧
      (f.xop = 0 → f.rc = 0 →
        is (.vperm n f) (fun l => x (y l % m)) ∧
        is (.vslide n f) (fun l =>
          if 0 ≤ (l : Int) - k.toInt ∧ (l : Int) - k.toInt < m then x ((l : Int) - k.toInt).toNat else 0) ∧
        is (.vins n f) (fun l =>
          if l = k.toNat % m then (a.sreg f.ra.toNat).toNat % 2 ^ w else a.vlane ty f.rd l) ∧
        exec (.vext n f) s =
          .next (s.withArch n false (a.setS f.rd.toNat (BitVec.ofNat 64 (x (k.toNat % m)))).advance)) ∧
      (f.xop = 0 → f.rb = 0 → f.rc = 0 → is (.vbcast n f) fun _ => (a.sreg f.ra.toNat).toNat % 2 ^ w))

/-- Floating-point lanes: each is the exact result of its operation rounded once under rm, vfma and vfms after product and sum;
the flags of all lanes are set together. A lane depends on no other lane (R152, R158, R159). -/
def Claims.VectorFloatArithmetic : Prop :=
  ∀ (s : State) (n : Nat) (f : F0) (ff : FpFmt), Issues s n f.g false → 6 ≤ f.ty.toNat → f.ty.toNat ≤ 9 →
    elemOf f.ty.toNat = .fp ff → f.rm ≠ 5 → f.rm ≠ 6 → f.xop = 0 → f.res = 0 →
    let ty := f.ty.toNat
    let a := (s.cell n).arch
    let mode := a.mode f.rm
    let x := fun l => ff.decode (a.vlane ty f.ra l)
    let y := fun l => ff.decode (a.vlane ty f.rb l)
    let z := fun l => ff.decode (a.vlane ty f.rc l)
    let once (v : Fp × Nat) (l : Nat) : Nat × Nat := ff.round mode (stochDraw a.seed (a.sreg f.ri.toNat + BitVec.ofNat 64 l)) v.1
    let is (i : Instr) (v : Nat → Fp × Nat) : Prop :=
      VectorOut s n f (laneFlags ty fun l => orf (v l).2 (once (v l) l).2) (fun l => (once (v l) l).1) (exec i s)
    let plus (v u : Fp) : Fp × Nat := Fp.sum (mode == .rd) [v, u]
    (f.rc = 0 →
      is (.vadd n f) (fun l => plus (x l) (y l)) ∧ is (.vsub n f) (fun l => plus (x l) (y l).negate) ∧
      is (.vmul n f) (fun l => Fp.mul (x l) (y l))) ∧
    is (.vfma n f) (fun l =>
      ((plus (Fp.mul (x l) (y l)).1 (z l)).1, orf (Fp.mul (x l) (y l)).2 (plus (Fp.mul (x l) (y l)).1 (z l)).2)) ∧
    is (.vfms n f) (fun l => ((plus (Fp.mul (x l) (y l)).1 (z l).negate).1,
      orf (Fp.mul (x l) (y l)).2 (plus (Fp.mul (x l) (y l)).1 (z l).negate).2))

/-- vmin, vmax, vun and vcmp on floating-point lanes: a NaN gives the default NaN and the order of the operands of vmin and vmax
does not matter; vun changes only the sign; -0 equals +0 in a comparison; only a signalling NaN sets a flag, nv
(R103, R144, R145, R158, R160). -/
def Obligations.VectorFloatOrder : Prop :=
  ∀ (s : State) (n : Nat) (f : F0) (ff : FpFmt), Issues s n f.g false → 6 ≤ f.ty.toNat → f.ty.toNat ≤ 9 →
    elemOf f.ty.toNat = .fp ff → f.rc = 0 → f.rm = 0 → f.ri = 0 → f.res = 0 →
    let ty := f.ty.toNat
    let w := codeWidth ty
    let a := (s.cell n).arch
    let x := a.vlane ty f.ra
    let y := a.vlane ty f.rb
    let nan (l : Nat) : Bool := (ff.decode (x l)).isNan || (ff.decode (y l)).isNan
    let signals := laneFlags ty fun l => flagIf ((ff.decode (x l)).snan || (ff.decode (y l)).snan) fNv
    let below (l : Nat) : Bool := (ff.decode (x l)).cmp (ff.decode (y l)) == some .lt
    let alike (l : Nat) : Bool := (ff.decode (x l)).cmp (ff.decode (y l)) == some .eq
    let ones (b : Bool) : Nat := if b then 2 ^ w - 1 else 0
    (f.xop = 0 →
      VectorOut s n f signals (fun l =>
        if nan l then ff.nan else if below l then x l else if alike l then (if (x l).testBit (w - 1) then x l else y l) else y l)
        (exec (.vmin n f) s) ∧
      VectorOut s n f signals (fun l =>
        if nan l then ff.nan else if below l then y l else if alike l then (if (x l).testBit (w - 1) then y l else x l) else x l)
        (exec (.vmax n f) s)) ∧
    (f.rb = 0 → f.xop.toNat ≤ 1 →
      VectorOut s n f (laneFlags ty fun l => flagIf (ff.decode (x l)).snan fNv) (fun l =>
        if (ff.decode (x l)).isNan then ff.nan
        else if f.xop = 0 then x l % 2 ^ (w - 1) else (x l + 2 ^ (w - 1)) % 2 ^ w) (exec (.vun n f) s)) ∧
    (f.xop = 0 → VectorOut s n f signals (fun l => ones (alike l)) (exec (.vcmp n f) s)) ∧
    (f.xop = 1 → VectorOut s n f signals (fun l => ones (!alike l)) (exec (.vcmp n f) s)) ∧
    (f.xop = 2 → VectorOut s n f signals (fun l => ones (below l)) (exec (.vcmp n f) s)) ∧
    (f.xop = 3 → VectorOut s n f signals (fun l => ones (below l || alike l)) (exec (.vcmp n f) s)) ∧
    (f.xop = 6 → VectorOut s n f signals (fun l => ones (nan l)) (exec (.vcmp n f) s)) ∧
    (f.xop = 7 → VectorOut s n f signals (fun l => ones (!nan l)) (exec (.vcmp n f) s))

/-- vcvt: between the types 0-9 the lanes common to both go over and the others are zero; a narrower integer saturates and
sets sat, a wider one keeps its value; a floating-point value goes to an integer saturated, a NaN to 0, and to another
format rounded once. To and from an MX format it completes with the block rule (R103, R150, R151, R158). -/
def Claims.VectorConversion : Prop :=
  ∀ (s : State) (n : Nat) (f : F0), Issues s n f.g false → f.rb = 0 → f.rc = 0 → f.rm ≠ 5 → f.rm ≠ 6 → f.res = 0 →
    f.xop.toNat < 16 →
    let src := f.xop.toNat
    let dst := f.ty.toNat
    let a := (s.cell n).arch
    let m := 2048 / max (codeWidth src) (codeWidth dst)
    let x := fun l => a.vlane src f.ra l
    let draw := fun l => stochDraw a.seed (a.sreg f.ri.toNat + BitVec.ofNat 64 l)
    let one (l : Nat) : Nat × Nat :=
      match elemOf src, elemOf dst with
      | .int v, .int w =>
        if v ≤ w then ((toSigned v (x l) % 2 ^ w).toNat, 0)
        else if toSigned v (x l) < -2 ^ (w - 1) then (2 ^ (w - 1), fSat)
        else if 2 ^ (w - 1) ≤ toSigned v (x l) then (2 ^ (w - 1) - 1, fSat)
        else ((toSigned v (x l) % 2 ^ w).toNat, 0)
      | .fp g, .int w => roundToInt w (a.mode f.rm) (draw l) (g.decode (x l))
      | e, .fp g => g.round (a.mode f.rm) (draw l) (e.decode (x l))
      | _, _ => (0, 0)
    (src ≤ 9 → dst ≤ 9 →
      VectorOut s n f (((List.range m).map fun l => (one l).2).foldl orf 0) (fun l => if l < m then (one l).1 else 0)
        (exec (.vcvt n f) s)) ∧
    (10 ≤ dst → (src = 7 ∨ src = 8) →
      let v := cvtToMx a f src
      exec (.vcvt n f) s = .next (s.withArch n false { (a.setV f.rd.toNat (BitVec.ofNat 2048 v.1)).advance with
        xstat := a.xstat ||| BitVec.ofNat 32 v.2 })) ∧
    (10 ≤ src → (dst = 7 ∨ dst = 8) →
      VectorOut s n f (laneFlags dst fun l => ((if dst = 7 then bf16 else fp32).round (a.mode f.rm) (draw l)
          (mxValue src (a.vreg f.ra.toNat).toNat l)).2)
        (fun l => ((if dst = 7 then bf16 else fp32).round (a.mode f.rm) (draw l)
          (mxValue src (a.vreg f.ra.toNat).toNat l)).1) (exec (.vcvt n f) s))

/-- vtr completes on FP32 and BF16 lanes; each lane depends on `arev`, the function and the input bits only; a NaN gives the
default NaN, exp of a zero 1, log of 1 a zero, rcp and rsqrt of a zero an infinity with dz (R158, R161). -/
def Claims.VectorTranscendental : Prop :=
  (∀ (s : State) (n : Nat) (f : F0), Issues s n f.g false → (f.ty.toNat = 7 ∨ f.ty.toNat = 8) → f.rb = 0 → f.rc = 0 →
    f.rm = 0 → f.ri = 0 → f.res = 0 → f.xop.toNat ≤ 5 →
    let x := (s.cell n).arch.vlane f.ty.toNat f.ra
    let fp := if f.ty.toNat = 7 then bf16 else fp32
    let one := if f.ty.toNat = 7 then 0x3F80 else 0x3F800000
    let inf := if f.ty.toNat = 7 then 0x7F80 else 0x7F800000
    ∃ g r : Nat → Nat, VectorOut s n f (laneFlags f.ty.toNat fun l => g (x l)) (fun l => r (x l)) (exec (.vtr n f) s) ∧
      (∀ v, (fp.decode v).isNan = true → r v = fp.nan) ∧
      (f.xop = 0 → ∀ q e, fp.decode q = .fin e 0 (1 - Int.ofNat fp.bias - Int.ofNat fp.mw) → r q = one ∧ g q = 0) ∧
      (f.xop = 1 → r one = 0 ∧ g one = 0) ∧
      ((f.xop = 2 ∨ f.xop = 3) → r 0 = inf ∧ g 0 = fDz)) ∧
  (∀ (s u : State) (n m : Nat) (f : F0), s.arev = u.arev → (s.cell n).arch.v = (u.cell m).arch.v →
    Issues s n f.g false → Issues u m f.g false → (f.ty.toNat = 7 ∨ f.ty.toNat = 8) → f.rb = 0 → f.rc = 0 → f.rm = 0 →
    f.ri = 0 → f.res = 0 → f.xop.toNat ≤ 5 →
    ∃ t r, exec (.vtr n f) s = .next t ∧ exec (.vtr m f) u = .next r ∧ (t.cell n).arch.v = (r.cell m).arch.v)

/-- A type that a vector instruction does not accept faults with cause 4, and nothing of the instruction is done but the fault
(R140, R687). -/
def Claims.VectorTypeNotAccepted : Prop :=
  ∀ (s : State) (n : Nat) (f : F0), Issues s n f.g false → f.rb = 0 → f.rc = 0 → f.rm = 0 → f.ri = 0 → f.res = 0 → f.xop = 0 →
    let fault : Host.Outcome State Fault Refusal := .next ((s.endFence n false).programFault n 4)
    ((f.ty.toNat = 4 ∨ f.ty.toNat = 5 ∨ 10 ≤ f.ty.toNat) →
      exec (.vadd n f) s = fault ∧ exec (.vsub n f) s = fault ∧ exec (.vmul n f) s = fault ∧ exec (.vfma n f) s = fault ∧
      exec (.vfms n f) s = fault ∧ exec (.vmin n f) s = fault ∧ exec (.vmax n f) s = fault ∧ exec (.vun n f) s = fault ∧
      exec (.vcmp n f) s = fault) ∧
    (10 ≤ f.ty.toNat →
      exec (.vsh n f) s = fault ∧ exec (.vsel n f) s = fault ∧ exec (.vperm n f) s = fault ∧ exec (.vslide n f) s = fault ∧
      exec (.vbcast n f) s = fault ∧ exec (.vins n f) s = fault ∧ exec (.vext n f) s = fault ∧
      exec (.vcvt n f) s = fault) ∧
    (f.ty.toNat ≠ 7 → f.ty.toNat ≠ 8 → exec (.vtr n f) s = fault)

/-! ### Loads and stores of the own cell memory (R103, R104) -/

/-- Loads: the bytes at ra + imm32, little-endian and zero-extended, go to the register named; nothing else changes
(R7, R103, R104, R108). -/
def Claims.OwnMemoryLoads : Prop :=
  ∀ (s : State) (n : Nat) (f : F1), Issues s n f.g true → f.res = 0 →
    let a := (s.cell n).arch
    let addr := (a.sreg f.ra.toNat + f.imm.signExtend 64).toNat
    let bytes (k : Nat) : Nat := leNat (s.memBytes addr k)
    let out (b : Arch) : Host.Outcome State Fault Refusal := .next (s.withArch n true b.advance)
    (f.ty.toNat ≤ 3 → Clear s n addr (2 ^ f.ty.toNat) → OwnAccess n (2 ^ f.ty.toNat) addr (2 ^ f.ty.toNat) →
      exec (.ld n f) s = out (a.setS f.rd.toNat (BitVec.ofNat 64 (bytes (2 ^ f.ty.toNat))))) ∧
    (f.ty = 0 → Clear s n addr 256 → OwnAccess n 8 addr 256 →
      exec (.vld n f) s = out (a.setV f.rd.toNat (BitVec.ofNat 2048 (bytes 256)))) ∧
    (f.ty = 0 → f.rd.toNat < 16 → Clear s n addr 32 → OwnAccess n 32 addr 32 →
      exec (.ldt n f) s = out (a.setT f.rd.toNat (BitVec.ofNat 256 (bytes 32))))

/-- A load of cell memory corrects the single-bit errors of the words it reads, and counts them; one that finds a word with an
uncorrectable error delivers nothing: its registers stay, and with no lining its command ends `ABORTED` (R51, R52, R503). -/
def Claims.CellMemoryErrors : Prop :=
  ∀ (s : State) (n : Nat) (f : F1), Issues s n f.g true → f.res = 0 → f.ty = 0 → s.flips ≠ [] →
    let a := (s.cell n).arch
    let addr := (a.sreg f.ra.toNat + f.imm.signExtend 64).toNat
    let p := s.partOfCell n
    s.moveOverlaps n addr 256 = false → OwnAccess n 8 addr 256 →
    (s.badWords addr 256 = [] → exec (.vld n f) s =
      .next ((s.withArch n true (a.setV f.rd.toNat (BitVec.ofNat 2048 (leNat (s.memBytes addr 256)))).advance).bump 51
        (s.correctable addr 256))) ∧
    (s.badWords addr 256 ≠ [] → s.linSafe p = false → s.awaitsRepair p (s.badWords addr 256).eraseDups = false →
      ∃ t, exec (.vld n f) s = .next t ∧ (t.cell n).arch = a ∧
        ∀ id c, (s.cell n).cmd = some id → s.cmd id = some c → c.status = 0 → c.phase = .started →
          ∃ d, t.cmd id = some d ∧ d.status = 4)

/-- Stores: exactly the bytes at ra + imm32 change, and take the register's value; no register changes. With the granule not
frozen for a lining copy, nothing else of the module changes but its dirty bit; a store to a frozen granule that finds no staging
buffer is held (R103, R104, R108, R517). -/
def Claims.OwnMemoryStores : Prop :=
  ∀ (s : State) (n : Nat) (f : F1), Issues s n f.g true → f.res = 0 → n < 512 →
    let a := (s.cell n).arch
    let addr := (a.sreg f.ra.toNat + f.imm.signExtend 64).toNat
    let stores (i : Instr) (align len : Nat) (x : Nat) : Prop :=
      Clear s n addr len → OwnAccess n align addr len →
      (s.stageOk addr len = false → exec i s = .refused .cellNotIssuing) ∧ (s.stageOk addr len = true → ∃ t, exec i s = .next t ∧
        (∀ k, k < len → t.memByte (addr + k) = BitVec.ofNat 8 (x / 256 ^ k)) ∧
        (∀ p, p < addr ∨ addr + len ≤ p → t.memByte p = s.memByte p) ∧
        (t.cell n).arch = a.advance ∧ (∀ m, m ≠ n → t.cell m = s.cell m) ∧ t.sync = s.sync ∧
        ((s.cell n).frozen = 0 → (s.cell n).switchedIn = true → t = { s with cells := t.cells, mem := t.mem }))
    (f.ty.toNat ≤ 3 → stores (.st n f) (2 ^ f.ty.toNat) (2 ^ f.ty.toNat) (a.sreg f.rd.toNat).toNat) ∧
    (f.ty = 0 → stores (.vst n f) 8 256 (a.vreg f.rd.toNat).toNat) ∧
    (f.ty = 0 → f.rd.toNat < 16 → stores (.stt n f) 32 32 (a.treg f.rd.toNat).toNat)

/-- The checks of R104, in its order: a misaligned access faults with cause 3, a start outside the own cell memory with cause 7,
a run past its end with cause 6. -/
def Obligations.OwnMemoryChecks : Prop :=
  ∀ (s : State) (n : Nat) (f : F1) (i : Instr) (align len : Nat), Issues s n f.g true → f.res = 0 → f.rd.toNat < 16 →
    ((i = .ld n f ∨ i = .st n f) ∧ f.ty.toNat ≤ 3 ∧ align = 2 ^ f.ty.toNat ∧ len = 2 ^ f.ty.toNat ∨
      (i = .vld n f ∨ i = .vst n f) ∧ f.ty = 0 ∧ align = 8 ∧ len = 256 ∨
      (i = .ldt n f ∨ i = .stt n f) ∧ f.ty = 0 ∧ align = 32 ∧ len = 32 ∨
      (i = .eaLdi n f ∨ i = .eaAddi n f .none ∨ i = .eaSti n f .none ∧ (s.cell n).arch.residuesOk f.rd.toNat = true) ∧ f.ty = 0 ∧ align = 16 ∧ len = 80) →
    let addr := ((s.cell n).arch.sreg f.ra.toNat + f.imm.signExtend 64).toNat
    let fault (k : Nat) : Host.Outcome State Fault Refusal := .next ((s.endFence n true).programFault n k)
    Clear s n addr len →
    (addr % align ≠ 0 → exec i s = fault 3) ∧
    (addr % align = 0 → addr < cellMem n ∨ cellMem n + cellBytes ≤ addr → exec i s = fault 7) ∧
    (addr % align = 0 → cellMem n ≤ addr → addr < cellMem n + cellBytes → cellMem n + cellBytes < addr + len →
      exec i s = fault 6)

/-! ### Exact accumulators (R120-R122, R168-R182) -/

/-- The exact-accumulate instructions without a residue mismatch: every lane, or the lanes selected, added exactly; merge; images
loaded, added and stored; the read-out rounded once. Where the stored
residues of an accumulator differ from those of its limbs, a read-out or a store is handled as a repeated mismatch (R120, R121, R122,
R171, R173, R175, R181). -/
def Claims.ExactAccumulate : Prop :=
  ∀ (s : State) (n : Nat) (g : Guard),
    let a := (s.cell n).arch
    let acc (r : Nat) : Accu := accuOpen (a.ereg r).toNat
    (∀ f : F0, f.g = g → Issues s n g false → f.rc = 0 → f.rm = 0 → f.ri = 0 → f.xop = 0 → f.res = 0 → f.rd.toNat < 16 →
      let x := fun l => (elemOf f.ty.toNat).decode (a.vlane f.ty.toNat f.ra l)
      let put (i : Instr) (out : Accu) : Prop := ∃ t, exec i s = .next t ∧
        (t.cell n).arch.ereg f.rd.toNat = BitVec.ofNat 640 (accuImage out) ∧ (t.cell n).arch.pc = a.pc + 1 ∧ t.mem = s.mem ∧
        t = { s with cells := t.cells, dbg := { s.dbg with part := t.dbg.part } }
      (f.ra = 0 → f.rb = 0 → f.ty = 0 → exec (.eaClr n f) s = .next (s.withArch n false (a.setE f.rd.toNat 0).advance)) ∧
      (4 ≤ f.ty.toNat → f.ty.toNat ≤ 9 →
        let kind := if f.ty.toNat = 9 then 2 else 1
        (acc f.rd.toNat).kind = 0 ∨ (acc f.rd.toNat).kind = kind →
        (f.rb = 0 → put (.eaAdd n f .none)
          (((List.range (laneCount f.ty.toNat)).map x).foldl (Accu.add kind) (acc f.rd.toNat))) ∧
        put (.eaAddm n f .none)
          ((((List.range (laneCount f.ty.toNat)).filter fun l => a.vlane f.ty.toNat f.rb l != 0).map x).foldl
            (Accu.add kind) (acc f.rd.toNat))) ∧
      (f.rb = 0 → f.ty = 0 → f.ra.toNat < 16 → kindsClash (acc f.rd.toNat).kind (acc f.ra.toNat).kind = false →
        put (.eaMerge n f .none) ((acc f.rd.toNat).merge (acc f.ra.toNat)))) ∧
    (∀ f : F0, f.g = g → Issues s n g false → f.rb = 0 → f.rc = 0 → f.rm ≠ 5 → f.rm ≠ 6 → f.xop = 0 → f.res = 0 →
      f.ra.toNat < 16 → (f.ty.toNat = 9 ∨ (6 ≤ f.ty.toNat ∧ f.ty.toNat ≤ 8 ∧ (acc f.ra.toNat).kind ≠ 2)) →
      ∀ ff, elemOf f.ty.toNat = .fp ff →
        let r := (acc f.ra.toNat).readOut ff (a.mode f.rm) (stochDraw a.seed (a.sreg f.ri.toNat))
        (a.residuesOk f.ra.toNat = true → exec (.eaRd n f .none) s = .next (s.withArch n false
          { (a.setS f.rd.toNat (BitVec.ofNat 64 r.1)).advance with xstat := a.xstat ||| BitVec.ofNat 32 r.2 })) ∧
        (a.residuesOk f.ra.toNat = false → exec (.eaRd n f .none) s = exec (.eaRd n f .lasting) s)) ∧
    (∀ f : F1, f.g = g → Issues s n g true → f.res = 0 → f.ty = 0 → f.rd.toNat < 16 → n < 512 →
      let addr := (a.sreg f.ra.toNat + f.imm.signExtend 64).toNat
      let img := leNat (s.memBytes addr 80)
      Clear s n addr 80 → OwnAccess n 16 addr 80 →
      (imageMalformed img = false → kindsClash (acc f.rd.toNat).kind (accuOpen img).kind = false →
        (∃ t, exec (.eaLdi n f) s = .next t ∧ (t.cell n).arch.ereg f.rd.toNat = BitVec.ofNat 640 img ∧ t.mem = s.mem) ∧
        (∃ t, exec (.eaAddi n f .none) s = .next t ∧ t.mem = s.mem ∧
          (t.cell n).arch.ereg f.rd.toNat = BitVec.ofNat 640 (accuImage ((acc f.rd.toNat).merge (accuOpen img))))) ∧
      (a.residuesOk f.rd.toNat = true → s.stageOk addr 80 = true → ∃ t, exec (.eaSti n f .none) s = .next t ∧ (t.cell n).arch = a.advance ∧
        (∀ k, k < 80 → t.memByte (addr + k) = BitVec.ofNat 8 ((a.ereg f.rd.toNat).toNat / 256 ^ k)) ∧
        (∀ p, p < addr ∨ addr + 80 ≤ p → t.memByte p = s.memByte p)) ∧
      (a.residuesOk f.rd.toNat = false → exec (.eaSti n f .none) s = exec (.eaSti n f .lasting) s))

/-- A residue mismatch whose repeat succeeds changes no result, only counts. After a second mismatch the cell is handled as a failed
unit, the test record becomes invalid, and the result that failed is not delivered (R61, R182, R588). -/
def Claims.ResidueMismatch : Prop :=
  ∀ (s t : State) (n : Nat) (g : Guard) (i r l : Instr),
    ((∃ f, f.g = g ∧ i = .eaAdd n f .none ∧ r = .eaAdd n f .repeated ∧ l = .eaAdd n f .lasting) ∨
      (∃ f, f.g = g ∧ i = .eaAddm n f .none ∧ r = .eaAddm n f .repeated ∧ l = .eaAddm n f .lasting) ∨
      (∃ f, f.g = g ∧ i = .eaRd n f .none ∧ r = .eaRd n f .repeated ∧ l = .eaRd n f .lasting) ∨
      (∃ f, f.g = g ∧ i = .eaMerge n f .none ∧ r = .eaMerge n f .repeated ∧ l = .eaMerge n f .lasting) ∨
      (∃ f, f.g = g ∧ i = .eaAddi n f .none ∧ r = .eaAddi n f .repeated ∧ l = .eaAddi n f .lasting) ∨
      (∃ f, f.g = g ∧ i = .eaSti n f .none ∧ r = .eaSti n f .repeated ∧ l = .eaSti n f .lasting)) →
    exec i s = .next t →
    let phys := (s.remapOf n).phys
    (∃ u, exec r s = .next u ∧ u = { t with dbg := u.dbg }) ∧
    (Issues s n g false → (t.cell n).run = .issuing → phys < 576 → (s.physOf phys).retired = false →
      (s.servedBy phys).isSome = true → exec l s = exec (.cellFailed phys) ((s.countRepeat n).spoilRecord 4))

/-- Adding FP32 or narrower values into an `EXACT` accumulator gives the same image in every order (R171, R172, R173). -/
def Claims.ExactSumOrderFree : Prop :=
  ∀ (ff : FpFmt) (xs ys : List Nat), (ff = fp32 ∨ ff = bf16 ∨ ff = fp16 ∨ ff = e5m2 ∨ ff = e4m3) → xs.Perm ys →
    xs.length < 2 ^ 255 →
    accuImage ((xs.map ff.decode).foldl (Accu.add 1) Accu.empty) = accuImage ((ys.map ff.decode).foldl (Accu.add 1) Accu.empty)

/-- Adding FP64 values into a `BINNED64` accumulator gives the same image in every order (R175, R178). -/
def Claims.BinnedSumOrderFree : Prop :=
  ∀ xs ys : List Nat, xs.Perm ys → xs.length ≤ 2 ^ 86 →
    accuImage ((xs.map fp64.decode).foldl (Accu.add 2) Accu.empty) = accuImage ((ys.map fp64.decode).foldl (Accu.add 2) Accu.empty)

/-- Rounding a value that a format represents gives it back in every mode, and sets no flag (R152, R158). -/
def Claims.RoundingIsExactOnTheFormat : Prop :=
  ∀ (ff : FpFmt) (mode : RMode) (r x : Nat) (neg : Bool) (m : Nat) (e : Int),
    (ff = fp64 ∨ ff = fp32 ∨ ff = bf16 ∨ ff = fp16 ∨ ff = e5m2 ∨ ff = e4m3) → x < 2 ^ ff.width →
    ff.decode x = .fin neg m e → ff.round mode r (.fin neg m e) = (x, 0)

/-! ### The matrix unit (R54, R114-R118, R162-R164) -/

/-- mma: where the operands are well formed, agree, lie in the own cell memory with their scales and hold the K step, every
element of the array takes the exact sum of the products and the element, rounded once under RNE; INT8 modulo 2^32; the other
arrays, memory and registers stay (R114, R115, R162, R164). -/
def Claims.MatrixMultiply : Prop :=
  ∀ (s : State) (n : Nat) (f : F3) (M N K ty : Nat),
    let a := (s.cell n).arch
    let ta := tileOf (a.treg f.ta.toNat)
    let tb := tileOf (a.treg f.tb.toNat)
    let m := (a.sreg f.sm.toNat).toNat
    let q := (a.sreg f.sn.toNat).toNat
    let k := (a.sreg f.sk.toNat).toNat
    Issues s n f.g true → f.ri = 0 → f.res = 0 → f.cm ≠ 3 → Clear s n ta.base (ta.span 1) → Clear s n tb.base (tb.span 1) →
    (isMx ta.fmt = true → Clear s n ta.scale (ta.d1 * ta.d0 / 32)) →
    (isMx tb.fmt = true → Clear s n tb.scale (tb.d1 * tb.d0 / 32)) → ta.malformed false = false → tb.malformed false = false → ta.base % 64 = 0 → ta.s1 % 64 = 0 → tb.base % 64 = 0 →
    tb.s1 % 64 = 0 → mmaPair ta.fmt tb.fmt = true → mmaShape ta.fmt = some (M, N, K, ty) → f.aty.toNat = ty →
    ownRange n ta.base (ta.span 1) = true → ownRange n tb.base (tb.span 1) = true → ta.d2 ≠ 0 → tb.d2 ≠ 0 →
    (m + 1) * M ≤ ta.d1 → (q + 1) * N ≤ tb.d1 → (k + 1) * K ≤ ta.d0 → (k + 1) * K ≤ tb.d0 →
    scalesOwn n ta (m * M) M (k * K) K = true → scalesOwn n tb (q * N) N (k * K) K = true →
    ∃ t, exec (.mma n f) s = .next t ∧ (t.cell n).arch.pc = a.pc + 1 ∧ t.mem = s.mem ∧ (t.cell n).arch.s = a.s ∧
      (∀ j, j < M → ∀ l, l < N →
        let old := a.accElem f.acc.toNat ty (64 * j + l)
        let new := (t.cell n).arch.accElem f.acc.toNat ty (64 * j + l)
        (ta.fmt = 0 →
          let p := ((ta.elems s (m * M + j) (k * K) K).zip (tb.elems s (q * N + l) (k * K) K)).foldl
            (fun v e => v + toSigned 8 e.1 * toSigned 8 e.2) 0
          new = wrap 32 (if f.cm = 0 then toSigned 32 old + p else if f.cm = 1 then p else toSigned 32 old - p)) ∧
        (ta.fmt ≠ 0 →
          let ff := if ty = 9 then fp64 else fp32
          let ps := List.zipWith (fun x y => (Fp.mul x y).1) (ta.values s (m * M + j) (k * K) K) (tb.values s (q * N + l) (k * K) K)
          let ps := if f.cm = 2 then ps.map Fp.negate else ps
          new = (ff.round .rne 0 (Fp.sum false (if f.cm = 1 then ps else ff.decode old :: ps)).1).1)) ∧
      (∀ j w, j < 4 → j ≠ f.acc.toNat → w < 4096 → (t.cell n).arch.accW j w = a.accW j w)

/-- acc.ld takes a block of a tile into an array; a `NORMAL` acc.rd writes each element once rounded under `rmode`, or saturated, to
a block of a tile; an image read-out completes where the images at their places may take the elements. Only the block's rows
change (R117, R118, R165). -/
def Claims.AccumulatorTransfers : Prop :=
  ∀ (s : State) (n : Nat) (f : F3), n < 512 →
    let a := (s.cell n).arch
    let tl := tileOf (a.treg f.ta.toNat)
    let m := (a.sreg f.sm.toNat).toNat
    let q := (a.sreg f.sn.toNat).toNat
    let ty := f.aty.toNat
    let rows := blockRows ty
    let len := 64 * tl.width / 8
    let row (i : Nat) : Nat := tl.rowAddr (m * rows + i) 0 + q * 64 * tl.width / 8
    Issues s n f.g true → f.tb = 0 → f.sk = 0 → f.res = 0 → Clear s n tl.base (tl.span 1) → tl.malformed false = false →
    cellMem n ≤ tl.base → (m + 1) * rows ≤ tl.d1 → (q + 1) * 64 ≤ tl.d0 → tl.d2 ≠ 0 →
    ownRange n (row 0) ((rows - 1) * tl.s1 + len) = true → s.stageOk tl.base (tl.span 1) = true →
    (f.ri = 0 → f.cm = 0 → (ty = 2 ∨ ty = 8 ∨ ty = 9) → tl.fmt = ty →
      ∃ t, exec (.accLd n f) s = .next t ∧ (t.cell n).arch.pc = a.pc + 1 ∧ t.mem = s.mem ∧
        (∀ i, i < rows → ∀ j, j < 64 →
          (t.cell n).arch.accElem f.acc.toNat ty (64 * i + j) = bits (leNat (s.memBytes (row i) len)) (j * tl.width) tl.width) ∧
        (∀ j w, j < 4 → j ≠ f.acc.toNat → w < 4096 → (t.cell n).arch.accW j w = a.accW j w)) ∧
    (f.cm = 0 → a.amode = 0 → rdNormal ty tl.fmt = true →
      ∃ t, exec (.accRd n ⟨f, .none⟩) s = .next t ∧ (t.cell n).arch.pc = a.pc + 1 ∧ (t.cell n).arch.acc = a.acc ∧
        (∀ p, (∀ i, i < rows → p < row i ∨ row i + len ≤ p) → t.memByte p = s.memByte p) ∧
        (len ≤ tl.s1 → ∀ i, i < rows → ∀ j, j < 64 →
          bits (leNat (t.memBytes (row i) len)) (j * tl.width) tl.width =
            (rdElem a f.ri ty tl.fmt (64 * i + j) (a.accElem f.acc.toNat ty (64 * i + j))).1)) ∧
    (f.cm = 0 → a.amode ≠ 0 → (ty = 8 ∨ ty = 9) → tl.fmt = 16 →
      ∃ t, exec (.accRd n ⟨f, .none⟩) s = .next t ∧ (t.cell n).arch.pc = a.pc + 1 ∧ (t.cell n).arch.acc = a.acc ∧
        (∀ p, (∀ i, i < rows → p < row i ∨ row i + len ≤ p) → t.memByte p = s.memByte p) ∧
        (len ≤ tl.s1 → ∀ i, i < rows → ∀ j, j < 64 →
          leNat (t.memBytes (row i + 80 * j) 80) = accuImage (Accu.empty.add (if ty = 9 then 2 else 1)
            ((elemOf ty).decode (a.accElem f.acc.toNat ty (64 * i + j)))))) ∧
    (f.cm = 1 → a.amode ≠ 0 → (ty = 8 ∨ ty = 9) → tl.fmt = 16 →
      let kind := if ty = 9 then 2 else 1
      let old := fun i j => leNat (s.memBytes (row i + 80 * j) 80)
      (∀ i, i < rows → ∀ j, j < 64 → imageMalformed (old i j) = false ∧ kindsClash (accuOpen (old i j)).kind kind = false) →
      ∃ t, exec (.accRd n ⟨f, .none⟩) s = .next t ∧ (t.cell n).arch.pc = a.pc + 1 ∧ (t.cell n).arch.acc = a.acc ∧
        (∀ p, (∀ i, i < rows → p < row i ∨ row i + len ≤ p) → t.memByte p = s.memByte p) ∧
        (len ≤ tl.s1 → ∀ i, i < rows → ∀ j, j < 64 →
          leNat (t.memBytes (row i + 80 * j) 80) = accuImage ((accuOpen (old i j)).add kind
            ((elemOf ty).decode (a.accElem f.acc.toNat ty (64 * i + j)))) % 2 ^ 640))

/-- A matrix instruction on a tile of no elements goes on, and changes no array and no memory (R111). -/
def Claims.MatrixEmptyTiles : Prop :=
  ∀ (s : State) (n : Nat) (f : F3), Issues s n f.g true → f.res = 0 → s.flips = [] →
    let a := (s.cell n).arch
    let ta := tileOf (a.treg f.ta.toNat)
    let tb := tileOf (a.treg f.tb.toNat)
    let ty := f.aty.toNat
    ta.malformed false = false →
    (f.ri = 0 → f.cm ≠ 3 → ta.empty = true ∨ tb.empty = true → tb.malformed false = false → ta.base % 64 = 0 →
      ta.s1 % 64 = 0 → tb.base % 64 = 0 → tb.s1 % 64 = 0 → mmaPair ta.fmt tb.fmt = true →
      (∃ M N K, mmaShape ta.fmt = some (M, N, K, ty)) →
      ∃ t, exec (.mma n f) s = .next t ∧ t.cell n = { (s.endFence n true).cell n with arch := a.advance } ∧ t.mem = s.mem) ∧
    (f.tb = 0 → f.sk = 0 → ta.empty = true →
      (f.ri = 0 → f.cm = 0 → (ty = 2 ∨ ty = 8 ∨ ty = 9) → ta.fmt = ty →
        exec (.accLd n f) s = .next (s.withArch n true a.advance)) ∧
      (f.cm = 0 → a.amode = 0 → rdNormal ty ta.fmt = true →
        exec (.accRd n ⟨f, .none⟩) s = .next (s.withArch n true a.advance)) ∧
      (f.cm.toNat ≤ 1 → a.amode ≠ 0 → (ty = 8 ∨ ty = 9) → ta.fmt = 16 →
        exec (.accRd n ⟨f, .none⟩) s = .next (s.withArch n true a.advance)))

/-! ### What holds of every cell instruction (R63, R101, R105, R135, R140) -/

/-- At an index at or beyond the end of the loaded image every instruction faults with cause 2, whatever its word (R135). -/
def Obligations.ImageEndFaults : Prop :=
  ∀ (s : State) (i : Instr) (n : Nat) (g : Guard) (memory : Bool), cellWord i = some (n, g, memory) →
    s.live = true → s.canIssue n = true → (memory = true → s.memHeld n = false) →
    (s.cell n).imageLen ≤ (s.cell n).arch.pc.toNat →
    exec i s = .next ((s.endFence n memory).programFault n 2)

/-- An instruction whose predicate is false only moves the pc on, or faults at its word or the image's end (R63, R105). -/
def Claims.FalsePredicateDoesNothing : Prop :=
  ∀ (s t : State) (i : Instr) (n : Nat) (g : Guard) (memory : Bool), cellWord i = some (n, g, memory) →
    (s.cell n).arch.guard g = false → exec i s = .next t →
    t = (s.endFence n memory).advancePc n ∨ t = (s.endFence n memory).programFault n 1 ∨
      t = (s.endFence n memory).programFault n 2

/-- A word with a nonzero reserved field, or with the rounding field 5 or 6, faults at issue with cause 1, and so does every word that
spells no instruction, which the command nop issues (R100, R101; log 106). -/
def Claims.ReservedFieldsFault : Prop :=
  ∀ (s : State) (n : Nat), s.live = true → s.canIssue n = true → s.memHeld n = false →
    (s.cell n).arch.pc.toNat < (s.cell n).imageLen →
    let fault (memory : Bool) : Host.Outcome State Fault Refusal := .next ((s.endFence n memory).programFault n 1)
    (∀ f : F0, (f.res ≠ 0 ∨ f.rm = 5 ∨ f.rm = 6) →
      exec (.add n f) s = fault false ∧ exec (.div n f) s = fault false ∧ exec (.cmp n f) s = fault false ∧
      exec (.csrw n f) s = fault false ∧ exec (.vadd n f) s = fault false ∧ exec (.vcvt n f) s = fault false ∧
      exec (.vtr n f) s = fault false ∧ exec (.tset n f) s = fault false ∧ exec (.eaClr n f) s = fault false ∧
      exec (.eaRd n f .none) s = fault false) ∧
    (∀ f : F1, f.res ≠ 0 → exec (.addi n f) s = fault false ∧ exec (.cmpi n f) s = fault false ∧
      exec (.ld n f) s = fault true ∧ exec (.vst n f) s = fault true ∧ exec (.eaSti n f .none) s = fault true) ∧
    (∀ f : F2, f.res ≠ 0 → exec (.br n f) s = fault false ∧ exec (.loop n f) s = fault false ∧
      exec (.halt n f) s = fault false) ∧
    (∀ f : F3, (f.res ≠ 0 ∨ f.cm = 3) → exec (.mma n f) s = fault true ∧ exec (.accLd n f) s = fault true ∧
      exec (.accRd n ⟨f, .none⟩) s = fault true) ∧
    (∀ f : F4, f.res ≠ 0 → exec (.tm n f) s = fault true ∧ exec (.tmWait n f) s = fault false) ∧
    (∀ f w, decodeCell n w = none → exec (.nop n ⟨f, some w⟩) s = fault false)

/-- A program fault records cause and fault_pc in `xstat` and stops the cell; the other cells of its command that still issue
are quenched; no register but `xstat`, no memory and no sync object changes (R137, R140). -/
def Claims.ProgramFaultStopsTheCommand : Prop :=
  ∀ (s : State) (n k : Nat), k < 16 →
    let t := s.programFault n k
    let a := (s.cell n).arch
    (t.cell n).run = .faulted ∧ t.mem = s.mem ∧ t.ext = s.ext ∧ t.sync = s.sync ∧
    bits (t.cell n).arch.xstat.toNat 8 4 = k ∧ bits (t.cell n).arch.xstat.toNat 12 14 = a.pc.toNat ∧
    bits (t.cell n).arch.xstat.toNat 0 7 = bits a.xstat.toNat 0 7 ∧
    (t.cell n).arch = { a with xstat := (t.cell n).arch.xstat } ∧
    (∀ m, m ∈ s.peers n → (s.cell m).run.active = true → (t.cell m).run = .quenched ∧ (t.cell m).arch = (s.cell m).arch) ∧
    (∀ m, m ≠ n → m ∉ s.peers n → t.cell m = s.cell m)

/-! ### Tiles (R108, R112, R113, R124-R127) -/

/-- tset writes the field that xop names and no other bit of the descriptor, and a value too wide or reserved faults with cause 5;
tadv adds to the base, modulo 2^64 (R108, R112, R113). -/
def Claims.DescriptorFields : Prop :=
  ∀ (s : State) (n : Nat) (f : F0), Issues s n f.g false → f.rb = 0 → plainF0 f → f.rd.toNat < 16 →
    let a := (s.cell n).arch
    let v := (a.sreg f.ra.toNat).toNat
    let old := a.treg f.rd.toNat
    (∀ code lo w most, (code, lo, w, most) ∈ [(0, 0, 64, 2 ^ 64 - 1), (1, 64, 16, 65535), (2, 80, 16, 65535),
        (3, 96, 16, 65535), (4, 128, 32, 2 ^ 32 - 1), (5, 160, 32, 2 ^ 32 - 1), (6, 192, 5, 16), (7, 197, 3, 1),
        (8, 200, 56, 2 ^ 56 - 1)] → f.xop.toNat = code →
      (v ≤ most → ∃ x : BitVec 256, exec (.tset n f) s = .next (s.withArch n false (a.setT f.rd.toNat x).advance) ∧
        bits x.toNat lo w = v ∧ ∀ b, b < lo ∨ lo + w ≤ b → x.getLsbD b = old.getLsbD b) ∧
      (most < v → exec (.tset n f) s = .next ((s.endFence n false).programFault n 5))) ∧
    (f.xop = 0 → ∃ x : BitVec 256, exec (.tadv n f) s = .next (s.withArch n false (a.setT f.rd.toNat x).advance) ∧
      x.extractLsb' 0 64 = old.extractLsb' 0 64 + a.sreg f.ra.toNat ∧ x.extractLsb' 64 192 = old.extractLsb' 64 192)

/-- tm: with its slot free and its checks passed the move starts and the slot is taken; with both tiles in the own cell memory and no
granule of it frozen the rows are copied and nothing else changes. A busy slot stalls issue. tm.wait goes on when the slot is free, and
holds issue until then (R70, R111, R124, R125, R126). -/
def Claims.TileMoves : Prop :=
  ∀ (s : State) (n : Nat) (f : F4), n < 512 → f.res = 0 →
    let a := (s.cell n).arch
    let src := tileOf (a.treg f.ts.toNat)
    let dst := tileOf (a.treg f.td.toNat)
    let sg := if f.sg = 0 then none else some (a.sreg f.sg.toNat)
    let move : TileMove := { src := a.treg f.ts.toNat, dst := a.treg f.td.toNat, sg := sg }
    (s.lostIn src.base src.extent = false → s.goneIn src.base src.extent = false → s.goneIn dst.base dst.extent = false →
      s.resetHolds dst.base dst.extent = false → Issues s n f.g true → Clear s n src.base src.extent →
      Clear s n dst.base dst.extent → (s.cell n).slot f.id.toNat = none → s.tmCheck n src dst sg = none →
      ((src.empty = true ∨ dst.empty = true) → ∃ t, exec (.tm n f) s = .next t ∧ (t.cell n).arch = a.advance ∧
        (t.cell n).slot f.id.toNat = some move ∧ t.mem = s.mem ∧ t.far = s.far) ∧
      (src.empty = false → dst.empty = false → ∀ h k, s.tileHomes n src dst = .ok (h, k) →
        ∃ t, exec (.tm n f) s = .next t ∧ (t.cell n).arch = a.advance ∧ (t.cell n).slot f.id.toNat = some move) ∧
      (src.empty = false → dst.empty = false → dst.layout = 0 → ownRange n src.base src.extent = true →
        ownRange n dst.base dst.extent = true →
        (src.base + src.extent ≤ dst.base ∨ dst.base + dst.extent ≤ src.base) → (src.d1 = 1 ∨ src.rowBytes ≤ dst.s1) →
        (src.d2 = 1 ∨ (dst.d1 - 1) * dst.s1 + src.rowBytes ≤ dst.s2) → (s.cell n).frozen = 0 → s.link.snoop = [] →
        s.link.bis = [] → ∃ t, exec (.tm n f) s = .next t ∧ (t.cell n).slot f.id.toNat = some move ∧
          (∀ r p k, r < src.d1 → p < src.d2 → k < src.rowBytes →
            t.memByte (dst.rowAddr r p + k) = s.memByte (src.rowAddr r p + k)) ∧
          (∀ q, (∀ r p, r < src.d1 → p < src.d2 → q < dst.rowAddr r p ∨ dst.rowAddr r p + src.rowBytes ≤ q) →
            t.memByte q = s.memByte q))) ∧
    (s.lostIn src.base src.extent = false → s.goneIn src.base src.extent = false → s.goneIn dst.base dst.extent = false →
      s.resetHolds dst.base dst.extent = false → Issues s n f.g true → Clear s n src.base src.extent →
      Clear s n dst.base dst.extent → (s.cell n).slot f.id.toNat ≠ none → ∃ t, exec (.tm n f) s = .next t ∧
        (t.cell n).run = .waitSlot f.id.toNat false ∧ (t.cell n).arch = a) ∧
    (Issues s n f.g false → f.td = 0 → f.ts = 0 → f.sg = 0 →
      ((s.cell n).slot f.id.toNat = none → exec (.tmWait n f) s = .next (s.withArch n false a.advance)) ∧
      ((s.cell n).slot f.id.toNat ≠ none → exec (.tmWait n f) s = .next ((s.endFence n false).setCell n
        { (s.endFence n false).cell n with run := .waitSlot f.id.toNat true })))

/-- The completion of a move frees its slot, signals the object that sg named, and lets an instruction that waits for the slot
go on (R126, R127). -/
def Claims.TileMoveCompletes : Prop :=
  ∀ (s : State) (n slot : Nat) (m : TileMove), s.live = true → n < 512 → slot < 4 → (s.cell n).slot slot = some m →
    s.outstanding (.slot n slot) = false → s.quiet (Engine.key (.cell n)) = true →
    ∃ t, exec (.tileMoveComplete n slot) s = .next t ∧ (t.cell n).slot slot = none ∧ t.mem = s.mem ∧ t.sync = s.sync ∧
      (∀ j, (s.cell n).run = .waitSlot slot j → (t.cell n).run = .issuing ∧
        (t.cell n).arch = if j then (s.cell n).arch.advance else (s.cell n).arch) ∧
      (m.sg = none → t.sigs = s.sigs) ∧
      (∀ v o, m.sg = some v → s.syncRef (s.partOfCell n) v.toNat = .loc o →
        ∃ g, t.sigs = s.sigs ++ [g] ∧ g.obj = o ∧ g.set = false ∧ g.v = 1 ∧ g.eng = .cell n)

/-! ### The sync port (R128-R133, R291, R304) -/

/-- The instructions on sync objects: sig.add and sig.set issue a signal that its object's island will apply; a wait that is
satisfied goes on, and one that is not holds issue in the wait table, or by polling where the table is full; test.ge and sread
read the object. One that reads is held behind the cell's own signals to the object and behind what waits in its sync-port queue; a
signal behind others takes a place in the queue, and is held while it is full (R62, R129, R130, R131, R286, R304; log 130). -/
def Claims.SyncInstructions : Prop :=
  ∀ (s : State) (n o : Nat) (f : F5), Issues s n f.g true →
    let a := (s.cell n).arch
    let u := s.endFence n true
    let v := a.sreg f.sb.toNat + f.imm.signExtend 64
    let w (eq : Bool) : WaitEntry := { who := .cell n, obj := o, eq := eq, v := v, held := true }
    let held : Host.Outcome State Fault Refusal := .refused .cellNotIssuing
    s.syncRef (s.partOfCell n) (a.sreg f.sa.toNat).toNat = .loc o →
    (s.ownSignal n o = true ∨ (s.cell n).portQ ≠ [] → exec (.waitGe n f) s = held ∧ exec (.waitEq n f) s = held ∧ exec (.testGe n f) s = held ∧
      exec (.sread n f) s = held) ∧
    (f.sd = 0 → f.pd = 0 → (s.cell n).portQ ≠ [] →
      ∀ i set, (i = .sigAdd n f ∧ set = false ∨ i = .sigSet n f ∧ set = true) →
        (8 ≤ (s.cell n).portQ.length → exec i s = held) ∧
        ((s.cell n).portQ.length < 8 → ∃ t, exec i s = .next t ∧ (t.cell n).arch = a.advance ∧ t.sync = s.sync ∧
          t.sigs = s.sigs ∧ t.fab = s.fab ∧
          (t.cell n).portQ = (s.cell n).portQ ++ [.sig set (a.sreg f.sa.toNat) v s.farTag])) ∧
    (f.sd = 0 → f.pd = 0 → (s.cell n).portQ = [] →
      (∀ i set, (i = .sigAdd n f ∧ set = false ∨ i = .sigSet n f ∧ set = true) → ∃ t g, exec i s = .next t ∧
        t.sigs = s.sigs ++ [g] ∧ g.obj = o ∧ g.set = set ∧ g.v = v ∧ g.eng = .cell n ∧ (t.cell n).arch = a.advance ∧
        t.sync = s.sync ∧ t.mem = s.mem) ∧
      (s.ownSignal n o = false → ∀ i eq, (i = .waitGe n f ∧ eq = false ∨ i = .waitEq n f ∧ eq = true) →
        let holds := if eq then s.obj o = v else v.toNat ≤ (s.obj o).toNat
        (holds → exec i s = .next (s.withArch n true a.advance)) ∧
        (¬holds → s.waitFull o = false → exec i s = .next { u.setCell n { u.cell n with run := .waitObj o eq v false, waitAt := s.now } with
          waits := s.waits ++ [w eq] }) ∧
        (¬holds → s.waitFull o = true →
          exec i s = .next (u.setCell n { u.cell n with run := .waitObj o eq v true, waitAt := s.now })))) ∧
    (s.ownSignal n o = false → (s.cell n).portQ = [] → f.sd = 0 → exec (.testGe n f) s =
      .next (s.withArch n true (a.setP f.pd.toNat (decide (v.toNat ≤ (s.obj o).toNat))).advance)) ∧
    (s.ownSignal n o = false → (s.cell n).portQ = [] → f.sb = 0 → f.pd = 0 → f.imm = 0 → exec (.sread n f) s =
      .next (s.withArch n true (a.setS f.sd.toNat (s.obj o)).advance))

/-- sig.add and sig.set of an object of another module issue a packet, whose acknowledgement the cell's counts await (R129, R298,
R409). -/
def Claims.RemoteSignals : Prop :=
  ∀ (s : State) (n m o : Nat) (f : F5) (i : Instr) (type : Nat), Issues s n f.g true → f.sd = 0 → f.pd = 0 →
    (s.cell n).portQ = [] →
    (i = .sigAdd n f ∧ type = 6 ∨ i = .sigSet n f ∧ type = 7) →
    let a := (s.cell n).arch
    s.syncRef (s.partOfCell n) (a.sreg f.sa.toNat).toNat = .rem m o →
    ∃ t p, exec i s = .next t ∧ t.fab.outbox = s.fab.outbox ++ [p] ∧ p.type.toNat = type ∧ p.cls = 0 ∧
      p.dstLog = BitVec.ofNat 12 m ∧ p.arg0 = a.sreg f.sb.toNat + f.imm.signExtend 64 ∧ p.arg1 = BitVec.ofNat 32 o ∧
      Tab.get (fun _ => 0) t.fab.issued n = Tab.get (fun _ => 0) s.fab.issued n + 1 ∧ (t.cell n).arch = a.advance ∧
      t.sigs = s.sigs ∧ t.sync = s.sync ∧ t.mem = s.mem

/-- A sync address that is not 8-byte aligned faults with cause 3; one outside the sync range, of another partition, or of
another module for a wait, a test or a read, with cause 7 (R36, R130). -/
def Claims.SyncAddressChecks : Prop :=
  ∀ (s : State) (n : Nat) (f : F5) (i : Instr), Issues s n f.g true → f.sd = 0 → f.pd = 0 →
    (s.cell n).portQ.length < 8 →
    let v := ((s.cell n).arch.sreg f.sa.toNat).toNat
    let fault (k : Nat) : Host.Outcome State Fault Refusal := .next ((s.endFence n true).programFault n k)
    (i = .sigAdd n f ∨ i = .sigSet n f ∨ i = .waitGe n f ∨ i = .waitEq n f ∨ i = .testGe n f) →
    (v % 8 ≠ 0 → exec i s = fault 3) ∧
    (v % 8 = 0 → v < 2 ^ 60 → isSync v = false → exec i s = fault 7) ∧
    (v % 8 = 0 → v < 2 ^ 60 → isSync v = true → s.partOfSync ((v - syncBase) / 8) ≠ s.partOfCell n → exec i s = fault 7) ∧
    (v % 8 = 0 → 2 ^ 61 ≤ v → exec i s = fault 7) ∧
    (i ≠ .sigAdd n f → i ≠ .sigSet n f → v % 8 = 0 → v / 2 ^ 60 = 1 → bits v 48 12 ≠ s.fab.logical.toNat → exec i s = fault 7)

/-- The fences note that they hold what follows: fence.local later accesses of memory, fence.remote every later instruction,
until what came before is performed (R128). -/
def Claims.Fences : Prop :=
  ∀ (s : State) (n : Nat) (f : F5), Issues s n f.g false → f.sa = 0 → f.sb = 0 → f.sd = 0 → f.pd = 0 → f.imm = 0 →
    let u := s.endFence n false
    let out (x : Fence) : Host.Outcome State Fault Refusal :=
      .next (u.setCell n { u.cell n with fence := x, arch := (s.cell n).arch.advance })
    exec (.fenceLocal n f) s = out .localOnly ∧
    exec (.fenceRemote n f) s = out .remote ∧
    (∀ (t : State) (i : Instr) (g : Guard) (memory : Bool), cellWord i = some (n, g, memory) → t.live = true →
      ((t.cell n).fence = .remote → (t.quiet (Engine.key (.cell n)) = false ∨ t.localPending n = true) →
        exec i t = .refused .cellNotIssuing) ∧
      (memory = true → (t.cell n).fence = .localOnly → t.localPending n = true → exec i t = .refused .cellNotIssuing))

/-- A signal is applied to its object once everything it releases has been performed: the object takes the sum modulo 2^64 or
the value, and the waits of the table that it satisfies go on, each cell at its next instruction (R129, R291, R304). -/
def Claims.SyncObjectUpdates : Prop :=
  ∀ (s : State) (k : Nat) (g : Sig), s.live = true → s.sigs[k]? = some g → s.released g = true → g.ack = none →
    s.hostHolds (objLine g.obj) = false → s.link.bis = [] →
    ∃ t, exec (.syncObjectUpdate k) s = .next t ∧
      t.obj g.obj = (if g.set then g.v else s.obj g.obj + g.v) ∧ (∀ m, m ≠ g.obj → t.obj m = s.obj m) ∧
      t.sigs = s.sigs.eraseIdx k ∧ t.mem = s.mem ∧
      t.waits = (s.waits.filter fun w => !(w.held && w.obj == g.obj && w.met (t.obj g.obj))) ∧
      (∀ c eq v j, { who := .cell c, obj := g.obj, eq := eq, v := v, held := true } ∈ s.waits →
        (if eq then t.obj g.obj = v else v.toNat ≤ (t.obj g.obj).toNat) → (s.cell c).run = .waitObj g.obj eq v j →
        (t.cell c).run = .issuing)

/-- Waits that a full table did not accept are tested again: CELL_WAIT_POLL for a cell's port and WAIT_RETEST for a command or a
collective. A wait that holds by then goes on; another enters the table once it has room (R131, R304). -/
def Claims.WaitsTestedAgain : Prop :=
  (∀ (s : State) (n o : Nat) (eq : Bool) (v : Word), s.live = true → (s.cell n).run = .waitObj o eq v true →
    let holds := if eq then s.obj o = v else v.toNat ≤ (s.obj o).toNat
    (holds → exec (.cellWaitPoll n) s =
      .next (s.setCell n { s.cell n with run := .issuing, arch := (s.cell n).arch.advance })) ∧
    (¬holds → s.waitFull o = true → exec (.cellWaitPoll n) s = .next s) ∧
    (¬holds → s.waitFull o = false → exec (.cellWaitPoll n) s = .next
      { s.setCell n { s.cell n with run := .waitObj o eq v false } with
        waits := s.waits ++ [{ who := .cell n, obj := o, eq := eq, v := v, held := true }] })) ∧
  (∀ (s : State) (id : Nat) (w : WaitEntry), s.live = true → w.held = false → w.who.isFor id = true →
    (s.waits.filter fun x => !x.held && x.who.isFor id) = [w] →
    let rest := s.waits.filter fun x => !(!x.held && x.who.isFor id)
    (w.met (s.obj w.obj) = true → exec (.waitRetest id) s = .next { s with waits := rest }) ∧
    (w.met (s.obj w.obj) = false → ({ s with waits := rest }).waitFull w.obj = false →
      exec (.waitRetest id) s = .next { s with waits := rest ++ [{ w with held := true }] }) ∧
    (w.met (s.obj w.obj) = false → ({ s with waits := rest }).waitFull w.obj = true →
      exec (.waitRetest id) s = .next { s with waits := rest ++ [w] }))

/-- coll and forg read a descriptor of the own cell memory and hand it over: a length of 0 does nothing; otherwise the instruction
completes, its registers and memory as they were, and the descriptor has joined the sync-port queue. A refusal that comes
back faults the cell with its cause at the pc of the coll or forg (R132, R133, R237). -/
def Claims.HandOver : Prop :=
  (∀ (s : State) (n : Nat) (f : F5) (i : Instr), (i = .coll n f ∨ i = .forg n f) → Issues s n f.g true → f.sd = 0 → f.pd = 0 →
    let a := (s.cell n).arch
    let v := a.sreg f.sa.toNat
    let len := (a.sreg f.sb.toNat + f.imm.signExtend 64).toNat
    let fault (k : Nat) : Host.Outcome State Fault Refusal := .next ((s.endFence n true).programFault n k)
    (len = 0 → s.flips = [] → exec i s = .next (s.withArch n true a.advance)) ∧
    ((s.cell n).portQ.length < 8 → len ≠ 0 → Clear s n v.toNat len →
      ((512 < len ∨ len % 64 ≠ 0) → exec i s = fault 5) ∧
      (len ≤ 512 → len % 64 = 0 → v.toNat % 64 ≠ 0 → exec i s = fault 3) ∧
      (len ≤ 512 → len % 64 = 0 → OwnAccess n 64 v.toNat len → ∃ t, exec i s = .next t ∧ (t.cell n).arch = a.advance ∧
        t.mem = s.mem ∧ t.sync = s.sync))) ∧
  (∀ (s : State) (n : Nat) (cause : BitVec 4) (pc : BitVec 14), s.live = true → (s.cell n).refusal = some (cause, pc) →
    (s.cell n).run ≠ .faulted →
    ∃ t, exec (.forgRefusal n) s = .next t ∧ (t.cell n).run = .faulted ∧
      bits (t.cell n).arch.xstat.toNat 8 4 = cause.toNat ∧ bits (t.cell n).arch.xstat.toNat 12 14 = pc.toNat)

/-! ### The package (R14-R19, R26, R29, R43, R44, R50, R466) -/

/-- Packets inside the package: from any die a packet reaches any other within eight seams of its fixed route, and from any die or
clock island any other within ten crossings. A packet injected at its router, or served next from a crossing, is forwarded onto the
next crossing of its route or has arrived. A CTL packet goes ahead of every other class, one that fails the seam's CRC stays, and a
full FIFO of 8 entries holds the sender. The second set of buffers is entered on the first spine seam. On the spine seams of a Q-die a
share of each buffer is for escape packets only (R16, R17, R18, R19, R27, R68, R71, R396). -/
def Claims.SeamPackets : Prop :=
  (∀ d t, d < 20 → t < 20 → ∃ k, k ≤ 8 ∧ Nat.repeat (fun x => if x = t then x else nextDie x t) k d = t) ∧
  (∀ d t, d < 137 → t < 137 → ∃ k, k ≤ 10 ∧ Nat.repeat (fun x => if x = t then x else nextRouter x t) k d = t) ∧
  ∀ (s : State) (frm here : Nat), s.live = true → frm < 137 → here < 137 →
    let next (p : SeamPkt) := nextRouter here p.dst
    let seamOf (p : SeamPkt) := decide (here < 20) && decide (next p < 20)
    let on (p : SeamPkt) : SeamPkt := { p with spine := p.spine || (seamOf p && (isSpine here || isSpine (next p))) }
    let room (p : SeamPkt) : Prop :=
      let buffer := (s.seam here (next p)).filter fun q => q.cls == p.cls && q.spine == (on p).spine
      let atQ := (16 ≤ here ∧ here < 19) ∨ (here < 20 ∧ 16 ≤ next p ∧ next p < 19)
      buffer.length < 8 ∧ (p.esc = false → atQ → next p < 20 → (buffer.filter fun q => !q.esc).length < 7)
    (∀ p ok, p.dst < 137 → p.dst ≠ here → p.spine = false →
      (room p → ∃ t, exec (.seamPacketArrival here here (some p) ok) s = .next t ∧
        t = { s with seams := t.seams } ∧ t.seam here (next p) = s.seam here (next p) ++ [on p] ∧
        ∀ x y, x < 137 → y < 137 → (x ≠ here ∨ y ≠ next p) → t.seam x y = s.seam x y) ∧
      (¬room p → exec (.seamPacketArrival here here (some p) ok) s = .refused .notDue)) ∧
    (∀ p ok, p.dst = here → p.spine = false → exec (.seamPacketArrival here here (some p) ok) s = .next s) ∧
    (∀ l p r, frm ≠ here → s.seam frm here = l ++ p :: r → p.dst < 137 → p.dst = here ∨ room p →
      ((p.cls = .ctl ∧ ∀ q ∈ l, q.cls ≠ .ctl) ∨ (l = [] ∧ p.cls ≠ .ctl ∧ ∀ q ∈ r, q.cls ≠ .ctl)) →
      exec (.seamPacketArrival frm here none false) s = .next s ∧
      ∃ t, exec (.seamPacketArrival frm here none true) s = .next t ∧ t = { s with seams := t.seams } ∧
        t.seam frm here = l ++ r ∧
        (p.dst ≠ here → t.seam here (next p) = s.seam here (next p) ++ [on p]) ∧
        (p.dst = here → ∀ x y, x < 137 → y < 137 → (x ≠ frm ∨ y ≠ here) → t.seam x y = s.seam x y))

/-- A tripped droop detector stretches its island until it clears, the Balden island also while only standby power is present. A rise
of frequency that waited on the island's comb takes effect then, once the rail has settled for it and while the reference is present
(R24, R26, R29, R466). -/
def Claims.Droop : Prop :=
  ∀ (s : State) (island : Nat), s.boot.standby = true → (s.live = true ∨ island = 136) → island < 137 →
    let left := s.boot.droop.filter (fun i => i != island)
    let rise (c : Nat) := Tab.get (fun _ => 0) s.power.rise c
    let rail := Tab.get (fun _ => 0) s.power.rail (island / 8)
    (island ∉ s.boot.droop →
      exec (.droopTrip island) s = .next { s with boot := { s.boot with droop := s.boot.droop ++ [island] } }) ∧
    (island ∈ s.boot.droop → ∃ t, exec (.droopClear island) s = .next t ∧
      t = { s with boot := { s.boot with droop := left }, power := { s.power with opp := t.power.opp, rise := t.power.rise } } ∧
      ∀ c, if island < 64 ∧ c / 8 = island / 8 ∧ rise c ≠ 0 ∧ s.boot.oscHeld = false ∧ rise c ≤ rail ∧ c ∉ left then
          Tab.get (fun _ => 0) t.power.opp c = rise c ∧ Tab.get (fun _ => 0) t.power.rise c = 0
        else
          Tab.get (fun _ => 0) t.power.opp c = Tab.get (fun _ => 0) s.power.opp c ∧
            Tab.get (fun _ => 0) t.power.rise c = rise c)

/-- A settled rail admits the rises of its die that wait for it and that no droop holds, while the reference is present (R29,
R465, R466). -/
def Claims.VoltageSettles : Prop :=
  ∀ (s : State) (die top : Nat), s.live = true → die < 8 →
    let opp (c : Nat) := Tab.get (fun _ => 0) s.power.opp c
    let rise (c : Nat) := Tab.get (fun _ => 0) s.power.rise c
    (∀ c, c / 8 = die → opp c ≤ top ∧ rise c ≤ top) → (∃ c, c / 8 = die ∧ (opp c = top ∨ rise c = top)) →
    Tab.get (fun _ => 0) s.power.rail die ≠ top →
    ((Tab.get (fun _ => 0) s.power.rail die < top → ∀ i ∈ s.boot.droop, i / 8 ≠ die) →
      ∃ t, exec (.voltageSettled die) s = .next t ∧ Tab.get (fun _ => 0) t.power.rail die = top ∧
        t = { s with power := { s.power with opp := t.power.opp, rise := t.power.rise, rail := t.power.rail } } ∧
        ∀ c, if c / 8 = die ∧ rise c ≠ 0 ∧ s.boot.oscHeld = false ∧ c ∉ s.boot.droop then
            Tab.get (fun _ => 0) t.power.opp c = rise c ∧ Tab.get (fun _ => 0) t.power.rise c = 0
          else Tab.get (fun _ => 0) t.power.opp c = opp c ∧ Tab.get (fun _ => 0) t.power.rise c = rise c) ∧
    (Tab.get (fun _ => 0) s.power.rail die < top → (∃ i ∈ s.boot.droop, i / 8 = die) →
      exec (.voltageSettled die) s = .refused .notDue)

/-- Standby power and the reference: standby brings up the Balden complex, samples the straps and starts counter 63 at 0; its
loss takes everything but what non-volatile storage and the fuses hold; the loss of the reference holds the islands, stops the
heartbeats, queues event 1 and lights the service light (R29, R43, R44, R588, R670). -/
def Claims.Supplies : Prop :=
  (∀ (s : State) (straps : BitVec 3), s.boot.standby = false → ∃ t, exec (.standbyPresent straps) s = .next t ∧
    t = { s with boot := { s.boot with standby := true }, mgmt := { s.mgmt with straps := straps },
                 dbg := { s.dbg with aon := t.dbg.aon } } ∧ t.now = 0) ∧
  (∀ (s : State), s.boot.standby = true → ∃ t, exec .standbyLoss s = .next t ∧ t.boot.standby = false ∧
    t.boot.mainOn = false ∧ t.boot.oos = s.boot.mainOn ∧ t.boot.recValid = false ∧ t.mem = [] ∧ t.sync = [] ∧ t.bar = [] ∧
    t.stg = [] ∧ t.cells = [] ∧ t.cmds = [] ∧ t.fab.placed = false ∧ t.ext = s.ext ∧ t.mgmt.owner = s.mgmt.owner ∧
    t.mgmt.ownerSeq = s.mgmt.ownerSeq ∧ t.mgmt.lock = s.mgmt.lock ∧ t.mgmt.bank = s.mgmt.bank ∧
    t.mgmt.fuses = s.mgmt.fuses ∧ t.mgmt.images = s.mgmt.images ∧ t.mgmt.rework = s.mgmt.rework ∧ t.mgmt.dyn = none) ∧
  (∀ (s : State), s.boot.standby = true → s.boot.refOk = true → ∃ t, exec .referenceLoss s = .next t ∧
    t.boot = { s.boot with refOk := false, oscHeld := s.boot.mainOn } ∧
    t.swarm = { s.swarm with hbStopped := s.swarm.hbStopped || s.boot.mainOn } ∧
    { code := 1, detail := 0 } ∈ t.mgmt.events ∧ t.mgmt.ibiDue = true ∧ t.mgmt.service = true ∧ t.cells = s.cells ∧
    t.mem = s.mem)

/-- Without standby power nothing happens but that it comes (R43). -/
def Claims.NothingWithoutStandby : Prop :=
  ∀ (c : Instr) (s t : State), s.boot.standby = false → exec c s = .next t → ∃ straps, c = .standbyPresent straps

/-- The zero-fill that is due ends: the close memory of its partitions, and cell memory where the fill covers it, read as 0,
everything else in memory is as it was, and the functions may report ready unless their partition is under reset (R35, R199). -/
def Claims.ZeroFill : Prop :=
  ∀ (s : State), s.live = true → s.boot.zeroFill ≠ [] → s.barB 0x07A008 0 = false →
    let all := 4 ∈ s.boot.zeroFill
    let filled (p : Nat) := p < s.parts ∧ (all ∨ p ∈ s.boot.zeroFill)
    let cellZ (a : Nat) := all ∧ cellBase ≤ a ∧ a < cellBase + 512 * cellBytes
    (∀ p ∈ s.boot.zeroFill, p = 4 ∨ p < s.parts) →
    ∃ t, exec .zeroFillComplete s = .next t ∧ t.boot.zeroFill = [] ∧
      (∀ p a, filled p → s.sliceStart p ≤ a → a < s.sliceStart p + s.sliceBytes → t.memByte a = 0) ∧
      (∀ a, cellZ a → t.memByte a = 0) ∧
      (∀ a, ¬cellZ a → (∀ p, filled p → a < s.sliceStart p ∨ s.sliceStart p + s.sliceBytes ≤ a) → t.memByte a = s.memByte a) ∧
      (∀ p, p ∈ t.boot.ready ↔ p ∈ s.boot.ready ∨ (filled p ∧ s.inReset p = false)) ∧ t.cells = s.cells ∧ t.sync = s.sync

/-- A clock of a bank of cell memory: of the requesters that want it, one refused for 16 consecutive clocks is served, and otherwise
the first in the order matrix, vector, tile, scalar, router; the others have been refused once more. Clocks in which several want
the bank are counted at the cell and the comb. Over several clocks the bank goes on from clock to clock (R48, R50, R639, R640; how
several starved requesters stand is the model's choice, log 22). -/
def Claims.BankStarvation : Prop :=
  ∀ (s : State) (cell off : Nat) (w : BankWait), s.live = true → cell < 512 → off < 2 ^ 22 → w.clocks ≤ 17 → w.users ≠ [] →
    let bank := bits off 6 5
    let old := s.bank cell bank
    let wants := (w.users.map userNum).eraseDups
    let c := (s.remapOf cell).phys
    let n := if wants.length ≤ 1 then 0 else w.clocks
    ∃ t, exec (.bankStarvation cell off w) s = .next t ∧
      t = { s with starve := t.starve, phys := t.phys, dbg := { s.dbg with part := t.dbg.part } } ∧
      (∀ k, k ≠ 32 * cell + bank → Tab.get (fun _ => Bank.reset) t.starve k = Tab.get (fun _ => Bank.reset) s.starve k) ∧
      Tab.get (fun _ => 0) (t.physOf c).cnt 3 = Tab.get (fun _ => 0) (s.physOf c).cnt 3 + BitVec.ofNat 64 n ∧
      (w.clocks = 0 → t.bank cell bank = old) ∧
      (w.clocks = 1 → ∀ u ∈ wants,
        ((16 ≤ old.refused.getD (u - 1) 0 ∧ ∀ v ∈ wants, v ≠ u → old.refused.getD (v - 1) 0 < 16) ∨
          ((∀ v ∈ wants, old.refused.getD (v - 1) 0 < 16) ∧ ∀ v ∈ wants, u ≤ v)) →
        (t.bank cell bank).served = u ∧
          ∀ v, 1 ≤ v → v ≤ 5 → (t.bank cell bank).refused.getD (v - 1) 0 =
            if v ∈ wants ∧ v ≠ u then old.refused.getD (v - 1) 0 + 1 else 0)

/-! ### Cells and the remap table (R75-R87, R689) -/

/-- A failed cell is retired. A healthy spare of its comb takes its logical number, and a guest moves with its host; with no
spare the logical cell becomes a guest of the cell of the sibling comb, or unserved; each change is counted in its
entry. A cell that serves no logical cell is retired, and is no spare any more (R77, R78, R79, R87). -/
def Claims.CellFailures : Prop :=
  (∀ (s : State) (phys : Nat), s.live = true → phys < 576 → (s.physOf phys).retired = false → s.servedBy phys = none →
    exec (.cellFailed phys) s = .next (s.setPhys phys { s.physOf phys with retired := true })) ∧
  ∀ (s : State) (phys n : Nat), s.live = true → phys < 576 → (s.physOf phys).retired = false → s.servedBy phys = some n →
    let u := s.setPhys phys { s.physOf phys with retired := true }
    let more (m : Nat) := min ((s.remapOf m).changes + 1) 65535
    ∃ t, exec (.cellFailed phys) s = .next t ∧ (t.physOf phys).retired = true ∧
      (∀ i, u.spareOf (n / 8) = some i →
        t.remapOf n = { s.remapOf n with slot := i, state := if i = n % 8 then 0 else 1, changes := more n } ∧
        (∀ g, s.guestOf n = some g → g ≠ n → t.remapOf g = { s.remapOf g with slot := i, changes := more g }) ∧
        (∀ m, m ≠ n → s.guestOf n ≠ some m → t.remapOf m = s.remapOf m)) ∧
      (u.spareOf (n / 8) = none →
        let makes := s.hostFree n = true ∧ s.guestOf n = none ∧ (s.saveBase (s.partOfCell n)).isSome = true
        (makes → t.remapOf n = { s.remapOf (n ^^^ 8) with state := 2, changes := more n }) ∧
        (¬makes → (t.remapOf n).state = 3 ∧ ∀ g, s.guestOf n = some g → (t.remapOf g).state = 3))

/-- A guest switch takes the running cell of a pair out once it has waited for 2 µs, has run for 1 ms, or has no running command. When
it ends, the save area holds that cell's memory, program and architected state, and the other cell holds what the area held of it and
runs. A move of the save areas copies every area in use to its new place (R80, R81, R82, R228, R689). -/
def Claims.GuestSwitches : Prop :=
  (∀ (s : State) (host g : Nat), s.live = true → host < 512 → s.guestOf host = some g →
    let o := if (s.cell host).switchedIn then host else g
    let i := if (s.cell host).switchedIn then g else host
    o ≠ i → (s.cell o).switchedIn = true → s.runs i = true →
    ((200 ≤ (s.now - (s.cell o).waitAt).toNat ∧ ∃ x eq v pl, (s.cell o).run = .waitObj x eq v pl) ∨
      100000 ≤ (s.now - (s.cell o).inAt).toNat ∨ (s.cell o).cmd = none) →
    s.linDrains (s.partOfCell host) = false → s.link.up = true → s.areaBusy host = false →
    (∀ w ∈ s.switches, w.host ≠ host) → (∀ m ∈ s.saveMoves, m.part ≠ s.partOfCell host) →
    ∃ t, exec (.guestSwitch host) s = .next t ∧
      t.switches = s.switches ++ [{ host := host, outgoing := o, incoming := i }] ∧
      (t.cell o) = { s.cell o with switchedIn := false } ∧ (∀ m, m ≠ o → t.cell m = s.cell m)) ∧
  (∀ (s : State) (host key : Nat) (w : Switch), s.live = true → host < 512 → w ∈ s.switches → w.host = host →
    (∀ v ∈ s.switches, v.host = host → v = w) → s.resettingCell host = false → s.link.up = true →
    w.outgoing ≠ w.incoming → w.outgoing < 512 → w.incoming < 512 →
    s.areaBusy host = false → s.badWords (cellMem w.outgoing) cellBytes = [] →
    (∀ e, e < 16 → (s.cell w.outgoing).arch.residuesOk e = true) →
    (∀ j, j < 0x440 → (s.savePlace w.outgoing (4096 * j)).map Prod.snd = some (key + 4096 * j)) →
    ∃ t, exec (.guestSwitchComplete ⟨host, some .ok⟩) s = .next t ∧ (t.cell w.incoming).switchedIn = true ∧
      (∀ v, v ∈ t.switches ↔ v ∈ s.switches ∧ v.host ≠ host) ∧
      (∀ k, k < cellBytes → t.extByte (key + k) = s.memByte (cellMem w.outgoing + k)) ∧
      (∀ j k, j < 16384 → k < 8 → t.extByte (key + 0x400000 + 8 * j + k) =
        BitVec.ofNat 8 ((Tab.get (fun _ => 0) (s.cell w.outgoing).imem j).toNat / 256 ^ k)) ∧
      (∀ r k, r < 32 → k < 8 → t.extByte (key + 0x420000 + 8 * r + k) =
        BitVec.ofNat 8 (((s.cell w.outgoing).arch.sreg r).toNat / 256 ^ k))) ∧
  (∀ (s : State) (host key : Nat) (w : Switch), s.live = true → host < 512 → w ∈ s.switches → w.host = host →
    (∀ v ∈ s.switches, v.host = host → v = w) → s.resettingCell host = false → s.link.up = true →
    w.outgoing ≠ w.incoming → w.outgoing < 512 → w.incoming < 512 →
    s.areaBusy host = false → s.badWords (cellMem w.outgoing) cellBytes = [] →
    (∀ e, e < 16 → (s.cell w.outgoing).arch.residuesOk e = true) →
    (∀ j, j < 0x440 → (s.savePlace w.incoming (4096 * j)).map Prod.snd = some (key + 4096 * j)) →
    ∃ t, exec (.guestSwitchComplete ⟨host, some .ok⟩) s = .next t ∧
      (∀ k, k < cellBytes → t.memByte (cellMem w.incoming + k) = s.extByte (key + k)) ∧
      (∀ j, j < 16384 → Tab.get (fun _ => 0) (t.cell w.incoming).imem j =
        BitVec.ofNat 64 (leNat (s.extBytes (key + 0x400000 + 8 * j) 8))) ∧
      (∀ r, 1 ≤ r → r < 32 → (t.cell w.incoming).arch.sreg r = BitVec.ofNat 64 (leNat (s.extBytes (key + 0x420000 + 8 * r) 8)))) ∧
  (∀ (s : State) (part : Nat) (m : SaveMove), s.live = true → part < 4 → m ∈ s.saveMoves → m.part = part →
    s.link.up = true → s.linDrains part = false → (∀ i, i < s.cellsPer → s.areaBusy (part * s.cellsPer + i) = false) →
    ∃ t, exec (.saveAreaMoveComplete ⟨part, some .ok⟩) s = .next t ∧ (∀ x, x ∈ t.saveMoves ↔ x ∈ s.saveMoves ∧ x.part ≠ part) ∧
      t.cells = s.cells ∧ t.mem = s.mem)

/-! ### Commands of the rings (R90-R96, R106, R310-R314, R352-R366) -/

/-- A command starts when its ring's turn, its combs and the partition admit it: a failed check ends it with the check's status
and the offset of the field, a COLLECT also by the checks of the descriptor it names, of which the first that fails counts; a wait that
is outstanding parks it, and holds it there; otherwise it starts, a KERNEL takes its combs and cells, and head passes its entry. One that needs an unserved cell, or memory of a device that is
gone, ends with ABORTED where no substitution can follow (R85, R92, R216, R310, R352, R353, R362, R428, R430). -/
def Claims.CommandStart : Prop :=
  ∀ (s : State) (id : Nat) (c : Cmd), s.live = true → s.cmd id = some c → s.starts c.part = true → s.ringTurn c = true →
    s.recorded c = true →
    let next := s.nextEntry c.part c.ring c.entry c.wrap
    let passed (t : State) := (t.ring c.part c.ring).head = next.1 ∧ (t.ring c.part c.ring).headWrap = next.2 ∧
      (t.ring c.part c.ring).lineDue = true
    let ended (st detail : Nat) := ∃ t, exec (.commandStart id) s = .next t ∧ passed t ∧ t.cells = s.cells ∧ t.mem = s.mem ∧
      t.cmd id = some { c with phase := .finished, status := st, detail := detail, signalled := true, t0 := s.now }
    let started := ∃ t d, exec (.commandStart id) s = .next t ∧ passed t ∧ t.cmd id = some d ∧ d.phase = .started ∧
      d.desc = c.desc ∧ d.t0 = s.now ∧ d.opp = s.requestOpp c ∧
      (kclass c.d = 1 → d.claimed = BitVec.ofNat 64 (kmask c.d) ∧
        (∀ n ∈ cellsOfMask (kmask c.d), (t.cell n).cmd = some id) ∧ ∀ n, n ∉ cellsOfMask (kmask c.d) → t.cell n = s.cell n) ∧
      (kclass c.d ≠ 1 → d.claimed = 0 ∧ t.cells = s.cells)
    let front := c.phase = .queued ∧ id ∈ (s.drip (s.procOf c.part c.ring)).stages ∧ s.readerAhead c = false
    let reads := kclass c.d = 4 ∧ klen c.d ≠ 0
    let valid := s.checkCmd c.part c.d = none ∧ (¬reads ∨ c.fetch = none ∧ c.status = 0 ∧ ∃ o, ReadsHere s c o ∧
      s.collBad c.part (s.memBytes o (klen c.d)) = none)
    (front → ∀ b o, s.checkCmd c.part c.d = some (b, o) → b = .format ∨ kclass c.d ≠ 4 → ended b.status o) ∧
    (front → reads → c.fetch = none → c.status = 0 → ∀ a b o h, ReadsHere s c a →
      s.argReach c.part false (karg c.d 0) (klen c.d) = .ok h → s.checkCmd c.part c.d = some (b, o) → b ≠ .format →
      let first := match s.collBad c.part (s.memBytes a (klen c.d)) with
        | some (.format, e) => (Bad.format.status, e)
        | _ => (b.status, o)
      ∃ t, exec (.commandStart id) s = .next t ∧ passed t ∧ t.cells = s.cells ∧ t.mem = s.mem ∧ ∃ d, t.cmd id = some d ∧
        d.phase = .finished ∧ d.status = first.1 ∧ d.detail = first.2 ∧ d.signalled = true) ∧
    (front → s.checkCmd c.part c.d = none → reads → c.fetch = none → c.status = 0 → ∀ a b o, ReadsHere s c a →
      s.collBad c.part (s.memBytes a (klen c.d)) = some (b, o) →
      ∃ t, exec (.commandStart id) s = .next t ∧ passed t ∧ t.cells = s.cells ∧ t.mem = s.mem ∧ ∃ d, t.cmd id = some d ∧
        d.phase = .finished ∧ d.status = b.status ∧ d.detail = o ∧ d.signalled = true) ∧
    (front → valid → knwait c.d = 0 → s.waitsMet id = true → s.strandedCmd c = false →
      s.combsFree c = true → started) ∧
    (front → valid → (s.enterWaits c).waitsMet id = false → ∃ t, exec (.commandStart id) s = .next t ∧
      t.cmd id = some { c with phase := .parked } ∧ t.waits = (s.enterWaits c).waits ∧ t.cells = s.cells) ∧
    (c.phase = .parked → s.waitsMet id = true → s.strandedCmd c = false → s.combsFree c = true → started) ∧
    (c.phase = .parked → s.waitsMet id = true → s.strandedCmd c = true → s.substitutes c.part = false → ended 4 0) ∧
    (c.phase = .parked → s.waitsMet id = false → exec (.commandStart id) s = .next s)

/-- The classes without a movement of data: SYNC and NOP are performed at once, FENCE once no earlier command of its ring is
left, EPOCH requests a boundary, and POWER sets its field of the partition's register, in effect and staged
(R314, R329, R356, R359, R508). -/
def Claims.SmallCommands : Prop :=
  ∀ (s : State) (id : Nat) (c : Cmd), s.live = true → s.cmd id = some c → c.phase = .started → c.status = 0 →
    (s.epochOf c.part).stopped = false → c.performed = false →
    let done := s.setCmd { c with performed := true, phase := .finished }
    let key := 0x050100 + 8 * c.part
    let power (i : Instr) (lsb width : Nat) := ∃ t, exec i s = .next t ∧
      t.cmd id = some { c with performed := true, phase := .finished } ∧ t.barF key lsb width = karg c.d 1 ∧
      bits (t.stgW key) lsb width = karg c.d 1 ∧ (∀ l w, l + w ≤ lsb ∨ lsb + width ≤ l → t.barF key l w = s.barF key l w) ∧
      (∀ l w, l + w ≤ lsb ∨ lsb + width ≤ l → bits (t.stgW key) l w = bits (s.stgW key) l w) ∧
      (∀ k, k ≠ key → t.barW k = s.barW k ∧ t.stgW k = s.stgW k) ∧ t = { s with bar := t.bar, stg := t.stg, cmds := t.cmds }
    (kclass c.d = 5 → exec (.sync id) s = .next done) ∧
    (kclass c.d = 9 → exec (.nopCommand id) s = .next done) ∧
    (kclass c.d = 6 → (∀ b ∈ s.cmds, b.before c = false) → exec (.fence id) s = .next done) ∧
    (kclass c.d = 6 → (∃ b ∈ s.cmds, b.before c = true) → exec (.fence id) s = .next s) ∧
    (kclass c.d = 7 → ∃ t, exec (.epoch id) s = .next t ∧ t.cmd id = some { c with performed := true } ∧
      Reported (s.setCmd { c with performed := true }) t ∧
      ((s.inSwarm = false ∨ s.owner ≠ c.part ∨ s.swarm.role = 3) → ((s.epochOf c.part).cutting = false →
        (t.epochOf c.part).requested = true) ∧
        ((s.epochOf c.part).cutting = true → t = s.setCmd { c with performed := true }))) ∧
    (kclass c.d = 8 → karg c.d 0 = 0 → karg c.d 1 < 2 ^ 17 → power (.powerWakeTolerance id) 0 17) ∧
    (kclass c.d = 8 → karg c.d 0 = 1 → karg c.d 1 < 2 ^ 4 → power (.powerDefaultOpp id) 20 4)

/-- KERNEL: no image or no comb ends it at once; otherwise the mover of each comb, with fewer than 16 transfers in flight, reads the image, and each comb that carries work runs
at most at the lowest index asked for there while the reference is present. Once the images are in, every cell of the mask holds its
comb's, has its identity registers, the argument block in s1 and s2 and the reset values elsewhere, and issues from index 0; no other
cell changes (R29, R46, R69, R90, R91, R93, R96, R106). -/
def Claims.KernelCommands : Prop :=
  ∀ (s : State) (id : Nat) (c : Cmd), s.live = true → s.cmd id = some c → c.phase = .started → c.status = 0 →
    kclass c.d = 1 → (s.epochOf c.part).stopped = false →
    let cells := cellsOfMask (kmask c.d)
    (c.performed = false → (klen c.d = 0 ∨ kmask c.d = 0) →
      exec (.kernel id) s = .next (s.setCmd { c with performed := true, phase := .finished })) ∧
    (∀ o, c.performed = false → klen c.d ≠ 0 → klen c.d ≤ 2 ^ 17 → kmask c.d ≠ 0 → ReadsHere s c o →
      (∀ b, b < 64 → bit (kmask c.d) b = true → s.moverLoad b < 16) → ∃ t d, exec (.kernel id) s = .next t ∧
      t.cmd id = some d ∧ d = { c with performed := true, fetch := d.fetch } ∧ t.cells = s.cells ∧ t.mem = s.mem ∧
      t.fetchedAll id = true ∧
      (∀ b, b < 64 → bit (kmask c.d) b = true → d.fetched (2 ^ 20 * b) (klen c.d) = s.memBytes o (klen c.d)) ∧
      (s.boot.oscHeld = false → ∀ k, k < 64 → ∀ e ∈ t.carried k, Tab.get (fun _ => 0) t.power.opp k ≤ e.opp)) ∧
    (c.performed = true → c.loaded = false → s.fetchedAll id = true →
      ∃ t, exec (.kernelImageLoaded id) s = .next t ∧ t.cmd id = some { c with loaded := true, fetch := none } ∧ t.mem = s.mem ∧
        (∀ n, n ∉ cells → t.cell n = s.cell n) ∧
        ∀ n ∈ cells,
          let k := t.cell n
          k.run = .issuing ∧ k.fence = .none ∧ k.imageLen = klen c.d / 8 ∧
          (∀ i, i < klen c.d / 8 → Tab.get (fun _ => 0) k.imem i =
            BitVec.ofNat 64 (leNat (((c.fetched (2 ^ 20 * (n / 8)) (klen c.d)).drop (8 * i)).take 8))) ∧
          k.arch = (Arch.reset.setS 1 (BitVec.ofNat 64 (karg c.d 2))).setS 2 (BitVec.ofNat 64 (bits (karg c.d 1) 32 32)) ∧
          k.ident = { cellid := BitVec.ofNat 9 n, combid := BitVec.ofNat 6 (n / 8), rank := BitVec.ofNat 9 (cells.idxOf n),
                      ncells := BitVec.ofNat 10 cells.length, part := BitVec.ofNat 2 c.part,
                      arev := BitVec.ofNat 16 s.arev, cmdtag := BitVec.ofNat 32 (dfield c.d 0x18 32 32) })

/-- MOVE: each piece of up to 4 KiB is performed once, in any order, by the mover of its partition with the fewest transfers in flight,
of which a mover has at most 16, once the mover has nothing still to write there; a piece inside the local map, with no granule frozen,
no line held by a host and no cell switched out, leaves the source's bytes at the destination
and every other byte as it was. A FORAGE or COLLECT of length 0 is done at once; one whose descriptor, in the local map, fails its
checks ends with the status of the refusal; any other is accepted by its engine (R69, R237, R286, R358, R410, R428, R430). -/
def Claims.DataCommands : Prop :=
  ∀ (s : State) (id : Nat) (c : Cmd), s.live = true → s.cmd id = some c → c.phase = .started → c.status = 0 →
    (s.epochOf c.part).stopped = false →
    let done := s.setCmd { c with performed := true, phase := .finished }
    let turned (i : Instr) (b : Bad) (detail : Nat) := ∃ t d, exec i s = .next t ∧ t.cmd id = some d ∧ d.phase = .finished ∧
      d.status = b.status ∧ d.detail = detail ∧ d.signalled = true ∧ t.cells = s.cells ∧ t.mem = s.mem
    (∀ piece a b, kclass c.d = 2 → piece < pieces c.d → (∀ m, (piece, m) ∉ c.pieces) →
      let o := 4096 * piece
      let n := Nat.min 4096 (karg c.d 2 - o)
      let x := s.localAt c.part (karg c.d 0 + o)
      let dst := s.localAt c.part (karg c.d 1 + o)
      s.whole x n = true → s.goneIn dst n = false → s.resetHolds dst n = false → s.badWords x n = [] →
      s.moverLoad (s.idleMover c.part) < 16 → s.engineHeld (Engine.mover (s.idleMover c.part)).key = false →
      s.owes (Engine.mover (s.idleMover c.part)).key x n = false → s.owes (Engine.mover (s.idleMover c.part)).key dst n = false →
      s.reach c.part .data false true (karg c.d 0) (karg c.d 2) = .ok a →
      s.reach c.part .data true true (karg c.d 1) (karg c.d 2) = .ok b →
      ∃ t, exec (.move id piece) s = .next t ∧ t.cmd id = some { c with pieces := c.pieces ++ [(piece, s.idleMover c.part)] } ∧
        (∀ x y, a = .loc x → b = .loc y → s.link.snoop = [] → s.link.bis = [] → (∀ d k, (s.frg d).frozen.get k = false) →
          (∀ k, (s.cell k).frozen = 0 ∧ s.isAway k = false) →
          (∀ k, k < n → t.memByte (y + o + k) = s.memByte (x + o + k)) ∧
          ∀ q, (q < y + o ∨ y + o + n ≤ q) → t.memByte q = s.memByte q)) ∧
    (∀ piece m, kclass c.d = 2 → (piece, m) ∈ c.pieces → exec (.move id piece) s = .refused .notDue) ∧
    (kclass c.d = 3 → c.performed = false →
      (klen c.d = 0 → exec (.forage id) s = .next done) ∧
      (∀ o, klen c.d ≠ 0 → ReadsHere s c o → c.fetch = none →
        let bs := s.memBytes o (klen c.d)
        s.places (seqOf bs) < 64 →
        (∀ b, s.checkForage c.part bs = some b → turned (.forage id) b c.detail) ∧
        (s.checkForage c.part bs = none → ∃ t d, exec (.forage id) s = .next t ∧ t.cmd id = some d ∧ d.performed = true ∧
          d.phase = .started ∧ ∃ x ∈ t.fdescs, x.id = s.nextId ∧ x.raw = BitVec.ofNat 3072 (leNat bs) ∧ x.issuer = .cmd id ∧
            x.part = c.part))) ∧
    (kclass c.d = 4 → c.performed = false →
      (klen c.d = 0 → exec (.collect id) s = .next done) ∧
      (∀ o, klen c.d ≠ 0 → s.collRoom = true → ReadsHere s c o → c.fetch = none →
        let bs := s.memBytes o (klen c.d)
        (∀ b at_, s.collBad c.part bs = some (b, at_) → turned (.collect id) b at_) ∧
        (s.collBad c.part bs = none → ∃ t d, exec (.collect id) s = .next t ∧ t.cmd id = some d ∧ d.performed = true ∧
          d.phase = .started ∧ ∃ x ∈ t.coll.colls, x.id = s.nextId ∧ x.raw = BitVec.ofNat 1024 (leNat bs) ∧
            x.issuer = .cmd id ∧ x.started = false)))

/-- A command whose effects have all been performed issues its signal entries first; when those and its records in the logs
have been performed, it leaves its cells and combs, and its completion record stands at its slot of the completion area of a
ring in host memory: tag, entry, ring, partition, status, phase, elapsed time, fault and detail (R95, R311, R313, R364,
R365). -/
def Claims.CommandComplete : Prop :=
  ∀ (s : State) (id : Nat) (c : Cmd), s.live = true → s.cmd id = some c → (c.phase = .started ∨ c.phase = .finished) →
    s.effectsDone c = true → c.hwLost = false →
    (c.signalled = false → c.latch = false → c.final = 0 → 0 < knsig c.d →
      (∀ i, i < knsig c.d → ∃ o, s.syncRef c.part (ksigObj c.d i) = .loc o) →
      ∃ t, exec (.commandComplete id) s = .next t ∧ t.cmd id = some { c with signalled := true, ends := [] } ∧
        t.sigs.length = s.sigs.length + knsig c.d ∧
        ∀ i, i < knsig c.d → ∃ g, t.sigs[s.sigs.length + i]? = some g ∧
          s.syncRef c.part (ksigObj c.d i) = .loc g.obj ∧ g.v = BitVec.ofNat 64 (ksigVal c.d i) ∧ g.cmd = some id ∧
          g.set = (dfield c.d 0 (17 + i) 1 == 1)) ∧
    (c.signalled = false → c.latch = false → c.logged = false → (knsig c.d = 0 ∨ c.final ≠ 0) → s.linOn c.part = false →
      s.lacksRing c = false → s.outstanding (.log c.part) = false →
      ∃ t, exec (.commandComplete id) s = .next t ∧ t.cmd id = none) ∧
    (c.signalled = true → c.logged = true → s.outstanding (.log c.part) = false →
      ∃ t, exec (.commandComplete id) s = .next t ∧ t.cmd id = none ∧
        (∀ n ∈ c.cells, (s.cell n).cmd = some id → (t.cell n).cmd = none ∧ (t.cell n).run = .idle) ∧
        (∀ n, n ∉ c.cells → t.cell n = s.cell n) ∧
        (∀ h, s.hostAtOnce h 32 = true → s.replayed c = false → (dfield c.d 0 10 1 = 0 ∨ c.final ≠ 0) →
          s.reach c.part .rings true false (s.cplBase c.part c.ring + 32 * c.entry) 32 = .ok (.host h) →
          t.extBytes (hostKey h) 32 =
            leBytes 8 (dfield c.d 0x20 0 64) ++
            leBytes 8 (c.entry + c.ring * 2 ^ 16 + c.part * 2 ^ 22 + c.final * 2 ^ 24 + (if c.wrap then 0 else 2 ^ 28) +
              (if c.fault.isSome then 2 ^ 29 else 0) + Nat.min ((s.now - c.t0).toNat / 100) (2 ^ 32 - 1) * 2 ^ 32) ++
            leBytes 8 ((match c.fault with
              | some (n, k, pc) => n + k.toNat * 2 ^ 9 + pc.toNat * 2 ^ 13
              | none => 0) + c.detail * 2 ^ 32) ++
            leBytes 8 c.extra))

/-! ### Close memory (R189-R219) -/

/-- The code of a line: a word without errors reads as written; an error in any one stored symbol is corrected; an error of the
line index is uncorrectable (R194, R195). -/
def Claims.EccCorrectsOneSymbol : Prop :=
  ∀ (data : List Byte) (line : Nat), data.length = 64 → line < 2 ^ 32 →
    readLine data line [] = .clean data ∧
    (∀ i e, (i < 64 ∨ (68 ≤ i ∧ i < 72)) → e ≠ 0 → readLine data line [(i, e)] = .corrected data) ∧
    (∀ i (e : Byte), 64 ≤ i → i < 68 → e ≠ 0 → rsDecode (addErrors (rsWord data line) [(i, e)]) = .lost)

/-- Every pattern of two or three symbol errors is detected and never miscorrected (R195). -/
def Claims.EccDetectsThreeSymbols : Prop :=
  ∀ (data : List Byte) (line : Nat) (errs : List (Nat × Byte)), data.length = 64 → line < 2 ^ 32 →
    (errs.length = 2 ∨ errs.length = 3) → (errs.map Prod.fst).Nodup →
    (∀ e ∈ errs, (e.1 < 64 ∨ (68 ≤ e.1 ∧ e.1 < 72)) ∧ e.2 ≠ 0) → readLine data line errs = .lost

/-- A request of a controller within one line: the line read is decoded, a corrected line is delivered, written back and
counted, an uncorrectable one is counted; a write that covers part of the line keeps its other bytes. One of a line that a host may
hold has it back-invalidated first; one of a partition in self-refresh wakes it. A request in no range of the local map, or past what is
addressable, ends the command it is made for with DENIED, or BOUND; one made for no command stops by name
(R189, R190, R195, R196, R197, R312, R487, R638). -/
def Claims.CloseMemoryRequests : Prop :=
  ∀ (s : State) (addr d l len : Nat) (wr : Option (List Byte)) (errs : List (Nat × Byte)) (cmd : Option Nat),
    s.live = true → 0 < len → addr % 64 + len ≤ 64 → (∀ w, wr = some w → w.length = len) →
    (s.addressed addr = false → cmd = none → exec (.closeMemoryRequest addr wr len errs cmd) s = .fault .noSuchAddress) ∧
    (s.addressed addr = false → ∀ id, cmd = some id → ∃ t, exec (.closeMemoryRequest addr wr len errs cmd) s = .next t ∧
      (s.fdescs = [] → t.mem = s.mem) ∧ ∀ c, s.cmd id = some c → c.phase = .started → c.status = 0 →
        ∃ d, t.cmd id = some d ∧ d.status = if isClose addr then 1 else 3) ∧
    (s.addressed addr = true → s.asleep (s.partOfClose addr) = true →
      exec (.closeMemoryRequest addr wr len errs cmd) s = .next (s.wake (s.partOfClose addr))) ∧
    (s.addressed addr = true → s.lineOf addr = (d, l) → s.asleep (s.partOfClose addr) = false → (s.dev d).retired = false →
      l ∉ (s.dev d).lost → (wr = none ∨ s.stageOk addr len = true) →
      (s.heldIn addr len = true → ∃ t, exec (.closeMemoryRequest addr wr len errs cmd) s = .next t ∧ t.mem = s.mem ∧
        (s.waitsBi addr len = false → ∃ b ∈ t.link.bis, b.line = addr / 64)) ∧
      (s.heldIn addr len = false →
      let line := addr / 64 * 64
      let data := s.memBytes line 64
      let found := if wr = none ∨ len < 64 then readLine data l errs else .clean data
      ∃ t, exec (.closeMemoryRequest addr wr len errs cmd) s = .next t ∧
        (found = .lost → t.aon 49 = s.aon 49 + 1) ∧
        (∀ b, found = .corrected b → t.aon 48 = s.aon 48 + 1) ∧
        (∀ b, (found = .clean b ∨ found = .corrected b) → b.length = 64 → s.barB 0x07A008 0 = false →
          ∀ q, t.memByte q = match wr with
            | some w => if addr ≤ q ∧ q < addr + len then w.getD (q - addr) 0
                else if line ≤ q ∧ q < line + 64 then b.getD (q - line) 0 else s.memByte q
            | none => if line ≤ q ∧ q < line + 64 then b.getD (q - line) 0 else s.memByte q)))

/-- The scrubber of a device reads its lines in ascending order while the forager has no work and no waiting write before it; a row whose line needs
correction again is spared while its bank group has a free spare row; a page that does not hold its own stamp, its index and the
complement of it, loses its lines (R193, R199, R209, R211, R212, R277). -/
def Claims.Scrubbing : Prop :=
  ∀ (s : State) (dev line : Nat) (errs : List (Nat × Byte)) (flips : Word), s.live = true → dev < 32 →
    line < 94371840 → (s.dev dev).retired = false → (s.dev dev).scrubAt = line → s.asleep (s.partOfDev dev) = false →
    s.softwareDue dev = false → s.writeParked dev = false → ((s.frg dev).frozen.clear = true ∨ (s.epochOf (s.partOfDev dev)).state ≠ 3) →
    let v := s.dev dev
    let stampOk := s.stampOf dev (line / 30) ^^^ flips = pageStamp (line / 30)
    let data := match s.offsetOfLine dev line with
      | some o => s.memBytes o 64
      | none => List.replicate 64 0
    let used := (v.spared.filter fun e => groupOf e.1 == groupOf (rowOf line)).length
    ∃ t, exec (.scrub dev line errs flips) s = .next t ∧
      (t.dev dev).scrubAt = (if line = 94371839 then 0 else line + 1) ∧
      (stampOk → line ∉ v.lost → ∀ b, readLine data line errs = .clean b → t.mem = s.mem ∧ (t.dev dev).spared = v.spared) ∧
      (stampOk → line ∉ v.lost → ∀ b, readLine data line errs = .corrected b → t.aon 48 = s.aon 48 + 1 ∧
        ((∃ e ∈ v.corr, e.2.1 = line) → used < 16 →
          (t.dev dev).spared = v.spared ++ [(rowOf line, used)])) ∧
      (stampOk → line ∉ v.lost → readLine data line errs = .lost → t.aon 49 = s.aon 49 + 1) ∧
      (¬stampOk → v.lost = [] → t.aon 49 = s.aon 49 + 30)

/-- A device that fails is retired: into the reserve while that is in effect and unused; otherwise the module reports it for
its substitution (R213, R214, R216). -/
def Claims.DeviceRetirement : Prop :=
  ∀ (s : State) (dev : Nat) (cause : DevCause), s.live = true → dev < 32 → (s.dev dev).retired = false →
    (cause = .interface ∨ (cause = .noSpareRow ∧ (s.dev dev).need ≠ []) ∨
      (cause = .forager ∧ (s.frg dev).retired = true ∧ s.homeG (s.partOfDev dev) ≠ 0)) →
    ∃ t, exec (.deviceRetire dev cause) s = .next t ∧ (t.dev dev).retired = true ∧
      (∀ e, e ≠ dev → t.dev e = s.dev e) ∧
      (s.boot.reserveOn = true → s.reserve = none → t.reserve = some dev) ∧
      ((s.boot.reserveOn = false ∨ s.reserve ≠ none) → t.reserve = s.reserve ∧ t.aon 47 = s.aon 47 + 1)

/-! ### The far tier (R224-R228) -/

/-- The completion of a far request that has been sent: a write is performed, a read's data are delivered with what else its owner
reads of their lines, or join what a command fetches; a refused access ends its command with DENIED and is reported; poisoned data count as an uncorrectable error, and end it with
ABORTED where no lining is active, or hold it for a recovery where one is. One timeout reissues the request, a second ends its
command with ABORTED, also while it waits for the link. Before either, the requests that can be sent are sent, and at most 1,024 are
outstanding. A window has drained when every access under its old setting has completed (R39, R224, R226, R228, R289, R319, R364). -/
def Claims.FarRequests : Prop :=
  (∀ (s : State) (r : FarReq), s.live = true →
    let u := s.sendFar
    (u.far.find? fun q => q.tag == r.tag) = some r → r.dead = false →
    let rest := u.far.filter fun q => q.tag != r.tag
    let ends (t : State) (status : Nat) := ∀ id c, u.ownerCmd r.owner = some id → (∀ p k, r.owner ≠ .lining p k) → s.cmd id = some c →
      c.phase = .started → c.status = 0 → c.hwFail = false → c.fault = none → c.claimed = 0 →
      ∃ d, t.cmd id = some d ∧ d.final = status
    (s.link.up = true → r.sent = true →
      (r.wr = true → ∃ t, exec (.farCompletion r.tag .ok) s = .next t ∧ t.far = rest ∧ t.mem = s.mem ∧ t.cells = s.cells ∧
        (∀ k, k < r.data.length → t.extByte (r.addr + k) = r.data.getD k 0) ∧
        ∀ q, (q < r.addr ∨ r.addr + r.data.length ≤ q) → t.extByte q = s.extByte q) ∧
      (r.wr = false → (∀ id, r.owner ≠ .fetch id) → ∃ t, exec (.farCompletion r.tag .ok) s = .next t ∧
        ∀ o, s.reach r.part .data false false r.dest r.len = .ok (.loc o) → s.link.snoop = [] → s.link.bis = [] →
          (∀ d k, (s.frg d).frozen.get k = false) → (∀ k, (s.cell k).frozen = 0 ∧ s.isAway k = false) →
          (∀ q ∈ u.far, q.owner = r.owner → q.wr = false → q.tag = r.tag) → (∀ q ∈ s.fab.reads, q.owner ≠ r.owner) →
          (∀ g ∈ s.gather, g.owner ≠ r.owner) →
          (∀ k, k < r.len → t.memByte (o + k) = s.extByte (r.addr + k)) ∧
          ∀ q, (q < o ∨ o + r.len ≤ q) → t.memByte q = s.memByte q) ∧
      (r.wr = false → ∀ id c l, r.owner = .fetch id → s.cmd id = some c → c.id = id → c.fetch = some l →
        ∃ t, exec (.farCompletion r.tag .ok) s = .next t ∧ t.mem = s.mem ∧
          t.cmd id = some { c with fetch := some (l ++ [(r.dest, s.extBytes r.addr r.len)]) }) ∧
      (∃ t, exec (.farCompletion r.tag .unsupported) s = .next t ∧ t.aon 47 = s.aon 47 + 1 ∧ ends t 3) ∧
      (r.wr = false → ∃ t, exec (.farCompletion r.tag .poisoned) s = .next t ∧ t.aon 49 = s.aon 49 + 1 ∧
        (s.linSafe r.part = false → ends t 4) ∧
        (s.linSafe r.part = true → t.mem = s.mem ∧ t.cmds = s.cmds ∧ ∃ q ∈ t.far, q = { r with dead := true }))) ∧
    ((r.sent = true ∨ s.link.up = false) →
      (r.again = false → exec (.farTimeout r.tag) s =
        .next { u with far := u.far.map fun q => if q.tag == r.tag then { q with again := true } else q }) ∧
      (r.again = true → ∃ t, exec (.farTimeout r.tag) s = .next t ∧ t.aon 47 = s.aon 47 + 1 ∧ ends t 4))) ∧
  (∀ (s : State), (s.link.up = true → (s.far.filter FarReq.sent).length ≤ 1024 → (s.sendFar.far.filter FarReq.sent).length ≤ 1024) ∧
    (s.link.up = false → s.sendFar = s)) ∧
  (∀ (s : State) (host : Bool) (window : Nat) (d : Drain), s.live = true → window < (if host then 16 else 8) →
    (s.drains.find? fun d => d.host == host && d.num == window) = some d →
    ((∀ r ∈ s.far, r.tag ∈ d.tags → r.dead = true) → exec (.windowDrainComplete host window) s =
      .next { s with drains := s.drains.filter fun e => !(e.host == host && e.num == window) }) ∧
    ((∃ r ∈ s.far, r.tag ∈ d.tags ∧ r.dead = false) → exec (.windowDrainComplete host window) s = .refused .notDue))

/-- The interleave is one-to-one, also after a retirement into the reserve: from the device and line in which a byte of close
memory lives, its line's address comes back, and the device is one the module has (R200, R201, R202, R203, R214). -/
def Obligations.AddressMapIsOneToOne : Prop :=
  ∀ (s : State) (o : Nat), o < 0x2D00000000 →
    let p := s.partOfClose o
    let place := s.lineOf o
    s.homeG p ≤ devGranules - s.reserveG → o - s.sliceStart p < s.addressable →
    (s.reserve = none ∨ (s.boot.reserveOn = true ∧ ∃ x, x < 32 ∧ s.reserve = some x)) →
    place.1 < 32 ∧ place.2 < 94371840 ∧ s.offsetOfLine place.1 place.2 = some (o / 64 * 64)

/-! ### Foragers (R230-R281) -/

/-- What each class leaves at its home and in what its result record will say, where the descriptor passes its checks, no host holds a
line of the module and no granule waits for its copy to the lining:
STREAM, GATHER, TRANSPOSE, COMPACT, HISTOGRAM, FILL and COPY write their elements to slot 3 and nothing else; REDUCE of integers
folds the chain results modulo 2^width; SCATTER leaves what no contribution reaches; CSR counts the rows it aborts; a count of 0
moves nothing. In the classes that use accumulators a residue mismatch that a repeat clears, in a forager the descriptor uses, changes no
result, and a repeated one retires the forager's datapath (R182, R233, R238, R262, R263, R264, R265, R266, R267, R268, R269, R271). -/
def Claims.ForagerClasses : Prop :=
  ∀ (s : State) (id : Nat) (x : FDesc), s.live = true → s.fdesc id = some x → s.canStart x = true → s.link.snoop = [] →
    s.link.bis = [] → (∀ f k, (s.frg f).frozen.get k = false) → s.checkForage x.part (leBytes 384 x.raw.toNat) = none →
    let d := x.raw.toNat
    let run (cls g : Nat) (u : Upset) : Instr :=
      if cls = 2 then .reduce ⟨id, u, g⟩ else if cls = 4 then .scatter ⟨id, u, g⟩ else .csr ⟨id, u, g⟩
    let n := dcount d
    let t3 := dslot d 3
    let src := dslot d 0
    let ran (i : Instr) (P : State → FDesc → Prop) := ∃ t y, exec i s = .next t ∧ y ∈ t.fdescs ∧ y.id = id ∧ y.raw = x.raw ∧
      (∀ f ∈ x.frgs, (t.frg f).running = some id) ∧ P t y
    let only (t : State) (base len : Nat) := ∀ q, (q < base ∨ base + len ≤ q) → t.memByte q = s.memByte q
    let elem (t : State) (e : Nat) := leNat (t.memBytes (t3.base + e * t3.w) t3.w)
    let bad (e : Nat) := s.slotInt (dslot d 1) e < 0 ∨ Int.ofNat src.elems ≤ s.slotInt (dslot d 1) e
    let reached (q : Nat) := ∃ e i, e < n ∧ s.slotInt (dslot d 1) e = Int.ofNat i ∧ i < t3.elems ∧ i < 2 ^ 32 ∧
      t3.base + i * t3.w ≤ q ∧ q < t3.base + i * t3.w + t3.w
    (∀ i, n = 0 → (dclass d, i) ∈ [(1, Instr.stream id), (2, run 2 0 .none), (3, .gather id), (4, run 4 0 .none),
      (5, .histogram id), (6, .compact id), (7, .transpose id), (8, run 8 0 .none), (9, .copy id), (10, .fill id)] →
      ran i fun t y => t.mem = s.mem ∧ (dclass d ≠ 9 → y.count1 = 0 ∧ y.count2 = 0)) ∧
    (0 < n →
      (dclass d = 1 → 0 < t3.w → ran (.stream id) fun t y => y.count1 = BitVec.ofNat 64 n ∧ only t t3.base (n * t3.w) ∧
        ∀ e, e < n → elem t e = (dout d t3.fmt e (chain d false (s.input d 0 e).1 (s.input d 1 e).1 (s.input d 2 e).1).1).1
          % 256 ^ t3.w) ∧
      (dclass d = 2 → ran (run 2 0 .none) fun t y => y.count1 = BitVec.ofNat 64 n ∧
        (slotUsed d 3 = false → t.mem = s.mem) ∧
        (slotUsed d 3 = false → isInt (detype d) = true → dparam d 0 = 0 → bits (dparam d 1) 0 2 = 0 →
          y.value = BitVec.ofNat 64 (dout d (detype d) 0 ((((List.range n).map fun e =>
            (chain d true (s.input d 0 e).1 (s.input d 1 e).1 0).1).sum) % 2 ^ codeWidth (detype d))).1)) ∧
      (dclass d = 3 → 0 < t3.w → ran (.gather id) fun t y => y.count1 = BitVec.ofNat 64 n ∧ only t t3.base (n * t3.w) ∧
        ∀ e, e < n → (bad e → elem t e = dparam d 0 % 256 ^ t3.w) ∧
          (¬bad e → elem t e = (dout d t3.fmt e (chain d false (s.input d 0 (s.slotInt (dslot d 1) e).toNat).1
            (toEtype (detype d) (dslot d 1).fmt (s.slotElem (dslot d 1) e)).1 0).1).1 % 256 ^ t3.w)) ∧
      (dclass d = 4 → ran (run 4 0 .none) fun t _ => ∀ q, ¬reached q →
        (q < (dslot d 2).base ∨ (dslot d 2).base + 32 * n ≤ q) → t.memByte q = s.memByte q) ∧
      (dclass d = 5 → ran (.histogram id) fun t y => only t t3.base (8 * (bits (dparam d 2) 0 15 + 2)) ∧
        (isInt src.fmt = true → y.count1 = 0 ∧ ∀ k, k < bits (dparam d 2) 0 15 →
          leNat (t.memBytes (t3.base + 8 * (k + 1)) 8) =
            ((if bit (dparam d 2) 15 then s.slotElem t3 (k + 1) else 0) + ((List.range n).filter fun e =>
              toSigned (codeWidth src.fmt) (s.slotElem src e) - toSigned 64 (dparam d 0) == (k : Int)).length) % 2 ^ 64)) ∧
      (dclass d = 6 → slotUsed d 2 = false → 0 < t3.w → isInt (detype d) = true → t3.fmt = src.fmt → ran (.compact id) fun t y =>
        let sel := (List.range n).filter fun e => (chain d false (s.input d 0 e).1 (s.input d 1 e).1 0).1 != 0
        y.count1 = BitVec.ofNat 64 sel.length ∧ y.count2 = BitVec.ofNat 64 (sel.length - t3.elems) ∧
        only t t3.base (t3.elems * t3.w) ∧
        ∀ k e, k < t3.elems → sel[k]? = some e → elem t k = s.slotElem src e) ∧
      (dclass d = 7 → ran (.transpose id) fun t _ =>
        let rows := bits (dparam d 0) 0 32
        let cols := bits (dparam d 0) 32 32
        let ss := bits (dparam d 1) 0 32
        let ds := bits (dparam d 1) 32 32
        (rows * t3.w ≤ ds ∨ cols ≤ 1) → ∀ i j k, i < rows → j < cols → k < t3.w →
          t.memByte (t3.base + j * ds + i * t3.w + k) = s.memByte (src.base + i * ss + j * t3.w + k)) ∧
      (dclass d = 8 → ran (run 8 0 .none) fun t y =>
        (csrBad s d 0 = true → y.count1 = BitVec.ofNat 64 n ∧ t.mem = s.mem) ∧
        ((∀ i, i < n → csrBad s d i = false) → y.count1 = 0) ∧ only t (dparam d 0) (n * (codeWidth (detype d) / 8))) ∧
      (dclass d = 10 → ran (.fill id) fun t _ => only t t3.base n ∧
        ∀ k, k < n → t.memByte (t3.base + k) = BitVec.ofNat 8 (dconst d 0 / 256 ^ (k % 8))) ∧
      (dclass d = 9 → ran (.copy id) fun t _ => ∀ o, s.reach x.part .data true true t3.base n = .ok (.loc o) →
        (∀ k, (s.cell k).frozen = 0 ∧ s.isAway k = false) → only t o n ∧
        ∀ k, k < n → t.memByte (o + k) = s.memByte (src.base + k))) ∧
    ∀ g, g < 32 → (dclass d = 2 ∨ dclass d = 4 ∨ dclass d = 8) →
      ∃ t, exec (run (dclass d) g .none) s = .next t ∧
        (g ∈ x.frgs → exec (run (dclass d) g .repeated) s = .next ((t.bump 52 1).bumpPart (s.partOfDev g) 19 1)) ∧
        (g ∈ x.frgs → (s.frg g).retired = false → ∃ u, exec (run (dclass d) g .lasting) s = .next u ∧ (u.frg g).retired = true ∧
          u.aon 52 = s.aon 52 + 1)

/-- A descriptor that is performed, with nothing outstanding, writes its result record, and once the record has been performed too it
signals its done object, leaves its forager and ends its FORAGE command; where a host holds a line of the record, the record waits and
the signal with it. A quenched descriptor does neither and its command takes ABORTED; so does one whose foragers or device are lost
where no substitution follows (R216, R257, R258, R261, R279, R293). -/
def Claims.ForagerDescriptorCompletes : Prop :=
  ∀ (s : State) (id f : Nat) (x : FDesc), s.live = true → s.fdesc id = some x → s.outstanding (.fdesc id) = false →
    x.id = id → x.frgs = [f] →
    let d := x.raw.toNat
    let at_ := dfield d 0x28 0 64
    let done := dfield d 0x20 0 64
    let ends (t : State) (status : Nat) := ∀ k c, x.issuer = .cmd k → s.cmd k = some c → c.status = 0 →
      t.cmd k = some { c with phase := .finished, status := status }
    let now := at_ = 0 ∨ (s.link.snoop = [] ∧ s.link.bis = [] ∧ (∀ f k, (s.frg f).frozen.get k = false) ∧
      ∀ k, (s.cell k).frozen = 0 ∧ s.isAway k = false)
    (x.phase = .recorded ∨ (x.phase = .performed ∧ now) → ∃ t, exec (.foragerDescriptorComplete id) s = .next t ∧ ends t 0 ∧
      (t.frg f).running ≠ some id ∧ (t.frg f).completed = Nat.min ((s.frg f).completed + 1) (2 ^ 32 - 1) ∧
      (at_ = 0 ∨ x.phase = .recorded → t.mem = s.mem) ∧
      (at_ ≠ 0 → x.phase = .performed →
        t.memBytes at_ 128 = leBytes 8 x.flags.toNat ++ leBytes 8 x.count1.toNat ++ leBytes 8 x.count2.toNat ++
          leBytes 8 x.value.toNat ++ leBytes 16 0 ++ leBytes 80 x.image.toNat ∧
        ∀ q, (q < at_ ∨ at_ + 128 ≤ q) → t.memByte q = s.memByte q) ∧
      (done = 0 → t.sigs = s.sigs) ∧
      (∀ o, done ≠ 0 → s.syncRef x.part done = .loc o → ∃ g, t.sigs = s.sigs ++ [g] ∧ g.obj = o ∧ g.set = false ∧ g.v = 1)) ∧
    (x.phase = .performed → at_ ≠ 0 → isClose at_ = true → s.lineHeld (at_ / 64) = true →
      ∃ t, exec (.foragerDescriptorComplete id) s = .next t ∧ t.sigs = s.sigs ∧ t.cmds = s.cmds ∧
        t.fdesc id = some { x with phase := .recorded }) ∧
    (x.phase = .queued → s.stranded x = true → s.substitutes x.part = false →
      ∃ t, exec (.foragerDescriptorComplete id) s = .next t ∧ ends t 4 ∧ t.mem = s.mem ∧ t.sigs = s.sigs) ∧
    (x.phase = .quenched → ∃ t, exec (.foragerDescriptorComplete id) s = .next t ∧ ends t 4 ∧ t.mem = s.mem ∧
      t.sigs = s.sigs ∧ (t.frg f).running ≠ some id)

/-- Copies to the lining: the next frozen granule of a forager or a frozen granule of a cell is copied and its number
appended to the epoch's list, after any write that waits for a staging buffer, and where no word of it is uncorrectable; a write that
meets a frozen granule, of lines no host holds, copies it first and marks it dirty again; the budget of a
millisecond is shared equally among the foragers with frozen granules (R52, R275, R276, R277, R312, R517, R518). -/
def Claims.LiningCopies : Prop :=
  (∀ (s : State) (part k o d g : Nat), s.live = true → part < 4 → s.linOn part = true → (s.epochOf part).state = 3 → s.asleep part = false →
    k < s.linA → o = s.granuleOff part k → s.place4K o = (d, g) → (s.frg d).nextFrozen = some g →
    (s.frg d).frozen.get g = true → s.stagingFree part d = true → s.writeParked d = false → (4096 ≤ (s.frg d).share ∨ s.softwareDue d = false) →
    ∃ t, exec (.liningCopy part k) s = .next t ∧ (t.frg d).frozen.get g = false ∧
      (∀ j, j ≠ g → (t.frg d).frozen.get j = (s.frg d).frozen.get j) ∧ (t.frg d).share = (s.frg d).share - 4096 ∧
      t.mem = s.mem ∧ t.cells = s.cells ∧
      (t.epochOf (s.partOfClose o)).list = (s.epochOf (s.partOfClose o)).list ++
        [(s.linGranule o, (s.memBytes (o / 4096 * 4096) 4096).all (fun b => b == 0))]) ∧
  (∀ (s : State) (part n j : Nat), s.live = true → part < 4 → s.linOn part = true → (s.epochOf part).state = 3 → s.asleep part = false →
    n < s.cellsPer → j < 1024 → part * s.cellsPer + n < 512 → s.stagingFree part (32 + (part * s.cellsPer + n) / 8) = true →
    (s.cell (part * s.cellsPer + n)).frozen.getLsbD j = true →
    s.badWords (cellMem (part * s.cellsPer + n) + 4096 * j) 4096 = [] →
    ∃ t, exec (.liningCopy part (s.linA + 1024 * n + j)) s = .next t ∧ t.mem = s.mem ∧
      ∀ i, i < 1024 → (t.cell (part * s.cellsPer + n)).frozen.getLsbD i =
        (decide (i ≠ j) && (s.cell (part * s.cellsPer + n)).frozen.getLsbD i)) ∧
  (∀ (s : State), s.live = true → ∃ t, exec .liningBudgetSplit s = .next t ∧ t.mem = s.mem ∧
    ∀ p d, p < s.parts → d ∈ s.devsOf p →
      let want := (s.devsOf p).filter fun e => !(s.frg e).frozen.clear
      (t.frg d).frozen = (s.frg d).frozen ∧
      (t.frg d).share = if (s.frg d).frozen.clear then 0 else bits (s.barW 0x060000) 16 7 * 1210000 / want.length) ∧
  (∀ (s : State) (dev granule off o e k : Nat) (data : List Byte), s.live = true → dev < 32 → 0 < data.length →
    off + data.length ≤ 4096 → (s.frg dev).frozen.get granule = true → s.stagingFree (s.partOfDev dev) dev = true →
    s.unrelocate dev granule = some (e, k) → s.offsetOf e k = some o → isClose (o + off) = true →
    s.place4K (o + off) = (dev, granule) → o % 4096 = 0 → s.heldIn (o + off) data.length = false →
    ∃ t, exec (.copyBeforeWrite dev granule off data) s = .next t ∧ (t.frg dev).frozen.get granule = false ∧
      (t.frg dev).live.get granule = true ∧ (t.frg dev).share = (s.frg dev).share - 4096 ∧ (∀ i, i < data.length → t.memByte (o + off + i) = data.getD i 0) ∧
      ∀ q, (q < o + off ∨ o + off + data.length ≤ q) → t.memByte q = s.memByte q) ∧
  (∀ (s : State) (cell granule off : Nat) (data : List Byte), s.live = true → cell < 512 → granule < 1024 → 0 < data.length →
    off + data.length ≤ 4096 → (s.cell cell).frozen.getLsbD granule = true →
    s.stagingFree (s.partOfCell cell) (32 + cell / 8) = true → s.badWords (cellMem cell + 4096 * granule) 4096 = [] →
    let a := cellMem cell + 4096 * granule + off
    ∃ t, exec (.cellCopyBeforeWrite cell granule off data) s = .next t ∧ (t.cell cell).frozen.getLsbD granule = false ∧
      (t.cell cell).live.getLsbD granule = true ∧ (∀ i, i < data.length → t.memByte (a + i) = data.getD i 0) ∧
      ∀ q, (q < a ∨ a + data.length ≤ q) → t.memByte q = s.memByte q)

/-- A retired forager's pair works for it: its descriptors name the pair from then on; with both retired the pair is lost and
reported; with a home region in effect the device is retired too (R213, R278, R279). -/
def Claims.ForagerRetirement : Prop :=
  ∀ (s : State) (f : Nat), s.live = true → f < 32 → (s.frg f).retired = false →
    let pair := f ^^^ 1
    ∃ t, exec (.foragerRetire f) s = .next t ∧ (t.frg f).retired = true ∧ (t.frg f).running = none ∧
      ((s.frg pair).retired = true → s.aon 47 + 1 = t.aon 47 ∨ s.linSafe (s.partOfDev f) = true) ∧
      ((s.frg pair).retired = false → (s.frg pair).underTest = false →
        ((∀ i ∈ (s.frg f).queue, ∃ x ∈ s.fdescs, x.id = i ∧ x.phase = .queued ∧ x.part = s.partOfDev f ∧ f ∈ x.frgs) →
          (t.frg f).queue = []) ∧
        ∀ y ∈ t.fdescs, (y.phase = .placed ∨ y.phase = .queued) → y.part = s.partOfDev f → f ∉ y.frgs) ∧
      ((s.frg pair).retired = false → s.homeG (s.partOfDev f) ≠ 0 → (s.dev f).retired = false → (t.dev f).retired = true)

/-! ### The host link and the HDM range (R307-R312, R318-R322, R550, R668) -/

/-- Host accesses of the HDM range: a read returns the line and enters it in the snoop filter; a write is performed; the hole
reads as zeros, discards writes, and both are counted; while the partition is under reset or at an idle depth the access waits, and wakes the
partition. A peer's access leaves no entry in the snoop filter, and waits until no host holds the line (R308, R312, R317, R320, R321,
R322, R487, R550; log 123). -/
def Claims.HostMemory : Prop :=
  ∀ (s : State) (fn off : Nat) (data : List Byte), s.live = true → fn < 4 → s.hdmOpen fn = true →
    off < s.sliceBytes + 2 ^ 28 → (∀ o, s.hdm fn off = .close o → s.lostIn (o / 64 * 64) 64 = false ∧ s.stageOk o data.length = true) →
    0 < data.length → data.length ≤ 64 → off % 64 + data.length ≤ 64 →
    ((s.inReset fn = true ∨ s.awake fn = false) →
      exec (.hostMemRead fn ⟨off, false⟩) s =
        .next (({ s with link := { s.link with held := s.link.held ++ [(fn, off, none)] } }).wake fn) ∧
      exec (.hostMemWrite fn ⟨off, false⟩ data) s =
        .next (({ s with link := { s.link with held := s.link.held ++ [(fn, off, some data)] } }).wake fn)) ∧
    (s.inReset fn = false → s.awake fn = true →
      (∀ o, s.hdm fn off = .close o →
        (((fn, o / 64) ∈ s.link.snoop ∨ (s.link.snoop.filter fun e => e.1 == fn).length < s.snoopShare) →
          ∃ t, exec (.hostMemRead fn ⟨off, false⟩) s = .next t ∧ t.mem = s.mem ∧ (fn, o / 64) ∈ t.link.snoop ∧
            t.link.lastRead = some (fn, off, s.memBytes (o / 64 * 64) 64)) ∧
        (s.inTrace o data.length = false → ∃ t, exec (.hostMemWrite fn ⟨off, false⟩ data) s = .next t ∧
          (∀ k, k < data.length → t.memByte (o + k) = data.getD k 0) ∧
          ∀ q, (q < o ∨ o + data.length ≤ q) → t.memByte q = s.memByte q)) ∧
      (s.hdm fn off = .hole →
        (∃ t, exec (.hostMemRead fn ⟨off, false⟩) s = .next t ∧ t.link.lastRead = some (fn, off, List.replicate 64 0) ∧
          t.aon 46 = s.aon 46 + 1) ∧
        exec (.hostMemWrite fn ⟨off, false⟩ data) s = .next (s.bump 46 1))) ∧
    (s.inReset fn = true → exec (.hostMemRead fn ⟨off, true⟩) s = .next s ∧
      exec (.hostMemWrite fn ⟨off, true⟩ data) s = .next s) ∧
    (s.inReset fn = false → s.awake fn = false → exec (.hostMemRead fn ⟨off, true⟩) s = .next (s.wake fn) ∧
      exec (.hostMemWrite fn ⟨off, true⟩ data) s = .next (s.wake fn)) ∧
    (s.inReset fn = false → s.awake fn = true → ∀ o, s.hdm fn off = .close o →
      (s.heldIn (o / 64 * 64) 64 = false →
        (∃ t, exec (.hostMemRead fn ⟨off, true⟩) s = .next t ∧ t.mem = s.mem ∧ t.link.snoop = s.link.snoop ∧
          t.link.lastRead = some (fn, off, s.memBytes (o / 64 * 64) 64)) ∧
        (s.inTrace o data.length = false → ∃ t, exec (.hostMemWrite fn ⟨off, true⟩ data) s = .next t ∧
          (∀ k, k < data.length → t.memByte (o + k) = data.getD k 0) ∧ t.link.snoop = s.link.snoop ∧
          ∀ q, (q < o ∨ o + data.length ≤ q) → t.memByte q = s.memByte q)) ∧
      (s.hostHolds (o / 64) = true → (∀ b ∈ s.link.bis, b.line ≠ o / 64) →
        ∃ t, exec (.hostMemRead fn ⟨off, true⟩) s = .next t ∧ exec (.hostMemWrite fn ⟨off, true⟩ data) s = .next t ∧
          t.mem = s.mem ∧ t.link.lastRead = s.link.lastRead ∧
          ∃ k, t.link.bis = s.link.bis ++ [{ line := o / 64, what := .packet, ord := k }]))

/-- Once a line has been back-invalidated no host holds it, and the engine write, the engine read or the update that waited for it is
performed, a read with what else its owner reads of the same lines; data that the host held modified are written first. An update waits for the effect records before it (R289, R309, R312,
R528). -/
def Claims.BackInvalidation : Prop :=
  ∀ (s : State) (line : Nat) (b : Bi), s.live = true → s.link.up = true →
    (s.link.bis.filter fun x => x.line == line) = [b] → (∀ x ∈ s.coll.colls, x.started = false ∨ x.ready = true) →
    (∀ owner eng a d, b.what = .write owner eng a d → s.stageOk a d.length = true →
      ∃ t, exec (.backInvalidateComplete ⟨line, none⟩) s = .next t ∧
      (∀ x, x ∈ t.link.bis ↔ x ∈ s.link.bis ∧ x.line ≠ line) ∧ (∀ e, e ∈ t.link.snoop ↔ e ∈ s.link.snoop ∧ e.2 ≠ line) ∧
      (∀ k, k < d.length → t.memByte (a + k) = d.getD k 0) ∧
      ∀ q, (q < a ∨ a + d.length ≤ q) → t.memByte q = s.memByte q) ∧
    (∀ g, b.what = .sig g → g.ack = none → (s.pendingBefore b.ord fun o => o == .log g.part) = false →
      ∃ t, exec (.backInvalidateComplete ⟨line, none⟩) s = .next t ∧ t.hostHolds line = false ∧ t.mem = s.mem ∧
        t.obj g.obj = if g.set then g.v else s.obj g.obj + g.v) ∧
    (∀ owner eng p a len dest x, b.what = .read owner eng p a len dest → (∀ id, owner ≠ .fetch id) →
      s.reach p .data false false dest len = .ok (.loc x) → isClose x = false →
      (∀ k, (s.cell k).frozen = 0 ∧ s.isAway k = false) → (∀ q ∈ s.far, q.owner = owner → q.wr = true) →
      (∀ q ∈ s.fab.reads, q.owner ≠ owner) → (∀ g ∈ s.gather, g.owner ≠ owner) →
      (∀ y ∈ s.link.bis, ∀ e q a' n dest', y.what = .read owner e q a' n dest' → y = b) →
      ∃ t, exec (.backInvalidateComplete ⟨line, none⟩) s = .next t ∧ t.hostHolds line = false ∧
        (∀ k, k < len → t.memByte (x + k) = s.memByte (a + k)) ∧ ∀ q, (q < x ∨ x + len ≤ q) → t.memByte q = s.memByte q) ∧
    (b.what = .packet → (∃ t, exec (.backInvalidateComplete ⟨line, none⟩) s = .next t ∧ t.hostHolds line = false ∧ t.mem = s.mem) ∧
      ∀ d, d.length = 64 → s.hostHolds line = true → isClose (64 * line) = true → s.stageOk (64 * line) 64 = true → s.inTrace (64 * line) 64 = false →
        ∃ t, exec (.backInvalidateComplete ⟨line, some d⟩) s = .next t ∧ t.hostHolds line = false ∧
          (∀ k, k < 64 → t.memByte (64 * line + k) = d.getD k 0) ∧
          ∀ q, (q < 64 * line ∨ 64 * line + 64 ≤ q) → t.memByte q = s.memByte q) ∧
    (∀ g, b.what = .sig g → (s.pendingBefore b.ord fun o => o == .log g.part) = true →
      exec (.backInvalidateComplete ⟨line, none⟩) s = .next s)

/-- The host link goes down and up; a partner without 256-byte flits leaves it in training, an event of the management port; a
loss beyond the timeout is reported once; PERST# takes it down (R318, R319, R370, R668). -/
def Claims.HostLinkStates : Prop :=
  ∀ (s : State),
    (s.live = true → s.link.up = true → exec .hostLinkDown s = .next { s with link := { s.link with up := false } }) ∧
    (s.live = true → s.link.up = false → s.link.perst = false →
      exec (.hostLinkUp true) s = .next { s with link := { s.link with up := true, lost := false } } ∧
      exec (.hostLinkUp false) s = .next (s.mEvent 2 0)) ∧
    (s.live = true → s.link.up = false → s.link.lost = false → ∃ t, exec .hostLinkLost s = .next t ∧
      Reported { s with link := { s.link with lost := true } } t ∧ t.aon 47 = s.aon 47 + BitVec.ofNat 64 s.parts) ∧
    (s.live = true → s.link.lost = true → exec .hostLinkLost s = .refused .notDue) ∧
    (s.boot.standby = true → s.link.perst = false →
      exec .perstAssert s = .next { s with link := { s.link with perst := true, up := false } }) ∧
    (s.boot.standby = true → s.link.perst = true →
      exec .perstDeassert s = .next { s with link := { s.link with perst := false } }) ∧
    (s.live = true → s.link.perst = true → ∀ b, exec (.hostLinkUp b) s = .refused .notDue)

/-! ### Registers (R40, R327-R334) -/

/-- A register access of 8 bytes by a function that may write the register stages its RWC fields, takes its RW fields into
effect and leaves every other bit in effect; one by another function, or of another size or alignment, changes no register. A write
that originates in module firmware to a register of the windows or of the QFB block is discarded, counted and reported (R40, R222,
R326, R327, R329, R399, R634). -/
def Claims.RegisterWrites : Prop :=
  ∀ (s : State) (fn off : Nat) (v : Word), s.live = true → fn < s.parts → fn < 4 →
    (∀ r i, regAt off = some (r, i) → off % 8 = 0 →
      off ∉ [0x001000, 0x001008, 0x080030, 0x050010, 0x061000, 0x07B000, 0x07C000, 0x080018] → r.base ≠ 0x038000 →
      ∃ t, exec (.registerWrite ⟨fn, false⟩ off 8 v) s = .next t ∧
        (s.mayWrite fn r i = true → ∀ f ∈ r.fields,
          let key := regKey fn off
          (f.acc = .rwc → bits (t.stgW key) f.lsb f.width = bits v.toNat f.lsb f.width) ∧
          (f.acc = .rw → bits (t.barW key) f.lsb f.width = bits v.toNat f.lsb f.width) ∧
          ∀ b, (∀ g ∈ r.fields, g.acc = .rw → b < g.lsb ∨ g.lsb + g.width ≤ b) → bit (t.barW key) b = bit (s.barW key) b) ∧
        (s.mayWrite fn r i = false → t.bar = s.bar ∧ t.stg = s.stg) ∧ t.cells = s.cells) ∧
    (∀ size, ((size ≠ 4 ∧ size ≠ 8) ∨ off % size ≠ 0) → ∃ t, exec (.registerWrite ⟨fn, false⟩ off size v) s = .next t ∧ t.bar = s.bar ∧
      t.stg = s.stg ∧ t.commits = s.commits ∧ t.fab.routes = s.fab.routes) ∧
    (∀ size, collarReg off = true → ∃ t, exec (.registerWrite ⟨fn, true⟩ off size v) s = .next t ∧ t.bar = s.bar ∧ t.stg = s.stg ∧
      t.aon 45 = s.aon 45 + 1 ∧ t.cells = s.cells ∧ t.mem = s.mem)

/-- A read of BAR0. One of 8 aligned bytes returns the set-up fields of the register and those that only the module writes; one
of 4 aligned bytes returns its half; one of another size or alignment, or at an offset inside no block, returns 0. Of the
set-up fields an RWC field reads its staged value, or the value in effect where only function 0 may write the register;
after a commit that was not already under way it is the value applied. An RW field reads its value. Counters of the H-die,
the epoch committed and the partition of the reading function read as the state holds them (R41, R327, R328, R329). Where
the spec leaves a point open, the clause states the choice of log entry 107. -/
def Obligations.RegisterReads : Prop :=
  (∀ (s : State) (fn off size : Nat),
    (((size ≠ 4 ∧ size ≠ 8) ∨ off % size ≠ 0) → s.barRead fn off size = 0) ∧
    (((0x2000 ≤ off ∧ off < 0x10000) ∨ 0x90000 ≤ off) → s.barRead fn off size = 0) ∧
    (off % 8 = 0 → s.barRead fn off 4 = s.barRead fn off 8 &&& 0xFFFFFFFF ∧
      s.barRead fn (off + 4) 4 = s.barRead fn off 8 >>> 32 ∧
      s.barRead fn off 8 = BitVec.ofNat 64 (s.setUpWord fn off) ||| BitVec.ofNat 64 (s.moduleWord fn off)) ∧
    ∀ r i, regAt off = some (r, i) → ∀ f ∈ r.fields,
      (f.acc = .rwc → bits (s.setUpWord fn off) f.lsb f.width =
        bits (if r.writer = .fn0 then s.barW (regKey fn off) else s.stgW (regKey fn off)) f.lsb f.width) ∧
      (f.acc = .rw → bits (s.setUpWord fn off) f.lsb f.width = bits (s.barW (regKey fn off)) f.lsb f.width)) ∧
  (∀ (s : State) (fn off : Nat), s.live = true → fn < s.parts → fn < 4 → s.link.up = true → (s.commitOf fn).busy = false →
    ∃ t, exec (.cfgCommit fn) s = .next t ∧ ∀ r i, regAt off = some (r, i) → (∃ o, (regKey fn off, o) ∈ s.commitRegs fn) →
      ∀ f ∈ r.fields, f.acc = .rwc →
        bits (t.setUpWord fn off) f.lsb f.width = bits (t.barW (regKey fn off)) f.lsb f.width) ∧
  (∀ (s : State) (fn n : Nat), n < 64 → s.barRead fn (0x070000 + 8 * n) 8 = s.aon n) ∧
  (∀ (s : State) (fn p : Nat), p < 4 → s.barRead fn (0x060200 + 0x10 * p) 8 = BitVec.ofNat 64 (s.epochOf p).committed) ∧
  ∀ (s : State) (fn : Nat), fn < 4 → bits (s.barRead fn 0x10 8).toNat 0 2 = fn ∧ (s.barRead fn 0x00 8).toNat % 2 ^ 16 = 0x4820

/-- A commit: what was staged is clamped, each clamp is logged, up to 64, and what is applied is what is staged afterwards;
while one is under way a further request is remembered, and follows when the first ends, which counts it; it does not end while a
ring that it enables waits for a window to drain (R224, R330, R331, R332, R334, R339). -/
def Claims.Commits : Prop :=
  ∀ (s : State) (fn : Nat), s.live = true → fn < s.parts → fn < 4 → s.link.up = true →
    ((s.commitOf fn).busy = true → ∃ t, exec (.cfgCommit fn) s = .next t ∧
      t.commitOf fn = { s.commitOf fn with again := true } ∧ t.bar = s.bar ∧ t.stg = s.stg) ∧
    ((s.commitOf fn).busy = false → ∃ t u, exec (.cfgCommit fn) s = .next t ∧ s.hostContact = u ∧ (t.commitOf fn).busy = true ∧
      (t.commitOf fn).log = (u.clamped (u.clampAll fn) fn).take 64 ∧
      ((t.commitOf fn).clamped = true ↔ (s.commitOf fn).clamped = true ∨ u.clamped (u.clampAll fn) fn ≠ []) ∧
      ((t.commitOf fn).overflow = true ↔
        (s.commitOf fn).overflow = true ∨ 64 < (u.clamped (u.clampAll fn) fn).length) ∧
      ∀ r ∈ s.commitRegs fn, t.stgW r.1 = t.barW r.1) ∧
    ((s.commitOf fn).busy = true → s.opening fn = false → (s.commitOf fn).again = false → exec (.commitComplete fn) s =
      .next ((s.setRings fn).setCommit fn
        { s.commitOf fn with busy := false, again := false, count := ((s.commitOf fn).count + 1) % 2 ^ 32 })) ∧
    ((s.commitOf fn).busy = true → s.opening fn = true → exec (.commitComplete fn) s = .refused .notDue) ∧
    ((s.commitOf fn).busy = true → s.opening fn = false → (s.commitOf fn).again = true → ∃ t, exec (.commitComplete fn) s = .next t ∧
      (t.commitOf fn).busy = true ∧ (t.commitOf fn).again = false ∧
      (t.commitOf fn).count = ((s.commitOf fn).count + 1) % 2 ^ 32) ∧
    ((s.commitOf fn).busy = false → exec (.commitComplete fn) s = .refused .notDue)

/-! ### Doorbells and intake (R29, R340-R354) -/

/-- Watched lines: an invalidation starts a re-read, or asks for one more while one is out; each watched line is re-read at its
poll. The first slot of a line that a re-read brings ends it, and a further one follows where it was asked for; the line's other slots
come with it. A slot that comes at an idle depth wakes the partition; a re-read from a far window that fails is reported, or counted where
its data are poisoned, and leaves the line as it was (R228, R343, R347, R487). -/
def Claims.WatchedLines : Prop :=
  (∀ (s : State) (p l : Nat), s.live = true → p < 4 → p < s.parts → l < 5 → s.hostWatch p l = true →
    exec (.watchedLineInvalidation p l) s = .next (s.setWatch p l (if (s.watch p l).out then
      { s.watch p l with again := true } else { s.watch p l with out := true }))) ∧
  (∀ (s : State), s.live = true → ∃ t, exec .watchedLinePoll s = .next t ∧ t = { s with watches := t.watches } ∧
    ∀ p l, p < s.parts → l < 5 → t.watch p l = if s.hostWatch p l && !(s.watch p l).out then
      { s.watch p l with out := true } else s.watch p l) ∧
  (∀ (s : State) (p : Nat), s.live = true → p < 4 → p < s.parts → ∃ t, exec (.farLinePoll p) s = .next t ∧
    t = { s with watches := t.watches } ∧
    ∀ l, l < 5 → t.watch p l = if s.watched p l && s.watchAddr p l / 2 ^ 60 == 2 && !(s.watch p l).out then
      { s.watch p l with out := true } else s.watch p l) ∧
  (∀ (s : State) (p i : Nat) (v : BitVec 32) (first : Bool), s.live = true → p < 4 → p < s.parts → i < 64 →
    (s.ring p i).active = true → s.lineReadable p (i / 16) = true →
    let w := s.watch p (i / 16)
    (s.awake p = false → exec (.doorbellUpdate p i ⟨v, first, none⟩) s = .next (s.wake p)) ∧
    (s.awake p = true → (∃ t, exec (.doorbellUpdate p i ⟨v, first, none⟩) s = .next t ∧
        (first = true → (t.watch p (i / 16)).out = w.again ∧ (t.watch p (i / 16)).again = false) ∧
        (first = false → (t.watch p (i / 16)).out = w.out ∧ (t.watch p (i / 16)).again = w.again)) ∧
      ∀ f, s.watchAddr p (i / 16) / 2 ^ 60 = 2 → ∃ t, exec (.doorbellUpdate p i ⟨v, first, some f⟩) s = .next t ∧
        t.watch p (i / 16) = { last := w.last, out := w.again, again := false } ∧ (∀ j, t.ring p j = s.ring p j) ∧
        (f = .poisoned → t.aon 49 = s.aon 49 + 1) ∧ (f ≠ .poisoned → t.aon 47 = s.aon 47 + 1)))

/-- A slot that keeps the conditions of R345 moves its ring's tail; one that breaks them is ignored and reported once until a
valid value is read. A report line that keeps those of R340 frees report slots (R340, R342, R345). -/
def Claims.Doorbells : Prop :=
  (∀ (s : State) (p i : Nat) (v : BitVec 32) (first : Bool), s.live = true → p < 4 → p < s.parts → i < 64 →
    (s.ring p i).active = true → s.lineReadable p (i / 16) = true → s.awake p = true →
    let r := s.ring p i
    let k := s.ringLog p i
    let tail := v.toNat % 2 ^ 16
    let wrap := bit v.toNat 16
    let good := tail < 2 ^ k ∧ v.toNat < 2 ^ 17 ∧ ahead k r.head r.headWrap tail wrap ≤ 2 ^ k
    ∃ t, exec (.doorbellUpdate p i ⟨v, first, none⟩) s = .next t ∧ (∀ j, j < 64 → j ≠ i → t.ring p j = s.ring p j) ∧
      (good → t.ring p i = { r with tail := tail, tailWrap := wrap, bad := false }) ∧
      (¬good → r.bad = false → t.ring p i = { r with bad := true } ∧ t.aon 47 = s.aon 47 + 1) ∧
      (¬good → r.bad = true → t.ring p i = r ∧ t.aon 47 = s.aon 47) ∧ t.cmds = s.cmds) ∧
  (∀ (s : State) (p : Nat) (line : BitVec 512), s.live = true → p < 4 → p < s.parts → s.lineReadable p 4 = true →
    (s.rep p).held = [] →
    ∃ t, exec (.reportLineUpdate p ⟨line, none⟩) s = .next t ∧
      (s.headGood p line.toNat = true →
        t.rep p = { s.rep p with head := line.toNat % 2 ^ 16, headWrap := bit line.toNat 16, bad := false }) ∧
      (s.headGood p line.toNat = false → (t.rep p).head = (s.rep p).head ∧ (t.rep p).headWrap = (s.rep p).headWrap ∧
        (t.rep p).bad = true ∧ t.aon 47 = s.aon 47 + if (s.rep p).bad then 0 else 1))

/-- Intake copies the next entry of the ring whose turn it is into the drip queue, as the youngest command of its ring, and
reads on; it stops while the reference is lost, an off order is under way or a cut holds it; an entry whose read from a far window fails
stays unread, and is reported or counted. A pointer mismatch empties the drip
queue and takes each ring back to its head, so that only commands that have not started are read again; with a lining such a command
keeps the intake record it has. The head line tells the host how far the ring has started (R29, R228, R349, R350, R351, R353, R526). -/
def Claims.Intake : Prop :=
  (∀ (s : State) (p i : Nat) (desc : BitVec 1024), s.live = true → p < 4 → p < s.parts → i < 64 →
    let k := s.procOf p i
    let r := s.ring p i
    ((s.boot.refOk = false ∨ s.boot.oscHeld = true ∨ s.power.draining = true ∨ (s.epochOf p).stopped = true) →
      exec (.entryIntake p i ⟨desc, none⟩) s = .refused .notDue) ∧
    (s.intakes p = true → (s.drip k).overflow.length < 4096 → s.linOn p = false → (s.epochOf p).recStep = 0 →
      s.nextRing p k = some i → s.link.up = true →
      ∃ t c, exec (.entryIntake p i ⟨desc, none⟩) s = .next t ∧ t.cmds = s.cmds ++ [c] ∧ c.id = s.nextId ∧ t.nextId = s.nextId + 1 ∧
        c.part = p ∧ c.ring = i ∧ c.entry = r.rd ∧ c.wrap = r.rdWrap ∧ c.desc = desc ∧ c.phase = .queued ∧
        c.prio = s.barF (regKey p (0x014008 + 0x40 * i)) 6 2 ∧
        (t.drip k).stages ++ (t.drip k).overflow = (s.drip k).stages ++ (s.drip k).overflow ++ [s.nextId] ∧
        t.ring p i = { r with rd := (s.nextEntry p i r.rd r.rdWrap).1, rdWrap := (s.nextEntry p i r.rd r.rdWrap).2 }) ∧
    (s.intakes p = true → (s.drip k).overflow.length < 4096 → s.linOn p = true → (s.epochOf p).recStep = 0 →
      s.nextRing p k = some i → s.link.up = true →
      ∀ q, (r.relog.find? fun q => q.entry == r.rd && q.wrap == r.rdWrap && q.desc == desc && q.epoch == (s.epochOf p).epoch) = some q →
        ∃ t c, exec (.entryIntake p i ⟨desc, none⟩) s = .next t ∧ t.cmds = s.cmds ++ [c] ∧ c.intake = q.intake ∧ c.desc = desc ∧
          t.epochs = s.epochs) ∧
    (s.intakes p = true → (s.drip k).overflow.length < 4096 → (s.epochOf p).recStep = 0 → s.nextRing p k = some i → s.link.up = true →
      s.entryAddr p i / 2 ^ 60 = 2 → ∀ f, ∃ t, exec (.entryIntake p i ⟨desc, some f⟩) s = .next t ∧ t.cmds = s.cmds ∧
        t.rings = s.rings ∧ (f = .poisoned → t.aon 49 = s.aon 49 + 1) ∧ (f ≠ .poisoned → t.aon 47 = s.aon 47 + 1))) ∧
  (∀ (s : State) (cp : Nat), s.live = true → cp < 4 → ∃ t, exec (.dripPointerMismatch cp) s = .next t ∧
    (t.drip cp).stages = [] ∧ (t.drip cp).overflow = [] ∧ t.aon 47 = s.aon 47 + 1 ∧
    (∀ c ∈ s.cmds, (∀ d ∈ s.cmds, d.id = c.id → d.waiting = false) → c ∈ t.cmds) ∧ (∀ c ∈ t.cmds, c ∈ s.cmds) ∧
    ∀ c ∈ s.cmds, c.waiting = true → c.part = cp / s.procs → c.ring < 64 →
      (c.id ∈ (s.drip cp).stages ∨ c.id ∈ (s.drip cp).overflow) →
      c ∉ t.cmds ∧ (t.ring c.part c.ring).rd = (s.ring c.part c.ring).head) ∧
  (∀ (s : State) (p i : Nat), s.live = true → p < 4 → p < s.parts → i < 64 → (s.ring p i).lineDue = true →
    ∃ t, exec (.headLineWrite p i) s = .next t ∧ t.ring p i = { s.ring p i with lineDue := false } ∧
      ∀ h, s.hostAtOnce h 4 = true → s.reach p .rings true false (s.cplBase p i + 32 * 2 ^ s.ringLog p i) 4 = .ok (.host h) →
        t.extBytes (hostKey h) 4 = leBytes 4 ((s.ring p i).head + if (s.ring p i).headWrap then 2 ^ 16 else 0))

/-! ### Ports and flits (R377-R385) -/

/-- Training, lanes and failures of ports: before a placement the port keeps what its partner sent and stays as it is; a partner
that the placement names brings it up with the lanes that are healthy, another holds it in state 4; a retired lane takes the
port to the state of the lanes left; a retrain loses nothing; a port that fails drops what it holds (R377, R378, R379, R385,
R406). -/
def Claims.PortStates : Prop :=
  ∀ (s : State) (k : Nat), s.live = true → k < 18 →
    (∀ phys n ser, (s.port k).state = 0 → (s.port k).trained = false →
      ∃ t, exec (.portTrained k phys n ser) s = .next t ∧ (∀ j, j ≠ k → t.port j = s.port j) ∧ (t.port k).trained = true ∧
        (t.port k).pPhys = phys ∧ (t.port k).pPort = n ∧ (t.port k).pSerial = ser ∧
        let e := Tab.get (fun _ => PPort.reset) s.place.ports k
        (s.fab.placed = false → (t.port k).state = 0 ∧ t = { s with fab := t.fab }) ∧
        (s.fab.placed = true → e.wired = false → (t.port k).state = 7) ∧
        (s.fab.placed = true → e.wired = true → phys = e.phys → n = e.port → (e.serial = 0 ∨ e.serial = ser) →
          (t.port k).state = (laneState (s.port k).healthy).1 ∧ (t.port k).lanes = (laneState (s.port k).healthy).2) ∧
        (s.fab.placed = true → e.wired = true → (phys ≠ e.phys ∨ n ≠ e.port ∨ (e.serial ≠ 0 ∧ e.serial ≠ ser)) → (t.port k).state = 4 ∧ (t.port k).lanes = 0)) ∧
    (∀ l, l < 9 → (s.port k).healthy.getLsbD l = true → ∃ t, exec (.laneRetire k l) s = .next t ∧
      (∀ j, j ≠ k → t.port j = s.port j) ∧ t.aon 37 = s.aon 37 + 1 ∧
      (t.port k).healthy = (s.port k).healthy &&& ~~~(1#9 <<< l) ∧
      ((s.port k).up = true → (t.port k).state = (laneState (t.port k).healthy).1 ∧
        (t.port k).lanes = (laneState (t.port k).healthy).2) ∧
      ((s.port k).up = false → (t.port k).state = (s.port k).state ∧ (t.port k).lanes = (s.port k).lanes)) ∧
    ((s.port k).up = true → 8 ≤ (s.port k).replays → exec (.linkRetrain k) s = .next (s.setPort k { s.port k with
      retrains := min ((s.port k).retrains + 1) 65535, replays := 0, lastTx := (s.port k).unacked })) ∧
    ((s.port k).up = true → ∃ t, exec (.portFailed k) s = .next t ∧ (∀ j, j ≠ k → t.port j = s.port j) ∧
      (t.port k).state = 5 ∧ (t.port k).lanes = 0 ∧ (t.port k).unacked = [] ∧ (t.port k).rxBuf = [] ∧
      (t.port k).queue = [] ∧ Reported { s with fab := { s.fab with ports := t.fab.ports } } t)

/-- The lanes of a port: all eight active lanes with the spare unused, eight with the spare in use, the four lowest healthy
lanes, or none (R378). -/
def Claims.LanesInUse : Prop :=
  ∀ h : BitVec 9,
    let ok := (List.range 9).filter fun j => h.getLsbD j
    let used := (List.range 9).filter fun j => (laneState h).2.getLsbD j
    ((∀ j, j < 8 → h.getLsbD j = true) → laneState h = (1, 0xFF)) ∧
    (ok.length = 8 → h.getLsbD 8 = true → (laneState h).1 = 2 ∧ used = ok) ∧
    (4 ≤ ok.length → ok.length < 8 → (laneState h).1 = 3 ∧ used = ok.take 4) ∧
    (ok.length < 4 → (laneState h).1 = 5 ∧ used = [])

/-- A packet is what its bytes on a link spell. At a port, the bytes of the packets of a channel follow each other in one stream: a
packet placed in the queue adds its bytes to the end of those that wait, in flits of at most 240, and leaves every other channel's as
they are (R384, R387). -/
def Claims.PacketBytes : Prop :=
  (∀ p : Packet, packetOf (pktBytes p) = p) ∧
  ∀ (q : Port) (vc : Nat) (urgent : Bool) (bs : List Byte),
    let t := q.queueBytes vc urgent bs
    let stream (r : Port) (k : Nat) (b : Bool) := ((r.queue.filter fun x => x.vc == k && x.urgent == b).map TxFlit.payload).flatten
    t = { q with queue := t.queue } ∧ stream t vc urgent = stream q vc urgent ++ bs ∧
    (∀ k b, (k ≠ vc ∨ b ≠ urgent) → (t.queue.filter fun x => x.vc == k && x.urgent == b) = q.queue.filter fun x => x.vc == k && x.urgent == b) ∧
    ((∀ x ∈ q.queue, x.payload.length ≤ 240) → ∀ x ∈ t.queue, x.payload.length ≤ 240)

/-- Link-level retry: a flit with a bad CRC or FEC, or one that is not the successor of the last accepted flit, is discarded and the
next flit sent asks for a replay; the successor is accepted, and takes acknowledged flits from the replay buffer; the sender replays
from its oldest unacknowledged flit; an idle flit carries the sequence numbers and its CRC, while nothing waits. Of the flits that wait
one goes at a time, those of CTL before any other, QUENCH and MARKER first, and the others in the order of their channel; a packet that
comes on a channel that is not its class's is discarded (R382-R385, R395; log 137). -/
def Claims.Flits : Prop :=
  ∀ (s : State) (k : Nat), s.live = true → k < 18 → (s.port k).up = true →
    let q := s.port k
    (∀ f : Flit, f.payload.length = 240 → (f.fecOk = false ∨ f.crc ≠ flitCrc f) →
      exec (.flitReceive k f) s = .next ((s.setPort k { q with nak := true }).bump 38 1)) ∧
    (∀ f : Flit, f.payload.length = 240 → f.fecOk = true → f.crc = flitCrc f →
      (f.fseq ≠ q.rx + 1 → exec (.flitReceive k f) s = .next (s.setPort k { q with nak := true })) ∧
      (f.fseq = q.rx + 1 → ∃ t, exec (.flitReceive k f) s = .next t ∧ (t.port k).rx = f.fseq ∧ (t.port k).nak = false ∧
        (∀ j, j ≠ k → t.port j = s.port j) ∧
        (t.port k).unacked = (q.acked f.aseq).unacked ∧
        (f.nak = true → (q.acked f.aseq).unacked ≠ [] → (t.port k).lastTx = (q.acked f.aseq).unacked) ∧
        (f.cvc.toNat < 9 → (t.port k).credit f.cvc.toNat = q.credit f.cvc.toNat + f.ccount.toNat) ∧
        (9 ≤ f.vc.toNat → t.fab.waiting = s.fab.waiting) ∧
        (∀ p : Packet, f.vc.toNat < 9 → f.start = 0 → Tab.get (fun _ => []) q.rxBuf f.vc.toNat = [] → p.type ≠ 0 →
          pktLen (pktBytes p) = some (pktSize p) → f.payload = pktBytes p ++ List.replicate (240 - pktSize p) 0 →
          p.srcPhys ≠ s.fab.phys →
          (f.vc.toNat = chanOf p → t.fab.waiting = s.fab.waiting ++ [(some k, p)]) ∧
          (f.vc.toNat ≠ chanOf p → t.fab.waiting = s.fab.waiting ∧ t.aon 41 = s.aon 41 + 1)))) ∧
    (q.unacked ≠ [] → exec (.replayTimeout k) s =
      .next ((s.setPort k { q with lastTx := q.unacked, replays := q.replays + 1 }).bump 36 1)) ∧
    (q.queue ≠ [] → exec (.idleFlit k) s = .refused .notDue) ∧
    (q.unacked.length < 512 → q.queue ≠ [] → ∀ pick, ∃ x f, x ∈ q.queue ∧ (q.pump pick).queue = q.queue.erase x ∧
      (q.pump pick).unacked = q.unacked ++ [f] ∧ (q.pump pick).tx = q.tx + 1 ∧ f.vc = BitVec.ofNat 4 x.vc ∧ f.fseq = q.tx ∧
      f.aseq = q.rx ∧ f.payload = x.payload ++ List.replicate (240 - x.payload.length) 0 ∧ f.crc = flitCrc f ∧
      ((∃ y ∈ q.queue, y.vc = 0) → x.vc = 0) ∧ ((∃ y ∈ q.queue, y.vc = 0 ∧ y.urgent = true) → x.vc = 0 ∧ x.urgent = true) ∧
      ((∀ y ∈ q.queue, y.vc ≠ 0) → q.queue.find? (fun y => y.vc == x.vc) = some x)) ∧
    (q.unacked.length < 512 → q.queue = [] → ∃ t f, exec (.idleFlit k) s = .next t ∧ (∀ j, j ≠ k → t.port j = s.port j) ∧
      (t.port k).unacked = q.unacked ++ [f] ∧ (t.port k).lastTx = [f] ∧ (t.port k).tx = q.tx + 1 ∧ f.vc = 15 ∧ f.fseq = q.tx ∧
      f.aseq = q.rx ∧ f.nak = q.nak ∧ f.crc = flitCrc f ∧ t.fab.waiting = s.fab.waiting)

/-! ### Routing (R390, R403-R405, R410-R412, R416) -/

/-- The first dimension of the ascending route, by the bits of the two positions; applied again at each module on the way, it takes
dimensions in strictly ascending order and reaches its destination in at most three links (R404). -/
def Obligations.AscendingRoute : Prop :=
  (∀ p q, p < 8 → q < 8 →
    (p.testBit 0 ≠ q.testBit 0 → cubeEscapeDim p q = 0) ∧
    (p.testBit 0 = q.testBit 0 →
      let w := q.testBit 1 ^^ (q.testBit 0 && (p.testBit 2 ^^ q.testBit 2))
      cubeEscapeDim p q = if p.testBit 1 ≠ w then 1 else 2)) ∧
  ∀ p q, p < 8 → q < 8 → p ≠ q →
    let d1 := cubeEscapeDim p q
    let p1 := neighbour d1 p
    let d2 := cubeEscapeDim p1 q
    let p2 := neighbour d2 p1
    let d3 := cubeEscapeDim p2 q
    p1 = q ∨ (d1 < d2 ∧ p2 = q) ∨ (d1 < d2 ∧ d2 < d3 ∧ neighbour d3 p2 = q)

/-- The decision about a packet that has arrived on a port: one that would reach its age with the link it is to take, or comes from a switch plane and is for
another module, is discarded and counted; one for this module waits for its consumption; another is placed in the queue of the chosen port
with age, hops and channel as R390 and R403 say, or waits (R390, R403). -/
def Claims.TransitDecision : Prop :=
  ∀ (s : State) (k : Nat) (p : Packet) (r : Nat), s.live = true → k < 18 → (some k, p) ∈ s.fab.waiting →
    typeClass p.type.toNat = some p.cls.toNat →
    (2000 ≤ p.age.toNat + r + (if p.dstPhys = s.fab.phys then 0 else 1) →
      exec (.packetRoute (some k) p r) s = .next ((s.unpark p).bump 40 1)) ∧
    (p.age.toNat + r + (if p.dstPhys = s.fab.phys then 0 else 1) < 2000 →
      (p.dstPhys = s.fab.phys → exec (.packetRoute (some k) p r) s = .next s) ∧
      (p.dstPhys ≠ s.fab.phys → k < 12 → exec (.packetRoute (some k) p r) s = .next ((s.unpark p).bump 41 1)) ∧
      (p.dstPhys ≠ s.fab.phys → 12 ≤ k → s.choose (k / 6) false p = none → exec (.packetRoute (some k) p r) s = .next s.transit) ∧
      (∀ j esc, p.dstPhys ≠ s.fab.phys → 12 ≤ k → s.choose (k / 6) false p = some (j, esc) →
        ∃ t, exec (.packetRoute (some k) p r) s = .next t ∧ t.fab.rtx = s.fab.rtx ∧
          (t.port j).credit (vcOf p.cls.toNat esc) = (s.port j).credit (vcOf p.cls.toNat esc) - (pktSize p + 31) / 32 ∧
          (t.port j).unacked = (s.port j).unacked ∧
          let out : Packet := { p with age := p.age + BitVec.ofNat 11 (r + 1), esc := p.esc || esc,
                                       hops := if 12 ≤ j then p.hops + 1 else p.hops }
          (t.port j).queue = ((s.port j).queueBytes (vcOf p.cls.toNat esc) (urgentPkt p) (pktBytes out)).queue))

/-- The port that is chosen is up and has credit for the whole packet; a packet in `CTL`, and one on an escape
channel, leaves on its escape port, and with adaptive routing off every packet does; a resend leaves on the next of its switch planes,
and no other packet of `CTL` goes before a QUENCH or MARKER that waits for the port (R395, R401, R403, R411). -/
def Claims.PortChosen : Prop :=
  ∀ (s : State) (die : Nat) (orig : Bool) (p : Packet) (j : Nat) (esc : Bool), s.choose die orig p = some (j, esc) →
    s.portTakes j (vcOf p.cls.toNat esc) orig p = true ∧ (s.port j).up = true ∧
      (pktSize p + 31) / 32 ≤ (s.port j).credit (vcOf p.cls.toNat esc) ∧ (p.cls = 0 → esc = false) ∧
      (s.planeFor orig p = none →
        ((p.cls = 0 ∨ p.esc = true ∨ esc = true ∨ s.barB 0x030008 0 = false) → s.escapePort p = some j) ∧
        (p.cls ≠ 0 → (p.esc = true ∨ s.barB 0x030008 0 = false) → esc = true)) ∧
      (∀ k, s.planeFor orig p = some k → j = k ∧ orig = true ∧ s.barB 0x030008 0 = true ∧
        ∃ r ∈ s.fab.rtx, r.sent = true ∧ r.isFor p = true ∧ s.nextPlane r = some k) ∧
      (p.cls = 0 → urgentPkt p = false → s.urgentAt j = false)

/-- Originated packets: one that the Collar does not accept is dropped; one for this module, or with no port to take it, waits;
another leaves, and its entry of the retransmit store is marked sent. A packet in the queue is decided about again; one
that reaches its age there is discarded, and goes out again as one that was lost, even if it never left; one unanswered for 2.5 ms goes out again with the same number (R390, R403, R411,
R416). -/
def Claims.OriginatedPackets : Prop :=
  (∀ (s : State) (p : Packet) (r : Nat), s.live = true → p ∈ s.fab.outbox → s.mayLeave p = true → p.age.toNat + r + 1 < 2000 →
    typeClass p.type.toNat = some p.cls.toNat → (∀ e ∈ s.fab.waiting, e.2 ≠ p) →
    let u := { s with fab := { s.fab with outbox := s.fab.outbox.erase p } }
    let die := match s.fab.rtx.find? fun x => x.isFor p with
      | some x => s.homeQ x.eng
      | none => 2
    (p.dstPhys = s.fab.phys → exec (.packetRoute none p r) s =
      .next { u with fab := { u.fab with waiting := s.fab.waiting ++ [(none, p)] } }) ∧
    (p.dstPhys ≠ s.fab.phys → (p.srcPhys ≠ s.fab.phys ∨ p.srcLog ≠ s.fab.logical) →
      exec (.packetRoute none p r) s = .next u.collarClamp) ∧
    (p.dstPhys ≠ s.fab.phys → p.srcPhys = s.fab.phys → p.srcLog = s.fab.logical →
      (u.choose die true p = none → exec (.packetRoute none p r) s =
        .next { u with fab := { u.fab with waiting := s.fab.waiting ++ [(none, p)] } }) ∧
      (∀ j esc, u.choose die true p = some (j, esc) → ∃ t, exec (.packetRoute none p r) s = .next t ∧
        t.fab.outbox = s.fab.outbox.erase p ∧ t.fab.waiting = s.fab.waiting ∧
        (∀ x ∈ t.fab.rtx, x.isFor p = true → x.sent = true) ∧
        t.fab.rtx.map Rtx.pkt = s.fab.rtx.map Rtx.pkt))) ∧
  (∀ (s : State) (i r : Nat) (e : Option Nat × Packet), s.live = true → s.fab.waiting[i]? = some e →
    e.2.dstPhys ≠ s.fab.phys → (e.1 = none → s.mayLeave e.2 = true) →
    exec (.decideAgain i r) s = .next (s.decide_ e.1 e.2 r)) ∧
  (∀ (s : State) (i : Nat) (e : Option Nat × Packet), s.live = true → s.fab.waiting[i]? = some e →
    (e.1 ≠ none → exec (.ageDiscard i) s = .next ((s.unpark e.2).bump 40 1)) ∧
    (e.1 = none → ∃ t, exec (.ageDiscard i) s = .next t ∧ t.aon 40 = s.aon 40 + 1 ∧ t.fab.rtx.map Rtx.pkt = s.fab.rtx.map Rtx.pkt ∧
      ∀ r ∈ t.fab.rtx, r.isFor e.2 = true → r.sent = true)) ∧
  (∀ (s : State) (r : Rtx), s.live = true → r ∈ s.fab.rtx → r.sent = true → r.pkt ∉ s.fab.outbox → (none, r.pkt) ∉ s.fab.waiting →
    (∀ x ∈ s.fab.rtx, x.pkt.cls = r.pkt.cls → x.pkt.dstLog = r.pkt.dstLog → x.pkt.seq = r.pkt.seq → x = r) →
    ∃ t, exec (.retransmitTimeout r.pkt.cls r.pkt.dstLog r.pkt.seq) s = .next t ∧ t.fab.outbox = s.fab.outbox ++ [r.pkt] ∧
      t.fab.rtx = s.fab.rtx ∧ t.aon 43 = s.aon 43 + 1)

/-! ### Streams and packets (R298, R387-R389, R407-R413, R535) -/

/-- A stream performs each number once: when a number has been taken it is a duplicate from then on, and every other number of
the window that has not been taken can still be taken (R408). -/
def Claims.StreamsPerformOnce : Prop :=
  ∀ (r : RxStream) (seq : BitVec 16), r.dist seq < 256 → r.win.getLsbD (r.dist seq) = false →
    let t := r.take (r.dist seq)
    (32768 ≤ t.dist seq ∨ (t.dist seq < 256 ∧ t.win.getLsbD (t.dist seq) = true)) ∧
    (∀ o : BitVec 16, o ≠ seq → r.dist o < 256 → r.win.getLsbD (r.dist o) = false →
      t.dist o < 256 ∧ t.win.getLsbD (t.dist o) = false) ∧
    (∀ o : BitVec 16, r.dist o < 256 → r.win.getLsbD (r.dist o) = true →
      32768 ≤ t.dist o ∨ (t.dist o < 256 ∧ t.win.getLsbD (t.dist o) = true))

/-- What precedes the performance of a sequenced packet: its age, a source that claims to be this module, a bad CRC, a wrong class, or
a number beyond the window discards it and counts; one of its class without a number is refused as malformed; another logical number is refused as moved; a duplicate is not performed, and is acknowledged again, but not while the signal it
repeats waits for a line of a host (R298, R388, R389, R390, R408, R413, R416). -/
def Claims.StreamChecks : Prop :=
  ∀ (c : Instr) (s : State) (p : Packet) (type cls : Nat), arrival c = some (p, type, cls) → arrivalDue c s → s.live = true →
    s.fab.placed = true → s.awake s.owner = true → p.type.toNat = type → p.dstPhys = s.fab.phys →
    let u := s.taken p
    let d := (s.rxOf p).dist p.seq
    (2000 ≤ p.age.toNat → (type ≠ 12 ∨ p.cls = 0) → exec c s = .next (u.bump 40 1)) ∧
    (p.age.toNat < 2000 → p.srcPhys = s.fab.phys → (none, p) ∉ s.fab.waiting → (type ≠ 12 ∨ p.cls = 0) →
      exec c s = .next u.collarClamp) ∧
    (Genuine s p → p.pcrc ≠ pktCrc p → (type ≠ 12 ∨ p.cls = 0) → exec c s = .next (u.bump 39 1)) ∧
    (Genuine s p → p.pcrc = pktCrc p → p.cls.toNat ≠ cls → type ≠ 12 → exec c s = .next (u.bump 41 1)) ∧
    (Genuine s p → p.pcrc = pktCrc p → p.cls.toNat = cls → p.seqd = false → exec c s = .next (u.refusePkt p 3)) ∧
    (Arrives s p type cls →
      ((p.dstLog ≠ s.fab.logical ∨ s.unknownStream p = true) → exec c s = .next (u.refusePkt p 4)) ∧
      (p.dstLog = s.fab.logical → s.unknownStream p = false →
        (256 ≤ d → d < 32768 → exec c s = .next (u.bump 41 1)) ∧
        ((32768 ≤ d ∨ (d < 256 ∧ (s.rxOf p).win.getLsbD d = true)) → type ≠ 2 →
          exec c s = .next (if (type = 6 ∨ type = 7) ∧ s.signalWaits p = true then u else u.ackPkt p))))

/-- An acknowledgement or refusal is answered with the packet's stream, number and tag. An acknowledgement is folded into one of
the same stream that has not left yet and covers the number, else it is an ACK of its own (R388, R409, R555). -/
def Claims.Acknowledgements : Prop :=
  ∀ (s : State) (p : Packet),
    let fits := fun (a : Packet) => a.type = 4 ∧ a.dstLog = p.srcLog ∧ a.arg1.toNat = p.cls.toNat ∧ a.gen = p.gen ∧
      (p.seq - a.seq).toNat < 64
    ((∀ a ∈ s.fab.outbox, ¬fits a) → (∀ a, (none, a) ∈ s.fab.waiting → ¬fits a) → ∃ a : Packet, s.ackPkt p = { s with fab := { s.fab with outbox := s.fab.outbox ++ [a] } } ∧
      a.type = 4 ∧ a.cls = 2 ∧ a.seqd = false ∧ a.seq = p.seq ∧ a.arg0 = 1 ∧ a.arg1.toNat = p.cls.toNat ∧ a.gen = p.gen ∧
      a.etag = p.etag ∧ a.dstPhys = p.srcPhys ∧ a.dstLog = p.srcLog ∧ a.srcPhys = s.fab.phys ∧ a.srcLog = s.fab.logical ∧
      a.pcrc = pktCrc a ∧ a.age = 0 ∧ a.hops = 0) ∧
    (((∃ a ∈ s.fab.outbox, fits a) ∨ ∃ a, (none, a) ∈ s.fab.waiting ∧ fits a) →
      let t := s.ackPkt p
      t = { s with fab := { s.fab with outbox := t.fab.outbox, waiting := t.fab.waiting } } ∧
      t.fab.outbox.length = s.fab.outbox.length ∧ t.fab.waiting.map Prod.fst = s.fab.waiting.map Prod.fst ∧
      ∃ a, (a ∈ t.fab.outbox ∨ (none, a) ∈ t.fab.waiting) ∧ fits a ∧ a.arg0.getLsbD (p.seq - a.seq).toNat = true ∧
        a.pcrc = pktCrc a) ∧
    (∀ k, k < 16 → ∃ a : Packet, s.refusePkt p k = { s with fab := { s.fab with outbox := s.fab.outbox ++ [a] } } ∧
      a.type = 5 ∧ a.cls = 2 ∧ a.seq = p.seq ∧ a.arg0 = 0 ∧ bits a.arg1.toNat 0 3 = p.cls.toNat ∧ bits a.arg1.toNat 4 4 = k ∧
      a.dstPhys = p.srcPhys ∧ a.pcrc = pktCrc a)

/-- WRITE stores the bytes that arg1 counts at arg0 and is acknowledged; READ is answered with RDATA of the bytes; each is
refused where its format, region or end fails. One of a cell under reset, of a line on its way back from a host, of a line in error, or of
granules that find no staging buffer waits (R198, R276, R312, R388, R413, R549). -/
def Claims.DataPackets : Prop :=
  ∀ (s : State) (p : Packet), FirstTime s p →
    let u := s.received p
    let o := p.arg0.toNat
    let n := p.arg1.toNat
    (Arrives s p 1 1 → (s.cellInReset o = true ∨ s.waitsBi o n = true ∨ s.stageOk o n = false) →
      exec (.write p) s = .next (s.park none p)) ∧
    (Arrives s p 2 1 → (s.cellInReset o = true ∨ s.waitsBi o n = true ∨ s.lostIn o n = true) →
      exec (.read p) s = .next (s.park none p)) ∧
    (Arrives s p 1 1 → arrivalDue (.write p) s →
      (dataOk p = false → exec (.write p) s = .next (u.refusePkt p 3)) ∧
      (∀ k, dataOk p = true → s.remoteBad true o n = some k → exec (.write p) s = .next (u.refusePkt p k)) ∧
      (dataOk p = true → s.remoteBad true o n = none → ∃ t : State, exec (.write p) s = .next (t.ackPkt p) ∧
        (∀ k, k < n → t.memByte (o + k) = p.data.getD k 0) ∧ (∀ a, (a < o ∨ o + n ≤ a) → t.memByte a = s.memByte a) ∧
        t.fab = u.fab)) ∧
    (Arrives s p 2 1 → arrivalDue (.read p) s →
      ((shortOk p = false ∨ n = 0 ∨ 4096 < n) → exec (.read p) s = .next (u.refusePkt p 3)) ∧
      (∀ k, shortOk p = true → 1 ≤ n → n ≤ 4096 → s.remoteBad false o n = some k →
        exec (.read p) s = .next (u.refusePkt p k)) ∧
      (shortOk p = true → 1 ≤ n → n ≤ 4096 → s.remoteBad false o n = none → ∃ a : Packet,
        exec (.read p) s = .next { u with fab := { u.fab with outbox := u.fab.outbox ++ [a] } } ∧ a.type = 3 ∧ a.cls = 2 ∧
          a.etag = p.etag ∧ a.gen = p.gen ∧ a.arg1.toNat = n ∧ a.data.take n = s.memBytes o n ∧
          a.data.length = 64 * a.plen.toNat ∧ a.plen.toNat = (n + 63) / 64 ∧ a.dstPhys = p.srcPhys))

/-- RDATA ends the READ that its tag and source name and delivers the bytes, unless its generation is stale; one that no READ
waits for is counted. The bytes are written with what else their owner reads of the same lines (R289, R388, R412, R555). -/
def Claims.ReadData : Prop :=
  ∀ (s : State) (p : Packet), Arrives s p 3 2 →
    let u := s.taken p
    ((∀ x ∈ s.fab.reads, ¬(x.etag = p.etag ∧ x.phys = p.srcPhys)) → exec (.rdata p) s = .next (u.bump 41 1)) ∧
    (∀ x, (s.fab.reads.filter fun x => x.etag == p.etag && x.phys == p.srcPhys) = [x] → dataOk p = true →
      p.arg1.toNat = x.len →
      (x.eng < 612 → p.gen ≠ s.gen x.eng → exec (.rdata p) s = .next ((u.endRead x).bump 42 1)) ∧
      (∀ o, x.eng < 612 → p.gen = s.gen x.eng → (u.endRead x).reach s.owner .data false false x.dest.toNat x.len = .ok (.loc o) →
        s.link.snoop = [] → s.link.bis = [] → (∀ f k, (s.frg f).frozen.get k = false) → (∀ id, x.owner ≠ .fetch id) →
        (∀ k, (s.cell k).frozen = 0 ∧ s.isAway k = false) → (∀ q ∈ s.far, q.owner = x.owner → q.wr = true) →
        (∀ y ∈ s.fab.reads, y.owner = x.owner → y = x) → (∀ g ∈ s.gather, g.owner ≠ x.owner) → s.fab.reads.Nodup →
        ∃ t, exec (.rdata p) s = .next t ∧ x ∉ t.fab.reads ∧
          (∀ k, k < x.len → t.memByte (o + k) = p.data.getD k 0) ∧
          (∀ a, (a < o ∨ o + x.len ≤ a) → t.memByte a = s.memByte a) ∧
          ∀ r ∈ t.fab.rtx, ¬(r.pkt.type = 2 ∧ r.pkt.etag = p.etag)) ∧
      (∀ id c l, x.eng < 612 → p.gen = s.gen x.eng → x.owner = .fetch id → s.cmd id = some c → c.fetch = some l →
        ∃ t, exec (.rdata p) s = .next t ∧ t.mem = s.mem ∧
          t.cmd id = some { c with fetch := some (l ++ [(x.dest.toNat, p.data.take x.len)]) }))

/-- Remote signals update an object of the fabric-owner partition, and are acknowledged when it is done; one of another
partition's object, or in a reset of the partition, is refused; MGMT and a RELAY at a module that is no manager are
acknowledged only (R303, R388, R413, R450). -/
def Claims.SignalPackets : Prop :=
  ∀ (s : State) (p : Packet), FirstTime s p →
    let u := s.received p
    let n := p.arg1.toNat
    (∀ set : Bool, Arrives s p (if set then 7 else 6) 0 → s.effectFull s.owner = false →
      let c := if set then Instr.sigsetPkt p else Instr.sigaddPkt p
      ((shortOk p = false ∨ 65536 ≤ n) → exec c s = .next (u.refusePkt p 3)) ∧
      (shortOk p = true → n < 65536 → (s.ownerReset = true ∨ s.partOfSync n ≠ s.owner) →
        exec c s = .next (u.refusePkt p 1)) ∧
      (shortOk p = true → n < 65536 → s.ownerReset = false → s.partOfSync n = s.owner → s.link.snoop = [] → s.link.bis = [] →
        ∃ t, exec c s = .next t ∧ t.obj n = (if set then p.arg0 else s.obj n + p.arg0) ∧
          ∀ m, m ≠ n → t.obj m = s.obj m)) ∧
    (Arrives s p 15 0 → shortOk p = true → exec (.mgmt p) s = .next (u.ackPkt p)) ∧
    (Arrives s p 8 3 → longOk p = true → s.ownerReset = false →
      ((s.swarm.role ≠ 3 ∨ s.fromSwarm p = false) → exec (.relay p) s = .next (u.ackPkt p)) ∧
      (s.swarm.role = 3 → s.fromSwarm p = true → ∃ t : State, exec (.relay p) s = .next (t.ackPkt p) ∧
        let r := Tab.get (fun _ => MemberRep.reset) s.swarm.reports p.srcLog.toNat
        Tab.get (fun _ => MemberRep.reset) t.swarm.reports p.srcLog.toNat =
          (if p.arg1.toNat = 2 then { r with retire := r.retire + 1 }
           else { r with escalate := r.escalate + 1, reason := bits p.arg0.toNat 0 8 }) ∧
        t.fab = u.fab))

/-- Answers: an ACK takes the packets whose numbers it acknowledges out of the retransmit store and counts a write or a signal
as completed once; a number that is not there changes nothing. A refused packet leaves the store, and as moved it is sent
again to the module that now serves the number (R298, R409, R410, R413, R535, R556). -/
def Claims.PacketAnswers : Prop :=
  ∀ (s : State) (p : Packet),
    (∀ r : Rtx, Arrives s p 4 2 → p.arg0 = 1 → r.pkt.type = 1 → r.eng < 612 → p.gen = s.gen r.eng →
      r.pkt.cls ≠ 0 →
      (s.fab.rtx.filter fun x => x.pkt.dstLog == p.srcLog && x.pkt.cls.toNat == p.arg1.toNat % 8 && x.pkt.seq == p.seq) = [r] →
      ∃ t, exec (.ack p) s = .next t ∧ t.fab.rtx = s.fab.rtx.erase r ∧
        Tab.get (fun _ => 0) t.fab.acked r.eng = Tab.get (fun _ => 0) s.fab.acked r.eng + 1 ∧
        (∀ e, e ≠ r.eng → Tab.get (fun _ => 0) t.fab.acked e = Tab.get (fun _ => 0) s.fab.acked e)) ∧
    (Arrives s p 4 2 → (∀ r ∈ s.fab.rtx, ¬(r.pkt.dstLog = p.srcLog ∧ r.pkt.cls.toNat = p.arg1.toNat % 8)) →
      s.swarm.taking = none → exec (.ack p) s = .next (s.taken p)) ∧
    (Arrives s p 5 2 →
      (∀ r ∈ s.fab.rtx, ¬(r.pkt.dstPhys = p.srcPhys ∧ r.pkt.cls.toNat = p.arg1.toNat % 8 ∧ r.pkt.seq = p.seq)) →
      exec (.refuse p) s = .next (s.taken p)) ∧
    (∀ r : Rtx, Arrives s p 5 2 →
      (s.fab.rtx.filter fun x => x.pkt.dstPhys == p.srcPhys && x.pkt.cls.toNat == p.arg1.toNat % 8 && x.pkt.seq == p.seq) = [r] →
      (bits p.arg1.toNat 4 4 ≠ 4 → exec (.refuse p) s = .next ((s.taken p).endRefused r p (bits p.arg1.toNat 4 4))) ∧
      (bits p.arg1.toNat 4 4 = 4 → (s.route r.pkt.dstLog.toNat).phys ≠ r.pkt.dstPhys →
        ∃ t q, exec (.refuse p) s = .next t ∧ t.fab.rtx.length = s.fab.rtx.length ∧ q ∈ t.fab.outbox ∧
          q = { r.pkt with dstPhys := (s.route r.pkt.dstLog.toNat).phys, pcrc := q.pcrc } ∧ q.pcrc = pktCrc q))

/-! ### Collectives (R420-R448) -/

/-- A collective starts in its turn. One whose number has passed, or at a module that admission has turned away, ends with
`FORMAT`; one whose number is not the next of its
team, or whose sixteenth predecessor is in progress, waits; one that was aborted, or whose early packets carry another
agreement code, starts and ends with `FORMAT`; else the waggle path sends its first stage and the chunked path its first
grants, which the empty accumulator store does not limit. Its start waits while data of its send buffer await a repair or a line of it is with a host, and where a buffer's memory is
gone its command ends with `ABORTED` unless a substitution follows (R198, R216, R312, R426, R427, R435, R437, R441, R451). -/
def Claims.CollectiveStart : Prop :=
  ∀ (s : State) (id op : Nat) (i : Instr) (c : Coll),
    (i, op) ∈ [(Instr.allreduce id, 1), (Instr.reduceScatter id, 2), (Instr.allgather id, 3), (Instr.broadcast id, 4),
      (Instr.barrier id, 5), (Instr.allToAll id, 6)] →
    s.live = true → s.coll_ id = some c → cop c.d = op → c.started = false → c.ready = false → s.serving c.part = true →
    s.collRuns = true → (∀ w ∈ s.waits, w.who ≠ .collective id) →
    let k := cteam c.d
    let n := cseqOf c.d
    let blocked := ∃ e ∈ s.coll.colls, e.started = true ∧ e.owns k ((n + 2 ^ 32 - 16) % 2 ^ 32) = true
    ((s.future k n = false ∨ s.swarm.turned = true) →
      exec i s = .next (s.setColl { c with ready := true, status := 2, t0 := s.now, lastTime := s.now })) ∧
    (s.future k n = true → s.swarm.turned = false → (n ≠ (s.teamSeq k).next ∨ blocked) → exec i s = .next s) ∧
    let m := (s.teamOf c).size
    let a := csend c.d
    let len := sendBytes c.d m (s.rankIn c)
    let gone := s.goneIn a len = true ∨ s.goneIn (crecv c.d) (recvBytes c.d m) = true
    (n = (s.teamSeq k).next → s.future k n = true → s.swarm.turned = false → ¬blocked →
      (gone → exec i s = if s.substitutes c.part then .next s else .next (foldS State.abortCmd s (s.collCmds c))) ∧
      let waits := s.lostIn a len = true ∨ s.resetHolds (crecv c.d) (recvBytes c.d m) = true
      (¬gone → waits → exec i s = .next s) ∧
      (¬gone → ¬waits → s.heldIn a len = true →
        (s.heldLines a len = [] → exec i s = .next s) ∧
        (s.heldLines a len ≠ [] → exec i s = .next (s.invalidate (s.heldLines a len).eraseDups))) ∧
      (¬gone → ¬waits → s.heldIn a len = false → s.badWords a len = [] →
      (n ∈ (s.teamSeq k).aborted → ∃ t c', exec i s = .next t ∧ t.coll_ id = some c' ∧ c'.ready = true ∧ c'.status = 2 ∧
        (t.teamSeq k).next = (n + 1) % 2 ^ 32) ∧
      (n ∉ (s.teamSeq k).aborted → (∃ a ∈ s.earlyCodes c, a ≠ agreement c.d (s.teamOf c)) → ∃ t c', exec i s = .next t ∧
        t.coll_ id = some c' ∧ c'.ready = true ∧ c'.status = 2 ∧ t.aon 47 = s.aon 47 + 1) ∧
      (n ∉ (s.teamSeq k).aborted → s.earlyCodes c = [] → (s.wentry k n).pieces = [] → c.stage = 0 → c.mask = [] →
        c.grants = [] → ∃ t c', exec i s = .next t ∧ t.coll_ id = some c' ∧ c'.started = true ∧
          (t.teamSeq k).next = (n + 1) % 2 ^ 32 ∧ c'.t0 = s.now ∧
          (takesWaggle c.d (s.teamOf c).size = true → t.mem = s.mem ∧ c'.stage = 0 ∧
            c'.state = wireOf c.d (s.rankIn c == croot c.d)
              (s.memBytes (csend c.d) (sendBytes c.d (s.teamOf c).size (s.rankIn c))) ∧
            ∃ l, t.fab.outbox = s.fab.outbox ++ l ∧ l.length = wirePieces c.d ∧ ∀ q ∈ l, q.type = 13 ∧ q.cls = 0 ∧
              q.arg1 = BitVec.ofNat 32 (agreement c.d (s.teamOf c)) ∧ q.dstLog = BitVec.ofNat 12
                ((s.teamOf c).member (s.rankIn c - s.rankIn c % 8 + neighbour 0 (s.rankIn c % 8)))) ∧
          (takesWaggle c.d (s.teamOf c).size = false → (∀ u, u < 3 → s.storeUsed u = 0) → ∀ r ∈ s.collPeers c, c'.granted 0 r =
            if csyncs c.d then 1
            else min 8 (chunksOf (recvSpan c.d (s.teamOf c).size (s.rankIn c) 0 r).2)))))

/-- WAGGLE, GRANT and COLDATA: a packet with another agreement code ends the collective at every member; one of a collective that
has not started is kept; a piece, and a chunk, counts once; a chunk that was granted is written where it belongs; a
grant counts only from a member of the team. Where a packet lets a sum be made, a residue mismatch that a repeat clears is counted and
changes nothing else; a repeated one is found before anything is read out, and ends the collective without its signal (R182, R414, R427,
R437-R443, R549, R551). -/
def Claims.CollectivePackets : Prop :=
  ∀ (s : State) (p : Packet), FirstTime s p → s.ownerReset = false → s.swarm.turned = false →
    let u := s.received p
    let a := p.arg0.toNat
    let k := packetTeam p
    let n := packetCseq p
    (Arrives s p 13 0 → longOk p = true → bits a 36 3 ≤ 4 →
      let x := (bits a 36 3, bits a 42 12, bits a 39 3)
      let w := s.wentry k n
      (∀ c, s.running k n = some c → p.arg1.toNat ≠ agreement c.d (s.teamOf c) →
        exec (.waggle ⟨p, .none⟩) s = .next ((u.disagree c).ackPkt p)) ∧
      (∀ c, s.running k n = some c → p.arg1.toNat = agreement c.d (s.teamOf c) → x ∈ w.mask →
        exec (.waggle ⟨p, .none⟩) s = .next (u.ackPkt p)) ∧
      (∀ c, s.running k n = some c → p.arg1.toNat = agreement c.d (s.teamOf c) → x ∉ w.mask → w.pieces = [] → c.waggle = true →
        s.collRuns = true → c.stage = x.1 → wirePieces c.d = 1 → x.2.2 = 0 →
        stagePartners (s.teamOf c).size (s.rankIn c) c.stage = [x.2.1] →
        ∃ t : State, ∃ c', exec (.waggle ⟨p, .none⟩) s = .next (t.ackPkt p) ∧ t.coll_ c.id = some c' ∧ c.stage < c'.stage ∧
          (c'.stage = c.stage + 1 → c'.state = wireMix c.d c.state (p.data.take (wireBytes c.d)))) ∧
      (s.running k n = none → s.future k n = true → x ∉ w.mask → ∃ t : State, exec (.waggle ⟨p, .none⟩) s = .next (t.ackPkt p) ∧
        t.wentry k n = { w with mask := w.mask ++ [x], pieces := w.pieces ++ [(x.1, x.2.1, x.2.2, p.data)],
                                codes := w.codes ++ [p.arg1.toNat] } ∧
        t = { u with coll := { u.coll with waggle := t.coll.waggle } }) ∧
      (s.running k n = none → s.future k n = false → exec (.waggle ⟨p, .none⟩) s = .next (u.ackPkt p))) ∧
    (Arrives s p 10 0 → shortOk p = true → (s.team k).rankOf p.srcLog.toNat = none → exec (.grant p) s = .next (u.ackPkt p)) ∧
    (Arrives s p 10 0 → shortOk p = true → ∀ frm, (s.team k).rankOf p.srcLog.toNat = some frm →
      (∀ c, s.running k n = some c → p.arg1.toNat ≠ agreement c.d (s.teamOf c) →
        exec (.grant p) s = .next ((u.disagree c).ackPkt p)) ∧
      (∀ c, s.running k n = some c → p.arg1.toNat = agreement c.d (s.teamOf c) →
        ∃ t : State, ∃ g, exec (.grant p) s = .next (t.ackPkt p) ∧ t.coll.credits = s.coll.credits ++ [g] ∧ g.team = k ∧
          g.cseq = n ∧ g.frm = frm ∧ g.first = bits a 37 19 ∧ g.n = min 8 (bits a 56 4)) ∧
      (s.running k n = none → s.future k n = false → exec (.grant p) s = .next (u.ackPkt p))) ∧
    (Arrives s p 9 4 → coldataOk p = true →
      let i := bits p.arg1.toNat 13 19
      let len := bits p.arg1.toNat 0 13
      let r := bits a 37 12
      let phase := bits a 36 1
      (s.running k n = none → exec (.coldata ⟨p, .none⟩) s = .next (u.ackPkt p)) ∧
      (∀ c, s.running k n = some c →
        let w := recvSpan c.d (s.teamOf c).size (s.rankIn c) phase r
        ((c.granted phase r ≤ i ∨ len ≠ chunkLen w.2 i ∨ (phase, r, i) ∈ c.mask) →
          exec (.coldata ⟨p, .none⟩) s = .next (u.ackPkt p)) ∧
        (i < c.granted phase r → len = chunkLen w.2 i → (phase, r, i) ∉ c.mask → creduces c.d = false →
          c.waggle = false → s.link.snoop = [] → s.link.bis = [] → s.flips = [] → (∀ f k, (s.frg f).frozen.get k = false) →
          (∀ x, (s.cell x).frozen = 0 ∧ s.isAway x = false) →
          (∀ e ∈ s.coll.colls, e.id = c.id ∨ e.started = false ∨ e.ready = true) →
          ∃ t : State, ∃ c', exec (.coldata ⟨p, .none⟩) s = .next (t.ackPkt p) ∧ t.coll_ c.id = some c' ∧
            c'.mask = c.mask ++ [(phase, r, i)] ∧
            (∀ j, j < len → t.memByte (w.1 + 4096 * i + j) = p.data.getD j 0) ∧
            ∀ q, (q < w.1 + 4096 * i ∨ w.1 + 4096 * i + len ≤ q) → t.memByte q = s.memByte q))) ∧
    (Arrives s p 13 0 → longOk p = true → bits a 36 3 ≤ 4 → ∀ c, s.running k n = some c →
      p.arg1.toNat = agreement c.d (s.teamOf c) → (bits a 36 3, bits a 42 12, bits a 39 3) ∉ (s.wentry k n).mask →
      ∃ v : State, v.mem = s.mem ∧ ∀ e, exec (.waggle ⟨p, e⟩) s = .next ((v.driveChecked c e).ackPkt p)) ∧
    (∀ (v : State) (c : Coll), creduces c.d = true → csyncs c.d = false →
      ((v.drive c.id).summed c.id = v.summed c.id → ∀ e, v.driveChecked c e = v.drive c.id) ∧
      ((v.drive c.id).summed c.id ≠ v.summed c.id → v.driveChecked c .none = v.drive c.id ∧
        v.driveChecked c .repeated = ((v.drive c.id).bump 52 1).bumpPart c.part 19 1 ∧
        let t := v.driveChecked c .lasting
        (∀ e ∈ t.coll.colls, e.id ≠ c.id) ∧ t.sigs = v.sigs ∧ t.aon 52 = v.aon 52 + 1 ∧
        ∀ q ∈ t.fab.outbox, q ∈ v.fab.outbox ∨ (q.type ≠ 9 ∧ q.type ≠ 10 ∧ q.type ≠ 13)))

/-- A collective whose result is written gives up its place and its packets, signals its done object, gives its command its
status, and records who arrived last and how long that took (R434, R447, R448). -/
def Claims.CollectiveCompletes : Prop :=
  ∀ (s : State) (id : Nat) (c : Coll), s.live = true → s.coll_ id = some c → c.ready = true → s.link.bis = [] → id < s.nextId →
    (∀ e ∈ s.coll.colls, e.id = id ∨ e.started = false ∨ e.ready = true) →
    ∃ t, exec (.collectiveComplete id) s = .next t ∧ (∀ e ∈ t.coll.colls, e.id ≠ id) ∧
      t.coll.lastLaggard = c.lastRank ∧ t.coll.lastWait = min ((c.lastTime - c.t0).toNat / 100) (2 ^ 20 - 1) ∧
      (s.barF 0x040008 0 16 < (c.lastTime - c.t0).toNat / 100 →
        t.coll.lagCount = min (s.coll.lagCount + 1) (2 ^ 24 - 1)) ∧
      ((c.lastTime - c.t0).toNat / 100 ≤ s.barF 0x040008 0 16 → t.coll.lagCount = s.coll.lagCount) ∧
      (∀ o, dfield c.d 0x20 0 64 ≠ 0 → s.syncRef c.part (dfield c.d 0x20 0 64) = .loc o →
        ∃ g ∈ t.sigs, g.obj = o ∧ g.set = false ∧ g.v = 1) ∧
      (∀ k j, c.issuer = .cmd j → s.cmd j = some k → t.cmd j =
        some { k with phase := .finished, status := if k.status = 0 then c.status else k.status })

/-- An allreduce divides its result into one segment for each member: the segments follow each other and cover the result
(R440). -/
def Claims.CollectiveSegments : Prop :=
  ∀ d n, 0 < n → segStart d n 0 = 0 ∧ segStart d n n = cblock d ∧ (∀ r, r < n → segStart d n r ≤ segStart d n (r + 1)) ∧
    ((List.range n).map (segBytes d n)).sum = cblock d

/-- The waggle path reaches every member: in each of its five stages the partners of a rank have that rank as partner, and
from any rank every rank of the team is reached by going through the stages in order (R435, R437). -/
def Claims.WaggleReachesAll : Prop :=
  ∀ n, inStages n = true →
    (∀ a b k, a < n → k < 5 → b ∈ stagePartners n a k → b < n ∧ a ∈ stagePartners n b k) ∧
    ∀ a b, a < n → b < n → ∃ x1 x2 x3 x4,
      (x1 = a ∨ x1 ∈ stagePartners n a 0) ∧ (x2 = x1 ∨ x2 ∈ stagePartners n x1 1) ∧ (x3 = x2 ∨ x3 ∈ stagePartners n x2 2) ∧
      (x4 = x3 ∨ x4 ∈ stagePartners n x3 3) ∧ (b = x4 ∨ b ∈ stagePartners n x4 4)

/-! ### The swarm (R399, R449-R457, R503, R539, R570) -/

/-- SWARM packets. One of a reserved subtype is refused as malformed; one of a lower term, from one that may not send it, or at a module
without a role is discarded, counted and reported with reason 38; one of a higher term ends the duties of an old manager; else a heartbeat clears the count of those missed, a table update puts a route in effect, the manager
admits a module of its architecture revision and rejects and reports another, a member takes its result, a new manager's
term, notices (those of an epoch that is abandoned too), aborts and boundary requests their effect; each is acknowledged (R399, R413, R427, R451-R456, R506, R508, R520; logs 138, 145). -/
def Claims.SwarmPackets : Prop :=
  ∀ (s : State) (p : Packet), Arrives s p 14 0 → FirstTime s p →
    let u := s.received p
    let m := p.srcLog.toNat
    let term := termOf p
    let drop := fun k => Host.Outcome.next ((u.dropSwarm p k).ackPkt p)
    let newer := s.swarm.role = 3 ∧ s.swarm.term < term
    let good := s.inRole = true ∧ s.swarm.term ≤ term ∧ ¬newer
    (∀ c k, (c, k) ∈ [(Instr.swarmHeartbeat p, 1), (.tableUpdate p, 2), (.admissionRequest p, 3), (.admissionResult p, 4),
        (.takeover p, 5), (.faultNotice p, 6), (.collectiveAbort p, 7), (.boundaryRequest p, 8)] →
      ((subtypeOf p = 0 ∨ 11 < subtypeOf p) → exec c s = .next (u.refusePkt p 3)) ∧
      (subtypeOf p = k →
        ((if k = 2 ∨ k = 3 ∨ k = 7 then longOk p else shortOk p) = true → (s.inRole = false ∨ term < s.swarm.term) → ¬newer →
          exec c s = drop k) ∧
        (k ≠ 5 → newer → m ≠ s.fab.logical.toNat → (m ∈ s.swarm.deputies ∨ m ∈ s.swarm.members ∨ m ∈ s.swarm.spares) →
          ∃ t, exec c s = .next t ∧ t.swarm.role ≠ 3 ∧ t.swarm.term = term))) ∧
    (subtypeOf p = 1 → shortOk p = true → good →
      ((s.fromManager p = true ∨ (s.swarm.role = 3 ∧ s.fromSwarm p = true)) → s.swarm.role ≠ 2 →
        exec (.swarmHeartbeat p) s = .next ((u.setMissed m 0).ackPkt p)) ∧
      ((s.fromManager p = true ∨ s.fromSwarm p = true) → s.swarm.role = 2 → ∃ t : State,
        exec (.swarmHeartbeat p) s = .next (t.ackPkt p) ∧ t.missedOf m = 0 ∧ m ∈ t.swarm.admittedM) ∧
      (s.fromManager p = false → (s.fromSwarm p = false ∨ (s.swarm.role ≠ 2 ∧ s.swarm.role ≠ 3)) →
        exec (.swarmHeartbeat p) s = drop 1)) ∧
    (subtypeOf p = 2 → longOk p = true → good → (s.fromHeads p = true → exec (.tableUpdate p) s = .next
        ((u.setRoute (p.arg1.toNat % 4096) (BitVec.ofNat 12 (operandF p 0 4)) (bit (operandF p 0 4) 12)).ackPkt p)) ∧
      (s.fromHeads p = false → exec (.tableUpdate p) s = drop 2)) ∧
    (subtypeOf p = 3 → longOk p = true → good → s.swarm.role = 3 → s.fromSwarm p = true →
      (operandF p 0 2 = s.arev → ∃ t : State, exec (.admissionRequest p) s = .next (t.ackPkt p) ∧ m ∈ t.swarm.admittedM ∧
        Tab.get (fun _ => 0) t.swarm.serials m = BitVec.ofNat 64 (operandF p 8 8)) ∧
      (operandF p 0 2 ≠ s.arev → exec (.admissionRequest p) s =
        .next (((({ u with swarm := { u.swarm with admittedM := u.swarm.admittedM.filter fun x => x != m } }).swarmSend m 4 0
          []).escalate s.owner 33 m (operandF p 0 2 + s.arev * 2 ^ 16)).ackPkt p))) ∧
    (subtypeOf p = 4 → shortOk p = true → good → s.fromManager p = true → ∃ t : State,
      exec (.admissionResult p) s = .next (t.ackPkt p) ∧
      (p.arg1 = 1 → t.swarm = { s.swarm with admitted := true, turned := false }) ∧
      (p.arg1 ≠ 1 → t.swarm = { s.swarm with admitted := false, role := 0, turned := true })) ∧
    (subtypeOf p = 5 → shortOk p = true → s.inRole = true → s.swarm.term < term → m ∈ s.swarm.deputies →
      ∃ t : State, exec (.takeover p) s = .next (t.ackPkt p) ∧ t.swarm.manager = m ∧ t.swarm.term = term ∧
        (s.swarm.role = 3 → m ≠ s.fab.logical.toNat → t.swarm.role ≠ 3)) ∧
    (subtypeOf p = 6 → shortOk p = true → good → s.swarm.role = 3 → s.fromSwarm p = true →
      ∃ t : State, exec (.faultNotice p) s = .next (t.ackPkt p) ∧
        (p.arg1 ∈ [1, 2, 5] → t.swarm = { s.swarm with notices := s.swarm.notices ++ [(m, 2)] }) ∧
        (p.arg1 ∉ [1, 2, 5] → p.arg1 ≠ 17 → p.arg1 ≠ 37 → t.swarm = s.swarm) ∧ (p.arg1 = 37 → t = u.noSpare m) ∧
        (p.arg1 = 17 → (t.epochOf s.owner).recWant = true ∧ (t.epochOf s.owner).failedM = m ∧
          (t.epochOf s.owner).spareM = m)) ∧
    (subtypeOf p = 6 → shortOk p = true → good → bits p.arg1.toNat 0 8 ∈ [3, 4] →
      (if s.swarm.role = 3 then s.fromSwarm p else s.fromManager p) = true → ∃ t : State,
      exec (.faultNotice p) s = .next (t.ackPkt p) ∧
      (∀ q, q ≠ s.owner → t.epochOf q = s.epochOf q) ∧
      ((s.epochOf s.owner).step ≠ 0 → (s.epochOf s.owner).epoch % 2 ^ 24 = bits p.arg1.toNat 8 24 →
        (t.epochOf s.owner).step = 0 ∧ (t.epochOf s.owner).committed = (s.epochOf s.owner).committed) ∧
      ((s.epochOf s.owner).epoch % 2 ^ 24 ≠ bits p.arg1.toNat 8 24 → t.epochOf s.owner = s.epochOf s.owner)) ∧
    (subtypeOf p = 7 → longOk p = true → good → ((s.team (p.arg1.toNat % 16)).rankOf m).isSome = true →
      ∃ t : State, exec (.collectiveAbort p) s = .next (t.ackPkt p) ∧
        operandF p 0 4 ∈ (t.teamSeq (p.arg1.toNat % 16)).aborted ∧
        ∀ c ∈ s.coll.colls, c.started = true → c.ready = false → cteam c.d = p.arg1.toNat % 16 → cseqOf c.d = operandF p 0 4 →
          { c with ready := !s.agreed c, status := 2 } ∈ t.coll.colls) ∧
    (subtypeOf p = 8 → shortOk p = true → good → s.swarm.role = 3 → s.fromSwarm p = true →
      exec (.boundaryRequest p) s = .next ((u.requestBoundary s.owner (p.arg1 == 1)).ackPkt p))

/-- A routing entry put in effect; one that is marked failed ends what waits for the module; one that names this spare gives it
the number (R398, R399, R532, R539). -/
def Claims.RoutesInEffect : Prop :=
  ∀ (s : State) (n : Nat) (phys : BitVec 12) (valid : Bool), n < 4096 →
    let t := s.setRoute n phys valid
    (t.route n).phys = phys ∧ (t.route n).valid = valid ∧ (t.route n).mask = (s.route n).mask ∧
    (∀ m, m ≠ n → t.route m = s.route m) ∧
    (valid = false → ∀ r ∈ t.fab.rtx, r.pkt.dstLog.toNat ≠ n) ∧ (n ∈ t.swarm.marked ↔ valid = false) ∧
    (valid = true → phys = s.fab.phys → s.fab.logical.toNat ≠ n → s.swarm.role = 4 → t.fab.logical.toNat = n ∧ t.swarm.role = 1) ∧
    (valid = true → phys ≠ s.fab.phys → s.fab.logical.toNat = n → t.swarm.role = 0 ∧ t.swarm.admitted = false)

/-- Heartbeats of an admitted module are sent each interval and one more is missed from each sender; a deputy whose manager is silent
takes over with the next term, and reports it when what it has told the others is acknowledged; without a deputy failures are not substituted; the manager declares a member failed for which it has a cause
and chooses a spare that it has admitted, or marks the number failed (R452, R454, R455, R457, R503, R539). -/
def Claims.SwarmFailures : Prop :=
  ∀ (s : State), s.live = true →
    (s.inRole = true → s.swarm.hbStopped = false → ∃ t, exec .swarmHeartbeatSend s = .next t ∧
      (∀ m, t.missedOf m = s.missedOf m + s.watchedBy.count m) ∧ (∃ l, t.fab.outbox = s.fab.outbox ++ l ∧
        l.length = (if s.swarm.admitted then s.beatTo.length else 0) ∧ ∀ q ∈ l, q.type = 14 ∧ subtypeOf q = 1) ∧
      Reported { s with swarm := { s.swarm with missed := t.swarm.missed } } t) ∧
    (s.swarm.role = 2 → s.swarm.admitted = true → 3 ≤ s.missedOf s.swarm.manager → s.fab.logical.toNat ∈ s.swarm.deputies →
      s.swarm.manager ≠ s.fab.logical.toNat → ∃ t, exec .managerLost s = .next t ∧ t.swarm.role = 3 ∧
        t.swarm.manager = s.fab.logical.toNat ∧ t.swarm.term = s.swarm.term + 1 ∧ (s.swarm.manager, 1) ∈ t.swarm.notices ∧
        (∀ m ∈ t.swarm.admittedM, m = s.fab.logical.toNat ∨ m ∈ s.swarm.admittedM) ∧
        ((s.epochOf s.owner).recStep = 0 → (t.swarm.taking = none ∧ t.aon 47 = s.aon 47 + 1) ∨
          (t.swarm.taking = some s.swarm.manager ∧ t.aon 47 = s.aon 47 ∧ ∃ r ∈ t.fab.rtx, r.pkt.type = 14))) ∧
    (∀ p r old, Arrives s p 4 2 → s.swarm.taking = some old → s.swarm.pending = [] → s.fab.rtx = [r] → r.pkt.dstLog = p.srcLog →
      r.pkt.cls.toNat = p.arg1.toNat % 8 → r.pkt.seq = p.seq → p.arg0 = 1 → ∃ t, exec (.ack p) s = .next t ∧
        t.swarm.taking = none ∧ t.aon 47 = s.aon 47 + 1) ∧
    (s.inSwarm = true → s.swarm.role ≠ 3 → s.deputy = none → 3 ≤ s.missedOf s.swarm.manager → s.swarm.headless = false →
      ∃ t, exec .noManager s = .next t ∧ t.swarm.headless = true ∧ (∀ m, t.substitutes m = false) ∧ t.aon 47 = s.aon 47 + 1) ∧
    (∀ m cause, m < 4096 → s.swarm.role = 3 → m ∈ s.swarm.members → m ∉ s.swarm.failed → m ∉ s.swarm.spares →
      s.failCause m = some cause → ∃ t, exec (.memberDeclaredFailed m) s = .next t ∧ m ∈ t.swarm.failed ∧
        (∀ e ∈ t.swarm.notices, e.1 ≠ m) ∧
        (∀ x, s.nextSpare = some x → (t.epochOf s.owner).recWant = true ∧ (t.epochOf s.owner).failedM = m ∧
          (t.epochOf s.owner).spareM = x ∧ t.aon 47 = s.aon 47 + 1) ∧
        (s.nextSpare = none → t.aon 47 = s.aon 47 + 2 ∧ (s.deputy = none → (t.route m).valid = false)))

/-- QUENCH holds back the originated packets of a module, by reason 1 stops the engines of the fabric-owner partition for a
recovery, and by reason 2 begins a freeze; its release undoes that; one of a reserved action is refused as malformed (R413, R418, R456, R532, R570). -/
def Claims.QuenchPackets : Prop :=
  ∀ (s : State) (p : Packet), Arrives s p 11 0 → FirstTime s p → shortOk p = true →
    let u := s.received p
    let newer := s.swarm.role = 3 ∧ s.swarm.term < bits p.arg0.toNat 16 32
    let good := s.inRole = true ∧ s.fromHeads p = true ∧ s.swarm.term ≤ bits p.arg0.toNat 16 32 ∧ ¬newer
    let r := quenchReason p
    ((quenchAct p = 0 ∨ quenchAct p = 3) → exec (.quench p) s = .next (u.refusePkt p 3) ∧
      exec (.quenchRelease p) s = .next (u.refusePkt p 3)) ∧
    (quenchAct p = 1 → (¬good → ¬newer → exec (.quench p) s = .next ((u.dropSwarm p 1).ackPkt p)) ∧
      (good → ∃ t : State, exec (.quench p) s = .next (t.ackPkt p) ∧ r ∈ t.swarm.quench ∧
        (∀ q : Packet, q.cls ≠ 0 → q.cls ≠ 2 → s.boot.oscHeld = false → t.mayLeave q = false) ∧
        (r = 1 → (s.epochOf s.owner).recStep ≤ 5 →
          (t.epochOf s.owner).stopped = true ∧ 2 ≤ (t.epochOf s.owner).recStep) ∧
        (r = 2 → (t.epochOf s.owner).freezing = true ∧ t.dbg.frState = 1))) ∧
    (quenchAct p = 2 → (¬good → ¬newer → exec (.quenchRelease p) s = .next ((u.dropSwarm p 2).ackPkt p)) ∧
      (good → ∃ t : State, exec (.quenchRelease p) s = .next (t.ackPkt p) ∧ r ∉ t.swarm.quench ∧
        (∀ x, x ∈ t.swarm.quench ↔ x ∈ s.swarm.quench ∧ x ≠ r) ∧
        (r = 1 → (s.epochOf s.owner).recStep ≠ 0 → (t.epochOf s.owner).recStep = 6) ∧
        (r = 2 → (t.epochOf s.owner).freezing = false ∧ t.dbg.frState = 0)))

/-! ### Power (R13, R458-R488, R501, R664) -/

/-- The effective cap is the least of the settings and protections in force; its source is that of the first of equal ones
(R467). -/
def Claims.EffectiveCap : Prop :=
  ∀ s : State, s.capNow ∈ s.caps ∧ (∀ c ∈ s.caps, s.cap ≤ c.1) ∧
    (∀ (i : Nat) (c : Nat × Nat), s.caps[i]? = some c → c.1 = s.cap → ∃ j : Nat, j ≤ i ∧ s.caps[j]? = some s.capNow) ∧
    ((s.power.brake = true ∨ s.power.vinBrake = true ∨ s.power.fastCut = true) → s.cap ≤ 900) ∧
    (s.power.coast = true → s.cap ≤ s.power.env * 40 / 100) ∧ (s.power.guarded = true → s.cap ≤ s.power.env * 60 / 100)

/-- BRAKE# and a low input put every comb at operating point 0, halve memory and hold originated traffic, and cap the module at
900 W; the brake lasts at least 1 ms; with the main domain off the pin is only noted (R481, R482, R664, R674). -/
def Claims.Brake : Prop :=
  ∀ s : State,
    let braked := fun (t : State) => (∀ c, c < 64 → Tab.get (fun _ => 15) t.power.gov c = 0) ∧ t.power.memPct = 50 ∧
      t.power.linkPct = 0 ∧ t.cap ≤ 900 ∧ t.cells = s.cells ∧ t.cmds = s.cmds
    (s.live = true → s.power.brakePin = false → ∃ t, exec .brakeAssert s = .next t ∧ t.power.brakePin = true ∧
      t.power.brake = true ∧ t.power.brakeAt = s.now ∧ t.mgmt.brakeAt = some s.now ∧ braked t) ∧
    (s.boot.standby = true → s.live = false → s.power.brakePin = false → exec .brakeAssert s = .next { s with
      power := { s.power with brakePin := true }, mgmt := { s.mgmt with brakeAt := some s.now } }) ∧
    (s.boot.standby = true → s.power.brakePin = true → (s.live = false ∨ s.power.brake = false ∨ s.brakeHeld = false) →
      exec .brakeRelease s = .next { s with power := { s.power with brakePin := false } }) ∧
    (s.live = true → s.power.brakePin = true → s.power.brake = true → s.brakeHeld = true →
      ∃ t, exec .brakeRelease s = .next t ∧ t.power.brakePin = false ∧ t.power.brake = false ∧ t.power.gov = s.power.gov) ∧
    (s.live = true → s.power.vinBrake = false → ∃ t, exec .vinUndervoltage s = .next t ∧ t.power.vinBrake = true ∧ braked t) ∧
    (s.live = true → s.power.vinBrake = true → ∃ t, exec .vinRecover s = .next t ∧ t.power.vinBrake = false ∧
      t.power.brake = s.power.brake ∧ t.power.gov = s.power.gov)

/-- The governor: a sample enters the window, and a rail that it shows at its limit puts its islands in droop; the loop lowers rail
limits as firmware asks and never raises one, ends a brake that was released and a fast cut, each after 1 ms, moves each die's allowance by its hottest trusted sensor, and, unless a brake is in force, sets the
controls within their ranges; governed power rises by at most a quarter of ramp, and a domain that does not rise takes its share at
once (R458, R469, R475, R476, R482, R483, R492; log 119). -/
def Claims.Governor : Prop :=
  ∀ s : State, s.live = true →
    (∀ r, readingOk r = true → ∃ t, exec (.powerSample r) s = .next t ∧
      t = { s with power := { s.power with wins := (r :: s.power.wins).take 20 }, boot := { s.boot with droop := t.boot.droop } } ∧
      ∀ i, i ∈ t.boot.droop ↔ i ∈ s.boot.droop ∨ ∃ k, k < 22 ∧ s.railLimit k ≤ railCurrent r k ∧ i ∈ railIslands k) ∧
    (∀ (old new : Give) (step : Nat), (old.ramp new step).sum ≤ old.sum + step ∧
      (new.links ≤ old.links → (old.ramp new step).links = new.links) ∧ (new.mem ≤ old.mem → (old.ramp new step).mem = new.mem) ∧
      (new.comp ≤ old.comp → (old.ramp new step).comp = new.comp)) ∧
    (∀ m, s.power.running = true → ∃ t, exec (.governorLoop m) s = .next t ∧
      (t.power.fastCut = true ↔ s.power.fastCut = true ∧ s.fastHeld = false) ∧
      (∀ k, t.railAmps k ≤ s.railAmps k ∧ (k < 22 → ∀ a, (k, a) ∈ m.lower → t.railAmps k ≤ a)) ∧
      (t.power.brake = true ↔ s.power.brake = true ∧ (s.power.brakePin = true ∨ s.brakeHeld = false)) ∧
      (t.braking = true → t.power.gov = s.power.gov ∧ t.power.memPct = s.power.memPct) ∧
      (t.braking = false → 25 ≤ t.power.memPct ∧ t.power.memPct ≤ 100 ∧
        t.power.linkPct ≤ 100 ∧ t.power.gate ∈ [1, 2, 4] ∧ ∀ c, c < 64 → Tab.get (fun _ => 15) t.power.gov c ≤ 15) ∧
      (∀ d h, d < 20 → s.hottest d = some h →
        let target : Int := 16 * (s.barF 0x050028 0 8 : Nat)
        (target < h → t.allowance d = s.allowance d - 5) ∧
        (h ≤ target - 48 → t.allowance d = min 100 (s.allowance d + 2)) ∧
        (target - 48 < h → h ≤ target → t.allowance d = s.allowance d)) ∧
      t.cells = s.cells ∧ t.cmds = s.cmds)

/-- An off order: after its time what runs is quenched, collectives in progress with it; when every command has its completion record the C-die, M-die and
GDDR7 rails go down, or every main rail where PWR_EN was released or the coolant leaks, and what they hold is gone while the tables, the far memory and
the rest of the module stay (R471, R498, R499, R588, R615, R673). -/
def Claims.OffOrders : Prop :=
  ∀ s : State, s.live = true →
    (s.power.draining = true → (∃ c ∈ s.cmds, c.phase = .started) → (s.cmds.map Cmd.id).Nodup →
      ∃ t, exec .offDrainTimeout s = .next t ∧ (∀ c ∈ t.cmds, c.phase = .started → c.status ≠ 0) ∧
        (∀ c ∈ t.coll.colls, c.started = true → c.ready = true) ∧ (s.fdescs = [] → t.mem = s.mem) ∧
        t.sync = s.sync) ∧
    (s.power.draining = true → s.recordsWritten = true → ∃ t, exec .mainDomainShutdown s = .next t ∧ t.cells = [] ∧ t.mem = [] ∧
      t.sync = [] ∧ t.ext = s.ext ∧ t.remap = s.remap ∧ t.power.running = false ∧ t.boot.standby = s.boot.standby ∧
      t.mgmt = { s.mgmt with nv := (s.mgmt.mainHrs, s.mgmt.stbyHrs, s.mgmt.starts, s.mgmt.fulls) } ∧
      (s.power.offKind ≤ 2 → t.boot.mainOn = s.boot.mainOn ∧ t.fab = s.fab ∧ t.rings = s.rings ∧ t.bar = s.bar ∧
        t.swarm.role = 0 ∧ t.link.l0p = false) ∧
      (3 ≤ s.power.offKind → t.boot.mainOn = false ∧ t.fab.placed = false)) ∧
    (s.boot.standby = true → s.boot.pwrEn = true → s.power.running = true → s.boot.step = 8 → (s.cmds.map Cmd.id).Nodup → ∃ t,
      exec .pwrEnRelease s = .next t ∧ t.boot.pwrEn = false ∧ t.power.draining = true ∧ 3 ≤ t.power.offKind ∧
      ∀ c ∈ t.cmds, c.part < s.parts → c.waiting = false)

/-- A partition that has been idle enters the depth that its wake tolerance and its idle time allow, D4 only where every partition
qualifies for it and no transit packet waits or has passed for 100 ms, and leaves it by a wake, with which the host accesses that waited for it are performed; the host link is narrow while every
partition is at D3 or D4 (R23, R485-R487; log 120). -/
def Claims.IdleDepths : Prop :=
  ∀ (s : State) (p : Nat), s.live = true → p < 4 →
    (∀ us, s.power.running = true → p < s.parts → p ∈ s.boot.ready → s.idlePart p = true → p ∉ s.power.waking →
      Tab.get (fun _ => 0) s.power.depth p < s.depthFor p us →
      ∃ t, exec (.idleDepthEntry p us) s = .next t ∧
        t = { s with power := { s.power with depth := t.power.depth, idleFrom := t.power.idleFrom },
                     link := { s.link with l0p := t.link.l0p } } ∧
        Tab.get (fun _ => 0) t.power.depth p = s.depthFor p us ∧
        (∀ q, q ≠ p → Tab.get (fun _ => 0) t.power.depth q = Tab.get (fun _ => 0) s.power.depth q) ∧
        (t.link.l0p = true ↔ ∀ q, q < s.parts → 3 ≤ Tab.get (fun _ => 0) t.power.depth q)) ∧
    (∀ us, s.depthFor p us = 4 → s.seams = [] ∧ s.fab.waiting = [] ∧ (∀ x, s.fab.transitAt = some x → 10000000 ≤ (s.now - x).toNat) ∧
      ∀ q, q < s.parts → s.idlePart q = true ∧ 30000 ≤ s.wakeUs q ∧ (q = p ∨ s.ready4 q = true)) ∧
    (∀ us d, s.depthFor p us = d → 1 ≤ d → (depthRow d).1 ≤ s.wakeUs p ∧ (depthRow d).2 ≤ us) ∧
    (Tab.get (fun _ => 0) s.power.depth p ≠ 0 → p ∉ s.power.waking → exec (.wake p) s =
      .next { s with power := { s.power with waking := s.power.waking ++ [p] } }) ∧
    (p ∈ s.power.waking → ∃ t, exec (.wakeComplete p) s = .next t ∧ p ∉ t.power.waking ∧
      Tab.get (fun _ => 0) t.power.depth p = 0 ∧
      (∀ q, q < 4 → q ≠ p → Tab.get (fun _ => 0) t.power.depth q = min 3 (Tab.get (fun _ => 0) s.power.depth q)) ∧
      t.awake p = true ∧ t.link.l0p = false ∧
      ((∀ a ∈ s.link.held, a.1 ≠ p) → t = { s with power := t.power, link := { s.link with l0p := false } }))

/-! ### Temperatures, coolant, leaks and the input (R480, R489-R500, R610, R664) -/

/-- Die sensors: one that reads nothing, or out of the range that silicon can have, is discarded for good; one that agrees with
its die stays trusted; a trusted reading of 110 °C trips. A discarded one returns after 60 s of plausible readings, at most three times in 24 h (R489, R490,
R494). -/
def Claims.DieSensors : Prop :=
  ∀ s : State, s.live = true →
    (∀ dies inlet outlet, dies.length = 60 → ∃ t, exec (.sensorSample dies inlet outlet) s = .next t ∧
      t.power.inlet = inlet.getD s.power.inlet ∧ t.power.outlet = outlet.getD s.power.outlet ∧
      (∀ i, i < 60 → ((s.sensor i).state = 2 ∨ dies[i]? = some none ∨ ∃ x, dies[i]? = some (some x) ∧ (x < -320 ∨ 2400 < x)) →
        (t.sensor i).state = 2) ∧
      (∀ i x, i < 60 → dies[i]? = some (some x) → -320 ≤ x → x ≤ 2400 → (s.sensor i).state = 0 → t.power.inlet ≤ x →
        (∀ j, j / 3 = i / 3 → j ≠ i → (s.sensor j).state = 0 → ∃ y, dies[j]? = some (some y) ∧ y ≤ x + 240) →
        t.sensor i = { s.sensor i with temp := x, since := some ((s.sensor i).since.getD s.now) } ∧ (1760 ≤ x → t.boot.tripDue = true)) ∧
      t.cells = s.cells ∧ t.fab.ports = s.fab.ports) ∧
    (∀ i x, i < 60 → (s.sensor i).state = 1 → s.returnsOf (s.sensor i) < 3 → (s.sensor i).since = some x →
      minuteTicks ≤ (s.now - x).toNat → ∃ t, exec (.sensorRetrust i) s = .next t ∧
      (t.sensor i).state = 0 ∧ s.now ∈ (t.sensor i).returns ∧ (∀ j, j ≠ i → t.sensor j = s.sensor j) ∧
      t = { s with power := t.power }) ∧
    (∀ i, i < 60 → ((s.sensor i).state ≠ 1 ∨ 3 ≤ s.returnsOf (s.sensor i) ∨
        (∀ x, (s.sensor i).since = some x → (s.now - x).toNat < minuteTicks)) → exec (.sensorRetrust i) s = .refused .notDue)

/-- COOL_FAULT# and a rise above its limit set the coast cap, which clears when no cause of it holds; an inlet above its limit
shuts the module down, and 5 °C above it allows no completion time (R495, R497, R498). -/
def Claims.Coolant : Prop :=
  ∀ s : State, s.boot.standby = true →
    (s.power.coolPin = false → s.live = false →
      exec .coolFaultAssert s = .next { s with power := { s.power with coolPin := true } }) ∧
    (s.power.coolPin = true → exec .coolFaultDeassert s = .next { s with power := { s.power with coolPin := false } }) ∧
    (s.live = true →
      (s.power.coolPin = false → ∃ t, exec .coolFaultAssert s = .next t ∧ t.power.coolPin = true ∧ t.power.coast = true ∧
        t.cap ≤ s.power.env * 40 / 100) ∧
      (s.power.riseHigh = false → 16 * (s.power.riseMax : Int) < s.power.outlet - s.power.inlet →
        ∃ t, exec .riseLimitExceeded s = .next t ∧ t.power.riseHigh = true ∧ t.power.coast = true) ∧
      (s.power.coast = true → s.power.coolPin = false → s.power.riseHigh = false → s.power.inletOk = true →
        s.power.outletOk = true → ∃ t, exec .coastClear s = .next t ∧ t.power.coast = false) ∧
      ((s.power.coolPin = true ∨ s.power.riseHigh = true ∨ s.power.inletOk = false ∨ s.power.outletOk = false) →
        exec .coastClear s = .refused .notDue) ∧
      (16 * (s.power.inletMax : Int) < s.power.inlet → s.power.hot = none → (s.cmds.map Cmd.id).Nodup →
        ∃ t, exec .inletOverLimit s = .next t ∧ t.power.draining = true ∧ t.power.offKind = max s.power.offKind 2 ∧
          t.power.hot = some s.power.inletMax ∧
          (16 * (s.power.inletMax : Int) + 80 ≤ s.power.inlet → ∀ c ∈ t.cmds, c.phase = .started → c.status ≠ 0)))

/-- A leak quenches all work and orders the module off; an open trace sets the guarded cap, which three passes in a row clear,
and with the main domain off its report is owed to the next start; an
isolated input turns the main domain off; a retired regulator phase carries nothing more (R480, R499, R500, R664). -/
def Claims.LeaksAndInput : Prop :=
  ∀ s : State,
    (s.boot.standby = true → s.power.leakWet = false → ∃ t, exec .leakDetected s = .next t ∧ t.power.leakWet = true ∧
      ({ code := 4, detail := 0 } ∈ t.mgmt.events) ∧ t.mgmt.service = true ∧
      (s.live = true → (s.cmds.map Cmd.id).Nodup → t.power.draining = true ∧ 4 ≤ t.power.offKind ∧
        (∀ c ∈ t.cmds, c.phase = .started → c.status ≠ 0) ∧ ∀ c ∈ t.coll.colls, c.started = true → c.ready = true)) ∧
    (s.boot.standby = true → ∃ t, exec (.leakSelfTest true) s = .next t ∧ t.power.guarded = true ∧ t.power.leakOpen = true ∧
      t.power.leakPass = 0 ∧ t.mgmt.service = true ∧ { code := 5, detail := 0 } ∈ t.mgmt.events ∧
      (s.live = false → t.power.owed = s.power.owed ++ [(7, s.cap, t.cap)])) ∧
    (s.boot.standby = true → ∃ t, exec (.leakSelfTest false) s = .next t ∧ t.power.leakOpen = false ∧
      t.power.leakPass = min 3 (s.power.leakPass + 1) ∧
      (t.power.guarded = true ↔ s.power.guarded = true ∧ s.power.leakPass < 2)) ∧
    (s.boot.standby = true → (s.boot.mainOn = true ∨ (3 ≤ s.boot.step ∧ s.boot.step < 8)) → ∃ t, exec .vinIsolate s = .next t ∧
      t.boot.mainOn = false ∧ t.boot.isolated = true ∧ t.boot.step = 15 ∧ t.boot.halt = 2 ∧ t.mem = [] ∧ t.ext = s.ext ∧
      t.mgmt.service = true) ∧
    (∀ k, s.live = true → k < 171 → k ∉ s.power.phases → ∃ t, exec (.regulatorPhaseRetire k) s = .next t ∧
      t.power.phases = s.power.phases ++ [k] ∧ Reported { s with power := t.power } t)

/-- Neither host nor rack manager has made contact for 60 s: the module enters the silent-authority hold; contact ends it.
DEMAND_CLEAR of function 0 forgets the demand table (R472, R610, R611). -/
def Claims.SilentAuthority : Prop :=
  ∀ s : State,
    (s.boot.standby = true → s.power.hold = false → minuteTicks ≤ (s.now - s.mgmt.lastHost).toNat →
      minuteTicks ≤ (s.now - s.mgmt.lastRack).toNat → ∃ t, exec .silentHoldEnter s = .next t ∧ t.power.hold = true ∧
        ({ code := 9, detail := 1 } ∈ t.mgmt.events)) ∧
    (s.boot.standby = true → (s.now - s.mgmt.lastHost).toNat < minuteTicks → exec .silentHoldEnter s = .refused .notDue) ∧
    (∀ fn, s.live = true → fn < 4 → fn < s.parts → ∃ t, exec (.demandClear fn) s = .next t ∧ t.mgmt.lastHost = s.now ∧
      t.power.hold = false ∧ t.power.demand = if fn = 0 then [] else s.power.demand)

/-! ### Starts and placements (R577-R598, R620, R626) -/

/-- A start from PWR_EN: with no image that verifies it halts; without its reference or coolant it waits and shows why; with an
input or rail out of limits it halts; held off by the rack manager it stops before the C-die rails; else it ends in
service, by the quick pass or a full test (R577-R580, R584, R587, R626). -/
def Claims.Starts : Prop :=
  ∀ (s : State) (f : StartFinds), s.boot.standby = true →
    (s.boot.mainOn = true → s.boot.pwrEn = false →
      exec (.start f) s = .next { s with boot := { s.boot with pwrEn := true, again := true } }) ∧
    (s.boot.mainOn = false → s.boot.pwrEn = false → s.mgmt.trial = false →
      (s.newStart.startBank f = none → ∃ t, exec (.start f) s = .next t ∧ t.boot.step = 15 ∧ t.boot.halt = 1 ∧
        t.boot.mainOn = false ∧ t.boot.pwrEn = true) ∧
      (∀ b, s.newStart.startBank f = some b →
        (f.refOk = false → ∃ t, exec (.start f) s = .next t ∧ t.boot.step = 2 ∧ t.boot.halt = 5 ∧ t.boot.mainOn = false) ∧
        (f.refOk = true → (f.coolOk = false ∨ s.power.coolPin = true ∨ 720 < s.power.inlet) →
          ∃ t, exec (.start f) s = .next t ∧ t.boot.step = 3 ∧ t.boot.halt = 3 ∧ t.boot.mainOn = false) ∧
        (f.refOk = true → f.coolOk = true → s.power.coolPin = false → s.power.inlet ≤ 720 →
          ((f.vinOk = false ∨ f.railsOk = false) → ∃ t, exec (.start f) s = .next t ∧ t.boot.step = 15 ∧ t.boot.halt = 2) ∧
          (f.vinOk = true → f.railsOk = true →
            (s.power.rackOn = false → ∃ t, exec (.start f) s = .next t ∧ t.boot.mainOn = true ∧ t.boot.step = 4 ∧
              t.power.running = s.power.running) ∧
            (s.power.rackOn = true → ∃ t, exec (.start f) s = .next t ∧ t.boot.mainOn = true ∧ t.boot.step = 8 ∧
              t.boot.halt = 0 ∧ t.power.running = true ∧ t.boot.ready = List.range t.parts ∧
              t.mgmt.bank = b ∧ t.mgmt.starts = (s.mgmt.starts + 1) % 2 ^ 32 ∧
              (s.boot.recValid = true → s.barB startKey 0 = true → s.barB startKey 1 = false → t.boot.kind = 1) ∧
              ((s.boot.recValid = false ∨ s.barB startKey 0 = false ∨ s.barB startKey 1 = true) →
                t.boot.kind = 0 ∧ t.boot.recValid = true ∧ t.mgmt.fulls = (s.mgmt.fulls + 1) % 2 ^ 32))))))

/-- The tables that a full test builds: a comb with one bad cell uses its spare, one with a bad spare or a second bad cell leaves
a logical cell unserved (R582, R583, R587). -/
def Claims.TablesBuilt : Prop :=
  ∀ (bad combs : List Nat) (n : Nat), n < 512 →
    let phys := fun i => physNum (n / 8 / 8) (n / 8 % 8) i
    let e := builtEntry bad combs n
    (n / 8 ∈ combs → e.state = 3) ∧
    (n / 8 ∉ combs → phys (n % 8) ∉ bad → e = Remap.full n) ∧
    (n / 8 ∉ combs → phys (n % 8) ∈ bad → (∀ i, i < n % 8 → phys i ∉ bad) → phys 8 ∉ bad → e.state = 1 ∧ e.phys = phys 8) ∧
    (n / 8 ∉ combs → phys (n % 8) ∈ bad → (phys 8 ∈ bad ∨ ∃ i, i < n % 8 ∧ phys i ∈ bad) → e.state = 3)

/-- A placement: go starts a read unless one is under way; a descriptor that fails a check is refused whole with the reason and
the offset, and nothing else changes; one that passes takes effect at once (R591, R596, R597). -/
def Claims.Placements : Prop :=
  ∀ s : State, s.live = true →
    (∀ n, n < 2 ^ 18 → s.place.busy = false → ∃ t, exec (.placementGo n) s = .next t ∧ t.place.busy = true ∧ t.place.length = n ∧
      t.fab.routes = s.fab.routes ∧ t.mgmt.lastHost = s.now) ∧
    (∀ n, s.place.busy = true → ∃ t, exec (.placementGo n) s = .next t ∧ t.place = s.place) ∧
    (∀ ok raw, s.place.busy = true → s.fab.placed = false →
      let u := { s with place := { s.place with busy := false } }
      (∀ r o, u.checkPlacement (ok && s.link.up) raw = some (r, o) → exec (.placementCheck ok raw) s =
        .next { u with place := { u.place with refused := true, reason := r, offset := o } }) ∧
      (u.checkPlacement (ok && s.link.up) raw = none → ∃ t, exec (.placementCheck ok raw) s = .next t ∧ t.fab.placed = true ∧
        t.fab.phys.toNat = placePhys raw ∧ t.fab.logical.toNat = placeLogical raw ∧ t.swarm.role = placeRole raw ∧
        t.swarm.members = placeMembers raw ∧ (∀ n, n < 4096 → t.route n = placeRoute raw n) ∧
        t.power.env = pfield raw 0x0610 0 12 ∧ t.place.refused = false ∧ t.place.raw = raw ∧ t.place.busy = false)) ∧
    (∀ raw, (raw.length < 0x10000 ∨ raw.length ≠ s.place.length) → s.checkPlacement true raw = some (1, 0))

/-! ### Epochs and the swarm barrier (R507-R520) -/

/-- SYNC_OUT is driven at most once in 1 ms; a SYNC_IN edge is stamped, and requests boundaries where it may; while the main
domain is off and before a placement it is ignored (R508, R511, R676, R677). -/
def Claims.SyncPins : Prop :=
  (∀ s : State, s.boot.standby = true → (s.live = false ∨ s.fab.placed = false) → exec .syncInEdge s = .next s) ∧
  ∀ s : State, s.live = true →
    (s.pins.due = true → (∀ t, s.pins.edgeAt = some t → 100000 ≤ (s.now - t).toNat) → ∃ t, exec .syncOutEdge s = .next t ∧
      t.pins.due = false ∧ t.pins.edgeAt = some s.now ∧ Reported { s with pins := t.pins } t) ∧
    (∀ t, s.pins.edgeAt = some t → (s.now - t).toNat < 100000 → exec .syncOutEdge s = .refused .notDue) ∧
    (s.fab.placed = true → ∃ t, exec .syncInEdge s = .next t ∧ t.pins.inStamp = some s.now ∧ Reported { s with pins := t.pins } t ∧
      (s.barB 0x060000 30 = true → s.inSwarm = false → ∀ p, p < s.parts → (s.epochOf p).cutting = false →
        (t.epochOf p).requested = true) ∧
      (∀ p, (s.epochOf p).cutting = true → t.epochOf p = s.epochOf p))

/-- The epoch of a partition that takes its epochs alone: its boundary is forced when it is late and taken when it may be; the
drain stops engines and intake; the cut captures the contexts when every engine is at its clean point; engines go on when it
is captured; the copy commits locally and then for the swarm (R509, R512, R513, R518, R519). -/
def Claims.EpochSteps : Prop :=
  ∀ (s : State) (p : Nat), s.live = true → p < 4 → p < s.parts → s.inSwarm = false → s.power.running = true →
    s.inReset p = false →
    let e := s.epochOf p
    (e.requested = false → e.step = 0 → e.taken = false → s.sinceCut p (s.epochTicks * 3 / 2) = true →
      ∃ t, exec (.epochTimer p) s = .next t ∧ (t.epochOf p).requested = true ∧ (t.epochOf p).forced = true ∧
        t = { s with epochs := t.epochs }) ∧
    ((e.requested = true ∨ e.step ≠ 0 ∨ e.taken = true ∨ s.sinceCut p (s.epochTicks * 3 / 2) = false) →
      exec (.epochTimer p) s = .refused .notDue) ∧
    (e.requested = true → e.step = 0 → e.taken = false → e.recStep = 0 → e.recWant = false → e.freezing = false →
      e.fwPoint = false → (e.urgent = true ∨ s.sinceCut p (s.epochTicks / 4) = true) →
      exec (.takeBoundary p) s = .next (s.setEpoch p { e with
        taken := true, requested := false, urgent := false, heldCut := e.wasHeld, wasHeld := false })) ∧
    (e.taken = true → ∃ t, exec (.markerDrain p none) s = .next t ∧ (t.epochOf p).step = 1 ∧
      (t.epochOf p).epoch = e.committed + 1 ∧ (t.epochOf p).taken = false ∧ (t.epochOf p).stopped = true) ∧
    (e.step = 1 → e.contrib = false → s.drained p = true → ∃ t, exec (.drainComplete p) s = .next t ∧
      (t.epochOf p).contrib = true ∧ (t.epochOf p).stage = 5 ∧ t = { s with epochs := t.epochs }) ∧
    (e.step = 1 → s.drained p = false → exec (.drainComplete p) s = .refused .notDue) ∧
    (e.step = 1 → e.contrib = true → e.stage = 5 → ∃ t c, exec (.markerDrained p none) s = .next t ∧ (t.epochOf p).step = 2 ∧
      (t.epochOf p).lastCut = some s.now ∧ (t.epochOf p).contrib = false ∧
      Tab.get (fun _ => none) (t.epochOf p).ctx (e.epoch % 2) = some c ∧ c.epoch = e.epoch ∧ c.at_ = s.now ∧
      (∀ n, s.partOfCell n = p → (Tab.get (fun _ => Cell.reset) c.cells n).arch = (s.cell n).arch) ∧
      (∀ n, s.partOfSync n = p → Tab.get (fun _ => 0) c.sync n = s.obj n) ∧
      (∀ d, d ∈ c.cmds ↔ d ∈ s.cmds ∧ d.part = p)) ∧
    (e.step = 2 → e.contrib = false → ¬(p = s.owner ∧ s.mgmt.fwState = 5) → ∃ t, exec (.contextWritten p) s = .next t ∧
      (t.epochOf p).contrib = true ∧ (t.epochOf p).stage = 5) ∧
    (e.step = 2 → e.contrib = true → e.stage = 5 → e.freezing = false → e.fwPoint = false → e.recStep = 0 →
      ∃ t, exec (.markerCaptured p none) s = .next t ∧ (t.epochOf p).step = 3 ∧ (t.epochOf p).stopped = false) ∧
    (e.step = 3 → e.contrib = false → s.liningBusy p = false → (s.linOn p = true → s.mapsClear p = true) →
      (s.linOn p = true → e.written = false → ∃ t, exec (.localCommit p) s = .next t ∧ (t.epochOf p).written = true ∧
        (t.epochOf p).loc = e.loc) ∧
      ((s.linOn p = false ∨ e.written = true) → ∃ t, exec (.localCommit p) s = .next t ∧ (t.epochOf p).loc = e.epoch ∧
        (t.epochOf p).contrib = true ∧ (t.epochOf p).stage = 5)) ∧
    (e.step = 3 → s.liningBusy p = true → exec (.localCommit p) s = .refused .notDue) ∧
    (e.step = 3 → e.contrib = true → e.stage = 5 → ∃ t, exec (.markerCommitted p none) s = .next t ∧ (t.epochOf p).step = 0 ∧
      (t.epochOf p).committed = e.epoch ∧ (t.epochOf p).applied = e.epoch ∧ t.aon 56 = s.aon 56 + 1)

/-- MARKER packets: on another class than `CTL`, or of a lower term or no member, they are discarded and counted; one of a reserved step is
refused as malformed; one of a higher term ends the duties of an old manager; the drain step
begins the drain of a member, once; a barrier through the manager is complete when the manager's answer is there (R413, R454, R512,
R514). -/
def Claims.Markers : Prop :=
  ∀ (s : State) (q : Packet) (p : Nat), p < 4 → p = s.owner →
    let u := s.received q
    let e := s.epochOf p
    let step := bits q.arg0.toNat 0 8
    let newer := s.swarm.role = 3 ∧ s.swarm.term < bits q.arg0.toNat 8 32
    (∀ c k, (c, k) ∈ [(Instr.markerDrain p (some q), 1), (.markerDrained p (some q), 2), (.markerCaptured p (some q), 3),
        (.markerCommitted p (some q), 4)] → step = k →
      (s.live = true → s.fab.placed = true → s.awake s.owner = true → q.type.toNat = 12 → q.dstPhys = s.fab.phys → q.cls ≠ 0 →
        exec c s = .next ((s.taken q).bump 44 1)) ∧
      (Arrives s q 12 0 → FirstTime s q → shortOk q = true → s.markerOk q = false → ¬newer →
        exec c s = .next ((u.bump 44 1).ackPkt q)) ∧
      (Arrives s q 12 0 → FirstTime s q → shortOk q = true → newer → q.srcLog ≠ s.fab.logical →
        (q.srcLog.toNat ∈ s.swarm.deputies ∨ q.srcLog.toNat ∈ s.swarm.members) →
        ∃ t, exec c s = .next t ∧ t.swarm.role ≠ 3 ∧ t.swarm.term = bits q.arg0.toNat 8 32)) ∧
    (∀ c ∈ [Instr.markerDrain p (some q), .markerDrained p (some q), .markerCaptured p (some q), .markerCommitted p (some q)],
      (step = 0 ∨ 4 < step) → Arrives s q 12 0 → FirstTime s q → exec c s = .next (u.refusePkt q 3)) ∧
    (Arrives s q 12 0 → FirstTime s q → shortOk q = true → s.markerOk q = true → ¬newer →
      (step = 1 → (e.step ≠ 0 ∨ e.recStep ≠ 0) → exec (.markerDrain p (some q)) s = .next (u.ackPkt q)) ∧
      (step = 1 → e.step = 0 → e.recStep = 0 → q.arg1.toNat = (e.committed + 1) % 2 ^ 32 → ∃ t : State,
        exec (.markerDrain p (some q)) s = .next (t.ackPkt q) ∧ (t.epochOf p).step = 1 ∧
        (t.epochOf p).epoch = e.committed + 1 ∧ (t.epochOf p).stopped = true) ∧
      (s.withSwarm p = true → inStages s.ranks.length = false → s.swarm.role ≠ 3 → q.srcLog.toNat = s.swarm.manager →
        e.contrib = true → e.stage = 0 → e.freezing = false →
        (step = 2 → e.step = 1 → ∃ t : State, exec (.markerDrained p (some q)) s = .next (t.ackPkt q) ∧
          (t.epochOf p).step = 2) ∧
        (step = 3 → e.step = 2 → ∃ t : State, exec (.markerCaptured p (some q)) s = .next (t.ackPkt q) ∧
          (t.epochOf p).step = 3) ∧
        (step = 4 → e.step = 3 → ∃ t : State, exec (.markerCommitted p (some q)) s = .next (t.ackPkt q) ∧
          (t.epochOf p).step = 0 ∧ (t.epochOf p).committed = e.epoch)))

/-- An epoch that is abandoned between its drain and its commit leaves the partition at its committed epoch with everything that
was frozen dirty again (R520). -/
def Claims.EpochAbandoned : Prop :=
  ∀ (s : State) (p : Nat) (again : Bool), (s.epochOf p).step ≠ 0 →
    let t := s.abandonEpoch p again
    (t.epochOf p).step = 0 ∧ (t.epochOf p).epoch = (s.epochOf p).committed ∧ (t.epochOf p).committed = (s.epochOf p).committed ∧
    (t.epochOf p).abandoned = min ((s.epochOf p).abandoned + 1) (2 ^ 24 - 1) ∧ (t.epochOf p).list = [] ∧
    ((t.epochOf p).requested = true ↔ (s.epochOf p).requested = true ∨ again = true) ∧ t.mem = s.mem ∧ t.sync = s.sync ∧
    ∀ n ∈ s.cellsOf p, (t.cell n).arch = (s.cell n).arch ∧ (t.cell n).frozen = 0 ∧
      ∀ k, ((s.cell n).live.getLsbD k = true ∨ (s.cell n).frozen.getLsbD k = true) → (t.cell n).live.getLsbD k = true

/-! ### Repair and recovery (R503, R504, R531-R543) -/

/-- REPAIR writes a lost granule's committed bytes, those of its slot or zeros, and no other byte, with new check bits; then what
waited for the granule goes on. Where a condition of repair holds no longer, or the lining cannot be read, a recovery is wanted; while one is wanted already, or
the lining's window drains, the row is not due (R224, R228, R503, R504). -/
def Claims.Repairs : Prop :=
  ∀ (s : State) (p k : Nat), s.live = true → p < 4 → s.epochRuns p = true → s.link.up = true →
    (Lost.granule k) ∈ (s.epochOf p).lostU →
    ((s.epochOf p).recWant = false → s.linDrains p = false →
      (s.mayRepair p [k] = true → (s.slotBytes p k).length = 4096 → ∃ t : State, exec (.repair p ⟨[k], none⟩) s = .next t.driveAll ∧
        (∀ j, j < 4096 → t.memByte (s.granuleOff p k + j) = (s.slotBytes p k).getD j 0) ∧
        (∀ a, (a < s.granuleOff p k ∨ s.granuleOff p k + 4096 ≤ a) → t.memByte a = s.memByte a) ∧
        (Lost.granule k) ∉ (t.epochOf p).lostU ∧ t.sync = s.sync ∧ t.cells = s.cells ∧ t.coll = s.coll) ∧
      (s.mayRepair p [k] = false → exec (.repair p ⟨[k], none⟩) s = .next (s.wantRecovery p)) ∧
      ∀ f, ∃ t, exec (.repair p ⟨[k], some f⟩) s = .next t ∧ t.mem = s.mem ∧ (t.epochOf p).recWant = true ∧
        (f = .poisoned → t.aon 49 = s.aon 49 + 1) ∧ (f ≠ .poisoned → s.aon 47 + 1 = t.aon 47)) ∧
    (((s.epochOf p).recWant = true ∨ s.linDrains p = true) → ∀ f, exec (.repair p ⟨[k], f⟩) s = .refused .notDue)

/-- The recovery of a partition alone: it begins where its lining can serve, with engines stopped and new tags; the restore brings
back registers and objects of the target's cut, and where the lining cannot be read the recovery is given up, with the commands that
needed it; replay begins when every member has restored, and its end ends the recovery
(R140, R228, R506, R531-R534, R553). -/
def Claims.RecoverySteps : Prop :=
  ∀ (s : State) (p : Nat), s.live = true → p < 4 → s.epochRuns p = true → s.inSwarm = false →
    let e := s.epochOf p
    let own := s.fab.logical.toNat
    (e.recWant = true → s.gensFree (s.enginesOf p) = true →
      (s.linSafe p = false → exec (.recoveryStart p none) s = .next ((s.setEpoch p { e with recWant := false }).endLostCmds p)) ∧
      (s.linSafe p = true → ∃ t, exec (.recoveryStart p none) s = .next t ∧ (t.epochOf p).recStep = 4 ∧
        (t.epochOf p).state = 5 ∧ (t.epochOf p).recWant = false ∧ (t.epochOf p).stopped = true ∧
        (t.epochOf p).target = (if e.loc ≤ e.committed then e.committed else e.loc) ∧ t.aon 57 = s.aon 57 + 1 ∧
        ∀ x ∈ s.enginesOf p, t.gen x = s.gen x + 1)) ∧
    (∀ c, e.recStep = 4 → s.link.up = true → s.linDrains p = false → e.failedM = own → e.spareM = own → e.others = [] →
      Tab.get (fun _ => none) e.ctx (e.target % 2) = some c → Tab.wf (fun _ => 0) c.sync = true →
      ∃ t, exec (.restoreComplete ⟨p, none⟩) s = .next t ∧ (t.epochOf p).recStep = 5 ∧ (t.epochOf p).committed = e.target ∧
        own ∈ (t.epochOf p).restored ∧
        (∀ n ∈ s.cellsOf p, (t.cell n).arch = (Tab.get (fun _ => Cell.reset) c.cells n).arch) ∧
        (∀ n, s.partOfSync n = p → t.obj n = Tab.get (fun _ => 0) c.sync n) ∧
        ∀ n, s.partOfSync n ≠ p → t.obj n = s.obj n) ∧
    (∀ f, e.recStep = 4 → s.link.up = true → s.linDrains p = false → e.spareM = own → s.awaitsNumber p = false → ∃ t,
      exec (.restoreComplete ⟨p, some f⟩) s = .next t ∧ (t.epochOf p).recStep = 0 ∧ (t.epochOf p).recWant = false ∧
        (∀ c ∈ t.cmds, c.part = p → c.hwLost = false) ∧ ∀ q, t.memByte q = s.memByte q) ∧
    (e.recStep = 5 → ∃ t, exec (.swarmRestored p none) s = .next t ∧ (t.epochOf p).recStep = 6 ∧ (t.epochOf p).state = 6) ∧
    (e.recStep = 6 → e.replay = [] → e.replayEff = [] → ∃ t, exec (.replayDone p) s = .next t ∧ (t.epochOf p).recStep = 0 ∧
      (t.epochOf p).state = (if e.active then 1 else 0) ∧ t.cmds = s.cmds ∧ t.cells = s.cells)

/-- The packets of a recovery in a swarm: subtype 9 begins it at a member, subtypes 10 and 11 report to the manager (R532). -/
def Claims.RecoveryPackets : Prop :=
  ∀ (s : State) (q : Packet) (p : Nat), p < 4 → p = s.owner → Arrives s q 14 0 → FirstTime s q → s.inRole = true →
    s.swarm.term ≤ termOf q → (s.swarm.role = 3 → termOf q ≤ s.swarm.term) →
    let u := s.received q
    (subtypeOf q = 9 → longOk q = true → (s.fromHeads q = false →
        exec (.recoveryStart p (some q)) s = .next ((u.dropSwarm q 9).ackPkt q)) ∧
      (s.fromHeads q = true → ∃ t : State, exec (.recoveryStart p (some q)) s = .next (t.ackPkt q) ∧
        (t.epochOf p).recStep = 4 ∧ (t.epochOf p).target = operandF q 0 8 ∧ (t.epochOf p).failedM = q.arg1.toNat ∧
        (t.epochOf p).spareM = operandF q 8 8 ∧ (t.epochOf p).stopped = true)) ∧
    (subtypeOf q = 11 → shortOk q = true → s.swarm.role = 3 → s.fromSwarm q = true →
      exec (.swarmRestored p (some q)) s = .next (u.ackPkt q)) ∧
    (subtypeOf q = 10 → shortOk q = true → s.swarm.role = 3 → s.fromSwarm q = true → (s.epochOf p).recStep ≠ 5 →
      ∃ t : State, exec (.swarmRestored p (some q)) s = .next (t.ackPkt q) ∧ q.srcLog.toNat ∈ (t.epochOf p).restored)

/-! ### Resets (R545-R556) -/

/-- A cell reset and a comb reset that were asked for begin: they are noted, and the architected state of the cells inside is as
after a cell reset, while instruction memory stays (R45, R545, R546, R548, R552). -/
def Claims.UnitResets : Prop :=
  ∀ (s : State), s.live = true → s.power.running = true →
    (∀ n, n < 512 → s.asked 0 n = true → ∃ t, exec (.cellReset n .requested) s = .next t ∧
      ({ domain := 0, number := n, late := false } ∈ t.resets.running) ∧
      ∀ m ∈ s.resetTargets n, (t.cell m).arch = Arch.reset ∧ (t.cell m).imem = (s.cell m).imem) ∧
    (∀ k, k < 64 → s.asked 1 k = true → (∀ n, n / 8 = k → s.guestOf n = none) → ∃ t,
      exec (.combReset k .requested) s = .next t ∧ ({ domain := 1, number := k, late := false } ∈ t.resets.running) ∧
      ∀ n, n / 8 = k → (s.remapOf n).state ≤ 1 → (t.cell n).arch = Arch.reset ∧ (t.cell n).imem = (s.cell n).imem) ∧
    (∀ n, n < 512 → s.asked 0 n = false → exec (.cellReset n .requested) s = .refused .notDue) ∧
    (∀ k, k < 64 → s.asked 1 k = false → exec (.combReset k .requested) s = .refused .notDue)

/-- A partition reset, asked for or by function level reset: the function is not ready, its cells are as after a cell reset, and
commands that have not started end; RESET_COMPLETE makes it ready again (R545, R546, R549, R551, R553, R554). -/
def Claims.PartitionResets : Prop :=
  ∀ (s : State) (p : Nat), s.live = true → p < 4 → s.power.running = true →
    (∀ cause, (cause = .requested ∧ s.asked 2 p = true) ∨ (cause = .flr ∧ p < s.parts ∧ s.inReset p = false) →
      ∃ t, exec (.partitionReset p cause) s = .next t ∧ ({ domain := 2, number := p, late := false } ∈ t.resets.running) ∧
        p ∉ t.boot.ready ∧ (∀ n ∈ s.cellsOf p, (t.cell n).arch = Arch.reset) ∧ (∀ c ∈ t.coll.colls, c.part ≠ p)) ∧
    (∀ d n r, domainOk d n = true → (s.resets.running.filter fun r => r.domain == d && r.number == n) = [r] →
      s.link.held = [] → (r.late = true ∨ (s.domainPending r = 0 ∧ s.gensFree (s.resetEngines r) = true)) →
      (d = 2 → n ∉ s.boot.zeroFill ∧ 4 ∉ s.boot.zeroFill) → (d = 3 → s.boot.zeroFill = []) →
      ∃ t, exec (.resetComplete d n) s = .next t ∧ r ∉ t.resets.running ∧ (d = 2 → n ∈ t.boot.ready) ∧
        (d = 3 → t.boot.step = 8 ∧ t.boot.ready = if s.power.running then List.range s.parts else []) ∧
        (s.resets.request = some (d, n) → t.resets.busy = false ∧ t.resets.request = none) ∧
        (r.late = false → ∀ e ∈ s.resetEngines r, t.gen e = s.gen e + 1) ∧ t.cells = s.cells ∧ t.mem = s.mem) ∧
    (∀ d n r, domainOk d n = true → (s.resets.running.filter fun r => r.domain == d && r.number == n) = [r] → r.late = false →
      s.domainPending r ≠ 0 → s.gensFree (s.resetEngines r) = true → ∃ t, exec (.drainLimit d n) s = .next t ∧
        (∃ q ∈ t.resets.running, q = { r with late := true }) ∧ (∀ q ∈ t.far, s.domainOwns r q.owner = false) ∧
        (∀ e ∈ s.resetEngines r, t.gen e = s.gen e + 1) ∧ t.aon 47 = s.aon 47 + 1)

/-- A whole-module reset keeps the registers, the tables, the placement, the far memory and the retirements, and clears the
rest; the functions report ready only when it ends. Droop detectors stay as they are, and a module without its reference stays
without it, unless the reset is taken because the reference has returned (R26, R29, R546, R547, R580). -/
def Claims.WholeModuleReset : Prop :=
  ∀ (s : State) (f : StartFinds), s.live = true →
    (s.asked 3 0 = true → s.barB 0x07A008 0 = false → f.corrected = [] → f.badRows = [] → f.badDevs = [] → f.badCells = [] → f.badCombs = [] → f.badFrgs = [] →
      ∃ t, exec (.wholeModuleReset .requested f) s = .next t ∧ t.mem = [] ∧ t.sync = [] ∧ t.ext = s.ext ∧ t.remap = s.remap ∧
        t.phys = s.phys ∧ t.fab.placed = s.fab.placed ∧ t.fab.routes = s.fab.routes ∧ t.fab.noStreams = true ∧
        t.swarm.role = 0 ∧ t.boot.ready = [] ∧ t.boot.step = 7 ∧ t.boot.kind = 2 ∧ t.link.up = false ∧
        (∀ n, (t.cell n).arch = Arch.reset) ∧
        t.boot.refOk = s.boot.refOk ∧ t.boot.droop = s.boot.droop ∧
        t.resets.running = [{ domain := 3, number := 0, late := false }]) ∧
    (s.boot.refOk = false → s.resetting 3 0 = false → ∃ t, exec (.wholeModuleReset .refReturn f) s = .next t ∧
      t.boot.refOk = true ∧ t.boot.oscHeld = false ∧ t.boot.kind = 2 ∧ t.fab.noStreams = true ∧ t.swarm.role = 0 ∧
      t.boot.droop = s.boot.droop) ∧
    (∀ c, c ≠ .requested → c ≠ .refReturn → exec (.wholeModuleReset c f) s = .refused .notDue)

/-! ### Watchdogs, heartbeats and hung units (R557-R569) -/

/-- A watchdog that expires when its budget has been counted: the cells of a kernel are reset, and the command is asked for again
once where the lining can replay it, else it ends with `TIMEOUT`. Before, and while it is paused, it does not expire (R557, R558,
R560, R561). -/
def Claims.Watchdogs : Prop :=
  ∀ (s : State) (id : Nat) (c : Cmd), s.live = true → s.cmd id = some c → c.phase = .started →
    ((s.watchPaused c.part = true ∨ s.counted id < s.budget c) → exec (.watchdogExpiry id) s = .refused .notDue) ∧
    (s.watchPaused c.part = false → s.budget c ≤ s.counted id →
      let known := c.intake ∈ Tab.get (fun _ => []) s.resets.expired c.part
      ((s.linSafe c.part = false ∨ known) → ∃ t d, exec (.watchdogExpiry id) s = .next t ∧ t.cmd id = some d ∧
        d.status = (if c.status = 0 then 5 else c.status) ∧ (kclass c.d ≠ 1 → t.aon 47 = s.aon 47 + 2) ∧
        (kclass c.d = 1 → ∀ n ∈ c.cells, (s.cell n).run.active = true → ∀ m ∈ s.resetTargets n, (t.cell m).arch = Arch.reset)) ∧
      (s.linSafe c.part = true → ¬known → ∃ t, exec (.watchdogExpiry id) s = .next t ∧
        c.intake ∈ Tab.get (fun _ => []) t.resets.expired c.part ∧ (t.epochOf c.part).recWant = true ∧
        (kclass c.d ≠ 1 → t.cmds = s.cmds ∧ t.aon 47 = s.aon 47 + 2) ∧
        (kclass c.d = 1 → ∀ n ∈ c.cells, (s.cell n).run.active = true → ∀ m ∈ s.resetTargets n, (t.cell m).arch = Arch.reset)))

/-- Heartbeats: one that comes is noted; a unit that has sent none for 3.0 ms is declared hung, reset or reloaded, and counts as
having sent one; one that has sent is not (R562, R563). -/
def Claims.Heartbeats : Prop :=
  ∀ s : State, s.live = true →
    (∀ k n, beaterOk k n = true → s.boot.refOk = true → s.beats k n = true → exec (.heartbeat k n) s = .next { s with
      resets := { s.resets with beats := Tab.set (fun _ => 0) s.resets.beats (beatKey k n) s.now } }) ∧
    (∀ n, n < 512 → s.power.running = true → (s.remapOf n).state ≤ 1 → s.insideOf n = n → s.silent (s.remapOf n).phys = true →
      s.resettingCell n = false → ∃ t, exec (.cellHung n) s = .next t ∧ exec (.cellReset n .hung) s = .next t ∧
        Tab.get (fun _ => 0) t.resets.beats (s.remapOf n).phys = t.now) ∧
    (∀ n, n < 512 → (s.remapOf n).state ≤ 1 → s.silent (s.remapOf n).phys = false →
      exec (.cellHung n) s = .refused .notDue) ∧
    (∀ f, f < 32 → s.power.running = true → (s.frg f).retired = false → s.silent (frgUnit f) = true →
      ∃ t, exec (.foragerHung f) s = .next t ∧ Tab.get (fun _ => 0) t.resets.beats (frgUnit f) = t.now ∧
        ((s.countsOf 0 (frgUnit f)).length + 1 < s.barF (escKey 0) 0 4 → (t.frg f).scratch = 0 ∧ (t.frg f).ea = [])) ∧
    (∀ f, f < 32 → s.silent (frgUnit f) = false → exec (.foragerHung f) s = .refused .notDue) ∧
    (∀ k n, controllerOk k n = true → s.beats (controllerSender k) n = true → s.silent (beatKey (controllerSender k) n) = true →
      ∃ t, exec (.controllerHung k n) s = .next t ∧ Tab.get (fun _ => 0) t.resets.beats (beatKey (controllerSender k) n) = t.now ∧
        (k = .link → t.aon 47 = s.aon 47 + BitVec.ofNat 64 s.parts)) ∧
    (∀ k n, controllerOk k n = true → s.silent (beatKey (controllerSender k) n) = false →
      exec (.controllerHung k n) s = .refused .notDue)

/-- Counted resets: those in the window of the domain count, and the newest among them; the threshold is reached when as many lie
in it (R564, R565, R566). -/
def Claims.ResetCounts : Prop :=
  ∀ (s : State) (d u : Nat), d < 4 → 0 < s.barF (escKey d) 8 11 →
    let t := s.countReset d u
    t.countsOf d u = s.countsOf d u ++ [s.now] ∧ (∀ v, v ≠ u → t.countsOf d v = s.countsOf d v) ∧
    Tab.get (fun _ => 0) t.resets.resets d = min (Tab.get (fun _ => 0) s.resets.resets d + 1) 65535 ∧
    (t.overCount d u = true ↔ s.barF (escKey d) 0 4 ≤ (s.countsOf d u).length + 1)

/-- The fatal stop: after a thermal trip, a rail held at its limit for 1 ms, or a failed check of the Collar, the record is kept,
the main domain is off, and what the main domain held is gone (R494, R573-R576). -/
def Claims.FatalStop : Prop :=
  ∀ (s : State) (k : Nat) (rec : List Byte), s.live = true → 1 ≤ k → k ≤ 3 → rec.length = 8768 →
    ((k = 1 → s.boot.tripDue = true) → (k = 2 → s.railsStuck ≠ []) → ∃ t, exec (.fatalStop k rec) s = .next t ∧ t.boot.mainOn = false ∧
      t.resets.stopped = true ∧ t.resets.fatal = rec ∧ t.resets.fatalRead = false ∧ t.resets.trigger = k ∧
      t.resets.stopTime = s.now ∧ t.boot.fatalDue = true ∧ t.mem = [] ∧ t.cells = [] ∧ t.ext = s.ext ∧ t.remap = s.remap ∧
      t.mgmt.service = true ∧ t.now = s.now ∧ t.live = false) ∧
    (k = 1 → s.boot.tripDue = false → exec (.fatalStop k rec) s = .refused .notDue) ∧
    (k = 2 → s.railsStuck = [] → exec (.fatalStop k rec) s = .refused .notDue)

/-! ### The management port (R599-R608, R670) -/

/-- A request is lost while the bus is ignored, and answered BUSY as a Collar bound beyond 2,000 in a second; the dynamic address
comes by ENTDAA or by SETDASA to the static address; an in-band interrupt follows an event, at most one in 10 ms (R599, R602,
R604, R605, R670). -/
def Claims.ManagementPort : Prop :=
  (∀ (c : Instr) (s : State), isRequest c = true → s.boot.standby = true →
    (s.mgmt.stuck = true → exec c s = .next s) ∧
    (s.mgmt.stuck = false → 2000 ≤ s.requestsNow → exec c s = .next (s.rackContact.collarClamp.reply 4 []))) ∧
  (∀ (c : Instr) (s : State), isRequest c = true → s.boot.standby = false → exec c s = .refused .unpowered) ∧
  (∀ (s : State), s.boot.standby = true →
    (∀ target addr, s.mgmt.stuck = false → (target = none ∨ target = some s.staticAddr) → exec (.dynamicAddressAssign target addr) s =
      .next { s with mgmt := { s.mgmt with dyn := some addr } }) ∧
    (∀ target addr, (s.mgmt.stuck = true ∨ ∃ a, target = some a ∧ a ≠ s.staticAddr) →
      exec (.dynamicAddressAssign target addr) s = .next s) ∧
    s.staticAddr.toNat = 0x40 + s.mgmt.straps.toNat ∧
    (s.mgmt.ibiDue = true → s.mgmt.stuck = false → s.mgmt.events ≠ [] →
      (∀ t, s.mgmt.ibiAt = some t → 1000000 ≤ (s.now - t).toNat) → exec .ibi s =
        .next { s with mgmt := { s.mgmt with ibiDue := false, ibiAt := some s.now } }) ∧
    (∀ t, s.mgmt.ibiAt = some t → (s.now - t).toNat < 1000000 → exec .ibi s = .refused .notDue) ∧
    exec .i3cBusStuck s = .next { s with mgmt := { s.mgmt with stuck := true } } ∧
    (s.mgmt.stuck = true → exec .i3cBusRecover s = .next { s with mgmt := { s.mgmt with stuck := false } }))

/-- Events of the port wait in a queue of 64, the oldest is lost first, and a poll delivers them in order with the number
lost (R604). -/
def Claims.ManagementEvents : Prop :=
  (∀ (s : State) (code detail : Nat),
    (s.mEvent code detail).mgmt.events.getLast? = some { code := code, detail := detail } ∧
    (s.mgmt.events.length < 64 → (s.mEvent code detail).mgmt.events = s.mgmt.events ++ [{ code := code, detail := detail }] ∧
      (s.mEvent code detail).mgmt.evLost = s.mgmt.evLost) ∧
    (s.mgmt.events.length = 64 → (s.mEvent code detail).mgmt.events =
        s.mgmt.events.tail ++ [{ code := code, detail := detail }] ∧
      (s.mEvent code detail).mgmt.evLost = s.mgmt.evLost + 1) ∧ (s.mEvent code detail).mgmt.ibiDue = true) ∧
  (∀ s : State, Served s → s.power.hold = false →
    (s.mgmt.events = [] → exec .pldmPollEvent s = .next (s.served.reply 0 [])) ∧
    (∀ e l, s.mgmt.events = e :: l → ∃ t body, exec .pldmPollEvent s = .next t ∧ t.mgmt.events = l ∧ t.mgmt.evLost = 0 ∧
      t.mgmt.resp = some (0, body) ∧ leNat (body.take 4) = e.code % 2 ^ 32 ∧ leNat (body.drop 12) = s.mgmt.evLost % 2 ^ 32))

/-- Status, records and orders of the rack manager: the caps, the run order, hold-up, lights, the inventory record, rework
entries, the fatal record, member reports, start settings and sensors (R450, R471, R575, R590, R603, R607, R612-R615). Where
the spec leaves a point open, the clause states the choice of log entries 100, 104, 105. -/
def Obligations.ManagementMessages : Prop :=
  ∀ s : State, Served s →
    let t := s.served
    (∃ body, exec .getStatus s = .next (t.reply 0 body) ∧ body.length = 64 ∧
      bits (leNat (slice body 0 8)) 32 12 = t.power.rack % 4096 ∧ bits (leNat (slice body 24 8)) 0 4 = t.boot.step % 16) ∧
    (∀ w : BitVec 16, ∃ u, exec (.setRackCap w) s = .next u ∧ u.power.rack = max 800 (min 2400 w.toNat) ∧
      u.mgmt.resp = some (0, leBytes 2 (max 800 (min 2400 w.toNat))) ∧ u.cap ≤ max 800 (min 2400 w.toNat)) ∧
    (∃ u, exec (.setRun true) s = .next u ∧ u.power.rackOn = true ∧ u.mgmt.resp = some (0, [])) ∧
    (∃ u, exec (.setRun false) s = .next u ∧ u.power.rackOn = false ∧ u.mgmt.resp = some (0, []) ∧
      (s.live = true → s.power.running = true → u.power.draining = true)) ∧
    (∀ on, exec (.setHoldup on) s = .next (({ t with mgmt := { t.mgmt with holdup := on } } : State).reply 0 [])) ∧
    (∀ p n, ∃ u, exec (.lights p n) s = .next u ∧ u.mgmt.locate = [Pattern.off, .blink1, .blink4, .steady].getD p.toNat .off ∧
      u.mgmt.locateEnd = s.now + BitVec.ofNat 64 (max 1 (min 3600 n.toNat) * 100000000)) ∧
    (∃ u, exec .lightsClearService s = .next u ∧ u.mgmt.service = (s.mgmt.service && !t.mgmt.steady.isEmpty)) ∧
    (s.mgmt.locate ≠ .off → s.mgmt.locateEnd.toNat ≤ s.now.toNat →
      exec .locateExpiry s = .next { s with mgmt := { s.mgmt with locate := .off } }) ∧
    (∃ body, exec .readInventory s = .next (t.reply 0 body) ∧ body.length = 512 ∧ slice body 20 8 = leBytes 8 Config.serial.toNat ∧
      leNat (slice body 508 4) = crc32c (body.take 508)) ∧
    (∀ e, (s.boot.mainOn = true ∨ s.mgmt.lock = true) → exec (.appendRework e) s = .next (t.reply 3 [])) ∧
    (∀ e, s.boot.mainOn = false → s.mgmt.lock = false → e.length = 24 → reworkOk e = true → s.mgmt.nextSlot < 12 →
      ∃ u, exec (.appendRework e) s = .next u ∧ u.mgmt.resp = some (0, []) ∧
        Tab.get (fun _ => List.replicate 24 0) u.mgmt.rework s.mgmt.nextSlot = e ∧
        u.mgmt.nextSlot = (s.mgmt.nextSlot + 1) % 12 ∧ u.mgmt.used = min 12 (s.mgmt.used + 1)) ∧
    (∀ off : BitVec 16, (8768 ≤ off.toNat → exec (.readFatal off) s = .next (t.reply 1 [])) ∧
      (off.toNat < 8768 → s.resets.fatal ≠ [] → ∃ u, exec (.readFatal off) s = .next u ∧
        u.mgmt.resp = some (0, slice s.resets.fatal off.toNat (min 4096 (8768 - off.toNat))) ∧
        (u.resets.fatalRead = true ↔ s.resets.fatalRead = true ∨ 8768 ≤ off.toNat + 4096))) ∧
    (∀ m, s.swarm.role ≠ 3 → exec (.readMember m) s = .next (t.reply 3 [])) ∧
    (∀ m, s.swarm.role = 3 → ∃ body, exec (.readMember m) s = .next (t.reply 0 body) ∧ leNat (body.take 4) =
      (Tab.get (fun _ => MemberRep.reset) t.swarm.reports m.toNat).retire % 2 ^ 32) ∧
    (∀ a b, ∃ u, exec (.setStart a b) s = .next u ∧ u.barB startKey 0 = a ∧ u.barB startKey 1 = b ∧
      u.mgmt.resp = some (0, [])) ∧
    exec (.pldmGetSensor 2) s = .next (t.reply 0 (leBytes 4 (BitVec.ofInt 32 t.cap).toNat)) ∧
    (∃ u v, exec (.pldmGetSensor 5) s = .next u ∧ u.mgmt.resp = some (v, []) ∧ 1 ≤ v) ∧
    (∀ v, ∃ u, exec (.pldmSetEffecter 101 v) s = .next u ∧ u.power.rack = max 800 (min 2400 v) ∧ u.mgmt.resp = some (0, [])) ∧
    (∃ u body, exec (.mctpControl true) s = .next u ∧ u.mgmt.resp = some (0, body)) ∧
    exec (.mctpControl false) s = .next (t.bump 53 1)

/-- Identity and attestation: the signature index is used once, the record names nonce, fuses and measurements, and requests
less than a second apart are BUSY; the log is read by entries (R602, R619-R623). -/
def Claims.Attestation : Prop :=
  ∀ s : State, Served s →
    let t := s.served
    exec .identity s = .next (t.reply 0 Config.identity) ∧
    (∀ k : BitVec 8, exec (.readLog k) s = .next (t.reply 0 (((s.mgmt.log.drop k.toNat).take 64).flatMap LogEntry.bytes))) ∧
    (∀ n a, s.mgmt.attestAt = some a → (s.now - a).toNat < 100000000 →
      exec (.attest n) s = .next (t.collarClamp.reply 4 [])) ∧
    (∀ n, (∀ a, s.mgmt.attestAt = some a → 100000000 ≤ (s.now - a).toNat) →
      (s.mgmt.index < 1024 → 1 ≤ s.mgmt.block → s.mgmt.block < 2 ^ 30 → ∃ u rec, exec (.attest n) s = .next u ∧
        u.mgmt.index = s.mgmt.index + 1 ∧ u.mgmt.block = s.mgmt.block ∧ u.mgmt.attestAt = some s.now ∧
        u.mgmt.resp = some (0, rec ++ signatureBytes ((s.mgmt.block - 1) * 1024 + s.mgmt.index) rec) ∧
        slice rec 16 32 = leBytes 32 n.toNat ∧ (signatureBytes ((s.mgmt.block - 1) * 1024 + s.mgmt.index) rec).length = 9893) ∧
      (1024 ≤ s.mgmt.index → s.mgmt.block < 2 ^ 30 → ∃ u, exec (.attest n) s = .next u ∧ u.mgmt.index = 1 ∧
        u.mgmt.block = s.mgmt.block + 1) ∧
      (1024 ≤ s.mgmt.index → 2 ^ 30 ≤ s.mgmt.block → exec (.attest n) s = .next (t.reply 3 [])))

/-- The hour counts (R588, R615). -/
def Claims.HourCounts : Prop :=
  ∀ s : State, s.boot.standby = true → ∃ t, exec .hourCountUpdate s = .next t ∧
    t.mgmt.stbyHrs = (s.mgmt.stbyHrs + 1) % 2 ^ 32 ∧
    t.mgmt.mainHrs = (if s.power.running then (s.mgmt.mainHrs + 1) % 2 ^ 32 else s.mgmt.mainHrs) ∧
    t.mgmt.nv = (t.mgmt.mainHrs, t.mgmt.stbyHrs, t.mgmt.starts, t.mgmt.fulls) ∧ t.boot.ageH = min 65535 (s.boot.ageH + 1) ∧
    (t.boot.recValid = true ↔ s.boot.recValid = true ∧ t.boot.ageH ≤ 168)

/-! ### Firmware and the owner (R186, R616-R618, R624-R632) -/

/-- The update of firmware from BEGIN to CONFIRM: its states, what is refused in which, and that the bank in effect changes only
when the controllers are ready, the fuses only when the image is confirmed (R186, R628-R632). Where the spec leaves a point
open, the clause states the choice of log entries 95, 103. -/
def Obligations.FirmwareUpdate : Prop :=
  ∀ s : State,
    (Served s →
      let t := s.served
      (∀ n : BitVec 32, s.mgmt.fwState = 0 → t.fwRefusal = 0 → n.toNat ≤ 64 * 2 ^ 20 → ∃ u, exec (.fwBegin n) s = .next u ∧
        u.mgmt.fwState = 1 ∧ u.mgmt.fwLen = n.toNat ∧ u.mgmt.fwBytes = [] ∧ u.mgmt.bank = s.mgmt.bank ∧
        u.mgmt.resp = some (0, [])) ∧
      (∀ n, s.mgmt.fwState ≠ 0 → exec (.fwBegin n) s = .next (t.turnAway 7 8)) ∧
      (∀ (off : BitVec 32) d, s.mgmt.fwState = 1 → 1 ≤ d.length → d.length ≤ 4096 → off.toNat = s.mgmt.fwBytes.length →
        s.mgmt.fwBytes.length + d.length ≤ s.mgmt.fwLen → exec (.fwData off d) s =
          .next (({ t with mgmt := { t.mgmt with fwBytes := s.mgmt.fwBytes ++ d } } : State).reply 0 [])) ∧
      (∀ (off : BitVec 32) d, s.mgmt.fwState = 1 → 1 ≤ d.length → d.length ≤ 4096 → off.toNat ≠ s.mgmt.fwBytes.length →
        exec (.fwData off d) s = .next (t.turnAway 7 8)) ∧
      (s.mgmt.fwState = 1 → s.mgmt.fwBytes.length = s.mgmt.fwLen → ∃ u, exec .fwEnd s = .next u ∧ u.mgmt.fwState = 2) ∧
      (s.mgmt.fwState ≠ 1 → exec .fwEnd s = .next (t.reply 3 [])) ∧
      (s.mgmt.fwState = 3 → t.fwRefusal = 0 → (t.image (!s.mgmt.bank)).arev.toNat = t.arev → ∃ u, exec .fwActivate s = .next u ∧
        u.mgmt.fwState = 4 ∧ u.mgmt.bank = s.mgmt.bank) ∧
      (s.mgmt.fwState = 3 → t.fwRefusal = 0 → (t.image (!s.mgmt.bank)).arev.toNat ≠ t.arev → ∃ u, exec .fwActivate s = .next u ∧
        u.mgmt.fwState = 7 ∧ u.mgmt.bank = (!s.mgmt.bank) ∧ u.mgmt.trial = true) ∧
      (s.mgmt.fwState ≠ 3 → s.mgmt.fwState ≠ 6 → exec .fwActivate s = .next (t.reply 3 [])) ∧
      (s.mgmt.fwState = 6 → (t.image t.mgmt.bank).secver ≤ 64 → ∃ u, exec .fwConfirm s = .next u ∧ u.mgmt.fwState = 0 ∧
        u.mgmt.trial = false ∧ u.mgmt.fuses = max s.mgmt.fuses (t.image t.mgmt.bank).secver) ∧
      (s.mgmt.fwState ≠ 6 → exec .fwConfirm s = .next (t.reply 3 [])) ∧
      ((s.mgmt.fwState = 1 ∨ s.mgmt.fwState = 3) → ∃ u, exec .fwAbort s = .next u ∧ u.mgmt.fwState = 0 ∧
        u.mgmt.bank = s.mgmt.bank) ∧
      (s.mgmt.fwState ≠ 1 → s.mgmt.fwState ≠ 3 → exec .fwAbort s = .next (t.reply 3 []))) ∧
    (s.boot.standby = true → s.mgmt.fwState = 1 → ∃ u, exec .fwReceiveTimeout s = .next u ∧ u.mgmt.fwState = 0 ∧
      u.mgmt.fwResult = 10) ∧
    (s.boot.standby = true → s.mgmt.fwState = 2 → ∀ loaded, ∃ u, exec (.fwVerifyDone loaded) s = .next u ∧
      u.mgmt.bank = s.mgmt.bank ∧
      let r := s.imageResult s.mgmt.fwBytes
      (r ≠ 0 → u.mgmt.fwState = 0 ∧ u.mgmt.fwResult = r) ∧ (r = 0 → loaded = true → u.mgmt.fwState = 3) ∧
      (r = 0 → loaded = false → u.mgmt.fwState = 0)) ∧
    (s.live = true → s.mgmt.fwState = 5 → (∃ u, exec .fwControllersReady s = .next u ∧ u.mgmt.fwState = 6 ∧
        u.mgmt.bank = (!s.mgmt.bank) ∧ u.mgmt.trial = true) ∧
      ∃ u, exec .fwActivationTimeout s = .next u ∧ u.mgmt.fwState = 0 ∧ u.mgmt.fwResult = 9 ∧ u.mgmt.bank = s.mgmt.bank)

/-- The owner's commands: the first key is enrolled once; each command needs the key's signature over it, a sequence number
above the last, and this module's serial number; it locks, unlocks, replaces the key, or releases the module (R616-R618).
Where the spec leaves a point open, the clause states the choice of log entries 92, 103. -/
def Obligations.OwnerCommands : Prop :=
  ∀ s : State, Served s →
    let t := s.served
    (∀ k, s.mgmt.owner = none → k.length = 68 → ∃ u, exec (.ownerEnrol k) s = .next u ∧ u.mgmt.owner = some k ∧
      u.mgmt.resp = some (0, [])) ∧
    (∀ k o, s.mgmt.owner = some o → exec (.ownerEnrol k) s = .next (t.reply 3 [])) ∧
    (∀ (serial seq : Word) key body sig,
      let zero := List.replicate 68 (0 : Byte)
      let k68 := leBytes 68 (leNat key)
      let cs := [(Instr.ownerSetLock serial seq body sig, 1, zero), (.ownerClearLock serial seq body sig, 2, zero),
        (.ownerReplaceKey serial seq key body sig, 3, k68), (.ownerRelease serial seq body sig, 4, zero)]
      (∀ x ∈ cs, (s.mgmt.owner = none → exec x.1 s = .next (t.reply 3 [])) ∧
        ∀ o, s.mgmt.owner = some o →
          ((body ≠ ownerBody x.2.1 serial seq x.2.2 ∨ serial ≠ Config.serial) → exec x.1 s = .next (t.reply 1 [])) ∧
          (body = ownerBody x.2.1 serial seq x.2.2 → serial = Config.serial →
            (seq.toNat ≤ s.mgmt.ownerSeq.toNat → exec x.1 s = .next (t.reply 7 [])) ∧
            (s.mgmt.ownerSeq.toNat < seq.toNat → Config.signed body o sig = false → exec x.1 s = .next (t.reply 6 [])) ∧
            (s.mgmt.ownerSeq.toNat < seq.toNat → Config.signed body o sig = true → ∃ u, exec x.1 s = .next u ∧
              u.mgmt.ownerSeq = seq ∧ u.mgmt.resp = some (0, []) ∧
              (x.2.1 = 1 → u.mgmt.lock = true ∧ u.mgmt.owner = some o ∧
                (1 ≤ s.mgmt.fwState → s.mgmt.fwState ≤ 4 → u.mgmt.fwState = 0)) ∧
              (x.2.1 = 2 → u.mgmt.lock = false ∧ u.mgmt.owner = some o) ∧
              (x.2.1 = 3 → u.mgmt.owner = some k68 ∧ u.mgmt.lock = s.mgmt.lock) ∧
              (x.2.1 = 4 → u.mgmt.owner = none ∧ u.mgmt.lock = false)))))

/-! ### Freeze and in-service tests (R571, R652-R659) -/

/-- A freeze through function 0: a module that may freeze and whose dump area is in place begins it, another shows state 4; its
end lets the module go on; the dump is complete when its writes are performed (R571, R652, R653, R655). -/
def Claims.Freezes : Prop :=
  ∀ (s : State), s.live = true →
    (∀ fn, fn < 4 → fn < s.parts → fn ≠ 0 → exec (.freeze fn) s = .next s.hostContact ∧
      exec (.freezeRelease fn) s = .next s.hostContact) ∧
    (0 < s.parts → s.dbg.frState = 0 →
      ((s.mayFreeze = false ∨ s.hostContact.dumpHome s.owner = none) → ∃ t, exec (.freeze 0) s = .next t ∧ t.dbg.frState = 4) ∧
      (s.mayFreeze = true → (s.hostContact.dumpHome s.owner).isSome = true → ∃ t, exec (.freeze 0) s = .next t ∧
        t.dbg.frState = 1 ∧ (t.epochOf s.owner).freezing = true ∧ (t.epochOf s.owner).stopped = true ∧
        t.dbg.frNumber = (s.dbg.frNumber + 1) % 2 ^ 32)) ∧
    (0 < s.parts → s.mayFreeze = true → (s.dbg.frState = 1 ∨ s.dbg.frState = 2) → ∃ t, exec (.freezeRelease 0) s = .next t ∧
      t.dbg.frState = 0 ∧ (t.epochOf s.owner).freezing = false ∧ (t.epochOf s.owner).frozen = false) ∧
    (s.dbg.frState = 1 → (s.epochOf s.owner).frozen = true → s.outstanding (.log s.owner) = false →
      exec .dumpComplete s = .next { s with dbg := { s.dbg with frState := 2 } }) ∧
    (s.outstanding (.log s.owner) = true → exec .dumpComplete s = .refused .notDue)

/-- In-service tests: a unit that may be tested is, with its work passed on first; another is refused; a test that passes changes
nothing, one that fails retires its unit (R656-R659). -/
def Claims.ServiceTests : Prop :=
  ∀ (s : State) (u n : Nat), s.live = true →
    (s.testsOpen = true → s.power.running = true →
      (s.dbg.istReq = some (1, u, n) →
        (576 ≤ u → exec .istCell s = .next s.refuseTest) ∧
        (u < 576 → s.servedBy u = none → exec .istCell s = .next (s.startTest (1, u, n))) ∧
        (∀ m, u < 576 → s.servedBy u = some m → (s.physOf u).retired = false → s.spareOf (m / 8) = none →
          exec .istCell s = .next s.refuseTest)) ∧
      (s.dbg.istReq = some (2, u, n) →
        ((32 ≤ u ∨ s.homeG (s.partOfDev u) ≠ 0 ∨ (s.frg (u ^^^ 1)).retired = true) →
          exec .istForager s = .next s.refuseTest) ∧
        (u < 32 → s.homeG (s.partOfDev u) = 0 → (s.frg (u ^^^ 1)).retired = false → (s.frg u).running = none →
          ∃ t, exec .istForager s = .next t ∧ t.dbg.istRun = some (2, u, n) ∧ t.dbg.istReq = none ∧
            (t.frg u).underTest = true)) ∧
      (s.dbg.istReq = some (3, u, n) →
        (u < 18 → (s.port u).state = 1 → (s.port u).lanes.getLsbD 8 = false → (s.port u).healthy.getLsbD 8 = true →
          exec .istLane s = .next (s.startTest (3, u, n))) ∧
        ((18 ≤ u ∨ (s.port u).state ≠ 1) → exec .istLane s = .next s.refuseTest)) ∧
      (s.dbg.istReq = some (4, u, n) →
        (u < 171 → s.phaseSpare u = true → exec .istPhase s = .next (s.startTest (4, u, n))) ∧
        ((171 ≤ u ∨ s.phaseSpare u = false) → exec .istPhase s = .next s.refuseTest))) ∧
    (∀ k e, s.dbg.istRun = some (k, u, n) →
      (∃ t, exec (.istComplete true e) s = .next t ∧ t.dbg.istRun = none ∧ t.dbg.istRes = 0 ∧
        (k = 2 → (t.frg u).underTest = false) ∧ t.phys = s.phys ∧ t.fab = s.fab ∧ t.power = s.power) ∧
      (∃ t, exec (.istComplete false e) s = .next t ∧ t.dbg.istRun = none ∧ t.dbg.istRes = 1 ∧
        (k = 1 → (t.physOf u).retired = true) ∧ (k = 4 → u ∈ t.power.phases) ∧
        (k = 3 → (t.port u).healthy.getLsbD 8 = false)))

/-! ### The module after reset, and what every step keeps -/

/-- The module after reset: no power, no command waits, every cell is idle with its registers at 0, every sync object is 0, memory
is in its canonical form; the set-up registers hold the values that their rows give for reset (R45, R300, R472, R507, R559, R566). -/
def Obligations.ResetState : Prop :=
  let s := State.reset
  s.pending = [] ∧ s.boot.standby = false ∧ s.live = false ∧ s.power.running = false ∧ Memory.wf s = true ∧
  (∀ n r, (s.cell n).run = .idle ∧ (s.cell n).arch.sreg r = 0 ∧ (s.cell n).arch.pc = 0 ∧ (s.cell n).arch.p = 1 ∧
    (s.cell n).arch.xstat = 0 ∧ (s.cell n).arch.rmode = 0 ∧ (s.cell n).arch.amode = 0) ∧
  (∀ k, s.obj k = 0) ∧
  s.barF 0x050000 0 12 = 2400 ∧ s.power.rack = 2400 ∧ s.barF 0x050008 0 1 = 1 ∧
  s.barF 0x060000 0 15 = 2000 ∧ s.barF 0x060000 16 7 = 25 ∧ s.barF 0x060000 24 6 = 8 ∧ s.barF 0x060000 30 1 = 1 ∧
  s.barF 0x060000 32 2 = 2 ∧ s.barF 0x061008 0 22 = 10000 ∧
  (List.range 4).map (fun d => (s.barF (0x061100 + 8 * d) 0 4, s.barF (0x061100 + 8 * d) 8 11)) =
    [(3, 10), (3, 30), (4, 60), (3, 60)]

/-- Every step keeps the two stores of bytes in canonical form: keys strictly rising, and no entry equal to what an unlisted key
reads as. -/
def Obligations.MemoryStaysCanonical : Prop :=
  ∀ s t : State, Memory.wf s = true → step s = .next t → Memory.wf t = true

/-! ### The statements of several parts -/

/-- A step with no command is one reference tick (log 6); the pins SYNC_OUT and SYNC_IN. Where the spec leaves a point open, the
clause states the choice of log entries 6, 20, 79. -/
def Obligations.TicksAndSyncPins : Prop :=
  Claims.EmptyQueueTicks ∧ Claims.SyncPins

/-- Words of the cell instructions: decode of encode and encode of decode. Where the spec leaves a point open, the clause states
the choice of log entry 106. -/
def Obligations.InstructionWordsRoundTrip : Prop :=
  Claims.DecodeOfEncode ∧ Claims.EncodeOfDecode

/-- Results of the scalar, predicate and immediate instructions. -/
def Obligations.ScalarInstructions : Prop :=
  Claims.ScalarResults ∧ Claims.Predicates ∧ Claims.Immediates

/-- Special registers, branches, loops and halt. Where the spec leaves a point open, the clause states the choice of log entry
131. -/
def Obligations.ControlAndSpecialRegisters : Prop :=
  Claims.SpecialRegisters ∧ Claims.Control

/-- Vector instructions on integer lanes, on bits, and those that move lanes. -/
def Obligations.VectorIntegersAndMoves : Prop :=
  Claims.VectorIntegerLanes ∧ Claims.VectorBitsAndMoves

/-- Floating-point lanes are rounded once; rounding is exact on the format. -/
def Obligations.VectorFloatArithmetic : Prop :=
  Claims.VectorFloatArithmetic ∧ Claims.RoundingIsExactOnTheFormat

/-- vcvt and vtr. Where the spec leaves a point open, the clause states the choice of log entry 8. -/
def Obligations.VectorConversions : Prop :=
  Claims.VectorConversion ∧ Claims.VectorTranscendental

/-- False predicates, illegal words, types not accepted, and what a program fault does. Where the spec leaves a point open, the
clause states the choice of log entries 17, 106, 132. -/
def Obligations.InstructionFaults : Prop :=
  Claims.VectorTypeNotAccepted ∧ Claims.FalsePredicateDoesNothing ∧ Claims.ReservedFieldsFault ∧ Claims.ProgramFaultStopsTheCommand

/-- Loads and stores of the own cell memory, and all that they leave as it was. Where the spec leaves a point open, the clause
states the choice of log entries 14, 121. -/
def Obligations.OwnMemoryAccesses : Prop :=
  Claims.OwnMemoryLoads ∧ Claims.OwnMemoryStores ∧ Claims.CellMemoryErrors

/-- The exact-accumulate instructions, and the residue check. Where the spec leaves a point open, the clause states the choice
of log entry 53. -/
def Obligations.ExactAccumulators : Prop :=
  Claims.ExactAccumulate ∧ Claims.ResidueMismatch

/-- Sums into an accumulator give the same image in every order. Where the spec leaves a point open, the clause states the
choice of log entry 9. -/
def Obligations.ExactSumsInAnyOrder : Prop :=
  Claims.ExactSumOrderFree ∧ Claims.BinnedSumOrderFree

/-- mma, acc.ld and acc.rd. Where the spec leaves a point open, the clause states the choice of log entries 10, 13, 18, 19, 127,
134. -/
def Obligations.MatrixInstructions : Prop :=
  Claims.MatrixMultiply ∧ Claims.MatrixEmptyTiles ∧ Claims.AccumulatorTransfers

/-- Tile descriptors and tile moves. Where the spec leaves a point open, the clause states the choice of log entries 13, 25, 26. -/
def Obligations.TileInstructions : Prop :=
  Claims.DescriptorFields ∧ Claims.TileMoves ∧ Claims.TileMoveCompletes

/-- Signals, waits, fences, and descriptors handed to the engines. Where the spec leaves a point open, the clause states the
choice of log entries 34, 128, 129, 130. -/
def Obligations.SyncAndHandOverInstructions : Prop :=
  Claims.SyncInstructions ∧ Claims.SyncAddressChecks ∧ Claims.Fences ∧ Claims.HandOver ∧ Claims.RemoteSignals

/-- Updates of sync objects, and waits tested again. -/
def Obligations.SyncObjects : Prop :=
  Claims.SyncObjectUpdates ∧ Claims.WaitsTestedAgain

/-- Seams, droop, voltage, zero fill and the banks of cell memory. Where the spec leaves a point open, the clause states the
choice of log entries 21, 22, 23, 119. -/
def Obligations.PackageEvents : Prop :=
  Claims.SeamPackets ∧ Claims.Droop ∧ Claims.VoltageSettles ∧ Claims.ZeroFill ∧ Claims.BankStarvation

/-- Standby power, its loss, and the reference. Where the spec leaves a point open, the clause states the choice of log entries
2, 4, 24. -/
def Obligations.PowerDomains : Prop :=
  Claims.Supplies ∧ Claims.NothingWithoutStandby

/-- Failed cells, spares, guests and their switches. Where the spec leaves a point open, the clause states the choice of log
entries 50, 53, 58. -/
def Obligations.CellReplacement : Prop :=
  Claims.CellFailures ∧ Claims.GuestSwitches

/-- Commands: start, the small classes, completion. Where the spec leaves a point open, the clause states the choice of log
entries 43, 44, 45, 46, 49, 124, 126, 133. -/
def Obligations.CommandLife : Prop :=
  Claims.CommandStart ∧ Claims.SmallCommands ∧ Claims.CommandComplete

/-- The commands KERNEL, MOVE, FORAGE and COLLECT. Where the spec leaves a point open, the clause states the choice of log
entries 40, 42, 47, 48, 121. -/
def Obligations.CommandWork : Prop :=
  Claims.KernelCommands ∧ Claims.DataCommands

/-- The ECC codeword: one symbol corrected, two or three detected. -/
def Obligations.EccOfLines : Prop :=
  Claims.EccCorrectsOneSymbol ∧ Claims.EccDetectsThreeSymbols

/-- Requests, scrub and retirement in close memory; far requests. Where the spec leaves a point open, the clause states the
choice of log entries 27, 53, 54, 55, 56, 57, 60, 116. -/
def Obligations.CloseAndFarMemory : Prop :=
  Claims.CloseMemoryRequests ∧ Claims.Scrubbing ∧ Claims.DeviceRetirement ∧ Claims.FarRequests

/-- Foragers: classes, completion, lining copies, retirement. Where the spec leaves a point open, the clause states the choice
of log entries 28, 29, 30, 31, 32, 33, 35, 53, 121. -/
def Obligations.Foragers : Prop :=
  Claims.ForagerClasses ∧ Claims.ForagerDescriptorCompletes ∧ Claims.LiningCopies ∧ Claims.ForagerRetirement

/-- Host accesses, back-invalidation and the states of the host link. Where the spec leaves a point open, the clause states the
choice of log entries 3, 62, 63, 120, 123. -/
def Obligations.HostAccess : Prop :=
  Claims.HostMemory ∧ Claims.BackInvalidation ∧ Claims.HostLinkStates

/-- Writes of set-up registers, and commits. Where the spec leaves a point open, the clause states the choice of log entries 69,
71. -/
def Obligations.HostRegisters : Prop :=
  Claims.RegisterWrites ∧ Claims.Commits

/-- Watched lines, doorbells and intake. Where the spec leaves a point open, the clause states the choice of log entries 49, 63,
70, 72. -/
def Obligations.HostRings : Prop :=
  Claims.WatchedLines ∧ Claims.Doorbells ∧ Claims.Intake

/-- Ports, lanes, packets as bytes, and link-level retry. Where the spec leaves a point open, the clause states the choice of
log entries 15, 74, 125. -/
def Obligations.FabricLinks : Prop :=
  Claims.PortStates ∧ Claims.LanesInUse ∧ Claims.PacketBytes ∧ Claims.Flits

/-- Decisions about packets in transit and originated packets. Where the spec leaves a point open, the clause states the choice
of log entry 7. -/
def Obligations.FabricRouting : Prop :=
  Claims.TransitDecision ∧ Claims.PortChosen ∧ Claims.OriginatedPackets

/-- Each packet is performed once, and acknowledged. Where the spec leaves a point open, the clause states the choice of log
entries 75, 77. -/
def Obligations.FabricStreams : Prop :=
  Claims.StreamsPerformOnce ∧ Claims.StreamChecks ∧ Claims.Acknowledgements

/-- Remote writes, reads and signals, and the answers to them. Where the spec leaves a point open, the clause states the choice
of log entries 16, 75. -/
def Obligations.FabricAccesses : Prop :=
  Claims.DataPackets ∧ Claims.ReadData ∧ Claims.SignalPackets ∧ Claims.PacketAnswers

/-- Collectives: start, packets, completion. Where the spec leaves a point open, the clause states the choice of log entries 37,
38, 39, 40, 42, 78, 89, 121, 124. -/
def Obligations.Collectives : Prop :=
  Claims.CollectiveStart ∧ Claims.CollectivePackets ∧ Claims.CollectiveCompletes

/-- Segments cover the result; the stages reach every member. Where the spec leaves a point open, the clause states the choice
of log entry 36. -/
def Obligations.CollectivePaths : Prop :=
  Claims.CollectiveSegments ∧ Claims.WaggleReachesAll

/-- SWARM packets and routing entries. Where the spec leaves a point open, the clause states the choice of log entries 76, 77. -/
def Obligations.SwarmMembers : Prop :=
  Claims.SwarmPackets ∧ Claims.RoutesInEffect

/-- Heartbeats, takeover, substitution and quench. Where the spec leaves a point open, the clause states the choice of log
entries 51, 52, 76. -/
def Obligations.SwarmControl : Prop :=
  Claims.SwarmFailures ∧ Claims.QuenchPackets

/-- The effective cap, the brake and the governor. Where the spec leaves a point open, the clause states the choice of log
entries 64, 66, 119. -/
def Obligations.PowerCaps : Prop :=
  Claims.EffectiveCap ∧ Claims.Brake ∧ Claims.Governor

/-- Off orders and idle depths. Where the spec leaves a point open, the clause states the choice of log entries 65, 68, 120. -/
def Obligations.PowerStates : Prop :=
  Claims.OffOrders ∧ Claims.IdleDepths

/-- Die sensors, coolant, leaks, input power and the silent-authority hold. Where the spec leaves a point open, the clause
states the choice of log entry 67. -/
def Obligations.SensorsAndContact : Prop :=
  Claims.DieSensors ∧ Claims.Coolant ∧ Claims.LeaksAndInput ∧ Claims.SilentAuthority

/-- The start, its tables, and the placement. Where the spec leaves a point open, the clause states the choice of log entries 1,
97. -/
def Obligations.StartAndPlacement : Prop :=
  Claims.Starts ∧ Claims.TablesBuilt ∧ Claims.Placements

/-- The steps of an epoch, and MARKER packets. Where the spec leaves a point open, the clause states the choice of log entries
73, 79, 83, 84. -/
def Obligations.Epochs : Prop :=
  Claims.EpochSteps ∧ Claims.Markers

/-- Abandoned epochs, and the repair of a granule. Where the spec leaves a point open, the clause states the choice of log
entries 53, 84, 86. -/
def Obligations.EpochAbandonAndRepair : Prop :=
  Claims.EpochAbandoned ∧ Claims.Repairs

/-- Recovery of a partition, alone and in a swarm. Where the spec leaves a point open, the clause states the choice of log
entries 80, 81, 82, 85, 86, 87, 88. -/
def Obligations.Recoveries : Prop :=
  Claims.RecoverySteps ∧ Claims.RecoveryPackets

/-- Cell, comb, partition and whole-module resets, and the fatal stop. Where the spec leaves a point open, the clause states the
choice of log entries 90, 91, 94, 96. -/
def Obligations.Resets : Prop :=
  Claims.UnitResets ∧ Claims.PartitionResets ∧ Claims.WholeModuleReset ∧ Claims.FatalStop

/-- Watchdogs, heartbeats and counted resets. Where the spec leaves a point open, the clause states the choice of log entry 90. -/
def Obligations.HangsAndEscalation : Prop :=
  Claims.Watchdogs ∧ Claims.Heartbeats ∧ Claims.ResetCounts

/-- The management port and its events. Where the spec leaves a point open, the clause states the choice of log entries 101,
105. -/
def Obligations.ManagementPort : Prop :=
  Claims.ManagementPort ∧ Claims.ManagementEvents

/-- Identity, attestation, the measurement log, and the hour counts. Where the spec leaves a point open, the clause states the
choice of log entries 92, 93, 102. -/
def Obligations.AttestationAndHours : Prop :=
  Claims.Attestation ∧ Claims.HourCounts

/-- The debug freeze and in-service tests. Where the spec leaves a point open, the clause states the choice of log entries 98,
99. -/
def Obligations.FreezesAndServiceTests : Prop :=
  Claims.Freezes ∧ Claims.ServiceTests
end

