-- ==== Sys2Proof/Laws/Tab.lean ====
section
/-!
SUPPORT. Sparse tables: reading what was written, and the canonical form.
-/

namespace Sys2Proof

variable {α : Type}

/-- A bound on the keys may be lowered. -/
theorem Tab.above_mono : ∀ (t : Tab α) (b c : Nat), Tab.above b t = true → c ≤ b → Tab.above c t = true
  | [], _, _, _, _ => rfl
  | (j, _) :: _, b, c, h, hc => by
    simp only [Tab.above, Bool.and_eq_true, decide_eq_true_eq] at h ⊢
    exact ⟨by omega, h.2⟩

/-- Keys above a bound rise strictly. -/
theorem Tab.sorted_of_above (t : Tab α) (b : Nat) (h : Tab.above b t = true) : Tab.sorted t = true := by
  cases t with
  | nil => rfl
  | cons e t =>
    simp only [Tab.above, Bool.and_eq_true] at h
    exact h.2

/-! ### Reading after writing -/

@[simp] theorem Tab.get_put_self (d : Nat → α) (k : Nat) (x : α) : ∀ t : Tab α, Tab.get d (Tab.put t k x) k = x
  | [] => by simp [Tab.put, Tab.get]
  | (j, v) :: t => by
    simp only [Tab.put]
    split
    · simp [Tab.get]
    · split
      · simp [Tab.get]
      · simp [Tab.get, *, Tab.get_put_self d k x t]

theorem Tab.get_put_other (d : Nat → α) (k j : Nat) (x : α) (h : j ≠ k) :
    ∀ t : Tab α, Tab.get d (Tab.put t k x) j = Tab.get d t j
  | [] => by simp [Tab.put, Tab.get, h]
  | (i, v) :: t => by
    simp only [Tab.put]
    split
    · subst_vars; simp [Tab.get, h]
    · split
      · simp [Tab.get, h]
      · simp only [Tab.get, Tab.get_put_other d k j x h t]

@[simp] theorem Tab.get_erase_self (d : Nat → α) (k : Nat) : ∀ t : Tab α, Tab.get d (Tab.erase t k) k = d k
  | [] => rfl
  | (j, v) :: t => by
    simp only [Tab.erase]
    split
    · exact Tab.get_erase_self d k t
    · simp [Tab.get, *, Tab.get_erase_self d k t]

theorem Tab.get_erase_other (d : Nat → α) (k i : Nat) (h : i ≠ k) :
    ∀ t : Tab α, Tab.get d (Tab.erase t k) i = Tab.get d t i
  | [] => rfl
  | (j, v) :: t => by
    simp only [Tab.erase]
    split
    · subst_vars; simp [Tab.get, h, Tab.get_erase_other d _ i h t]
    · simp only [Tab.get, Tab.get_erase_other d k i h t]

@[simp] theorem Tab.get_set_self [DecidableEq α] (d : Nat → α) (t : Tab α) (k : Nat) (x : α) :
    Tab.get d (Tab.set d t k x) k = x := by
  unfold Tab.set
  split
  · subst_vars; exact Tab.get_erase_self d k t
  · exact Tab.get_put_self d k x t

theorem Tab.get_set_other [DecidableEq α] (d : Nat → α) (t : Tab α) (k j : Nat) (x : α) (h : j ≠ k) :
    Tab.get d (Tab.set d t k x) j = Tab.get d t j := by
  unfold Tab.set
  split
  · exact Tab.get_erase_other d k j h t
  · exact Tab.get_put_other d k j x h t

/-! ### The canonical form is kept -/

theorem Tab.above_erase (k : Nat) : ∀ (t : Tab α) (b : Nat), Tab.above b t = true → Tab.above b (Tab.erase t k) = true
  | [], _, _ => rfl
  | (j, v) :: t, b, h => by
    simp only [Tab.above, Bool.and_eq_true, decide_eq_true_eq] at h
    simp only [Tab.erase]
    split
    · exact Tab.above_erase k t b (Tab.above_mono t j b h.2 (by omega))
    · simp [Tab.above, h.1, Tab.above_erase k t j h.2]

theorem Tab.above_put (k : Nat) (x : α) :
    ∀ (t : Tab α) (b : Nat), Tab.above b t = true → b < k → Tab.above b (Tab.put t k x) = true
  | [], _, _, hk => by simp [Tab.put, Tab.above, hk]
  | (j, v) :: t, b, h, hk => by
    simp only [Tab.above, Bool.and_eq_true, decide_eq_true_eq] at h
    simp only [Tab.put]
    split
    · subst_vars; simp [Tab.above, h]
    · split
      · rename_i h2; simp [Tab.above, hk, h2, h.2]
      · simp [Tab.above, h.1, Tab.above_put k x t j h.2 (by omega)]

theorem Tab.sorted_erase (k : Nat) (t : Tab α) (h : Tab.sorted t = true) : Tab.sorted (Tab.erase t k) = true := by
  cases t with
  | nil => rfl
  | cons e t =>
    obtain ⟨j, v⟩ := e
    simp only [Tab.sorted] at h
    simp only [Tab.erase]
    split
    · exact Tab.sorted_of_above _ j (Tab.above_erase k t j h)
    · exact Tab.above_erase k t j h

theorem Tab.sorted_put (k : Nat) (x : α) (t : Tab α) (h : Tab.sorted t = true) : Tab.sorted (Tab.put t k x) = true := by
  cases t with
  | nil => rfl
  | cons e t =>
    obtain ⟨j, v⟩ := e
    simp only [Tab.sorted] at h
    simp only [Tab.put]
    split
    · subst_vars; exact h
    · split
      · rename_i h2; simp [Tab.sorted, Tab.above, h2, h]
      · exact Tab.above_put k x t j h (by omega)

theorem Tab.sparse_erase [DecidableEq α] (d : Nat → α) (k : Nat) :
    ∀ t : Tab α, Tab.sparse d t = true → Tab.sparse d (Tab.erase t k) = true
  | [], _ => rfl
  | (j, v) :: t, h => by
    simp only [Tab.sparse, Bool.and_eq_true] at h
    simp only [Tab.erase]
    split
    · exact Tab.sparse_erase d k t h.2
    · simp [Tab.sparse, h.1, Tab.sparse_erase d k t h.2]

theorem Tab.sparse_put [DecidableEq α] (d : Nat → α) (k : Nat) (x : α) (hx : x ≠ d k) :
    ∀ t : Tab α, Tab.sparse d t = true → Tab.sparse d (Tab.put t k x) = true
  | [], _ => by simp [Tab.put, Tab.sparse, hx]
  | (j, v) :: t, h => by
    simp only [Tab.sparse, Bool.and_eq_true] at h
    simp only [Tab.put]
    split
    · subst_vars; simp [Tab.sparse, hx, h.2]
    · split
      · simp [Tab.sparse, hx, h]
      · simp [Tab.sparse, h.1, Tab.sparse_put d k x hx t h.2]

/-- A write keeps the canonical form. -/
theorem Tab.wf_set [DecidableEq α] (d : Nat → α) (t : Tab α) (k : Nat) (x : α) (h : Tab.wf d t = true) :
    Tab.wf d (Tab.set d t k x) = true := by
  simp only [Tab.wf, Bool.and_eq_true] at h ⊢
  unfold Tab.set
  split
  · exact ⟨Tab.sorted_erase k t h.1, Tab.sparse_erase d k t h.2⟩
  · exact ⟨Tab.sorted_put k x t h.1, Tab.sparse_put d k x ‹_› t h.2⟩

theorem Tab.wf_sorted [DecidableEq α] {d : Nat → α} {t : Tab α} (h : Tab.wf d t = true) : Tab.sorted t = true := by
  simp only [Tab.wf, Bool.and_eq_true] at h
  exact h.1

theorem Tab.above_filter (f : Nat × α → Bool) :
    ∀ (t : Tab α) (b : Nat), Tab.above b t = true → Tab.above b (t.filter f) = true
  | [], _, _ => rfl
  | e :: t, b, h => by
    obtain ⟨j, v⟩ := e
    simp only [Tab.above, Bool.and_eq_true, decide_eq_true_eq] at h
    by_cases hf : f (j, v) = true
    · simp [List.filter, hf, Tab.above, h.1, Tab.above_filter f t j h.2]
    · simp only [Bool.not_eq_true] at hf
      simp only [List.filter, hf]
      exact Tab.above_filter f t b (Tab.above_mono t j b h.2 (by omega))

theorem Tab.sparse_filter [DecidableEq α] (d : Nat → α) (f : Nat × α → Bool) :
    ∀ t : Tab α, Tab.sparse d t = true → Tab.sparse d (t.filter f) = true
  | [], _ => rfl
  | e :: t, h => by
    obtain ⟨j, v⟩ := e
    simp only [Tab.sparse, Bool.and_eq_true] at h
    by_cases hf : f (j, v) = true
    · simp [List.filter, hf, Tab.sparse, h.1, Tab.sparse_filter d f t h.2]
    · simp only [Bool.not_eq_true] at hf
      simp only [List.filter, hf]
      exact Tab.sparse_filter d f t h.2

/-- A part of a table in canonical form is in canonical form. -/
theorem Tab.wf_filter [DecidableEq α] (d : Nat → α) (f : Nat × α → Bool) (t : Tab α) (h : Tab.wf d t = true) :
    Tab.wf d (t.filter f) = true := by
  simp only [Tab.wf, Bool.and_eq_true] at h ⊢
  refine ⟨?_, Tab.sparse_filter d f t h.2⟩
  cases t with
  | nil => rfl
  | cons e t =>
    obtain ⟨j, v⟩ := e
    have h1 : Tab.above j t = true := h.1
    by_cases hf : f (j, v) = true
    · simpa [List.filter, hf, Tab.sorted] using Tab.above_filter f t j h1
    · simp only [Bool.not_eq_true] at hf
      simp only [List.filter, hf]
      exact Tab.sorted_of_above _ j (Tab.above_filter f t j h1)

end Sys2Proof
end

