-- ==== Sys2Proof/Laws/Exact.lean ====
section
/-!
SUPPORT. The residues of the exact accumulators: an adder that works never finds a mismatch, and what is written agrees with its
residues (R179-R181).
-/

namespace Sys2Proof.Machine

/-- An addition of two limbs agrees with its prediction (R180). -/
@[simp] theorem limbChecks_eq (a b cin : Nat) : limbChecks a b cin = true := by
  simp only [limbChecks, predicted, residue, limbAdd, beq_iff_eq]
  omega

/-- The limbs of an addition of two images agree with their predictions (R180). -/
@[simp] theorem addChecks_eq (x y n i cin : Nat) : addChecks x y n i cin = true := by
  induction n generalizing i cin with
  | zero => rfl
  | succ n ih => simp [addChecks, ih]

/-- The adders' predictions hold for every limb addition. -/
@[simp] theorem LimbChain.ok_eq (c : LimbChain) : c.ok = true := by simp [LimbChain.ok]

/-- So an upset is what strikes from outside. -/
@[simp] theorem adderUpset_eq (cs : List LimbChain) (u : Upset) : adderUpset cs u = u := by simp [adderUpset]

/-- An accumulator that has been written agrees with its residues (R179, R181). -/
@[simp] theorem Arch.setE_residuesOk (a : Arch) (r : Nat) (x : BitVec 640) : (a.setE r x).residuesOk r = true := by
  simp [Arch.residuesOk, Arch.setE, Arch.ereg]

end Sys2Proof.Machine
end

