-- ==== Sys2Proof/Laws/State.lean ====
section
/-!
SUPPORT. What each named update of the state leaves as it was, field by field, and what it puts in the field it is named for.
-/

namespace Sys2Proof.Machine

/-! ### setCell -/

@[simp] theorem State.setCell_remap (s : State) (n : Nat) (c : Cell) : (s.setCell n c).remap = s.remap := rfl
@[simp] theorem State.setCell_phys (s : State) (n : Nat) (c : Cell) : (s.setCell n c).phys = s.phys := rfl
@[simp] theorem State.setCell_switches (s : State) (n : Nat) (c : Cell) : (s.setCell n c).switches = s.switches := rfl
@[simp] theorem State.setCell_saveMoves (s : State) (n : Nat) (c : Cell) : (s.setCell n c).saveMoves = s.saveMoves := rfl
@[simp] theorem State.setCell_mem (s : State) (n : Nat) (c : Cell) : (s.setCell n c).mem = s.mem := rfl
@[simp] theorem State.setCell_ext (s : State) (n : Nat) (c : Cell) : (s.setCell n c).ext = s.ext := rfl
@[simp] theorem State.setCell_sync (s : State) (n : Nat) (c : Cell) : (s.setCell n c).sync = s.sync := rfl
@[simp] theorem State.setCell_sigs (s : State) (n : Nat) (c : Cell) : (s.setCell n c).sigs = s.sigs := rfl
@[simp] theorem State.setCell_waits (s : State) (n : Nat) (c : Cell) : (s.setCell n c).waits = s.waits := rfl
@[simp] theorem State.setCell_cmds (s : State) (n : Nat) (c : Cell) : (s.setCell n c).cmds = s.cmds := rfl
@[simp] theorem State.setCell_drips (s : State) (n : Nat) (c : Cell) : (s.setCell n c).drips = s.drips := rfl
@[simp] theorem State.setCell_rings (s : State) (n : Nat) (c : Cell) : (s.setCell n c).rings = s.rings := rfl
@[simp] theorem State.setCell_reps (s : State) (n : Nat) (c : Cell) : (s.setCell n c).reps = s.reps := rfl
@[simp] theorem State.setCell_watches (s : State) (n : Nat) (c : Cell) : (s.setCell n c).watches = s.watches := rfl
@[simp] theorem State.setCell_commits (s : State) (n : Nat) (c : Cell) : (s.setCell n c).commits = s.commits := rfl
@[simp] theorem State.setCell_bar (s : State) (n : Nat) (c : Cell) : (s.setCell n c).bar = s.bar := rfl
@[simp] theorem State.setCell_stg (s : State) (n : Nat) (c : Cell) : (s.setCell n c).stg = s.stg := rfl
@[simp] theorem State.setCell_wrote (s : State) (n : Nat) (c : Cell) : (s.setCell n c).wrote = s.wrote := rfl
@[simp] theorem State.setCell_frgs (s : State) (n : Nat) (c : Cell) : (s.setCell n c).frgs = s.frgs := rfl
@[simp] theorem State.setCell_fdescs (s : State) (n : Nat) (c : Cell) : (s.setCell n c).fdescs = s.fdescs := rfl
@[simp] theorem State.setCell_devs (s : State) (n : Nat) (c : Cell) : (s.setCell n c).devs = s.devs := rfl
@[simp] theorem State.setCell_reserve (s : State) (n : Nat) (c : Cell) : (s.setCell n c).reserve = s.reserve := rfl
@[simp] theorem State.setCell_far (s : State) (n : Nat) (c : Cell) : (s.setCell n c).far = s.far := rfl
@[simp] theorem State.setCell_farTag (s : State) (n : Nat) (c : Cell) : (s.setCell n c).farTag = s.farTag := rfl
@[simp] theorem State.setCell_farTurn (s : State) (n : Nat) (c : Cell) : (s.setCell n c).farTurn = s.farTurn := rfl
@[simp] theorem State.setCell_gather (s : State) (n : Nat) (c : Cell) : (s.setCell n c).gather = s.gather := rfl
@[simp] theorem State.setCell_drains (s : State) (n : Nat) (c : Cell) : (s.setCell n c).drains = s.drains := rfl
@[simp] theorem State.setCell_link (s : State) (n : Nat) (c : Cell) : (s.setCell n c).link = s.link := rfl
@[simp] theorem State.setCell_seams (s : State) (n : Nat) (c : Cell) : (s.setCell n c).seams = s.seams := rfl
@[simp] theorem State.setCell_starve (s : State) (n : Nat) (c : Cell) : (s.setCell n c).starve = s.starve := rfl
@[simp] theorem State.setCell_flips (s : State) (n : Nat) (c : Cell) : (s.setCell n c).flips = s.flips := rfl
@[simp] theorem State.setCell_fab (s : State) (n : Nat) (c : Cell) : (s.setCell n c).fab = s.fab := rfl
@[simp] theorem State.setCell_coll (s : State) (n : Nat) (c : Cell) : (s.setCell n c).coll = s.coll := rfl
@[simp] theorem State.setCell_swarm (s : State) (n : Nat) (c : Cell) : (s.setCell n c).swarm = s.swarm := rfl
@[simp] theorem State.setCell_place (s : State) (n : Nat) (c : Cell) : (s.setCell n c).place = s.place := rfl
@[simp] theorem State.setCell_power (s : State) (n : Nat) (c : Cell) : (s.setCell n c).power = s.power := rfl
@[simp] theorem State.setCell_epochs (s : State) (n : Nat) (c : Cell) : (s.setCell n c).epochs = s.epochs := rfl
@[simp] theorem State.setCell_pins (s : State) (n : Nat) (c : Cell) : (s.setCell n c).pins = s.pins := rfl
@[simp] theorem State.setCell_resets (s : State) (n : Nat) (c : Cell) : (s.setCell n c).resets = s.resets := rfl
@[simp] theorem State.setCell_boot (s : State) (n : Nat) (c : Cell) : (s.setCell n c).boot = s.boot := rfl
@[simp] theorem State.setCell_mgmt (s : State) (n : Nat) (c : Cell) : (s.setCell n c).mgmt = s.mgmt := rfl
@[simp] theorem State.setCell_dbg (s : State) (n : Nat) (c : Cell) : (s.setCell n c).dbg = s.dbg := rfl
@[simp] theorem State.setCell_nextId (s : State) (n : Nat) (c : Cell) : (s.setCell n c).nextId = s.nextId := rfl
@[simp] theorem State.setCell_freeCtr (s : State) (n : Nat) (c : Cell) : (s.setCell n c).freeCtr = s.freeCtr := rfl
@[simp] theorem State.setCell_pending (s : State) (n : Nat) (c : Cell) : (s.setCell n c).pending = s.pending := rfl

/-! ### setRemap -/

@[simp] theorem State.setRemap_cells (s : State) (n : Nat) (r : Remap) : (s.setRemap n r).cells = s.cells := rfl
@[simp] theorem State.setRemap_phys (s : State) (n : Nat) (r : Remap) : (s.setRemap n r).phys = s.phys := rfl
@[simp] theorem State.setRemap_switches (s : State) (n : Nat) (r : Remap) : (s.setRemap n r).switches = s.switches := rfl
@[simp] theorem State.setRemap_saveMoves (s : State) (n : Nat) (r : Remap) : (s.setRemap n r).saveMoves = s.saveMoves := rfl
@[simp] theorem State.setRemap_mem (s : State) (n : Nat) (r : Remap) : (s.setRemap n r).mem = s.mem := rfl
@[simp] theorem State.setRemap_ext (s : State) (n : Nat) (r : Remap) : (s.setRemap n r).ext = s.ext := rfl
@[simp] theorem State.setRemap_sync (s : State) (n : Nat) (r : Remap) : (s.setRemap n r).sync = s.sync := rfl
@[simp] theorem State.setRemap_sigs (s : State) (n : Nat) (r : Remap) : (s.setRemap n r).sigs = s.sigs := rfl
@[simp] theorem State.setRemap_waits (s : State) (n : Nat) (r : Remap) : (s.setRemap n r).waits = s.waits := rfl
@[simp] theorem State.setRemap_cmds (s : State) (n : Nat) (r : Remap) : (s.setRemap n r).cmds = s.cmds := rfl
@[simp] theorem State.setRemap_drips (s : State) (n : Nat) (r : Remap) : (s.setRemap n r).drips = s.drips := rfl
@[simp] theorem State.setRemap_rings (s : State) (n : Nat) (r : Remap) : (s.setRemap n r).rings = s.rings := rfl
@[simp] theorem State.setRemap_reps (s : State) (n : Nat) (r : Remap) : (s.setRemap n r).reps = s.reps := rfl
@[simp] theorem State.setRemap_watches (s : State) (n : Nat) (r : Remap) : (s.setRemap n r).watches = s.watches := rfl
@[simp] theorem State.setRemap_commits (s : State) (n : Nat) (r : Remap) : (s.setRemap n r).commits = s.commits := rfl
@[simp] theorem State.setRemap_bar (s : State) (n : Nat) (r : Remap) : (s.setRemap n r).bar = s.bar := rfl
@[simp] theorem State.setRemap_stg (s : State) (n : Nat) (r : Remap) : (s.setRemap n r).stg = s.stg := rfl
@[simp] theorem State.setRemap_wrote (s : State) (n : Nat) (r : Remap) : (s.setRemap n r).wrote = s.wrote := rfl
@[simp] theorem State.setRemap_frgs (s : State) (n : Nat) (r : Remap) : (s.setRemap n r).frgs = s.frgs := rfl
@[simp] theorem State.setRemap_fdescs (s : State) (n : Nat) (r : Remap) : (s.setRemap n r).fdescs = s.fdescs := rfl
@[simp] theorem State.setRemap_devs (s : State) (n : Nat) (r : Remap) : (s.setRemap n r).devs = s.devs := rfl
@[simp] theorem State.setRemap_reserve (s : State) (n : Nat) (r : Remap) : (s.setRemap n r).reserve = s.reserve := rfl
@[simp] theorem State.setRemap_far (s : State) (n : Nat) (r : Remap) : (s.setRemap n r).far = s.far := rfl
@[simp] theorem State.setRemap_farTag (s : State) (n : Nat) (r : Remap) : (s.setRemap n r).farTag = s.farTag := rfl
@[simp] theorem State.setRemap_farTurn (s : State) (n : Nat) (r : Remap) : (s.setRemap n r).farTurn = s.farTurn := rfl
@[simp] theorem State.setRemap_gather (s : State) (n : Nat) (r : Remap) : (s.setRemap n r).gather = s.gather := rfl
@[simp] theorem State.setRemap_drains (s : State) (n : Nat) (r : Remap) : (s.setRemap n r).drains = s.drains := rfl
@[simp] theorem State.setRemap_link (s : State) (n : Nat) (r : Remap) : (s.setRemap n r).link = s.link := rfl
@[simp] theorem State.setRemap_seams (s : State) (n : Nat) (r : Remap) : (s.setRemap n r).seams = s.seams := rfl
@[simp] theorem State.setRemap_starve (s : State) (n : Nat) (r : Remap) : (s.setRemap n r).starve = s.starve := rfl
@[simp] theorem State.setRemap_flips (s : State) (n : Nat) (r : Remap) : (s.setRemap n r).flips = s.flips := rfl
@[simp] theorem State.setRemap_fab (s : State) (n : Nat) (r : Remap) : (s.setRemap n r).fab = s.fab := rfl
@[simp] theorem State.setRemap_coll (s : State) (n : Nat) (r : Remap) : (s.setRemap n r).coll = s.coll := rfl
@[simp] theorem State.setRemap_swarm (s : State) (n : Nat) (r : Remap) : (s.setRemap n r).swarm = s.swarm := rfl
@[simp] theorem State.setRemap_place (s : State) (n : Nat) (r : Remap) : (s.setRemap n r).place = s.place := rfl
@[simp] theorem State.setRemap_power (s : State) (n : Nat) (r : Remap) : (s.setRemap n r).power = s.power := rfl
@[simp] theorem State.setRemap_epochs (s : State) (n : Nat) (r : Remap) : (s.setRemap n r).epochs = s.epochs := rfl
@[simp] theorem State.setRemap_pins (s : State) (n : Nat) (r : Remap) : (s.setRemap n r).pins = s.pins := rfl
@[simp] theorem State.setRemap_resets (s : State) (n : Nat) (r : Remap) : (s.setRemap n r).resets = s.resets := rfl
@[simp] theorem State.setRemap_boot (s : State) (n : Nat) (r : Remap) : (s.setRemap n r).boot = s.boot := rfl
@[simp] theorem State.setRemap_mgmt (s : State) (n : Nat) (r : Remap) : (s.setRemap n r).mgmt = s.mgmt := rfl
@[simp] theorem State.setRemap_dbg (s : State) (n : Nat) (r : Remap) : (s.setRemap n r).dbg = s.dbg := rfl
@[simp] theorem State.setRemap_nextId (s : State) (n : Nat) (r : Remap) : (s.setRemap n r).nextId = s.nextId := rfl
@[simp] theorem State.setRemap_freeCtr (s : State) (n : Nat) (r : Remap) : (s.setRemap n r).freeCtr = s.freeCtr := rfl
@[simp] theorem State.setRemap_pending (s : State) (n : Nat) (r : Remap) : (s.setRemap n r).pending = s.pending := rfl

/-! ### setPhys -/

@[simp] theorem State.setPhys_cells (s : State) (n : Nat) (p : Phys) : (s.setPhys n p).cells = s.cells := rfl
@[simp] theorem State.setPhys_remap (s : State) (n : Nat) (p : Phys) : (s.setPhys n p).remap = s.remap := rfl
@[simp] theorem State.setPhys_switches (s : State) (n : Nat) (p : Phys) : (s.setPhys n p).switches = s.switches := rfl
@[simp] theorem State.setPhys_saveMoves (s : State) (n : Nat) (p : Phys) : (s.setPhys n p).saveMoves = s.saveMoves := rfl
@[simp] theorem State.setPhys_mem (s : State) (n : Nat) (p : Phys) : (s.setPhys n p).mem = s.mem := rfl
@[simp] theorem State.setPhys_ext (s : State) (n : Nat) (p : Phys) : (s.setPhys n p).ext = s.ext := rfl
@[simp] theorem State.setPhys_sync (s : State) (n : Nat) (p : Phys) : (s.setPhys n p).sync = s.sync := rfl
@[simp] theorem State.setPhys_sigs (s : State) (n : Nat) (p : Phys) : (s.setPhys n p).sigs = s.sigs := rfl
@[simp] theorem State.setPhys_waits (s : State) (n : Nat) (p : Phys) : (s.setPhys n p).waits = s.waits := rfl
@[simp] theorem State.setPhys_cmds (s : State) (n : Nat) (p : Phys) : (s.setPhys n p).cmds = s.cmds := rfl
@[simp] theorem State.setPhys_drips (s : State) (n : Nat) (p : Phys) : (s.setPhys n p).drips = s.drips := rfl
@[simp] theorem State.setPhys_rings (s : State) (n : Nat) (p : Phys) : (s.setPhys n p).rings = s.rings := rfl
@[simp] theorem State.setPhys_reps (s : State) (n : Nat) (p : Phys) : (s.setPhys n p).reps = s.reps := rfl
@[simp] theorem State.setPhys_watches (s : State) (n : Nat) (p : Phys) : (s.setPhys n p).watches = s.watches := rfl
@[simp] theorem State.setPhys_commits (s : State) (n : Nat) (p : Phys) : (s.setPhys n p).commits = s.commits := rfl
@[simp] theorem State.setPhys_bar (s : State) (n : Nat) (p : Phys) : (s.setPhys n p).bar = s.bar := rfl
@[simp] theorem State.setPhys_stg (s : State) (n : Nat) (p : Phys) : (s.setPhys n p).stg = s.stg := rfl
@[simp] theorem State.setPhys_wrote (s : State) (n : Nat) (p : Phys) : (s.setPhys n p).wrote = s.wrote := rfl
@[simp] theorem State.setPhys_frgs (s : State) (n : Nat) (p : Phys) : (s.setPhys n p).frgs = s.frgs := rfl
@[simp] theorem State.setPhys_fdescs (s : State) (n : Nat) (p : Phys) : (s.setPhys n p).fdescs = s.fdescs := rfl
@[simp] theorem State.setPhys_devs (s : State) (n : Nat) (p : Phys) : (s.setPhys n p).devs = s.devs := rfl
@[simp] theorem State.setPhys_reserve (s : State) (n : Nat) (p : Phys) : (s.setPhys n p).reserve = s.reserve := rfl
@[simp] theorem State.setPhys_far (s : State) (n : Nat) (p : Phys) : (s.setPhys n p).far = s.far := rfl
@[simp] theorem State.setPhys_farTag (s : State) (n : Nat) (p : Phys) : (s.setPhys n p).farTag = s.farTag := rfl
@[simp] theorem State.setPhys_farTurn (s : State) (n : Nat) (p : Phys) : (s.setPhys n p).farTurn = s.farTurn := rfl
@[simp] theorem State.setPhys_gather (s : State) (n : Nat) (p : Phys) : (s.setPhys n p).gather = s.gather := rfl
@[simp] theorem State.setPhys_drains (s : State) (n : Nat) (p : Phys) : (s.setPhys n p).drains = s.drains := rfl
@[simp] theorem State.setPhys_link (s : State) (n : Nat) (p : Phys) : (s.setPhys n p).link = s.link := rfl
@[simp] theorem State.setPhys_seams (s : State) (n : Nat) (p : Phys) : (s.setPhys n p).seams = s.seams := rfl
@[simp] theorem State.setPhys_starve (s : State) (n : Nat) (p : Phys) : (s.setPhys n p).starve = s.starve := rfl
@[simp] theorem State.setPhys_flips (s : State) (n : Nat) (p : Phys) : (s.setPhys n p).flips = s.flips := rfl
@[simp] theorem State.setPhys_fab (s : State) (n : Nat) (p : Phys) : (s.setPhys n p).fab = s.fab := rfl
@[simp] theorem State.setPhys_coll (s : State) (n : Nat) (p : Phys) : (s.setPhys n p).coll = s.coll := rfl
@[simp] theorem State.setPhys_swarm (s : State) (n : Nat) (p : Phys) : (s.setPhys n p).swarm = s.swarm := rfl
@[simp] theorem State.setPhys_place (s : State) (n : Nat) (p : Phys) : (s.setPhys n p).place = s.place := rfl
@[simp] theorem State.setPhys_power (s : State) (n : Nat) (p : Phys) : (s.setPhys n p).power = s.power := rfl
@[simp] theorem State.setPhys_epochs (s : State) (n : Nat) (p : Phys) : (s.setPhys n p).epochs = s.epochs := rfl
@[simp] theorem State.setPhys_pins (s : State) (n : Nat) (p : Phys) : (s.setPhys n p).pins = s.pins := rfl
@[simp] theorem State.setPhys_resets (s : State) (n : Nat) (p : Phys) : (s.setPhys n p).resets = s.resets := rfl
@[simp] theorem State.setPhys_boot (s : State) (n : Nat) (p : Phys) : (s.setPhys n p).boot = s.boot := rfl
@[simp] theorem State.setPhys_mgmt (s : State) (n : Nat) (p : Phys) : (s.setPhys n p).mgmt = s.mgmt := rfl
@[simp] theorem State.setPhys_dbg (s : State) (n : Nat) (p : Phys) : (s.setPhys n p).dbg = s.dbg := rfl
@[simp] theorem State.setPhys_nextId (s : State) (n : Nat) (p : Phys) : (s.setPhys n p).nextId = s.nextId := rfl
@[simp] theorem State.setPhys_freeCtr (s : State) (n : Nat) (p : Phys) : (s.setPhys n p).freeCtr = s.freeCtr := rfl
@[simp] theorem State.setPhys_pending (s : State) (n : Nat) (p : Phys) : (s.setPhys n p).pending = s.pending := rfl

/-! ### setFrg -/

@[simp] theorem State.setFrg_cells (s : State) (n : Nat) (f : Frg) : (s.setFrg n f).cells = s.cells := rfl
@[simp] theorem State.setFrg_remap (s : State) (n : Nat) (f : Frg) : (s.setFrg n f).remap = s.remap := rfl
@[simp] theorem State.setFrg_phys (s : State) (n : Nat) (f : Frg) : (s.setFrg n f).phys = s.phys := rfl
@[simp] theorem State.setFrg_switches (s : State) (n : Nat) (f : Frg) : (s.setFrg n f).switches = s.switches := rfl
@[simp] theorem State.setFrg_saveMoves (s : State) (n : Nat) (f : Frg) : (s.setFrg n f).saveMoves = s.saveMoves := rfl
@[simp] theorem State.setFrg_mem (s : State) (n : Nat) (f : Frg) : (s.setFrg n f).mem = s.mem := rfl
@[simp] theorem State.setFrg_ext (s : State) (n : Nat) (f : Frg) : (s.setFrg n f).ext = s.ext := rfl
@[simp] theorem State.setFrg_sync (s : State) (n : Nat) (f : Frg) : (s.setFrg n f).sync = s.sync := rfl
@[simp] theorem State.setFrg_sigs (s : State) (n : Nat) (f : Frg) : (s.setFrg n f).sigs = s.sigs := rfl
@[simp] theorem State.setFrg_waits (s : State) (n : Nat) (f : Frg) : (s.setFrg n f).waits = s.waits := rfl
@[simp] theorem State.setFrg_cmds (s : State) (n : Nat) (f : Frg) : (s.setFrg n f).cmds = s.cmds := rfl
@[simp] theorem State.setFrg_drips (s : State) (n : Nat) (f : Frg) : (s.setFrg n f).drips = s.drips := rfl
@[simp] theorem State.setFrg_rings (s : State) (n : Nat) (f : Frg) : (s.setFrg n f).rings = s.rings := rfl
@[simp] theorem State.setFrg_reps (s : State) (n : Nat) (f : Frg) : (s.setFrg n f).reps = s.reps := rfl
@[simp] theorem State.setFrg_watches (s : State) (n : Nat) (f : Frg) : (s.setFrg n f).watches = s.watches := rfl
@[simp] theorem State.setFrg_commits (s : State) (n : Nat) (f : Frg) : (s.setFrg n f).commits = s.commits := rfl
@[simp] theorem State.setFrg_bar (s : State) (n : Nat) (f : Frg) : (s.setFrg n f).bar = s.bar := rfl
@[simp] theorem State.setFrg_stg (s : State) (n : Nat) (f : Frg) : (s.setFrg n f).stg = s.stg := rfl
@[simp] theorem State.setFrg_wrote (s : State) (n : Nat) (f : Frg) : (s.setFrg n f).wrote = s.wrote := rfl
@[simp] theorem State.setFrg_fdescs (s : State) (n : Nat) (f : Frg) : (s.setFrg n f).fdescs = s.fdescs := rfl
@[simp] theorem State.setFrg_devs (s : State) (n : Nat) (f : Frg) : (s.setFrg n f).devs = s.devs := rfl
@[simp] theorem State.setFrg_reserve (s : State) (n : Nat) (f : Frg) : (s.setFrg n f).reserve = s.reserve := rfl
@[simp] theorem State.setFrg_far (s : State) (n : Nat) (f : Frg) : (s.setFrg n f).far = s.far := rfl
@[simp] theorem State.setFrg_farTag (s : State) (n : Nat) (f : Frg) : (s.setFrg n f).farTag = s.farTag := rfl
@[simp] theorem State.setFrg_farTurn (s : State) (n : Nat) (f : Frg) : (s.setFrg n f).farTurn = s.farTurn := rfl
@[simp] theorem State.setFrg_gather (s : State) (n : Nat) (f : Frg) : (s.setFrg n f).gather = s.gather := rfl
@[simp] theorem State.setFrg_drains (s : State) (n : Nat) (f : Frg) : (s.setFrg n f).drains = s.drains := rfl
@[simp] theorem State.setFrg_link (s : State) (n : Nat) (f : Frg) : (s.setFrg n f).link = s.link := rfl
@[simp] theorem State.setFrg_seams (s : State) (n : Nat) (f : Frg) : (s.setFrg n f).seams = s.seams := rfl
@[simp] theorem State.setFrg_starve (s : State) (n : Nat) (f : Frg) : (s.setFrg n f).starve = s.starve := rfl
@[simp] theorem State.setFrg_flips (s : State) (n : Nat) (f : Frg) : (s.setFrg n f).flips = s.flips := rfl
@[simp] theorem State.setFrg_fab (s : State) (n : Nat) (f : Frg) : (s.setFrg n f).fab = s.fab := rfl
@[simp] theorem State.setFrg_coll (s : State) (n : Nat) (f : Frg) : (s.setFrg n f).coll = s.coll := rfl
@[simp] theorem State.setFrg_swarm (s : State) (n : Nat) (f : Frg) : (s.setFrg n f).swarm = s.swarm := rfl
@[simp] theorem State.setFrg_place (s : State) (n : Nat) (f : Frg) : (s.setFrg n f).place = s.place := rfl
@[simp] theorem State.setFrg_power (s : State) (n : Nat) (f : Frg) : (s.setFrg n f).power = s.power := rfl
@[simp] theorem State.setFrg_epochs (s : State) (n : Nat) (f : Frg) : (s.setFrg n f).epochs = s.epochs := rfl
@[simp] theorem State.setFrg_pins (s : State) (n : Nat) (f : Frg) : (s.setFrg n f).pins = s.pins := rfl
@[simp] theorem State.setFrg_resets (s : State) (n : Nat) (f : Frg) : (s.setFrg n f).resets = s.resets := rfl
@[simp] theorem State.setFrg_boot (s : State) (n : Nat) (f : Frg) : (s.setFrg n f).boot = s.boot := rfl
@[simp] theorem State.setFrg_mgmt (s : State) (n : Nat) (f : Frg) : (s.setFrg n f).mgmt = s.mgmt := rfl
@[simp] theorem State.setFrg_dbg (s : State) (n : Nat) (f : Frg) : (s.setFrg n f).dbg = s.dbg := rfl
@[simp] theorem State.setFrg_nextId (s : State) (n : Nat) (f : Frg) : (s.setFrg n f).nextId = s.nextId := rfl
@[simp] theorem State.setFrg_freeCtr (s : State) (n : Nat) (f : Frg) : (s.setFrg n f).freeCtr = s.freeCtr := rfl
@[simp] theorem State.setFrg_pending (s : State) (n : Nat) (f : Frg) : (s.setFrg n f).pending = s.pending := rfl

/-! ### setDev -/

@[simp] theorem State.setDev_cells (s : State) (n : Nat) (d : Dev) : (s.setDev n d).cells = s.cells := rfl
@[simp] theorem State.setDev_remap (s : State) (n : Nat) (d : Dev) : (s.setDev n d).remap = s.remap := rfl
@[simp] theorem State.setDev_phys (s : State) (n : Nat) (d : Dev) : (s.setDev n d).phys = s.phys := rfl
@[simp] theorem State.setDev_switches (s : State) (n : Nat) (d : Dev) : (s.setDev n d).switches = s.switches := rfl
@[simp] theorem State.setDev_saveMoves (s : State) (n : Nat) (d : Dev) : (s.setDev n d).saveMoves = s.saveMoves := rfl
@[simp] theorem State.setDev_mem (s : State) (n : Nat) (d : Dev) : (s.setDev n d).mem = s.mem := rfl
@[simp] theorem State.setDev_ext (s : State) (n : Nat) (d : Dev) : (s.setDev n d).ext = s.ext := rfl
@[simp] theorem State.setDev_sync (s : State) (n : Nat) (d : Dev) : (s.setDev n d).sync = s.sync := rfl
@[simp] theorem State.setDev_sigs (s : State) (n : Nat) (d : Dev) : (s.setDev n d).sigs = s.sigs := rfl
@[simp] theorem State.setDev_waits (s : State) (n : Nat) (d : Dev) : (s.setDev n d).waits = s.waits := rfl
@[simp] theorem State.setDev_cmds (s : State) (n : Nat) (d : Dev) : (s.setDev n d).cmds = s.cmds := rfl
@[simp] theorem State.setDev_drips (s : State) (n : Nat) (d : Dev) : (s.setDev n d).drips = s.drips := rfl
@[simp] theorem State.setDev_rings (s : State) (n : Nat) (d : Dev) : (s.setDev n d).rings = s.rings := rfl
@[simp] theorem State.setDev_reps (s : State) (n : Nat) (d : Dev) : (s.setDev n d).reps = s.reps := rfl
@[simp] theorem State.setDev_watches (s : State) (n : Nat) (d : Dev) : (s.setDev n d).watches = s.watches := rfl
@[simp] theorem State.setDev_commits (s : State) (n : Nat) (d : Dev) : (s.setDev n d).commits = s.commits := rfl
@[simp] theorem State.setDev_bar (s : State) (n : Nat) (d : Dev) : (s.setDev n d).bar = s.bar := rfl
@[simp] theorem State.setDev_stg (s : State) (n : Nat) (d : Dev) : (s.setDev n d).stg = s.stg := rfl
@[simp] theorem State.setDev_wrote (s : State) (n : Nat) (d : Dev) : (s.setDev n d).wrote = s.wrote := rfl
@[simp] theorem State.setDev_frgs (s : State) (n : Nat) (d : Dev) : (s.setDev n d).frgs = s.frgs := rfl
@[simp] theorem State.setDev_fdescs (s : State) (n : Nat) (d : Dev) : (s.setDev n d).fdescs = s.fdescs := rfl
@[simp] theorem State.setDev_reserve (s : State) (n : Nat) (d : Dev) : (s.setDev n d).reserve = s.reserve := rfl
@[simp] theorem State.setDev_far (s : State) (n : Nat) (d : Dev) : (s.setDev n d).far = s.far := rfl
@[simp] theorem State.setDev_farTag (s : State) (n : Nat) (d : Dev) : (s.setDev n d).farTag = s.farTag := rfl
@[simp] theorem State.setDev_farTurn (s : State) (n : Nat) (d : Dev) : (s.setDev n d).farTurn = s.farTurn := rfl
@[simp] theorem State.setDev_gather (s : State) (n : Nat) (d : Dev) : (s.setDev n d).gather = s.gather := rfl
@[simp] theorem State.setDev_drains (s : State) (n : Nat) (d : Dev) : (s.setDev n d).drains = s.drains := rfl
@[simp] theorem State.setDev_link (s : State) (n : Nat) (d : Dev) : (s.setDev n d).link = s.link := rfl
@[simp] theorem State.setDev_seams (s : State) (n : Nat) (d : Dev) : (s.setDev n d).seams = s.seams := rfl
@[simp] theorem State.setDev_starve (s : State) (n : Nat) (d : Dev) : (s.setDev n d).starve = s.starve := rfl
@[simp] theorem State.setDev_flips (s : State) (n : Nat) (d : Dev) : (s.setDev n d).flips = s.flips := rfl
@[simp] theorem State.setDev_fab (s : State) (n : Nat) (d : Dev) : (s.setDev n d).fab = s.fab := rfl
@[simp] theorem State.setDev_coll (s : State) (n : Nat) (d : Dev) : (s.setDev n d).coll = s.coll := rfl
@[simp] theorem State.setDev_swarm (s : State) (n : Nat) (d : Dev) : (s.setDev n d).swarm = s.swarm := rfl
@[simp] theorem State.setDev_place (s : State) (n : Nat) (d : Dev) : (s.setDev n d).place = s.place := rfl
@[simp] theorem State.setDev_power (s : State) (n : Nat) (d : Dev) : (s.setDev n d).power = s.power := rfl
@[simp] theorem State.setDev_epochs (s : State) (n : Nat) (d : Dev) : (s.setDev n d).epochs = s.epochs := rfl
@[simp] theorem State.setDev_pins (s : State) (n : Nat) (d : Dev) : (s.setDev n d).pins = s.pins := rfl
@[simp] theorem State.setDev_resets (s : State) (n : Nat) (d : Dev) : (s.setDev n d).resets = s.resets := rfl
@[simp] theorem State.setDev_boot (s : State) (n : Nat) (d : Dev) : (s.setDev n d).boot = s.boot := rfl
@[simp] theorem State.setDev_mgmt (s : State) (n : Nat) (d : Dev) : (s.setDev n d).mgmt = s.mgmt := rfl
@[simp] theorem State.setDev_dbg (s : State) (n : Nat) (d : Dev) : (s.setDev n d).dbg = s.dbg := rfl
@[simp] theorem State.setDev_nextId (s : State) (n : Nat) (d : Dev) : (s.setDev n d).nextId = s.nextId := rfl
@[simp] theorem State.setDev_freeCtr (s : State) (n : Nat) (d : Dev) : (s.setDev n d).freeCtr = s.freeCtr := rfl
@[simp] theorem State.setDev_pending (s : State) (n : Nat) (d : Dev) : (s.setDev n d).pending = s.pending := rfl

/-! ### setPort -/

@[simp] theorem State.setPort_cells (s : State) (n : Nat) (p : Port) : (s.setPort n p).cells = s.cells := rfl
@[simp] theorem State.setPort_remap (s : State) (n : Nat) (p : Port) : (s.setPort n p).remap = s.remap := rfl
@[simp] theorem State.setPort_phys (s : State) (n : Nat) (p : Port) : (s.setPort n p).phys = s.phys := rfl
@[simp] theorem State.setPort_switches (s : State) (n : Nat) (p : Port) : (s.setPort n p).switches = s.switches := rfl
@[simp] theorem State.setPort_saveMoves (s : State) (n : Nat) (p : Port) : (s.setPort n p).saveMoves = s.saveMoves := rfl
@[simp] theorem State.setPort_mem (s : State) (n : Nat) (p : Port) : (s.setPort n p).mem = s.mem := rfl
@[simp] theorem State.setPort_ext (s : State) (n : Nat) (p : Port) : (s.setPort n p).ext = s.ext := rfl
@[simp] theorem State.setPort_sync (s : State) (n : Nat) (p : Port) : (s.setPort n p).sync = s.sync := rfl
@[simp] theorem State.setPort_sigs (s : State) (n : Nat) (p : Port) : (s.setPort n p).sigs = s.sigs := rfl
@[simp] theorem State.setPort_waits (s : State) (n : Nat) (p : Port) : (s.setPort n p).waits = s.waits := rfl
@[simp] theorem State.setPort_cmds (s : State) (n : Nat) (p : Port) : (s.setPort n p).cmds = s.cmds := rfl
@[simp] theorem State.setPort_drips (s : State) (n : Nat) (p : Port) : (s.setPort n p).drips = s.drips := rfl
@[simp] theorem State.setPort_rings (s : State) (n : Nat) (p : Port) : (s.setPort n p).rings = s.rings := rfl
@[simp] theorem State.setPort_reps (s : State) (n : Nat) (p : Port) : (s.setPort n p).reps = s.reps := rfl
@[simp] theorem State.setPort_watches (s : State) (n : Nat) (p : Port) : (s.setPort n p).watches = s.watches := rfl
@[simp] theorem State.setPort_commits (s : State) (n : Nat) (p : Port) : (s.setPort n p).commits = s.commits := rfl
@[simp] theorem State.setPort_bar (s : State) (n : Nat) (p : Port) : (s.setPort n p).bar = s.bar := rfl
@[simp] theorem State.setPort_stg (s : State) (n : Nat) (p : Port) : (s.setPort n p).stg = s.stg := rfl
@[simp] theorem State.setPort_wrote (s : State) (n : Nat) (p : Port) : (s.setPort n p).wrote = s.wrote := rfl
@[simp] theorem State.setPort_frgs (s : State) (n : Nat) (p : Port) : (s.setPort n p).frgs = s.frgs := rfl
@[simp] theorem State.setPort_fdescs (s : State) (n : Nat) (p : Port) : (s.setPort n p).fdescs = s.fdescs := rfl
@[simp] theorem State.setPort_devs (s : State) (n : Nat) (p : Port) : (s.setPort n p).devs = s.devs := rfl
@[simp] theorem State.setPort_reserve (s : State) (n : Nat) (p : Port) : (s.setPort n p).reserve = s.reserve := rfl
@[simp] theorem State.setPort_far (s : State) (n : Nat) (p : Port) : (s.setPort n p).far = s.far := rfl
@[simp] theorem State.setPort_farTag (s : State) (n : Nat) (p : Port) : (s.setPort n p).farTag = s.farTag := rfl
@[simp] theorem State.setPort_farTurn (s : State) (n : Nat) (p : Port) : (s.setPort n p).farTurn = s.farTurn := rfl
@[simp] theorem State.setPort_gather (s : State) (n : Nat) (p : Port) : (s.setPort n p).gather = s.gather := rfl
@[simp] theorem State.setPort_drains (s : State) (n : Nat) (p : Port) : (s.setPort n p).drains = s.drains := rfl
@[simp] theorem State.setPort_link (s : State) (n : Nat) (p : Port) : (s.setPort n p).link = s.link := rfl
@[simp] theorem State.setPort_seams (s : State) (n : Nat) (p : Port) : (s.setPort n p).seams = s.seams := rfl
@[simp] theorem State.setPort_starve (s : State) (n : Nat) (p : Port) : (s.setPort n p).starve = s.starve := rfl
@[simp] theorem State.setPort_flips (s : State) (n : Nat) (p : Port) : (s.setPort n p).flips = s.flips := rfl
@[simp] theorem State.setPort_coll (s : State) (n : Nat) (p : Port) : (s.setPort n p).coll = s.coll := rfl
@[simp] theorem State.setPort_swarm (s : State) (n : Nat) (p : Port) : (s.setPort n p).swarm = s.swarm := rfl
@[simp] theorem State.setPort_place (s : State) (n : Nat) (p : Port) : (s.setPort n p).place = s.place := rfl
@[simp] theorem State.setPort_power (s : State) (n : Nat) (p : Port) : (s.setPort n p).power = s.power := rfl
@[simp] theorem State.setPort_epochs (s : State) (n : Nat) (p : Port) : (s.setPort n p).epochs = s.epochs := rfl
@[simp] theorem State.setPort_pins (s : State) (n : Nat) (p : Port) : (s.setPort n p).pins = s.pins := rfl
@[simp] theorem State.setPort_resets (s : State) (n : Nat) (p : Port) : (s.setPort n p).resets = s.resets := rfl
@[simp] theorem State.setPort_boot (s : State) (n : Nat) (p : Port) : (s.setPort n p).boot = s.boot := rfl
@[simp] theorem State.setPort_mgmt (s : State) (n : Nat) (p : Port) : (s.setPort n p).mgmt = s.mgmt := rfl
@[simp] theorem State.setPort_dbg (s : State) (n : Nat) (p : Port) : (s.setPort n p).dbg = s.dbg := rfl
@[simp] theorem State.setPort_nextId (s : State) (n : Nat) (p : Port) : (s.setPort n p).nextId = s.nextId := rfl
@[simp] theorem State.setPort_freeCtr (s : State) (n : Nat) (p : Port) : (s.setPort n p).freeCtr = s.freeCtr := rfl
@[simp] theorem State.setPort_pending (s : State) (n : Nat) (p : Port) : (s.setPort n p).pending = s.pending := rfl

/-! ### setEpoch -/

@[simp] theorem State.setEpoch_cells (s : State) (n : Nat) (e : Epoch) : (s.setEpoch n e).cells = s.cells := rfl
@[simp] theorem State.setEpoch_remap (s : State) (n : Nat) (e : Epoch) : (s.setEpoch n e).remap = s.remap := rfl
@[simp] theorem State.setEpoch_phys (s : State) (n : Nat) (e : Epoch) : (s.setEpoch n e).phys = s.phys := rfl
@[simp] theorem State.setEpoch_switches (s : State) (n : Nat) (e : Epoch) : (s.setEpoch n e).switches = s.switches := rfl
@[simp] theorem State.setEpoch_saveMoves (s : State) (n : Nat) (e : Epoch) : (s.setEpoch n e).saveMoves = s.saveMoves := rfl
@[simp] theorem State.setEpoch_mem (s : State) (n : Nat) (e : Epoch) : (s.setEpoch n e).mem = s.mem := rfl
@[simp] theorem State.setEpoch_ext (s : State) (n : Nat) (e : Epoch) : (s.setEpoch n e).ext = s.ext := rfl
@[simp] theorem State.setEpoch_sync (s : State) (n : Nat) (e : Epoch) : (s.setEpoch n e).sync = s.sync := rfl
@[simp] theorem State.setEpoch_sigs (s : State) (n : Nat) (e : Epoch) : (s.setEpoch n e).sigs = s.sigs := rfl
@[simp] theorem State.setEpoch_waits (s : State) (n : Nat) (e : Epoch) : (s.setEpoch n e).waits = s.waits := rfl
@[simp] theorem State.setEpoch_cmds (s : State) (n : Nat) (e : Epoch) : (s.setEpoch n e).cmds = s.cmds := rfl
@[simp] theorem State.setEpoch_drips (s : State) (n : Nat) (e : Epoch) : (s.setEpoch n e).drips = s.drips := rfl
@[simp] theorem State.setEpoch_rings (s : State) (n : Nat) (e : Epoch) : (s.setEpoch n e).rings = s.rings := rfl
@[simp] theorem State.setEpoch_reps (s : State) (n : Nat) (e : Epoch) : (s.setEpoch n e).reps = s.reps := rfl
@[simp] theorem State.setEpoch_watches (s : State) (n : Nat) (e : Epoch) : (s.setEpoch n e).watches = s.watches := rfl
@[simp] theorem State.setEpoch_commits (s : State) (n : Nat) (e : Epoch) : (s.setEpoch n e).commits = s.commits := rfl
@[simp] theorem State.setEpoch_bar (s : State) (n : Nat) (e : Epoch) : (s.setEpoch n e).bar = s.bar := rfl
@[simp] theorem State.setEpoch_stg (s : State) (n : Nat) (e : Epoch) : (s.setEpoch n e).stg = s.stg := rfl
@[simp] theorem State.setEpoch_wrote (s : State) (n : Nat) (e : Epoch) : (s.setEpoch n e).wrote = s.wrote := rfl
@[simp] theorem State.setEpoch_frgs (s : State) (n : Nat) (e : Epoch) : (s.setEpoch n e).frgs = s.frgs := rfl
@[simp] theorem State.setEpoch_fdescs (s : State) (n : Nat) (e : Epoch) : (s.setEpoch n e).fdescs = s.fdescs := rfl
@[simp] theorem State.setEpoch_devs (s : State) (n : Nat) (e : Epoch) : (s.setEpoch n e).devs = s.devs := rfl
@[simp] theorem State.setEpoch_reserve (s : State) (n : Nat) (e : Epoch) : (s.setEpoch n e).reserve = s.reserve := rfl
@[simp] theorem State.setEpoch_far (s : State) (n : Nat) (e : Epoch) : (s.setEpoch n e).far = s.far := rfl
@[simp] theorem State.setEpoch_farTag (s : State) (n : Nat) (e : Epoch) : (s.setEpoch n e).farTag = s.farTag := rfl
@[simp] theorem State.setEpoch_farTurn (s : State) (n : Nat) (e : Epoch) : (s.setEpoch n e).farTurn = s.farTurn := rfl
@[simp] theorem State.setEpoch_gather (s : State) (n : Nat) (e : Epoch) : (s.setEpoch n e).gather = s.gather := rfl
@[simp] theorem State.setEpoch_drains (s : State) (n : Nat) (e : Epoch) : (s.setEpoch n e).drains = s.drains := rfl
@[simp] theorem State.setEpoch_link (s : State) (n : Nat) (e : Epoch) : (s.setEpoch n e).link = s.link := rfl
@[simp] theorem State.setEpoch_seams (s : State) (n : Nat) (e : Epoch) : (s.setEpoch n e).seams = s.seams := rfl
@[simp] theorem State.setEpoch_starve (s : State) (n : Nat) (e : Epoch) : (s.setEpoch n e).starve = s.starve := rfl
@[simp] theorem State.setEpoch_flips (s : State) (n : Nat) (e : Epoch) : (s.setEpoch n e).flips = s.flips := rfl
@[simp] theorem State.setEpoch_fab (s : State) (n : Nat) (e : Epoch) : (s.setEpoch n e).fab = s.fab := rfl
@[simp] theorem State.setEpoch_coll (s : State) (n : Nat) (e : Epoch) : (s.setEpoch n e).coll = s.coll := rfl
@[simp] theorem State.setEpoch_swarm (s : State) (n : Nat) (e : Epoch) : (s.setEpoch n e).swarm = s.swarm := rfl
@[simp] theorem State.setEpoch_place (s : State) (n : Nat) (e : Epoch) : (s.setEpoch n e).place = s.place := rfl
@[simp] theorem State.setEpoch_power (s : State) (n : Nat) (e : Epoch) : (s.setEpoch n e).power = s.power := rfl
@[simp] theorem State.setEpoch_pins (s : State) (n : Nat) (e : Epoch) : (s.setEpoch n e).pins = s.pins := rfl
@[simp] theorem State.setEpoch_resets (s : State) (n : Nat) (e : Epoch) : (s.setEpoch n e).resets = s.resets := rfl
@[simp] theorem State.setEpoch_boot (s : State) (n : Nat) (e : Epoch) : (s.setEpoch n e).boot = s.boot := rfl
@[simp] theorem State.setEpoch_mgmt (s : State) (n : Nat) (e : Epoch) : (s.setEpoch n e).mgmt = s.mgmt := rfl
@[simp] theorem State.setEpoch_dbg (s : State) (n : Nat) (e : Epoch) : (s.setEpoch n e).dbg = s.dbg := rfl
@[simp] theorem State.setEpoch_nextId (s : State) (n : Nat) (e : Epoch) : (s.setEpoch n e).nextId = s.nextId := rfl
@[simp] theorem State.setEpoch_freeCtr (s : State) (n : Nat) (e : Epoch) : (s.setEpoch n e).freeCtr = s.freeCtr := rfl
@[simp] theorem State.setEpoch_pending (s : State) (n : Nat) (e : Epoch) : (s.setEpoch n e).pending = s.pending := rfl

/-! ### setRing -/

@[simp] theorem State.setRing_cells (s : State) (p i : Nat) (r : Ring) : (s.setRing p i r).cells = s.cells := rfl
@[simp] theorem State.setRing_remap (s : State) (p i : Nat) (r : Ring) : (s.setRing p i r).remap = s.remap := rfl
@[simp] theorem State.setRing_phys (s : State) (p i : Nat) (r : Ring) : (s.setRing p i r).phys = s.phys := rfl
@[simp] theorem State.setRing_switches (s : State) (p i : Nat) (r : Ring) : (s.setRing p i r).switches = s.switches := rfl
@[simp] theorem State.setRing_saveMoves (s : State) (p i : Nat) (r : Ring) : (s.setRing p i r).saveMoves = s.saveMoves := rfl
@[simp] theorem State.setRing_mem (s : State) (p i : Nat) (r : Ring) : (s.setRing p i r).mem = s.mem := rfl
@[simp] theorem State.setRing_ext (s : State) (p i : Nat) (r : Ring) : (s.setRing p i r).ext = s.ext := rfl
@[simp] theorem State.setRing_sync (s : State) (p i : Nat) (r : Ring) : (s.setRing p i r).sync = s.sync := rfl
@[simp] theorem State.setRing_sigs (s : State) (p i : Nat) (r : Ring) : (s.setRing p i r).sigs = s.sigs := rfl
@[simp] theorem State.setRing_waits (s : State) (p i : Nat) (r : Ring) : (s.setRing p i r).waits = s.waits := rfl
@[simp] theorem State.setRing_cmds (s : State) (p i : Nat) (r : Ring) : (s.setRing p i r).cmds = s.cmds := rfl
@[simp] theorem State.setRing_drips (s : State) (p i : Nat) (r : Ring) : (s.setRing p i r).drips = s.drips := rfl
@[simp] theorem State.setRing_reps (s : State) (p i : Nat) (r : Ring) : (s.setRing p i r).reps = s.reps := rfl
@[simp] theorem State.setRing_watches (s : State) (p i : Nat) (r : Ring) : (s.setRing p i r).watches = s.watches := rfl
@[simp] theorem State.setRing_commits (s : State) (p i : Nat) (r : Ring) : (s.setRing p i r).commits = s.commits := rfl
@[simp] theorem State.setRing_bar (s : State) (p i : Nat) (r : Ring) : (s.setRing p i r).bar = s.bar := rfl
@[simp] theorem State.setRing_stg (s : State) (p i : Nat) (r : Ring) : (s.setRing p i r).stg = s.stg := rfl
@[simp] theorem State.setRing_wrote (s : State) (p i : Nat) (r : Ring) : (s.setRing p i r).wrote = s.wrote := rfl
@[simp] theorem State.setRing_frgs (s : State) (p i : Nat) (r : Ring) : (s.setRing p i r).frgs = s.frgs := rfl
@[simp] theorem State.setRing_fdescs (s : State) (p i : Nat) (r : Ring) : (s.setRing p i r).fdescs = s.fdescs := rfl
@[simp] theorem State.setRing_devs (s : State) (p i : Nat) (r : Ring) : (s.setRing p i r).devs = s.devs := rfl
@[simp] theorem State.setRing_reserve (s : State) (p i : Nat) (r : Ring) : (s.setRing p i r).reserve = s.reserve := rfl
@[simp] theorem State.setRing_far (s : State) (p i : Nat) (r : Ring) : (s.setRing p i r).far = s.far := rfl
@[simp] theorem State.setRing_farTag (s : State) (p i : Nat) (r : Ring) : (s.setRing p i r).farTag = s.farTag := rfl
@[simp] theorem State.setRing_farTurn (s : State) (p i : Nat) (r : Ring) : (s.setRing p i r).farTurn = s.farTurn := rfl
@[simp] theorem State.setRing_gather (s : State) (p i : Nat) (r : Ring) : (s.setRing p i r).gather = s.gather := rfl
@[simp] theorem State.setRing_drains (s : State) (p i : Nat) (r : Ring) : (s.setRing p i r).drains = s.drains := rfl
@[simp] theorem State.setRing_link (s : State) (p i : Nat) (r : Ring) : (s.setRing p i r).link = s.link := rfl
@[simp] theorem State.setRing_seams (s : State) (p i : Nat) (r : Ring) : (s.setRing p i r).seams = s.seams := rfl
@[simp] theorem State.setRing_starve (s : State) (p i : Nat) (r : Ring) : (s.setRing p i r).starve = s.starve := rfl
@[simp] theorem State.setRing_flips (s : State) (p i : Nat) (r : Ring) : (s.setRing p i r).flips = s.flips := rfl
@[simp] theorem State.setRing_fab (s : State) (p i : Nat) (r : Ring) : (s.setRing p i r).fab = s.fab := rfl
@[simp] theorem State.setRing_coll (s : State) (p i : Nat) (r : Ring) : (s.setRing p i r).coll = s.coll := rfl
@[simp] theorem State.setRing_swarm (s : State) (p i : Nat) (r : Ring) : (s.setRing p i r).swarm = s.swarm := rfl
@[simp] theorem State.setRing_place (s : State) (p i : Nat) (r : Ring) : (s.setRing p i r).place = s.place := rfl
@[simp] theorem State.setRing_power (s : State) (p i : Nat) (r : Ring) : (s.setRing p i r).power = s.power := rfl
@[simp] theorem State.setRing_epochs (s : State) (p i : Nat) (r : Ring) : (s.setRing p i r).epochs = s.epochs := rfl
@[simp] theorem State.setRing_pins (s : State) (p i : Nat) (r : Ring) : (s.setRing p i r).pins = s.pins := rfl
@[simp] theorem State.setRing_resets (s : State) (p i : Nat) (r : Ring) : (s.setRing p i r).resets = s.resets := rfl
@[simp] theorem State.setRing_boot (s : State) (p i : Nat) (r : Ring) : (s.setRing p i r).boot = s.boot := rfl
@[simp] theorem State.setRing_mgmt (s : State) (p i : Nat) (r : Ring) : (s.setRing p i r).mgmt = s.mgmt := rfl
@[simp] theorem State.setRing_dbg (s : State) (p i : Nat) (r : Ring) : (s.setRing p i r).dbg = s.dbg := rfl
@[simp] theorem State.setRing_nextId (s : State) (p i : Nat) (r : Ring) : (s.setRing p i r).nextId = s.nextId := rfl
@[simp] theorem State.setRing_freeCtr (s : State) (p i : Nat) (r : Ring) : (s.setRing p i r).freeCtr = s.freeCtr := rfl
@[simp] theorem State.setRing_pending (s : State) (p i : Nat) (r : Ring) : (s.setRing p i r).pending = s.pending := rfl

/-! ### setRep -/

@[simp] theorem State.setRep_cells (s : State) (p : Nat) (r : RepRing) : (s.setRep p r).cells = s.cells := rfl
@[simp] theorem State.setRep_remap (s : State) (p : Nat) (r : RepRing) : (s.setRep p r).remap = s.remap := rfl
@[simp] theorem State.setRep_phys (s : State) (p : Nat) (r : RepRing) : (s.setRep p r).phys = s.phys := rfl
@[simp] theorem State.setRep_switches (s : State) (p : Nat) (r : RepRing) : (s.setRep p r).switches = s.switches := rfl
@[simp] theorem State.setRep_saveMoves (s : State) (p : Nat) (r : RepRing) : (s.setRep p r).saveMoves = s.saveMoves := rfl
@[simp] theorem State.setRep_mem (s : State) (p : Nat) (r : RepRing) : (s.setRep p r).mem = s.mem := rfl
@[simp] theorem State.setRep_ext (s : State) (p : Nat) (r : RepRing) : (s.setRep p r).ext = s.ext := rfl
@[simp] theorem State.setRep_sync (s : State) (p : Nat) (r : RepRing) : (s.setRep p r).sync = s.sync := rfl
@[simp] theorem State.setRep_sigs (s : State) (p : Nat) (r : RepRing) : (s.setRep p r).sigs = s.sigs := rfl
@[simp] theorem State.setRep_waits (s : State) (p : Nat) (r : RepRing) : (s.setRep p r).waits = s.waits := rfl
@[simp] theorem State.setRep_cmds (s : State) (p : Nat) (r : RepRing) : (s.setRep p r).cmds = s.cmds := rfl
@[simp] theorem State.setRep_drips (s : State) (p : Nat) (r : RepRing) : (s.setRep p r).drips = s.drips := rfl
@[simp] theorem State.setRep_rings (s : State) (p : Nat) (r : RepRing) : (s.setRep p r).rings = s.rings := rfl
@[simp] theorem State.setRep_watches (s : State) (p : Nat) (r : RepRing) : (s.setRep p r).watches = s.watches := rfl
@[simp] theorem State.setRep_commits (s : State) (p : Nat) (r : RepRing) : (s.setRep p r).commits = s.commits := rfl
@[simp] theorem State.setRep_bar (s : State) (p : Nat) (r : RepRing) : (s.setRep p r).bar = s.bar := rfl
@[simp] theorem State.setRep_stg (s : State) (p : Nat) (r : RepRing) : (s.setRep p r).stg = s.stg := rfl
@[simp] theorem State.setRep_wrote (s : State) (p : Nat) (r : RepRing) : (s.setRep p r).wrote = s.wrote := rfl
@[simp] theorem State.setRep_frgs (s : State) (p : Nat) (r : RepRing) : (s.setRep p r).frgs = s.frgs := rfl
@[simp] theorem State.setRep_fdescs (s : State) (p : Nat) (r : RepRing) : (s.setRep p r).fdescs = s.fdescs := rfl
@[simp] theorem State.setRep_devs (s : State) (p : Nat) (r : RepRing) : (s.setRep p r).devs = s.devs := rfl
@[simp] theorem State.setRep_reserve (s : State) (p : Nat) (r : RepRing) : (s.setRep p r).reserve = s.reserve := rfl
@[simp] theorem State.setRep_far (s : State) (p : Nat) (r : RepRing) : (s.setRep p r).far = s.far := rfl
@[simp] theorem State.setRep_farTag (s : State) (p : Nat) (r : RepRing) : (s.setRep p r).farTag = s.farTag := rfl
@[simp] theorem State.setRep_farTurn (s : State) (p : Nat) (r : RepRing) : (s.setRep p r).farTurn = s.farTurn := rfl
@[simp] theorem State.setRep_gather (s : State) (p : Nat) (r : RepRing) : (s.setRep p r).gather = s.gather := rfl
@[simp] theorem State.setRep_drains (s : State) (p : Nat) (r : RepRing) : (s.setRep p r).drains = s.drains := rfl
@[simp] theorem State.setRep_link (s : State) (p : Nat) (r : RepRing) : (s.setRep p r).link = s.link := rfl
@[simp] theorem State.setRep_seams (s : State) (p : Nat) (r : RepRing) : (s.setRep p r).seams = s.seams := rfl
@[simp] theorem State.setRep_starve (s : State) (p : Nat) (r : RepRing) : (s.setRep p r).starve = s.starve := rfl
@[simp] theorem State.setRep_flips (s : State) (p : Nat) (r : RepRing) : (s.setRep p r).flips = s.flips := rfl
@[simp] theorem State.setRep_fab (s : State) (p : Nat) (r : RepRing) : (s.setRep p r).fab = s.fab := rfl
@[simp] theorem State.setRep_coll (s : State) (p : Nat) (r : RepRing) : (s.setRep p r).coll = s.coll := rfl
@[simp] theorem State.setRep_swarm (s : State) (p : Nat) (r : RepRing) : (s.setRep p r).swarm = s.swarm := rfl
@[simp] theorem State.setRep_place (s : State) (p : Nat) (r : RepRing) : (s.setRep p r).place = s.place := rfl
@[simp] theorem State.setRep_power (s : State) (p : Nat) (r : RepRing) : (s.setRep p r).power = s.power := rfl
@[simp] theorem State.setRep_epochs (s : State) (p : Nat) (r : RepRing) : (s.setRep p r).epochs = s.epochs := rfl
@[simp] theorem State.setRep_pins (s : State) (p : Nat) (r : RepRing) : (s.setRep p r).pins = s.pins := rfl
@[simp] theorem State.setRep_resets (s : State) (p : Nat) (r : RepRing) : (s.setRep p r).resets = s.resets := rfl
@[simp] theorem State.setRep_boot (s : State) (p : Nat) (r : RepRing) : (s.setRep p r).boot = s.boot := rfl
@[simp] theorem State.setRep_mgmt (s : State) (p : Nat) (r : RepRing) : (s.setRep p r).mgmt = s.mgmt := rfl
@[simp] theorem State.setRep_dbg (s : State) (p : Nat) (r : RepRing) : (s.setRep p r).dbg = s.dbg := rfl
@[simp] theorem State.setRep_nextId (s : State) (p : Nat) (r : RepRing) : (s.setRep p r).nextId = s.nextId := rfl
@[simp] theorem State.setRep_freeCtr (s : State) (p : Nat) (r : RepRing) : (s.setRep p r).freeCtr = s.freeCtr := rfl
@[simp] theorem State.setRep_pending (s : State) (p : Nat) (r : RepRing) : (s.setRep p r).pending = s.pending := rfl

/-! ### setDrip -/

@[simp] theorem State.setDrip_cells (s : State) (p : Nat) (d : Drip) : (s.setDrip p d).cells = s.cells := rfl
@[simp] theorem State.setDrip_remap (s : State) (p : Nat) (d : Drip) : (s.setDrip p d).remap = s.remap := rfl
@[simp] theorem State.setDrip_phys (s : State) (p : Nat) (d : Drip) : (s.setDrip p d).phys = s.phys := rfl
@[simp] theorem State.setDrip_switches (s : State) (p : Nat) (d : Drip) : (s.setDrip p d).switches = s.switches := rfl
@[simp] theorem State.setDrip_saveMoves (s : State) (p : Nat) (d : Drip) : (s.setDrip p d).saveMoves = s.saveMoves := rfl
@[simp] theorem State.setDrip_mem (s : State) (p : Nat) (d : Drip) : (s.setDrip p d).mem = s.mem := rfl
@[simp] theorem State.setDrip_ext (s : State) (p : Nat) (d : Drip) : (s.setDrip p d).ext = s.ext := rfl
@[simp] theorem State.setDrip_sync (s : State) (p : Nat) (d : Drip) : (s.setDrip p d).sync = s.sync := rfl
@[simp] theorem State.setDrip_sigs (s : State) (p : Nat) (d : Drip) : (s.setDrip p d).sigs = s.sigs := rfl
@[simp] theorem State.setDrip_waits (s : State) (p : Nat) (d : Drip) : (s.setDrip p d).waits = s.waits := rfl
@[simp] theorem State.setDrip_cmds (s : State) (p : Nat) (d : Drip) : (s.setDrip p d).cmds = s.cmds := rfl
@[simp] theorem State.setDrip_rings (s : State) (p : Nat) (d : Drip) : (s.setDrip p d).rings = s.rings := rfl
@[simp] theorem State.setDrip_reps (s : State) (p : Nat) (d : Drip) : (s.setDrip p d).reps = s.reps := rfl
@[simp] theorem State.setDrip_watches (s : State) (p : Nat) (d : Drip) : (s.setDrip p d).watches = s.watches := rfl
@[simp] theorem State.setDrip_commits (s : State) (p : Nat) (d : Drip) : (s.setDrip p d).commits = s.commits := rfl
@[simp] theorem State.setDrip_bar (s : State) (p : Nat) (d : Drip) : (s.setDrip p d).bar = s.bar := rfl
@[simp] theorem State.setDrip_stg (s : State) (p : Nat) (d : Drip) : (s.setDrip p d).stg = s.stg := rfl
@[simp] theorem State.setDrip_wrote (s : State) (p : Nat) (d : Drip) : (s.setDrip p d).wrote = s.wrote := rfl
@[simp] theorem State.setDrip_frgs (s : State) (p : Nat) (d : Drip) : (s.setDrip p d).frgs = s.frgs := rfl
@[simp] theorem State.setDrip_fdescs (s : State) (p : Nat) (d : Drip) : (s.setDrip p d).fdescs = s.fdescs := rfl
@[simp] theorem State.setDrip_devs (s : State) (p : Nat) (d : Drip) : (s.setDrip p d).devs = s.devs := rfl
@[simp] theorem State.setDrip_reserve (s : State) (p : Nat) (d : Drip) : (s.setDrip p d).reserve = s.reserve := rfl
@[simp] theorem State.setDrip_far (s : State) (p : Nat) (d : Drip) : (s.setDrip p d).far = s.far := rfl
@[simp] theorem State.setDrip_farTag (s : State) (p : Nat) (d : Drip) : (s.setDrip p d).farTag = s.farTag := rfl
@[simp] theorem State.setDrip_farTurn (s : State) (p : Nat) (d : Drip) : (s.setDrip p d).farTurn = s.farTurn := rfl
@[simp] theorem State.setDrip_gather (s : State) (p : Nat) (d : Drip) : (s.setDrip p d).gather = s.gather := rfl
@[simp] theorem State.setDrip_drains (s : State) (p : Nat) (d : Drip) : (s.setDrip p d).drains = s.drains := rfl
@[simp] theorem State.setDrip_link (s : State) (p : Nat) (d : Drip) : (s.setDrip p d).link = s.link := rfl
@[simp] theorem State.setDrip_seams (s : State) (p : Nat) (d : Drip) : (s.setDrip p d).seams = s.seams := rfl
@[simp] theorem State.setDrip_starve (s : State) (p : Nat) (d : Drip) : (s.setDrip p d).starve = s.starve := rfl
@[simp] theorem State.setDrip_flips (s : State) (p : Nat) (d : Drip) : (s.setDrip p d).flips = s.flips := rfl
@[simp] theorem State.setDrip_fab (s : State) (p : Nat) (d : Drip) : (s.setDrip p d).fab = s.fab := rfl
@[simp] theorem State.setDrip_coll (s : State) (p : Nat) (d : Drip) : (s.setDrip p d).coll = s.coll := rfl
@[simp] theorem State.setDrip_swarm (s : State) (p : Nat) (d : Drip) : (s.setDrip p d).swarm = s.swarm := rfl
@[simp] theorem State.setDrip_place (s : State) (p : Nat) (d : Drip) : (s.setDrip p d).place = s.place := rfl
@[simp] theorem State.setDrip_power (s : State) (p : Nat) (d : Drip) : (s.setDrip p d).power = s.power := rfl
@[simp] theorem State.setDrip_epochs (s : State) (p : Nat) (d : Drip) : (s.setDrip p d).epochs = s.epochs := rfl
@[simp] theorem State.setDrip_pins (s : State) (p : Nat) (d : Drip) : (s.setDrip p d).pins = s.pins := rfl
@[simp] theorem State.setDrip_resets (s : State) (p : Nat) (d : Drip) : (s.setDrip p d).resets = s.resets := rfl
@[simp] theorem State.setDrip_boot (s : State) (p : Nat) (d : Drip) : (s.setDrip p d).boot = s.boot := rfl
@[simp] theorem State.setDrip_mgmt (s : State) (p : Nat) (d : Drip) : (s.setDrip p d).mgmt = s.mgmt := rfl
@[simp] theorem State.setDrip_dbg (s : State) (p : Nat) (d : Drip) : (s.setDrip p d).dbg = s.dbg := rfl
@[simp] theorem State.setDrip_nextId (s : State) (p : Nat) (d : Drip) : (s.setDrip p d).nextId = s.nextId := rfl
@[simp] theorem State.setDrip_freeCtr (s : State) (p : Nat) (d : Drip) : (s.setDrip p d).freeCtr = s.freeCtr := rfl
@[simp] theorem State.setDrip_pending (s : State) (p : Nat) (d : Drip) : (s.setDrip p d).pending = s.pending := rfl

/-! ### setCommit -/

@[simp] theorem State.setCommit_cells (s : State) (f : Nat) (c : Commit) : (s.setCommit f c).cells = s.cells := rfl
@[simp] theorem State.setCommit_remap (s : State) (f : Nat) (c : Commit) : (s.setCommit f c).remap = s.remap := rfl
@[simp] theorem State.setCommit_phys (s : State) (f : Nat) (c : Commit) : (s.setCommit f c).phys = s.phys := rfl
@[simp] theorem State.setCommit_switches (s : State) (f : Nat) (c : Commit) : (s.setCommit f c).switches = s.switches := rfl
@[simp] theorem State.setCommit_saveMoves (s : State) (f : Nat) (c : Commit) : (s.setCommit f c).saveMoves = s.saveMoves := rfl
@[simp] theorem State.setCommit_mem (s : State) (f : Nat) (c : Commit) : (s.setCommit f c).mem = s.mem := rfl
@[simp] theorem State.setCommit_ext (s : State) (f : Nat) (c : Commit) : (s.setCommit f c).ext = s.ext := rfl
@[simp] theorem State.setCommit_sync (s : State) (f : Nat) (c : Commit) : (s.setCommit f c).sync = s.sync := rfl
@[simp] theorem State.setCommit_sigs (s : State) (f : Nat) (c : Commit) : (s.setCommit f c).sigs = s.sigs := rfl
@[simp] theorem State.setCommit_waits (s : State) (f : Nat) (c : Commit) : (s.setCommit f c).waits = s.waits := rfl
@[simp] theorem State.setCommit_cmds (s : State) (f : Nat) (c : Commit) : (s.setCommit f c).cmds = s.cmds := rfl
@[simp] theorem State.setCommit_drips (s : State) (f : Nat) (c : Commit) : (s.setCommit f c).drips = s.drips := rfl
@[simp] theorem State.setCommit_rings (s : State) (f : Nat) (c : Commit) : (s.setCommit f c).rings = s.rings := rfl
@[simp] theorem State.setCommit_reps (s : State) (f : Nat) (c : Commit) : (s.setCommit f c).reps = s.reps := rfl
@[simp] theorem State.setCommit_watches (s : State) (f : Nat) (c : Commit) : (s.setCommit f c).watches = s.watches := rfl
@[simp] theorem State.setCommit_bar (s : State) (f : Nat) (c : Commit) : (s.setCommit f c).bar = s.bar := rfl
@[simp] theorem State.setCommit_stg (s : State) (f : Nat) (c : Commit) : (s.setCommit f c).stg = s.stg := rfl
@[simp] theorem State.setCommit_wrote (s : State) (f : Nat) (c : Commit) : (s.setCommit f c).wrote = s.wrote := rfl
@[simp] theorem State.setCommit_frgs (s : State) (f : Nat) (c : Commit) : (s.setCommit f c).frgs = s.frgs := rfl
@[simp] theorem State.setCommit_fdescs (s : State) (f : Nat) (c : Commit) : (s.setCommit f c).fdescs = s.fdescs := rfl
@[simp] theorem State.setCommit_devs (s : State) (f : Nat) (c : Commit) : (s.setCommit f c).devs = s.devs := rfl
@[simp] theorem State.setCommit_reserve (s : State) (f : Nat) (c : Commit) : (s.setCommit f c).reserve = s.reserve := rfl
@[simp] theorem State.setCommit_far (s : State) (f : Nat) (c : Commit) : (s.setCommit f c).far = s.far := rfl
@[simp] theorem State.setCommit_farTag (s : State) (f : Nat) (c : Commit) : (s.setCommit f c).farTag = s.farTag := rfl
@[simp] theorem State.setCommit_farTurn (s : State) (f : Nat) (c : Commit) : (s.setCommit f c).farTurn = s.farTurn := rfl
@[simp] theorem State.setCommit_gather (s : State) (f : Nat) (c : Commit) : (s.setCommit f c).gather = s.gather := rfl
@[simp] theorem State.setCommit_drains (s : State) (f : Nat) (c : Commit) : (s.setCommit f c).drains = s.drains := rfl
@[simp] theorem State.setCommit_link (s : State) (f : Nat) (c : Commit) : (s.setCommit f c).link = s.link := rfl
@[simp] theorem State.setCommit_seams (s : State) (f : Nat) (c : Commit) : (s.setCommit f c).seams = s.seams := rfl
@[simp] theorem State.setCommit_starve (s : State) (f : Nat) (c : Commit) : (s.setCommit f c).starve = s.starve := rfl
@[simp] theorem State.setCommit_flips (s : State) (f : Nat) (c : Commit) : (s.setCommit f c).flips = s.flips := rfl
@[simp] theorem State.setCommit_fab (s : State) (f : Nat) (c : Commit) : (s.setCommit f c).fab = s.fab := rfl
@[simp] theorem State.setCommit_coll (s : State) (f : Nat) (c : Commit) : (s.setCommit f c).coll = s.coll := rfl
@[simp] theorem State.setCommit_swarm (s : State) (f : Nat) (c : Commit) : (s.setCommit f c).swarm = s.swarm := rfl
@[simp] theorem State.setCommit_place (s : State) (f : Nat) (c : Commit) : (s.setCommit f c).place = s.place := rfl
@[simp] theorem State.setCommit_power (s : State) (f : Nat) (c : Commit) : (s.setCommit f c).power = s.power := rfl
@[simp] theorem State.setCommit_epochs (s : State) (f : Nat) (c : Commit) : (s.setCommit f c).epochs = s.epochs := rfl
@[simp] theorem State.setCommit_pins (s : State) (f : Nat) (c : Commit) : (s.setCommit f c).pins = s.pins := rfl
@[simp] theorem State.setCommit_resets (s : State) (f : Nat) (c : Commit) : (s.setCommit f c).resets = s.resets := rfl
@[simp] theorem State.setCommit_boot (s : State) (f : Nat) (c : Commit) : (s.setCommit f c).boot = s.boot := rfl
@[simp] theorem State.setCommit_mgmt (s : State) (f : Nat) (c : Commit) : (s.setCommit f c).mgmt = s.mgmt := rfl
@[simp] theorem State.setCommit_dbg (s : State) (f : Nat) (c : Commit) : (s.setCommit f c).dbg = s.dbg := rfl
@[simp] theorem State.setCommit_nextId (s : State) (f : Nat) (c : Commit) : (s.setCommit f c).nextId = s.nextId := rfl
@[simp] theorem State.setCommit_freeCtr (s : State) (f : Nat) (c : Commit) : (s.setCommit f c).freeCtr = s.freeCtr := rfl
@[simp] theorem State.setCommit_pending (s : State) (f : Nat) (c : Commit) : (s.setCommit f c).pending = s.pending := rfl

/-! ### setCmd -/

@[simp] theorem State.setCmd_cells (s : State) (c : Cmd) : (s.setCmd c).cells = s.cells := rfl
@[simp] theorem State.setCmd_remap (s : State) (c : Cmd) : (s.setCmd c).remap = s.remap := rfl
@[simp] theorem State.setCmd_phys (s : State) (c : Cmd) : (s.setCmd c).phys = s.phys := rfl
@[simp] theorem State.setCmd_switches (s : State) (c : Cmd) : (s.setCmd c).switches = s.switches := rfl
@[simp] theorem State.setCmd_saveMoves (s : State) (c : Cmd) : (s.setCmd c).saveMoves = s.saveMoves := rfl
@[simp] theorem State.setCmd_mem (s : State) (c : Cmd) : (s.setCmd c).mem = s.mem := rfl
@[simp] theorem State.setCmd_ext (s : State) (c : Cmd) : (s.setCmd c).ext = s.ext := rfl
@[simp] theorem State.setCmd_sync (s : State) (c : Cmd) : (s.setCmd c).sync = s.sync := rfl
@[simp] theorem State.setCmd_sigs (s : State) (c : Cmd) : (s.setCmd c).sigs = s.sigs := rfl
@[simp] theorem State.setCmd_waits (s : State) (c : Cmd) : (s.setCmd c).waits = s.waits := rfl
@[simp] theorem State.setCmd_drips (s : State) (c : Cmd) : (s.setCmd c).drips = s.drips := rfl
@[simp] theorem State.setCmd_rings (s : State) (c : Cmd) : (s.setCmd c).rings = s.rings := rfl
@[simp] theorem State.setCmd_reps (s : State) (c : Cmd) : (s.setCmd c).reps = s.reps := rfl
@[simp] theorem State.setCmd_watches (s : State) (c : Cmd) : (s.setCmd c).watches = s.watches := rfl
@[simp] theorem State.setCmd_commits (s : State) (c : Cmd) : (s.setCmd c).commits = s.commits := rfl
@[simp] theorem State.setCmd_bar (s : State) (c : Cmd) : (s.setCmd c).bar = s.bar := rfl
@[simp] theorem State.setCmd_stg (s : State) (c : Cmd) : (s.setCmd c).stg = s.stg := rfl
@[simp] theorem State.setCmd_wrote (s : State) (c : Cmd) : (s.setCmd c).wrote = s.wrote := rfl
@[simp] theorem State.setCmd_frgs (s : State) (c : Cmd) : (s.setCmd c).frgs = s.frgs := rfl
@[simp] theorem State.setCmd_fdescs (s : State) (c : Cmd) : (s.setCmd c).fdescs = s.fdescs := rfl
@[simp] theorem State.setCmd_devs (s : State) (c : Cmd) : (s.setCmd c).devs = s.devs := rfl
@[simp] theorem State.setCmd_reserve (s : State) (c : Cmd) : (s.setCmd c).reserve = s.reserve := rfl
@[simp] theorem State.setCmd_far (s : State) (c : Cmd) : (s.setCmd c).far = s.far := rfl
@[simp] theorem State.setCmd_farTag (s : State) (c : Cmd) : (s.setCmd c).farTag = s.farTag := rfl
@[simp] theorem State.setCmd_farTurn (s : State) (c : Cmd) : (s.setCmd c).farTurn = s.farTurn := rfl
@[simp] theorem State.setCmd_gather (s : State) (c : Cmd) : (s.setCmd c).gather = s.gather := rfl
@[simp] theorem State.setCmd_drains (s : State) (c : Cmd) : (s.setCmd c).drains = s.drains := rfl
@[simp] theorem State.setCmd_link (s : State) (c : Cmd) : (s.setCmd c).link = s.link := rfl
@[simp] theorem State.setCmd_seams (s : State) (c : Cmd) : (s.setCmd c).seams = s.seams := rfl
@[simp] theorem State.setCmd_starve (s : State) (c : Cmd) : (s.setCmd c).starve = s.starve := rfl
@[simp] theorem State.setCmd_flips (s : State) (c : Cmd) : (s.setCmd c).flips = s.flips := rfl
@[simp] theorem State.setCmd_fab (s : State) (c : Cmd) : (s.setCmd c).fab = s.fab := rfl
@[simp] theorem State.setCmd_coll (s : State) (c : Cmd) : (s.setCmd c).coll = s.coll := rfl
@[simp] theorem State.setCmd_swarm (s : State) (c : Cmd) : (s.setCmd c).swarm = s.swarm := rfl
@[simp] theorem State.setCmd_place (s : State) (c : Cmd) : (s.setCmd c).place = s.place := rfl
@[simp] theorem State.setCmd_power (s : State) (c : Cmd) : (s.setCmd c).power = s.power := rfl
@[simp] theorem State.setCmd_epochs (s : State) (c : Cmd) : (s.setCmd c).epochs = s.epochs := rfl
@[simp] theorem State.setCmd_pins (s : State) (c : Cmd) : (s.setCmd c).pins = s.pins := rfl
@[simp] theorem State.setCmd_resets (s : State) (c : Cmd) : (s.setCmd c).resets = s.resets := rfl
@[simp] theorem State.setCmd_boot (s : State) (c : Cmd) : (s.setCmd c).boot = s.boot := rfl
@[simp] theorem State.setCmd_mgmt (s : State) (c : Cmd) : (s.setCmd c).mgmt = s.mgmt := rfl
@[simp] theorem State.setCmd_dbg (s : State) (c : Cmd) : (s.setCmd c).dbg = s.dbg := rfl
@[simp] theorem State.setCmd_nextId (s : State) (c : Cmd) : (s.setCmd c).nextId = s.nextId := rfl
@[simp] theorem State.setCmd_freeCtr (s : State) (c : Cmd) : (s.setCmd c).freeCtr = s.freeCtr := rfl
@[simp] theorem State.setCmd_pending (s : State) (c : Cmd) : (s.setCmd c).pending = s.pending := rfl

/-! ### setFdesc -/

@[simp] theorem State.setFdesc_cells (s : State) (d : FDesc) : (s.setFdesc d).cells = s.cells := rfl
@[simp] theorem State.setFdesc_remap (s : State) (d : FDesc) : (s.setFdesc d).remap = s.remap := rfl
@[simp] theorem State.setFdesc_phys (s : State) (d : FDesc) : (s.setFdesc d).phys = s.phys := rfl
@[simp] theorem State.setFdesc_switches (s : State) (d : FDesc) : (s.setFdesc d).switches = s.switches := rfl
@[simp] theorem State.setFdesc_saveMoves (s : State) (d : FDesc) : (s.setFdesc d).saveMoves = s.saveMoves := rfl
@[simp] theorem State.setFdesc_mem (s : State) (d : FDesc) : (s.setFdesc d).mem = s.mem := rfl
@[simp] theorem State.setFdesc_ext (s : State) (d : FDesc) : (s.setFdesc d).ext = s.ext := rfl
@[simp] theorem State.setFdesc_sync (s : State) (d : FDesc) : (s.setFdesc d).sync = s.sync := rfl
@[simp] theorem State.setFdesc_sigs (s : State) (d : FDesc) : (s.setFdesc d).sigs = s.sigs := rfl
@[simp] theorem State.setFdesc_waits (s : State) (d : FDesc) : (s.setFdesc d).waits = s.waits := rfl
@[simp] theorem State.setFdesc_cmds (s : State) (d : FDesc) : (s.setFdesc d).cmds = s.cmds := rfl
@[simp] theorem State.setFdesc_drips (s : State) (d : FDesc) : (s.setFdesc d).drips = s.drips := rfl
@[simp] theorem State.setFdesc_rings (s : State) (d : FDesc) : (s.setFdesc d).rings = s.rings := rfl
@[simp] theorem State.setFdesc_reps (s : State) (d : FDesc) : (s.setFdesc d).reps = s.reps := rfl
@[simp] theorem State.setFdesc_watches (s : State) (d : FDesc) : (s.setFdesc d).watches = s.watches := rfl
@[simp] theorem State.setFdesc_commits (s : State) (d : FDesc) : (s.setFdesc d).commits = s.commits := rfl
@[simp] theorem State.setFdesc_bar (s : State) (d : FDesc) : (s.setFdesc d).bar = s.bar := rfl
@[simp] theorem State.setFdesc_stg (s : State) (d : FDesc) : (s.setFdesc d).stg = s.stg := rfl
@[simp] theorem State.setFdesc_wrote (s : State) (d : FDesc) : (s.setFdesc d).wrote = s.wrote := rfl
@[simp] theorem State.setFdesc_frgs (s : State) (d : FDesc) : (s.setFdesc d).frgs = s.frgs := rfl
@[simp] theorem State.setFdesc_devs (s : State) (d : FDesc) : (s.setFdesc d).devs = s.devs := rfl
@[simp] theorem State.setFdesc_reserve (s : State) (d : FDesc) : (s.setFdesc d).reserve = s.reserve := rfl
@[simp] theorem State.setFdesc_far (s : State) (d : FDesc) : (s.setFdesc d).far = s.far := rfl
@[simp] theorem State.setFdesc_farTag (s : State) (d : FDesc) : (s.setFdesc d).farTag = s.farTag := rfl
@[simp] theorem State.setFdesc_farTurn (s : State) (d : FDesc) : (s.setFdesc d).farTurn = s.farTurn := rfl
@[simp] theorem State.setFdesc_gather (s : State) (d : FDesc) : (s.setFdesc d).gather = s.gather := rfl
@[simp] theorem State.setFdesc_drains (s : State) (d : FDesc) : (s.setFdesc d).drains = s.drains := rfl
@[simp] theorem State.setFdesc_link (s : State) (d : FDesc) : (s.setFdesc d).link = s.link := rfl
@[simp] theorem State.setFdesc_seams (s : State) (d : FDesc) : (s.setFdesc d).seams = s.seams := rfl
@[simp] theorem State.setFdesc_starve (s : State) (d : FDesc) : (s.setFdesc d).starve = s.starve := rfl
@[simp] theorem State.setFdesc_flips (s : State) (d : FDesc) : (s.setFdesc d).flips = s.flips := rfl
@[simp] theorem State.setFdesc_fab (s : State) (d : FDesc) : (s.setFdesc d).fab = s.fab := rfl
@[simp] theorem State.setFdesc_coll (s : State) (d : FDesc) : (s.setFdesc d).coll = s.coll := rfl
@[simp] theorem State.setFdesc_swarm (s : State) (d : FDesc) : (s.setFdesc d).swarm = s.swarm := rfl
@[simp] theorem State.setFdesc_place (s : State) (d : FDesc) : (s.setFdesc d).place = s.place := rfl
@[simp] theorem State.setFdesc_power (s : State) (d : FDesc) : (s.setFdesc d).power = s.power := rfl
@[simp] theorem State.setFdesc_epochs (s : State) (d : FDesc) : (s.setFdesc d).epochs = s.epochs := rfl
@[simp] theorem State.setFdesc_pins (s : State) (d : FDesc) : (s.setFdesc d).pins = s.pins := rfl
@[simp] theorem State.setFdesc_resets (s : State) (d : FDesc) : (s.setFdesc d).resets = s.resets := rfl
@[simp] theorem State.setFdesc_boot (s : State) (d : FDesc) : (s.setFdesc d).boot = s.boot := rfl
@[simp] theorem State.setFdesc_mgmt (s : State) (d : FDesc) : (s.setFdesc d).mgmt = s.mgmt := rfl
@[simp] theorem State.setFdesc_dbg (s : State) (d : FDesc) : (s.setFdesc d).dbg = s.dbg := rfl
@[simp] theorem State.setFdesc_nextId (s : State) (d : FDesc) : (s.setFdesc d).nextId = s.nextId := rfl
@[simp] theorem State.setFdesc_freeCtr (s : State) (d : FDesc) : (s.setFdesc d).freeCtr = s.freeCtr := rfl
@[simp] theorem State.setFdesc_pending (s : State) (d : FDesc) : (s.setFdesc d).pending = s.pending := rfl

/-! ### setColl -/

@[simp] theorem State.setColl_cells (s : State) (c : Coll) : (s.setColl c).cells = s.cells := rfl
@[simp] theorem State.setColl_remap (s : State) (c : Coll) : (s.setColl c).remap = s.remap := rfl
@[simp] theorem State.setColl_phys (s : State) (c : Coll) : (s.setColl c).phys = s.phys := rfl
@[simp] theorem State.setColl_switches (s : State) (c : Coll) : (s.setColl c).switches = s.switches := rfl
@[simp] theorem State.setColl_saveMoves (s : State) (c : Coll) : (s.setColl c).saveMoves = s.saveMoves := rfl
@[simp] theorem State.setColl_mem (s : State) (c : Coll) : (s.setColl c).mem = s.mem := rfl
@[simp] theorem State.setColl_ext (s : State) (c : Coll) : (s.setColl c).ext = s.ext := rfl
@[simp] theorem State.setColl_sync (s : State) (c : Coll) : (s.setColl c).sync = s.sync := rfl
@[simp] theorem State.setColl_sigs (s : State) (c : Coll) : (s.setColl c).sigs = s.sigs := rfl
@[simp] theorem State.setColl_waits (s : State) (c : Coll) : (s.setColl c).waits = s.waits := rfl
@[simp] theorem State.setColl_cmds (s : State) (c : Coll) : (s.setColl c).cmds = s.cmds := rfl
@[simp] theorem State.setColl_drips (s : State) (c : Coll) : (s.setColl c).drips = s.drips := rfl
@[simp] theorem State.setColl_rings (s : State) (c : Coll) : (s.setColl c).rings = s.rings := rfl
@[simp] theorem State.setColl_reps (s : State) (c : Coll) : (s.setColl c).reps = s.reps := rfl
@[simp] theorem State.setColl_watches (s : State) (c : Coll) : (s.setColl c).watches = s.watches := rfl
@[simp] theorem State.setColl_commits (s : State) (c : Coll) : (s.setColl c).commits = s.commits := rfl
@[simp] theorem State.setColl_bar (s : State) (c : Coll) : (s.setColl c).bar = s.bar := rfl
@[simp] theorem State.setColl_stg (s : State) (c : Coll) : (s.setColl c).stg = s.stg := rfl
@[simp] theorem State.setColl_wrote (s : State) (c : Coll) : (s.setColl c).wrote = s.wrote := rfl
@[simp] theorem State.setColl_frgs (s : State) (c : Coll) : (s.setColl c).frgs = s.frgs := rfl
@[simp] theorem State.setColl_fdescs (s : State) (c : Coll) : (s.setColl c).fdescs = s.fdescs := rfl
@[simp] theorem State.setColl_devs (s : State) (c : Coll) : (s.setColl c).devs = s.devs := rfl
@[simp] theorem State.setColl_reserve (s : State) (c : Coll) : (s.setColl c).reserve = s.reserve := rfl
@[simp] theorem State.setColl_far (s : State) (c : Coll) : (s.setColl c).far = s.far := rfl
@[simp] theorem State.setColl_farTag (s : State) (c : Coll) : (s.setColl c).farTag = s.farTag := rfl
@[simp] theorem State.setColl_farTurn (s : State) (c : Coll) : (s.setColl c).farTurn = s.farTurn := rfl
@[simp] theorem State.setColl_gather (s : State) (c : Coll) : (s.setColl c).gather = s.gather := rfl
@[simp] theorem State.setColl_drains (s : State) (c : Coll) : (s.setColl c).drains = s.drains := rfl
@[simp] theorem State.setColl_link (s : State) (c : Coll) : (s.setColl c).link = s.link := rfl
@[simp] theorem State.setColl_seams (s : State) (c : Coll) : (s.setColl c).seams = s.seams := rfl
@[simp] theorem State.setColl_starve (s : State) (c : Coll) : (s.setColl c).starve = s.starve := rfl
@[simp] theorem State.setColl_flips (s : State) (c : Coll) : (s.setColl c).flips = s.flips := rfl
@[simp] theorem State.setColl_fab (s : State) (c : Coll) : (s.setColl c).fab = s.fab := rfl
@[simp] theorem State.setColl_swarm (s : State) (c : Coll) : (s.setColl c).swarm = s.swarm := rfl
@[simp] theorem State.setColl_place (s : State) (c : Coll) : (s.setColl c).place = s.place := rfl
@[simp] theorem State.setColl_power (s : State) (c : Coll) : (s.setColl c).power = s.power := rfl
@[simp] theorem State.setColl_epochs (s : State) (c : Coll) : (s.setColl c).epochs = s.epochs := rfl
@[simp] theorem State.setColl_pins (s : State) (c : Coll) : (s.setColl c).pins = s.pins := rfl
@[simp] theorem State.setColl_resets (s : State) (c : Coll) : (s.setColl c).resets = s.resets := rfl
@[simp] theorem State.setColl_boot (s : State) (c : Coll) : (s.setColl c).boot = s.boot := rfl
@[simp] theorem State.setColl_mgmt (s : State) (c : Coll) : (s.setColl c).mgmt = s.mgmt := rfl
@[simp] theorem State.setColl_dbg (s : State) (c : Coll) : (s.setColl c).dbg = s.dbg := rfl
@[simp] theorem State.setColl_nextId (s : State) (c : Coll) : (s.setColl c).nextId = s.nextId := rfl
@[simp] theorem State.setColl_freeCtr (s : State) (c : Coll) : (s.setColl c).freeCtr = s.freeCtr := rfl
@[simp] theorem State.setColl_pending (s : State) (c : Coll) : (s.setColl c).pending = s.pending := rfl

/-! ### setTeamSeq -/

@[simp] theorem State.setTeamSeq_cells (s : State) (n : Nat) (t : Team) : (s.setTeamSeq n t).cells = s.cells := rfl
@[simp] theorem State.setTeamSeq_remap (s : State) (n : Nat) (t : Team) : (s.setTeamSeq n t).remap = s.remap := rfl
@[simp] theorem State.setTeamSeq_phys (s : State) (n : Nat) (t : Team) : (s.setTeamSeq n t).phys = s.phys := rfl
@[simp] theorem State.setTeamSeq_switches (s : State) (n : Nat) (t : Team) : (s.setTeamSeq n t).switches = s.switches := rfl
@[simp] theorem State.setTeamSeq_saveMoves (s : State) (n : Nat) (t : Team) : (s.setTeamSeq n t).saveMoves = s.saveMoves := rfl
@[simp] theorem State.setTeamSeq_mem (s : State) (n : Nat) (t : Team) : (s.setTeamSeq n t).mem = s.mem := rfl
@[simp] theorem State.setTeamSeq_ext (s : State) (n : Nat) (t : Team) : (s.setTeamSeq n t).ext = s.ext := rfl
@[simp] theorem State.setTeamSeq_sync (s : State) (n : Nat) (t : Team) : (s.setTeamSeq n t).sync = s.sync := rfl
@[simp] theorem State.setTeamSeq_sigs (s : State) (n : Nat) (t : Team) : (s.setTeamSeq n t).sigs = s.sigs := rfl
@[simp] theorem State.setTeamSeq_waits (s : State) (n : Nat) (t : Team) : (s.setTeamSeq n t).waits = s.waits := rfl
@[simp] theorem State.setTeamSeq_cmds (s : State) (n : Nat) (t : Team) : (s.setTeamSeq n t).cmds = s.cmds := rfl
@[simp] theorem State.setTeamSeq_drips (s : State) (n : Nat) (t : Team) : (s.setTeamSeq n t).drips = s.drips := rfl
@[simp] theorem State.setTeamSeq_rings (s : State) (n : Nat) (t : Team) : (s.setTeamSeq n t).rings = s.rings := rfl
@[simp] theorem State.setTeamSeq_reps (s : State) (n : Nat) (t : Team) : (s.setTeamSeq n t).reps = s.reps := rfl
@[simp] theorem State.setTeamSeq_watches (s : State) (n : Nat) (t : Team) : (s.setTeamSeq n t).watches = s.watches := rfl
@[simp] theorem State.setTeamSeq_commits (s : State) (n : Nat) (t : Team) : (s.setTeamSeq n t).commits = s.commits := rfl
@[simp] theorem State.setTeamSeq_bar (s : State) (n : Nat) (t : Team) : (s.setTeamSeq n t).bar = s.bar := rfl
@[simp] theorem State.setTeamSeq_stg (s : State) (n : Nat) (t : Team) : (s.setTeamSeq n t).stg = s.stg := rfl
@[simp] theorem State.setTeamSeq_wrote (s : State) (n : Nat) (t : Team) : (s.setTeamSeq n t).wrote = s.wrote := rfl
@[simp] theorem State.setTeamSeq_frgs (s : State) (n : Nat) (t : Team) : (s.setTeamSeq n t).frgs = s.frgs := rfl
@[simp] theorem State.setTeamSeq_fdescs (s : State) (n : Nat) (t : Team) : (s.setTeamSeq n t).fdescs = s.fdescs := rfl
@[simp] theorem State.setTeamSeq_devs (s : State) (n : Nat) (t : Team) : (s.setTeamSeq n t).devs = s.devs := rfl
@[simp] theorem State.setTeamSeq_reserve (s : State) (n : Nat) (t : Team) : (s.setTeamSeq n t).reserve = s.reserve := rfl
@[simp] theorem State.setTeamSeq_far (s : State) (n : Nat) (t : Team) : (s.setTeamSeq n t).far = s.far := rfl
@[simp] theorem State.setTeamSeq_farTag (s : State) (n : Nat) (t : Team) : (s.setTeamSeq n t).farTag = s.farTag := rfl
@[simp] theorem State.setTeamSeq_farTurn (s : State) (n : Nat) (t : Team) : (s.setTeamSeq n t).farTurn = s.farTurn := rfl
@[simp] theorem State.setTeamSeq_gather (s : State) (n : Nat) (t : Team) : (s.setTeamSeq n t).gather = s.gather := rfl
@[simp] theorem State.setTeamSeq_drains (s : State) (n : Nat) (t : Team) : (s.setTeamSeq n t).drains = s.drains := rfl
@[simp] theorem State.setTeamSeq_link (s : State) (n : Nat) (t : Team) : (s.setTeamSeq n t).link = s.link := rfl
@[simp] theorem State.setTeamSeq_seams (s : State) (n : Nat) (t : Team) : (s.setTeamSeq n t).seams = s.seams := rfl
@[simp] theorem State.setTeamSeq_starve (s : State) (n : Nat) (t : Team) : (s.setTeamSeq n t).starve = s.starve := rfl
@[simp] theorem State.setTeamSeq_flips (s : State) (n : Nat) (t : Team) : (s.setTeamSeq n t).flips = s.flips := rfl
@[simp] theorem State.setTeamSeq_fab (s : State) (n : Nat) (t : Team) : (s.setTeamSeq n t).fab = s.fab := rfl
@[simp] theorem State.setTeamSeq_swarm (s : State) (n : Nat) (t : Team) : (s.setTeamSeq n t).swarm = s.swarm := rfl
@[simp] theorem State.setTeamSeq_place (s : State) (n : Nat) (t : Team) : (s.setTeamSeq n t).place = s.place := rfl
@[simp] theorem State.setTeamSeq_power (s : State) (n : Nat) (t : Team) : (s.setTeamSeq n t).power = s.power := rfl
@[simp] theorem State.setTeamSeq_epochs (s : State) (n : Nat) (t : Team) : (s.setTeamSeq n t).epochs = s.epochs := rfl
@[simp] theorem State.setTeamSeq_pins (s : State) (n : Nat) (t : Team) : (s.setTeamSeq n t).pins = s.pins := rfl
@[simp] theorem State.setTeamSeq_resets (s : State) (n : Nat) (t : Team) : (s.setTeamSeq n t).resets = s.resets := rfl
@[simp] theorem State.setTeamSeq_boot (s : State) (n : Nat) (t : Team) : (s.setTeamSeq n t).boot = s.boot := rfl
@[simp] theorem State.setTeamSeq_mgmt (s : State) (n : Nat) (t : Team) : (s.setTeamSeq n t).mgmt = s.mgmt := rfl
@[simp] theorem State.setTeamSeq_dbg (s : State) (n : Nat) (t : Team) : (s.setTeamSeq n t).dbg = s.dbg := rfl
@[simp] theorem State.setTeamSeq_nextId (s : State) (n : Nat) (t : Team) : (s.setTeamSeq n t).nextId = s.nextId := rfl
@[simp] theorem State.setTeamSeq_freeCtr (s : State) (n : Nat) (t : Team) : (s.setTeamSeq n t).freeCtr = s.freeCtr := rfl
@[simp] theorem State.setTeamSeq_pending (s : State) (n : Nat) (t : Team) : (s.setTeamSeq n t).pending = s.pending := rfl

/-! ### setWatch -/

@[simp] theorem State.setWatch_cells (s : State) (p l : Nat) (w : Watch) : (s.setWatch p l w).cells = s.cells := rfl
@[simp] theorem State.setWatch_remap (s : State) (p l : Nat) (w : Watch) : (s.setWatch p l w).remap = s.remap := rfl
@[simp] theorem State.setWatch_phys (s : State) (p l : Nat) (w : Watch) : (s.setWatch p l w).phys = s.phys := rfl
@[simp] theorem State.setWatch_switches (s : State) (p l : Nat) (w : Watch) : (s.setWatch p l w).switches = s.switches := rfl
@[simp] theorem State.setWatch_saveMoves (s : State) (p l : Nat) (w : Watch) : (s.setWatch p l w).saveMoves = s.saveMoves := rfl
@[simp] theorem State.setWatch_mem (s : State) (p l : Nat) (w : Watch) : (s.setWatch p l w).mem = s.mem := rfl
@[simp] theorem State.setWatch_ext (s : State) (p l : Nat) (w : Watch) : (s.setWatch p l w).ext = s.ext := rfl
@[simp] theorem State.setWatch_sync (s : State) (p l : Nat) (w : Watch) : (s.setWatch p l w).sync = s.sync := rfl
@[simp] theorem State.setWatch_sigs (s : State) (p l : Nat) (w : Watch) : (s.setWatch p l w).sigs = s.sigs := rfl
@[simp] theorem State.setWatch_waits (s : State) (p l : Nat) (w : Watch) : (s.setWatch p l w).waits = s.waits := rfl
@[simp] theorem State.setWatch_cmds (s : State) (p l : Nat) (w : Watch) : (s.setWatch p l w).cmds = s.cmds := rfl
@[simp] theorem State.setWatch_drips (s : State) (p l : Nat) (w : Watch) : (s.setWatch p l w).drips = s.drips := rfl
@[simp] theorem State.setWatch_rings (s : State) (p l : Nat) (w : Watch) : (s.setWatch p l w).rings = s.rings := rfl
@[simp] theorem State.setWatch_reps (s : State) (p l : Nat) (w : Watch) : (s.setWatch p l w).reps = s.reps := rfl
@[simp] theorem State.setWatch_commits (s : State) (p l : Nat) (w : Watch) : (s.setWatch p l w).commits = s.commits := rfl
@[simp] theorem State.setWatch_bar (s : State) (p l : Nat) (w : Watch) : (s.setWatch p l w).bar = s.bar := rfl
@[simp] theorem State.setWatch_stg (s : State) (p l : Nat) (w : Watch) : (s.setWatch p l w).stg = s.stg := rfl
@[simp] theorem State.setWatch_wrote (s : State) (p l : Nat) (w : Watch) : (s.setWatch p l w).wrote = s.wrote := rfl
@[simp] theorem State.setWatch_frgs (s : State) (p l : Nat) (w : Watch) : (s.setWatch p l w).frgs = s.frgs := rfl
@[simp] theorem State.setWatch_fdescs (s : State) (p l : Nat) (w : Watch) : (s.setWatch p l w).fdescs = s.fdescs := rfl
@[simp] theorem State.setWatch_devs (s : State) (p l : Nat) (w : Watch) : (s.setWatch p l w).devs = s.devs := rfl
@[simp] theorem State.setWatch_reserve (s : State) (p l : Nat) (w : Watch) : (s.setWatch p l w).reserve = s.reserve := rfl
@[simp] theorem State.setWatch_far (s : State) (p l : Nat) (w : Watch) : (s.setWatch p l w).far = s.far := rfl
@[simp] theorem State.setWatch_farTag (s : State) (p l : Nat) (w : Watch) : (s.setWatch p l w).farTag = s.farTag := rfl
@[simp] theorem State.setWatch_farTurn (s : State) (p l : Nat) (w : Watch) : (s.setWatch p l w).farTurn = s.farTurn := rfl
@[simp] theorem State.setWatch_gather (s : State) (p l : Nat) (w : Watch) : (s.setWatch p l w).gather = s.gather := rfl
@[simp] theorem State.setWatch_drains (s : State) (p l : Nat) (w : Watch) : (s.setWatch p l w).drains = s.drains := rfl
@[simp] theorem State.setWatch_link (s : State) (p l : Nat) (w : Watch) : (s.setWatch p l w).link = s.link := rfl
@[simp] theorem State.setWatch_seams (s : State) (p l : Nat) (w : Watch) : (s.setWatch p l w).seams = s.seams := rfl
@[simp] theorem State.setWatch_starve (s : State) (p l : Nat) (w : Watch) : (s.setWatch p l w).starve = s.starve := rfl
@[simp] theorem State.setWatch_flips (s : State) (p l : Nat) (w : Watch) : (s.setWatch p l w).flips = s.flips := rfl
@[simp] theorem State.setWatch_fab (s : State) (p l : Nat) (w : Watch) : (s.setWatch p l w).fab = s.fab := rfl
@[simp] theorem State.setWatch_coll (s : State) (p l : Nat) (w : Watch) : (s.setWatch p l w).coll = s.coll := rfl
@[simp] theorem State.setWatch_swarm (s : State) (p l : Nat) (w : Watch) : (s.setWatch p l w).swarm = s.swarm := rfl
@[simp] theorem State.setWatch_place (s : State) (p l : Nat) (w : Watch) : (s.setWatch p l w).place = s.place := rfl
@[simp] theorem State.setWatch_power (s : State) (p l : Nat) (w : Watch) : (s.setWatch p l w).power = s.power := rfl
@[simp] theorem State.setWatch_epochs (s : State) (p l : Nat) (w : Watch) : (s.setWatch p l w).epochs = s.epochs := rfl
@[simp] theorem State.setWatch_pins (s : State) (p l : Nat) (w : Watch) : (s.setWatch p l w).pins = s.pins := rfl
@[simp] theorem State.setWatch_resets (s : State) (p l : Nat) (w : Watch) : (s.setWatch p l w).resets = s.resets := rfl
@[simp] theorem State.setWatch_boot (s : State) (p l : Nat) (w : Watch) : (s.setWatch p l w).boot = s.boot := rfl
@[simp] theorem State.setWatch_mgmt (s : State) (p l : Nat) (w : Watch) : (s.setWatch p l w).mgmt = s.mgmt := rfl
@[simp] theorem State.setWatch_dbg (s : State) (p l : Nat) (w : Watch) : (s.setWatch p l w).dbg = s.dbg := rfl
@[simp] theorem State.setWatch_nextId (s : State) (p l : Nat) (w : Watch) : (s.setWatch p l w).nextId = s.nextId := rfl
@[simp] theorem State.setWatch_freeCtr (s : State) (p l : Nat) (w : Watch) : (s.setWatch p l w).freeCtr = s.freeCtr := rfl
@[simp] theorem State.setWatch_pending (s : State) (p l : Nat) (w : Watch) : (s.setWatch p l w).pending = s.pending := rfl

/-! ### pokeMem -/

@[simp] theorem State.pokeMem_cells (s : State) (a : Nat) (bs : List Byte) : (s.pokeMem a bs).cells = s.cells := rfl
@[simp] theorem State.pokeMem_remap (s : State) (a : Nat) (bs : List Byte) : (s.pokeMem a bs).remap = s.remap := rfl
@[simp] theorem State.pokeMem_phys (s : State) (a : Nat) (bs : List Byte) : (s.pokeMem a bs).phys = s.phys := rfl
@[simp] theorem State.pokeMem_switches (s : State) (a : Nat) (bs : List Byte) : (s.pokeMem a bs).switches = s.switches := rfl
@[simp] theorem State.pokeMem_saveMoves (s : State) (a : Nat) (bs : List Byte) : (s.pokeMem a bs).saveMoves = s.saveMoves := rfl
@[simp] theorem State.pokeMem_ext (s : State) (a : Nat) (bs : List Byte) : (s.pokeMem a bs).ext = s.ext := rfl
@[simp] theorem State.pokeMem_sync (s : State) (a : Nat) (bs : List Byte) : (s.pokeMem a bs).sync = s.sync := rfl
@[simp] theorem State.pokeMem_sigs (s : State) (a : Nat) (bs : List Byte) : (s.pokeMem a bs).sigs = s.sigs := rfl
@[simp] theorem State.pokeMem_waits (s : State) (a : Nat) (bs : List Byte) : (s.pokeMem a bs).waits = s.waits := rfl
@[simp] theorem State.pokeMem_cmds (s : State) (a : Nat) (bs : List Byte) : (s.pokeMem a bs).cmds = s.cmds := rfl
@[simp] theorem State.pokeMem_drips (s : State) (a : Nat) (bs : List Byte) : (s.pokeMem a bs).drips = s.drips := rfl
@[simp] theorem State.pokeMem_rings (s : State) (a : Nat) (bs : List Byte) : (s.pokeMem a bs).rings = s.rings := rfl
@[simp] theorem State.pokeMem_reps (s : State) (a : Nat) (bs : List Byte) : (s.pokeMem a bs).reps = s.reps := rfl
@[simp] theorem State.pokeMem_watches (s : State) (a : Nat) (bs : List Byte) : (s.pokeMem a bs).watches = s.watches := rfl
@[simp] theorem State.pokeMem_commits (s : State) (a : Nat) (bs : List Byte) : (s.pokeMem a bs).commits = s.commits := rfl
@[simp] theorem State.pokeMem_bar (s : State) (a : Nat) (bs : List Byte) : (s.pokeMem a bs).bar = s.bar := rfl
@[simp] theorem State.pokeMem_stg (s : State) (a : Nat) (bs : List Byte) : (s.pokeMem a bs).stg = s.stg := rfl
@[simp] theorem State.pokeMem_wrote (s : State) (a : Nat) (bs : List Byte) : (s.pokeMem a bs).wrote = s.wrote := rfl
@[simp] theorem State.pokeMem_frgs (s : State) (a : Nat) (bs : List Byte) : (s.pokeMem a bs).frgs = s.frgs := rfl
@[simp] theorem State.pokeMem_fdescs (s : State) (a : Nat) (bs : List Byte) : (s.pokeMem a bs).fdescs = s.fdescs := rfl
@[simp] theorem State.pokeMem_devs (s : State) (a : Nat) (bs : List Byte) : (s.pokeMem a bs).devs = s.devs := rfl
@[simp] theorem State.pokeMem_reserve (s : State) (a : Nat) (bs : List Byte) : (s.pokeMem a bs).reserve = s.reserve := rfl
@[simp] theorem State.pokeMem_far (s : State) (a : Nat) (bs : List Byte) : (s.pokeMem a bs).far = s.far := rfl
@[simp] theorem State.pokeMem_farTag (s : State) (a : Nat) (bs : List Byte) : (s.pokeMem a bs).farTag = s.farTag := rfl
@[simp] theorem State.pokeMem_farTurn (s : State) (a : Nat) (bs : List Byte) : (s.pokeMem a bs).farTurn = s.farTurn := rfl
@[simp] theorem State.pokeMem_gather (s : State) (a : Nat) (bs : List Byte) : (s.pokeMem a bs).gather = s.gather := rfl
@[simp] theorem State.pokeMem_drains (s : State) (a : Nat) (bs : List Byte) : (s.pokeMem a bs).drains = s.drains := rfl
@[simp] theorem State.pokeMem_link (s : State) (a : Nat) (bs : List Byte) : (s.pokeMem a bs).link = s.link := rfl
@[simp] theorem State.pokeMem_seams (s : State) (a : Nat) (bs : List Byte) : (s.pokeMem a bs).seams = s.seams := rfl
@[simp] theorem State.pokeMem_starve (s : State) (a : Nat) (bs : List Byte) : (s.pokeMem a bs).starve = s.starve := rfl
@[simp] theorem State.pokeMem_flips (s : State) (a : Nat) (bs : List Byte) : (s.pokeMem a bs).flips = s.flips := rfl
@[simp] theorem State.pokeMem_fab (s : State) (a : Nat) (bs : List Byte) : (s.pokeMem a bs).fab = s.fab := rfl
@[simp] theorem State.pokeMem_coll (s : State) (a : Nat) (bs : List Byte) : (s.pokeMem a bs).coll = s.coll := rfl
@[simp] theorem State.pokeMem_swarm (s : State) (a : Nat) (bs : List Byte) : (s.pokeMem a bs).swarm = s.swarm := rfl
@[simp] theorem State.pokeMem_place (s : State) (a : Nat) (bs : List Byte) : (s.pokeMem a bs).place = s.place := rfl
@[simp] theorem State.pokeMem_power (s : State) (a : Nat) (bs : List Byte) : (s.pokeMem a bs).power = s.power := rfl
@[simp] theorem State.pokeMem_epochs (s : State) (a : Nat) (bs : List Byte) : (s.pokeMem a bs).epochs = s.epochs := rfl
@[simp] theorem State.pokeMem_pins (s : State) (a : Nat) (bs : List Byte) : (s.pokeMem a bs).pins = s.pins := rfl
@[simp] theorem State.pokeMem_resets (s : State) (a : Nat) (bs : List Byte) : (s.pokeMem a bs).resets = s.resets := rfl
@[simp] theorem State.pokeMem_boot (s : State) (a : Nat) (bs : List Byte) : (s.pokeMem a bs).boot = s.boot := rfl
@[simp] theorem State.pokeMem_mgmt (s : State) (a : Nat) (bs : List Byte) : (s.pokeMem a bs).mgmt = s.mgmt := rfl
@[simp] theorem State.pokeMem_dbg (s : State) (a : Nat) (bs : List Byte) : (s.pokeMem a bs).dbg = s.dbg := rfl
@[simp] theorem State.pokeMem_nextId (s : State) (a : Nat) (bs : List Byte) : (s.pokeMem a bs).nextId = s.nextId := rfl
@[simp] theorem State.pokeMem_freeCtr (s : State) (a : Nat) (bs : List Byte) : (s.pokeMem a bs).freeCtr = s.freeCtr := rfl
@[simp] theorem State.pokeMem_pending (s : State) (a : Nat) (bs : List Byte) : (s.pokeMem a bs).pending = s.pending := rfl

/-! ### pokeExt -/

@[simp] theorem State.pokeExt_cells (s : State) (a : Nat) (bs : List Byte) : (s.pokeExt a bs).cells = s.cells := rfl
@[simp] theorem State.pokeExt_remap (s : State) (a : Nat) (bs : List Byte) : (s.pokeExt a bs).remap = s.remap := rfl
@[simp] theorem State.pokeExt_phys (s : State) (a : Nat) (bs : List Byte) : (s.pokeExt a bs).phys = s.phys := rfl
@[simp] theorem State.pokeExt_switches (s : State) (a : Nat) (bs : List Byte) : (s.pokeExt a bs).switches = s.switches := rfl
@[simp] theorem State.pokeExt_saveMoves (s : State) (a : Nat) (bs : List Byte) : (s.pokeExt a bs).saveMoves = s.saveMoves := rfl
@[simp] theorem State.pokeExt_mem (s : State) (a : Nat) (bs : List Byte) : (s.pokeExt a bs).mem = s.mem := rfl
@[simp] theorem State.pokeExt_sync (s : State) (a : Nat) (bs : List Byte) : (s.pokeExt a bs).sync = s.sync := rfl
@[simp] theorem State.pokeExt_sigs (s : State) (a : Nat) (bs : List Byte) : (s.pokeExt a bs).sigs = s.sigs := rfl
@[simp] theorem State.pokeExt_waits (s : State) (a : Nat) (bs : List Byte) : (s.pokeExt a bs).waits = s.waits := rfl
@[simp] theorem State.pokeExt_cmds (s : State) (a : Nat) (bs : List Byte) : (s.pokeExt a bs).cmds = s.cmds := rfl
@[simp] theorem State.pokeExt_drips (s : State) (a : Nat) (bs : List Byte) : (s.pokeExt a bs).drips = s.drips := rfl
@[simp] theorem State.pokeExt_rings (s : State) (a : Nat) (bs : List Byte) : (s.pokeExt a bs).rings = s.rings := rfl
@[simp] theorem State.pokeExt_reps (s : State) (a : Nat) (bs : List Byte) : (s.pokeExt a bs).reps = s.reps := rfl
@[simp] theorem State.pokeExt_watches (s : State) (a : Nat) (bs : List Byte) : (s.pokeExt a bs).watches = s.watches := rfl
@[simp] theorem State.pokeExt_commits (s : State) (a : Nat) (bs : List Byte) : (s.pokeExt a bs).commits = s.commits := rfl
@[simp] theorem State.pokeExt_bar (s : State) (a : Nat) (bs : List Byte) : (s.pokeExt a bs).bar = s.bar := rfl
@[simp] theorem State.pokeExt_stg (s : State) (a : Nat) (bs : List Byte) : (s.pokeExt a bs).stg = s.stg := rfl
@[simp] theorem State.pokeExt_wrote (s : State) (a : Nat) (bs : List Byte) : (s.pokeExt a bs).wrote = s.wrote := rfl
@[simp] theorem State.pokeExt_frgs (s : State) (a : Nat) (bs : List Byte) : (s.pokeExt a bs).frgs = s.frgs := rfl
@[simp] theorem State.pokeExt_fdescs (s : State) (a : Nat) (bs : List Byte) : (s.pokeExt a bs).fdescs = s.fdescs := rfl
@[simp] theorem State.pokeExt_devs (s : State) (a : Nat) (bs : List Byte) : (s.pokeExt a bs).devs = s.devs := rfl
@[simp] theorem State.pokeExt_reserve (s : State) (a : Nat) (bs : List Byte) : (s.pokeExt a bs).reserve = s.reserve := rfl
@[simp] theorem State.pokeExt_far (s : State) (a : Nat) (bs : List Byte) : (s.pokeExt a bs).far = s.far := rfl
@[simp] theorem State.pokeExt_farTag (s : State) (a : Nat) (bs : List Byte) : (s.pokeExt a bs).farTag = s.farTag := rfl
@[simp] theorem State.pokeExt_farTurn (s : State) (a : Nat) (bs : List Byte) : (s.pokeExt a bs).farTurn = s.farTurn := rfl
@[simp] theorem State.pokeExt_gather (s : State) (a : Nat) (bs : List Byte) : (s.pokeExt a bs).gather = s.gather := rfl
@[simp] theorem State.pokeExt_drains (s : State) (a : Nat) (bs : List Byte) : (s.pokeExt a bs).drains = s.drains := rfl
@[simp] theorem State.pokeExt_link (s : State) (a : Nat) (bs : List Byte) : (s.pokeExt a bs).link = s.link := rfl
@[simp] theorem State.pokeExt_seams (s : State) (a : Nat) (bs : List Byte) : (s.pokeExt a bs).seams = s.seams := rfl
@[simp] theorem State.pokeExt_starve (s : State) (a : Nat) (bs : List Byte) : (s.pokeExt a bs).starve = s.starve := rfl
@[simp] theorem State.pokeExt_flips (s : State) (a : Nat) (bs : List Byte) : (s.pokeExt a bs).flips = s.flips := rfl
@[simp] theorem State.pokeExt_fab (s : State) (a : Nat) (bs : List Byte) : (s.pokeExt a bs).fab = s.fab := rfl
@[simp] theorem State.pokeExt_coll (s : State) (a : Nat) (bs : List Byte) : (s.pokeExt a bs).coll = s.coll := rfl
@[simp] theorem State.pokeExt_swarm (s : State) (a : Nat) (bs : List Byte) : (s.pokeExt a bs).swarm = s.swarm := rfl
@[simp] theorem State.pokeExt_place (s : State) (a : Nat) (bs : List Byte) : (s.pokeExt a bs).place = s.place := rfl
@[simp] theorem State.pokeExt_power (s : State) (a : Nat) (bs : List Byte) : (s.pokeExt a bs).power = s.power := rfl
@[simp] theorem State.pokeExt_epochs (s : State) (a : Nat) (bs : List Byte) : (s.pokeExt a bs).epochs = s.epochs := rfl
@[simp] theorem State.pokeExt_pins (s : State) (a : Nat) (bs : List Byte) : (s.pokeExt a bs).pins = s.pins := rfl
@[simp] theorem State.pokeExt_resets (s : State) (a : Nat) (bs : List Byte) : (s.pokeExt a bs).resets = s.resets := rfl
@[simp] theorem State.pokeExt_boot (s : State) (a : Nat) (bs : List Byte) : (s.pokeExt a bs).boot = s.boot := rfl
@[simp] theorem State.pokeExt_mgmt (s : State) (a : Nat) (bs : List Byte) : (s.pokeExt a bs).mgmt = s.mgmt := rfl
@[simp] theorem State.pokeExt_dbg (s : State) (a : Nat) (bs : List Byte) : (s.pokeExt a bs).dbg = s.dbg := rfl
@[simp] theorem State.pokeExt_nextId (s : State) (a : Nat) (bs : List Byte) : (s.pokeExt a bs).nextId = s.nextId := rfl
@[simp] theorem State.pokeExt_freeCtr (s : State) (a : Nat) (bs : List Byte) : (s.pokeExt a bs).freeCtr = s.freeCtr := rfl
@[simp] theorem State.pokeExt_pending (s : State) (a : Nat) (bs : List Byte) : (s.pokeExt a bs).pending = s.pending := rfl

/-! ### bump -/

@[simp] theorem State.bump_cells (s : State) (n k : Nat) : (s.bump n k).cells = s.cells := rfl
@[simp] theorem State.bump_remap (s : State) (n k : Nat) : (s.bump n k).remap = s.remap := rfl
@[simp] theorem State.bump_phys (s : State) (n k : Nat) : (s.bump n k).phys = s.phys := rfl
@[simp] theorem State.bump_switches (s : State) (n k : Nat) : (s.bump n k).switches = s.switches := rfl
@[simp] theorem State.bump_saveMoves (s : State) (n k : Nat) : (s.bump n k).saveMoves = s.saveMoves := rfl
@[simp] theorem State.bump_mem (s : State) (n k : Nat) : (s.bump n k).mem = s.mem := rfl
@[simp] theorem State.bump_ext (s : State) (n k : Nat) : (s.bump n k).ext = s.ext := rfl
@[simp] theorem State.bump_sync (s : State) (n k : Nat) : (s.bump n k).sync = s.sync := rfl
@[simp] theorem State.bump_sigs (s : State) (n k : Nat) : (s.bump n k).sigs = s.sigs := rfl
@[simp] theorem State.bump_waits (s : State) (n k : Nat) : (s.bump n k).waits = s.waits := rfl
@[simp] theorem State.bump_cmds (s : State) (n k : Nat) : (s.bump n k).cmds = s.cmds := rfl
@[simp] theorem State.bump_drips (s : State) (n k : Nat) : (s.bump n k).drips = s.drips := rfl
@[simp] theorem State.bump_rings (s : State) (n k : Nat) : (s.bump n k).rings = s.rings := rfl
@[simp] theorem State.bump_reps (s : State) (n k : Nat) : (s.bump n k).reps = s.reps := rfl
@[simp] theorem State.bump_watches (s : State) (n k : Nat) : (s.bump n k).watches = s.watches := rfl
@[simp] theorem State.bump_commits (s : State) (n k : Nat) : (s.bump n k).commits = s.commits := rfl
@[simp] theorem State.bump_bar (s : State) (n k : Nat) : (s.bump n k).bar = s.bar := rfl
@[simp] theorem State.bump_stg (s : State) (n k : Nat) : (s.bump n k).stg = s.stg := rfl
@[simp] theorem State.bump_wrote (s : State) (n k : Nat) : (s.bump n k).wrote = s.wrote := rfl
@[simp] theorem State.bump_frgs (s : State) (n k : Nat) : (s.bump n k).frgs = s.frgs := rfl
@[simp] theorem State.bump_fdescs (s : State) (n k : Nat) : (s.bump n k).fdescs = s.fdescs := rfl
@[simp] theorem State.bump_devs (s : State) (n k : Nat) : (s.bump n k).devs = s.devs := rfl
@[simp] theorem State.bump_reserve (s : State) (n k : Nat) : (s.bump n k).reserve = s.reserve := rfl
@[simp] theorem State.bump_far (s : State) (n k : Nat) : (s.bump n k).far = s.far := rfl
@[simp] theorem State.bump_farTag (s : State) (n k : Nat) : (s.bump n k).farTag = s.farTag := rfl
@[simp] theorem State.bump_farTurn (s : State) (n k : Nat) : (s.bump n k).farTurn = s.farTurn := rfl
@[simp] theorem State.bump_gather (s : State) (n k : Nat) : (s.bump n k).gather = s.gather := rfl
@[simp] theorem State.bump_drains (s : State) (n k : Nat) : (s.bump n k).drains = s.drains := rfl
@[simp] theorem State.bump_link (s : State) (n k : Nat) : (s.bump n k).link = s.link := rfl
@[simp] theorem State.bump_seams (s : State) (n k : Nat) : (s.bump n k).seams = s.seams := rfl
@[simp] theorem State.bump_starve (s : State) (n k : Nat) : (s.bump n k).starve = s.starve := rfl
@[simp] theorem State.bump_flips (s : State) (n k : Nat) : (s.bump n k).flips = s.flips := rfl
@[simp] theorem State.bump_fab (s : State) (n k : Nat) : (s.bump n k).fab = s.fab := rfl
@[simp] theorem State.bump_coll (s : State) (n k : Nat) : (s.bump n k).coll = s.coll := rfl
@[simp] theorem State.bump_swarm (s : State) (n k : Nat) : (s.bump n k).swarm = s.swarm := rfl
@[simp] theorem State.bump_place (s : State) (n k : Nat) : (s.bump n k).place = s.place := rfl
@[simp] theorem State.bump_power (s : State) (n k : Nat) : (s.bump n k).power = s.power := rfl
@[simp] theorem State.bump_epochs (s : State) (n k : Nat) : (s.bump n k).epochs = s.epochs := rfl
@[simp] theorem State.bump_pins (s : State) (n k : Nat) : (s.bump n k).pins = s.pins := rfl
@[simp] theorem State.bump_resets (s : State) (n k : Nat) : (s.bump n k).resets = s.resets := rfl
@[simp] theorem State.bump_boot (s : State) (n k : Nat) : (s.bump n k).boot = s.boot := rfl
@[simp] theorem State.bump_mgmt (s : State) (n k : Nat) : (s.bump n k).mgmt = s.mgmt := rfl
@[simp] theorem State.bump_nextId (s : State) (n k : Nat) : (s.bump n k).nextId = s.nextId := rfl
@[simp] theorem State.bump_freeCtr (s : State) (n k : Nat) : (s.bump n k).freeCtr = s.freeCtr := rfl
@[simp] theorem State.bump_pending (s : State) (n k : Nat) : (s.bump n k).pending = s.pending := rfl

/-! ### bumpCell -/

@[simp] theorem State.bumpCell_cells (s : State) (c i k : Nat) : (s.bumpCell c i k).cells = s.cells := rfl
@[simp] theorem State.bumpCell_remap (s : State) (c i k : Nat) : (s.bumpCell c i k).remap = s.remap := rfl
@[simp] theorem State.bumpCell_switches (s : State) (c i k : Nat) : (s.bumpCell c i k).switches = s.switches := rfl
@[simp] theorem State.bumpCell_saveMoves (s : State) (c i k : Nat) : (s.bumpCell c i k).saveMoves = s.saveMoves := rfl
@[simp] theorem State.bumpCell_mem (s : State) (c i k : Nat) : (s.bumpCell c i k).mem = s.mem := rfl
@[simp] theorem State.bumpCell_ext (s : State) (c i k : Nat) : (s.bumpCell c i k).ext = s.ext := rfl
@[simp] theorem State.bumpCell_sync (s : State) (c i k : Nat) : (s.bumpCell c i k).sync = s.sync := rfl
@[simp] theorem State.bumpCell_sigs (s : State) (c i k : Nat) : (s.bumpCell c i k).sigs = s.sigs := rfl
@[simp] theorem State.bumpCell_waits (s : State) (c i k : Nat) : (s.bumpCell c i k).waits = s.waits := rfl
@[simp] theorem State.bumpCell_cmds (s : State) (c i k : Nat) : (s.bumpCell c i k).cmds = s.cmds := rfl
@[simp] theorem State.bumpCell_drips (s : State) (c i k : Nat) : (s.bumpCell c i k).drips = s.drips := rfl
@[simp] theorem State.bumpCell_rings (s : State) (c i k : Nat) : (s.bumpCell c i k).rings = s.rings := rfl
@[simp] theorem State.bumpCell_reps (s : State) (c i k : Nat) : (s.bumpCell c i k).reps = s.reps := rfl
@[simp] theorem State.bumpCell_watches (s : State) (c i k : Nat) : (s.bumpCell c i k).watches = s.watches := rfl
@[simp] theorem State.bumpCell_commits (s : State) (c i k : Nat) : (s.bumpCell c i k).commits = s.commits := rfl
@[simp] theorem State.bumpCell_bar (s : State) (c i k : Nat) : (s.bumpCell c i k).bar = s.bar := rfl
@[simp] theorem State.bumpCell_stg (s : State) (c i k : Nat) : (s.bumpCell c i k).stg = s.stg := rfl
@[simp] theorem State.bumpCell_wrote (s : State) (c i k : Nat) : (s.bumpCell c i k).wrote = s.wrote := rfl
@[simp] theorem State.bumpCell_frgs (s : State) (c i k : Nat) : (s.bumpCell c i k).frgs = s.frgs := rfl
@[simp] theorem State.bumpCell_fdescs (s : State) (c i k : Nat) : (s.bumpCell c i k).fdescs = s.fdescs := rfl
@[simp] theorem State.bumpCell_devs (s : State) (c i k : Nat) : (s.bumpCell c i k).devs = s.devs := rfl
@[simp] theorem State.bumpCell_reserve (s : State) (c i k : Nat) : (s.bumpCell c i k).reserve = s.reserve := rfl
@[simp] theorem State.bumpCell_far (s : State) (c i k : Nat) : (s.bumpCell c i k).far = s.far := rfl
@[simp] theorem State.bumpCell_farTag (s : State) (c i k : Nat) : (s.bumpCell c i k).farTag = s.farTag := rfl
@[simp] theorem State.bumpCell_farTurn (s : State) (c i k : Nat) : (s.bumpCell c i k).farTurn = s.farTurn := rfl
@[simp] theorem State.bumpCell_gather (s : State) (c i k : Nat) : (s.bumpCell c i k).gather = s.gather := rfl
@[simp] theorem State.bumpCell_drains (s : State) (c i k : Nat) : (s.bumpCell c i k).drains = s.drains := rfl
@[simp] theorem State.bumpCell_link (s : State) (c i k : Nat) : (s.bumpCell c i k).link = s.link := rfl
@[simp] theorem State.bumpCell_seams (s : State) (c i k : Nat) : (s.bumpCell c i k).seams = s.seams := rfl
@[simp] theorem State.bumpCell_starve (s : State) (c i k : Nat) : (s.bumpCell c i k).starve = s.starve := rfl
@[simp] theorem State.bumpCell_flips (s : State) (c i k : Nat) : (s.bumpCell c i k).flips = s.flips := rfl
@[simp] theorem State.bumpCell_fab (s : State) (c i k : Nat) : (s.bumpCell c i k).fab = s.fab := rfl
@[simp] theorem State.bumpCell_coll (s : State) (c i k : Nat) : (s.bumpCell c i k).coll = s.coll := rfl
@[simp] theorem State.bumpCell_swarm (s : State) (c i k : Nat) : (s.bumpCell c i k).swarm = s.swarm := rfl
@[simp] theorem State.bumpCell_place (s : State) (c i k : Nat) : (s.bumpCell c i k).place = s.place := rfl
@[simp] theorem State.bumpCell_power (s : State) (c i k : Nat) : (s.bumpCell c i k).power = s.power := rfl
@[simp] theorem State.bumpCell_epochs (s : State) (c i k : Nat) : (s.bumpCell c i k).epochs = s.epochs := rfl
@[simp] theorem State.bumpCell_pins (s : State) (c i k : Nat) : (s.bumpCell c i k).pins = s.pins := rfl
@[simp] theorem State.bumpCell_resets (s : State) (c i k : Nat) : (s.bumpCell c i k).resets = s.resets := rfl
@[simp] theorem State.bumpCell_boot (s : State) (c i k : Nat) : (s.bumpCell c i k).boot = s.boot := rfl
@[simp] theorem State.bumpCell_mgmt (s : State) (c i k : Nat) : (s.bumpCell c i k).mgmt = s.mgmt := rfl
@[simp] theorem State.bumpCell_dbg (s : State) (c i k : Nat) : (s.bumpCell c i k).dbg = s.dbg := rfl
@[simp] theorem State.bumpCell_nextId (s : State) (c i k : Nat) : (s.bumpCell c i k).nextId = s.nextId := rfl
@[simp] theorem State.bumpCell_freeCtr (s : State) (c i k : Nat) : (s.bumpCell c i k).freeCtr = s.freeCtr := rfl
@[simp] theorem State.bumpCell_pending (s : State) (c i k : Nat) : (s.bumpCell c i k).pending = s.pending := rfl

/-! ### bumpFrg -/

@[simp] theorem State.bumpFrg_cells (s : State) (d i k : Nat) : (s.bumpFrg d i k).cells = s.cells := rfl
@[simp] theorem State.bumpFrg_remap (s : State) (d i k : Nat) : (s.bumpFrg d i k).remap = s.remap := rfl
@[simp] theorem State.bumpFrg_phys (s : State) (d i k : Nat) : (s.bumpFrg d i k).phys = s.phys := rfl
@[simp] theorem State.bumpFrg_switches (s : State) (d i k : Nat) : (s.bumpFrg d i k).switches = s.switches := rfl
@[simp] theorem State.bumpFrg_saveMoves (s : State) (d i k : Nat) : (s.bumpFrg d i k).saveMoves = s.saveMoves := rfl
@[simp] theorem State.bumpFrg_mem (s : State) (d i k : Nat) : (s.bumpFrg d i k).mem = s.mem := rfl
@[simp] theorem State.bumpFrg_ext (s : State) (d i k : Nat) : (s.bumpFrg d i k).ext = s.ext := rfl
@[simp] theorem State.bumpFrg_sync (s : State) (d i k : Nat) : (s.bumpFrg d i k).sync = s.sync := rfl
@[simp] theorem State.bumpFrg_sigs (s : State) (d i k : Nat) : (s.bumpFrg d i k).sigs = s.sigs := rfl
@[simp] theorem State.bumpFrg_waits (s : State) (d i k : Nat) : (s.bumpFrg d i k).waits = s.waits := rfl
@[simp] theorem State.bumpFrg_cmds (s : State) (d i k : Nat) : (s.bumpFrg d i k).cmds = s.cmds := rfl
@[simp] theorem State.bumpFrg_drips (s : State) (d i k : Nat) : (s.bumpFrg d i k).drips = s.drips := rfl
@[simp] theorem State.bumpFrg_rings (s : State) (d i k : Nat) : (s.bumpFrg d i k).rings = s.rings := rfl
@[simp] theorem State.bumpFrg_reps (s : State) (d i k : Nat) : (s.bumpFrg d i k).reps = s.reps := rfl
@[simp] theorem State.bumpFrg_watches (s : State) (d i k : Nat) : (s.bumpFrg d i k).watches = s.watches := rfl
@[simp] theorem State.bumpFrg_commits (s : State) (d i k : Nat) : (s.bumpFrg d i k).commits = s.commits := rfl
@[simp] theorem State.bumpFrg_bar (s : State) (d i k : Nat) : (s.bumpFrg d i k).bar = s.bar := rfl
@[simp] theorem State.bumpFrg_stg (s : State) (d i k : Nat) : (s.bumpFrg d i k).stg = s.stg := rfl
@[simp] theorem State.bumpFrg_wrote (s : State) (d i k : Nat) : (s.bumpFrg d i k).wrote = s.wrote := rfl
@[simp] theorem State.bumpFrg_fdescs (s : State) (d i k : Nat) : (s.bumpFrg d i k).fdescs = s.fdescs := rfl
@[simp] theorem State.bumpFrg_devs (s : State) (d i k : Nat) : (s.bumpFrg d i k).devs = s.devs := rfl
@[simp] theorem State.bumpFrg_reserve (s : State) (d i k : Nat) : (s.bumpFrg d i k).reserve = s.reserve := rfl
@[simp] theorem State.bumpFrg_far (s : State) (d i k : Nat) : (s.bumpFrg d i k).far = s.far := rfl
@[simp] theorem State.bumpFrg_farTag (s : State) (d i k : Nat) : (s.bumpFrg d i k).farTag = s.farTag := rfl
@[simp] theorem State.bumpFrg_farTurn (s : State) (d i k : Nat) : (s.bumpFrg d i k).farTurn = s.farTurn := rfl
@[simp] theorem State.bumpFrg_gather (s : State) (d i k : Nat) : (s.bumpFrg d i k).gather = s.gather := rfl
@[simp] theorem State.bumpFrg_drains (s : State) (d i k : Nat) : (s.bumpFrg d i k).drains = s.drains := rfl
@[simp] theorem State.bumpFrg_link (s : State) (d i k : Nat) : (s.bumpFrg d i k).link = s.link := rfl
@[simp] theorem State.bumpFrg_seams (s : State) (d i k : Nat) : (s.bumpFrg d i k).seams = s.seams := rfl
@[simp] theorem State.bumpFrg_starve (s : State) (d i k : Nat) : (s.bumpFrg d i k).starve = s.starve := rfl
@[simp] theorem State.bumpFrg_flips (s : State) (d i k : Nat) : (s.bumpFrg d i k).flips = s.flips := rfl
@[simp] theorem State.bumpFrg_fab (s : State) (d i k : Nat) : (s.bumpFrg d i k).fab = s.fab := rfl
@[simp] theorem State.bumpFrg_coll (s : State) (d i k : Nat) : (s.bumpFrg d i k).coll = s.coll := rfl
@[simp] theorem State.bumpFrg_swarm (s : State) (d i k : Nat) : (s.bumpFrg d i k).swarm = s.swarm := rfl
@[simp] theorem State.bumpFrg_place (s : State) (d i k : Nat) : (s.bumpFrg d i k).place = s.place := rfl
@[simp] theorem State.bumpFrg_power (s : State) (d i k : Nat) : (s.bumpFrg d i k).power = s.power := rfl
@[simp] theorem State.bumpFrg_epochs (s : State) (d i k : Nat) : (s.bumpFrg d i k).epochs = s.epochs := rfl
@[simp] theorem State.bumpFrg_pins (s : State) (d i k : Nat) : (s.bumpFrg d i k).pins = s.pins := rfl
@[simp] theorem State.bumpFrg_resets (s : State) (d i k : Nat) : (s.bumpFrg d i k).resets = s.resets := rfl
@[simp] theorem State.bumpFrg_boot (s : State) (d i k : Nat) : (s.bumpFrg d i k).boot = s.boot := rfl
@[simp] theorem State.bumpFrg_mgmt (s : State) (d i k : Nat) : (s.bumpFrg d i k).mgmt = s.mgmt := rfl
@[simp] theorem State.bumpFrg_dbg (s : State) (d i k : Nat) : (s.bumpFrg d i k).dbg = s.dbg := rfl
@[simp] theorem State.bumpFrg_nextId (s : State) (d i k : Nat) : (s.bumpFrg d i k).nextId = s.nextId := rfl
@[simp] theorem State.bumpFrg_freeCtr (s : State) (d i k : Nat) : (s.bumpFrg d i k).freeCtr = s.freeCtr := rfl
@[simp] theorem State.bumpFrg_pending (s : State) (d i k : Nat) : (s.bumpFrg d i k).pending = s.pending := rfl

/-! ### bumpPart -/

@[simp] theorem State.bumpPart_cells (s : State) (p code k : Nat) : (s.bumpPart p code k).cells = s.cells := rfl
@[simp] theorem State.bumpPart_remap (s : State) (p code k : Nat) : (s.bumpPart p code k).remap = s.remap := rfl
@[simp] theorem State.bumpPart_phys (s : State) (p code k : Nat) : (s.bumpPart p code k).phys = s.phys := rfl
@[simp] theorem State.bumpPart_switches (s : State) (p code k : Nat) : (s.bumpPart p code k).switches = s.switches := rfl
@[simp] theorem State.bumpPart_saveMoves (s : State) (p code k : Nat) : (s.bumpPart p code k).saveMoves = s.saveMoves := rfl
@[simp] theorem State.bumpPart_mem (s : State) (p code k : Nat) : (s.bumpPart p code k).mem = s.mem := rfl
@[simp] theorem State.bumpPart_ext (s : State) (p code k : Nat) : (s.bumpPart p code k).ext = s.ext := rfl
@[simp] theorem State.bumpPart_sync (s : State) (p code k : Nat) : (s.bumpPart p code k).sync = s.sync := rfl
@[simp] theorem State.bumpPart_sigs (s : State) (p code k : Nat) : (s.bumpPart p code k).sigs = s.sigs := rfl
@[simp] theorem State.bumpPart_waits (s : State) (p code k : Nat) : (s.bumpPart p code k).waits = s.waits := rfl
@[simp] theorem State.bumpPart_cmds (s : State) (p code k : Nat) : (s.bumpPart p code k).cmds = s.cmds := rfl
@[simp] theorem State.bumpPart_drips (s : State) (p code k : Nat) : (s.bumpPart p code k).drips = s.drips := rfl
@[simp] theorem State.bumpPart_rings (s : State) (p code k : Nat) : (s.bumpPart p code k).rings = s.rings := rfl
@[simp] theorem State.bumpPart_reps (s : State) (p code k : Nat) : (s.bumpPart p code k).reps = s.reps := rfl
@[simp] theorem State.bumpPart_watches (s : State) (p code k : Nat) : (s.bumpPart p code k).watches = s.watches := rfl
@[simp] theorem State.bumpPart_commits (s : State) (p code k : Nat) : (s.bumpPart p code k).commits = s.commits := rfl
@[simp] theorem State.bumpPart_bar (s : State) (p code k : Nat) : (s.bumpPart p code k).bar = s.bar := rfl
@[simp] theorem State.bumpPart_stg (s : State) (p code k : Nat) : (s.bumpPart p code k).stg = s.stg := rfl
@[simp] theorem State.bumpPart_wrote (s : State) (p code k : Nat) : (s.bumpPart p code k).wrote = s.wrote := rfl
@[simp] theorem State.bumpPart_frgs (s : State) (p code k : Nat) : (s.bumpPart p code k).frgs = s.frgs := rfl
@[simp] theorem State.bumpPart_fdescs (s : State) (p code k : Nat) : (s.bumpPart p code k).fdescs = s.fdescs := rfl
@[simp] theorem State.bumpPart_devs (s : State) (p code k : Nat) : (s.bumpPart p code k).devs = s.devs := rfl
@[simp] theorem State.bumpPart_reserve (s : State) (p code k : Nat) : (s.bumpPart p code k).reserve = s.reserve := rfl
@[simp] theorem State.bumpPart_far (s : State) (p code k : Nat) : (s.bumpPart p code k).far = s.far := rfl
@[simp] theorem State.bumpPart_farTag (s : State) (p code k : Nat) : (s.bumpPart p code k).farTag = s.farTag := rfl
@[simp] theorem State.bumpPart_farTurn (s : State) (p code k : Nat) : (s.bumpPart p code k).farTurn = s.farTurn := rfl
@[simp] theorem State.bumpPart_gather (s : State) (p code k : Nat) : (s.bumpPart p code k).gather = s.gather := rfl
@[simp] theorem State.bumpPart_drains (s : State) (p code k : Nat) : (s.bumpPart p code k).drains = s.drains := rfl
@[simp] theorem State.bumpPart_link (s : State) (p code k : Nat) : (s.bumpPart p code k).link = s.link := rfl
@[simp] theorem State.bumpPart_seams (s : State) (p code k : Nat) : (s.bumpPart p code k).seams = s.seams := rfl
@[simp] theorem State.bumpPart_starve (s : State) (p code k : Nat) : (s.bumpPart p code k).starve = s.starve := rfl
@[simp] theorem State.bumpPart_flips (s : State) (p code k : Nat) : (s.bumpPart p code k).flips = s.flips := rfl
@[simp] theorem State.bumpPart_fab (s : State) (p code k : Nat) : (s.bumpPart p code k).fab = s.fab := rfl
@[simp] theorem State.bumpPart_coll (s : State) (p code k : Nat) : (s.bumpPart p code k).coll = s.coll := rfl
@[simp] theorem State.bumpPart_swarm (s : State) (p code k : Nat) : (s.bumpPart p code k).swarm = s.swarm := rfl
@[simp] theorem State.bumpPart_place (s : State) (p code k : Nat) : (s.bumpPart p code k).place = s.place := rfl
@[simp] theorem State.bumpPart_power (s : State) (p code k : Nat) : (s.bumpPart p code k).power = s.power := rfl
@[simp] theorem State.bumpPart_epochs (s : State) (p code k : Nat) : (s.bumpPart p code k).epochs = s.epochs := rfl
@[simp] theorem State.bumpPart_pins (s : State) (p code k : Nat) : (s.bumpPart p code k).pins = s.pins := rfl
@[simp] theorem State.bumpPart_resets (s : State) (p code k : Nat) : (s.bumpPart p code k).resets = s.resets := rfl
@[simp] theorem State.bumpPart_boot (s : State) (p code k : Nat) : (s.bumpPart p code k).boot = s.boot := rfl
@[simp] theorem State.bumpPart_mgmt (s : State) (p code k : Nat) : (s.bumpPart p code k).mgmt = s.mgmt := rfl
@[simp] theorem State.bumpPart_nextId (s : State) (p code k : Nat) : (s.bumpPart p code k).nextId = s.nextId := rfl
@[simp] theorem State.bumpPart_freeCtr (s : State) (p code k : Nat) : (s.bumpPart p code k).freeCtr = s.freeCtr := rfl
@[simp] theorem State.bumpPart_pending (s : State) (p code k : Nat) : (s.bumpPart p code k).pending = s.pending := rfl

/-! ### bumpComb -/

@[simp] theorem State.bumpComb_cells (s : State) (c code k : Nat) : (s.bumpComb c code k).cells = s.cells := rfl
@[simp] theorem State.bumpComb_remap (s : State) (c code k : Nat) : (s.bumpComb c code k).remap = s.remap := rfl
@[simp] theorem State.bumpComb_phys (s : State) (c code k : Nat) : (s.bumpComb c code k).phys = s.phys := rfl
@[simp] theorem State.bumpComb_switches (s : State) (c code k : Nat) : (s.bumpComb c code k).switches = s.switches := rfl
@[simp] theorem State.bumpComb_saveMoves (s : State) (c code k : Nat) : (s.bumpComb c code k).saveMoves = s.saveMoves := rfl
@[simp] theorem State.bumpComb_mem (s : State) (c code k : Nat) : (s.bumpComb c code k).mem = s.mem := rfl
@[simp] theorem State.bumpComb_ext (s : State) (c code k : Nat) : (s.bumpComb c code k).ext = s.ext := rfl
@[simp] theorem State.bumpComb_sync (s : State) (c code k : Nat) : (s.bumpComb c code k).sync = s.sync := rfl
@[simp] theorem State.bumpComb_sigs (s : State) (c code k : Nat) : (s.bumpComb c code k).sigs = s.sigs := rfl
@[simp] theorem State.bumpComb_waits (s : State) (c code k : Nat) : (s.bumpComb c code k).waits = s.waits := rfl
@[simp] theorem State.bumpComb_cmds (s : State) (c code k : Nat) : (s.bumpComb c code k).cmds = s.cmds := rfl
@[simp] theorem State.bumpComb_drips (s : State) (c code k : Nat) : (s.bumpComb c code k).drips = s.drips := rfl
@[simp] theorem State.bumpComb_rings (s : State) (c code k : Nat) : (s.bumpComb c code k).rings = s.rings := rfl
@[simp] theorem State.bumpComb_reps (s : State) (c code k : Nat) : (s.bumpComb c code k).reps = s.reps := rfl
@[simp] theorem State.bumpComb_watches (s : State) (c code k : Nat) : (s.bumpComb c code k).watches = s.watches := rfl
@[simp] theorem State.bumpComb_commits (s : State) (c code k : Nat) : (s.bumpComb c code k).commits = s.commits := rfl
@[simp] theorem State.bumpComb_bar (s : State) (c code k : Nat) : (s.bumpComb c code k).bar = s.bar := rfl
@[simp] theorem State.bumpComb_stg (s : State) (c code k : Nat) : (s.bumpComb c code k).stg = s.stg := rfl
@[simp] theorem State.bumpComb_wrote (s : State) (c code k : Nat) : (s.bumpComb c code k).wrote = s.wrote := rfl
@[simp] theorem State.bumpComb_frgs (s : State) (c code k : Nat) : (s.bumpComb c code k).frgs = s.frgs := rfl
@[simp] theorem State.bumpComb_fdescs (s : State) (c code k : Nat) : (s.bumpComb c code k).fdescs = s.fdescs := rfl
@[simp] theorem State.bumpComb_devs (s : State) (c code k : Nat) : (s.bumpComb c code k).devs = s.devs := rfl
@[simp] theorem State.bumpComb_reserve (s : State) (c code k : Nat) : (s.bumpComb c code k).reserve = s.reserve := rfl
@[simp] theorem State.bumpComb_far (s : State) (c code k : Nat) : (s.bumpComb c code k).far = s.far := rfl
@[simp] theorem State.bumpComb_farTag (s : State) (c code k : Nat) : (s.bumpComb c code k).farTag = s.farTag := rfl
@[simp] theorem State.bumpComb_farTurn (s : State) (c code k : Nat) : (s.bumpComb c code k).farTurn = s.farTurn := rfl
@[simp] theorem State.bumpComb_gather (s : State) (c code k : Nat) : (s.bumpComb c code k).gather = s.gather := rfl
@[simp] theorem State.bumpComb_drains (s : State) (c code k : Nat) : (s.bumpComb c code k).drains = s.drains := rfl
@[simp] theorem State.bumpComb_link (s : State) (c code k : Nat) : (s.bumpComb c code k).link = s.link := rfl
@[simp] theorem State.bumpComb_seams (s : State) (c code k : Nat) : (s.bumpComb c code k).seams = s.seams := rfl
@[simp] theorem State.bumpComb_starve (s : State) (c code k : Nat) : (s.bumpComb c code k).starve = s.starve := rfl
@[simp] theorem State.bumpComb_flips (s : State) (c code k : Nat) : (s.bumpComb c code k).flips = s.flips := rfl
@[simp] theorem State.bumpComb_fab (s : State) (c code k : Nat) : (s.bumpComb c code k).fab = s.fab := rfl
@[simp] theorem State.bumpComb_coll (s : State) (c code k : Nat) : (s.bumpComb c code k).coll = s.coll := rfl
@[simp] theorem State.bumpComb_swarm (s : State) (c code k : Nat) : (s.bumpComb c code k).swarm = s.swarm := rfl
@[simp] theorem State.bumpComb_place (s : State) (c code k : Nat) : (s.bumpComb c code k).place = s.place := rfl
@[simp] theorem State.bumpComb_power (s : State) (c code k : Nat) : (s.bumpComb c code k).power = s.power := rfl
@[simp] theorem State.bumpComb_epochs (s : State) (c code k : Nat) : (s.bumpComb c code k).epochs = s.epochs := rfl
@[simp] theorem State.bumpComb_pins (s : State) (c code k : Nat) : (s.bumpComb c code k).pins = s.pins := rfl
@[simp] theorem State.bumpComb_resets (s : State) (c code k : Nat) : (s.bumpComb c code k).resets = s.resets := rfl
@[simp] theorem State.bumpComb_boot (s : State) (c code k : Nat) : (s.bumpComb c code k).boot = s.boot := rfl
@[simp] theorem State.bumpComb_mgmt (s : State) (c code k : Nat) : (s.bumpComb c code k).mgmt = s.mgmt := rfl
@[simp] theorem State.bumpComb_nextId (s : State) (c code k : Nat) : (s.bumpComb c code k).nextId = s.nextId := rfl
@[simp] theorem State.bumpComb_freeCtr (s : State) (c code k : Nat) : (s.bumpComb c code k).freeCtr = s.freeCtr := rfl
@[simp] theorem State.bumpComb_pending (s : State) (c code k : Nat) : (s.bumpComb c code k).pending = s.pending := rfl

/-! ### mEvent -/

@[simp] theorem State.mEvent_cells (s : State) (code detail : Nat) : (s.mEvent code detail).cells = s.cells := rfl
@[simp] theorem State.mEvent_remap (s : State) (code detail : Nat) : (s.mEvent code detail).remap = s.remap := rfl
@[simp] theorem State.mEvent_phys (s : State) (code detail : Nat) : (s.mEvent code detail).phys = s.phys := rfl
@[simp] theorem State.mEvent_switches (s : State) (code detail : Nat) : (s.mEvent code detail).switches = s.switches := rfl
@[simp] theorem State.mEvent_saveMoves (s : State) (code detail : Nat) : (s.mEvent code detail).saveMoves = s.saveMoves := rfl
@[simp] theorem State.mEvent_mem (s : State) (code detail : Nat) : (s.mEvent code detail).mem = s.mem := rfl
@[simp] theorem State.mEvent_ext (s : State) (code detail : Nat) : (s.mEvent code detail).ext = s.ext := rfl
@[simp] theorem State.mEvent_sync (s : State) (code detail : Nat) : (s.mEvent code detail).sync = s.sync := rfl
@[simp] theorem State.mEvent_sigs (s : State) (code detail : Nat) : (s.mEvent code detail).sigs = s.sigs := rfl
@[simp] theorem State.mEvent_waits (s : State) (code detail : Nat) : (s.mEvent code detail).waits = s.waits := rfl
@[simp] theorem State.mEvent_cmds (s : State) (code detail : Nat) : (s.mEvent code detail).cmds = s.cmds := rfl
@[simp] theorem State.mEvent_drips (s : State) (code detail : Nat) : (s.mEvent code detail).drips = s.drips := rfl
@[simp] theorem State.mEvent_rings (s : State) (code detail : Nat) : (s.mEvent code detail).rings = s.rings := rfl
@[simp] theorem State.mEvent_reps (s : State) (code detail : Nat) : (s.mEvent code detail).reps = s.reps := rfl
@[simp] theorem State.mEvent_watches (s : State) (code detail : Nat) : (s.mEvent code detail).watches = s.watches := rfl
@[simp] theorem State.mEvent_commits (s : State) (code detail : Nat) : (s.mEvent code detail).commits = s.commits := rfl
@[simp] theorem State.mEvent_bar (s : State) (code detail : Nat) : (s.mEvent code detail).bar = s.bar := rfl
@[simp] theorem State.mEvent_stg (s : State) (code detail : Nat) : (s.mEvent code detail).stg = s.stg := rfl
@[simp] theorem State.mEvent_wrote (s : State) (code detail : Nat) : (s.mEvent code detail).wrote = s.wrote := rfl
@[simp] theorem State.mEvent_frgs (s : State) (code detail : Nat) : (s.mEvent code detail).frgs = s.frgs := rfl
@[simp] theorem State.mEvent_fdescs (s : State) (code detail : Nat) : (s.mEvent code detail).fdescs = s.fdescs := rfl
@[simp] theorem State.mEvent_devs (s : State) (code detail : Nat) : (s.mEvent code detail).devs = s.devs := rfl
@[simp] theorem State.mEvent_reserve (s : State) (code detail : Nat) : (s.mEvent code detail).reserve = s.reserve := rfl
@[simp] theorem State.mEvent_far (s : State) (code detail : Nat) : (s.mEvent code detail).far = s.far := rfl
@[simp] theorem State.mEvent_farTag (s : State) (code detail : Nat) : (s.mEvent code detail).farTag = s.farTag := rfl
@[simp] theorem State.mEvent_farTurn (s : State) (code detail : Nat) : (s.mEvent code detail).farTurn = s.farTurn := rfl
@[simp] theorem State.mEvent_gather (s : State) (code detail : Nat) : (s.mEvent code detail).gather = s.gather := rfl
@[simp] theorem State.mEvent_drains (s : State) (code detail : Nat) : (s.mEvent code detail).drains = s.drains := rfl
@[simp] theorem State.mEvent_link (s : State) (code detail : Nat) : (s.mEvent code detail).link = s.link := rfl
@[simp] theorem State.mEvent_seams (s : State) (code detail : Nat) : (s.mEvent code detail).seams = s.seams := rfl
@[simp] theorem State.mEvent_starve (s : State) (code detail : Nat) : (s.mEvent code detail).starve = s.starve := rfl
@[simp] theorem State.mEvent_flips (s : State) (code detail : Nat) : (s.mEvent code detail).flips = s.flips := rfl
@[simp] theorem State.mEvent_fab (s : State) (code detail : Nat) : (s.mEvent code detail).fab = s.fab := rfl
@[simp] theorem State.mEvent_coll (s : State) (code detail : Nat) : (s.mEvent code detail).coll = s.coll := rfl
@[simp] theorem State.mEvent_swarm (s : State) (code detail : Nat) : (s.mEvent code detail).swarm = s.swarm := rfl
@[simp] theorem State.mEvent_place (s : State) (code detail : Nat) : (s.mEvent code detail).place = s.place := rfl
@[simp] theorem State.mEvent_power (s : State) (code detail : Nat) : (s.mEvent code detail).power = s.power := rfl
@[simp] theorem State.mEvent_epochs (s : State) (code detail : Nat) : (s.mEvent code detail).epochs = s.epochs := rfl
@[simp] theorem State.mEvent_pins (s : State) (code detail : Nat) : (s.mEvent code detail).pins = s.pins := rfl
@[simp] theorem State.mEvent_resets (s : State) (code detail : Nat) : (s.mEvent code detail).resets = s.resets := rfl
@[simp] theorem State.mEvent_boot (s : State) (code detail : Nat) : (s.mEvent code detail).boot = s.boot := rfl
@[simp] theorem State.mEvent_dbg (s : State) (code detail : Nat) : (s.mEvent code detail).dbg = s.dbg := rfl
@[simp] theorem State.mEvent_nextId (s : State) (code detail : Nat) : (s.mEvent code detail).nextId = s.nextId := rfl
@[simp] theorem State.mEvent_freeCtr (s : State) (code detail : Nat) : (s.mEvent code detail).freeCtr = s.freeCtr := rfl
@[simp] theorem State.mEvent_pending (s : State) (code detail : Nat) : (s.mEvent code detail).pending = s.pending := rfl

/-! ### putBar -/

@[simp] theorem State.putBar_cells (s : State) (key w : Nat) : (s.putBar key w).cells = s.cells := rfl
@[simp] theorem State.putBar_remap (s : State) (key w : Nat) : (s.putBar key w).remap = s.remap := rfl
@[simp] theorem State.putBar_phys (s : State) (key w : Nat) : (s.putBar key w).phys = s.phys := rfl
@[simp] theorem State.putBar_switches (s : State) (key w : Nat) : (s.putBar key w).switches = s.switches := rfl
@[simp] theorem State.putBar_saveMoves (s : State) (key w : Nat) : (s.putBar key w).saveMoves = s.saveMoves := rfl
@[simp] theorem State.putBar_mem (s : State) (key w : Nat) : (s.putBar key w).mem = s.mem := rfl
@[simp] theorem State.putBar_ext (s : State) (key w : Nat) : (s.putBar key w).ext = s.ext := rfl
@[simp] theorem State.putBar_sync (s : State) (key w : Nat) : (s.putBar key w).sync = s.sync := rfl
@[simp] theorem State.putBar_sigs (s : State) (key w : Nat) : (s.putBar key w).sigs = s.sigs := rfl
@[simp] theorem State.putBar_waits (s : State) (key w : Nat) : (s.putBar key w).waits = s.waits := rfl
@[simp] theorem State.putBar_cmds (s : State) (key w : Nat) : (s.putBar key w).cmds = s.cmds := rfl
@[simp] theorem State.putBar_drips (s : State) (key w : Nat) : (s.putBar key w).drips = s.drips := rfl
@[simp] theorem State.putBar_rings (s : State) (key w : Nat) : (s.putBar key w).rings = s.rings := rfl
@[simp] theorem State.putBar_reps (s : State) (key w : Nat) : (s.putBar key w).reps = s.reps := rfl
@[simp] theorem State.putBar_watches (s : State) (key w : Nat) : (s.putBar key w).watches = s.watches := rfl
@[simp] theorem State.putBar_commits (s : State) (key w : Nat) : (s.putBar key w).commits = s.commits := rfl
@[simp] theorem State.putBar_stg (s : State) (key w : Nat) : (s.putBar key w).stg = s.stg := rfl
@[simp] theorem State.putBar_wrote (s : State) (key w : Nat) : (s.putBar key w).wrote = s.wrote := rfl
@[simp] theorem State.putBar_frgs (s : State) (key w : Nat) : (s.putBar key w).frgs = s.frgs := rfl
@[simp] theorem State.putBar_fdescs (s : State) (key w : Nat) : (s.putBar key w).fdescs = s.fdescs := rfl
@[simp] theorem State.putBar_devs (s : State) (key w : Nat) : (s.putBar key w).devs = s.devs := rfl
@[simp] theorem State.putBar_reserve (s : State) (key w : Nat) : (s.putBar key w).reserve = s.reserve := rfl
@[simp] theorem State.putBar_far (s : State) (key w : Nat) : (s.putBar key w).far = s.far := rfl
@[simp] theorem State.putBar_farTag (s : State) (key w : Nat) : (s.putBar key w).farTag = s.farTag := rfl
@[simp] theorem State.putBar_farTurn (s : State) (key w : Nat) : (s.putBar key w).farTurn = s.farTurn := rfl
@[simp] theorem State.putBar_gather (s : State) (key w : Nat) : (s.putBar key w).gather = s.gather := rfl
@[simp] theorem State.putBar_drains (s : State) (key w : Nat) : (s.putBar key w).drains = s.drains := rfl
@[simp] theorem State.putBar_link (s : State) (key w : Nat) : (s.putBar key w).link = s.link := rfl
@[simp] theorem State.putBar_seams (s : State) (key w : Nat) : (s.putBar key w).seams = s.seams := rfl
@[simp] theorem State.putBar_starve (s : State) (key w : Nat) : (s.putBar key w).starve = s.starve := rfl
@[simp] theorem State.putBar_flips (s : State) (key w : Nat) : (s.putBar key w).flips = s.flips := rfl
@[simp] theorem State.putBar_fab (s : State) (key w : Nat) : (s.putBar key w).fab = s.fab := rfl
@[simp] theorem State.putBar_coll (s : State) (key w : Nat) : (s.putBar key w).coll = s.coll := rfl
@[simp] theorem State.putBar_swarm (s : State) (key w : Nat) : (s.putBar key w).swarm = s.swarm := rfl
@[simp] theorem State.putBar_place (s : State) (key w : Nat) : (s.putBar key w).place = s.place := rfl
@[simp] theorem State.putBar_power (s : State) (key w : Nat) : (s.putBar key w).power = s.power := rfl
@[simp] theorem State.putBar_epochs (s : State) (key w : Nat) : (s.putBar key w).epochs = s.epochs := rfl
@[simp] theorem State.putBar_pins (s : State) (key w : Nat) : (s.putBar key w).pins = s.pins := rfl
@[simp] theorem State.putBar_resets (s : State) (key w : Nat) : (s.putBar key w).resets = s.resets := rfl
@[simp] theorem State.putBar_boot (s : State) (key w : Nat) : (s.putBar key w).boot = s.boot := rfl
@[simp] theorem State.putBar_mgmt (s : State) (key w : Nat) : (s.putBar key w).mgmt = s.mgmt := rfl
@[simp] theorem State.putBar_dbg (s : State) (key w : Nat) : (s.putBar key w).dbg = s.dbg := rfl
@[simp] theorem State.putBar_nextId (s : State) (key w : Nat) : (s.putBar key w).nextId = s.nextId := rfl
@[simp] theorem State.putBar_freeCtr (s : State) (key w : Nat) : (s.putBar key w).freeCtr = s.freeCtr := rfl
@[simp] theorem State.putBar_pending (s : State) (key w : Nat) : (s.putBar key w).pending = s.pending := rfl

/-! ### setBar -/

@[simp] theorem State.setBar_cells (s : State) (key w : Nat) : (s.setBar key w).cells = s.cells := rfl
@[simp] theorem State.setBar_remap (s : State) (key w : Nat) : (s.setBar key w).remap = s.remap := rfl
@[simp] theorem State.setBar_phys (s : State) (key w : Nat) : (s.setBar key w).phys = s.phys := rfl
@[simp] theorem State.setBar_switches (s : State) (key w : Nat) : (s.setBar key w).switches = s.switches := rfl
@[simp] theorem State.setBar_saveMoves (s : State) (key w : Nat) : (s.setBar key w).saveMoves = s.saveMoves := rfl
@[simp] theorem State.setBar_mem (s : State) (key w : Nat) : (s.setBar key w).mem = s.mem := rfl
@[simp] theorem State.setBar_ext (s : State) (key w : Nat) : (s.setBar key w).ext = s.ext := rfl
@[simp] theorem State.setBar_sync (s : State) (key w : Nat) : (s.setBar key w).sync = s.sync := rfl
@[simp] theorem State.setBar_sigs (s : State) (key w : Nat) : (s.setBar key w).sigs = s.sigs := rfl
@[simp] theorem State.setBar_waits (s : State) (key w : Nat) : (s.setBar key w).waits = s.waits := rfl
@[simp] theorem State.setBar_cmds (s : State) (key w : Nat) : (s.setBar key w).cmds = s.cmds := rfl
@[simp] theorem State.setBar_drips (s : State) (key w : Nat) : (s.setBar key w).drips = s.drips := rfl
@[simp] theorem State.setBar_rings (s : State) (key w : Nat) : (s.setBar key w).rings = s.rings := rfl
@[simp] theorem State.setBar_reps (s : State) (key w : Nat) : (s.setBar key w).reps = s.reps := rfl
@[simp] theorem State.setBar_watches (s : State) (key w : Nat) : (s.setBar key w).watches = s.watches := rfl
@[simp] theorem State.setBar_commits (s : State) (key w : Nat) : (s.setBar key w).commits = s.commits := rfl
@[simp] theorem State.setBar_wrote (s : State) (key w : Nat) : (s.setBar key w).wrote = s.wrote := rfl
@[simp] theorem State.setBar_frgs (s : State) (key w : Nat) : (s.setBar key w).frgs = s.frgs := rfl
@[simp] theorem State.setBar_fdescs (s : State) (key w : Nat) : (s.setBar key w).fdescs = s.fdescs := rfl
@[simp] theorem State.setBar_devs (s : State) (key w : Nat) : (s.setBar key w).devs = s.devs := rfl
@[simp] theorem State.setBar_reserve (s : State) (key w : Nat) : (s.setBar key w).reserve = s.reserve := rfl
@[simp] theorem State.setBar_far (s : State) (key w : Nat) : (s.setBar key w).far = s.far := rfl
@[simp] theorem State.setBar_farTag (s : State) (key w : Nat) : (s.setBar key w).farTag = s.farTag := rfl
@[simp] theorem State.setBar_farTurn (s : State) (key w : Nat) : (s.setBar key w).farTurn = s.farTurn := rfl
@[simp] theorem State.setBar_gather (s : State) (key w : Nat) : (s.setBar key w).gather = s.gather := rfl
@[simp] theorem State.setBar_drains (s : State) (key w : Nat) : (s.setBar key w).drains = s.drains := rfl
@[simp] theorem State.setBar_link (s : State) (key w : Nat) : (s.setBar key w).link = s.link := rfl
@[simp] theorem State.setBar_seams (s : State) (key w : Nat) : (s.setBar key w).seams = s.seams := rfl
@[simp] theorem State.setBar_starve (s : State) (key w : Nat) : (s.setBar key w).starve = s.starve := rfl
@[simp] theorem State.setBar_flips (s : State) (key w : Nat) : (s.setBar key w).flips = s.flips := rfl
@[simp] theorem State.setBar_fab (s : State) (key w : Nat) : (s.setBar key w).fab = s.fab := rfl
@[simp] theorem State.setBar_coll (s : State) (key w : Nat) : (s.setBar key w).coll = s.coll := rfl
@[simp] theorem State.setBar_swarm (s : State) (key w : Nat) : (s.setBar key w).swarm = s.swarm := rfl
@[simp] theorem State.setBar_place (s : State) (key w : Nat) : (s.setBar key w).place = s.place := rfl
@[simp] theorem State.setBar_power (s : State) (key w : Nat) : (s.setBar key w).power = s.power := rfl
@[simp] theorem State.setBar_epochs (s : State) (key w : Nat) : (s.setBar key w).epochs = s.epochs := rfl
@[simp] theorem State.setBar_pins (s : State) (key w : Nat) : (s.setBar key w).pins = s.pins := rfl
@[simp] theorem State.setBar_resets (s : State) (key w : Nat) : (s.setBar key w).resets = s.resets := rfl
@[simp] theorem State.setBar_boot (s : State) (key w : Nat) : (s.setBar key w).boot = s.boot := rfl
@[simp] theorem State.setBar_mgmt (s : State) (key w : Nat) : (s.setBar key w).mgmt = s.mgmt := rfl
@[simp] theorem State.setBar_dbg (s : State) (key w : Nat) : (s.setBar key w).dbg = s.dbg := rfl
@[simp] theorem State.setBar_nextId (s : State) (key w : Nat) : (s.setBar key w).nextId = s.nextId := rfl
@[simp] theorem State.setBar_freeCtr (s : State) (key w : Nat) : (s.setBar key w).freeCtr = s.freeCtr := rfl
@[simp] theorem State.setBar_pending (s : State) (key w : Nat) : (s.setBar key w).pending = s.pending := rfl

/-! ### withQueue -/

@[simp] theorem State.withQueue_cells (s : State) (q : List Instr) : (s.withQueue q).cells = s.cells := rfl
@[simp] theorem State.withQueue_remap (s : State) (q : List Instr) : (s.withQueue q).remap = s.remap := rfl
@[simp] theorem State.withQueue_phys (s : State) (q : List Instr) : (s.withQueue q).phys = s.phys := rfl
@[simp] theorem State.withQueue_switches (s : State) (q : List Instr) : (s.withQueue q).switches = s.switches := rfl
@[simp] theorem State.withQueue_saveMoves (s : State) (q : List Instr) : (s.withQueue q).saveMoves = s.saveMoves := rfl
@[simp] theorem State.withQueue_mem (s : State) (q : List Instr) : (s.withQueue q).mem = s.mem := rfl
@[simp] theorem State.withQueue_ext (s : State) (q : List Instr) : (s.withQueue q).ext = s.ext := rfl
@[simp] theorem State.withQueue_sync (s : State) (q : List Instr) : (s.withQueue q).sync = s.sync := rfl
@[simp] theorem State.withQueue_sigs (s : State) (q : List Instr) : (s.withQueue q).sigs = s.sigs := rfl
@[simp] theorem State.withQueue_waits (s : State) (q : List Instr) : (s.withQueue q).waits = s.waits := rfl
@[simp] theorem State.withQueue_cmds (s : State) (q : List Instr) : (s.withQueue q).cmds = s.cmds := rfl
@[simp] theorem State.withQueue_drips (s : State) (q : List Instr) : (s.withQueue q).drips = s.drips := rfl
@[simp] theorem State.withQueue_rings (s : State) (q : List Instr) : (s.withQueue q).rings = s.rings := rfl
@[simp] theorem State.withQueue_reps (s : State) (q : List Instr) : (s.withQueue q).reps = s.reps := rfl
@[simp] theorem State.withQueue_watches (s : State) (q : List Instr) : (s.withQueue q).watches = s.watches := rfl
@[simp] theorem State.withQueue_commits (s : State) (q : List Instr) : (s.withQueue q).commits = s.commits := rfl
@[simp] theorem State.withQueue_bar (s : State) (q : List Instr) : (s.withQueue q).bar = s.bar := rfl
@[simp] theorem State.withQueue_stg (s : State) (q : List Instr) : (s.withQueue q).stg = s.stg := rfl
@[simp] theorem State.withQueue_wrote (s : State) (q : List Instr) : (s.withQueue q).wrote = s.wrote := rfl
@[simp] theorem State.withQueue_frgs (s : State) (q : List Instr) : (s.withQueue q).frgs = s.frgs := rfl
@[simp] theorem State.withQueue_fdescs (s : State) (q : List Instr) : (s.withQueue q).fdescs = s.fdescs := rfl
@[simp] theorem State.withQueue_devs (s : State) (q : List Instr) : (s.withQueue q).devs = s.devs := rfl
@[simp] theorem State.withQueue_reserve (s : State) (q : List Instr) : (s.withQueue q).reserve = s.reserve := rfl
@[simp] theorem State.withQueue_far (s : State) (q : List Instr) : (s.withQueue q).far = s.far := rfl
@[simp] theorem State.withQueue_farTag (s : State) (q : List Instr) : (s.withQueue q).farTag = s.farTag := rfl
@[simp] theorem State.withQueue_farTurn (s : State) (q : List Instr) : (s.withQueue q).farTurn = s.farTurn := rfl
@[simp] theorem State.withQueue_gather (s : State) (q : List Instr) : (s.withQueue q).gather = s.gather := rfl
@[simp] theorem State.withQueue_drains (s : State) (q : List Instr) : (s.withQueue q).drains = s.drains := rfl
@[simp] theorem State.withQueue_link (s : State) (q : List Instr) : (s.withQueue q).link = s.link := rfl
@[simp] theorem State.withQueue_seams (s : State) (q : List Instr) : (s.withQueue q).seams = s.seams := rfl
@[simp] theorem State.withQueue_starve (s : State) (q : List Instr) : (s.withQueue q).starve = s.starve := rfl
@[simp] theorem State.withQueue_flips (s : State) (q : List Instr) : (s.withQueue q).flips = s.flips := rfl
@[simp] theorem State.withQueue_fab (s : State) (q : List Instr) : (s.withQueue q).fab = s.fab := rfl
@[simp] theorem State.withQueue_coll (s : State) (q : List Instr) : (s.withQueue q).coll = s.coll := rfl
@[simp] theorem State.withQueue_swarm (s : State) (q : List Instr) : (s.withQueue q).swarm = s.swarm := rfl
@[simp] theorem State.withQueue_place (s : State) (q : List Instr) : (s.withQueue q).place = s.place := rfl
@[simp] theorem State.withQueue_power (s : State) (q : List Instr) : (s.withQueue q).power = s.power := rfl
@[simp] theorem State.withQueue_epochs (s : State) (q : List Instr) : (s.withQueue q).epochs = s.epochs := rfl
@[simp] theorem State.withQueue_pins (s : State) (q : List Instr) : (s.withQueue q).pins = s.pins := rfl
@[simp] theorem State.withQueue_resets (s : State) (q : List Instr) : (s.withQueue q).resets = s.resets := rfl
@[simp] theorem State.withQueue_boot (s : State) (q : List Instr) : (s.withQueue q).boot = s.boot := rfl
@[simp] theorem State.withQueue_mgmt (s : State) (q : List Instr) : (s.withQueue q).mgmt = s.mgmt := rfl
@[simp] theorem State.withQueue_dbg (s : State) (q : List Instr) : (s.withQueue q).dbg = s.dbg := rfl
@[simp] theorem State.withQueue_nextId (s : State) (q : List Instr) : (s.withQueue q).nextId = s.nextId := rfl
@[simp] theorem State.withQueue_freeCtr (s : State) (q : List Instr) : (s.withQueue q).freeCtr = s.freeCtr := rfl

/-! ### reply -/

@[simp] theorem State.reply_cells (s : State) (cc : Nat) (body : List Byte) : (s.reply cc body).cells = s.cells := rfl
@[simp] theorem State.reply_remap (s : State) (cc : Nat) (body : List Byte) : (s.reply cc body).remap = s.remap := rfl
@[simp] theorem State.reply_phys (s : State) (cc : Nat) (body : List Byte) : (s.reply cc body).phys = s.phys := rfl
@[simp] theorem State.reply_switches (s : State) (cc : Nat) (body : List Byte) : (s.reply cc body).switches = s.switches := rfl
@[simp] theorem State.reply_saveMoves (s : State) (cc : Nat) (body : List Byte) : (s.reply cc body).saveMoves = s.saveMoves := rfl
@[simp] theorem State.reply_mem (s : State) (cc : Nat) (body : List Byte) : (s.reply cc body).mem = s.mem := rfl
@[simp] theorem State.reply_ext (s : State) (cc : Nat) (body : List Byte) : (s.reply cc body).ext = s.ext := rfl
@[simp] theorem State.reply_sync (s : State) (cc : Nat) (body : List Byte) : (s.reply cc body).sync = s.sync := rfl
@[simp] theorem State.reply_sigs (s : State) (cc : Nat) (body : List Byte) : (s.reply cc body).sigs = s.sigs := rfl
@[simp] theorem State.reply_waits (s : State) (cc : Nat) (body : List Byte) : (s.reply cc body).waits = s.waits := rfl
@[simp] theorem State.reply_cmds (s : State) (cc : Nat) (body : List Byte) : (s.reply cc body).cmds = s.cmds := rfl
@[simp] theorem State.reply_drips (s : State) (cc : Nat) (body : List Byte) : (s.reply cc body).drips = s.drips := rfl
@[simp] theorem State.reply_rings (s : State) (cc : Nat) (body : List Byte) : (s.reply cc body).rings = s.rings := rfl
@[simp] theorem State.reply_reps (s : State) (cc : Nat) (body : List Byte) : (s.reply cc body).reps = s.reps := rfl
@[simp] theorem State.reply_watches (s : State) (cc : Nat) (body : List Byte) : (s.reply cc body).watches = s.watches := rfl
@[simp] theorem State.reply_commits (s : State) (cc : Nat) (body : List Byte) : (s.reply cc body).commits = s.commits := rfl
@[simp] theorem State.reply_bar (s : State) (cc : Nat) (body : List Byte) : (s.reply cc body).bar = s.bar := rfl
@[simp] theorem State.reply_stg (s : State) (cc : Nat) (body : List Byte) : (s.reply cc body).stg = s.stg := rfl
@[simp] theorem State.reply_wrote (s : State) (cc : Nat) (body : List Byte) : (s.reply cc body).wrote = s.wrote := rfl
@[simp] theorem State.reply_frgs (s : State) (cc : Nat) (body : List Byte) : (s.reply cc body).frgs = s.frgs := rfl
@[simp] theorem State.reply_fdescs (s : State) (cc : Nat) (body : List Byte) : (s.reply cc body).fdescs = s.fdescs := rfl
@[simp] theorem State.reply_devs (s : State) (cc : Nat) (body : List Byte) : (s.reply cc body).devs = s.devs := rfl
@[simp] theorem State.reply_reserve (s : State) (cc : Nat) (body : List Byte) : (s.reply cc body).reserve = s.reserve := rfl
@[simp] theorem State.reply_far (s : State) (cc : Nat) (body : List Byte) : (s.reply cc body).far = s.far := rfl
@[simp] theorem State.reply_farTag (s : State) (cc : Nat) (body : List Byte) : (s.reply cc body).farTag = s.farTag := rfl
@[simp] theorem State.reply_farTurn (s : State) (cc : Nat) (body : List Byte) : (s.reply cc body).farTurn = s.farTurn := rfl
@[simp] theorem State.reply_gather (s : State) (cc : Nat) (body : List Byte) : (s.reply cc body).gather = s.gather := rfl
@[simp] theorem State.reply_drains (s : State) (cc : Nat) (body : List Byte) : (s.reply cc body).drains = s.drains := rfl
@[simp] theorem State.reply_link (s : State) (cc : Nat) (body : List Byte) : (s.reply cc body).link = s.link := rfl
@[simp] theorem State.reply_seams (s : State) (cc : Nat) (body : List Byte) : (s.reply cc body).seams = s.seams := rfl
@[simp] theorem State.reply_starve (s : State) (cc : Nat) (body : List Byte) : (s.reply cc body).starve = s.starve := rfl
@[simp] theorem State.reply_flips (s : State) (cc : Nat) (body : List Byte) : (s.reply cc body).flips = s.flips := rfl
@[simp] theorem State.reply_fab (s : State) (cc : Nat) (body : List Byte) : (s.reply cc body).fab = s.fab := rfl
@[simp] theorem State.reply_coll (s : State) (cc : Nat) (body : List Byte) : (s.reply cc body).coll = s.coll := rfl
@[simp] theorem State.reply_swarm (s : State) (cc : Nat) (body : List Byte) : (s.reply cc body).swarm = s.swarm := rfl
@[simp] theorem State.reply_place (s : State) (cc : Nat) (body : List Byte) : (s.reply cc body).place = s.place := rfl
@[simp] theorem State.reply_power (s : State) (cc : Nat) (body : List Byte) : (s.reply cc body).power = s.power := rfl
@[simp] theorem State.reply_epochs (s : State) (cc : Nat) (body : List Byte) : (s.reply cc body).epochs = s.epochs := rfl
@[simp] theorem State.reply_pins (s : State) (cc : Nat) (body : List Byte) : (s.reply cc body).pins = s.pins := rfl
@[simp] theorem State.reply_resets (s : State) (cc : Nat) (body : List Byte) : (s.reply cc body).resets = s.resets := rfl
@[simp] theorem State.reply_boot (s : State) (cc : Nat) (body : List Byte) : (s.reply cc body).boot = s.boot := rfl
@[simp] theorem State.reply_dbg (s : State) (cc : Nat) (body : List Byte) : (s.reply cc body).dbg = s.dbg := rfl
@[simp] theorem State.reply_nextId (s : State) (cc : Nat) (body : List Byte) : (s.reply cc body).nextId = s.nextId := rfl
@[simp] theorem State.reply_freeCtr (s : State) (cc : Nat) (body : List Byte) : (s.reply cc body).freeCtr = s.freeCtr := rfl
@[simp] theorem State.reply_pending (s : State) (cc : Nat) (body : List Byte) : (s.reply cc body).pending = s.pending := rfl

/-! ### Reading what was put -/

@[simp] theorem State.withQueue_pending (s : State) (q : List Instr) : (s.withQueue q).pending = q := rfl

@[simp] theorem State.reply_resp (s : State) (cc : Nat) (body : List Byte) : (s.reply cc body).mgmt.resp = some (cc, body) := rfl

@[simp] theorem State.pokeMem_mem (s : State) (a : Nat) (bs : List Byte) :
    (s.pokeMem a bs).mem = putBytes memDefault s.mem a bs := rfl

@[simp] theorem State.pokeExt_ext (s : State) (a : Nat) (bs : List Byte) :
    (s.pokeExt a bs).ext = putBytes Config.extByte s.ext a bs := rfl

/-- A free value is taken, and the state changes in its counter only. -/
theorem State.fresh_snd (s : State) : s.fresh.2 = { s with freeCtr := s.freeCtr + 1 } := rfl

end Sys2Proof.Machine
end

