-- ==== Sys2Proof/Laws/Issue.lean ====
section
/-!
SUPPORT. Cells and issue: reading a cell back, what a fence that ends leaves, and everything that issuing an instruction can do.
-/

namespace Sys2Proof.Machine

/-! ### Reading a cell after writing one -/

@[simp] theorem State.cell_setCell_self (s : State) (n : Nat) (c : Cell) : (s.setCell n c).cell n = c :=
  Tab.get_set_self _ s.cells n c

theorem State.cell_setCell_other (s : State) (n m : Nat) (c : Cell) (h : m ≠ n) : (s.setCell n c).cell m = s.cell m :=
  Tab.get_set_other _ s.cells n m c h

theorem State.cell_congr {s t : State} (h : t.cells = s.cells) (n : Nat) : t.cell n = s.cell n := by
  simp [State.cell, h]

/-! ### A fence that has done its work (R128) -/

theorem State.endFence_cases (s : State) (n : Nat) (memory : Bool) :
    s.endFence n memory = s ∨ s.endFence n memory = s.setCell n { s.cell n with fence := .none } := by
  unfold State.endFence
  dsimp only
  split
  · exact .inr rfl
  · exact .inl rfl

@[simp] theorem State.endFence_arch (s : State) (n : Nat) (memory : Bool) :
    ((s.endFence n memory).cell n).arch = (s.cell n).arch := by
  rcases s.endFence_cases n memory with h | h <;> simp [h]

@[simp] theorem State.endFence_ident (s : State) (n : Nat) (memory : Bool) :
    ((s.endFence n memory).cell n).ident = (s.cell n).ident := by
  rcases s.endFence_cases n memory with h | h <;> simp [h]

@[simp] theorem State.endFence_imageLen (s : State) (n : Nat) (memory : Bool) :
    ((s.endFence n memory).cell n).imageLen = (s.cell n).imageLen := by
  rcases s.endFence_cases n memory with h | h <;> simp [h]

@[simp] theorem State.endFence_run (s : State) (n : Nat) (memory : Bool) :
    ((s.endFence n memory).cell n).run = (s.cell n).run := by
  rcases s.endFence_cases n memory with h | h <;> simp [h]

theorem State.endFence_cell_other (s : State) (n m : Nat) (memory : Bool) (h : m ≠ n) :
    (s.endFence n memory).cell m = s.cell m := by
  rcases s.endFence_cases n memory with e | e
  · rw [e]
  · rw [e, State.cell_setCell_other s n m _ h]

/-- A fence that ends changes the cells and nothing else. -/
theorem State.endFence_only_cells (s : State) (n : Nat) (memory : Bool) :
    s.endFence n memory = { s with cells := (s.endFence n memory).cells } := by
  rcases s.endFence_cases n memory with h | h <;> rw [h] <;> rfl

/-! ### Everything that issuing an instruction can do -/

/-- The ways in which issuing an instruction answers a next state: a fault at the image end, at the word or in the
instruction, a predicate that is false, or the instruction's effect. -/
theorem issue_next {n : Nat} {g : Guard} {legal memory : Bool} {s t : State} {body : State → Eff}
    (h : issue n g legal memory s body = .next t) :
    s.live = true ∧ s.canIssue n = true ∧
      ((∃ k, t = (s.endFence n memory).programFault n k) ∨
        ((s.cell n).arch.guard g = false ∧ t = (s.endFence n memory).advancePc n) ∨
        ((s.cell n).arch.guard g = true ∧ legal = true ∧ body (s.endFence n memory) = .done t)) := by
  unfold issue whenLive at h
  split at h
  · refine ⟨‹_›, ?_⟩
    split at h
    · cases h
    · rename_i hc
      simp only [Bool.or_eq_true, Bool.not_eq_true', not_or, Bool.not_eq_false] at hc
      refine ⟨hc.1, ?_⟩
      dsimp only at h
      split at h
      · exact .inl ⟨2, by simpa using h.symm⟩
      · split at h
        · exact .inl ⟨1, by simpa using h.symm⟩
        · split at h
          · rename_i hg
            exact .inr (.inl ⟨by simpa using hg, by simpa using h.symm⟩)
          · rename_i hl hg
            split at h
            · rename_i e
              refine .inr (.inr ⟨by simpa using hg, by simpa using hl, ?_⟩)
              rw [e]; simpa using h
            · rename_i k e
              exact .inl ⟨k, by simpa using h.symm⟩
  · cases h

/-- Where a cell issues and executes a legal word, the outcome is the instruction's effect or its fault. -/
theorem issue_executes {n : Nat} {g : Guard} {memory : Bool} {s : State} {body : State → Eff} (h : Issues s n g memory) :
    issue n g true memory s body =
      match body (s.endFence n memory) with
      | .done t => .next t
      | .fault k => .next ((s.endFence n memory).programFault n k) := by
  obtain ⟨hl, hc, hf, hp, hg⟩ := h
  have hm : (memory && s.memHeld n) = false := by
    cases memory with
    | false => rfl
    | true => simpa using hf rfl
  unfold issue whenLive
  simp only [hl, hc, hm, if_true, Bool.not_true, Bool.or_false, Bool.false_eq_true, if_false, State.endFence_arch,
    State.endFence_imageLen, Nat.not_le.2 hp, hg]
  all_goals (cases body (s.endFence n memory) <;> rfl)

/-- The same for an instruction that reads and writes only the architected state. -/
theorem issueArch_executes {n : Nat} {g : Guard} {s : State} {f : Arch → ArchEff} (h : Issues s n g false) :
    issueArch n g true s f =
      match f (s.cell n).arch with
      | .ok a => .next (s.withArch n false a.advance)
      | .fault k => .next ((s.endFence n false).programFault n k) := by
  unfold issueArch
  rw [issue_executes h]
  simp only [State.endFence_arch]
  cases f (s.cell n).arch <;> rfl

/-- The ways in which an instruction that reads and writes only the architected state answers a next state. -/
theorem issueArch_next {n : Nat} {g : Guard} {legal : Bool} {s t : State} {f : Arch → ArchEff}
    (h : issueArch n g legal s f = .next t) :
    (∃ k, t = (s.endFence n false).programFault n k) ∨ t = s.withArch n false (s.cell n).arch.advance ∨
      ∃ a, f (s.cell n).arch = .ok a ∧ t = s.withArch n false a.advance := by
  obtain ⟨-, -, hk | ⟨-, ht⟩ | ⟨-, -, hb⟩⟩ := issue_next h
  · exact .inl hk
  · refine .inr (.inl ?_)
    rw [ht]
    simp [State.advancePc, State.withArch]
  · dsimp only at hb
    rw [State.endFence_arch] at hb
    cases e : f (s.cell n).arch with
    | ok a =>
      rw [e] at hb
      refine .inr (.inr ⟨a, rfl, ?_⟩)
      simpa [State.withArch] using hb.symm
    | fault k => rw [e] at hb; cases hb

/-! ### A program fault (R140) -/

theorem State.programFaultAt_run (s : State) (n cause : Nat) (pc : BitVec 14)
    (h : (s.cell n).cmd = none) : ((s.programFaultAt n cause pc).cell n).run = .faulted := by
  simp [State.programFaultAt, State.noteFault, State.peers, State.cell, State.setCell, foldS] at *
  simp [h]

end Sys2Proof.Machine
end

