-- ==== Sys2Proof/Laws/Memory.lean ====
section
/-!
SUPPORT. Memory: every operation that writes bytes keeps the canonical form, reads back what it wrote, and leaves every other
byte alone.
-/

namespace Sys2Proof.Machine

theorem putBytes_wf (d : Nat → Byte) : ∀ (bs : List Byte) (t : Tab Byte) (a : Nat),
    Tab.wf d t = true → Tab.wf d (putBytes d t a bs) = true
  | [], _, _, h => h
  | b :: bs, t, a, h => putBytes_wf d bs _ (a + 1) (Tab.wf_set d t a b h)

/-- A byte outside the bytes written reads as before. -/
theorem putBytes_get_other (d : Nat → Byte) : ∀ (bs : List Byte) (t : Tab Byte) (a k : Nat),
    (k < a ∨ a + bs.length ≤ k) → Tab.get d (putBytes d t a bs) k = Tab.get d t k
  | [], _, _, _, _ => rfl
  | b :: bs, t, a, k, hk => by
    simp only [List.length_cons] at hk
    rw [putBytes, putBytes_get_other d bs _ (a + 1) k (by omega)]
    exact Tab.get_set_other d t a k b (by omega)

/-- A byte written reads as written. -/
theorem putBytes_get_self (d : Nat → Byte) : ∀ (bs : List Byte) (t : Tab Byte) (a i : Nat),
    (hi : i < bs.length) → Tab.get d (putBytes d t a bs) (a + i) = bs[i]
  | b :: bs, t, a, 0, _ => by
    rw [putBytes, putBytes_get_other d bs _ (a + 1) (a + 0) (by omega)]
    exact Tab.get_set_self d t a b
  | b :: bs, t, a, i + 1, hi => by
    have := putBytes_get_self d bs (Tab.set d t a b) (a + 1) i (by simpa using hi)
    rw [putBytes, show a + (i + 1) = a + 1 + i by omega, this]
    rfl

theorem Memory.wf_iff (s : State) :
    Memory.wf s = true ↔ Tab.wf memDefault s.mem = true ∧ Tab.wf Config.extByte s.ext = true := by
  simp [Memory.wf]

/-- States with the same two stores are in canonical form together. -/
theorem Memory.wf_congr {s t : State} (hm : t.mem = s.mem) (he : t.ext = s.ext) (h : Memory.wf s = true) :
    Memory.wf t = true := by
  simp only [Memory.wf, hm, he] at h ⊢
  exact h

theorem Memory.wf_pokeMem (s : State) (a : Nat) (bs : List Byte) (h : Memory.wf s = true) :
    Memory.wf (s.pokeMem a bs) = true := by
  rw [Memory.wf_iff] at h ⊢
  exact ⟨putBytes_wf memDefault bs s.mem a h.1, h.2⟩

theorem Memory.wf_pokeExt (s : State) (a : Nat) (bs : List Byte) (h : Memory.wf s = true) :
    Memory.wf (s.pokeExt a bs) = true := by
  rw [Memory.wf_iff] at h ⊢
  exact ⟨h.1, putBytes_wf Config.extByte bs s.ext a h.2⟩

theorem Memory.wf_zeroRange (s : State) (lo hi : Nat) (h : Memory.wf s = true) : Memory.wf (s.zeroRange lo hi) = true := by
  rw [Memory.wf_iff] at h ⊢
  exact ⟨Tab.wf_filter memDefault _ s.mem h.1, h.2⟩

/-- One byte of the local map outside the bytes written reads as before. -/
theorem State.pokeMem_memByte_other (s : State) (a k : Nat) (bs : List Byte) (hk : k < a ∨ a + bs.length ≤ k) :
    (s.pokeMem a bs).memByte k = s.memByte k :=
  putBytes_get_other memDefault bs s.mem a k hk

theorem State.pokeMem_memByte_self (s : State) (a i : Nat) (bs : List Byte) (hi : i < bs.length) :
    (s.pokeMem a bs).memByte (a + i) = bs[i] :=
  putBytes_get_self memDefault bs s.mem a i hi

end Sys2Proof.Machine
end

