-- ==== Sys2Proof/Laws/Report.lean ====
section
/-!
SUPPORT. What raising a report, an event or a notice may change: each leaves the rest of the state as it was.
-/

namespace Sys2Proof.Machine

theorem Reported.refl (s : State) : Reported s s := rfl

theorem Reported.trans {s t u : State} (h : Reported s t) (k : Reported t u) : Reported s u := Eq.trans k h

/-- A fold of steps each of which only reports only reports. -/
theorem foldS_bare {α : Type} (f : State → α → State) (hf : ∀ s a, (f s a).bare = s.bare) :
    ∀ (l : List α) (s : State), (foldS f s l).bare = s.bare
  | [], _ => rfl
  | a :: l, s => by
    have := foldS_bare f hf l (f s a)
    simpa [foldS] using this.trans (hf s a)

/-- A field that reports leave alone. -/
theorem Reported.field {β : Type} (g : State → β) (hg : ∀ s, g s.bare = g s) {s t : State} (h : Reported s t) : g t = g s := by
  have := congrArg g h
  rwa [hg, hg] at this

@[simp] theorem bare_pokeMem (s : State) (a : Nat) (bs : List Byte) : (s.pokeMem a bs).bare = s.bare := rfl
@[simp] theorem bare_pokeExt (s : State) (a : Nat) (bs : List Byte) : (s.pokeExt a bs).bare = s.bare := rfl
@[simp] theorem bare_pushFar (s : State) (r : FarReq) : (s.pushFar r).bare = s.bare := rfl
@[simp] theorem bare_bump (s : State) (n k : Nat) : (s.bump n k).bare = s.bare := rfl
@[simp] theorem bare_setEpoch (s : State) (p : Nat) (e : Epoch) : (s.setEpoch p e).bare = s.bare := rfl
@[simp] theorem bare_setRep (s : State) (p : Nat) (r : RepRing) : (s.setRep p r).bare = s.bare := rfl
@[simp] theorem bare_originate (s : State) (o : Owner) (e : Nat) (p : Packet) : (s.originate o e p).bare = s.bare := rfl
@[simp] theorem bare_swarmSend (s : State) (m k a : Nat) (d : List Byte) : (s.swarmSend m k a d).bare = s.bare := rfl
@[simp] theorem bare_mEvent (s : State) (c d : Nat) : (s.mEvent c d).bare = s.bare := rfl

@[simp] theorem bare_farWrite (s : State) (o : Owner) (e p off key : Nat) (bs : List Byte) :
    (s.farWrite o e p off key bs).bare = s.bare := by
  unfold State.farWrite
  exact foldS_bare _ (fun _ _ => bare_pushFar _ _) _ _

@[simp] theorem bare_linWrite (s : State) (o : Owner) (p off : Nat) (bs : List Byte) :
    (s.linWrite o p off bs).bare = s.bare := by
  unfold State.linWrite
  split <;> simp

@[simp] theorem bare_ringWrite (s : State) (o : Owner) (p a : Nat) (bs : List Byte) :
    (s.ringWrite o p a bs).bare = s.bare := by
  unfold State.ringWrite
  split
  · split <;> simp
  · simp
  · rfl

@[simp] theorem bare_requestBoundary (s : State) (p : Nat) (u : Bool) : (s.requestBoundary p u).bare = s.bare := by
  unfold State.requestBoundary
  split
  · exact bare_swarmSend ..
  · split
    · rfl
    exact (bare_setEpoch ..).trans (bare_setEpoch ..)

@[simp] theorem bare_appendEffect (s : State) (p k o r f : Nat) (v : Word) :
    (s.appendEffect p k o r f v).bare = s.bare := by
  unfold State.appendEffect
  split
  · dsimp only
    split <;> simp
  · rfl

@[simp] theorem bare_trace (s : State) (ty p src a b c : Nat) : (s.trace ty p src a b c).bare = s.bare := by
  unfold State.trace
  split
  · split <;> rfl
  · rfl

@[simp] theorem bare_writeReport (s : State) (p : Nat) (r : Report) : (s.writeReport p r).bare = s.bare := by
  simp [State.writeReport]

@[simp] theorem bare_report (s : State) (p ty reason subject body : Nat) :
    (s.report p ty reason subject body).bare = s.bare := by
  unfold State.report
  dsimp only
  split
  · simp
  · split <;> simp

@[simp] theorem bare_reportAll (s : State) (ty reason subject body : Nat) :
    (s.reportAll ty reason subject body).bare = s.bare :=
  foldS_bare _ (fun _ _ => by simp) _ _

@[simp] theorem bare_countReport (s : State) (m ty r : Nat) : (s.countReport m ty r).bare = s.bare := rfl

@[simp] theorem bare_relayReport (s : State) (ty body : Nat) : (s.relayReport ty body).bare = s.bare := by
  unfold State.relayReport
  split
  · simp
  · split <;> simp

@[simp] theorem bare_faultNotice (s : State) (p r : Nat) : (s.faultNotice p r).bare = s.bare := by
  unfold State.faultNotice
  split
  · split
    · split <;> rfl
    · simp
  · rfl

@[simp] theorem bare_escalate (s : State) (p r j d : Nat) : (s.escalate p r j d).bare = s.bare := by
  simp [State.escalate]

@[simp] theorem bare_escalateAll (s : State) (r j d : Nat) : (s.escalateAll r j d).bare = s.bare := by
  simp only [State.escalateAll, bare_relayReport]
  exact foldS_bare _ (fun _ _ => by simp) _ _

@[simp] theorem bare_retire (s : State) (p u k n o w : Nat) : (s.retire p u k n o w).bare = s.bare := by
  simp [State.retire]

end Sys2Proof.Machine
end

