-- ==== Sys2Proof/Tests/Slice0.lean ====
section
/-!
SUPPORT. Small tests: commands that are not well formed, words written out from the encoding tables, and for every statement with
hypotheses a concrete state and operands that meet them.
-/

namespace Sys2Proof.Tests

open Sys2Proof Sys2Proof.Machine

set_option Elab.async false

/-! ### Small states -/

/-- The main domain runs, and nothing is set up. -/
def live : State :=
  { State.reset with
    boot := { Boot.reset with standby := true, mainOn := true, pwrEn := true }, power := { Power.reset with running := true } }

/-- An always-true guard. -/
def gT : Guard := ⟨0, false⟩

/-- A guard that never holds. -/
def gF : Guard := ⟨0, true⟩

/-- All fields zero. -/
def z0 : F0 := ⟨gT, 0, 0, 0, 0, 0, 0, 0, 0, 0⟩
/-- All fields zero. -/
def z1 : F1 := ⟨gT, 0, 0, 0, 0, 0⟩
/-- All fields zero. -/
def z2 : F2 := ⟨gT, 0, 0, 0⟩
/-- All fields zero. -/
def z3 : F3 := ⟨gT, 0, 0, 0, 0, 0, 0, 0, 0, 0, 0⟩
/-- All fields zero. -/
def z4 : F4 := ⟨gT, 0, 0, 0, 0, 0⟩
/-- All fields zero. -/
def z5 : F5 := ⟨gT, 0, 0, 0, 0, 0⟩

/-- A cell that issues, with an image of one word. -/
def cell1 : Cell := { Cell.reset with run := .issuing, imageLen := 1 }

/-- Cell 0 issues; its register k holds `v`. -/
def runs (k : Nat) (v : Nat) : State :=
  live.setCell 0 { cell1 with arch := Arch.reset.setS k (BitVec.ofNat 64 v) }

/-- A packet of zeros. -/
def zp : Packet := ⟨0, 0, false, 0, false, 0, 0, 0, 0, 0, 0, 0, 0, 0, 0, 0, 0, 0, []⟩

/-- What `Arrives` says, as it is evaluated. -/
def arrives (s : State) (p : Packet) (type cls : Nat) : Bool :=
  s.live && s.fab.placed && s.awake s.owner && decide (p.age.toNat < 2000) &&
    (p.srcPhys != s.fab.phys || s.fab.waiting.contains (none, p)) && p.type.toNat == type && p.dstPhys == s.fab.phys &&
    p.pcrc == pktCrc p && p.cls.toNat == cls && p.seqd == (cls != 2)

theorem arrives_iff (s : State) (p : Packet) (type cls : Nat) : arrives s p type cls = true ↔ Arrives s p type cls := by
  simp [arrives, Arrives, Genuine, and_assoc]

/-- The state in which a command leaves the module has a property. -/
def after (o : Host.Outcome State Fault Refusal) (p : State → Bool) : Bool :=
  match o with
  | .next t => p t
  | _ => false

theorem next_of_after {o : Host.Outcome State Fault Refusal} {p : State → Bool} (h : after o p = true) :
    ∃ t, o = .next t ∧ p t = true := by
  cases o with
  | next t => exact ⟨t, rfl, h⟩
  | fault r => simp [after] at h
  | refused r => simp [after] at h

/-- A command with the raw descriptor `d`, in ring 0 of partition 0, started. -/
def cmd1 (id d : Nat) : Cmd :=
  { id := id, part := 0, ring := 0, entry := 0, wrap := false, prio := 0, seq := 0, desc := BitVec.ofNat 1024 d, intake := 0,
    phase := .started, status := 0, claimed := 0, pieces := [], performed := false, loaded := false, signalled := false,
    fault := none, hwFail := false, hwLost := false, detail := 0, opp := 0, t0 := 0, snap := [], ends := [], sel := 0, latch := false,
    logged := false, extra := 0, stamp := 0, fetch := none, order := 0 }

/-- A set-up with a far window of 64 GiB from 0, a host window of 16 MiB from 0, save areas at 0, and completion records of ring 0 in
host memory. -/
def setUp : Tab Word :=
  [(0x011008, 1 + 4 + 8 + 0x1000 * 2 ^ 8), (0x014010, 3 * 2 ^ 60 + 0x1000), (0x021000, 64 * 2 ^ 16), (0x021008, 0x2F),
   (0x060300, 2 ^ 16)]

/-- A module in service: its placement accepted, its functions ready, its windows and save areas set up. -/
def wide : State :=
  { live with
    boot := { live.boot with ready := [0, 1, 2, 3] }, fab := { live.fab with placed := true },
    bar := setUp, stg := setUp, link := { live.link with up := true, perst := false, lost := false } }

/-- `wide` with commands. -/
def holding (l : List Cmd) : State := { wide with cmds := l }

/-! ### Commands that are not well formed -/

/-- A packet whose data are too long for a link. -/
def long : Packet := { zp with data := List.replicate 4225 0 }

theorem test_ill_formed_cell_instructions_1 : ([
    .add 512 z0, .sub 512 z0, .mul 512 z0, .mulh 512 z0, .mulhu 512 z0, .div 512 z0, .divu 512 z0, .rem 512 z0, .remu 512 z0,
    .and 512 z0, .or 512 z0, .xor 512 z0, .shl 512 z0, .shr 512 z0, .sra 512 z0, .min 512 z0, .max 512 z0, .cmp 512 z0,
    .plog 512 z0, .csrr 512 z0, .csrw 512 z0, .rdid 512 z0, .addi 512 z1, .li 512 z1, .lui 512 z1, .ld 512 z1, .st 512 z1,
    .cmpi 512 z1, .andi 512 z1, .vadd 512 z0, .vsub 512 z0, .vmul 512 z0, .vfma 512 z0, .vfms 512 z0, .vmin 512 z0,
    .vmax 512 z0, .vun 512 z0, .vand 512 z0, .vor 512 z0, .vxor 512 z0, .vsh 512 z0, .vcmp 512 z0, .vsel 512 z0,
    .vperm 512 z0, .vslide 512 z0, .vcvt 512 z0, .vtr 512 z0, .vbcast 512 z0] : List Instr).all (fun i => !wellFormed i) = true := by decide +kernel

theorem test_ill_formed_cell_instructions_2 : ([
    .vins 512 z0, .vext 512 z0, .vld 512 z1, .vst 512 z1, .mma 512 z3, .accLd 512 z3, .accRd 512 ⟨z3, .none⟩, .tm 512 z4,
    .tmWait 512 z4, .ldt 512 z1, .stt 512 z1, .tset 512 z0, .tadv 512 z0, .eaClr 512 z0, .eaAdd 512 z0 .none,
    .eaAddm 512 z0 .none, .eaRd 512 z0 .none, .eaLdi 512 z1, .eaAddi 512 z1 .none, .eaSti 512 z1 .none, .eaMerge 512 z0 .none,
    .sigAdd 512 z5, .sigSet 512 z5, .waitGe 512 z5, .waitEq 512 z5, .testGe 512 z5, .sread 512 z5, .fenceLocal 512 z5,
    .fenceRemote 512 z5, .coll 512 z5, .forg 512 z5, .br 512 z2, .brl 512 z2, .jr 512 z2, .loop 512 z2, .nop 512 ⟨z2, none⟩,
    .halt 512 z2] : List Instr).all (fun i => !wellFormed i) = true := by decide +kernel

theorem test_ill_formed_units_1 : ([
    .tileMoveComplete 512 0, .tileMoveComplete 0 4, .cellWaitPoll 512, .forgRefusal 512, .cellFailed 576, .guestSwitch 512,
    .guestSwitchComplete ⟨512, none⟩, .saveAreaMoveComplete ⟨4, none⟩, .seamPacketArrival 84 0 none true,
    .seamPacketArrival 0 84 none true, .seamPacketArrival 0 0 (some ⟨.ctl, 84, 0, false, false⟩) true, .droopTrip 137,
    .droopClear 137, .bankStarvation 512 0 ⟨1, [.tile]⟩, .bankStarvation 0 4194304 ⟨1, [.tile]⟩,
    .bankStarvation 0 0 ⟨18, [.tile]⟩, .bankStarvation 0 0 ⟨1, []⟩, .voltageSettled 8,
    .closeMemoryRequest 0 (some [0]) 2 [] none, .closeMemoryRequest 0 none 0 [] none, .closeMemoryRequest 63 none 2 [] none,
    .deviceRetire 32 .interface, .scrub 32 0 [] 0, .scrub 0 94371840 [] 0, .windowDrainComplete true 16,
    .windowDrainComplete false 8, .liningCopy 4 0, .copyBeforeWrite 32 0 0 [0], .copyBeforeWrite 0 0 0 [],
    .copyBeforeWrite 0 0 4096 [0], .cellCopyBeforeWrite 512 0 0 [0], .cellCopyBeforeWrite 0 1024 0 [0],
    .cellCopyBeforeWrite 0 0 0 [], .cellCopyBeforeWrite 0 0 4096 [0], .foragerRetire 32, .backInvalidateComplete ⟨0, some []⟩,
    .hostMemRead 4 ⟨0, false⟩, .hostMemWrite 4 ⟨0, false⟩ [0], .hostMemWrite 0 ⟨0, false⟩ [],
    .hostMemWrite 0 ⟨0, false⟩ (List.replicate 65 0), .registerWrite ⟨4, false⟩ 0 8 0, .reduce ⟨0, .none, 32⟩,
    .scatter ⟨0, .none, 32⟩, .csr ⟨0, .none, 32⟩, .powerSample ⟨0, 0, [], []⟩, .cfgCommit 4, .commitComplete 4,
    .watchedLineInvalidation 4 0] : List Instr).all (fun i => !wellFormed i) = true := by decide +kernel

theorem test_ill_formed_units_2 : ([
    .farLinePoll 4, .doorbellUpdate 4 0 ⟨0, false, none⟩, .doorbellUpdate 0 64 ⟨0, false, none⟩, .reportLineUpdate 4 ⟨0, none⟩,
    .entryIntake 4 0 ⟨0, none⟩, .entryIntake 0 64 ⟨0, none⟩, .dripPointerMismatch 4, .headLineWrite 4 0, .headLineWrite 0 64, .portTrained 18 0 0 0,
    .laneRetire 18 0, .laneRetire 0 9, .linkRetrain 18, .portFailed 18,
    .flitReceive 18 ⟨0, 0, false, 0, 0, 0, 0, 0, List.replicate 240 0, 0, true⟩,
    .flitReceive 0 ⟨0, 0, false, 0, 0, 0, 0, 0, [], 0, true⟩, .replayTimeout 18, .idleFlit 18, .packetRoute (some 18) zp 0,
    .idleDepthEntry 4 0, .wake 4, .wakeComplete 4, .sensorSample [] none none, .sensorRetrust 60, .epochTimer 4,
    .takeBoundary 4, .drainComplete 4, .contextWritten 4, .localCommit 4, .repair 4 ⟨[], none⟩, .restoreComplete ⟨4, none⟩, .replayDone 4,
    .markerDrain 4 none, .markerDrained 4 none, .markerCaptured 4 none, .markerCommitted 4 none, .recoveryStart 4 none,
    .swarmRestored 4 none, .cellReset 512 .hung, .combReset 64 .hung, .partitionReset 4 .hung, .resetComplete 0 512,
    .resetComplete 1 64, .resetComplete 2 4, .resetComplete 3 1, .resetComplete 4 0, .drainLimit 0 512, .drainLimit 4 0] : List Instr).all (fun i => !wellFormed i) = true := by decide +kernel

theorem test_ill_formed_units_3 : ([
    .cellHung 512, .foragerHung 32, .heartbeat .cell 576, .heartbeat .forager 32, .heartbeat .steward 8,
    .heartbeat .sequencer 8, .heartbeat .processor 4, .heartbeat .link 3, .controllerHung .steward 8,
    .controllerHung .sequencer 8, .controllerHung .processor 4, .controllerHung .link 3, .fatalStop 0 (List.replicate 8768 0),
    .fatalStop 4 (List.replicate 8768 0), .fatalStop 1 [], .regulatorPhaseRetire 171, .demandClear 4, .freeze 4,
    .freezeRelease 4] : List Instr).all (fun i => !wellFormed i) = true := by decide +kernel

theorem test_ill_formed_packets_1 : ([
    .packetRoute none long 0, .write long, .read long, .rdata long, .ack long, .refuse long, .sigaddPkt long, .sigsetPkt long,
    .relay long, .mgmt long, .quench long, .quenchRelease long, .waggle ⟨long, .none⟩, .grant long, .coldata ⟨long, .none⟩,
    .swarmHeartbeat long, .tableUpdate long, .admissionRequest long, .admissionResult long, .takeover long, .faultNotice long,
    .collectiveAbort long, .boundaryRequest long, .markerDrain 0 (some long), .markerDrained 0 (some long),
    .markerCaptured 0 (some long), .markerCommitted 0 (some long), .recoveryStart 0 (some long), .swarmRestored 0 (some long)] : List Instr).all (fun i => !wellFormed i) = true := by decide +kernel

/-- The same commands with operands in range are well formed. -/
theorem test_well_formed : ([.add 511 z0, .tileMoveComplete 511 3, .droopTrip 136, .scrub 31 94371839 [] 0,
    .closeMemoryRequest 62 (some [0, 0]) 2 [] none, .hostMemWrite 3 ⟨0, false⟩ (List.replicate 64 0), .write zp, .resetComplete 3 0,
    .fatalStop 3 (List.replicate 8768 0), .cellFailed 575] : List Instr).all wellFormed = true := by decide +kernel

/-! ### Words written out from the formats and the opcode map -/

/-- add s1, s2, s3 under p0: format 0, opcode 0x00. -/
theorem test_word_add :
    decodeCell 7 (0b000#3 ++ 0x00#7 ++ 0#3 ++ 0#1 ++ 1#5 ++ 2#5 ++ 3#5 ++ 0#5 ++ 0#4 ++ 0#3 ++ 0#5 ++ 0#6 ++ 0#12) =
      some (.add 7 ⟨gT, 1, 2, 3, 0, 0, 0, 0, 0, 0⟩) := by decide +kernel

/-- li s5, -1 under not p3: format 1, opcode 0x19. -/
theorem test_word_li :
    decodeCell 0 (0b001#3 ++ 0x19#7 ++ 3#3 ++ 1#1 ++ 5#5 ++ 0#5 ++ 0#4 ++ 0#4 ++ 0xFFFFFFFF#32) =
      some (.li 0 ⟨⟨3, true⟩, 5, 0, 0, 0, 0xFFFFFFFF⟩) := by decide +kernel

/-- vfma v31, v30, v29, v28 on FP32 under the current rounding mode, with s27 for the draw: format 0, opcode 0x23. -/
theorem test_word_vfma :
    decodeCell 5 (0b000#3 ++ 0x23#7 ++ 0#3 ++ 0#1 ++ 31#5 ++ 30#5 ++ 29#5 ++ 28#5 ++ 8#4 ++ 7#3 ++ 27#5 ++ 0#6 ++ 0#12) =
      some (.vfma 5 ⟨gT, 31, 30, 29, 28, 8, 7, 27, 0, 0⟩) := by decide +kernel

/-- ea.merge e1 from e2, and ea.sti e3 at s4 + 16: formats 0 and 1, opcodes 0x5F and 0x5E. -/
theorem test_word_ea :
    decodeCell 5 (0b000#3 ++ 0x5F#7 ++ 0#3 ++ 0#1 ++ 1#5 ++ 2#5 ++ 0#5 ++ 0#5 ++ 0#4 ++ 0#3 ++ 0#5 ++ 0#6 ++ 0#12) =
        some (.eaMerge 5 ⟨gT, 1, 2, 0, 0, 0, 0, 0, 0, 0⟩ .none) ∧
      decodeCell 5 (0b001#3 ++ 0x5E#7 ++ 0#3 ++ 0#1 ++ 3#5 ++ 4#5 ++ 0#4 ++ 0#4 ++ 16#32) =
        some (.eaSti 5 ⟨gT, 3, 4, 0, 0, 16⟩ .none) := by decide +kernel

/-- loop s9 to 16383: format 2, opcode 0x73. -/
theorem test_word_loop :
    decodeCell 1 (0b010#3 ++ 0x73#7 ++ 0#3 ++ 0#1 ++ 9#5 ++ 0x3FFF#14 ++ 0#31) = some (.loop 1 ⟨gT, 9, 0x3FFF, 0⟩) := by
  decide +kernel

/-- mma acc3, t1, t2, s3, s4, s5, cm 2, at FP64: format 3, opcode 0x40. -/
theorem test_word_mma :
    decodeCell 2 (0b011#3 ++ 0x40#7 ++ 0#3 ++ 0#1 ++ 3#2 ++ 1#4 ++ 2#4 ++ 3#5 ++ 4#5 ++ 5#5 ++ 2#2 ++ 0#5 ++ 9#4 ++ 0#14) =
      some (.mma 2 ⟨gT, 3, 1, 2, 3, 4, 5, 2, 0, 9, 0⟩) := by decide +kernel

/-- tm t15 from t14, slot 3, signal s7: format 4, opcode 0x50. -/
theorem test_word_tm :
    decodeCell 3 (0b100#3 ++ 0x50#7 ++ 0#3 ++ 0#1 ++ 15#4 ++ 14#4 ++ 3#2 ++ 7#5 ++ 0#35) =
      some (.tm 3 ⟨gT, 15, 14, 3, 7, 0⟩) := by decide +kernel

/-- test.ge p6, s8, s9 + 1, and coll s1, s2: format 5, opcodes 0x64 and 0x68. -/
theorem test_word_extended :
    decodeCell 4 (0b101#3 ++ 0x64#7 ++ 0#3 ++ 0#1 ++ 8#5 ++ 9#5 ++ 0#5 ++ 6#3 ++ 1#32) =
        some (.testGe 4 ⟨gT, 8, 9, 0, 6, 1⟩) ∧
      decodeCell 4 (0b101#3 ++ 0x68#7 ++ 0#3 ++ 0#1 ++ 1#5 ++ 2#5 ++ 0#5 ++ 0#3 ++ 0#32) =
        some (.coll 4 ⟨gT, 1, 2, 0, 0, 0⟩) := by decide +kernel

/-- Format 6, an opcode not assigned, and an opcode under another format are no instruction. -/
theorem test_word_illegal :
    decodeCell 0 (0b110#3 ++ 0#61) = none ∧ decodeCell 0 (0b000#3 ++ 0x16#7 ++ 0#54) = none ∧
      decodeCell 0 (0b001#3 ++ 0x00#7 ++ 0#54) = none := by decide +kernel

/-- The table gives its rows no bits. -/
theorem test_table_word : decodeTableWord 64 0 = none := rfl

/-! ### Witnesses: the statements about steps and cells -/

theorem witness_EmptyQueueTicks : live.pending = [] := rfl

theorem witness_InstructionWordsRoundTrip :
    encodeCell (.add 511 { z0 with rd := 31 }) ≠ none ∧ decodeCell 0 (0x7F#10 ++ 0#54) = none ∧
      (decodeCell 0 (0b010#3 ++ 0x7F#7 ++ 0#54)).isSome = true := by decide +kernel

theorem witness_ScalarResults :
    Issues (runs 1 3) 0 gT false ∧ plainF0 { z0 with xop := 1 } ∧ plainF0 z0 ∧ z0.xop = 0 := by
  unfold Issues plainF0; decide +kernel

/-- Division by a register that is not 0, and by `s0`. -/
theorem witness_ScalarDivision :
    Issues (runs 1 3) 0 gT false ∧ plainF0 { z0 with rb := 1 } ∧
      ((runs 1 3).cell 0).arch.sreg 1 ≠ 0 ∧ ((runs 1 3).cell 0).arch.sreg 0 = 0 := by
  unfold Issues plainF0; decide +kernel

theorem witness_Predicates :
    Issues (runs 1 3) 0 gT false ∧ plainF0 { z0 with rd := 7, xop := 5 } ∧ plainF0 { z0 with xop := 3, ra := 7, rb := 0 } ∧
      ({ z1 with ty := 5, rd := 7 } : F1).ty.toNat ≤ 5 := by
  unfold Issues plainF0; decide +kernel

theorem witness_Immediates : Issues (runs 1 3) 0 z1.g false ∧ z1.ty = 0 ∧ z1.res = 0 ∧ z1.ra = 0 := by
  unfold Issues; decide +kernel

/-- Values of `rmode` and `amode` at and beyond their limits. -/
theorem witness_SpecialRegisters :
    (∀ v ∈ [2, 3, 4, 5], Issues (runs 1 v) 0 gT false) ∧ plainF0 { z0 with ra := 1 } ∧ plainF0 { z0 with rd := 1, xop := 6 } := by
  unfold Issues plainF0; decide +kernel

/-- Targets at and beyond 2^14, and loop counts 0, 1 and 2. -/
theorem witness_Control :
    (∀ v ∈ [0, 1, 2, 16383, 16384], Issues (runs 1 v) 0 z2.g false) ∧ z2.res = 0 ∧ z2.ra = 0 ∧ z2.target = 0 := by
  unfold Issues; decide +kernel

theorem witness_RegisterInstructionFrame :
    regInstr (.add 0 z0) = some 0 ∧ after (exec (.add 0 z0) (runs 1 3)) (fun t => (t.cell 0).run != .faulted) = true := by
  decide +kernel

theorem witness_VectorIntegers :
    Issues (runs 1 3) 0 z0.g false ∧ z0.ty.toNat ≤ 3 ∧ ({ z0 with ty := 3 } : F0).ty.toNat ≤ 3 ∧
      ({ z0 with ty := 9 } : F0).ty.toNat ≤ 9 ∧ z0.rm = 0 ∧ z0.ri = 0 ∧ z0.res = 0 ∧ z0.rb = 0 ∧ z0.rc = 0 := by
  unfold Issues; decide +kernel

theorem witness_VectorFloats :
    Issues (runs 1 3) 0 z0.g false ∧ elemOf 6 = .fp fp16 ∧ elemOf 7 = .fp bf16 ∧ elemOf 8 = .fp fp32 ∧ elemOf 9 = .fp fp64 ∧
      (4 : BitVec 3) ≠ 5 ∧ (7 : BitVec 3) ≠ 6 := by
  unfold Issues; decide +kernel

theorem witness_RoundingIsExactOnTheFormat :
    fp32.decode 1 = .fin false 1 (-149) ∧ e4m3.decode 0x7E = .fin false 14 5 ∧ 1 < 2 ^ fp32.width := by decide +kernel

theorem witness_VectorConversion :
    Issues (runs 1 3) 0 z0.g false ∧ ({ z0 with xop := 9, ty := 0 } : F0).xop.toNat ≤ 9 ∧
      10 ≤ ({ z0 with ty := 10, xop := 7 } : F0).ty.toNat ∧ 10 ≤ ({ z0 with xop := 15, ty := 8 } : F0).xop.toNat := by
  unfold Issues; decide +kernel

theorem witness_VectorTranscendental :
    Issues (runs 1 3) 0 z0.g false ∧ live.arev = (runs 1 3).arev ∧ ({ z0 with ty := 7, xop := 5 } : F0).xop.toNat ≤ 5 ∧
      bf16.decode 0 = .fin false 0 (1 - Int.ofNat bf16.bias - Int.ofNat bf16.mw) ∧ (fp32.decode 0x7FC00000).isNan = true := by
  unfold Issues; decide +kernel

/-- The pc at the end of an image, with and without a fence that holds memory accesses. -/
theorem witness_ImageEndFaults :
    cellWord (.ld 0 z1) = some (0, gT, true) ∧ cellWord (.nop 0 ⟨z2, none⟩) = some (0, gT, false) ∧
      (let s := live.setCell 0 { cell1 with imageLen := 0 }
       s.live = true ∧ s.canIssue 0 = true ∧ s.memHeld 0 = false ∧ (s.cell 0).imageLen ≤ (s.cell 0).arch.pc.toNat) := by
  decide +kernel

theorem witness_InstructionFaults :
    ((runs 1 3).cell 0).arch.guard gF = false ∧ after (exec (.add 0 { z0 with g := gF }) (runs 1 3)) (fun _ => true) = true ∧
      (runs 1 3).canIssue 0 = true ∧ (runs 1 3).memHeld 0 = false ∧ ({ z0 with rm := 6 } : F0).rm = 6 ∧
      ({ z1 with res := 1 } : F1).res ≠ 0 ∧ decodeCell 0 (0b110#3 ++ 0#61) = none := by
  decide +kernel

/-- Cell 0 faults and another cell of its command still issues. -/
theorem witness_ProgramFaultStopsTheCommand :
    let s := { (live.setCell 0 { cell1 with cmd := some 1 }).setCell 1 { cell1 with cmd := some 1 } with
      cmds := [{ cmd1 1 1 with claimed := 1 }] }
    1 ∈ s.peers 0 ∧ (s.cell 1).run.active = true := by decide +kernel

/-- The last scalar, vector and descriptor slots of the own cell memory. -/
theorem witness_OwnMemoryAccesses :
    (∀ x ∈ [(3, 8, 8), (0, 8, 256), (0, 32, 32)],
      Issues (runs 1 (cellMem 0 + cellBytes - x.2.2)) 0 z1.g true ∧
        Clear (runs 1 (cellMem 0 + cellBytes - x.2.2)) 0 (cellMem 0 + cellBytes - x.2.2) x.2.2 ∧
        OwnAccess 0 x.2.1 (cellMem 0 + cellBytes - x.2.2) x.2.2) ∧
      ((runs 1 0).cell 0).frozen = 0 ∧ ((runs 1 0).cell 0).switchedIn = true := by
  unfold Issues Clear OwnAccess; decide +kernel

/-- A load whose first word has one flipped bit, and one whose first word has two. -/
theorem witness_CellMemoryErrors :
    ∀ x ∈ [1, 3], let s := { runs 1 (cellMem 0) with flips := [((cellMem 0 - cellBase) / 8, x)] }
      Issues s 0 z1.g true ∧ s.flips ≠ [] ∧ s.moveOverlaps 0 (cellMem 0) 256 = false ∧ OwnAccess 0 8 (cellMem 0) 256 ∧
        (s.badWords (cellMem 0) 256 = [] ↔ x = 1) ∧ s.linSafe 0 = false ∧
        s.awaitsRepair 0 (s.badWords (cellMem 0) 256).eraseDups = false := by
  unfold Issues OwnAccess; decide +kernel

theorem witness_CellMemoryErrors_command :
    let s := { (live.setCell 0 { cell1 with cmd := some 1 }) with cmds := [cmd1 1 1] }
    (s.cell 0).cmd = some 1 ∧ (s.cmd 1).isSome = true ∧ (cmd1 1 1).status = 0 ∧ (cmd1 1 1).phase = .started := by decide +kernel

/-- For every kind of access: a misaligned address, one before and one after the cell memory, and one whose last byte lies beyond
its end. -/
theorem witness_OwnMemoryChecks :
    let addr := fun v => (((runs 1 v).cell 0).arch.sreg 1 + (0 : BitVec 32).signExtend 64).toNat
    (∀ v ∈ [cellMem 0 - 32, cellMem 0 + 1, cellMem 0 + cellBytes - 16, cellMem 0 + cellBytes],
      Issues (runs 1 v) 0 z1.g true ∧ ∀ len ∈ [1, 8, 32, 80, 256], Clear (runs 1 v) 0 (addr v) len) ∧
      addr (cellMem 0 + 1) % 2 ≠ 0 ∧ addr (cellMem 0 - 32) < cellMem 0 ∧ addr (cellMem 0 - 32) % 32 = 0 ∧
      cellMem 0 + cellBytes ≤ addr (cellMem 0 + cellBytes) ∧ addr (cellMem 0 + cellBytes) % 32 = 0 ∧
      addr (cellMem 0 + cellBytes - 16) % 16 = 0 ∧ addr (cellMem 0 + cellBytes - 16) < cellMem 0 + cellBytes ∧
      cellMem 0 + cellBytes < addr (cellMem 0 + cellBytes - 16) + 80 := by
  unfold Issues Clear; decide +kernel

/-- Empty accumulators take values of any type, merge, and are read out; an empty image is loaded. -/
theorem witness_ExactAccumulate :
    let s := runs 1 (cellMem 0)
    Issues s 0 gT false ∧ Issues s 0 gT true ∧ (accuOpen (((s.cell 0).arch.ereg 15).toNat)).kind = 0 ∧
      kindsClash (accuOpen (((s.cell 0).arch.ereg 0).toNat)).kind (accuOpen (((s.cell 0).arch.ereg 1).toNat)).kind = false ∧
      (s.cell 0).arch.residuesOk 0 = true ∧ ({ (s.cell 0).arch with res := [(0, 1)] } : Arch).residuesOk 0 = false ∧
      Clear s 0 (cellMem 0) 80 ∧ OwnAccess 0 16 (cellMem 0) 80 ∧ imageMalformed (leNat (s.memBytes (cellMem 0) 80)) = false ∧
      elemOf 9 = .fp fp64 := by
  unfold Issues Clear OwnAccess; decide +kernel

theorem witness_ResidueMismatch :
    after (exec (.eaAdd 0 { z0 with ty := 8 } .none) (runs 1 3)) (fun t => (t.cell 0).run == .issuing) = true ∧
      Issues (runs 1 3) 0 gT false ∧ ((runs 1 3).remapOf 0).phys < 576 ∧
      ((runs 1 3).physOf ((runs 1 3).remapOf 0).phys).retired = false ∧
      ((runs 1 3).servedBy ((runs 1 3).remapOf 0).phys).isSome = true := by
  unfold Issues; decide +kernel

theorem witness_ExactSums : [1, 2, 3].Perm [3, 1, 2] ∧ [1, 2, 3].length < 2 ^ 255 := by decide +kernel

/-- The descriptor of a tile: base, rows, elements of a row, planes, row stride, plane stride, format. -/
def tileBits (base d0 d1 d2 s1 s2 fmt : Nat) : BitVec 256 :=
  BitVec.ofNat 256 (base + d0 * 2 ^ 64 + d1 * 2 ^ 80 + d2 * 2 ^ 96 + s1 * 2 ^ 128 + s2 * 2 ^ 160 + fmt * 2 ^ 192)

/-- Cell 0 issues with t1 and t2 as given. -/
def tiles (x y : BitVec 256) : State := live.setCell 0 { cell1 with arch := (Arch.reset.setT 1 x).setT 2 y }

/-- INT8 tiles that hold one step of a product, at the start of the own cell memory. -/
theorem witness_MatrixMultiply :
    let s := tiles (tileBits (cellMem 0) 128 64 1 128 0 0) (tileBits (cellMem 0 + 0x4000) 128 64 1 128 0 0)
    let ta := tileOf ((s.cell 0).arch.treg 1)
    let tb := tileOf ((s.cell 0).arch.treg 2)
    Issues s 0 gT true ∧ Clear s 0 ta.base (ta.span 1) ∧ Clear s 0 tb.base (tb.span 1) ∧ ta.malformed false = false ∧
      tb.malformed false = false ∧ ta.base % 64 = 0 ∧ ta.s1 % 64 = 0 ∧ tb.base % 64 = 0 ∧ tb.s1 % 64 = 0 ∧
      mmaPair ta.fmt tb.fmt = true ∧ mmaShape ta.fmt = some (64, 64, 128, 2) ∧ ownRange 0 ta.base (ta.span 1) = true ∧
      ownRange 0 tb.base (tb.span 1) = true ∧ ta.d2 ≠ 0 ∧ tb.d2 ≠ 0 ∧ 64 ≤ ta.d1 ∧ 64 ≤ tb.d1 ∧ 128 ≤ ta.d0 ∧ 128 ≤ tb.d0 ∧
      scalesOwn 0 ta 0 64 0 128 = true ∧ scalesOwn 0 tb 0 64 0 128 = true := by
  unfold Issues Clear; decide +kernel

/-- Tiles of INT32, FP32 and FP64 for transfers, and of images for a read-out. -/
theorem witness_AccumulatorTransfers :
    ∀ x ∈ [(2, 2, 256, 64), (8, 8, 256, 64), (9, 9, 512, 32), (8, 16, 5120, 64)],
      let s := tiles (tileBits (cellMem 0) 64 64 1 x.2.2.1 0 x.2.1) 0
      let tl := tileOf ((s.cell 0).arch.treg 1)
      Issues s 0 gT true ∧ Clear s 0 tl.base (tl.span 1) ∧ tl.malformed false = false ∧ cellMem 0 ≤ tl.base ∧
        blockRows x.1 = x.2.2.2 ∧ x.2.2.2 ≤ tl.d1 ∧ 64 ≤ tl.d0 ∧ tl.d2 ≠ 0 ∧ tl.fmt = x.2.1 ∧
        ownRange 0 (tl.rowAddr 0 0) ((x.2.2.2 - 1) * tl.s1 + 64 * tl.width / 8) = true ∧ 64 * tl.width / 8 ≤ tl.s1 ∧
        (x.2.1 ≠ 16 → rdNormal x.1 tl.fmt = true) := by
  unfold Issues Clear; decide +kernel

/-- The images that a read-out adds to. -/
theorem witness_AccumulatorTransfers_images :
    imageMalformed (leNat (live.memBytes (cellMem 0) 80)) = false ∧ (accuOpen (leNat (live.memBytes (cellMem 0) 80))).kind = 0 ∧
      kindsClash 0 1 = false ∧ kindsClash 0 2 = false := by decide +kernel

/-- Tiles of no elements. -/
theorem witness_MatrixEmptyTiles :
    ∀ x ∈ [(0, 2), (8, 8), (16, 8)],
      let s := tiles (tileBits (cellMem 0) 0 0 0 0 0 x.1) (tileBits (cellMem 0) 0 0 0 0 0 x.1)
      let ta := tileOf ((s.cell 0).arch.treg 1)
      Issues s 0 gT true ∧ s.flips = [] ∧ ta.malformed false = false ∧ ta.empty = true ∧
        s.moveOverlaps 0 ta.base (ta.span 1) = false ∧ ta.base % 64 = 0 ∧ ta.s1 % 64 = 0 ∧
        (x.1 = 0 → mmaPair ta.fmt ta.fmt = true ∧ mmaShape ta.fmt = some (64, 64, 128, 2)) ∧
        (x.1 = 8 → rdNormal 8 ta.fmt = true) := by
  unfold Issues; decide +kernel

/-- Values at and beyond the limit of a field of a descriptor. -/
theorem witness_DescriptorFields :
    (∀ v ∈ [16, 17, 65535, 65536], Issues (runs 1 v) 0 gT false) ∧ plainF0 { z0 with ra := 1, rd := 15, xop := 8 } := by
  unfold Issues plainF0; decide +kernel

/-- Two tiles of the own cell memory that do not overlap, and an empty one; the slot free, and taken. -/
theorem witness_TileMoves :
    let x := tileBits (cellMem 0) 8 2 1 64 0 3
    let y := tileBits (cellMem 0 + 4096) 8 2 1 64 0 3
    let s := tiles x y
    let src := tileOf x
    let dst := tileOf y
    let e := tiles 0 0
    let busy := s.setCell 0 { s.cell 0 with slots := [(0, some ⟨x, y, none⟩)] }
    Issues s 0 gT true ∧ Issues s 0 gT false ∧ s.lostIn src.base src.extent = false ∧
      s.goneIn src.base src.extent = false ∧ s.goneIn dst.base dst.extent = false ∧ s.resetHolds dst.base dst.extent = false ∧ Clear s 0 src.base src.extent ∧
      Clear s 0 dst.base dst.extent ∧ (s.cell 0).slot 0 = none ∧ s.tmCheck 0 src dst none = none ∧ src.empty = false ∧
      dst.empty = false ∧ dst.layout = 0 ∧ ownRange 0 src.base src.extent = true ∧ ownRange 0 dst.base dst.extent = true ∧
      src.base + src.extent ≤ dst.base ∧ src.rowBytes ≤ dst.s1 ∧ src.d2 = 1 ∧
      (match s.tileHomes 0 src dst with | .ok _ => true | _ => false) = true ∧
      Issues e 0 gT true ∧ (tileOf 0).empty = true ∧ e.tmCheck 0 (tileOf 0) (tileOf 0) none = none ∧
      Issues busy 0 gT true ∧ Issues busy 0 gT false ∧ busy.lostIn src.base src.extent = false ∧
      Clear busy 0 src.base src.extent ∧ (busy.cell 0).slot 0 ≠ none := by
  unfold Issues Clear; decide +kernel

/-- A move with or without a signal is due to complete, and an instruction waits for its slot. -/
def moving (sg : Option Word) (j : Bool) : State :=
  live.setCell 0 { cell1 with slots := [(3, some ⟨0, 0, sg⟩)], run := .waitSlot 3 j }

theorem witness_TileMoveCompletes :
    (moving none true).live = true ∧ ((moving none true).cell 0).slot 3 = some ⟨0, 0, none⟩ ∧
      (moving none true).outstanding (.slot 0 3) = false ∧ (moving none true).quiet (Engine.key (.cell 0)) = true ∧
      ((moving none true).cell 0).run = .waitSlot 3 true := by decide +kernel

theorem witness_TileMoveCompletes_signal :
    let a := BitVec.ofNat 64 syncBase
    (moving (some a) false).live = true ∧ ((moving (some a) false).cell 0).slot 3 = some ⟨0, 0, some a⟩ ∧
      (moving (some a) false).outstanding (.slot 0 3) = false ∧
      (moving (some a) false).quiet (Engine.key (.cell 0)) = true ∧ ((moving (some a) false).cell 0).run = .waitSlot 3 false ∧
      (moving (some a) false).syncRef ((moving (some a) false).partOfCell 0) syncBase = .loc 0 := by decide +kernel

/-- Waits that hold and that do not, on a table with room and on a full one. -/
def fullWaits : List WaitEntry := List.replicate 1024 ⟨.command 9 0, 1, false, 5, true⟩

theorem witness_SyncInstructions :
    let s := runs 1 syncBase
    let full := { s with waits := fullWaits }
    Issues s 0 gT true ∧ s.syncRef (s.partOfCell 0) syncBase = .loc 0 ∧ s.obj 0 = 0 ∧ s.waitFull 0 = false ∧
      (s.cell 0).portQ = [] ∧ s.ownSignal 0 0 = false ∧ ({ s with sigs := [⟨.cell 0, 0, 0, false, 1, none, 0, none⟩] } : State).ownSignal 0 0 = true ∧
      Issues full 0 gT true ∧ full.ownSignal 0 0 = false ∧ full.syncRef (full.partOfCell 0) syncBase = .loc 0 ∧ full.waitFull 0 = true := by
  unfold Issues; decide +kernel

/-- A port queue with a descriptor in it, and a full one. -/
theorem witness_SyncInstructions_queue :
    let p := PortItem.desc true [] 0
    let s := fun q => live.setCell 0 { cell1 with arch := Arch.reset.setS 1 (BitVec.ofNat 64 syncBase), portQ := q }
    ∀ q ∈ [[p], List.replicate 8 p], Issues (s q) 0 gT true ∧ ((s q).cell 0).portQ ≠ [] ∧
      (s q).syncRef ((s q).partOfCell 0) syncBase = .loc 0 := by
  unfold Issues; decide +kernel

/-- An object of module 1, whose routing entry is valid. -/
theorem witness_RemoteSignals :
    let s := runs 1 (2 ^ 60 + 2 ^ 48 + syncBase + 8)
    let t := { s with fab := { s.fab with routes := [(1, { Route.reset with valid := true })] } }
    Issues t 0 gT true ∧ (t.cell 0).portQ = [] ∧ t.syncRef (t.partOfCell 0) (2 ^ 60 + 2 ^ 48 + syncBase + 8) = .rem 1 1 := by
  unfold Issues; decide +kernel

/-- Addresses before, at the end of and past the sync range, of another partition, and of another module. -/
theorem witness_SyncAddressChecks :
    (∀ v ∈ [syncBase + 4, syncBase - 8, syncBase + 0x80000, 2 ^ 61, 2 ^ 60 + 2 ^ 48 + syncBase],
      Issues (runs 1 v) 0 gT true ∧ ((runs 1 v).cell 0).portQ.length < 8) ∧
      isSync (syncBase - 8) = false ∧ isSync (syncBase + 0x80000) = false ∧ isSync (syncBase + 0x7FFF8) = true ∧
      bits (2 ^ 60 + 2 ^ 48 + syncBase) 48 12 ≠ live.fab.logical.toNat ∧
      (let s := { runs 1 (syncBase + 0x7FFF8) with boot := { live.boot with modeNow := 1 } }
       Issues s 0 gT true ∧ s.partOfSync ((syncBase + 0x7FFF8 - syncBase) / 8) ≠ s.partOfCell 0) := by
  unfold Issues; decide +kernel

theorem witness_Fences :
    Issues (runs 1 0) 0 gT false ∧
      (let s := fun x => { live.setCell 0 { cell1 with fence := x, slots := [(0, some ⟨0, 0, none⟩)] } with
         sigs := [⟨.cell 0, 0, 0, false, 1, none, 0, none⟩] }
       cellWord (.ld 0 z1) = some (0, gT, true) ∧ (s .remote).live = true ∧ ((s .remote).cell 0).fence = .remote ∧
         (s .remote).localPending 0 = true ∧ ((s .localOnly).cell 0).fence = .localOnly ∧ (s .localOnly).localPending 0 = true) := by
  unfold Issues; decide +kernel

theorem witness_SyncObjectUpdates :
    let g : Sig := ⟨.cell 0, 0, 0, false, 1, none, 0, none⟩
    let s := { live.setCell 1 { cell1 with run := .waitObj 0 false 1 false } with
      sigs := [g], waits := [⟨.cell 1, 0, false, 1, true⟩] }
    s.live = true ∧ s.sigs[0]? = some g ∧ s.released g = true ∧ s.hostHolds (objLine 0) = false ∧ s.link.bis = [] ∧
      (s.cell 1).run = .waitObj 0 false 1 false := by decide +kernel

/-- Cell 0 polls object 0 for a value, and a collective waits for it outside the table. -/
def polling (w : List WaitEntry) (v : Word) : State :=
  { live.setCell 0 { cell1 with run := .waitObj 0 false v true } with waits := ⟨.collective 4, 0, false, v, false⟩ :: w }

theorem witness_WaitsTestedAgain :
    (polling [] 1).live = true ∧ ((polling [] 1).cell 0).run = .waitObj 0 false 1 true ∧ (polling [] 1).obj 0 = 0 ∧
      (polling [] 1).waitFull 0 = false ∧ (polling fullWaits 1).waitFull 0 = true ∧ (polling fullWaits 1).obj 0 = 0 ∧
      ((polling [] 0).cell 0).run = .waitObj 0 false 0 true := by decide +kernel

theorem witness_WaitsTestedAgain_unit :
    let e := fun v => (⟨.collective 4, 0, false, v, false⟩ : WaitEntry)
    (e 0).who.isFor 4 = true ∧ ((polling [] 0).waits.filter fun x => !x.held && x.who.isFor 4) = [e 0] ∧
      (e 0).met ((polling [] 0).obj 0) = true ∧ (e 1).met ((polling [] 1).obj 0) = false ∧
      ((polling fullWaits 1).waits.filter fun x => !x.held && x.who.isFor 4).length = 1 := by decide +kernel

/-- Lengths 0, 64, 512 and 513; a misaligned descriptor; a refusal. -/
theorem witness_HandOver :
    (∀ v ∈ [cellMem 0, cellMem 0 + 8], Issues (runs 1 v) 0 gT true ∧ ((runs 1 v).cell 0).portQ.length < 8 ∧
      ∀ len ∈ [64, 512, 513], Clear (runs 1 v) 0 v len) ∧ OwnAccess 0 64 (cellMem 0) 512 ∧ (cellMem 0 + 8) % 64 ≠ 0 ∧
      (let s := live.setCell 0 { cell1 with refusal := some (4, 0) }
       s.live = true ∧ (s.cell 0).refusal = some (4, 0) ∧ (s.cell 0).run ≠ .faulted) := by
  unfold Issues Clear OwnAccess; decide +kernel

/-! ### Witnesses: the package and cells -/

/-- A packet for H with a CTL packet behind it, on the seam from C0 to C1; a crossing whose FIFO of the class is full; and a packet
from a comb of C0 to one of C1. -/
theorem witness_SeamPackets :
    let a : SeamPkt := ⟨.req, 19, 1, false, false⟩
    let b : SeamPkt := ⟨.ctl, 1, 2, false, false⟩
    let c : SeamPkt := ⟨.req, 28, 3, false, false⟩
    let s := live.setSeam 0 1 [a, b]
    let full := live.setSeam 0 1 (List.replicate 8 c)
    let e : SeamPkt := ⟨.req, 17, 4, true, true⟩
    let n : SeamPkt := ⟨.req, 17, 5, true, false⟩
    let shared := live.setSeam 16 17 (List.replicate 7 n)
    s.live = true ∧ s.seam 0 1 = [a] ++ b :: [] ∧ (∀ q ∈ [a], q.cls ≠ .ctl) ∧ b.dst = 1 ∧ a.dst ≠ 1 ∧
      (live.setSeam 0 1 [a]).seam 0 1 = [] ++ a :: [] ∧ a.cls ≠ .ctl ∧ nextRouter 0 28 = 1 ∧ nextRouter 20 28 ≠ 28 ∧
      shared.crosses 16 { e with spine := false } = true ∧ shared.crosses 16 { n with spine := false } = false ∧
      nextRouter 16 17 = 17 ∧
      ((full.seam 0 1).filter fun q => q.cls == c.cls && q.spine == false).length = 8 ∧
      ((s.seam 0 1).filter fun q => q.cls == c.cls && q.spine == false).length < 8 := by decide +kernel

/-- An island in droop whose comb waits to rise, and one that is not; the Balden island on standby power. -/
theorem witness_Droop :
    let s := { live with boot := { live.boot with droop := [3] }, power := { live.power with rise := [(3, 5)], rail := [(0, 5)] } }
    let h := { State.reset with boot := { Boot.reset with standby := true } }
    s.live = true ∧ s.boot.standby = true ∧ s.boot.oscHeld = false ∧ 136 ∉ s.boot.droop ∧ 3 ∈ s.boot.droop ∧
      Tab.get (fun _ => 0) s.power.rise 3 = 5 ∧ Tab.get (fun _ => 0) s.power.rail (3 / 8) = 5 ∧
      h.boot.standby = true ∧ h.live = false ∧ 136 ∉ h.boot.droop := by decide +kernel

/-- A die whose combs ask for level 5 while its rail is at 0, with and without a droop on it. -/
def rising (d : List Nat) : State :=
  { live with boot := { live.boot with droop := d }, power := { live.power with rise := [(56, 5)] } }

theorem witness_VoltageSettles :
    (rising []).live = true ∧ (∀ c, c / 8 = 7 → Tab.get (fun _ => 0) (rising []).power.opp c ≤ 5 ∧
        Tab.get (fun _ => 0) (rising []).power.rise c ≤ 5) ∧
      Tab.get (fun _ => 0) (rising []).power.rise 56 = 5 ∧ 56 / 8 = 7 ∧
      Tab.get (fun _ => 0) (rising []).power.rail 7 ≠ 5 ∧ (∀ i ∈ (rising []).boot.droop, i / 8 ≠ 7) ∧
      (∃ i ∈ (rising [57]).boot.droop, i / 8 = 7) := by
  refine ⟨by decide +kernel, ?_, by decide +kernel⟩
  intro c _
  refine ⟨by simp [rising, live, Power.reset, Tab.get], ?_⟩
  simp only [rising, Tab.get]
  split <;> simp

theorem witness_Supplies :
    State.reset.boot.standby = false ∧ live.boot.standby = true ∧ live.boot.refOk = true := by decide +kernel

theorem witness_NothingWithoutStandby :
    State.reset.boot.standby = false ∧ after (exec (.standbyPresent 5) State.reset) (fun _ => true) = true := by decide +kernel

/-- A fill of a partition, and one of everything. -/
theorem witness_ZeroFill :
    let s := fun l => { live with boot := { live.boot with zeroFill := l } }
    (s [0]).live = true ∧ (s [0]).boot.zeroFill ≠ [] ∧ (s [0]).barB 0x07A008 0 = false ∧ (∀ p ∈ (s [0]).boot.zeroFill, p = 4 ∨ p < (s [0]).parts) ∧
      (∀ p ∈ (s [4]).boot.zeroFill, p = 4 ∨ p < (s [4]).parts) := by decide +kernel

/-- Two requesters of a bank, one of them refused for 16 clocks; and none that starves. -/
theorem witness_BankStarvation :
    let s := { live with starve := [(31, ⟨[0, 0, 0, 16, 0], 1⟩)] }
    live.live = true ∧ (⟨17, [.matrix, .scalar]⟩ : BankWait).users ≠ [] ∧ bits (2 ^ 22 - 1) 6 5 = 31 ∧
      ([BankUser.matrix, .scalar].map userNum).eraseDups = [1, 4] ∧ 16 ≤ (s.bank 0 31).refused.getD 3 0 ∧
      (s.bank 0 31).refused.getD 0 0 < 16 ∧ (live.bank 0 31).refused.getD 0 0 < 16 ∧
      (live.bank 0 31).refused.getD 3 0 < 16 := by decide +kernel

/-- A cell with a spare; with no spare and a save area, so that it becomes a guest; and with neither. -/
theorem witness_CellFailures :
    let s := wide.setPhys 8 { Phys.reset with retired := true }
    let u := live.setPhys 8 { Phys.reset with retired := true }
    (live.servedBy 0 = some 0 ∧ (live.physOf 0).retired = false ∧ (live.spareOf 0).isSome = true) ∧
      (s.servedBy 0 = some 0 ∧ s.spareOf 0 = none ∧ s.hostFree 0 = true ∧ s.guestOf 0 = none ∧
        (s.saveBase (s.partOfCell 0)).isSome = true) ∧
      (u.servedBy 0 = some 0 ∧ u.spareOf 0 = none ∧ (u.saveBase (u.partOfCell 0)).isSome = false) := by decide +kernel

/-- Cell 0 is a guest of cell 8; cell 8 runs, and cell 0 waits to run. -/
def pair (l : List Switch) (m : List SaveMove) : State :=
  { (wide.setCell 8 { cell1 with cmd := some 1 }).setCell 0 { cell1 with cmd := some 1, switchedIn := false } with
    remap := [(0, { live.remapOf 8 with state := 2 })], switches := l, saveMoves := m }

theorem witness_GuestSwitches :
    let s := pair [] []
    let long := s.setCell 8 { s.cell 8 with inAt := 0 - 100000 }
    let waits := s.setCell 8 { s.cell 8 with run := .waitObj 0 false 1 false, waitAt := 0 - 200 }
    let free := s.setCell 8 { s.cell 8 with cmd := none }
    s.live = true ∧ s.guestOf 8 = some 0 ∧ (s.cell 8).switchedIn = true ∧ s.runs 0 = true ∧ s.link.up = true ∧
      s.linDrains (s.partOfCell 8) = false ∧ s.areaBusy 8 = false ∧ 100000 ≤ (long.now - (long.cell 8).inAt).toNat ∧
      200 ≤ (waits.now - (waits.cell 8).waitAt).toNat ∧ (free.cell 8).cmd = none := by decide +kernel

/-- The cell that goes out, the one that comes in, and a move of the save areas. -/
theorem witness_GuestSwitches_complete :
    let w : Switch := ⟨8, 8, 0⟩
    let s := pair [w] []
    s.live = true ∧ w ∈ s.switches ∧ (∀ v ∈ s.switches, v.host = 8 → v = w) ∧ s.resettingCell 8 = false ∧ s.link.up = true ∧
      s.areaBusy 8 = false ∧ s.badWords (cellMem 8) cellBytes = [] ∧
      (List.range 16).all (fun e => (s.cell 8).arch.residuesOk e) = true ∧
      (∀ n ∈ [8, 0], (match (s.savePlace n 0).map Prod.snd with
        | some k => (List.range 0x440).all (fun j => (s.savePlace n (4096 * j)).map Prod.snd == some (k + 4096 * j))
        | none => false) = true) ∧
      (let m : SaveMove := ⟨3, 0, []⟩
       let u := pair [] [m]
       m ∈ u.saveMoves ∧ u.linDrains 3 = false ∧ u.link.up = true ∧
         (List.range u.cellsPer).all (fun i => !u.areaBusy (3 * u.cellsPer + i)) = true) := by decide +kernel

/-! ### Witnesses: commands -/

/-- A raw descriptor of a class with three arguments. -/
def raw (cls a0 a1 a2 : Nat) : Nat := cls + a0 * 2 ^ 320 + a1 * 2 ^ 384 + a2 * 2 ^ 448

/-- A command that waits at the front of its drip queue. -/
def queued (c : Cmd) : State :=
  { holding [{ c with phase := .queued }] with drips := [(0, { Drip.reset with stages := [c.id] })] }

/-- A COLLECT whose descriptor of zeros lies in the local map. -/
def collect1 : Cmd := cmd1 1 (raw 4 0 128 0)

/-- A COLLECT may start, and the descriptor it names fails its checks. -/
theorem witness_CommandStart_collect :
    let c := { collect1 with phase := .queued }
    let s := queued collect1
    s.live = true ∧ s.cmd 1 = some c ∧ s.starts 0 = true ∧ s.ringTurn c = true ∧ s.recorded c = true ∧
      1 ∈ (s.drip (s.procOf 0 0)).stages ∧ s.readerAhead c = false ∧ s.checkCmd 0 c.d = none ∧ kclass c.d = 4 ∧ klen c.d = 128 ∧
      c.fetch = none ∧ c.status = 0 ∧ ReadsHere s c 0 ∧ (s.collBad 0 (s.memBytes 0 128)).isSome = true := by
  unfold ReadsHere; decide +kernel

/-- A KERNEL of one comb that may start, a command whose check fails, one with a wait that is outstanding, and parked ones. -/
theorem witness_CommandStart :
    let k := cmd1 1 (raw 1 0 8 0 + 1 * 2 ^ 128)
    let bad := cmd1 1 (raw 0 0 0 0)
    let w := cmd1 1 (raw 5 0 0 0 + 1 * 2 ^ 12 + 1 * 2 ^ (512 + 24))
    let ok := fun (s : State) (c : Cmd) => s.live && s.starts c.part && s.ringTurn c && s.recorded c
    (ok (queued k) { k with phase := .queued } = true ∧
      1 ∈ ((queued k).drip ((queued k).procOf 0 0)).stages ∧ (queued k).readerAhead { k with phase := .queued } = false ∧
      (queued k).checkCmd 0 k.d = none ∧ knwait k.d = 0 ∧ kclass k.d = 1 ∧ (queued k).waitsMet 1 = true ∧
      (queued k).strandedCmd k = false ∧ (queued k).combsFree { k with phase := .queued } = true) ∧
      (ok (queued bad) bad = true ∧ ((queued bad).checkCmd 0 bad.d).isSome = true) ∧
      (ok (queued w) w = true ∧ (queued w).checkCmd 0 w.d = none ∧ ((queued w).enterWaits w).waitsMet 1 = false) := by
  decide +kernel

theorem witness_CommandStart_parked :
    let k := { cmd1 1 (raw 1 0 8 0 + 1 * 2 ^ 128) with phase := .parked }
    let s := holding [k]
    let lost := { s with remap := [(0, { live.remapOf 0 with state := 3 })] }
    (s.cmd 1 = some k ∧ s.starts 0 = true ∧ s.ringTurn k = true ∧ s.recorded k = true ∧ s.waitsMet 1 = true ∧
      s.strandedCmd k = false ∧ s.combsFree k = true) ∧
      (lost.starts 0 = true ∧ lost.strandedCmd k = true ∧ lost.substitutes 0 = false) ∧
      ({ s with waits := [⟨.command 1 0, 0, false, 1, true⟩] } : State).waitsMet 1 = false := by decide +kernel

/-- One started command of each small class; a FENCE behind an earlier command; POWER at the ends of its fields. -/
theorem witness_SmallCommands :
    (∀ d ∈ [raw 5 0 0 0, raw 9 0 0 0, raw 6 0 0 0, raw 7 0 0 0, raw 8 0 (2 ^ 17 - 1) 0, raw 8 1 15 0],
      (holding [cmd1 2 d]).live = true ∧ (holding [cmd1 2 d]).cmd 2 = some (cmd1 2 d) ∧
        ((holding [cmd1 2 d]).epochOf 0).stopped = false ∧ (cmd1 2 d).performed = false) ∧
      (cmd1 2 (raw 8 1 15 0)).before (cmd1 2 (raw 6 0 0 0)) = false ∧
      (∃ b ∈ [cmd1 1 (raw 9 0 0 0), { cmd1 2 (raw 6 0 0 0) with seq := 1, intake := 1 }],
        b.before { cmd1 2 (raw 6 0 0 0) with seq := 1, intake := 1 } = true) ∧
      (holding []).inSwarm = false ∧ karg (raw 8 1 15 0) 0 = 1 ∧ karg (raw 8 0 (2 ^ 17 - 1) 0) 1 < 2 ^ 17 := by decide +kernel

/-- A KERNEL without an image, one of comb 0, and one whose image of one word is at hand. -/
theorem witness_KernelCommands :
    let a := cmd1 1 (raw 1 0 0 0 + 1 * 2 ^ 128)
    let b := cmd1 1 (raw 1 0 8 0 + 1 * 2 ^ 128)
    let p := { b with performed := true }
    (holding [a]).cmd 1 = some a ∧ kclass a.d = 1 ∧ klen a.d = 0 ∧ klen b.d ≠ 0 ∧ kmask b.d ≠ 0 ∧
      ((holding [b]).epochOf 0).stopped = false ∧ klen b.d ≤ 2 ^ 17 ∧ (holding [b]).cmd 1 = some b ∧ ReadsHere (holding [b]) b 0 ∧
      (holding [b]).moverLoad 0 < 16 ∧ (holding [b]).boot.oscHeld = false ∧ (holding [p]).cmd 1 = some p ∧ p.loaded = false ∧
      (holding [p]).fetchedAll 1 = true := by unfold ReadsHere; decide +kernel

/-- A MOVE of two pieces, the second short; FORAGE and COLLECT of length 0, refused, and accepted. -/
theorem witness_DataCommands_move :
    let m := cmd1 1 (raw 2 0 0x100000 5000)
    let s := holding [m]
    s.cmd 1 = some m ∧ kclass m.d = 2 ∧ 1 < pieces m.d ∧ (∀ e ∈ m.pieces, e.1 ≠ 1) ∧ s.localAt 0 (karg m.d 0 + 4096) = 4096 ∧
      s.whole 4096 904 = true ∧ s.goneIn (s.localAt 0 (karg m.d 1 + 4096)) 904 = false ∧ s.badWords 4096 904 = [] ∧
      s.resetHolds (s.localAt 0 (karg m.d 1 + 4096)) 904 = false ∧
      s.moverLoad (s.idleMover 0) < 16 ∧ s.engineHeld (Engine.mover (s.idleMover 0)).key = false ∧
      s.owes (Engine.mover (s.idleMover 0)).key 4096 904 = false ∧ s.owes (Engine.mover (s.idleMover 0)).key (s.localAt 0 (karg m.d 1 + 4096)) 904 = false ∧
      (s.cell 0).frozen = 0 ∧ s.isAway 0 = false ∧ (1, 0) ∈ ({ m with pieces := [(1, 0)] } : Cmd).pieces ∧ s.frgs = [] ∧
      s.reach 0 .data false true (karg m.d 0) (karg m.d 2) = .ok (.loc 0) ∧
      s.reach 0 .data true true (karg m.d 1) (karg m.d 2) = .ok (.loc 0x100000) ∧ s.link.snoop = [] ∧ s.link.bis = [] := by
  decide +kernel

theorem witness_DataCommands_engines :
    let f := fun n => cmd1 1 (raw 3 0 n 0)
    let g := fun n => cmd1 1 (raw 4 0 n 0)
    let s := holding [f 384]
    kclass (f 0).d = 3 ∧ klen (f 0).d = 0 ∧ kclass (g 0).d = 4 ∧ klen (g 0).d = 0 ∧
      ReadsHere s (f 384) 0 ∧ (f 384).fetch = none ∧ s.places (seqOf (s.memBytes 0 384)) < 64 ∧
      (s.checkForage 0 (s.memBytes 0 384)).isSome = true ∧ s.collRoom = true ∧ ReadsHere (holding [g 128]) (g 128) 0 ∧
      ((holding [g 128]).collBad 0 ((holding [g 128]).memBytes 0 128)).isSome = true := by unfold ReadsHere; decide +kernel

/-- A command with one signal entry left, and one that has only its record to write. -/
theorem witness_CommandComplete :
    let c := cmd1 1 (raw 5 0 0 0 + 1 * 2 ^ 15 + syncBase * 2 ^ 768)
    let a := { c with phase := .finished }
    let b := { a with signalled := true, logged := true, claimed := 1 }
    (holding [a]).cmd 1 = some a ∧ (holding [a]).effectsDone a = true ∧ a.final = 0 ∧ knsig a.d = 1 ∧
      (holding [a]).syncRef 0 (ksigObj a.d 0) = .loc 0 ∧
      (holding [b]).cmd 1 = some b ∧ (holding [b]).effectsDone b = true ∧ (holding [b]).outstanding (.log 0) = false ∧
      (holding [b]).hostAtOnce 0x1000 32 = true ∧ (holding [b]).linOn 0 = false ∧ (holding [b]).lacksRing b = false ∧
      (holding [b]).replayed b = false ∧ dfield b.d 0 10 1 = 0 ∧
      (holding [b]).reach 0 .rings true false ((holding [b]).cplBase 0 0) 32 = .ok (.host 0x1000) := by decide +kernel

/-! ### Witnesses: close and far memory, foragers -/

theorem witness_EccOfLines :
    let e : List (Nat × Byte) := [(0, 1), (63, 0xFF), (71, 1)]
    (List.replicate 64 (7 : Byte)).length = 64 ∧ 5 < 2 ^ 32 ∧ e.length = 3 ∧ (e.map Prod.fst).Nodup ∧
      (∀ x ∈ e, (x.1 < 64 ∨ (68 ≤ x.1 ∧ x.1 < 72)) ∧ x.2 ≠ 0) ∧ (1 : Byte) ≠ 0 := by decide +kernel

/-- The first and the last byte of close memory, and the byte after it. -/
theorem witness_CloseMemoryRequests :
    (∀ a ∈ [0, wide.addressable - 1], live.addressed a = true ∧ live.addressed wide.addressable = false ∧ a % 64 + 1 ≤ 64 ∧ live.asleep (live.partOfClose a) = false ∧ (live.dev (live.lineOf a).1).retired = false ∧
      (live.lineOf a).2 ∉ (live.dev (live.lineOf a).1).lost) ∧ live.addressed 0x2D00000000 = false ∧ live.stageOk 0 1 = true ∧ live.heldIn 0 1 = false ∧
      (let s := { live with link := { live.link with snoop := [(0, 0)] } }
       s.heldIn 0 1 = true ∧ s.stageOk 0 1 = true ∧ s.addressed 0 = true ∧ s.waitsBi 0 1 = false) ∧ live.live = true ∧
      live.barB 0x07A008 0 = false ∧ readLine (List.replicate 64 0) 0 [] = .clean (List.replicate 64 0) ∧
      readLine (List.replicate 64 0) 0 [(0, 1)] = .corrected (List.replicate 64 0) ∧
      readLine (List.replicate 64 0) 0 [(0, 1), (1, 1)] = .lost := by decide +kernel

/-- The last line of a device, with a corrected error noted for it. -/
theorem witness_Scrubbing :
    let s := live.setDev 31 { Dev.reset with scrubAt := 94371839, corr := [(rowOf 94371839, 94371839, 0)] }
    s.live = true ∧ 94371839 < 94371840 ∧ (s.dev 31).retired = false ∧ (s.dev 31).scrubAt = 94371839 ∧
      s.asleep (s.partOfDev 31) = false ∧ 94371839 ∉ (s.dev 31).lost ∧ s.softwareDue 31 = false ∧ s.writeParked 31 = false ∧
      (s.epochOf (s.partOfDev 31)).state ≠ 3 ∧ s.stampOf 31 (94371839 / 30) = pageStamp (94371839 / 30) ∧
      s.stampOf 31 (94371839 / 30) ^^^ 1 ≠ pageStamp (94371839 / 30) ∧ (s.dev 31).lost = [] ∧ (∃ e ∈ (s.dev 31).corr, e.2.1 = 94371839 ∧ (s.now - e.2.2).toNat ≤ 8640000000000) := by
  decide +kernel

theorem witness_DeviceRetirement :
    let s := { live with boot := { live.boot with reserveOn := true } }
    let u := (live.setDev 31 { Dev.reset with need := [1] })
    let v := { live.setFrg 31 { Frg.reset with retired := true } with boot := { live.boot with homeNow := [(0, 1)] } }
    s.live = true ∧ (s.dev 31).retired = false ∧ s.boot.reserveOn = true ∧ s.reserve = none ∧ (u.dev 31).need ≠ [] ∧
      u.boot.reserveOn = false ∧ (v.frg 31).retired = true ∧ v.homeG (v.partOfDev 31) ≠ 0 := by decide +kernel

/-- A far request of a command. -/
def far1 (wr again : Bool) : FarReq :=
  { eng := 0, sent := true, dead := false, tag := 3, owner := .cmd 1, part := 0, wr := wr, off := 0, addr := farKey 0, len := 64, data := List.replicate 64 1,
    dest := 0, again := again }

theorem witness_FarRequests :
    let c := cmd1 1 2
    let s := fun wr again => { holding [c] with far := [far1 wr again], farTag := 4 }
    (∀ x ∈ [(true, false), (false, false), (true, true)],
      (s x.1 x.2).live = true ∧ ((s x.1 x.2).sendFar.far.find? fun q => q.tag == 3) = some (far1 x.1 x.2) ∧
        (s x.1 x.2).link.up = true ∧ (s x.1 x.2).sendFar.ownerCmd (far1 x.1 x.2).owner = some 1 ∧ (s x.1 x.2).cmd 1 = some c) ∧
      (s false false).reach 0 .data false false 0 64 = .ok (.loc 0) ∧ (s false false).linSafe 0 = false ∧
      (s false false).link.snoop = [] ∧ (s false false).link.bis = [] ∧ (s false false).gather = [] ∧ (s false false).fab.reads = [] ∧
      ((s false false).cell 0).frozen = 0 ∧ (s false false).isAway 0 = false ∧
      ((s false false).far.filter FarReq.sent).length ≤ 1024 := by decide +kernel

/-- A read of a command's descriptor, one whose partition has a lining, and one while the link is down. -/
theorem witness_FarRequests_fetch :
    let c := { cmd1 1 2 with fetch := some [] }
    let r := { far1 false false with owner := .fetch 1 }
    let s := { holding [c] with far := [r], farTag := 4 }
    let l := s.setEpoch 0 { Epoch.reset with active := true, first := false }
    let d := { s with link := { s.link with up := false } }
    s.live = true ∧ (s.sendFar.far.find? fun q => q.tag == 3) = some r ∧ s.cmd 1 = some c ∧ c.id = 1 ∧ c.fetch = some [] ∧
      l.linSafe 0 = true ∧ (l.sendFar.far.find? fun q => q.tag == 3) = some r ∧ d.live = true ∧ d.link.up = false ∧
      (d.sendFar.far.find? fun q => q.tag == 3) = some r := by decide +kernel

/-- The last host and far windows drain, with and without an access of the old setting left. -/
theorem witness_FarRequests_drain :
    let d : Drain := ⟨true, 15, [3], 4⟩
    let e : Drain := ⟨false, 7, [], 4⟩
    let s := { wide with drains := [d, e], far := [far1 true false] }
    s.live = true ∧ (s.drains.find? fun d => d.host == true && d.num == 15) = some d ∧
      (s.drains.find? fun d => d.host == false && d.num == 7) = some e ∧ (∀ r ∈ s.far, r.tag ∈ e.tags → r.dead = true) ∧
      (∃ r ∈ s.far, r.tag ∈ d.tags ∧ r.dead = false) := by decide +kernel

/-- The first byte of close memory with and without a retired device, and the last one. -/
theorem witness_AddressMapIsOneToOne :
    let s := { live with boot := { live.boot with reserveOn := true }, reserve := some 31 }
    (∀ o ∈ [0, 0x2CFFFFFFFF], o < 0x2D00000000 ∧ live.homeG (live.partOfClose o) ≤ devGranules - live.reserveG ∧
      o - live.sliceStart (live.partOfClose o) < live.addressable) ∧
      s.homeG (s.partOfClose 0) ≤ devGranules - s.reserveG ∧ 0 - s.sliceStart (s.partOfClose 0) < s.addressable := by
  decide +kernel

/-- Operand slot `i`, of 4 KiB at `0x10000 * i`. -/
def fslot (i fmt : Nat) : Nat := (0x10000 * i + 0x1000 * 2 ^ 64 + fmt * 2 ^ 128) * 2 ^ (512 + 256 * i)

/-- Class parameter `i`. -/
def fparam (i v : Nat) : Nat := v * 2 ^ (2560 + 64 * i)

/-- A striped descriptor of class `c`, `n` elements and working type `e`. -/
def fhead (c n e : Nat) : Nat := c + 2 ^ 8 + e * 2 ^ 32 + n * 2 ^ 64

/-- A descriptor of class `c` and count `n` that passes its checks; where the class leaves the format open, of INT64. -/
def fraw (c n : Nat) : Nat :=
  match c with
  | 3 => fhead c n 3 + fslot 0 3 + fslot 1 3 + fslot 3 3
  | 4 => fhead c n 3 + fslot 0 3 + fslot 1 3 + fslot 2 0 + fslot 3 3
  | 5 => fhead c n 3 + fslot 0 3 + fslot 3 3 + fparam 2 8
  | 6 => fhead c n 3 + 2 ^ 24 + fslot 0 3 + fslot 3 3
  | 7 => fhead c n 3 + fslot 0 3 + fslot 3 3 + fparam 0 (n + 2 ^ 32) + fparam 1 (8 + 64 * 2 ^ 32)
  | 8 => fhead c n 9 + fslot 0 3 + fslot 1 2 + fslot 2 9 + fslot 3 9 + fparam 0 0x40000 + fparam 1 0x1000
  | 9 => fhead c n 3 + fslot 0 0 + fslot 3 0
  | 10 => fhead c n 3 + fslot 3 0
  | _ => fhead c n 3 + fslot 0 3 + fslot 3 3

/-- A forager descriptor. -/
def fdesc1 (d : Nat) (ph : DPhase) : FDesc :=
  { id := 5, raw := BitVec.ofNat 3072 d, part := 0, issuer := .cmd 1, seqr := 0, frgs := [0], phase := ph, flags := 0,
    count1 := 0, count2 := 0, value := 0, image := 0 }

/-- Forager 0 holds a descriptor. -/
def foraging (d : Nat) (ph : DPhase) : State :=
  { holding [cmd1 1 3] with
    fdescs := [fdesc1 d ph], frgs := [(0, { Frg.reset with queue := [5], running := if ph = .queued then none else some 5 })] }

/-- Every class with a count of 0, and of 2. -/
theorem witness_ForagerClasses :
    (∀ c ∈ [1, 2, 3, 4, 5, 6, 7, 8, 9, 10], ∀ n ∈ [0, 2],
      dclass (fdesc1 (fraw c n) .queued).raw.toNat = c ∧ dcount (fdesc1 (fraw c n) .queued).raw.toNat = n ∧
      (foraging (fraw c n) .queued).fdesc 5 = some (fdesc1 (fraw c n) .queued) ∧
      (foraging (fraw c n) .queued).canStart (fdesc1 (fraw c n) .queued) = true ∧
      (foraging (fraw c n) .queued).checkForage 0 (leBytes 384 (fdesc1 (fraw c n) .queued).raw.toNat) = none) ∧
      (foraging (fraw 2 2) .queued).link.snoop = [] ∧ ((foraging (fraw 2 2) .queued).frg 0).retired = false ∧ 0 ∈ (fdesc1 (fraw 2 2) .queued).frgs ∧
      (foraging (fraw 9 2) .queued).isAway 0 = false ∧ ((foraging (fraw 9 2) .queued).cell 0).frozen = 0 ∧
      0 < (dslot (fraw 1 2) 3).w ∧ (dslot (fraw 6 2) 3).fmt = (dslot (fraw 6 2) 0).fmt ∧ slotUsed (fraw 6 2) 2 = false ∧
      isInt (detype (fraw 6 2)) = true := by decide +kernel

/-- A performed and a quenched descriptor, without and with a result record and a done object. -/
theorem witness_ForagerDescriptorCompletes :
    (∀ d ∈ [fraw 1 2, fraw 1 2 + syncBase * 2 ^ 256 + 0x20000 * 2 ^ 320], ∀ ph ∈ [DPhase.performed, .recorded, .quenched],
      (foraging d ph).live = true ∧ (foraging d ph).fdesc 5 = some (fdesc1 d ph) ∧
        (foraging d ph).outstanding (.fdesc 5) = false) ∧
      dfield (fraw 1 2) 0x20 0 64 = 0 ∧ dfield (fraw 1 2 + syncBase * 2 ^ 256) 0x20 0 64 = syncBase ∧
      wide.syncRef 0 syncBase = .loc 0 ∧ (foraging (fraw 1 2) .performed).link.snoop = [] ∧
      (let s := foraging (fraw 1 2 + 0x20000 * 2 ^ 320) .performed
       ({ s with link := { s.link with snoop := [(0, 0x20000 / 64)] } } : State).lineHeld (0x20000 / 64) = true) ∧
      (let s := (foraging (fraw 1 2) .queued).setFrg 0 { (foraging (fraw 1 2) .queued).frg 0 with retired := true }
       let t := s.setFrg 1 { Frg.reset with retired := true }
       t.live = true ∧ t.stranded (fdesc1 (fraw 1 2) .queued) = true ∧ t.substitutes 0 = false) := by decide +kernel

/-- A copy to the lining is in progress: granule 0 of device 0 and of cell 0 is frozen. -/
def copying : State :=
  ((wide.setEpoch 0 { Epoch.reset with active := true, state := 3 }).setFrg 0
    { Frg.reset with frozen := ⟨[(0, true)]⟩ }).setCell 0 { Cell.reset with frozen := 1 }

theorem witness_LiningCopies :
    copying.live = true ∧ copying.linOn 0 = true ∧ copying.asleep 0 = false ∧ (copying.epochOf 0).state = 3 ∧ 0 < copying.linA ∧
      copying.granuleOff 0 0 = 0 ∧ copying.place4K 0 = (0, 0) ∧ (copying.frg 0).nextFrozen = some 0 ∧
      (copying.frg 0).frozen.get 0 = true ∧ copying.stagingFree 0 0 = true ∧ (copying.frg 0).running = none ∧
      0 < copying.cellsPer ∧ copying.stagingFree 0 32 = true ∧ (copying.cell 0).frozen.getLsbD 0 = true ∧
      0 ∈ copying.devsOf 0 ∧ 0 < copying.parts ∧ copying.unrelocate 0 0 = some (0, 0) ∧ copying.offsetOf 0 0 = some 0 ∧
      isClose 4095 = true ∧ copying.place4K 4095 = (0, 0) ∧ copying.stagingFree (copying.partOfDev 0) 0 = true ∧
      copying.stagingFree (copying.partOfCell 0) 32 = true ∧
      copying.writeParked 0 = false ∧ copying.badWords (cellMem 0) 4096 = [] ∧ copying.heldIn 0 1 = false := by decide +kernel

/-- A forager whose pair works, one whose pair is retired, and one with a home region in effect. -/
theorem witness_ForagerRetirement :
    let s := live.setFrg 30 { Frg.reset with retired := true }
    let h := { live with boot := { live.boot with homeNow := [(0, 1)] } }
    live.live = true ∧ (live.frg 31).retired = false ∧ (live.frg (31 ^^^ 1)).retired = false ∧
      (s.frg 31).retired = false ∧ (s.frg (31 ^^^ 1)).retired = true ∧ h.homeG (h.partOfDev 31) ≠ 0 ∧
      (h.dev 31).retired = false := by decide +kernel

/-! ### The host link, registers and rings -/

/-- Partition 0 of `wide` is under reset. -/
def resetting (s : State) : State :=
  { s with resets := { s.resets with running := [{ domain := 2, number := 0, late := false }] } }

/-- A line of close memory and the hole, in service and under reset; and with a full share of the snoop filter, where the line has an
entry already. -/
theorem witness_HostMemory :
    (∀ s ∈ [wide, resetting wide], ∀ off ∈ [0, 63, wide.addressable - 1, wide.addressable],
      s.live = true ∧ s.hdmOpen 0 = true ∧ off < s.sliceBytes + 2 ^ 28 ∧ off % 64 + 1 ≤ 64 ∧
        s.inTrace off 1 = false) ∧
      wide.hdm 0 0 = .close 0 ∧ wide.hdm 0 wide.addressable = .hole ∧ wide.inReset 0 = false ∧ (resetting wide).inReset 0 = true ∧
      wide.lostIn 0 64 = false ∧ wide.stageOk 0 1 = true ∧ wide.heldIn 0 64 = false ∧
      (let s := { wide with link := { wide.link with snoop := [(1, 0)] } }; s.hostHolds 0 = true ∧ s.link.bis = []) ∧ (wide.link.snoop.filter fun e => e.1 == 0).length < wide.snoopShare := by decide +kernel

/-- A line waits for its back-invalidation. -/
def invalidating (w : BiWhat) : State :=
  { wide with link := { wide.link with snoop := [(0, 5), (0, 6)], bis := [⟨5, w, 3⟩, ⟨6, .packet, 4⟩] } }

/-- A signal that waits. -/
def sig0 : Sig := { eng := .cell 0, part := 0, obj := 0, set := false, v := 1, cmd := none, ord := 0, ack := none }

/-- A signal that waits behind a record of an effect log. -/
def behindLog : State :=
  { wide with link := { wide.link with bis := [⟨6, .write (.log 0) 0 384 [0], 2⟩, ⟨5, .sig sig0, 3⟩] } }

theorem witness_BackInvalidation :
    (∀ w ∈ [BiWhat.write (.cmd 1) 0 320 [1, 2], .sig sig0, .read (.cmd 1) 0 0 320 8 cellBase, .packet], (invalidating w).live = true ∧ (invalidating w).link.up = true ∧
      ((invalidating w).link.bis.filter fun x => x.line == 5) = [⟨5, w, 3⟩]) ∧
      (invalidating .packet).stageOk 320 2 = true ∧ (invalidating .packet).hostHolds 5 = true ∧ isClose (64 * 5) = true ∧
      (invalidating .packet).inTrace (64 * 5) 64 = false ∧ (invalidating .packet).coll.colls = [] ∧
      (invalidating .packet).gather = [] ∧ (invalidating .packet).far = [] ∧ (invalidating .packet).fab.reads = [] ∧
      (invalidating .packet).isAway 0 = false ∧ ((invalidating .packet).cell 0).frozen = 0 ∧
      (invalidating .packet).reach 0 .data false false cellBase 8 = .ok (.loc cellBase) ∧ isClose cellBase = false ∧
      (invalidating (.sig sig0)).pendingBefore 3 (fun o => o == .log 0) = false ∧
      behindLog.live = true ∧ behindLog.link.up = true ∧ behindLog.pendingBefore 3 (fun o => o == .log 0) = true ∧
      (behindLog.link.bis.filter fun x => x.line == 5) = [⟨5, .sig sig0, 3⟩] := by decide +kernel

/-- The link up, down, down for long, and under PERST#. -/
theorem witness_HostLinkStates :
    wide.live = true ∧ wide.link.up = true ∧ wide.boot.standby = true ∧ wide.link.perst = false ∧
      (let d := { wide with link := { wide.link with up := false } }
       d.live = true ∧ d.link.up = false ∧ d.link.perst = false ∧ d.link.lost = false) ∧
      live.live = true ∧ live.link.lost = true ∧ live.link.perst = true ∧ live.boot.standby = true := by decide +kernel

/-- The module with two partitions. -/
def two : State := { live with boot := { live.boot with modeNow := 1 } }

/-- A register of function 0 alone, one that each function has and the last of a row, written by function 0; and one that function 1
of a module of two partitions may not write. -/
theorem witness_RegisterWrites :
    (∀ off ∈ [0x021000, 0x010000, 0x014000 + 0x40 * 63], off % 8 = 0 ∧
      ((regAt off).any fun e => e.1.base != 0x038000 && wide.mayWrite 0 e.1 e.2) = true) ∧
      (∃ off ∈ [0x020000, 0x030000, 0x040000, 0x011008, 0x014010, 0x021008], collarReg off = true) ∧ two.live = true ∧ 1 < two.parts ∧ ((regAt 0x021000).any fun e => !two.mayWrite 1 e.1 e.2) = true ∧ 4 % 8 ≠ 0 := by decide +kernel

/-- Registers with staged and with plain fields, one of which a commit of function 0 covers; offsets in no block; an access that is not
aligned. -/
theorem witness_RegisterReads :
    (regAt 0x021000).isSome = true ∧ ((regAt 0x014000).any fun e => e.1.fields.any fun f => f.acc == .rwc) = true ∧
      (regRows.any fun r => r.fields.any fun f => f.acc == .rw) = true ∧ 4 % 8 ≠ 0 ∧
      ((wide.commitRegs 0).any fun e => e.1 == regKey 0 0x014000) = true ∧ wide.live = true ∧ 0 < wide.parts ∧
      (wide.commitOf 0).busy = false := by decide +kernel

/-- No commit, a commit under way, and one with a further request. -/
theorem witness_Commits :
    (∀ c ∈ [Commit.reset, { Commit.reset with busy := true }, { Commit.reset with busy := true, again := true }],
      (wide.setCommit 0 c).live = true ∧ 0 < (wide.setCommit 0 c).parts ∧ (wide.setCommit 0 c).commitOf 0 = c) := by decide +kernel

/-- Rings 0 and 63 of partition 0 and its report ring are enabled; the lines they watch lie in host memory, or in the far tier. -/
def ringing (space : Nat) : State :=
  let s := { wide with bar := (0x010010, BitVec.ofNat 64 (space * 2 ^ 60 + 0x2000)) ::
    (0x010028, BitVec.ofNat 64 (space * 2 ^ 60 + 0x2040)) :: (0x010030, BitVec.ofNat 64 (space * 2 ^ 60 + 0x2080)) :: setUp }
  ((s.setRing 0 0 { Ring.reset with active := true, tail := 2, lineDue := true }).setRing 0 63
    { Ring.reset with active := true, bad := true, tail := 64, tailWrap := false }).setRep 0 { RepRing.reset with active := true, tail := 3 }

theorem witness_WatchedLines :
    (∀ l ∈ [0, 3, 4], (ringing 3).hostWatch 0 l = true ∧ (ringing 2).watched 0 l = true ∧
      (ringing 2).watchAddr 0 l / 2 ^ 60 = 2) ∧ (ringing 3).live = true ∧ 0 < (ringing 3).parts ∧ (ringing 2).live = true := by
  decide +kernel

/-- Slots at the bounds of R345, on a ring in order and on one already ignored; report lines likewise. -/
theorem witness_Doorbells :
    (∀ i ∈ [0, 63], (ringing 3).live = true ∧ ((ringing 3).ring 0 i).active = true ∧ (ringing 3).lineReadable 0 (i / 16) = true ∧
      (ringing 3).awake 0 = true) ∧
      (ringing 3).ringLog 0 0 = 6 ∧ ahead 6 0 false 0 true ≤ 2 ^ 6 ∧ ¬ ahead 6 0 false 1 true ≤ 2 ^ 6 ∧
      ((ringing 3).ring 0 0).bad = false ∧ ((ringing 3).ring 0 63).bad = true ∧ (ringing 3).lineReadable 0 4 = true ∧
      ((ringing 3).rep 0).held = [] ∧ (ringing 3).headGood 0 3 = true ∧ (ringing 3).headGood 0 4 = false := by decide +kernel

/-- Intake goes on, and stops for each of its reasons. -/
theorem witness_Intake :
    (ringing 3).live = true ∧ (ringing 3).intakes 0 = true ∧ ((ringing 3).drip 0).overflow.length < 4096 ∧
      (ringing 3).linOn 0 = false ∧ ((ringing 3).epochOf 0).recStep = 0 ∧ (ringing 3).nextRing 0 0 = some 0 ∧
      (ringing 3).link.up = true ∧ (let s := { ringing 3 with boot := { (ringing 3).boot with refOk := false } }
        s.live = true ∧ 0 < s.parts ∧ s.boot.refOk = false) ∧
      ((ringing 3).setEpoch 0 { Epoch.reset with stopped := true }).live = true ∧ ((ringing 3).ring 0 0).lineDue = true ∧
      (ringing 3).reach 0 .rings true false ((ringing 3).cplBase 0 0 + 32 * 2 ^ (ringing 3).ringLog 0 0) 4 = .ok (.host 0x1800) ∧
      (ringing 3).hostAtOnce 0x1800 4 = true := by
  decide +kernel

/-- The entry that the ring reads next lies in a far window, and one that waits for its lining has its intake record. -/
theorem witness_Intake_far :
    let r : IntakeRec := ⟨7, 0, 0, false, 1, 0⟩
    let s := ({ ringing 2 with bar := (0x014000, BitVec.ofNat 64 (2 * 2 ^ 60)) :: (ringing 2).bar } : State).setEpoch 0 { Epoch.reset with active := true, epoch := 1 }
    let t := s.setRing 0 0 { s.ring 0 0 with relog := [r] }
    t.live = true ∧ t.intakes 0 = true ∧ t.linOn 0 = true ∧ t.nextRing 0 0 = some 0 ∧ t.link.up = true ∧ t.entryAddr 0 0 / 2 ^ 60 = 2 ∧
      ((t.ring 0 0).relog.find? fun q => q.entry == (t.ring 0 0).rd && q.wrap == (t.ring 0 0).rdWrap && q.desc == 0 &&
        q.epoch == (t.epochOf 0).epoch) = some r := by decide +kernel

/-- A mismatch at a drip queue that holds a waiting command. -/
theorem witness_Intake_mismatch :
    let c := { cmd1 1 3 with phase := .queued }
    let s := (holding [c]).setDrip 0 { Drip.reset with stages := [1] }
    s.live = true ∧ c ∈ s.cmds ∧ c.waiting = true ∧ c.part = 0 / s.procs ∧ c.ring < 64 ∧ c.id ∈ (s.drip 0).stages := by decide +kernel

/-! ### The fabric -/

/-- Port `k` of `s` is up on eight lanes. -/
def portUp (s : State) (k : Nat) : State := s.setPort k { Port.reset with trained := true, state := 1, lanes := 0xFF }

/-- Port `k` is wired to port 3 of module 9. -/
def wiredTo (s : State) (k : Nat) : State :=
  { s with place := { s.place with ports := [(k, ⟨true, 9, 3, 0⟩)] } }

/-- The partner that the placement names, another one, an unwired port, no placement; and ports in use, with a lane less, and after eight
replays. -/
theorem witness_PortStates :
    (∀ k ∈ [0, 17], wide.live = true ∧ (wide.port k).state = 0 ∧ (wide.port k).trained = false ∧ wide.fab.placed = true ∧
      (Tab.get (fun _ => PPort.reset) wide.place.ports k).wired = false ∧
      Tab.get (fun _ => PPort.reset) (wiredTo wide k).place.ports k = ⟨true, 9, 3, 0⟩ ∧ ((wiredTo wide k).port k).state = 0 ∧
      ((portUp wide k).port k).up = true ∧ (portUp wide k).live = true ∧
      (∀ l ∈ [0, 8], ((portUp wide k).port k).healthy.getLsbD l = true ∧ (wide.port k).healthy.getLsbD l = true) ∧
      (wide.port k).up = false) ∧ live.fab.placed = false ∧
      (let s := (portUp wide 0).setPort 0 { (portUp wide 0).port 0 with replays := 8 }; s.live = true ∧ (s.port 0).up = true ∧
        8 ≤ (s.port 0).replays) := by decide +kernel

/-- All lanes, the spare in use, four lanes and three. -/
theorem witness_LanesInUse :
    (∀ j, j < 8 → (0xFF#9).getLsbD j = true) ∧ ((List.range 9).filter fun j => (0x1FE#9).getLsbD j).length = 8 ∧
      (0x1FE#9).getLsbD 8 = true ∧ ((List.range 9).filter fun j => (0x0F#9).getLsbD j).length = 4 ∧
      ((List.range 9).filter fun j => (0x07#9).getLsbD j).length < 4 := by decide +kernel

/-- A packet with its CRC. -/
def crcOk (p : Packet) : Packet := { p with pcrc := pktCrc p }

/-- A packet of a type and class, from module 9. -/
def pkt (type cls : Nat) (arg0 : Word) (arg1 : BitVec 32) (payload : Nat) (data : List Byte) : Packet :=
  crcOk { zp with type := BitVec.ofNat 5 type, cls := BitVec.ofNat 3 cls, seqd := cls != 2, srcPhys := 9, arg0 := arg0, arg1 := arg1,
                  plen := BitVec.ofNat 7 payload, data := data }

/-- A packet of this module for module 9. -/
def away (type cls : Nat) : Packet := crcOk { pkt type cls 0 0 0 [] with srcPhys := 0, dstPhys := 9, dstLog := 9 }

/-- A flit with its CRC, the first one on a channel. -/
def flit0 (fseq : BitVec 12) (payload : List Byte) : Flit :=
  let f : Flit := { fseq := fseq, aseq := 0, nak := false, vc := 0, start := 0, cvc := 0, ccount := 4, res := 0, payload := payload,
                    crc := 0, fecOk := true }
  { f with crc := flitCrc f }

/-- A packet's bytes fill the flit with zeros. -/
def flitOf (p : Packet) : Flit := flit0 0 (pktBytes p ++ List.replicate (240 - pktSize p) 0)

/-- A flit in order with a packet, one out of order, and one with a bad CRC; flits in the replay buffer. -/
theorem witness_Flits :
    let s := portUp wide 12
    let p := { away 6 0 with srcPhys := 9 }
    s.live = true ∧ (s.port 12).up = true ∧ (flitOf p).payload.length = 240 ∧ (flitOf p).fecOk = true ∧
      (flitOf p).crc = flitCrc (flitOf p) ∧ (flitOf p).fseq = (s.port 12).rx + 1 ∧ (flit0 1 (flitOf p).payload).fseq ≠ (s.port 12).rx + 1 ∧
      (flit0 1 (flitOf p).payload).crc = flitCrc (flit0 1 (flitOf p).payload) ∧
      { flitOf p with crc := 0 }.crc ≠ flitCrc { flitOf p with crc := 0 } ∧ p.type ≠ 0 ∧
      pktLen (pktBytes p) = some (pktSize p) ∧ p.srcPhys ≠ s.fab.phys ∧ (flitOf p).vc.toNat = chanOf p ∧
      (flitOf { p with cls := 1 }).vc.toNat ≠ chanOf { p with cls := 1 } ∧
      (let q := s.port 12 |>.queueBytes 0 true (pktBytes p) |>.queueBytes 0 false (pktBytes p)
       q.unacked.length < 512 ∧ q.queue ≠ [] ∧ ∃ y ∈ q.queue, y.vc = 0 ∧ y.urgent = true) ∧
      (let t := s.setPort 12 { s.port 12 with unacked := [flitOf p] }; t.live = true ∧ (t.port 12).up = true ∧
        (t.port 12).unacked ≠ [] ∧ (t.port 12).unacked.length < 512) := by decide +kernel

/-- A packet waits at port 12. -/
def waiting (p : Packet) (k : Nat) : State :=
  { portUp (portUp wide 13) 0 with fab := { (portUp (portUp wide 13) 0).fab with waiting := [(some k, p)] } }

/-- An originated packet waits, for credits or because it is for this module. -/
def ownWaits (p : Packet) : State := { wide with fab := { wide.fab with waiting := [(none, p)] } }

/-- A packet that has aged, one for this module, one from a switch plane, one with a port and one without. -/
theorem witness_TransitDecision :
    (∀ p ∈ [{ away 6 0 with dstPhys := 0 }, away 6 0, { away 6 0 with dstPhys := 1, dstLog := 1 }, { away 6 0 with age := 1999 }], ∀ k ∈ [0, 12],
      (waiting p k).live = true ∧ (some k, p) ∈ (waiting p k).fab.waiting) ∧
      typeClass (away 6 0).type.toNat = some (away 6 0).cls.toNat ∧
      (waiting (away 6 0) 12).choose 2 false (away 6 0) = none ∧
      (waiting { away 6 0 with dstPhys := 1, dstLog := 1 } 12).choose 2 false { away 6 0 with dstPhys := 1, dstLog := 1 } =
        some (13, false) := by decide +kernel

/-- A packet to a neighbour, in `CTL` and in `WR`; and on an escape channel. -/
theorem witness_PortChosen :
    let s := portUp wide 12
    (∀ p ∈ [away 6 0, away 1 1, { away 1 1 with esc := true }], ({ p with dstPhys := 1 }.cls.toNat < 5)) ∧
      s.choose 2 false { away 6 0 with dstPhys := 1 } = some (12, false) ∧
      s.choose 2 false { away 1 1 with dstPhys := 1, esc := true } = some (12, true) ∧
      (s.choose 2 false { away 1 1 with dstPhys := 1 }).isSome = true := by decide +kernel

/-- A module that has originated packets. -/
def originating (l : List Packet) : State := { portUp wide 12 with fab := { (portUp wide 12).fab with outbox := l } }

/-- An acknowledgement that leaves, one for this module, and one with a source the Collar does not accept. -/
theorem witness_OriginatedPackets :
    (∀ p ∈ [{ away 4 2 with dstPhys := 0 }, { away 4 2 with srcPhys := 7 }, { away 4 2 with dstPhys := 1 }, away 4 2],
      (originating [p]).live = true ∧ p ∈ (originating [p]).fab.outbox ∧ (originating [p]).mayLeave p = true ∧
        p.age.toNat + 1999 < 2000 ∧ typeClass p.type.toNat = some p.cls.toNat) ∧
      wide.choose 2 true (away 4 2) = none ∧
      ((originating []).choose 2 true { away 4 2 with dstPhys := 1 }).isSome = true ∧
      (waiting (away 6 0) 12).fab.waiting[0]? = some (some 12, away 6 0) ∧ (away 6 0).dstPhys ≠ (waiting (away 6 0) 12).fab.phys := by
  decide +kernel

/-- A packet of the retransmit store. -/
def rtx0 (p : Packet) : Rtx := { pkt := p, owner := .cmd 1, eng := 5, plane := 0, sent := true, ord := 0 }

/-- A module with a packet in its retransmit store. -/
def storing (p : Packet) : State := { wide with fab := { wide.fab with rtx := [rtx0 p] } }

theorem witness_OriginatedPackets_again :
    (storing (away 1 1)).live = true ∧ rtx0 (away 1 1) ∈ (storing (away 1 1)).fab.rtx ∧ (rtx0 (away 1 1)).sent = true ∧
      (rtx0 (away 1 1)).pkt ∉ (storing (away 1 1)).fab.outbox ∧ (storing (away 1 1)).fab.waiting = [] ∧
      (ownWaits (away 1 1)).live = true ∧ (ownWaits (away 1 1)).fab.waiting[0]? = some (none, away 1 1) := by decide +kernel

/-- A packet that has gone out goes out again, on a switch plane of its route that is up. -/
theorem witness_PortChosen_again :
    let p := away 1 1
    let u := portUp (storing p) 1
    let s := { u with fab := { u.fab with routes := [(9, { Route.reset with valid := true, mask := 2 })] } }
    s.planeFor true p = some 1 ∧ s.choose 2 true p = some (1, false) := by decide +kernel

/-- A stream whose base is 0xFFFF, with number 0 taken. -/
def rx0 : RxStream := { base := 0xFFFF, win := 2 }

/-- The first and the last number of the window, with its first number missing and taken. -/
theorem witness_StreamsPerformOnce :
    (∀ seq ∈ [0xFFFF, 254], rx0.dist (BitVec.ofNat 16 seq) < 256 ∧
      rx0.win.getLsbD (rx0.dist (BitVec.ofNat 16 seq)) = false) ∧ rx0.dist 0 < 256 ∧ rx0.win.getLsbD (rx0.dist 0) = true := by decide +kernel

/-- A packet with a bad CRC, a wrong class, another logical number, and numbers at the edges of the window; and a duplicate. -/
theorem witness_StreamChecks :
    (∀ p ∈ [{ pkt 15 0 0 0 0 [] with pcrc := 1 }, pkt 15 3 0 0 0 [], pkt 15 0 0 0 0 [], crcOk { pkt 15 0 0 0 0 [] with dstLog := 1 },
        crcOk { pkt 15 0 0 0 0 [] with seq := 256 }, crcOk { pkt 15 0 0 0 0 [] with seq := 32767 },
        crcOk { pkt 15 0 0 0 0 [] with seq := 32768 }],
      arrival (.mgmt p) = some (p, 15, 0) ∧ wide.live = true ∧ wide.fab.placed = true ∧ wide.awake wide.owner = true ∧
        p.type.toNat = 15 ∧ p.dstPhys = wide.fab.phys) ∧
      { pkt 15 0 0 0 0 [] with pcrc := 1 }.pcrc ≠ pktCrc { pkt 15 0 0 0 0 [] with pcrc := 1 } ∧ Arrives wide (pkt 15 0 0 0 0 []) 15 0 ∧
      (let s := wide.setRx zp { base := 0, win := 1#256 <<< 255 }
       (s.rxOf { zp with seq := 255 }).win.getLsbD 255 = true ∧ s.unknownStream zp = false) := by
  simp only [← arrives_iff]; decide +kernel

/-- A packet too old, one that claims to come from this module and one that it has sent to itself, and one without a number. -/
theorem witness_StreamChecks_source :
    (let p := crcOk { pkt 15 0 0 0 0 [] with age := 2000 }
     arrival (.mgmt p) = some (p, 15, 0) ∧ 2000 ≤ p.age.toNat ∧ p.dstPhys = wide.fab.phys) ∧
      (let p := crcOk { pkt 15 0 0 0 0 [] with srcPhys := 0 }
       p.srcPhys = wide.fab.phys ∧ (none, p) ∉ wide.fab.waiting ∧ Arrives (ownWaits p) p 15 0) ∧
      (let p := crcOk { pkt 15 0 0 0 0 [] with seqd := false }
       p.pcrc = pktCrc p ∧ p.cls.toNat = 0 ∧ p.age.toNat < 2000 ∧ p.srcPhys ≠ wide.fab.phys) := by
  simp only [← arrives_iff]; decide +kernel

theorem witness_StreamChecks_due (p : Packet) : arrivalDue (.mgmt p) wide := trivial

/-- An ACK that waits covers numbers up to 63 on; none waits. -/
theorem witness_Acknowledgements :
    let a : Packet := { zp with type := 4, cls := 2, seq := 10 }
    let s := { wide with fab := { wide.fab with outbox := [a] } }
    (∀ n ∈ [10, 73], ∃ x ∈ s.fab.outbox, x.type = 4 ∧ x.dstLog = zp.srcLog ∧ x.arg1.toNat = zp.cls.toNat ∧ x.gen = zp.gen ∧
      (BitVec.ofNat 16 n - x.seq).toNat < 64) ∧ (∀ x ∈ s.fab.outbox, ¬ ((74 : BitVec 16) - x.seq).toNat < 64) ∧ wide.fab.outbox = [] := by decide +kernel

/-- Sixty-four bytes. -/
def bytes64 : List Byte := List.replicate 64 3

/-- WRITE and READ of 1 byte and of the last byte, with a wrong length, outside every region, beyond an end, and during a reset. -/
theorem witness_DataPackets :
    (∀ p ∈ [pkt 1 1 0 1 1 bytes64, pkt 1 1 (BitVec.ofNat 64 (wide.addressable - 1)) 1 1 bytes64, pkt 1 1 0 65 1 bytes64,
        pkt 1 1 (2 ^ 45) 1 1 bytes64, pkt 1 1 (BitVec.ofNat 64 (wide.addressable - 1)) 2 1 bytes64],
      FirstTime wide p ∧ Arrives wide p 1 1 ∧ arrivalDue (.write p) wide) ∧
      (∀ p ∈ [pkt 2 1 0 1 0 [], pkt 2 1 0 4096 0 [], pkt 2 1 0 4097 0 [], pkt 2 1 (2 ^ 45) 1 0 []],
        FirstTime wide p ∧ Arrives wide p 2 1 ∧ arrivalDue (.read p) wide) ∧
      dataOk (pkt 1 1 0 1 1 bytes64) = true ∧ dataOk (pkt 1 1 0 65 1 bytes64) = false ∧ wide.remoteBad true 0 1 = none ∧
      wide.remoteBad true (2 ^ 45) 1 = some 1 ∧ wide.remoteBad true (wide.addressable - 1) 2 = some 2 ∧
      wide.remoteBad false 0 4096 = none ∧ shortOk (pkt 2 1 0 1 0 []) = true := by
  simp only [← arrives_iff, FirstTime]; simp only [arrivalDue]; decide +kernel

/-- Writes and a read that wait: for a cell under reset, for a line that is on its way back, for a staging buffer, for a repair. -/
theorem witness_DataPackets_waiting :
    let w := pkt 1 1 (BitVec.ofNat 64 (cellMem 0)) 1 1 bytes64
    let r := pkt 2 1 0 1 0 []
    let s := { wide with resets := { wide.resets with running := [{ domain := 0, number := 0, late := false }] } }
    let b := { wide with link := { wide.link with bis := [⟨0, .packet, 0⟩] } }
    let l := (wide.setDev 0 { Dev.reset with lost := [0] }).setEpoch 0 { Epoch.reset with active := true }
    FirstTime s w ∧ Arrives s w 1 1 ∧ s.cellInReset (cellMem 0) = true ∧ Arrives b r 2 1 ∧ b.waitsBi 0 1 = true ∧
      Arrives l r 2 1 ∧ l.lostIn 0 1 = true := by
  simp only [← arrives_iff, FirstTime]; decide +kernel

/-- A READ is outstanding. -/
def reading : State :=
  { wide with
    resets := { wide.resets with gens := [(5, 1)] },
    fab := { wide.fab with reads := [{ etag := 7, phys := 9, dest := 4096, len := 64, owner := .cmd 1, eng := 5, gen := 1, again := none,
                                       ord := 0 }] } }

/-- RDATA of the current and of a stale generation, and one that nothing waits for. -/
theorem witness_ReadData :
    (∀ g ∈ [1, 0], ∀ e ∈ [7, 8], Arrives reading
      (crcOk { pkt 3 2 0 64 1 bytes64 with etag := BitVec.ofNat 16 e, gen := BitVec.ofNat 10 g }) 3 2) ∧
      dataOk (pkt 3 2 0 64 1 bytes64) = true ∧ reading.gen 5 = 1 ∧ reading.link.snoop = [] ∧ reading.link.bis = [] ∧
      reading.reach reading.owner .data false false 4096 64 = .ok (.loc 4096) ∧
      (let c := { cmd1 1 2 with fetch := some [] }
       let s := { reading with cmds := [c], fab := { reading.fab with reads := reading.fab.reads.map fun x => { x with owner := .fetch 1 } } }
       Arrives s (crcOk { pkt 3 2 0 64 1 bytes64 with etag := 7, gen := 1 }) 3 2 ∧ s.cmd 1 = some c ∧ c.fetch = some []) := by
  simp only [← arrives_iff]; decide +kernel

/-- Signals on the first and last object, a number too large, an object of another partition, and a reset; a report passed to a manager. -/
theorem witness_SignalPackets :
    (∀ n ∈ [0, 65535, 65536], ∀ t ∈ [6, 7],
      FirstTime wide (pkt t 0 1 (BitVec.ofNat 32 n) 0 []) ∧ Arrives wide (pkt t 0 1 (BitVec.ofNat 32 n) 0 []) t 0) ∧ wide.effectFull wide.owner = false ∧
      wide.ownerReset = false ∧ (∀ n ∈ [0, 65535], wide.partOfSync n = wide.owner) ∧ two.partOfSync 65535 ≠ two.owner ∧
      (resetting wide).ownerReset = true ∧ shortOk (pkt 6 0 1 0 0 []) = true ∧ wide.link.snoop = [] ∧ wide.link.bis = [] ∧
      Arrives wide (pkt 15 0 0 0 0 []) 15 0 ∧ Arrives wide (pkt 8 3 0 2 0 (bytes64.take 32)) 8 3 ∧
      longOk (pkt 8 3 0 2 0 (bytes64.take 32)) = true ∧
      (let s := { wide with swarm := { wide.swarm with role := 3, admitted := true, admittedM := [0], members := [0] } }
       s.swarm.role = 3 ∧ s.fromSwarm (pkt 8 3 0 2 0 (bytes64.take 32)) = true) := by
  simp only [← arrives_iff, FirstTime]; decide +kernel

/-- A write that is acknowledged, refused, and refused as moved, and answers to nothing. -/
theorem witness_PacketAnswers :
    let s := storing (pkt 1 1 0 64 1 bytes64)
    let r := rtx0 (pkt 1 1 0 64 1 bytes64)
    Arrives s (pkt 4 2 1 1 0 []) 4 2 ∧ r.pkt.type = 1 ∧ r.eng < 612 ∧ (pkt 4 2 1 1 0 []).gen = s.gen r.eng ∧ r.pkt.cls ≠ 0 ∧
      (s.fab.rtx.filter fun x => x.pkt.dstLog == 0 && x.pkt.cls.toNat == 1 % 8 && x.pkt.seq == 0) = [r] ∧
      (∀ k ∈ [1, 3, 4], Arrives s (pkt 5 2 0 (BitVec.ofNat 32 (1 + k * 16)) 0 []) 5 2) ∧ bits (1 + 4 * 16) 4 4 = 4 ∧
      (let t := { s with fab := { s.fab with routes := [(0, ⟨true, 6, 1⟩)] } }
       (t.route r.pkt.dstLog.toNat).phys ≠ r.pkt.dstPhys ∧ t.live = true) ∧ wide.fab.rtx = [] := by
  simp only [← arrives_iff]; decide +kernel

/-! ### Collectives and the swarm -/

/-- A descriptor on team 0: operation, sequence number, INT64 elements; it sends from 0 and receives at 0x10000. -/
def craw (op seq count : Nat) : Nat := op + 3 * 2 ^ 6 + seq * 2 ^ 32 + count * 2 ^ 64 + 0x10000 * 2 ^ 192

/-- A collective that has been accepted. -/
def coll0 (d : Nat) (started : Bool) : Coll :=
  { id := 5, raw := BitVec.ofNat 1024 d, part := 0, issuer := .cmd 1, started := started, waggle := false, stage := 0, state := [],
    got := [], mask := [], grants := [(0, 1, 1)], sent := [], outs := [], src := [], ready := false, status := 0, t0 := 0, lastRank := 0,
    lastTime := 0 }

/-- Team 0 has `n` members from this module on; the collective engine holds `c`. -/
def collecting (n next : Nat) (c : Coll) : State :=
  let s := { holding [cmd1 1 2] with nextId := 6, bar := Tab.set regReset setUp 0x040100 (BitVec.ofNat 64 (2 ^ 12 + n * 2 ^ 24 + 2 ^ 37)) }
  { s with coll := { s.coll with colls := [c], teams := [(0, { next := next, aborted := [] })] } }

/-- The operations with their number of elements. -/
def copCount : List (Nat × Nat) := [(1, 8), (2, 8), (3, 8), (4, 8), (5, 0), (6, 8)]

/-- In its turn on either path, too early, too late. -/
theorem witness_CollectiveStart :
    (∀ e ∈ copCount, ∀ n ∈ [2, 8],
      let c := { coll0 (craw e.1 7 e.2) false with grants := [] }
      let s := collecting n 7 c
      s.checkColl 0 (leBytes 128 (craw e.1 7 e.2)) = none ∧
      s.live = true ∧ s.coll_ 5 = some c ∧ cop c.d = e.1 ∧ c.started = false ∧ c.ready = false ∧ s.serving c.part = true ∧
        s.swarm.turned = false ∧ s.storeUsed 0 = 0 ∧ s.storeUsed 1 = 0 ∧ s.storeUsed 2 = 0 ∧ s.collRuns = true ∧ s.waits = [] ∧ cseqOf c.d = (s.teamSeq (cteam c.d)).next ∧ 7 ∉ (s.teamSeq (cteam c.d)).aborted ∧
        s.earlyCodes c = [] ∧ (s.wentry 0 7).pieces = [] ∧ s.goneIn (csend c.d) (sendBytes c.d n 0) = false ∧
        s.goneIn (crecv c.d) (recvBytes c.d n) = false ∧ s.lostIn (csend c.d) (sendBytes c.d n 0) = false ∧
        s.resetHolds (crecv c.d) (recvBytes c.d n) = false ∧
        s.heldIn (csend c.d) (sendBytes c.d n 0) = false ∧ s.badWords (csend c.d) (sendBytes c.d n 0) = [] ∧ c.stage = 0 ∧ c.mask = [] ∧ (takesWaggle c.d n = (n == 8 && (e.1 == 1 || e.1 == 4 || e.1 == 5)))) ∧
      (collecting 8 6 (coll0 (craw 1 7 8) false)).future 0 7 = true ∧ (collecting 8 8 (coll0 (craw 1 7 8) false)).future 0 7 = false ∧
      (let t := collecting 8 7 (coll0 (craw 1 7 8) false); ({ t with swarm := { t.swarm with turned := true } } : State).swarm.turned = true) := by
  decide +kernel

/-- A send buffer on a device that is gone, with a lost line, and with a line that a host holds. -/
theorem witness_CollectiveStart_waits :
    let c := coll0 (craw 1 7 8) false
    let s := collecting 2 7 c
    let d := s.lineOf 0
    let gone := s.setDev d.1 { Dev.reset with retired := true }
    let lost := (s.setEpoch 0 { Epoch.reset with active := true }).setDev d.1 { Dev.reset with lost := [d.2] }
    let held := { s with link := { s.link with snoop := [(0, 0)] } }
    gone.live = true ∧ gone.goneIn 0 64 = true ∧ gone.substitutes 0 = false ∧ lost.live = true ∧ lost.lostIn 0 64 = true ∧
      lost.goneIn 0 64 = false ∧ held.live = true ∧ held.heldIn 0 64 = true ∧ held.heldLines 0 64 = [0] ∧
      csend c.d = 0 ∧ sendBytes c.d 2 0 = 64 := by decide +kernel

/-- The team that goes through an abort, and a code that came early. -/
theorem witness_CollectiveStart_ends :
    let c := coll0 (craw 1 7 8) false
    let s := collecting 8 7 c
    let a := s.setTeamSeq 0 { next := 7, aborted := [7] }
    let e := s.setWentry { team := 0, cseq := 7, mask := [(0, 1, 0)], pieces := [], codes := [3] }
    a.live = true ∧ 7 ∈ (a.teamSeq 0).aborted ∧ e.live = true ∧ (∃ k ∈ e.earlyCodes c, k ≠ agreement c.d (e.teamOf c)) := by
  decide +kernel

/-- A piece of stage 0 from rank 1. -/
def piece (code : Nat) (seq : Nat) : Packet :=
  pkt 13 0 (BitVec.ofNat 64 (seq + 1 * 2 ^ 42)) (BitVec.ofNat 32 code) 0 (List.replicate 32 0)

/-- A barrier in progress in stage 0. -/
def barrier : Coll := { coll0 (craw 5 7 0) true with waggle := true }

theorem witness_CollectivePackets_waggle :
    let s := collecting 8 8 barrier
    let g := agreement barrier.d (s.teamOf barrier)
    (∀ k ∈ [g, 0], ∀ q ∈ [7, 9, 3], Arrives s (piece k q) 13 0 ∧ FirstTime s (piece k q) ∧ longOk (piece k q) = true) ∧ g ≠ 0 ∧
      s.ownerReset = false ∧ s.running 0 7 = some barrier ∧ s.running 0 9 = none ∧ s.future 0 9 = true ∧ s.running 0 3 = none ∧
      s.future 0 3 = false ∧ (s.wentry 0 7).mask = [] ∧ (s.wentry 0 7).pieces = [] ∧ s.collRuns = true ∧ wirePieces barrier.d = 1 ∧
      stagePartners (s.teamOf barrier).size (s.rankIn barrier) 0 = [1] := by simp only [← arrives_iff, FirstTime]; decide +kernel

/-- An allgather of a team of two in progress; its first chunk is granted. -/
def gather : Coll := coll0 (craw 3 7 8) true

theorem witness_CollectivePackets_chunks :
    let s := collecting 2 8 gather
    let g := agreement gather.d (s.teamOf gather)
    let grant := fun k q => pkt 10 0 (BitVec.ofNat 64 (q + 1 * 2 ^ 56)) (BitVec.ofNat 32 k) 0 []
    let chunk := fun len i => pkt 9 4 (BitVec.ofNat 64 (7 + 1 * 2 ^ 37)) (BitVec.ofNat 32 (len + i * 2 ^ 13)) 1 bytes64
    (∀ k ∈ [g, 0], ∀ q ∈ [7, 3], Arrives s (grant k q) 10 0 ∧ FirstTime s (grant k q) ∧ shortOk (grant k q) = true) ∧
      (∀ len ∈ [64, 63], ∀ i ∈ [0, 1], Arrives s (chunk len i) 9 4 ∧ FirstTime s (chunk len i) ∧ coldataOk (chunk len i) = true) ∧
      s.running 0 7 = some gather ∧ gather.granted 0 1 = 1 ∧ chunkLen (recvSpan gather.d 2 (s.rankIn gather) 0 1).2 0 = 64 ∧
      creduces gather.d = false ∧ gather.waggle = false ∧ s.flips = [] ∧ s.frgs = [] ∧ s.link.snoop = [] ∧ s.link.bis = [] ∧ s.ownerReset = false ∧ s.swarm.turned = false ∧
      ((s.cell 0).frozen = 0 ∧ s.isAway 0 = false) ∧ (s.team 0).rankOf 9 = none := by
  simp only [← arrives_iff, FirstTime]; decide +kernel

/-- An allreduce whose partner's only piece of stage 0 is there, and one that lacks it. -/
theorem witness_CollectivePackets_residues :
    let c := { coll0 (craw 1 7 1) true with waggle := true, state := List.replicate 32 0 }
    let s := collecting 8 8 c
    let v := s.setWentry { team := 0, cseq := 7, mask := [(0, 1, 0)], pieces := [(0, 1, 0, List.replicate 32 0)], codes := [] }
    creduces c.d = true ∧ csyncs c.d = false ∧ (v.drive 5).summed 5 ≠ v.summed 5 ∧ (s.drive 5).summed 5 = s.summed 5 := by
  decide +kernel

/-- With a done object, and with a wait at and beyond the bound. -/
theorem witness_CollectiveCompletes :
    (∀ t ∈ [0, 100, 6553600], ∀ o ∈ [0, syncBase + 8],
      let c := { coll0 (craw 5 7 0 + o * 2 ^ 256) true with ready := true, lastTime := BitVec.ofNat 64 t }
      let s := collecting 8 8 c
      s.live = true ∧ s.coll_ 5 = some c ∧ s.link.bis = [] ∧ 5 < s.nextId ∧ s.cmd 1 = some (cmd1 1 2) ∧ dfield c.d 0x20 0 64 = o) ∧
      (collecting 8 8 barrier).syncRef 0 (syncBase + 8) = .loc 1 ∧
      (let c := { coll0 (craw 1 7 8) true with ready := true }
       let s := collecting 8 8 c
       s.live = true ∧ s.coll_ 5 = some c ∧ creduces c.d = true ∧ csyncs c.d = false) := by decide +kernel

/-- Teams of one and of 4,096; teams that the waggle path serves. -/
theorem witness_CollectiveTeams : 0 < 1 ∧ (∀ n ∈ [0, 8, 64, 128, 4096], inStages n = true) := by decide +kernel

/-- Module 0 has a role in a swarm of eight: module 1 manages it with deputy 2, or module 0 itself does; module 9 is a spare. -/
def swarming (role : Nat) : State :=
  { wide with swarm := { wide.swarm with
      role := role, manager := if role = 3 then 0 else 1, deputies := [if role = 2 then 0 else 2], hasDeputy := true, term := 4, admitted := true,
      members := [0, 1, 2, 3, 4, 5, 6, 7], spares := [9], admittedM := [1, 9] } }

/-- A SWARM packet from module `m`. -/
def swarmPkt (sub term m : Nat) (arg1 : BitVec 32) (data : List Byte) : Packet :=
  crcOk { pkt 14 0 (BitVec.ofNat 64 (sub + term * 2 ^ 8)) arg1 0 data with srcLog := BitVec.ofNat 12 m, srcPhys := BitVec.ofNat 12 m }

/-- Every subtype with the sender that may send it, in its term and in one before. -/
theorem witness_SwarmPackets :
    (∀ e ∈ [(1, 1, 1, false), (1, 2, 1, true), (3, 3, 3, true), (1, 4, 1, false), (1, 5, 2, false), (3, 6, 3, false), (1, 7, 3, true),
        (3, 8, 3, false)], ∀ term ∈ [3, 4, 5],
      let p := swarmPkt e.2.1 term e.2.2.1 0 (if e.2.2.2 then List.replicate 32 0 else [])
      let s := swarming e.1
      Arrives s p 14 0 ∧ FirstTime s p ∧ subtypeOf p = e.2.1 ∧ (if e.2.2.2 then longOk p else shortOk p) = true ∧ s.inRole = true ∧
        termOf p = term ∧ s.swarm.term = 4) ∧
      (swarming 1).fromManager (swarmPkt 1 4 1 0 []) = true ∧ (swarming 1).fromHeads (swarmPkt 2 4 1 0 []) = true ∧
      (swarming 1).fromHeads (swarmPkt 2 4 3 0 []) = false ∧ (swarming 3).fromSwarm (swarmPkt 3 4 3 0 []) = true ∧
      2 ∈ (swarming 1).swarm.deputies := by simp only [← arrives_iff, FirstTime]; decide +kernel

/-- A packet of a reserved subtype; a manager that hears of a newer term from a member; each cause of a notice; both results of an
admission. -/
theorem witness_SwarmPackets_more :
    (∀ k ∈ [0, 12], let p := swarmPkt k 4 3 0 []; Arrives (swarming 1) p 14 0 ∧ FirstTime (swarming 1) p ∧ subtypeOf p = k) ∧
      (swarming 3).swarm.role = 3 ∧ (swarming 3).swarm.term < termOf (swarmPkt 1 5 3 0 []) ∧ 3 ∈ (swarming 3).swarm.members ∧
      (swarming 3).fab.logical.toNat ≠ 3 ∧ ¬ (swarming 3).swarm.term < termOf (swarmPkt 1 4 3 0 []) ∧
      (∀ k ∈ [1, 2, 5, 3, 17, 37], Arrives (swarming 3) (swarmPkt 6 4 3 (BitVec.ofNat 32 k) []) 14 0) ∧
      (∀ k ∈ [3, 4], let n := BitVec.ofNat 32 (k + 256 * 6); let e := { Epoch.reset with step := 3, epoch := 6, committed := 5 }
        ∀ r ∈ [1, 3], let s := (swarming r).setEpoch 0 e; let p := swarmPkt 6 4 (if r = 3 then 3 else 1) n []
        Arrives s p 14 0 ∧ FirstTime s p ∧ (if s.swarm.role = 3 then s.fromSwarm p else s.fromManager p) = true ∧ tellsAbandon p = true ∧
          (s.epochOf s.owner).step ≠ 0 ∧ (s.epochOf s.owner).epoch % 2 ^ 24 = bits p.arg1.toNat 8 24) ∧
      (∀ k ∈ [0, 1], Arrives (swarming 1) (swarmPkt 4 4 1 (BitVec.ofNat 32 k) []) 14 0) := by
  simp only [← arrives_iff, FirstTime]; decide +kernel

/-- A member of the team aborts, and a module that has no role. -/
theorem witness_SwarmPackets_others :
    let c := collecting 8 8 barrier
    (((c.team 0).rankOf 3).isSome = true) ∧ (swarming 0).inRole = false ∧
      operandF (swarmPkt 3 4 3 0 (leBytes 32 (live.arev))) 0 2 = (swarming 3).arev ∧
      operandF (swarmPkt 3 4 3 0 (leBytes 32 (live.arev + 1))) 0 2 ≠ (swarming 3).arev := by decide +kernel

/-- The last entry: failed, given to this spare, and taken from this module. -/
theorem witness_RoutesInEffect :
    let s := { swarming 4 with fab := { (swarming 4).fab with logical := 9 } }
    let t := { swarming 1 with fab := { (swarming 1).fab with logical := 4095 } }
    4095 < 4096 ∧ (0#12) = s.fab.phys ∧ s.fab.logical.toNat ≠ 4095 ∧ s.swarm.role = 4 ∧ (1#12) ≠ t.fab.phys ∧
      t.fab.logical.toNat = 4095 := by decide +kernel

/-- A worker, a deputy whose manager is silent, a worker without a deputy, and a manager with failed members, with and without a
spare. -/
theorem witness_SwarmFailures :
    let d := (swarming 2).setMissed 1 3
    let n := { (swarming 1).setMissed 1 3 with swarm := { ((swarming 1).setMissed 1 3).swarm with hasDeputy := false } }
    let m := (swarming 3).setMissed 7 3
    (∀ r ∈ [1, 2, 3, 4], (swarming r).live = true ∧ (swarming r).inRole = true ∧ (swarming r).swarm.hbStopped = false) ∧
      d.live = true ∧ d.swarm.role = 2 ∧ d.swarm.admitted = true ∧ 3 ≤ d.missedOf d.swarm.manager ∧
      d.fab.logical.toNat ∈ d.swarm.deputies ∧ d.swarm.manager ≠ d.fab.logical.toNat ∧ n.live = true ∧ n.inSwarm = true ∧
      n.swarm.role ≠ 3 ∧ n.deputy = none ∧ 3 ≤ n.missedOf n.swarm.manager ∧ n.swarm.headless = false ∧ m.live = true ∧ 7 ∈ m.swarm.members ∧
      7 ∉ m.swarm.failed ∧ 7 ∉ m.swarm.spares ∧ m.failCause 7 = some 1 ∧ m.nextSpare = some 9 := by decide +kernel

/-- A new manager, one of whose packets is not acknowledged yet, and its acknowledgement. -/
theorem witness_SwarmFailures_takeover :
    let r := rtx0 (away 14 0)
    let u := swarming 3
    let s := { u with swarm := { u.swarm with taking := some 1 }, fab := { u.fab with rtx := [r] } }
    let p := crcOk { pkt 4 2 1 0 0 [] with srcLog := 9 }
    Arrives s p 4 2 ∧ s.swarm.taking = some 1 ∧ s.swarm.pending = [] ∧ s.fab.rtx = [r] ∧ r.pkt.dstLog = p.srcLog ∧
      r.pkt.cls.toNat = p.arg1.toNat % 8 ∧ r.pkt.seq = p.seq ∧ p.arg0 = 1 ∧ s.live = true := by
  simp only [← arrives_iff]; decide +kernel

theorem witness_SwarmFailures_none :
    let m := (swarming 3).setMissed 7 3
    let s := { m with swarm := { m.swarm with spares := [], hasDeputy := false } }
    s.live = true ∧ s.swarm.role = 3 ∧ s.failCause 7 = some 1 ∧ s.nextSpare = none ∧ s.deputy = none := by decide +kernel

/-- QUENCH of action 1 and 2, reasons 1 and 2, from the manager and from a member, in its term and in one before. -/
theorem witness_QuenchPackets :
    (∀ a ∈ [0, 1, 2, 3], ∀ r ∈ [1, 2], ∀ m ∈ [1, 3], ∀ term ∈ [3, 4],
      let p := crcOk { pkt 11 0 (BitVec.ofNat 64 (a + r * 2 ^ 8 + term * 2 ^ 16)) 0 0 [] with srcLog := BitVec.ofNat 12 m }
      let s := swarming 1
      Arrives s p 11 0 ∧ FirstTime s p ∧ shortOk p = true ∧ quenchAct p = a ∧ quenchReason p = r ∧ s.inRole = true ∧
        s.fromHeads p = (m == 1) ∧ (s.epochOf s.owner).recStep ≤ 5 ∧ s.boot.oscHeld = false) ∧
      (let s := (swarming 1).setEpoch 0 { Epoch.reset with recStep := 2 }; s.live = true ∧ (s.epochOf s.owner).recStep ≠ 0) := by
  simp only [← arrives_iff, FirstTime]; decide +kernel

/-! ### Power, cooling, start and placement -/

/-- `live` with another power state. -/
def powered (q : Power) : State := { live with power := q }

/-- A module in standby: its main domain is off. -/
def standby : State := { State.reset with boot := { Boot.reset with standby := true } }

/-- The causes of the low caps. -/
theorem witness_EffectiveCap :
    let q := live.power
    (∀ x ∈ [{ q with brake := true }, { q with vinBrake := true }, { q with fastCut := true }],
      ((powered x).power.brake = true ∨ (powered x).power.vinBrake = true ∨ (powered x).power.fastCut = true)) ∧
      (powered { q with coast := true }).power.coast = true ∧ (powered { q with guarded := true }).power.guarded = true ∧
      live.caps[0]?.isSome = true ∧ ∃ c ∈ live.caps, c.1 = live.cap := by decide +kernel

/-- The pin asserted and released, live and in standby; a release before and after 1 ms. -/
theorem witness_Brake :
    let q := { live.power with brakePin := true, brake := true, brakeAt := 0 }
    let late := { powered q with dbg := { live.dbg with aon := [(63, 100000)] } }
    live.live = true ∧ live.power.brakePin = false ∧ live.power.vinBrake = false ∧ standby.boot.standby = true ∧
      standby.live = false ∧ standby.power.brakePin = false ∧ (powered q).boot.standby = true ∧ (powered q).power.brakePin = true ∧
      (powered q).brakeHeld = false ∧ late.live = true ∧ late.brakeHeld = true ∧
      (powered { live.power with vinBrake := true }).live = true := by decide +kernel

/-- Die 0 above, at and 3 °C below its target; a brake in force. -/
theorem witness_Governor :
    let at_ := fun (t : Int) => powered { live.power with sensors := [(0, { temp := t, state := 0, returns := [], since := none }),
      (1, { temp := t, state := 2, returns := [], since := none }), (2, { temp := t, state := 2, returns := [], since := none })] }
    let target : Int := 16 * (live.barF 0x050028 0 8 : Nat)
    live.live = true ∧ live.power.running = true ∧ (∀ t ∈ [target + 1, target, target - 47, target - 48],
      (at_ t).live = true ∧ (at_ t).hottest 0 = some t) ∧
      (∀ i ∈ [0, railMax 0 * 1000], let r : PowerReading := ⟨48000, 0, (800, i) :: List.replicate 170 (800, 0), [(0, 0), (0, 0)]⟩
        readingOk r = true ∧ (live.railLimit 0 ≤ railCurrent r 0) = (i ≠ 0)) ∧ live.power.brake = false ∧ live.power.vinBrake = false ∧
      (powered { live.power with brake := true }).live = true ∧ (powered { live.power with brake := true }).braking = true ∧
      live.braking = false ∧ live.railAmps 0 ≠ 0 ∧
      (let s := { powered { live.power with fastCut := true, fastAt := 0 } with dbg := { live.dbg with aon := [(63, 100000)] } }
       s.live = true ∧ s.power.running = true ∧ s.power.fastCut = true ∧ s.fastHeld = true) ∧
      (powered { live.power with fastCut := true }).fastHeld = false := by decide +kernel

/-- A command runs when the off order's time ends; every record is written, after an off order and after a graver one. -/
theorem witness_OffOrders :
    (∀ k ∈ [1, 4], let s := powered { live.power with draining := true, offKind := k }
      s.live = true ∧ s.power.draining = true ∧ s.recordsWritten = true ∧ s.power.offKind = k) ∧
      (let s := { powered { live.power with draining := true } with cmds := [cmd1 1 3] }
       s.live = true ∧ (∃ c ∈ s.cmds, c.phase = .started) ∧ (s.cmds.map Cmd.id).Nodup ∧ s.fdescs = []) ∧
      (let s := { live with boot := { live.boot with step := 8 } }
       s.boot.standby = true ∧ s.boot.pwrEn = true ∧ s.power.running = true ∧ s.boot.step = 8 ∧ (s.cmds.map Cmd.id).Nodup) := by
  decide +kernel

/-- At the tolerance and dwell of each depth, and one µs below. -/
theorem witness_IdleDepths :
    let s := fun (t : Nat) => { wide with bar := Tab.set regReset setUp 0x050100 (BitVec.ofNat 64 t) }
    (s 1).depthFor 0 0 = 1 ∧ (s 0).depthFor 0 0 = 0 ∧ (s 20).depthFor 0 100 = 2 ∧ (s 20).depthFor 0 99 = 1 ∧
      (s 400).depthFor 0 2000 = 3 ∧ (s 30000).depthFor 0 100000 = 4 ∧ (s 29999).depthFor 0 100000 = 3 ∧ (s 1).live = true ∧
      (s 1).power.running = true ∧ 0 ∈ (s 1).boot.ready ∧ (s 1).idlePart 0 = true ∧ 0 ∉ (s 1).power.waking ∧
      Tab.get (fun _ => 0) (s 1).power.depth 0 < (s 1).depthFor 0 0 ∧ (s 30000).seams = [] ∧ (s 30000).fab.waiting = [] ∧
      (s 30000).fab.transitAt = none ∧
      (let t := powered { live.power with depth := [(0, 3)] }; t.live = true ∧ Tab.get (fun _ => 0) t.power.depth 0 ≠ 0) ∧
      (let t := powered { live.power with depth := [(0, 4)], waking := [0] }; t.live = true ∧ 0 ∈ t.power.waking) := by decide +kernel

/-- Readings at the bounds of what silicon can have, and of the trip; a sensor that may return, and one that has returned three
times. -/
theorem witness_DieSensors :
    let dies := fun (x : Reading) => (x :: List.replicate 59 (some 400) : List Reading)
    let back := fun n => { powered { live.power with sensors := [(0, { temp := 0, state := 1, returns := List.replicate n 0, since := some 0 })] } with dbg := { live.dbg with aon := [(63, BitVec.ofNat 64 minuteTicks)] } }
    live.live = true ∧ (dies none).length = 60 ∧ (dies none)[0]? = some none ∧ (∀ x ∈ [-321, 2401], (dies (some x))[0]? = some (some x)) ∧
      (∀ x ∈ [-320, 1760, 2400], (dies (some x))[0]? = some (some x) ∧ (live.sensor 0).state = 0) ∧
      (∀ j, j < 60 → (live.sensor j).state = 0) ∧ (back 2).live = true ∧ ((back 2).sensor 0).state = 1 ∧
      ((back 2).sensor 0).since = some 0 ∧ minuteTicks ≤ ((back 2).now - 0).toNat ∧ (back 2).returnsOf ((back 2).sensor 0) < 3 ∧ 3 ≤ (back 3).returnsOf ((back 3).sensor 0) := by decide +kernel

/-- The pin, a rise and an inlet above their limits, and a coast without a cause. -/
theorem witness_Coolant :
    let q := live.power
    standby.boot.standby = true ∧ standby.power.coolPin = false ∧ standby.live = false ∧
      (powered { q with coolPin := true }).boot.standby = true ∧ live.live = true ∧ live.power.coolPin = false ∧
      live.power.riseHigh = false ∧
      (let s := powered { q with outlet := 321, inlet := 0 }; 16 * (s.power.riseMax : Int) < s.power.outlet - s.power.inlet) ∧
      (let s := powered { q with coast := true }; s.live = true ∧ s.power.coolPin = false ∧ s.power.riseHigh = false ∧
        s.power.inletOk = true ∧ s.power.outletOk = true) ∧
      (let s := powered { q with inlet := 721 }; s.live = true ∧ 16 * (s.power.inletMax : Int) < s.power.inlet ∧
        s.power.hot = none ∧ (s.cmds.map Cmd.id).Nodup) := by decide +kernel

/-- Dry and live; an input isolated in service and during a start; the first and the last regulator phase. -/
theorem witness_LeaksAndInput :
    live.boot.standby = true ∧ live.power.leakWet = false ∧ live.boot.mainOn = true ∧ live.live = true ∧
      (let s := { standby with boot := { standby.boot with step := 3 } }; s.boot.standby = true ∧ 3 ≤ s.boot.step ∧ s.boot.step < 8) ∧
      (∀ k ∈ [0, 170], k ∉ live.power.phases) ∧ (powered { live.power with guarded := true, leakPass := 2 }).boot.standby = true := by
  decide +kernel

/-- A minute without contact, and one tick less. -/
theorem witness_SilentAuthority :
    let s := fun n => { live with dbg := { live.dbg with aon := [(63, BitVec.ofNat 64 n)] } }
    (s minuteTicks).boot.standby = true ∧ (s minuteTicks).power.hold = false ∧
      minuteTicks ≤ ((s minuteTicks).now - (s minuteTicks).mgmt.lastHost).toNat ∧
      minuteTicks ≤ ((s minuteTicks).now - (s minuteTicks).mgmt.lastRack).toNat ∧
      ((s (minuteTicks - 1)).now - (s (minuteTicks - 1)).mgmt.lastHost).toNat < minuteTicks ∧ live.live = true ∧ 0 < live.parts ∧
      1 < two.parts ∧ two.live = true := by decide +kernel

/-- What a start finds with everything in order. -/
def finds : StartFinds :=
  { imageA := true, imageB := true, railsOk := true, refOk := true, vinOk := true, coolOk := true, badPhases := [], badRows := [],
    corrected := [],
    badDevs := [], badCells := [], badCombs := [], badFrgs := [] }

/-- No image, bank A, bank B alone; coolant at and above 45 °C; an off order; a record of an earlier test. -/
theorem witness_Starts :
    standby.boot.standby = true ∧ standby.boot.mainOn = false ∧ standby.boot.pwrEn = false ∧ standby.mgmt.trial = false ∧
      standby.newStart.startBank { finds with imageA := false, imageB := false } = none ∧
      (standby.newStart.startBank finds).isSome = true ∧
      (standby.newStart.startBank { finds with imageA := false }).isSome = true ∧ standby.power.coolPin = false ∧ standby.power.inlet ≤ 720 ∧
      standby.power.rackOn = true ∧ standby.boot.recValid = false ∧ standby.barB startKey 1 = false ∧
      (let s := { standby with boot := { standby.boot with recValid := true }, bar := [(startKey, 1)] }
       s.boot.standby = true ∧ s.boot.recValid = true ∧ s.barB startKey 0 = true ∧ s.barB startKey 1 = false) ∧
      (let s := { standby with power := { standby.power with inlet := 721 } }; s.boot.standby = true ∧ 720 < s.power.inlet) ∧
      (let s := { standby with power := { standby.power with rackOn := false } }; s.boot.standby = true ∧ s.power.rackOn = false) ∧
      (let s := { live with boot := { live.boot with pwrEn := false } }; s.boot.standby = true ∧ s.boot.mainOn = true) := by
  decide +kernel

/-- The first and the last logical cell: nothing bad, its own cell bad, it and the spare, it and one before it, its comb. -/
theorem witness_TablesBuilt :
    (∀ n ∈ [0, 511], n / 8 ∉ ([] : List Nat) ∧ physNum (n / 8 / 8) (n / 8 % 8) (n % 8) ∈ [physNum (n / 8 / 8) (n / 8 % 8) (n % 8)] ∧
      physNum (n / 8 / 8) (n / 8 % 8) 8 ∉ [physNum (n / 8 / 8) (n / 8 % 8) (n % 8)]) ∧
      (∀ i, i < 7 → physNum 7 7 i ∉ [physNum 7 7 7]) ∧ physNum 7 7 0 ∈ [physNum 7 7 0, physNum 7 7 7] := by decide +kernel

/-- A go, a go during a read, and a descriptor that fails its first check: no data, or too short. (Whether a descriptor passes its
check 7 is for the signature scheme, which the model leaves open.) -/
theorem witness_Placements :
    let s := { live with place := { live.place with busy := true, length := 0x10000 } }
    live.live = true ∧ live.place.busy = false ∧ 2 ^ 18 - 1 < 2 ^ 18 ∧ s.live = true ∧ s.place.busy = true ∧ s.fab.placed = false ∧
      s.checkPlacement false [] = some (1, 0) ∧ s.checkPlacement true (List.replicate 64 0) = some (1, 0) ∧
      (List.replicate 64 (0 : Byte)).length < 0x10000 := by decide +kernel

/-! ### Epochs, repair and recovery -/

/-- Partition 0 with an epoch control. -/
def epoch (e : Epoch) : State := wide.setEpoch 0 e

/-- `s` at a time. -/
def at_ (s : State) (n : Nat) : State := { s with dbg := { s.dbg with aon := [(63, BitVec.ofNat 64 n)] } }

/-- A pulse is due with none before, 1 ms after one, and one tick less; an edge requests boundaries. -/
theorem witness_SyncPins :
    let s := fun t n => at_ { wide with pins := { wide.pins with due := true, edgeAt := t } } n
    (let u := { wide with fab := { wide.fab with placed := false } }
     u.boot.standby = true ∧ u.fab.placed = false) ∧
      (s none 0).live = true ∧ (s none 0).pins.due = true ∧ (s none 0).pins.edgeAt = none ∧
      ((s (some 5) 100005).now - 5).toNat = 100000 ∧ (s (some 5) 100005).live = true ∧ ((s (some 5) 100004).now - 5).toNat < 100000 ∧
      (let b := { wide with bar := Tab.set regReset setUp 0x060000 (2 ^ 30 + 10) }
       b.live = true ∧ b.fab.placed = true ∧ b.barB 0x060000 30 = true ∧ b.inSwarm = false ∧ 0 < b.parts) := by decide +kernel

/-- The premises of every clause. -/
def alone (s : State) : Prop :=
  s.live = true ∧ 0 < s.parts ∧ s.inSwarm = false ∧ s.power.running = true ∧ s.inReset 0 = false

/-- Boundaries: at 1.5 times the epoch length and one tick less; taken at a quarter of it and at once where it is urgent. -/
theorem witness_EpochSteps_boundary :
    let c := epoch { Epoch.reset with lastCut := some 0 }
    let r := epoch { Epoch.reset with lastCut := some 0, requested := true }
    let k := wide.epochTicks
    alone (at_ c (k * 3 / 2)) ∧ (at_ c (k * 3 / 2)).sinceCut 0 (k * 3 / 2) = true ∧ alone (at_ c (k * 3 / 2 - 1)) ∧
      (at_ c (k * 3 / 2 - 1)).sinceCut 0 (k * 3 / 2) = false ∧ alone (at_ r (k / 4)) ∧ (at_ r (k / 4)).sinceCut 0 (k / 4) = true ∧
      (at_ r (k / 4)).epochTicks = k ∧ ((at_ r (k / 4)).epochOf 0).requested = true ∧
      alone (epoch { Epoch.reset with requested := true, urgent := true }) := by unfold alone; decide +kernel

/-- A signal has been issued and not been applied in `s`. -/
def signalling (s : State) : State := { s with sigs := [sig0] }

/-- Drain and cut: a clean point, an engine that has not reached it, the barrier complete. -/
theorem witness_EpochSteps_cut :
    alone (epoch { Epoch.reset with taken := true }) ∧ alone (epoch { Epoch.reset with step := 1 }) ∧
      (epoch { Epoch.reset with step := 1 }).drained 0 = true ∧ (signalling (epoch { Epoch.reset with step := 1 })).drained 0 = false ∧
      alone (signalling (epoch { Epoch.reset with step := 1 })) ∧ alone (epoch { Epoch.reset with step := 1, contrib := true, stage := 5 }) ∧
      (∀ k ∈ [2, 3], alone (epoch { Epoch.reset with step := k })) ∧ ¬ wide.mgmt.fwState = 5 ∧
      (∀ k ∈ [2, 3], alone (epoch { Epoch.reset with step := k, contrib := true, stage := 5 })) := by unfold alone; decide +kernel

/-- The copy: done, with its header written and not; still busy; and without a lining. -/
theorem witness_EpochSteps_commit :
    (∀ w ∈ [true, false], alone (epoch { Epoch.reset with step := 3, active := true, written := w }) ∧
      (epoch { Epoch.reset with step := 3, active := true, written := w }).liningBusy 0 = false ∧
      (epoch { Epoch.reset with step := 3, active := true, written := w }).linOn 0 = true ∧
      (epoch { Epoch.reset with step := 3, active := true, written := w }).mapsClear 0 = true) ∧
      (epoch { Epoch.reset with step := 3 }).linOn 0 = false ∧
      (let s := { epoch { Epoch.reset with step := 3 } with
          far := [{ far1 true false with owner := .lining 0 0 }] }
       alone s ∧ s.liningBusy 0 = true) := by unfold alone; decide +kernel

/-- A MARKER. -/
def marker (cls step term m arg1 : Nat) : Packet :=
  crcOk { pkt 12 cls (BitVec.ofNat 64 (step + term * 2 ^ 8)) (BitVec.ofNat 32 arg1) 0 [] with srcLog := BitVec.ofNat 12 m }

/-- A swarm of three with routes, whose manager is module 1; partition 0 is in a step of its cut. -/
def cutting (step : Nat) : State :=
  let s := swarming 1
  { s with
    swarm := { s.swarm with members := [0, 1, 2] },
    fab := { s.fab with routes := [(0, ⟨true, 0, 1⟩), (1, ⟨true, 1, 1⟩), (2, ⟨true, 2, 1⟩)] },
    epochs := [(0, { Epoch.reset with step := step, contrib := true })] }

/-- Each step with the class, term and sender that it needs, and with another. -/
theorem witness_Markers :
    (∀ k ∈ [1, 2, 3, 4],
      Arrives (cutting (k - 1)) (marker 0 k 4 1 1) 12 0 ∧ FirstTime (cutting (k - 1)) (marker 0 k 4 1 1) ∧
        shortOk (marker 0 k 4 1 1) = true ∧ bits (marker 0 k 4 1 1).arg0.toNat 0 8 = k ∧ (cutting (k - 1)).markerOk (marker 0 k 4 1 1) = true ∧
        (cutting (k - 1)).markerOk (marker 0 k 3 1 1) = false ∧ (cutting (k - 1)).markerOk (marker 0 k 4 3 1) = false ∧
        FirstTime (cutting (k - 1)) (marker 0 k 4 3 1) ∧ (marker 3 k 4 1 1).cls ≠ 0 ∧ (marker 3 k 4 1 1).type.toNat = 12) ∧
      (cutting 0).withSwarm 0 = true ∧ inStages (cutting 0).ranks.length = false ∧ ((cutting 0).epochOf 0).step = 0 ∧
      ((cutting 0).epochOf 0).recStep = 0 ∧ (marker 0 1 4 1 1).arg1.toNat = (((cutting 0).epochOf 0).committed + 1) % 2 ^ 32 ∧
      (cutting 0).swarm.role ≠ 3 ∧ (marker 0 2 4 1 1).srcLog.toNat = (cutting 1).swarm.manager ∧ ((cutting 1).epochOf 0).stage = 0 ∧
      ((cutting 1).epochOf 0).freezing = false := by simp only [← arrives_iff, FirstTime]; decide +kernel

/-- A manager hears a marker of a newer term from a member, and one of a reserved step. -/
theorem witness_Markers_newer :
    let s := { cutting 0 with swarm := { (cutting 0).swarm with role := 3, manager := 0, deputies := [2] } }
    (∀ k ∈ [1, 2, 3, 4], Arrives s (marker 0 k 5 1 1) 12 0 ∧ FirstTime s (marker 0 k 5 1 1) ∧ shortOk (marker 0 k 5 1 1) = true ∧
      s.swarm.term < bits (marker 0 k 5 1 1).arg0.toNat 8 32 ∧ (marker 0 k 5 1 1).srcLog ≠ s.fab.logical ∧
      (marker 0 k 5 1 1).srcLog.toNat ∈ s.swarm.members) ∧
      (∀ k ∈ [0, 5], Arrives s (marker 0 k 4 1 1) 12 0 ∧ FirstTime s (marker 0 k 4 1 1)) := by
  simp only [← arrives_iff, FirstTime]; decide +kernel

/-- An epoch is abandoned with a granule of cell 0 frozen. -/
theorem witness_EpochAbandoned :
    let s := (epoch { Epoch.reset with step := 3, active := true }).setCell 0 { Cell.reset with frozen := 5 }
    (s.epochOf 0).step ≠ 0 ∧ 0 ∈ s.cellsOf 0 ∧ (s.cell 0).frozen.getLsbD 2 = true := by decide +kernel

/-- Granule 0 is lost, with an epoch in progress and with none. -/
theorem witness_Repairs :
    (∀ k ∈ [1, 3], let s := epoch { Epoch.reset with active := true, state := k, lostU := [.granule 0] }
      s.live = true ∧ s.epochRuns 0 = true ∧ s.link.up = true ∧ Lost.granule 0 ∈ (s.epochOf 0).lostU ∧
        (s.epochOf 0).recWant = false ∧ s.linDrains 0 = false ∧ (s.slotBytes 0 0).length = 4096 ∧
        s.mayRepair 0 [0] = (k == 1)) ∧
      ((epoch { Epoch.reset with active := true, state := 1, lostU := [.granule 0], recWant := true }).epochOf 0).recWant = true := by decide +kernel

/-- What a cut has captured. -/
def ctx0 : Ctx :=
  { epoch := 0, cells := [], sync := [(3, 9)], waits := [], rings := [], cmds := [], fdescs := [], frgs := [], coll := CollEng.reset,
    tx := [], rx := [], issued := [], acked := [], bar := [], intakeNo := 0, intakePos := 0, effectPos := 0, effects := 0, at_ := 0 }

/-- A recovery begins, with a lining and without one; it restores, replays and ends. -/
theorem witness_RecoverySteps :
    (∀ a ∈ [true, false], let s := epoch { Epoch.reset with recWant := true, active := a }
      s.live = true ∧ s.epochRuns 0 = true ∧ s.inSwarm = false ∧ s.gensFree (s.enginesOf 0) = true ∧ s.linSafe 0 = a) ∧
      (let s := epoch { Epoch.reset with recStep := 4, active := true, ctx := [(0, some ctx0)] }
       s.live = true ∧ s.epochRuns 0 = true ∧ s.link.up = true ∧ s.linDrains 0 = false ∧ s.inSwarm = false ∧ (s.epochOf 0).spareM = s.fab.logical.toNat ∧
        (s.epochOf 0).failedM = s.fab.logical.toNat ∧ (s.epochOf 0).others = [] ∧ s.awaitsNumber 0 = false ∧
        Tab.get (fun _ => none) (s.epochOf 0).ctx ((s.epochOf 0).target % 2) = some ctx0 ∧ Tab.wf (fun _ => 0) ctx0.sync = true) ∧
      (∀ k ∈ [5, 6], let s := epoch { Epoch.reset with recStep := k, active := true }
        s.live = true ∧ s.epochRuns 0 = true ∧ s.inSwarm = false ∧ (s.epochOf 0).recStep = k ∧ (s.epochOf 0).replay = [] ∧
          (s.epochOf 0).replayEff = []) := by decide +kernel

/-- The three packets of a recovery, from one that may send them, and subtype 9 from one that may not. -/
theorem witness_RecoveryPackets :
    (∀ e ∈ [(1, 9, 1), (1, 9, 3), (3, 10, 3), (3, 11, 3)],
      let q := swarmPkt e.2.1 4 e.2.2 3 (if e.2.1 = 9 then leBytes 32 2 else [])
      let s := swarming e.1
      Arrives s q 14 0 ∧ FirstTime s q ∧ s.inRole = true ∧ s.swarm.term ≤ termOf q ∧ subtypeOf q = e.2.1 ∧
        (if e.2.1 = 9 then longOk q else shortOk q) = true ∧ (e.1 = 3 → s.fromSwarm q = true) ∧ (s.epochOf 0).recStep ≠ 5 ∧ s.owner = 0) ∧
      (swarming 1).fromHeads (swarmPkt 9 4 1 3 []) = true ∧ (swarming 1).fromHeads (swarmPkt 9 4 3 3 []) = false := by
  simp only [← arrives_iff, FirstTime]; decide +kernel

/-! ### Resets, watchdogs and heartbeats -/

/-- A reset has been asked for. -/
def asking (d n : Nat) : State := { wide with resets := { wide.resets with busy := true, request := some (d, n) } }

/-- A reset is in progress. -/
def underReset (d n : Nat) (late : Bool) : State :=
  { wide with
    boot := { wide.boot with ready := [] },
    resets := { wide.resets with busy := true, request := some (d, n), running := [{ domain := d, number := n, late := late }] } }

/-- The first and the last unit of each domain. -/
theorem witness_UnitResets :
    wide.live = true ∧ wide.power.running = true ∧
      (∀ n ∈ [0, 511], (asking 0 n).live = true ∧ (asking 0 n).power.running = true ∧ (asking 0 n).asked 0 n = true ∧
        (asking 0 n).resetTargets n = [n]) ∧
      (∀ k ∈ [0, 63], (asking 1 k).live = true ∧ (asking 1 k).asked 1 k = true ∧ wide.asked 1 k = false ∧ wide.asked 0 k = false) ∧
      (∀ n, n < 512 → (asking 1 0).guestOf n = none) ∧ (wide.remapOf 511).state ≤ 1 := by decide +kernel

/-- A partition reset asked for and by function level reset; resets of every domain that end, and one whose time is up. -/
theorem witness_PartitionResets :
    (asking 2 0).live = true ∧ (asking 2 0).power.running = true ∧ (asking 2 0).asked 2 0 = true ∧ 0 < wide.parts ∧
      wide.inReset 0 = false ∧
      (∀ e ∈ [(0, 511), (1, 63), (2, 0), (3, 0)], ∀ late ∈ [true, false],
        let s := underReset e.1 e.2 late
        let r : ResetIn := { domain := e.1, number := e.2, late := late }
        s.live = true ∧ domainOk e.1 e.2 = true ∧ (s.resets.running.filter fun r => r.domain == e.1 && r.number == e.2) = [r] ∧
          s.link.held = [] ∧ s.domainPending r = 0 ∧ s.gensFree (s.resetEngines r) = true ∧ s.boot.zeroFill = [] ∧
          s.resets.request = some (e.1, e.2)) ∧
      (let s := signalling (underReset 2 0 false)
       s.live = true ∧ s.domainPending { domain := 2, number := 0, late := false } ≠ 0 ∧
         s.gensFree (s.resetEngines { domain := 2, number := 0, late := false }) = true) := by decide +kernel

/-- Asked for, and the reference back. -/
theorem witness_WholeModuleReset :
    (asking 3 0).live = true ∧ (asking 3 0).asked 3 0 = true ∧ (asking 3 0).barB 0x07A008 0 = false ∧
      (let s := { wide with boot := { wide.boot with refOk := false } }
       s.live = true ∧ s.boot.refOk = false ∧ s.resetting 3 0 = false) := by decide +kernel

/-- A command expires: with a lining, for the second time, without a lining, and while watchdogs are paused. -/
theorem witness_Watchdogs :
    let e := fun (x : Epoch) => { (holding [cmd1 1 (2 + 1 * 2 ^ 64)]).setEpoch 0 x with resets := { wide.resets with wdog := [(1, 100)] } }
    let k := cmd1 1 (1 + 1 * 2 ^ 64)
    let kernel := { (holding [k]).setEpoch 0 { Epoch.reset with active := true, first := false } with
                    resets := { wide.resets with wdog := [(1, 100)] } }
    (∀ a ∈ [true, false], (e { Epoch.reset with active := a }).live = true ∧
      (e { Epoch.reset with active := a }).cmd 1 = some (cmd1 1 (2 + 1 * 2 ^ 64)) ∧ (e { Epoch.reset with active := a }).watchPaused 0 = false ∧
      (e { Epoch.reset with active := a }).linSafe 0 = a) ∧ (cmd1 1 (2 + 1 * 2 ^ 64)).phase = .started ∧ kclass (cmd1 1 (2 + 1 * 2 ^ 64)).d ≠ 1 ∧
      (e Epoch.reset).budget (cmd1 1 (2 + 1 * 2 ^ 64)) = 100 ∧ (e Epoch.reset).counted 1 = 100 ∧
      (holding [cmd1 1 (2 + 1 * 2 ^ 64)]).counted 1 = 0 ∧ kernel.live = true ∧ kernel.cmd 1 = some k ∧ kclass k.d = 1 ∧
      kernel.linSafe 0 = true ∧ kernel.watchPaused 0 = false ∧ kernel.budget k = 100 ∧
      (e { Epoch.reset with frozen := true }).watchPaused 0 = true ∧
      (let s := { e { Epoch.reset with active := true } with resets := { wide.resets with wdog := [(1, 100)], expired := [(0, [0])] } }
       s.live = true ∧ s.watchPaused 0 = false ∧ (cmd1 1 (2 + 1 * 2 ^ 64)).intake ∈ Tab.get (fun _ => []) s.resets.expired 0) := by decide +kernel

/-- Silent for 3.0 ms, and one tick less; every kind of sender. -/
theorem witness_Heartbeats :
    let s := at_ wide 300000
    let t := at_ wide 299999
    s.live = true ∧ s.power.running = true ∧ s.boot.refOk = true ∧
      (∀ k ∈ [Beater.cell, .forager, .steward, .sequencer, .processor, .link], beaterOk k 0 = true ∧ s.beats k 0 = true) ∧
      (∀ n ∈ [0, 511], (s.remapOf n).state ≤ 1 ∧ s.insideOf n = n ∧ s.silent (s.remapOf n).phys = true ∧ s.resettingCell n = false ∧
        t.silent (t.remapOf n).phys = false) ∧ t.live = true ∧
      (∀ f ∈ [0, 31], (s.frg f).retired = false ∧ s.silent (frgUnit f) = true ∧ t.silent (frgUnit f) = false ∧
        (s.countsOf 0 (frgUnit f)).length + 1 < s.barF (escKey 0) 0 4) ∧
      (∀ k ∈ [Controller.steward, .sequencer, .processor, .link], controllerOk k 0 = true ∧ s.beats (controllerSender k) 0 = true ∧
        s.silent (beatKey (controllerSender k) 0) = true ∧ t.silent (beatKey (controllerSender k) 0) = false) := by decide +kernel

/-- Each domain, with the thresholds and windows of reset. -/
theorem witness_ResetCounts :
    (∀ d ∈ [0, 1, 2, 3], d < 4 ∧ 0 < wide.barF (escKey d) 8 11) := by decide +kernel

/-- A rail at its limit in each of the last twenty windows. -/
def railStuck : State :=
  let r : PowerReading := ⟨48000, 0, (800, railMax 0 * 1000) :: List.replicate 170 (800, 0), [(0, 0), (0, 0)]⟩
  { live with power := { live.power with wins := List.replicate 20 r } }

/-- Each trigger; a trip that is due, and one that is not. -/
theorem witness_FatalStop :
    (List.replicate 8768 (0 : Byte)).length = 8768 ∧ live.live = true ∧ live.boot.tripDue = false ∧
      live.railsStuck = [] ∧ railStuck.live = true ∧ railStuck.railsStuck ≠ [] ∧
      (let s := { live with boot := { live.boot with tripDue := true } }; s.live = true ∧ s.boot.tripDue = true) := by
  refine ⟨List.length_replicate, ?_⟩; decide +kernel

/-! ### The management port, firmware, debug -/

/-- The management side of `live` or of a module in standby. -/
def managed (s : State) (m : Mgmt) : State := { s with mgmt := m }

/-- A request served, lost, and beyond 2,000 in a second; addresses; an interrupt 10 ms after the last one and one tick before. -/
theorem witness_ManagementPort :
    let m := live.mgmt
    let i := { m with ibiDue := true, ibiAt := some 0, events := [⟨1, 0⟩] }
    isRequest .getStatus = true ∧ standby.boot.standby = true ∧ standby.mgmt.stuck = false ∧ standby.requestsNow < 2000 ∧
      (managed live { m with stuck := true }).boot.standby = true ∧
      (∀ n ∈ [1999, 2000], (managed live { m with msgCount := n }).requestsNow = n) ∧ State.reset.boot.standby = false ∧
      some live.staticAddr ≠ some 8 ∧ (at_ (managed live i) 1000000).mgmt.ibiDue = true ∧
      (at_ (managed live i) 1000000).mgmt.events ≠ [] ∧ ((at_ (managed live i) 1000000).now - 0).toNat = 1000000 ∧
      ((at_ (managed live i) 999999).now - 0).toNat < 1000000 := by decide +kernel

/-- No event, one, 63 and 64 events wait. -/
theorem witness_ManagementEvents :
    (∀ n ∈ [0, 1, 63, 64], Served (managed standby { standby.mgmt with events := List.replicate n ⟨3, 1⟩ }) ∧
      (managed standby { standby.mgmt with events := List.replicate n ⟨3, 1⟩ }).mgmt.events.length = n) ∧
      standby.power.hold = false := by unfold Served; decide +kernel

/-- In service and in standby; a locate that is over; a fatal record; a manager. -/
theorem witness_ManagementMessages :
    let m := live.mgmt
    (∀ s ∈ [live, standby], Served s) ∧ live.live = true ∧ live.power.running = true ∧ live.boot.mainOn = true ∧
      standby.boot.mainOn = false ∧ standby.mgmt.lock = false ∧ Served (managed standby { m with lock := true }) ∧
      (List.replicate 24 (0 : Byte)).length = 24 ∧ reworkOk (leBytes 24 (2 ^ 64 + 63 * 2 ^ 80)) = true ∧
      (managed standby { m with nextSlot := 11 }).mgmt.nextSlot < 12 ∧
      (let s := at_ (managed live { m with locate := .steady, locateEnd := 100 }) 100
       Served s ∧ s.mgmt.locate ≠ .off ∧ s.mgmt.locateEnd.toNat ≤ s.now.toNat) ∧
      (let s := { standby with resets := { standby.resets with fatal := [1] } }; Served s ∧ s.resets.fatal ≠ []) ∧
      (8767#16).toNat < 8768 ∧ 8768 ≤ (8768#16).toNat ∧ Served (swarming 3) ∧ (swarming 3).swarm.role = 3 ∧ live.swarm.role ≠ 3 := by
  unfold Served; decide +kernel

/-- A first request, one a second after the last and one sooner; an index that is left, the last block, and none left. -/
theorem witness_Attestation :
    let m := live.mgmt
    (∀ e ∈ [(0, 1), (1023, 2 ^ 30 - 1), (1024, 0), (1024, 2 ^ 30)], Served (managed live { m with index := e.1, block := e.2 })) ∧
      (at_ (managed live { m with attestAt := some 0 }) 100000000).now - 0 = 100000000 ∧
      Served (at_ (managed live { m with attestAt := some 0 }) 99999999) ∧
      ((at_ (managed live { m with attestAt := some 0 }) 99999999).now - 0).toNat < 100000000 := by unfold Served; decide +kernel

/-- Running and in standby. -/
theorem witness_HourCounts : live.boot.standby = true ∧ live.power.running = true ∧ standby.boot.standby = true ∧
    standby.power.running = false := by decide +kernel

/-- Every state of an update; the longest image; data in order, of 1 byte, and out of order; an image that does not verify. -/
theorem witness_FirmwareUpdate :
    let m := live.mgmt
    (∀ k ∈ [0, 1, 2, 3, 4, 5, 6, 7], Served (managed live { m with fwState := k }) ∧
      (managed live { m with fwState := k }).served.fwRefusal = 0 ∧ (managed live { m with fwState := k }).live = true) ∧
      (0x4000000#32).toNat ≤ 64 * 2 ^ 20 ∧ (managed live { m with fwState := 1, fwLen := 1 }).mgmt.fwBytes.length + 1 ≤ 1 ∧
      (0#32).toNat = m.fwBytes.length ∧ (1#32).toNat ≠ m.fwBytes.length ∧ m.fwBytes.length = m.fwLen ∧
      ((managed live { m with fwState := 3 }).served.image (!m.bank)).arev.toNat = live.served.arev ∧
      (let s := managed live { m with fwState := 3, images := [(1, { Image.shipped with arev := 2 })] }
       Served s ∧ s.served.fwRefusal = 0 ∧ (s.served.image (!s.mgmt.bank)).arev.toNat ≠ s.served.arev) ∧
      ((managed live { m with fwState := 6 }).served.image m.bank).secver ≤ 64 ∧ live.imageResult [] = 6 := by
  unfold Served; decide +kernel

/-- No owner yet, and an owner; a sequence number that is not above the last, and one that is. (Whether a signature verifies is for
the signature scheme, which the model leaves open: one of the last two clauses always applies.) -/
theorem witness_OwnerCommands :
    let m := live.mgmt
    let k := List.replicate 68 (7 : Byte)
    Served live ∧ live.mgmt.owner = none ∧ k.length = 68 ∧ Served (managed live { m with owner := some k, ownerSeq := 3 }) ∧
      (3#64).toNat ≤ (3#64).toNat ∧ (3#64).toNat < (4#64).toNat ∧
      ([] : List Byte) ≠ ownerBody 1 Config.serial 4 (List.replicate 68 0) := by
  refine ⟨?_, ?_, ?_, ?_, by decide, by decide, fun h => nomatch (show [] = 1#8 :: _ from h)⟩
  all_goals try unfold Served
  all_goals decide +kernel

/-- No freeze, one in progress, and one that is complete; a dump area out of place; a dump that is still being written. -/
theorem witness_Freezes :
    let f := fun k => { wide with dbg := { wide.dbg with frState := k } }
    (∀ k ∈ [0, 1, 2], (f k).live = true ∧ (f k).dbg.frState = k ∧ (f k).mayFreeze = true ∧ 0 < (f k).parts) ∧ 1 < two.parts ∧
      two.live = true ∧ ((f 0).hostContact.dumpHome (f 0).owner).isSome = true ∧ (swarming 1).mayFreeze = false ∧
      (let s := (f 1).setEpoch 0 { Epoch.reset with frozen := true }
       s.live = true ∧ (s.epochOf s.owner).frozen = true ∧ s.outstanding (.log s.owner) = false) ∧
      (let s := { f 1 with farTag := 1, link := { (f 1).link with bis := [⟨6, .write (.log 0) 0 384 [0], 0⟩] } }
       s.live = true ∧ s.outstanding (.log s.owner) = true) := by decide +kernel

/-- A test is asked for. -/
def testing (k u : Nat) : State := { portUp wide 17 with dbg := { wide.dbg with istReq := some (k, u, 1) } }

/-- Each kind of test at the first and last unit and beyond it; a test that runs. -/
theorem witness_ServiceTests :
    (∀ e ∈ [(1, 0), (1, 575), (1, 576), (2, 0), (2, 31), (2, 32), (3, 17), (3, 18), (4, 170), (4, 171)],
      (testing e.1 e.2).live = true ∧ (testing e.1 e.2).testsOpen = true ∧ (testing e.1 e.2).power.running = true ∧
        (testing e.1 e.2).dbg.istReq = some (e.1, e.2, 1)) ∧
      (testing 1 8).servedBy 8 = none ∧ (testing 1 0).servedBy 0 = some 0 ∧
      (∀ u ∈ [0, 31], (testing 2 u).homeG ((testing 2 u).partOfDev u) = 0 ∧ ((testing 2 u).frg (u ^^^ 1)).retired = false ∧
        ((testing 2 u).frg u).running = none) ∧ ((testing 3 17).port 17).state = 1 ∧
      ((testing 3 17).port 17).lanes.getLsbD 8 = false ∧ ((testing 3 17).port 17).healthy.getLsbD 8 = true ∧
      (∀ k ∈ [1, 2, 3, 4], ({ wide with dbg := { wide.dbg with istRun := some (k, 0, 1) } } : State).live = true) := by decide +kernel

/-! ### Every step -/

/-- A step of a module whose cell 0 issues a barrier, and one with nothing to do. -/
theorem witness_MemoryStaysCanonical :
    Memory.wf State.reset = true ∧ (∃ t, step State.reset = .next t) ∧
      (let s := { (live.setCell 0 cell1) with pending := [.getStatus], mem := [(5, 1)] }
       Memory.wf s = true ∧ ∃ t, step s = .next t) := by
  refine ⟨rfl, ⟨_, rfl⟩, ?_, ⟨_, rfl⟩⟩
  decide +kernel

end Sys2Proof.Tests
end

/-!
PROOFS. The cell instruction set: division of scalar registers (O7), faults at the end of the image (O14), and the checks of an
access of the own cell memory (O17).
-/

namespace Sys2Proof.Machine

/-! ### A program fault stops its cell, and no check after it changes the outcome (R51, R140, R182) -/

theorem State.quenchCell_cell_other (s : State) {n m : Nat} (h : n ≠ m) : (s.quenchCell m).cell n = s.cell n := by
  unfold State.quenchCell
  dsimp only
  split
  · exact State.cell_setCell_other s m n _ h
  · rfl

/-- Quenching a list of cells leaves a cell that is not in it. -/
theorem foldS_quenchCell_cell {n : Nat} :
    ∀ (l : List Nat) (s : State), n ∉ l → (foldS State.quenchCell s l).cell n = s.cell n
  | [], _, _ => rfl
  | m :: l, s, h => by
    rw [List.mem_cons, not_or] at h
    exact (foldS_quenchCell_cell l (s.quenchCell m) h.2).trans (s.quenchCell_cell_other h.1)

/-- A cell is not one of its own peers. -/
theorem State.not_mem_peers (s : State) (n : Nat) : n ∉ s.peers n := by
  unfold State.peers
  split
  · split <;> simp
  · simp

theorem State.noteFault_cells (s : State) (n cause : Nat) (pc : BitVec 14) : (s.noteFault n cause pc).cells = s.cells := by
  unfold State.noteFault
  split
  · rfl
  · split <;> rfl

theorem State.programFault_run (s : State) (n cause : Nat) : ((s.programFault n cause).cell n).run = .faulted := by
  unfold State.programFault State.programFaultAt
  dsimp only
  rw [foldS_quenchCell_cell _ _ (State.not_mem_peers _ n), State.cell_congr (State.noteFault_cells _ n cause _)]
  exact congrArg Cell.run (State.cell_setCell_self s n _)

section
variable {c k : Nat} {t : State} {o : Host.Outcome State Fault Refusal} (h : o = .next (t.programFault c k))
include h

/-- Check bits of memory count and lose words only for an instruction that executes without a fault. -/
theorem withWords_of_fault (g : Guard) (ranges : List (Nat × Nat)) (s : State) :
    withWords c g ranges s o = .next (t.programFault c k) := by
  simp [h, withWords, State.programFault_run]

/-- Residue checks have no effect on an instruction that faults, whatever they see. -/
theorem withResidue_of_fault (g : Guard) (u : Upset) (s : State) :
    withResidue c g u s o = .next (t.programFault c k) := by
  have stopped : ¬ (s.executes c g true && ((t.programFault c k).cell c).run == .issuing) = true := by
    simp [State.programFault_run]
  rw [h]
  cases u with
  | none => rfl
  | repeated => exact congrArg _ (if_neg stopped)
  | lasting =>
    unfold withResidue
    dsimp only
    split
    · exact congrArg _ (if_neg stopped)
    · rfl

/-- A scalar store that faults does so under the check bits of the rest of its word too. -/
theorem execSt_of_fault {f : F1} {s : State} (run : runSt c f s = o) : execSt c f s = .next (t.programFault c k) := by
  unfold execSt
  dsimp only
  split
  · exact withWords_of_fault (run.trans h) ..
  · exact run.trans h

end

/-! ### Division (R138) -/

/-- The quotient of the signed values is the signed quotient of the words: -2^63 by -1 wraps in both. -/
theorem ofInt_tdiv_toInt (x y : Word) : BitVec.ofInt 64 (x.toInt.tdiv y.toInt) = x.sdiv y :=
  BitVec.eq_of_toInt_eq (by rw [BitVec.toInt_ofInt, BitVec.toInt_sdiv])

theorem ofInt_tmod_toInt (x y : Word) : BitVec.ofInt 64 (x.toInt.tmod y.toInt) = x.srem y := by
  rw [← BitVec.toInt_srem, BitVec.ofInt_toInt]

theorem ofNat_div_toNat (x y : Word) : BitVec.ofNat 64 (x.toNat / y.toNat) = x / y := by
  rw [← BitVec.toNat_udiv, BitVec.ofNat_toNat, BitVec.setWidth_eq]

theorem ofNat_mod_toNat (x y : Word) : BitVec.ofNat 64 (x.toNat % y.toNat) = x % y := by
  rw [← BitVec.toNat_umod, BitVec.ofNat_toNat, BitVec.setWidth_eq]

@[simp] theorem Arch.setS_xstat (a : Arch) (r : Nat) (x : Word) : (a.setS r x).xstat = a.xstat := by
  unfold Arch.setS
  split <;> rfl

/-- The word of a scalar instruction on two registers is legal. -/
theorem legalRR_of_plain {f : F0} (hf : plainF0 f) (hx : f.xop = 0) : legalRR f = true := by
  obtain ⟨hrc, hty, hrm, hri, hres⟩ := hf
  simp [legalRR, legalF0, hrc, hty, hrm, hri, hres, hx]

/-- The registers after a division with the result `r` and the flags `dz`. -/
def Arch.divided (a : Arch) (f : F0) (r : Word) (dz : BitVec 32) : Arch :=
  { (a.setS f.rd.toNat r).advance with xstat := a.xstat ||| dz }

theorem Arch.divided_zero (a : Arch) (f : F0) (r : Word) : a.divided f r 0 = (a.setS f.rd.toNat r).advance := by
  have flags : a.xstat ||| 0 = (a.setS f.rd.toNat r).advance.xstat := by simp [Arch.advance]
  rw [Arch.divided, flags]

theorem Arch.divided_dz (a : Arch) (f : F0) (r : Word) :
    a.divided f r 2 = ((a.setS f.rd.toNat r).flags fDz).advance := by
  simp [Arch.divided, Arch.flags, Arch.advance, fDz]

section
variable {s : State} {n : Nat} {f : F0} (byZero : Word → Word) (op : Word → Word → Word)

theorem scalarDiv_of_ne_zero (hi : Issues s n f.g false) (hf : plainF0 f) (hx : f.xop = 0)
    (hy : (s.cell n).arch.sreg f.rb.toNat ≠ 0) :
    scalarDiv n f s byZero op = .next (s.withArch n false ((s.cell n).arch.divided f
      (op ((s.cell n).arch.sreg f.ra.toNat) ((s.cell n).arch.sreg f.rb.toNat)) 0)) := by
  rw [scalarDiv, legalRR_of_plain hf hx, issueArch_executes hi, Arch.divided_zero]
  simp only [if_neg hy]

theorem scalarDiv_of_eq_zero (hi : Issues s n f.g false) (hf : plainF0 f) (hx : f.xop = 0)
    (hy : (s.cell n).arch.sreg f.rb.toNat = 0) :
    scalarDiv n f s byZero op = .next (s.withArch n false ((s.cell n).arch.divided f
      (byZero ((s.cell n).arch.sreg f.ra.toNat)) 2)) := by
  rw [scalarDiv, legalRR_of_plain hf hx, issueArch_executes hi, Arch.divided_dz]
  simp only [if_pos hy]

end

section
variable (n : Nat) (f : F0) (s : State)

theorem exec_div : exec (.div n f) s = scalarDiv n f s (fun _ => BitVec.allOnes 64) BitVec.sdiv := by
  change execDiv n f s = _
  simp only [execDiv, ofInt_tdiv_toInt]

theorem exec_divu : exec (.divu n f) s = scalarDiv n f s (fun _ => BitVec.allOnes 64) (· / ·) := by
  change execDivu n f s = _
  simp only [execDivu, ofNat_div_toNat]

theorem exec_rem : exec (.rem n f) s = scalarDiv n f s id BitVec.srem := by
  change execRem n f s = _
  simp only [execRem, ofInt_tmod_toInt]

theorem exec_remu : exec (.remu n f) s = scalarDiv n f s id (· % ·) := by
  change execRemu n f s = _
  simp only [execRemu, ofNat_mod_toNat]

end

/-- Settles O7: each operation is a division, and a division has one rule for a divisor that is not zero and one for zero. -/
theorem scalarDivision : Obligations.ScalarDivision := by
  intro s n f hi hf hx a x y out
  rw [exec_div, exec_divu, exec_rem, exec_remu]
  refine ⟨fun hy => ?_, fun hy => ?_⟩
  · have rule := fun byZero op => scalarDiv_of_ne_zero byZero op hi hf hx hy
    exact ⟨rule _ _, rule _ _, rule _ _, rule _ _⟩
  · have rule := fun byZero op => scalarDiv_of_eq_zero byZero op hi hf hx hy
    exact ⟨rule _ _, rule _ _, rule _ _, rule _ _⟩

/-! ### The end of the image (R135) -/

/-- Cell `n` issues at an index at or beyond the end of its image. -/
def State.AtImageEnd (s : State) (n : Nat) (memory : Bool) : Prop :=
  s.live = true ∧ s.canIssue n = true ∧ (memory = true → s.memHeld n = false) ∧
    (s.cell n).imageLen ≤ (s.cell n).arch.pc.toNat

/-- The outcome at the end of the image: a program fault with cause 2. -/
def State.imageEndFault (s : State) (n : Nat) (memory : Bool) : Host.Outcome State Fault Refusal :=
  .next ((s.endFence n memory).programFault n 2)

/-- No word executes there, so nothing that holds an executing instruction holds it. -/
theorem State.AtImageEnd.not_executes {s : State} {n : Nat} {memory : Bool} (h : s.AtImageEnd n memory) (g : Guard)
    (legal : Bool) : s.executes n g legal = false := by
  obtain ⟨-, -, -, hpc⟩ := h
  simp [State.executes, Nat.not_lt.2 hpc]

theorem issue_imageEnd {s : State} {n : Nat} {memory : Bool} (h : s.AtImageEnd n memory) (g : Guard) (legal : Bool)
    (body : State → Eff) : issue n g legal memory s body = s.imageEndFault n memory := by
  obtain ⟨hl, hc, hm, hpc⟩ := h
  have held : (memory && s.memHeld n) = false := by
    cases memory with
    | false => rfl
    | true => simpa using hm rfl
  simp [issue, whenLive, hl, hc, held, hpc, State.imageEndFault]

section
variable {s : State} {n : Nat}

theorem issueArch_imageEnd (h : s.AtImageEnd n false) (g : Guard) (legal : Bool) (k : Arch → ArchEff) :
    issueArch n g legal s k = s.imageEndFault n false :=
  issue_imageEnd h ..

theorem issueJump_imageEnd (h : s.AtImageEnd n false) (f : F2) (legal : Bool) (k : Arch → ArchEff) :
    issueJump n f legal s k = s.imageEndFault n false :=
  issue_imageEnd h ..

theorem issueTouch_imageEnd (h : s.AtImageEnd n true) (g : Guard) (legal : Bool) (ranges : List (Nat × Nat))
    (body : State → Eff) : issueTouch n g legal ranges s body = s.imageEndFault n true := by
  simp [issueTouch, h.not_executes, issue_imageEnd h]

theorem issueOwn_imageEnd (h : s.AtImageEnd n true) (f : F1) (legal : Bool) (align len : Nat) (body : Nat → State → Eff) :
    issueOwn n f legal align len s body = s.imageEndFault n true :=
  issueTouch_imageEnd h ..

theorem issueStore_imageEnd (h : s.AtImageEnd n true) (f : F1) (legal : Bool) (align len : Nat) (body : Nat → State → Eff) :
    issueStore n f legal align len s body = s.imageEndFault n true := by
  simp [issueStore, h.not_executes, issueOwn_imageEnd h]

theorem runAccRd_imageEnd (h : s.AtImageEnd n true) (f : F3) : runAccRd n f s = s.imageEndFault n true := by
  simp [runAccRd, h.not_executes, issueTouch_imageEnd h]

theorem runTm_imageEnd (h : s.AtImageEnd n true) (f : F4) : runTm n f s = s.imageEndFault n true := by
  simp [runTm, h.not_executes, issueTouch_imageEnd h]

theorem cellSignal_imageEnd (h : s.AtImageEnd n true) (f : F5) (set : Bool) :
    cellSignal n f set s = s.imageEndFault n true := by
  simp [cellSignal, h.not_executes, issue_imageEnd h]

theorem afterSignals_imageEnd (h : s.AtImageEnd n true) {k : Host.Outcome State Fault Refusal}
    (hk : k = s.imageEndFault n true) (f : F5) : afterSignals n f s k = s.imageEndFault n true := by
  unfold afterSignals
  split
  · simp [h.not_executes, hk]
  · exact hk

theorem handOver_imageEnd (h : s.AtImageEnd n true) (f : F5) (isColl : Bool) :
    handOver n f isColl s = s.imageEndFault n true := by
  simp [handOver, h.not_executes, issueTouch_imageEnd h]

/-- A word that spells no instruction faults at the end of the image like any other. -/
theorem execNop_imageEnd (h : s.AtImageEnd n false) (w : NopWord) (hw : ∀ r, w.raw = some r → (decodeCell n r).isNone = true) :
    execNop n w s = s.imageEndFault n false := by
  unfold execNop
  split
  · exact issueJump_imageEnd h ..
  · next r hr => rw [whenFormed, if_pos (hw r hr), issueJump_imageEnd h]

end

/-- Every cell instruction is issued by one of the rules above: the register instructions, the instructions that set their own next pc,
and then, by what wraps their issue, the exact accumulators, the accesses of memory and the sync port. -/
theorem exec_imageEnd {s : State} {i : Instr} {n : Nat} {g : Guard} {memory : Bool}
    (hw : cellWord i = some (n, g, memory)) (h : s.AtImageEnd n memory) : exec i s = s.imageEndFault n memory := by
  cases i with
  | add | sub | mul | mulh | mulhu | and | or | xor | shl | shr | sra | min | max =>
    cases hw
    simp only [exec, execAdd, execSub, execMul, execMulh, execMulhu, execAnd, execOr, execXor, execShl, execShr, execSra, execMin,
      execMax, scalarRR, issueArch_imageEnd h]
  | div | divu | rem | remu =>
    cases hw
    simp only [exec, execDiv, execDivu, execRem, execRemu, scalarDiv, issueArch_imageEnd h]
  | cmp | plog | csrr | csrw | rdid | addi | li | lui | cmpi | andi | tset | tadv | eaClr =>
    cases hw
    simp only [exec, execCmp, execPlog, execCsrr, execCsrw, execRdid, execAddi, execLi, execLui, execCmpi, execAndi, execTset, execTadv,
      execEaClr, issueArch_imageEnd h]
  | vadd | vsub | vmul | vfma | vfms | vmin | vmax | vun | vsh | vcmp | vsel | vperm | vslide | vcvt | vtr | vbcast | vins | vext =>
    cases hw
    simp only [exec, execVadd, execVsub, execVmul, execVfma, execVfms, execVmin, execVmax, execVun, execVsh, execVcmp, execVsel,
      execVperm, execVslide, execVcvt, execVtr, execVbcast, execVins, execVext, issueVec, issueArch_imageEnd h]
  | vand | vor | vxor =>
    cases hw
    simp only [exec, execVand, execVor, execVxor, vecBits, issueVec, issueArch_imageEnd h]
  | br | brl | jr | loop =>
    cases hw
    simp only [exec, execBr, execBrl, execJr, execLoop, issueJump_imageEnd h]
  | halt | tmWait | fenceLocal | fenceRemote =>
    cases hw
    simp only [exec, execHalt, execTmWait, execFenceLocal, execFenceRemote, issue_imageEnd h]
  | nop c w =>
    obtain ⟨f, _ | r⟩ := w
    · cases hw
      exact execNop_imageEnd h ⟨f, none⟩ nofun
    · simp only [cellWord] at hw
      split at hw
      · next hr =>
        cases hw
        exact execNop_imageEnd h ⟨f, some r⟩ fun _ e => Option.some.inj e ▸ hr
      · cases hw
  | eaAdd | eaAddm | eaMerge =>
    cases hw
    exact withResidue_of_fault (issue_imageEnd h ..) ..
  | eaRd =>
    cases hw
    exact withResidue_of_fault (issueArch_imageEnd h ..) ..
  | ld | vld | ldt | eaLdi =>
    cases hw
    exact withWords_of_fault (issueOwn_imageEnd h ..) ..
  | eaAddi =>
    cases hw
    exact withWords_of_fault (withResidue_of_fault (issueOwn_imageEnd h ..) ..) ..
  | st =>
    cases hw
    exact execSt_of_fault (issueStore_imageEnd h ..) rfl
  | vst | stt =>
    cases hw
    exact issueStore_imageEnd h ..
  | eaSti =>
    cases hw
    exact withResidue_of_fault (issueStore_imageEnd h ..) ..
  | mma | accLd =>
    cases hw
    exact withWords_of_fault (issueTouch_imageEnd h ..) ..
  | accRd =>
    cases hw
    exact withWords_of_fault (withResidue_of_fault (runAccRd_imageEnd h _) ..) ..
  | tm =>
    cases hw
    exact withWords_of_fault (runTm_imageEnd h _) ..
  | sigAdd | sigSet =>
    cases hw
    exact cellSignal_imageEnd h ..
  | waitGe | waitEq | testGe | sread =>
    cases hw
    exact afterSignals_imageEnd h (issue_imageEnd h ..) _
  | coll | forg =>
    cases hw
    exact withWords_of_fault (handOver_imageEnd h ..) ..
  | _ => cases hw

/-- Settles O14: the end of the image is checked before the word and its predicate, and what wraps an instruction passes the fault
on. -/
theorem imageEndFaults : Obligations.ImageEndFaults :=
  fun _ _ _ _ _ hw hl hc hm hpc => exec_imageEnd hw ⟨hl, hc, hm, hpc⟩

/-! ### The checks of the own cell memory (R104) -/

section
variable {n align addr len : Nat}

theorem ownCheck_misaligned (h : addr % align ≠ 0) : ownCheck n align addr len = some 3 :=
  if_pos h

theorem ownCheck_outside (ha : addr % align = 0) (h : addr < cellMem n ∨ cellMem n + cellBytes ≤ addr) :
    ownCheck n align addr len = some 7 := by
  rw [ownCheck, if_neg (not_not.2 ha), if_pos h]

theorem ownCheck_past_end (ha : addr % align = 0) (hlo : cellMem n ≤ addr) (hhi : addr < cellMem n + cellBytes)
    (h : cellMem n + cellBytes < addr + len) : ownCheck n align addr len = some 6 := by
  rw [ownCheck, if_neg (not_not.2 ha), if_neg (by omega), if_pos h]

end

section
variable {s : State} {n align len k : Nat} {f : F1} {legal : Bool} {body : Nat → State → Eff}

/-- An access whose word executes, with no move in its way, faults with the cause of the check that it fails. -/
theorem issueOwn_of_check (hi : Issues s n f.g true) (hc : Clear s n ((s.cell n).arch.address f) len)
    (hk : ownCheck n align ((s.cell n).arch.address f) len = some k) (hl : legal = true) :
    issueOwn n f legal align len s body = .next ((s.endFence n true).programFault n k) := by
  obtain ⟨noMove, -⟩ := hc
  simp [issueOwn, issueTouch, noMove, hl, issue_executes hi, hk]

/-- A store that fails a check is not held for a staging buffer. -/
theorem issueStore_of_check (hi : Issues s n f.g true) (hc : Clear s n ((s.cell n).arch.address f) len)
    (hk : ownCheck n align ((s.cell n).arch.address f) len = some k) (hl : legal = true) :
    issueStore n f legal align len s body = .next ((s.endFence n true).programFault n k) := by
  simp [issueStore, hk, issueOwn_of_check hi hc hk hl]

end

theorem legalF1_of_res {f : F1} (h : f.res = 0) : legalF1 true true true f = true := by
  simp [legalF1, h]

theorem legalF1_of_untyped {f : F1} (h : f.res = 0) (hty : f.ty = 0) : legalF1 true true false f = true := by
  simp [legalF1, h, hty]

/-- Settles O17: every form of access answers the cause of the first check that it fails, and the checks are the three cases of R104. -/
theorem ownMemoryChecks : Obligations.OwnMemoryChecks := by
  intro s n f i align len hi hres hrd hform addr fault hc
  have failed (k : Nat) (hk : ownCheck n align addr len = some k) : exec i s = fault k := by
    have half_rd : half f.rd = true := decide_eq_true hrd
    rcases hform with ⟨hins, hty, rfl, rfl⟩ | ⟨hins, hty, rfl, rfl⟩ | ⟨hins, hty, rfl, rfl⟩ | ⟨hins, hty, rfl, rfl⟩
    · have legal : (legalF1 true true true f && decide (f.ty.toNat ≤ 3)) = true := by simp [legalF1_of_res hres, hty]
      rcases hins with rfl | rfl
      · exact withWords_of_fault (issueOwn_of_check hi hc hk legal) ..
      · exact execSt_of_fault (issueStore_of_check hi hc hk legal) rfl
    · have legal := legalF1_of_untyped hres hty
      rcases hins with rfl | rfl
      · exact withWords_of_fault (issueOwn_of_check hi hc hk legal) ..
      · exact issueStore_of_check hi hc hk legal
    · have legal : (legalF1 true true false f && half f.rd) = true := by simp [legalF1_of_untyped hres hty, half_rd]
      rcases hins with rfl | rfl
      · exact withWords_of_fault (issueOwn_of_check hi hc hk legal) ..
      · exact issueStore_of_check hi hc hk legal
    · have legal : legalImage f = true := by simp [legalImage, legalF1, hres, hty, half_rd]
      rcases hins with rfl | rfl | ⟨rfl, -⟩
      · exact withWords_of_fault (issueOwn_of_check hi hc hk legal) ..
      · exact withWords_of_fault (withResidue_of_fault (issueOwn_of_check hi hc hk legal) ..) ..
      · exact withResidue_of_fault (issueStore_of_check hi hc hk legal) ..
  exact ⟨fun h => failed 3 (ownCheck_misaligned h), fun ha h => failed 7 (ownCheck_outside ha h),
    fun ha hlo hhi h => failed 6 (ownCheck_past_end ha hlo hhi h)⟩

end Sys2Proof.Machine

/-!
PROOFS. Lane-wise vector instructions, and the order of floating-point lanes: minimum, maximum, sign and comparison (O12).
-/

namespace Sys2Proof.Machine

/-! ### The lanes of a register (R58) -/

theorem lane_lt (w x l : Nat) : lane w x l < 2 ^ w :=
  Nat.mod_lt _ (Nat.two_pow_pos w)

theorem Arch.vlane_lt (a : Arch) (ty : Nat) (r : BitVec 5) (l : Nat) : a.vlane ty r l < 2 ^ codeWidth ty :=
  lane_lt ..

theorem ofLanes_lt (w : Nat) : ∀ xs : List Nat, ofLanes w xs < 2 ^ (w * xs.length)
  | [] => Nat.one_pos
  | x :: xs => by
    have low : x % 2 ^ w < 2 ^ w := Nat.mod_lt _ (Nat.two_pow_pos w)
    have high : 2 ^ w * (ofLanes w xs + 1) ≤ 2 ^ w * 2 ^ (w * xs.length) := Nat.mul_le_mul_left _ (ofLanes_lt w xs)
    rw [ofLanes, List.length_cons, Nat.mul_succ, Nat.add_comm (w * _), Nat.pow_add]
    rw [Nat.mul_succ] at high
    omega

/-- Above its first lane, a register holds the rest of the list. -/
theorem ofLanes_cons_div (w x : Nat) (xs : List Nat) : ofLanes w (x :: xs) / 2 ^ w = ofLanes w xs := by
  rw [ofLanes, Nat.add_mul_div_left _ _ (Nat.two_pow_pos w), Nat.div_eq_of_lt (Nat.mod_lt _ (Nat.two_pow_pos w)), Nat.zero_add]

theorem lane_ofLanes (w : Nat) : ∀ (xs : List Nat) (l : Nat) (h : l < xs.length), lane w (ofLanes w xs) l = xs[l] % 2 ^ w
  | x :: xs, 0, _ => by simp [lane, bits, ofLanes]
  | x :: xs, l + 1, h => by
    have rest := lane_ofLanes w xs l (Nat.lt_of_succ_lt_succ h)
    rw [lane, bits] at rest ⊢
    rw [Nat.succ_mul, Nat.add_comm (l * w), Nat.pow_add, ← Nat.div_div_eq_div_mul, ofLanes_cons_div, rest, List.getElem_cons_succ]

theorem lane_mapLanes {w n l : Nat} (op : Nat → Nat × Nat) (h : l < n) : lane w (mapLanes w n op).1 l = (op l).1 % 2 ^ w := by
  simp [mapLanes, lane_ofLanes, h]

/-- The lanes of a type fit in a vector register. -/
theorem mapLanes_lt (ty : Nat) (op : Nat → Nat × Nat) : (mapLanes (codeWidth ty) (laneCount ty) op).1 < 2 ^ 2048 := by
  have fits : codeWidth ty * laneCount ty ≤ 2048 := Nat.mul_div_le ..
  have bound := ofLanes_lt (codeWidth ty) (((List.range (laneCount ty)).map op).map Prod.fst)
  rw [List.length_map, List.length_map, List.length_range] at bound
  exact lt_of_lt_of_le bound (pow_le_pow_right₀ one_le_two fits)

theorem toNat_ofNat_of_lt {w x : Nat} (h : x < 2 ^ w) : (BitVec.ofNat w x).toNat = x := by
  rw [BitVec.toNat_ofNat, Nat.mod_eq_of_lt h]

/-! ### The flags of the lanes (R137) -/

theorem mapLanes_flags (ty : Nat) (op : Nat → Nat × Nat) :
    (mapLanes (codeWidth ty) (laneCount ty) op).2 = laneFlags ty fun l => (op l).2 := by
  simp [mapLanes, laneFlags, List.foldl_map]

theorem foldl_orf_lt {k : Nat} : ∀ (xs : List Nat) (a : Nat), a < 2 ^ k → (∀ x ∈ xs, x < 2 ^ k) → xs.foldl orf a < 2 ^ k
  | [], _, ha, _ => ha
  | x :: xs, a, ha, h => by
    rw [List.forall_mem_cons] at h
    exact foldl_orf_lt xs (orf a x) (Nat.or_lt_two_pow ha h.1) h.2

theorem laneFlags_lt {ty : Nat} {g : Nat → Nat} (h : ∀ l, g l < 128) : laneFlags ty g < 128 :=
  foldl_orf_lt (k := 7) _ 0 (by decide) (by simpa using fun l _ => h l)

theorem flagIf_nv_lt (b : Bool) : flagIf b fNv < 128 := by
  cases b <;> decide

/-! ### Lane-wise instructions -/

/-- A lane-wise instruction that executes on a type that it accepts leaves in each lane the value of its operation, and sets the
flags of all lanes. -/
theorem vectorOut_laneWise {s : State} {n : Nat} {f : F0} {legal accepted : Bool} {op : Arch → Nat → Nat × Nat}
    {value flags : Nat → Nat} (hi : Issues s n f.g false) (hl : legal = true) (ha : accepted = true)
    (hop : ∀ l, op (s.cell n).arch l = (value l, flags l)) (hv : ∀ l, value l < 2 ^ codeWidth f.ty.toNat)
    (hf : ∀ l, flags l < 128) :
    VectorOut s n f (laneFlags f.ty.toNat flags) value (issueVec n f legal accepted s fun a => laneWise a f (op a)) := by
  have lanes : op (s.cell n).arch = fun l => (value l, flags l) := funext hop
  refine ⟨BitVec.ofNat 2048 (mapLanes (codeWidth f.ty.toNat) (laneCount f.ty.toNat) (op (s.cell n).arch)).1, ?_, ?_⟩
  · rw [issueVec, hl, issueArch_executes hi]
    simp only [ha, if_true, laneWise, vecResult, mapLanes_flags, lanes, Arch.flags, Nat.mod_eq_of_lt (laneFlags_lt hf)]
    rfl
  · intro l h
    rw [toNat_ofNat_of_lt (mapLanes_lt ..), lane_mapLanes _ h, hop, Nat.mod_eq_of_lt (hv l)]

/-! ### Formats and the sign bit (R107, R141) -/

/-- The sign is the top bit of the width. -/
theorem codeWidth_of_elemOf {ty : Nat} {ff : FpFmt} (h : elemOf ty = .fp ff) : codeWidth ty = ff.ew + ff.mw + 1 := by
  unfold elemOf at h
  split at h <;> cases h <;> rfl

theorem nan_lt_of_elemOf {ty : Nat} {ff : FpFmt} (h : elemOf ty = .fp ff) : ff.nan < 2 ^ codeWidth ty := by
  unfold elemOf at h
  split at h <;> cases h <;> decide

theorem arithType_of_float {ty : Nat} (h6 : 6 ≤ ty) (h9 : ty ≤ 9) : arithType ty = true := by
  simp [arithType, h6, h9]

/-- Inverting the top bit is adding its weight, modulo the width. -/
theorem xor_top_bit {k x : Nat} (h : x < 2 ^ (k + 1)) : x ^^^ 2 ^ k = (x + 2 ^ k) % 2 ^ (k + 1) := by
  refine Nat.eq_of_testBit_eq fun j => ?_
  rw [Nat.testBit_xor, Nat.testBit_mod_two_pow, Nat.testBit_two_pow, Nat.add_comm x]
  rcases Nat.lt_trichotomy j k with hj | rfl | hj
  · simp [Nat.testBit_two_pow_add_gt hj, Nat.lt_succ_of_lt hj, hj.ne']
  · simp [Nat.testBit_two_pow_add_eq]
  · have above : x.testBit j = false := Nat.testBit_lt_two_pow (h.trans_le (Nat.pow_le_pow_right Nat.two_pos hj))
    simp [above, hj.ne, Nat.not_lt.2 hj]

/-- Inverting the sign of a lane is adding the weight of its top bit. -/
theorem Arch.vlane_xor_sign {ty : Nat} {ff : FpFmt} (h : elemOf ty = .fp ff) (a : Arch) (r : BitVec 5) (l : Nat) :
    a.vlane ty r l ^^^ 2 ^ (codeWidth ty - 1) = (a.vlane ty r l + 2 ^ (codeWidth ty - 1)) % 2 ^ codeWidth ty := by
  have bound := a.vlane_lt ty r l
  rw [codeWidth_of_elemOf h] at bound ⊢
  exact xor_top_bit bound

/-! ### The order of two values (R160) -/

/-- Two values are unordered exactly when one is a NaN. -/
theorem Fp.isNone_cmp (a b : Fp) : (a.cmp b).isNone = (a.isNan || b.isNan) := by
  cases a <;> cases b <;> rfl

theorem Fp.snan_of_not_isNan {v : Fp} (h : v.isNan = false) : v.snan = false := by
  cases v with
  | nan => cases h
  | inf | fin => rfl

/-- A NaN gives the default NaN; of equal values, which differ at most in the sign of zero, the one with the sign is the lesser. -/
theorem fpMinMax_eq (ff : FpFmt) (isMax : Bool) (x y : Nat) : fpMinMax ff isMax x y =
    (if (ff.decode x).isNan || (ff.decode y).isNan then ff.nan
      else if (ff.decode x).cmp (ff.decode y) == some .lt then (if isMax then y else x)
      else if (ff.decode x).cmp (ff.decode y) == some .eq then
        (if x.testBit (ff.ew + ff.mw) then (if isMax then y else x) else (if isMax then x else y))
      else (if isMax then x else y),
      flagIf ((ff.decode x).snan || (ff.decode y).snan) fNv) := by
  rw [← Fp.isNone_cmp, fpMinMax]
  rcases (ff.decode x).cmp (ff.decode y) with _ | _ | _ | _
  case none | some.lt | some.gt => simp
  case some.eq => cases isMax <;> cases h : x.testBit (ff.ew + ff.mw) <;> simp [bit, h]

theorem fpMinMax_flags (ff : FpFmt) (isMax : Bool) (x y : Nat) :
    (fpMinMax ff isMax x y).2 = flagIf ((ff.decode x).snan || (ff.decode y).snan) fNv := by
  rw [fpMinMax_eq]

/-- The result is the default NaN or an operand. -/
theorem fpMinMax_lt {ff : FpFmt} {x y b : Nat} (isMax : Bool) (hn : ff.nan < b) (hx : x < b) (hy : y < b) :
    (fpMinMax ff isMax x y).1 < b := by
  rw [fpMinMax_eq]
  dsimp only
  split_ifs <;> assumption

theorem fpCmp_unordered (a b : Fp) : (fpCmp 6 a b).1 = (a.isNan || b.isNan) := by
  rw [← Fp.isNone_cmp]
  change (a.cmp b == none) = _
  cases a.cmp b <;> rfl

theorem fpCmp_ordered (a b : Fp) : (fpCmp 7 a b).1 = !(a.isNan || b.isNan) :=
  congrArg not (fpCmp_unordered a b)

/-! ### One lane -/

section
variable {f : F0} {ff : FpFmt} (he : elemOf f.ty.toNat = .fp ff) (a : Arch)
include he

theorem laneMinMax_float (isMax : Bool) (l : Nat) :
    laneMinMax a f isMax l = fpMinMax ff isMax (a.vlane f.ty.toNat f.ra l) (a.vlane f.ty.toNat f.rb l) := by
  simp only [laneMinMax, he]

theorem laneCmp_float (l : Nat) :
    let x := ff.decode (a.vlane f.ty.toNat f.ra l)
    let y := ff.decode (a.vlane f.ty.toNat f.rb l)
    laneCmp a f l =
      (if (fpCmp f.xop.toNat x y).1 then 2 ^ codeWidth f.ty.toNat - 1 else 0, flagIf (x.snan || y.snan) fNv) := by
  simp only [laneCmp, he]
  rfl

/-- A value that is not a NaN keeps every bit but the sign, and only a signalling NaN sets a flag. -/
theorem laneUn_float (l : Nat) :
    let w := codeWidth f.ty.toNat
    let x := a.vlane f.ty.toNat f.ra l
    laneUn a f l =
      (if (ff.decode x).isNan then ff.nan else if f.xop = 0 then x % 2 ^ (w - 1) else (x + 2 ^ (w - 1)) % 2 ^ w,
        flagIf (ff.decode x).snan fNv) := by
  simp only [laneUn, he, Arch.vlane_xor_sign he]
  cases hv : (ff.decode (a.vlane f.ty.toNat f.ra l)).isNan with
  | true => rfl
  | false =>
    simp only [Fp.snan_of_not_isNan hv, beq_iff_eq]
    split_ifs <;> rfl

end

/-! ### The instructions (R103) -/

section
variable (n : Nat) (f : F0) (s : State)

theorem exec_vmin : exec (.vmin n f) s =
    issueVec n f (legalVmm f) (arithType f.ty.toNat) s fun a => laneWise a f (laneMinMax a f false) := rfl

theorem exec_vmax : exec (.vmax n f) s =
    issueVec n f (legalVmm f) (arithType f.ty.toNat) s fun a => laneWise a f (laneMinMax a f true) := rfl

theorem exec_vun : exec (.vun n f) s =
    issueVec n f (legalF0 { rd := true, ra := true, ty := true } f (f.xop == 0 || f.xop == 1)) (arithType f.ty.toNat) s
      fun a => laneWise a f (laneUn a f) := rfl

theorem exec_vcmp : exec (.vcmp n f) s =
    issueVec n f (legalF0 { rd := true, ra := true, rb := true, ty := true } f (vcmpXop f.ty.toNat f.xop.toNat))
      (arithType f.ty.toNat) s fun a => laneWise a f (laneCmp a f) := rfl

end

section
variable {f : F0} (hrc : f.rc = 0) (hrm : f.rm = 0) (hri : f.ri = 0) (hres : f.res = 0)
include hrc hrm hri hres

theorem legalF0_binary (ok : Bool) : legalF0 { rd := true, ra := true, rb := true, ty := true } f ok = ok := by
  simp [legalF0, hrc, hrm, hri, hres]

theorem legalF0_unary (hrb : f.rb = 0) (ok : Bool) : legalF0 { rd := true, ra := true, ty := true } f ok = ok := by
  simp [legalF0, hrb, hrc, hrm, hri, hres]

variable {s : State} {n : Nat} {ff : FpFmt} (hi : Issues s n f.g false) (h6 : 6 ≤ f.ty.toNat) (h9 : f.ty.toNat ≤ 9)
  (he : elemOf f.ty.toNat = .fp ff)
include hi h6 h9 he

/-- vmin and vmax: one lane is `fpMinMax` of the lanes of ra and rb. -/
theorem vectorOut_minMax (hx : f.xop = 0) (isMax : Bool) :
    let x := (s.cell n).arch.vlane f.ty.toNat f.ra
    let y := (s.cell n).arch.vlane f.ty.toNat f.rb
    VectorOut s n f (laneFlags f.ty.toNat fun l => flagIf ((ff.decode (x l)).snan || (ff.decode (y l)).snan) fNv)
      (fun l => (fpMinMax ff isMax (x l) (y l)).1)
      (issueVec n f (legalVmm f) (arithType f.ty.toNat) s fun a => laneWise a f (laneMinMax a f isMax)) := by
  intro x y
  have legal : legalVmm f = true := by rw [legalVmm, legalF0_binary hrc hrm hri hres, hx]; rfl
  refine vectorOut_laneWise hi legal (arithType_of_float h6 h9) (fun l => ?_) (fun l => ?_) fun _ => flagIf_nv_lt _
  · rw [laneMinMax_float he]
    exact Prod.ext rfl (fpMinMax_flags ..)
  · exact fpMinMax_lt isMax (nan_lt_of_elemOf he) (Arch.vlane_lt ..) (Arch.vlane_lt ..)

/-- vcmp: `r` says what the comparison code `k` asks of two values. -/
theorem vectorOut_cmp (k : BitVec 6) (hx : f.xop = k) (hk : (decide (k.toNat ≤ 3) || k == 6 || k == 7) = true)
    (r : Fp → Fp → Bool) (hr : ∀ u v, (fpCmp k.toNat u v).1 = r u v) :
    let x l := ff.decode ((s.cell n).arch.vlane f.ty.toNat f.ra l)
    let y l := ff.decode ((s.cell n).arch.vlane f.ty.toNat f.rb l)
    VectorOut s n f (laneFlags f.ty.toNat fun l => flagIf ((x l).snan || (y l).snan) fNv)
      (fun l => if r (x l) (y l) then 2 ^ codeWidth f.ty.toNat - 1 else 0) (exec (.vcmp n f) s) := by
  intro x y
  rw [exec_vcmp]
  have legal : vcmpXop f.ty.toNat f.xop.toNat = true := by
    have notInt : isInt f.ty.toNat = false := decide_eq_false (by omega)
    simpa [vcmpXop, notInt, arithType_of_float h6 h9, hx, ← BitVec.toNat_inj] using hk
  refine vectorOut_laneWise hi (by rw [legalF0_binary hrc hrm hri hres, legal]) (arithType_of_float h6 h9) (fun l => ?_)
    (fun l => ?_) fun _ => flagIf_nv_lt _
  · rw [laneCmp_float he, hx, hr]
  · have ones := Nat.two_pow_pos (codeWidth f.ty.toNat)
    split <;> omega

/-- vun: the sign goes with xop 0 and is inverted with xop 1. -/
theorem vectorOut_un (hrb : f.rb = 0) (hx : f.xop.toNat ≤ 1) :
    let w := codeWidth f.ty.toNat
    let x := (s.cell n).arch.vlane f.ty.toNat f.ra
    VectorOut s n f (laneFlags f.ty.toNat fun l => flagIf (ff.decode (x l)).snan fNv)
      (fun l => if (ff.decode (x l)).isNan then ff.nan
        else if f.xop = 0 then x l % 2 ^ (w - 1) else (x l + 2 ^ (w - 1)) % 2 ^ w) (exec (.vun n f) s) := by
  intro w x
  rw [exec_vun]
  have code : (f.xop == 0 || f.xop == 1) = true := by
    have : f.xop.toNat = 0 ∨ f.xop.toNat = 1 := by omega
    simpa [← BitVec.toNat_inj] using this
  refine vectorOut_laneWise hi (by rw [legalF0_unary hrc hrm hri hres hrb, code]) (arithType_of_float h6 h9)
    (laneUn_float he _) (fun l => ?_) fun _ => flagIf_nv_lt _
  have half : 2 ^ (w - 1) ≤ 2 ^ w := Nat.pow_le_pow_right Nat.two_pos (Nat.sub_le ..)
  split_ifs
  · exact nan_lt_of_elemOf he
  · exact (Nat.mod_lt _ (Nat.two_pow_pos _)).trans_le half
  · exact Nat.mod_lt _ (Nat.two_pow_pos _)

end

/-- Settles O12: each instruction works lane by lane, and a lane's result and flag are those of the order of its two values. -/
theorem vectorFloatOrder : Obligations.VectorFloatOrder := by
  intro s n f ff hi h6 h9 he hrc hrm hri hres ty w a x y nan signals below alike ones
  have sign : ff.ew + ff.mw = w - 1 := by rw [show w = _ from codeWidth_of_elemOf he]; rfl
  have minMax := vectorOut_minMax hrc hrm hri hres hi h6 h9 he
  have cmp := vectorOut_cmp hrc hrm hri hres hi h6 h9 he
  refine ⟨fun hx => ?_, vectorOut_un hrc hrm hri hres hi h6 h9 he, fun hx => ?_, fun hx => ?_, fun hx => ?_, fun hx => ?_,
    fun hx => ?_, fun hx => ?_⟩
  · rw [exec_vmin, exec_vmax]
    simp only [fpMinMax_eq, sign] at minMax
    exact ⟨minMax hx false, minMax hx true⟩
  · exact cmp 0 hx rfl (fun u v => u.cmp v == some .eq) fun _ _ => rfl
  · exact cmp 1 hx rfl (fun u v => !(u.cmp v == some .eq)) fun _ _ => rfl
  · exact cmp 2 hx rfl (fun u v => u.cmp v == some .lt) fun _ _ => rfl
  · exact cmp 3 hx rfl (fun u v => u.cmp v == some .lt || u.cmp v == some .eq) fun _ _ => rfl
  · exact cmp 6 hx rfl (fun u v => u.isNan || v.isNan) fpCmp_unordered
  · exact cmp 7 hx rfl (fun u v => !(u.isNan || v.isNan)) fpCmp_ordered

end Sys2Proof.Machine

/-!
PROOFS. The ECC code of close memory (O29): symbols are values in a field of characteristic 2 with a root of the field
polynomial, so a word is a polynomial there, and two codewords that differ in at most four places are equal.
-/

namespace Sys2Proof.Machine

/-! ### Symbols as values in a field of characteristic 2 (R194) -/

/-- A field that holds a root of every polynomial over the bits. -/
abbrev BitField := AlgebraicClosure (ZMod 2)

theorem exists_fieldPolynomial_eq_zero : ∃ a : BitField, a ^ 8 + a ^ 4 + a ^ 3 + a ^ 2 + 1 = 0 := by
  have degree : (Polynomial.X ^ 8 + Polynomial.X ^ 4 + Polynomial.X ^ 3 + Polynomial.X ^ 2 + 1 :
      Polynomial BitField).degree = 8 := by
    compute_degree!
  obtain ⟨a, ha⟩ := IsAlgClosed.exists_root _ (degree.trans_ne (by decide))
  exact ⟨a, by simpa using ha⟩

/-- α: a root of the field polynomial. -/
noncomputable def gfRoot : BitField := exists_fieldPolynomial_eq_zero.choose

theorem gfRoot_poly : gfRoot ^ 8 + gfRoot ^ 4 + gfRoot ^ 3 + gfRoot ^ 2 + 1 = 0 :=
  exists_fieldPolynomial_eq_zero.choose_spec

theorem gfRoot_ne_zero : gfRoot ≠ 0 := by
  intro h
  simpa [h] using gfRoot_poly

/-- The value of a symbol: its bits are the coefficients of the powers of α. Bit 8 is that of a doubled symbol before it is
reduced. -/
noncomputable def gfVal (a : Nat) : BitField := ∑ i ∈ Finset.range 9, if bit a i then gfRoot ^ i else 0

@[simp] theorem gfVal_zero : gfVal 0 = 0 := by simp [gfVal, bit]

@[simp] theorem gfVal_one : gfVal 1 = 1 := by simp [gfVal, bit, Finset.sum_range_succ, Nat.testBit]

theorem gfVal_fieldPolynomial : gfVal 0x11D = 0 := by
  have value : gfVal 0x11D = 1 + gfRoot ^ 2 + gfRoot ^ 3 + gfRoot ^ 4 + gfRoot ^ 8 := by
    simp [gfVal, bit, Finset.sum_range_succ, Nat.testBit]
  rw [value, ← gfRoot_poly]
  ring

@[simp] theorem gfVal_xor (a b : Nat) : gfVal (a ^^^ b) = gfVal a + gfVal b := by
  simp only [gfVal, ← Finset.sum_add_distrib]
  refine Finset.sum_congr rfl fun i _ => ?_
  unfold bit
  rw [Nat.testBit_xor]
  cases a.testBit i <;> cases b.testBit i <;> simp [CharTwo.add_self_eq_zero]

/-- A symbol has eight bits. -/
theorem gfVal_of_lt {a : Nat} (h : a < 256) : gfVal a = ∑ i ∈ Finset.range 8, if bit a i then gfRoot ^ i else 0 := by
  have top : bit a 8 = false := Nat.testBit_lt_two_pow h
  simp [gfVal, Finset.sum_range_succ _ 8, top]

theorem gfVal_two_mul {a : Nat} (h : a < 256) : gfVal (2 * a) = gfRoot * gfVal a := by
  have shifted (i : Nat) :
      (if bit (2 * a) (i + 1) then gfRoot ^ (i + 1) else 0) = gfRoot * if bit a i then gfRoot ^ i else 0 := by
    have same : bit (2 * a) (i + 1) = bit a i := by simp [bit, Nat.testBit_succ]
    rw [same, pow_succ', mul_ite, mul_zero]
  calc gfVal (2 * a) = ∑ i ∈ Finset.range 8, if bit (2 * a) (i + 1) then gfRoot ^ (i + 1) else 0 := by
        simp [gfVal, Finset.sum_range_succ' _ 8, bit]
    _ = gfRoot * gfVal a := by simp only [shifted, gfVal_of_lt h, Finset.mul_sum]

theorem gfX_lt {a : Nat} (h : a < 256) : gfX a < 256 := by
  revert a
  decide +kernel

theorem gfVal_gfX {a : Nat} (h : a < 256) : gfVal (gfX a) = gfRoot * gfVal a := by
  unfold gfX
  split
  · rw [gfVal_xor, gfVal_fieldPolynomial, add_zero, gfVal_two_mul h]
  · exact gfVal_two_mul h

theorem gfPow_lt : ∀ n, gfPow n < 256
  | 0 => by decide
  | n + 1 => gfX_lt (gfPow_lt n)

@[simp] theorem gfVal_gfPow : ∀ n, gfVal (gfPow n) = gfRoot ^ n
  | 0 => gfVal_one.trans (pow_zero gfRoot).symm
  | n + 1 => by rw [gfPow, gfVal_gfX (gfPow_lt n), gfVal_gfPow n, pow_succ']

/-- α is primitive: its powers are all the nonzero symbols. -/
theorem exists_gfPow_eq {a : Nat} (h : a < 256) (h0 : a ≠ 0) : ∃ n < 255, gfPow n = a := by
  revert a
  decide +kernel

theorem gfVal_ne_zero {a : Nat} (h : a < 256) (h0 : a ≠ 0) : gfVal a ≠ 0 := by
  obtain ⟨n, -, rfl⟩ := exists_gfPow_eq h h0
  rw [gfVal_gfPow]
  exact pow_ne_zero n gfRoot_ne_zero

theorem xor_lt_256 {a b : Nat} (ha : a < 256) (hb : b < 256) : a ^^^ b < 256 :=
  Nat.xor_lt_two_pow (n := 8) ha hb

theorem gfVal_inj {a b : Nat} (ha : a < 256) (hb : b < 256) : gfVal a = gfVal b ↔ a = b := by
  refine ⟨fun h => ?_, congrArg gfVal⟩
  by_contra hne
  refine gfVal_ne_zero (xor_lt_256 ha hb) (Nat.xor_ne_zero_iff.mpr hne) ?_
  rw [gfVal_xor, h, CharTwo.add_self_eq_zero]

/-- One step of `gfMul`. -/
def mulStep (a b r i : Nat) : Nat := gfX r ^^^ (if bit a i then b else 0)

theorem mulStep_lt {a b r i : Nat} (hb : b < 256) (hr : r < 256) : mulStep a b r i < 256 := by
  refine xor_lt_256 (gfX_lt hr) ?_
  split
  · exact hb
  · decide

theorem gfVal_mulStep {a b r i : Nat} (hr : r < 256) :
    gfVal (mulStep a b r i) = gfRoot * gfVal r + (if bit a i then 1 else 0) * gfVal b := by
  rw [mulStep, gfVal_xor, gfVal_gfX hr]
  split <;> simp

theorem foldl_mulStep {a b : Nat} (hb : b < 256) : ∀ n r, r < 256 →
    (List.range n).reverse.foldl (mulStep a b) r < 256 ∧
      gfVal ((List.range n).reverse.foldl (mulStep a b) r) =
        gfRoot ^ n * gfVal r + (∑ i ∈ Finset.range n, if bit a i then gfRoot ^ i else 0) * gfVal b
  | 0, r, hr => by simp [hr]
  | n + 1, r, hr => by
    obtain ⟨lt, value⟩ := foldl_mulStep hb n (mulStep a b r n) (mulStep_lt hb hr)
    rw [List.range_succ, List.reverse_append, List.reverse_singleton, List.singleton_append, List.foldl_cons]
    refine ⟨lt, ?_⟩
    rw [value, gfVal_mulStep hr, Finset.sum_range_succ]
    split <;> ring

theorem gfMul_lt (a : Nat) {b : Nat} (hb : b < 256) : gfMul a b < 256 :=
  (foldl_mulStep hb 8 0 (by decide)).1

theorem gfVal_gfMul {a b : Nat} (ha : a < 256) (hb : b < 256) : gfVal (gfMul a b) = gfVal a * gfVal b := by
  rw [gfVal_of_lt ha]
  refine (foldl_mulStep hb 8 0 (by decide)).2.trans ?_
  rw [gfVal_zero, mul_zero, zero_add]

theorem gfMul_one {a : Nat} (ha : a < 256) : gfMul a 1 = a := by
  rw [← gfVal_inj (gfMul_lt a (by decide)) ha, gfVal_gfMul ha (by decide), gfVal_one, mul_one]

/-! ### Words as polynomials -/

/-- The value at `x` of the polynomial that has the symbols of a word as its coefficients, the first one highest. -/
noncomputable def wordVal (x : BitField) : List Nat → BitField
  | [] => 0
  | c :: l => gfVal c * x ^ l.length + wordVal x l

theorem wordVal_append (x : BitField) (l r : List Nat) : wordVal x (l ++ r) = wordVal x l * x ^ r.length + wordVal x r := by
  induction l with
  | nil => simp [wordVal]
  | cons c l ih =>
    simp only [List.cons_append, wordVal, ih, List.length_append, pow_add]
    ring

theorem wordVal_zipWith_xor (x : BitField) : ∀ l r : List Nat, l.length = r.length →
    wordVal x (List.zipWith (· ^^^ ·) l r) = wordVal x l + wordVal x r
  | [], [], _ => by simp [wordVal]
  | a :: l, b :: r, h => by
    have lengths : l.length = r.length := Nat.succ.inj h
    have rest := wordVal_zipWith_xor x l r lengths
    simp only [List.zipWith_cons_cons, wordVal, gfVal_xor, List.length_zipWith, rest, lengths, Nat.min_self]
    ring

theorem wordVal_map_gfMul (x : BitField) {f : Nat} (hf : f < 256) (l : List Nat) (hl : ∀ c ∈ l, c < 256) :
    wordVal x (l.map (gfMul f)) = gfVal f * wordVal x l := by
  induction l with
  | nil => simp [wordVal]
  | cons c l ih =>
    obtain ⟨hc, hl⟩ := List.forall_mem_cons.mp hl
    simp only [List.map_cons, wordVal, List.length_map, ih hl, gfVal_gfMul hf hc]
    ring

theorem foldl_horner {x : Nat} (hx : x < 256) (l : List Nat) (hl : ∀ c ∈ l, c < 256) : ∀ r < 256,
    l.foldl (fun r c => gfMul r x ^^^ c) r < 256 ∧
      gfVal (l.foldl (fun r c => gfMul r x ^^^ c) r) = gfVal r * gfVal x ^ l.length + wordVal (gfVal x) l := by
  induction l with
  | nil => exact fun r hr => ⟨hr, by simp [wordVal]⟩
  | cons c l ih =>
    intro r hr
    obtain ⟨hc, hl⟩ := List.forall_mem_cons.mp hl
    obtain ⟨lt, value⟩ := ih hl (gfMul r x ^^^ c) (xor_lt_256 (gfMul_lt r hx) hc)
    refine ⟨lt, value.trans ?_⟩
    rw [gfVal_xor, gfVal_gfMul hr hx, wordVal, List.length_cons, pow_succ]
    ring

section
variable {x : Nat} (hx : x < 256) {l : List Nat} (hl : ∀ c ∈ l, c < 256)
include hx hl

theorem gfEval_lt : gfEval l x < 256 :=
  (foldl_horner hx l hl 0 (by decide)).1

theorem gfVal_gfEval : gfVal (gfEval l x) = wordVal (gfVal x) l := by
  refine (foldl_horner hx l hl 0 (by decide)).2.trans ?_
  rw [gfVal_zero, zero_mul, zero_add]

end

theorem wordVal_eq_sum (x : BitField) (l : List Nat) :
    wordVal x l = ∑ i ∈ Finset.range l.length, gfVal (l.getD i 0) * x ^ (l.length - 1 - i) := by
  induction l with
  | nil => simp [wordVal]
  | cons c l ih =>
    rw [wordVal, List.length_cons, Finset.sum_range_succ', ih, add_comm]
    congr 1
    refine Finset.sum_congr rfl fun i _ => ?_
    rw [List.getD_cons_succ, Nat.add_sub_cancel, Nat.add_comm i 1, Nat.sub_sub]

/-! ### The check bytes make a multiple of the generator (R194) -/

theorem length_rsGen : rsGen.length = 4 := by decide +kernel

theorem rsGen_lt : ∀ c ∈ rsGen, c < 256 := by decide +kernel

/-- The powers of α at which a codeword is zero are the roots of the generator, whose leading coefficient `rsGen` leaves out. -/
theorem wordVal_rsGen {j : Nat} (hj : j < 4) : wordVal (gfRoot ^ j) rsGen = (gfRoot ^ j) ^ 4 := by
  have root : ∀ j < 4, gfEval (1 :: rsGen) (gfPow j) = 0 := by decide +kernel
  have value := gfVal_gfEval (gfPow_lt j) (List.forall_mem_cons.mpr ⟨show 1 < 256 by decide, rsGen_lt⟩)
  rw [root j hj, gfVal_zero, gfVal_gfPow, wordVal, gfVal_one, one_mul] at value
  exact (CharTwo.add_eq_zero.mp value.symm).symm

/-- The remainder after one more symbol of the message. -/
def checkStep (r : List Nat) (m : Nat) : List Nat :=
  List.zipWith (· ^^^ ·) (r.drop 1 ++ [0]) (rsGen.map (gfMul (m ^^^ r.headD 0)))

theorem rsCheck_concat (msg : List Nat) (m : Nat) : rsCheck (msg ++ [m]) = checkStep (rsCheck msg) m :=
  List.foldl_append

/-- The remainder of a message: four symbols whose polynomial is the message times x^4 at each root of the generator. -/
structure IsRemainder (msg r : List Nat) : Prop where
  length : r.length = 4
  lt : ∀ c ∈ r, c < 256
  val : ∀ j < 4, wordVal (gfRoot ^ j) r = wordVal (gfRoot ^ j) msg * (gfRoot ^ j) ^ 4

theorem zipWith_xor_lt : ∀ l r : List Nat, (∀ c ∈ l, c < 256) → (∀ c ∈ r, c < 256) →
    ∀ c ∈ List.zipWith (· ^^^ ·) l r, c < 256
  | a :: l, b :: r, hl, hr => by
    obtain ⟨ha, hl⟩ := List.forall_mem_cons.mp hl
    obtain ⟨hb, hr⟩ := List.forall_mem_cons.mp hr
    exact List.forall_mem_cons.mpr ⟨xor_lt_256 ha hb, zipWith_xor_lt l r hl hr⟩
  | [], _, _, _ => by simp
  | _ :: _, [], _, _ => by simp

theorem IsRemainder.concat {msg r : List Nat} {m : Nat} (h : IsRemainder msg r) (hm : m < 256) :
    IsRemainder (msg ++ [m]) (checkStep r m) := by
  obtain ⟨length, lt, val⟩ := h
  obtain ⟨a, r, rfl⟩ : ∃ a t, r = a :: t := List.exists_cons_of_length_eq_add_one length
  obtain ⟨ha, hr⟩ := List.forall_mem_cons.mp lt
  have lengthR : r.length = 3 := Nat.succ.inj length
  have hf : m ^^^ a < 256 := xor_lt_256 hm ha
  have hg : ∀ c ∈ rsGen.map (gfMul (m ^^^ a)), c < 256 :=
    List.forall_mem_map.mpr fun c hc => gfMul_lt _ (rsGen_lt c hc)
  have hs : ∀ c ∈ r ++ [0], c < 256 := by simpa [or_imp, forall_and] using hr
  refine ⟨by simp [checkStep, length_rsGen, lengthR], zipWith_xor_lt _ _ hs hg, fun j hj => ?_⟩
  have value := val j hj
  rw [wordVal, lengthR] at value
  calc wordVal (gfRoot ^ j) (checkStep (a :: r) m)
      = wordVal (gfRoot ^ j) (r ++ [0]) + wordVal (gfRoot ^ j) (rsGen.map (gfMul (m ^^^ a))) :=
        wordVal_zipWith_xor _ _ _ (by simp [length_rsGen, lengthR])
    _ = wordVal (gfRoot ^ j) r * gfRoot ^ j + (gfVal m + gfVal a) * (gfRoot ^ j) ^ 4 := by
        rw [wordVal_append, wordVal_map_gfMul _ hf _ rsGen_lt, wordVal_rsGen hj, gfVal_xor]
        simp [wordVal]
    _ = (gfVal a * (gfRoot ^ j) ^ 3 + wordVal (gfRoot ^ j) r) * gfRoot ^ j + gfVal m * (gfRoot ^ j) ^ 4 := by ring
    _ = wordVal (gfRoot ^ j) (msg ++ [m]) * (gfRoot ^ j) ^ 4 := by
        rw [value, wordVal_append]
        simp only [wordVal, List.length_singleton, List.length_nil, pow_zero, pow_one, mul_one, add_zero]
        ring

theorem isRemainder_rsCheck (msg : List Nat) (h : ∀ c ∈ msg, c < 256) : IsRemainder msg (rsCheck msg) := by
  induction msg using List.reverseRecOn with
  | nil => exact ⟨rfl, by decide, fun j _ => by simp [rsCheck, wordVal]⟩
  | append_singleton msg m ih =>
    obtain ⟨hmsg, hm⟩ := List.forall_mem_append.mp h
    rw [rsCheck_concat]
    exact (ih hmsg).concat (hm m List.mem_cons_self)

/-! ### Words, codewords and their distance (R194) -/

/-- A word of the code's length. -/
structure IsWord (w : List Nat) : Prop where
  length : w.length = 72
  lt : ∀ c ∈ w, c < 256

/-- The four syndromes are zero. -/
def IsCodeword (w : List Nat) : Prop := ∀ j < 4, gfEval w (gfPow j) = 0

/-- The 64 data bytes of a word. -/
def dataOf (w : List Nat) : List Byte := (w.take 64).map (BitVec.ofNat 8)

theorem length_leBytes : ∀ n x, (leBytes n x).length = n
  | 0, _ => rfl
  | n + 1, x => congrArg (· + 1) (length_leBytes n (x / 256))

theorem message_lt (data : List Byte) (line : Nat) : ∀ c ∈ (data ++ leBytes 4 line).map BitVec.toNat, c < 256 :=
  List.forall_mem_map.mpr fun b _ => b.isLt

section
variable {data : List Byte} (h : data.length = 64) (line : Nat)
include h

theorem isWord_rsWord : IsWord (rsWord data line) := by
  obtain ⟨length, lt, -⟩ := isRemainder_rsCheck _ (message_lt data line)
  refine ⟨?_, List.forall_mem_append.mpr ⟨message_lt data line, lt⟩⟩
  rw [rsWord, List.length_append, length, List.length_map, List.length_append, length_leBytes, h]

theorem isCodeword_rsWord : IsCodeword (rsWord data line) := by
  intro j hj
  have word := isWord_rsWord h line
  obtain ⟨length, -, val⟩ := isRemainder_rsCheck _ (message_lt data line)
  rw [← gfVal_inj (gfEval_lt (gfPow_lt j) word.lt) (by decide), gfVal_gfEval (gfPow_lt j) word.lt, gfVal_gfPow, rsWord,
    wordVal_append, length, val j hj, CharTwo.add_self_eq_zero, gfVal_zero]

theorem dataOf_rsWord : dataOf (rsWord data line) = data := by
  have front : (rsWord data line).take 64 = data.map BitVec.toNat := by
    rw [rsWord, List.map_append, List.append_assoc, List.take_left' (by rw [List.length_map, h])]
  rw [dataOf, front, List.map_map]
  exact (List.map_congr_left fun b _ => by simp).trans (List.map_id data)

end

/-- The positions at which two words differ. -/
def differs (w c : List Nat) : Finset Nat := (Finset.range 72).filter fun i => w.getD i 0 ≠ c.getD i 0

theorem mem_differs {w c : List Nat} {i : Nat} : i ∈ differs w c ↔ i < 72 ∧ w.getD i 0 ≠ c.getD i 0 := by
  simp [differs]

theorem IsWord.getD_lt {w : List Nat} (h : IsWord w) {i : Nat} (hi : i < 72) : w.getD i 0 < 256 := by
  rw [List.getD_eq_getElem _ _ (h.length.symm ▸ hi)]
  exact h.lt _ (List.getElem_mem _)

theorem IsCodeword.wordVal_eq_zero {w : List Nat} (hc : IsCodeword w) (hw : IsWord w) {j : Nat} (hj : j < 4) :
    wordVal (gfRoot ^ j) w = 0 := by
  rw [← gfVal_gfPow, ← gfVal_gfEval (gfPow_lt j) hw.lt, hc j hj, gfVal_zero]

/-- Distinct positions have distinct locators. -/
theorem gfRoot_pow_inj {i k : Nat} (hi : i < 72) (hk : k < 72) (h : gfRoot ^ i = gfRoot ^ k) : i = k := by
  have distinct : ∀ i < 72, ∀ k < 72, gfPow i = gfPow k → i = k := by decide +kernel
  refine distinct i hi k hk ?_
  rwa [← gfVal_inj (gfPow_lt i) (gfPow_lt k), gfVal_gfPow, gfVal_gfPow]

/-- The Vandermonde argument: at most four terms with distinct locators do not cancel in four successive power sums. -/
theorem eq_zero_of_power_sums {S : Finset Nat} {a v : Nat → BitField} (hS : S.card ≤ 4) (ha : Set.InjOn a S)
    (h : ∀ j < 4, ∑ i ∈ S, v i * a i ^ j = 0) {i : Nat} (hi : i ∈ S) : v i = 0 := by
  let e := S.equivFin.symm
  have injective : Function.Injective fun k => a (e k) := fun k l hkl => e.injective (Subtype.ext (ha (e k).2 (e l).2 hkl))
  have zero := Matrix.eq_zero_of_forall_pow_sum_mul_pow_eq_zero (v := fun k => v (e k)) injective fun j => by
    rw [← h j (j.isLt.trans_le hS), ← Finset.sum_coe_sort S]
    exact e.sum_comp fun i => v i * a i ^ (j : Nat)
  simpa [e] using congrFun zero (S.equivFin ⟨i, hi⟩)

/-- Two codewords that differ in at most four positions are equal: the code has distance five. -/
theorem IsCodeword.eq_of_card_differs_le {w c : List Nat} (hw : IsWord w) (hc : IsWord c) (cw : IsCodeword w)
    (cc : IsCodeword c) (h : (differs w c).card ≤ 4) : w = c := by
  have sums : ∀ j < 4, ∑ i ∈ differs w c, gfVal (w.getD i 0 ^^^ c.getD i 0) * (gfRoot ^ (71 - i)) ^ j = 0 := by
    intro j hj
    have both := congrArg₂ (· + ·) (cw.wordVal_eq_zero hw hj) (cc.wordVal_eq_zero hc hj)
    simp only [wordVal_eq_sum, hw.length, hc.length, ← Finset.sum_add_distrib, ← add_mul, ← gfVal_xor, add_zero] at both
    rw [differs, Finset.sum_filter_of_ne, ← both]
    · exact Finset.sum_congr rfl fun i _ => by rw [pow_right_comm]
    · intro i _ hne same
      exact hne (by rw [same, Nat.xor_self, gfVal_zero, zero_mul])
  have injective : Set.InjOn (fun i => gfRoot ^ (71 - i)) (differs w c) := by
    intro i hi k hk hik
    have hi := (mem_differs.mp hi).1
    have hk := (mem_differs.mp hk).1
    have := gfRoot_pow_inj (by omega) (by omega) hik
    omega
  have none : ∀ i, i ∉ differs w c := by
    intro i hi
    obtain ⟨bound, hne⟩ := mem_differs.mp hi
    exact gfVal_ne_zero (xor_lt_256 (hw.getD_lt bound) (hc.getD_lt bound)) (Nat.xor_ne_zero_iff.mpr hne)
      (eq_zero_of_power_sums h injective sums hi)
  refine List.ext_getElem (hw.length.trans hc.length.symm) fun i hi hi' => ?_
  have bound : i < 72 := hw.length ▸ hi
  have same : w.getD i 0 = c.getD i 0 := by_contra fun hne => none i (mem_differs.mpr ⟨bound, hne⟩)
  rwa [List.getD_eq_getElem _ _ hi, List.getD_eq_getElem _ _ hi'] at same

/-! ### A symbol in error -/

/-- A word with one symbol changed by `v`. -/
def addSymbol (w : List Nat) (i v : Nat) : List Nat := w.set i (w.getD i 0 ^^^ v)

theorem addErrors_cons (w : List Nat) (e : Nat × Byte) (errs : List (Nat × Byte)) :
    addErrors w (e :: errs) = addErrors (addSymbol w e.1 e.2.toNat) errs := rfl

theorem getD_addSymbol_self {w : List Nat} {i : Nat} (v : Nat) (h : i < w.length) :
    (addSymbol w i v).getD i 0 = w.getD i 0 ^^^ v := by
  simp [addSymbol, h]

theorem getD_addSymbol_other {w : List Nat} {i k : Nat} (v : Nat) (h : k ≠ i) : (addSymbol w i v).getD k 0 = w.getD k 0 := by
  simp [addSymbol, List.getD_eq_getElem?_getD, List.getElem?_set_ne h.symm]

theorem addSymbol_zero (w : List Nat) (i : Nat) : addSymbol w i 0 = w := by
  rw [addSymbol, Nat.xor_zero]
  by_cases h : i < w.length
  · rw [List.getD_eq_getElem _ _ h, List.set_getElem_self]
  · exact List.set_eq_of_length_le (Nat.le_of_not_lt h)

/-- Changing a symbol by `v` twice leaves the word. -/
theorem addSymbol_addSymbol {w : List Nat} {i : Nat} (v : Nat) (h : i < w.length) : addSymbol (addSymbol w i v) i v = w := by
  have twice : addSymbol (addSymbol w i v) i v = (addSymbol w i v).set i (w.getD i 0) := by
    rw [addSymbol, getD_addSymbol_self v h, Nat.xor_assoc, Nat.xor_self, Nat.xor_zero]
  rw [twice, addSymbol, List.set_set, List.getD_eq_getElem _ _ h, List.set_getElem_self]

theorem IsWord.addSymbol {w : List Nat} (hw : IsWord w) {i v : Nat} (hi : i < 72) (hv : v < 256) :
    IsWord (addSymbol w i v) := by
  refine ⟨(List.length_set ..).trans hw.length, fun c hc => ?_⟩
  rcases List.mem_or_eq_of_mem_set hc with hc | rfl
  · exact hw.lt c hc
  · exact xor_lt_256 (hw.getD_lt hi) hv

theorem wordVal_addSymbol (x : BitField) (v : Nat) : ∀ (w : List Nat) (i : Nat), i < w.length →
    wordVal x (addSymbol w i v) = wordVal x w + gfVal v * x ^ (w.length - 1 - i)
  | c :: w, 0, _ => by
    simp [addSymbol, wordVal]
    ring
  | c :: w, i + 1, h => by
    have rest := wordVal_addSymbol x v w i (Nat.lt_of_succ_lt_succ h)
    have tail : addSymbol (c :: w) (i + 1) v = c :: addSymbol w i v := rfl
    have length : (addSymbol w i v).length = w.length := List.length_set ..
    have place : (c :: w).length - 1 - (i + 1) = w.length - 1 - i := by
      rw [List.length_cons]
      omega
    rw [tail, wordVal, wordVal, rest, length, place, add_assoc]

/-- What an error adds to a syndrome. -/
theorem gfEval_addSymbol {w : List Nat} (hw : IsWord w) {i v : Nat} (hi : i < 72) (hv : v < 256) (j : Nat) :
    gfEval (addSymbol w i v) (gfPow j) = gfEval w (gfPow j) ^^^ gfMul v (gfPow (j * (71 - i))) := by
  have word := hw.addSymbol hi hv
  have old := gfEval_lt (gfPow_lt j) hw.lt
  have error := gfMul_lt v (gfPow_lt (j * (71 - i)))
  rw [← gfVal_inj (gfEval_lt (gfPow_lt j) word.lt) (xor_lt_256 old error), gfVal_xor, gfVal_gfEval (gfPow_lt j) word.lt,
    gfVal_gfEval (gfPow_lt j) hw.lt, gfVal_gfMul hv (gfPow_lt _), wordVal_addSymbol _ _ _ _ (hw.length.symm ▸ hi), hw.length,
    gfVal_gfPow, gfVal_gfPow, pow_mul]

/-- Changing one symbol makes a codeword exactly where the syndromes are those of that one error. -/
theorem isCodeword_addSymbol {w : List Nat} (hw : IsWord w) {i v : Nat} (hi : i < 72) (hv : v < 256) :
    IsCodeword (addSymbol w i v) ↔ ∀ j < 4, gfEval w (gfPow j) = gfMul v (gfPow (j * (71 - i))) := by
  simp only [IsCodeword, gfEval_addSymbol hw hi hv, Nat.xor_eq_zero_iff]

theorem differs_addSymbol_subset (w c : List Nat) (i v : Nat) : differs (addSymbol w i v) c ⊆ insert i (differs w c) := by
  intro k hk
  obtain ⟨bound, hne⟩ := mem_differs.mp hk
  rw [Finset.mem_insert, mem_differs]
  by_cases same : k = i
  · exact .inl same
  · exact .inr ⟨bound, getD_addSymbol_other v same ▸ hne⟩

theorem card_differs_addSymbol_le (w c : List Nat) (i v : Nat) : (differs (addSymbol w i v) c).card ≤ (differs w c).card + 1 :=
  (Finset.card_le_card (differs_addSymbol_subset w c i v)).trans (Finset.card_insert_le ..)

theorem differs_comm (w c : List Nat) : differs w c = differs c w :=
  Finset.filter_congr fun _ _ => ne_comm

theorem card_differs_self (w : List Nat) : (differs w w).card = 0 := by
  simp [differs]

/-! ### What the decoder answers (R195, log 55) -/

/-- The decoder's test of a position: the four syndromes are those of an error there, whose value is the first of them. -/
def locates (w : List Nat) (i : Nat) : Bool :=
  (List.range 4).all fun j => gfEval w (gfPow j) == gfMul (gfEval w (gfPow 0)) (gfPow (j * (71 - i)))

theorem locates_iff {w : List Nat} (hw : IsWord w) {i : Nat} (hi : i < 72) :
    locates w i = true ↔ IsCodeword (addSymbol w i (gfEval w (gfPow 0))) := by
  rw [isCodeword_addSymbol hw hi (gfEval_lt (gfPow_lt 0) hw.lt)]
  simp [locates]

/-- The first syndrome is the only change of one symbol that can make a codeword. -/
theorem IsCodeword.eq_syndrome {w : List Nat} (hw : IsWord w) {i v : Nat} (hi : i < 72) (hv : v < 256)
    (h : IsCodeword (addSymbol w i v)) : v = gfEval w (gfPow 0) := by
  have first := (isCodeword_addSymbol hw hi hv).mp h 0 (by decide)
  rw [first, Nat.zero_mul, gfPow, gfMul_one hv]

theorem rsDecode_eq (w : List Nat) : rsDecode w =
    if (List.range 4).all (fun j => gfEval w (gfPow j) == 0) then .clean (dataOf w)
    else match (List.range 72).find? (locates w) with
      | some i => if gfEval w (gfPow 0) = 0 ∨ (64 ≤ i ∧ i < 68) then .lost
        else .corrected (dataOf (addSymbol w i (gfEval w (gfPow 0))))
      | none => .lost := rfl

theorem rsDecode_of_isCodeword {w : List Nat} (h : IsCodeword w) : rsDecode w = .clean (dataOf w) := by
  rw [rsDecode_eq, if_pos]
  simpa [IsCodeword] using h

/-- The answer for a word that becomes the codeword `c` by changing the symbol at `i`. -/
def correction (c : List Nat) (i : Nat) : Decoded := if 64 ≤ i ∧ i < 68 then .lost else .corrected (dataOf c)

/-- Out of a word that is no codeword the decoder makes a codeword by changing one symbol, or no such change makes one. -/
theorem rsDecode_cases {w : List Nat} (hw : IsWord w) (hc : ¬ IsCodeword w) :
    (∃ i < 72, ∃ v < 256, IsCodeword (addSymbol w i v) ∧ rsDecode w = correction (addSymbol w i v) i) ∨
      (rsDecode w = .lost ∧ ∀ i < 72, ∀ v < 256, ¬ IsCodeword (addSymbol w i v)) := by
  have nonzero : ¬ (List.range 4).all (fun j => gfEval w (gfPow j) == 0) = true := by simpa [IsCodeword] using hc
  rw [rsDecode_eq, if_neg nonzero]
  cases found : (List.range 72).find? (locates w) with
  | none =>
    refine .inr ⟨rfl, fun i hi v hv h => ?_⟩
    obtain rfl := h.eq_syndrome hw hi hv
    exact List.find?_eq_none.mp found i (List.mem_range.mpr hi) ((locates_iff hw hi).mpr h)
  | some i =>
    have hi : i < 72 := List.mem_range.mp (List.mem_of_find?_eq_some found)
    have code := (locates_iff hw hi).mp (List.find?_some found)
    have hv : gfEval w (gfPow 0) ≠ 0 := fun h0 => hc (by rwa [h0, addSymbol_zero] at code)
    refine .inl ⟨i, hi, _, gfEval_lt (gfPow_lt 0) hw.lt, code, ?_⟩
    simp only [correction, hv, false_or]

/-- One symbol of a codeword in error: the codeword comes back, or the error is in the line index. -/
theorem rsDecode_addSymbol {c : List Nat} (hc : IsWord c) (cc : IsCodeword c) {i v : Nat} (hi : i < 72) (hv : v < 256)
    (h0 : v ≠ 0) : rsDecode (addSymbol c i v) = correction c i := by
  have word := hc.addSymbol hi hv
  have one : (differs (addSymbol c i v) c).card ≤ 1 := (card_differs_addSymbol_le c c i v).trans_eq (by rw [card_differs_self])
  have changed : (addSymbol c i v).getD i 0 ≠ c.getD i 0 := by
    rw [getD_addSymbol_self v (hc.length.symm ▸ hi)]
    simpa using h0
  have broken : ¬ IsCodeword (addSymbol c i v) := fun code =>
    changed (by rw [code.eq_of_card_differs_le word hc cc (one.trans (by decide))])
  rcases rsDecode_cases word broken with ⟨k, hk, u, hu, code, answer⟩ | ⟨-, alone⟩
  · have back : addSymbol (addSymbol c i v) k u = c := code.eq_of_card_differs_le (word.addSymbol hk hu) hc cc
      ((card_differs_addSymbol_le _ c k u).trans (by omega))
    have place : i = k := by_contra fun hne => changed (by rw [← getD_addSymbol_other u hne, back])
    rw [answer, back, place]
  · exact absurd ((addSymbol_addSymbol v (hc.length.symm ▸ hi)).symm ▸ cc) (alone i hi v hv)

/-- A word at distance two or three from a codeword is uncorrectable. -/
theorem rsDecode_of_far {w c : List Nat} (hw : IsWord w) (hc : IsWord c) (cc : IsCodeword c)
    (h2 : 2 ≤ (differs w c).card) (h3 : (differs w c).card ≤ 3) : rsDecode w = .lost := by
  have broken : ¬ IsCodeword w := by
    intro code
    rw [code.eq_of_card_differs_le hw hc cc (by omega), card_differs_self] at h2
    omega
  rcases rsDecode_cases hw broken with ⟨k, hk, u, hu, code, -⟩ | ⟨lost, -⟩
  · have near := (card_differs_addSymbol_le w c k u).trans (by omega : _ ≤ 4)
    have back : addSymbol w k u = c := code.eq_of_card_differs_le (hw.addSymbol hk hu) hc cc near
    have one := card_differs_addSymbol_le w w k u
    rw [back, differs_comm, card_differs_self] at one
    omega
  · exact lost

/-! ### A pattern of errors -/

theorem IsWord.addErrors {w : List Nat} (hw : IsWord w) : ∀ errs : List (Nat × Byte), (∀ e ∈ errs, e.1 < 72) →
    IsWord (addErrors w errs)
  | [], _ => hw
  | e :: errs, h => by
    obtain ⟨he, h⟩ := List.forall_mem_cons.mp h
    exact (hw.addSymbol he e.2.isLt).addErrors errs h

theorem getD_addErrors_of_notMem {i : Nat} : ∀ (errs : List (Nat × Byte)) (w : List Nat), i ∉ errs.map Prod.fst →
    (addErrors w errs).getD i 0 = w.getD i 0
  | [], _, _ => rfl
  | e :: errs, w, h => by
    rw [List.map_cons, List.mem_cons, not_or] at h
    rw [addErrors_cons, getD_addErrors_of_notMem errs _ h.2, getD_addSymbol_other _ h.1]

theorem getD_addErrors_ne {i : Nat} : ∀ (errs : List (Nat × Byte)) (w : List Nat), i < w.length →
    (errs.map Prod.fst).Nodup → (∀ e ∈ errs, e.2 ≠ 0) → i ∈ errs.map Prod.fst →
    (addErrors w errs).getD i 0 ≠ w.getD i 0
  | e :: errs, w, hi, nodup, nonzero, h => by
    obtain ⟨new, nodup⟩ := List.nodup_cons.mp nodup
    obtain ⟨he, nonzero⟩ := List.forall_mem_cons.mp nonzero
    rw [addErrors_cons]
    rcases List.mem_cons.mp h with rfl | later
    · rw [getD_addErrors_of_notMem errs _ new, getD_addSymbol_self _ hi]
      simpa using BitVec.toNat_ne_iff_ne.mpr he
    · have other : i ≠ e.1 := fun same => new (same ▸ later)
      have bound : i < (addSymbol w e.1 e.2.toNat).length := hi.trans_eq (List.length_set ..).symm
      have changed := getD_addErrors_ne errs _ bound nodup nonzero later
      rwa [getD_addSymbol_other _ other] at changed

/-- The word read differs from the word written at the positions in error and nowhere else. -/
theorem card_differs_addErrors {w : List Nat} (hw : IsWord w) {errs : List (Nat × Byte)} (bound : ∀ e ∈ errs, e.1 < 72)
    (nodup : (errs.map Prod.fst).Nodup) (nonzero : ∀ e ∈ errs, e.2 ≠ 0) :
    (differs (addErrors w errs) w).card = errs.length := by
  have places : differs (addErrors w errs) w = (errs.map Prod.fst).toFinset := by
    ext i
    rw [mem_differs, List.mem_toFinset]
    constructor
    · exact fun ⟨_, hne⟩ => by_contra fun h => hne (getD_addErrors_of_notMem errs w h)
    · intro h
      have hi : i < 72 := List.forall_mem_map (P := (· < 72)) |>.mpr bound i h
      exact ⟨hi, getD_addErrors_ne errs w (hw.length.symm ▸ hi) nodup nonzero h⟩
  rw [places, List.toFinset_card_of_nodup nodup, List.length_map]

/-! ### The lines of a device (R195) -/

/-- A position that is stored: a data byte or a check byte, not the line index. -/
def StoredSymbol (i : Nat) : Prop := i < 64 ∨ (68 ≤ i ∧ i < 72)

theorem StoredSymbol.lt {i : Nat} (h : StoredSymbol i) : i < 72 := by
  unfold StoredSymbol at h
  omega

theorem StoredSymbol.correction {i : Nat} (h : StoredSymbol i) (c : List Nat) : correction c i = .corrected (dataOf c) :=
  if_neg (by unfold StoredSymbol at h; omega)

theorem readLine_of_stored (data : List Byte) (line : Nat) {errs : List (Nat × Byte)} (h : ∀ e ∈ errs, StoredSymbol e.1) :
    readLine data line errs = rsDecode (addErrors (rsWord data line) errs) := by
  rw [readLine, List.filter_eq_self.mpr]
  simpa [StoredSymbol] using h

theorem eccCorrectsOneSymbol : Claims.EccCorrectsOneSymbol := by
  intro data line h _
  have word := isWord_rsWord h line
  have code := isCodeword_rsWord h line
  have one {i : Nat} {e : Byte} (hi : i < 72) (he : e ≠ 0) :
      rsDecode (addErrors (rsWord data line) [(i, e)]) = correction (rsWord data line) i :=
    rsDecode_addSymbol word code hi e.isLt (BitVec.toNat_ne_iff_ne.mpr he)
  refine ⟨?_, fun i e hi he => ?_, fun i e h64 h68 he => ?_⟩
  · exact (rsDecode_of_isCodeword code).trans (by rw [dataOf_rsWord h])
  · have stored : StoredSymbol i := hi
    rw [readLine_of_stored data line (by simpa using stored), one stored.lt he, stored.correction, dataOf_rsWord h]
  · rw [one (by omega) he, correction, if_pos ⟨h64, h68⟩]

theorem eccDetectsThreeSymbols : Claims.EccDetectsThreeSymbols := by
  intro data line errs h _ length nodup patterns
  have stored : ∀ e ∈ errs, StoredSymbol e.1 := fun e he => (patterns e he).1
  have bound : ∀ e ∈ errs, e.1 < 72 := fun e he => (stored e he).lt
  have word := isWord_rsWord h line
  have distance := card_differs_addErrors word bound nodup fun e he => (patterns e he).2
  rw [readLine_of_stored data line stored]
  exact rsDecode_of_far (word.addErrors errs bound) word (isCodeword_rsWord h line) (by omega) (by omega)

/-- Settles O29: a codeword is a multiple of the generator, two codewords differ in five places at least, and the decoder answers
only with a codeword next to the word it reads. -/
theorem eccOfLines : Obligations.EccOfLines :=
  ⟨eccCorrectsOneSymbol, eccDetectsThreeSymbols⟩

end Sys2Proof.Machine

/-!
PROOFS. The ascending route in a hive (O38): each link settles its dimension for good, so a link arrives or the next one is of a
higher dimension.
-/

namespace Sys2Proof.Machine

/-! ### The rule by the bits of the two positions (R404) -/

/-- The bit 1 with which a packet takes its link of dimension 2, a link that flips bit 1 at odd positions: `w` of R404. -/
def entryBit (p q : Nat) : Bool := q.testBit 1 ^^ (q.testBit 0 && (p.testBit 2 ^^ q.testBit 2))

theorem cubeEscapeDim_eq (p q : Nat) : cubeEscapeDim p q =
    if p.testBit 0 ≠ q.testBit 0 then 0 else if p.testBit 1 ≠ entryBit p q then 1 else 2 := by
  have bit0 (x : Nat) : x % 2 = (x.testBit 0).toNat := by rw [Nat.toNat_testBit, pow_zero, Nat.div_one]
  have bit1 (x : Nat) : x / 2 % 2 = (x.testBit 1).toNat := (Nat.toNat_testBit x 1).symm
  have bit2 (x : Nat) : x / 4 % 2 = (x.testBit 2).toNat := (Nat.toNat_testBit x 2).symm
  have rule : ∀ p0 p1 p2 q0 q1 q2 : Bool,
      (if p0.toNat ≠ q0.toNat then 0
        else if p1.toNat ≠ q1.toNat ^^^ (q0.toNat &&& (p2.toNat ^^^ q2.toNat)) then 1 else 2) =
      if p0 ≠ q0 then 0 else if p1 ≠ (q1 ^^ (q0 && (p2 ^^ q2))) then 1 else 2 := by decide
  rw [cubeEscapeDim, bit1 p, bit1 q, bit2 p, bit2 q, bit0 p, bit0 q]
  exact rule ..

theorem cubeEscapeDim_of_bit0 {p q : Nat} (h : p.testBit 0 = q.testBit 0) :
    cubeEscapeDim p q = if p.testBit 1 ≠ entryBit p q then 1 else 2 := by
  rw [cubeEscapeDim_eq, if_neg (not_not_intro h)]

theorem cubeEscapeDim_le_two (p q : Nat) : cubeEscapeDim p q ≤ 2 := by
  rw [cubeEscapeDim_eq]
  split
  · decide
  · split <;> decide

/-! ### The bits of a neighbour (R372) -/

theorem testBit_neighbour_zero (p i : Nat) : (neighbour 0 p).testBit i = (p.testBit i ^^ decide (0 = i)) := by
  rw [← Nat.testBit_two_pow, ← Nat.testBit_xor]; rfl

theorem testBit_neighbour_one (p i : Nat) : (neighbour 1 p).testBit i = (p.testBit i ^^ decide (1 = i)) := by
  rw [← Nat.testBit_two_pow, ← Nat.testBit_xor]; rfl

theorem testBit_neighbour_two (p i : Nat) :
    (neighbour 2 p).testBit i = (p.testBit i ^^ (decide (2 = i) ^^ (p.testBit 0 && decide (1 = i)))) := by
  have even : p % 2 = 0 ↔ p.testBit 0 = false := by simp
  have six : 6 = 2 ^ 2 ^^^ 2 ^ 1 := rfl
  simp only [← Nat.testBit_two_pow, neighbour, even]
  cases p.testBit 0
  · rw [if_pos rfl, Nat.testBit_xor, Bool.false_and, Bool.xor_false]
  · rw [if_neg Bool.noConfusion, six, Nat.testBit_xor, Nat.testBit_xor, Bool.true_and]

theorem neighbour_lt {p : Nat} (d : Nat) (h : p < 8) : neighbour d p < 8 := by
  have small {x : Nat} (hx : x < 2 ^ 3) : p ^^^ x < 2 ^ 3 := Nat.xor_lt_two_pow h hx
  unfold neighbour
  split
  · exact small (by decide)
  · exact small (by decide)
  · split
    · exact small (by decide)
    · exact small (by decide)

theorem eq_of_bits {p q : Nat} (hp : p < 8) (hq : q < 8) (h0 : p.testBit 0 = q.testBit 0)
    (h1 : p.testBit 1 = q.testBit 1) (h2 : p.testBit 2 = q.testBit 2) : p = q := by
  refine Nat.eq_of_testBit_eq fun i => ?_
  match i with
  | 0 => exact h0
  | 1 => exact h1
  | 2 => exact h2
  | i + 3 =>
    have high : 2 ^ 3 ≤ 2 ^ (i + 3) := Nat.pow_le_pow_right Nat.two_pos (Nat.le_add_left 3 i)
    rw [Nat.testBit_lt_two_pow (hp.trans_le high), Nat.testBit_lt_two_pow (hq.trans_le high)]

/-! ### One link of the route (R404) -/

/-- A link of dimension 0 makes bit 0 that of the destination. -/
theorem cubeEscapeDim_neighbour_zero {p q : Nat} (h : p.testBit 0 ≠ q.testBit 0) :
    0 < cubeEscapeDim (neighbour 0 p) q := by
  have bit0 : (neighbour 0 p).testBit 0 = q.testBit 0 := by
    rw [testBit_neighbour_zero]
    simpa using Bool.eq_not_of_ne h
  rw [cubeEscapeDim_of_bit0 bit0]
  split <;> decide

/-- A link of dimension 1 keeps bit 0, and makes bit 1 the one to enter dimension 2 with. -/
theorem cubeEscapeDim_neighbour_one {p q : Nat} (h0 : p.testBit 0 = q.testBit 0) (h1 : p.testBit 1 ≠ entryBit p q) :
    cubeEscapeDim (neighbour 1 p) q = 2 := by
  have bit0 : (neighbour 1 p).testBit 0 = q.testBit 0 := by
    rw [testBit_neighbour_one, h0]
    exact Bool.xor_false _
  have entry : entryBit (neighbour 1 p) q = entryBit p q := by simp [entryBit, testBit_neighbour_one]
  have bit1 : (neighbour 1 p).testBit 1 = entryBit p q := by
    rw [testBit_neighbour_one]
    simpa using Bool.eq_not_of_ne h1
  rw [cubeEscapeDim_of_bit0 bit0, if_neg (not_not_intro (bit1.trans entry.symm))]

/-- A link of dimension 2 arrives: of two positions that the first two dimensions do not tell apart, bit 2 differs, and the turn of
bit 1 is in `entryBit`. -/
theorem neighbour_two_eq {p q : Nat} (hp : p < 8) (hq : q < 8) (hne : p ≠ q) (h0 : p.testBit 0 = q.testBit 0)
    (h1 : p.testBit 1 = entryBit p q) : neighbour 2 p = q := by
  have h2 : p.testBit 2 = !q.testBit 2 := by
    refine Bool.eq_not_of_ne fun h2 => hne (eq_of_bits hp hq h0 ?_ h2)
    rw [h1, entryBit, h2, Bool.xor_self, Bool.and_false, Bool.xor_false]
  refine eq_of_bits (neighbour_lt 2 hp) hq ?_ ?_ ?_
  · rw [testBit_neighbour_two, h0]
    simp
  · rw [testBit_neighbour_two, h1, entryBit, h2, h0]
    simp
  · simp [testBit_neighbour_two, h2]

/-- A link of the route arrives, or the next one is of a higher dimension. -/
theorem cubeEscapeDim_ascends {p q : Nat} (hp : p < 8) (hq : q < 8) (hne : p ≠ q) :
    neighbour (cubeEscapeDim p q) p = q ∨
      cubeEscapeDim p q < cubeEscapeDim (neighbour (cubeEscapeDim p q) p) q := by
  by_cases h0 : p.testBit 0 = q.testBit 0
  · by_cases h1 : p.testBit 1 = entryBit p q
    · have dim : cubeEscapeDim p q = 2 := by rw [cubeEscapeDim_of_bit0 h0, if_neg (not_not_intro h1)]
      rw [dim]
      exact .inl (neighbour_two_eq hp hq hne h0 h1)
    · have dim : cubeEscapeDim p q = 1 := by rw [cubeEscapeDim_of_bit0 h0, if_pos h1]
      rw [dim, cubeEscapeDim_neighbour_one h0 h1]
      exact .inr (by decide)
  · have dim : cubeEscapeDim p q = 0 := by rw [cubeEscapeDim_eq, if_pos h0]
    rw [dim]
    exact .inr (cubeEscapeDim_neighbour_zero h0)

/-- Settles O38: a third link that did not arrive would be followed by a dimension above 2. -/
theorem ascendingRoute : Obligations.AscendingRoute := by
  refine ⟨fun p q _ _ => ⟨fun h0 => ?_, cubeEscapeDim_of_bit0⟩, ?_⟩
  · rw [cubeEscapeDim_eq, if_pos h0]
  intro p q hp hq hne d1 p1 d2 p2 d3
  have hp1 : p1 < 8 := neighbour_lt d1 hp
  have hp2 : p2 < 8 := neighbour_lt d2 hp1
  by_cases e1 : p1 = q
  · exact .inl e1
  have d12 : d1 < d2 := (cubeEscapeDim_ascends hp hq hne).resolve_left e1
  by_cases e2 : p2 = q
  · exact .inr (.inl ⟨d12, e2⟩)
  have d23 : d2 < d3 := (cubeEscapeDim_ascends hp1 hq e1).resolve_left e2
  refine .inr (.inr ⟨d12, d23, (cubeEscapeDim_ascends hp2 hq e2).resolve_right ?_⟩)
  intro (d34 : d3 < cubeEscapeDim (neighbour d3 p2) q)
  have bound := cubeEscapeDim_le_two (neighbour d3 p2) q
  omega

end Sys2Proof.Machine

/-!
PROOFS. A step and its command (O1), the module after reset (O3), and the words of the cell instructions (O5).
-/

namespace Sys2Proof.Machine

/-- Settles O1: both sides take the front command off the same queue. -/
theorem stepRunsTheFrontCommand : Obligations.StepRunsTheFrontCommand :=
  fun _ _ _ => rfl

/-- Settles O3: every table is empty after reset, so everything reads as its default. -/
theorem resetState : Obligations.ResetState := by
  refine ⟨rfl, rfl, rfl, rfl, rfl, fun n r => ⟨rfl, ?_, rfl, rfl, rfl, rfl, rfl⟩, fun k => rfl, ?_⟩
  · change (if r = 0 then 0 else 0) = _
    split <;> rfl
  · decide +kernel

/-- Refutes O5: a nop that issues a raw word encodes to that word, but a word that spells an instruction decodes to the
instruction. The word 0 spells add. -/
theorem not_instructionWordsRoundTrip : ¬ Obligations.InstructionWordsRoundTrip := by
  intro ⟨decodes, _⟩
  have encoded : encodeCell (.nop 0 ⟨decF2 0, some 0⟩) = some (0, 0) := rfl
  have decoded : decodeCell 0 0 = some (.add 0 (decF0 0)) := rfl
  have same := decodes _ _ _ encoded
  rw [decoded] at same
  cases same

end Sys2Proof.Machine

/-!
PROOFS. Scalar, predicate and immediate instructions (O6), special registers and control (O8).
-/

namespace Sys2Proof.Machine

/-! ### Words of 64 bits: products, orders and fields -/

/-- The high half of a product of integers is that of its 128-bit word. -/
theorem extractLsb'_high_ofInt (p : Int) :
    (BitVec.ofInt 128 p).extractLsb' 64 64 = BitVec.ofInt 64 (p / 2 ^ 64) := by
  apply BitVec.eq_of_toNat_eq
  rw [BitVec.extractLsb'_toNat, BitVec.toNat_ofInt, BitVec.toNat_ofInt, Nat.shiftRight_eq_div_pow]
  norm_num
  omega

theorem ofInt_high_product (x y : Word) :
    BitVec.ofInt 64 (x.toInt * y.toInt / 2 ^ 64) = (x.signExtend 128 * y.signExtend 128).extractLsb' 64 64 := by
  rw [← extractLsb'_high_ofInt, BitVec.ofInt_mul]
  rfl

theorem ofNat_high_product (x y : Word) :
    BitVec.ofNat 64 (x.toNat * y.toNat / 2 ^ 64) = (x.setWidth 128 * y.setWidth 128).extractLsb' 64 64 := by
  apply BitVec.eq_of_toNat_eq
  have bound : x.toNat * y.toNat < 2 ^ 128 := by
    calc x.toNat * y.toNat < 2 ^ 64 * 2 ^ 64 := Nat.mul_lt_mul'' x.isLt y.isLt
      _ = 2 ^ 128 := by norm_num
  have wide (z : Word) : z.toNat < 2 ^ 128 := z.isLt.trans (by norm_num)
  rw [BitVec.extractLsb'_toNat, BitVec.toNat_mul, BitVec.toNat_setWidth, BitVec.toNat_setWidth, Nat.mod_eq_of_lt (wide x),
    Nat.mod_eq_of_lt (wide y), Nat.mod_eq_of_lt bound, Nat.shiftRight_eq_div_pow, BitVec.toNat_ofNat]

theorem toSigned_toNat (x : Word) : toSigned 64 x.toNat = x.toInt := by
  have h := x.isLt
  rw [toSigned, BitVec.toInt_eq_toNat_cond, Nat.mod_eq_of_lt h]
  norm_num
  split <;> split <;> omega

/-- The immediate above, the low word of the register below. -/
theorem immS_shift_or (i : BitVec 32) (x : Word) : (immS i <<< 32) ||| (x &&& 0xFFFFFFFF) = i ++ x.setWidth 32 := by
  have low : x &&& 0xFFFFFFFF = (x.setWidth 32).setWidth 64 := by
    apply BitVec.eq_of_toNat_eq
    have mask : ((0xFFFFFFFF : Word)).toNat = 2 ^ 32 - 1 := rfl
    rw [BitVec.toNat_and, mask, Nat.and_two_pow_sub_one_eq_mod, BitVec.toNat_setWidth, BitVec.toNat_setWidth]
    omega
  have high : immS i <<< 32 = i.setWidth 64 <<< 32 := by
    ext k hk
    simp only [immS, BitVec.getElem_shiftLeft, BitVec.getElem_signExtend, BitVec.getElem_setWidth]
    by_cases h : k < 32
    · simp [h]
    · have : k - 32 < 32 := by omega
      simp [h, this, BitVec.getLsbD_eq_getElem]
  rw [low, high, BitVec.append_def, BitVec.shiftLeftZeroExtend_eq, BitVec.setWidth'_eq]

/-- How a comparison of two 64-bit words reads by its code. -/
theorem intCmp_word (code : Nat) (x y : Word) : intCmp 64 code x.toNat y.toNat =
    match code with
    | 0 => x == y | 1 => x != y | 2 => x.slt y | 3 => x.sle y | 4 => x.ult y | _ => x.ule y := by
  unfold intCmp
  split <;> simp [toSigned_toNat, BitVec.slt, BitVec.sle, BitVec.ult, BitVec.ule, BitVec.toNat_inj, bne, BEq.beq]

theorem ite_decide_lt {α β : Type} [LinearOrder α] (u v : α) (x y : β) [Decidable (v < u)] [Decidable (u ≤ v)] :
    (if decide (v < u) = true then y else x) = if u ≤ v then x else y := by
  rw [← ite_not (u ≤ v)]
  exact if_congr (by rw [decide_eq_true_iff, not_le]) rfl rfl

theorem scalarLt_signed (x y : Word) : scalarLt false x y = decide (x.toInt < y.toInt) := rfl

theorem scalarLt_unsigned (x y : Word) : scalarLt true x y = decide (x.toNat < y.toNat) := rfl

/-! ### Legal words -/

theorem legalMinMax_of_plain {f : F0} (hf : plainF0 f) (hx : f.xop = 0 ∨ f.xop = 1) : legalMinMax f = true := by
  obtain ⟨hrc, hty, hrm, hri, hres⟩ := hf
  simpa [legalMinMax, legalF0, hrc, hty, hrm, hri, hres] using hx

theorem predField_of_lt {r : BitVec 5} (h : r.toNat < 8) : predField r = true := decide_eq_true h

/-! ### Results of two registers (R103) -/

section
variable {s : State} {n : Nat}

/-- A scalar instruction whose legal word executes writes its result. -/
theorem scalarRR_executes {f : F0} {legal : Bool} (hi : Issues s n f.g false) (hl : legal = true) (op : Word → Word → Word) :
    scalarRR n f legal s op = .next (s.withArch n false ((s.cell n).arch.setS f.rd.toNat
      (op ((s.cell n).arch.sreg f.ra.toNat) ((s.cell n).arch.sreg f.rb.toNat))).advance) := by
  rw [scalarRR, hl, issueArch_executes hi]

end

theorem scalarResults : Claims.ScalarResults := by
  intro s n f hi hf a x y out
  have code (h : f.xop = 0) : (f.xop == 1) = false := by rw [h]; rfl
  refine ⟨fun hx => ?_, fun hx => ?_⟩
  · simp only [exec, execAdd, execSub, execMul, execMulh, execMulhu, execAnd, execOr, execXor, execShl, execShr, execSra, execMin,
      execMax, scalarRR_executes hi (legalRR_of_plain hf hx), scalarRR_executes hi (legalMinMax_of_plain hf (.inl hx)),
      ofInt_high_product, ofNat_high_product, code hx, scalarLt_signed]
    refine ⟨rfl, rfl, rfl, rfl, rfl, rfl, rfl, rfl, rfl, rfl, rfl, ?_, ?_⟩
    · exact congrArg out (ite_decide_lt ..)
    · exact congrArg out (if_congr decide_eq_true_iff rfl rfl)
  · simp only [exec, execMin, execMax, scalarRR_executes hi (legalMinMax_of_plain hf (.inr hx)), hx, beq_self_eq_true, scalarLt_unsigned]
    exact ⟨congrArg out (ite_decide_lt ..), congrArg out (if_congr decide_eq_true_iff rfl rfl)⟩

theorem predicates : Claims.Predicates := by
  intro s n a out compare
  refine ⟨fun f hi hf hrd hx => ?_, fun f hi hres hrd hty => ?_, fun f hi hf hrd hra hrb => ?_⟩
  · obtain ⟨hrc, hty, hrm, hri, hres⟩ := hf
    have legal : (legalF0 { rd := true, ra := true, rb := true } f (decide (f.xop.toNat ≤ 5)) && predField f.rd) = true := by
      simp [legalF0, hrc, hty, hrm, hri, hres, hx, predField_of_lt hrd]
    simp only [exec, execCmp, legal, issueArch_executes hi, intCmp_word]
    rfl
  · have legal : (legalF1 true true true f && decide (f.ty.toNat ≤ 5) && predField f.rd) = true := by
      simp [legalF1, hres, hty, predField_of_lt hrd]
    simp only [exec, execCmpi, legal, issueArch_executes hi, intCmp_word]
    rfl
  · obtain ⟨hrc, hty, hrm, hri, hres⟩ := hf
    have result (hx : f.xop.toNat ≤ 3) (used : (f.xop != 3 || f.rb == 0) = true) :
        exec (.plog n f) s = out f.rd (plogOp f.xop.toNat (a.preg f.ra.toNat) (a.preg f.rb.toNat)) := by
      have legal : (legalF0 { rd := true, ra := true, rb := f.xop != 3 } f (decide (f.xop.toNat ≤ 3)) && predField f.rd &&
          predField f.ra && predField f.rb) = true := by
        simp only [legalF0, hrc, hty, hrm, hri, hres, hx, used, predField_of_lt hrd, predField_of_lt hra, predField_of_lt hrb]
        rfl
      simp only [exec, execPlog, legal, issueArch_executes hi]
      rfl
    refine ⟨fun hx => ?_, fun hx => ?_, fun hx => ?_, fun hx hrb0 => ?_⟩
    · exact (result (by simp [hx]) (by simp [hx])).trans (by rw [hx]; rfl)
    · exact (result (by simp [hx]) (by simp [hx])).trans (by rw [hx]; rfl)
    · exact (result (by simp [hx]) (by simp [hx])).trans (by rw [hx, ← Bool.bne_eq_xor]; rfl)
    · exact (result (by simp [hx]) (by simp [hrb0])).trans (by rw [hx]; rfl)

theorem immediates : Claims.Immediates := by
  intro s n f hi hty hres a x out
  have legal : legalF1 true true false f = true := legalF1_of_untyped hres hty
  refine ⟨?_, ?_, ?_, fun hra => ?_⟩
  · simp only [exec, execAddi, legal, issueArch_executes hi]
    rfl
  · simp only [exec, execAndi, legal, issueArch_executes hi]
    rfl
  · simp only [exec, execLui, legal, issueArch_executes hi, immS_shift_or]
    rfl
  · have legal : legalF1 true false false f = true := by simp [legalF1, hres, hty, hra]
    simp only [exec, execLi, legal, issueArch_executes hi]
    rfl

/-- Settles O6: each instruction is one operation on its registers, and the operations are those of R103. -/
theorem scalarInstructions : Obligations.ScalarInstructions :=
  ⟨scalarResults, predicates, immediates⟩

/-! ### Special registers (R136, R137) -/

/-- Writing the low seven bits of `xstat` keeps the other 25. -/
theorem ofNat_setBits_low (x : BitVec 32) (v : Word) :
    BitVec.ofNat 32 (setBits x.toNat 0 7 v.toNat) = x.extractLsb' 7 25 ++ v.setWidth 7 := by
  apply BitVec.eq_of_toNat_eq
  have low : v.toNat % 2 ^ 7 < 2 ^ 7 := Nat.mod_lt _ (by norm_num)
  rw [BitVec.toNat_append, BitVec.extractLsb'_toNat, BitVec.toNat_setWidth, ← Nat.shiftLeft_add_eq_or_of_lt low,
    Nat.shiftLeft_eq, Nat.shiftRight_eq_div_pow, BitVec.toNat_ofNat, setBits, bits]
  have := x.isLt
  norm_num
  omega

section
variable {s : State} {n : Nat} {f : F0} (hi : Issues s n f.g false) (hrb : f.rb = 0) (hf : plainF0 f)
include hi hrb hf

theorem exec_csrr_executes (hra : f.ra = 0) (hx : f.xop.toNat ≤ 3) : exec (.csrr n f) s =
    .next (s.withArch n false ((s.cell n).arch.setS f.rd.toNat ((s.cell n).arch.csr f.xop.toNat)).advance) := by
  obtain ⟨hrc, hty, hrm, hri, hres⟩ := hf
  have legal : legalF0 { rd := true } f (decide (f.xop.toNat ≤ 3)) = true := by
    simp [legalF0, hra, hrb, hrc, hty, hrm, hri, hres, hx]
  simp only [exec, execCsrr, legal, issueArch_executes hi]

theorem exec_rdid_executes (hra : f.ra = 0) (hx : f.xop.toNat ≤ 6) : exec (.rdid n f) s =
    .next (s.withArch n false ((s.cell n).arch.setS f.rd.toNat ((s.cell n).ident.get f.xop.toNat)).advance) := by
  obtain ⟨hrc, hty, hrm, hri, hres⟩ := hf
  have legal : legalF0 { rd := true } f (decide (f.xop.toNat ≤ 6)) = true := by
    simp [legalF0, hra, hrb, hrc, hty, hrm, hri, hres, hx]
  simp only [exec, execRdid, legal, issueArch_executes hi]

theorem exec_csrw_ok (hrd : f.rd = 0) (hx : f.xop.toNat ≤ 3) {b : Arch}
    (h : (s.cell n).arch.setCsr f.xop.toNat ((s.cell n).arch.sreg f.ra.toNat) = .ok b) :
    exec (.csrw n f) s = .next (s.withArch n false b.advance) := by
  obtain ⟨hrc, hty, hrm, hri, hres⟩ := hf
  have legal : legalF0 { ra := true } f (decide (f.xop.toNat ≤ 3)) = true := by
    simp [legalF0, hrd, hrb, hrc, hty, hrm, hri, hres, hx]
  simp only [exec, execCsrw, legal, issueArch_executes hi, h]

theorem exec_csrw_fault (hrd : f.rd = 0) (hx : f.xop.toNat ≤ 3) {k : Nat}
    (h : (s.cell n).arch.setCsr f.xop.toNat ((s.cell n).arch.sreg f.ra.toNat) = .fault k) :
    exec (.csrw n f) s = .next ((s.endFence n false).programFault n k) := by
  obtain ⟨hrc, hty, hrm, hri, hres⟩ := hf
  have legal : legalF0 { ra := true } f (decide (f.xop.toNat ≤ 3)) = true := by
    simp [legalF0, hrd, hrb, hrc, hty, hrm, hri, hres, hx]
  simp only [exec, execCsrw, legal, issueArch_executes hi, h]

end

theorem specialRegisters : Claims.SpecialRegisters := by
  intro s n f hi hrb hf a k v out fault5
  refine ⟨fun hra => ?_, fun hrd => ?_⟩
  · have csrr {c : BitVec 6} (hc : c.toNat ≤ 3) (h : f.xop = c) :
        exec (.csrr n f) s = out (a.setS f.rd.toNat (a.csr c.toNat)) :=
      h ▸ exec_csrr_executes hi hrb hf hra (h ▸ hc)
    have rdid {c : BitVec 6} (hc : c.toNat ≤ 6) (h : f.xop = c) :
        exec (.rdid n f) s = out (a.setS f.rd.toNat (k.get c.toNat)) :=
      h ▸ exec_rdid_executes hi hrb hf hra (h ▸ hc)
    exact ⟨csrr (by decide), csrr (by decide), csrr (by decide), csrr (by decide), rdid (by decide), rdid (by decide),
      rdid (by decide), rdid (by decide), rdid (by decide), rdid (by decide), rdid (by decide)⟩
  · have ok {c : BitVec 6} {b : Arch} (h : f.xop = c) (hc : c.toNat ≤ 3) (hb : a.setCsr c.toNat v = .ok b) :
        exec (.csrw n f) s = out b :=
      exec_csrw_ok hi hrb hf hrd (h ▸ hc) (h ▸ hb)
    have fault {c : BitVec 6} (h : f.xop = c) (hc : c.toNat ≤ 3) (hb : a.setCsr c.toNat v = .fault 5) :
        exec (.csrw n f) s = fault5 :=
      exec_csrw_fault hi hrb hf hrd (h ▸ hc) (h ▸ hb)
    refine ⟨fun h => ?_, fun h => ok h (by decide) rfl, fun h => ?_, fun h => ok h (by decide) ?_⟩
    · split
      · exact ok h (by decide) (if_neg (by omega))
      · exact fault h (by decide) (if_pos (by omega))
    · split
      · exact ok h (by decide) (if_neg (by omega))
      · exact fault h (by decide) (if_pos (by omega))
    · exact congrArg (fun w => ArchEff.ok { a with xstat := w }) (ofNat_setBits_low ..)

/-! ### Control (R134) -/

section
variable {s : State} {n : Nat} {f : F2} {legal : Bool} {k : Arch → ArchEff} (hi : Issues s n f.g false) (hl : legal = true)
include hi hl

theorem issueJump_ok {b : Arch} (h : k (s.cell n).arch = .ok b) :
    issueJump n f legal s k = .next (s.withArch n false b) := by
  simp only [issueJump, hl, issue_executes hi, State.endFence_arch, h]
  rfl

theorem issueJump_fault {e : Nat} (h : k (s.cell n).arch = .fault e) :
    issueJump n f legal s k = .next ((s.endFence n false).programFault n e) := by
  simp only [issueJump, hl, issue_executes hi, State.endFence_arch, h]

end

theorem control : Claims.Control := by
  intro s n f hi hres a v out
  have legal (ra target : Bool) (hra : ra = true ∨ f.ra = 0) (ht : target = true ∨ f.target = 0) :
      legalF2 ra target f = true := by
    rcases hra with h | h <;> rcases ht with h' | h' <;> simp [legalF2, hres, h, h']
  simp only [exec, execBr, execBrl, execJr, execLoop, execNop, execHalt]
  refine ⟨fun hra => ?_, ?_, fun ht => ?_, ?_, fun hra ht => ⟨?_, ?_⟩⟩
  · exact issueJump_ok hi (legal _ _ (.inr hra) (.inl rfl)) rfl
  · exact issueJump_ok hi (legal _ _ (.inl rfl) (.inl rfl)) rfl
  · have word := legal true false (.inl rfl) (.inr ht)
    split
    · next h =>
      rw [← BitVec.ofNat_toNat 14 v]
      exact issueJump_ok hi word (if_neg (Nat.not_le.2 h))
    · next h => exact issueJump_fault hi word (if_pos (Nat.not_lt.1 h))
  · have word := legal true true (.inl rfl) (.inl rfl)
    by_cases h0 : v = 0
    · rw [if_pos h0]
      exact issueJump_ok hi word (if_pos h0)
    · rw [if_neg h0, issueJump_ok hi word (if_neg h0)]
      by_cases h1 : v = 1
      · rw [if_pos h1, if_pos (sub_eq_zero.2 h1), sub_eq_zero.2 h1]
      · rw [if_neg h1, if_neg (sub_ne_zero.2 h1)]
  · exact issueJump_ok hi (legal _ _ (.inr hra) (.inr ht)) rfl
  · simp only [legal false false (.inr hra) (.inr ht), issue_executes hi]

/-- Settles O8: an instruction that moves a special register, or sets the next pc, executes as its row says, or faults with cause 5. -/
theorem controlAndSpecialRegisters : Obligations.ControlAndSpecialRegisters :=
  ⟨specialRegisters, control⟩

end Sys2Proof.Machine

/-!
PROOFS. The residue check of an addition whose image had a corrected error (O18).
-/

namespace Sys2Proof.Machine

/-- Cell 0 issues, without a command; s1 holds the address of its memory, where one stored bit of the first word has flipped. -/
def flippedWord : State := { Tests.runs 1 (cellMem 0) with flips := [(0, 1)] }

/-- ea.addi of the image at s1 into e0. -/
def addFlipped (u : Upset) : Instr := .eaAddi 0 { Tests.z1 with ra := 1 } u

theorem flippedWord_issues : Issues flippedWord 0 Tests.gT false := by
  unfold Issues
  decide +kernel

theorem addFlipped_goes_on : ∃ t, exec (addFlipped .none) flippedWord = .next t ∧ (t.cell 0).run = .issuing := by
  obtain ⟨t, next, issuing⟩ := Tests.next_of_after
    (p := fun t => (t.cell 0).run == .issuing) (o := exec (addFlipped .none) flippedWord) (by decide +kernel)
  exact ⟨t, next, eq_of_beq issuing⟩

/-- The read of the image counts its corrected error, which the command of a failed cell does not. -/
theorem addFlipped_lasting_counts :
    Tests.after (exec (addFlipped .lasting) flippedWord) (fun t => t.aon 51 == 1) = true ∧
      Tests.after (exec (.cellFailed 0) ((flippedWord.countRepeat 0).spoilRecord 4)) (fun t => t.aon 51 == 1) = false := by
  decide +kernel

theorem not_residueMismatch : ¬ Claims.ResidueMismatch := by
  intro h
  obtain ⟨t, next, issuing⟩ := addFlipped_goes_on
  obtain ⟨-, failed⟩ := h flippedWord t 0 Tests.gT (addFlipped .none) (addFlipped .repeated) (addFlipped .lasting)
    (.inr (.inr (.inr (.inr (.inl ⟨_, rfl, rfl, rfl, rfl⟩))))) next
  obtain ⟨counted, uncounted⟩ := addFlipped_lasting_counts
  rw [failed flippedWord_issues issuing (by decide +kernel) (by decide +kernel) (by decide +kernel)] at counted
  rw [show (flippedWord.remapOf 0).phys = 0 by decide +kernel, uncounted] at counted
  exact Bool.false_ne_true counted

/-- Refutes O18: an addition of an image from memory counts the corrected bit errors of its read (R51) besides what a failed cell
does, so its second mismatch is not the command of a failed cell alone. -/
theorem not_exactAccumulators : ¬ Obligations.ExactAccumulators :=
  fun h => not_residueMismatch h.2

end Sys2Proof.Machine

/-!
PROOFS. The bound on outstanding far requests where several of them bear one tag (O30).
-/

namespace Sys2Proof.Machine

/-- A read that partition 0 has not sent yet. -/
def unsentRead : FarReq :=
  { tag := 0, owner := .none, eng := 0, part := 0, wr := false, off := 0, addr := 0, len := 64, dest := 0, data := [],
    sent := false, again := false, dead := false }

/-- The link is up, and 1,025 reads of one tag wait. -/
def sameTag : State := { Tests.wide with far := List.replicate 1025 unsentRead }

/-- All of them have been sent at once. -/
def sameTagSent : State := { sameTag with far := List.replicate 1025 { unsentRead with sent := true }, farTurn := 1 }

theorem sameTag_outstanding : (sameTag.far.filter FarReq.sent).length = 0 := by
  rw [sameTag, List.filter_replicate_of_neg (by decide), List.length_nil]

theorem sameTagSent_outstanding : (sameTagSent.far.filter FarReq.sent).length = 1025 := by
  rw [sameTagSent, List.filter_replicate_of_pos rfl, List.length_replicate]

/-- Sending the first of them marks every request of its tag. -/
theorem sameTag_sendOne : sameTag.sendOne = sameTagSent := by
  have room : (!sameTag.link.up || decide (1024 ≤ (sameTag.far.filter FarReq.sent).length)) = false := by
    rw [sameTag_outstanding]
    decide +kernel
  have next : ((List.range 4).findSome? fun i => sameTag.farNext ((sameTag.farTurn + i) % 4)) = some unsentRead := by
    decide +kernel
  have marked : (sameTag.far.map fun q => if q.tag == unsentRead.tag then { q with sent := true } else q) = sameTagSent.far :=
    List.map_replicate
  rw [State.sendOne, room, if_neg Bool.false_ne_true, next]
  simp only [marked]
  rfl

theorem sameTagSent_sendOne : sameTagSent.sendOne = sameTagSent := by
  rw [State.sendOne, sameTagSent_outstanding, if_pos (by simp)]

/-- A state that sending leaves as it is stays so. -/
theorem foldS_sendOne_fixed {s : State} (h : s.sendOne = s) (l : List FarReq) : foldS (fun t _ => t.sendOne) s l = s :=
  List.foldl_fixed' (fun _ => h) l

theorem sameTag_sendFar : sameTag.sendFar = sameTagSent := by
  have split : sameTag.far = unsentRead :: List.replicate 1024 unsentRead := List.replicate_succ
  rw [State.sendFar, split, foldS, List.foldl_cons, sameTag_sendOne]
  exact foldS_sendOne_fixed sameTagSent_sendOne _

/-- Refutes O30: a request is marked sent by its tag, so where 1,025 requests bear one tag all of them are outstanding at once. -/
theorem not_closeAndFarMemory : ¬ Obligations.CloseAndFarMemory := by
  rintro ⟨-, -, -, -, bound, -⟩
  have sent := (bound sameTag).1 rfl (sameTag_outstanding.trans_le (Nat.zero_le _))
  rw [sameTag_sendFar, sameTagSent_outstanding] at sent
  omega

end Sys2Proof.Machine

/-!
PROOFS. A signal that waits in the sync-port queue of a cell when a forager descriptor ends (O32).
-/

namespace Sys2Proof.Machine

/-- A quenched descriptor is at the end of its work, and a sig.add waits in the sync-port queue of cell 0. -/
def quenchedBesideSignal : State :=
  (Tests.foraging (Tests.fraw 1 2) .quenched).setCell 0
    { Cell.reset with portQ := [.sig false (BitVec.ofNat 64 syncBase) 1 0] }

/-- The descriptor's end makes room, and the queues of all cells go on: the signal is issued. -/
theorem quenchedBesideSignal_completes :
    Tests.after (exec (.foragerDescriptorComplete 5) quenchedBesideSignal) (fun t => t.sigs.isEmpty) = false ∧
      quenchedBesideSignal.sigs = [] := by
  decide +kernel

theorem not_foragerDescriptorCompletes : ¬ Claims.ForagerDescriptorCompletes := by
  intro h
  obtain ⟨-, -, -, quenched⟩ := h quenchedBesideSignal 5 0 (Tests.fdesc1 (Tests.fraw 1 2) .quenched) (by decide +kernel)
    (by decide +kernel) (by decide +kernel) rfl rfl
  obtain ⟨t, next, -, -, sigs, -⟩ := quenched rfl
  obtain ⟨issued, none⟩ := quenchedBesideSignal_completes
  rw [next, Tests.after, sigs, none] at issued
  exact Bool.false_ne_true issued.symm

/-- Refutes O32: the end of a quenched descriptor lets the sync-port queues of the cells go on, and a signal that waits there is
issued. -/
theorem not_foragers : ¬ Obligations.Foragers :=
  fun h => not_foragerDescriptorCompletes h.2.1

end Sys2Proof.Machine

/-!
PROOFS. A read that waited for a line of a host, and whose bytes go to a line that the snoop filter lists too (O33).
-/

namespace Sys2Proof.Machine

/-- Eight bytes of line 5 are read for the start of the memory of cell 0, and the snoop filter lists the first line of that memory. -/
def readToHeldLine : State :=
  { Tests.wide.pokeMem 320 [1] with
    link := { Tests.wide.link with
      snoop := [(0, 5), (0, cellBase / 64)], bis := [⟨5, .read (.cmd 1) 0 0 320 8 cellBase, 3⟩] } }

/-- When line 5 is back, the write of the bytes waits for the line that it goes to. -/
theorem readToHeldLine_completes :
    Tests.after (exec (.backInvalidateComplete ⟨5, none⟩) readToHeldLine) (fun t => t.memByte (cellBase + 0) == 1) = false ∧
      readToHeldLine.memByte (320 + 0) = 1 := by
  decide +kernel

theorem readToHeldLine_unfrozen (k : Nat) : (readToHeldLine.cell k).frozen = 0 ∧ readToHeldLine.isAway k = false :=
  ⟨rfl, rfl⟩

theorem not_backInvalidation : ¬ Claims.BackInvalidation := by
  intro h
  obtain ⟨-, -, read, -⟩ := h readToHeldLine 5 ⟨5, .read (.cmd 1) 0 0 320 8 cellBase, 3⟩ (by decide +kernel) (by decide +kernel)
    (by decide +kernel) (by decide +kernel)
  obtain ⟨t, next, -, copied, -⟩ := read (.cmd 1) 0 0 320 8 cellBase cellBase rfl (by intro id; exact nofun) (by decide +kernel)
    (by decide +kernel) readToHeldLine_unfrozen (by decide +kernel) (by decide +kernel) (by decide +kernel)
    (fun y mem _ _ _ _ _ _ => List.mem_singleton.mp mem)
  obtain ⟨held, source⟩ := readToHeldLine_completes
  have written := (copied 0 (by decide)).trans source
  rw [next, Tests.after, written] at held
  exact Bool.false_ne_true held.symm

/-- Refutes O33: the bytes of a read that has come are not written while the snoop filter lists the line that they go to. -/
theorem not_hostAccess : ¬ Obligations.HostAccess :=
  fun h => not_backInvalidation h.2.1

end Sys2Proof.Machine

/-!
PROOFS. A signal that waits in the sync-port queue of a cell when a residue mismatch ends a collective (O42).
-/

namespace Sys2Proof.Machine

/-- An allreduce of a team of eight, in its first stage. -/
def summing : Coll := { Tests.coll0 (Tests.craw 1 7 1) true with waggle := true, state := List.replicate 32 0 }

/-- The partner's piece is there, and a sig.add waits in the sync-port queue of cell 0. -/
def summingBesideSignal : State :=
  ((Tests.collecting 8 8 summing).setWentry
    { team := 0, cseq := 7, mask := [(0, 1, 0)], pieces := [(0, 1, 0, List.replicate 32 0)], codes := [] }).setCell 0
    { Cell.reset with portQ := [.sig false (BitVec.ofNat 64 syncBase) 1 0] }

/-- The loss of the collective makes room, and the queues of all cells go on: the signal is issued. -/
theorem summingBesideSignal_lost :
    (summingBesideSignal.driveChecked summing .lasting).sigs.isEmpty = false ∧ summingBesideSignal.sigs = [] := by
  decide +kernel

theorem not_collectivePackets : ¬ Claims.CollectivePackets := by
  intro h
  obtain ⟨-, -, -, -, -, checked⟩ := h Tests.wide Tests.zp (by rw [FirstTime]; decide +kernel) (by decide +kernel) (by decide +kernel)
  obtain ⟨-, -, -, sigs, -⟩ := (checked summingBesideSignal summing (by decide +kernel) (by decide +kernel)).2 (by decide +kernel)
  obtain ⟨issued, none⟩ := summingBesideSignal_lost
  rw [sigs, none] at issued
  exact Bool.false_ne_true issued.symm

/-- Refutes O42: the loss of a collective after a second residue mismatch lets the sync-port queues of the cells go on, and a signal that
waits there is issued. -/
theorem not_collectives : ¬ Obligations.Collectives :=
  fun h => not_collectivePackets h.2.1

end Sys2Proof.Machine

/-!
PROOFS. A takeover that ends when the route to the manager is marked failed (O44).
-/

namespace Sys2Proof.Machine

/-- A worker of a swarm has a takeover still to report, and waits for no packet of it. -/
def takingWorker : State :=
  { Tests.swarming 1 with swarm := { (Tests.swarming 1).swarm with taking := some 0 } }

/-- With the number of its manager marked failed, the report of the takeover is relayed to that number. -/
theorem takingWorker_relays :
    ((takingWorker.setRoute 1 0 false).fab.rtx.any fun r => decide (r.pkt.dstLog.toNat = 1)) = true := by
  decide +kernel

theorem not_routesInEffect : ¬ Claims.RoutesInEffect := by
  intro h
  obtain ⟨-, -, -, -, none, -⟩ := h takingWorker 1 0 false (by decide)
  obtain ⟨r, mem, dest⟩ := List.any_eq_true.mp takingWorker_relays
  exact none rfl r mem (of_decide_eq_true dest)

/-- Refutes O44: the report that ends a takeover is relayed to the number just marked failed. -/
theorem not_swarmMembers : ¬ Obligations.SwarmMembers :=
  fun h => not_routesInEffect h.2

end Sys2Proof.Machine

/-!
PROOFS. A manager that still has a takeover to report and marks a failed member's number (O45).
-/

namespace Sys2Proof.Machine

/-- A manager without spares and without a deputy, with a takeover still to report; member 7 is silent. -/
def takingManager : State :=
  { (Tests.swarming 3).setMissed 7 3 with
    swarm := { ((Tests.swarming 3).setMissed 7 3).swarm with spares := [], hasDeputy := false, taking := some 1 } }

/-- Three reports: the failure, the number marked failed, and the takeover. -/
theorem takingManager_reports :
    Tests.after (exec (.memberDeclaredFailed 7) takingManager) (fun t => t.aon 47 == takingManager.aon 47 + 2) = false := by
  decide +kernel

theorem not_swarmFailures : ¬ Claims.SwarmFailures := by
  intro h
  obtain ⟨-, -, -, -, failed⟩ := h takingManager rfl
  obtain ⟨t, next, -, -, -, none⟩ := failed 7 1 (by decide) rfl (by decide +kernel) (by decide +kernel) (by decide +kernel)
    (by decide +kernel)
  have three := takingManager_reports
  rw [next, Tests.after, (none (by decide +kernel)).1, beq_self_eq_true] at three
  exact Bool.false_ne_true three.symm

/-- Refutes O45: with a takeover to report the declaration of a failed member without a spare raises a third report. -/
theorem not_swarmControl : ¬ Obligations.SwarmControl :=
  fun h => not_swarmFailures h.1

end Sys2Proof.Machine

/-!
PROOFS. A start whose coolant is above the limit of the last shutdown, and whose input is out of limits (O49).
-/

namespace Sys2Proof.Machine

/-- The module shut down over an inlet limit of 0 °C, and the inlet is at 1/16 °C. -/
def shutDownHot : State :=
  { Tests.standby with power := { Tests.standby.power with hot := some 0, inlet := 1 } }

/-- The start finds the input out of limits, and all else in order. -/
def badInput : StartFinds := { Tests.finds with vinOk := false }

/-- The start waits for its coolant, and does not come to the check of the input. -/
theorem shutDownHot_waits : Tests.after (exec (.start badInput) shutDownHot) (fun t => t.boot.step == 15) = false := by
  decide +kernel

theorem not_starts : ¬ Claims.Starts := by
  intro h
  obtain ⟨-, start⟩ := h shutDownHot badInput rfl
  obtain ⟨-, checks⟩ := start rfl rfl rfl
  obtain ⟨b, image⟩ := Option.isSome_iff_exists.mp (show (shutDownHot.newStart.startBank badInput).isSome = true by decide +kernel)
  obtain ⟨-, -, limits⟩ := checks b image
  obtain ⟨t, next, step, -⟩ := (limits rfl rfl rfl (by decide +kernel)).1 (.inl rfl)
  have waits := shutDownHot_waits
  rw [next, Tests.after, step] at waits
  exact absurd waits (by decide)

/-- Refutes O49: a module that shut down over its inlet limit waits at step 3 while the coolant is above that limit, also at an inlet of
45 °C or less, and does not halt for an input out of limits. -/
theorem not_startAndPlacement : ¬ Obligations.StartAndPlacement :=
  fun h => not_starts h.1

end Sys2Proof.Machine

/-!
PROOFS. A MARKER on another class than CTL that claims to come from this module (O50).
-/

namespace Sys2Proof.Machine

/-- A MARKER of the drain step in class 1, with this module as its source. -/
def ownMarker : Packet := { Tests.zp with type := 12, cls := 1, arg0 := 1 }

/-- It is discarded as one that claims to come from this module, and does not count as a SWARM packet that was dropped. -/
theorem ownMarker_discarded :
    Tests.after (exec (.markerDrain 0 (some ownMarker)) Tests.wide)
      (fun t => t.aon 44 == ((Tests.wide.taken ownMarker).bump 44 1).aon 44) = false := by
  decide +kernel

theorem not_markers : ¬ Claims.Markers := by
  intro h
  obtain ⟨discards, -⟩ := h Tests.wide ownMarker 0 (by decide) (by decide +kernel)
  obtain ⟨counted, -⟩ := discards (.markerDrain 0 (some ownMarker)) 1 (by simp) (by decide +kernel)
  have other := ownMarker_discarded
  rw [counted (by decide +kernel) (by decide +kernel) (by decide +kernel) (by decide +kernel) (by decide +kernel) (by decide +kernel),
    Tests.after, beq_self_eq_true] at other
  exact Bool.false_ne_true other.symm

/-- Refutes O50: a MARKER on another class than CTL that claims to come from this module is counted as a Collar clamp. -/
theorem not_epochs : ¬ Obligations.Epochs :=
  fun h => not_markers h.2

end Sys2Proof.Machine

/-!
PROOFS. A restore whose lining cannot be read, at a module that traces (O52).
-/

namespace Sys2Proof.Machine

/-- A module alone whose partition 0 restores, with the trace of reports on and its buffer at the base of the local map. -/
def tracedRestore : State :=
  let s := Tests.epoch { Epoch.reset with recStep := 4, active := true }
  { s with bar := Tab.set (fun _ => 0) s.bar 0x07A008 (1 + 10 * 4 + 2 ^ 12) }

/-- The report of the failed read is traced, and the record changes the first bytes of memory. -/
theorem tracedRestore_writes :
    Tests.after (exec (.restoreComplete ⟨0, some .timeout⟩) tracedRestore)
      (fun t => (List.range 32).all fun a => t.memByte a == tracedRestore.memByte a) = false := by
  decide +kernel

theorem not_recoverySteps : ¬ Claims.RecoverySteps := by
  intro h
  obtain ⟨-, -, unread, -⟩ := h tracedRestore 0 (by decide +kernel) (by decide) (by decide +kernel) (by decide +kernel)
  obtain ⟨t, next, -, -, -, same⟩ := unread .timeout (by decide +kernel) (by decide +kernel) (by decide +kernel)
    (by decide +kernel) (by decide +kernel)
  have changed := tracedRestore_writes
  rw [next, Tests.after, List.all_eq_true.2 (fun a _ => beq_iff_eq.2 (same a))] at changed
  exact Bool.false_ne_true changed.symm

/-- Refutes O52: a restore whose lining cannot be read is reported, and where reports are traced the trace record is written to memory. -/
theorem not_recoveries : ¬ Obligations.Recoveries :=
  fun h => not_recoverySteps h.1

end Sys2Proof.Machine

/-!
PROOFS. What of the state, beyond `State.bare`, raising reports leaves alone: the management port's events, and the always-on counters
but for a few; with them the reference count.
-/

namespace Sys2Proof.Machine

/-- A fold of steps that leave something as it is leaves it as it is. -/
theorem foldS_keeps {α β : Type} (g : State → β) {f : State → α → State} (hf : ∀ s a, g (f s a) = g s) :
    ∀ (l : List α) (s : State), g (foldS f s l) = g s
  | [], _ => rfl
  | a :: l, s => (foldS_keeps g hf l (f s a)).trans (hf s a)

/-- The counters in which reports show: bytes of linings and of host memory, and trace records lost. -/
def reportCounters : List Nat := [58, 61, 62]

/-- What is computed from a state does not depend on memory, far requests, report rings, effect logs, the trace's place, what is
originated, nor the counters in which reports show. -/
structure ReportInert {β : Type} (g : State → β) : Prop where
  mem : ∀ s a bs, g (s.pokeMem a bs) = g s
  ext : ∀ s a bs, g (s.pokeExt a bs) = g s
  far : ∀ s r, g (s.pushFar r) = g s
  count : ∀ s n k, n ∈ reportCounters → g (s.bump n k) = g s
  epoch : ∀ s p e, g (s.setEpoch p e) = g s
  rep : ∀ s p r, g (s.setRep p r) = g s
  sent : ∀ s o e p, g (s.originate o e p) = g s
  traced : ∀ s h w f l, g { s with dbg := { s.dbg with trHead := h, trWraps := w, trFull := f, trLost := l } } = g s
  noted : ∀ s r n, g { s with swarm := { s.swarm with reports := r, notices := n } } = g s

namespace ReportInert
variable {β : Type} {g : State → β} (hg : ReportInert g)
include hg

theorem trace (s : State) (ty p src a b c : Nat) : g (s.trace ty p src a b c) = g s := by
  unfold State.trace
  split
  · split
    · exact (hg.traced (s.bump 62 1) _ _ _ _).trans (hg.count s 62 1 (by decide))
    · exact (hg.traced (s.pokeMem _ _) _ _ _ _).trans (hg.mem s _ _)
  · rfl

theorem farWrite (s : State) (o : Owner) (e p off key : Nat) (bs : List Byte) : g (s.farWrite o e p off key bs) = g s :=
  foldS_keeps g (fun _ _ => hg.far ..) _ _

theorem ringWrite (s : State) (o : Owner) (p a : Nat) (bs : List Byte) : g (s.ringWrite o p a bs) = g s := by
  unfold State.ringWrite
  split
  · split
    · exact (hg.count _ 61 _ (by decide)).trans (hg.ext ..)
    · exact hg.farWrite ..
  · exact hg.farWrite ..
  · rfl

theorem linWrite (s : State) (o : Owner) (p off : Nat) (bs : List Byte) : g (s.linWrite o p off bs) = g s := by
  unfold State.linWrite
  split
  · exact (hg.count _ 58 _ (by decide)).trans (hg.farWrite ..)
  · rfl

theorem requestBoundary (s : State) (p : Nat) (u : Bool) : g (s.requestBoundary p u) = g s := by
  unfold State.requestBoundary
  split
  · exact hg.sent ..
  · split
    · rfl
    · exact (hg.epoch ..).trans (hg.epoch ..)

theorem appendEffect (s : State) (p kd o r f : Nat) (v : Word) : g (s.appendEffect p kd o r f v) = g s := by
  unfold State.appendEffect
  split
  · dsimp only
    split
    · exact (hg.requestBoundary ..).trans ((hg.epoch ..).trans (hg.linWrite ..))
    · exact (hg.epoch ..).trans (hg.linWrite ..)
  · rfl

theorem writeReport (s : State) (p : Nat) (r : Report) : g (s.writeReport p r) = g s :=
  (hg.appendEffect ..).trans ((hg.rep ..).trans (hg.ringWrite ..))

theorem report (s : State) (p ty reason subject body : Nat) : g (s.report p ty reason subject body) = g s := by
  unfold State.report
  dsimp only
  split
  · exact (hg.writeReport ..).trans (hg.trace ..)
  · split <;> exact (hg.rep ..).trans (hg.trace ..)

theorem reportAll (s : State) (ty reason subject body : Nat) : g (s.reportAll ty reason subject body) = g s :=
  foldS_keeps g (fun _ _ => hg.report ..) _ _

theorem relayReport (s : State) (ty body : Nat) : g (s.relayReport ty body) = g s := by
  unfold State.relayReport
  split
  · exact hg.noted s _ s.swarm.notices
  · split
    · exact hg.sent ..
    · rfl

theorem faultNotice (s : State) (p r : Nat) : g (s.faultNotice p r) = g s := by
  unfold State.faultNotice
  split
  · split
    · split
      · rfl
      · exact hg.noted s s.swarm.reports _
    · exact hg.sent ..
  · rfl

theorem retire (s : State) (p u st n o w : Nat) : g (s.retire p u st n o w) = g s :=
  (hg.relayReport ..).trans (hg.report ..)

theorem escalate (h47 : ∀ s k, g (s.bump 47 k) = g s) (s : State) (p r j d : Nat) : g (s.escalate p r j d) = g s :=
  (hg.relayReport ..).trans ((h47 ..).trans (hg.report ..))

theorem escalateAll (h47 : ∀ s k, g (s.bump 47 k) = g s) (s : State) (r j d : Nat) : g (s.escalateAll r j d) = g s :=
  (hg.relayReport ..).trans (foldS_keeps g (fun _ _ => (h47 ..).trans (hg.report ..)) _ _)

end ReportInert

theorem aon_bump_other {k n : Nat} (h : k ≠ n) (s : State) (m : Nat) : (s.bump n m).aon k = s.aon k :=
  Tab.get_set_other _ _ _ _ _ h

theorem aon_bump_self (s : State) (n m : Nat) : (s.bump n m).aon n = s.aon n + BitVec.ofNat 64 m :=
  Tab.get_set_self _ _ _ _

/-- Reports leave a counter alone in which they do not show. -/
theorem aon_reportInert {k : Nat} (hk : k ∉ reportCounters) : ReportInert (fun s => s.aon k) where
  mem _ _ _ := rfl
  ext _ _ _ := rfl
  far _ _ := rfl
  count s n m hn := aon_bump_other (by rintro rfl; exact hk hn) s m
  epoch _ _ _ := rfl
  rep _ _ _ := rfl
  sent _ _ _ _ := rfl
  traced _ _ _ _ _ := rfl
  noted _ _ _ := rfl

/-- Reports leave the management port alone. -/
theorem mgmt_reportInert : ReportInert State.mgmt :=
  ⟨fun _ _ _ => rfl, fun _ _ _ => rfl, fun _ _ => rfl, fun _ _ _ _ => rfl, fun _ _ _ => rfl, fun _ _ _ => rfl, fun _ _ _ _ => rfl,
    fun _ _ _ _ _ => rfl, fun _ _ _ => rfl⟩

theorem now_reportInert : ReportInert State.now := aon_reportInert (by decide)

theorem now_bump47 (s : State) (k : Nat) : (s.bump 47 k).now = s.now := aon_bump_other (by decide) s k

/-- An escalation is counted once. -/
theorem aon_escalate_count (s : State) (p r j d : Nat) : (s.escalate p r j d).aon 47 = s.aon 47 + 1 := by
  have inert : ReportInert fun s => s.aon 47 := aon_reportInert (by decide)
  exact (inert.relayReport ..).trans ((aon_bump_self _ 47 1).trans (congrArg (· + 1) (inert.report ..)))

@[simp] theorem now_trace (s : State) (ty p src a b c : Nat) : (s.trace ty p src a b c).now = s.now := now_reportInert.trace ..
@[simp] theorem now_report (s : State) (p ty r j b : Nat) : (s.report p ty r j b).now = s.now := now_reportInert.report ..
@[simp] theorem now_reportAll (s : State) (ty r j b : Nat) : (s.reportAll ty r j b).now = s.now := now_reportInert.reportAll ..
@[simp] theorem now_escalate (s : State) (p r j d : Nat) : (s.escalate p r j d).now = s.now :=
  now_reportInert.escalate now_bump47 ..
@[simp] theorem now_mEvent (s : State) (c d : Nat) : (s.mEvent c d).now = s.now := rfl

end Sys2Proof.Machine

/-!
PROOFS. Requests over the management port, and its events (O55).
-/

namespace Sys2Proof.Machine

/-! ### The rack manager's contact -/

theorem setHold_reported (s : State) (b : Bool) : Reported { s with power := { s.power with hold := b } } (s.setHold b) := by
  unfold State.setHold
  split
  next h => rw [← h]; rfl
  · dsimp only
    split
    · exact bare_reportAll ..
    · rfl

@[simp] theorem now_setHold (s : State) (b : Bool) : (s.setHold b).now = s.now := by
  unfold State.setHold
  split
  · rfl
  · dsimp only
    split
    · exact now_reportAll ..
    · rfl

/-- `s` with the rack manager in contact, but for what the report of a hold's end changes. -/
def State.contacted (s : State) : State :=
  { s with mgmt := { s.mgmt with lastRack := s.now }, power := { s.power with hold := false } }

theorem rackContact_reported (s : State) : Reported s.contacted s.rackContact :=
  setHold_reported { s with mgmt := { s.mgmt with lastRack := s.now } } false

@[simp] theorem now_rackContact (s : State) : s.rackContact.now = s.now := now_setHold ..

theorem rackContact_of_noHold {s : State} (h : s.power.hold = false) :
    s.rackContact = { s with mgmt := { s.mgmt with lastRack := s.now } } := by
  rw [State.rackContact, State.setHold, if_pos h]

/-- The rack manager's contact does not change how many requests count in this second. -/
theorem requestsNow_rackContact (s : State) : s.rackContact.requestsNow = s.requestsNow := by
  have sec : s.rackContact.mgmt.msgSec = s.mgmt.msgSec := (rackContact_reported s).field (·.mgmt.msgSec) fun _ => rfl
  have cnt : s.rackContact.mgmt.msgCount = s.mgmt.msgCount := (rackContact_reported s).field (·.mgmt.msgCount) fun _ => rfl
  simp [State.requestsNow, State.second, sec, cnt]
  rfl

/-! ### Requests -/

theorem onRequest_stuck {s : State} (on : s.boot.standby = true) (h : s.mgmt.stuck = true) (k : State → State) :
    onRequest s k = .next s := by
  simp [onRequest, whenStandby, on, h]

theorem onRequest_busy {s : State} (on : s.boot.standby = true) (h : s.mgmt.stuck = false) (full : 2000 ≤ s.requestsNow)
    (k : State → State) : onRequest s k = .next (s.rackContact.collarClamp.reply 4 []) := by
  simp [onRequest, whenStandby, on, h, requestsNow_rackContact, full]

theorem onRequest_unpowered {s : State} (off : s.boot.standby = false) (k : State → State) : onRequest s k = .refused .unpowered := by
  simp [onRequest, whenStandby, off]

theorem onRequest_served {s : State} (h : Served s) (k : State → State) : onRequest s k = .next (k s.served) := by
  obtain ⟨on, free, few⟩ := h
  simp [onRequest, whenStandby, on, free, requestsNow_rackContact, few, State.served]

/-- Every request is answered by `onRequest`. -/
theorem exec_of_isRequest {c : Instr} (h : isRequest c = true) (s : State) : ∃ k, exec c s = onRequest s k := by
  cases c
  all_goals first
    | exact absurd h Bool.false_ne_true
    | skip
  all_goals
    simp only [exec, execMctpControl, execPldmGetSensor, execPldmSetEffecter, execPldmPollEvent, execGetStatus, execSetRackCap,
      execSetRun, execSetHoldup, execLights, execLightsClearService, execReadInventory, execAppendRework, execReadFatal,
      execReadMember, execSetStart, execIdentity, execAttest, execReadLog, execFwBegin, execFwData, execFwEnd, execFwActivate,
      execFwConfirm, execFwAbort, execOwnerEnrol, execOwnerSetLock, execOwnerClearLock, execOwnerReplaceKey, execOwnerRelease,
      onOwner]
    exact ⟨_, rfl⟩

theorem managementPort_claim : Claims.ManagementPort := by
  refine ⟨fun c s request on => ?_, fun c s request off => ?_, fun s on => ⟨?_, ?_, ?_, ?_, ?_, ?_, ?_⟩⟩
  · obtain ⟨k, answer⟩ := exec_of_isRequest request s
    rw [answer]
    exact ⟨fun stuck => onRequest_stuck on stuck k, fun free full => onRequest_busy on free full k⟩
  · obtain ⟨k, answer⟩ := exec_of_isRequest request s
    rw [answer, onRequest_unpowered off]
  · rintro target addr free (rfl | rfl) <;> simp [exec, execDynamicAddressAssign, whenStandby, on, free]
  · rintro target addr (stuck | ⟨a, rfl, other⟩)
    · simp [exec, execDynamicAddressAssign, whenStandby, on, stuck]
    · simp [exec, execDynamicAddressAssign, whenStandby, on, other]
  · rw [State.staticAddr]
    bv_omega
  · intro due free some late
    cases at_ : s.mgmt.ibiAt with
    | none => simp [exec, execIbi, whenStandby, whenDue, on, due, free, some, at_]
    | some t => simp [exec, execIbi, whenStandby, whenDue, on, due, free, some, at_, late t at_, -BitVec.toNat_sub]
  · intro t at_ early
    simp [exec, execIbi, whenStandby, whenDue, on, at_, Nat.not_le.2 early, -BitVec.toNat_sub]
  · simp [exec, execI3cBusStuck, whenStandby, on]
  · intro stuck
    simp [exec, execI3cBusRecover, whenStandby, whenDue, on, stuck]

/-! ### Events -/

theorem mEvent_queue (s : State) (code detail : Nat) :
    (s.mEvent code detail).mgmt.events.getLast? = some { code := code, detail := detail } ∧
    (s.mgmt.events.length < 64 → (s.mEvent code detail).mgmt.events = s.mgmt.events ++ [{ code := code, detail := detail }] ∧
      (s.mEvent code detail).mgmt.evLost = s.mgmt.evLost) ∧
    (s.mgmt.events.length = 64 → (s.mEvent code detail).mgmt.events =
        s.mgmt.events.tail ++ [{ code := code, detail := detail }] ∧
      (s.mEvent code detail).mgmt.evLost = s.mgmt.evLost + 1) ∧ (s.mEvent code detail).mgmt.ibiDue = true := by
  refine ⟨by simp [State.mEvent], fun few => ?_, fun full => ?_, rfl⟩
  · simp [State.mEvent, Nat.not_le.2 few]
  · simp [State.mEvent, full]

/-- The bytes of a number spell it modulo their range. -/
theorem leNat_leBytes : ∀ n x : Nat, leNat (leBytes n x) = x % 2 ^ (8 * n)
  | 0, x => by simp [leBytes, leNat, Nat.mod_one]
  | n + 1, x => by
    rw [leBytes, leNat, leNat_leBytes n, BitVec.toNat_ofNat, Nat.mul_succ, Nat.add_comm (8 * n), pow_add, Nat.mod_mul]
    rfl

theorem managementEvents : Claims.ManagementEvents := by
  refine ⟨mEvent_queue, fun s served awake => ⟨fun none => ?_, fun e l queue => ?_⟩⟩
  · have events : s.served.mgmt.events = [] := by
      rw [State.served, rackContact_of_noHold awake]
      exact none
    rw [exec, execPldmPollEvent, onRequest_served served]
    simp [events]
  · have events : s.served.mgmt.events = e :: l := by
      rw [State.served, rackContact_of_noHold awake]
      exact queue
    have lost : s.served.mgmt.evLost = s.mgmt.evLost := by
      rw [State.served, rackContact_of_noHold awake, State.countRequest]
    simp only [exec, execPldmPollEvent, onRequest_served served, events]
    refine ⟨_, _, rfl, rfl, rfl, rfl, ?_, ?_⟩
    · rw [List.append_assoc, List.take_left' (length_leBytes 4 _), leNat_leBytes]
    · rw [List.drop_left' (by simp [length_leBytes]), leNat_leBytes, lost]

/-- Settles O55: requests go through the checks of the bus and the second's bound, and events wait in a queue of 64. -/
theorem managementPort : Obligations.ManagementPort :=
  ⟨managementPort_claim, managementEvents⟩

end Sys2Proof.Machine

/-!
PROOFS. The board of a module: what moving data and ending commands leave as it was.
-/

namespace Sys2Proof.Machine

/-! ### Data -/

/-- The definition as a function: written out at an argument, checking it would evaluate the place of the granule. -/
theorem stageClose_eq : @State.stageClose = fun s o => match s.place4K o with
    | (d, k) => if (s.frg d).frozen.get k then
        let s := s.linCopy (s.partOfClose o) d o
        s.setFrg d { s.frg d with frozen := (s.frg d).frozen.set k false, share := (s.frg d).share - 4096 }
      else s := rfl

/-- The definition as a function, as for `stageClose_eq`. -/
theorem markClose_eq : @State.markClose = fun s o => match s.place4K o with
    | (d, k) => s.setFrg d { s.frg d with live := (s.frg d).live.set k true } := rfl

/-- What is computed from a state does not depend on what writing data changes: besides what reports change, errors of memory words, the
maps of granules of foragers and cells, and back-invalidations. -/
structure DataInert {β : Type} (g : State → β) : Prop extends ReportInert g where
  corrected : ∀ s k, g (s.bump 51 k) = g s
  flips : ∀ s f, g { s with flips := f } = g s
  frg : ∀ s d f, g (s.setFrg d f) = g s
  granules : ∀ s n fz lv, g (s.setCell n { s.cell n with frozen := fz, live := lv }) = g s
  bi : ∀ s l w, g (s.pushBi l w) = g s
  issued : ∀ s e, g (s.countIssued e) = g s

namespace DataInert
variable {β : Type} {g : State → β} (hg : DataInert g)
include hg

theorem remWrite (s : State) (o : Owner) (e m off : Nat) (bs : List Byte) : g (s.remWrite o e m off bs) = g s :=
  foldS_keeps g (fun _ _ => (hg.issued ..).trans (hg.sent ..)) _ _

theorem linCopy (s : State) (p u o : Nat) : g (s.linCopy p u o) = g s := by
  simp only [State.linCopy, hg.epoch, hg.linWrite, hg.corrected, apply_ite g, ite_self]

theorem stageClose (s : State) (o : Nat) : g (s.stageClose o) = g s := by
  rw [stageClose_eq]
  beta_reduce
  cases s.place4K o
  simp only [hg.frg, hg.linCopy, apply_ite g, ite_self]

theorem stageCell (s : State) (o : Nat) : g (s.stageCell o) = g s := by
  unfold State.stageCell
  dsimp only
  split
  · exact (hg.granules _ _ _ (State.cell _ _).live).trans (hg.linCopy ..)
  · rfl

theorem markClose (s : State) (o : Nat) : g (s.markClose o) = g s := by
  rw [markClose_eq]
  beta_reduce
  cases s.place4K o
  exact hg.frg ..

theorem markCell (s : State) (o : Nat) : g (s.markCell o) = g s := hg.granules _ _ (State.cell _ _).frozen _

theorem freshen (s : State) (o n : Nat) : g (s.freshen o n) = g s := by
  unfold State.freshen
  split
  · rfl
  · exact (hg.corrected ..).trans (hg.flips ..)

theorem writeGranule (s : State) (o : Nat) (bs : List Byte) : g (s.writeGranule o bs) = g s := by
  unfold State.writeGranule
  split
  · exact (hg.mem ..).trans ((hg.markClose ..).trans (hg.stageClose ..))
  · exact (hg.freshen ..).trans ((hg.mem ..).trans ((hg.markCell ..).trans (hg.stageCell ..)))

theorem saveWrite (s : State) (o : Owner) (e n k : Nat) (bs : List Byte) : g (s.saveWrite o e n k bs) = g s :=
  foldS_keeps g (fun _ _ => by
    split
    · exact hg.farWrite ..
    · rfl) _ _

theorem writeAway (s : State) (o : Owner) (a : Nat) (bs : List Byte) : g (s.writeAway o a bs) = g s := by
  unfold State.writeAway
  dsimp only
  split
  · exact hg.saveWrite ..
  · rfl

theorem writeFor (s : State) (o : Owner) (a : Nat) (bs : List Byte) : g (s.writeFor o a bs) = g s :=
  foldS_keeps g (fun _ _ => (hg.writeAway ..).trans (hg.writeGranule ..)) _ _

theorem engineWrite (s : State) (o : Owner) (e a : Nat) (bs : List Byte) : g (s.engineWrite o e a bs) = g s := by
  unfold State.engineWrite
  split
  · exact hg.writeFor ..
  · refine foldS_keeps g (fun _ _ => ?_) _ _
    dsimp only
    split
    · exact hg.writeFor ..
    · exact hg.bi ..

theorem deliver (s : State) (o : Owner) (e p : Nat) (h : Home) (bs : List Byte) : g (s.deliver o e p h bs) = g s := by
  unfold State.deliver
  split
  · exact hg.engineWrite ..
  · split
    · exact (hg.count _ 61 _ (by decide)).trans (hg.ext ..)
    · exact hg.farWrite ..
  · exact hg.farWrite ..
  · exact hg.remWrite ..

theorem classWrite (s : State) (x : FDesc) (a : Nat) (bs : List Byte) : g (s.classWrite x a bs) = g s := by
  unfold State.classWrite
  dsimp only
  split
  · exact hg.engineWrite ..
  · split
    · exact hg.deliver ..
    · rfl

theorem cutShort (hfree : ∀ s k, g { s with freeCtr := k } = g s) (s : State) (x : FDesc) : g (s.cutShort x) = g s :=
  (foldS_keeps g (fun _ _ => hg.classWrite ..) _ _).trans (hfree ..)

end DataInert

/-! ### The board -/

/-- A state without memory, engines, commands, traffic, reports and counters: set-up registers, placement, remap table, power, resets,
start but for the test record, management port and swarm are left. -/
def State.board (s : State) : State :=
  { s with
    mem := [], ext := [], far := [], farTag := 0, reps := [], epochs := [],
    cells := [], sync := [], sigs := [], waits := [], cmds := [], drips := [], rings := [], frgs := [], fdescs := [], devs := [],
    farTurn := 0, gather := [], link := HostLink.reset, seams := [], starve := [], flips := [], fab := Fabric.reset,
    coll := CollEng.reset, dbg := Debug.reset, nextId := 0, freeCtr := 0,
    swarm := { s.swarm with notices := [], reports := [] }, boot := { s.boot with recValid := false, invalid := 0 } }

/-- A part of the state that the board holds. -/
theorem State.field_of_board {β : Type} (g : State → β) (hg : ∀ s, g s.board = g s) {s t : State} (h : t.board = s.board) :
    g t = g s := by
  have := congrArg g h
  rwa [hg, hg] at this

/-- What reports change is not on the board. -/
theorem board_reportInert : ReportInert State.board :=
  ⟨fun _ _ _ => rfl, fun _ _ _ => rfl, fun _ _ => rfl, fun _ _ _ _ => rfl, fun _ _ _ => rfl, fun _ _ _ => rfl, fun _ _ _ _ => rfl,
    fun _ _ _ _ _ => rfl, fun _ _ _ => rfl⟩

/-- Nor is what writing data changes. -/
theorem board_dataInert : DataInert State.board where
  toReportInert := board_reportInert
  corrected _ _ := rfl
  flips _ _ := rfl
  frg _ _ _ := rfl
  granules _ _ _ _ := rfl
  bi _ _ _ := rfl
  issued _ _ := rfl

theorem foldS_board {α : Type} {f : State → α → State} (hf : ∀ s a, (f s a).board = s.board) (l : List α) (s : State) :
    (foldS f s l).board = s.board :=
  foldS_keeps State.board hf l s

@[simp] theorem board_bump (s : State) (n k : Nat) : (s.bump n k).board = s.board := (rfl)
@[simp] theorem board_setCell (s : State) (n : Nat) (c : Cell) : (s.setCell n c).board = s.board := (rfl)
@[simp] theorem board_setCmd (s : State) (c : Cmd) : (s.setCmd c).board = s.board := (rfl)
@[simp] theorem board_setEpoch (s : State) (p : Nat) (e : Epoch) : (s.setEpoch p e).board = s.board := (rfl)
@[simp] theorem board_setRing (s : State) (p i : Nat) (r : Ring) : (s.setRing p i r).board = s.board := (rfl)
@[simp] theorem board_setDrip (s : State) (j : Nat) (q : Drip) : (s.setDrip j q).board = s.board := (rfl)
@[simp] theorem board_pushBi (s : State) (l : Nat) (w : BiWhat) : (s.pushBi l w).board = s.board := (rfl)
@[simp] theorem board_originate (s : State) (o : Owner) (e : Nat) (p : Packet) : (s.originate o e p).board = s.board := (rfl)
@[simp] theorem board_freshen (s : State) (o n : Nat) : (s.freshen o n).board = s.board := board_dataInert.freshen ..
@[simp] theorem board_engineWrite (s : State) (o : Owner) (e a : Nat) (bs : List Byte) : (s.engineWrite o e a bs).board = s.board :=
  board_dataInert.engineWrite ..
@[simp] theorem board_deliver (s : State) (o : Owner) (e p : Nat) (h : Home) (bs : List Byte) : (s.deliver o e p h bs).board = s.board :=
  board_dataInert.deliver ..
@[simp] theorem board_cutShort (s : State) (x : FDesc) : (s.cutShort x).board = s.board :=
  board_dataInert.cutShort (fun _ _ => rfl) s x

/-! ### Commands that end -/

@[simp] theorem board_quenchCell (s : State) (n : Nat) : (s.quenchCell n).board = s.board := by
  unfold State.quenchCell
  dsimp only
  split <;> rfl

@[simp] theorem board_quenchForagers (s : State) (c : Cmd) : (s.quenchForagers c).board = s.board :=
  (foldS_board (fun _ _ => board_cutShort ..) _ _).trans rfl

@[simp] theorem board_quenchColls (s : State) (c : Cmd) : (s.quenchColls c).board = s.board := (rfl)

@[simp] theorem board_quenchCmd (s : State) (id status : Nat) : (s.quenchCmd id status).board = s.board := by
  have cells := fun c : Cmd => foldS_board board_quenchCell (c.cells.filter fun n => (s.cell n).cmd == some id) s
  unfold State.quenchCmd
  split
  · rfl
  next c _ =>
    split
    · rfl
    split
    · dsimp only
      split <;> simp [cells c]
    · rw [board_setCmd]
      exact foldS_board (fun _ _ => board_setDrip ..) _ _

@[simp] theorem board_abortCmd (s : State) (id : Nat) : (s.abortCmd id).board = s.board := by
  unfold State.abortCmd
  dsimp only
  split
  · split <;> simp
  · simp

@[simp] theorem board_passHead (s : State) (c : Cmd) : (s.passHead c).board = s.board := (rfl)

@[simp] theorem board_abortWaiting (s : State) (p : Nat) : (s.abortWaiting p).board = s.board :=
  foldS_board (fun _ _ => by simp) _ _

/-! ### Failures -/

@[simp] theorem board_escalate (s : State) (p r j d : Nat) : (s.escalate p r j d).board = s.board :=
  board_reportInert.escalate (fun _ _ => rfl) ..

@[simp] theorem board_faultNotice (s : State) (p r : Nat) : (s.faultNotice p r).board = s.board := board_reportInert.faultNotice ..

@[simp] theorem board_spoilRecord (s : State) (why : Nat) : (s.spoilRecord why).board = s.board := by
  unfold State.spoilRecord
  split <;> rfl

@[simp] theorem board_wantRecovery (s : State) (p : Nat) : (s.wantRecovery p).board = s.board := by
  unfold State.wantRecovery
  split
  · exact board_setEpoch ..
  · exact (board_faultNotice ..).trans (board_setEpoch ..)

@[simp] theorem board_noLining (s : State) (p : Nat) : (s.noLining p).board = s.board := by
  unfold State.noLining
  split
  · exact board_setEpoch ..
  · exact board_faultNotice ..

@[simp] theorem board_freeBytes (s : State) (a n : Nat) : (s.freeBytes a n).board = s.board := (rfl)

@[simp] theorem board_loseData (s : State) (p : Nat) (u : Lost) (ids : List Nat) : (s.loseData p u ids).board = s.board := by
  have ends : ((foldS State.abortCmd s ids).noLining p).board = s.board :=
    (board_noLining ..).trans (foldS_board board_abortCmd _ _)
  unfold State.loseData
  split
  · simp only [apply_ite State.board, board_wantRecovery, board_setEpoch, ite_self]
  · cases u with
    | cell n => exact (board_freeBytes ..).trans ends
    | _ => exact (foldS_board (fun _ _ => board_freeBytes ..) _ _).trans ends

@[simp] theorem board_loseWords (s : State) (p : Nat) (ids words : List Nat) : (s.loseWords p ids words).board = s.board := by
  unfold State.loseWords
  dsimp only
  split
  · exact (foldS_board (fun _ _ => board_loseData ..) _ _).trans (board_spoilRecord ..)
  · refine (foldS_board (fun _ _ => ?_) _ _).trans ((board_noLining ..).trans ((foldS_board board_abortCmd _ _).trans ?_))
    · exact (board_freshen ..).trans (board_freeBytes ..)
    · exact board_spoilRecord ..

/-! ### Collectives -/

@[simp] theorem board_setColl (s : State) (c : Coll) : (s.setColl c).board = s.board := (rfl)
@[simp] theorem board_invalidate (s : State) (l : List Nat) : (s.invalidate l).board = s.board :=
  foldS_board (fun _ _ => board_pushBi ..) _ _

@[simp] theorem board_collSend (s : State) (c : Coll) (ty cls r a b : Nat) (p : Bool) (d : List Byte) :
    (s.collSend c ty cls r a b p d).board = s.board := board_originate ..

@[simp] theorem board_abortTeam (s : State) (c : Coll) : (s.abortTeam c).board = s.board :=
  (foldS_board (fun _ _ => board_originate ..) _ _).trans (board_setColl ..)

@[simp] theorem board_sendStage (s : State) (c : Coll) : (s.sendStage c).board = s.board :=
  foldS_board (fun _ _ => board_collSend ..) _ _

@[simp] theorem board_collWrite (s : State) (c : Coll) (a : Nat) (bs : List Byte) : (s.collWrite c a bs).board = s.board := by
  unfold State.collWrite
  split <;> simp

@[simp] theorem board_waggleOn : ∀ (k : Nat) (s : State) (c : Coll), (State.waggleOn k s c).board = s.board
  | 0, s, c => board_setColl ..
  | k + 1, s, c => by
    unfold State.waggleOn
    split
    · simp
    dsimp only
    split
    · rw [board_waggleOn k]
      split <;> simp
    · simp

@[simp] theorem board_grantNext (s : State) (id phase r : Nat) : (s.grantNext id phase r).board = s.board := by
  unfold State.grantNext
  split
  · rfl
  · simp only [apply_ite State.board, board_collSend, board_setColl, ite_self]

@[simp] theorem board_readGroup (s : State) (id g : Nat) : (s.readGroup id g).board = s.board := by
  unfold State.readGroup
  split
  · rfl
  · dsimp only
    split
    · rfl
    split
    · rfl
    · split <;> simp

@[simp] theorem board_putChunk (s : State) (c : Coll) (x : Nat × Nat × Nat) (bs : List Byte) : (s.putChunk c x bs).board = s.board :=
  (board_collSend ..).trans (board_setColl ..)

@[simp] theorem board_sendChunk (s : State) (c : Coll) (x : Nat × Nat × Nat) (a n : Nat) : (s.sendChunk c x a n).board = s.board := by
  unfold State.sendChunk
  dsimp only
  split
  · rfl
  split
  · simp
  split
  · simp
  split
  · rfl
  split <;> simp

@[simp] theorem board_sendCredits (s : State) (id : Nat) : (s.sendCredits id).board = s.board :=
  foldS_board (fun _ _ => foldS_board (fun _ _ => by
    split
    · rfl
    · simp only [apply_ite State.board, board_sendChunk, ite_self]) _ _) _ _

@[simp] theorem board_chunkOn (s : State) (id : Nat) : (s.chunkOn id).board = s.board := by
  have granted := fun l => foldS_board (f := fun u r => (u.grantNext id 0 r).grantNext id 1 r)
    (fun _ _ => (board_grantNext ..).trans (board_grantNext ..)) l s
  unfold State.chunkOn
  split
  · rfl
  next c _ =>
    have sums := fun gs => (foldS_board (fun u g => board_readGroup u id g) gs _).trans (granted (s.collPeers c))
    have sent := fun gs => (board_sendCredits _ id).trans (sums gs)
    extract_lets own gs s1 s2 s3
    have kept : s3.board = s.board := sent _
    split
    · exact kept
    · split
      · exact (board_setColl ..).trans kept
      · exact kept

@[simp] theorem board_drive (s : State) (id : Nat) : (s.drive id).board = s.board := by
  unfold State.drive
  split
  · rfl
  split
  · rfl
  split <;> simp

@[simp] theorem board_driveAll (s : State) : s.driveAll.board = s.board := foldS_board board_drive _ _

@[simp] theorem board_goOn (s : State) (p : Nat) : (s.goOn p).board = s.board := by
  unfold State.goOn
  dsimp only
  split
  · exact (board_driveAll _).trans (board_setEpoch ..)
  · exact board_setEpoch ..

end Sys2Proof.Machine

/-!
PROOFS. The effective cap, and what a change of it leaves as it was.
-/

namespace Sys2Proof.Machine

/-! ### The least of the caps -/

/-- Of two settings the one with the lower value, the first of equal ones. -/
def lesser (m c : Nat × Nat) : Nat × Nat := if c.1 < m.1 then c else m

theorem lesser_fst_le (m c : Nat × Nat) : (lesser m c).1 ≤ m.1 ∧ (lesser m c).1 ≤ c.1 := by
  unfold lesser
  split <;> omega

theorem foldl_lesser_le : ∀ (l : List (Nat × Nat)) (a : Nat × Nat), ∀ c ∈ a :: l, (l.foldl lesser a).1 ≤ c.1
  | [], a, c, h => by rw [List.mem_singleton.1 h]; rfl
  | b :: l, a, c, h => by
    have ih := foldl_lesser_le l (lesser a b)
    have least := ih _ (List.mem_cons_self ..)
    have bounds := lesser_fst_le a b
    rw [List.foldl_cons]
    rcases List.mem_cons.1 h with rfl | h
    · omega
    · rcases List.mem_cons.1 h with rfl | h
      · omega
      · exact ih c (List.mem_cons_of_mem _ h)

/-- No setting before the one that is chosen has a value as low. -/
theorem foldl_lesser_first : ∀ (l : List (Nat × Nat)) (a : Nat × Nat) (i : Nat) (c : Nat × Nat), (a :: l)[i]? = some c →
    c.1 = (l.foldl lesser a).1 → ∃ j ≤ i, (a :: l)[j]? = some (l.foldl lesser a)
  | [], a, i, c, _, _ => ⟨0, Nat.zero_le i, rfl⟩
  | b :: l, a, i, c, h, low => by
    have ih := foldl_lesser_first l (lesser a b)
    have bound := foldl_lesser_le l (lesser a b) (lesser a b) (List.mem_cons_self ..)
    rw [List.foldl_cons] at low ⊢
    by_cases less : b.1 < a.1
    · rw [show lesser a b = b from if_pos less] at ih bound low ⊢
      cases i with
      | zero =>
        have : c = a := by simpa using h.symm
        subst this
        omega
      | succ k =>
        obtain ⟨j, hj, at_⟩ := ih k c h low
        exact ⟨j + 1, Nat.succ_le_succ hj, at_⟩
    · rw [show lesser a b = a from if_neg less] at ih bound low ⊢
      match i, h with
      | 0, h =>
        obtain ⟨j, hj, at_⟩ := ih 0 c h low
        rw [Nat.le_zero.1 hj] at at_
        exact ⟨0, Nat.le_refl 0, at_⟩
      | 1, h =>
        have : c = b := by simpa using h.symm
        subst this
        obtain ⟨j, hj, at_⟩ := ih 0 a rfl (by omega)
        rw [Nat.le_zero.1 hj] at at_
        exact ⟨0, Nat.zero_le 1, at_⟩
      | k + 2, h =>
        obtain ⟨j, hj, at_⟩ := ih (k + 1) c h low
        cases j with
        | zero => exact ⟨0, Nat.zero_le _, at_⟩
        | succ j => exact ⟨j + 2, Nat.succ_le_succ hj, at_⟩

theorem foldl_lesser_mem : ∀ (l : List (Nat × Nat)) (a : Nat × Nat), l.foldl lesser a ∈ a :: l
  | [], a => List.mem_singleton.2 rfl
  | b :: l, a => by
    have ih := List.mem_cons.1 (foldl_lesser_mem l (lesser a b))
    have pick : lesser a b = b ∨ lesser a b = a := by
      unfold lesser
      split
      · exact .inl rfl
      · exact .inr rfl
    rw [List.foldl_cons, List.mem_cons, List.mem_cons]
    rcases ih with same | rest
    · rcases pick with one | one <;> rw [same, one] <;> simp
    · exact .inr (.inr rest)

/-- The settings after the rated envelope. -/
def State.settings (s : State) : List (Nat × Nat) := s.caps.tail

theorem caps_eq (s : State) : s.caps = (s.power.env, 0) :: s.settings := rfl

theorem capNow_eq (s : State) : s.capNow = s.settings.foldl lesser (s.power.env, 0) := by
  rw [State.capNow, caps_eq, List.foldl_cons, if_neg (Nat.lt_irrefl _)]
  rfl

theorem capNow_mem (s : State) : s.capNow ∈ s.caps := by
  rw [capNow_eq, caps_eq]
  exact foldl_lesser_mem _ _

theorem cap_le {s : State} {c : Nat × Nat} (h : c ∈ s.caps) : s.cap ≤ c.1 := by
  rw [State.cap, capNow_eq]
  exact foldl_lesser_le _ _ c h

theorem cap_le_rack (s : State) : s.cap ≤ s.power.rack :=
  cap_le (c := (s.power.rack, 2)) (by simp [State.caps])

/-- The brake controls in force cap the module at 900 W. -/
theorem cap_le_of_braking {s : State} (h : s.braking = true) : s.cap ≤ 900 :=
  cap_le (c := (900, 3)) (by unfold State.braking at h; simp [State.caps, h])

theorem cap_le_of_coast {s : State} (h : s.power.coast = true) : s.cap ≤ s.power.env * 40 / 100 :=
  cap_le (c := (_, 4)) (by simp [State.caps, h])

theorem cap_le_of_guarded {s : State} (h : s.power.guarded = true) : s.cap ≤ s.power.env * 60 / 100 :=
  cap_le (c := (_, 5)) (by simp [State.caps, h])

theorem effectiveCap : Claims.EffectiveCap := by
  refine fun s => ⟨capNow_mem s, fun c => cap_le, fun i c at_ low => ?_, fun braked => ?_, cap_le_of_coast, cap_le_of_guarded⟩
  · rw [capNow_eq, caps_eq]
    rw [State.cap, capNow_eq] at low
    exact foldl_lesser_first _ _ i c at_ low
  · refine cap_le_of_braking ?_
    rw [State.braking, Bool.or_eq_true, Bool.or_eq_true, or_assoc]
    exact braked

/-- A state with more in force has no higher cap. -/
theorem cap_le_cap {s t : State} (h : ∀ c ∈ s.caps, ∃ d ∈ t.caps, d.1 ≤ c.1) : t.cap ≤ s.cap := by
  obtain ⟨d, hd, le⟩ := h _ (capNow_mem s)
  exact (cap_le hd).trans le

/-! ### What a change of the cap leaves -/

/-- A state without what reports, the retuning of combs and a fast cut change. -/
def State.calm (s : State) : State :=
  { s.bare with power := { s.power with
      opp := [], rise := [], gov := [], memPct := 0, linkPct := 0, governed := { links := 0, mem := 0, comp := 0 }, brakes := 0,
      fastCut := false, fastAt := 0 } }

/-- A part of the state that neither reports nor a fast cut change. -/
theorem State.field_of_calm {β : Type} (g : State → β) (hg : ∀ s, g s.calm = g s) {s t : State} (h : t.calm = s.calm) :
    g t = g s := by
  have := congrArg g h
  rwa [hg, hg] at this

theorem calm_of_reported {s t : State} (h : Reported s t) : t.calm = s.calm :=
  h.field State.calm fun _ => rfl

@[simp] theorem bare_powerReport (s : State) (ty r b a : Nat) : (s.powerReport ty r b a).bare = s.bare := bare_reportAll ..

@[simp] theorem bare_traceCap (s : State) (b : Nat) : (s.traceCap b).bare = s.bare := by
  unfold State.traceCap
  split <;> simp

@[simp] theorem calm_powerReport (s : State) (ty r b a : Nat) : (s.powerReport ty r b a).calm = s.calm :=
  calm_of_reported (bare_powerReport ..)

@[simp] theorem calm_traceCap (s : State) (b : Nat) : (s.traceCap b).calm = s.calm := calm_of_reported (bare_traceCap ..)

/-- A state without the indices at which combs run. -/
def State.untuned (s : State) : State := { s with power := { s.power with opp := [], rise := [] } }

theorem untuned_applyRises (s : State) (d : Nat) : (s.applyRises d).untuned = s.untuned :=
  foldS_keeps State.untuned (fun _ _ => by dsimp only; split <;> rfl) _ _

theorem untuned_retune (s : State) (c : Nat) : (s.retune c).untuned = s.untuned := by
  unfold State.retune
  dsimp only
  split
  · rfl
  · exact untuned_applyRises ..

theorem untuned_retuneAll (s : State) : s.retuneAll.untuned = s.untuned :=
  foldS_keeps State.untuned untuned_retune _ _

/-- A part of the state that retuning leaves alone. -/
theorem retuneAll_field {β : Type} (g : State → β) (hg : ∀ s, g s.untuned = g s) (s : State) : g s.retuneAll = g s := by
  have := congrArg g (untuned_retuneAll s)
  rwa [hg, hg] at this

@[simp] theorem calm_brakeActions (s : State) : s.brakeActions.calm = s.calm := by
  unfold State.brakeActions State.brakeControls
  exact retuneAll_field State.calm (fun _ => rfl) _

@[simp] theorem calm_fastCutCheck (s : State) (before : Nat) : (s.fastCutCheck before).calm = s.calm := by
  unfold State.fastCutCheck
  dsimp only
  split
  · rw [calm_traceCap, calm_powerReport, calm_brakeActions]
    rfl
  · rfl

/-- A cap that has not fallen makes no fast cut due. -/
theorem fastCutCheck_of_le {s : State} {before : Nat} (h : before ≤ s.cap) : s.fastCutCheck before = s := by
  simp [State.fastCutCheck, State.fastDue, Nat.not_lt.2 h]

theorem calm_setCap (s : State) (f : State → State) : (s.setCap f).calm = (f s).calm := by
  unfold State.setCap
  dsimp only
  rw [calm_fastCutCheck, calm_traceCap]
  split
  · exact calm_powerReport ..
  · split
    · exact calm_powerReport ..
    · rfl

theorem calm_protectAmid (s : State) (ty r : Nat) (f amid : State → State) (h : ∀ t, (amid t).calm = t.calm) :
    (s.protectAmid ty r f amid).calm = (f s).calm := by
  unfold State.protectAmid
  dsimp only
  split
  · rw [calm_powerReport, h, calm_fastCutCheck, calm_traceCap]
  · rw [calm_fastCutCheck, calm_traceCap, calm_powerReport, h]

theorem calm_protect (s : State) (ty r : Nat) (f : State → State) : (s.protect ty r f).calm = (f s).calm :=
  calm_protectAmid s ty r f id fun _ => rfl

end Sys2Proof.Machine

/-!
PROOFS. Status, records and orders of the rack manager (O56).
-/

namespace Sys2Proof.Machine

/-! ### The state in which a request has its effect -/

/-- `s` as a request finds it, but for what the report of a hold's end changes: the rack manager has made contact, and the request
counts. -/
def State.attended (s : State) : State :=
  { s.contacted with mgmt := { s.contacted.mgmt with msgSec := s.second, msgCount := s.requestsNow + 1 } }

theorem served_reported (s : State) : Reported s.attended s.served := by
  have contact : s.rackContact.bare = s.contacted.bare := rackContact_reported s
  have count : s.rackContact.countRequest.bare = { s.rackContact.bare with mgmt := { s.rackContact.bare.mgmt with
      msgSec := s.rackContact.second, msgCount := s.rackContact.requestsNow + 1 } } := rfl
  have sec : s.rackContact.second = s.second := by rw [State.second, now_rackContact, State.second]
  rw [Reported, State.served, count, contact, sec, requestsNow_rackContact]
  rfl

/-- A part of the state that neither contact, nor the count, nor reports change. -/
theorem served_field {β : Type} (g : State → β) (hg : ∀ s, g s.bare = g s) (s : State) : g s.served = g s.attended :=
  (served_reported s).field g hg

@[simp] theorem now_served (s : State) : s.served.now = s.now := now_rackContact s

/-! ### Bytes and fields -/

theorem crcShift_lt {poly x n : Nat} (hp : poly < 2 ^ n) (hx : x < 2 ^ n) : crcShift poly x < 2 ^ n := by
  have half : x / 2 < 2 ^ n := (Nat.div_le_self x 2).trans_lt hx
  unfold crcShift
  split
  · exact Nat.xor_lt_two_pow half hp
  · exact half

theorem crcByte_lt {poly x n : Nat} (hn : 8 ≤ n) (hp : poly < 2 ^ n) (hx : x < 2 ^ n) (b : Byte) : crcByte poly x b < 2 ^ n := by
  have first : x ^^^ b.toNat < 2 ^ n := Nat.xor_lt_two_pow hx (b.isLt.trans_le (Nat.pow_le_pow_right (by decide) hn))
  have step := fun y => crcShift_lt (x := y) hp
  exact step _ (step _ (step _ (step _ (step _ (step _ (step _ (step _ first)))))))

theorem crc32c_lt (bs : List Byte) : crc32c bs < 2 ^ 32 := by
  refine Nat.xor_lt_two_pow ?_ (by decide)
  refine List.foldlRecOn (motive := fun x => x < 2 ^ 32) bs _ (by decide) fun x hx b _ => ?_
  exact crcByte_lt (by decide) (by decide) hx b

/-- A word as what stands above a field, the field, and what stands below it. -/
theorem eq_around_field (w lsb width : Nat) :
    w = 2 ^ lsb * (2 ^ width * (w / 2 ^ (lsb + width)) + bits w lsb width) + w % 2 ^ lsb := by
  rw [bits, pow_add, ← Nat.div_div_eq_div_mul, Nat.div_add_mod, Nat.div_add_mod]

theorem setBits_eq (w lsb width v : Nat) :
    setBits w lsb width v = 2 ^ lsb * (2 ^ width * (w / 2 ^ (lsb + width)) + v % 2 ^ width) + w % 2 ^ lsb := by
  have around := eq_around_field w lsb width
  unfold setBits
  simp only [Nat.mul_add] at around ⊢
  rw [Nat.mul_comm (bits w lsb width), Nat.mul_comm (v % 2 ^ width)]
  omega

/-- A word with a field replaced, bit by bit. -/
theorem testBit_setBits (w lsb width v i : Nat) :
    (setBits w lsb width v).testBit i = if lsb ≤ i ∧ i < lsb + width then v.testBit (i - lsb) else w.testBit i := by
  rw [setBits_eq, Nat.testBit_two_pow_mul_add _ (Nat.mod_lt _ (Nat.two_pow_pos _))]
  by_cases low : i < lsb
  · simp [low, Nat.not_le.2 low]
  rw [if_neg low, Nat.testBit_two_pow_mul_add _ (Nat.mod_lt _ (Nat.two_pow_pos _))]
  by_cases mid : i < lsb + width
  · have inside : i - lsb < width := by omega
    simp [Nat.not_lt.1 low, mid, inside]
  · have above : ¬ i - lsb < width := by omega
    have place : i - lsb - width + (lsb + width) = i := by omega
    simp [mid, above, Nat.testBit_div_two_pow, place]

/-- A bit of a register of which a field has been set. -/
theorem barB_setBarF (s : State) (key lsb width v i : Nat) :
    (s.setBarF key lsb width v).barB key i =
      (decide (i < 64) && if lsb ≤ i ∧ i < lsb + width then v.testBit (i - lsb) else s.barB key i) := by
  have word : (s.setBarF key lsb width v).barW key = setBits (s.barW key) lsb width v % 2 ^ 64 := by
    rw [State.barW, State.setBarF, Tab.get_set_self, BitVec.toNat_ofNat]
  rw [State.barB, word, bit, Nat.testBit_mod_two_pow, testBit_setBits]
  rfl

/-! ### Off orders -/

/-- An order that the module turns off. -/
def State.ordered (s : State) (kind : Nat) : State :=
  { s with power := { s.power with draining := true, offKind := max s.power.offKind kind } }

theorem board_reportOff (s : State) : s.reportOff.board = s.board := by
  unfold State.reportOff
  split
  · rfl
  · exact board_reportInert.reportAll ..

theorem board_drain (s : State) (kind : Nat) : (s.drain kind).board = (s.ordered kind).board :=
  foldS_board board_abortWaiting _ _

theorem board_beginOff (s : State) (kind : Nat) : (s.beginOff kind).board = (s.ordered kind).board := by
  have same : (s.reportOff.ordered kind).board = (s.ordered kind).board :=
    congrArg (fun b : State => b.ordered kind) (board_reportOff s)
  exact (board_drain _ _).trans same

/-! ### The messages -/

/-- The bytes of a record between those before a place and those after it. -/
theorem slice_append {off n : Nat} {pre x post : List Byte} (hpre : pre.length = off) (hx : x.length = n) :
    slice (pre ++ (x ++ post)) off n = x := by
  rw [slice, List.drop_left' hpre, List.take_left' hx]

theorem packW_foldl (l : List (Nat × Nat × Nat)) : ∀ a, l.foldl (fun a f => a + f.2.2 % 2 ^ f.2.1 * 2 ^ f.1) a = a + packW l := by
  induction l with
  | nil => intro a; rfl
  | cons f l ih =>
    intro a
    rw [packW, List.foldl_cons, List.foldl_cons, ih, ih, Nat.zero_add, Nat.add_assoc]

theorem packW_nil : packW [] = 0 := rfl

theorem packW_cons (place width v : Nat) (l : List (Nat × Nat × Nat)) :
    packW ((place, width, v) :: l) = v % 2 ^ width * 2 ^ place + packW l := by
  rw [packW, List.foldl_cons, packW_foldl, Nat.zero_add]

section
variable {s : State} (h : Served s)
include h

theorem getStatus_answers : ∃ body, exec .getStatus s = .next (s.served.reply 0 body) ∧ body.length = 64 ∧
    bits (leNat (slice body 0 8)) 32 12 = s.served.power.rack % 4096 ∧
    bits (leNat (slice body 24 8)) 0 4 = s.served.boot.step % 16 := by
  simp only [exec, execGetStatus, onRequest_served h]
  refine ⟨_, rfl, by simp [length_leBytes], ?_, ?_⟩
  · simp only [List.append_assoc]
    rw [slice, List.drop_zero, List.take_left' (length_leBytes 8 _), leNat_leBytes, State.pwrCapWord]
    simp only [packW_cons, packW_nil, bits]
    omega
  · simp only [List.append_assoc]
    rw [← List.append_assoc (leBytes 8 s.served.pwrCapWord), ← List.append_assoc (_ ++ _),
      slice_append (by simp [length_leBytes]) (length_leBytes 8 _), leNat_leBytes, State.prtBootWord]
    simp only [packW_cons, packW_nil, bits]
    omega

omit h in
theorem setRack_rack (t : State) (w : Nat) : (t.setRack w).power.rack = clampRack w := by
  unfold State.setRack
  dsimp only
  split
  · exact State.field_of_calm (fun u => u.power.rack) (fun _ => rfl) (calm_setCap ..)
  · rfl

theorem setRackCap_sets (w : BitVec 16) : ∃ u, exec (.setRackCap w) s = .next u ∧ u.power.rack = max 800 (min 2400 w.toNat) ∧
    u.mgmt.resp = some (0, leBytes 2 (max 800 (min 2400 w.toNat))) ∧ u.cap ≤ max 800 (min 2400 w.toNat) := by
  simp only [exec, execSetRackCap, onRequest_served h]
  exact ⟨_, rfl, setRack_rack _ _, rfl, (cap_le_rack _).trans_eq (setRack_rack _ _)⟩

theorem setRun_on : ∃ u, exec (.setRun true) s = .next u ∧ u.power.rackOn = true ∧ u.mgmt.resp = some (0, []) := by
  simp only [exec, execSetRun, onRequest_served h]
  exact ⟨_, rfl, rfl, rfl⟩

theorem setRun_off : ∃ u, exec (.setRun false) s = .next u ∧ u.power.rackOn = false ∧ u.mgmt.resp = some (0, []) ∧
    (s.live = true → s.power.running = true → u.power.draining = true) := by
  simp only [exec, execSetRun, onRequest_served h]
  refine ⟨_, rfl, ?_, rfl, fun live running => ?_⟩
  all_goals
    simp only [State.reply, State.setRun]
    split
  · exact State.field_of_board (fun u => u.power.rackOn) (fun _ => rfl) (board_beginOff ..)
  · rfl
  · exact State.field_of_board (fun u => u.power.draining) (fun _ => rfl) (board_beginOff ..)
  next no =>
    have live : ({ s.served with power := { s.served.power with rackOn := false } } : State).live = true :=
      (served_field State.live (fun _ => rfl) s).trans live
    have running : s.served.power.running = true := (served_field (fun u => u.power.running) (fun _ => rfl) s).trans running
    by_contra off
    refine no ?_
    rw [live]
    simpa [running] using off

theorem lights_set (p : BitVec 2) (n : BitVec 12) : ∃ u, exec (.lights p n) s = .next u ∧
    u.mgmt.locate = [Pattern.off, .blink1, .blink4, .steady].getD p.toNat .off ∧
    u.mgmt.locateEnd = s.now + BitVec.ofNat 64 (max 1 (min 3600 n.toNat) * 100000000) := by
  simp only [exec, execLights, onRequest_served h]
  refine ⟨_, rfl, ?_, ?_⟩
  · have four := p.isLt
    simp only [State.reply, State.setLocate]
    generalize p.toNat = k at four
    interval_cases k <;> rfl
  · simp only [State.reply, State.setLocate, now_served, secTicks]

theorem lightsClearService_clears : ∃ u, exec .lightsClearService s = .next u ∧
    u.mgmt.service = (s.mgmt.service && !s.served.mgmt.steady.isEmpty) := by
  have service : s.served.mgmt.service = s.mgmt.service := served_field (fun u => u.mgmt.service) (fun _ => rfl) s
  simp only [exec, execLightsClearService, onRequest_served h]
  refine ⟨_, rfl, ?_⟩
  cases none : s.served.mgmt.steady.isEmpty <;> simp [State.reply, service]

theorem readInventory_answers : ∃ body, exec .readInventory s = .next (s.served.reply 0 body) ∧ body.length = 512 ∧
    slice body 20 8 = leBytes 8 Config.serial.toNat ∧ leNat (slice body 508 4) = crc32c (body.take 508) := by
  have head : s.served.inventoryHead.length = 508 := by
    simp [State.inventoryHead, State.reworkSlot, productBytes, length_leBytes]
  simp only [exec, execReadInventory, onRequest_served h]
  refine ⟨_, rfl, by simp [State.inventory, head, length_leBytes], ?_, ?_⟩
  · simp only [State.inventory, State.inventoryHead, List.append_assoc]
    rw [← List.append_assoc (leBytes 4 (2 + 512 * 2 ^ 16)), slice_append (by simp [productBytes, length_leBytes]) (length_leBytes 8 _)]
  · rw [slice, State.inventory, List.drop_left' head, List.take_left' head, List.take_of_length_le (length_leBytes ..).le,
      leNat_leBytes]
    exact Nat.mod_eq_of_lt (crc32c_lt _)

theorem appendRework_refused (e : List Byte) (k : s.boot.mainOn = true ∨ s.mgmt.lock = true) :
    exec (.appendRework e) s = .next (s.served.reply 3 []) := by
  have mainOn : s.served.boot.mainOn = s.boot.mainOn := served_field (fun u => u.boot.mainOn) (fun _ => rfl) s
  have lock : s.served.mgmt.lock = s.mgmt.lock := served_field (fun u => u.mgmt.lock) (fun _ => rfl) s
  simp only [exec, execAppendRework, onRequest_served h, mainOn, lock]
  rw [if_pos (by simpa using k)]

theorem appendRework_appends (e : List Byte) (off : s.boot.mainOn = false) (free : s.mgmt.lock = false) (len : e.length = 24)
    (ok : reworkOk e = true) : ∃ u, exec (.appendRework e) s = .next u ∧ u.mgmt.resp = some (0, []) ∧
      Tab.get (fun _ => List.replicate 24 0) u.mgmt.rework s.mgmt.nextSlot = e ∧
      u.mgmt.nextSlot = (s.mgmt.nextSlot + 1) % 12 ∧ u.mgmt.used = min 12 (s.mgmt.used + 1) := by
  have mainOn : s.served.boot.mainOn = s.boot.mainOn := served_field (fun u => u.boot.mainOn) (fun _ => rfl) s
  have lock : s.served.mgmt.lock = s.mgmt.lock := served_field (fun u => u.mgmt.lock) (fun _ => rfl) s
  have slot : s.served.mgmt.nextSlot = s.mgmt.nextSlot := served_field (fun u => u.mgmt.nextSlot) (fun _ => rfl) s
  have used : s.served.mgmt.used = s.mgmt.used := served_field (fun u => u.mgmt.used) (fun _ => rfl) s
  simp only [exec, execAppendRework, onRequest_served h, mainOn, lock, slot, used, off, free, len, ok]
  exact ⟨_, rfl, rfl, Tab.get_set_self .., rfl, rfl⟩

theorem readFatal_answers (off : BitVec 16) : (8768 ≤ off.toNat → exec (.readFatal off) s = .next (s.served.reply 1 [])) ∧
    (off.toNat < 8768 → s.resets.fatal ≠ [] → ∃ u, exec (.readFatal off) s = .next u ∧
      u.mgmt.resp = some (0, slice s.resets.fatal off.toNat (min 4096 (8768 - off.toNat))) ∧
      (u.resets.fatalRead = true ↔ s.resets.fatalRead = true ∨ 8768 ≤ off.toNat + 4096)) := by
  have fatal : s.served.resets.fatal = s.resets.fatal := served_field (fun u => u.resets.fatal) (fun _ => rfl) s
  have read : s.served.resets.fatalRead = s.resets.fatalRead := served_field (fun u => u.resets.fatalRead) (fun _ => rfl) s
  simp only [exec, execReadFatal, onRequest_served h, fatal, fatalBytes]
  refine ⟨fun past => by rw [if_pos past], fun inside some_ => ?_⟩
  rw [if_neg (Nat.not_le.2 inside), if_neg (by simpa using some_)]
  refine ⟨_, rfl, rfl, ?_⟩
  simp only [State.reply, read, Bool.or_eq_true]
  refine or_congr_right (decide_eq_true_iff.trans ?_)
  omega

theorem readMember_refused (m : BitVec 12) (k : s.swarm.role ≠ 3) : exec (.readMember m) s = .next (s.served.reply 3 []) := by
  have role : s.served.swarm.role = s.swarm.role := served_field (fun u => u.swarm.role) (fun _ => rfl) s
  simp only [exec, execReadMember, onRequest_served h, role]
  rw [if_pos k]

theorem readMember_answers (m : BitVec 12) (k : s.swarm.role = 3) : ∃ body, exec (.readMember m) s = .next (s.served.reply 0 body) ∧
    leNat (body.take 4) = (Tab.get (fun _ => MemberRep.reset) s.served.swarm.reports m.toNat).retire % 2 ^ 32 := by
  have role : s.served.swarm.role = s.swarm.role := served_field (fun u => u.swarm.role) (fun _ => rfl) s
  simp only [exec, execReadMember, onRequest_served h, role]
  rw [if_neg (by simpa using k)]
  refine ⟨_, rfl, ?_⟩
  rw [List.append_assoc, List.take_left' (length_leBytes 4 _), leNat_leBytes]

omit h in
theorem testBit_bitN (b : Bool) : (bitN b).testBit 0 = b := by cases b <;> rfl

theorem setStart_sets (a b : Bool) : ∃ u, exec (.setStart a b) s = .next u ∧ u.barB startKey 0 = a ∧ u.barB startKey 1 = b ∧
    u.mgmt.resp = some (0, []) := by
  simp only [exec, execSetStart, onRequest_served h]
  have set : ∀ (t : State) i, (t.reply 0 []).barB startKey i = t.barB startKey i := fun _ _ => rfl
  refine ⟨_, rfl, ?_, ?_, rfl⟩ <;> rw [set, barB_setBarF]
  · rw [if_neg (by decide), barB_setBarF]
    exact testBit_bitN a
  · exact testBit_bitN b

theorem getSensor_cap : exec (.pldmGetSensor 2) s = .next (s.served.reply 0 (leBytes 4 (BitVec.ofInt 32 s.served.cap).toNat)) := by
  simp only [exec, execPldmGetSensor, onRequest_served h]
  rfl

theorem getSensor_unknown : ∃ u v, exec (.pldmGetSensor 5) s = .next u ∧ u.mgmt.resp = some (v, []) ∧ 1 ≤ v := by
  simp only [exec, execPldmGetSensor, onRequest_served h]
  exact ⟨_, _, rfl, rfl, Nat.le_add_left 1 _⟩

theorem setEffecter_rack (v : Nat) : ∃ u, exec (.pldmSetEffecter 101 v) s = .next u ∧ u.power.rack = max 800 (min 2400 v) ∧
    u.mgmt.resp = some (0, []) := by
  simp only [exec, execPldmSetEffecter, onRequest_served h]
  exact ⟨_, rfl, setRack_rack _ _, rfl⟩

theorem mctpControl_known : ∃ u body, exec (.mctpControl true) s = .next u ∧ u.mgmt.resp = some (0, body) := by
  simp only [exec, execMctpControl, onRequest_served h]
  exact ⟨_, _, rfl, rfl⟩

theorem mctpControl_unknown : exec (.mctpControl false) s = .next (s.served.bump 53 1) := by
  simp only [exec, execMctpControl, onRequest_served h]
  rfl

end

/-- Settles O56: each message of the rack manager, with its answer and its effect. -/
theorem managementMessages : Obligations.ManagementMessages := by
  intro s h
  refine ⟨getStatus_answers h, setRackCap_sets h, setRun_on h, setRun_off h, fun on => ?_, lights_set h, lightsClearService_clears h,
    fun shown past => ?_, readInventory_answers h, appendRework_refused h,
    fun e off free len ok _ => appendRework_appends h e off free len ok, readFatal_answers h, readMember_refused h,
    readMember_answers h, setStart_sets h, getSensor_cap h, getSensor_unknown h, setEffecter_rack h, mctpControl_known h,
    mctpControl_unknown h⟩
  · simp only [exec, execSetHoldup, onRequest_served h]
  · simp [exec, execLocateExpiry, whenStandby, whenDue, h.1, shown, past]

end Sys2Proof.Machine

/-!
PROOFS. Identity, attestation, the measurement log, and the hour counts (O57).
-/

namespace Sys2Proof.Machine

theorem length_signatureBytes (i : Nat) (d : List Byte) : (signatureBytes i d).length = 9893 := by
  simp [signatureBytes, length_leBytes]

/-- The nonce stands in an attestation record. -/
theorem attested_nonce (s : State) (n : BitVec 256) : slice (s.attested n) 16 32 = leBytes 32 n.toNat := by
  simp only [State.attested, List.append_assoc]
  rw [← List.append_assoc (leBytes 8 _), slice_append (by simp [length_leBytes]) (length_leBytes 32 _)]

section
variable {s : State} (h : Served s)
include h

theorem attest_early (n : BitVec 256) (a : Word) (last : s.mgmt.attestAt = some a) (early : (s.now - a).toNat < 100000000) :
    exec (.attest n) s = .next (s.served.collarClamp.reply 4 []) := by
  have at_ : s.served.mgmt.attestAt = some a := (served_field (fun u => u.mgmt.attestAt) (fun _ => rfl) s).trans last
  have soon : (s.now - a).toNat < secTicks := early
  simp only [exec, execAttest, onRequest_served h, at_, now_served]
  rw [if_pos (decide_eq_true soon)]

/-- An attestation that comes a second after the last takes the next index of the identity key. -/
theorem attest_late (n : BitVec 256) (late : ∀ a, s.mgmt.attestAt = some a → 100000000 ≤ (s.now - a).toNat) :
    exec (.attest n) s = .next (match s.served.takeIndex with
      | none => s.served.reply 3 []
      | some (i, t) => ({ t with mgmt := { t.mgmt with attestAt := some t.now } } : State).reply 0
          (t.attested n ++ signatureBytes i (t.attested n))) := by
  have at_ : s.served.mgmt.attestAt = s.mgmt.attestAt := served_field (fun u => u.mgmt.attestAt) (fun _ => rfl) s
  simp only [exec, execAttest, onRequest_served h, at_, now_served]
  cases last : s.mgmt.attestAt with
  | none => rfl
  | some a =>
    have enough : ¬ (s.now - a).toNat < secTicks := Nat.not_lt.2 (late a last)
    simp only [enough]
    rfl

end

theorem attestation : Claims.Attestation := by
  intro s h
  have index : s.served.mgmt.index = s.mgmt.index := served_field (fun u => u.mgmt.index) (fun _ => rfl) s
  have block : s.served.mgmt.block = s.mgmt.block := served_field (fun u => u.mgmt.block) (fun _ => rfl) s
  have log : s.served.mgmt.log = s.mgmt.log := served_field (fun u => u.mgmt.log) (fun _ => rfl) s
  refine ⟨?_, fun k => ?_, attest_early h, fun n late => ⟨fun more _ _ => ?_, fun spent more => ?_, fun spent none => ?_⟩⟩
  · simp only [exec, execIdentity, onRequest_served h]
  · simp only [exec, execReadLog, onRequest_served h, log]
  · rw [attest_late h n late, State.takeIndex, index, block, if_pos more]
    refine ⟨_, _, rfl, rfl, block, ?_, rfl, attested_nonce _ _, length_signatureBytes _ _⟩
    exact congrArg some (now_served s)
  · rw [attest_late h n late, State.takeIndex, index, block, if_neg (Nat.not_lt.2 spent), if_pos more]
    exact ⟨_, rfl, rfl, rfl⟩
  · rw [attest_late h n late, State.takeIndex, index, block, if_neg (Nat.not_lt.2 spent), if_neg (Nat.not_lt.2 none)]

theorem hourCounts : Claims.HourCounts := by
  intro s on
  simp only [exec, execHourCountUpdate, whenStandby, on]
  refine ⟨_, rfl, ?_⟩
  split
  next old =>
    have stale : 168 ≤ s.boot.ageH := by
      have late : 168 < min 65535 (s.boot.ageH + 1) := old
      omega
    unfold State.spoilRecord
    dsimp only
    split <;> simp [State.storeCounts, *]
  next new =>
    have fresh : min 65535 (s.boot.ageH + 1) ≤ 168 := Nat.not_lt.1 new
    simp [State.storeCounts]
    omega

/-- Settles O57: an index of the identity key is used once, and the hours count on. -/
theorem attestationAndHours : Obligations.AttestationAndHours :=
  ⟨attestation, hourCounts⟩

end Sys2Proof.Machine

/-!
PROOFS. The update of firmware and the owner's commands (O58, O59): what they do to the management port, whose state no report and no
engine changes.
-/

namespace Sys2Proof.Machine

/-! ### The management port -/

theorem mgmt_of_board {s t : State} (h : t.board = s.board) : t.mgmt = s.mgmt :=
  State.field_of_board State.mgmt (fun _ => rfl) h

theorem mgmt_setFw (s : State) (st res : Nat) :
    (s.setFw st res).mgmt = (({ s with mgmt := { s.mgmt with fwState := st, fwResult := res } } : State).mEvent 10 0).mgmt := by
  unfold State.setFw
  dsimp only
  split
  · exact mgmt_reportInert.reportAll ..
  · rfl

theorem board_endPoint (s : State) : s.endPoint.board = s.board :=
  foldS_board (fun t p => by
    split
    · exact (board_goOn ..).trans (board_setEpoch ..)
    · rfl) _ _

@[simp] theorem mgmt_endPoint (s : State) : s.endPoint.mgmt = s.mgmt := mgmt_of_board (board_endPoint s)

theorem mgmt_armFw (s : State) : s.armFw.mgmt = (s.setFw 4 s.mgmt.fwResult).mgmt := by
  unfold State.armFw
  dsimp only
  split
  · rfl
  split
  · exact mgmt_reportInert.requestBoundary ..
  · exact mgmt_of_board ((board_goOn ..).trans (board_setEpoch ..))

theorem board_sendMarker (s : State) (p m step : Nat) : (s.sendMarker p m step).board = s.board := board_originate ..

theorem board_sendMarkers (s : State) (p step : Nat) (l : List Nat) : (foldS (fun t m => t.sendMarker p m step) s l).board = s.board :=
  foldS_board (fun t m => board_sendMarker t p m step) l s

theorem board_passStages (p step : Nat) : ∀ (f : Nat) (s : State) (k : Nat), (State.passStages p step f s k).1.board = s.board
  | 0, _, _ => rfl
  | f + 1, s, k => by
    unfold State.passStages
    split
    · rfl
    split
    · exact (board_passStages p step f _ _).trans (board_sendMarkers ..)
    · rfl

theorem board_barrierOn (s : State) (p step k : Nat) : (s.barrierOn p step k).1.board = s.board := by
  unfold State.barrierOn
  dsimp only
  split
  · rfl
  split
  · rfl
  split
  · exact board_passStages ..
  split
  · split
    · exact board_sendMarkers ..
    · rfl
  · rfl

theorem board_announce (s : State) (p step : Nat) : (s.announce p step).board = s.board := by
  unfold State.announce
  split
  · rfl
  split
  · exact board_sendMarkers ..
  split
  · rfl
  · exact board_sendMarker ..

theorem board_contribute (s : State) (p step : Nat) : (s.contribute p step).board = s.board := by
  have kept := (board_barrierOn (s.announce p step) p step 0).trans (board_announce ..)
  unfold State.contribute
  generalize (s.announce p step).barrierOn p step 0 = r at kept ⊢
  exact (board_setEpoch ..).trans kept

@[simp] theorem mgmt_contribute (s : State) (p step : Nat) : (s.contribute p step).mgmt = s.mgmt := mgmt_of_board (board_contribute ..)

section
variable (s : State)

@[simp] theorem served_fwState : s.served.mgmt.fwState = s.mgmt.fwState := served_field (fun u => u.mgmt.fwState) (fun _ => rfl) s
@[simp] theorem served_fwBytes : s.served.mgmt.fwBytes = s.mgmt.fwBytes := served_field (fun u => u.mgmt.fwBytes) (fun _ => rfl) s
@[simp] theorem served_fwLen : s.served.mgmt.fwLen = s.mgmt.fwLen := served_field (fun u => u.mgmt.fwLen) (fun _ => rfl) s
@[simp] theorem served_bank : s.served.mgmt.bank = s.mgmt.bank := served_field (fun u => u.mgmt.bank) (fun _ => rfl) s
@[simp] theorem served_fuses : s.served.mgmt.fuses = s.mgmt.fuses := served_field (fun u => u.mgmt.fuses) (fun _ => rfl) s
@[simp] theorem served_owner : s.served.mgmt.owner = s.mgmt.owner := served_field (fun u => u.mgmt.owner) (fun _ => rfl) s
@[simp] theorem served_ownerSeq : s.served.mgmt.ownerSeq = s.mgmt.ownerSeq :=
  served_field (fun u => u.mgmt.ownerSeq) (fun _ => rfl) s
@[simp] theorem served_lock : s.served.mgmt.lock = s.mgmt.lock := served_field (fun u => u.mgmt.lock) (fun _ => rfl) s

end

/-! ### The update -/

section
variable {s : State} (h : Served s)
include h

theorem fwBegin_begins (n : BitVec 32) (idle : s.mgmt.fwState = 0) (free : s.served.fwRefusal = 0) (fits : n.toNat ≤ 64 * 2 ^ 20) :
    ∃ u, exec (.fwBegin n) s = .next u ∧ u.mgmt.fwState = 1 ∧ u.mgmt.fwLen = n.toNat ∧ u.mgmt.fwBytes = [] ∧
      u.mgmt.bank = s.mgmt.bank ∧ u.mgmt.resp = some (0, []) := by
  have fits : ¬ 64 * 2 ^ 20 < n.toNat := Nat.not_lt.2 fits
  simp only [exec, execFwBegin, onRequest_served h, served_fwState, idle, free, fits, ne_eq, not_true, if_false]
  refine ⟨_, rfl, ?_⟩
  rw [State.reply, mgmt_setFw]
  exact ⟨rfl, rfl, rfl, served_bank s, rfl⟩

theorem fwBegin_refused (n : BitVec 32) (busy : s.mgmt.fwState ≠ 0) : exec (.fwBegin n) s = .next (s.served.turnAway 7 8) := by
  simp only [exec, execFwBegin, onRequest_served h, served_fwState, ne_eq, busy, not_false_eq_true, if_true]

theorem fwData_appends (off : BitVec 32) (d : List Byte) (receiving : s.mgmt.fwState = 1) (some_ : 1 ≤ d.length) (most : d.length ≤ 4096)
    (next : off.toNat = s.mgmt.fwBytes.length) (fits : s.mgmt.fwBytes.length + d.length ≤ s.mgmt.fwLen) :
    exec (.fwData off d) s =
      .next (({ s.served with mgmt := { s.served.mgmt with fwBytes := s.mgmt.fwBytes ++ d } } : State).reply 0 []) := by
  have fits : ¬ s.mgmt.fwLen < s.mgmt.fwBytes.length + d.length := Nat.not_lt.2 fits
  have size : ¬ (d.length = 0 ∨ 4096 < d.length) := by omega
  simp only [exec, execFwData, onRequest_served h, served_fwState, served_fwBytes, served_fwLen, receiving, size, next, fits, ne_eq,
    not_true, if_false]

theorem fwData_gap (off : BitVec 32) (d : List Byte) (receiving : s.mgmt.fwState = 1) (some_ : 1 ≤ d.length) (most : d.length ≤ 4096)
    (gap : off.toNat ≠ s.mgmt.fwBytes.length) : exec (.fwData off d) s = .next (s.served.turnAway 7 8) := by
  have size : ¬ (d.length = 0 ∨ 4096 < d.length) := by omega
  simp only [exec, execFwData, onRequest_served h, served_fwState, served_fwBytes, receiving, size, gap, ne_eq, not_true,
    not_false_eq_true, if_false, if_true]

theorem fwEnd_ends (receiving : s.mgmt.fwState = 1) (whole : s.mgmt.fwBytes.length = s.mgmt.fwLen) :
    ∃ u, exec .fwEnd s = .next u ∧ u.mgmt.fwState = 2 := by
  simp only [exec, execFwEnd, onRequest_served h, served_fwState, served_fwBytes, served_fwLen, receiving, whole, ne_eq, not_true,
    if_false]
  exact ⟨_, rfl, by simp only [State.reply, mgmt_setFw]; rfl⟩

theorem fwEnd_refused (other : s.mgmt.fwState ≠ 1) : exec .fwEnd s = .next (s.served.reply 3 []) := by
  simp only [exec, execFwEnd, onRequest_served h, served_fwState, ne_eq, other, not_false_eq_true, if_true]

/-- An activation that is let in: of an image of this architecture revision it arms the update, else it waits for a reset. -/
theorem fwActivate_staged (staged : s.mgmt.fwState = 3) (free : s.served.fwRefusal = 0) : exec .fwActivate s =
    .next ((if (s.served.image (!s.mgmt.bank)).arev.toNat = s.served.arev then s.served.armFw
      else ({ s.served with mgmt := { s.served.mgmt with bank := !s.mgmt.bank, trial := true } } : State).setFw 7
        s.served.mgmt.fwResult).reply 0 []) := by
  simp only [exec, execFwActivate, onRequest_served h, served_fwState, served_bank, staged, free, ne_eq, not_true, false_and, if_false,
    apply_ite (fun u : State => u.reply 0 [])]

theorem fwActivate_arms (staged : s.mgmt.fwState = 3) (free : s.served.fwRefusal = 0)
    (same : (s.served.image (!s.mgmt.bank)).arev.toNat = s.served.arev) :
    ∃ u, exec .fwActivate s = .next u ∧ u.mgmt.fwState = 4 ∧ u.mgmt.bank = s.mgmt.bank := by
  rw [fwActivate_staged h staged free, if_pos same]
  refine ⟨_, rfl, ?_⟩
  simp only [State.reply, mgmt_armFw, mgmt_setFw]
  exact ⟨rfl, served_bank s⟩

theorem fwActivate_waits (staged : s.mgmt.fwState = 3) (free : s.served.fwRefusal = 0)
    (other : (s.served.image (!s.mgmt.bank)).arev.toNat ≠ s.served.arev) :
    ∃ u, exec .fwActivate s = .next u ∧ u.mgmt.fwState = 7 ∧ u.mgmt.bank = (!s.mgmt.bank) ∧ u.mgmt.trial = true := by
  rw [fwActivate_staged h staged free, if_neg other]
  refine ⟨_, rfl, ?_⟩
  simp only [State.reply, mgmt_setFw]
  exact ⟨rfl, rfl, rfl⟩

theorem fwActivate_refused (other : s.mgmt.fwState ≠ 3) (never : s.mgmt.fwState ≠ 6) :
    exec .fwActivate s = .next (s.served.reply 3 []) := by
  simp only [exec, execFwActivate, onRequest_served h, served_fwState, ne_eq, other, never, not_false_eq_true, and_self, if_true]

theorem fwConfirm_confirms (trial : s.mgmt.fwState = 6) (fits : (s.served.image s.served.mgmt.bank).secver ≤ 64) :
    ∃ u, exec .fwConfirm s = .next u ∧ u.mgmt.fwState = 0 ∧ u.mgmt.trial = false ∧
      u.mgmt.fuses = max s.mgmt.fuses (s.served.image s.served.mgmt.bank).secver := by
  have fits : ¬ 64 < (s.served.image s.served.mgmt.bank).secver := Nat.not_lt.2 fits
  simp only [exec, execFwConfirm, onRequest_served h, served_fwState, trial, fits, ne_eq, not_true, if_false]
  refine ⟨_, rfl, ?_⟩
  simp only [State.reply, mgmt_setFw]
  exact ⟨rfl, rfl, congrArg (max · _) (served_fuses s)⟩

theorem fwConfirm_refused (other : s.mgmt.fwState ≠ 6) : exec .fwConfirm s = .next (s.served.reply 3 []) := by
  simp only [exec, execFwConfirm, onRequest_served h, served_fwState, ne_eq, other, not_false_eq_true, if_true]

theorem fwAbort_aborts (under : s.mgmt.fwState = 1 ∨ s.mgmt.fwState = 3) :
    ∃ u, exec .fwAbort s = .next u ∧ u.mgmt.fwState = 0 ∧ u.mgmt.bank = s.mgmt.bank := by
  simp only [exec, execFwAbort, onRequest_served h, served_fwState, under, if_true]
  refine ⟨_, rfl, ?_⟩
  simp only [State.reply, mgmt_setFw]
  exact ⟨rfl, served_bank s⟩

theorem fwAbort_refused (a : s.mgmt.fwState ≠ 1) (b : s.mgmt.fwState ≠ 3) : exec .fwAbort s = .next (s.served.reply 3 []) := by
  simp only [exec, execFwAbort, onRequest_served h, served_fwState, a, b, or_self, if_false]

end

section
variable {s : State}

theorem fwReceiveTimeout_ends (on : s.boot.standby = true) (receiving : s.mgmt.fwState = 1) :
    ∃ u, exec .fwReceiveTimeout s = .next u ∧ u.mgmt.fwState = 0 ∧ u.mgmt.fwResult = 10 := by
  simp only [exec, execFwReceiveTimeout, whenStandby, whenDue, on, receiving]
  refine ⟨_, rfl, ?_⟩
  simp only [mgmt_setFw]
  exact ⟨rfl, rfl⟩

theorem fwVerifyDone_ends (on : s.boot.standby = true) (verifying : s.mgmt.fwState = 2) (loaded : Bool) :
    ∃ u, exec (.fwVerifyDone loaded) s = .next u ∧ u.mgmt.bank = s.mgmt.bank ∧
      let r := s.imageResult s.mgmt.fwBytes
      (r ≠ 0 → u.mgmt.fwState = 0 ∧ u.mgmt.fwResult = r) ∧ (r = 0 → loaded = true → u.mgmt.fwState = 3) ∧
      (r = 0 → loaded = false → u.mgmt.fwState = 0) := by
  simp only [exec, execFwVerifyDone, whenStandby, whenDue, on, verifying]
  refine ⟨_, rfl, ?_⟩
  split
  next bad =>
    simp only [mgmt_setFw]
    exact ⟨rfl, fun _ => ⟨rfl, rfl⟩, fun good => absurd good bad, fun good => absurd good bad⟩
  next good =>
    cases loaded
    · refine ⟨?_, fun bad => absurd bad good, nofun, fun _ _ => ?_⟩ <;> exact (congrArg _ (mgmt_setFw ..)).trans rfl
    · refine ⟨?_, fun bad => absurd bad good, fun _ _ => ?_, nofun⟩ <;> exact (congrArg _ (mgmt_setFw ..)).trans rfl

theorem fwControllersReady_tries (on : s.live = true) (activating : s.mgmt.fwState = 5) :
    ∃ u, exec .fwControllersReady s = .next u ∧ u.mgmt.fwState = 6 ∧ u.mgmt.bank = (!s.mgmt.bank) ∧ u.mgmt.trial = true := by
  simp only [exec, execFwControllersReady, whenLive, whenDue, on, activating]
  refine ⟨_, rfl, ?_⟩
  rw [apply_ite State.mgmt, mgmt_contribute, ite_self, mgmt_endPoint, mgmt_setFw]
  exact ⟨rfl, rfl, rfl⟩

theorem fwActivationTimeout_returns (on : s.live = true) (activating : s.mgmt.fwState = 5) :
    ∃ u, exec .fwActivationTimeout s = .next u ∧ u.mgmt.fwState = 0 ∧ u.mgmt.fwResult = 9 ∧ u.mgmt.bank = s.mgmt.bank := by
  simp only [exec, execFwActivationTimeout, whenLive, whenDue, on, activating]
  refine ⟨_, rfl, ?_⟩
  rw [mgmt_endPoint, mgmt_setFw]
  exact ⟨rfl, rfl, rfl⟩

end

/-- Settles O58: each order of the update in each of its states. -/
theorem firmwareUpdate : Obligations.FirmwareUpdate := fun _ =>
  ⟨fun h => ⟨fwBegin_begins h, fwBegin_refused h, fwData_appends h, fwData_gap h, fwEnd_ends h, fwEnd_refused h, fwActivate_arms h,
      fwActivate_waits h, fwActivate_refused h, fwConfirm_confirms h, fwConfirm_refused h, fwAbort_aborts h, fwAbort_refused h⟩,
    fwReceiveTimeout_ends, fwVerifyDone_ends, fun on activating =>
      ⟨fwControllersReady_tries on activating, fwActivationTimeout_returns on activating⟩⟩

/-! ### The owner -/

/-- An accepted owner command. -/
def State.sequenced (s : State) (sequence : Word) : State := { s with mgmt := { s.mgmt with ownerSeq := sequence } }

section
variable {s : State} (h : Served s) {op : Nat} {serial sequence : Word} {key body sig : List Byte} {k : State → State}
include h

theorem onOwner_unowned (none_ : s.mgmt.owner = none) : onOwner s op serial sequence key body sig k = .next (s.served.reply 3 []) := by
  rw [onOwner, onRequest_served h]
  simp only [served_owner, none_]

theorem onOwner_owned {o : List Byte} (own : s.mgmt.owner = some o) : onOwner s op serial sequence key body sig k = .next
    (if body ≠ ownerBody op serial sequence key ∨ serial ≠ Config.serial then s.served.reply 1 []
      else if sequence.toNat ≤ s.mgmt.ownerSeq.toNat then s.served.reply 7 []
      else if !Config.signed body o sig then s.served.reply 6 []
      else (k (s.served.sequenced sequence)).reply 0 []) := by
  rw [onOwner, onRequest_served h]
  simp only [served_owner, own, served_ownerSeq, State.sequenced]

/-- The checks of an owner command, and what an accepted one leaves, told by its effect `k`. -/
theorem onOwner_checks (P : List Byte → State → Prop)
    (effect : ∀ o, s.mgmt.owner = some o → P o ((k (s.served.sequenced sequence)).reply 0 [])) :
    (s.mgmt.owner = none → onOwner s op serial sequence key body sig k = .next (s.served.reply 3 [])) ∧
    ∀ o, s.mgmt.owner = some o →
      ((body ≠ ownerBody op serial sequence key ∨ serial ≠ Config.serial) →
        onOwner s op serial sequence key body sig k = .next (s.served.reply 1 [])) ∧
      (body = ownerBody op serial sequence key → serial = Config.serial →
        (sequence.toNat ≤ s.mgmt.ownerSeq.toNat → onOwner s op serial sequence key body sig k = .next (s.served.reply 7 [])) ∧
        (s.mgmt.ownerSeq.toNat < sequence.toNat → Config.signed body o sig = false →
          onOwner s op serial sequence key body sig k = .next (s.served.reply 6 [])) ∧
        (s.mgmt.ownerSeq.toNat < sequence.toNat → Config.signed body o sig = true →
          ∃ u, onOwner s op serial sequence key body sig k = .next u ∧ P o u)) := by
  refine ⟨onOwner_unowned h, fun o own => ?_⟩
  rw [onOwner_owned h own]
  refine ⟨fun wrong => by rw [if_pos wrong], fun form mine => ?_⟩
  have right : ¬ (body ≠ ownerBody op serial sequence key ∨ serial ≠ Config.serial) :=
    not_or.2 ⟨not_not.2 form, not_not.2 mine⟩
  rw [if_neg right]
  refine ⟨fun old => by rw [if_pos old], fun later unsigned => ?_, fun later signed => ?_⟩
  · rw [if_neg (Nat.not_le.2 later), if_pos (by simp [unsigned])]
  · rw [if_neg (Nat.not_le.2 later), if_neg (by simp [signed])]
    exact ⟨_, rfl, effect o own⟩

theorem ownerEnrol_enrols (key : List Byte) (none_ : s.mgmt.owner = none) (size : key.length = 68) :
    ∃ u, exec (.ownerEnrol key) s = .next u ∧ u.mgmt.owner = some key ∧ u.mgmt.resp = some (0, []) := by
  simp only [exec, execOwnerEnrol, onRequest_served h, served_owner, none_, size]
  exact ⟨_, rfl, rfl, rfl⟩

theorem ownerEnrol_once (key o : List Byte) (own : s.mgmt.owner = some o) :
    exec (.ownerEnrol key) s = .next (s.served.reply 3 []) := by
  simp only [exec, execOwnerEnrol, onRequest_served h, served_owner, own]
  rfl

end

theorem setLock_mgmt (s : State) (b : Bool) : (s.setLock b).mgmt.lock = b ∧ (s.setLock b).mgmt.owner = s.mgmt.owner ∧
    (s.setLock b).mgmt.fwState = s.mgmt.fwState ∧ (s.setLock b).mgmt.ownerSeq = s.mgmt.ownerSeq := by
  unfold State.setLock
  split
  next same => exact ⟨same, rfl, rfl, rfl⟩
  · exact ⟨rfl, rfl, rfl, rfl⟩

theorem lockUpdate_mgmt (s : State) : s.lockUpdate.mgmt.lock = s.mgmt.lock ∧ s.lockUpdate.mgmt.owner = s.mgmt.owner ∧
    s.lockUpdate.mgmt.ownerSeq = s.mgmt.ownerSeq ∧ (1 ≤ s.mgmt.fwState → s.mgmt.fwState ≤ 4 → s.lockUpdate.mgmt.fwState = 0) := by
  unfold State.lockUpdate
  dsimp only
  split
  · rw [mgmt_endPoint, mgmt_setFw]
    exact ⟨rfl, rfl, rfl, fun _ _ => rfl⟩
  next other =>
    split
    · rw [mgmt_setFw]
      exact ⟨rfl, rfl, rfl, fun _ _ => rfl⟩
    · exact ⟨rfl, rfl, rfl, fun low high => absurd ⟨low, high⟩ other⟩

section
variable (s : State) (serial seq : Word) (key body sig : List Byte)

theorem exec_ownerSetLock : exec (.ownerSetLock serial seq body sig) s =
    onOwner s 1 serial seq noKey body sig fun t => (t.setLock true).lockUpdate := rfl

theorem exec_ownerClearLock : exec (.ownerClearLock serial seq body sig) s =
    onOwner s 2 serial seq noKey body sig fun t => t.setLock false := rfl

/-- The owner's key, changed and measured. -/
def State.rekeyed (s : State) (key : Option (List Byte)) : State :=
  ({ s with mgmt := { s.mgmt with owner := key } } : State).measureOwner

theorem exec_ownerReplaceKey : exec (.ownerReplaceKey serial seq key body sig) s =
    onOwner s 3 serial seq (leBytes 68 (leNat key)) body sig fun t => t.rekeyed (some (leBytes 68 (leNat key))) := rfl

theorem exec_ownerRelease : exec (.ownerRelease serial seq body sig) s =
    onOwner s 4 serial seq noKey body sig fun t => (t.rekeyed none).setLock false := rfl

end

theorem rekeyed_mgmt (s : State) (key : Option (List Byte)) : (s.rekeyed key).mgmt.owner = key ∧
    (s.rekeyed key).mgmt.lock = s.mgmt.lock ∧ (s.rekeyed key).mgmt.ownerSeq = s.mgmt.ownerSeq :=
  ⟨rfl, rfl, rfl⟩

/-- Settles O59: the owner's commands pass the same checks, and each has its effect on the lock and the key. -/
theorem ownerCommands : Obligations.OwnerCommands := by
  intro s h
  refine ⟨ownerEnrol_enrols h, ownerEnrol_once h, fun serial seq key body sig => ?_⟩
  intro zero k68 cs x hx
  have owner : (s.served.sequenced seq).mgmt.owner = s.mgmt.owner := served_owner s
  have lock : (s.served.sequenced seq).mgmt.lock = s.mgmt.lock := served_lock s
  simp only [cs, List.mem_cons, List.not_mem_nil, or_false] at hx
  rcases hx with rfl | rfl | rfl | rfl <;> dsimp only
  · rw [exec_ownerSetLock]
    refine onOwner_checks h _ fun o own => ?_
    obtain ⟨locked, owner', state, seq'⟩ := setLock_mgmt (s.served.sequenced seq) true
    obtain ⟨lock2, owner2, seq2, ended⟩ := lockUpdate_mgmt ((s.served.sequenced seq).setLock true)
    have state : ((s.served.sequenced seq).setLock true).mgmt.fwState = s.mgmt.fwState := state.trans (served_fwState s)
    rw [state] at ended
    exact ⟨seq2.trans seq', rfl, fun _ => ⟨lock2.trans locked, (owner2.trans (owner'.trans owner)).trans own, ended⟩,
      nofun, nofun, nofun⟩
  · rw [exec_ownerClearLock]
    refine onOwner_checks h _ fun o own => ?_
    obtain ⟨unlocked, owner', -, seq'⟩ := setLock_mgmt (s.served.sequenced seq) false
    exact ⟨seq', rfl, nofun, fun _ => ⟨unlocked, (owner'.trans owner).trans own⟩, nofun, nofun⟩
  · rw [exec_ownerReplaceKey]
    refine onOwner_checks h _ fun o own => ?_
    obtain ⟨owner', lock', seq'⟩ := rekeyed_mgmt (s.served.sequenced seq) (some k68)
    exact ⟨seq', rfl, nofun, nofun, fun _ => ⟨owner', lock'.trans lock⟩, nofun⟩
  · rw [exec_ownerRelease]
    refine onOwner_checks h _ fun o own => ?_
    obtain ⟨owner', -, seq'⟩ := rekeyed_mgmt (s.served.sequenced seq) none
    obtain ⟨unlocked, owner2, -, seq2⟩ := setLock_mgmt ((s.served.sequenced seq).rekeyed none) false
    exact ⟨seq2.trans seq', rfl, nofun, nofun, nofun, fun _ => ⟨owner2.trans owner', unlocked⟩⟩

end Sys2Proof.Machine

/-!
PROOFS. Events that happen, and the brake.
-/

namespace Sys2Proof.Machine

/-! ### Events that happen -/

section
variable {s : State} {b : Bool} (k : Host.Outcome State Fault Refusal)

theorem whenLive_of_live (h : s.live = true) : whenLive s k = k := if_pos h
theorem whenStandby_of_on (h : s.boot.standby = true) : whenStandby s k = k := if_pos h
theorem whenDue_of_due (h : b = true) : whenDue b k = k := if_pos h
theorem whenDue_of_not (h : b = false) : whenDue b k = .refused .notDue := if_neg (by simp [h])
theorem whenFormed_of_formed (h : b = true) : whenFormed b k = k := if_pos h

end

theorem standby_of_live {s : State} (h : s.live = true) : s.boot.standby = true := by
  simp only [State.live, Bool.and_eq_true] at h
  exact h.1.1

/-! ### The brake -/

/-- The controls of the brake. -/
def State.braked (s : State) : Prop :=
  (∀ c, c < 64 → Tab.get (fun _ => 15) s.power.gov c = 0) ∧ s.power.memPct = 50 ∧ s.power.linkPct = 0

/-- Every comb at operating point 0. -/
theorem get_allZero : ∀ c, c < 64 → Tab.get (fun _ => 15) ((List.range 64).map fun c => (c, 0)) c = 0 := by decide

theorem braked_brakeActions (s : State) : s.brakeActions.braked := by
  unfold State.brakeActions State.brakeControls
  refine ⟨fun c hc => ?_, ?_, ?_⟩
  · rw [retuneAll_field (fun u => u.power.gov) fun _ => rfl]
    exact get_allZero c hc
  · exact retuneAll_field (fun u => u.power.memPct) (fun _ => rfl) _
  · exact retuneAll_field (fun u => u.power.linkPct) (fun _ => rfl) _

/-- A protection followed by the brake actions: the controls are the brake's, and all else of the calm state is the protection's. -/
theorem protect_brakeActions (s : State) (ty r : Nat) {f : State → State}
    (brakes : ((f s).power.brake || (f s).power.vinBrake) = true) :
    ∃ t, (s.protect ty r f).brakeActions = t ∧ t.calm = (f s).calm ∧ t.braked ∧ t.cap ≤ 900 := by
  have calm : ((s.protect ty r f).brakeActions).calm = (f s).calm := (calm_brakeActions _).trans (calm_protect s ty r f)
  refine ⟨_, rfl, calm, braked_brakeActions _, cap_le_of_braking ?_⟩
  rw [State.braking, State.field_of_calm (fun u => u.power.brake || u.power.vinBrake) (fun _ => rfl) calm, brakes]
  rfl

/-- Clearing a protection that lets the cap rise is only reported. -/
theorem protect_eq_of_rise {s : State} {r : Nat} {f : State → State} (rises : s.cap ≤ (f s).cap) :
    s.protect 5 r f = ((f s).powerReport 5 r s.cap (f s).cap).traceCap s.cap := by
  have cap : (((f s).powerReport 5 r s.cap (f s).cap).traceCap s.cap).cap = (f s).cap :=
    Reported.field State.cap (fun _ => rfl) ((bare_traceCap ..).trans (bare_powerReport ..))
  exact fastCutCheck_of_le (rises.trans_eq cap.symm)

theorem protect_reported {s : State} {r : Nat} {f : State → State} (rises : s.cap ≤ (f s).cap) :
    Reported (f s) (s.protect 5 r f) := by
  rw [protect_eq_of_rise rises]
  exact (bare_traceCap ..).trans (bare_powerReport ..)

@[simp] theorem now_traceCap (s : State) (b : Nat) : (s.traceCap b).now = s.now := by
  unfold State.traceCap
  split <;> simp

theorem now_protect {s : State} {r : Nat} {f : State → State} (rises : s.cap ≤ (f s).cap) :
    (s.protect 5 r f).now = (f s).now := by
  rw [protect_eq_of_rise rises, now_traceCap]
  exact now_reportAll ..

/-- The state with other causes of the brake controls. -/
def State.withBrakes (s : State) (brake vin fast : Bool) : State :=
  { s with power := { s.power with brake := brake, vinBrake := vin, fastCut := fast } }

/-- With no more in force that brakes, the cap is no lower. -/
theorem cap_le_withBrakes {s : State} {brake vin fast : Bool} (hb : brake = true → s.power.brake = true)
    (hv : vin = true → s.power.vinBrake = true) (hf : fast = true → s.power.fastCut = true) :
    s.cap ≤ (s.withBrakes brake vin fast).cap := by
  refine cap_le_cap fun c hc => ⟨c, ?_, le_rfl⟩
  have caps : ∀ u : State, u.caps = [(u.power.env, 0), (u.barF 0x050000 0 12, 1), (u.power.rack, 2)] ++
      (if u.braking then [(900, 3)] else []) ++ (if u.power.coast then [(u.power.env * 40 / 100, 4)] else []) ++
      if u.power.guarded then [(u.power.env * 60 / 100, 5)] else [] := fun _ => rfl
  rw [caps] at hc ⊢
  simp only [List.mem_append] at hc ⊢
  refine hc.imp_left (Or.imp_left (Or.imp_right fun inForce => ?_))
  have on : (s.withBrakes brake vin fast).braking = true := by
    by_contra off
    rw [if_neg off] at inForce
    exact absurd inForce List.not_mem_nil
  have was : s.braking = true := by
    simp only [State.braking, State.withBrakes, Bool.or_eq_true] at on ⊢
    exact on.imp (Or.imp hb hv) hf
  rw [if_pos on] at inForce
  rwa [if_pos was]

theorem endBrake_reported (s : State) : Reported (s.withBrakes false s.power.vinBrake s.power.fastCut) s.endBrake :=
  protect_reported (cap_le_withBrakes (vin := s.power.vinBrake) nofun id id)

theorem brakeAssert_live {s : State} (on : s.boot.standby = true) (live : s.live = true) (up : s.power.brakePin = false) :
    ∃ t, exec .brakeAssert s = .next t ∧ t.power.brakePin = true ∧ t.power.brake = true ∧ t.power.brakeAt = s.now ∧
      t.mgmt.brakeAt = some s.now ∧ t.braked ∧ t.cap ≤ 900 ∧ t.cells = s.cells ∧ t.cmds = s.cmds := by
  rw [exec, execBrakeAssert, whenStandby_of_on _ on, whenDue_of_due _ (by simp [up])]
  obtain ⟨t, acts, calm, controls, cap⟩ := protect_brakeActions
    { s with power := { s.power with brakePin := true }, mgmt := { s.mgmt with brakeAt := some s.now } } 5 3
    (f := fun u => { u with power := { u.power with brake := true, brakeAt := u.now } }) rfl
  have pin := State.field_of_calm (fun u => u.power.brakePin) (fun _ => rfl) calm
  have brake := State.field_of_calm (fun u => u.power.brake) (fun _ => rfl) calm
  have since := State.field_of_calm (fun u => u.power.brakeAt) (fun _ => rfl) calm
  have noted := State.field_of_calm (fun u => u.mgmt.brakeAt) (fun _ => rfl) calm
  have cells := State.field_of_calm State.cells (fun _ => rfl) calm
  have cmds := State.field_of_calm State.cmds (fun _ => rfl) calm
  exact ⟨t, congrArg _ ((if_pos live).trans acts), pin, brake, since, noted, controls, cap, cells, cmds⟩

theorem vinUndervoltage_brakes {s : State} (live : s.live = true) (up : s.power.vinBrake = false) :
    ∃ t, exec .vinUndervoltage s = .next t ∧ t.power.vinBrake = true ∧ t.braked ∧ t.cap ≤ 900 ∧ t.cells = s.cells ∧
      t.cmds = s.cmds := by
  rw [exec, execVinUndervoltage, whenLive_of_live _ live, whenDue_of_due _ (by simp [up])]
  obtain ⟨t, acts, calm, controls, cap⟩ := protect_brakeActions s 5 3
    (f := fun u => { u with power := { u.power with vinBrake := true, brakeAt := u.now } }) (Bool.or_true _)
  have vin := State.field_of_calm (fun u => u.power.vinBrake) (fun _ => rfl) calm
  have cells := State.field_of_calm State.cells (fun _ => rfl) calm
  have cmds := State.field_of_calm State.cmds (fun _ => rfl) calm
  exact ⟨t, congrArg _ acts, vin, controls, cap, cells, cmds⟩

theorem vinRecover_releases {s : State} (live : s.live = true) (down : s.power.vinBrake = true) :
    ∃ t, exec .vinRecover s = .next t ∧ t.power.vinBrake = false ∧ t.power.brake = s.power.brake ∧ t.power.gov = s.power.gov := by
  rw [exec, execVinRecover, whenLive_of_live _ live, whenDue_of_due _ down]
  have same : Reported (s.withBrakes s.power.brake false s.power.fastCut)
      (s.protect 5 4 fun u => u.withBrakes u.power.brake false u.power.fastCut) :=
    protect_reported (cap_le_withBrakes (brake := s.power.brake) id nofun id)
  exact ⟨_, rfl, same.field (fun u => u.power.vinBrake) fun _ => rfl, same.field (fun u => u.power.brake) fun _ => rfl,
    same.field (fun u => u.power.gov) fun _ => rfl⟩

theorem brakeRelease_ends {s : State} (live : s.live = true) (down : s.power.brakePin = true) (on : s.power.brake = true)
    (held : s.brakeHeld = true) :
    ∃ t, exec .brakeRelease s = .next t ∧ t.power.brakePin = false ∧ t.power.brake = false ∧ t.power.gov = s.power.gov := by
  have all : (({ s with power := { s.power with brakePin := false } } : State).live && s.power.brake &&
      ({ s with power := { s.power with brakePin := false } } : State).brakeHeld) = true := by
    rw [Bool.and_eq_true, Bool.and_eq_true]
    exact ⟨⟨live, on⟩, held⟩
  rw [exec, execBrakeRelease, whenStandby_of_on _ (standby_of_live live), whenDue_of_due _ down]
  have same := endBrake_reported { s with power := { s.power with brakePin := false } }
  refine ⟨_, congrArg _ (if_pos all), same.field (fun u => u.power.brakePin) fun _ => rfl,
    same.field (fun u => u.power.brake) fun _ => rfl, same.field (fun u => u.power.gov) fun _ => rfl⟩

theorem brakeRelease_noted {s : State} (on : s.boot.standby = true) (down : s.power.brakePin = true)
    (stays : s.live = false ∨ s.power.brake = false ∨ s.brakeHeld = false) :
    exec .brakeRelease s = .next { s with power := { s.power with brakePin := false } } := by
  have none_ : ¬ (({ s with power := { s.power with brakePin := false } } : State).live && s.power.brake &&
      ({ s with power := { s.power with brakePin := false } } : State).brakeHeld) = true := by
    rw [Bool.and_eq_true, Bool.and_eq_true]
    rintro ⟨⟨live, brake⟩, held⟩
    rcases stays with off | off | off
    · exact absurd (live.symm.trans off) (by decide)
    · exact absurd (brake.symm.trans off) (by decide)
    · exact absurd (held.symm.trans off) (by decide)
  rw [exec, execBrakeRelease, whenStandby_of_on _ on, whenDue_of_due _ down]
  exact congrArg _ (if_neg none_)

theorem brake : Claims.Brake := by
  intro s braked
  refine ⟨fun live up => ?_, fun on off up => ?_, fun on down stays => brakeRelease_noted on down stays,
    fun live down on held => brakeRelease_ends live down on held, fun live up => ?_, fun live down => vinRecover_releases live down⟩
  · obtain ⟨t, ran, pin, brake, at_, noted, ⟨gov, mem, link⟩, rest⟩ := brakeAssert_live (standby_of_live live) live up
    exact ⟨t, ran, pin, brake, at_, noted, gov, mem, link, rest⟩
  · rw [exec, execBrakeAssert, whenStandby_of_on _ on, whenDue_of_due _ (by simp [up])]
    exact congrArg _ (if_neg (by simp [off]))
  · obtain ⟨t, ran, vin, ⟨gov, mem, link⟩, rest⟩ := vinUndervoltage_brakes live up
    exact ⟨t, ran, vin, gov, mem, link, rest⟩

end Sys2Proof.Machine

/-!
PROOFS. The governor (O46).
-/

namespace Sys2Proof.Machine

/-! ### Samples -/

theorem powerSample_taken {s : State} (live : s.live = true) (r : PowerReading) (ok : readingOk r = true) :
    ∃ t, exec (.powerSample r) s = .next t ∧
      t = { s with power := { s.power with wins := (r :: s.power.wins).take 20 }, boot := { s.boot with droop := t.boot.droop } } ∧
      ∀ i, i ∈ t.boot.droop ↔ i ∈ s.boot.droop ∨ ∃ k, k < 22 ∧ s.railLimit k ≤ railCurrent r k ∧ i ∈ railIslands k := by
  rw [exec, execPowerSample, whenFormed_of_formed _ ok, whenLive_of_live _ live]
  refine ⟨_, rfl, rfl, fun i => ?_⟩
  simp only [List.mem_append, List.mem_filter, List.mem_flatMap, State.railsHeld, List.mem_range, decide_eq_true_eq]
  by_cases old : i ∈ s.boot.droop <;> simp [old, and_assoc]

/-! ### The ramp -/

theorem rampTo_of_le {old new : Nat} (up room : Nat) (h : new ≤ old) : rampTo old new up room = new := if_pos h

theorem rampTo_le (old new up room : Nat) :
    rampTo old new up room + (old - new) ≤ old + (new - old) * min up room / max up 1 := by
  by_cases falls : new ≤ old
  · rw [rampTo_of_le up room falls, Nat.sub_eq_zero_of_le falls, Nat.zero_mul, Nat.zero_div]
    omega
  · rw [rampTo, if_neg falls, Nat.sub_eq_zero_of_le (Nat.le_of_not_le falls), Nat.add_zero]

/-- Quotients of a common divisor add up to no more than the quotient of the sum. -/
theorem add_three_div_le (a b c n : Nat) : a / n + b / n + c / n ≤ (a + b + c) / n :=
  (Nat.add_le_add_right Nat.div_add_div_le_add_div _).trans Nat.div_add_div_le_add_div

theorem ramp_sum_le (old new : Give) (step : Nat) : (old.ramp new step).sum ≤ old.sum + step := by
  unfold Give.ramp Give.sum
  dsimp only
  generalize hup : new.links - old.links + (new.mem - old.mem) + (new.comp - old.comp) = up
  generalize hdown : old.links - new.links + (old.mem - new.mem) + (old.comp - new.comp) = down
  have links := rampTo_le old.links new.links up (step + down)
  have mem := rampTo_le old.mem new.mem up (step + down)
  have comp := rampTo_le old.comp new.comp up (step + down)
  have rises := add_three_div_le ((new.links - old.links) * min up (step + down)) ((new.mem - old.mem) * min up (step + down))
    ((new.comp - old.comp) * min up (step + down)) (max up 1)
  have total : ((new.links - old.links) * min up (step + down) + (new.mem - old.mem) * min up (step + down) +
      (new.comp - old.comp) * min up (step + down)) / max up 1 ≤ step + down := by
    rw [← Nat.add_mul, ← Nat.add_mul, hup]
    refine Nat.div_le_of_le_mul ?_
    exact Nat.mul_le_mul (Nat.le_max_left up 1) (Nat.min_le_right up _)
  omega

theorem ramp_falls (old new : Give) (step : Nat) : (new.links ≤ old.links → (old.ramp new step).links = new.links) ∧
    (new.mem ≤ old.mem → (old.ramp new step).mem = new.mem) ∧ (new.comp ≤ old.comp → (old.ramp new step).comp = new.comp) :=
  ⟨rampTo_of_le _ _, rampTo_of_le _ _, rampTo_of_le _ _⟩

/-! ### Rail limits -/

/-- A rail limit as firmware leaves it. -/
def lowerRail (top : Nat → Nat) (t : Tab Nat) (e : Nat × Nat) : Tab Nat :=
  Tab.set top t e.1 (min (min (top e.1) (Tab.get top t e.1)) e.2)

theorem get_lowerRail (top : Nat → Nat) (t : Tab Nat) (e : Nat × Nat) (k : Nat) :
    min (top k) (Tab.get top (lowerRail top t e) k) =
      min (top k) (if k = e.1 then min (Tab.get top t k) e.2 else Tab.get top t k) := by
  unfold lowerRail
  by_cases same : k = e.1
  · subst same
    rw [Tab.get_set_self, if_pos rfl]
    omega
  · rw [Tab.get_set_other _ _ _ _ _ same, if_neg same]

theorem lowerRails_le (top : Nat → Nat) (k : Nat) : ∀ (l : List (Nat × Nat)) (t : Tab Nat),
    min (top k) (Tab.get top (l.foldl (lowerRail top) t) k) ≤ min (top k) (Tab.get top t k) ∧
    ∀ a, (k, a) ∈ l → min (top k) (Tab.get top (l.foldl (lowerRail top) t) k) ≤ a
  | [], t => ⟨le_rfl, fun _ h => absurd h List.not_mem_nil⟩
  | e :: l, t => by
    obtain ⟨falls, low⟩ := lowerRails_le top k l (lowerRail top t e)
    have first := get_lowerRail top t e k
    rw [List.foldl_cons]
    refine ⟨falls.trans ?_, fun a h => ?_⟩
    · rw [first]
      split <;> omega
    · rcases List.mem_cons.1 h with rfl | h
      · rw [if_pos rfl] at first
        exact falls.trans (by rw [first]; dsimp only; omega)
      · exact low a h

theorem railAmps_lowerRails (s : State) (l : List (Nat × Nat)) (k : Nat) : (s.lowerRails l).railAmps k ≤ s.railAmps k ∧
    (k < 22 → ∀ a, (k, a) ∈ l → (s.lowerRails l).railAmps k ≤ a) := by
  obtain ⟨falls, low⟩ := lowerRails_le s.railTop k (l.filter fun e => decide (e.1 < 22)) s.power.lowered
  exact ⟨falls, fun hk a h => low a (List.mem_filter.2 ⟨h, decide_eq_true hk⟩)⟩

/-! ### The loop -/

/-- A state without what reports, the thermal loop and learning change. -/
def State.steady (s : State) : State :=
  { s.bare with power := { s.power with allow := [], therm := [], demand := [] } }

theorem State.field_of_steady {β : Type} (g : State → β) (hg : ∀ s, g s.steady = g s) {s t : State} (h : t.steady = s.steady) :
    g t = g s := by
  have := congrArg g h
  rwa [hg, hg] at this

section
variable {β : Type} (g : State → β) (hg : ∀ (s : State) ph d, g (s.setDemand ph d) = g s)
include hg

theorem learnComb_keeps (s : State) (share comb : Nat) : g (s.learnComb share comb) = g s :=
  foldS_keeps g (fun _ _ => hg ..) _ _

/-- Learning changes the demand table only. -/
theorem learn_keeps (s : State) (m : LoopFinds) : g (s.learn m) = g s := by
  have combs := foldS_keeps g (f := fun s d =>
      let cs := (List.range 8).map fun i => 8 * d + i
      let run := cs.filter fun c => !(s.carried c).isEmpty
      if run.isEmpty then s
      else
        let p := s.dieRail d - 1000 * (8 - run.length)
        foldS (fun s c => s.learnComb (p / run.length) c) s run) (fun s d => by
    dsimp only
    split
    · rfl
    · exact foldS_keeps g (fun _ _ => learnComb_keeps g hg ..) _ _) (List.range 8) s
  unfold State.learn
  split
  · rfl
  dsimp only
  split
  · exact combs
  · exact (foldS_keeps g (fun _ _ => hg ..) _ _).trans combs

end

theorem steady_learn (s : State) (m : LoopFinds) : (s.learn m).steady = s.steady := learn_keeps State.steady (fun _ _ _ => rfl) s m

theorem allowance_learn (s : State) (m : LoopFinds) (d : Nat) : (s.learn m).allowance d = s.allowance d :=
  learn_keeps (fun u => u.allowance d) (fun _ _ _ => rfl) s m

theorem steady_of_reported {s t : State} (h : Reported s t) : t.steady = s.steady := h.field State.steady fun _ => rfl

/-- The state with another allowance of a die. -/
def State.allowed (s : State) (die x : Nat) : State :=
  { s with power := { s.power with allow := Tab.set (fun _ => 100) s.power.allow die x } }

/-- The state with a thermal hold of a die noted, and reported where the last was long ago. -/
def State.heldHot (s : State) (die : Nat) (fresh : Bool) : State :=
  let t := { s with power := { s.power with therm := Tab.set (fun _ => none) s.power.therm die (some s.now) } }
  if fresh then t.powerReport 6 1 t.cap t.cap else t

theorem bare_heldHot (s : State) (die : Nat) (fresh : Bool) : (s.heldHot die fresh).bare =
    ({ s with power := { s.power with therm := Tab.set (fun _ => none) s.power.therm die (some s.now) } } : State).bare := by
  unfold State.heldHot
  dsimp only
  split
  · exact bare_powerReport ..
  · rfl

theorem steady_heldHot (s : State) (die : Nat) (fresh : Bool) : (s.heldHot die fresh).steady = s.steady :=
  (steady_of_reported (bare_heldHot s die fresh) :)

/-- What the thermal loop does for a die, by its hottest trusted reading. -/
theorem thermLoop_cases (s : State) (die : Nat) :
    (s.hottest die = none ∧ s.thermLoop die = s) ∨
    ∃ t, s.hottest die = some t ∧
      ((16 * (s.barF 0x050028 0 8 : Nat) < t ∧ ∃ fresh, s.thermLoop die = (s.allowed die (s.allowance die - 5)).heldHot die fresh) ∨
      (t ≤ 16 * (s.barF 0x050028 0 8 : Nat) - 48 ∧ s.thermLoop die = s.allowed die (min 100 (s.allowance die + 2))) ∨
      (16 * (s.barF 0x050028 0 8 : Nat) - 48 < t ∧ t ≤ 16 * (s.barF 0x050028 0 8 : Nat) ∧ s.thermLoop die = s)) := by
  unfold State.thermLoop
  cases hot : s.hottest die with
  | none => exact .inl ⟨rfl, rfl⟩
  | some t =>
    refine .inr ⟨t, rfl, ?_⟩
    dsimp only
    split
    next above => exact .inl ⟨above, _, rfl⟩
    next below =>
      split
      next cool => exact .inr (.inl ⟨cool, rfl⟩)
      next warm => exact .inr (.inr ⟨by omega, by omega, rfl⟩)

theorem steady_thermLoop (s : State) (die : Nat) : (s.thermLoop die).steady = s.steady := by
  rcases thermLoop_cases s die with ⟨-, same⟩ | ⟨t, -, ⟨-, fresh, hot⟩ | ⟨-, cool⟩ | ⟨-, -, same⟩⟩
  · rw [same]
  · rw [hot]
    exact steady_heldHot ..
  · rw [cool]
    rfl
  · rw [same]

theorem allowance_allowed (s : State) (die x d : Nat) :
    (s.allowed die x).allowance d = if d = die then x else s.allowance d := by
  by_cases same : d = die
  · subst same
    rw [if_pos rfl]
    exact Tab.get_set_self ..
  · rw [if_neg same]
    exact Tab.get_set_other _ _ _ _ _ same

theorem allowance_heldHot (s : State) (die : Nat) (fresh : Bool) (d : Nat) : (s.heldHot die fresh).allowance d = s.allowance d :=
  (Reported.field (fun u => u.allowance d) (fun _ => rfl) (bare_heldHot s die fresh) :)

theorem allowance_thermLoop_other (s : State) {die d : Nat} (h : d ≠ die) : (s.thermLoop die).allowance d = s.allowance d := by
  rcases thermLoop_cases s die with ⟨-, same⟩ | ⟨t, -, ⟨-, fresh, hot⟩ | ⟨-, cool⟩ | ⟨-, -, same⟩⟩
  · rw [same]
  · rw [hot, allowance_heldHot, allowance_allowed, if_neg h]
  · rw [cool, allowance_allowed, if_neg h]
  · rw [same]

/-- How a die's allowance follows its hottest trusted reading. -/
def allowanceAfter (target h : Int) (a : Nat) : Nat := if target < h then a - 5 else if h ≤ target - 48 then min 100 (a + 2) else a

theorem allowance_thermLoop_self (s : State) (d : Nat) (h : Int) (hot : s.hottest d = some h) :
    (s.thermLoop d).allowance d = allowanceAfter (16 * (s.barF 0x050028 0 8 : Nat)) h (s.allowance d) := by
  rcases thermLoop_cases s d with ⟨no, -⟩ | ⟨t, some_, k⟩
  · exact absurd (no.symm.trans hot) nofun
  · obtain rfl : t = h := Option.some.inj (some_.symm.trans hot)
    unfold allowanceAfter
    rcases k with ⟨above, fresh, hot⟩ | ⟨low, cool⟩ | ⟨warm, low, same⟩
    · rw [if_pos above, hot, allowance_heldHot, allowance_allowed, if_pos rfl]
    · rw [if_neg (by omega), if_pos low, cool, allowance_allowed, if_pos rfl]
    · rw [if_neg (by omega), if_neg (by omega), same]

theorem steady_thermLoops (s : State) (l : List Nat) : (foldS State.thermLoop s l).steady = s.steady :=
  foldS_keeps State.steady steady_thermLoop l s

theorem allowance_thermLoops (l : List Nat) (d : Nat) : ∀ s : State, l.Nodup → (∀ h, d ∈ l → s.hottest d = some h →
    (foldS State.thermLoop s l).allowance d = allowanceAfter (16 * (s.barF 0x050028 0 8 : Nat)) h (s.allowance d)) ∧
    (d ∉ l → (foldS State.thermLoop s l).allowance d = s.allowance d) := by
  induction l with
  | nil => exact fun s _ => ⟨fun _ no => absurd no List.not_mem_nil, fun _ => rfl⟩
  | cons die l ih =>
    intro s nodup
    obtain ⟨new, nodup⟩ := List.nodup_cons.1 nodup
    obtain ⟨inside, outside⟩ := ih (s.thermLoop die) nodup
    have same := steady_thermLoop s die
    have hottest := State.field_of_steady (fun u => u.hottest d) (fun _ => rfl) same
    have target := State.field_of_steady (fun u => u.barF 0x050028 0 8) (fun _ => rfl) same
    refine ⟨fun h hd hot => ?_, fun hd => ?_⟩
    · by_cases here : d = die
      · subst here
        exact (outside new).trans (allowance_thermLoop_self s d h hot)
      · have later := inside h ((List.mem_cons.1 hd).resolve_left here) (hottest.trans hot)
        rw [allowance_thermLoop_other s here] at later
        exact later.trans (congrArg (fun b : Nat => allowanceAfter (16 * b) h (s.allowance d)) target)
    · obtain ⟨other, hd⟩ := not_or.1 (mt List.mem_cons.2 hd)
      exact (outside hd).trans (allowance_thermLoop_other s other)

/-! ### The controls -/

theorem foldl_min_le (f : Nat → Nat) : ∀ (l : List Nat) (x : Nat), l.foldl (fun x d => min x (f d)) x ≤ x
  | [], _ => le_rfl
  | _ :: l, _ => (foldl_min_le f l _).trans (Nat.min_le_left ..)

theorem foldl_max_mem : ∀ (l : List Nat) (x : Nat), l.foldl max x ∈ x :: l
  | [], _ => List.mem_singleton.2 rfl
  | y :: l, x => by
    rw [List.foldl_cons]
    rcases List.mem_cons.1 (foldl_max_mem l (max x y)) with same | later
    · rw [same]
      rcases Nat.le_total x y with le | le
      · simp [Nat.max_eq_right le]
      · simp [Nat.max_eq_left le]
    · exact List.mem_cons_of_mem _ (List.mem_cons_of_mem _ later)

theorem get_setAll_le (b : Nat) : ∀ (l : List (Nat × Nat)) (t : Tab Nat), (∀ c, Tab.get (fun _ => b) t c ≤ b) → (∀ e ∈ l, e.2 ≤ b) →
    ∀ c, Tab.get (fun _ => b) (Tab.setAll (fun _ => b) t l) c ≤ b
  | [], _, ht, _, c => ht c
  | (k, x) :: l, t, ht, hl, c => by
    refine get_setAll_le b l _ (fun j => ?_) (fun e he => hl e (List.mem_cons_of_mem _ he)) c
    by_cases same : j = k
    · rw [same, Tab.get_set_self]
      exact hl (k, x) (List.mem_cons_self ..)
    · rw [Tab.get_set_other _ _ _ _ _ same]
      exact ht j

theorem dieLevel_le (s : State) (die l : Nat) : s.dieLevel die l ≤ l := by
  unfold State.dieLevel
  dsimp only
  generalize hf : List.find? _ _ = found
  cases found with
  | none => exact Nat.zero_le l
  | some i =>
    have := List.mem_reverse.1 (List.mem_of_find?_eq_some hf)
    exact Nat.lt_succ_iff.1 (List.mem_range.1 this)

theorem level_le (s : State) (cs : List Nat) (allow : Nat) : (s.level cs allow).getD 0 ≤ 15 := by
  unfold State.level
  generalize hf : List.find? _ _ = found
  cases found with
  | none => exact Nat.zero_le 15
  | some i =>
    have := List.mem_reverse.1 (List.mem_of_find?_eq_some hf)
    exact Nat.lt_succ_iff.1 (List.mem_range.1 this)

theorem waterLevel_le (s : State) (comp c : Nat) : s.waterLevel comp c ≤ 15 := by
  unfold State.waterLevel
  split
  · exact level_le ..
  · exact le_rfl

theorem combLevel_le (s : State) (comp c : Nat) : s.combLevel comp c ≤ 15 := (dieLevel_le ..).trans (waterLevel_le ..)

theorem gateFor_mem (s : State) (cs : List Nat) (allow : Nat) : s.gateFor cs allow ∈ [1, 2, 4] := by
  unfold State.gateFor
  split
  · simp
  split <;> simp

/-- The shares that a loop gives. -/
def State.newGive (s : State) (d : Give) : Give := s.power.governed.ramp (s.settle d) (s.barF 0x050010 8 10 * 250)

theorem setControls_gov (s : State) (d : Give) : (s.setControls d).power.gov =
    Tab.setAll (fun _ => 15) [] ((List.range 64).map fun c => (c, s.combLevel (s.newGive d).comp c)) := by
  simp only [State.setControls, State.newGive]

theorem setControls_gate (s : State) (d : Give) : (s.setControls d).power.gate =
    ((s.partAllow (s.newGive d).comp).map fun e => s.gateFor (s.partCombs e.1) e.2).foldl max 1 := by
  simp only [State.setControls, State.newGive]

theorem combLevels_le (s : State) (comp : Nat) (l : List Nat) : ∀ e ∈ l.map fun c => (c, s.combLevel comp c), e.2 ≤ 15 := by
  intro e he
  rw [List.mem_map] at he
  obtain ⟨c, -, same⟩ := he
  rw [← same]
  dsimp only
  exact combLevel_le s comp c

/-- The controls that the governor sets keep within their ranges. -/
theorem setControls_ranges (s : State) (d : Give) : 25 ≤ (s.setControls d).power.memPct ∧ (s.setControls d).power.memPct ≤ 100 ∧
    (s.setControls d).power.linkPct ≤ 100 ∧ (s.setControls d).power.gate ∈ [1, 2, 4] ∧
    ∀ c, c < 64 → Tab.get (fun _ => 15) (s.setControls d).power.gov c ≤ 15 := by
  have pct : ∀ x n, (if n = 0 then 100 else min 100 (x * 100 / n)) ≤ 100 := fun x n => by split <;> omega
  refine ⟨Nat.le_max_left .., Nat.max_le.2 ⟨by decide, (foldl_min_le _ _ _).trans (pct ..)⟩, (foldl_min_le _ _ _).trans (pct ..),
    ?_, fun c _ => ?_⟩
  · rw [setControls_gate]
    generalize s.partAllow (s.newGive d).comp = shares
    rcases List.mem_cons.1 (foldl_max_mem (shares.map fun e => s.gateFor (s.partCombs e.1) e.2) 1) with one | mem
    · rw [one]
      exact List.mem_cons_self ..
    · obtain ⟨e, -, same⟩ := List.mem_map.1 mem
      rw [← same]
      exact gateFor_mem ..
  · have levels := combLevels_le s (s.newGive d).comp (List.range 64)
    rw [setControls_gov]
    generalize (List.range 64).map (fun c => (c, s.combLevel (s.newGive d).comp c)) = l at levels
    exact get_setAll_le 15 l [] (fun _ => le_rfl) levels c

/-! ### One loop -/

/-- The state after firmware's lower limits, and after the brake and a fast cut have ended where they are due to. -/
def State.eased (s : State) (m : LoopFinds) : State :=
  (s.lowerRails m.lower).withBrakes (s.power.brake && !(!s.power.brakePin && s.brakeHeld)) s.power.vinBrake
    (s.power.fastCut && !s.fastHeld)

/-- The controls of a loop, unless a brake is in force. -/
def State.controlled (s : State) (m : LoopFinds) : State :=
  if s.braking then s else (s.setControls (s.demands m)).retuneAll

/-- A state without what a loop changes but for the limits it lowers and the brakes it ends. -/
def State.unlooped (s : State) : State :=
  { s.steady.untuned with power := { s.steady.untuned.power with
      gov := [], memPct := 0, linkPct := 0, gate := 0, governed := { links := 0, mem := 0, comp := 0 }, thermDies := 0 } }

theorem State.field_of_unlooped {β : Type} (g : State → β) (hg : ∀ s, g s.unlooped = g s) {s t : State}
    (h : t.unlooped = s.unlooped) : g t = g s := by
  have := congrArg g h
  rwa [hg, hg] at this

theorem unlooped_of_steady {s t : State} (h : t.steady = s.steady) : t.unlooped = s.unlooped :=
  State.field_of_steady State.unlooped (fun _ => rfl) h

theorem braking_controlled {s : State} {m : LoopFinds} (h : (s.controlled m).unlooped = s.unlooped) :
    (s.controlled m).braking = s.braking :=
  State.field_of_unlooped State.braking (fun _ => rfl) h

theorem unlooped_setControls (s : State) (d : Give) : (s.setControls d).unlooped = s.unlooped := by
  unfold State.setControls
  rfl

theorem unlooped_controlled (s : State) (m : LoopFinds) : (s.controlled m).unlooped = s.unlooped := by
  unfold State.controlled
  split
  · rfl
  · rw [retuneAll_field State.unlooped fun _ => rfl, unlooped_setControls]

theorem endFast_rises (s : State) : s.cap ≤ (s.withBrakes s.power.brake s.power.vinBrake false).cap :=
  cap_le_withBrakes (brake := s.power.brake) (vin := s.power.vinBrake) id id nofun

theorem endFast_reported (s : State) : Reported (s.withBrakes s.power.brake s.power.vinBrake false) s.endFast := by
  unfold State.endFast
  dsimp only
  split
  · exact Reported.refl _
  · exact protect_reported (endFast_rises s)

theorem now_endFast (s : State) : s.endFast.now = s.now := by
  unfold State.endFast
  dsimp only
  split
  · rfl
  · exact now_protect (f := fun u => u.withBrakes u.power.brake u.power.vinBrake false) (endFast_rises s)

theorem withBrakes_reported {s t : State} (h : Reported s t) (b v f : Bool) : Reported (s.withBrakes b v f) (t.withBrakes b v f) :=
  congrArg (fun u : State => u.withBrakes b v f) h

/-- The brakes that end in a loop. -/
def State.endBrakes (s : State) : State :=
  let s1 := if s.power.fastCut && s.fastHeld then s.endFast else s
  if s1.power.brake && !s1.power.brakePin && s1.brakeHeld then s1.endBrake else s1

/-- A fast cut ends once it has lasted. -/
theorem endFast_of_held (s : State) : ∃ t, (if s.power.fastCut && s.fastHeld then s.endFast else s) = t ∧ t.now = s.now ∧
    Reported (s.withBrakes s.power.brake s.power.vinBrake (s.power.fastCut && !s.fastHeld)) t := by
  refine ⟨_, rfl, ?_⟩
  split
  next ends =>
    rw [Bool.and_eq_true] at ends
    rw [ends.2, Bool.not_true, Bool.and_false]
    exact ⟨now_endFast s, endFast_reported s⟩
  next lasts =>
    have same : (s.power.fastCut && !s.fastHeld) = s.power.fastCut := by
      cases cut : s.power.fastCut
      · rfl
      · rw [cut] at lasts
        simpa using lasts
    rw [same]
    exact ⟨rfl, Reported.refl _⟩

theorem endBrakes_reported (s : State) : Reported (s.withBrakes (s.power.brake && !(!s.power.brakePin && s.brakeHeld)) s.power.vinBrake
    (s.power.fastCut && !s.fastHeld)) s.endBrakes := by
  obtain ⟨t, ran, now, fast⟩ := endFast_of_held s
  have brake := fast.field (fun u => u.power.brake) fun _ => rfl
  have pin := fast.field (fun u => u.power.brakePin) fun _ => rfl
  have vin := fast.field (fun u => u.power.vinBrake) fun _ => rfl
  have cut := fast.field (fun u => u.power.fastCut) fun _ => rfl
  have since := fast.field (fun u => u.power.brakeAt) fun _ => rfl
  simp only [State.withBrakes] at brake pin vin cut since
  have held : t.brakeHeld = s.brakeHeld := by rw [State.brakeHeld, now, since, State.brakeHeld]
  unfold State.endBrakes
  dsimp only
  rw [ran, brake, pin, held]
  split
  next ends =>
    simp only [Bool.and_eq_true] at ends
    obtain ⟨⟨on, up⟩, held⟩ := ends
    have off : (s.power.brake && !(!s.power.brakePin && s.brakeHeld)) = false := by
      rw [up, held, Bool.and_self, Bool.not_true, Bool.and_false]
    rw [off]
    have := endBrake_reported t
    rw [vin, cut] at this
    exact (withBrakes_reported fast _ _ _).trans this
  next lasts =>
    have same : (s.power.brake && !(!s.power.brakePin && s.brakeHeld)) = s.power.brake := by
      cases on : s.power.brake
      · rfl
      · rw [on, Bool.true_and] at lasts
        rw [Bool.eq_false_of_not_eq_true lasts]
        rfl
    rw [same]
    exact fast

theorem exec_governorLoop {s : State} (live : s.live = true) (running : s.power.running = true) (m : LoopFinds) :
    exec (.governorLoop m) s =
      .next (((foldS State.thermLoop (s.lowerRails m.lower).endBrakes (List.range 20)).learn m).controlled m) := by
  rw [exec, execGovernorLoop, whenLive_of_live _ live, whenDue_of_due _ running]
  rfl

/-- The state before the controls of a loop are set: but for what reports, the thermal loop and learning change, firmware's limits
are in force and the brakes have ended that are due to. -/
theorem beforeControls_steady (s : State) (m : LoopFinds) :
    ((foldS State.thermLoop (s.lowerRails m.lower).endBrakes (List.range 20)).learn m).steady = (s.eased m).steady :=
  (steady_learn ..).trans ((steady_thermLoops ..).trans (steady_of_reported (endBrakes_reported (s.lowerRails m.lower))))

/-- One loop: what it leaves of the state before the controls, `u`. -/
theorem governorLoop_runs {s : State} (live : s.live = true) (running : s.power.running = true) (m : LoopFinds) :
    ∃ u : State, exec (.governorLoop m) s = .next (u.controlled m) ∧ u.steady = (s.eased m).steady ∧
      ∀ d h, d < 20 → s.hottest d = some h →
        u.allowance d = allowanceAfter (16 * (s.barF 0x050028 0 8 : Nat)) h (s.allowance d) := by
  refine ⟨_, exec_governorLoop live running m, beforeControls_steady s m, fun d h hd hot => ?_⟩
  have same := endBrakes_reported (s.lowerRails m.lower)
  have hottest := same.field (fun u => u.hottest d) fun _ => rfl
  have target := same.field (fun u => u.barF 0x050028 0 8) fun _ => rfl
  have allowance := same.field (fun u => u.allowance d) fun _ => rfl
  have after := (allowance_thermLoops (List.range 20) d (s.lowerRails m.lower).endBrakes List.nodup_range).1 h
    (List.mem_range.2 hd) (hottest.trans hot)
  rw [allowance_learn, after]
  exact congrArg₂ (fun b a : Nat => allowanceAfter (16 * b) h a) target allowance

theorem controlled_braked {u : State} (m : LoopFinds) (on : u.braking = true) : u.controlled m = u := if_pos on

theorem controlled_ranges {u : State} (m : LoopFinds) (off : u.braking = false) : 25 ≤ (u.controlled m).power.memPct ∧
    (u.controlled m).power.memPct ≤ 100 ∧ (u.controlled m).power.linkPct ≤ 100 ∧ (u.controlled m).power.gate ∈ [1, 2, 4] ∧
    ∀ c, c < 64 → Tab.get (fun _ => 15) (u.controlled m).power.gov c ≤ 15 := by
  have same : u.controlled m = (u.setControls (u.demands m)).retuneAll := if_neg (by simp [off])
  have controls := setControls_ranges u (u.demands m)
  rw [same]
  generalize u.setControls (u.demands m) = v at controls ⊢
  rw [← retuneAll_field (fun v => v.power.memPct) (fun _ => rfl) v, ← retuneAll_field (fun v => v.power.linkPct) (fun _ => rfl) v,
    ← retuneAll_field (fun v => v.power.gate) (fun _ => rfl) v, ← retuneAll_field (fun v => v.power.gov) (fun _ => rfl) v]
    at controls
  exact controls

theorem railAmps_eased {s t : State} {m : LoopFinds} (h : t.unlooped = (s.eased m).unlooped) (k : Nat) :
    t.railAmps k = (s.lowerRails m.lower).railAmps k := by
  have rails := State.field_of_unlooped (fun v => v.power.rails) (fun _ => rfl) h
  have lowered := State.field_of_unlooped (fun v => v.power.lowered) (fun _ => rfl) h
  have same : t.railTop = (s.lowerRails m.lower).railTop := funext fun i => congrArg (fun l : List Nat => l.getD i (railMax i)) rails
  rw [State.railAmps, lowered, same]
  rfl

/-- The allowance of a die after a loop. -/
theorem allowance_controlled (u : State) (m : LoopFinds) (d : Nat) : (u.controlled m).allowance d = u.allowance d := by
  unfold State.controlled
  split
  · rfl
  · rw [retuneAll_field (fun v => v.allowance d) fun _ => rfl]
    unfold State.setControls
    rfl

theorem allowanceAfter_cases (target h : Int) (a : Nat) : (target < h → allowanceAfter target h a = a - 5) ∧
    (h ≤ target - 48 → allowanceAfter target h a = min 100 (a + 2)) ∧
    (target - 48 < h → h ≤ target → allowanceAfter target h a = a) := by
  unfold allowanceAfter
  refine ⟨fun above => if_pos above, fun low => ?_, fun warm low => ?_⟩
  · rw [if_neg (by omega), if_pos low]
  · rw [if_neg (by omega), if_neg (by omega)]

/-- The brakes in force after a loop. -/
theorem brakes_eased {s t : State} {m : LoopFinds} (h : t.unlooped = (s.eased m).unlooped) :
    (t.power.fastCut = true ↔ s.power.fastCut = true ∧ s.fastHeld = false) ∧
    (t.power.brake = true ↔ s.power.brake = true ∧ (s.power.brakePin = true ∨ s.brakeHeld = false)) := by
  have cut := State.field_of_unlooped (fun v => v.power.fastCut) (fun _ => rfl) h
  have brake := State.field_of_unlooped (fun v => v.power.brake) (fun _ => rfl) h
  rw [cut, brake]
  simp only [State.eased, State.withBrakes, Bool.and_eq_true, Bool.not_and, Bool.not_not, Bool.or_eq_true, Bool.not_eq_true',
    and_self]

theorem governor : Claims.Governor := by
  intro s live
  refine ⟨powerSample_taken live, fun old new step => ⟨ramp_sum_le old new step, ramp_falls old new step⟩, fun m running => ?_⟩
  obtain ⟨u, ran, steady, allowance⟩ := governorLoop_runs live running m
  have unlooped : (u.controlled m).unlooped = (s.eased m).unlooped :=
    (unlooped_controlled u m).trans (unlooped_of_steady steady)
  have braking := braking_controlled (unlooped_controlled u m)
  obtain ⟨cut, brake⟩ := brakes_eased unlooped
  have rails : ∀ k, (u.controlled m).railAmps k ≤ s.railAmps k ∧
      (k < 22 → ∀ a, (k, a) ∈ m.lower → (u.controlled m).railAmps k ≤ a) := fun k => by
    rw [railAmps_eased unlooped]
    exact railAmps_lowerRails s m.lower k
  have held : (u.controlled m).braking = true →
      (u.controlled m).power.gov = s.power.gov ∧ (u.controlled m).power.memPct = s.power.memPct := fun on => by
    rw [controlled_braked m (braking.symm.trans on)]
    exact ⟨(State.field_of_steady (fun v => v.power.gov) (fun _ => rfl) steady :),
      (State.field_of_steady (fun v => v.power.memPct) (fun _ => rfl) steady :)⟩
  have cells := State.field_of_unlooped State.cells (fun _ => rfl) unlooped
  have cmds := State.field_of_unlooped State.cmds (fun _ => rfl) unlooped
  refine ⟨u.controlled m, ran, cut, rails, brake, held, fun off => controlled_ranges m (braking.symm.trans off),
    fun d h hd hot => ?_, cells, cmds⟩
  rw [allowance_controlled, allowance d h hd hot]
  exact allowanceAfter_cases ..

/-- Settles O46: the effective cap, the brake and the governor. -/
theorem powerCaps : Obligations.PowerCaps := ⟨effectiveCap, brake, governor⟩

end Sys2Proof.Machine

/-!
PROOFS. What quenching does to commands.
-/

namespace Sys2Proof.Machine

/-! ### What quenching leaves -/

/-- What is computed from a state does not depend on what quenching changes, but for the commands themselves. -/
structure QuenchInert {β : Type} (g : State → β) : Prop extends DataInert g where
  free : ∀ s k, g { s with freeCtr := k } = g s
  run : ∀ s n r, g (s.setCell n { s.cell n with run := r }) = g s
  waits : ∀ s w, g { s with waits := w } = g s
  fdescs : ∀ s x, g { s with fdescs := x } = g s
  requests : ∀ s f b, g { s with far := f, link := { s.link with bis := b } } = g s
  colls : ∀ s c w, g { s with coll := { s.coll with colls := c }, waits := w } = g s
  drip : ∀ s j q, g (s.setDrip j q) = g s

namespace QuenchInert
variable {β : Type} {g : State → β} (hg : QuenchInert g)
include hg

theorem quenchCell (s : State) (n : Nat) : g (s.quenchCell n) = g s := by
  unfold State.quenchCell
  dsimp only
  split
  · exact (hg.waits ..).trans (hg.run ..)
  · rfl

theorem quenchCells (s : State) (l : List Nat) : g (foldS State.quenchCell s l) = g s := foldS_keeps g hg.quenchCell l s

theorem quenchForagers (s : State) (c : Cmd) : g (s.quenchForagers c) = g s :=
  (hg.fdescs ..).trans ((foldS_keeps g (hg.toDataInert.cutShort hg.free) _ _).trans (hg.requests ..))

theorem quenchColls (s : State) (c : Cmd) : g (s.quenchColls c) = g s := hg.colls ..

/-- What comes before the command itself is written. -/
theorem quenchStarted (s : State) (c : Cmd) (l : List Nat) : g (((foldS State.quenchCell s l).quenchForagers c).quenchColls c) = g s :=
  (hg.quenchColls ..).trans ((hg.quenchForagers ..).trans (hg.quenchCells ..))

theorem quenchCmd (hcmd : ∀ s c, g (s.setCmd c) = g s) (s : State) (id status : Nat) : g (s.quenchCmd id status) = g s := by
  unfold State.quenchCmd
  split
  · rfl
  next c _ =>
    split
    · rfl
    split
    · dsimp only
      split
      · exact (hcmd ..).trans (hg.quenchStarted ..)
      · exact hg.quenchStarted ..
    · exact (hcmd ..).trans ((hg.waits ..).trans (foldS_keeps g (fun _ _ => hg.drip ..) _ _))

end QuenchInert

theorem cmds_reportInert : ReportInert State.cmds :=
  ⟨fun _ _ _ => rfl, fun _ _ _ => rfl, fun _ _ => rfl, fun _ _ _ _ => rfl, fun _ _ _ => rfl, fun _ _ _ => rfl, fun _ _ _ _ => rfl,
    fun _ _ _ _ _ => rfl, fun _ _ _ => rfl⟩

theorem cmds_quenchInert : QuenchInert State.cmds where
  toReportInert := cmds_reportInert
  corrected _ _ := rfl
  flips _ _ := rfl
  frg _ _ _ := rfl
  granules _ _ _ _ := rfl
  bi _ _ _ := rfl
  issued _ _ := rfl
  free _ _ := rfl
  run _ _ _ := rfl
  waits _ _ := rfl
  fdescs _ _ := rfl
  requests _ _ _ := rfl
  colls _ _ _ := rfl
  drip _ _ _ := rfl

/-! ### The commands themselves -/

/-- The command that a quench with a status makes of one that had not finished. -/
structure Cmd.QuenchedTo (c d : Cmd) (status : Nat) : Prop where
  id : d.id = c.id
  part : d.part = c.part
  idle : d.waiting = false
  ends : d.phase = .started → d.status = if c.status = 0 then status else c.status

theorem Cmd.waiting_of_finished {c : Cmd} (h : c.phase = .finished) : c.waiting = false := by
  rw [Cmd.waiting, h]
  rfl

theorem Cmd.waiting_of_started {c : Cmd} (h : c.phase = .started) : c.waiting = false := by
  rw [Cmd.waiting, h]
  rfl

/-- A started command that is quenched; it is finished where its collectives have not started. -/
def Cmd.quenched (c : Cmd) (status : Nat) (fin : Bool) : Cmd :=
  { c with status := if c.status = 0 then status else c.status, phase := if fin then .finished else c.phase }

/-- A waiting command that is withdrawn. -/
def Cmd.withdrawn (c : Cmd) (status : Nat) (now : Word) : Cmd :=
  { c with phase := .finished, status := status, signalled := true, t0 := now }

theorem Cmd.quenchedTo_quenched {c : Cmd} (h : c.phase = .started) (status : Nat) (fin : Bool) :
    c.QuenchedTo (c.quenched status fin) status := by
  refine ⟨rfl, rfl, ?_, fun _ => rfl⟩
  cases fin
  · exact Cmd.waiting_of_started h
  · exact Cmd.waiting_of_finished rfl

theorem Cmd.quenchedTo_withdrawn (c : Cmd) (status : Nat) (now : Word) : c.QuenchedTo (c.withdrawn status now) status :=
  ⟨rfl, rfl, Cmd.waiting_of_finished rfl, nofun⟩

/-- A started command that is quenched takes the status if it had none. -/
theorem cmds_quenchCmd_of_started {s : State} {id : Nat} {c : Cmd} (found : s.cmd id = some c) (started : c.phase = .started)
    (status : Nat) : ∃ fin, (s.quenchCmd id status).cmds = s.cmds.map fun e => if e.id == id then c.quenched status fin else e := by
  have named : c.id = id := by simpa using List.find?_some found
  have cmds := cmds_quenchInert.quenchStarted s c (c.cells.filter fun n => (s.cell n).cmd == some id)
  have unfinished : c.phase ≠ .finished := by
    rw [started]
    exact nofun
  unfold State.quenchCmd
  split
  next absent => exact absurd (found.symm.trans absent) nofun
  next d present =>
    obtain rfl : c = d := Option.some.inj (found.symm.trans present)
    rw [if_neg unfinished]
    split
    next =>
      dsimp only
      generalize foldS State.quenchCell s (c.cells.filter fun n => (s.cell n).cmd == some id) = u at cmds ⊢
      have same : ((u.quenchForagers c).quenchColls c).cmd id = some c := by rw [State.cmd, cmds]; exact found
      rw [same]
      refine ⟨u.coll.colls.any fun x => x.issuer == Issuer.cmd id && !x.started, ?_⟩
      rw [← cmds, ← named]
      rfl
    next waits => exact absurd started waits

/-- A quench leaves the commands as they are, or makes of the one it names what `QuenchedTo` says. -/
theorem cmds_quenchCmd (s : State) (id status : Nat) :
    ((∀ c, s.cmd id = some c → c.phase = .finished) ∧ (s.quenchCmd id status).cmds = s.cmds) ∨
    ∃ c d, s.cmd id = some c ∧ c.QuenchedTo d status ∧
      (s.quenchCmd id status).cmds = s.cmds.map fun e => if e.id == id then d else e := by
  by_cases run : ∃ c, s.cmd id = some c ∧ c.phase = .started
  · obtain ⟨c, found, started⟩ := run
    obtain ⟨fin, cmds⟩ := cmds_quenchCmd_of_started found started status
    exact .inr ⟨c, c.quenched status fin, found, c.quenchedTo_quenched started .., cmds⟩
  unfold State.quenchCmd
  split
  next none_ => exact .inl ⟨fun c h => absurd (none_.symm.trans h) nofun, rfl⟩
  next c found =>
    have named : c.id = id := by simpa using List.find?_some found
    split
    next fin => exact .inl ⟨fun d h => Option.some.inj (found.symm.trans h) ▸ fin, rfl⟩
    next unfin =>
      refine .inr ⟨c, ?_⟩
      split
      next started => exact absurd ⟨c, found, started⟩ run
      next waits =>
        have cmds : (foldS (fun s j =>
            let q := s.drip j
            s.setDrip j
              { q with stages := q.stages.filter (fun i => i != id), overflow := q.overflow.filter (fun i => i != id) }.refill)
            s (List.range 4)).cmds = s.cmds :=
          foldS_keeps State.cmds (fun _ _ => cmds_quenchInert.drip ..) _ _
        dsimp only at cmds ⊢
        generalize foldS _ s (List.range 4) = u at cmds ⊢
        refine ⟨c.withdrawn status u.now, found, c.quenchedTo_withdrawn .., ?_⟩
        rw [← cmds, ← named]
        rfl

theorem ids_quenchCmd (s : State) (id status : Nat) : (s.quenchCmd id status).cmds.map Cmd.id = s.cmds.map Cmd.id := by
  rcases cmds_quenchCmd s id status with ⟨-, same⟩ | ⟨c, d, found, to_, cmds⟩
  · rw [same]
  · have named : c.id = id := by simpa using List.find?_some found
    rw [cmds, List.map_map]
    refine List.map_congr_left fun e _ => ?_
    simp only [Function.comp]
    split
    next here => rw [to_.id, named, beq_iff_eq.1 here]
    · rfl

theorem find?_id_of_mem {c : Cmd} : ∀ {l : List Cmd}, (l.map Cmd.id).Nodup → c ∈ l → l.find? (fun d => d.id == c.id) = some c
  | [], _, h => absurd h List.not_mem_nil
  | d :: l, nodup, h => by
    obtain ⟨new, nodup⟩ := List.nodup_cons.1 (List.map_cons ▸ nodup)
    rcases List.mem_cons.1 h with rfl | h
    · exact List.find?_cons_of_pos (beq_self_eq_true _)
    · have other : ¬ (d.id == c.id) = true := fun same => new (beq_iff_eq.1 same ▸ List.mem_map_of_mem h)
      exact (List.find?_cons_of_neg (p := fun d : Cmd => d.id == c.id) other).trans (find?_id_of_mem nodup h)

/-- With one command of each identifier, the command found by an identifier is the one that has it. -/
theorem cmd_of_mem {s : State} (nodup : (s.cmds.map Cmd.id).Nodup) {c : Cmd} (h : c ∈ s.cmds) : s.cmd c.id = some c :=
  find?_id_of_mem nodup h

/-- Commands after a quench: the one it names has finished or is quenched, every other one is as it was. -/
theorem mem_cmds_quenchCmd {s : State} (nodup : (s.cmds.map Cmd.id).Nodup) {id status : Nat} {c : Cmd}
    (h : c ∈ (s.quenchCmd id status).cmds) : (c.id ≠ id ∧ c ∈ s.cmds) ∨ (c.id = id ∧ c.waiting = false ∧ ∃ b ∈ s.cmds, b.id = id ∧
      b.part = c.part ∧ (c.phase = .started → c.status = if b.status = 0 then status else b.status)) := by
  rcases cmds_quenchCmd s id status with ⟨fin, same⟩ | ⟨b, d, found, to_, cmds⟩
  · rw [same] at h
    by_cases here : c.id = id
    · have fin := fin c (here ▸ cmd_of_mem nodup h)
      exact .inr ⟨here, Cmd.waiting_of_finished fin, c, h, here, rfl, fun started => absurd (fin.symm.trans started) nofun⟩
    · exact .inl ⟨here, h⟩
  · have named : b.id = id := by simpa using List.find?_some found
    rw [cmds] at h
    obtain ⟨e, he, rfl⟩ := List.mem_map.1 h
    split
    next here =>
      exact .inr ⟨to_.id.trans named, to_.idle, b, List.mem_of_find?_eq_some found, named, to_.part.symm, to_.ends⟩
    next other => exact .inl ⟨fun here => other (beq_iff_eq.2 here), he⟩

/-- After a run of quenches a command is as it was, or one that was named and is quenched. -/
theorem mem_cmds_quenchCmds {status : Nat} (hs : status ≠ 0) : ∀ (l : List Nat) (s : State), (s.cmds.map Cmd.id).Nodup →
    ∀ c ∈ (foldS (fun u id => u.quenchCmd id status) s l).cmds, (c.id ∈ l → c.phase = .started → c.status ≠ 0) ∧
      (c.id ∉ l → c ∈ s.cmds)
  | [], s, _, c, h => ⟨fun no => absurd no List.not_mem_nil, fun _ => h⟩
  | id :: l, s, nodup, c, h => by
    obtain ⟨inside, outside⟩ := mem_cmds_quenchCmds hs l (s.quenchCmd id status) ((ids_quenchCmd s id status).symm ▸ nodup) c h
    refine ⟨fun hc started => ?_, fun hc => ?_⟩
    · by_cases later : c.id ∈ l
      · exact inside later started
      · rcases mem_cmds_quenchCmd nodup (outside later) with ⟨other, -⟩ | ⟨-, -, b, -, -, -, ends⟩
        · exact absurd ((List.mem_cons.1 hc).resolve_right later) other
        · rw [ends started]
          split <;> assumption
    · obtain ⟨other, later⟩ := not_or.1 (mt List.mem_cons.2 hc)
      rcases mem_cmds_quenchCmd nodup (outside later) with ⟨-, was⟩ | ⟨here, -⟩
      · exact was
      · exact absurd here other

/-- Every started command is quenched. -/
theorem quenchAll_settles {s : State} (nodup : (s.cmds.map Cmd.id).Nodup) : ∀ c ∈ s.quenchAll.cmds, c.phase = .started → c.status ≠ 0 := by
  intro c h started
  obtain ⟨inside, outside⟩ := mem_cmds_quenchCmds (status := 4) (by decide) _ s nodup c h
  by_cases named : c.id ∈ (s.cmds.filter fun c => c.phase == .started).map Cmd.id
  · exact inside named started
  · refine absurd (List.mem_map_of_mem (List.mem_filter.2 ⟨outside named, ?_⟩)) named
    rw [started]
    rfl

/-- No collective that has started goes on. -/
theorem quenchAll_colls (s : State) : ∀ c ∈ s.quenchAll.coll.colls, c.started = true → c.ready = true := by
  intro c h started
  obtain ⟨b, -, rfl⟩ := List.mem_map.1 h
  by_cases running : (b.started && !b.ready) = true
  · rw [if_pos running]
  · rw [if_neg running] at started ⊢
    simpa [started] using running

/-! ### Commands that have not started -/

/-- After the waiting commands of a partition were withdrawn, a command is one that was there, or has ended. -/
theorem mem_cmds_withdrawn : ∀ (l : List Cmd) (s : State), (s.cmds.map Cmd.id).Nodup →
    ((foldS (fun u c => (u.quenchCmd c.id 4).passHead c) s l).cmds.map Cmd.id).Nodup ∧
    ∀ c ∈ (foldS (fun u c => (u.quenchCmd c.id 4).passHead c) s l).cmds, c.waiting = true → c ∈ s.cmds ∧ c.id ∉ l.map Cmd.id
  | [], s, nodup => ⟨nodup, fun c h _ => ⟨h, List.not_mem_nil⟩⟩
  | a :: l, s, nodup => by
    obtain ⟨unique, waits⟩ := mem_cmds_withdrawn l ((s.quenchCmd a.id 4).passHead a) ((ids_quenchCmd s a.id 4).symm ▸ nodup)
    refine ⟨unique, fun c h waiting => ?_⟩
    obtain ⟨was, later⟩ := waits c h waiting
    rcases mem_cmds_quenchCmd nodup (status := 4) (id := a.id) was with ⟨other, was⟩ | ⟨-, idle, -⟩
    · exact ⟨was, by simpa [other] using later⟩
    · exact absurd (idle.symm.trans waiting) nofun

theorem mem_cmds_abortWaiting (s : State) (p : Nat) (nodup : (s.cmds.map Cmd.id).Nodup) :
    ((s.abortWaiting p).cmds.map Cmd.id).Nodup ∧
    ∀ c ∈ (s.abortWaiting p).cmds, c.waiting = true → c ∈ s.cmds ∧ c.part ≠ p := by
  obtain ⟨unique, waits⟩ := mem_cmds_withdrawn (s.cmds.filter fun c => c.part == p && c.waiting) s nodup
  refine ⟨unique, fun c h waiting => ?_⟩
  obtain ⟨was, unnamed⟩ := waits c h waiting
  refine ⟨was, fun here => unnamed (List.mem_map_of_mem (List.mem_filter.2 ⟨was, ?_⟩))⟩
  rw [here, waiting, beq_self_eq_true]
  rfl

theorem mem_cmds_abortWaitings : ∀ (l : List Nat) (s : State), (s.cmds.map Cmd.id).Nodup →
    ((foldS State.abortWaiting s l).cmds.map Cmd.id).Nodup ∧
    ∀ c ∈ (foldS State.abortWaiting s l).cmds, c.waiting = true → c ∈ s.cmds ∧ c.part ∉ l
  | [], s, nodup => ⟨nodup, fun c h _ => ⟨h, List.not_mem_nil⟩⟩
  | p :: l, s, nodup => by
    obtain ⟨unique, waits⟩ := mem_cmds_abortWaiting s p nodup
    obtain ⟨unique, later⟩ := mem_cmds_abortWaitings l (s.abortWaiting p) unique
    refine ⟨unique, fun c h waiting => ?_⟩
    obtain ⟨was, parts⟩ := later c h waiting
    obtain ⟨was, other⟩ := waits c was waiting
    exact ⟨was, by simpa [other] using parts⟩

/-- With an off order no command of a partition waits. -/
theorem beginOff_withdraws {s : State} (kind : Nat) (nodup : (s.cmds.map Cmd.id).Nodup) :
    ((s.beginOff kind).cmds.map Cmd.id).Nodup ∧ ∀ c ∈ (s.beginOff kind).cmds, c.part < s.parts → c.waiting = false := by
  have same : (s.reportOff.ordered kind).cmds = s.cmds := by
    unfold State.reportOff State.ordered
    split
    · rfl
    · exact cmds_reportInert.reportAll ..
  have parts : (s.reportOff.ordered kind).parts = s.parts :=
    (State.field_of_board State.parts (fun _ => rfl) (board_reportOff s) :)
  obtain ⟨unique, waits⟩ := mem_cmds_abortWaitings (List.range (s.reportOff.ordered kind).parts) (s.reportOff.ordered kind)
    (same.symm ▸ nodup)
  refine ⟨unique, fun c h part => ?_⟩
  by_contra waiting
  obtain ⟨-, outside⟩ := waits c h (Bool.eq_true_of_not_eq_false waiting)
  exact outside (List.mem_range.2 (parts.symm ▸ part))

end Sys2Proof.Machine

/-!
PROOFS. Off orders and idle depths (O47).
-/

namespace Sys2Proof.Machine

/-! ### Off orders -/

theorem sync_reportInert : ReportInert State.sync :=
  ⟨fun _ _ _ => rfl, fun _ _ _ => rfl, fun _ _ => rfl, fun _ _ _ _ => rfl, fun _ _ _ => rfl, fun _ _ _ => rfl, fun _ _ _ _ => rfl,
    fun _ _ _ _ _ => rfl, fun _ _ _ => rfl⟩

/-- Quenching leaves sync objects as they are. -/
theorem sync_quenchInert : QuenchInert State.sync where
  toReportInert := sync_reportInert
  corrected _ _ := rfl
  flips _ _ := rfl
  frg _ _ _ := rfl
  granules _ _ _ _ := rfl
  bi _ _ _ := rfl
  issued _ _ := rfl
  free _ _ := rfl
  run _ _ _ := rfl
  waits _ _ := rfl
  fdescs _ _ := rfl
  requests _ _ _ := rfl
  colls _ _ _ := rfl
  drip _ _ _ := rfl

/-- With no descriptor at a forager a quench writes no memory. -/
theorem quenchCmd_noForage {s : State} (h : s.fdescs = []) (id status : Nat) :
    (s.quenchCmd id status).mem = s.mem ∧ (s.quenchCmd id status).fdescs = [] := by
  have cells := fun l => foldS_keeps (fun u : State => (u.mem, u.fdescs)) (f := State.quenchCell) (fun u n => by
    unfold State.quenchCell
    dsimp only
    split <;> rfl) l s
  unfold State.quenchCmd
  split
  · exact ⟨rfl, h⟩
  next c _ =>
    split
    · exact ⟨rfl, h⟩
    split
    · have cells := cells (c.cells.filter fun n => (s.cell n).cmd == some id)
      dsimp only
      generalize foldS State.quenchCell s (c.cells.filter fun n => (s.cell n).cmd == some id) = u at cells ⊢
      obtain ⟨mem, fdescs⟩ := Prod.mk.inj cells
      have idle : ((u.quenchForagers c).quenchColls c).mem = s.mem ∧ ((u.quenchForagers c).quenchColls c).fdescs = [] := by
        rw [← mem]
        unfold State.quenchForagers State.quenchColls
        rw [fdescs, h]
        exact ⟨rfl, rfl⟩
      split <;> exact idle
    · have drips := foldS_keeps (fun u : State => (u.mem, u.fdescs)) (f := fun s j =>
          let q := s.drip j
          s.setDrip j
            { q with stages := q.stages.filter (fun i => i != id), overflow := q.overflow.filter (fun i => i != id) }.refill)
        (fun _ _ => rfl) (List.range 4) s
      dsimp only at drips ⊢
      generalize foldS _ s (List.range 4) = u at drips ⊢
      obtain ⟨mem, fdescs⟩ := Prod.mk.inj drips
      exact ⟨mem, fdescs.trans h⟩

theorem quenchCmds_noForage (status : Nat) : ∀ (l : List Nat) (s : State), s.fdescs = [] →
    (foldS (fun u id => u.quenchCmd id status) s l).mem = s.mem
  | [], _, _ => rfl
  | id :: l, s, h => by
    obtain ⟨mem, idle⟩ := quenchCmd_noForage h id status
    exact (quenchCmds_noForage status l (s.quenchCmd id status) idle).trans mem

theorem offDrainTimeout_quenches {s : State} (live : s.live = true) (draining : s.power.draining = true)
    (runs : ∃ c ∈ s.cmds, c.phase = .started) (nodup : (s.cmds.map Cmd.id).Nodup) :
    ∃ t, exec .offDrainTimeout s = .next t ∧ (∀ c ∈ t.cmds, c.phase = .started → c.status ≠ 0) ∧
      (∀ c ∈ t.coll.colls, c.started = true → c.ready = true) ∧ (s.fdescs = [] → t.mem = s.mem) ∧ t.sync = s.sync := by
  have due : (s.power.draining && s.cmds.any fun c => c.phase == .started) = true := by
    obtain ⟨c, hc, started⟩ := runs
    rw [draining, Bool.true_and, List.any_eq_true]
    exact ⟨c, hc, by rw [started]; rfl⟩
  rw [exec, execOffDrainTimeout, whenLive_of_live _ live, whenDue_of_due _ due]
  exact ⟨_, rfl, quenchAll_settles nodup, quenchAll_colls s, fun idle => quenchCmds_noForage 4 _ s idle,
    foldS_keeps State.sync (fun u id => sync_quenchInert.quenchCmd (fun _ _ => rfl) u id 4) _ s⟩

theorem mainDomainShutdown_goes {s : State} (live : s.live = true) (draining : s.power.draining = true)
    (records : s.recordsWritten = true) : ∃ t, exec .mainDomainShutdown s = .next t ∧ t.cells = [] ∧ t.mem = [] ∧
      t.sync = [] ∧ t.ext = s.ext ∧ t.remap = s.remap ∧ t.power.running = false ∧ t.boot.standby = s.boot.standby ∧
      t.mgmt = { s.mgmt with nv := (s.mgmt.mainHrs, s.mgmt.stbyHrs, s.mgmt.starts, s.mgmt.fulls) } ∧
      (s.power.offKind ≤ 2 → t.boot.mainOn = s.boot.mainOn ∧ t.fab = s.fab ∧ t.rings = s.rings ∧ t.bar = s.bar ∧
        t.swarm.role = 0 ∧ t.link.l0p = false) ∧
      (3 ≤ s.power.offKind → t.boot.mainOn = false ∧ t.fab.placed = false) := by
  rw [exec, execMainDomainShutdown, whenLive_of_live _ live, whenDue_of_due _ (by rw [draining, records]; rfl)]
  refine ⟨_, rfl, ?_⟩
  split
  next low =>
    exact ⟨rfl, rfl, rfl, rfl, rfl, rfl, rfl, rfl, fun _ => ⟨rfl, rfl, rfl, rfl, rfl, rfl⟩, fun high => absurd high (by omega)⟩
  next high =>
    exact ⟨rfl, rfl, rfl, rfl, rfl, rfl, rfl, rfl, fun low => absurd low high, fun _ => ⟨rfl, rfl⟩⟩

theorem pwrEnRelease_drains {s : State} (live : s.live = true) (on : s.boot.standby = true) (en : s.boot.pwrEn = true)
    (running : s.power.running = true) (step : s.boot.step = 8) (nodup : (s.cmds.map Cmd.id).Nodup) : ∃ t,
      exec .pwrEnRelease s = .next t ∧ t.boot.pwrEn = false ∧ t.power.draining = true ∧ 3 ≤ t.power.offKind ∧
      ∀ c ∈ t.cmds, c.part < s.parts → c.waiting = false := by
  rw [exec, execPwrEnRelease, whenStandby_of_on _ on, whenDue_of_due _ en]
  have due : (s.live && s.power.running && s.boot.step == 8) = true := by rw [live, running, step]; rfl
  have kept := board_beginOff { s with boot := { s.boot with pwrEn := false, again := false } } 3
  have released := State.field_of_board (fun u => u.boot.pwrEn) (fun _ => rfl) kept
  have draining := State.field_of_board (fun u => u.power.draining) (fun _ => rfl) kept
  have kind := State.field_of_board (fun u => u.power.offKind) (fun _ => rfl) kept
  obtain ⟨-, withdrawn⟩ := beginOff_withdraws (s := { s with boot := { s.boot with pwrEn := false, again := false } }) 3 nodup
  exact ⟨_, congrArg _ (if_pos due), released, draining, kind.symm ▸ Nat.le_max_right .., withdrawn⟩

theorem offOrders : Claims.OffOrders := fun _ live =>
  ⟨offDrainTimeout_quenches live, mainDomainShutdown_goes live, pwrEnRelease_drains live⟩

/-! ### Idle depths -/

/-- The least that a depth needs: the wake time it has, and the dwell. -/
theorem depthFor_allowed (s : State) (p us : Nat) (h : 1 ≤ s.depthFor p us) :
    (depthRow (s.depthFor p us)).1 ≤ s.wakeUs p ∧ (depthRow (s.depthFor p us)).2 ≤ us := by
  have ok : ∀ d, (decide ((depthRow d).1 ≤ s.wakeUs p) && decide ((depthRow d).2 ≤ us)) = true →
      (depthRow d).1 ≤ s.wakeUs p ∧ (depthRow d).2 ≤ us := fun d h => by
    rw [Bool.and_eq_true, decide_eq_true_eq, decide_eq_true_eq] at h
    exact h
  unfold State.depthFor at h ⊢
  dsimp only at h ⊢
  split
  next four =>
    rw [Bool.and_eq_true] at four
    exact ok 4 four.1
  split
  next three => exact ok 3 three
  split
  next two => exact ok 2 two
  split
  next one => exact ok 1 one
  next n4 n3 n2 n1 => simp [n4, n3, n2, n1] at h

/-- The deepest depth needs every partition idle and no transit. -/
theorem depthFor_four {s : State} {p us : Nat} (h : s.depthFor p us = 4) : s.noTransit = true ∧
    ∀ q, q < s.parts → s.idlePart q = true ∧ 30000 ≤ s.wakeUs q ∧ (q = p ∨ s.ready4 q = true) := by
  unfold State.depthFor at h
  dsimp only at h
  split at h
  next four =>
    simp only [Bool.and_eq_true, List.all_eq_true, List.mem_range, decide_eq_true_eq, Bool.or_eq_true, beq_iff_eq] at four
    obtain ⟨-, still, every⟩ := four
    exact ⟨still, fun q hq => ⟨(every q hq).1.1, (every q hq).1.2, (every q hq).2⟩⟩
  · split at h
    · exact absurd h (by decide)
    split at h
    · exact absurd h (by decide)
    split at h <;> exact absurd h (by decide)

theorem noTransit_iff {s : State} (h : s.noTransit = true) :
    s.seams = [] ∧ s.fab.waiting = [] ∧ ∀ x, s.fab.transitAt = some x → 10000000 ≤ (s.now - x).toNat := by
  unfold State.noTransit at h
  simp only [Bool.and_eq_true, List.isEmpty_iff] at h
  obtain ⟨⟨seams, waiting⟩, passed⟩ := h
  refine ⟨seams, waiting, fun x hx => ?_⟩
  rw [hx] at passed
  exact of_decide_eq_true passed

theorem idleDepthEntry_enters {s : State} {p : Nat} (live : s.live = true) (hp : p < 4) (us : Nat) (running : s.power.running = true)
    (part : p < s.parts) (ready : p ∈ s.boot.ready) (idle : s.idlePart p = true) (still : p ∉ s.power.waking)
    (deeper : Tab.get (fun _ => 0) s.power.depth p < s.depthFor p us) : ∃ t, exec (.idleDepthEntry p us) s = .next t ∧
      t = { s with power := { s.power with depth := t.power.depth, idleFrom := t.power.idleFrom },
                   link := { s.link with l0p := t.link.l0p } } ∧
      Tab.get (fun _ => 0) t.power.depth p = s.depthFor p us ∧
      (∀ q, q ≠ p → Tab.get (fun _ => 0) t.power.depth q = Tab.get (fun _ => 0) s.power.depth q) ∧
      (t.link.l0p = true ↔ ∀ q, q < s.parts → 3 ≤ Tab.get (fun _ => 0) t.power.depth q) := by
  rw [exec, execIdleDepthEntry, whenFormed_of_formed _ (decide_eq_true hp), whenLive_of_live _ live]
  dsimp only
  rw [whenDue_of_due _ (by simp [running, part, ready, idle, still, deeper])]
  refine ⟨_, rfl, rfl, Tab.get_set_self .., fun q hq => Tab.get_set_other _ _ _ _ _ hq, ?_⟩
  simp only [List.all_eq_true, List.mem_range, decide_eq_true_eq]

theorem wake_begins {s : State} {p : Nat} (live : s.live = true) (hp : p < 4) (deep : Tab.get (fun _ => 0) s.power.depth p ≠ 0)
    (still : p ∉ s.power.waking) :
    exec (.wake p) s = .next { s with power := { s.power with waking := s.power.waking ++ [p] } } := by
  rw [exec, execWake, whenFormed_of_formed _ (decide_eq_true hp), whenLive_of_live _ live, whenDue_of_due _ (by simp [deep, still]),
    State.wake, if_neg (by simp [deep, still])]

theorem get_foldl_min (q : Nat) : ∀ (l : List Nat) (t : Tab Nat),
    Tab.get (fun _ => 0) (l.foldl (fun t q => Tab.set (fun _ => 0) t q (min 3 (Tab.get (fun _ => 0) t q))) t) q =
      if q ∈ l then min 3 (Tab.get (fun _ => 0) t q) else Tab.get (fun _ => 0) t q
  | [], _ => rfl
  | k :: l, t => by
    rw [List.foldl_cons, get_foldl_min q l]
    by_cases same : q = k
    · subst same
      rw [Tab.get_set_self, if_pos (List.mem_cons_self ..)]
      split <;> omega
    · rw [Tab.get_set_other _ _ _ _ _ same]
      simp only [List.mem_cons, same, false_or]

/-- A module that leaves its deepest depth: each partition is at depth 3 at most. -/
theorem get_shallow (depth : Tab Nat) (q : Nat) (hq : q < 4) :
    Tab.get (fun _ => 0) (shallow depth) q = min 3 (Tab.get (fun _ => 0) depth q) :=
  (get_foldl_min q _ depth).trans (if_pos (List.mem_range.2 hq))

/-- What serving a host access leaves: power, and the width of the link. -/
theorem power_link_reportInert : ReportInert fun s => (s.power, s.link.l0p) :=
  ⟨fun _ _ _ => rfl, fun _ _ _ => rfl, fun _ _ => rfl, fun _ _ _ _ => rfl, fun _ _ _ => rfl, fun _ _ _ => rfl, fun _ _ _ _ => rfl,
    fun _ _ _ _ _ => rfl, fun _ _ _ => rfl⟩

theorem power_link_dataInert : DataInert fun s => (s.power, s.link.l0p) where
  toReportInert := power_link_reportInert
  corrected _ _ := rfl
  flips _ _ := rfl
  frg _ _ _ := rfl
  granules _ _ _ _ := rfl
  bi _ _ _ := rfl
  issued _ _ := rfl

/-- What is computed from a state does not depend on what serving a host access changes. -/
structure ServeInert {β : Type} (g : State → β) : Prop extends DataInert g where
  missed : ∀ s, g (s.bump 46 1) = g s
  link : ∀ s h l r, g { s with link := { s.link with held := h, snoop := l, lastRead := r } } = g s

namespace ServeInert
variable {β : Type} {g : State → β} (hg : ServeInert g)
include hg

theorem answerRead (s : State) (fn off : Nat) (peer : Bool) : g (s.answerRead fn off peer) = g s := by
  have noted : ∀ (u : State) r, g { u with link := { u.link with lastRead := r } } = g u := fun u r => hg.link u u.link.held u.link.snoop r
  unfold State.answerRead
  cases s.hdm fn off with
  | hole => exact (noted ..).trans (hg.missed s)
  | _ =>
    refine (noted ..).trans ?_
    cases peer
    · simp only [State.snoopAdd, Bool.false_eq_true, if_false]
      split
      · rfl
      · exact hg.link s s.link.held _ s.link.lastRead
    · rfl

theorem hostRead (s : State) (fn off : Nat) : g (s.hostRead fn off) = g s := by
  unfold State.hostRead
  dsimp only
  split
  · split
    · exact hg.bi ..
    · exact hg.answerRead ..
  · exact hg.answerRead ..

theorem hostWrite (s : State) (fn off : Nat) (data : List Byte) : g (s.hostWrite fn off data) = g s := by
  unfold State.hostWrite
  split
  · split
    · exact hg.missed s
    · exact hg.writeFor ..
  · exact hg.missed s

theorem serveHeld (s : State) (a : Nat × Nat × Option (List Byte)) : g (s.serveHeld a) = g s := by
  unfold State.serveHeld
  split
  · exact hg.hostRead ..
  · split
    · split
      · exact hg.hostWrite ..
      · exact hg.bi ..
    · exact hg.hostWrite ..

theorem serveWaiting (s : State) (fn : Nat) : g (s.serveWaiting fn) = g s := by
  unfold State.serveWaiting
  split
  · rfl
  · exact (foldS_keeps g hg.serveHeld _ _).trans (hg.link s _ s.link.snoop s.link.lastRead)

end ServeInert

theorem power_link_serveInert : ServeInert fun s => (s.power, s.link.l0p) where
  toDataInert := power_link_dataInert
  missed _ := rfl
  link _ _ _ _ := rfl

/-- The power of a module whose partition is awake again. -/
def Power.woken (w : Power) (p : Nat) : Power :=
  { w with waking := w.waking.filter (fun q => q != p), depth := shallow (Tab.set (fun _ => 0) w.depth p 0) }

/-- With no access waiting for a partition, serving those that wait leaves the state as it is. -/
theorem serveWaiting_none {s : State} {p : Nat} (h : ∀ a ∈ s.link.held, a.1 ≠ p) : s.serveWaiting p = s := by
  have none_ : s.link.held.filter (fun a => a.1 == p) = [] := List.filter_eq_nil_iff.2 fun a ha => by simpa using h a ha
  have all : s.link.held.filter (fun a => a.1 != p) = s.link.held := List.filter_eq_self.2 fun a ha => by simpa using h a ha
  unfold State.serveWaiting
  split
  · rfl
  · rw [none_, all]
    rfl

theorem wakeComplete_wakes {s : State} {p : Nat} (live : s.live = true) (hp : p < 4) (waking : p ∈ s.power.waking) :
    ∃ t, exec (.wakeComplete p) s = .next t ∧ p ∉ t.power.waking ∧
      Tab.get (fun _ => 0) t.power.depth p = 0 ∧
      (∀ q, q < 4 → q ≠ p → Tab.get (fun _ => 0) t.power.depth q = min 3 (Tab.get (fun _ => 0) s.power.depth q)) ∧
      t.awake p = true ∧ t.link.l0p = false ∧
      ((∀ a ∈ s.link.held, a.1 ≠ p) → t = { s with power := t.power, link := { s.link with l0p := false } }) := by
  have due : s.power.waking.contains p = true := List.contains_iff_mem.2 waking
  have ran : exec (.wakeComplete p) s =
      .next (({ s with power := s.power.woken p, link := { s.link with l0p := false } } : State).serveWaiting p) := by
    rw [exec, execWakeComplete, whenFormed_of_formed _ (decide_eq_true hp), whenLive_of_live _ live, whenDue_of_due _ due]
    rfl
  obtain ⟨power, l0p⟩ := Prod.mk.inj
    (power_link_serveInert.serveWaiting { s with power := s.power.woken p, link := { s.link with l0p := false } } p)
  have awake : p ∉ (s.power.woken p).waking := fun h => by simp [Power.woken] at h
  have zero : Tab.get (fun _ => 0) (s.power.woken p).depth p = 0 := by
    rw [Power.woken, get_shallow _ p hp, Tab.get_set_self]
    rfl
  refine ⟨_, ran, ?_, ?_, ?_, ?_, l0p, fun none_ => ?_⟩
  · rw [power]
    exact awake
  · rw [power]
    exact zero
  · intro q hq other
    rw [power, Power.woken, get_shallow _ q hq, Tab.get_set_other _ _ _ _ _ other]
  · rw [State.awake, power, zero, Bool.eq_false_of_not_eq_true (mt List.contains_iff_mem.1 awake)]
    rfl
  · exact (serveWaiting_none (s := { s with power := s.power.woken p, link := { s.link with l0p := false } }) none_).trans
      (by rw [power])

theorem idleDepths : Claims.IdleDepths := by
  intro s p live hp
  refine ⟨idleDepthEntry_enters live hp, fun us four => ?_, fun us d deep one => ?_, wake_begins live hp, wakeComplete_wakes live hp⟩
  · obtain ⟨still, every⟩ := depthFor_four four
    obtain ⟨seams, waiting, passed⟩ := noTransit_iff still
    exact ⟨seams, waiting, passed, every⟩
  · subst deep
    exact depthFor_allowed s p us one

/-- Settles O47: off orders and idle depths. -/
theorem powerStates : Obligations.PowerStates := ⟨offOrders, idleDepths⟩

end Sys2Proof.Machine

/-!
PROOFS. Die sensors, coolant, leaks, the input and the silent-authority hold (O48).
-/

namespace Sys2Proof.Machine

/-! ### What a reading changes -/

@[simp] theorem now_powerReport (s : State) (ty r b a : Nat) : (s.powerReport ty r b a).now = s.now := now_reportAll ..

theorem now_brakeActions (s : State) : s.brakeActions.now = s.now := by
  unfold State.brakeActions State.brakeControls
  exact retuneAll_field State.now (fun _ => rfl) _

theorem now_fastCutCheck (s : State) (before : Nat) : (s.fastCutCheck before).now = s.now := by
  unfold State.fastCutCheck
  dsimp only
  split
  · rw [now_traceCap, now_powerReport, now_brakeActions]
    rfl
  · rfl

/-- A state without what samples of the die sensors and the coast cap change. -/
def State.unsensed (s : State) : State :=
  { s.calm with
    power := { s.calm.power with sensors := [], coast := false }, boot := { s.boot with tripDue := false } }

theorem State.field_of_unsensed {β : Type} (g : State → β) (hg : ∀ s, g s.unsensed = g s) {s t : State}
    (h : t.unsensed = s.unsensed) : g t = g s := by
  have := congrArg g h
  rwa [hg, hg] at this

theorem unsensed_of_calm {s t : State} (h : t.calm = s.calm) : t.unsensed = s.unsensed :=
  State.field_of_calm State.unsensed (fun _ => rfl) h

theorem sensor_setSensor (s : State) (i j : Nat) (x : Sensor) : (s.setSensor i x).sensor j = if j = i then x else s.sensor j := by
  by_cases same : j = i
  · subst same
    rw [if_pos rfl]
    exact Tab.get_set_self ..
  · rw [if_neg same]
    exact Tab.get_set_other _ _ _ _ _ same

theorem sensor_setSensors (f : Nat → Sensor) (j : Nat) : ∀ (l : List Nat) (s : State),
    (foldS (fun t e => t.setSensor e.1 e.2) s (l.map fun i => (i, f i))).sensor j = if j ∈ l then f j else s.sensor j
  | [], _ => rfl
  | i :: l, s => by
    refine (sensor_setSensors f j l (s.setSensor i (f i))).trans ?_
    rw [sensor_setSensor]
    by_cases same : j = i
    · subst same
      simp
    · simp [same]

/-- What a sample of the die sensors leaves: each sensor as it is judged, and a trip where one that is trusted is at 110 °C. -/
structure Sensed (s : State) (dies : List Reading) (t : State) : Prop where
  sensors : ∀ i, i < 60 → t.sensor i = s.judge dies i
  trips : ∀ i, i < 60 → (s.judge dies i).state = 0 → 1760 ≤ (s.judge dies i).temp → t.boot.tripDue = true

theorem Sensed.of_calm {s t u : State} {dies : List Reading} (h : Sensed s dies t) (k : u.calm = t.calm) : Sensed s dies u where
  sensors i hi := (State.field_of_calm (fun v => v.sensor i) (fun _ => rfl) k).trans (h.sensors i hi)
  trips i hi trusted hot := (State.field_of_calm (fun v => v.boot.tripDue) (fun _ => rfl) k).trans (h.trips i hi trusted hot)

/-- A state that agrees on sensors, the inlet and the time judges readings alike. -/
theorem judge_congr {s t : State} (sensors : t.power.sensors = s.power.sensors) (inlet : t.power.inlet = s.power.inlet)
    (now : t.now = s.now) (dies : List Reading) (i : Nat) : t.judge dies i = s.judge dies i := by
  have sensor : ∀ j, t.sensor j = s.sensor j := fun j => congrArg (Tab.get (fun _ => Sensor.reset) · j) sensors
  have odd : t.oddReading dies i = s.oddReading dies i := by
    funext x
    simp only [State.oddReading, sensor, inlet]
  have returns : t.returnsOf = s.returnsOf := by
    funext x
    rw [State.returnsOf, now, State.returnsOf]
  simp only [State.judge, sensor, odd, returns, now]

theorem bare_powerReports {α : Type} (ty r : Nat) (l : List α) (s : State) :
    (foldS (fun t _ => t.powerReport ty r t.cap t.cap) s l).bare = s.bare :=
  foldS_keeps State.bare (fun _ _ => bare_powerReport ..) _ _

/-- The last step of a sample: a trusted reading at the limit trips. -/
theorem trip_sensed {s t : State} {dies : List Reading} (sensors : ∀ i, i < 60 → t.sensor i = s.judge dies i) :
    Sensed s dies (if (List.range 60).any fun i => (t.sensor i).state == 0 && decide (1760 ≤ (t.sensor i).temp) then
      { t with boot := { t.boot with tripDue := true } } else t) := by
  split
  · exact ⟨sensors, fun _ _ _ _ => rfl⟩
  next quiet =>
    refine ⟨sensors, fun i hi trusted hot => absurd (List.any_eq_true.2 ⟨i, List.mem_range.2 hi, ?_⟩) quiet⟩
    rw [sensors i hi, trusted, decide_eq_true hot]
    rfl

theorem unsensed_trip (t : State) (b : Bool) : (if b then { t with boot := { t.boot with tripDue := true } } else t).unsensed = t.unsensed := by
  cases b <;> rfl

theorem readDies_sensed (s : State) (dies : List Reading) : Sensed s dies (s.readDies dies) ∧ (s.readDies dies).unsensed = s.unsensed := by
  have set_ := fun j => sensor_setSensors (s.judge dies) j (List.range 60) s
  have kept : (foldS (fun t e => t.setSensor e.1 e.2) s ((List.range 60).map fun i => (i, s.judge dies i))).unsensed = s.unsensed :=
    foldS_keeps State.unsensed (f := fun t (e : Nat × Sensor) => t.setSensor e.1 e.2) (fun _ _ => rfl) _ s
  unfold State.readDies
  dsimp only
  generalize foldS (fun t e => t.setSensor e.1 e.2) s ((List.range 60).map fun i => (i, s.judge dies i)) = s1 at set_ kept ⊢
  generalize (List.range 60).filter (fun i => (s.sensor i).state == 0 && (s1.sensor i).state != 0) = lost
  generalize (List.range 20).filter (fun d => !(s.trusted d).isEmpty && (s1.trusted d).isEmpty) = blind
  have reported : Reported s1 (foldS (fun t _ => t.powerReport 6 3 t.cap t.cap)
      (foldS (fun t _ => t.powerReport 6 2 t.cap t.cap) s1 lost) blind) :=
    (bare_powerReports 6 3 blind _).trans (bare_powerReports 6 2 lost s1)
  generalize foldS (fun t _ => t.powerReport 6 3 t.cap t.cap) _ blind = s3 at reported ⊢
  refine ⟨trip_sensed fun i hi => ?_, ?_⟩
  · exact (reported.field (fun u => u.sensor i) fun _ => rfl).trans ((set_ i).trans (if_pos (List.mem_range.2 hi)))
  · exact (unsensed_trip ..).trans ((unsensed_of_calm (calm_of_reported reported)).trans kept)

/-- A coolant sensor that becomes untrusted: the coast cap and its consequences come first, then the other reports. -/
theorem coastSensor_calm (s : State) (amid : State → State) : ∃ u, u.now = s.now ∧
    u.calm = ({ s with power := { s.power with coast := true } } : State).calm ∧ (s.coastSensor amid).calm = (amid u).calm := by
  have coast : s.coastSensor amid =
      (amid ((({ s with power := { s.power with coast := true } } : State).traceCap s.cap).fastCutCheck s.cap)).powerReport 6 11 s.cap
        ({ s with power := { s.power with coast := true } } : State).cap := by
    unfold State.coastSensor State.protectAmid
    exact if_pos rfl
  refine ⟨(({ s with power := { s.power with coast := true } } : State).traceCap s.cap).fastCutCheck s.cap, ?_, ?_, ?_⟩
  · rw [now_fastCutCheck, now_traceCap]
    rfl
  · rw [calm_fastCutCheck, calm_traceCap]
  · rw [coast, calm_powerReport]

theorem coastSensor_sensed (s : State) (dies : List Reading) : Sensed s dies (s.coastSensor fun t => t.readDies dies) ∧
    (s.coastSensor fun t => t.readDies dies).unsensed = s.unsensed := by
  obtain ⟨u, now, same, calm⟩ := coastSensor_calm s fun t => t.readDies dies
  obtain ⟨sensed, kept⟩ := readDies_sensed u dies
  have judge := fun i => judge_congr (s := s) (t := u) (State.field_of_calm (fun v => v.power.sensors) (fun _ => rfl) same :)
    (State.field_of_calm (fun v => v.power.inlet) (fun _ => rfl) same :) now dies i
  have sensed : Sensed s dies (u.readDies dies) := by
    refine ⟨fun i hi => (sensed.sensors i hi).trans (judge i), fun i hi trusted hot => sensed.trips i hi ?_ ?_⟩
    · rw [judge, trusted]
    · rw [judge]
      exact hot
  exact ⟨sensed.of_calm calm, (unsensed_of_calm calm).trans (kept.trans (State.field_of_calm State.unsensed (fun _ => rfl) same :))⟩

theorem coastAgain_sensed {s t : State} {dies : List Reading} (h : Sensed s dies t) (k : t.unsensed = s.unsensed) :
    Sensed s dies (t.coastSensor id) ∧ (t.coastSensor id).unsensed = s.unsensed := by
  obtain ⟨u, -, same, calm⟩ := coastSensor_calm t id
  have calm := calm.trans same
  refine ⟨⟨fun i hi => ?_, fun i hi trusted hot => ?_⟩, (State.field_of_calm State.unsensed (fun _ => rfl) calm :).trans k⟩
  · exact (State.field_of_calm (fun v => v.sensor i) (fun _ => rfl) calm).trans (h.sensors i hi)
  · exact (State.field_of_calm (fun v => v.boot.tripDue) (fun _ => rfl) calm).trans (h.trips i hi trusted hot)

/-- A sample with the main domain on. -/
theorem sensorSample_sensed {s : State} (live : s.live = true) {dies : List Reading} (size : dies.length = 60) (inlet outlet : Reading) :
    ∃ t, exec (.sensorSample dies inlet outlet) s = .next t ∧ Sensed (s.readCoolant inlet outlet) dies t ∧
      t.unsensed = (s.readCoolant inlet outlet).unsensed := by
  rw [exec, execSensorSample, whenFormed_of_formed _ (beq_iff_eq.2 size), whenStandby_of_on _ (standby_of_live live)]
  dsimp only
  refine ⟨_, congrArg _ (if_neg (by simp [live])), ?_⟩
  split
  · exact coastAgain_sensed (coastSensor_sensed _ dies).1 (coastSensor_sensed _ dies).2
  · exact readDies_sensed ..
  · exact coastSensor_sensed ..

/-! ### Judging a reading -/

theorem judge_dead {s : State} {dies : List Reading} {i : Nat}
    (h : (s.sensor i).state = 2 ∨ dies[i]? = some none ∨ ∃ x, dies[i]? = some (some x) ∧ (x < -320 ∨ 2400 < x)) :
    (s.judge dies i).state = 2 := by
  unfold State.judge
  dsimp only
  split
  next gone => exact gone
  next here =>
    have dead : deadReading (dies.getD i none) = true := by
      rcases h with gone | none_ | ⟨x, read, far⟩
      · exact absurd gone here
      · rw [List.getD_eq_getElem?_getD, none_]
        rfl
      · rw [List.getD_eq_getElem?_getD, read]
        simpa [deadReading] using far
    rw [if_pos dead]

theorem judge_plausible {s : State} {dies : List Reading} {i : Nat} {x : Int} (read : dies[i]? = some (some x)) (low : -320 ≤ x)
    (high : x ≤ 2400) (trusted : (s.sensor i).state = 0) (inlet : s.power.inlet ≤ x)
    (others : ∀ j, j / 3 = i / 3 → j ≠ i → (s.sensor j).state = 0 → ∃ y, dies[j]? = some (some y) ∧ y ≤ x + 240) :
    s.judge dies i = { s.sensor i with temp := x, since := some ((s.sensor i).since.getD s.now) } := by
  have at_ : dies.getD i none = some x := by rw [List.getD_eq_getElem?_getD, read]; rfl
  have alive : deadReading (some x) = false := by
    simp only [deadReading, Bool.or_eq_false_iff, decide_eq_false_iff_not]
    omega
  have even : s.oddReading dies i x = false := by
    unfold State.oddReading
    dsimp only
    rw [decide_eq_false (Int.not_lt.2 inlet), Bool.false_or]
    by_contra odd
    rw [Bool.not_eq_false, Bool.and_eq_true, List.all_eq_true] at odd
    obtain ⟨some_, all⟩ := odd
    rw [Bool.not_eq_true', List.isEmpty_eq_false_iff] at some_
    obtain ⟨u, hu⟩ := List.exists_mem_of_ne_nil _ some_
    obtain ⟨j, hj, reads⟩ := List.mem_filterMap.1 hu
    obtain ⟨hj, keep⟩ := List.mem_filter.1 hj
    obtain ⟨k, hk, rfl⟩ := List.mem_map.1 hj
    rw [Bool.and_eq_true] at keep
    have hk := List.mem_range.1 hk
    obtain ⟨y, ready, near⟩ := others (3 * (i / 3) + k) (by omega) (by simpa using keep.1) (by simpa using keep.2)
    have same : u = y := by
      rw [List.getD_eq_getElem?_getD, ready] at reads
      exact (Option.some.inj reads).symm
    have := of_decide_eq_true (all u hu)
    omega
  unfold State.judge
  dsimp only
  simp only [at_, alive, trusted, Option.getD_some, even]
  rfl

theorem dieSensors : Claims.DieSensors := by
  intro s live
  refine ⟨fun dies inlet outlet size => ?_, fun i x hi out few since long => ?_, fun i hi no => ?_⟩
  · obtain ⟨t, ran, sensed, kept⟩ := sensorSample_sensed live size inlet outlet
    have inlet' := State.field_of_unsensed (fun v => v.power.inlet) (fun _ => rfl) kept
    have outlet' := State.field_of_unsensed (fun v => v.power.outlet) (fun _ => rfl) kept
    have cells := State.field_of_unsensed State.cells (fun _ => rfl) kept
    have ports := State.field_of_unsensed (fun v => v.fab.ports) (fun _ => rfl) kept
    refine ⟨t, ran, inlet', outlet', fun i hi dead => ?_, fun i x hi read low high trusted warm others => ?_, cells, ports⟩
    · rw [sensed.sensors i hi]
      exact judge_dead dead
    · have judged : (s.readCoolant inlet outlet).judge dies i =
          { s.sensor i with temp := x, since := some ((s.sensor i).since.getD s.now) } :=
        judge_plausible (s := s.readCoolant inlet outlet) read low high trusted (inlet'.symm.trans_le warm) others
      refine ⟨(sensed.sensors i hi).trans judged, fun hot => sensed.trips i hi ?_ ?_⟩
      · rw [judged]
        exact trusted
      · rw [judged]
        exact hot
  · rw [exec, execSensorRetrust, whenFormed_of_formed _ (decide_eq_true hi), whenLive_of_live _ live]
    dsimp only
    rw [since, whenDue_of_due _ (by simp [out, few, long, -BitVec.toNat_sub])]
    refine ⟨_, rfl, ?_, ?_, fun j hj => ?_, rfl⟩
    · rw [sensor_setSensor, if_pos rfl]
    · rw [sensor_setSensor, if_pos rfl]
      exact List.mem_append_right _ (List.mem_singleton.2 rfl)
    · rw [sensor_setSensor, if_neg hj]
  · rw [exec, execSensorRetrust, whenFormed_of_formed _ (decide_eq_true hi), whenLive_of_live _ live]
    refine whenDue_of_not _ ?_
    rcases no with other | often | soon
    · simp [other]
    · simp [Nat.not_lt.2 often]
    · cases since : (s.sensor i).since with
      | none => exact Bool.and_false _
      | some x =>
        dsimp only
        rw [decide_eq_false (Nat.not_le.2 (soon x since)), Bool.and_false]

/-! ### Coolant -/

/-- A protection of type 6 that is set: its own change, and what a fast cut and reports change. -/
theorem protect_field {β : Type} (g : State → β) (hg : ∀ s, g s.calm = g s) (s : State) (ty r : Nat) (f : State → State) :
    g (s.protect ty r f) = g (f s) :=
  State.field_of_calm g hg (calm_protect s ty r f)

theorem coolFaultAssert_coasts {s : State} (live : s.live = true) (up : s.power.coolPin = false) :
    ∃ t, exec .coolFaultAssert s = .next t ∧ t.power.coolPin = true ∧ t.power.coast = true ∧ t.cap ≤ s.power.env * 40 / 100 := by
  rw [exec, execCoolFaultAssert, whenStandby_of_on _ (standby_of_live live), whenDue_of_due _ (by simp [up])]
  obtain ⟨t, same⟩ : ∃ t, ({ s with power := { s.power with coolPin := true } } : State).setCoast 4 = t := ⟨_, rfl⟩
  have calm : t.calm = ({ s with power := { s.power with coolPin := true, coast := true } } : State).calm :=
    same ▸ calm_protect { s with power := { s.power with coolPin := true } } 6 4 _
  have pin := State.field_of_calm (fun u => u.power.coolPin) (fun _ => rfl) calm
  have coast := State.field_of_calm (fun u => u.power.coast) (fun _ => rfl) calm
  have env := State.field_of_calm (fun u => u.power.env) (fun _ => rfl) calm
  refine ⟨t, congrArg _ ((if_pos live).trans same), pin, coast, ?_⟩
  exact (cap_le_of_coast coast).trans_eq (congrArg (fun e : Nat => e * 40 / 100) env)

theorem riseLimitExceeded_coasts {s : State} (live : s.live = true) (was : s.power.riseHigh = false)
    (high : 16 * (s.power.riseMax : Int) < s.power.outlet - s.power.inlet) :
    ∃ t, exec .riseLimitExceeded s = .next t ∧ t.power.riseHigh = true ∧ t.power.coast = true := by
  rw [exec, execRiseLimitExceeded, whenLive_of_live _ live, whenDue_of_due _ (by simp [was, high])]
  have calm := calm_protect { s with power := { s.power with riseHigh := true } } 6 5
    fun t => { t with power := { t.power with coast := true } }
  obtain ⟨t, same⟩ : ∃ t, ({ s with power := { s.power with riseHigh := true } } : State).setCoast 5 = t := ⟨_, rfl⟩
  have calm : t.calm = ({ s with power := { s.power with riseHigh := true, coast := true } } : State).calm := same ▸ calm
  have rise := State.field_of_calm (fun u => u.power.riseHigh) (fun _ => rfl) calm
  have coast := State.field_of_calm (fun u => u.power.coast) (fun _ => rfl) calm
  exact ⟨t, congrArg _ same, rise, coast⟩

theorem coastClear_clears {s : State} (live : s.live = true) (coast : s.power.coast = true) (over_ : s.coastOver = true) :
    ∃ t, exec .coastClear s = .next t ∧ t.power.coast = false := by
  rw [exec, execCoastClear, whenLive_of_live _ live, whenDue_of_due _ (by simp [coast, over_])]
  exact ⟨_, rfl, protect_field (fun u => u.power.coast) (fun _ => rfl) s 6 6 _⟩

/-- The state in which an inlet above its limit has been reported, before the module drains. -/
def State.hotReported (s : State) : State :=
  let s0 := s.reportOff
  { s0.powerReport 6 9 s0.cap s0.cap with power := { s0.power with hot := some s0.power.inletMax } }

theorem board_hotReported (s : State) :
    s.hotReported.board = ({ s with power := { s.power with hot := some s.power.inletMax } } : State).board := by
  have off := board_reportOff s
  have power := State.field_of_board State.power (fun _ => rfl) off
  unfold State.hotReported
  dsimp only
  rw [power]
  have report : (s.reportOff.powerReport 6 9 s.reportOff.cap s.reportOff.cap).board = s.board :=
    (board_reportInert.reportAll ..).trans off
  exact congrArg (fun u : State => { u with power := { s.power with hot := some s.power.inletMax } }) report

theorem cmds_reportOff (s : State) : s.reportOff.cmds = s.cmds := by
  unfold State.reportOff
  split
  · rfl
  · exact cmds_reportInert.reportAll ..

theorem cmds_hotReported (s : State) : s.hotReported.cmds = s.cmds :=
  (cmds_reportInert.reportAll ..).trans (cmds_reportOff s)

/-- Draining keeps one command of each identifier. -/
theorem drain_nodup {s : State} (nodup : (s.cmds.map Cmd.id).Nodup) (kind : Nat) : ((s.drain kind).cmds.map Cmd.id).Nodup :=
  (mem_cmds_abortWaitings _ (s.ordered kind) nodup).1

theorem board_quenchAll (s : State) : s.quenchAll.board = s.board :=
  foldS_board (f := fun u id => u.quenchCmd id 4) (fun _ _ => board_quenchCmd ..) _ s

theorem inletOverLimit_drains {s : State} (live : s.live = true) (warm : 16 * (s.power.inletMax : Int) < s.power.inlet)
    (first : s.power.hot = none) (nodup : (s.cmds.map Cmd.id).Nodup) :
    ∃ t, exec .inletOverLimit s = .next t ∧ t.power.draining = true ∧ t.power.offKind = max s.power.offKind 2 ∧
      t.power.hot = some s.power.inletMax ∧
      (16 * (s.power.inletMax : Int) + 80 ≤ s.power.inlet → ∀ c ∈ t.cmds, c.phase = .started → c.status ≠ 0) := by
  have board : (s.hotReported.drain 2).board =
      (({ s with power := { s.power with hot := some s.power.inletMax } } : State).ordered 2).board :=
    (board_drain _ _).trans (congrArg (fun u : State => u.ordered 2) (board_hotReported s))
  have nodup : ((s.hotReported.drain 2).cmds.map Cmd.id).Nodup := drain_nodup ((cmds_hotReported s).symm ▸ nodup) 2
  have ran : exec .inletOverLimit s = .next
      (if decide (16 * (s.power.inletMax : Int) + 80 ≤ s.power.inlet) then (s.hotReported.drain 2).quenchAll else s.hotReported.drain 2) := by
    rw [exec, execInletOverLimit, whenLive_of_live _ live]
    dsimp only
    rw [whenDue_of_due _ (by simp [warm, first]), first]
    rfl
  generalize s.hotReported.drain 2 = u at board nodup ran
  have either : ∀ b : Bool, (if b then u.quenchAll else u).board = u.board := fun b => by
    cases b
    · rfl
    · exact board_quenchAll u
  have all := (either (decide (16 * (s.power.inletMax : Int) + 80 ≤ s.power.inlet))).trans board
  refine ⟨_, ran, ?_, ?_, ?_, fun far => ?_⟩
  · exact (State.field_of_board (fun v => v.power.draining) (fun _ => rfl) all :)
  · exact (State.field_of_board (fun v => v.power.offKind) (fun _ => rfl) all :)
  · exact (State.field_of_board (fun v => v.power.hot) (fun _ => rfl) all :)
  · rw [if_pos (decide_eq_true far)]
    exact quenchAll_settles nodup

theorem coolant : Claims.Coolant := by
  intro s on
  refine ⟨fun up off => ?_, fun down => ?_, fun live => ⟨coolFaultAssert_coasts live, riseLimitExceeded_coasts live,
    fun coast pin rise inlet outlet => coastClear_clears live coast (by simp [State.coastOver, pin, rise, inlet, outlet]),
    fun cause => ?_, inletOverLimit_drains live⟩⟩
  · rw [exec, execCoolFaultAssert, whenStandby_of_on _ on, whenDue_of_due _ (by simp [up])]
    exact congrArg _ (if_neg (by simp [off]))
  · rw [exec, execCoolFaultDeassert, whenStandby_of_on _ on, whenDue_of_due _ down]
  · rw [exec, execCoastClear, whenLive_of_live _ live]
    refine whenDue_of_not _ ?_
    rcases cause with c | c | c | c <;> simp [State.coastOver, c]

/-! ### Leaks, the input, phases -/

/-- The state in which a leak has been noted. -/
def State.leakNoted (s : State) : State := (({ s with power := { s.power with leakWet := true } } : State).mEvent 4 0).lightService .leak

theorem mem_mEvent (s : State) (code detail : Nat) : { code := code, detail := detail } ∈ (s.mEvent code detail).mgmt.events :=
  List.mem_append_right _ (List.mem_singleton.2 rfl)

theorem leakDetected_quenches (s : State) (on : s.boot.standby = true) (dry : s.power.leakWet = false) :
    ∃ t, exec .leakDetected s = .next t ∧ t.power.leakWet = true ∧ ({ code := 4, detail := 0 } ∈ t.mgmt.events) ∧
      t.mgmt.service = true ∧
      (s.live = true → (s.cmds.map Cmd.id).Nodup → t.power.draining = true ∧ 4 ≤ t.power.offKind ∧
        (∀ c ∈ t.cmds, c.phase = .started → c.status ≠ 0) ∧ ∀ c ∈ t.coll.colls, c.started = true → c.ready = true) := by
  have ran : exec .leakDetected s = .next (if s.live then
      ((s.leakNoted.powerReport 6 10 s.leakNoted.cap s.leakNoted.cap).drain 4).quenchAll else s.leakNoted) := by
    rw [exec, execLeakDetected, whenStandby_of_on _ on, whenDue_of_due _ (by simp [dry])]
    rfl
  have report : (s.leakNoted.powerReport 6 10 s.leakNoted.cap s.leakNoted.cap).board = s.leakNoted.board :=
    board_reportInert.reportAll ..
  have cmds : (s.leakNoted.powerReport 6 10 s.leakNoted.cap s.leakNoted.cap).cmds = s.cmds := cmds_reportInert.reportAll ..
  have noted := mem_mEvent ({ s with power := { s.power with leakWet := true } } : State) 4 0
  generalize s.leakNoted.powerReport 6 10 s.leakNoted.cap s.leakNoted.cap = u at ran report cmds
  cases live : s.live with
  | false =>
    rw [live] at ran
    exact ⟨_, ran, rfl, noted, rfl, nofun⟩
  | true =>
    rw [live] at ran
    have board : (u.drain 4).quenchAll.board = (s.leakNoted.ordered 4).board :=
      (board_quenchAll _).trans ((board_drain _ _).trans (congrArg (fun v : State => v.ordered 4) report))
    have wet := State.field_of_board (fun v => v.power.leakWet) (fun _ => rfl) board
    have events := State.field_of_board (fun v => v.mgmt.events) (fun _ => rfl) board
    have service := State.field_of_board (fun v => v.mgmt.service) (fun _ => rfl) board
    have draining := State.field_of_board (fun v => v.power.draining) (fun _ => rfl) board
    have kind := State.field_of_board (fun v => v.power.offKind) (fun _ => rfl) board
    refine ⟨_, ran, wet, events.symm ▸ noted, service, fun _ nodup => ⟨draining, kind.symm ▸ Nat.le_max_right .., ?_, quenchAll_colls _⟩⟩
    exact quenchAll_settles (drain_nodup (cmds.symm ▸ nodup) 4)

theorem setGuarded_calm {s : State} (g : Bool) : (s.setGuarded g).power.guarded = g ∧
    (s.setGuarded g).power.leakOpen = s.power.leakOpen ∧ (s.setGuarded g).power.leakPass = s.power.leakPass ∧
    (s.live = false → (s.setGuarded g).power.owed = s.power.owed ++ [(if g then 7 else 8, s.cap, (s.setGuarded g).cap)]) := by
  unfold State.setGuarded
  dsimp only
  cases s.live with
  | true =>
    exact ⟨protect_field (fun u => u.power.guarded) (fun _ => rfl) .., protect_field (fun u => u.power.leakOpen) (fun _ => rfl) ..,
      protect_field (fun u => u.power.leakPass) (fun _ => rfl) .., nofun⟩
  | false => exact ⟨rfl, rfl, rfl, fun _ => rfl⟩

theorem leakSelfTest_open (s : State) (on : s.boot.standby = true) : ∃ t, exec (.leakSelfTest true) s = .next t ∧
    t.power.guarded = true ∧ t.power.leakOpen = true ∧ t.power.leakPass = 0 ∧ t.mgmt.service = true ∧
    { code := 5, detail := 0 } ∈ t.mgmt.events ∧ (s.live = false → t.power.owed = s.power.owed ++ [(7, s.cap, t.cap)]) := by
  have ran : exec (.leakSelfTest true) s =
      .next (((({ s with power := { s.power with leakOpen := true, leakPass := 0 } } : State).setGuarded true).mEvent 5 0).lightService
        .leakOpen) := by
    rw [exec, execLeakSelfTest, whenStandby_of_on _ on]
    rfl
  obtain ⟨guarded, open_, pass, owed⟩ :=
    setGuarded_calm (s := { s with power := { s.power with leakOpen := true, leakPass := 0 } }) true
  generalize ({ s with power := { s.power with leakOpen := true, leakPass := 0 } } : State).setGuarded true = u at *
  refine ⟨_, ran, guarded, open_, pass, rfl, mem_mEvent u 5 0, fun off => ?_⟩
  have cap : ((u.mEvent 5 0).lightService .leakOpen).cap = u.cap := rfl
  rw [cap]
  exact owed off

/-- The state in which a leak trace that is closed has been noted. -/
def State.traceClosed (s : State) : State :=
  ({ s with power := { s.power with leakOpen := false, leakPass := min 3 (s.power.leakPass + 1) } } : State).endService .leakOpen

theorem leakSelfTest_passed (s : State) (on : s.boot.standby = true) : ∃ t, exec (.leakSelfTest false) s = .next t ∧
    t.power.leakOpen = false ∧ t.power.leakPass = min 3 (s.power.leakPass + 1) ∧
    (t.power.guarded = true ↔ s.power.guarded = true ∧ s.power.leakPass < 2) := by
  have ran : exec (.leakSelfTest false) s = .next
      (if s.power.guarded = true ∧ 2 ≤ s.power.leakPass then s.traceClosed.setGuarded false else s.traceClosed) := by
    rw [exec, execLeakSelfTest, whenStandby_of_on _ on]
    rfl
  rw [ran]
  refine ⟨_, rfl, ?_⟩
  split
  next clears =>
    obtain ⟨guarded, open_, pass, -⟩ := setGuarded_calm (s := s.traceClosed) false
    refine ⟨open_, pass, ?_⟩
    rw [guarded]
    exact ⟨nofun, fun few => absurd few.2 (Nat.not_lt.2 clears.2)⟩
  next stays =>
    exact ⟨rfl, rfl, fun on => ⟨on, Nat.lt_of_not_le fun enough => stays ⟨on, enough⟩⟩, And.left⟩

theorem reportPhase_reported (s : State) (k : Nat) :
    Reported { s with power := { s.power with phases := s.power.phases ++ [k] } } (s.reportPhase k) :=
  (foldS_keeps State.bare (fun _ _ => bare_report ..) _ _).trans (bare_relayReport ..)

theorem leaksAndInput : Claims.LeaksAndInput := by
  intro s
  refine ⟨leakDetected_quenches s, leakSelfTest_open s, leakSelfTest_passed s, fun on due => ?_, fun k live hk fresh => ?_⟩
  · rw [exec, execVinIsolate, whenStandby_of_on _ on, whenDue_of_due _ (by simpa using due)]
    exact ⟨_, rfl, rfl, rfl, rfl, rfl, rfl, rfl, rfl⟩
  · rw [exec, execRegulatorPhaseRetire, whenFormed_of_formed _ (decide_eq_true hk), whenLive_of_live _ live,
      whenDue_of_due _ (by simpa using fresh)]
    have reported := reportPhase_reported s k
    have power := reported.field State.power fun _ => rfl
    refine ⟨_, rfl, congrArg Power.phases power, ?_⟩
    rw [power]
    exact reported

/-! ### Contact -/

theorem setHold_mgmt (s : State) : (s.setHold false).mgmt.lastHost = s.mgmt.lastHost ∧ (s.setHold false).power.hold = false ∧
    (s.setHold false).power.demand = s.power.demand := by
  have reported := setHold_reported s false
  have host := reported.field (fun u => u.mgmt.lastHost) fun _ => rfl
  have hold := reported.field (fun u => u.power.hold) fun _ => rfl
  have demand := reported.field (fun u => u.power.demand) fun _ => rfl
  exact ⟨host, hold, demand⟩

theorem setHold_enters {s : State} (out : s.power.hold = false) : (s.setHold true).power.hold = true ∧
    ({ code := 9, detail := 1 } ∈ (s.setHold true).mgmt.events) := by
  have event := mem_mEvent ({ s with power := { s.power with hold := true } } : State) 9 1
  refine ⟨(setHold_reported s true).field (fun u => u.power.hold) fun _ => rfl, ?_⟩
  unfold State.setHold
  rw [if_neg (by simp [out])]
  dsimp only
  split
  · have mgmt := fun (u : State) => mgmt_reportInert.reportAll u 5 8 0 (powerBody 8 u.cap u.cap)
    exact (congrArg (fun m : Mgmt => { code := 9, detail := 1 } ∈ m.events) (mgmt _)).mpr event
  · exact event

theorem silentAuthority : Claims.SilentAuthority := by
  intro s
  refine ⟨fun on out host rack => ?_, fun on soon => ?_, fun fn live hf part => ?_⟩
  · rw [exec, execSilentHoldEnter, whenStandby_of_on _ on,
      whenDue_of_due _ (by rw [out, decide_eq_true host, decide_eq_true rack]; rfl)]
    exact ⟨_, rfl, setHold_enters out⟩
  · rw [exec, execSilentHoldEnter, whenStandby_of_on _ on,
      whenDue_of_not _ (by rw [decide_eq_false (Nat.not_le.2 soon), Bool.and_false, Bool.false_and])]
  · rw [exec, execDemandClear, whenFormed_of_formed _ (decide_eq_true hf), whenLive_of_live _ live,
      whenDue_of_due _ (decide_eq_true part)]
    obtain ⟨host, hold, demand⟩ := setHold_mgmt { s with mgmt := { s.mgmt with lastHost := s.now } }
    refine ⟨_, rfl, ?_⟩
    split
    · exact ⟨host, hold, rfl⟩
    · exact ⟨host, hold, demand⟩

/-- Settles O48: the sensors of the dies, the coolant, the input, and contact. -/
theorem sensorsAndContact : Obligations.SensorsAndContact := ⟨dieSensors, coolant, leaksAndInput, silentAuthority⟩

end Sys2Proof.Machine

/-!
PROOFS. The tick of an empty queue, and the pins SYNC_OUT and SYNC_IN (O2).
-/

namespace Sys2Proof.Machine

/-! ### The tick -/

/-- What a tick of the reference leaves as it was. -/
def State.held (s : State) : Tab Cell × Tab Byte × Tab Byte × Tab Word × List Cmd × List Instr :=
  (s.cells, s.mem, s.ext, s.sync, s.cmds, s.pending)

theorem tick_keeps {β : Type} (g : State → β) (port : ∀ s p q, g (s.setPort p q) = g s) (free : ∀ s k, g { s with freeCtr := k } = g s)
    (credit : ∀ (s : State) k, g { s with fab := { s.fab with ctlCredit := k } } = g s)
    (counted : ∀ (s : State) i k, g (s.setCounted i k) = g s) (flips : ∀ s f, g { s with flips := f } = g s) (s : State) :
    g s.tick = g (if s.boot.standby && s.boot.refOk then s.bump 63 1 else s) := by
  unfold State.tick
  split
  · dsimp only
    split
    · have fill := fun l u => foldS_keeps g (f := State.fillPort) (fun _ _ => port ..) l u
      have pump := fun l u => foldS_keeps g (f := State.pumpPort) (fun v p => by
        unfold State.pumpPort
        dsimp only
        split
        · rfl
        · exact (port ..).trans (free ..)) l u
      have ctl : ∀ u : State, g u.fillCtl = g u := fun u => by
        unfold State.fillCtl
        split
        · exact credit ..
        · rfl
      have dogs : ∀ u : State, g u.watchdogs = g u := fun u => foldS_keeps g (fun _ _ => counted ..) _ u
      have all := fun u => (dogs _).trans ((ctl _).trans ((pump (List.range 18) _).trans (fill (List.range 18) u)))
      split
      · refine Eq.trans ?_ (all (s.bump 63 1))
        unfold State.flip
        split
        · split
          · exact flips ..
          · rfl
        · rfl
      · exact all _
    · rfl
  · rfl

theorem emptyQueueTicks : Claims.EmptyQueueTicks := by
  intro s empty
  have ran : step s = .next s.tick := by rw [step, empty]
  have held := tick_keeps State.held (fun _ _ _ => rfl) (fun _ _ => rfl) (fun _ _ => rfl) (fun _ _ _ => rfl) (fun _ _ => rfl) s
  have now := tick_keeps State.now (fun _ _ _ => rfl) (fun _ _ => rfl) (fun _ _ => rfl) (fun _ _ _ => rfl) (fun _ _ => rfl) s
  have same : (if s.boot.standby && s.boot.refOk then s.bump 63 1 else s).held = s.held := by split <;> rfl
  have all := held.trans same
  simp only [State.held, Prod.mk.injEq] at all
  obtain ⟨cells, mem, ext, sync, cmds, pending⟩ := all
  refine ⟨_, ran, ?_, cells, mem, ext, sync, cmds, pending.trans empty⟩
  rw [now, apply_ite State.now, State.now, aon_bump_self]
  rfl

/-! ### The pins -/

theorem epochOf_setEpoch_self (s : State) (p : Nat) (e : Epoch) : (s.setEpoch p e).epochOf p = e := Tab.get_set_self ..

theorem epochOf_setEpoch_other {p q : Nat} (h : p ≠ q) (s : State) (e : Epoch) : (s.setEpoch q e).epochOf p = s.epochOf p :=
  Tab.get_set_other _ _ _ _ _ h

theorem epochOf_requestBoundary_other {s : State} {p q : Nat} (h : p ≠ q) : (s.requestBoundary q false).epochOf p = s.epochOf p := by
  unfold State.requestBoundary
  split
  · rfl
  split
  · rfl
  · dsimp only
    rw [epochOf_setEpoch_other h, epochOf_setEpoch_other h]

theorem epochOf_requestBoundary_cutting {s : State} {p : Nat} (q : Nat) (h : (s.epochOf p).cutting = true) :
    (s.requestBoundary q false).epochOf p = s.epochOf p := by
  by_cases same : p = q
  · subst same
    unfold State.requestBoundary
    split <;> rfl
  · exact epochOf_requestBoundary_other same

theorem requestBoundary_requested {s : State} {p : Nat} (q : Nat) (h : (s.epochOf p).requested = true) :
    ((s.requestBoundary q false).epochOf p).requested = true := by
  unfold State.requestBoundary
  split
  · exact h
  split
  · exact h
  · dsimp only
    by_cases same : p = q
    · subst same
      rw [epochOf_setEpoch_self, epochOf_setEpoch_self]
    · rw [epochOf_setEpoch_other same, epochOf_setEpoch_other same]
      exact h

theorem requestBoundary_requests {s : State} {p : Nat} (alone : s.inSwarm = false) (h : (s.epochOf p).cutting = false) :
    ((s.requestBoundary p false).epochOf p).requested = true := by
  unfold State.requestBoundary
  rw [if_neg (by simp [alone]), if_neg (by simp [h])]
  dsimp only
  rw [epochOf_setEpoch_self, epochOf_setEpoch_self]

/-- Boundaries are requested of the partitions of a list. -/
def State.requestBoundaries (s : State) (l : List Nat) : State := foldS (fun t p => t.requestBoundary p false) s l

theorem requestBoundaries_reported (s : State) (l : List Nat) : Reported s (s.requestBoundaries l) :=
  foldS_keeps State.bare (fun _ _ => bare_requestBoundary ..) l s

theorem epochOf_requestBoundaries_cutting {p : Nat} : ∀ (l : List Nat) (s : State), (s.epochOf p).cutting = true →
    (s.requestBoundaries l).epochOf p = s.epochOf p
  | [], _, _ => rfl
  | q :: l, s, h => by
    have same := epochOf_requestBoundary_cutting q h
    exact (epochOf_requestBoundaries_cutting l (s.requestBoundary q false) (same ▸ h)).trans same

theorem requestBoundaries_requested {p : Nat} : ∀ (l : List Nat) (s : State), (s.epochOf p).requested = true →
    ((s.requestBoundaries l).epochOf p).requested = true
  | [], _, h => h
  | q :: l, s, h => requestBoundaries_requested l (s.requestBoundary q false) (requestBoundary_requested q h)

theorem requestBoundaries_requests {p : Nat} : ∀ (l : List Nat) (s : State), s.inSwarm = false → (s.epochOf p).cutting = false → p ∈ l →
    ((s.requestBoundaries l).epochOf p).requested = true
  | [], _, _, _, h => absurd h List.not_mem_nil
  | q :: l, s, alone, free, h => by
    by_cases same : p = q
    · subst same
      exact requestBoundaries_requested l _ (requestBoundary_requests alone free)
    · have kept := epochOf_requestBoundary_other (s := s) same
      have alone' : (s.requestBoundary q false).inSwarm = false :=
        (Reported.field State.inSwarm (fun _ => rfl) (bare_requestBoundary s q false)).trans alone
      exact requestBoundaries_requests l (s.requestBoundary q false) alone' (kept ▸ free) ((List.mem_cons.1 h).resolve_left same)

theorem epochOf_trace (s : State) (ty p src a b c q : Nat) : (s.trace ty p src a b c).epochOf q = s.epochOf q := by
  unfold State.trace
  split
  · split <;> rfl
  · rfl

/-- An edge of SYNC_IN, stamped. -/
def State.stamped (s : State) : State := ({ s with pins := { s.pins with inStamp := some s.now } } : State).trace 7 0 0 0 0 0

theorem syncInEdge_stamped {s : State} (live : s.live = true) (placed : s.fab.placed = true) : exec .syncInEdge s =
    .next (if s.stamped.barB 0x060000 30 then s.stamped.requestBoundaries (List.range s.stamped.parts) else s.stamped) := by
  rw [exec, execSyncInEdge, whenStandby_of_on _ (standby_of_live live), live, placed]
  rfl

theorem stamped_reported (s : State) : Reported { s with pins := { s.pins with inStamp := some s.now } } s.stamped := bare_trace ..

theorem syncIn_takes {s : State} (live : s.live = true) (placed : s.fab.placed = true) :
    ∃ t, exec .syncInEdge s = .next t ∧ t.pins.inStamp = some s.now ∧ Reported { s with pins := t.pins } t ∧
      (s.barB 0x060000 30 = true → s.inSwarm = false → ∀ p, p < s.parts → (s.epochOf p).cutting = false →
        (t.epochOf p).requested = true) ∧
      (∀ p, (s.epochOf p).cutting = true → t.epochOf p = s.epochOf p) := by
  have stamped := stamped_reported s
  have bar : s.stamped.barB 0x060000 30 = s.barB 0x060000 30 := (stamped.field (fun u => u.barB 0x060000 30) (fun _ => rfl) :)
  have parts : s.stamped.parts = s.parts := (stamped.field State.parts (fun _ => rfl) :)
  have alone : s.stamped.inSwarm = s.inSwarm := (stamped.field State.inSwarm (fun _ => rfl) :)
  have epochs : ∀ p, s.stamped.epochOf p = s.epochOf p := fun p => epochOf_trace ..
  rw [syncInEdge_stamped live placed, bar, parts]
  refine ⟨_, rfl, ?_⟩
  cases s.barB 0x060000 30 with
  | true =>
    have reported := stamped.trans (requestBoundaries_reported s.stamped (List.range s.parts))
    have pins := reported.field State.pins fun _ => rfl
    refine ⟨congrArg SyncPins.inStamp pins, ?_, fun _ solo p hp free => ?_, fun p cutting => ?_⟩
    · rw [if_pos rfl, pins]
      exact reported
    · exact requestBoundaries_requests _ s.stamped (alone.trans solo) ((epochs p).symm ▸ free) (List.mem_range.2 hp)
    · exact (epochOf_requestBoundaries_cutting _ s.stamped ((epochs p).symm ▸ cutting)).trans (epochs p)
  | false =>
    have pins := stamped.field State.pins fun _ => rfl
    refine ⟨congrArg SyncPins.inStamp pins, ?_, nofun, fun p _ => epochs p⟩
    rw [if_neg Bool.false_ne_true, pins]
    exact stamped

theorem syncPins : Claims.SyncPins := by
  refine ⟨fun s on off => ?_, fun s live => ⟨fun due late => ?_, fun t last early => ?_, syncIn_takes live⟩⟩
  · rw [exec, execSyncInEdge, whenStandby_of_on _ on]
    exact if_neg fun both => by
      rw [Bool.and_eq_true] at both
      rcases off with o | o
      · exact absurd (both.1.symm.trans o) nofun
      · exact absurd (both.2.symm.trans o) nofun
  · rw [exec, execSyncOutEdge, whenLive_of_live _ live, due, whenDue_of_due]
    swap
    · cases last : s.pins.edgeAt with
      | none => rfl
      | some t => exact decide_eq_true (late t last)
    have reported := bare_trace ({ s with pins := { s.pins with due := false, edgeAt := some s.now } } : State) 8 0 0 0 0 0
    have pins := Reported.field State.pins (fun _ => rfl) reported
    refine ⟨_, rfl, congrArg SyncPins.due pins, congrArg SyncPins.edgeAt pins, ?_⟩
    rw [pins]
    exact reported
  · rw [exec, execSyncOutEdge, whenLive_of_live _ live, last, whenDue_of_not]
    dsimp only
    rw [decide_eq_false (Nat.not_le.2 early), Bool.and_false]

/-- Settles O2: a step with no command is a tick, and the pins take their edges. -/
theorem ticksAndSyncPins : Obligations.TicksAndSyncPins := ⟨emptyQueueTicks, syncPins⟩

end Sys2Proof.Machine

/-!
PROOFS. The interleave of close memory and its inverse (O31).
-/

namespace Sys2Proof.Machine

/-! ### The fold of the higher fields -/

theorem foldl_xor_lt {b : Nat} (f : Nat → Nat) (hf : ∀ k, f k < 2 ^ b) : ∀ (l : List Nat) (x : Nat), x < 2 ^ b →
    l.foldl (fun x k => x ^^^ f k) x < 2 ^ b
  | [], _, h => h
  | k :: l, _, h => foldl_xor_lt f hf l _ (Nat.xor_lt_two_pow h (hf k))

theorem foldFields_lt (b g : Nat) : foldFields b g < 2 ^ b :=
  foldl_xor_lt _ (fun _ => Nat.mod_lt _ (Nat.two_pow_pos b)) _ 0 (Nat.two_pow_pos b)

/-- The fold leaves the lowest field out. -/
theorem foldFields_high (b g : Nat) : foldFields b (g / 2 ^ b * 2 ^ b) = foldFields b g := by
  have high : ∀ k, bits (g / 2 ^ b * 2 ^ b) ((k + 1) * b) b = bits g ((k + 1) * b) b := fun k => by
    have width : (k + 1) * b = b + k * b := by rw [Nat.add_mul, Nat.one_mul, Nat.add_comm]
    rw [bits, bits, width, Nat.pow_add, ← Nat.div_div_eq_div_mul, Nat.mul_div_cancel _ (Nat.two_pow_pos b),
      Nat.div_div_eq_div_mul]
  simp only [foldFields, high]

/-! ### Devices of a partition -/

theorem devsPer_cases (s : State) : (s.devsPer = 32 ∨ s.devsPer = 16 ∨ s.devsPer = 8) ∧ s.devsPer = 2 ^ Nat.log2 s.devsPer := by
  unfold State.devsPer State.parts
  have low : min s.boot.modeNow 2 ≤ 2 := Nat.min_le_right ..
  interval_cases min s.boot.modeNow 2 <;> decide

theorem reserveG_cases (s : State) : s.reserveG = 0 ∨ s.reserveG = 46080 := by
  unfold State.reserveG
  split
  · exact .inr rfl
  · exact .inl rfl

/-! ### Back from the reserve -/

theorem unrelocate_relocate (s : State) {d k : Nat} (hd : d < 32) (hk : k < devGranules - s.reserveG)
    (reserve : s.reserve = none ∨ (s.boot.reserveOn = true ∧ ∃ x, x < 32 ∧ s.reserve = some x)) :
    (s.relocate d k).1 < 32 ∧ (s.relocate d k).2 < devGranules ∧
      s.unrelocate (s.relocate d k).1 (s.relocate d k).2 = some (d, k) := by
  by_cases moved : s.reserve = some d
  · obtain ⟨on, -⟩ := reserve.resolve_left fun none_ => absurd (none_.symm.trans moved) nofun
    have r : s.reserveG = 46080 := if_pos on
    have place : s.relocate d k = ((if k % 31 < d then k % 31 else k % 31 + 1), devGranules - s.reserveG + k / 31) := if_pos moved
    rw [r] at hk
    rw [place, State.unrelocate, moved, r]
    unfold devGranules at hk ⊢
    dsimp only
    refine ⟨by split <;> omega, by omega, ?_⟩
    rw [if_neg (by omega), if_neg (by split <;> omega)]
    refine congrArg some (Prod.ext rfl ?_)
    dsimp only
    split
    · omega
    · split <;> omega
  · have stays : s.relocate d k = (d, k) := if_neg moved
    rw [stays, State.unrelocate]
    exact ⟨hd, hk.trans_le (Nat.sub_le ..), if_pos hk⟩

/-! ### Back from the stripes -/

/-- A device of partition `p` belongs to it. -/
theorem partOfDev_add (s : State) {p i : Nat} (hi : i < s.devsPer) : s.partOfDev (p * s.devsPer + i) = p := by
  rw [State.partOfDev, Nat.add_comm, Nat.add_mul_div_right _ _ (Nat.zero_lt_of_lt hi), Nat.div_eq_of_lt hi, Nat.zero_add]

theorem offsetOf_striped (s : State) {p g : Nat} (hg : g / s.devsPer < devGranules - s.homeG p - s.reserveG) :
    (s.striped p g).2 = g / s.devsPer ∧ (∃ i, i < s.devsPer ∧ (s.striped p g).1 = p * s.devsPer + i) ∧
      s.offsetOf (s.striped p g).1 (s.striped p g).2 = some (s.sliceStart p + 4096 * g) := by
  obtain ⟨-, pow⟩ := devsPer_cases s
  have place : s.striped p g = (p * s.devsPer + (g % s.devsPer ^^^ foldFields (Nat.log2 s.devsPer) g), g / s.devsPer) := by
    rw [State.striped, ← pow]
  have inside : g % s.devsPer ^^^ foldFields (Nat.log2 s.devsPer) g < s.devsPer := by
    have low : g % s.devsPer < 2 ^ Nat.log2 s.devsPer := pow ▸ Nat.mod_lt _ (pow ▸ Nat.two_pow_pos _)
    have := Nat.xor_lt_two_pow low (foldFields_lt (Nat.log2 s.devsPer) g)
    rwa [← pow] at this
  have high : foldFields (Nat.log2 s.devsPer) (g / s.devsPer * s.devsPer) = foldFields (Nat.log2 s.devsPer) g := by
    have := foldFields_high (Nat.log2 s.devsPer) g
    rwa [← pow] at this
  rw [place]
  refine ⟨rfl, ⟨_, inside, rfl⟩, ?_⟩
  unfold State.offsetOf
  dsimp only
  rw [partOfDev_add s inside, if_pos hg, Nat.add_sub_cancel_left, ← pow, high, Nat.xor_assoc, Nat.xor_self, Nat.xor_zero,
    Nat.mul_comm (g / s.devsPer), Nat.div_add_mod]

theorem offsetOf_home (s : State) {p i k : Nat} (hi : i < s.devsPer) (hk : k < s.homeG p) :
    s.offsetOf (p * s.devsPer + i) (devGranules - s.homeG p - s.reserveG + k) =
      some (s.sliceStart p + s.stripedBytes p + 4096 * (i * s.homeG p + k)) := by
  unfold State.offsetOf
  dsimp only
  rw [partOfDev_add s hi, if_neg (by omega), if_pos (by omega), Nat.add_sub_cancel_left, Nat.add_sub_cancel_left]

/-- The bytes past the striped part of an addressable slice fill the home granules of its devices. -/
theorem home_bytes (s : State) {p x : Nat} (home : s.homeG p ≤ devGranules - s.reserveG) (within : x < s.addressable)
    (past : ¬ x < s.stripedBytes p) : x - s.stripedBytes p < s.homeG p * 4096 * s.devsPer := by
  unfold State.addressable at within
  unfold State.stripedBytes at past ⊢
  obtain ⟨cases, -⟩ := devsPer_cases s
  rcases cases with d | d | d <;> rw [d] at within past ⊢ <;> omega

theorem mapGranule_striped (s : State) {o : Nat} (early : o - s.sliceStart (s.partOfClose o) < s.stripedBytes (s.partOfClose o)) :
    s.mapGranule o = s.striped (s.partOfClose o) ((o - s.sliceStart (s.partOfClose o)) / 4096) := if_pos early

theorem mapGranule_home (s : State) {o p y : Nat} (hp : s.partOfClose o = p) (hy : o - s.sliceStart p - s.stripedBytes p = y)
    (past : ¬ o - s.sliceStart p < s.stripedBytes p) :
    s.mapGranule o = (p * s.devsPer + y / (s.homeG p * 4096), devGranules - s.homeG p - s.reserveG + y % (s.homeG p * 4096) / 4096) := by
  subst hp hy
  exact if_neg past

/-- Where an addressable byte lies before any retirement, and back to its place in the slice. -/
theorem offsetOf_mapGranule (s : State) {o p : Nat} (hp : s.partOfClose o = p) (home : s.homeG p ≤ devGranules - s.reserveG)
    (within : o - s.sliceStart p < s.addressable) :
    (∃ i, i < s.devsPer ∧ (s.mapGranule o).1 = p * s.devsPer + i) ∧ (s.mapGranule o).2 < devGranules - s.reserveG ∧
      s.offsetOf (s.mapGranule o).1 (s.mapGranule o).2 = some (s.sliceStart p + (o - s.sliceStart p) / 4096 * 4096) := by
  by_cases early : o - s.sliceStart p < s.stripedBytes p
  · subst hp
    rw [mapGranule_striped s early]
    generalize o - s.sliceStart (s.partOfClose o) = x at early ⊢
    have granule : x / 4096 / s.devsPer < devGranules - s.homeG (s.partOfClose o) - s.reserveG := by
      rw [State.stripedBytes, Nat.mul_comm] at early
      exact Nat.div_lt_of_lt_mul (Nat.div_lt_of_lt_mul early)
    obtain ⟨second, dev, back⟩ := offsetOf_striped s granule
    refine ⟨dev, ?_, ?_⟩
    · rw [second]
      omega
    · rw [back, Nat.mul_comm (x / 4096)]
  · rw [mapGranule_home s hp rfl early]
    generalize o - s.sliceStart p = x at within early ⊢
    have size := home_bytes s home within early
    have some_ : 0 < s.homeG p * 4096 := Nat.pos_of_ne_zero fun none_ => by simp [none_] at size
    have device : (x - s.stripedBytes p) / (s.homeG p * 4096) < s.devsPer := Nat.div_lt_of_lt_mul size
    have granule : (x - s.stripedBytes p) % (s.homeG p * 4096) / 4096 < s.homeG p :=
      Nat.div_lt_of_lt_mul ((Nat.mod_lt _ some_).trans_eq (Nat.mul_comm ..))
    refine ⟨⟨_, device, rfl⟩, by dsimp only; omega, (offsetOf_home s device granule).trans (congrArg some ?_)⟩
    have bytes : ∃ m, s.stripedBytes p = 4096 * m := by
      rw [State.stripedBytes, Nat.mul_comm]
      exact ⟨_, rfl⟩
    obtain ⟨m, bytes⟩ := bytes
    have whole := Nat.div_add_mod (x - s.stripedBytes p) (s.homeG p * 4096)
    rw [Nat.mul_comm (s.homeG p), Nat.mul_assoc, Nat.mul_comm (s.homeG p)] at whole
    rw [Nat.mul_comm (s.homeG p)] at granule ⊢
    generalize (x - s.stripedBytes p) / (4096 * s.homeG p) * s.homeG p = q at whole ⊢
    omega

/-! ### Lines -/

/-- The definition as a function, as for `stageClose_eq`. -/
theorem place4K_eq : @State.place4K = fun s o => match s.mapGranule o with
    | (d, k) => s.relocate d k := rfl

/-- The definition as a function, as for `stageClose_eq`. -/
theorem lineOf_eq : @State.lineOf = fun s o => match s.place4K o with
    | (d, k) => (d, (k * 4096 + o % 4096) / 64) := rfl

theorem lineOf_of_mapGranule {s : State} {o d k : Nat} (h : s.mapGranule o = (d, k)) :
    s.lineOf o = ((s.relocate d k).1, ((s.relocate d k).2 * 4096 + o % 4096) / 64) := by
  have granule : s.place4K o = s.relocate d k := by
    rw [place4K_eq]
    beta_reduce
    rw [h]
  rw [lineOf_eq]
  beta_reduce
  generalize s.relocate d k = place at granule ⊢
  rw [granule]

theorem partOfClose_lt (s : State) {o : Nat} (ho : o < 0x2D00000000) : s.partOfClose o * s.devsPer + s.devsPer ≤ 32 ∧
    s.sliceStart (s.partOfClose o) ≤ o := by
  unfold State.sliceStart State.partOfClose State.sliceBytes devGranules
  obtain ⟨cases, -⟩ := devsPer_cases s
  rcases cases with d | d | d <;> rw [d] <;> omega

theorem sliceStart_eq (s : State) (p : Nat) : s.sliceStart p = 4096 * (p * (s.devsPer * devGranules)) := by
  rw [State.sliceStart, State.sliceBytes, Nat.mul_comm 4096, ← Nat.mul_assoc]

/-- An address of a line, from the granule of a slice that starts on a granule and the line in it. -/
theorem line_bytes {o b q : Nat} (hb : b = 4096 * q) (h : b ≤ o) :
    b + (o - b) / 4096 * 4096 + 64 * (o % 4096 / 64) = o / 64 * 64 := by
  subst hb
  obtain ⟨x, rfl⟩ := Nat.exists_eq_add_of_le h
  have low : (4096 * q + x) % 4096 = x % 4096 := by omega
  rw [Nat.add_sub_cancel_left, low]
  omega

/-- Settles O31: the place of a byte of close memory leads back to its line. -/
theorem addressMapIsOneToOne : Obligations.AddressMapIsOneToOne := by
  intro s o ho p place home within reserve
  obtain ⟨devices, start⟩ := partOfClose_lt s ho
  obtain ⟨⟨i, hi, dev⟩, granule, back⟩ := offsetOf_mapGranule s rfl home within
  have bytes := sliceStart_eq s (s.partOfClose o)
  generalize hm : s.mapGranule o = m at dev granule back
  obtain ⟨d, k⟩ := m
  obtain ⟨hd, hk, unmoved⟩ := unrelocate_relocate s (d := d) (k := k) (by omega) granule reserve
  have line : place = ((s.relocate d k).1, ((s.relocate d k).2 * 4096 + o % 4096) / 64) := lineOf_of_mapGranule hm
  rw [line]
  generalize s.relocate d k = r at hd hk unmoved ⊢
  obtain ⟨e, j⟩ := r
  have page : (j * 4096 + o % 4096) / 64 / 64 = j := by omega
  have slot : (j * 4096 + o % 4096) / 64 % 64 = o % 4096 / 64 := by omega
  unfold devGranules at hk
  dsimp only at hd hk unmoved back ⊢
  refine ⟨hd, by omega, ?_⟩
  rw [State.offsetOfLine, page, unmoved]
  dsimp only
  rw [back]
  refine congrArg some ?_
  rw [slot]
  exact line_bytes bytes start

end Sys2Proof.Machine

/-!
PROOFS. Segments of an allreduce, and the stages of the waggle path (O43).
-/

namespace Sys2Proof.Machine

/-! ### Segments -/

/-- The bytes of a chain that starts at 0 add up to its end. -/
theorem sum_steps (f : Nat → Nat) (h0 : f 0 = 0) : ∀ n, (∀ r, r < n → f r ≤ f (r + 1)) →
    ((List.range n).map fun r => f (r + 1) - f r).sum = f n
  | 0, _ => h0.symm
  | n + 1, h => by
    have ih := sum_steps f h0 n fun r hr => h r (Nat.lt_succ_of_lt hr)
    have last := h n (Nat.lt_succ_self n)
    rw [List.range_succ, List.map_append, List.sum_append, ih]
    simp only [List.map_cons, List.map_nil, List.sum_cons, List.sum_nil]
    omega

theorem chunkGroup_cases (d : Nat) : chunkGroup d = 5 ∨ chunkGroup d = 1 := by
  unfold chunkGroup
  split
  · exact .inl rfl
  · exact .inr rfl

theorem segStart_zero (d n : Nat) : segStart d n 0 = 0 := by
  simp [segStart]

theorem segStart_last (d : Nat) {n : Nat} (hn : 0 < n) : segStart d n n = cblock d := by
  unfold segStart
  dsimp only
  rw [Nat.mul_div_cancel _ hn]
  refine Nat.min_eq_left ?_
  unfold chunksOf
  rcases chunkGroup_cases d with g | g <;> rw [g] <;> omega

theorem segStart_mono (d n r : Nat) : segStart d n r ≤ segStart d n (r + 1) := by
  unfold segStart
  dsimp only
  have : (chunksOf (cblock d) + chunkGroup d - 1) / chunkGroup d * r / n ≤ (chunksOf (cblock d) + chunkGroup d - 1) / chunkGroup d * (r + 1) / n :=
    Nat.div_le_div_right (Nat.mul_le_mul_left _ (Nat.le_succ r))
  have := Nat.mul_le_mul_left (4096 * chunkGroup d) this
  omega

theorem collectiveSegments : Claims.CollectiveSegments := fun d n hn =>
  ⟨segStart_zero d n, segStart_last d hn, fun r _ => segStart_mono d n r,
    (sum_steps (segStart d n) (segStart_zero d n) n fun r _ => segStart_mono d n r).trans (segStart_last d hn)⟩

/-! ### Stages -/

/-- The neighbour of a position in a dimension is a position, whose neighbour the first is. -/
theorem neighbour_involutive : ∀ k, k < 3 → ∀ p, p < 8 → neighbour k p < 8 ∧ neighbour k (neighbour k p) = p := by decide

/-- From any position every other one is reached by going through the dimensions in order. -/
theorem neighbours_reach : ∀ p q : Fin 8, ∃ x y : Fin 8, (x.val = p ∨ x.val = neighbour 0 p) ∧
    (y.val = x ∨ y.val = neighbour 1 x) ∧ (q.val = y ∨ q.val = neighbour 2 y) := by decide

theorem stagePartners_low {n a k : Nat} (hk : k < 3) : stagePartners n a k = [a - a % 8 + neighbour k (a % 8)] := by
  interval_cases k <;> rfl

theorem mem_stagePartners_three {n a b : Nat} : b ∈ stagePartners n a 3 ↔
    b ≠ a ∧ ∃ o, o < (if n ≤ 64 then n / 8 else 8) ∧ b = a - a % 64 + 8 * o + a % 8 := by
  simp only [stagePartners, List.mem_filter, List.mem_map, List.mem_range, bne_iff_ne, ne_eq]
  constructor
  · rintro ⟨⟨o, ho, rfl⟩, other⟩
    exact ⟨other, o, ho, rfl⟩
  · rintro ⟨other, o, ho, rfl⟩
    exact ⟨⟨o, ho, rfl⟩, other⟩

theorem mem_stagePartners_four {n a b : Nat} : b ∈ stagePartners n a 4 ↔
    64 < n ∧ b ≠ a ∧ ∃ o, o < n / 64 ∧ b = 64 * o + a % 64 := by
  have partners : stagePartners n a 4 =
      if n ≤ 64 then [] else ((List.range (n / 64)).map fun b => 64 * b + a % 64).filter fun r => r != a := rfl
  rw [partners]
  split
  next low => exact ⟨fun no => absurd no List.not_mem_nil, fun high => absurd high.1 (Nat.not_lt.2 low)⟩
  next high =>
    simp only [List.mem_filter, List.mem_map, List.mem_range, bne_iff_ne, ne_eq]
    constructor
    · rintro ⟨⟨o, ho, rfl⟩, other⟩
      exact ⟨Nat.lt_of_not_le high, other, o, ho, rfl⟩
    · rintro ⟨-, other, o, ho, rfl⟩
      exact ⟨⟨o, ho, rfl⟩, other⟩

/-- The sizes that run in stages. -/
theorem inStages_iff {n : Nat} : inStages n = true ↔ n % 8 = 0 ∧ (n ≤ 64 ∨ n % 64 = 0) := by
  simp [inStages]

theorem stagePartners_symm {n a b k : Nat} (hn : inStages n = true) (ha : a < n) (hk : k < 5) (hb : b ∈ stagePartners n a k) :
    b < n ∧ a ∈ stagePartners n b k := by
  obtain ⟨eight, size⟩ := inStages_iff.1 hn
  rcases Nat.lt_or_ge k 3 with low | high
  · rw [stagePartners_low low, List.mem_singleton] at hb ⊢
    obtain ⟨inside, back⟩ := neighbour_involutive k low (a % 8) (Nat.mod_lt _ (by decide))
    have pos : b % 8 = neighbour k (a % 8) := by omega
    rw [pos, back]
    omega
  · obtain rfl | rfl : k = 3 ∨ k = 4 := by omega
    · obtain ⟨other, o, ho, rfl⟩ := mem_stagePartners_three.1 hb
      rw [mem_stagePartners_three]
      split at ho
      · refine ⟨by omega, Ne.symm other, a % 64 / 8, ?_, by omega⟩
        rw [if_pos (by assumption)]
        omega
      · refine ⟨by omega, Ne.symm other, a % 64 / 8, ?_, by omega⟩
        rw [if_neg (by assumption)]
        omega
    · obtain ⟨large, other, o, ho, rfl⟩ := mem_stagePartners_four.1 hb
      rw [mem_stagePartners_four]
      exact ⟨by omega, large, Ne.symm other, a / 64, by omega, by omega⟩

theorem stagePartners_reach {n a b : Nat} (hn : inStages n = true) (ha : a < n) (hb : b < n) : ∃ x1 x2 x3 x4,
    (x1 = a ∨ x1 ∈ stagePartners n a 0) ∧ (x2 = x1 ∨ x2 ∈ stagePartners n x1 1) ∧ (x3 = x2 ∨ x3 ∈ stagePartners n x2 2) ∧
    (x4 = x3 ∨ x4 ∈ stagePartners n x3 3) ∧ (b = x4 ∨ b ∈ stagePartners n x4 4) := by
  obtain ⟨eight, size⟩ := inStages_iff.1 hn
  obtain ⟨⟨x, hx⟩, ⟨y, hy⟩, first, second, third⟩ :=
    neighbours_reach ⟨a % 8, Nat.mod_lt _ (by decide)⟩ ⟨b % 8, Nat.mod_lt _ (by decide)⟩
  have low : ∀ k u v, k < 3 → u < 8 → v < 8 → (v = u ∨ v = neighbour k u) →
      (a - a % 8 + v = a - a % 8 + u ∨ a - a % 8 + v ∈ stagePartners n (a - a % 8 + u) k) := fun k u v hk hu hv step => by
    rw [stagePartners_low hk, List.mem_singleton]
    have pos : (a - a % 8 + u) % 8 = u := by omega
    rw [pos]
    omega
  refine ⟨a - a % 8 + x, a - a % 8 + y, a - a % 8 + b % 8, a - a % 64 + b % 64, ?_, low 1 x y (by decide) hx hy second,
    low 2 y (b % 8) (by decide) hy (by omega) third, ?_, ?_⟩
  · have := low 0 (a % 8) x (by decide) (by omega) hx first
    have here : a - a % 8 + a % 8 = a := by omega
    rwa [here] at this
  · rw [mem_stagePartners_three]
    by_cases same : a - a % 64 + b % 64 = a - a % 8 + b % 8
    · exact .inl same
    · refine .inr ⟨same, b % 64 / 8, ?_, by omega⟩
      split <;> omega
  · rw [mem_stagePartners_four]
    by_cases same : b = a - a % 64 + b % 64
    · exact .inl same
    · exact .inr ⟨by omega, same, b / 64, by omega, by omega⟩

theorem waggleReachesAll : Claims.WaggleReachesAll := fun _ hn =>
  ⟨fun _ _ _ ha hk hb => stagePartners_symm hn ha hk hb, fun _ _ ha hb => stagePartners_reach hn ha hb⟩

/-- Settles O43: the segments of an allreduce follow each other, and the stages reach every member. -/
theorem collectivePaths : Obligations.CollectivePaths := ⟨collectiveSegments, waggleReachesAll⟩

end Sys2Proof.Machine

/-!
PROOFS. Sync objects: an update reaches its object and the waits of the table; a wait outside the table is tested again
(R129, R131, R291, R304).
-/

namespace Sys2Proof.Machine

/-! ### The test of a wait -/

/-- The test of a wait, as the claims write it. -/
theorem met_iff (w : WaitEntry) (v : Word) : w.met v = true ↔ if w.eq then v = w.v else w.v.toNat ≤ v.toNat := by
  unfold WaitEntry.met
  split
  · exact beq_iff_eq
  · exact BitVec.ule_iff_toNat_le

/-! ### What the test of a table leaves -/

/-- Let the cell of a satisfied wait go on; a command or a collective looks for itself. -/
def State.resumeWaiter (s : State) (w : WaitEntry) : State :=
  match w.who with
  | .cell c => s.resumeCell c
  | _ => s

theorem testWaits_eq (s : State) (n : Nat) :
    s.testWaits n = foldS State.resumeWaiter
      { s with waits := s.waits.filter fun w => !(w.held && w.obj == n && w.met (s.obj n)) }
      (s.waits.filter fun w => w.held && w.obj == n && w.met (s.obj n)) := rfl

/-- A cell that goes on changes nothing outside the cells. -/
theorem field_of_resumeCell {α : Type} (g : State → α) (hg : ∀ s n c, g (s.setCell n c) = g s) (s : State) (n : Nat) :
    g (s.resumeCell n) = g s := by
  unfold State.resumeCell
  dsimp only
  split
  · exact hg ..
  · rfl

theorem field_of_resumeWaiter {α : Type} (g : State → α) (hg : ∀ s n c, g (s.setCell n c) = g s) (s : State)
    (w : WaitEntry) : g (s.resumeWaiter w) = g s := by
  unfold State.resumeWaiter
  split
  · exact field_of_resumeCell g hg ..
  · rfl

theorem field_of_testWaits {α : Type} (g : State → α) (hg : ∀ s n c, g (s.setCell n c) = g s)
    (hw : ∀ s w, g { s with waits := w } = g s) (s : State) (n : Nat) : g (s.testWaits n) = g s :=
  (foldS_keeps g (f := State.resumeWaiter) (field_of_resumeWaiter g hg) _ _).trans (hw ..)

theorem waits_testWaits (s : State) (n : Nat) :
    (s.testWaits n).waits = s.waits.filter fun w => !(w.held && w.obj == n && w.met (s.obj n)) :=
  foldS_keeps State.waits (f := State.resumeWaiter) (field_of_resumeWaiter _ fun _ _ _ => rfl) _ _

/-! ### Cells that go on -/

theorem run_resumeCell_self {s : State} {n o : Nat} {e j : Bool} {v : Word} (h : (s.cell n).run = .waitObj o e v j) :
    ((s.resumeCell n).cell n).run = .issuing := by
  unfold State.resumeCell
  dsimp only
  rw [h]
  exact congrArg Cell.run (State.cell_setCell_self ..)

theorem cell_resumeCell_of_issuing {s : State} {n : Nat} (h : (s.cell n).run = .issuing) : s.resumeCell n = s := by
  unfold State.resumeCell
  dsimp only
  rw [h]

theorem cell_resumeCell_other (s : State) {n m : Nat} (h : m ≠ n) : (s.resumeCell n).cell m = s.cell m := by
  unfold State.resumeCell
  dsimp only
  split
  · exact State.cell_setCell_other _ _ _ _ h
  · rfl

/-- A cell that waits or issues is, after another waiter has gone on, as before or issuing. -/
theorem resumeWaiter_issuing {s : State} {c : Nat} (h : (s.cell c).run = .issuing) (w : WaitEntry) :
    ((s.resumeWaiter w).cell c).run = .issuing := by
  unfold State.resumeWaiter
  split
  next d _ =>
    by_cases hd : d = c
    · subst hd; rw [cell_resumeCell_of_issuing h]; exact h
    · rw [cell_resumeCell_other s (Ne.symm hd)]; exact h
  · exact h

theorem foldS_resumeWaiter_issuing {c : Nat} (l : List WaitEntry) {s : State} (h : (s.cell c).run = .issuing) :
    ((foldS State.resumeWaiter s l).cell c).run = .issuing := by
  induction l generalizing s with
  | nil => exact h
  | cons w l ih => exact ih (resumeWaiter_issuing h w)

/-- Of the waits that are satisfied, each lets its cell go on. -/
theorem foldS_resumeWaiter_resumes {c o : Nat} {e j : Bool} {v : Word} {w : WaitEntry} (hc : w.who = .cell c)
    (l : List WaitEntry) {s : State} (hw : w ∈ l) (h : (s.cell c).run = .waitObj o e v j) :
    ((foldS State.resumeWaiter s l).cell c).run = .issuing := by
  induction l generalizing s with
  | nil => cases hw
  | cons x l ih =>
    by_cases hx : x.who = .cell c
    · refine foldS_resumeWaiter_issuing l ?_
      unfold State.resumeWaiter
      rw [hx]
      exact run_resumeCell_self h
    · refine ih ((List.mem_cons.1 hw).resolve_left fun he => hx (by rw [← he]; exact hc)) ?_
      unfold State.resumeWaiter
      split
      next d hd => rw [cell_resumeCell_other s fun he => hx (by rw [he]; exact hd)]; exact h
      · exact h

/-! ### An update -/

/-- In a replay an update passes its effect record, and changes an epoch only. -/
theorem field_of_passEffect {α : Type} (g : State → α) (hg : ∀ s p e, g (s.setEpoch p e) = g s) (s : State) (n : Nat) :
    g (s.passEffect n) = g s := by
  unfold State.passEffect
  dsimp only
  split
  · exact hg ..
  · rfl

theorem obj_eq_of_sync {s t : State} (h : t.sync = s.sync) (n : Nat) : t.obj n = s.obj n :=
  congrArg (fun x => Tab.get (fun _ => 0) x n) h

theorem cell_eq_of_cells {s t : State} (h : t.cells = s.cells) (n : Nat) : t.cell n = s.cell n :=
  congrArg (fun x => Tab.get (fun _ => Cell.reset) x n) h

/-- The state in which an update tests the table of its object. -/
def State.written (s : State) (g : Sig) : State :=
  { s with sync := Tab.set (fun _ => 0) s.sync g.obj (g.apply (s.obj g.obj)) }.passEffect g.obj

theorem written_field {α : Type} (f : State → α) (hf : ∀ s p e, f (s.setEpoch p e) = f s)
    (hs : ∀ s x, f { s with sync := x } = f s) (s : State) (g : Sig) : f (s.written g) = f s :=
  (field_of_passEffect f hf _ _).trans (hs ..)

theorem sync_written (s : State) (g : Sig) :
    (s.written g).sync = Tab.set (fun _ => 0) s.sync g.obj (g.apply (s.obj g.obj)) :=
  field_of_passEffect State.sync (fun _ _ _ => rfl) _ _

theorem obj_written_self (s : State) (g : Sig) : (s.written g).obj g.obj = g.apply (s.obj g.obj) := by
  unfold State.obj
  rw [sync_written]
  exact Tab.get_set_self ..

theorem obj_written_other (s : State) (g : Sig) {m : Nat} (h : m ≠ g.obj) : (s.written g).obj m = s.obj m := by
  unfold State.obj
  rw [sync_written]
  exact Tab.get_set_other _ _ _ _ _ h

theorem updateObj_local {s : State} {g : Sig} (h : g.ack = none) : s.updateObj g = (s.written g).testWaits g.obj := by
  unfold State.updateObj
  rw [h]
  rfl

theorem lineHeld_false {s : State} {l : Nat} (h : s.hostHolds l = false) (hb : s.link.bis = []) : s.lineHeld l = false := by
  simp [State.lineHeld, h, hb]

theorem syncObjectUpdates : Claims.SyncObjectUpdates := by
  intro s k g live hg hrel hack hhost hbis
  have free : s.lineHeld (objLine g.obj) = false := lineHeld_false hhost hbis
  obtain ⟨u, hu⟩ : ∃ u : State, u = { s with sigs := s.sigs.eraseIdx k } := ⟨_, rfl⟩
  have usync : u.sync = s.sync := by rw [hu]
  have ufree : u.lineHeld (objLine g.obj) = false := by rw [hu]; exact free
  have uw : u.waits = s.waits := by rw [hu]
  have step : exec (.syncObjectUpdate k) s = .next ((u.written g).testWaits g.obj) := by
    rw [exec, execSyncObjectUpdate, whenLive_of_live _ live, hg]
    simp only [withItem, free, hrel, Bool.false_and, Bool.not_false, Bool.and_self, whenFree, if_true]
    rw [← hu, State.applySig]
    simp only [ufree, Bool.false_eq_true, if_false, updateObj_local hack]
  have hsync : ((u.written g).testWaits g.obj).sync = (u.written g).sync :=
    field_of_testWaits State.sync (fun _ _ _ => rfl) (fun _ _ => rfl) _ _
  have hself : ((u.written g).testWaits g.obj).obj g.obj = g.apply (s.obj g.obj) := by
    rw [obj_eq_of_sync hsync, obj_written_self, obj_eq_of_sync usync]
  have hwaits : (u.written g).waits = s.waits := by
    rw [written_field State.waits (fun _ _ _ => rfl) (fun _ _ => rfl), uw]
  refine ⟨_, step, hself, fun m hm => ?_, ?_, ?_, ?_, fun c eq v j hmem hmet hrun => ?_⟩
  · rw [obj_eq_of_sync hsync, obj_written_other _ _ hm, obj_eq_of_sync usync]
  · rw [field_of_testWaits State.sigs (fun _ _ _ => rfl) (fun _ _ => rfl),
      written_field State.sigs (fun _ _ _ => rfl) (fun _ _ => rfl), hu]
  · rw [field_of_testWaits State.mem (fun _ _ _ => rfl) (fun _ _ => rfl),
      written_field State.mem (fun _ _ _ => rfl) (fun _ _ => rfl), hu]
  · rw [waits_testWaits, hwaits, obj_written_self, obj_eq_of_sync usync, hself]
  · rw [testWaits_eq]
    refine foldS_resumeWaiter_resumes (w := ⟨.cell c, g.obj, eq, v, true⟩) rfl _ (List.mem_filter.2 ⟨?_, ?_⟩)
      (o := g.obj) (e := eq) (v := v) (j := j) ?_
    · rw [hwaits]; exact hmem
    · rw [obj_written_self, obj_eq_of_sync usync, ← hself]
      simpa using (met_iff _ _).2 hmet
    · have hcells : (u.written g).cells = s.cells := by
        rw [written_field State.cells (fun _ _ _ => rfl) (fun _ _ => rfl), hu]
      exact (congrArg Cell.run (cell_eq_of_cells (t := { u.written g with waits := _ }) hcells c)).trans hrun

/-! ### Waits outside the table -/

theorem resumeCell_of_waiting {s : State} {n o : Nat} {e j : Bool} {v : Word} (h : (s.cell n).run = .waitObj o e v j) :
    s.resumeCell n = s.setCell n { s.cell n with run := .issuing, arch := (s.cell n).arch.advance } := by
  unfold State.resumeCell
  dsimp only
  rw [h]

theorem enterWait_met {s : State} {w : WaitEntry} (h : w.met (s.obj w.obj) = true) : s.enterWait w = s := if_pos h

theorem enterWait_unmet {s : State} {w : WaitEntry} (h : w.met (s.obj w.obj) = false) :
    s.enterWait w = { s with waits := s.waits ++ [{ w with held := !s.waitFull w.obj }] } :=
  if_neg (by rw [h]; exact Bool.false_ne_true)

/-- The poll of a cell's port. -/
theorem exec_cellWaitPoll {s : State} {n o : Nat} {e : Bool} {v : Word} (live : s.live = true)
    (hrun : (s.cell n).run = .waitObj o e v true) :
    exec (.cellWaitPoll n) s =
      let w : WaitEntry := { who := .cell n, obj := o, eq := e, v := v, held := true }
      if w.met (s.obj o) then .next (s.resumeCell n)
      else if s.waitFull o then .next s
      else .next ((s.setCell n { s.cell n with run := .waitObj o e v false }).enterWait w) := by
  rw [exec, execCellWaitPoll, whenLive_of_live _ live, hrun]

/-- The test of a command's or a collective's wait. -/
theorem exec_waitRetest {s : State} {id : Nat} {w : WaitEntry} (live : s.live = true) (hheld : w.held = false)
    (hfor : w.who.isFor id = true) (hmine : (s.waits.filter fun x => !x.held && x.who.isFor id) = [w]) :
    exec (.waitRetest id) s =
      .next (({ s with waits := s.waits.filter fun x => !(!x.held && x.who.isFor id) }).enterWait w) := by
  have hw : w ∈ s.waits := (List.mem_filter.1 (hmine ▸ List.mem_singleton_self w)).1
  have due : (s.waits.any fun x => !x.held && x.who.isFor id) = true :=
    List.any_eq_true.2 ⟨w, hw, by simp [hheld, hfor]⟩
  rw [exec, execWaitRetest, whenLive_of_live _ live, whenDue_of_due _ due]
  dsimp only
  rw [hmine]
  rfl

theorem waitsTestedAgain : Claims.WaitsTestedAgain := by
  refine ⟨fun s n o e v live hrun => ?_, fun s id w live hheld hfor hmine => ?_⟩
  · intro holds
    have hmet := met_iff ⟨.cell n, o, e, v, true⟩ (s.obj o)
    rw [exec_cellWaitPoll live hrun]
    refine ⟨fun h => ?_, fun h full => ?_, fun h room => ?_⟩
    · exact (if_pos (hmet.2 h)).trans (congrArg _ (resumeCell_of_waiting hrun))
    · exact (if_neg fun hm => h (hmet.1 hm)).trans (if_pos full)
    · have hun : WaitEntry.met ⟨.cell n, o, e, v, true⟩ (s.obj o) = false :=
        Bool.eq_false_iff.2 fun hm => h (hmet.1 hm)
      have hno : ¬ s.waitFull o = true := by rw [room]; exact Bool.false_ne_true
      refine (if_neg fun hm => h (hmet.1 hm)).trans ((if_neg hno).trans (congrArg _ ?_))
      refine (enterWait_unmet (s := s.setCell n _) hun).trans ?_
      have hfull : (s.setCell n { s.cell n with run := .waitObj o e v false }).waitFull o = false := room
      rw [hfull]
      rfl
  · intro rest
    rw [exec_waitRetest live hheld hfor hmine]
    refine ⟨fun h => congrArg _ (enterWait_met (s := { s with waits := rest }) h),
      fun h room => congrArg _ ((enterWait_unmet (s := { s with waits := rest }) h).trans ?_),
      fun h full => congrArg _ ((enterWait_unmet (s := { s with waits := rest }) h).trans ?_)⟩
    · rw [room]; rfl
    · obtain ⟨who, obj, eq, v, held⟩ := w
      cases hheld
      rw [full]
      rfl

/-- Settles O23: the update writes its object, and each wait is tested against the value it finds. -/
theorem syncObjects : Obligations.SyncObjects := by
  unfold Obligations.SyncObjects
  exact ⟨syncObjectUpdates, waitsTestedAgain⟩

end Sys2Proof.Machine

/-!
PROOFS. The decision about a packet: its port, what leaves on it, and what waits or is discarded (R390, R395, R401-R405, R411,
R416).
-/

namespace Sys2Proof.Machine

/-! ### Ports -/

theorem port_setPort_self (s : State) (k : Nat) (q : Port) : (s.setPort k q).port k = q := Tab.get_set_self ..

theorem port_setPort_other (s : State) {k j : Nat} (q : Port) (h : j ≠ k) : (s.setPort k q).port j = s.port j :=
  Tab.get_set_other _ _ _ _ _ h

/-- Bytes that join a queue change the queue only. -/
theorem queueBytes_eq (q : Port) (vc : Nat) (urgent : Bool) (bs : List Byte) :
    q.queueBytes vc urgent bs = { q with queue := (q.queueBytes vc urgent bs).queue } := by
  unfold Port.queueBytes
  dsimp only
  split
  · rfl
  · split <;> rfl

/-- Bytes join a queue for what is in the queue, whatever the rest of the port. -/
theorem queue_queueBytes_congr {q r : Port} (h : q.queue = r.queue) (vc : Nat) (urgent : Bool) (bs : List Byte) :
    (q.queueBytes vc urgent bs).queue = (r.queueBytes vc urgent bs).queue := by
  unfold Port.queueBytes
  dsimp only
  rw [h]
  split
  · rfl
  · split <;> rfl

/-- A packet that leaves a buffer changes the credits that its port owes. -/
theorem port_owe (s : State) (k vc : Nat) (p : Packet) (j : Nat) :
    ∃ o, (s.owe k vc p).port j = { s.port j with owed := o } := by
  unfold State.owe
  dsimp only
  split
  · exact ⟨_, rfl⟩
  · by_cases h : j = k
    · subst h; exact ⟨_, port_setPort_self ..⟩
    · exact ⟨_, port_setPort_other s _ h⟩

theorem field_of_owe {α : Type} (g : State → α) (hg : ∀ s k q, g (s.setPort k q) = g s) (s : State) (k vc : Nat)
    (p : Packet) : g (s.owe k vc p) = g s := by
  unfold State.owe
  dsimp only
  split
  · rfl
  · exact hg ..

/-! ### Leaving the buffers -/

theorem unpark_absent {s : State} {p : Packet} (h : ∀ e ∈ s.fab.waiting, e.2 ≠ p) : s.unpark p = s := by
  have none : (s.fab.waiting.find? fun e => e.2 == p) = none :=
    List.find?_eq_none.2 fun e he => by simpa using h e he
  unfold State.unpark
  rw [none]

/-- A packet leaves the list of those that wait, and the state is otherwise as it was but for the credits owed. -/
theorem unpark_eq (s : State) (p : Packet) :
    s.unpark p = s ∨ ∃ w, s.unpark p = { s with fab := { s.fab with waiting := w } } ∨
      ∃ k, s.unpark p = State.owe { s with fab := { s.fab with waiting := w } } k (chanOf p) p := by
  unfold State.unpark
  split
  · exact .inl rfl
  next e _ =>
    refine .inr ⟨s.fab.waiting.erase e, ?_⟩
    dsimp only
    split
    · exact .inl rfl
    · exact .inr ⟨_, rfl⟩

theorem field_of_unpark {α : Type} (g : State → α) (hp : ∀ s k q, g (s.setPort k q) = g s)
    (hw : ∀ (s : State) w, g { s with fab := { s.fab with waiting := w } } = g s) (s : State) (p : Packet) :
    g (s.unpark p) = g s := by
  obtain h | ⟨w, h | ⟨k, h⟩⟩ := unpark_eq s p
  · rw [h]
  · rw [h, hw]
  · rw [h, field_of_owe g hp, hw]

theorem port_unpark (s : State) (p : Packet) (j : Nat) : ∃ o, (s.unpark p).port j = { s.port j with owed := o } := by
  obtain h | ⟨w, h | ⟨k, h⟩⟩ := unpark_eq s p
  · exact ⟨_, by rw [h]⟩
  · exact ⟨_, by rw [h]; rfl⟩
  · obtain ⟨o, ho⟩ := port_owe { s with fab := { s.fab with waiting := w } } k (chanOf p) p j
    exact ⟨o, by rw [h, ho]; rfl⟩

/-! ### Waiting -/

theorem park_present {s : State} {f : Option Nat} {p : Packet} (h : (f, p) ∈ s.fab.waiting) (g : Option Nat) :
    s.park g p = s :=
  if_pos (List.any_eq_true.2 ⟨_, h, beq_self_eq_true p⟩)

theorem park_absent {s : State} {p : Packet} (h : ∀ e ∈ s.fab.waiting, e.2 ≠ p) (f : Option Nat) :
    s.park f p = { s with fab := { s.fab with waiting := s.fab.waiting ++ [(f, p)] } } :=
  if_neg fun ha => by
    obtain ⟨e, he, hp⟩ := List.any_eq_true.1 ha
    exact h e he (beq_iff_eq.1 hp)

/-! ### Leaving on a port -/

/-- The packet as it goes out on port `k`. -/
def onPort (p : Packet) (k : Nat) (esc : Bool) (residence : Nat) : Packet :=
  { p with age := BitVec.ofNat 11 (p.age.toNat + residence + 1), esc := p.esc || esc,
           hops := if 12 ≤ k then p.hops + 1 else p.hops }

theorem onPort_age (p : Packet) (k : Nat) (esc : Bool) (r : Nat) :
    onPort p k esc r = { p with age := p.age + BitVec.ofNat 11 (r + 1), esc := p.esc || esc,
                                hops := if 12 ≤ k then p.hops + 1 else p.hops } := by
  unfold onPort
  congr 1
  apply BitVec.eq_of_toNat_eq
  simp [BitVec.toNat_add, BitVec.toNat_ofNat, Nat.add_assoc]

/-- The port on which a packet leaves: its credits, its bucket and its queue. -/
theorem port_sendOn_self (s : State) (die k : Nat) (esc orig : Bool) (p : Packet) (r : Nat) :
    (s.sendOn die k esc orig p r).port k =
      { s.port k with
        credits := Tab.set creditInit (s.port k).credits (vcOf p.cls.toNat esc)
          ((s.port k).credit (vcOf p.cls.toNat esc) - (pktSize p + 31) / 32),
        bucket := if orig && bucketed p then (s.port k).bucket - pktSize p else (s.port k).bucket }.queueBytes
        (vcOf p.cls.toNat esc) (urgentPkt p) (pktBytes (onPort p k esc r)) := by
  cases orig <;> exact port_setPort_self ..

/-- What a packet that leaves does to the retransmit store. -/
theorem rtx_sendOn (s : State) (die k : Nat) (esc orig : Bool) (p : Packet) (r : Nat) :
    (s.sendOn die k esc orig p r).fab.rtx =
      if orig then s.fab.rtx.map fun x =>
        if x.isFor p then { x with sent := true, plane := if k < 12 then k + 1 else x.plane } else x
      else s.fab.rtx := by
  cases orig <;> rfl

theorem waiting_sendOn (s : State) (die k : Nat) (esc orig : Bool) (p : Packet) (r : Nat) :
    (s.sendOn die k esc orig p r).fab.waiting = s.fab.waiting := by
  cases orig <;> rfl

theorem outbox_sendOn (s : State) (die k : Nat) (esc orig : Bool) (p : Packet) (r : Nat) :
    (s.sendOn die k esc orig p r).fab.outbox = s.fab.outbox := by
  cases orig <;> rfl

theorem field_of_spendCtl {α : Type} (g : State → α)
    (hg : ∀ (s : State) c, g { s with fab := { s.fab with ctlCredit := c } } = g s) (s : State) (p : Packet) :
    g (s.spendCtl p) = g s := by
  unfold State.spendCtl
  split
  · split
    · exact hg ..
    · rfl
  · rfl

/-! ### The decision, case by case -/

/-- The Q-die that decides about a packet (R403). -/
def State.dieFor (s : State) (frm : Option Nat) (p : Packet) : Nat :=
  match frm with
  | some k => k / 6
  | none => match s.fab.rtx.find? fun r => r.isFor p with
    | some r => s.homeQ r.eng
    | none => 2

/-- The link that is still before a packet that is not for this module (R390). -/
def State.linkLeft (s : State) (p : Packet) : Nat := if p.dstPhys = s.fab.phys then 0 else 1

section decision
variable {s : State} {frm : Option Nat} {p : Packet} {r : Nat}

theorem decide_aged (h : 2000 ≤ p.age.toNat + r + s.linkLeft p) : s.decide_ frm p r = s.ageOut frm p :=
  if_pos (decide_eq_true (by unfold State.linkLeft at h; omega))

variable (young : p.age.toNat + r + s.linkLeft p < 2000) (good : typeClass p.type.toNat = some p.cls.toNat)
include young good

/-- A young packet of its class is decided about by its destination. -/
theorem decide_young : s.decide_ frm p r =
    if p.dstPhys = s.fab.phys then s.park frm p
    else if (match frm with
      | some k => decide (k < 12)
      | none => false) then (s.unpark p).bump 41 1
    else if frm = none ∧ !(p.srcPhys = s.fab.phys ∧ p.srcLog = s.fab.logical) then (s.unpark p).collarClamp
    else match s.choose (s.dieFor frm p) frm.isNone p with
      | some (k, esc) =>
        let s1 := (s.unpark p).sendOn (s.dieFor frm p) k esc frm.isNone p r
        if frm.isNone then s1.spendCtl p else s1.transit
      | none => if frm.isNone then s.park frm p else s.transit.park frm p := by
  have fresh : ¬ aged p (r + if p.dstPhys = s.fab.phys then 0 else 1) = true := by
    unfold State.linkLeft at young
    simp only [aged, decide_eq_true_eq]
    omega
  refine (if_neg fresh).trans ((if_neg fun h => h.1 good).trans ?_)
  cases frm <;> rfl

theorem decide_here (here : p.dstPhys = s.fab.phys) : s.decide_ frm p r = s.park frm p := by
  rw [decide_young young good, if_pos here]

variable (away : p.dstPhys ≠ s.fab.phys)
include away

theorem decide_fromSwitch {k : Nat} (hk : k < 12) : s.decide_ (some k) p r = (s.unpark p).bump 41 1 := by
  rw [decide_young young good, if_neg away]
  exact if_pos (decide_eq_true hk)

theorem decide_transit_waits {k : Nat} (hk : 12 ≤ k) (h : s.choose (k / 6) false p = none) :
    s.decide_ (some k) p r = s.transit.park (some k) p := by
  rw [decide_young young good, if_neg away]
  refine (if_neg (by simpa using hk)).trans ((if_neg (by simp)).trans ?_)
  rw [show s.choose (s.dieFor (some k) p) (some k).isNone p = none from h]
  rfl

theorem decide_transit_leaves {k j : Nat} {esc : Bool} (hk : 12 ≤ k) (h : s.choose (k / 6) false p = some (j, esc)) :
    s.decide_ (some k) p r = ((s.unpark p).sendOn (k / 6) j esc false p r).transit := by
  rw [decide_young young good, if_neg away]
  refine (if_neg (by simpa using hk)).trans ((if_neg (by simp)).trans ?_)
  rw [show s.choose (s.dieFor (some k) p) (some k).isNone p = some (j, esc) from h]
  rfl

theorem decide_clamped (h : p.srcPhys ≠ s.fab.phys ∨ p.srcLog ≠ s.fab.logical) :
    s.decide_ none p r = (s.unpark p).collarClamp := by
  rw [decide_young young good, if_neg away]
  refine (if_neg Bool.false_ne_true).trans (if_pos ⟨rfl, ?_⟩)
  simp only [Bool.not_eq_true', decide_eq_false_iff_not]
  rintro ⟨a, b⟩
  exact h.elim (· a) (· b)

variable (phys : p.srcPhys = s.fab.phys) (log : p.srcLog = s.fab.logical)
include phys log

theorem decide_origin_waits (h : s.choose (s.dieFor none p) true p = none) : s.decide_ none p r = s.park none p := by
  rw [decide_young young good, if_neg away]
  refine (if_neg Bool.false_ne_true).trans ((if_neg (by simp [phys, log])).trans ?_)
  rw [show s.choose (s.dieFor none p) (none : Option Nat).isNone p = none from h]
  rfl

theorem decide_origin_leaves {j : Nat} {esc : Bool} (h : s.choose (s.dieFor none p) true p = some (j, esc)) :
    s.decide_ none p r = ((s.unpark p).sendOn (s.dieFor none p) j esc true p r).spendCtl p := by
  rw [decide_young young good, if_neg away]
  refine (if_neg Bool.false_ne_true).trans ((if_neg (by simp [phys, log])).trans ?_)
  rw [show s.choose (s.dieFor none p) (none : Option Nat).isNone p = some (j, esc) from h]
  rfl

end decision

/-! ### Packets in transit -/

theorem ageOut_transit (s : State) (k : Nat) (p : Packet) : s.ageOut (some k) p = (s.unpark p).bump 40 1 := rfl

theorem exec_packetRoute_waiting {s : State} {k : Nat} {p : Packet} (live : s.live = true) (hk : k < 18)
    (hw : (some k, p) ∈ s.fab.waiting) (r : Nat) :
    exec (.packetRoute (some k) p r) s = .next (s.decide_ (some k) p r) := by
  rw [exec, execPacketRoute, Option.all_some, whenFormed_of_formed _ (decide_eq_true hk), whenLive_of_live _ live]
  exact if_pos (List.contains_iff_mem.2 hw)

/-- A packet that leaves on a port: its credits, its queue, and what is still to be acknowledged there. -/
theorem port_leaves (s : State) (die j : Nat) (esc : Bool) (p : Packet) (r : Nat) :
    let q := ((s.unpark p).sendOn die j esc false p r).port j
    q.credit (vcOf p.cls.toNat esc) = (s.port j).credit (vcOf p.cls.toNat esc) - (pktSize p + 31) / 32 ∧
      q.unacked = (s.port j).unacked ∧
      q.queue = ((s.port j).queueBytes (vcOf p.cls.toNat esc) (urgentPkt p) (pktBytes (onPort p j esc r))).queue := by
  obtain ⟨o, ho⟩ := port_unpark s p j
  dsimp only
  rw [port_sendOn_self, ho]
  refine ⟨?_, ?_, queue_queueBytes_congr (by rfl) ..⟩
  · rw [queueBytes_eq]
    exact Tab.get_set_self ..
  · rw [queueBytes_eq]

theorem rtx_transit (s : State) : s.transit.fab.rtx = s.fab.rtx := rfl

theorem transitDecision : Claims.TransitDecision := by
  intro s k p r live hk hw good
  rw [exec_packetRoute_waiting live hk hw]
  refine ⟨fun h => congrArg _ (decide_aged h), fun young => ⟨fun here => ?_, fun away hsw => ?_, fun away hc h => ?_,
    fun j esc away hc h => ?_⟩⟩
  · rw [decide_here young good here, park_present hw]
  · rw [decide_fromSwitch young good away hsw]
  · rw [decide_transit_waits young good away hc h]
    exact congrArg _ (park_present (s := s.transit) hw _)
  · obtain ⟨hcred, hack, hqueue⟩ := port_leaves s (k / 6) j esc p r
    refine ⟨_, congrArg _ (decide_transit_leaves young good away hc h), ?_, hcred, hack, hqueue.trans ?_⟩
    · rw [rtx_transit, rtx_sendOn, if_neg Bool.false_ne_true]
      exact field_of_unpark (fun u => u.fab.rtx) (fun _ _ _ => rfl) (fun _ _ => rfl) s p
    · rw [onPort_age]

/-! ### The port that is chosen -/

/-- The port takes the packet, and no packet of `CTL` goes before a QUENCH or MARKER there. -/
def State.takesNow (s : State) (orig : Bool) (p : Packet) (k : Nat) (esc : Bool) : Bool :=
  s.portTakes k (vcOf p.cls.toNat esc) orig p && (p.cls.toNat != 0 || urgentPkt p || !s.urgentAt k)

theorem portTakes_iff {s : State} {k vc : Nat} {orig : Bool} {p : Packet} (h : s.portTakes k vc orig p = true) :
    (s.port k).up = true ∧ (pktSize p + 31) / 32 ≤ (s.port k).credit vc := by
  simp only [State.portTakes, Bool.and_eq_true, decide_eq_true_eq] at h
  exact h.1

theorem takesNow_urgent {s : State} {orig : Bool} {p : Packet} {k : Nat} {esc : Bool} (h : s.takesNow orig p k esc = true)
    (hc : p.cls = 0) (hu : urgentPkt p = false) : s.urgentAt k = false := by
  simp only [State.takesNow, hc, hu, Bool.and_eq_true] at h
  simpa using h.2

/-- A packet of `CTL` leaves on the plane of its resend or on its escape port. -/
theorem choose_ctl {s : State} {die : Nat} {orig : Bool} {p : Packet} {j : Nat} {esc : Bool} (hc : p.cls = 0)
    (h : s.choose die orig p = some (j, esc)) :
    ((s.planeFor orig p).or (s.escapePort p)) = some j ∧ esc = false ∧ s.takesNow orig p j false = true := by
  have h0 : p.cls.toNat = 0 := congrArg BitVec.toNat hc
  unfold State.choose at h
  simp only [h0, if_true] at h
  obtain ⟨k, hk, hif⟩ := Option.bind_eq_some_iff.1 h
  split at hif
  · next ht =>
    cases hif
    exact ⟨hk, rfl, by simpa [State.takesNow, h0] using ht⟩
  · cases hif

/-- A resend of another class leaves on its plane. -/
theorem choose_plane {s : State} {die : Nat} {orig : Bool} {p : Packet} {j k : Nat} {esc : Bool} (hc : p.cls ≠ 0)
    (hp : s.planeFor orig p = some k) (h : s.choose die orig p = some (j, esc)) :
    j = k ∧ s.takesNow orig p j esc = true := by
  have h0 : p.cls.toNat ≠ 0 := fun h => hc (BitVec.eq_of_toNat_eq h)
  unfold State.choose at h
  simp only [h0, if_false, hp, Option.bind_some] at h
  split at h
  · next ht => cases h; exact ⟨rfl, ht⟩
  · split at h
    · next ht => cases h; exact ⟨rfl, ht⟩
    · cases h

/-- Another packet leaves on an adaptive port, unless only its escape route is open to it, or on its escape port. -/
theorem choose_other {s : State} {die : Nat} {orig : Bool} {p : Packet} {j : Nat} {esc : Bool} (hc : p.cls ≠ 0)
    (hp : s.planeFor orig p = none) (h : s.choose die orig p = some (j, esc)) :
    s.takesNow orig p j esc = true ∧ (esc = false ∧ p.esc = false ∧ s.barB 0x030008 0 = true ∨
      esc = true ∧ s.escapePort p = some j) := by
  have h0 : p.cls.toNat ≠ 0 := fun h => hc (BitVec.eq_of_toNat_eq h)
  unfold State.choose at h
  simp only [h0, if_false, hp] at h
  split at h
  · next k hk =>
    cases h
    refine ⟨List.find?_some (p := fun k => s.takesNow orig p k false) hk, .inl ⟨rfl, ?_⟩⟩
    split at hk
    · next hb => simpa using hb
    · cases hk
  · obtain ⟨k, hk, hif⟩ := Option.bind_eq_some_iff.1 h
    split at hif
    · next ht => cases hif; exact ⟨ht, .inr ⟨rfl, hk⟩⟩
    · cases hif

/-- The plane of a resend. -/
theorem planeFor_some {s : State} {orig : Bool} {p : Packet} {k : Nat} (h : s.planeFor orig p = some k) :
    orig = true ∧ s.barB 0x030008 0 = true ∧
      ∃ r ∈ s.fab.rtx, r.sent = true ∧ r.isFor p = true ∧ s.nextPlane r = some k := by
  unfold State.planeFor at h
  split at h
  · next hb =>
    obtain ⟨r, hr, hn⟩ := Option.bind_eq_some_iff.1 h
    have := List.find?_some hr
    simp only [Bool.and_eq_true] at hb this
    exact ⟨hb.1, hb.2, r, List.mem_of_find?_eq_some hr, this.1, this.2, hn⟩
  · cases h

theorem portChosen : Claims.PortChosen := by
  intro s die orig p j esc h
  have takes : s.takesNow orig p j esc = true ∧ (p.cls = 0 → esc = false) ∧
      (s.planeFor orig p = none → (p.cls = 0 → s.escapePort p = some j) ∧
        (p.cls ≠ 0 → esc = false ∧ p.esc = false ∧ s.barB 0x030008 0 = true ∨ esc = true ∧ s.escapePort p = some j)) ∧
      ∀ k, s.planeFor orig p = some k → j = k := by
    by_cases hc : p.cls = 0
    · obtain ⟨hport, rfl, ht⟩ := choose_ctl hc h
      refine ⟨ht, fun _ => rfl, fun hp => ⟨fun _ => ?_, fun hn => absurd hc hn⟩, fun k hp => ?_⟩
      · rwa [hp, Option.none_or] at hport
      · rw [hp, Option.some_or] at hport
        exact (Option.some.inj hport).symm
    · match hp : s.planeFor orig p with
      | some k =>
        obtain ⟨rfl, ht⟩ := choose_plane hc hp h
        exact ⟨ht, fun h0 => absurd h0 hc, fun hn => (nomatch hn), fun k hk => Option.some.inj hk⟩
      | none =>
        obtain ⟨ht, hway⟩ := choose_other hc hp h
        exact ⟨ht, fun h0 => absurd h0 hc, fun _ => ⟨fun h0 => absurd h0 hc, fun _ => hway⟩, fun k hk => (nomatch hk)⟩
  obtain ⟨ht, hctl, hnone, hsome⟩ := takes
  have hport : s.portTakes j (vcOf p.cls.toNat esc) orig p = true := (Bool.and_eq_true_iff.1 ht).1
  obtain ⟨hup, hcred⟩ := portTakes_iff hport
  refine ⟨hport, hup, hcred, hctl, fun hp => ⟨fun hroute => ?_, fun hc hroute => ?_⟩, fun k hp => ?_, takesNow_urgent ht⟩
  · by_cases hc : p.cls = 0
    · exact (hnone hp).1 hc
    · obtain ⟨he, hpe, hb⟩ | ⟨-, hesc⟩ := (hnone hp).2 hc
      · exact absurd (by simpa [he, hpe, hb] using hroute) hc
      · exact hesc
  · obtain ⟨he, hpe, hb⟩ | ⟨he, -⟩ := (hnone hp).2 hc
    · simp [hpe, hb] at hroute
    · exact he
  · exact ⟨hsome k hp, planeFor_some hp⟩

/-! ### Originated packets -/

/-- The entry of a packet that goes out is marked sent, and every entry keeps its packet. -/
theorem rtx_marked {f : Rtx → Rtx} (hf : ∀ x, (f x).pkt = x.pkt) {p : Packet}
    (hs : ∀ x, x.isFor p = true → (f x).sent = true) (l : List Rtx) :
    (∀ x ∈ l.map f, x.isFor p = true → x.sent = true) ∧ (l.map f).map Rtx.pkt = l.map Rtx.pkt := by
  have hfor : ∀ x, (f x).isFor p = x.isFor p := fun x => by unfold Rtx.isFor; rw [hf]
  refine ⟨fun y hy hp => ?_, ?_⟩
  · obtain ⟨x, -, rfl⟩ := List.mem_map.1 hy
    exact hs x (hfor x ▸ hp)
  · rw [List.map_map]
    exact List.map_congr_left fun x _ => hf x

theorem exec_packetRoute_origin {s : State} {p : Packet} (live : s.live = true) (hout : p ∈ s.fab.outbox)
    (hleave : s.mayLeave p = true) (r : Nat) :
    exec (.packetRoute none p r) s =
      .next (({ s with fab := { s.fab with outbox := s.fab.outbox.erase p } }).decide_ none p r) := by
  rw [exec, execPacketRoute, Option.all_none, whenFormed_of_formed _ rfl, whenLive_of_live _ live]
  exact if_pos (Bool.and_eq_true_iff.2 ⟨List.contains_iff_mem.2 hout, hleave⟩)

/-- An originated packet that leaves: the queue and the retransmit store. -/
theorem origin_leaves (u : State) (die j : Nat) (esc : Bool) (p : Packet) (r : Nat)
    (alone : ∀ e ∈ u.fab.waiting, e.2 ≠ p) :
    let t := ((u.unpark p).sendOn die j esc true p r).spendCtl p
    t.fab.outbox = u.fab.outbox ∧ t.fab.waiting = u.fab.waiting ∧
      (∀ x ∈ t.fab.rtx, x.isFor p = true → x.sent = true) ∧ t.fab.rtx.map Rtx.pkt = u.fab.rtx.map Rtx.pkt := by
  dsimp only
  rw [unpark_absent alone, field_of_spendCtl (fun u => u.fab.outbox) (fun _ _ => rfl), outbox_sendOn,
    field_of_spendCtl (fun u => u.fab.waiting) (fun _ _ => rfl), waiting_sendOn,
    field_of_spendCtl (fun u => u.fab.rtx) (fun _ _ => rfl), rtx_sendOn]
  refine ⟨rfl, rfl, rtx_marked (fun x => ?_) (fun x hx => ?_) _⟩
  · split <;> rfl
  · rw [if_pos hx]

theorem origin_aged (s : State) (p : Packet) :
    (s.ageOut none p).aon 40 = s.aon 40 + 1 ∧ (s.ageOut none p).fab.rtx.map Rtx.pkt = s.fab.rtx.map Rtx.pkt ∧
      ∀ r ∈ (s.ageOut none p).fab.rtx, r.isFor p = true → r.sent = true := by
  have hrtx : (s.ageOut none p).fab.rtx =
      s.fab.rtx.map fun r => if r.isFor p then { r with sent := true } else r :=
    congrArg (List.map _) (field_of_unpark (fun u => u.fab.rtx) (fun _ _ _ => rfl) (fun _ _ => rfl) s p)
  obtain ⟨hsent, hpkt⟩ := rtx_marked (p := p) (f := fun r => if r.isFor p then { r with sent := true } else r)
    (fun x => by split <;> rfl) (fun x hx => by rw [if_pos hx]) s.fab.rtx
  refine ⟨(aon_bump_self ..).trans ?_, by rw [hrtx, hpkt], by rw [hrtx]; exact hsent⟩
  rw [field_of_unpark (fun u => u.aon 40) (fun _ _ _ => rfl) (fun _ _ => rfl)]
  rfl

/-- The entry of the retransmit store that a resend names. -/
theorem find_rtx {l : List Rtx} {r : Rtx} (hr : r ∈ l)
    (only : ∀ x ∈ l, x.pkt.cls = r.pkt.cls → x.pkt.dstLog = r.pkt.dstLog → x.pkt.seq = r.pkt.seq → x = r) :
    (l.find? fun x => x.pkt.cls == r.pkt.cls && x.pkt.dstLog == r.pkt.dstLog && x.pkt.seq == r.pkt.seq) = some r := by
  match h : l.find? fun x => x.pkt.cls == r.pkt.cls && x.pkt.dstLog == r.pkt.dstLog && x.pkt.seq == r.pkt.seq with
  | none => exact absurd (List.find?_eq_none.1 h r hr) (by simp)
  | some x =>
    have hx := List.find?_some h
    simp only [Bool.and_eq_true, beq_iff_eq] at hx
    rw [h, only x (List.mem_of_find?_eq_some h) hx.1.1 hx.1.2 hx.2]

theorem resent {s : State} {r : Rtx} (live : s.live = true) (hr : r ∈ s.fab.rtx) (sent : r.sent = true)
    (hout : r.pkt ∉ s.fab.outbox) (hwait : (none, r.pkt) ∉ s.fab.waiting)
    (only : ∀ x ∈ s.fab.rtx, x.pkt.cls = r.pkt.cls → x.pkt.dstLog = r.pkt.dstLog → x.pkt.seq = r.pkt.seq → x = r) :
    ∃ t, exec (.retransmitTimeout r.pkt.cls r.pkt.dstLog r.pkt.seq) s = .next t ∧
      t.fab.outbox = s.fab.outbox ++ [r.pkt] ∧ t.fab.rtx = s.fab.rtx ∧ t.aon 43 = s.aon 43 + 1 := by
  have due : (r.sent && !s.fab.outbox.contains r.pkt && !s.fab.waiting.contains (none, r.pkt)) = true := by
    simp [sent, hout, hwait]
  rw [exec, execRetransmitTimeout, whenLive_of_live _ live, find_rtx hr only]
  exact ⟨_, if_pos due, rfl, rfl, aon_bump_self ..⟩

theorem originatedPackets : Claims.OriginatedPackets := by
  refine ⟨?_, fun s i r e live he away hleave => ?_, fun s i e live he => ⟨fun hin => ?_, fun hnone => ?_⟩,
    fun s r live hr sent hout hwait only => resent live hr sent hout hwait only⟩
  · intro s p r live hout hleave young good alone u die
    have hyoung : p.age.toNat + r + u.linkLeft p < 2000 := by
      unfold State.linkLeft
      split <;> omega
    rw [exec_packetRoute_origin live hout hleave]
    refine ⟨fun here => ?_, fun away clamp => ?_, fun away phys log => ⟨fun h => ?_, fun j esc h => ?_⟩⟩
    · rw [decide_here (s := u) hyoung good here, park_absent (s := u) alone]
    · rw [decide_clamped (s := u) hyoung good away clamp, unpark_absent (s := u) alone]
    · rw [decide_origin_waits (s := u) hyoung good away phys log h, park_absent (s := u) alone]
    · exact ⟨_, congrArg _ (decide_origin_leaves (s := u) hyoung good away phys log h), origin_leaves u _ j esc p r alone⟩
  · have due : (e.2.dstPhys != s.fab.phys && (e.1.isSome || s.mayLeave e.2)) = true := by
      match hf : e.1 with
      | none => simp [away, hleave hf]
      | some _ => simp [away]
    rw [exec, execDecideAgain, whenLive_of_live _ live, he]
    exact if_pos due
  · rw [exec, execAgeDiscard, whenLive_of_live _ live, he]
    match hf : e.1 with
    | none => exact absurd hf hin
    | some k => exact congrArg Host.Outcome.next ((congrArg (s.ageOut · e.2) hf).trans (ageOut_transit s k e.2))
  · rw [exec, execAgeDiscard, whenLive_of_live _ live, he]
    exact ⟨_, congrArg Host.Outcome.next (congrArg (s.ageOut · e.2) hnone), origin_aged s e.2⟩

/-- Settles O39, by the cases of the decision. -/
theorem fabricRouting : Obligations.FabricRouting := by
  unfold Obligations.FabricRouting
  exact ⟨transitDecision, portChosen, originatedPackets⟩

end Sys2Proof.Machine

/-!
PROOFS. The supplies: standby power comes and goes, the reference is lost, and without standby power nothing happens but that
it comes (R29, R43, R44).
-/

namespace Sys2Proof.Machine

/-! ### Standby power and the reference -/

theorem supplies : Claims.Supplies := by
  refine ⟨fun s straps off => ?_, fun s on => ?_, fun s on ok => ?_⟩
  · rw [exec, execStandbyPresent, off]
    refine ⟨_, rfl, rfl, ?_⟩
    exact Tab.get_set_self (fun _ => 0) s.dbg.aon 63 0
  · rw [exec, execStandbyLoss, whenStandby_of_on _ on]
    exact ⟨_, rfl, rfl, rfl, rfl, rfl, rfl, rfl, rfl, rfl, rfl, rfl, rfl, rfl, rfl, rfl, rfl, rfl, rfl, rfl, rfl, rfl⟩
  · rw [exec, execReferenceLoss, whenStandby_of_on _ on, whenDue_of_due _ ok]
    exact ⟨_, rfl, rfl, rfl, mem_mEvent .., rfl, rfl, rfl, rfl⟩

/-! ### What is refused -/

/-- The event does not happen. -/
def Refused (o : Host.Outcome State Fault Refusal) : Prop := ∀ t, o ≠ .next t

theorem refused_refused (r : Refusal) : Refused (.refused r) := fun _ h => nomatch h

section
variable {s : State} {k : Host.Outcome State Fault Refusal}

theorem live_of_unpowered (off : s.boot.standby = false) : s.live = false :=
  Bool.eq_false_iff.2 fun h => Bool.false_ne_true (off.symm.trans (standby_of_live h))

theorem refused_live (off : s.boot.standby = false) : Refused (whenLive s k) := by
  unfold whenLive
  rw [live_of_unpowered off]
  exact refused_refused _

theorem refused_standby (off : s.boot.standby = false) : Refused (whenStandby s k) := by
  unfold whenStandby
  rw [off]
  exact refused_refused _

theorem refused_ite {c : Prop} [Decidable c] {j : Host.Outcome State Fault Refusal} (hj : Refused j) (hk : Refused k) :
    Refused (if c then j else k) := by
  split
  · exact hj
  · exact hk

theorem refused_formed {b : Bool} (h : Refused k) : Refused (whenFormed b k) := refused_ite h (refused_refused _)

theorem refused_due {b : Bool} (h : Refused k) : Refused (whenDue b k) := refused_ite h (refused_refused _)

/-- An issue that is refused is refused whatever words it would read, -/
theorem refused_withWords {c : Nat} {g : Guard} {ranges : List (Nat × Nat)} (h : Refused k) :
    Refused (withWords c g ranges s k) := by
  unfold withWords
  refine refused_ite h ?_
  split
  · exact absurd rfl (h _)
  · exact h

/-- whatever the residue check would find, -/
theorem refused_withResidue {c : Nat} {g : Guard} {u : Upset} (h : Refused k) : Refused (withResidue c g u s k) := by
  unfold withResidue
  split
  · exact h
  · split
    · exact absurd rfl (h _)
    · exact h
  · split
    · exact absurd rfl (h _)
    · exact h

/-- in a forager too. -/
theorem refused_withChecks {r : AdderRun} (h : Refused k) : Refused (withChecks r s k) := by
  unfold withChecks
  split
  · exact h
  · split
    · exact absurd rfl (h _)
    · exact h
  · split
    · exact absurd rfl (h _)
    · exact h

theorem refused_afterSignals {n : Nat} {f : F5} (h : Refused k) : Refused (afterSignals n f s k) := by
  unfold afterSignals
  split
  · exact refused_ite (refused_refused _) h
  · exact h

/-- An access of the own memory is an issue. -/
theorem refused_touch {n : Nat} {g : Guard} {legal : Bool} {ranges : List (Nat × Nat)} {body : State → Eff}
    (off : s.boot.standby = false) : Refused (issueTouch n g legal ranges s body) :=
  refused_ite (refused_refused _) (refused_live off)

theorem refused_own {n : Nat} {f : F1} {legal : Bool} {align len : Nat} {body : Nat → State → Eff}
    (off : s.boot.standby = false) : Refused (issueOwn n f legal align len s body) := refused_touch off

theorem refused_store {n : Nat} {f : F1} {legal : Bool} {align len : Nat} {body : Nat → State → Eff}
    (off : s.boot.standby = false) : Refused (issueStore n f legal align len s body) :=
  refused_ite (refused_refused _) (refused_own off)

end

/-! ### Every event but one -/

/-- Without standby power an event of either domain is refused. -/
theorem refused_unpowered {s : State} (off : s.boot.standby = false) (c : Instr) (h : ∀ straps, c ≠ .standbyPresent straps) :
    Refused (exec c s) := by
  cases c with
  | standbyPresent straps => exact absurd rfl (h straps)
  -- the standby domain
  | referenceLoss | standbyLoss | perstAssert | perstDeassert | brakeAssert | brakeRelease | coolFaultAssert
    | leakDetected | leakSelfTest | syncInEdge | start | pwrEnRelease | vinIsolate | dynamicAddressAssign
    | mctpControl | pldmGetSensor | pldmSetEffecter | pldmPollEvent | ibi | i3cBusStuck | i3cBusRecover | getStatus
    | setRackCap | setRun | setHoldup | lights | lightsClearService | locateExpiry | readInventory | appendRework
    | readFatal | readMember | setStart | identity | attest | readLog | fwBegin | fwData | fwReceiveTimeout | fwEnd
    | fwVerifyDone | fwActivate | fwConfirm | fwAbort | ownerEnrol | ownerSetLock | ownerClearLock | ownerReplaceKey
    | ownerRelease | silentHoldEnter | coolFaultDeassert | hourCountUpdate => exact refused_standby off
  | droopTrip | droopClear | sensorSample => exact refused_formed (refused_standby off)
  -- the main domain
  | zeroFillComplete | add | sub | mul | mulh | mulhu | div | divu | rem | remu | and | or | xor | shl | shr | sra
    | min | max | cmp | plog | csrr | csrw | rdid | addi | li | lui | cmpi | andi | vadd | vsub | vmul | vfma | vfms
    | vmin | vmax | vun | vand | vor | vxor | vsh | vcmp | vsel | vperm | vslide | vcvt | vtr | vbcast | vins | vext
    | tmWait | tset | tadv | eaClr | cellWaitPoll | fenceLocal | fenceRemote | forgRefusal | br | brl | jr | loop
    | halt | kernel | kernelImageLoaded | move | forage | collect | sync | fence | epoch | powerWakeTolerance
    | powerDefaultOpp | nopCommand | commandStart | commandComplete | farCompletion | farTimeout | stream | gather
    | histogram | compact | transpose | copy | fill | foragerDescriptorComplete | liningBudgetSplit | syncObjectUpdate
    | waitRetest | hostLinkDown | hostLinkLost | watchedLinePoll | decideAgain | ageDiscard | retransmitTimeout
    | write | read | rdata | ack | refuse | sigaddPkt | sigsetPkt | relay | mgmt | quench | quenchRelease | allreduce
    | reduceScatter | allgather | broadcast | barrier | allToAll | waggle | grant | coldata | collectiveComplete
    | swarmHeartbeatSend | swarmHeartbeat | tableUpdate | admissionRequest | admissionResult | takeover | managerLost
    | faultNotice | collectiveAbort | boundaryRequest | memberDeclaredFailed | noManager | governorLoop
    | offDrainTimeout | mainDomainShutdown | riseLimitExceeded | coastClear | inletOverLimit | syncOutEdge
    | wholeModuleReset | watchdogExpiry | vinUndervoltage | vinRecover | placementGo | placementCheck
    | fwActivationTimeout | dumpComplete | istCell | istForager | istLane | istPhase | istComplete | hostLinkUp
    | fwControllersReady => exact refused_live off
  | seamPacketArrival | bankStarvation | tileMoveComplete | cellFailed | guestSwitch | guestSwitchComplete
    | saveAreaMoveComplete | voltageSettled | closeMemoryRequest | deviceRetire | scrub | windowDrainComplete
    | liningCopy | copyBeforeWrite | cellCopyBeforeWrite | foragerRetire | backInvalidateComplete | hostMemRead
    | hostMemWrite | registerWrite | cfgCommit | commitComplete | watchedLineInvalidation | farLinePoll
    | doorbellUpdate | reportLineUpdate | entryIntake | dripPointerMismatch | headLineWrite | portTrained | laneRetire
    | linkRetrain | portFailed | flitReceive | replayTimeout | idleFlit | packetRoute | powerSample | idleDepthEntry
    | wake | sensorRetrust | epochTimer | takeBoundary | drainComplete | contextWritten | localCommit | repair
    | restoreComplete | replayDone | cellReset | combReset | partitionReset | resetComplete | drainLimit | heartbeat
    | cellHung | foragerHung | controllerHung | fatalStop | demandClear | freeze | freezeRelease
    | regulatorPhaseRetire | wakeComplete => exact refused_formed (refused_live off)
  -- loads, tile moves and matrix instructions, which meet errors of the words they read
  | ld | vld | ldt | eaLdi => exact refused_withWords (refused_own off)
  | mma | accLd => exact refused_withWords (refused_touch off)
  | tm => exact refused_withWords (refused_ite (refused_refused _) (refused_touch off))
  | st => exact refused_ite (refused_withWords (refused_store off)) (refused_store off)
  | coll | forg => exact refused_withWords (refused_ite (refused_refused _) (refused_touch off))
  | vst | stt => exact refused_store off
  -- instructions with a residue check
  | eaAdd | eaAddm | eaRd | eaMerge => exact refused_withResidue (refused_live off)
  | eaSti => exact refused_withResidue (refused_store off)
  | eaAddi => exact refused_withWords (refused_withResidue (refused_own off))
  | accRd => exact refused_withWords (refused_withResidue (refused_ite (refused_refused _) (refused_touch off)))
  | reduce | scatter | csr => exact refused_formed (refused_withChecks (refused_live off))
  -- the sync port
  | sigAdd | sigSet => exact refused_ite (refused_refused _) (refused_live off)
  | waitGe | waitEq | testGe | sread => exact refused_afterSignals (refused_live off)
  | nop n w =>
    obtain ⟨f, raw⟩ := w
    cases raw with
    | none => exact refused_live off
    | some r => exact refused_formed (refused_live off)
  -- the steps of an epoch and of a recovery: a packet, or the module's own
  | markerDrain part p | markerDrained part p | markerCaptured part p | markerCommitted part p =>
    cases p <;> exact refused_formed (refused_live off)
  | recoveryStart part p =>
    cases p with
    | none => exact refused_formed (refused_live off)
    | some q => exact refused_formed (refused_due (refused_live off))
  | swarmRestored part p =>
    cases p with
    | none => exact refused_formed (refused_live off)
    | some q => exact refused_formed (refused_due (refused_ite (refused_live off) (refused_live off)))

theorem nothingWithoutStandby : Claims.NothingWithoutStandby := by
  intro c s t off step
  by_contra none
  exact refused_unpowered off c (fun straps hc => none ⟨straps, hc⟩) t step

/-- Settles O25: the supplies by their rows, and every other event because its domain has no power. -/
theorem powerDomains : Obligations.PowerDomains := by
  unfold Obligations.PowerDomains
  exact ⟨supplies, nothingWithoutStandby⟩

end Sys2Proof.Machine

/-!
PROOFS. Words that do not execute: false predicates, illegal words, types that are not accepted, and what a program fault does
(R63, R101, R105, R137, R140, R687).
-/

namespace Sys2Proof.Machine

/-! ### A predicate that is false (R63, R105) -/

/-- Nothing happens but that the pc moves on, or a fault at the word or at the end of the image. -/
def PassesOver (s : State) (n : Nat) (memory : Bool) (o : Host.Outcome State Fault Refusal) : Prop :=
  ∀ t, o = .next t → t = (s.endFence n memory).advancePc n ∨ t = (s.endFence n memory).programFault n 1 ∨
    t = (s.endFence n memory).programFault n 2

section
variable {s : State} {n : Nat} {g : Guard} {memory : Bool} {k : Host.Outcome State Fault Refusal}

theorem passesOver_refused (r : Refusal) : PassesOver s n memory (.refused r) := fun _ h => nomatch h

/-- A hold of the issue before it is decided. -/
theorem passesOver_unless {b : Bool} {r : Refusal} (h : PassesOver s n memory k) :
    PassesOver s n memory (if b = true then .refused r else k) := by
  split
  · exact passesOver_refused r
  · exact h

theorem passesOver_formed {b : Bool} (h : PassesOver s n memory k) : PassesOver s n memory (whenFormed b k) := by
  unfold whenFormed
  split
  · exact h
  · exact passesOver_refused _

variable (hg : (s.cell n).arch.guard g = false)
include hg

theorem executes_of_guard (legal : Bool) : s.executes n g legal = false := by
  simp [State.executes, hg]

theorem issue_passesOver {legal : Bool} {body : State → Eff} : PassesOver s n memory (issue n g legal memory s body) := by
  intro t h
  have guarded : ((s.endFence n memory).cell n).arch.guard g = false := by rw [State.endFence_arch, hg]
  unfold issue whenLive at h
  simp only [guarded, Bool.not_false, if_true] at h
  split at h
  · split at h
    · cases h
    · split at h
      · exact .inr (.inr (Host.Outcome.next.inj h).symm)
      · split at h
        · exact .inr (.inl (Host.Outcome.next.inj h).symm)
        · exact .inl (Host.Outcome.next.inj h).symm
  · cases h

theorem issueArch_passesOver {legal : Bool} {f : Arch → ArchEff} : PassesOver s n false (issueArch n g legal s f) :=
  issue_passesOver hg

theorem issueTouch_passesOver {legal : Bool} {ranges : List (Nat × Nat)} {body : State → Eff} :
    PassesOver s n true (issueTouch n g legal ranges s body) :=
  passesOver_unless (issue_passesOver hg)

/-- What is read counts for an instruction that executes only. -/
theorem withWords_passesOver {ranges : List (Nat × Nat)} (h : PassesOver s n memory k) :
    PassesOver s n memory (withWords n g ranges s k) := by
  unfold withWords
  simp only [executes_of_guard hg, Bool.false_and, Bool.false_eq_true, if_false]
  split
  · exact h
  · split <;> exact h

/-- A residue check counts for an instruction that executes only. -/
theorem withResidue_passesOver {u : Upset} (h : PassesOver s n memory k) :
    PassesOver s n memory (withResidue n g u s k) := by
  unfold withResidue
  simp only [executes_of_guard hg, Bool.false_and, Bool.false_eq_true, if_false]
  split
  · exact h
  · split <;> exact h
  · split
    · split <;> exact h
    · exact h

end

section
variable {s : State} {n : Nat}

theorem issueOwn_passesOver {f : F1} {legal : Bool} {align len : Nat} {body : Nat → State → Eff}
    (hg : (s.cell n).arch.guard f.g = false) : PassesOver s n true (issueOwn n f legal align len s body) :=
  issueTouch_passesOver hg

theorem issueStore_passesOver {f : F1} {legal : Bool} {align len : Nat} {body : Nat → State → Eff}
    (hg : (s.cell n).arch.guard f.g = false) : PassesOver s n true (issueStore n f legal align len s body) :=
  passesOver_unless (issueOwn_passesOver hg)

theorem execSt_passesOver {f : F1} (hg : (s.cell n).arch.guard f.g = false) : PassesOver s n true (execSt n f s) := by
  unfold execSt
  dsimp only
  split
  · exact withWords_passesOver hg (issueStore_passesOver hg)
  · exact issueStore_passesOver hg

theorem afterSignals_passesOver {f : F5} {k : Host.Outcome State Fault Refusal} (h : PassesOver s n true k) :
    PassesOver s n true (afterSignals n f s k) := by
  unfold afterSignals
  split
  · exact passesOver_unless h
  · exact h

end

/-- Every cell instruction is issued by one of the rules above, under what wraps it. -/
theorem exec_passesOver {s : State} {i : Instr} {n : Nat} {g : Guard} {memory : Bool}
    (hw : cellWord i = some (n, g, memory)) (hg : (s.cell n).arch.guard g = false) : PassesOver s n memory (exec i s) := by
  cases i with
  | add | sub | mul | mulh | mulhu | div | divu | rem | remu | and | or | xor | shl | shr | sra | min | max =>
    cases hw
    simp only [exec, execAdd, execSub, execMul, execMulh, execMulhu, execDiv, execDivu, execRem, execRemu, execAnd, execOr,
      execXor, execShl, execShr, execSra, execMin, execMax, scalarRR, scalarDiv, issueArch_passesOver hg]
  | cmp | plog | csrr | csrw | rdid | addi | li | lui | cmpi | andi | tset | tadv | eaClr =>
    cases hw
    simp only [exec, execCmp, execPlog, execCsrr, execCsrw, execRdid, execAddi, execLi, execLui, execCmpi, execAndi,
      execTset, execTadv, execEaClr, issueArch_passesOver hg]
  | vadd | vsub | vmul | vfma | vfms | vmin | vmax | vun | vand | vor | vxor | vsh | vcmp | vsel | vperm | vslide
  | vcvt | vtr | vbcast | vins | vext =>
    cases hw
    simp only [exec, execVadd, execVsub, execVmul, execVfma, execVfms, execVmin, execVmax, execVun, execVand, execVor,
      execVxor, vecBits, execVsh, execVcmp, execVsel, execVperm, execVslide, execVcvt, execVtr, execVbcast, execVins,
      execVext, issueVec, issueArch_passesOver hg]
  | br | brl | jr | loop | halt | tmWait | fenceLocal | fenceRemote =>
    cases hw
    simp only [exec, execBr, execBrl, execJr, execLoop, issueJump, execHalt, execTmWait, execFenceLocal, execFenceRemote,
      issue_passesOver hg]
  | nop c w =>
    obtain ⟨f, _ | r⟩ := w
    · cases hw
      simp only [exec, execNop, issueJump, issue_passesOver hg]
    · simp only [cellWord] at hw
      split at hw
      · cases hw
        simp only [exec, execNop]
        exact passesOver_formed (issue_passesOver hg)
      · cases hw
  | eaAdd | eaAddm | eaMerge =>
    cases hw
    exact withResidue_passesOver hg (issue_passesOver hg)
  | eaRd =>
    cases hw
    exact withResidue_passesOver hg (issueArch_passesOver hg)
  | ld | vld | ldt | eaLdi =>
    cases hw
    exact withWords_passesOver hg (issueOwn_passesOver hg)
  | eaAddi =>
    cases hw
    exact withWords_passesOver hg (withResidue_passesOver hg (issueOwn_passesOver hg))
  | st =>
    cases hw
    exact execSt_passesOver hg
  | vst | stt =>
    cases hw
    exact issueStore_passesOver hg
  | eaSti =>
    cases hw
    exact withResidue_passesOver hg (issueStore_passesOver hg)
  | mma | accLd =>
    cases hw
    exact withWords_passesOver hg (issueTouch_passesOver hg)
  | accRd =>
    cases hw
    exact withWords_passesOver hg (withResidue_passesOver hg (passesOver_unless (issueTouch_passesOver hg)))
  | tm | coll | forg =>
    cases hw
    exact withWords_passesOver hg (passesOver_unless (issueTouch_passesOver hg))
  | sigAdd | sigSet =>
    cases hw
    exact passesOver_unless (issue_passesOver hg)
  | waitGe | waitEq | testGe | sread =>
    cases hw
    exact afterSignals_passesOver (issue_passesOver hg)
  | _ => cases hw

theorem falsePredicateDoesNothing : Claims.FalsePredicateDoesNothing :=
  fun _ t _ _ _ _ hw hg h => exec_passesOver hw hg t h

/-! ### Illegal words (R100, R101) -/

/-- Cell `n` reads a word of its image, and nothing holds an access of memory. -/
def State.Fetches (s : State) (n : Nat) : Prop :=
  s.live = true ∧ s.canIssue n = true ∧ s.memHeld n = false ∧ (s.cell n).arch.pc.toNat < (s.cell n).imageLen

/-- The outcome of an illegal word: a program fault with cause 1. -/
def State.wordFault (s : State) (n : Nat) (memory : Bool) : Host.Outcome State Fault Refusal :=
  .next ((s.endFence n memory).programFault n 1)

section
variable {s : State} {n : Nat} (h : s.Fetches n)

theorem executes_of_illegal (g : Guard) : s.executes n g false = false := by simp [State.executes]

include h

theorem issue_illegal {g : Guard} {legal memory : Bool} {body : State → Eff} (hl : legal = false) :
    issue n g legal memory s body = s.wordFault n memory := by
  obtain ⟨live, can, held, pc⟩ := h
  simp [issue, whenLive, live, can, held, hl, Nat.not_le.2 pc, State.wordFault]

theorem issueTouch_illegal {g : Guard} {legal : Bool} {ranges : List (Nat × Nat)} {body : State → Eff}
    (hl : legal = false) : issueTouch n g legal ranges s body = s.wordFault n true := by
  rw [issueTouch, hl, executes_of_illegal, Bool.false_and, if_neg Bool.false_ne_true]
  exact issue_illegal h rfl

theorem issueStore_illegal {f : F1} {legal : Bool} {align len : Nat} {body : Nat → State → Eff} (hl : legal = false) :
    issueStore n f legal align len s body = s.wordFault n true := by
  rw [issueStore, hl, executes_of_illegal, Bool.false_and, Bool.false_and, if_neg Bool.false_ne_true]
  exact issueTouch_illegal h rfl

end

/-- A register word with a nonzero reserved field, or a reserved rounding mode, is illegal whatever it uses. -/
theorem legalF0_reserved {f : F0} (h : f.res ≠ 0 ∨ f.rm = 5 ∨ f.rm = 6) (u : UseF0) (ok : Bool) : legalF0 u f ok = false := by
  obtain h | h | h := h
  · have no : (f.res == 0) = false := beq_eq_false_iff_ne.2 h
    simp only [legalF0, no, Bool.and_false, Bool.false_and]
  · simp [legalF0, h]
  · simp [legalF0, h]

theorem legalF1_reserved {f : F1} (h : f.res ≠ 0) (rd ra ty : Bool) : legalF1 rd ra ty f = false := by
  have no : (f.res == 0) = false := beq_eq_false_iff_ne.2 h
  simp only [legalF1, no, Bool.and_false]

theorem legalF2_reserved {f : F2} (h : f.res ≠ 0) (ra target : Bool) : legalF2 ra target f = false := by
  have no : (f.res == 0) = false := beq_eq_false_iff_ne.2 h
  simp only [legalF2, no, Bool.and_false]

theorem legalF3_reserved {f : F3} (h : f.res ≠ 0) (tb sk ri : Bool) : legalF3 tb sk ri f = false := by
  have no : (f.res == 0) = false := beq_eq_false_iff_ne.2 h
  simp only [legalF3, no, Bool.and_false]

theorem legalF4_reserved {f : F4} (h : f.res ≠ 0) (tiles sg : Bool) : legalF4 tiles sg f = false := by
  have no : (f.res == 0) = false := beq_eq_false_iff_ne.2 h
  simp only [legalF4, no, Bool.and_false]

section
variable {s : State} {n : Nat} (h : s.Fetches n)
include h

theorem exec_reserved_F0 {f : F0} (hf : f.res ≠ 0 ∨ f.rm = 5 ∨ f.rm = 6) :
    exec (.add n f) s = s.wordFault n false ∧ exec (.div n f) s = s.wordFault n false ∧
      exec (.cmp n f) s = s.wordFault n false ∧ exec (.csrw n f) s = s.wordFault n false ∧
      exec (.vadd n f) s = s.wordFault n false ∧ exec (.vcvt n f) s = s.wordFault n false ∧
      exec (.vtr n f) s = s.wordFault n false ∧ exec (.tset n f) s = s.wordFault n false ∧
      exec (.eaClr n f) s = s.wordFault n false ∧ exec (.eaRd n f .none) s = s.wordFault n false := by
  have no (u : UseF0) (ok : Bool) : legalF0 u f ok = false := legalF0_reserved hf u ok
  have read : runEaRd n f s = s.wordFault n false := by
    simp only [runEaRd, issueArch, no, Bool.false_and, issue_illegal h rfl]
  simp only [exec, execAdd, execDiv, execCmp, execCsrw, execVadd, execVcvt, execVtr, execTset, execEaClr, scalarRR, scalarDiv,
    issueVec, issueArch, legalRR, legalV2, no, Bool.false_and, issue_illegal h rfl, true_and]
  exact withResidue_of_fault read ..

theorem exec_reserved_F1 {f : F1} (hf : f.res ≠ 0) :
    exec (.addi n f) s = s.wordFault n false ∧ exec (.cmpi n f) s = s.wordFault n false ∧
      exec (.ld n f) s = s.wordFault n true ∧ exec (.vst n f) s = s.wordFault n true ∧
      exec (.eaSti n f .none) s = s.wordFault n true := by
  have no (rd ra ty : Bool) : legalF1 rd ra ty f = false := legalF1_reserved hf rd ra ty
  have noAnd (rd ra ty b : Bool) : (legalF1 rd ra ty f && b) = false := by rw [no, Bool.false_and]
  simp only [exec, execAddi, execCmpi, execVst, issueArch, no, Bool.false_and, issue_illegal h rfl, issueStore_illegal h rfl,
    true_and]
  refine ⟨?_, ?_⟩
  · exact withWords_of_fault (issueTouch_illegal h (noAnd ..)) ..
  · exact withResidue_of_fault (issueStore_illegal h (noAnd ..)) ..

theorem exec_reserved_F3 {f : F3} (hf : f.res ≠ 0 ∨ f.cm = 3) :
    exec (.mma n f) s = s.wordFault n true ∧ exec (.accLd n f) s = s.wordFault n true ∧
      exec (.accRd n ⟨f, .none⟩) s = s.wordFault n true := by
  have noMma : (legalF3 true true false f && f.cm != 3) = false := by
    obtain hf | hf := hf
    · rw [legalF3_reserved hf, Bool.false_and]
    · simp [hf]
  have noLd : (legalF3 false false false f && f.cm == 0) = false := by
    obtain hf | hf := hf
    · rw [legalF3_reserved hf, Bool.false_and]
    · simp [hf]
  have noRd (image : Bool) : (legalF3 false false true f && (f.cm == 0 || (image && f.cm == 1))) = false := by
    obtain hf | hf := hf
    · rw [legalF3_reserved hf, Bool.false_and]
    · simp [hf]
  have read : runAccRd n f s = s.wordFault n true := by
    simp only [runAccRd, noRd, executes_of_illegal, Bool.false_and, Bool.false_eq_true, if_false]
    exact issueTouch_illegal h rfl
  exact ⟨withWords_of_fault (issueTouch_illegal h noMma) .., withWords_of_fault (issueTouch_illegal h noLd) ..,
    withWords_of_fault (withResidue_of_fault read ..) ..⟩

end

theorem reservedFieldsFault : Claims.ReservedFieldsFault := by
  intro s n live can held pc fault
  have h : s.Fetches n := ⟨live, can, held, pc⟩
  refine ⟨fun f => exec_reserved_F0 h, fun f => exec_reserved_F1 h, fun f hf => ⟨?_, ?_, ?_⟩, fun f => exec_reserved_F3 h,
    fun f hf => ⟨?_, ?_⟩, fun f w hw => ?_⟩
  · simp only [exec, execBr, issueJump, legalF2_reserved hf, issue_illegal h rfl, fault, State.wordFault]
  · simp only [exec, execLoop, issueJump, legalF2_reserved hf, issue_illegal h rfl, fault, State.wordFault]
  · simp only [exec, execHalt, legalF2_reserved hf, issue_illegal h rfl, fault, State.wordFault]
  · have noTm : legalF4 true true f = false := legalF4_reserved hf ..
    refine withWords_of_fault (o := runTm n f s) ?_ ..
    simp only [runTm, noTm, executes_of_illegal, Bool.false_and, Bool.false_eq_true, if_false]
    exact issueTouch_illegal h rfl
  · simp only [exec, execTmWait, legalF4_reserved hf, issue_illegal h rfl, fault, State.wordFault]
  · refine (whenFormed_of_formed _ ?_).trans (issue_illegal h rfl)
    rw [hw]; rfl

/-! ### Types that are not accepted (R687) -/

/-- A legal word of a type that its instruction does not accept. -/
theorem issueVec_notAccepted {s : State} {n : Nat} {f : F0} {legal accepted : Bool} {k : Arch → ArchEff}
    (hi : Issues s n f.g false) (hl : legal = true) (ha : accepted = false) :
    issueVec n f legal accepted s k = .next ((s.endFence n false).programFault n 4) := by
  rw [issueVec, hl, issueArch_executes hi]
  simp [ha]

/-- Comparison code 0 is one of every type. -/
theorem vcmpXop_zero (ty : Nat) : vcmpXop ty 0 = true := by
  unfold vcmpXop
  split
  · rfl
  · split <;> rfl

theorem vectorTypeNotAccepted : Claims.VectorTypeNotAccepted := by
  intro s n f hi hrb hrc hrm hri hres hxop fault
  have legal (rb rc rm : Bool) :
      legalF0 { rd := true, ra := true, rb := rb, rc := rc, ty := true, rm := rm } f true = true := by
    simp [legalF0, hrb, hrc, hrm, hri, hres]
  have code : (f.xop == 0) = true := beq_iff_eq.2 hxop
  have small (m : Nat) : decide (f.xop.toNat ≤ m) = true := by simp [hxop]
  refine ⟨fun h => ?_, fun h => ?_, fun h7 h8 => ?_⟩
  · have no : arithType f.ty.toNat = false := by
      simp only [arithType, Bool.or_eq_false_iff, Bool.and_eq_false_iff, decide_eq_false_iff_not]
      omega
    have cmp : vcmpXop f.ty.toNat f.xop.toNat = true := by rw [hxop]; exact vcmpXop_zero _
    simp only [exec, execVadd, execVsub, execVmul, execVfma, execVfms, execVmin, execVmax, execVun, execVcmp, legalV2, legalV3,
      legalVmm, code, cmp, Bool.true_or, legal, issueVec_notAccepted hi rfl no, fault, and_self]
  · have no : laneType f.ty.toNat = false := by
      simp only [laneType, decide_eq_false_iff_not]
      omega
    have noCvt : cvtAccepts f.xop.toNat f.ty.toNat = false := by simp [cvtAccepts, no, hxop, isMx]
    have source : decide (f.xop.toNat < 16) = true := by simp [hxop]
    simp only [exec, execVsh, execVsel, execVperm, execVslide, execVbcast, execVins, execVext, execVcvt, legalVbit, small, code,
      source, legal, issueVec_notAccepted hi rfl no, issueVec_notAccepted hi rfl noCvt, fault, and_self]
  · have no : (f.ty.toNat == 7 || f.ty.toNat == 8) = false := by simp [h7, h8]
    simp only [exec, execVtr, small, legal, issueVec_notAccepted hi rfl no, fault]

/-! ### A program fault (R137, R140) -/

/-- The cell as a fault at its current instruction leaves it. -/
def Cell.faulted (c : Cell) (cause : Nat) : Cell := { c with arch := c.arch.faultAt cause, run := .faulted }

/-- The module when the cell has stopped, before the fault is noted with its command. -/
def State.faultStored (s : State) (n cause : Nat) : State :=
  let s1 := s.setCell n ((s.cell n).faulted cause)
  { s1 with waits := s1.waits.filter fun w => w.who != Waiter.cell n }

/-- The module when the fault is noted, before the other cells of the command stop. -/
def State.faultNoted (s : State) (n cause : Nat) : State :=
  (s.faultStored n cause).noteFault n cause (s.cell n).arch.pc

theorem field_of_noteFault {α : Type} (g : State → α) (hg : ∀ (s : State) c, g (s.setCmd c) = g s) (s : State) (n cause : Nat)
    (pc : BitVec 14) : g (s.noteFault n cause pc) = g s := by
  unfold State.noteFault
  split
  · rfl
  · split
    · rfl
    · exact hg ..

theorem cells_faultStored (s : State) (n cause : Nat) :
    (s.faultStored n cause).cells = (s.setCell n ((s.cell n).faulted cause)).cells := rfl

theorem cells_faultNoted (s : State) (n cause : Nat) :
    (s.faultNoted n cause).cells = (s.setCell n ((s.cell n).faulted cause)).cells :=
  (State.noteFault_cells ..).trans (cells_faultStored ..)

theorem peers_congr {s t : State} {n : Nat} (hcmds : t.cmds = s.cmds) (hcell : (t.cell n).cmd = (s.cell n).cmd) :
    t.peers n = s.peers n := by
  unfold State.peers State.cmd
  rw [hcmds, hcell]

theorem programFault_eq (s : State) (n cause : Nat) :
    s.programFault n cause = foldS State.quenchCell (s.faultNoted n cause) (s.peers n) := by
  have same : (s.faultStored n cause).peers n = s.peers n :=
    peers_congr rfl (by rw [State.cell_congr (cells_faultStored ..), State.cell_setCell_self]; rfl)
  rw [← same]
  rfl

theorem field_of_quenchCell {α : Type} (g : State → α) (hc : ∀ (s : State) n c, g (s.setCell n c) = g s)
    (hw : ∀ (s : State) w, g { s with waits := w } = g s) (s : State) (n : Nat) : g (s.quenchCell n) = g s := by
  unfold State.quenchCell
  dsimp only
  split
  · exact (hw ..).trans (hc ..)
  · rfl

theorem field_of_programFault {α : Type} (g : State → α) (hc : ∀ (s : State) n c, g (s.setCell n c) = g s)
    (hw : ∀ (s : State) w, g { s with waits := w } = g s) (hcmd : ∀ (s : State) c, g (s.setCmd c) = g s) (s : State)
    (n cause : Nat) : g (s.programFault n cause) = g s := by
  rw [programFault_eq, foldS_keeps g (f := State.quenchCell) (field_of_quenchCell g hc hw)]
  exact (field_of_noteFault g hcmd ..).trans ((hw ..).trans (hc ..))

/-- The cell that faults. -/
theorem cell_programFault_self (s : State) (n cause : Nat) :
    (s.programFault n cause).cell n = (s.cell n).faulted cause := by
  rw [programFault_eq, foldS_quenchCell_cell _ _ (State.not_mem_peers s n), State.cell_congr (cells_faultNoted ..),
    State.cell_setCell_self]

/-- A cell that runs no part of the command. -/
theorem cell_programFault_other (s : State) {n m : Nat} (cause : Nat) (hm : m ≠ n) (hp : m ∉ s.peers n) :
    (s.programFault n cause).cell m = s.cell m := by
  rw [programFault_eq, foldS_quenchCell_cell _ _ hp, State.cell_congr (cells_faultNoted ..),
    State.cell_setCell_other _ _ _ _ hm]

/-- A quenched cell stops, with its registers as they were. -/
theorem cell_quenchCell_self {s : State} {m : Nat} (h : (s.cell m).run.active = true) :
    (s.quenchCell m).cell m = { s.cell m with run := .quenched } := by
  unfold State.quenchCell
  dsimp only
  rw [if_pos h]
  exact State.cell_setCell_self ..

theorem quenchCell_of_stopped {s : State} {m : Nat} (h : (s.cell m).run.active = false) : s.quenchCell m = s :=
  if_neg (by rw [h]; exact Bool.false_ne_true)

theorem foldS_quenchCell_stopped {m : Nat} (l : List Nat) {s : State} (h : (s.cell m).run.active = false) :
    (foldS State.quenchCell s l).cell m = s.cell m := by
  induction l generalizing s with
  | nil => rfl
  | cons k l ih =>
    by_cases hk : m = k
    · subst hk
      exact (ih (by rw [quenchCell_of_stopped h]; exact h)).trans (by rw [quenchCell_of_stopped h])
    · have same := s.quenchCell_cell_other hk
      exact (ih (by rw [same]; exact h)).trans same

theorem foldS_quenchCell_active {m : Nat} (l : List Nat) {s : State} (hm : m ∈ l) (h : (s.cell m).run.active = true) :
    (foldS State.quenchCell s l).cell m = { s.cell m with run := .quenched } := by
  induction l generalizing s with
  | nil => cases hm
  | cons k l ih =>
    by_cases hk : m = k
    · subst hk
      have stopped := cell_quenchCell_self h
      exact (foldS_quenchCell_stopped l (s := s.quenchCell m) (by rw [stopped]; rfl)).trans stopped
    · have same := s.quenchCell_cell_other hk
      exact (ih (s := s.quenchCell k) ((List.mem_cons.1 hm).resolve_left hk) (by rw [same]; exact h)).trans (by rw [same])

/-- The other cells of the command that still issue. -/
theorem cell_programFault_peer {s : State} {n m : Nat} (cause : Nat) (hp : m ∈ s.peers n)
    (h : (s.cell m).run.active = true) : (s.programFault n cause).cell m = { s.cell m with run := .quenched } := by
  have hm : m ≠ n := fun e => State.not_mem_peers s n (e ▸ hp)
  have same : (s.faultNoted n cause).cell m = s.cell m := by
    rw [State.cell_congr (cells_faultNoted ..), State.cell_setCell_other _ _ _ _ hm]
  rw [programFault_eq, foldS_quenchCell_active _ hp (by rw [same]; exact h), same]

/-! ### The fields of `xstat` (R137) -/

/-- Bits of a word below another one. -/
theorem bits_mod (x lo n m : Nat) (h : lo + n ≤ m) : bits (x % 2 ^ m) lo n = bits x lo n := by
  refine Nat.eq_of_testBit_eq fun i => ?_
  simp only [bits, Nat.testBit_mod_two_pow, Nat.testBit_div_two_pow]
  by_cases hi : i < n
  · have : i + lo < m := by omega
    simp [hi, this]
  · simp [hi]

theorem bits_setBits_self (w lsb width v : Nat) : bits (setBits w lsb width v) lsb width = v % 2 ^ width := by
  refine Nat.eq_of_testBit_eq fun i => ?_
  simp only [bits, Nat.testBit_mod_two_pow, Nat.testBit_div_two_pow, testBit_setBits]
  by_cases hi : i < width
  · have : lsb ≤ i + lsb ∧ i + lsb < lsb + width := by omega
    simp [hi, this]
  · simp [hi]

theorem bits_setBits_other (w lsb width v lo n : Nat) (h : lo + n ≤ lsb ∨ lsb + width ≤ lo) :
    bits (setBits w lsb width v) lo n = bits w lo n := by
  refine Nat.eq_of_testBit_eq fun i => ?_
  simp only [bits, Nat.testBit_mod_two_pow, Nat.testBit_div_two_pow, testBit_setBits]
  by_cases hi : i < n
  · have : ¬ (lsb ≤ i + lo ∧ i + lo < lsb + width) := by omega
    simp [hi, this]
  · simp [hi]

/-- A fault records its cause and its pc, and keeps the flags. -/
theorem faultAt_fields (a : Arch) {cause : Nat} (h : cause < 16) :
    bits (a.faultAt cause).xstat.toNat 8 4 = cause ∧ bits (a.faultAt cause).xstat.toNat 12 14 = a.pc.toNat ∧
      bits (a.faultAt cause).xstat.toNat 0 7 = bits a.xstat.toNat 0 7 := by
  have word : (a.faultAt cause).xstat.toNat = setBits (setBits a.xstat.toNat 8 4 cause) 12 14 a.pc.toNat % 2 ^ 32 :=
    BitVec.toNat_ofNat ..
  rw [word]
  refine ⟨?_, ?_, ?_⟩
  · rw [bits_mod _ _ _ _ (by omega), bits_setBits_other _ _ _ _ _ _ (by omega), bits_setBits_self]
    exact Nat.mod_eq_of_lt h
  · rw [bits_mod _ _ _ _ (by omega), bits_setBits_self, Nat.mod_eq_of_lt a.pc.isLt]
  · rw [bits_mod _ _ _ _ (by omega), bits_setBits_other _ _ _ _ _ _ (by omega),
      bits_setBits_other _ _ _ _ _ _ (by omega)]

theorem programFaultStopsTheCommand : Claims.ProgramFaultStopsTheCommand := by
  intro s n k hk t a
  have self : t.cell n = (s.cell n).faulted k := cell_programFault_self s n k
  obtain ⟨hcause, hpc, hflags⟩ := faultAt_fields a hk
  rw [self]
  refine ⟨rfl, ?_, ?_, ?_, hcause, hpc, hflags, rfl, fun m hp h => ?_, fun m hm hp => cell_programFault_other s k hm hp⟩
  · exact field_of_programFault State.mem (fun _ _ _ => rfl) (fun _ _ => rfl) (fun _ _ => rfl) s n k
  · exact field_of_programFault State.ext (fun _ _ _ => rfl) (fun _ _ => rfl) (fun _ _ => rfl) s n k
  · exact field_of_programFault State.sync (fun _ _ _ => rfl) (fun _ _ => rfl) (fun _ _ => rfl) s n k
  · rw [cell_programFault_peer k hp h]
    exact ⟨rfl, rfl⟩

/-- Settles O15: an illegal word and a false predicate are found before the instruction, and a fault stops the cells of its
command. -/
theorem instructionFaults : Obligations.InstructionFaults := by
  unfold Obligations.InstructionFaults
  exact ⟨vectorTypeNotAccepted, falsePredicateDoesNothing, reservedFieldsFault, programFaultStopsTheCommand⟩

end Sys2Proof.Machine

/-!
PROOFS. What an instruction on registers leaves as it was (O9): each writes the registers that its row names, and issue changes
its cell only.
-/

namespace Sys2Proof.Machine

/-! ### Registers after a write to another one (R45) -/

theorem Arch.sreg_setS_other (a : Arch) {r k : Nat} (x : Word) (h : k ≠ r) : (a.setS r x).sreg k = a.sreg k := by
  unfold Arch.setS
  split
  · rfl
  · exact congrArg (fun y => if k = 0 then 0 else y) (Tab.get_set_other _ _ _ _ _ h)

/-- A predicate after a write to another one. -/
theorem Arch.preg_setP_other (a : Arch) {r k : Nat} (b : Bool) (hk : k < 8) (h : k ≠ r) :
    (a.setP r b).preg k = a.preg k := by
  have mask : (1#8 <<< r).getLsbD k = false := by
    rw [BitVec.getLsbD_shiftLeft]
    by_cases low : k < r
    · simp [low]
    · have : k - r ≠ 0 := by omega
      simp [this, BitVec.getLsbD_one]
  unfold Arch.setP Arch.preg
  split
  · rfl
  · split
    · rfl
    · split
      · simp only [BitVec.getLsbD_or, mask, Bool.or_false]
      · simp only [BitVec.getLsbD_and, BitVec.getLsbD_not, mask, hk, decide_true, Bool.not_false, Bool.and_true]

theorem Arch.flags_zero (a : Arch) : a.flags 0 = a := by
  have : a.xstat ||| BitVec.ofNat 32 (0 % 128) = a.xstat := by simp
  unfold Arch.flags
  rw [this]

/-- Lanes that set no flag set none together. -/
theorem laneFlags_zero {ty : Nat} {g : Nat → Nat} (h : ∀ l, g l = 0) : laneFlags ty g = 0 := by
  have zeros : ∀ xs : List Nat, (xs.map g).foldl orf 0 = 0 := by
    intro xs
    induction xs with
    | nil => rfl
    | cons x xs ih => rw [List.map_cons, List.foldl_cons, h]; exact ih
  exact zeros _

/-! ### The architected state that an instruction may change (R103, R112, R120, R134, R136) -/

/-- From `a` to `b` no register of cell `n` changes but the ones that the row of `i` names, and no flag or mode but where the row
says so. -/
structure ArchFrame (i : Instr) (n : Nat) (a b : Arch) : Prop where
  sreg : ∀ r, destS i ≠ some r → b.sreg r = a.sreg r
  vreg : ∀ r, destV i ≠ some r → b.vreg r = a.vreg r
  ereg : ∀ r, destE i ≠ some r → b.ereg r = a.ereg r
  preg : ∀ r, r < 8 → destP i ≠ some r → b.preg r = a.preg r
  treg : ∀ r, destT i ≠ some r → b.treg r = a.treg r
  acc : b.acc = a.acc
  xstat : setsFlags i = false → b.xstat = a.xstat
  modes : (∀ f, i ≠ .csrw n f) → b.rmode = a.rmode ∧ b.seed = a.seed ∧ b.amode = a.amode

namespace ArchFrame
variable {i : Instr} {n r : Nat} {a b : Arch}

theorem refl : ArchFrame i n a a :=
  ⟨fun _ _ => rfl, fun _ _ => rfl, fun _ _ => rfl, fun _ _ _ => rfl, fun _ _ => rfl, rfl, fun _ => rfl, fun _ => ⟨rfl, rfl, rfl⟩⟩

/-- The program counter is no register that a row names. -/
theorem jump (h : ArchFrame i n a b) (pc : BitVec 14) : ArchFrame i n a { b with pc := pc } :=
  ⟨h.sreg, h.vreg, h.ereg, h.preg, h.treg, h.acc, h.xstat, h.modes⟩

theorem advance (h : ArchFrame i n a b) : ArchFrame i n a b.advance := h.jump _

theorem setS (h : destS i = some r) (x : Word) : ArchFrame i n a (a.setS r x) := by
  have other : ∀ k, destS i ≠ some k → (a.setS r x).sreg k = a.sreg k := fun k hk =>
    a.sreg_setS_other x fun e => hk (e ▸ h)
  refine ⟨other, ?_, ?_, ?_, ?_, ?_, ?_, ?_⟩ <;> unfold Arch.setS <;> split <;> simp [Arch.vreg, Arch.ereg, Arch.preg, Arch.treg]

theorem setV (h : destV i = some r) (x : BitVec 2048) : ArchFrame i n a (a.setV r x) :=
  ⟨fun _ _ => rfl, fun _ hk => Tab.get_set_other _ _ _ _ _ fun e => hk (e ▸ h), fun _ _ => rfl, fun _ _ _ => rfl, fun _ _ => rfl,
    rfl, fun _ => rfl, fun _ => ⟨rfl, rfl, rfl⟩⟩

theorem setE (h : destE i = some r) (x : BitVec 640) : ArchFrame i n a (a.setE r x) :=
  ⟨fun _ _ => rfl, fun _ _ => rfl, fun _ hk => Tab.get_set_other _ _ _ _ _ fun e => hk (e ▸ h), fun _ _ _ => rfl, fun _ _ => rfl,
    rfl, fun _ => rfl, fun _ => ⟨rfl, rfl, rfl⟩⟩

theorem setT (h : destT i = some r) (x : BitVec 256) : ArchFrame i n a (a.setT r x) :=
  ⟨fun _ _ => rfl, fun _ _ => rfl, fun _ _ => rfl, fun _ _ _ => rfl, fun _ hk => Tab.get_set_other _ _ _ _ _ fun e => hk (e ▸ h),
    rfl, fun _ => rfl, fun _ => ⟨rfl, rfl, rfl⟩⟩

theorem setP (h : destP i = some r) (x : Bool) : ArchFrame i n a (a.setP r x) := by
  have other : ∀ k, k < 8 → destP i ≠ some k → (a.setP r x).preg k = a.preg k := fun k hk hne =>
    a.preg_setP_other x hk fun e => hne (e ▸ h)
  refine ⟨?_, ?_, ?_, other, ?_, ?_, ?_, ?_⟩ <;> unfold Arch.setP <;> split <;> simp [Arch.sreg, Arch.vreg, Arch.ereg, Arch.treg]

theorem flags (h : setsFlags i = true) (hb : ArchFrame i n a b) (f : Nat) : ArchFrame i n a (b.flags f) :=
  ⟨hb.sreg, hb.vreg, hb.ereg, hb.preg, hb.treg, hb.acc, fun no => absurd (no.symm.trans h) Bool.false_ne_true, hb.modes⟩

end ArchFrame

/-! ### Results of lanes -/

section
variable {i : Instr} {n : Nat} {a b : Arch} {f : F0}

theorem archFrame_vecResult (hd : destV i = some f.rd.toNat) (hf : setsFlags i = true) {r : Nat × Nat}
    (h : vecResult a f.rd r = .ok b) : ArchFrame i n a b := by
  cases h
  exact (ArchFrame.setV hd _).flags hf _

theorem archFrame_laneWise (hd : destV i = some f.rd.toNat) (hf : setsFlags i = true) {op : Nat → Nat × Nat}
    (h : laneWise a f op = .ok b) : ArchFrame i n a b := archFrame_vecResult hd hf h

/-- Lanes that set no flag leave `xstat`. -/
theorem archFrame_laneWise_quiet (hd : destV i = some f.rd.toNat) {op : Nat → Nat × Nat} (hop : ∀ l, (op l).2 = 0)
    (h : laneWise a f op = .ok b) : ArchFrame i n a b := by
  unfold laneWise vecResult at h
  rw [mapLanes_flags, laneFlags_zero hop, Arch.flags_zero] at h
  cases h
  exact .setV hd _

theorem archFrame_setCsr {code : Nat} {x : Word} (h : a.setCsr code x = .ok b) : ArchFrame (.csrw n f) n a b := by
  unfold Arch.setCsr at h
  split at h
  · split at h <;> cases h
    exact ⟨fun _ _ => rfl, fun _ _ => rfl, fun _ _ => rfl, fun _ _ _ => rfl, fun _ _ => rfl, rfl, nofun, fun no => absurd rfl (no f)⟩
  · cases h
    exact ⟨fun _ _ => rfl, fun _ _ => rfl, fun _ _ => rfl, fun _ _ _ => rfl, fun _ _ => rfl, rfl, nofun, fun no => absurd rfl (no f)⟩
  · split at h <;> cases h
    exact ⟨fun _ _ => rfl, fun _ _ => rfl, fun _ _ => rfl, fun _ _ _ => rfl, fun _ _ => rfl, rfl, nofun, fun no => absurd rfl (no f)⟩
  · cases h
    exact ⟨fun _ _ => rfl, fun _ _ => rfl, fun _ _ => rfl, fun _ _ _ => rfl, fun _ _ => rfl, rfl, nofun, fun no => absurd rfl (no f)⟩

end

/-! ### The module around the cell -/

/-- A step of cell `n` from `s` to `t` on the registers that the row of `i` names. -/
structure RegisterStep (i : Instr) (n : Nat) (s t : State) : Prop where
  rest : t = { s with cells := t.cells, dbg := { s.dbg with part := t.dbg.part } }
  others : ∀ m, m ≠ n → t.cell m = s.cell m
  own : t.cell n = { s.cell n with arch := (t.cell n).arch, fence := (t.cell n).fence, run := (t.cell n).run }
  arch : ArchFrame i n (s.cell n).arch (t.cell n).arch

namespace RegisterStep
variable {i : Instr} {n : Nat} {s t : State}

/-- The cell goes on with new registers. -/
theorem setCell {a : Arch} (h : ArchFrame i n (s.cell n).arch a) (r : Run) :
    RegisterStep i n s (s.setCell n { s.cell n with arch := a, run := r }) := by
  refine ⟨rfl, fun m hm => State.cell_setCell_other _ _ _ _ hm, ?_, ?_⟩
  · rw [State.cell_setCell_self]
  · rw [State.cell_setCell_self]; exact h

theorem setArch {a : Arch} (h : ArchFrame i n (s.cell n).arch a) :
    RegisterStep i n s (s.setCell n { s.cell n with arch := a }) := setCell h (s.cell n).run

/-- Counts of the partition are no part of the cell. -/
theorem bumpComb (h : RegisterStep i n s t) (c code k : Nat) : RegisterStep i n s (t.bumpComb c code k) := by
  refine ⟨?_, h.others, h.own, h.arch⟩
  conv_lhs => rw [h.rest]
  rfl

/-- A fence that ends before the instruction changes the cell's fence only. -/
theorem of_endFence {memory : Bool} (h : RegisterStep i n (s.endFence n memory) t) : RegisterStep i n s t := by
  obtain e | e := s.endFence_cases n memory
  · rwa [e] at h
  · rw [e] at h
    obtain ⟨rest, others, own, arch⟩ := h
    rw [State.cell_setCell_self] at own arch
    exact ⟨rest, fun m hm => (others m hm).trans (State.cell_setCell_other _ _ _ _ hm), own, arch⟩

end RegisterStep

section
variable {i : Instr} {n : Nat} {s t : State} {g : Guard} {legal memory : Bool} (going : (t.cell n).run ≠ .faulted)
include going

/-- Issue itself moves the pc; what else changes is what the instruction does. -/
theorem registerStep_of_issue {body : State → Eff} (h : issue n g legal memory s body = .next t)
    (hb : body (s.endFence n memory) = .done t → RegisterStep i n (s.endFence n memory) t) : RegisterStep i n s t := by
  obtain ⟨-, -, ⟨k, rfl⟩ | ⟨-, rfl⟩ | ⟨-, -, hdone⟩⟩ := issue_next h
  · exact absurd (State.programFault_run ..) going
  · exact (RegisterStep.setArch ArchFrame.refl.advance).of_endFence
  · exact (hb hdone).of_endFence

theorem registerStep_of_issueArch {f : Arch → ArchEff} (h : issueArch n g legal s f = .next t)
    (hf : ∀ b, f (s.cell n).arch = .ok b → ArchFrame i n (s.cell n).arch b) : RegisterStep i n s t := by
  refine registerStep_of_issue going h fun hdone => ?_
  dsimp only at hdone
  rw [State.endFence_arch] at hdone
  cases e : f (s.cell n).arch with
  | fault k => rw [e] at hdone; cases hdone
  | ok b =>
    rw [e] at hdone
    cases hdone
    refine RegisterStep.setArch ?_
    rw [State.endFence_arch]
    exact (hf b e).advance

theorem registerStep_of_scalarRR {f : F0} {op : Word → Word → Word} (hd : destS i = some f.rd.toNat)
    (h : scalarRR n f legal s op = .next t) : RegisterStep i n s t := by
  refine registerStep_of_issueArch going h fun b hb => ?_
  cases hb
  exact .setS hd _

theorem registerStep_of_scalarDiv {f : F0} {byZero : Word → Word} {op : Word → Word → Word} (hd : destS i = some f.rd.toNat)
    (hf : setsFlags i = true) (h : scalarDiv n f s byZero op = .next t) : RegisterStep i n s t := by
  refine registerStep_of_issueArch going h fun b hb => ?_
  dsimp only at hb
  split at hb <;> cases hb
  · exact (ArchFrame.setS hd _).flags hf _
  · exact .setS hd _

theorem registerStep_of_issueVec {f : F0} {accepted : Bool} {k : Arch → ArchEff}
    (h : issueVec n f legal accepted s k = .next t)
    (hk : ∀ b, k (s.cell n).arch = .ok b → ArchFrame i n (s.cell n).arch b) : RegisterStep i n s t := by
  refine registerStep_of_issueArch going h fun b hb => ?_
  split at hb
  · exact hk b hb
  · cases hb

theorem registerStep_of_vecBits {f : F0} {op : BitVec 2048 → BitVec 2048 → BitVec 2048} (hd : destV i = some f.rd.toNat)
    (h : vecBits n f s op = .next t) : RegisterStep i n s t := by
  refine registerStep_of_issueVec going h fun b hb => ?_
  cases hb
  exact .setV hd _

theorem registerStep_of_issueJump {f : F2} {k : Arch → ArchEff} (h : issueJump n f legal s k = .next t)
    (hk : ∀ b, k (s.cell n).arch = .ok b → ArchFrame i n (s.cell n).arch b) : RegisterStep i n s t := by
  refine registerStep_of_issue going h fun hdone => ?_
  dsimp only at hdone
  rw [State.endFence_arch] at hdone
  cases e : k (s.cell n).arch with
  | fault c => rw [e] at hdone; cases hdone
  | ok b =>
    rw [e] at hdone
    cases hdone
    refine RegisterStep.setArch ?_
    rw [State.endFence_arch]
    exact hk b e

end

/-! ### Exact accumulators and objects -/

section
variable {i : Instr} {n : Nat} {s t : State}

theorem registerStep_of_eaDone {rd : BitVec 5} {x flags values : Nat} (hd : destE i = some rd.toNat)
    (hf : setsFlags i = true) (h : eaDone s n rd x flags values = .done t) : RegisterStep i n s t := by
  cases h
  exact (RegisterStep.setArch ((ArchFrame.setE hd _).flags hf _).advance).bumpComb _ _ _

theorem registerStep_of_eaAddLanes {f : F0} {lanes : List Nat} (hd : destE i = some f.rd.toNat) (hf : setsFlags i = true)
    (h : eaAddLanes s n f lanes = .done t) : RegisterStep i n s t := by
  unfold eaAddLanes at h
  dsimp only at h
  split at h
  · cases h
  · exact registerStep_of_eaDone hd hf h

theorem registerStep_of_eaMergeInto {rd : BitVec 5} {img : Nat} (hd : destE i = some rd.toNat) (hf : setsFlags i = true)
    (h : eaMergeInto s n rd img = .done t) : RegisterStep i n s t := by
  unfold eaMergeInto at h
  dsimp only at h
  split at h
  · cases h
  · exact registerStep_of_eaDone hd hf h

theorem afterSignals_next {f : F5} {k : Host.Outcome State Fault Refusal} (h : afterSignals n f s k = .next t) :
    k = .next t := by
  unfold afterSignals at h
  split at h
  · split at h
    · cases h
    · exact h
  · exact h

theorem withResidue_none (c : Nat) (g : Guard) (k : Host.Outcome State Fault Refusal) : withResidue c g .none s k = k := rfl

end

/-! ### The instructions, by what they write -/

/-- Every instruction on registers is a register step. -/
theorem registerStep_of_exec {s t : State} {n : Nat} {i : Instr} (hi : regInstr i = some n)
    (residues : ∀ f, i = .eaRd n f .none → (s.cell n).arch.residuesOk f.ra.toNat = true) (h : exec i s = .next t)
    (going : (t.cell n).run ≠ .faulted) : RegisterStep i n s t := by
  cases i with
  | add | sub | mul | mulh | mulhu | and | or | xor | shl | shr | sra | min | max =>
    cases hi
    simp only [exec, execAdd, execSub, execMul, execMulh, execMulhu, execAnd, execOr, execXor, execShl, execShr, execSra, execMin,
      execMax] at h
    exact registerStep_of_scalarRR going rfl h
  | div | divu | rem | remu =>
    cases hi
    simp only [exec, execDiv, execDivu, execRem, execRemu] at h
    exact registerStep_of_scalarDiv going rfl rfl h
  | cmp | plog | cmpi =>
    cases hi
    simp only [exec, execCmp, execPlog, execCmpi] at h
    refine registerStep_of_issueArch going h fun b hb => ?_
    cases hb
    exact .setP rfl _
  | csrr | rdid | addi | li | lui | andi =>
    cases hi
    simp only [exec, execCsrr, execRdid, execAddi, execLi, execLui, execAndi] at h
    refine registerStep_of_issueArch going h fun b hb => ?_
    cases hb
    exact .setS rfl _
  | csrw =>
    cases hi
    simp only [exec, execCsrw] at h
    exact registerStep_of_issueArch going h fun b hb => archFrame_setCsr hb
  | tset =>
    cases hi
    simp only [exec, execTset] at h
    refine registerStep_of_issueArch going h fun b hb => ?_
    split at hb <;> cases hb
    exact .setT rfl _
  | tadv =>
    cases hi
    simp only [exec, execTadv] at h
    refine registerStep_of_issueArch going h fun b hb => ?_
    cases hb
    exact .setT rfl _
  | eaClr =>
    cases hi
    simp only [exec, execEaClr] at h
    refine registerStep_of_issueArch going h fun b hb => ?_
    cases hb
    exact .setE rfl _
  | vadd | vsub | vmul | vfma | vfms | vmin | vmax | vun | vcmp | vtr =>
    cases hi
    simp only [exec, execVadd, execVsub, execVmul, execVfma, execVfms, execVmin, execVmax, execVun, execVcmp, execVtr] at h
    exact registerStep_of_issueVec going h fun b hb => archFrame_laneWise rfl rfl hb
  | vcvt =>
    cases hi
    simp only [exec, execVcvt] at h
    exact registerStep_of_issueVec going h fun b hb => archFrame_vecResult rfl rfl hb
  | vand | vor | vxor =>
    cases hi
    simp only [exec, execVand, execVor, execVxor] at h
    exact registerStep_of_vecBits going rfl h
  | vsh | vsel | vperm | vslide | vbcast | vins =>
    cases hi
    simp only [exec, execVsh, execVsel, execVperm, execVslide, execVbcast, execVins] at h
    exact registerStep_of_issueVec going h fun b hb => archFrame_laneWise_quiet rfl (fun _ => rfl) hb
  | vext =>
    cases hi
    simp only [exec, execVext] at h
    refine registerStep_of_issueVec going h fun b hb => ?_
    cases hb
    exact .setS rfl _
  | br =>
    cases hi
    simp only [exec, execBr] at h
    refine registerStep_of_issueJump going h fun b hb => ?_
    cases hb
    exact ArchFrame.refl.jump _
  | brl =>
    cases hi
    simp only [exec, execBrl] at h
    refine registerStep_of_issueJump going h fun b hb => ?_
    cases hb
    exact (ArchFrame.setS rfl _).jump _
  | jr =>
    cases hi
    simp only [exec, execJr] at h
    refine registerStep_of_issueJump going h fun b hb => ?_
    split at hb <;> cases hb
    exact ArchFrame.refl.jump _
  | loop =>
    cases hi
    simp only [exec, execLoop] at h
    refine registerStep_of_issueJump going h fun b hb => ?_
    split at hb
    · cases hb
      exact ArchFrame.refl.advance
    · cases hb
      split
      · exact (ArchFrame.setS rfl _).advance
      · exact (ArchFrame.setS rfl _).jump _
  | nop c w =>
    obtain ⟨f, _ | r⟩ := w
    · cases hi
      simp only [exec, execNop] at h
      refine registerStep_of_issueJump going h fun b hb => ?_
      cases hb
      exact ArchFrame.refl.advance
    · cases hi
      simp only [exec, execNop, whenFormed] at h
      split at h
      · refine registerStep_of_issueJump going h fun b hb => ?_
        cases hb
        exact .refl
      · cases h
  | halt =>
    cases hi
    simp only [exec, execHalt] at h
    refine registerStep_of_issue going h fun hdone => ?_
    cases hdone
    exact RegisterStep.setCell .refl _
  | testGe =>
    cases hi
    simp only [exec, execTestGe] at h
    refine registerStep_of_issue going (afterSignals_next h) fun hdone => ?_
    split at hdone <;> cases hdone
    exact RegisterStep.setArch (ArchFrame.setP rfl _).advance
  | sread =>
    cases hi
    simp only [exec, execSread] at h
    refine registerStep_of_issue going (afterSignals_next h) fun hdone => ?_
    split at hdone <;> cases hdone
    exact RegisterStep.setArch (ArchFrame.setS rfl _).advance
  | eaAdd c f u =>
    cases u <;> cases hi
    simp only [exec, execEaAdd, adderUpset_eq, withResidue_none] at h
    exact registerStep_of_issue going h fun hdone => registerStep_of_eaAddLanes rfl rfl hdone
  | eaAddm c f u =>
    cases u <;> cases hi
    simp only [exec, execEaAddm, adderUpset_eq, withResidue_none] at h
    exact registerStep_of_issue going h fun hdone => registerStep_of_eaAddLanes rfl rfl hdone
  | eaMerge c f u =>
    cases u <;> cases hi
    simp only [exec, execEaMerge, adderUpset_eq, withResidue_none] at h
    exact registerStep_of_issue going h fun hdone => registerStep_of_eaMergeInto rfl rfl hdone
  | eaRd c f u =>
    cases u <;> cases hi
    simp only [exec, execEaRd, State.storedUpset, residues f rfl, if_true, withResidue_none] at h
    refine registerStep_of_issueArch going h fun b hb => ?_
    dsimp only at hb
    split at hb
    · cases hb
    · cases hb
      exact (ArchFrame.setS rfl _).flags rfl _
  | _ => cases hi

/-- Settles O9: issue changes the cell that issues, and there the row of the instruction names what changes. -/
theorem registerInstructionFrame : Obligations.RegisterInstructionFrame := by
  unfold Obligations.RegisterInstructionFrame
  intro s t n i hi residues h going a b
  obtain ⟨rest, others, own, arch⟩ := registerStep_of_exec hi residues h going
  exact ⟨rest, others, own, arch.sreg, arch.vreg, arch.ereg, arch.preg, arch.treg, arch.acc, arch.xstat, arch.modes⟩

end Sys2Proof.Machine

/-!
PROOFS. Vector instructions on integer lanes, on bits, and those that move lanes (O10).
-/

namespace Sys2Proof.Machine

/-! ### Two's complement in a lane -/

theorem natCast_wrap (w : Nat) (z : Int) : (wrap w z : Int) = z % 2 ^ w := by
  unfold wrap
  rw [Int.ofNat_eq_natCast, Nat.cast_pow, Nat.cast_ofNat, Int.toNat_of_nonneg (Int.emod_nonneg _ (by positivity))]

theorem wrap_lt (w : Nat) (z : Int) : wrap w z < 2 ^ w := by
  have h := Int.emod_lt_of_pos z (show (0 : Int) < 2 ^ w by positivity)
  rw [← natCast_wrap] at h
  exact_mod_cast h

/-- An integer wraps to a lane that it is congruent to. -/
theorem wrap_eq {w r : Nat} {z : Int} (hr : r < 2 ^ w) (h : z % 2 ^ w = r % 2 ^ w) : wrap w z = r := by
  have bound : ((r : Int)) % 2 ^ w = r := Int.emod_eq_of_lt (by positivity) (by exact_mod_cast hr)
  exact_mod_cast (natCast_wrap w z).trans (h.trans bound)

theorem wrap_eq_mod {w r : Nat} {z : Int} (h : z % 2 ^ w = r % 2 ^ w) : wrap w z = r % 2 ^ w :=
  wrap_eq (Nat.mod_lt _ (Nat.two_pow_pos w)) (by rw [h]; push_cast; exact (Int.emod_emod _ _).symm)

/-- A lane and its signed value are congruent. -/
theorem toSigned_emod (w x : Nat) : toSigned w x % 2 ^ w = x % 2 ^ w := by
  unfold toSigned
  dsimp only
  split
  · rw [Int.ofNat_eq_natCast]
    push_cast
    exact Int.emod_emod _ _
  · simp

theorem toSigned_modEq (w x : Nat) : toSigned w x ≡ x [ZMOD 2 ^ w] := toSigned_emod w x

section
variable {w x y : Nat} (hx : x < 2 ^ w)
include hx

theorem toSigned_of_lt : toSigned w x = if x < 2 ^ (w - 1) then (x : Int) else (x : Int) - 2 ^ w := by
  unfold toSigned
  simp [Nat.mod_eq_of_lt hx]

/-- A lane is negative when its top bit is set. -/
theorem toSigned_neg_iff : toSigned w x < 0 ↔ 2 ^ (w - 1) ≤ x := by
  have bound : (x : Int) < 2 ^ w := by exact_mod_cast hx
  rw [toSigned_of_lt hx]
  split <;> omega

variable (hy : y < 2 ^ w)
include hy

theorem toSigned_inj (h : toSigned w x = toSigned w y) : x = y := by
  have bx : (x : Int) < 2 ^ w := by exact_mod_cast hx
  have by' : (y : Int) < 2 ^ w := by exact_mod_cast hy
  rw [toSigned_of_lt hx, toSigned_of_lt hy] at h
  split at h <;> split at h <;> omega

end

/-- The complement of a lane stands for its negation. -/
theorem cast_complement {w y : Nat} (hy : y ≤ 2 ^ w) : ((2 ^ w - y : Nat) : Int) ≡ -y [ZMOD 2 ^ w] := by
  rw [Nat.cast_sub hy]
  push_cast
  exact (Int.emod_emod_of_dvd _ (dvd_refl _)).symm.trans (by simp [Int.sub_eq_add_neg])

/-! ### Integer lanes (R103, R142, R687) -/

theorem elemOf_int {ty : Nat} (h : ty ≤ 3) : ∃ k, elemOf ty = .int k := by
  interval_cases ty <;> exact ⟨_, rfl⟩

theorem arithType_of_int {ty : Nat} (h : ty ≤ 3) : arithType ty = true := by simp [arithType, h]

section
variable {f : F0} (h : f.ty.toNat ≤ 3) (a : Arch)
include h

theorem laneArith_int (opF : RMode → Fp → Fp → Fp → Fp × Nat) (opI : Int → Int → Int → Int) (l : Nat) :
    let w := codeWidth f.ty.toNat
    laneArith a f opF opI l = (wrap w (opI (toSigned w (a.vlane f.ty.toNat f.ra l)) (toSigned w (a.vlane f.ty.toNat f.rb l))
      (toSigned w (a.vlane f.ty.toNat f.rc l))), 0) := by
  obtain ⟨k, hk⟩ := elemOf_int h
  simp only [laneArith, hk]

theorem laneMinMax_int (isMax : Bool) (l : Nat) :
    let x := a.vlane f.ty.toNat f.ra l
    let y := a.vlane f.ty.toNat f.rb l
    laneMinMax a f isMax l =
      (if intCmp (codeWidth f.ty.toNat) (if f.xop == 1 then 4 else 2) x y != isMax then x else y, 0) := by
  obtain ⟨k, hk⟩ := elemOf_int h
  simp only [laneMinMax, hk]

theorem laneUn_int (l : Nat) :
    let w := codeWidth f.ty.toNat
    let v := toSigned w (a.vlane f.ty.toNat f.ra l)
    laneUn a f l = (wrap w (if f.xop == 0 then Int.ofNat v.natAbs else -v), 0) := by
  obtain ⟨k, hk⟩ := elemOf_int h
  simp only [laneUn, hk]

theorem laneCmp_int (l : Nat) :
    let w := codeWidth f.ty.toNat
    laneCmp a f l = (if intCmp w f.xop.toNat (a.vlane f.ty.toNat f.ra l) (a.vlane f.ty.toNat f.rb l) then 2 ^ w - 1 else 0, 0) := by
  obtain ⟨k, hk⟩ := elemOf_int h
  simp only [laneCmp, hk]

end

/-- A lane-wise instruction that sets no flag. -/
theorem vectorOut_quiet {s : State} {n : Nat} {f : F0} {legal accepted : Bool} {op : Arch → Nat → Nat × Nat}
    {value : Nat → Nat} (hi : Issues s n f.g false) (hl : legal = true) (ha : accepted = true)
    (hop : ∀ l, op (s.cell n).arch l = (value l, 0)) (hv : ∀ l, value l < 2 ^ codeWidth f.ty.toNat) :
    VectorOut s n f 0 value (issueVec n f legal accepted s fun a => laneWise a f (op a)) := by
  have out := vectorOut_laneWise hi hl ha hop hv (fun _ => by decide)
  rwa [laneFlags_zero fun _ => rfl] at out

/-- A value that is one of two lanes is a lane. -/
theorem ite_lt_two_pow {c : Prop} [Decidable c] {w x y : Nat} (hx : x < 2 ^ w) (hy : y < 2 ^ w) : (if c then x else y) < 2 ^ w := by
  split <;> assumption

/-! ### Wrapped arithmetic -/

section
variable {w x y z : Nat}

theorem wrap_add : wrap w (toSigned w x + toSigned w y) = (x + y) % 2 ^ w :=
  wrap_eq_mod (by push_cast; exact (toSigned_modEq w x).add (toSigned_modEq w y))

theorem wrap_mul : wrap w (toSigned w x * toSigned w y) = x * y % 2 ^ w :=
  wrap_eq_mod (by push_cast; exact (toSigned_modEq w x).mul (toSigned_modEq w y))

theorem wrap_mul_add : wrap w (toSigned w x * toSigned w y + toSigned w z) = (x * y + z) % 2 ^ w :=
  wrap_eq_mod (by push_cast; exact ((toSigned_modEq w x).mul (toSigned_modEq w y)).add (toSigned_modEq w z))

theorem neg_modEq (hy : y < 2 ^ w) : -toSigned w y ≡ ((2 ^ w - y : Nat) : Int) [ZMOD 2 ^ w] :=
  (toSigned_modEq w y).neg.trans (cast_complement hy.le).symm

theorem wrap_sub (hy : y < 2 ^ w) : wrap w (toSigned w x - toSigned w y) = (x + (2 ^ w - y)) % 2 ^ w :=
  wrap_eq_mod (by
    rw [Nat.cast_add, Int.sub_eq_add_neg]
    exact (toSigned_modEq w x).add (neg_modEq hy))

theorem wrap_mul_sub (hz : z < 2 ^ w) :
    wrap w (toSigned w x * toSigned w y - toSigned w z) = (x * y + (2 ^ w - z)) % 2 ^ w :=
  wrap_eq_mod (by
    rw [Nat.cast_add, Nat.cast_mul, Int.sub_eq_add_neg]
    exact ((toSigned_modEq w x).mul (toSigned_modEq w y)).add (neg_modEq hz))

theorem wrap_neg (hx : x < 2 ^ w) : wrap w (-toSigned w x) = (2 ^ w - x) % 2 ^ w := wrap_eq_mod (neg_modEq hx)

theorem wrap_abs (hx : x < 2 ^ w) :
    wrap w (Int.ofNat (toSigned w x).natAbs) = if toSigned w x < 0 then (2 ^ w - x) % 2 ^ w else x := by
  split
  · next h =>
    rw [Int.ofNat_eq_natCast, Int.ofNat_natAbs_of_nonpos h.le, wrap_neg hx]
  · next h =>
    rw [Int.ofNat_eq_natCast, Int.natAbs_of_nonneg (not_lt.1 h)]
    exact wrap_eq hx (toSigned_modEq w x)

/-- The lesser of two lanes, and the greater one. -/
theorem signed_min (hx : x < 2 ^ w) (hy : y < 2 ^ w) :
    (if (decide (toSigned w x < toSigned w y) != false) = true then x else y) =
      if toSigned w x ≤ toSigned w y then x else y := by
  rcases lt_trichotomy (toSigned w x) (toSigned w y) with h | h | h
  · simp [h, h.le]
  · simp [toSigned_inj hx hy h]
  · simp [h.not_gt, h.not_ge]

theorem unsigned_min (x y : Nat) : (if (decide (x < y) != false) = true then x else y) = min x y := by
  by_cases h : x < y
  · simp [h, h.le]
  · simp [h, not_lt.1 h]

theorem unsigned_max (x y : Nat) : (if (decide (x < y) != true) = true then x else y) = max x y := by
  by_cases h : x < y
  · simp [h, h.le]
  · simp [h, not_lt.1 h]

theorem signed_max (hx : x < 2 ^ w) (hy : y < 2 ^ w) :
    (if (decide (toSigned w x < toSigned w y) != true) = true then x else y) =
      if toSigned w x ≤ toSigned w y then y else x := by
  rcases lt_trichotomy (toSigned w x) (toSigned w y) with h | h | h
  · simp [h, h.le]
  · simp [toSigned_inj hx hy h]
  · simp [h.not_gt, h.not_ge]

end

/-! ### The instructions on integer lanes -/

section
variable {s : State} {n : Nat} {f : F0} (hi : Issues s n f.g false) (hty : f.ty.toNat ≤ 3)
include hi hty

/-- An arithmetic instruction leaves in each lane its result modulo the width. -/
theorem vectorOut_arith {legal : Bool} (hl : legal = true) {opF : RMode → Fp → Fp → Fp → Fp × Nat} {opI : Int → Int → Int → Int}
    {value : Nat → Nat}
    (hv : ∀ l, let w := codeWidth f.ty.toNat
      wrap w (opI (toSigned w ((s.cell n).arch.vlane f.ty.toNat f.ra l)) (toSigned w ((s.cell n).arch.vlane f.ty.toNat f.rb l))
        (toSigned w ((s.cell n).arch.vlane f.ty.toNat f.rc l))) = value l) :
    VectorOut s n f 0 value (issueVec n f legal (arithType f.ty.toNat) s fun a => laneWise a f (laneArith a f opF opI)) := by
  refine vectorOut_quiet hi hl (arithType_of_int hty) (fun l => ?_) fun l => ?_
  · rw [laneArith_int hty, hv]
  · rw [← hv]; exact wrap_lt ..

theorem vectorOut_select {legal : Bool} (hl : legal = true) {isMax : Bool} {value : Nat → Nat}
    (hv : ∀ l, let x := (s.cell n).arch.vlane f.ty.toNat f.ra l
      let y := (s.cell n).arch.vlane f.ty.toNat f.rb l
      (if intCmp (codeWidth f.ty.toNat) (if f.xop == 1 then 4 else 2) x y != isMax then x else y) = value l) :
    VectorOut s n f 0 value (issueVec n f legal (arithType f.ty.toNat) s fun a => laneWise a f (laneMinMax a f isMax)) := by
  refine vectorOut_quiet hi hl (arithType_of_int hty) (fun l => ?_) fun l => ?_
  · rw [laneMinMax_int hty, hv]
  · rw [← hv]
    exact ite_lt_two_pow (Arch.vlane_lt ..) (Arch.vlane_lt ..)

theorem vectorOut_unary {legal : Bool} (hl : legal = true) {value : Nat → Nat}
    (hv : ∀ l, let w := codeWidth f.ty.toNat
      let v := toSigned w ((s.cell n).arch.vlane f.ty.toNat f.ra l)
      wrap w (if f.xop == 0 then Int.ofNat v.natAbs else -v) = value l) :
    VectorOut s n f 0 value (issueVec n f legal (arithType f.ty.toNat) s fun a => laneWise a f (laneUn a f)) := by
  refine vectorOut_quiet hi hl (arithType_of_int hty) (fun l => ?_) fun l => ?_
  · rw [laneUn_int hty, hv]
  · rw [← hv]; exact wrap_lt ..

/-- A comparison: `r` says what its code asks of two lanes. -/
theorem vectorOut_compare {legal : Bool} (hl : legal = true) {r : Nat → Bool}
    (hr : ∀ l, intCmp (codeWidth f.ty.toNat) f.xop.toNat ((s.cell n).arch.vlane f.ty.toNat f.ra l)
      ((s.cell n).arch.vlane f.ty.toNat f.rb l) = r l) :
    VectorOut s n f 0 (fun l => if r l then 2 ^ codeWidth f.ty.toNat - 1 else 0)
      (issueVec n f legal (arithType f.ty.toNat) s fun a => laneWise a f (laneCmp a f)) := by
  refine vectorOut_quiet hi hl (arithType_of_int hty) (fun l => ?_) fun l => ?_
  · rw [laneCmp_int hty, hr]
  · have := Nat.two_pow_pos (codeWidth f.ty.toNat)
    split <;> omega

end

theorem vectorIntegerLanes : Claims.VectorIntegerLanes := by
  intro s n f hi hty hrm hri hres ty w a x y z is
  have bound (r : BitVec 5) (l : Nat) : a.vlane ty r l < 2 ^ w := Arch.vlane_lt ..
  have three (rc : Bool) (hrc : rc = true ∨ f.rc = 0) (ok : Bool) (hok : ok = true) (rm : Bool) :
      legalF0 { rd := true, ra := true, rb := true, rc := rc, ty := true, rm := rm } f ok = true := by
    simpa [legalF0, hrm, hri, hres, hok] using hrc
  have one (hrb : f.rb = 0) (hrc : f.rc = 0) (ok : Bool) (hok : ok = true) :
      legalF0 { rd := true, ra := true, ty := true } f ok = true := (legalF0_unary hrc hrm hri hres hrb ok).trans hok
  have int : isInt f.ty.toNat = true := decide_eq_true hty
  refine ⟨fun hx hrc => ⟨?_, ?_, ?_⟩, fun hx => ⟨?_, ?_⟩, fun hrc => ⟨fun hx => ⟨?_, ?_⟩, fun hx => ⟨?_, ?_⟩⟩,
    fun hrb hrc => ⟨fun hx => ?_, fun hx => ?_⟩, fun hrc => ?_⟩
  · exact vectorOut_arith hi hty (three _ (.inr hrc) _ (by simp [hx]) _) fun l => wrap_add
  · exact vectorOut_arith hi hty (three _ (.inr hrc) _ (by simp [hx]) _) fun l => wrap_sub (bound ..)
  · exact vectorOut_arith hi hty (three _ (.inr hrc) _ (by simp [hx]) _) fun l => wrap_mul
  · exact vectorOut_arith hi hty (three _ (.inl rfl) _ (by simp [hx]) _) fun l => wrap_mul_add
  · exact vectorOut_arith hi hty (three _ (.inl rfl) _ (by simp [hx]) _) fun l => wrap_mul_sub (bound ..)
  · refine vectorOut_select hi hty (three _ (.inr hrc) _ (by simp [hx]) _) fun l => ?_
    rw [hx]
    exact signed_min (bound ..) (bound ..)
  · refine vectorOut_select hi hty (three _ (.inr hrc) _ (by simp [hx]) _) fun l => ?_
    rw [hx]
    exact signed_max (bound ..) (bound ..)
  · refine vectorOut_select hi hty (three _ (.inr hrc) _ (by simp [hx, int]) _) fun l => ?_
    rw [hx]
    exact unsigned_min ..
  · refine vectorOut_select hi hty (three _ (.inr hrc) _ (by simp [hx, int]) _) fun l => ?_
    rw [hx]
    exact unsigned_max ..
  · refine vectorOut_unary hi hty (one hrb hrc _ (by simp [hx])) fun l => ?_
    rw [hx]
    exact wrap_abs (bound ..)
  · refine vectorOut_unary hi hty (one hrb hrc _ (by simp [hx])) fun l => ?_
    rw [hx]
    exact wrap_neg (bound ..)
  · intro ones
    have compare (k : BitVec 6) (hk : k.toNat ≤ 5) (hx : f.xop = k) (r : Nat → Bool)
        (hr : ∀ l, intCmp w k.toNat (x l) (y l) = r l) : is (.vcmp n f) fun l => ones (r l) := by
      have code : vcmpXop f.ty.toNat f.xop.toNat = true := by simp [vcmpXop, int, hx, hk]
      exact vectorOut_compare hi hty (three _ (.inr hrc) _ code _) fun l => hx ▸ hr l
    exact ⟨fun hx => compare 0 (by decide) hx _ fun _ => rfl, fun hx => compare 1 (by decide) hx _ fun _ => rfl,
      fun hx => compare 2 (by decide) hx _ fun _ => rfl, fun hx => compare 3 (by decide) hx _ fun _ => rfl,
      fun hx => compare 4 (by decide) hx _ fun _ => rfl, fun hx => compare 5 (by decide) hx _ fun _ => rfl⟩

/-! ### Bits, shifts and moves (R103, R687) -/

section
variable (n : Nat) (f : F0) (s : State)

theorem exec_vsh : exec (.vsh n f) s =
    issueVec n f (legalF0 { rd := true, ra := true, rb := true, ty := true } f (decide (f.xop.toNat ≤ 2)))
      (laneType f.ty.toNat) s fun a => laneWise a f (laneShift a f) := rfl

theorem exec_vsel : exec (.vsel n f) s =
    issueVec n f (legalF0 { rd := true, ra := true, rb := true, rc := true, ty := true } f (f.xop == 0))
      (laneType f.ty.toNat) s fun a => laneWise a f fun l =>
        (if a.vlane f.ty.toNat f.rc l != 0 then a.vlane f.ty.toNat f.ra l else a.vlane f.ty.toNat f.rb l, 0) := rfl

theorem exec_vperm : exec (.vperm n f) s =
    issueVec n f (legalVbit f) (laneType f.ty.toNat) s fun a => laneWise a f fun l =>
      (a.vlane f.ty.toNat f.ra (a.vlane f.ty.toNat f.rb l % laneCount f.ty.toNat), 0) := rfl

theorem exec_vslide : exec (.vslide n f) s =
    issueVec n f (legalVbit f) (laneType f.ty.toNat) s fun a => laneWise a f (laneSlide a f) := rfl

theorem exec_vbcast : exec (.vbcast n f) s =
    issueVec n f (legalF0 { rd := true, ra := true, ty := true } f (f.xop == 0)) (laneType f.ty.toNat) s fun a =>
      laneWise a f fun _ => ((a.sreg f.ra.toNat).toNat % 2 ^ codeWidth f.ty.toNat, 0) := rfl

theorem exec_vins : exec (.vins n f) s =
    issueVec n f (legalF0 { rd := true, ra := true, rb := true, ty := true } f (f.xop == 0)) (laneType f.ty.toNat) s fun a =>
      laneWise a f fun l =>
        (if l = (a.sreg f.rb.toNat).toNat % laneCount f.ty.toNat then (a.sreg f.ra.toNat).toNat % 2 ^ codeWidth f.ty.toNat
          else a.vlane f.ty.toNat f.rd l, 0) := rfl

end

theorem vectorBitsAndMoves : Claims.VectorBitsAndMoves := by
  intro s n f hi hrm hri hres ty w m a va vb x y k whole is
  have bound (r : BitVec 5) (l : Nat) : a.vlane ty r l < 2 ^ w := Arch.vlane_lt ..
  have two (hrc : f.rc = 0) (ok : Bool) (hok : ok = true) :
      legalF0 { rd := true, ra := true, rb := true, ty := true } f ok = true := (legalF0_binary hrc hrm hri hres ok).trans hok
  refine ⟨fun hx hrc => ?_, fun hty => ?_⟩
  · have legal : legalVbit f = true := two hrc _ (by simp [hx])
    simp only [exec, execVand, execVor, execVxor, vecBits, issueVec, legal, issueArch_executes hi, if_true]
    exact ⟨rfl, rfl, rfl⟩
  have lanes : laneType f.ty.toNat = true := decide_eq_true hty
  have row {i : Instr} {o : Host.Outcome State Fault Refusal} (e : exec i s = o) {r : Nat → Nat}
      (h : VectorOut s n f 0 r o) : is i r := by subst e; exact h
  refine ⟨fun hrc => ⟨fun hx => ?_, fun hx => ?_, fun hx => ?_⟩, fun hx => ?_, fun hx hrc => ⟨?_, ?_, ?_, ?_⟩,
    fun hx hrb hrc => ?_⟩
  · refine row (exec_vsh n f s) (vectorOut_quiet hi (two hrc _ (by simp [hx])) lanes (fun l => ?_) fun l => Nat.mod_lt _ (Nat.two_pow_pos _))
    rw [laneShift, hx]
    rfl
  · refine row (exec_vsh n f s) (vectorOut_quiet hi (two hrc _ (by simp [hx])) lanes (fun l => ?_) fun l => (Nat.div_le_self ..).trans_lt (bound ..))
    rw [laneShift, hx]
    rfl
  · refine row (exec_vsh n f s) (vectorOut_quiet hi (two hrc _ (by simp [hx])) lanes (fun l => ?_) fun l => wrap_lt ..)
    rw [laneShift, hx]
    rfl
  · have legal : legalF0 { rd := true, ra := true, rb := true, rc := true, ty := true } f (f.xop == 0) = true := by
      simp [legalF0, hrm, hri, hres, hx]
    refine row (exec_vsel n f s) (vectorOut_quiet hi legal lanes (fun l => ?_) fun l => ite_lt_two_pow (bound ..) (bound ..))
    simp only [bne_iff_ne, ne_eq, ite_not]
    rfl
  · have legal : legalVbit f = true := two hrc _ (by simp [hx])
    exact row (exec_vperm n f s) (vectorOut_quiet hi legal lanes (fun l => rfl) fun l => bound ..)
  · have legal : legalVbit f = true := two hrc _ (by simp [hx])
    refine row (exec_vslide n f s)
      (vectorOut_quiet hi legal lanes (fun l => ?_) fun l => ite_lt_two_pow (bound ..) (Nat.two_pow_pos _))
    simp only [laneSlide, Bool.and_eq_true, decide_eq_true_eq]
    rfl
  · exact row (exec_vins n f s) (vectorOut_quiet hi (two hrc _ (by simp [hx])) lanes (fun l => rfl)
      fun l => ite_lt_two_pow (Nat.mod_lt _ (Nat.two_pow_pos _)) (bound ..))
  · have legal : legalF0 { rd := true, ra := true, rb := true, ty := true } f (f.xop == 0) = true := two hrc _ (by simp [hx])
    simp only [exec, execVext, issueVec, legal, issueArch_executes hi, lanes, if_true]
    rfl
  · exact row (exec_vbcast n f s) (vectorOut_quiet hi ((legalF0_unary hrc hrm hri hres hrb _).trans (by simp [hx])) lanes
      (fun l => rfl) fun l => Nat.mod_lt _ (Nat.two_pow_pos _))

/-- Settles O10: each instruction works lane by lane, and integer lanes are residues modulo their width. -/
theorem vectorIntegersAndMoves : Obligations.VectorIntegersAndMoves := by
  unfold Obligations.VectorIntegersAndMoves
  exact ⟨vectorIntegerLanes, vectorBitsAndMoves⟩

end Sys2Proof.Machine


/-!
PROOFS. Floating-point lanes (O11): a rounded lane fits its format and its flags are flags, so a vector instruction leaves in
each lane the result of that lane; and rounding a value of the format gives its code back.
-/

namespace Sys2Proof.Machine

/-! ### Flags (R158) -/

theorem noFlag_lt : 0 < 128 := by decide

theorem fNv_lt : fNv < 128 := by decide

theorem orf_lt_flags {a b : Nat} (ha : a < 128) (hb : b < 128) : orf a b < 128 := Nat.or_lt_two_pow (n := 7) ha hb

theorem flagIf_lt_flags {f : Nat} (b : Bool) (h : f < 128) : flagIf b f < 128 := by
  cases b
  · exact Nat.zero_lt_of_lt h
  · exact h

theorem Fp.mul_flags_lt (x y : Fp) : (x.mul y).2 < 128 := by
  have signals := flagIf_nv_lt (x.snan || y.snan)
  cases x <;> cases y <;> simp only [Fp.mul]
  case nan.nan | nan.inf | nan.fin | inf.nan | fin.nan => exact signals
  case inf.inf | fin.fin => exact noFlag_lt
  case inf.fin | fin.inf =>
    split
    · exact fNv_lt
    · exact noFlag_lt

/-- A sum is invalid where an addend signals or where infinities of both signs are added. -/
theorem Fp.sum_flags_lt (rd : Bool) (vs : List Fp) : (Fp.sum rd vs).2 < 128 := by
  have signals := flagIf_nv_lt (vs.any Fp.snan)
  simp only [Fp.sum, apply_ite Prod.snd, ite_self]
  split_ifs
  · exact signals
  · exact orf_lt_flags signals (by decide)
  · exact signals

theorem fusedSum_eq (m : RMode) (x y z : Fp) : fusedSum m x y z =
    ((Fp.sum (m == .rd) [(x.mul y).1, z]).1, orf (x.mul y).2 (Fp.sum (m == .rd) [(x.mul y).1, z]).2) := rfl

/-! ### The parts of a format (R141, R144) -/

/-- What the formats of the vector unit have in common: the largest finite code lies below the sign, and above every code that is
neither an infinity nor a NaN. -/
structure FpFmt.Sound (f : FpFmt) : Prop where
  maxCode_lt : f.maxCode < 2 ^ (f.ew + f.mw)
  nan_lt : f.nan < 2 ^ f.width
  top : f.hasInf = true → f.maxCode + 1 = (2 ^ f.ew - 1) * 2 ^ f.mw
  noTop : f.hasInf = false → f.hasNan = true ∧ f.nan = f.maxCode + 1 ∧ f.nan + 1 = 2 ^ (f.ew + f.mw)

theorem FpFmt.sound {f : FpFmt} (h : f = fp64 ∨ f = fp32 ∨ f = bf16 ∨ f = fp16 ∨ f = e5m2 ∨ f = e4m3) : f.Sound := by
  rcases h with rfl | rfl | rfl | rfl | rfl | rfl <;> exact ⟨by decide, by decide, by decide, by decide⟩

theorem FpFmt.sound_of_elemOf {ty : Nat} {f : FpFmt} (h6 : 6 ≤ ty) (h9 : ty ≤ 9) (h : elemOf ty = .fp f) : f.Sound := by
  interval_cases ty <;> cases h <;> exact FpFmt.sound (by decide)

/-! ### Rounding fits the format (R152, R153) -/

/-- A sign in front of a code below the sign fits the width. -/
theorem FpFmt.sign_add_lt (f : FpFmt) {neg : Bool} {c : Nat} (h : c < 2 ^ (f.ew + f.mw)) :
    (if neg then 2 ^ (f.ew + f.mw) else 0) + c < 2 ^ f.width := by
  have width : 2 ^ f.width = 2 ^ (f.ew + f.mw) + 2 ^ (f.ew + f.mw) := by
    rw [FpFmt.width, Nat.add_assoc, Nat.add_comm 1, pow_succ, Nat.mul_two]
  cases neg <;> simp <;> omega

theorem FpFmt.infinity_lt (f : FpFmt) : (2 ^ f.ew - 1) * 2 ^ f.mw < 2 ^ (f.ew + f.mw) := by
  rw [pow_add]
  exact Nat.mul_lt_mul_of_pos_right (Nat.sub_one_lt (Nat.two_pow_pos _).ne') (Nat.two_pow_pos _)

section
variable {f : FpFmt} (sound : f.Sound)
include sound

theorem FpFmt.roundFin_fits (clamp : Bool) (mode : RMode) (r : Nat) (neg : Bool) (m : Nat) (e : Int) :
    (f.roundFin clamp mode r neg m e).1 < 2 ^ f.width ∧ (f.roundFin clamp mode r neg m e).2 < 128 := by
  simp only [FpFmt.roundFin, decide_eq_true_eq]
  split
  · refine ⟨f.sign_add_lt ?_, show orf fOf fNx < 128 by decide⟩
    split
    · exact sound.maxCode_lt
    · exact f.infinity_lt
  next within =>
    exact ⟨f.sign_add_lt ((Nat.not_lt.mp within).trans_lt sound.maxCode_lt),
      orf_lt_flags (flagIf_lt_flags _ (by decide)) (flagIf_lt_flags _ (by decide))⟩

theorem FpFmt.round_fits (mode : RMode) (r : Nat) (v : Fp) :
    (f.round mode r v).1 < 2 ^ f.width ∧ (f.round mode r v).2 < 128 := by
  cases v with
  | nan s => exact ⟨sound.nan_lt, flagIf_nv_lt s⟩
  | inf n =>
    simp only [FpFmt.round]
    split
    · exact ⟨f.sign_add_lt f.infinity_lt, noFlag_lt⟩
    · exact ⟨sound.nan_lt, fNv_lt⟩
  | fin n m e =>
    simp only [FpFmt.round]
    split
    · exact ⟨f.sign_add_lt (Nat.two_pow_pos _), noFlag_lt⟩
    · exact FpFmt.roundFin_fits sound false mode r n m e

end

/-! ### Lanes (R159) -/

theorem laneArith_float {f : F0} {ff : FpFmt} (he : elemOf f.ty.toNat = .fp ff) (a : Arch)
    (opF : RMode → Fp → Fp → Fp → Fp × Nat) (opI : Int → Int → Int → Int) (l : Nat) :
    laneArith a f opF opI l =
      (let v := opF (a.mode f.rm) (ff.decode (a.vlane f.ty.toNat f.ra l)) (ff.decode (a.vlane f.ty.toNat f.rb l))
        (ff.decode (a.vlane f.ty.toNat f.rc l))
       let once := ff.round (a.mode f.rm) (a.draw f.ri l) v.1
       (once.1, orf v.2 once.2)) := by
  rw [laneArith, he]

/-- A vector instruction on floating-point lanes leaves in each lane the result of its operation rounded once. -/
theorem vectorOut_float {s : State} {n : Nat} {f : F0} {ff : FpFmt} {legal : Bool} (hi : Issues s n f.g false)
    (h6 : 6 ≤ f.ty.toNat) (h9 : f.ty.toNat ≤ 9) (he : elemOf f.ty.toNat = .fp ff) (hl : legal = true)
    (opF : RMode → Fp → Fp → Fp → Fp × Nat) (opI : Int → Int → Int → Int) (flags : ∀ m x y z, (opF m x y z).2 < 128) :
    let a := (s.cell n).arch
    let v := fun l => opF (a.mode f.rm) (ff.decode (a.vlane f.ty.toNat f.ra l)) (ff.decode (a.vlane f.ty.toNat f.rb l))
      (ff.decode (a.vlane f.ty.toNat f.rc l))
    let once := fun l => ff.round (a.mode f.rm) (a.draw f.ri l) (v l).1
    VectorOut s n f (laneFlags f.ty.toNat fun l => orf (v l).2 (once l).2) (fun l => (once l).1)
      (issueVec n f legal (arithType f.ty.toNat) s fun a => laneWise a f (laneArith a f opF opI)) := by
  intro a v once
  have fits := FpFmt.round_fits (FpFmt.sound_of_elemOf h6 h9 he)
  refine vectorOut_laneWise hi hl (arithType_of_float h6 h9) (fun l => laneArith_float he _ opF opI l) (fun l => ?_) fun l =>
    orf_lt_flags (flags ..) (fits ..).2
  rw [show codeWidth f.ty.toNat = ff.width by rw [codeWidth_of_elemOf he, FpFmt.width]; omega]
  exact (fits _ _ _).1

theorem vectorFloatLanes : Claims.VectorFloatArithmetic := by
  intro s n f ff hi h6 h9 he h5 h6' hx hres ty a mode x y z once is plus
  have legal3 : legalV3 f = true := by
    simpa [legalV3, legalF0, hres, hx] using And.intro h5 h6'
  refine ⟨fun hrc => ?_, ?_, ?_⟩
  · have legal2 : legalV2 f = true := by simpa [legalV2, legalF0, hres, hx, hrc] using And.intro h5 h6'
    exact ⟨vectorOut_float hi h6 h9 he legal2 _ _ fun _ _ _ _ => Fp.sum_flags_lt _ _,
      vectorOut_float hi h6 h9 he legal2 _ _ fun _ _ _ _ => Fp.sum_flags_lt _ _,
      vectorOut_float hi h6 h9 he legal2 _ _ fun _ _ _ _ => Fp.mul_flags_lt _ _⟩
  · exact vectorOut_float hi h6 h9 he legal3 _ _ fun _ _ _ _ =>
      orf_lt_flags (Fp.mul_flags_lt _ _) (Fp.sum_flags_lt _ _)
  · exact vectorOut_float hi h6 h9 he legal3 _ _ fun _ _ _ _ =>
      orf_lt_flags (Fp.mul_flags_lt _ _) (Fp.sum_flags_lt _ _)

/-! ### Values of the format (R141, R152, R158) -/

/-- The sign is the top bit, and the code what is below it. -/
theorem sign_add_mod {x k : Nat} (h : x < 2 ^ (k + 1)) : (if bit x k then 2 ^ k else 0) + x % 2 ^ k = x := by
  have parts := Nat.div_add_mod x (2 ^ k)
  have below : x / 2 ^ k < 2 := Nat.div_lt_of_lt_mul (by rwa [pow_succ] at h)
  rw [bit, Nat.testBit_eq_decide_div_mod_eq, Nat.mod_eq_of_lt below]
  rcases Nat.le_one_iff_eq_zero_or_eq_one.mp (Nat.lt_succ_iff.mp below) with zero | one
  · rw [zero] at parts ⊢
    simpa using parts
  · rw [one] at parts ⊢
    simpa using parts

/-- The weight of the last place of the least normal value. -/
def FpFmt.leastWeight (f : FpFmt) : Int := 1 - Int.ofNat f.bias - Int.ofNat f.mw

/-- A magnitude `m * 2 ^ e` is written as the format writes it: a normal one with its leading bit, a subnormal one with the
least weight. -/
structure FpFmt.Normalized (f : FpFmt) (m : Nat) (e : Int) : Prop where
  lt : m < 2 ^ (f.mw + 1)
  weight : f.leastWeight ≤ e
  subnormal : m < 2 ^ f.mw → e = f.leastWeight

/-- The last place of a magnitude written as the format writes it has the weight of its exponent. -/
theorem FpFmt.Normalized.lastPlace {f : FpFmt} {m : Nat} {e : Int} (h : f.Normalized m e) (hm : m ≠ 0) :
    max (Int.ofNat (Nat.log2 m) + e - Int.ofNat f.mw) f.leastWeight = e := by
  have upper : Nat.log2 m < f.mw + 1 := (Nat.log2_lt hm).mpr h.lt
  have weight := h.weight
  rcases Nat.lt_or_ge m (2 ^ f.mw) with small | large
  · have lower : Nat.log2 m < f.mw := (Nat.log2_lt hm).mpr small
    have least := h.subnormal small
    simp only [Int.ofNat_eq_natCast]
    omega
  · have lower : f.mw ≤ Nat.log2 m := (Nat.le_log2 hm).mpr large
    simp only [Int.ofNat_eq_natCast]
    omega

/-- Rounding a value at its own last place changes nothing and is exact. -/
theorem FpFmt.Normalized.roundFin_eq {f : FpFmt} {m : Nat} {e : Int} (h : f.Normalized m e) (hm : m ≠ 0)
    (finite : f.pack m e ≤ f.maxCode) (clamp : Bool) (mode : RMode) (r : Nat) (neg : Bool) :
    f.roundFin clamp mode r neg m e = ((if neg then 2 ^ (f.ew + f.mw) else 0) + f.pack m e, 0) := by
  have place := h.lastPlace hm
  rw [FpFmt.leastWeight] at place
  simp only [FpFmt.roundFin, place, roundAt, le_refl, if_true, sub_self, Int.toNat_zero, pow_zero, mul_one, Bool.false_and,
    decide_eq_true_eq, if_neg (Nat.not_lt.mpr finite)]
  rfl

/-- The exponent field of a code. -/
def FpFmt.field (f : FpFmt) (x : Nat) : Nat := bits x f.mw f.ew

theorem FpFmt.code_eq (f : FpFmt) (x : Nat) : x % 2 ^ (f.ew + f.mw) = f.field x * 2 ^ f.mw + bits x 0 f.mw := by
  rw [Nat.add_comm, pow_add, Nat.mod_mul, FpFmt.field, bits, bits, pow_zero, Nat.div_one, Nat.add_comm, Nat.mul_comm]

/-- What a code that spells a finite value is. -/
theorem FpFmt.decode_fin {f : FpFmt} (sound : f.Sound) {x : Nat} {neg : Bool} {m : Nat} {e : Int}
    (h : f.decode x = .fin neg m e) :
    neg = bit x (f.ew + f.mw) ∧ x % 2 ^ (f.ew + f.mw) ≤ f.maxCode ∧
      (f.field x = 0 ∧ m = bits x 0 f.mw ∧ e = f.leastWeight ∨
        f.field x ≠ 0 ∧ m = 2 ^ f.mw + bits x 0 f.mw ∧ e = f.leastWeight + (f.field x - 1)) := by
  have mant : bits x 0 f.mw < 2 ^ f.mw := Nat.mod_lt _ (Nat.two_pow_pos _)
  have fields : f.field x < 2 ^ f.ew := Nat.mod_lt _ (Nat.two_pow_pos _)
  have code := f.code_eq x
  have low : bits x 0 (f.ew + f.mw) = x % 2 ^ (f.ew + f.mw) := by rw [bits, pow_zero, Nat.div_one]
  have below : x % 2 ^ (f.ew + f.mw) < 2 ^ (f.ew + f.mw) := Nat.mod_lt _ (Nat.two_pow_pos _)
  have finite (noInf : (f.hasInf && f.field x == 2 ^ f.ew - 1) = false)
      (noNan : (!f.hasInf && f.hasNan && x % 2 ^ (f.ew + f.mw) == f.nan) = false) : x % 2 ^ (f.ew + f.mw) ≤ f.maxCode := by
    cases inf : f.hasInf with
    | true =>
      have top := sound.top inf
      have field : f.field x + 1 ≤ 2 ^ f.ew - 1 := by
        rw [inf] at noInf
        have : f.field x ≠ 2 ^ f.ew - 1 := by simpa using noInf
        omega
      have scaled := Nat.mul_le_mul_right (2 ^ f.mw) field
      rw [Nat.add_mul, Nat.one_mul] at scaled
      omega
    | false =>
      obtain ⟨hasNan, above, last⟩ := sound.noTop inf
      have : x % 2 ^ (f.ew + f.mw) ≠ f.nan := by simpa [inf, hasNan] using noNan
      omega
  simp only [FpFmt.decode, low] at h
  split_ifs at h with top zero nan least
  all_goals injection h with sign magnitude weight
  · exact ⟨sign.symm, finite (Bool.eq_false_iff.mpr top) (Bool.eq_false_iff.mpr nan),
      .inl ⟨by simpa [FpFmt.field] using least, magnitude.symm, weight.symm⟩⟩
  · refine ⟨sign.symm, finite (Bool.eq_false_iff.mpr top) (Bool.eq_false_iff.mpr nan),
      .inr ⟨by simpa [FpFmt.field] using least, magnitude.symm, ?_⟩⟩
    rw [← weight, FpFmt.leastWeight, FpFmt.field, Int.ofNat_eq_natCast, Int.ofNat_eq_natCast, Int.ofNat_eq_natCast]
    ring

theorem FpFmt.Normalized.of_decode {f : FpFmt} (sound : f.Sound) {x : Nat} {neg : Bool} {m : Nat} {e : Int}
    (h : f.decode x = .fin neg m e) : f.Normalized m e ∧ f.pack m e = x % 2 ^ (f.ew + f.mw) := by
  obtain ⟨-, -, form⟩ := FpFmt.decode_fin sound h
  have mant : bits x 0 f.mw < 2 ^ f.mw := Nat.mod_lt _ (Nat.two_pow_pos _)
  have double : 2 ^ (f.mw + 1) = 2 * 2 ^ f.mw := by rw [pow_succ, Nat.mul_comm]
  rw [FpFmt.code_eq]
  rcases form with ⟨zero, rfl, rfl⟩ | ⟨field, rfl, rfl⟩
  · exact ⟨⟨by omega, le_rfl, fun _ => rfl⟩, by simp [FpFmt.pack, mant, zero]⟩
  · refine ⟨⟨by omega, by omega, fun small => absurd small (by omega)⟩, ?_⟩
    have step : (f.leastWeight + (f.field x - 1) - f.leastWeight).toNat + 1 = f.field x := by omega
    have weight : f.leastWeight = 1 - Int.ofNat f.bias - Int.ofNat f.mw := rfl
    simp only [FpFmt.pack, ← weight, step, if_neg (Nat.not_lt.mpr (Nat.le_add_right _ _)), Nat.add_sub_cancel_left]

theorem roundingIsExactOnTheFormat : Claims.RoundingIsExactOnTheFormat := by
  intro ff mode r x neg m e formats width h
  have sound := FpFmt.sound formats
  obtain ⟨rfl, finite, -⟩ := FpFmt.decode_fin sound h
  obtain ⟨normalized, code⟩ := FpFmt.Normalized.of_decode sound h
  have whole : (if bit x (ff.ew + ff.mw) then 2 ^ (ff.ew + ff.mw) else 0) + ff.pack m e = x := by
    rw [code]
    exact sign_add_mod (by rwa [FpFmt.width, Nat.add_assoc, Nat.add_comm] at width)
  rw [FpFmt.round]
  split
  next zero => 
    subst zero
    simpa [FpFmt.pack] using whole
  next nonzero => rw [normalized.roundFin_eq nonzero (code ▸ finite), whole]

/-- Settles O11: a lane is rounded once into its format, and a value of the format is rounded to itself. -/
theorem vectorFloatArithmetic : Obligations.VectorFloatArithmetic := by
  unfold Obligations.VectorFloatArithmetic
  exact ⟨vectorFloatLanes, roundingIsExactOnTheFormat⟩

end Sys2Proof.Machine


/-!
PROOFS. Accesses of the own cell memory (O16): a write is cut into granules whose pieces follow each other, so memory takes exactly its
bytes.
-/

namespace Sys2Proof.Machine

/-! ### Pieces that follow each other -/

/-- Pieces, each an offset and a length, that follow each other from one offset on up to another. -/
def Chained : Nat → List (Nat × Nat) → Nat → Prop
  | x, [], y => x = y
  | x, c :: l, y => c.1 = x ∧ Chained (x + c.2) l y

theorem Chained.append {y z : Nat} {r : List (Nat × Nat)} (hr : Chained y r z) :
    ∀ {l : List (Nat × Nat)} {x : Nat}, Chained x l y → Chained x (l ++ r) z
  | [], _, rfl => hr
  | _ :: _, _, ⟨start, rest⟩ => ⟨start, hr.append rest⟩

theorem Chained.le : ∀ {l : List (Nat × Nat)} {x y : Nat}, Chained x l y → x ≤ y
  | [], _, _, rfl => le_rfl
  | _ :: _, _, _, ⟨_, rest⟩ => (Nat.le_add_right _ _).trans rest.le

/-- A piece lies within what its list covers. -/
theorem Chained.within {c : Nat × Nat} : ∀ {l : List (Nat × Nat)} {x y : Nat}, Chained x l y → c ∈ l → x ≤ c.1 ∧ c.1 + c.2 ≤ y
  | d :: l, x, y, ⟨start, rest⟩, hc => by
    rcases List.mem_cons.mp hc with rfl | hc
    · exact ⟨start.ge, start ▸ rest.le⟩
    · exact (rest.within hc).imp_left (Nat.le_add_right _ _).trans

/-- Pieces between the places of a rising sequence follow each other. -/
theorem chained_steps {a : Nat} (place : Nat → Nat) (low : ∀ i, a ≤ place i) : ∀ n, (∀ i < n, place i ≤ place (i + 1)) →
    Chained (place 0 - a) ((List.range n).map fun i => (place i - a, place (i + 1) - place i)) (place n - a)
  | 0, _ => rfl
  | n + 1, rising => by
    rw [List.range_succ, List.map_append]
    have before := low n
    have step := rising n (Nat.lt_succ_self n)
    have piece : Chained (place n - a) [(place n - a, place (n + 1) - place n)] (place (n + 1) - a) :=
      ⟨rfl, show place n - a + (place (n + 1) - place n) = place (n + 1) - a by omega⟩
    exact piece.append (chained_steps place low n fun i hi => rising i (Nat.lt_succ_of_lt hi))

/-- The pieces of a range follow each other and cover it. -/
theorem chained_cuts {g : Nat} (hg : 0 < g) (a len : Nat) : Chained 0 (cuts g a len) len := by
  unfold cuts
  split
  next empty => exact empty.symm
  next some =>
    let place : Nat → Nat := fun i => max a (min (a + len) ((a / g + i) * g))
    have first : a / g * g ≤ a := Nat.div_mul_le_self a g
    have last : (a + len - 1) / g * g ≤ a + len - 1 := Nat.div_mul_le_self _ g
    have past : a + len - 1 < ((a + len - 1) / g + 1) * g := by
      rw [Nat.mul_comm]
      exact Nat.lt_mul_div_succ _ hg
    have order : a / g ≤ (a + len - 1) / g := Nat.div_le_div_right (by omega)
    have after : a < (a / g + 1) * g := by
      rw [Nat.mul_comm]
      exact Nat.lt_mul_div_succ _ hg
    have rise (i j : Nat) (h : i ≤ j) : i * g ≤ j * g := Nat.mul_le_mul_right g h
    have chain := chained_steps place (fun i => le_max_left ..) ((a + len - 1) / g - a / g + 1) fun i _ => by
      have := rise (a / g + i) (a / g + (i + 1)) (by omega)
      simp only [place]
      omega
    have begins : place 0 - a = 0 := by
      simp only [place, Nat.add_zero]
      omega
    have ends : place ((a + len - 1) / g - a / g + 1) - a = len := by
      have : a / g + ((a + len - 1) / g - a / g + 1) = (a + len - 1) / g + 1 := by omega
      simp only [place, this]
      omega
    rw [begins, ends] at chain
    refine (congrArg (Chained 0 · len) (List.map_congr_left fun i hi => ?_)).mp chain
    have hi := List.mem_range.mp hi
    have upper := rise (a / g + i) ((a + len - 1) / g) (by omega)
    have lower := rise (a / g + 1) (a / g + i + 1) (by omega)
    simp only [place, Prod.mk.injEq, ← Nat.add_assoc]
    omega

/-- A piece of a range is not empty. -/
theorem length_pos_of_mem_cuts {g : Nat} (hg : 0 < g) {a len : Nat} {c : Nat × Nat} (hc : c ∈ cuts g a len) : 0 < c.2 := by
  unfold cuts at hc
  split at hc
  · cases hc
  next some =>
    obtain ⟨i, hi, rfl⟩ := List.mem_map.mp hc
    have hi := List.mem_range.mp hi
    have last : (a + len - 1) / g * g ≤ a + len - 1 := Nat.div_mul_le_self _ g
    have after : a < (a / g + 1) * g := by
      rw [Nat.mul_comm]
      exact Nat.lt_mul_div_succ _ hg
    have order : a / g ≤ (a + len - 1) / g := Nat.div_le_div_right (by omega)
    have upper : (a / g + i) * g ≤ (a + len - 1) / g * g := Nat.mul_le_mul_right g (by omega)
    have lower : (a / g + 1) * g ≤ (a / g + i + 1) * g := Nat.mul_le_mul_right g (by omega)
    have step : (a / g + i) * g < (a / g + i + 1) * g := Nat.mul_lt_mul_of_pos_right (Nat.lt_succ_self _) hg
    dsimp only
    omega

/-! ### Bytes written in pieces -/

theorem putBytes_append (d : Nat → Byte) (r : List Byte) : ∀ (l : List Byte) (t : Tab Byte) (a : Nat),
    putBytes d t a (l ++ r) = putBytes d (putBytes d t a l) (a + l.length) r
  | [], _, _ => rfl
  | b :: l, t, a => by
    rw [List.cons_append, putBytes, putBytes_append d r l, putBytes, List.length_cons, Nat.add_assoc, Nat.add_comm 1]

/-- Steps that each write a piece of a run of bytes write the run. -/
theorem mem_foldS_pieces {f : State → Nat × Nat → State} {o : Nat} {bs : List Byte}
    (hf : ∀ s c, (f s c).mem = putBytes memDefault s.mem (o + c.1) ((bs.drop c.1).take c.2)) :
    ∀ {l : List (Nat × Nat)} {x y : Nat}, Chained x l y → y ≤ bs.length → ∀ s,
      (foldS f s l).mem = putBytes memDefault s.mem (o + x) ((bs.drop x).take (y - x))
  | [], x, _, rfl, _, s => by rw [Nat.sub_self, List.take_zero]; rfl
  | c :: l, x, y, ⟨start, rest⟩, whole, s => by
    subst start
    have order := rest.le
    have cut : (bs.drop c.1).take (y - c.1) = (bs.drop c.1).take c.2 ++ (bs.drop (c.1 + c.2)).take (y - (c.1 + c.2)) := by
      rw [← List.drop_drop, ← List.take_add]
      congr 1
      omega
    have length : ((bs.drop c.1).take c.2).length = c.2 := by
      rw [List.length_take, List.length_drop]
      omega
    have after := mem_foldS_pieces hf rest whole (f s c)
    rw [hf] at after
    rw [cut, putBytes_append, length, Nat.add_assoc, ← after]
    rfl

/-! ### What copying a granule to the lining leaves (R275, R517) -/

/-- What is computed from a state does not depend on what a copy to the lining changes: far requests, counters, epochs, the maps of
granules, and errors of memory words. -/
structure StageInert {β : Type} (g : State → β) : Prop where
  far : ∀ s r, g (s.pushFar r) = g s
  count : ∀ s n k, g (s.bump n k) = g s
  epoch : ∀ s p e, g (s.setEpoch p e) = g s
  frg : ∀ s d f, g (s.setFrg d f) = g s
  flips : ∀ s f, g { s with flips := f } = g s

namespace StageInert
variable {β : Type} {g : State → β} (hg : StageInert g)
include hg

theorem farWrite (s : State) (o : Owner) (e p off key : Nat) (bs : List Byte) : g (s.farWrite o e p off key bs) = g s :=
  foldS_keeps g (fun _ _ => hg.far ..) _ _

theorem linWrite (s : State) (o : Owner) (p off : Nat) (bs : List Byte) : g (s.linWrite o p off bs) = g s := by
  unfold State.linWrite
  split
  · exact (hg.count ..).trans (hg.farWrite ..)
  · rfl

theorem linCopy (s : State) (p u o : Nat) : g (s.linCopy p u o) = g s := by
  simp only [State.linCopy, hg.epoch, hg.linWrite, hg.count, apply_ite g, ite_self]

theorem stageClose (s : State) (o : Nat) : g (s.stageClose o) = g s := by
  rw [stageClose_eq]
  beta_reduce
  cases s.place4K o
  simp only [hg.frg, hg.linCopy, apply_ite g, ite_self]

theorem markClose (s : State) (o : Nat) : g (s.markClose o) = g s := by
  rw [markClose_eq]
  beta_reduce
  cases s.place4K o
  exact hg.frg ..

theorem stageCell (s : State) {o : Nat} (hc : ∀ s c, g (s.setCell ((o - cellBase) / cellBytes) c) = g s) :
    g (s.stageCell o) = g s := by
  unfold State.stageCell
  dsimp only
  split
  · exact (hc ..).trans (hg.linCopy ..)
  · rfl

theorem freshen (s : State) (o n : Nat) : g (s.freshen o n) = g s := by
  unfold State.freshen
  split
  · rfl
  · exact (hg.count ..).trans (hg.flips ..)

/-- A write of a granule of cell memory writes its bytes, and changes its cell. -/
theorem writeGranule (s : State) {o : Nat} (ho : isClose o = false) (bs : List Byte)
    (hc : ∀ s c, g (s.setCell ((o - cellBase) / cellBytes) c) = g s) (hp : ∀ s, g (s.pokeMem o bs) = g s) :
    g (s.writeGranule o bs) = g s := by
  rw [State.writeGranule, ho, if_neg Bool.false_ne_true]
  exact (hg.freshen ..).trans ((hp ..).trans ((hc ..).trans (hg.stageCell s hc)))

theorem saveWrite (s : State) (o : Owner) (e n k : Nat) (bs : List Byte) : g (s.saveWrite o e n k bs) = g s :=
  foldS_keeps g (fun _ _ => by
    split
    · exact hg.farWrite ..
    · rfl) _ _

theorem writeAway (s : State) (o : Owner) (a : Nat) (bs : List Byte) : g (s.writeAway o a bs) = g s := by
  unfold State.writeAway
  dsimp only
  split
  · exact hg.saveWrite ..
  · rfl

end StageInert

theorem mem_stageInert : StageInert State.mem :=
  ⟨fun _ _ => rfl, fun _ _ _ => rfl, fun _ _ _ => rfl, fun _ _ _ => rfl, fun _ _ => rfl⟩

theorem mem_pokeMem (s : State) (a : Nat) (bs : List Byte) : (s.pokeMem a bs).mem = putBytes memDefault s.mem a bs := rfl

theorem mem_setCell (s : State) (n : Nat) (c : Cell) : (s.setCell n c).mem = s.mem := rfl

theorem mem_markCell (s : State) (o : Nat) : (s.markCell o).mem = s.mem := rfl

theorem mem_stageCell (s : State) (o : Nat) : (s.stageCell o).mem = s.mem := mem_stageInert.stageCell s fun _ _ => rfl

theorem mem_writeGranule (s : State) (o : Nat) (bs : List Byte) : (s.writeGranule o bs).mem = putBytes memDefault s.mem o bs := by
  rw [State.writeGranule, apply_ite State.mem, mem_stageInert.freshen, mem_pokeMem, mem_pokeMem, mem_stageInert.markClose,
    mem_stageInert.stageClose, mem_markCell, mem_stageCell, ite_self]

/-- A write of the local map writes exactly its bytes. -/
theorem mem_writeFor (s : State) (owner : Owner) (o : Nat) (bs : List Byte) :
    (s.writeFor owner o bs).mem = putBytes memDefault s.mem o bs := by
  have pieces := mem_foldS_pieces (f := fun s c => (s.writeGranule (o + c.1) ((bs.drop c.1).take c.2)).writeAway owner (o + c.1)
    ((bs.drop c.1).take c.2)) (fun s c => (mem_stageInert.writeAway ..).trans (mem_writeGranule ..))
    (chained_cuts (by decide : 0 < 4096) o bs.length) le_rfl s
  rwa [Nat.sub_zero, List.drop_zero, List.take_length, Nat.add_zero] at pieces

/-! ### Writes of cell memory (R517) -/

theorem isClose_of_cellBase {o : Nat} (h : cellBase ≤ o) : isClose o = false := by
  unfold cellBase at h
  simp only [isClose, decide_eq_false_iff_not]
  omega

/-- What holds of the state is kept by a fold whose steps keep it. -/
theorem foldS_holds {α : Type} {P : State → Prop} {f : State → α → State} : ∀ {l : List α}, (∀ s, ∀ a ∈ l, P s → P (f s a)) →
    ∀ {s : State}, P s → P (foldS f s l)
  | [], _, _, h => h
  | a :: _, hf, s, h => foldS_holds (fun s b hb => hf s b (List.mem_cons_of_mem _ hb)) (hf s a List.mem_cons_self h)

/-- A range that lies wholly in the memory of a cell. -/
def InCell (n o len : Nat) : Prop := cellMem n ≤ o ∧ o + len ≤ cellMem n + cellBytes

/-- A piece of a range in the memory of a cell begins there. -/
theorem InCell.piece {n o len g : Nat} (h : InCell n o len) (hg : 0 < g) {c : Nat × Nat} (hc : c ∈ cuts g o len) :
    cellBase ≤ o + c.1 ∧ (o + c.1 - cellBase) / cellBytes = n := by
  obtain ⟨low, high⟩ := h
  have within := ((chained_cuts hg o len).within hc).2
  have pos := length_pos_of_mem_cuts hg hc
  unfold cellMem at low high
  refine ⟨by omega, Nat.div_eq_of_lt_le ?_ ?_⟩
  · rw [Nat.mul_comm]
    omega
  · rw [Nat.mul_comm, Nat.mul_add, Nat.mul_one]
    omega

/-- A write of the memory of a cell leaves what depends on neither memory nor that cell. -/
theorem StageInert.writeFor {β : Type} {g : State → β} (hg : StageInert g) {n o : Nat} {bs : List Byte} (own : InCell n o bs.length)
    (hc : ∀ s c, g (s.setCell n c) = g s) (hp : ∀ s a bs, g (s.pokeMem a bs) = g s) (s : State) (owner : Owner) :
    g (s.writeFor owner o bs) = g s := by
  refine foldS_holds (P := fun t => g t = g s) (fun t c piece kept => ?_) rfl
  obtain ⟨low, index⟩ := own.piece (by decide : 0 < 4096) piece
  exact (hg.writeAway ..).trans ((hg.writeGranule t (isClose_of_cellBase low) _ (index ▸ hc) fun _ => hp ..).trans kept)

theorem cell_stageInert {m : Nat} : StageInert (fun s => s.cell m) :=
  ⟨fun _ _ => rfl, fun _ _ _ => rfl, fun _ _ _ => rfl, fun _ _ _ => rfl, fun _ _ => rfl⟩

theorem sync_stageInert : StageInert State.sync :=
  ⟨fun _ _ => rfl, fun _ _ _ => rfl, fun _ _ _ => rfl, fun _ _ _ => rfl, fun _ _ => rfl⟩

/-- Of a cell, writing data changes no more than its maps of granules. -/
theorem cellPart_dataInert {α : Type} (part : Cell → α) (hp : ∀ c fz lv, part { c with frozen := fz, live := lv } = part c) (n : Nat) :
    DataInert (fun s => part (s.cell n)) where
  mem _ _ _ := rfl
  ext _ _ _ := rfl
  far _ _ := rfl
  count _ _ _ _ := rfl
  epoch _ _ _ := rfl
  rep _ _ _ := rfl
  sent _ _ _ _ := rfl
  traced _ _ _ _ _ := rfl
  noted _ _ _ := rfl
  corrected _ _ := rfl
  flips _ _ := rfl
  frg _ _ _ := rfl
  granules s m fz lv := by
    rcases eq_or_ne n m with rfl | h
    · rw [State.cell_setCell_self, hp]
    · rw [State.cell_setCell_other _ _ _ _ h]
  bi _ _ _ := rfl
  issued _ _ := rfl

theorem arch_dataInert (n : Nat) : DataInert (fun s => (s.cell n).arch) := cellPart_dataInert Cell.arch (fun _ _ _ => rfl) n

/-- `t` is `s` but for cells and memory, where cell `n` is switched in with no granule frozen and no stored bit has flipped. -/
structure PlainlyWritten (s t : State) (n : Nat) : Prop where
  rest : t = { s with cells := t.cells, mem := t.mem }
  frozen : (t.cell n).frozen = 0
  here : (t.cell n).switchedIn = true
  noFlips : t.flips = []

theorem PlainlyWritten.step {s t : State} {n : Nat} (h : PlainlyWritten s t n) (owner : Owner) {o : Nat} (bs : List Byte)
    (low : cellBase ≤ o) (index : (o - cellBase) / cellBytes = n) :
    PlainlyWritten s ((t.writeGranule o bs).writeAway owner o bs) n := by
  obtain ⟨rest, frozen, here, noFlips⟩ := h
  have stays : t.stageCell o = t := by
    rw [State.stageCell, index, frozen]
    simp
  obtain ⟨live, marked⟩ : ∃ live, t.markCell o = t.setCell n { t.cell n with live := live } :=
    ⟨_, by rw [State.markCell, index]⟩
  have granule : t.writeGranule o bs = (t.setCell n { t.cell n with live := live }).pokeMem o bs := by
    rw [State.writeGranule, isClose_of_cellBase low, if_neg Bool.false_ne_true, stays, marked, State.freshen, if_pos]
    exact List.isEmpty_iff.mpr noFlips
  have cell : ((t.setCell n { t.cell n with live := live }).pokeMem o bs).cell n = { t.cell n with live := live } :=
    State.cell_setCell_self ..
  have home : ((t.setCell n { t.cell n with live := live }).pokeMem o bs).isAway n = false := by
    rw [State.isAway, cell, here]
    rfl
  rw [granule, State.writeAway, index, home, Bool.and_false, if_neg Bool.false_ne_true]
  refine ⟨?_, ?_, ?_, noFlips⟩
  · generalize { t.cell n with live := live } = c
    rw [rest]
    rfl
  · rw [cell]
    exact frozen
  · rw [cell]
    exact here

theorem PlainlyWritten.writeFor {s t : State} {n o : Nat} {bs : List Byte} (own : InCell n o bs.length) (h : PlainlyWritten s t n)
    (owner : Owner) : PlainlyWritten s (t.writeFor owner o bs) n :=
  foldS_holds (P := fun t => PlainlyWritten s t n) (fun t c piece kept => by
    obtain ⟨low, index⟩ := own.piece (by decide : 0 < 4096) piece
    exact kept.step owner _ low index) h

/-! ### Stores -/

theorem getElem_leBytes : ∀ {n k : Nat} (x : Nat) (h : k < (leBytes n x).length), (leBytes n x)[k] = BitVec.ofNat 8 (x / 256 ^ k)
  | _ + 1, 0, x, _ => by rw [pow_zero, Nat.div_one]; rfl
  | n + 1, k + 1, x, h => by
    rw [pow_succ', ← Nat.div_div_eq_div_mul]
    exact getElem_leBytes (n := n) (x / 256) (by simpa [length_leBytes] using h)

/-- What a store leaves, which goes on to the next word. -/
def State.storedAt (s : State) (n addr : Nat) (bs : List Byte) : State := ((s.endFence n true).writeLocal addr bs).advancePc n

section
variable {s : State} {n addr : Nat} {bs : List Byte}

theorem mem_storedAt : (s.storedAt n addr bs).mem = putBytes memDefault s.mem addr bs := by
  have fence : (s.endFence n true).mem = s.mem := by rw [s.endFence_only_cells n true]
  rw [← fence]
  exact mem_writeFor ..

theorem arch_storedAt : ((s.storedAt n addr bs).cell n).arch = (s.cell n).arch.advance := by
  have kept : ((((s.endFence n true).writeLocal addr bs)).cell n).arch = (s.cell n).arch :=
    ((arch_dataInert n).writeFor ..).trans (s.endFence_arch n true)
  rw [State.storedAt, State.advancePc, State.cell_setCell_self, kept]

theorem cell_storedAt_other (own : InCell n addr bs.length) {m : Nat} (h : m ≠ n) :
    (s.storedAt n addr bs).cell m = s.cell m :=
  (State.cell_setCell_other _ _ _ _ h).trans
    ((cell_stageInert.writeFor own (fun _ _ => State.cell_setCell_other _ _ _ _ h) (fun _ _ _ => rfl) _ .none).trans
      (s.endFence_cell_other n m true h))

theorem sync_storedAt (own : InCell n addr bs.length) : (s.storedAt n addr bs).sync = s.sync := by
  have fence : (s.endFence n true).sync = s.sync := by rw [s.endFence_only_cells n true]
  exact (sync_stageInert.writeFor own (fun _ _ => rfl) (fun _ _ _ => rfl) _ .none).trans fence

theorem storedAt_plain (own : InCell n addr bs.length) (noFlips : s.flips = []) (frozen : (s.cell n).frozen = 0)
    (here : (s.cell n).switchedIn = true) :
    s.storedAt n addr bs = { s with cells := (s.storedAt n addr bs).cells, mem := (s.storedAt n addr bs).mem } := by
  have fence := s.endFence_only_cells n true
  have unfrozen : ((s.endFence n true).cell n).frozen = 0 ∧ ((s.endFence n true).cell n).switchedIn = true := by
    rcases s.endFence_cases n true with h | h <;> rw [h]
    · exact ⟨frozen, here⟩
    · rw [State.cell_setCell_self]
      exact ⟨frozen, here⟩
  have flips : (s.endFence n true).flips = [] := by
    rw [fence]
    exact noFlips
  obtain ⟨rest, -, -, -⟩ := PlainlyWritten.writeFor (s := s.endFence n true) own ⟨rfl, unfrozen.1, unfrozen.2, flips⟩ .none
  rw [State.storedAt, State.writeLocal, State.advancePc]
  generalize (s.endFence n true).writeFor .none addr bs = w at rest ⊢
  generalize ({ w.cell n with arch := (w.cell n).arch.advance } : Cell) = c
  rw [fence] at rest
  rw [rest]
  rfl

end

theorem ownCheck_none {n align addr len : Nat} (h : OwnAccess n align addr len) (hlen : 0 < len) : ownCheck n align addr len = none := by
  obtain ⟨aligned, low, high⟩ := h
  rw [ownCheck, if_neg (not_not.mpr aligned), if_neg (by omega), if_neg (by omega)]

section
variable {s : State} {n align len : Nat} {f : F1} {legal : Bool} {body : Nat → State → Eff} {t : State} (hi : Issues s n f.g true)
  (hc : s.moveOverlaps n ((s.cell n).arch.address f) len = false) (own : OwnAccess n align ((s.cell n).arch.address f) len) (hlen : 0 < len)
  (hl : legal = true)
include hi hc own hlen hl

/-- An access whose word executes and which passes the checks has its effect. -/
theorem issueOwn_performs (hb : body ((s.cell n).arch.address f) (s.endFence n true) = .done t) :
    issueOwn n f legal align len s body = .next t := by
  simp [issueOwn, issueTouch, hc, hl, issue_executes hi, ownCheck_none own hlen, hb]

omit hc in
/-- A store that finds no staging buffer for a frozen granule is held. -/
theorem issueStore_held (stage : s.stageOk ((s.cell n).arch.address f) len = false) :
    issueStore n f legal align len s body = .refused .cellNotIssuing := by
  obtain ⟨-, can, -, pc, guard⟩ := hi
  simp [issueStore, State.executes, can, pc, guard, hl, ownCheck_none own hlen, stage]

theorem issueStore_performs (stage : s.stageOk ((s.cell n).arch.address f) len = true)
    (hb : body ((s.cell n).arch.address f) (s.endFence n true) = .done t) : issueStore n f legal align len s body = .next t := by
  simp [issueStore, stage, issueOwn_performs hi hc own hlen hl hb]

end

theorem withWords_unflipped {s : State} (h : s.flips = []) (c : Nat) (g : Guard) (ranges : List (Nat × Nat))
    (k : Host.Outcome State Fault Refusal) : withWords c g ranges s k = k := by
  simp [withWords, h]

theorem legalF1_half {f : F1} {rd : BitVec 5} (h : f.res = 0) (hty : f.ty = 0) (hrd : rd.toNat < 16) :
    (legalF1 true true false f && half rd) = true := by
  simp [legalF1_of_untyped h hty, half, hrd]

theorem legalF1_typed {f : F1} (h : f.res = 0) (hty : f.ty.toNat ≤ 3) :
    (legalF1 true true true f && decide (f.ty.toNat ≤ 3)) = true := by
  simp [legalF1_of_res h, hty]

/-- Memory is what a fence leaves alone. -/
theorem memBytes_endFence (s : State) (n : Nat) (memory : Bool) (a k : Nat) : (s.endFence n memory).memBytes a k = s.memBytes a k := by
  rw [s.endFence_only_cells n memory]
  rfl

theorem ownMemoryLoads : Claims.OwnMemoryLoads := by
  intro s n f hi hres a addr bytes out
  refine ⟨fun hty clear own => ?_, fun hty clear own => ?_, fun hty hrd clear own => ?_⟩
  · refine (withWords_unflipped clear.2 ..).trans (issueOwn_performs hi clear.1 own (Nat.two_pow_pos _) (legalF1_typed hres hty) ?_)
    dsimp only
    rw [State.endFence_arch, memBytes_endFence]
    rfl
  · refine (withWords_unflipped clear.2 ..).trans (issueOwn_performs hi clear.1 own (by decide) (legalF1_of_untyped hres hty) ?_)
    dsimp only
    rw [State.endFence_arch, memBytes_endFence]
    rfl
  · refine (withWords_unflipped clear.2 ..).trans (issueOwn_performs hi clear.1 own (by decide) (legalF1_half hres hty hrd) ?_)
    dsimp only
    rw [State.endFence_arch, memBytes_endFence]
    rfl

/-- The effect of a store of `len` bytes of a register. -/
def storeOf (n len : Nat) (reg : Arch → Nat) (addr : Nat) (s : State) : Eff :=
  .done ((s.writeLocal addr (leBytes len (reg (s.cell n).arch))).advancePc n)

theorem storeOf_endFence (s : State) (n len : Nat) (reg : Arch → Nat) (addr : Nat) :
    storeOf n len reg addr (s.endFence n true) = .done (s.storedAt n addr (leBytes len (reg (s.cell n).arch))) := by
  rw [storeOf, State.endFence_arch]
  rfl

theorem exec_st {s : State} (n : Nat) (f : F1) (noFlips : s.flips = []) : exec (.st n f) s =
    issueStore n f (legalF1 true true true f && decide (f.ty.toNat ≤ 3)) (scalarBytes f.ty) (scalarBytes f.ty) s
      (storeOf n (scalarBytes f.ty) fun a => (a.sreg f.rd.toNat).toNat) := by
  have whole : s.badWords ((s.cell n).arch.address f) (scalarBytes f.ty) = [] := by simp [State.badWords, State.flaws, noFlips]
  rw [exec, execSt]
  dsimp only
  rw [whole, List.isEmpty_nil, Bool.not_true, Bool.and_false, if_neg Bool.false_ne_true]
  rfl

theorem ownMemoryStores : Claims.OwnMemoryStores := by
  intro s n f hi hres _ a addr stores
  have done {i : Instr} {align len : Nat} {legal : Bool} {reg : Arch → Nat} (hl : legal = true) (hlen : 0 < len)
      (row : s.flips = [] → exec i s = issueStore n f legal align len s (storeOf n len reg)) : stores i align len (reg a) := by
    intro clear own
    rw [row clear.2]
    have inCell : InCell n addr (leBytes len (reg a)).length := by
      rw [length_leBytes]
      exact own.2
    refine ⟨issueStore_held hi own hlen hl, fun stage => ⟨s.storedAt n addr (leBytes len (reg a)),
      issueStore_performs hi clear.1 own hlen hl stage (storeOf_endFence ..), fun k hk => ?_, fun p hp => ?_, arch_storedAt,
      fun m hm => cell_storedAt_other inCell hm, sync_storedAt inCell, storedAt_plain inCell clear.2⟩⟩
    · have hk : k < (leBytes len (reg a)).length := by rwa [length_leBytes]
      rw [State.memByte, mem_storedAt, putBytes_get_self _ _ _ _ _ hk, getElem_leBytes]
    · rw [State.memByte, mem_storedAt, putBytes_get_other _ _ _ _ _ (by rwa [length_leBytes])]
      rfl
  exact ⟨fun hty => done (reg := fun a => (a.sreg f.rd.toNat).toNat) (legalF1_typed hres hty) (Nat.two_pow_pos _) (exec_st n f),
    fun hty => done (reg := fun a => (a.vreg f.rd.toNat).toNat) (legalF1_of_untyped hres hty) (by decide) fun _ => rfl,
    fun hty hrd => done (reg := fun a => (a.treg f.rd.toNat).toNat) (legalF1_half hres hty hrd) (by decide) fun _ => rfl⟩

/-! ### Uncorrectable errors (R52, R503) -/

namespace QuenchInert
variable {β : Type} {g : State → β} (hg : QuenchInert g)
include hg

theorem abortCmd (hcmd : ∀ s c, g (s.setCmd c) = g s) (s : State) (id : Nat) : g (s.abortCmd id) = g s := by
  have quenched := hg.quenchCmd hcmd s id 4
  unfold State.abortCmd
  dsimp only
  split
  · split
    · exact (hcmd ..).trans quenched
    · exact quenched
  · exact quenched

theorem noLining (s : State) (p : Nat) : g (s.noLining p) = g s := by
  unfold State.noLining
  split
  · exact hg.epoch ..
  · exact hg.toReportInert.faultNotice ..

theorem freeBytes (s : State) (a n : Nat) : g (s.freeBytes a n) = g s := (hg.free ..).trans (hg.mem ..)

/-- What follows the end of the commands where no lining serves. -/
theorem freeWords (s : State) (p : Nat) (words : List Nat) :
    g (foldS (fun s w => (s.freeBytes (cellBase + 8 * w) 8).freshen (cellBase + 8 * w) 8) (s.noLining p) words) = g s :=
  (foldS_keeps g (fun _ _ => (hg.toDataInert.freshen ..).trans (hg.freeBytes ..)) _ _).trans (hg.noLining ..)

end QuenchInert

theorem arch_quenchInert (n : Nat) : QuenchInert (fun s => (s.cell n).arch) where
  toDataInert := arch_dataInert n
  free _ _ := rfl
  run s m r := by
    rcases eq_or_ne n m with rfl | h
    · rw [State.cell_setCell_self]
    · rw [State.cell_setCell_other _ _ _ _ h]
  waits _ _ := rfl
  fdescs _ _ := rfl
  requests _ _ _ := rfl
  colls _ _ _ := rfl
  drip _ _ _ := rfl

theorem find?_map_replace {c d : Cmd} {id : Nat} (named : d.id = id) : ∀ {l : List Cmd}, l.find? (fun e => e.id == id) = some c →
    (l.map fun e => if e.id == id then d else e).find? (fun e => e.id == id) = some d
  | e :: l, h => by
    cases here : e.id == id with
    | true => rw [List.map_cons, here, if_pos rfl, List.find?_cons_of_pos (by simpa using named)]
    | false =>
      rw [List.find?_cons_of_neg (by simpa using here)] at h
      rw [List.map_cons, here, if_neg Bool.false_ne_true, List.find?_cons_of_neg (by simpa using here)]
      exact find?_map_replace named h

/-- A started command that a hardware failure ends completes with `ABORTED`. -/
theorem cmd_abortCmd_of_started {s : State} {id : Nat} {c : Cmd} (found : s.cmd id = some c) (started : c.phase = .started)
    (unset : c.status = 0) : ∃ d, (s.abortCmd id).cmd id = some d ∧ d.status = 4 := by
  obtain rfl : c.id = id := by simpa using List.find?_some found
  obtain ⟨fin, cmds⟩ := cmds_quenchCmd_of_started found started 4
  have quenched : (s.quenchCmd c.id 4).cmd c.id = some (c.quenched 4 fin) := by
    rw [State.cmd, cmds]
    exact find?_map_replace (d := c.quenched 4 fin) rfl found
  have status : (c.quenched 4 fin).status = 4 := if_pos unset
  unfold State.abortCmd
  dsimp only
  rw [quenched]
  dsimp only
  split
  · refine ⟨{ c.quenched 4 fin with hwFail := true }, ?_, status⟩
    exact find?_map_replace (d := { c.quenched 4 fin with hwFail := true }) rfl quenched
  · exact ⟨_, quenched, status⟩

section
variable {s : State} {n : Nat} {g : Guard} (hi : Issues s n g true) (flipped : s.flips ≠ [])
include hi flipped

/-- An instruction that executes and goes on reads words of cell memory. -/
theorem withWords_executes {ranges : List (Nat × Nat)} {t : State} (goes : (t.cell n).run = .issuing) :
    withWords n g ranges s (.next t) =
      let bad := (ranges.flatMap fun r => s.badWords r.1 r.2).eraseDups
      if bad.isEmpty then .next (t.bump 51 (ranges.foldl (fun x r => x + s.correctable r.1 r.2) 0))
      else if s.awaitsRepair (s.partOfCell n) bad then .refused .cellNotIssuing
      else .next (s.loseWords (s.partOfCell n) (s.cell n).cmd.toList bad) := by
  obtain ⟨-, can, -, pc, guard⟩ := hi
  have some : s.flips.isEmpty = false := by simpa using flipped
  have runs : (s.executes n g true && (t.cell n).run == .issuing) = true := by simp [State.executes, can, pc, guard, goes]
  rw [withWords, some, if_neg Bool.false_ne_true]
  dsimp only
  rw [runs, if_pos rfl]

end

theorem run_of_issues {s : State} {n : Nat} {g : Guard} {memory : Bool} (hi : Issues s n g memory) : (s.cell n).run = .issuing := by
  obtain ⟨-, can, -⟩ := hi
  simp only [State.canIssue, Bool.and_eq_true, beq_iff_eq] at can
  exact can.1.1.1.1.1.2

/-- Where no lining serves, the commands that consume lost words end, and the words become free values. -/
theorem loseWords_unlined {s : State} {p : Nat} (h : s.linSafe p = false) (ids words : List Nat) :
    s.loseWords p ids words = foldS (fun s w => (s.freeBytes (cellBase + 8 * w) 8).freshen (cellBase + 8 * w) 8)
      ((foldS State.abortCmd (s.spoilRecord 4) ids).noLining p) words := by
  have same : (s.spoilRecord 4).linSafe p = false := by
    rw [← h, State.spoilRecord]
    split <;> rfl
  rw [State.loseWords, same, if_neg Bool.false_ne_true]

theorem cmd_of_cmds {s t : State} (h : t.cmds = s.cmds) (id : Nat) : t.cmd id = s.cmd id := by rw [State.cmd, h, State.cmd]

/-- What no lining serves leaves the registers, and ends the command. -/
theorem loseWords_unlined_effect {s : State} {p : Nat} (h : s.linSafe p = false) (n : Nat) (words : List Nat) :
    ((s.loseWords p (s.cell n).cmd.toList words).cell n).arch = (s.cell n).arch ∧
      ∀ id c, (s.cell n).cmd = some id → s.cmd id = some c → c.status = 0 → c.phase = .started →
        ∃ d, (s.loseWords p (s.cell n).cmd.toList words).cmd id = some d ∧ d.status = 4 := by
  have spoilt {β : Type} (g : State → β) (hg : ∀ s b, g { s with boot := b } = g s) : g (s.spoilRecord 4) = g s := by
    rw [State.spoilRecord]
    split
    · exact hg ..
    · rfl
  rw [loseWords_unlined h]
  constructor
  · refine ((arch_quenchInert n).freeWords ..).trans ?_
    refine (foldS_keeps (fun s => (s.cell n).arch) (fun u id => (arch_quenchInert n).abortCmd (fun _ _ => rfl) u id) _ _).trans ?_
    exact spoilt (fun s => (s.cell n).arch) fun _ _ => rfl
  · intro id c cmd found unset started
    rw [cmd]
    have found : (s.spoilRecord 4).cmd id = some c := (cmd_of_cmds (spoilt State.cmds fun _ _ => rfl) id).trans found
    obtain ⟨d, ended, status⟩ := cmd_abortCmd_of_started found started unset
    exact ⟨d, (cmd_of_cmds (cmds_quenchInert.freeWords ..) id).trans ended, status⟩

theorem cellMemoryErrors : Claims.CellMemoryErrors := by
  intro s n f hi hres hty flipped a addr p noMove own
  have loaded : runVld n f s = .next (s.withArch n true (a.setV f.rd.toNat (BitVec.ofNat 2048 (leNat (s.memBytes addr 256)))).advance) := by
    refine issueOwn_performs hi noMove own (by decide) (legalF1_of_untyped hres hty) ?_
    dsimp only
    rw [State.endFence_arch, memBytes_endFence]
    rfl
  have goes (b : Arch) : ((s.withArch n true b).cell n).run = .issuing := by
    rw [State.withArch, State.cell_setCell_self]
    exact (s.endFence_run n true).trans (run_of_issues hi)
  have row : exec (.vld n f) s = withWords n f.g [(addr, 256)] s (runVld n f s) := rfl
  rw [row, loaded, withWords_executes hi flipped (goes _)]
  simp only [List.flatMap_cons, List.flatMap_nil, List.append_nil, List.foldl_cons, List.foldl_nil, Nat.zero_add]
  refine ⟨fun whole => ?_, fun broken unlined ready => ⟨s.loseWords p (s.cell n).cmd.toList (s.badWords addr 256).eraseDups, ?_,
    loseWords_unlined_effect unlined n _⟩⟩
  · rw [whole]
    rfl
  · have some : (s.badWords addr 256).eraseDups.isEmpty = false := by
      obtain ⟨w, l, words⟩ := List.exists_cons_of_ne_nil broken
      rw [words, List.eraseDups_cons]
      rfl
    rw [some, if_neg Bool.false_ne_true, ready, if_neg Bool.false_ne_true]

/-- Settles O16: an access that passes its checks reads or writes exactly the bytes at its address, and what a read corrects or loses
follows its data. -/
theorem ownMemoryAccesses : Obligations.OwnMemoryAccesses := by
  unfold Obligations.OwnMemoryAccesses
  exact ⟨ownMemoryLoads, ownMemoryStores, cellMemoryErrors⟩

end Sys2Proof.Machine


/-!
PROOFS. Tile descriptors and tile moves (O21): the runs of a move inside the own cell memory do not meet, so each lands as it was read.
-/

namespace Sys2Proof.Machine

/-! ### Descriptor fields (R108, R112, R113) -/

/-- A field of a descriptor, and what is outside it, after it has been written. -/
theorem descriptor_set (old : BitVec 256) {lo w v : Nat} (hv : v < 2 ^ w) (top : lo + w ≤ 256) :
    let x := BitVec.ofNat 256 (setBits old.toNat lo w v)
    bits x.toNat lo w = v ∧ ∀ b, b < lo ∨ lo + w ≤ b → x.getLsbD b = old.getLsbD b := by
  refine ⟨?_, fun b hb => ?_⟩
  · rw [BitVec.toNat_ofNat, bits_mod _ _ _ _ top, bits_setBits_self, Nat.mod_eq_of_lt hv]
  · rw [BitVec.getLsbD_ofNat, testBit_setBits, if_neg (by omega)]
    rcases Nat.lt_or_ge b 256 with h | h
    · simp [h, BitVec.getLsbD]
    · simp [Nat.not_lt.mpr h, BitVec.getLsbD_of_ge old b h]

theorem legalF0_tile {f : F0} (hrb : f.rb = 0) (plain : plainF0 f) (hrd : f.rd.toNat < 16) (ok : Bool) (hok : ok = true) :
    (legalF0 { rd := true, ra := true } f ok && half f.rd) = true := by
  obtain ⟨hrc, hty, hrm, hri, hres⟩ := plain
  simp [legalF0, half, hrb, hrc, hty, hrm, hri, hres, hrd, hok]

theorem descriptorFields : Claims.DescriptorFields := by
  intro s n f hi hrb plain hrd a v old
  refine ⟨fun code lo w most field hx => ?_, fun hx => ?_⟩
  · have legal := legalF0_tile hrb plain hrd (decide (f.xop.toNat ≤ 8))
    have facts : tsetField code = (lo, w, most) ∧ most < 2 ^ w ∧ lo + w ≤ 256 ∧ code ≤ 8 := by
      simp only [List.mem_cons, Prod.mk.injEq, List.not_mem_nil, or_false] at field
      rcases field with ⟨rfl, rfl, rfl, rfl⟩ | ⟨rfl, rfl, rfl, rfl⟩ | ⟨rfl, rfl, rfl, rfl⟩ | ⟨rfl, rfl, rfl, rfl⟩ |
        ⟨rfl, rfl, rfl, rfl⟩ | ⟨rfl, rfl, rfl, rfl⟩ | ⟨rfl, rfl, rfl, rfl⟩ | ⟨rfl, rfl, rfl, rfl⟩ | ⟨rfl, rfl, rfl, rfl⟩ <;>
        exact ⟨rfl, by decide, by decide, by decide⟩
    obtain ⟨place, fits, top, small⟩ := facts
    have row : exec (.tset n f) s = issueArch n f.g true s fun a =>
        if most < (a.sreg f.ra.toNat).toNat then .fault 5
        else .ok (a.setT f.rd.toNat (BitVec.ofNat 256 (setBits (a.treg f.rd.toNat).toNat lo w (a.sreg f.ra.toNat).toNat))) := by
      rw [exec, execTset, legal (by simpa [hx] using small), hx, place]
    rw [row, issueArch_executes hi]
    refine ⟨fun low => ⟨_, ?_, descriptor_set old (low.trans_lt fits) top⟩, fun high => ?_⟩
    · rw [if_neg (Nat.not_lt.mpr low)]
    · rw [if_pos high]
  · have row : exec (.tadv n f) s = issueArch n f.g true s fun a =>
        .ok (a.setT f.rd.toNat (BitVec.ofNat 256 (setBits (a.treg f.rd.toNat).toNat 0 64
          ((BitVec.ofNat 64 (a.treg f.rd.toNat).toNat) + a.sreg f.ra.toNat).toNat))) := by
      rw [exec, execTadv, legalF0_tile hrb plain hrd (f.xop == 0) (by rw [hx]; rfl)]
    obtain ⟨low, high⟩ := descriptor_set old (lo := 0) (w := 64) (BitVec.ofNat 64 old.toNat + a.sreg f.ra.toNat).isLt (by decide)
    rw [row, issueArch_executes hi]
    refine ⟨_, rfl, ?_, ?_⟩
    · refine BitVec.eq_of_toNat_eq ?_
      have same : BitVec.ofNat 64 old.toNat = old.extractLsb' 0 64 := by
        refine BitVec.eq_of_toNat_eq ?_
        simp [BitVec.extractLsb'_toNat]
      rw [← same]
      refine Eq.trans ?_ low
      rw [BitVec.extractLsb'_toNat, bits, pow_zero, Nat.div_one, Nat.shiftRight_zero]
    · refine BitVec.eq_of_getLsbD_eq fun i hi => ?_
      rw [BitVec.getLsbD_extractLsb', BitVec.getLsbD_extractLsb', high _ (.inr (Nat.le_add_right 64 i))]

/-! ### Completion (R126, R127) -/

theorem slot_setSlot_self (c : Cell) (i : Nat) (m : Option TileMove) : (c.setSlot i m).slot i = m :=
  Tab.get_set_self (fun _ => none) c.slots i m

/-- What a signal on its way leaves: everything but the signals, what is originated, and the counts of the engine. -/
theorem field_of_issueSig {α : Type} (g : State → α) (sigs : ∀ s x k, g { s with sigs := x, farTag := k } = g s)
    (sent : ∀ s o e p, g (s.originate o e p) = g s) (issued : ∀ s e, g (s.countIssued e) = g s) (s : State) (eng : Engine)
    (owner : Owner) (p : Nat) (cmd : Option Nat) (after : Nat) (r : SyncRef) (set : Bool) (v : Word) :
    g (s.issueSig eng owner p cmd after r set v) = g s := by
  cases r with
  | loc n => exact sigs ..
  | rem m n => exact (issued ..).trans (sent ..)
  | bad k => rfl

/-- A stall or wait on a slot ends where the cell has one, and changes that cell. -/
theorem field_of_resumeSlot {α : Type} (g : State → α) (cell : ∀ s n c, g (s.setCell n c) = g s) (s : State) (n slot : Nat) :
    g (s.resumeSlot n slot) = g s := by
  unfold State.resumeSlot
  dsimp only
  split
  · split
    · exact cell ..
    · rfl
  · rfl

theorem slots_resumeSlot (s : State) (n slot : Nat) : ((s.resumeSlot n slot).cell n).slots = (s.cell n).slots := by
  unfold State.resumeSlot
  dsimp only
  split
  · split
    · rw [State.cell_setCell_self]
    · rfl
  · rfl

theorem resumeSlot_waiting {s : State} {n slot : Nat} {adv : Bool} (h : (s.cell n).run = .waitSlot slot adv) :
    ((s.resumeSlot n slot).cell n).run = .issuing ∧
      ((s.resumeSlot n slot).cell n).arch = if adv then (s.cell n).arch.advance else (s.cell n).arch := by
  rw [State.resumeSlot]
  simp only [h, if_true]
  rw [State.cell_setCell_self]
  exact ⟨rfl, rfl⟩

/-- The state in which a move has freed its slot and signalled. -/
def State.moveDone (s : State) (n slot : Nat) (m : TileMove) : State :=
  let s1 := s.setCell n ((s.cell n).setSlot slot none)
  match m.sg with
  | some a => s1.issueSig (.cell n) (.cell n) (s.partOfCell n) (s.cell n).cmd 0 (s1.syncRef (s.partOfCell n) a.toNat) false 1
  | none => s1

theorem field_of_moveDone {α : Type} (g : State → α) (sigs : ∀ s x k, g { s with sigs := x, farTag := k } = g s)
    (sent : ∀ s o e p, g (s.originate o e p) = g s) (issued : ∀ s e, g (s.countIssued e) = g s) (s : State) (n slot : Nat)
    (m : TileMove) : g (s.moveDone n slot m) = g (s.setCell n ((s.cell n).setSlot slot none)) := by
  unfold State.moveDone
  dsimp only
  split
  · exact field_of_issueSig g sigs sent issued ..
  · rfl

theorem cell_moveDone (s : State) (n slot : Nat) (m : TileMove) : (s.moveDone n slot m).cell n = (s.cell n).setSlot slot none :=
  (field_of_moveDone (fun s => s.cell n) (fun _ _ _ => rfl) (fun _ _ _ _ => rfl) (fun _ _ => rfl) ..).trans
    (State.cell_setCell_self ..)

theorem exec_tileMoveComplete {s : State} {n slot : Nat} {m : TileMove} (live : s.live = true) (hn : n < 512) (hs : slot < 4)
    (move : (s.cell n).slot slot = some m) (done : s.outstanding (.slot n slot) = false)
    (quiet : s.quiet (Engine.key (.cell n)) = true) :
    exec (.tileMoveComplete n slot) s = .next ((s.moveDone n slot m).resumeSlot n slot) := by
  rw [exec, execTileMoveComplete, whenFormed_of_formed _ (by simp [hn, hs]), whenLive_of_live _ live, move]
  exact whenDue_of_due _ (by simp [done, quiet])

theorem tileMoveCompletes : Claims.TileMoveCompletes := by
  intro s n slot m live hn hs move done quiet
  have cell := cell_moveDone s n slot m
  refine ⟨_, exec_tileMoveComplete live hn hs move done quiet, ?_, ?_, ?_, fun j waits => ?_, fun unsigned => ?_,
    fun v o signal object => ?_⟩
  · rw [Cell.slot, slots_resumeSlot, cell]
    exact slot_setSlot_self ..
  · exact (field_of_resumeSlot State.mem (fun _ _ _ => rfl) ..).trans
      (field_of_moveDone State.mem (fun _ _ _ => rfl) (fun _ _ _ _ => rfl) (fun _ _ => rfl) ..)
  · exact (field_of_resumeSlot State.sync (fun _ _ _ => rfl) ..).trans
      (field_of_moveDone State.sync (fun _ _ _ => rfl) (fun _ _ _ _ => rfl) (fun _ _ => rfl) ..)
  · have run : ((s.moveDone n slot m).cell n).run = .waitSlot slot j := by
      rw [cell]
      exact waits
    have resumed := resumeSlot_waiting run
    rwa [cell] at resumed
  · rw [field_of_resumeSlot State.sigs (fun _ _ _ => rfl), State.moveDone, unsigned]
    rfl
  · refine ⟨{ eng := .cell n, part := s.partOfCell n, obj := o, set := false, v := 1, cmd := (s.cell n).cmd, ord := 0, ack := none },
      ?_, rfl, rfl, rfl, rfl⟩
    have object : (s.setCell n ((s.cell n).setSlot slot none)).syncRef (s.partOfCell n) v.toNat = .loc o := object
    rw [field_of_resumeSlot State.sigs (fun _ _ _ => rfl), State.moveDone, signal]
    dsimp only
    rw [object]
    rfl

/-! ### Moving data (R70, R124) -/

/-- What is computed from a state does not depend on what moving data changes: besides what writing data changes, what has been
gathered, what commands have fetched, and reads of other modules. -/
structure MoveInert {β : Type} (g : State → β) : Prop extends DataInert g where
  gather : ∀ s x, g { s with gather := x } = g s
  fetched : ∀ s x, (x.map Cmd.id = s.cmds.map Cmd.id) → g { s with cmds := x } = g s
  reads : ∀ s r k e, g { s with farTag := k, fab := { s.fab with reads := r, etag := e } } = g s

namespace MoveInert
variable {β : Type} {g : State → β} (hg : MoveInert g)
include hg

theorem farRead (s : State) (o : Owner) (e p off key len dest : Nat) : g (s.farRead o e p off key len dest) = g s :=
  foldS_keeps g (fun _ _ => hg.far ..) _ _

theorem remRead (s : State) (o : Owner) (e m off len dest : Nat) : g (s.remRead o e m off len dest) = g s :=
  foldS_keeps g (fun _ _ => (hg.reads ..).trans (hg.sent ..)) _ _

theorem arriveAt (s : State) (o : Owner) (e p dest : Nat) (bs : List Byte) : g (s.arriveAt o e p dest bs) = g s := by
  unfold State.arriveAt
  split
  · refine hg.fetched _ _ ?_
    rw [List.map_map]
    refine List.map_congr_left fun c _ => ?_
    dsimp only [Function.comp]
    split <;> rfl
  · split
    · exact hg.toDataInert.deliver ..
    · rfl

theorem pour (s : State) (o : Owner) : g (s.pour o) = g s := by
  unfold State.pour
  refine (foldS_keeps g (fun u line => ?_) _ _).trans (hg.gather ..)
  split
  · exact foldS_keeps g (fun _ _ => hg.arriveAt ..) _ _
  · rfl

theorem readLocal (s : State) (o : Owner) (e p a len dest : Nat) {k : State → Nat → List Byte → State}
    (hk : ∀ s c bs, g (k s c bs) = g s) : g (s.readLocal o e p a len dest k) = g s := by
  unfold State.readLocal
  split
  · refine foldS_keeps g (fun u c => ?_) _ _
    dsimp only
    split
    · exact hg.bi ..
    · exact hk ..
  · exact hk ..

theorem readFor (s : State) (o : Owner) (e p : Nat) (src : Home) (dest len : Nat) : g (s.readFor o e p src dest len) = g s := by
  unfold State.readFor
  split
  · dsimp only
    split
    · refine foldS_keeps g (fun u c => ?_) _ _
      split
      · exact hg.farRead ..
      · exact hg.gather ..
    · exact hg.readLocal _ _ _ _ _ _ _ fun _ _ _ => hg.gather ..
  · split
    · exact (hg.gather ..).trans (hg.count _ 61 _ (by decide))
    · exact hg.farRead ..
  · exact hg.farRead ..
  · exact hg.remRead ..

theorem take (s : State) (src : Home) (len : Nat) : g (s.take src len).1 = g s := by
  unfold State.take
  split
  · rfl
  · exact hg.count _ 61 _ (by decide)
  · rfl

theorem transfer (s : State) (o : Owner) (e p : Nat) (src dst : Home) (dest span : Nat) (runs : List (Nat × Nat × Nat)) :
    g (s.transfer o e p src dst dest span runs) = g s := by
  unfold State.transfer
  dsimp only
  split
  · exact (foldS_keeps g (fun _ _ => (hg.toDataInert.deliver ..).trans (hg.take ..)) _ _).trans (hg.gather ..)
  · exact (hg.pour ..).trans ((foldS_keeps g (fun _ _ => hg.readFor ..) _ _).trans (hg.gather ..))

end MoveInert

theorem cellPart_moveInert {α : Type} (part : Cell → α) (hp : ∀ c fz lv, part { c with frozen := fz, live := lv } = part c) (n : Nat) :
    MoveInert (fun s => part (s.cell n)) where
  toDataInert := cellPart_dataInert part hp n
  gather _ _ := rfl
  fetched _ _ _ := rfl
  reads _ _ _ _ := rfl

/-! ### The instructions tm and tm.wait (R124-R126) -/

/-- What tm does where it executes. -/
def tmEff (n : Nat) (f : F4) (src dst : Tile) (s : State) : Eff :=
  let slot := f.id.toNat
  let k := s.cell n
  let sg := if f.sg = 0 then none else some (k.arch.sreg f.sg.toNat)
  let m : TileMove := { src := k.arch.treg f.ts.toNat, dst := k.arch.treg f.td.toNat, sg := sg }
  if (k.slot slot).isSome then .done (s.setCell n { k with run := .waitSlot slot false })
  else
    match s.tmCheck n src dst sg with
    | some e => .fault e
    | none =>
      if src.empty || dst.empty then .done ((s.setCell n (k.setSlot slot (some m))).advancePc n)
      else
        match s.tileHomes n src dst with
        | .error e => .fault e
        | .ok (a, b) => .done ((s.startMove n slot m a b).advancePc n)

/-- tm with its source and destination in place: it issues as any access of memory. -/
theorem exec_tm {s : State} {n : Nat} {f : F4} {src dst : Tile} (hsrc : src = tileOf ((s.cell n).arch.treg f.ts.toNat))
    (hdst : dst = tileOf ((s.cell n).arch.treg f.td.toNat)) (hres : f.res = 0) (lost : s.lostIn src.base src.extent = false)
    (gone : s.goneIn src.base src.extent = false) (goneD : s.goneIn dst.base dst.extent = false)
    (reset : s.resetHolds dst.base dst.extent = false) (clear : Clear s n src.base src.extent)
    (clearD : Clear s n dst.base dst.extent) : exec (.tm n f) s = issue n f.g true true s (tmEff n f src dst) := by
  subst hsrc hdst
  have legal : legalF4 true true f = true := by simp [legalF4, hres]
  refine (withWords_unflipped clear.2 ..).trans ?_
  rw [runTm]
  simp only [lost, gone, goneD, reset, Bool.or_false, Bool.and_false, if_neg Bool.false_ne_true]
  rw [issueTouch, legal, if_neg]
  · rfl
  · intro held
    obtain ⟨-, held⟩ := (Bool.and_eq_true ..).mp held
    obtain ⟨r, mem, meets⟩ := List.any_eq_true.mp held
    obtain ⟨t, tile, range⟩ := List.mem_filterMap.mp mem
    split at range
    · obtain rfl := Option.some.inj range
      rcases List.mem_pair.mp tile with rfl | rfl
      · exact Bool.false_ne_true (clear.1.symm.trans meets)
      · exact Bool.false_ne_true (clearD.1.symm.trans meets)
    · cases range

theorem slot_endFence (s : State) (n : Nat) (memory : Bool) (i : Nat) : ((s.endFence n memory).cell n).slot i = (s.cell n).slot i := by
  rcases s.endFence_cases n memory with h | h <;> rw [h]
  rw [State.cell_setCell_self]
  rfl

theorem slot_advancePc (s : State) (n i : Nat) : ((s.advancePc n).cell n).slot i = (s.cell n).slot i := by
  rw [State.advancePc, State.cell_setCell_self]
  rfl

theorem arch_advancePc (s : State) (n : Nat) : ((s.advancePc n).cell n).arch = (s.cell n).arch.advance := by
  rw [State.advancePc, State.cell_setCell_self]

theorem tmCheck_endFence (s : State) (n : Nat) (src dst : Tile) (sg : Option Word) :
    (s.endFence n true).tmCheck n src dst sg = s.tmCheck n src dst sg := by
  rw [s.endFence_only_cells n true]
  rfl

theorem tileHomes_endFence (s : State) (n : Nat) (src dst : Tile) : (s.endFence n true).tileHomes n src dst = s.tileHomes n src dst := by
  rw [s.endFence_only_cells n true]
  rfl

/-- A started move: its slot is taken, and its data are on their way. -/
theorem slot_startMove (s : State) (n i : Nat) (m : TileMove) (h k : Home) : ((s.startMove n i m h k).cell n).slot i = some m := by
  have kept := (cellPart_moveInert Cell.slots (fun _ _ _ => rfl) n).transfer (s.setCell n ((s.cell n).setSlot i (some m)))
    (.slot n i) (Engine.key (.cell n)) (s.partOfCell n) h k (tileOf m.dst).base (tileOf m.src).extent
    (tileRuns (tileOf m.src) (tileOf m.dst))
  have slots : ((s.startMove n i m h k).cell n).slots = ((s.cell n).setSlot i (some m)).slots := by
    refine Eq.trans ?_ (kept.trans (congrArg Cell.slots (State.cell_setCell_self ..)))
    rfl
  rw [Cell.slot, slots]
  exact slot_setSlot_self ..

theorem arch_startMove (s : State) (n i : Nat) (m : TileMove) (h k : Home) :
    ((s.startMove n i m h k).cell n).arch = (s.cell n).arch := by
  have kept := (cellPart_moveInert Cell.arch (fun _ _ _ => rfl) n).transfer (s.setCell n ((s.cell n).setSlot i (some m)))
    (.slot n i) (Engine.key (.cell n)) (s.partOfCell n) h k (tileOf m.dst).base (tileOf m.src).extent
    (tileRuns (tileOf m.src) (tileOf m.dst))
  have cell : ((s.setCell n ((s.cell n).setSlot i (some m))).cell n).arch = (s.cell n).arch := by
    rw [State.cell_setCell_self]
    rfl
  refine Eq.trans ?_ (kept.trans cell)
  rfl

theorem exec_tmWait {s : State} {n : Nat} {f : F4} (hi : Issues s n f.g false) (hres : f.res = 0) (htd : f.td = 0) (hts : f.ts = 0)
    (hsg : f.sg = 0) : exec (.tmWait n f) s =
      .next (if ((s.cell n).slot f.id.toNat).isSome then
        (s.endFence n false).setCell n { (s.endFence n false).cell n with run := .waitSlot f.id.toNat true }
      else s.withArch n false (s.cell n).arch.advance) := by
  have legal : legalF4 false false f = true := by simp [legalF4, hres, htd, hts, hsg]
  rw [exec, execTmWait, legal, issue_executes hi]
  dsimp only
  rw [slot_endFence]
  cases ((s.cell n).slot f.id.toNat).isSome
  · rw [if_neg Bool.false_ne_true, if_neg Bool.false_ne_true, State.withArch, ← s.endFence_arch n false]
    rfl
  · rfl

/-- The move that tm starts. -/
def moveOf (a : Arch) (f : F4) : TileMove :=
  { src := a.treg f.ts.toNat, dst := a.treg f.td.toNat, sg := if f.sg = 0 then none else some (a.sreg f.sg.toNat) }

section
variable {s : State} {n : Nat} {f : F4} {src dst : Tile} (hi : Issues s n f.g true)
  (row : exec (.tm n f) s = issue n f.g true true s (tmEff n f src dst))
include hi row

theorem tm_stalls (busy : (s.cell n).slot f.id.toNat ≠ none) : exec (.tm n f) s =
    .next ((s.endFence n true).setCell n { (s.endFence n true).cell n with run := .waitSlot f.id.toNat false }) := by
  have busy : (((s.endFence n true).cell n).slot f.id.toNat).isSome = true := by
    rw [slot_endFence]
    exact Option.isSome_iff_ne_none.mpr busy
  rw [row, issue_executes hi, tmEff]
  simp only [busy, if_true]

variable (free : (s.cell n).slot f.id.toNat = none) (check : s.tmCheck n src dst (moveOf (s.cell n).arch f).sg = none)
include free check

omit hi row in
/-- With its slot free and its checks passed, tm starts its move. -/
theorem tmEff_passes : tmEff n f src dst (s.endFence n true) =
    if src.empty || dst.empty then .done (((s.endFence n true).setCell n
      (((s.endFence n true).cell n).setSlot f.id.toNat (some (moveOf (s.cell n).arch f)))).advancePc n)
    else match s.tileHomes n src dst with
      | .error e => .fault e
      | .ok (a, b) => .done (((s.endFence n true).startMove n f.id.toNat (moveOf (s.cell n).arch f) a b).advancePc n) := by
  have free : (((s.endFence n true).cell n).slot f.id.toNat).isSome = false := by
    rw [slot_endFence, free]
    rfl
  have check : (s.endFence n true).tmCheck n src dst (if f.sg = 0 then none else some ((s.cell n).arch.sreg f.sg.toNat)) = none :=
    (tmCheck_endFence ..).trans check
  rw [tmEff]
  simp only [State.endFence_arch]
  rw [free, if_neg Bool.false_ne_true, check, tileHomes_endFence]
  rfl

theorem tm_empty (empty : (src.empty || dst.empty) = true) : exec (.tm n f) s =
    .next (((s.endFence n true).setCell n
      (((s.endFence n true).cell n).setSlot f.id.toNat (some (moveOf (s.cell n).arch f)))).advancePc n) := by
  rw [row, issue_executes hi, tmEff_passes free check, empty, if_pos rfl]

theorem tm_starts (some_ : (src.empty || dst.empty) = false) {h k : Home} (homes : s.tileHomes n src dst = .ok (h, k)) :
    exec (.tm n f) s = .next (((s.endFence n true).startMove n f.id.toNat (moveOf (s.cell n).arch f) h k).advancePc n) := by
  rw [row, issue_executes hi, tmEff_passes free check, some_, if_neg Bool.false_ne_true, homes]

end

/-! ### Runs copied inside the own cell memory (R109, R124) -/

theorem length_memBytes (s : State) (a n : Nat) : (s.memBytes a n).length = n := by simp [State.memBytes]

theorem getElem_memBytes (s : State) (a n k : Nat) (h : k < (s.memBytes a n).length) : (s.memBytes a n)[k] = s.memByte (a + k) := by
  simp [State.memBytes]

/-- The definition as a function: written out at an argument, checking it would evaluate the place of the granule. -/
theorem stageOk_eq : @State.stageOk = fun s o len => (cuts 4096 o len).all fun c =>
    if isClose (o + c.1) then match s.place4K (o + c.1) with
      | (d, k) => !(s.frg d).frozen.get k || s.stagingFree (s.partOfClose (o + c.1)) d
    else
      !s.frozenCell (o + c.1) || (s.stagingFree (s.partOfCell ((o + c.1 - cellBase) / cellBytes))
        (32 + ((o + c.1 - cellBase) / cellBytes) / 8) && (s.badWords ((o + c.1) / 4096 * 4096) 4096).isEmpty) := rfl

/-- A write of cell memory of which no granule is frozen needs no staging buffer. -/
theorem stageOk_of_unfrozen {s : State} {o len : Nat} (low : ∀ c ∈ cuts 4096 o len, cellBase ≤ o + c.1)
    (unfrozen : ∀ c ∈ cuts 4096 o len, s.frozenCell (o + c.1) = false) : s.stageOk o len = true := by
  rw [stageOk_eq]
  beta_reduce
  rw [List.all_eq_true]
  intro c hc
  rw [isClose_of_cellBase (low c hc), unfrozen c hc, if_neg Bool.false_ne_true, Bool.not_false, Bool.true_or]

section
variable {w t : State} {n : Nat} (plain : PlainlyWritten w t n) (snoop : w.link.snoop = []) (bis : w.link.bis = [])
include plain snoop bis

/-- A write of the own cell memory with nothing frozen and no host in the way is performed at once. -/
theorem PlainlyWritten.engineWrite (owner : Owner) (eng : Nat) {o : Nat} {bs : List Byte} (own : InCell n o bs.length) :
    t.engineWrite owner eng o bs = t.writeFor owner o bs := by
  have link : t.link = w.link := by rw [plain.rest]
  have stage : t.stageOk o bs.length = true := by
    refine stageOk_of_unfrozen (fun c hc => (own.piece (by decide) hc).1) fun c hc => ?_
    rw [State.frozenCell, (own.piece (by decide) hc).2, plain.frozen]
    exact BitVec.getLsbD_zero
  rw [State.engineWrite, if_pos]
  rw [State.writable, link, snoop, bis, stage]
  rfl

end

/-- One run of a move: the bytes at a source offset go to a destination offset. -/
def copyRun (owner : Owner) (eng p S D : Nat) (s : State) (r : Nat × Nat × Nat) : State :=
  s.deliver owner eng p (.loc (D + r.2.1)) (s.memBytes (S + r.1) r.2.2)

/-- Two ranges have no byte in common. -/
def Apart (a la b lb : Nat) : Prop := a + la ≤ b ∨ b + lb ≤ a

/-- Runs whose destinations lie in the memory of a cell, apart from each other and from every source, all land as they were read. -/
theorem copyRuns {w : State} {n : Nat} (snoop : w.link.snoop = []) (bis : w.link.bis = []) (owner : Owner) (eng p S D : Nat) :
    ∀ {runs : List (Nat × Nat × Nat)}, (∀ r ∈ runs, InCell n (D + r.2.1) r.2.2) →
      (∀ r ∈ runs, ∀ q ∈ runs, Apart (S + r.1) r.2.2 (D + q.2.1) q.2.2) →
      runs.Pairwise (fun r q => Apart (D + r.2.1) r.2.2 (D + q.2.1) q.2.2) → ∀ {t : State}, PlainlyWritten w t n →
      (∀ r ∈ runs, ∀ k < r.2.2, (foldS (copyRun owner eng p S D) t runs).memByte (D + r.2.1 + k) = t.memByte (S + r.1 + k)) ∧
      (∀ a, (∀ r ∈ runs, a < D + r.2.1 ∨ D + r.2.1 + r.2.2 ≤ a) →
        (foldS (copyRun owner eng p S D) t runs).memByte a = t.memByte a)
  | [], _, _, _, _, _ => ⟨nofun, fun _ _ => rfl⟩
  | r :: runs, own, apart, distinct, t, plain => by
    obtain ⟨ownR, ownRuns⟩ := List.forall_mem_cons.mp own
    obtain ⟨distinctR, distinctRuns⟩ := List.pairwise_cons.mp distinct
    have length := length_memBytes t (S + r.1) r.2.2
    have inCell : InCell n (D + r.2.1) (t.memBytes (S + r.1) r.2.2).length := by rwa [length]
    have step : copyRun owner eng p S D t r = t.writeFor owner (D + r.2.1) (t.memBytes (S + r.1) r.2.2) :=
      plain.engineWrite snoop bis owner eng inCell
    have mem : (copyRun owner eng p S D t r).mem = putBytes memDefault t.mem (D + r.2.1) (t.memBytes (S + r.1) r.2.2) := by
      rw [step]
      exact mem_writeFor ..
    have inside (k : Nat) (hk : k < r.2.2) : (copyRun owner eng p S D t r).memByte (D + r.2.1 + k) = t.memByte (S + r.1 + k) := by
      have hk : k < (t.memBytes (S + r.1) r.2.2).length := by rwa [length]
      rw [State.memByte, mem, putBytes_get_self _ _ _ _ _ hk, getElem_memBytes]
    have outside (a : Nat) (ha : a < D + r.2.1 ∨ D + r.2.1 + r.2.2 ≤ a) : (copyRun owner eng p S D t r).memByte a = t.memByte a := by
      rw [State.memByte, mem, putBytes_get_other _ _ _ _ _ (by rwa [length])]
      rfl
    have after : PlainlyWritten w (copyRun owner eng p S D t r) n := by
      rw [step]
      exact plain.writeFor inCell owner
    obtain ⟨lands, stays⟩ := copyRuns snoop bis owner eng p S D ownRuns
      (fun x hx y hy => apart x (List.mem_cons_of_mem _ hx) y (List.mem_cons_of_mem _ hy)) distinctRuns after
    refine ⟨List.forall_mem_cons.mpr ⟨fun k hk => ?_, fun x hx k hk => ?_⟩, fun a ha => ?_⟩
    · refine (stays _ fun x hx => ?_).trans (inside k hk)
      have := distinctR x hx
      unfold Apart at this
      omega
    · refine (lands x hx k hk).trans (outside _ ?_)
      have := apart x (List.mem_cons_of_mem _ hx) r List.mem_cons_self
      unfold Apart at this
      omega
    · obtain ⟨haR, haRuns⟩ := List.forall_mem_cons.mp ha
      exact (stays a haRuns).trans (outside a haR)

/-! ### Rows of a tile (R109) -/

section
variable {t : Tile}

theorem Tile.row_within {r p : Nat} (hr : r < t.d1) (hp : p < t.d2) :
    t.base ≤ t.rowAddr r p ∧ t.rowAddr r p + t.rowBytes ≤ t.base + t.extent := by
  have plane : p * t.s2 ≤ (t.d2 - 1) * t.s2 := Nat.mul_le_mul_right _ (by omega)
  have row : r * t.s1 ≤ (t.d1 - 1) * t.s1 := Nat.mul_le_mul_right _ (by omega)
  unfold Tile.rowAddr Tile.extent Tile.span
  omega

/-- Rows of the same length that come later lie behind. -/
theorem Tile.row_before {len r p r' p' : Nat} (rows : t.d1 = 1 ∨ len ≤ t.s1) (planes : t.d2 = 1 ∨ (t.d1 - 1) * t.s1 + len ≤ t.s2)
    (hr : r < t.d1) (hr' : r' < t.d1) (hp' : p' < t.d2) (order : p < p' ∨ p = p' ∧ r < r') :
    t.rowAddr r p + len ≤ t.rowAddr r' p' := by
  unfold Tile.rowAddr
  rcases order with plane | ⟨rfl, row⟩
  · have next : (p + 1) * t.s2 ≤ p' * t.s2 := Nat.mul_le_mul_right _ plane
    have last : r * t.s1 ≤ (t.d1 - 1) * t.s1 := Nat.mul_le_mul_right _ (by omega)
    rw [Nat.add_mul, Nat.one_mul] at next
    omega
  · have next : (r + 1) * t.s1 ≤ r' * t.s1 := Nat.mul_le_mul_right _ row
    rw [Nat.add_mul, Nat.one_mul] at next
    omega

end

section
variable {src dst : Tile} (layout : dst.layout = 0)
include layout

theorem tileRuns_rows : tileRuns src dst = (List.range src.d2).flatMap fun p => (List.range src.d1).map fun r =>
    (src.rowAddr r p - src.base, dst.rowAddr r p - dst.base, src.rowBytes) := by
  simp only [tileRuns, layout, if_true, List.map_eq_flatMap]

theorem mem_tileRuns {x : Nat × Nat × Nat} : x ∈ tileRuns src dst ↔
    ∃ p < src.d2, ∃ r < src.d1, x = (src.rowAddr r p - src.base, dst.rowAddr r p - dst.base, src.rowBytes) := by
  rw [tileRuns_rows layout]
  simp [List.mem_flatMap, List.mem_map, eq_comm]

end

/-! ### A move inside the own cell memory (R124, R125) -/

theorem inOwn_of_ownRange {n a len : Nat} (h : ownRange n a len = true) (pos : 0 < len) : inOwn n a = true := by
  simp only [ownRange, inOwn, Bool.and_eq_true, decide_eq_true_eq] at h ⊢
  omega

theorem inCell_of_ownRange {n a len : Nat} (h : ownRange n a len = true) : InCell n a len := by
  unfold InCell
  simpa [ownRange] using h

theorem codeWidth_ge (ty : Nat) : 4 ≤ codeWidth ty := by
  unfold codeWidth
  split <;> decide

theorem Tile.rowBytes_pos {t : Tile} (h : t.empty = false) : 0 < t.rowBytes := by
  have width := codeWidth_ge t.fmt
  have some : t.d0 ≠ 0 := by
    intro zero
    simp [Tile.empty, zero] at h
  have bits : 1 * 4 ≤ t.d0 * t.width := Nat.mul_le_mul (Nat.one_le_iff_ne_zero.mpr some) width
  unfold Tile.rowBytes
  omega

theorem Tile.extent_pos {t : Tile} (h : t.empty = false) : 0 < t.extent :=
  (Tile.rowBytes_pos h).trans_le (Nat.le_add_left ..)

/-- A tile that lies wholly in the own cell memory is reached there. -/
theorem tileReach_own {s : State} {n : Nat} {wr : Bool} {t : Tile} (some : t.empty = false) (own : ownRange n t.base t.extent = true) :
    s.tileReach n wr t = .ok (.loc t.base) := by
  have pos := Tile.extent_pos some
  have inside := inCell_of_ownRange own
  rw [State.tileReach, inOwn_of_ownRange own pos, if_pos rfl, within, if_neg]
  unfold InCell at inside
  simp only [Bool.or_eq_true, decide_eq_true_eq]
  omega

section
variable {s : State} {n : Nat} {src dst : Tile} (hs : src.empty = false) (hd : dst.empty = false)
  (own : ownRange n src.base src.extent = true) (ownD : ownRange n dst.base dst.extent = true)
  (apart : src.base + src.extent ≤ dst.base ∨ dst.base + dst.extent ≤ src.base)
include hs hd own ownD apart

theorem tileHomes_own : s.tileHomes n src dst = .ok (.loc src.base, .loc dst.base) := by
  have inside := inOwn_of_ownRange own (Tile.extent_pos hs)
  rw [State.tileHomes, inside, tileReach_own hs own, tileReach_own hd ownD, Bool.not_true, Bool.false_and,
    if_neg Bool.false_ne_true]
  dsimp only
  rw [if_neg]
  simp only [Home.place]
  omega

variable (layout : dst.layout = 0) (d1 : src.d1 = dst.d1) (d2 : src.d2 = dst.d2) (width : src.rowBytes = dst.rowBytes)
  (rows : src.d1 = 1 ∨ src.rowBytes ≤ dst.s1) (planes : src.d2 = 1 ∨ (dst.d1 - 1) * dst.s1 + src.rowBytes ≤ dst.s2)
include layout d1 d2 width rows planes

omit hs hd own in
/-- The rows of a move land as they were read, and no other byte changes. -/
theorem rows_land {w : State} (plain : PlainlyWritten w w n) (snoop : w.link.snoop = []) (bis : w.link.bis = []) (owner : Owner)
    (eng p : Nat) :
    let t := foldS (copyRun owner eng p src.base dst.base) w (tileRuns src dst)
    (∀ r q k, r < src.d1 → q < src.d2 → k < src.rowBytes → t.memByte (dst.rowAddr r q + k) = w.memByte (src.rowAddr r q + k)) ∧
      ∀ a, (∀ r q, r < src.d1 → q < src.d2 → a < dst.rowAddr r q ∨ dst.rowAddr r q + src.rowBytes ≤ a) →
        t.memByte a = w.memByte a := by
  intro t
  have inSrc {r q : Nat} (hr : r < src.d1) (hq : q < src.d2) := Tile.row_within (t := src) hr hq
  have inDst {r q : Nat} (hr : r < src.d1) (hq : q < src.d2) := Tile.row_within (t := dst) (d1 ▸ hr) (d2 ▸ hq)
  have wholeD := inCell_of_ownRange ownD
  have inside : ∀ x ∈ tileRuns src dst, InCell n (dst.base + x.2.1) x.2.2 := by
    intro x hx
    obtain ⟨q, hq, r, hr, rfl⟩ := (mem_tileRuns layout).mp hx
    have := inDst hr hq
    unfold InCell at wholeD ⊢
    dsimp only
    omega
  have clear : ∀ x ∈ tileRuns src dst, ∀ y ∈ tileRuns src dst, Apart (src.base + x.1) x.2.2 (dst.base + y.2.1) y.2.2 := by
    intro x hx y hy
    obtain ⟨q, hq, r, hr, rfl⟩ := (mem_tileRuns layout).mp hx
    obtain ⟨q', hq', r', hr', rfl⟩ := (mem_tileRuns layout).mp hy
    have := inSrc hr hq
    have := inDst hr' hq'
    unfold Apart
    dsimp only
    omega
  have distinct : (tileRuns src dst).Pairwise fun x y => Apart (dst.base + x.2.1) x.2.2 (dst.base + y.2.1) y.2.2 := by
    have behind {r q r' q' : Nat} (hr : r < src.d1) (hr' : r' < src.d1) (hq : q < src.d2) (hq' : q' < src.d2)
        (order : q < q' ∨ q = q' ∧ r < r') : Apart (dst.base + (dst.rowAddr r q - dst.base)) src.rowBytes
          (dst.base + (dst.rowAddr r' q' - dst.base)) src.rowBytes := by
      rw [Nat.add_sub_of_le (inDst hr hq).1, Nat.add_sub_of_le (inDst hr' hq').1]
      exact .inl (Tile.row_before (d1 ▸ rows) (d2 ▸ planes) (d1 ▸ hr) (d1 ▸ hr') (d2 ▸ hq') order)
    rw [tileRuns_rows layout, List.pairwise_flatMap]
    refine ⟨fun q hq => ?_, ?_⟩
    · rw [List.pairwise_map]
      refine List.pairwise_lt_range.imp_of_mem fun hr hr' lt => ?_
      have hq := List.mem_range.mp hq
      exact behind (List.mem_range.mp hr) (List.mem_range.mp hr') hq hq (.inr ⟨rfl, lt⟩)
    · refine List.pairwise_lt_range.imp_of_mem fun hq hq' lt x hx y hy => ?_
      obtain ⟨r, hr, rfl⟩ := List.mem_map.mp hx
      obtain ⟨r', hr', rfl⟩ := List.mem_map.mp hy
      exact behind (List.mem_range.mp hr) (List.mem_range.mp hr') (List.mem_range.mp hq) (List.mem_range.mp hq') (.inl lt)
  obtain ⟨lands, stays⟩ := copyRuns snoop bis owner eng p src.base dst.base inside clear distinct plain
  refine ⟨fun r q k hr hq hk => ?_, fun a ha => stays a fun x hx => ?_⟩
  · have run := lands _ ((mem_tileRuns layout).mpr ⟨q, hq, r, hr, rfl⟩) k hk
    rwa [Nat.add_sub_of_le (inSrc hr hq).1, Nat.add_sub_of_le (inDst hr hq).1] at run
  · obtain ⟨q, hq, r, hr, rfl⟩ := (mem_tileRuns layout).mp hx
    have := (inDst hr hq).1
    have := ha r q hr hq
    dsimp only
    omega

end

/-- What passes the checks of tm into layout 0 has the same shape on both sides. -/
theorem shapes_of_tmCheck {s : State} {n : Nat} {src dst : Tile} {sg : Option Word} (check : s.tmCheck n src dst sg = none)
    (layout : dst.layout = 0) : src.d1 = dst.d1 ∧ src.d2 = dst.d2 ∧ src.rowBytes = dst.rowBytes := by
  have shapes : tileShapes src dst = true := by
    by_contra bad
    unfold State.tmCheck at check
    rw [if_pos (by simp [bad])] at check
    cases check
  simp only [tileShapes, layout, if_true, Bool.and_eq_true, beq_iff_eq] at shapes
  obtain ⟨fmt, ⟨d0, d1⟩, d2⟩ := shapes
  exact ⟨d1, d2, by rw [Tile.rowBytes, Tile.rowBytes, Tile.width, Tile.width, d0, fmt]⟩

theorem switchedIn_of_issues {s : State} {n : Nat} {g : Guard} {memory : Bool} (hi : Issues s n g memory) :
    (s.cell n).switchedIn = true := by
  obtain ⟨-, can, -⟩ := hi
  simp only [State.canIssue, Bool.and_eq_true] at can
  exact can.1.1.1.1.2

/-- Neither a fence nor a slot is what a write of cell memory depends on. -/
theorem plain_slot {s : State} {n : Nat} (memory : Bool) (owner : Owner) (i : Nat) (m : Option TileMove) (frozen : (s.cell n).frozen = 0)
    (here : (s.cell n).switchedIn = true) (noFlips : s.flips = []) :
    let u := s.endFence n memory
    let w := (u.setCell n ((u.cell n).setSlot i m)).dropGathered owner
    PlainlyWritten w w n ∧ w.link = s.link ∧ w.mem = s.mem := by
  intro u w
  have only := s.endFence_only_cells n memory
  have cell : w.cell n = (u.cell n).setSlot i m := State.cell_setCell_self ..
  have unfrozen : (u.cell n).frozen = 0 ∧ (u.cell n).switchedIn = true := by
    rcases s.endFence_cases n memory with h | h <;> simp only [u, h]
    · exact ⟨frozen, here⟩
    · rw [State.cell_setCell_self]
      exact ⟨frozen, here⟩
  have rest : u.flips = s.flips ∧ u.link = s.link ∧ u.mem = s.mem := by
    simp only [u]
    rw [only]
    exact ⟨rfl, rfl, rfl⟩
  obtain ⟨flips, link, mem⟩ := rest
  exact ⟨⟨rfl, by rw [cell]; exact unfrozen.1, by rw [cell]; exact unfrozen.2, flips.trans noFlips⟩, link, mem⟩

theorem InCell.index {n o : Nat} (h : InCell n o 1) : cellBase ≤ o ∧ (o - cellBase) / cellBytes = n := by
  unfold InCell cellMem at h
  refine ⟨by omega, Nat.div_eq_of_lt_le ?_ ?_⟩
  · rw [Nat.mul_comm]
    omega
  · rw [Nat.mul_comm, Nat.mul_add, Nat.mul_one]
    omega

/-- A move from a source in cell memory that is at hand copies its runs. -/
theorem startMove_here {u : State} {n i : Nat} {m : TileMove} {S D : Nat}
    (plain : PlainlyWritten ((u.setCell n ((u.cell n).setSlot i (some m))).dropGathered (.slot n i))
      ((u.setCell n ((u.cell n).setSlot i (some m))).dropGathered (.slot n i)) n) (own : InCell n S 1) :
    u.startMove n i m (.loc S) (.loc D) =
      (foldS (copyRun (.slot n i) (Engine.key (.cell n)) (u.partOfCell n) S D)
        ((u.setCell n ((u.cell n).setSlot i (some m))).dropGathered (.slot n i)) (tileRuns (tileOf m.src) (tileOf m.dst))).bumpComb
        (n / 8) 6 ((tileOf m.src).rowBytes * (tileOf m.src).d1 * (tileOf m.src).d2) := by
  obtain ⟨low, index⟩ := own.index
  have near : ((u.setCell n ((u.cell n).setSlot i (some m))).dropGathered (.slot n i)).atHand (.loc S) (tileOf m.src).extent = true := by
    have home : ((u.setCell n ((u.cell n).setSlot i (some m))).dropGathered (.slot n i)).isAway n = false := by
      rw [State.isAway, plain.here]
      rfl
    rw [State.atHand, State.heldIn, isClose_of_cellBase low, index, home, Bool.and_false]
    rfl
  unfold State.startMove State.transfer
  dsimp only
  rw [if_pos near]
  rfl

theorem tileMoves : Claims.TileMoves := by
  intro s n f hn hres a src dst sg move
  refine ⟨fun lost gone goneD reset hi clear clearD free check => ?_, fun lost gone goneD reset hi clear clearD busy => ?_,
    fun hi htd hts hsg => ?_⟩
  · have row : exec (.tm n f) s = issue n f.g true true s (tmEff n f src dst) :=
      exec_tm rfl rfl hres lost gone goneD reset clear clearD
    have fence : ((s.endFence n true).cell n).arch = a := s.endFence_arch n true
    have starts {h k : Home} (hs : src.empty = false) (hd : dst.empty = false) (homes : s.tileHomes n src dst = .ok (h, k)) :=
      tm_starts hi row free check (by rw [hs, hd]; rfl) homes
    refine ⟨fun empty => ⟨_, tm_empty hi row free check (by simpa using empty), ?_, ?_, ?_, ?_⟩,
      fun hs hd h k homes => ⟨_, starts hs hd homes, ?_, ?_⟩, ?_⟩
    · rw [arch_advancePc, State.cell_setCell_self]
      exact congrArg Arch.advance fence
    · rw [slot_advancePc, State.cell_setCell_self]
      exact slot_setSlot_self ..
    · rw [s.endFence_only_cells n true]
      rfl
    · rw [s.endFence_only_cells n true]
      rfl
    · rw [arch_advancePc, arch_startMove, fence]
    · rw [slot_advancePc]
      exact slot_startMove ..
    · intro hs hd layout own ownD apart rows planes frozen snoop bis
      have here : (s.cell n).switchedIn = true := switchedIn_of_issues hi
      obtain ⟨d1, d2, width⟩ := shapes_of_tmCheck check layout
      obtain ⟨plain, link, mem⟩ := plain_slot true (.slot n f.id.toNat) f.id.toNat (some (moveOf a f)) frozen here clear.2
      have byte (k : Nat) : (((s.endFence n true).setCell n
          (((s.endFence n true).cell n).setSlot f.id.toNat (some (moveOf a f)))).dropGathered (.slot n f.id.toNat)).memByte k =
          s.memByte k := by rw [State.memByte, mem, State.memByte]
      have first : InCell n src.base 1 := by
        have := Tile.extent_pos hs
        have := inCell_of_ownRange own
        unfold InCell at this ⊢
        omega
      obtain ⟨lands, stays⟩ := rows_land (n := n) (src := src) (dst := dst) ownD apart layout d1 d2 width rows planes plain
        (link ▸ snoop) (link ▸ bis) (.slot n f.id.toNat) (Engine.key (.cell n)) ((s.endFence n true).partOfCell n)
      have moved := startMove_here (m := moveOf a f) (D := dst.base) plain first
      refine ⟨_, starts hs hd (tileHomes_own hs hd own ownD apart), ?_, fun r p k hr hp hk => ?_, fun q hq => ?_⟩
      · rw [slot_advancePc]
        exact slot_startMove ..
      · rw [← byte, ← lands r p k hr hp hk, moved]
        rfl
      · rw [← byte, ← stays q hq, moved]
        rfl
  · have row : exec (.tm n f) s = issue n f.g true true s (tmEff n f src dst) :=
      exec_tm rfl rfl hres lost gone goneD reset clear clearD
    refine ⟨_, tm_stalls hi row busy, ?_, ?_⟩ <;> rw [State.cell_setCell_self]
    exact s.endFence_arch n true
  · rw [exec_tmWait hi hres htd hts hsg]
    refine ⟨fun free => ?_, fun busy => ?_⟩
    · rw [free]
      rfl
    · rw [Option.isSome_iff_ne_none.mpr busy, if_pos rfl]

/-- Settles O21: tm passes its checks and starts its move, whose runs do not meet; its completion frees the slot. -/
theorem tileInstructions : Obligations.TileInstructions := by
  unfold Obligations.TileInstructions
  exact ⟨descriptorFields, tileMoves, tileMoveCompletes⟩

end Sys2Proof.Machine


/-!
PROOFS. Sums into an accumulator (O19): no sum of so few values leaves its range, so an accumulator holds sums over its values, and
notes of their special values, in which their order does not show.
-/

namespace Sys2Proof.Machine

/-! ### Range (R172, R178) -/

theorem outside_of_natAbs_lt {w : Nat} {x : Int} (h : x.natAbs < 2 ^ (w - 1)) : outside w x = false := by
  have bound : (x.natAbs : Int) < Int.ofNat (2 ^ (w - 1)) := Int.ofNat_lt.mpr h
  rw [outside, saturate, if_neg (by omega), if_neg (by omega)]

/-- A sum of values that are each bounded. -/
theorem natAbs_sum_le {b : Nat} : ∀ l : List Int, (∀ x ∈ l, x.natAbs ≤ b) → l.sum.natAbs ≤ l.length * b
  | [], _ => Nat.zero_le _
  | x :: l, h => by
    obtain ⟨hx, hl⟩ := List.forall_mem_cons.mp h
    have rest := natAbs_sum_le l hl
    rw [List.sum_cons, List.length_cons, Nat.add_mul, Nat.one_mul]
    omega

/-- A sum of fewer than `2 ^ c` values that are each bounded does not leave its range. -/
theorem outside_sum {c k : Nat} {l : List Int} (short : l.length < 2 ^ c) (h : ∀ x ∈ l, x.natAbs ≤ 2 ^ k) :
    outside (c + k + 1) l.sum = false := by
  refine outside_of_natAbs_lt ((natAbs_sum_le l h).trans_lt ?_)
  rw [Nat.add_sub_cancel, pow_add]
  exact Nat.mul_lt_mul_of_pos_right short (Nat.two_pow_pos k)

theorem Accu.checked_of_inside {a : Accu} (first : a.kind = 1 → outside 576 a.x = false)
    (bins : a.kind = 2 → outside 128 a.b0 = false ∧ outside 128 a.b1 = false ∧ outside 128 a.b2 = false) : a.checked = a := by
  have none : (a.ovf || (a.kind == 1 && outside 576 a.x) ||
      (a.kind == 2 && (outside 128 a.b0 || outside 128 a.b1 || outside 128 a.b2))) = a.ovf := by
    by_cases h1 : a.kind = 1
    · rw [first h1, h1]
      simp
    by_cases h2 : a.kind = 2
    · obtain ⟨b0, b1, b2⟩ := bins h2
      rw [b0, b1, b2, h2]
      simp
    rw [beq_eq_false_iff_ne.mpr h1, beq_eq_false_iff_ne.mpr h2]
    simp
  rw [Accu.checked, none]

/-! ### Special values (R171) -/

/-- What an accumulator of a kind notes of its values: whether there were NaNs, and infinities of each sign. -/
def noted (kind : Nat) (vs : List Fp) : Accu :=
  { Accu.empty with kind := kind, nan := vs.any Fp.isNan, pinf := vs.any (· == .inf false), ninf := vs.any (· == .inf true) }

theorem noted_perm {kind : Nat} {vs us : List Fp} (h : vs.Perm us) : noted kind vs = noted kind us := by
  simp only [noted, h.any_eq]

/-- A fold of steps that each take the state of some values to that of one value more. -/
theorem foldl_eq_of_step {f : Accu → Fp → Accu} {state : List Fp → Accu} {bound : Nat} {P : Fp → Prop}
    (step : ∀ vs v, vs.length < bound → (∀ u ∈ vs, P u) → P v → f (state vs) v = state (vs ++ [v])) :
    ∀ (us vs : List Fp), vs.length + us.length ≤ bound → (∀ u ∈ vs, P u) → (∀ u ∈ us, P u) →
      us.foldl f (state vs) = state (vs ++ us)
  | [], vs, _, _, _ => by rw [List.append_nil, List.foldl_nil]
  | u :: us, vs, short, hvs, hus => by
    obtain ⟨hu, hus⟩ := List.forall_mem_cons.mp hus
    rw [List.length_cons] at short
    have next := foldl_eq_of_step step us (vs ++ [u]) (by simp; omega)
      (by simpa [or_imp, forall_and] using And.intro hvs hu) hus
    rw [List.foldl_cons, step vs u (by omega) hvs hu, next, List.append_assoc, List.singleton_append]

/-! ### EXACT accumulators (R171, R172) -/

/-- The state of an `EXACT` accumulator after some values. -/
def exactState (vs : List Fp) : Accu := { noted 1 vs with x := (vs.map (Fp.atExp (-192))).sum }

/-- A value of a format of 32 bits or fewer. -/
def Fp.Narrow (v : Fp) : Prop := (v.atExp (-192)).natAbs ≤ 2 ^ 320

theorem addExact_step (vs : List Fp) (v : Fp) (short : vs.length < 2 ^ 255 - 1) (hvs : ∀ u ∈ vs, u.Narrow) (hv : v.Narrow) :
    (exactState vs).addExact v = exactState (vs ++ [v]) := by
  have range : outside 576 ((vs ++ [v]).map (Fp.atExp (-192))).sum = false := by
    refine outside_sum (c := 255) (k := 320) (by simp; omega) fun x hx => ?_
    obtain ⟨u, hu, rfl⟩ := List.mem_map.mp hx
    rcases List.mem_append.mp hu with hu | hu
    · exact hvs u hu
    · exact List.mem_singleton.mp hu ▸ hv
  cases v with
  | nan q => simp [exactState, noted, Accu.addExact, Accu.empty, Fp.atExp, Fp.isNan]
  | inf n => cases n <;> simp [exactState, noted, Accu.addExact, Accu.empty, Fp.atExp, Fp.isNan]
  | fin n m e =>
    have next : { exactState vs with x := (exactState vs).x + (Fp.fin n m e).atExp (-192) } = exactState (vs ++ [.fin n m e]) := by
      simp [exactState, noted, Accu.empty, Fp.isNan]
    have added : (exactState vs).addExact (.fin n m e) = if m = 0 then exactState vs
      else Accu.checked { exactState vs with x := (exactState vs).x + (Fp.fin n m e).atExp (-192) } := rfl
    rw [added, next]
    split
    next zero =>
      subst zero
      rw [← next]
      simp [Fp.atExp]
    next => exact Accu.checked_of_inside (fun _ => range) nofun

theorem mul_two_pow_le {m k w b : Nat} (h : m < 2 ^ w) (hb : k + w ≤ b) : m * 2 ^ k ≤ 2 ^ b :=
  calc m * 2 ^ k ≤ 2 ^ w * 2 ^ k := Nat.mul_le_mul_right _ h.le
    _ = 2 ^ (k + w) := by rw [← pow_add, Nat.add_comm]
    _ ≤ 2 ^ b := Nat.pow_le_pow_right Nat.two_pos hb

/-- A value of a format of 32 bits or fewer that an `EXACT` accumulator takes. -/
theorem narrow_decode {f : FpFmt} (h : f = fp32 ∨ f = bf16 ∨ f = fp16 ∨ f = e5m2 ∨ f = e4m3) (x : Nat) : (f.decode x).Narrow := by
  have sound : f.Sound := FpFmt.sound (.inr h)
  have reach : (f.leastWeight + (f.maxCode / 2 ^ f.mw - 1 : Nat) + 192).toNat + (f.mw + 1) ≤ 320 := by
    rcases h with rfl | rfl | rfl | rfl | rfl <;> decide
  unfold Fp.Narrow
  cases value : f.decode x with
  | nan | inf => exact Nat.zero_le _
  | fin neg m e =>
    obtain ⟨-, finite, form⟩ := FpFmt.decode_fin sound value
    obtain ⟨⟨lt, -, -⟩, -⟩ := FpFmt.Normalized.of_decode sound value
    have field : f.field x ≤ f.maxCode / 2 ^ f.mw := by
      rw [FpFmt.code_eq] at finite
      exact (Nat.le_div_iff_mul_le (Nat.two_pow_pos _)).mpr ((Nat.le_add_right ..).trans finite)
    have weight : (e - -192).toNat + (f.mw + 1) ≤ 320 := by
      rcases form with ⟨-, -, rfl⟩ | ⟨some, -, rfl⟩ <;> omega
    have magnitude := mul_two_pow_le lt weight
    refine le_of_eq_of_le ?_ magnitude
    cases neg
    · rfl
    · exact Int.natAbs_neg _

theorem exactState_perm {vs us : List Fp} (h : vs.Perm us) : exactState vs = exactState us := by
  rw [exactState, exactState, noted_perm h, (h.map _).sum_eq]

/-- The first value gives an empty accumulator its kind. -/
theorem foldl_addExact {vs : List Fp} (some_ : vs ≠ []) (short : vs.length < 2 ^ 255) (narrow : ∀ v ∈ vs, v.Narrow) :
    vs.foldl (Accu.add 1) Accu.empty = exactState vs := by
  have open_ : vs.foldl (Accu.add 1) Accu.empty = vs.foldl Accu.addExact (exactState []) := by
    obtain ⟨v, us, rfl⟩ := List.exists_cons_of_ne_nil some_
    rfl
  rw [open_]
  exact foldl_eq_of_step (P := Fp.Narrow) addExact_step vs [] (by simp; omega) nofun narrow

theorem exactSumOrderFree : Claims.ExactSumOrderFree := by
  intro ff xs ys formats perm short
  have narrow (zs : List Nat) : ∀ v ∈ zs.map ff.decode, v.Narrow := List.forall_mem_map.mpr fun x _ => narrow_decode formats x
  cases xs with
  | nil => rw [perm.nil_eq]
  | cons x xs =>
    have some_ : ys ≠ [] := fun none => by simp [none] at perm
    have length := perm.length_eq
    rw [foldl_addExact (by simp) (by simpa using short) (narrow _),
      foldl_addExact (by simpa using some_) (by rw [List.length_map]; omega) (narrow _), exactState_perm (perm.map _)]

/-! ### BINNED64 accumulators (R175, R178) -/

/-- What a value adds to the bin of a slot. -/
def Fp.part (g : Int) : Fp → Int
  | .fin n m e => slotPart n m e g
  | _ => 0

/-- The slot of a value's leading part; a value that adds nothing has the lowest slot. -/
def Fp.slot : Fp → Int
  | .fin _ m e => if m = 0 then -26 else window m e
  | _ => -26

theorem Fp.natAbs_part_le (g : Int) (v : Fp) : (v.part g).natAbs ≤ 2 ^ 40 := by
  cases v with
  | nan | inf => exact Nat.zero_le _
  | fin n m e =>
    have below (k : Nat) : k % 2 ^ 40 ≤ 2 ^ 40 := (Nat.mod_lt _ (Nat.two_pow_pos _)).le
    cases n
    · exact below _
    · exact (Int.natAbs_neg _).trans_le (below _)

/-- A value's leading bit lies below the end of its window. -/
theorem lt_window (m : Nat) (e : Int) : (Nat.log2 m : Int) + e < 40 * window m e := by
  have := Int.lt_fdiv_add_one_mul_self (Int.ofNat (Nat.log2 m) + e) (show (0 : Int) < 40 by decide)
  unfold window
  simp only [Int.ofNat_eq_natCast] at this ⊢
  omega

/-- A value has no part above its window. -/
theorem Fp.part_above {v : Fp} {g : Int} (h : v.slot < g) : v.part g = 0 := by
  cases v with
  | nan | inf => rfl
  | fin n m e =>
    have zero : (if 40 * (g - 1) ≤ e then m * 2 ^ (e - 40 * (g - 1)).toNat else m / 2 ^ (40 * (g - 1) - e).toNat) % 2 ^ 40 = 0 := by
      rcases eq_or_ne m 0 with rfl | hm
      · simp
      have above : window m e < g := by simpa [Fp.slot, hm] using h
      have lead := lt_window m e
      rw [if_neg (by omega), Nat.div_eq_of_lt, Nat.zero_mod]
      exact (Nat.log2_lt hm).mp (by omega)
    rw [Fp.part, slotPart, zero]
    cases n <;> rfl

/-- The highest slot of some values. -/
def topSlot (vs : List Fp) : Int := vs.foldl (fun w v => max w v.slot) (-26)

/-- The sum of the parts of some values in a slot. -/
def slotSum (vs : List Fp) (g : Int) : Int := (vs.map (Fp.part g)).sum

/-- The state of a `BINNED64` accumulator after some values, with its bins at a slot. -/
def binnedAt (vs : List Fp) (w : Int) (sums : Int → Int) : Accu :=
  { noted 2 vs with bwin := w, b0 := sums w, b1 := sums (w - 1), b2 := sums (w - 2) }

/-- The state of a `BINNED64` accumulator after some values. -/
def binnedState (vs : List Fp) : Accu := binnedAt vs (topSlot vs) (slotSum vs)

theorem topSlot_append (vs : List Fp) (v : Fp) : topSlot (vs ++ [v]) = max (topSlot vs) v.slot := by simp [topSlot]

theorem slotSum_append (vs : List Fp) (v : Fp) (g : Int) : slotSum (vs ++ [v]) g = slotSum vs g + v.part g := by simp [slotSum]

theorem slot_le_topSlot {vs : List Fp} : ∀ v ∈ vs, v.slot ≤ topSlot vs := by
  induction vs using List.reverseRecOn with
  | nil => nofun
  | append_singleton vs u ih =>
    intro v hv
    rw [topSlot_append]
    rcases List.mem_append.mp hv with hv | hv
    · exact (ih v hv).trans (le_max_left ..)
    · exact List.mem_singleton.mp hv ▸ le_max_right ..

theorem le_topSlot (vs : List Fp) : -26 ≤ topSlot vs := by
  induction vs using List.reverseRecOn with
  | nil => exact le_rfl
  | append_singleton vs u ih =>
    rw [topSlot_append]
    exact ih.trans (le_max_left ..)

theorem slotSum_above {vs : List Fp} {g : Int} (h : topSlot vs < g) : slotSum vs g = 0 :=
  List.sum_eq_zero fun x hx => by
    obtain ⟨v, hv, rfl⟩ := List.mem_map.mp hx
    exact Fp.part_above ((slot_le_topSlot v hv).trans_lt h)

/-- Shifting the bins up leaves the sums in their slots, where nothing lies above the bins. -/
theorem shift_binnedAt (vs : List Fp) {w : Int} {sums : Int → Int} (above : ∀ g, w < g → sums g = 0) (d : Nat) :
    (binnedAt vs w sums).shift d = binnedAt vs (w + d) sums := by
  match d with
  | 0 => simp [Accu.shift, binnedAt]
  | 1 =>
    have first : w + (1 : Nat) - 1 = w := by omega
    have second : w + (1 : Nat) - 2 = w - 1 := by omega
    rw [binnedAt, binnedAt, first, second, above _ (show w < w + (1 : Nat) by omega)]
    rfl
  | 2 =>
    have second : w + (2 : Nat) - 2 = w := by omega
    rw [binnedAt, binnedAt, second, above _ (show w < w + (2 : Nat) by omega), above _ (show w < w + (2 : Nat) - 1 by omega)]
    rfl
  | d + 3 =>
    rw [binnedAt, binnedAt, above _ (show w < w + (d + 3 : Nat) by omega), above _ (show w < w + (d + 3 : Nat) - 1 by omega),
      above _ (show w < w + (d + 3 : Nat) - 2 by omega)]
    rfl

/-- Raising the bins to a window leaves the sums in their slots. -/
theorem raise_binnedState (vs : List Fp) (w : Int) :
    (if (binnedState vs).bwin < w then (binnedState vs).shift (w - (binnedState vs).bwin).toNat else binnedState vs) =
      binnedAt vs (max (topSlot vs) w) (slotSum vs) := by
  have lead : (binnedState vs).bwin = topSlot vs := rfl
  rw [lead]
  split
  next above =>
    rw [binnedState, shift_binnedAt vs fun g => slotSum_above, max_eq_right above.le]
    congr 1
    omega
  next below => rw [max_eq_left (Int.not_lt.mp below), binnedState]

theorem addBinned_step (vs : List Fp) (v : Fp) (short : vs.length < 2 ^ 86) :
    (binnedState vs).addBinned v = binnedState (vs ++ [v]) := by
  have range (g : Int) : outside 128 (slotSum (vs ++ [v]) g) = false := by
    refine outside_sum (c := 87) (k := 40) (by simp; omega) fun x hx => ?_
    obtain ⟨u, -, rfl⟩ := List.mem_map.mp hx
    exact u.natAbs_part_le g
  have special (h : v.slot = -26) : topSlot (vs ++ [v]) = topSlot vs := by
    rw [topSlot_append, h, max_eq_left (le_topSlot vs)]
  cases v with
  | nan q =>
    have sums : slotSum (vs ++ [.nan q]) = slotSum vs := funext fun g => by simp [slotSum_append, Fp.part]
    rw [binnedState, binnedState, special rfl, sums]
    simp [binnedAt, noted, Accu.addBinned, Accu.empty, Fp.isNan]
  | inf n =>
    have sums : slotSum (vs ++ [.inf n]) = slotSum vs := funext fun g => by simp [slotSum_append, Fp.part]
    rw [binnedState, binnedState, special rfl, sums]
    cases n <;> simp [binnedAt, noted, Accu.addBinned, Accu.empty, Fp.isNan]
  | fin n m e =>
    have notes : noted 2 (vs ++ [.fin n m e]) = noted 2 vs := by simp [noted, Fp.isNan]
    have added : (binnedState vs).addBinned (.fin n m e) = if m = 0 then binnedState vs else
        (let a := if (binnedState vs).bwin < window m e then (binnedState vs).shift (window m e - (binnedState vs).bwin).toNat
          else binnedState vs
        Accu.checked { a with
          b0 := a.b0 + slotPart n m e a.bwin, b1 := a.b1 + slotPart n m e (a.bwin - 1),
          b2 := a.b2 + slotPart n m e (a.bwin - 2) }) := rfl
    rw [added]
    split
    next zero =>
      subst zero
      have sums : slotSum (vs ++ [.fin n 0 e]) = slotSum vs := funext fun g => by
        rw [slotSum_append]
        cases n <;> simp [Fp.part, slotPart]
      rw [binnedState, binnedState, special rfl, sums, binnedAt, binnedAt, notes]
    next some_ =>
      have lead : topSlot (vs ++ [.fin n m e]) = max (topSlot vs) (window m e) := by simp [topSlot_append, Fp.slot, some_]
      have result : binnedState (vs ++ [.fin n m e]) =
          { binnedAt vs (max (topSlot vs) (window m e)) (slotSum vs) with
            b0 := slotSum (vs ++ [.fin n m e]) (max (topSlot vs) (window m e)),
            b1 := slotSum (vs ++ [.fin n m e]) (max (topSlot vs) (window m e) - 1),
            b2 := slotSum (vs ++ [.fin n m e]) (max (topSlot vs) (window m e) - 2) } := by
        rw [binnedState, lead, binnedAt, binnedAt, notes]
      rw [raise_binnedState]
      refine Eq.trans ?_ (Accu.checked_of_inside (a := binnedState (vs ++ [.fin n m e])) nofun fun _ => ⟨range _, range _, range _⟩)
      rw [result]
      simp only [slotSum_append]
      rfl

theorem binnedState_perm {vs us : List Fp} (h : vs.Perm us) : binnedState vs = binnedState us := by
  have lead : topSlot vs = topSlot us := h.foldl_eq' (fun x _ y _ w => by rw [max_assoc, max_comm (Fp.slot x), ← max_assoc]) (-26)
  have sums : slotSum vs = slotSum us := funext fun g => (h.map _).sum_eq
  rw [binnedState, binnedState, binnedAt, binnedAt, lead, sums, noted_perm h]

theorem foldl_addBinned {vs : List Fp} (some_ : vs ≠ []) (short : vs.length ≤ 2 ^ 86) :
    vs.foldl (Accu.add 2) Accu.empty = binnedState vs := by
  have open_ : vs.foldl (Accu.add 2) Accu.empty = vs.foldl Accu.addBinned (binnedState []) := by
    obtain ⟨v, us, rfl⟩ := List.exists_cons_of_ne_nil some_
    rfl
  rw [open_]
  exact foldl_eq_of_step (P := fun _ => True) (fun vs v short _ _ => addBinned_step vs v short) vs [] (by simpa using short) nofun
    fun _ _ => trivial

theorem binnedSumOrderFree : Claims.BinnedSumOrderFree := by
  intro xs ys perm short
  cases xs with
  | nil => rw [perm.nil_eq]
  | cons x xs =>
    have some_ : ys ≠ [] := fun none => by simp [none] at perm
    have length := perm.length_eq
    rw [foldl_addBinned (by simp) (by simpa using short), foldl_addBinned (by simpa using some_) (by rw [List.length_map]; omega),
      binnedState_perm (perm.map _)]

/-- Settles O19: what an accumulator holds is a sum and a highest slot over its values, and whether there were special ones, and no
sum leaves its range. -/
theorem exactSumsInAnyOrder : Obligations.ExactSumsInAnyOrder := by
  unfold Obligations.ExactSumsInAnyOrder
  exact ⟨exactSumOrderFree, binnedSumOrderFree⟩

end Sys2Proof.Machine


/-!
PROOFS. Ports, lanes, packets as bytes, and link-level retry (O37).
-/

namespace Sys2Proof.Machine

/-! ### Lanes (R378) -/

/-- The nine lanes have 512 sets of healthy ones. -/
theorem lanesInUse : Claims.LanesInUse := by
  unfold Claims.LanesInUse
  decide +kernel

/-! ### Packets as bytes (R387) -/

/-- The first header word as a sum of its fields. -/
theorem pktWord0_eq (p : Packet) : pktWord0 p false = p.type.toNat + p.cls.toNat * 2 ^ 5 + p.esc.toNat * 2 ^ 8 + p.hops.toNat * 2 ^ 9 +
    p.seqd.toNat * 2 ^ 11 + p.gen.toNat * 2 ^ 12 + p.age.toNat * 2 ^ 22 + p.dstPhys.toNat * 2 ^ 33 + p.srcPhys.toNat * 2 ^ 45 +
    p.plen.toNat * 2 ^ 57 := by
  unfold pktWord0
  cases p.esc <;> cases p.seqd <;> rfl

/-- The fields that a first header word spells. -/
structure SpellsWord0 (w : Nat) (p : Packet) : Prop where
  lt : w < 2 ^ 64
  type : bits w 0 5 = p.type.toNat
  cls : bits w 5 3 = p.cls.toNat
  esc : bits w 8 1 = p.esc.toNat
  hops : bits w 9 2 = p.hops.toNat
  seqd : bits w 11 1 = p.seqd.toNat
  gen : bits w 12 10 = p.gen.toNat
  age : bits w 22 11 = p.age.toNat
  dstPhys : bits w 33 12 = p.dstPhys.toNat
  srcPhys : bits w 45 12 = p.srcPhys.toNat
  plen : bits w 57 7 = p.plen.toNat

theorem spells_pktWord0 (p : Packet) : SpellsWord0 (pktWord0 p false) p := by
  have type := p.type.isLt
  have cls := p.cls.isLt
  have esc := p.esc.toNat_le
  have hops := p.hops.isLt
  have seqd := p.seqd.toNat_le
  have gen := p.gen.isLt
  have age := p.age.isLt
  have dst := p.dstPhys.isLt
  have src := p.srcPhys.isLt
  have plen := p.plen.isLt
  rw [pktWord0_eq]
  refine ⟨by omega, ?_, ?_, ?_, ?_, ?_, ?_, ?_, ?_, ?_, ?_⟩ <;> unfold bits <;> omega

/-- The fields that a second header word spells. -/
structure SpellsWord1 (w : Nat) (p : Packet) : Prop where
  lt : w < 2 ^ 64
  srcLog : bits w 0 12 = p.srcLog.toNat
  dstLog : bits w 12 12 = p.dstLog.toNat
  seq : bits w 24 16 = p.seq.toNat
  etag : bits w 40 16 = p.etag.toNat
  res : bits w 56 8 = p.res.toNat

theorem spells_pktWord1 (p : Packet) : SpellsWord1 (pktWord1 p) p := by
  have srcLog := p.srcLog.isLt
  have dstLog := p.dstLog.isLt
  have seq := p.seq.isLt
  have etag := p.etag.isLt
  have res := p.res.isLt
  unfold pktWord1
  refine ⟨by omega, ?_, ?_, ?_, ?_, ?_⟩ <;> unfold bits <;> omega

/-- The parts of a packet's bytes. -/
theorem pktBytes_parts (p : Packet) :
    leNat ((pktBytes p).take 8) = pktWord0 p false ∧ leNat (((pktBytes p).drop 8).take 8) = pktWord1 p ∧
      leNat (((pktBytes p).drop 16).take 8) = p.arg0.toNat ∧ leNat (((pktBytes p).drop 24).take 4) = p.arg1.toNat ∧
      leNat (((pktBytes p).drop 28).take 4) = p.pcrc.toNat ∧ (pktBytes p).drop 32 = p.data := by
  have w0 := leNat_leBytes 8 (pktWord0 p false)
  have w1 := leNat_leBytes 8 (pktWord1 p)
  have a0 := leNat_leBytes 8 p.arg0.toNat
  have a1 := leNat_leBytes 4 p.arg1.toNat
  have c := leNat_leBytes 4 p.pcrc.toNat
  rw [Nat.mod_eq_of_lt (spells_pktWord0 p).lt] at w0
  rw [Nat.mod_eq_of_lt (spells_pktWord1 p).lt] at w1
  rw [Nat.mod_eq_of_lt p.arg0.isLt] at a0
  rw [Nat.mod_eq_of_lt p.arg1.isLt] at a1
  rw [Nat.mod_eq_of_lt p.pcrc.isLt] at c
  refine ⟨w0, w1, a0, a1, c, rfl⟩

theorem bit_of_bits {w k : Nat} {b : Bool} (h : bits w k 1 = b.toNat) : bit w k = b := by
  rw [bits, pow_one] at h
  rw [bit, Nat.testBit_eq_decide_div_mod_eq, h]
  cases b <;> rfl

theorem ofNat_of_bits {n w : Nat} {x : BitVec n} (h : bits w 0 n = x.toNat) : BitVec.ofNat n w = x := by
  rw [bits, pow_zero, Nat.div_one] at h
  exact BitVec.eq_of_toNat_eq ((BitVec.toNat_ofNat ..).trans h)

theorem packetOf_pktBytes (p : Packet) : packetOf (pktBytes p) = p := by
  obtain ⟨word0, word1, arg0, arg1, pcrc, data⟩ := pktBytes_parts p
  obtain ⟨-, type, cls, esc, hops, seqd, gen, age, dstPhys, srcPhys, plen⟩ := spells_pktWord0 p
  obtain ⟨-, srcLog, dstLog, seq, etag, res⟩ := spells_pktWord1 p
  have whole {n : Nat} (x : BitVec n) : BitVec.ofNat n x.toNat = x := by simp
  unfold packetOf
  dsimp only
  rw [word0, word1, arg0, arg1, pcrc, data, bit_of_bits esc, bit_of_bits seqd, cls, hops, gen, age, dstPhys, srcPhys, plen, dstLog, seq,
    etag, res, ofNat_of_bits type, ofNat_of_bits srcLog]
  simp only [whole]

/-! ### The byte stream of a channel (R384) -/

theorem flatten_pieces (g : Nat) (bs : List Byte) : ∀ n,
    ((List.range n).map fun i => (bs.drop (g * i)).take g).flatten = bs.take (g * n)
  | 0 => by simp
  | n + 1 => by
    rw [List.range_succ, List.map_append, List.flatten_append, flatten_pieces g bs n, Nat.mul_succ, List.take_add]
    simp

/-- The flits of a run of bytes carry the run. -/
theorem payloads_cutFlits (vc start : Nat) (urgent : Bool) (bs : List Byte) :
    ((cutFlits vc start urgent bs).map TxFlit.payload).flatten = bs := by
  have pieces := flatten_pieces 240 bs ((bs.length + 239) / 240)
  rw [List.take_of_length_le (by omega)] at pieces
  rw [cutFlits, List.map_map]
  exact pieces

theorem mem_cutFlits {vc start : Nat} {urgent : Bool} {bs : List Byte} {x : TxFlit} (h : x ∈ cutFlits vc start urgent bs) :
    x.vc = vc ∧ x.urgent = urgent ∧ x.payload.length ≤ 240 := by
  obtain ⟨i, -, rfl⟩ := List.mem_map.mp h
  exact ⟨rfl, rfl, List.length_take_le ..⟩

/-- The flits of a kind: of a channel, and urgent or not. -/
def TxFlit.ofKind (vc : Nat) (urgent : Bool) (x : TxFlit) : Bool := x.vc == vc && x.urgent == urgent

section
variable {vc : Nat} {urgent : Bool}

theorem filter_cutFlits_self (start : Nat) (bs : List Byte) :
    (cutFlits vc start urgent bs).filter (TxFlit.ofKind vc urgent) = cutFlits vc start urgent bs :=
  List.filter_eq_self.mpr fun x hx => by
    obtain ⟨channel, kind, -⟩ := mem_cutFlits hx
    simp [TxFlit.ofKind, channel, kind]

theorem filter_cutFlits_other (start : Nat) (bs : List Byte) {k : Nat} {b : Bool} (h : k ≠ vc ∨ b ≠ urgent) :
    (cutFlits vc start urgent bs).filter (TxFlit.ofKind k b) = [] :=
  List.filter_eq_nil_iff.mpr fun x hx => by
    obtain ⟨channel, kind, -⟩ := mem_cutFlits hx
    rcases h with h | h <;> simp [TxFlit.ofKind, channel, kind, h.symm]

/-- The queue after a packet has been placed in it: the flits of the kind but for the last one that has room, whose bytes the packet's
follow. -/
theorem queue_queueBytes (q : Port) (vc : Nat) (urgent : Bool) (bs : List Byte) :
    (q.queueBytes vc urgent bs).queue = q.queue ++ cutFlits vc 0 urgent bs ∨
      ∃ x start, (q.queue.filter (TxFlit.ofKind vc urgent)).getLast? = some x ∧
        (q.queueBytes vc urgent bs).queue = q.queue.filter (fun y => !TxFlit.ofKind vc urgent y) ++
          (q.queue.filter (TxFlit.ofKind vc urgent)).dropLast ++ cutFlits vc start urgent (x.payload ++ bs) := by
  unfold Port.queueBytes
  dsimp only
  split
  · exact .inl rfl
  next x last =>
    split
    · exact .inr ⟨x, _, last, rfl⟩
    · exact .inl rfl

theorem filter_filter_other {k : Nat} {b : Bool} (h : k ≠ vc ∨ b ≠ urgent) (l : List TxFlit) :
    (l.filter fun y => !TxFlit.ofKind vc urgent y).filter (TxFlit.ofKind k b) = l.filter (TxFlit.ofKind k b) := by
  rw [List.filter_filter]
  refine List.filter_congr fun x _ => ?_
  cases this : TxFlit.ofKind k b x with
  | false => rfl
  | true =>
    simp only [TxFlit.ofKind, Bool.and_eq_true, beq_iff_eq] at this
    obtain ⟨rfl, rfl⟩ := this
    rcases h with h | h <;> simp [TxFlit.ofKind, h]

theorem filter_dropLast_self (l : List TxFlit) : (l.filter (TxFlit.ofKind vc urgent)).dropLast.filter (TxFlit.ofKind vc urgent) =
    (l.filter (TxFlit.ofKind vc urgent)).dropLast :=
  List.filter_eq_self.mpr fun _ hx => (List.mem_filter.mp (List.mem_of_mem_dropLast hx)).2

theorem filter_dropLast_other {k : Nat} {b : Bool} (h : k ≠ vc ∨ b ≠ urgent) (l : List TxFlit) :
    (l.filter (TxFlit.ofKind vc urgent)).dropLast.filter (TxFlit.ofKind k b) = [] :=
  List.filter_eq_nil_iff.mpr fun x hx => by
    have kind := (List.mem_filter.mp (List.mem_of_mem_dropLast hx)).2
    simp only [TxFlit.ofKind, Bool.and_eq_true, beq_iff_eq] at kind
    obtain ⟨rfl, rfl⟩ := kind
    rcases h with h | h <;> simp [TxFlit.ofKind, h.symm]

theorem packetBytes : Claims.PacketBytes := by
  refine ⟨packetOf_pktBytes, fun q vc urgent bs => ?_⟩
  intro t stream
  have kinds (r : Port) (k : Nat) (b : Bool) : stream r k b = ((r.queue.filter (TxFlit.ofKind k b)).map TxFlit.payload).flatten := rfl
  refine ⟨queueBytes_eq .., ?_, fun k b other => ?_, fun short x hx => ?_⟩
  · rw [kinds, kinds]
    rcases queue_queueBytes q vc urgent bs with queue | ⟨x, start, last, queue⟩
    · rw [queue, List.filter_append, List.map_append, List.flatten_append, filter_cutFlits_self, payloads_cutFlits]
    · have whole := List.dropLast_append_getLast? x last
      have rest : (q.queue.filter fun y => !TxFlit.ofKind vc urgent y).filter (TxFlit.ofKind vc urgent) = [] := by
        rw [List.filter_filter]
        simp
      rw [queue, List.filter_append, List.filter_append, rest, filter_dropLast_self, filter_cutFlits_self, List.nil_append,
        List.map_append, List.flatten_append, payloads_cutFlits, ← whole]
      simp
  · show t.queue.filter (TxFlit.ofKind k b) = q.queue.filter (TxFlit.ofKind k b)
    rcases queue_queueBytes q vc urgent bs with queue | ⟨x, start, last, queue⟩
    · rw [queue, List.filter_append, filter_cutFlits_other _ _ other, List.append_nil]
    · rw [queue, List.filter_append, List.filter_append, filter_filter_other other, filter_dropLast_other other,
        filter_cutFlits_other _ _ other, List.append_nil, List.append_nil]
  · rcases queue_queueBytes q vc urgent bs with queue | ⟨y, start, -, queue⟩
    · rcases List.mem_append.mp (queue ▸ hx) with old | new
      · exact short x old
      · exact (mem_cutFlits new).2.2
    · rcases List.mem_append.mp (queue ▸ hx) with old | new
      · rcases List.mem_append.mp old with other | kind
        · exact short x (List.mem_filter.mp other).1
        · exact short x (List.mem_filter.mp (List.mem_of_mem_dropLast kind)).1
      · exact (mem_cutFlits new).2.2

end

/-! ### States of ports (R377-R379) -/

theorem ports_reportInert : ReportInert (fun s => s.fab.ports) :=
  ⟨fun _ _ _ => rfl, fun _ _ _ => rfl, fun _ _ => rfl, fun _ _ _ _ => rfl, fun _ _ _ => rfl, fun _ _ _ => rfl, fun _ _ _ _ => rfl,
    fun _ _ _ _ _ => rfl, fun _ _ _ => rfl⟩

theorem port_eq_of_ports {s t : State} (h : t.fab.ports = s.fab.ports) (k : Nat) : t.port k = s.port k := by rw [State.port, h, State.port]

theorem ports_setPortState (s : State) (k st : Nat) :
    (s.setPortState k st).fab.ports = (s.setPort k { s.port k with state := st }).fab.ports :=
  (ports_reportInert.trace ..).trans (ports_reportInert.retire ..)

theorem port_setPortState_self (s : State) (k st : Nat) : (s.setPortState k st).port k = { s.port k with state := st } :=
  (port_eq_of_ports (ports_setPortState s k st) k).trans (port_setPort_self ..)

theorem port_setPortState_other (s : State) {k j : Nat} (st : Nat) (h : j ≠ k) : (s.setPortState k st).port j = s.port j :=
  (port_eq_of_ports (ports_setPortState s k st) j).trans (port_setPort_other _ _ h)

theorem reported_setPortState (s : State) (k st : Nat) : Reported (s.setPort k { s.port k with state := st }) (s.setPortState k st) := by
  simp [Reported, State.setPortState]

theorem port_failPort_self (s : State) (k : Nat) : (s.failPort k).port k = { (s.port k).drop with state := 5 } := by
  rw [State.failPort, port_setPortState_self, port_setPort_self]

theorem port_failPort_other (s : State) {k j : Nat} (h : j ≠ k) : (s.failPort k).port j = s.port j := by
  rw [State.failPort, port_setPortState_other _ _ h, port_setPort_other _ _ h]

/-- A trained port takes the state of its lanes; with too few of them it fails. -/
def State.takeLanes (s : State) (k : Nat) (h : BitVec 9) : State :=
  let s1 := s.setPort k { s.port k with lanes := (laneState h).2 }
  if (laneState h).1 = 5 then s1.failPort k
  else if (s.port k).state = (laneState h).1 then s1 else s1.setPortState k (laneState h).1

theorem laneState_failed : ∀ h : BitVec 9, (laneState h).1 = 5 → (laneState h).2 = 0 := by
  decide +kernel

section
variable (s : State) (k : Nat) (h : BitVec 9)

theorem port_takeLanes : ((s.takeLanes k h).port k).state = (laneState h).1 ∧ ((s.takeLanes k h).port k).lanes = (laneState h).2 := by
  unfold State.takeLanes
  dsimp only
  split
  next failed =>
    rw [port_failPort_self]
    exact ⟨failed.symm, (laneState_failed h failed).symm⟩
  next =>
    split
    next same =>
      rw [port_setPort_self]
      exact ⟨same, rfl⟩
    next =>
      rw [port_setPortState_self, port_setPort_self]
      exact ⟨rfl, rfl⟩

theorem port_takeLanes_other {j : Nat} (hj : j ≠ k) : (s.takeLanes k h).port j = s.port j := by
  unfold State.takeLanes
  dsimp only
  split
  · rw [port_failPort_other _ hj, port_setPort_other _ _ hj]
  · split
    · rw [port_setPort_other _ _ hj]
    · rw [port_setPortState_other _ _ hj, port_setPort_other _ _ hj]

/-- What training has settled stays. -/
structure Port.SamePartner (q r : Port) : Prop where
  trained : r.trained = q.trained
  phys : r.pPhys = q.pPhys
  port : r.pPort = q.pPort
  serial : r.pSerial = q.pSerial
  healthy : r.healthy = q.healthy

theorem partner_takeLanes : (s.port k).SamePartner ((s.takeLanes k h).port k) := by
  unfold State.takeLanes
  dsimp only
  split
  · rw [port_failPort_self, port_setPort_self]
    exact ⟨rfl, rfl, rfl, rfl, rfl⟩
  · split
    · rw [port_setPort_self]
      exact ⟨rfl, rfl, rfl, rfl, rfl⟩
    · rw [port_setPortState_self, port_setPort_self]
      exact ⟨rfl, rfl, rfl, rfl, rfl⟩

end

/-- The port that training leaves, before it is compared with the placement. -/
def Port.trainedWith (q : Port) (phys : BitVec 12) (n : BitVec 5) (ser : Word) : Port :=
  { q with trained := true, pPhys := phys, pPort := n, pSerial := ser, tx := 0, rx := 0xFFF, unacked := [], credits := [],
           owed := [], nak := false, replays := 0, queue := [] }

theorem exec_portTrained {s : State} {k : Nat} (live : s.live = true) (hk : k < 18) (rest : (s.port k).state = 0)
    (untrained : (s.port k).trained = false) (phys : BitVec 12) (n : BitVec 5) (ser : Word) :
    exec (.portTrained k phys n ser) s = .next (
      let s1 := s.setPort k ((s.port k).trainedWith phys n ser)
      if s.fab.placed then s1.comparePort k else s1) := by
  rw [exec, execPortTrained, whenFormed_of_formed _ (by simpa using hk), whenLive_of_live _ live,
    whenDue_of_due _ (by simp [rest, untrained])]
  rfl

section
variable {s : State} {k : Nat} {q : Port} (hq : s.port k = q) (rest : q.state = 0) (trained : q.trained = true)
include hq rest

theorem comparePort_unwired (h : (Tab.get (fun _ => PPort.reset) s.place.ports k).wired = false) :
    s.comparePort k = (s.setPort k q.drop).setPortState k 7 := by
  simp [State.comparePort, h, hq, rest]

include trained
theorem comparePort_named (h : (Tab.get (fun _ => PPort.reset) s.place.ports k).wired = true)
    (named : q.pPhys = (Tab.get (fun _ => PPort.reset) s.place.ports k).phys ∧
      q.pPort = (Tab.get (fun _ => PPort.reset) s.place.ports k).port ∧
      ((Tab.get (fun _ => PPort.reset) s.place.ports k).serial = 0 ∨ (Tab.get (fun _ => PPort.reset) s.place.ports k).serial = q.pSerial)) :
    s.comparePort k = s.takeLanes k q.healthy := by
  unfold State.comparePort State.takeLanes
  dsimp only
  rw [hq, h, if_neg (by decide), if_neg (by rw [rest]; decide), if_neg (by simp [trained, rest]), if_pos named]

theorem comparePort_other (h : (Tab.get (fun _ => PPort.reset) s.place.ports k).wired = true)
    (other : ¬ (q.pPhys = (Tab.get (fun _ => PPort.reset) s.place.ports k).phys ∧
      q.pPort = (Tab.get (fun _ => PPort.reset) s.place.ports k).port ∧
      ((Tab.get (fun _ => PPort.reset) s.place.ports k).serial = 0 ∨ (Tab.get (fun _ => PPort.reset) s.place.ports k).serial = q.pSerial))) :
    s.comparePort k = ((s.setPort k { q with lanes := 0 }).setPortState k 4).mEvent 11 k := by
  unfold State.comparePort
  dsimp only
  rw [hq, h, if_neg (by decide), if_neg (by rw [rest]; decide), if_neg (by simp [trained, rest]), if_neg other,
    if_neg (by rw [rest]; decide)]

end

theorem exec_linkRetrain {s : State} {k : Nat} (live : s.live = true) (hk : k < 18) (up : (s.port k).up = true)
    (replays : 8 ≤ (s.port k).replays) : exec (.linkRetrain k) s = .next (s.setPort k { s.port k with
      retrains := min ((s.port k).retrains + 1) 65535, replays := 0, lastTx := (s.port k).unacked }) := by
  rw [exec, execLinkRetrain, whenFormed_of_formed _ (by simpa using hk), whenLive_of_live _ live]
  exact whenDue_of_due _ (by simp [up, replays])

theorem exec_portFailed {s : State} {k : Nat} (live : s.live = true) (hk : k < 18) (up : (s.port k).up = true) :
    exec (.portFailed k) s = .next (s.failPort k) := by
  rw [exec, execPortFailed, whenFormed_of_formed _ (by simpa using hk), whenLive_of_live _ live]
  exact whenDue_of_due _ up

theorem reported_failPort (s : State) (k : Nat) :
    Reported { s with fab := { s.fab with ports := (s.failPort k).fab.ports } } (s.failPort k) := by
  rw [State.failPort, ports_setPortState]
  exact reported_setPortState ..

/-- What ends a test of a spare lane leaves. -/
theorem field_of_endTests {α : Type} (g : State → α) (ended : ∀ s r e, g { s with dbg := { s.dbg with istRun := r, istRes := e } } = g s)
    (frg : ∀ s d f, g (s.setFrg d f) = g s) (s : State) (hit : Nat → Nat → Bool) : g (s.endTests hit) = g s := by
  unfold State.endTests
  split
  · split
    · dsimp only
      split
      · exact (frg ..).trans (ended ..)
      · exact ended ..
    · rfl
  · rfl

/-- The state in which a lane has been retired and reported, before its port takes the state of the lanes left. -/
def State.laneGone (s : State) (k l : Nat) : State :=
  let s0 := if l < 8 then s.endTests fun i t => i == 3 && t == k else s
  ((s0.setPort k { s.port k with healthy := (s.port k).healthy &&& ~~~(1#9 <<< l) }).bump 37 1).retire s0.owner 5 1
    (k + 32 * l) (k + 32 * l) (k + 32 * l)

theorem ports_laneGone (s : State) (k l : Nat) : (s.laneGone k l).fab.ports =
    (s.setPort k { s.port k with healthy := (s.port k).healthy &&& ~~~(1#9 <<< l) }).fab.ports := by
  have kept (u : State) (q : Port) (h : u.fab.ports = s.fab.ports) : (u.setPort k q).fab.ports = (s.setPort k q).fab.ports := by
    show Tab.set (fun _ => Port.reset) u.fab.ports k q = Tab.set (fun _ => Port.reset) s.fab.ports k q
    rw [h]
  refine (ports_reportInert.retire ..).trans (kept _ _ ?_)
  split
  · exact field_of_endTests (fun s => s.fab.ports) (fun _ _ _ => rfl) (fun _ _ _ => rfl) ..
  · rfl

theorem port_laneGone_self (s : State) (k l : Nat) :
    (s.laneGone k l).port k = { s.port k with healthy := (s.port k).healthy &&& ~~~(1#9 <<< l) } :=
  (port_eq_of_ports (ports_laneGone s k l) k).trans (port_setPort_self ..)

theorem port_laneGone_other (s : State) {k j : Nat} (l : Nat) (h : j ≠ k) : (s.laneGone k l).port j = s.port j :=
  (port_eq_of_ports (ports_laneGone s k l) j).trans (port_setPort_other _ _ h)

theorem retireLane_eq (s : State) (k l : Nat) : s.retireLane k l =
    if (s.port k).up then
      if (laneState ((s.port k).healthy &&& ~~~(1#9 <<< l))).1 = 5 then (s.laneGone k l).failPort k
      else (s.laneGone k l).takeLanes k ((s.port k).healthy &&& ~~~(1#9 <<< l))
    else s.laneGone k l := by
  have state : ((s.laneGone k l).port k).state = (s.port k).state := by rw [port_laneGone_self]
  have steps : s.retireLane k l = if (s.port k).up then match laneState ((s.port k).healthy &&& ~~~(1#9 <<< l)) with
      | (st, lanes) => if st = 5 then (s.laneGone k l).failPort k
        else if st = (s.port k).state then (s.laneGone k l).setPort k { (s.laneGone k l).port k with lanes := lanes }
        else ((s.laneGone k l).setPort k { (s.laneGone k l).port k with lanes := lanes }).setPortState k st
      else s.laneGone k l := rfl
  rw [steps, State.takeLanes, state]
  generalize laneState ((s.port k).healthy &&& ~~~(1#9 <<< l)) = p
  obtain ⟨st, lanes⟩ := p
  dsimp only
  simp only [eq_comm (a := (s.port k).state)]
  generalize s.laneGone k l = u
  split
  · split
    · rfl
    · rfl
  · rfl

theorem aon_laneGone (s : State) (k l : Nat) : (s.laneGone k l).aon 37 = s.aon 37 + 1 := by
  have inert : ReportInert fun s => s.aon 37 := aon_reportInert (by decide)
  refine (inert.retire ..).trans ((aon_bump_self _ 37 1).trans (congrArg (· + 1) ?_))
  show (if l < 8 then s.endTests fun i t => i == 3 && t == k else s).aon 37 = _
  split
  · exact field_of_endTests (fun s => s.aon 37) (fun _ _ _ => rfl) (fun _ _ _ => rfl) ..
  · rfl

theorem aon_setPortState (s : State) (k st : Nat) : (s.setPortState k st).aon 37 = s.aon 37 := by
  have inert : ReportInert fun s => s.aon 37 := aon_reportInert (by decide)
  exact (inert.trace ..).trans (inert.retire ..)

theorem aon_failPort (s : State) (k : Nat) : (s.failPort k).aon 37 = s.aon 37 := aon_setPortState ..

theorem aon_takeLanes (s : State) (k : Nat) (h : BitVec 9) : (s.takeLanes k h).aon 37 = s.aon 37 := by
  unfold State.takeLanes
  dsimp only
  split
  · exact aon_failPort ..
  · split
    · rfl
    · exact aon_setPortState ..

theorem portStates : Claims.PortStates := by
  intro s k live hk
  refine ⟨fun phys n ser rest untrained => ?_, fun l hl healthy => ?_, exec_linkRetrain live hk, fun up => ?_⟩
  · have own : (s.setPort k ((s.port k).trainedWith phys n ser)).port k = (s.port k).trainedWith phys n ser := port_setPort_self ..
    have others (j : Nat) (hj : j ≠ k) : (s.setPort k ((s.port k).trainedWith phys n ser)).port j = s.port j := port_setPort_other _ _ hj
    refine ⟨_, exec_portTrained live hk rest untrained phys n ser, ?_⟩
    dsimp only
    cases placed : s.fab.placed with
    | false =>
      rw [if_neg Bool.false_ne_true, own]
      exact ⟨others, rfl, rfl, rfl, rfl, fun _ => ⟨rest, rfl⟩, nofun, nofun, nofun⟩
    | true =>
      rw [if_pos rfl]
      cases wired : (Tab.get (fun _ => PPort.reset) s.place.ports k).wired with
      | false =>
        rw [comparePort_unwired own rest wired, port_setPortState_self, port_setPort_self]
        refine ⟨fun j hj => ?_, rfl, rfl, rfl, rfl, nofun, fun _ _ => rfl, nofun, nofun⟩
        rw [port_setPortState_other _ _ hj, port_setPort_other _ _ hj, others j hj]
      | true =>
        by_cases named : phys = (Tab.get (fun _ => PPort.reset) s.place.ports k).phys ∧
          n = (Tab.get (fun _ => PPort.reset) s.place.ports k).port ∧
          ((Tab.get (fun _ => PPort.reset) s.place.ports k).serial = 0 ∨ (Tab.get (fun _ => PPort.reset) s.place.ports k).serial = ser)
        · rw [comparePort_named own rest rfl wired named]
          have partner := partner_takeLanes (s.setPort k ((s.port k).trainedWith phys n ser)) k (s.port k).healthy
          have lanes := port_takeLanes (s.setPort k ((s.port k).trainedWith phys n ser)) k (s.port k).healthy
          rw [own] at partner
          refine ⟨fun j hj => (port_takeLanes_other _ _ _ hj).trans (others j hj), partner.trained, partner.phys, partner.port,
            partner.serial, nofun, nofun, fun _ _ _ _ _ => lanes, fun _ _ other => ?_⟩
          obtain ⟨samePhys, samePort, sameSerial⟩ := named
          rcases other with other | other | ⟨some_, other⟩
          · exact absurd samePhys other
          · exact absurd samePort other
          · exact absurd sameSerial (not_or.mpr ⟨some_, other⟩)
        · rw [comparePort_other own rest rfl wired named]
          have port : ((((s.setPort k ((s.port k).trainedWith phys n ser)).setPort k
              { (s.port k).trainedWith phys n ser with lanes := 0 }).setPortState k 4).mEvent 11 k).port k =
              { (s.port k).trainedWith phys n ser with lanes := 0, state := 4 } := by
            refine (port_setPortState_self ..).trans ?_
            rw [port_setPort_self]
          refine ⟨fun j hj => ?_, ?_, ?_, ?_, ?_, nofun, nofun, fun _ _ samePhys samePort sameSerial =>
            absurd ⟨samePhys, samePort, sameSerial⟩ named, fun _ _ _ => ?_⟩
          · refine (port_setPortState_other _ _ hj).trans ?_
            rw [port_setPort_other _ _ hj, others j hj]
          all_goals rw [port]
          · rfl
          · rfl
          · rfl
          · rfl
          · exact ⟨rfl, rfl⟩
  · have row : exec (.laneRetire k l) s = .next (s.retireLane k l) := by
      rw [exec, execLaneRetire, whenFormed_of_formed _ (by simp [hk, hl]), whenLive_of_live _ live]
      exact whenDue_of_due _ healthy
    refine ⟨_, row, ?_⟩
    rw [retireLane_eq]
    split
    next up =>
      have down : ¬ (s.port k).up = false := by simp [up]
      split
      next failed =>
        have port : ((s.laneGone k l).failPort k).port k = _ := port_failPort_self ..
        rw [port_laneGone_self] at port
        refine ⟨fun j hj => (port_failPort_other _ hj).trans (port_laneGone_other s l hj), (aon_failPort ..).trans (aon_laneGone s k l),
          ?_, fun _ => ⟨?_, ?_⟩, fun h => absurd h down⟩ <;> rw [port]
        · rfl
        · exact failed.symm
        · exact (laneState_failed _ failed).symm
      next =>
        have healthy := (partner_takeLanes (s.laneGone k l) k ((s.port k).healthy &&& ~~~(1#9 <<< l))).healthy
        rw [port_laneGone_self] at healthy
        refine ⟨fun j hj => (port_takeLanes_other _ _ _ hj).trans (port_laneGone_other s l hj),
          (aon_takeLanes ..).trans (aon_laneGone s k l), healthy, fun _ => ?_, fun h => absurd h down⟩
        rw [healthy]
        exact port_takeLanes ..
    next down =>
      exact ⟨fun j hj => port_laneGone_other s l hj, aon_laneGone s k l, by rw [port_laneGone_self], fun up => absurd up down,
        fun _ => port_laneGone_self s k l ▸ ⟨rfl, rfl⟩⟩
  · refine ⟨_, exec_portFailed live hk up, fun j hj => port_failPort_other s hj, ?_, ?_, ?_, ?_, ?_, reported_failPort s k⟩ <;> rw [port_failPort_self]
    all_goals rfl

/-! ### Flits that come (R382-R385) -/

/-- The port with the sequence number and the credits of an accepted flit. -/
def Port.accepted (q : Port) (f : Flit) : Port :=
  let q1 := { q.acked f.aseq with rx := f.fseq, nak := false }
  if f.cvc.toNat < 9 then
    { q1 with credits := Tab.set creditInit q1.credits f.cvc.toNat (q1.credit f.cvc.toNat + f.ccount.toNat) }
  else q1

/-- The port after an accepted flit, before its payload: it replays where the flit asks for it. -/
def Port.afterFlit (q : Port) (f : Flit) : Port := if f.nak then (q.accepted f).replay else q.accepted f

theorem acceptFlit_eq (s : State) (k : Nat) (f : Flit) : s.acceptFlit k f =
    match takePayload (Tab.get (fun _ => []) ((s.port k).afterFlit f).rxBuf f.vc.toNat) f.start.toNat f.payload with
    | (ps, rest) =>
      let s1 := if f.nak && !((s.port k).accepted f).unacked.isEmpty then s.bump 36 1 else s
      if 9 ≤ f.vc.toNat then s1.setPort k ((s.port k).afterFlit f)
      else foldS (fun t p => t.arrive k f.vc.toNat p) (s1.setPort k { (s.port k).afterFlit f with
        rxBuf := Tab.set (fun _ => []) ((s.port k).afterFlit f).rxBuf f.vc.toNat rest }) ps := rfl

section
variable (q : Port) (f : Flit)

theorem acked_eq (a : BitVec 12) : q.acked a = { q with unacked := (q.acked a).unacked, replays := (q.acked a).replays } := by
  unfold Port.acked
  split
  · rfl
  · dsimp only
    split <;> rfl

theorem accepted_eq : q.accepted f = { q with
    unacked := (q.acked f.aseq).unacked, replays := (q.acked f.aseq).replays, rx := f.fseq, nak := false,
    credits := if f.cvc.toNat < 9 then
      Tab.set creditInit q.credits f.cvc.toNat (q.credit f.cvc.toNat + f.ccount.toNat) else q.credits } := by
  unfold Port.accepted
  rw [acked_eq]
  dsimp only
  split <;> rfl

theorem replay_eq : q.replay = { q with lastTx := q.replay.lastTx, replays := q.replay.replays } := by
  unfold Port.replay
  split <;> rfl

/-- What an accepted flit leaves at the port. -/
structure Port.TookFlit (q r : Port) (f : Flit) : Prop where
  rx : r.rx = f.fseq
  nak : r.nak = false
  unacked : r.unacked = (q.acked f.aseq).unacked
  replay : f.nak = true → (q.acked f.aseq).unacked ≠ [] → r.lastTx = (q.acked f.aseq).unacked
  credit : f.cvc.toNat < 9 → r.credit f.cvc.toNat = q.credit f.cvc.toNat + f.ccount.toNat

theorem tookFlit_accepted (h : f.nak = false) : q.TookFlit (q.accepted f) f := by
  rw [accepted_eq]
  refine ⟨rfl, rfl, rfl, fun asked => ?_, fun small => ?_⟩
  · rw [h] at asked
    cases asked
  · rw [Port.credit]
    dsimp only
    rw [if_pos small, Tab.get_set_self]

theorem tookFlit_afterFlit : q.TookFlit (q.afterFlit f) f := by
  unfold Port.afterFlit
  cases asked : f.nak with
  | false =>
    rw [if_neg Bool.false_ne_true]
    exact tookFlit_accepted q f asked
  | true =>
    have replayed : (q.accepted f).replay = { q.accepted f with
        lastTx := (q.accepted f).replay.lastTx, replays := (q.accepted f).replay.replays } := replay_eq _
    have same : (q.accepted f).unacked = (q.acked f.aseq).unacked := by rw [accepted_eq]
    have credits : (q.accepted f).replay.credit = (q.accepted f).credit := by rw [replayed]; rfl
    rw [if_pos rfl]
    refine ⟨?_, ?_, ?_, fun _ some_ => ?_, fun small => ?_⟩
    · rw [replayed, accepted_eq]
    · rw [replayed, accepted_eq]
    · rw [replayed, same]
    · rw [Port.replay, if_neg (same ▸ some_), same]
    · rw [credits, Port.credit, accepted_eq]
      dsimp only
      rw [if_pos small, Tab.get_set_self]

theorem rxBuf_afterFlit : (q.afterFlit f).rxBuf = q.rxBuf := by
  unfold Port.afterFlit
  split
  · rw [replay_eq, accepted_eq]
  · rw [accepted_eq]

end

/-! ### Packets that arrive (R388, R394, R416) -/

/-- What is computed from a state does not depend on what an arriving packet changes, but for the packets that wait: credits that its
port owes, counters, and events. -/
structure ArriveInert {β : Type} (k : Nat) (g : State → β) : Prop where
  owed : ∀ s o, g (s.setPort k { s.port k with owed := o }) = g s
  count : ∀ s n m, g (s.bump n m) = g s
  mgmt : ∀ s m, g { s with mgmt := m } = g s

namespace ArriveInert
variable {β : Type} {k : Nat} {g : State → β} (hg : ArriveInert k g)
include hg

theorem owe (s : State) (vc : Nat) (p : Packet) : g (s.owe k vc p) = g s := by
  unfold State.owe
  dsimp only
  split
  · rfl
  · exact hg.owed ..

theorem collarClamp (s : State) : g s.collarClamp = g s := by
  have noted (m m' : Mgmt) : g { { s.bump 45 1 with mgmt := m } with mgmt := m' } = g s :=
    (hg.mgmt ..).trans ((hg.mgmt ..).trans (hg.count ..))
  unfold State.collarClamp
  dsimp only
  split
  · exact noted _ _
  · split
    · exact noted _ _
    · exact hg.count ..

theorem arrive (waiting : ∀ s w, g { s with fab := { s.fab with waiting := w } } = g s) (s : State) (vc : Nat) (p : Packet) :
    g (s.arrive k vc p) = g s := by
  unfold State.arrive
  dsimp only
  split
  · exact (hg.collarClamp ..).trans ((hg.owe ..).trans (hg.count ..))
  · split
    · exact (hg.count ..).trans ((hg.owe ..).trans (hg.count ..))
    · exact (waiting (s.bump (18 + k) (pktSize p)) _).trans (hg.count ..)

end ArriveInert

/-- A port but for the credits that it owes. -/
def Port.unowed (q : Port) : Port := { q with owed := [] }

theorem unowed_arriveInert (k : Nat) : ArriveInert k fun s => (s.port k).unowed :=
  ⟨fun s o => by rw [port_setPort_self]; rfl, fun _ _ _ => rfl, fun _ _ => rfl⟩

theorem port_arriveInert {k j : Nat} (h : j ≠ k) : ArriveInert k fun s => s.port j :=
  ⟨fun _ _ => port_setPort_other _ _ h, fun _ _ _ => rfl, fun _ _ => rfl⟩

theorem waiting_arriveInert (k : Nat) : ArriveInert k fun s => s.fab.waiting := ⟨fun _ _ => rfl, fun _ _ _ => rfl, fun _ _ => rfl⟩

/-- A packet in its channel waits at the Q-die for a decision. -/
theorem waiting_arrive {s : State} {k vc : Nat} {p : Packet} (other : p.srcPhys ≠ s.fab.phys) (own : vc = chanOf p) (hvc : vc < 9) :
    (s.arrive k vc p).fab.waiting = s.fab.waiting ++ [(some k, p)] := by
  unfold State.arrive
  dsimp only
  rw [if_neg other, if_neg (by omega)]
  rfl

/-- One that comes in another channel than its class's is discarded and counted. -/
theorem arrive_misplaced {s : State} {k vc : Nat} {p : Packet} (other : p.srcPhys ≠ s.fab.phys) (stray : vc ≠ chanOf p) :
    s.arrive k vc p = ((s.bump (18 + k) (pktSize p)).owe k vc p).bump 41 1 := by
  unfold State.arrive
  dsimp only
  rw [if_neg other, if_pos (.inl (Ne.symm stray))]

/-! ### The packet that a flit holds whole (R384) -/

theorem leNat_of_zeros : ∀ {l : List Byte}, (∀ b ∈ l, b = 0) → leNat l = 0
  | [], _ => rfl
  | b :: l, h => by
    obtain ⟨rfl, rest⟩ := List.forall_mem_cons.mp h
    rw [leNat, leNat_of_zeros rest]
    rfl

theorem type_of_zero_header {p : Packet} (h : ((pktBytes p).take 32).all (fun b => b == 0) = true) : p.type = 0 := by
  obtain ⟨word0, -⟩ := pktBytes_parts p
  have zeros : ∀ b ∈ (pktBytes p).take 8, b = 0 := fun b hb => by
    have := List.all_eq_true.mp h b (List.take_subset_take_left _ (by decide) hb)
    simpa using this
  have type := (spells_pktWord0 p).type
  rw [← word0, leNat_of_zeros zeros] at type
  exact BitVec.eq_of_toNat_eq type.symm

theorem splitPkts_padding (n k : Nat) : splitPkts (n + 1) (List.replicate k 0) = ([], []) := by
  rw [splitPkts, if_pos (by simp)]

theorem takePayload_whole {p : Packet} {payload : List Byte} (some_ : p.type ≠ 0) (len : pktLen (pktBytes p) = some (pktSize p))
    (whole : payload = pktBytes p ++ List.replicate (240 - pktSize p) 0) : takePayload [] 0 payload = ([p], []) := by
  have length : (pktBytes p).length = pktSize p := by
    simp only [pktBytes, pktSize, length_leBytes, List.length_append]
  have header : 32 ≤ pktSize p := Nat.le_add_right ..
  have first : payload.take 32 = (pktBytes p).take 32 := by
    rw [whole, List.take_append_of_le_length (by omega)]
  have mark : ((pktBytes p).take 32).all (fun b => b == 0) = false := by
    by_contra h
    exact some_ (type_of_zero_header (by simpa using h))
  have some' : payload.all (fun b => b == 0) = false := by
    refine Bool.eq_false_iff.mpr fun zeros => Bool.false_ne_true (mark.symm.trans ?_)
    rw [← first]
    exact List.all_eq_true.mpr fun b hb => List.all_eq_true.mp zeros b (List.mem_of_mem_take hb)
  have size : pktLen payload = some (pktSize p) := by
    have long : ¬ payload.length < 32 := by rw [whole, List.length_append]; omega
    rw [pktLen, if_neg (by omega)] at len
    rw [pktLen, if_neg long, first]
    exact len
  rw [takePayload, if_pos rfl, if_neg (by decide), Nat.mul_zero, List.drop_zero, splitPkts, some', if_neg Bool.false_ne_true, size]
  dsimp only
  rw [first, mark, if_neg Bool.false_ne_true, if_neg (by rw [whole]; simp; omega)]
  have here : payload.take (pktSize p) = pktBytes p := by rw [whole, ← length, List.take_left']; rfl
  have rest : payload.drop (pktSize p) = List.replicate (240 - pktSize p) 0 := by rw [whole, ← length, List.drop_left']; rfl
  rw [here, rest, packetOf_pktBytes, splitPkts_padding]

/-! ### Link-level retry (R382-R385) -/

/-- The state that takes an accepted flit's payload. -/
def State.flitTaken (s : State) (k : Nat) (f : Flit) (buf : Tab (List Byte)) : State :=
  (if f.nak && !((s.port k).accepted f).unacked.isEmpty then s.bump 36 1 else s).setPort k
    { (s.port k).afterFlit f with rxBuf := buf }

section
variable (s : State) (k : Nat) (f : Flit)

theorem acceptFlit_control (h : 9 ≤ f.vc.toNat) : s.acceptFlit k f = s.flitTaken k f (s.port k).rxBuf := by
  rw [acceptFlit_eq]
  generalize takePayload _ _ _ = p
  obtain ⟨ps, rest⟩ := p
  dsimp only
  rw [if_pos h, State.flitTaken, ← rxBuf_afterFlit (s.port k) f]

theorem acceptFlit_data (h : f.vc.toNat < 9) {ps : List Packet} {rest : List Byte}
    (taken : takePayload (Tab.get (fun _ => []) (s.port k).rxBuf f.vc.toNat) f.start.toNat f.payload = (ps, rest)) :
    s.acceptFlit k f = foldS (fun t p => t.arrive k f.vc.toNat p)
      (s.flitTaken k f (Tab.set (fun _ => []) (s.port k).rxBuf f.vc.toNat rest)) ps := by
  rw [acceptFlit_eq, rxBuf_afterFlit, taken]
  dsimp only
  rw [if_neg (Nat.not_le.mpr h), State.flitTaken]

theorem port_flitTaken (buf : Tab (List Byte)) : (s.flitTaken k f buf).port k = { (s.port k).afterFlit f with rxBuf := buf } :=
  port_setPort_self ..

theorem port_flitTaken_other (buf : Tab (List Byte)) {j : Nat} (h : j ≠ k) : (s.flitTaken k f buf).port j = s.port j := by
  refine (port_setPort_other _ _ h).trans ?_
  split <;> rfl

theorem waiting_flitTaken (buf : Tab (List Byte)) : (s.flitTaken k f buf).fab.waiting = s.fab.waiting := by
  unfold State.flitTaken
  split <;> rfl

theorem phys_flitTaken (buf : Tab (List Byte)) : (s.flitTaken k f buf).fab.phys = s.fab.phys := by
  unfold State.flitTaken
  split <;> rfl

theorem aon_flitTaken (buf : Tab (List Byte)) : (s.flitTaken k f buf).aon 41 = s.aon 41 := by
  unfold State.flitTaken
  split
  · exact aon_bump_other (by decide) s 1
  · rfl

/-- What an accepted flit leaves at its port, but for the credits owed. -/
theorem unowed_acceptFlit : ∃ buf, ((s.acceptFlit k f).port k).unowed = { (s.port k).afterFlit f with rxBuf := buf }.unowed := by
  rcases Nat.lt_or_ge f.vc.toNat 9 with data | control
  · cases taken : takePayload (Tab.get (fun _ => []) (s.port k).rxBuf f.vc.toNat) f.start.toNat f.payload with
    | mk ps rest =>
      rw [acceptFlit_data s k f data taken]
      refine ⟨Tab.set (fun _ => []) (s.port k).rxBuf f.vc.toNat rest,
        (foldS_keeps (fun s => (s.port k).unowed) (f := fun t p => t.arrive k f.vc.toNat p)
        (fun _ _ => (unowed_arriveInert k).arrive (fun _ _ => rfl) ..) _ _).trans ?_⟩
      rw [port_flitTaken]
  · rw [acceptFlit_control s k f control]
    exact ⟨_, by rw [port_flitTaken]⟩

theorem port_acceptFlit_other {j : Nat} (h : j ≠ k) : (s.acceptFlit k f).port j = s.port j := by
  rcases Nat.lt_or_ge f.vc.toNat 9 with data | control
  · cases taken : takePayload (Tab.get (fun _ => []) (s.port k).rxBuf f.vc.toNat) f.start.toNat f.payload with
    | mk ps rest =>
      rw [acceptFlit_data s k f data taken]
      exact (foldS_keeps (fun s => s.port j) (f := fun t p => t.arrive k f.vc.toNat p)
        (fun _ _ => (port_arriveInert h).arrive (fun _ _ => rfl) ..) _ _).trans (port_flitTaken_other s k f _ h)
  · rw [acceptFlit_control s k f control]
    exact port_flitTaken_other s k f _ h

theorem tookFlit_acceptFlit : (s.port k).TookFlit ((s.acceptFlit k f).port k) f := by
  obtain ⟨buf, port⟩ := unowed_acceptFlit s k f
  obtain ⟨rx, nak, unacked, replay, credit⟩ := tookFlit_afterFlit (s.port k) f
  have same {α : Type} (g : Port → α) (hg : ∀ q, g q.unowed = g q) :
      g ((s.acceptFlit k f).port k) = g { (s.port k).afterFlit f with rxBuf := buf } := by
    rw [← hg, port, hg]
  exact ⟨(same Port.rx fun _ => rfl).trans rx, (same Port.nak fun _ => rfl).trans nak,
    (same Port.unacked fun _ => rfl).trans unacked, fun asked some_ => (same Port.lastTx fun _ => rfl).trans (replay asked some_),
    fun small => (congrFun (same Port.credit fun _ => rfl) _).trans (credit small)⟩

/-- A flit that holds one whole packet brings it in. -/
theorem acceptFlit_whole {p : Packet} (h : f.vc.toNat < 9) (start : f.start = 0)
    (empty : Tab.get (fun _ => []) (s.port k).rxBuf f.vc.toNat = []) (some_ : p.type ≠ 0) (len : pktLen (pktBytes p) = some (pktSize p))
    (whole : f.payload = pktBytes p ++ List.replicate (240 - pktSize p) 0) : ∃ buf,
    s.acceptFlit k f = (s.flitTaken k f buf).arrive k f.vc.toNat p := by
  refine ⟨_, acceptFlit_data s k f h (ps := [p]) (rest := []) ?_⟩
  rw [empty, start]
  exact takePayload_whole some_ len whole

end

section
variable {s : State} {k : Nat} (live : s.live = true) (hk : k < 18) (up : (s.port k).up = true)
include live hk up

theorem exec_flitReceive {f : Flit} (whole : f.payload.length = 240) : exec (.flitReceive k f) s =
    if !f.fecOk || f.crc != flitCrc f then .next ((s.setPort k { s.port k with nak := true }).bump 38 1)
    else if f.fseq = (s.port k).rx + 1 then .next (s.acceptFlit k f)
    else .next (s.setPort k { s.port k with nak := true }) := by
  rw [exec, execFlitReceive, whenFormed_of_formed _ (by simp [hk, whole]), whenLive_of_live _ live]
  exact whenDue_of_due _ up

theorem exec_replayTimeout (some_ : (s.port k).unacked ≠ []) :
    exec (.replayTimeout k) s = .next ((s.setPort k (s.port k).replay).bump 36 1) := by
  rw [exec, execReplayTimeout, whenFormed_of_formed _ (by simpa using hk), whenLive_of_live _ live]
  exact whenDue_of_due _ (by simp [up, some_])

omit up in
theorem exec_idleFlit_busy (busy : (s.port k).queue ≠ []) : exec (.idleFlit k) s = .refused .notDue := by
  rw [exec, execIdleFlit, whenFormed_of_formed _ (by simpa using hk), whenLive_of_live _ live]
  exact whenDue_of_not _ (by simp [busy])

theorem exec_idleFlit (room : (s.port k).unacked.length < 512) (idle : (s.port k).queue = []) : exec (.idleFlit k) s =
    .next (s.setPort k (({ s.port k with lastTx := [] }).sendFlit 15 15 (List.replicate 240 0))) := by
  rw [exec, execIdleFlit, whenFormed_of_formed _ (by simpa using hk), whenLive_of_live _ live]
  exact whenDue_of_due _ (by simp [up, room, idle])

end

/-! ### Flits that go (R384, R385, R395) -/

/-- A flit that a port sends: the next sequence number, what has been accepted, whether a replay is asked for, and the CRC. -/
structure Port.Sends (q : Port) (vc : Nat) (payload : List Byte) (f : Flit) : Prop where
  fseq : f.fseq = q.tx
  aseq : f.aseq = q.rx
  nak : f.nak = q.nak
  vc : f.vc = BitVec.ofNat 4 vc
  payload : f.payload = payload
  crc : f.crc = flitCrc f

theorem sendFlit_eq (q : Port) (vc start : Nat) (payload : List Byte) : ∃ f owed, q.Sends vc payload f ∧
    q.sendFlit vc start payload =
      { q with tx := q.tx + 1, unacked := q.unacked ++ [f], lastTx := q.lastTx ++ [f], owed := owed } := by
  unfold Port.sendFlit
  obtain ⟨cvc, n⟩ := q.giveBack
  exact ⟨_, _, ⟨rfl, rfl, rfl, rfl, rfl, rfl⟩, rfl⟩

/-- The flit that goes next: of CTL before any other, urgent ones first, and of a channel in their order. -/
structure Port.Next (q : Port) (x : TxFlit) : Prop where
  mem : x ∈ q.queue
  control : (∃ y ∈ q.queue, y.vc = 0) → x.vc = 0
  urgent : (∃ y ∈ q.queue, y.vc = 0 ∧ y.urgent = true) → x.vc = 0 ∧ x.urgent = true
  order : (∀ y ∈ q.queue, y.vc ≠ 0) → q.queue.find? (fun y => y.vc == x.vc) = some x

theorem nextFlit_next {q : Port} (some_ : q.queue ≠ []) (pick : Nat) : ∃ x, q.nextFlit pick = some x ∧ q.Next x := by
  unfold Port.nextFlit
  dsimp only
  cases first : q.queue.find? fun x => x.vc == 0 && x.urgent with
  | some x =>
    have mem := List.mem_of_find?_eq_some first
    have kind : x.vc = 0 ∧ x.urgent = true := by simpa using List.find?_some first
    exact ⟨x, rfl, mem, fun _ => kind.1, fun _ => kind, fun none => absurd kind.1 (none x mem)⟩
  | none =>
    have noUrgent : ¬ ∃ y ∈ q.queue, y.vc = 0 ∧ y.urgent = true := by
      simpa using List.find?_eq_none.mp first
    cases second : q.queue.find? fun x => x.vc == 0 with
    | some x =>
      have mem := List.mem_of_find?_eq_some second
      have kind : x.vc = 0 := by simpa using List.find?_some second
      exact ⟨x, rfl, mem, fun _ => kind, fun h => absurd h noUrgent, fun none => absurd kind (none x mem)⟩
    | none =>
      have noControl : ¬ ∃ y ∈ q.queue, y.vc = 0 := by
        simpa using List.find?_eq_none.mp second
      obtain ⟨y, l, queue⟩ := List.exists_cons_of_ne_nil some_
      have some' : 0 < (q.queue.map TxFlit.vc).eraseDups.length :=
        List.length_pos_of_mem (List.mem_eraseDups.mpr (List.mem_map.mpr ⟨y, queue ▸ List.mem_cons_self, rfl⟩))
      obtain ⟨v, picked, mem⟩ : ∃ v, (q.queue.map TxFlit.vc).eraseDups[pick % (q.queue.map TxFlit.vc).eraseDups.length]? = some v ∧
          v ∈ (q.queue.map TxFlit.vc).eraseDups :=
        ⟨_, List.getElem?_eq_getElem (Nat.mod_lt _ some'), List.getElem_mem _⟩
      obtain ⟨z, hz, rfl⟩ := List.mem_map.mp (List.mem_eraseDups.mp mem)
      obtain ⟨x, found⟩ : ∃ x, (q.queue.find? fun x => x.vc == z.vc) = some x :=
        Option.isSome_iff_exists.mp (List.find?_isSome.mpr ⟨z, hz, by simp⟩)
      have channel : x.vc = z.vc := by simpa using List.find?_some found
      refine ⟨x, ?_, List.mem_of_find?_eq_some found, fun h => absurd h noControl, fun h => absurd h noUrgent, fun _ => channel ▸ found⟩
      rw [picked]
      exact found

theorem flits : Claims.Flits := by
  intro s k live hk up q
  refine ⟨fun f whole bad => ?_, fun f whole fec crc => ⟨fun stray => ?_, fun next => ?_⟩, fun some_ => ?_,
    exec_idleFlit_busy live hk, fun room some_ pick => ?_, fun room idle => ?_⟩
  · rw [exec_flitReceive live hk up whole, if_pos]
    simpa [bne_iff_ne] using bad
  · rw [exec_flitReceive live hk up whole, if_neg (by simp [fec, crc]), if_neg stray]
  · rw [exec_flitReceive live hk up whole, if_neg (by simp [fec, crc]), if_pos next]
    obtain ⟨rx, nak, unacked, replay, credit⟩ := tookFlit_acceptFlit s k f
    refine ⟨_, rfl, rx, nak, fun j hj => port_acceptFlit_other s k f hj, unacked, replay, credit, fun control => ?_,
      fun p data start empty type len bytes other => ?_⟩
    · rw [acceptFlit_control s k f control, waiting_flitTaken]
    · obtain ⟨buf, whole⟩ := acceptFlit_whole s k f data start empty type len bytes
      have other : p.srcPhys ≠ (s.flitTaken k f buf).fab.phys := by rwa [phys_flitTaken]
      rw [whole]
      refine ⟨fun own => ?_, fun stray => ?_⟩
      · rw [waiting_arrive other own data, waiting_flitTaken]
      · rw [arrive_misplaced other stray]
        have owed {α : Type} (g : State → α) (hg : ∀ s k q, g (s.setPort k q) = g s) (u : State) := field_of_owe g hg u k f.vc.toNat p
        refine ⟨(owed (fun s => s.fab.waiting) (fun _ _ _ => rfl) _).trans (waiting_flitTaken s k f buf), ?_⟩
        rw [aon_bump_self, owed (fun s => s.aon 41) fun _ _ _ => rfl, aon_bump_other (by omega), aon_flitTaken]
        rfl
  · rw [exec_replayTimeout live hk up some_, Port.replay, if_neg some_]
  · obtain ⟨x, chosen, mem, control, urgent, order⟩ := nextFlit_next some_ pick
    obtain ⟨f, owed, ⟨fseq, aseq, -, vc, payload, crc⟩, sent⟩ := sendFlit_eq { q with queue := q.queue.erase x } x.vc x.start
      (x.payload ++ List.replicate (240 - x.payload.length) 0)
    have pumped : q.pump pick = ({ q with queue := q.queue.erase x }).sendFlit x.vc x.start
        (x.payload ++ List.replicate (240 - x.payload.length) 0) := by
      rw [Port.pump, if_neg (Nat.not_le.mpr room), chosen]
    refine ⟨x, f, mem, ?_, ?_, ?_, vc, fseq, aseq, payload, crc, control, urgent, order⟩ <;> rw [pumped, sent]
  · obtain ⟨f, owed, ⟨fseq, aseq, nak, vc, -, crc⟩, sent⟩ := sendFlit_eq { q with lastTx := [] } 15 15 (List.replicate 240 0)
    refine ⟨_, f, exec_idleFlit live hk up room idle, fun j hj => port_setPort_other _ _ hj, ?_, ?_, ?_, vc, fseq, aseq, nak, crc, rfl⟩
    all_goals rw [port_setPort_self, sent]
    rfl

/-- Settles O37: ports take the state of their lanes, a packet is what its bytes spell, and a port accepts flits in their order. -/
theorem fabricLinks : Obligations.FabricLinks := by
  unfold Obligations.FabricLinks
  exact ⟨portStates, lanesInUse, packetBytes, flits⟩

end Sys2Proof.Machine

/-!
PROOFS. Streams of packets: each number is performed once, what precedes the performance of a packet, and its acknowledgement
(R388-R390, R407-R409, R413, R416, R555).
-/

namespace Sys2Proof.Machine

/-! ### A packet is consumed -/

/-- The outcome is that of a sequenced packet at its destination: the checks, then the stream, in which a duplicate is
acknowledged again unless it is a READ, or a signal that still waits. -/
def Sequences (o : Host.Outcome State Fault Refusal) (s : State) (type cls : Nat) (p : Packet) : Prop :=
  ∃ (perform : State → State × Verdict) (dup : State → State),
    o = .next (if s.claimsSelf p then s.checked 0 p id else s.checked cls p fun t => t.sequence p perform dup) ∧
    (type ≠ 2 → ∀ t, dup t = if (type = 6 ∨ type = 7) ∧ t.signalWaits p = true then t else t.ackPkt p)

theorem consume_due {s : State} {p : Packet} {type : Nat} (live : s.live = true) (placed : s.fab.placed = true)
    (awake : s.awake s.owner = true) (ty : p.type.toNat = type) (dst : p.dstPhys = s.fab.phys)
    (k : State → Host.Outcome State Fault Refusal) :
    consume type p s k = if s.claimsSelf p then .next (s.checked 0 p id) else k s := by
  rw [consume, whenLive_of_live _ live, whenDue_of_due _ (by simp [ty, dst, placed]), if_pos awake]

section
variable {s : State} {p : Packet} {type cls : Nat} (live : s.live = true) (placed : s.fab.placed = true)
  (awake : s.awake s.owner = true) (ty : p.type.toNat = type) (dst : p.dstPhys = s.fab.phys)
include live placed awake ty dst

theorem sequences_consume {k : State → Host.Outcome State Fault Refusal} {perform : State → State × Verdict} {dup : State → State}
    (run : k s = .next (s.checked cls p fun t => t.sequence p perform dup))
    (again : type ≠ 2 → ∀ t, dup t = if (type = 6 ∨ type = 7) ∧ t.signalWaits p = true then t else t.ackPkt p) :
    Sequences (consume type p s k) s type cls p := by
  refine ⟨perform, dup, ?_, again⟩
  rw [consume_due live placed awake ty dst, run]
  split <;> rfl

/-- A packet whose duplicates are always acknowledged. -/
theorem sequences_acked {k : State → Host.Outcome State Fault Refusal} {perform : State → State × Verdict}
    (other : type ≠ 6 ∧ type ≠ 7)
    (run : k s = .next (s.checked cls p fun t => t.sequence p perform fun t => t.ackPkt p)) :
    Sequences (consume type p s k) s type cls p :=
  sequences_consume live placed awake ty dst run fun _ _ => (if_neg fun h => h.1.elim other.1 other.2).symm

end

section
variable {s : State} {p : Packet} (live : s.live = true) (placed : s.fab.placed = true)
  (awake : s.awake s.owner = true) (dst : p.dstPhys = s.fab.phys)
include live placed awake dst

theorem sequences_swarm (ty : p.type.toNat = 14) {n : Nat} (sub : subtypeOf p = n) (long : Bool) (ok : State → Bool) (k : State → State) :
    Sequences (consumeSwarm n long p s ok k) s 14 0 p :=
  sequences_acked live placed awake ty dst (by omega) (whenDue_of_due _ (by simp [sub]))

theorem sequences_marker (ty : p.type.toNat = 12) (ctl : p.cls = 0) {n part : Nat} (step : bits p.arg0.toNat 0 8 = n)
    (own : part = s.owner) (k : State → State) : Sequences (consumeMarker part n p s k) s 12 0 p :=
  sequences_acked live placed awake ty dst (by omega)
    ((whenDue_of_due _ (by simp [step, own])).trans (if_neg (by simp [ctl])))

theorem sequences_quench (ty : p.type.toNat = 11) {n : Nat} (act : quenchAct p = n) (k : State → State) :
    Sequences (consumeQuench n p s k) s 11 0 p :=
  sequences_acked live placed awake ty dst (by omega) (whenDue_of_due _ (by simp [act]))

theorem sequences_coll {type cls : Nat} (ty : p.type.toNat = type) (other : type ≠ 6 ∧ type ≠ 7) (ok : Bool) (k : State → State) :
    Sequences (consumeColl type cls p s ok k) s type cls p :=
  sequences_acked live placed awake ty dst other rfl

theorem sequences_signal (set : Bool) {type : Nat} (ty : p.type.toNat = type) (signal : type = 6 ∨ type = 7)
    (room : s.effectFull s.owner = false) : Sequences (remoteSig set type p s) s type 0 p :=
  sequences_consume live placed awake ty dst (if_pos (by simp [room])) fun _ t => by simp [signal]

end

theorem waitsBi_none {s : State} (bis : s.link.bis = []) (o n : Nat) : s.waitsBi o n = false := by
  rw [State.waitsBi, bis, List.any_nil, Bool.and_false]

theorem heldLines_none {s : State} (snoop : s.link.snoop = []) (o n : Nat) : s.heldLines o n = [] := by
  rw [State.heldLines, snoop]
  split <;> rfl

theorem sequences_write {s : State} {p : Packet} (live : s.live = true) (placed : s.fab.placed = true) (awake : s.awake s.owner = true)
    (dst : p.dstPhys = s.fab.phys) (ty : p.type.toNat = 1) (due : arrivalDue (.write p) s) : Sequences (execWrite p s) s 1 1 p := by
  obtain ⟨reset, bis, snoop, stage⟩ := due
  refine sequences_acked live placed awake ty dst (by omega) ((if_pos ?_).trans (if_neg ?_))
  · rw [waitsBi_none bis, reset, stage]
    rfl
  · rw [heldLines_none snoop]
    exact fun h => h.1 rfl

theorem sequences_read {s : State} {p : Packet} (live : s.live = true) (placed : s.fab.placed = true) (awake : s.awake s.owner = true)
    (dst : p.dstPhys = s.fab.phys) (ty : p.type.toNat = 2) (due : arrivalDue (.read p) s) : Sequences (execRead p s) s 2 1 p := by
  obtain ⟨reset, bis, snoop, lost⟩ := due
  refine sequences_consume live placed awake ty dst ((if_pos ?_).trans (if_neg ?_)) fun h => absurd rfl h
  · rw [waitsBi_none bis, reset, lost]
    rfl
  · rw [heldLines_none snoop]
    exact fun h => h.1 rfl

/-- Every command that consumes a sequenced packet takes it through the checks and its stream. -/
theorem sequences_exec {c : Instr} {s : State} {p : Packet} {type cls : Nat} (arr : arrival c = some (p, type, cls)) (due : arrivalDue c s)
    (live : s.live = true) (placed : s.fab.placed = true) (awake : s.awake s.owner = true) (ty : p.type.toNat = type)
    (dst : p.dstPhys = s.fab.phys) (ctl : type ≠ 12 ∨ p.cls = 0) : Sequences (exec c s) s type cls p := by
  unfold arrival at arr
  split at arr <;> cases arr
  · exact sequences_write live placed awake dst ty due
  · exact sequences_read live placed awake dst ty due
  · exact sequences_signal live placed awake dst false ty (.inl rfl) due
  · exact sequences_signal live placed awake dst true ty (.inr rfl) due
  · show Sequences (execRelay p s) s 8 3 p
    rw [execRelay]
    exact sequences_acked live placed awake ty dst (by omega) rfl
  · next g =>
    show Sequences (execColdata g s) s 9 4 g.pkt
    exact sequences_coll live placed awake dst ty (by omega) _ _
  · show Sequences (execGrant p s) s 10 0 p
    exact sequences_coll live placed awake dst ty (by omega) _ _
  · show Sequences (execQuench p s) s 11 0 p
    exact sequences_quench live placed awake dst ty due _
  · show Sequences (execQuenchRelease p s) s 11 0 p
    exact sequences_quench live placed awake dst ty due _
  · obtain ⟨part, own, step⟩ := due
    show Sequences (execMarkerDrain _ (some p) s) s 12 0 p
    rw [execMarkerDrain, whenFormed_of_formed _ (decide_eq_true part)]
    exact sequences_marker live placed awake dst ty (ctl.resolve_left fun h => h rfl) step own _
  · obtain ⟨part, own, step⟩ := due
    show Sequences (execMarkerDrained _ (some p) s) s 12 0 p
    rw [execMarkerDrained, whenFormed_of_formed _ (decide_eq_true part)]
    exact sequences_marker live placed awake dst ty (ctl.resolve_left fun h => h rfl) step own _
  · obtain ⟨part, own, step⟩ := due
    show Sequences (execMarkerCaptured _ (some p) s) s 12 0 p
    rw [execMarkerCaptured, whenFormed_of_formed _ (decide_eq_true part)]
    exact sequences_marker live placed awake dst ty (ctl.resolve_left fun h => h rfl) step own _
  · obtain ⟨part, own, step⟩ := due
    show Sequences (execMarkerCommitted _ (some p) s) s 12 0 p
    rw [execMarkerCommitted, whenFormed_of_formed _ (decide_eq_true part)]
    exact sequences_marker live placed awake dst ty (ctl.resolve_left fun h => h rfl) step own _
  · next g =>
    show Sequences (execWaggle g s) s 13 0 g.pkt
    exact sequences_coll live placed awake dst ty (by omega) _ _
  · show Sequences (execSwarmHeartbeat p s) s 14 0 p
    exact sequences_swarm live placed awake dst ty due _ _ _
  · show Sequences (execTableUpdate p s) s 14 0 p
    exact sequences_swarm live placed awake dst ty due _ _ _
  · show Sequences (execAdmissionRequest p s) s 14 0 p
    exact sequences_swarm live placed awake dst ty due _ _ _
  · show Sequences (execAdmissionResult p s) s 14 0 p
    exact sequences_swarm live placed awake dst ty due _ _ _
  · show Sequences (execTakeover p s) s 14 0 p
    exact sequences_swarm live placed awake dst ty due _ _ _
  · show Sequences (execFaultNotice p s) s 14 0 p
    exact sequences_swarm live placed awake dst ty due _ _ _
  · show Sequences (execCollectiveAbort p s) s 14 0 p
    exact sequences_swarm live placed awake dst ty due _ _ _
  · show Sequences (execBoundaryRequest p s) s 14 0 p
    exact sequences_swarm live placed awake dst ty due _ _ _
  · obtain ⟨part, own, sub⟩ := due
    show Sequences (execRecoveryStart _ (some p) s) s 14 0 p
    rw [execRecoveryStart, whenFormed_of_formed _ (decide_eq_true part)]
    rw [whenDue_of_due _ (by simpa using own)]
    exact sequences_swarm live placed awake dst ty sub _ _ _
  · obtain ⟨part, own, sub⟩ := due
    show Sequences (execSwarmRestored _ (some p) s) s 14 0 p
    rw [execSwarmRestored, whenFormed_of_formed _ (decide_eq_true part)]
    dsimp only
    rw [whenDue_of_due _ (by simpa using own)]
    obtain sub | sub := sub
    · rw [if_neg (by omega)]
      exact sequences_swarm live placed awake dst ty sub _ _ _
    · rw [if_pos sub]
      exact sequences_swarm live placed awake dst ty sub _ _ _
  · show Sequences (execMgmt p s) s 15 0 p
    rw [execMgmt]
    exact sequences_acked live placed awake ty dst (by omega) rfl

/-- A MARKER is of class 0, and no sequenced packet is of class 2. -/
theorem arrival_class {c : Instr} {p : Packet} {type cls : Nat} (arr : arrival c = some (p, type, cls)) :
    (type ≠ 12 ∨ cls = 0) ∧ cls ≠ 2 := by
  unfold arrival at arr
  split at arr <;> cases arr <;> decide

/-! ### What the checks say -/

theorem claimsSelf_genuine {s : State} {p : Packet} (h : Genuine s p) : s.claimsSelf p = false := by
  simp only [State.claimsSelf, Bool.and_eq_false_iff, beq_eq_false_iff_ne, Bool.not_eq_false', List.contains_iff_mem]
  exact h.2

theorem claimsSelf_strange {s : State} {p : Packet} (own : p.srcPhys = s.fab.phys) (new : (none, p) ∉ s.fab.waiting) :
    s.claimsSelf p = true := by
  simp [State.claimsSelf, own, new]

theorem checked_aged {s : State} {p : Packet} (old : 2000 ≤ p.age.toNat) (cls : Nat) (k : State → State) :
    s.checked cls p k = (s.taken p).bump 40 1 := if_pos (decide_eq_true old)

theorem checked_fresh {s : State} {p : Packet} (fresh : p.age.toNat < 2000) (cls : Nat) (k : State → State) :
    s.checked cls p k =
      if s.claimsSelf p then (s.taken p).collarClamp
      else if p.pcrc ≠ pktCrc p then (s.taken p).bump 39 1
      else if p.cls.toNat ≠ cls ∨ (cls = 2 ∧ p.seqd) then (s.taken p).bump 41 1
      else if cls ≠ 2 ∧ !p.seqd then (s.taken p).refusePkt p 3
      else k (s.taken p) := by
  have young : aged p 0 = false := decide_eq_false (by omega)
  rw [State.checked, young]
  rfl

/-- A packet that passes every check goes on. -/
theorem checked_arrives {s : State} {p : Packet} {type cls : Nat} (h : Arrives s p type cls) (k : State → State) :
    s.checked cls p k = k (s.taken p) := by
  obtain ⟨-, -, -, genuine, -, -, crc, hcls, seqd⟩ := h
  rw [checked_fresh genuine.1, claimsSelf_genuine genuine, if_neg Bool.false_ne_true, if_neg (not_not.mpr crc), if_neg, if_neg]
  · simp [seqd]
  · simp [seqd, hcls]

/-! ### What is left as it was when a packet leaves its buffer -/

theorem field_of_taken {α : Type} (g : State → α) (hp : ∀ s k q, g (s.setPort k q) = g s)
    (hw : ∀ (s : State) w, g { s with fab := { s.fab with waiting := w } } = g s) (hb : ∀ (s : State) p c k, g (s.bumpPart p c k) = g s)
    (s : State) (p : Packet) : g (s.taken p) = g s :=
  (hb _ _ _ _).trans (field_of_unpark g hp hw s p)

theorem logical_taken (s : State) (p : Packet) : (s.taken p).fab.logical = s.fab.logical :=
  field_of_taken (fun s => s.fab.logical) (fun _ _ _ => rfl) (fun _ _ => rfl) (fun _ _ _ _ => rfl) s p

theorem rxOf_taken (s : State) (p q : Packet) : (s.taken p).rxOf q = s.rxOf q :=
  field_of_taken (fun s => s.rxOf q) (fun _ _ _ => rfl) (fun _ _ => rfl) (fun _ _ _ _ => rfl) s p

theorem unknownStream_taken (s : State) (p q : Packet) : (s.taken p).unknownStream q = s.unknownStream q :=
  field_of_taken (fun s => s.unknownStream q) (fun _ _ _ => rfl) (fun _ _ => rfl) (fun _ _ _ _ => rfl) s p

theorem signalWaits_taken (s : State) (p q : Packet) : (s.taken p).signalWaits q = s.signalWaits q :=
  field_of_taken (fun s => s.signalWaits q) (fun _ _ _ => rfl) (fun _ _ => rfl) (fun _ _ _ _ => rfl) s p

/-! ### The stream -/

section
variable {s : State} {p : Packet} (perform : State → State × Verdict) (dup : State → State)

theorem sequence_moved (h : p.dstLog ≠ s.fab.logical ∨ s.unknownStream p = true) :
    (s.taken p).sequence p perform dup = (s.taken p).refusePkt p 4 := by
  rw [State.sequence, logical_taken, unknownStream_taken, if_pos h]

theorem sequence_known (log : p.dstLog = s.fab.logical) (known : s.unknownStream p = false) :
    (s.taken p).sequence p perform dup =
      let d := (s.rxOf p).dist p.seq
      if d < 256 ∧ !(s.rxOf p).win.getLsbD d then
        let (t, v) := perform ((s.taken p).setRx p ((s.rxOf p).take d))
        t.answer p v
      else if d < 256 ∨ 32768 ≤ d then dup (s.taken p)
      else (s.taken p).bump 41 1 := by
  rw [State.sequence, logical_taken, unknownStream_taken, if_neg (by simp [log, known]), rxOf_taken]
  rfl

end

theorem streamChecks : Claims.StreamChecks := by
  intro c s p type cls arr due live placed awake ty dst
  dsimp only
  have seq (ctl : type ≠ 12 ∨ p.cls = 0) := sequences_exec arr due live placed awake ty dst ctl
  refine ⟨fun old ctl => ?_, fun young own new ctl => ?_, fun gen crc ctl => ?_, fun gen crc hcls ctl => ?_, fun gen crc hcls seqd => ?_,
    fun arrives => ?_⟩
  · obtain ⟨perform, dup, run, -⟩ := seq ctl
    rw [run, checked_aged old, checked_aged old, ite_self]
  · obtain ⟨perform, dup, run, -⟩ := seq ctl
    rw [run, claimsSelf_strange own new, if_pos rfl, checked_fresh young, claimsSelf_strange own new, if_pos rfl]
  · obtain ⟨perform, dup, run, -⟩ := seq ctl
    rw [run, claimsSelf_genuine gen, if_neg Bool.false_ne_true, checked_fresh gen.1, claimsSelf_genuine gen, if_neg Bool.false_ne_true,
      if_pos crc]
  · obtain ⟨perform, dup, run, -⟩ := seq (.inl ctl)
    rw [run, claimsSelf_genuine gen, if_neg Bool.false_ne_true, checked_fresh gen.1, claimsSelf_genuine gen, if_neg Bool.false_ne_true,
      if_neg (not_not.mpr crc), if_pos (.inl hcls)]
  · obtain ⟨ctl, other⟩ := arrival_class arr
    obtain ⟨perform, dup, run, -⟩ := seq (ctl.imp_right fun h => BitVec.eq_of_toNat_eq (hcls.trans h))
    rw [run, claimsSelf_genuine gen, if_neg Bool.false_ne_true, checked_fresh gen.1, claimsSelf_genuine gen, if_neg Bool.false_ne_true,
      if_neg (not_not.mpr crc), if_neg (by simp [hcls, other]), if_pos (by simp [other, seqd])]
  · obtain ⟨ctl, other⟩ := arrival_class arr
    have ⟨_, _, _, gen, _, _, _, hcls, _⟩ := arrives
    obtain ⟨perform, dup, run, again⟩ := seq (ctl.imp_right fun h => BitVec.eq_of_toNat_eq (hcls.trans h))
    rw [run, claimsSelf_genuine gen, if_neg Bool.false_ne_true, checked_arrives arrives]
    refine ⟨fun moved => by rw [sequence_moved _ _ moved], fun log known => ?_⟩
    rw [sequence_known _ _ log known]
    refine ⟨fun low high => ?_, fun taken data => ?_⟩
    · dsimp only
      rw [if_neg (by omega), if_neg (by omega)]
    · dsimp only
      rw [if_neg, if_pos (by omega), again data, signalWaits_taken]
      rintro ⟨near, free⟩
      obtain far | ⟨-, got⟩ := taken
      · omega
      · simp [got] at free

/-! ### A stream performs each number once (R408) -/

/-- A window is shifted past numbers that have been taken, and no further than its end. -/
theorem shift_eq (n : Nat) (r : RxStream) :
    ∃ k, RxStream.shift n r = { base := r.base + BitVec.ofNat 16 k, win := r.win >>> k } ∧ ∀ i, i < k → r.win.getLsbD i = true := by
  induction n generalizing r with
  | zero => exact ⟨0, by simp [RxStream.shift], fun i hi => absurd hi (Nat.not_lt_zero i)⟩
  | succ n ih =>
    rw [RxStream.shift]
    split
    next first =>
      obtain ⟨k, shifted, taken⟩ := ih { base := r.base + 1, win := r.win >>> 1 }
      refine ⟨k + 1, ?_, fun i hi => ?_⟩
      · rw [shifted, Nat.add_comm k 1, BitVec.ofNat_add, BitVec.add_assoc, BitVec.shiftRight_add]
        rfl
      · cases i with
        | zero => exact first
        | succ i =>
          have bit := taken i (by omega)
          rwa [BitVec.getLsbD_ushiftRight, Nat.add_comm] at bit
    · exact ⟨0, by simp, fun i hi => absurd hi (Nat.not_lt_zero i)⟩

/-- The distance of a number of the window once the base has gone on: nearer by as much, or behind the base. -/
theorem dist_forward (r : RxStream) (w : BitVec 256) {k : Nat} (hk : k ≤ 256) {o : BitVec 16} (near : r.dist o < 256) :
    ({ base := r.base + BitVec.ofNat 16 k, win := w } : RxStream).dist o = if k ≤ r.dist o then r.dist o - k else 65536 + r.dist o - k := by
  unfold RxStream.dist at near ⊢
  generalize r.base = b at near ⊢
  dsimp only
  split <;> bv_omega

section
variable {r : RxStream} {d : Nat}

/-- What the window of a stream says once a number is taken. -/
theorem take_eq (r : RxStream) (d : Nat) :
    ∃ k, r.take d = { base := r.base + BitVec.ofNat 16 k, win := (r.win ||| (1#256 <<< d)) >>> k } ∧ k ≤ 256 ∧
      ∀ i, i < k → (r.win ||| (1#256 <<< d)).getLsbD i = true := by
  obtain ⟨k, shifted, taken⟩ := shift_eq 257 { r with win := r.win ||| (1#256 <<< d) }
  refine ⟨k, shifted, Nat.le_of_not_lt fun big => ?_, taken⟩
  exact absurd (taken 256 big) (by rw [BitVec.getLsbD_of_ge _ _ (Nat.le_refl 256)]; decide)

theorem taken_bit (w : BitVec 256) {d i : Nat} (hi : i < 256) : (w ||| (1#256 <<< d)).getLsbD i = (w.getLsbD i || decide (i = d)) := by
  rw [BitVec.getLsbD_or, BitVec.getLsbD_shiftLeft]
  by_cases h : i = d
  · simp [h, h ▸ hi]
  · have : i - d ≠ 0 ∨ i < d := by omega
    obtain h' | h' := this <;> simp [h, h', hi]

theorem dist_take_taken {o : BitVec 16} (near : r.dist o < 256) (bit : (r.win ||| (1#256 <<< d)).getLsbD (r.dist o) = true) :
    32768 ≤ (r.take d).dist o ∨ ((r.take d).dist o < 256 ∧ (r.take d).win.getLsbD ((r.take d).dist o) = true) := by
  obtain ⟨k, took, hk, -⟩ := take_eq r d
  rw [took, dist_forward r _ hk near]
  split
  next le =>
    refine .inr ⟨by omega, ?_⟩
    rwa [BitVec.getLsbD_ushiftRight, Nat.add_sub_cancel' le]
  · exact .inl (by omega)

theorem dist_take_free {o : BitVec 16} (near : r.dist o < 256) (bit : (r.win ||| (1#256 <<< d)).getLsbD (r.dist o) = false) :
    (r.take d).dist o < 256 ∧ (r.take d).win.getLsbD ((r.take d).dist o) = false := by
  obtain ⟨k, took, hk, past⟩ := take_eq r d
  have le : k ≤ r.dist o := Nat.le_of_not_lt fun lt => by simp [past _ lt] at bit
  rw [took, dist_forward r _ hk near, if_pos le]
  refine ⟨by omega, ?_⟩
  rwa [BitVec.getLsbD_ushiftRight, Nat.add_sub_cancel' le]

end

theorem dist_inj {r : RxStream} {a b : BitVec 16} (h : r.dist a = r.dist b) : a = b := by
  unfold RxStream.dist at h
  bv_omega

theorem streamsPerformOnce : Claims.StreamsPerformOnce := by
  intro r seq near free
  refine ⟨dist_take_taken near ?_, fun o other near' free' => dist_take_free near' ?_, fun o near' taken => dist_take_taken near' ?_⟩
  · simp [taken_bit _ near]
  · simpa [taken_bit _ near', free'] using fun h => other (dist_inj h)
  · simp [taken_bit _ near', taken]

/-! ### Acknowledgements and refusals (R388, R409, R555) -/

/-- An ACK that a further acknowledgement of packet `p` may be folded into. -/
def Covers (p a : Packet) : Prop :=
  a.type = 4 ∧ a.dstLog = p.srcLog ∧ a.arg1.toNat = p.cls.toNat ∧ a.gen = p.gen ∧ (p.seq - a.seq).toNat < 64

theorem covers_iff (p a : Packet) :
    (a.type == 4 && a.dstLog == p.srcLog && a.arg1.toNat == p.cls.toNat && a.gen == p.gen && decide ((p.seq - a.seq).toNat < 64)) = true ↔
      Covers p a := by
  simp [Covers, and_assoc]

/-- An ACK into which the acknowledgement of packet `p` has been folded. -/
def foldedAck (p a : Packet) : Packet :=
  let b := { a with arg0 := a.arg0 ||| (1#64 <<< (p.seq - a.seq).toNat) }
  { b with pcrc := pktCrc b }

theorem covers_foldedAck {p a : Packet} (h : Covers p a) :
    Covers p (foldedAck p a) ∧ (foldedAck p a).arg0.getLsbD (p.seq - (foldedAck p a).seq).toNat = true ∧
      (foldedAck p a).pcrc = pktCrc (foldedAck p a) := by
  refine ⟨h, ?_, rfl⟩
  show (a.arg0 ||| (1#64 <<< (p.seq - a.seq).toNat)).getLsbD (p.seq - a.seq).toNat = true
  obtain ⟨-, -, -, -, near⟩ := h
  generalize (p.seq - a.seq).toNat = n at near
  simp [near]

/-- An unsequenced response to a packet waits to leave: to the packet's source, with its number, generation and tag. -/
theorem respond_spec (s : State) (p : Packet) (type arg0 arg1 : Nat) (payload : Bool) (data : List Byte) :
    ∃ a : Packet, s.respond p type arg0 arg1 payload data = { s with fab := { s.fab with outbox := s.fab.outbox ++ [a] } } ∧
      a.type = BitVec.ofNat 5 type ∧ a.cls = 2 ∧ a.seqd = false ∧ a.seq = p.seq ∧ a.arg0 = BitVec.ofNat 64 arg0 ∧
      a.arg1 = BitVec.ofNat 32 arg1 ∧ a.gen = p.gen ∧ a.etag = p.etag ∧ a.dstPhys = p.srcPhys ∧ a.dstLog = p.srcLog ∧
      a.srcPhys = s.fab.phys ∧ a.srcLog = s.fab.logical ∧ a.pcrc = pktCrc a ∧ a.age = 0 ∧ a.hops = 0 ∧ a.data = data ∧
      a.plen = if payload then BitVec.ofNat 7 (data.length / 64) else 0 :=
  ⟨_, rfl, rfl, rfl, rfl, rfl, rfl, rfl, BitVec.ofNat_toNat .., BitVec.ofNat_toNat .., rfl, BitVec.ofNat_toNat .., rfl, rfl, rfl, rfl, rfl,
    rfl, rfl⟩

/-- An acknowledgement that no waiting ACK covers is an ACK of its own. -/
theorem ackPkt_alone {s : State} {p : Packet} (out : ∀ a ∈ s.fab.outbox, ¬Covers p a) (held : ∀ a, (none, a) ∈ s.fab.waiting → ¬Covers p a) :
    s.ackPkt p = s.respond p 4 1 p.cls.toNat false [] := by
  unfold State.ackPkt
  refine if_neg ?_
  simp only [Bool.or_eq_true, List.any_eq_true]
  rintro (⟨a, mem, fits⟩ | ⟨⟨o, a⟩, mem, fits⟩)
  · exact out a mem ((covers_iff p a).mp fits)
  · obtain ⟨none, fits⟩ := Bool.and_eq_true_iff.mp fits
    obtain rfl := Option.isNone_iff_eq_none.mp none
    exact held a mem ((covers_iff p a).mp fits)

/-- An acknowledgement that a waiting ACK covers is folded into each such ACK. -/
theorem ackPkt_folded {s : State} {p : Packet} (h : (∃ a ∈ s.fab.outbox, Covers p a) ∨ ∃ a, (none, a) ∈ s.fab.waiting ∧ Covers p a) :
    ∃ fold : Packet → Packet, (∀ a, Covers p a → fold a = foldedAck p a) ∧
      s.ackPkt p = { s with fab := { s.fab with
        outbox := s.fab.outbox.map fold, waiting := s.fab.waiting.map fun e => if e.1.isNone then (e.1, fold e.2) else e } } := by
  refine ⟨fun a => if (a.type == 4 && a.dstLog == p.srcLog && a.arg1.toNat == p.cls.toNat && a.gen == p.gen &&
    decide ((p.seq - a.seq).toNat < 64)) = true then foldedAck p a else a, fun a ha => if_pos ((covers_iff p a).mpr ha), ?_⟩
  unfold State.ackPkt
  refine if_pos ?_
  simp only [Bool.or_eq_true, List.any_eq_true]
  obtain ⟨a, mem, fits⟩ | ⟨a, mem, fits⟩ := h
  · exact .inl ⟨a, mem, (covers_iff p a).mpr fits⟩
  · exact .inr ⟨(none, a), mem, Bool.and_eq_true_iff.mpr ⟨rfl, (covers_iff p a).mpr fits⟩⟩

theorem acknowledgements : Claims.Acknowledgements := by
  intro s p
  refine ⟨fun out held => ?_, fun some_ => ?_, fun k hk => ?_⟩
  · obtain ⟨a, eq, type, cls, seqd, seq, arg0, arg1, gen, etag, dstPhys, dstLog, srcPhys, srcLog, crc, age, hops, -, -⟩ :=
      respond_spec s p 4 1 p.cls.toNat false []
    refine ⟨a, (ackPkt_alone out held).trans eq, type, cls, seqd, seq, arg0, ?_, gen, etag, dstPhys, dstLog, srcPhys, srcLog, crc, age, hops⟩
    rw [arg1, BitVec.toNat_ofNat, Nat.mod_eq_of_lt (by have := p.cls.isLt; omega)]
  · obtain ⟨fold, folded, eq⟩ := ackPkt_folded some_
    dsimp only
    rw [eq]
    refine ⟨rfl, by simp, ?_, ?_⟩
    · rw [List.map_map]
      refine List.map_congr_left fun e _ => ?_
      dsimp only [Function.comp_apply]
      split <;> rfl
    · have covered (a) (ha : Covers p a) := folded a ha ▸ covers_foldedAck ha
      obtain ⟨a, mem, fits⟩ | ⟨a, mem, fits⟩ := some_
      · exact ⟨fold a, .inl (List.mem_map_of_mem mem), covered a fits⟩
      · exact ⟨fold a, .inr (List.mem_map.mpr ⟨_, mem, rfl⟩), covered a fits⟩
  · obtain ⟨a, eq, type, cls, -, seq, arg0, arg1, -, -, dstPhys, -, -, -, crc, -⟩ :=
      respond_spec s p 5 0 (p.cls.toNat + k * 16) false []
    have small := p.cls.isLt
    have arg1 : a.arg1.toNat = p.cls.toNat + k * 16 := by
      rw [arg1, BitVec.toNat_ofNat, Nat.mod_eq_of_lt (by omega)]
    refine ⟨a, eq, type, cls, seq, arg0, ?_, ?_, dstPhys, crc⟩ <;> rw [arg1, bits] <;> omega

/-- Settles O40: every command that consumes a sequenced packet takes it through the checks and then through its stream, whose window
is only ever shifted past numbers that have been taken. -/
theorem fabricStreams : Obligations.FabricStreams :=
  ⟨streamsPerformOnce, streamChecks, acknowledgements⟩

end Sys2Proof.Machine

/-!
PROOFS. The end of a takeover at a module that heads the swarm no more, as an acknowledgement shows it (O41).
-/

namespace Sys2Proof.Machine

/-- A write of this module waits for its acknowledgement. -/
def storedWrite : Rtx := Tests.rtx0 (Tests.pkt 1 1 0 64 1 Tests.bytes64)

/-- A module that began a takeover and has met a higher term since: it is a worker of the swarm of module 9. -/
def takingAsWorker : State :=
  let s := Tests.storing (Tests.pkt 1 1 0 64 1 Tests.bytes64)
  { s with swarm := { s.swarm with role := 1, admitted := true, manager := 9, taking := some 0 } }

/-- The acknowledgement of the write ends the takeover, and its report goes to the manager as a RELAY, a sequenced packet. -/
theorem takingAsWorker_acked :
    Tests.after (exec (.ack (Tests.pkt 4 2 1 1 0 [])) takingAsWorker) (fun t => t.fab.rtx == takingAsWorker.fab.rtx.erase storedWrite) =
      false := by
  decide +kernel

theorem not_packetAnswers : ¬ Claims.PacketAnswers := by
  intro h
  have arrives : Arrives takingAsWorker (Tests.pkt 4 2 1 1 0 []) 4 2 := by
    rw [← Tests.arrives_iff]
    decide +kernel
  obtain ⟨t, run, rtx, -⟩ := (h takingAsWorker (Tests.pkt 4 2 1 1 0 [])).1 storedWrite arrives (by decide +kernel) (by decide +kernel)
    (by decide +kernel) (by decide +kernel) (by decide +kernel) (by decide +kernel)
  have acked := takingAsWorker_acked
  rw [run] at acked
  exact absurd acked (by simp [Tests.after, rtx])

/-- Refutes O41: with the acknowledgement of a write a takeover may end as well, at a module that a higher term has made a worker; its
report is passed on to the manager, and the retransmit store holds that packet then. -/
theorem not_fabricAccesses : ¬ Obligations.FabricAccesses :=
  fun h => not_packetAnswers h.2.2.2

end Sys2Proof.Machine

/-!
PROOFS. Conversions of lanes and the transcendental approximations (O13).
-/

namespace Sys2Proof.Machine

/-! ### Registers of which only the first lanes are written -/

theorem lane_mapLanes_of_ge {w n l : Nat} (op : Nat → Nat × Nat) (h : n ≤ l) : lane w (mapLanes w n op).1 l = 0 := by
  have bound := ofLanes_lt w (((List.range n).map op).map Prod.fst)
  rw [List.length_map, List.length_map, List.length_range] at bound
  rw [lane, bits, mapLanes, Nat.div_eq_of_lt, Nat.zero_mod]
  exact bound.trans_le (pow_le_pow_right₀ one_le_two (by rw [Nat.mul_comm]; exact Nat.mul_le_mul_right w h))

theorem foldl_orf_mod : ∀ (xs : List Nat) (a : Nat), xs.foldl orf a % 128 = (xs.map (· % 128)).foldl orf (a % 128)
  | [], _ => rfl
  | x :: xs, a => by
    rw [List.foldl_cons, foldl_orf_mod xs, List.map_cons, List.foldl_cons,
      show orf a x % 128 = orf (a % 128) (x % 128) from Nat.or_mod_two_pow (n := 7)]

/-- A vector instruction that is accepted writes its result and sets its flags. -/
theorem issueVec_result {s : State} {n : Nat} {f : F0} {legal accepted : Bool} (hi : Issues s n f.g false) (hl : legal = true)
    (ha : accepted = true) (r : Arch → Nat × Nat) :
    issueVec n f legal accepted s (fun a => vecResult a f.rd (r a)) =
      .next (s.withArch n false { ((s.cell n).arch.setV f.rd.toNat (BitVec.ofNat 2048 (r (s.cell n).arch).1)).advance with
        xstat := (s.cell n).arch.xstat ||| BitVec.ofNat 32 ((r (s.cell n).arch).2 % 128) }) := by
  rw [issueVec, hl, issueArch_executes hi]
  simp only [ha, if_true, vecResult]
  rfl

/-- An instruction that writes the first `m` lanes of its register leaves zeros in the others; values and flags are cut to their
widths. -/
theorem vectorOut_first {s : State} {n m : Nat} {f : F0} {legal accepted : Bool} {op : Arch → Nat → Nat × Nat}
    (hi : Issues s n f.g false) (hl : legal = true) (ha : accepted = true) (hm : codeWidth f.ty.toNat * m ≤ 2048) :
    VectorOut s n f (((List.range m).map fun l => (op (s.cell n).arch l).2 % 128).foldl orf 0)
      (fun l => if l < m then (op (s.cell n).arch l).1 % 2 ^ codeWidth f.ty.toNat else 0)
      (issueVec n f legal accepted s fun a => vecResult a f.rd (mapLanes (codeWidth f.ty.toNat) m (op a))) := by
  refine ⟨BitVec.ofNat 2048 (mapLanes (codeWidth f.ty.toNat) m (op (s.cell n).arch)).1, ?_, fun l _ => ?_⟩
  · have flags : (mapLanes (codeWidth f.ty.toNat) m (op (s.cell n).arch)).2 % 128 =
        ((List.range m).map fun l => (op (s.cell n).arch l).2 % 128).foldl orf 0 := by
      rw [mapLanes]
      have := foldl_orf_mod ((List.range m).map fun l => (op (s.cell n).arch l).2) 0
      simpa [List.foldl_map] using this
    rw [issueVec_result hi hl ha, flags]
  · have bound := ofLanes_lt (codeWidth f.ty.toNat) (((List.range m).map (op (s.cell n).arch)).map Prod.fst)
    rw [List.length_map, List.length_map, List.length_range] at bound
    rw [toNat_ofNat_of_lt (show (mapLanes _ m _).1 < _ from bound.trans_le (pow_le_pow_right₀ one_le_two hm))]
    dsimp only
    split
    · exact lane_mapLanes _ ‹_›
    · exact lane_mapLanes_of_ge _ (Nat.not_lt.mp ‹_›)

/-! ### Conversions fit (R103, R158) -/

theorem saturate_lt {w : Nat} (hw : 0 < w) (x : Int) : (saturate w x).1 < 2 ^ w := by
  have half : 2 ^ (w - 1) < 2 ^ w := Nat.pow_lt_pow_right (by decide) (by omega)
  unfold saturate
  split
  · exact half
  · split
    · exact (Nat.sub_le _ _).trans_lt half
    · exact wrap_lt w x

theorem roundToInt_fits {w : Nat} (hw : 0 < w) (mode : RMode) (r : Nat) (v : Fp) :
    (roundToInt w mode r v).1 < 2 ^ w ∧ (roundToInt w mode r v).2 < 128 := by
  have half : 2 ^ (w - 1) < 2 ^ w := Nat.pow_lt_pow_right (by decide) (by omega)
  cases v with
  | nan s => exact ⟨Nat.two_pow_pos w, fNv_lt⟩
  | inf neg => exact ⟨ite_lt_two_pow half ((Nat.sub_le _ _).trans_lt half), fNv_lt⟩
  | fin neg m e => exact ⟨saturate_lt hw _, ite_lt_two_pow (w := 7) fNv_lt (flagIf_lt_flags _ (by decide))⟩

/-- The types 0-9 are the integers and the formats of the vector unit. -/
theorem elemOf_plain {ty : Nat} (h : ty ≤ 9) :
    (∃ w, elemOf ty = .int w ∧ codeWidth ty = w ∧ 0 < w) ∨ ∃ g, elemOf ty = .fp g ∧ codeWidth ty = g.width ∧ g.Sound := by
  interval_cases ty
  iterate 4 exact .inl ⟨_, rfl, rfl, by decide⟩
  all_goals exact .inr ⟨_, rfl, rfl, FpFmt.sound (by decide)⟩

/-- Conversion of an integer lane, as R103 says it. -/
theorem cvtElem_int (v w : Nat) (mode : RMode) (r x : Nat) :
    cvtElem (.int v) (.int w) mode r x =
      if v ≤ w then ((toSigned v x % 2 ^ w).toNat, 0)
      else if toSigned v x < -2 ^ (w - 1) then (2 ^ (w - 1), fSat)
      else if 2 ^ (w - 1) ≤ toSigned v x then (2 ^ (w - 1) - 1, fSat)
      else ((toSigned v x % 2 ^ w).toNat, 0) := by
  have half : Int.ofNat (2 ^ (w - 1)) = 2 ^ (w - 1) := by simp
  have whole : wrap w (toSigned v x) = (toSigned v x % 2 ^ w).toNat := by simp [wrap]
  rw [cvtElem, ← whole, ← half]
  by_cases wide : v ≤ w
  · rw [if_neg (Nat.not_lt.mpr wide), if_pos wide]
  · rw [if_pos (Nat.lt_of_not_le wide), if_neg wide, saturate]
    split_ifs <;> rfl

/-- What a conversion makes of a lane fits the destination. -/
theorem cvtElem_fits {src dst : Nat} (hs : src ≤ 9) (hd : dst ≤ 9) (mode : RMode) (r x : Nat) :
    (cvtElem (elemOf src) (elemOf dst) mode r x).1 < 2 ^ codeWidth dst ∧ (cvtElem (elemOf src) (elemOf dst) mode r x).2 < 128 := by
  obtain ⟨w, he, hw, pos⟩ | ⟨g, he, hw, sound⟩ := elemOf_plain hd
  · rw [he, hw]
    obtain ⟨v, hsrc, -⟩ | ⟨g, hsrc, -⟩ := elemOf_plain hs <;> rw [hsrc]
    · rw [cvtElem]
      split
      · exact ⟨saturate_lt pos _, flagIf_lt_flags _ (by decide)⟩
      · exact ⟨wrap_lt w _, noFlag_lt⟩
    · exact roundToInt_fits pos ..
  · rw [he, hw]
    obtain ⟨v, hsrc, -⟩ | ⟨g, hsrc, -⟩ := elemOf_plain hs <;> rw [hsrc] <;> exact FpFmt.round_fits sound ..

/-! ### vcvt (R103, R150, R151) -/

theorem exec_vcvt (n : Nat) (f : F0) (s : State) : exec (.vcvt n f) s =
    issueVec n f (legalF0 { rd := true, ra := true, ty := true, rm := true } f (decide (f.xop.toNat < 16)))
      (cvtAccepts f.xop.toNat f.ty.toNat) s fun a =>
        vecResult a f.rd (if isMx f.ty.toNat then cvtToMx a f f.xop.toNat else if isMx f.xop.toNat then cvtFromMx a f f.xop.toNat
          else cvtPlain a f f.xop.toNat) := rfl

/-- The lanes common to two types fit in a register. -/
theorem common_lanes (src dst : Nat) : codeWidth dst * (2048 / max (codeWidth src) (codeWidth dst)) ≤ 2048 :=
  (Nat.mul_le_mul_right _ (le_max_right (codeWidth src) (codeWidth dst))).trans (Nat.mul_div_le ..)

theorem FpFmt.roundFin_flags_lt (f : FpFmt) (clamp : Bool) (mode : RMode) (r : Nat) (neg : Bool) (m : Nat) (e : Int) :
    (f.roundFin clamp mode r neg m e).2 < 128 := by
  simp only [FpFmt.roundFin]
  split
  · exact show orf fOf fNx < 128 by decide
  · exact orf_lt_flags (flagIf_lt_flags _ (by decide)) (flagIf_lt_flags _ (by decide))

theorem mxElem_flags_lt (code : Nat) (mode : RMode) (r : Nat) (e : Int) (v : Fp) : (mxElem code mode r e v).2 < 128 := by
  unfold mxElem
  split
  · split
    · exact noFlag_lt
    · exact FpFmt.roundFin_flags_lt ..
  · exact ite_lt_two_pow (w := 7) (show orf fOf fNx < 128 by decide) (flagIf_lt_flags _ (by decide))
  · exact noFlag_lt

theorem mxBlock_flags_lt (code : Nat) (mode : RMode) (draw : Nat → Nat) (vs : List Fp) : (mxBlock code mode draw vs).2.2 < 128 := by
  unfold mxBlock
  dsimp only
  split
  · exact orf_lt_flags (flagIf_lt_flags _ (by decide)) (flagIf_lt_flags _ (by decide))
  · split
    · exact noFlag_lt
    · rw [← List.foldl_map (f := Prod.snd) (g := orf)]
      refine foldl_orf_lt (k := 7) _ 0 (by decide) fun x hx => ?_
      obtain ⟨y, hy, rfl⟩ := List.mem_map.mp hx
      obtain ⟨p, -, rfl⟩ := List.mem_map.mp hy
      exact mxElem_flags_lt ..

theorem cvtToMx_flags_lt (a : Arch) (f : F0) (src : Nat) : (cvtToMx a f src).2 < 128 := by
  unfold cvtToMx
  dsimp only
  rw [← List.foldl_map (f := fun b : Nat × List Nat × Nat => b.2.2) (g := orf)]
  refine foldl_orf_lt (k := 7) _ 0 (by decide) fun x hx => ?_
  obtain ⟨y, hy, rfl⟩ := List.mem_map.mp hx
  obtain ⟨b, -, rfl⟩ := List.mem_map.mp hy
  exact mxBlock_flags_lt ..

theorem isMx_iff (c : Nat) : isMx c = true ↔ 10 ≤ c ∧ c ≤ 15 := by
  simp [isMx]

section
variable {s : State} {n : Nat} {f : F0} (hi : Issues s n f.g false)
  (legal : legalF0 { rd := true, ra := true, ty := true, rm := true } f (decide (f.xop.toNat < 16)) = true)
include hi legal

theorem vectorOut_vcvt_plain (hs : f.xop.toNat ≤ 9) (hd : f.ty.toNat ≤ 9) {one : Nat → Nat × Nat}
    (lanes : ∀ l, cvtElem (elemOf f.xop.toNat) (elemOf f.ty.toNat) ((s.cell n).arch.mode f.rm) ((s.cell n).arch.draw f.ri l)
      ((s.cell n).arch.vlane f.xop.toNat f.ra l) = one l) :
    let m := 2048 / max (codeWidth f.xop.toNat) (codeWidth f.ty.toNat)
    VectorOut s n f (((List.range m).map fun l => (one l).2).foldl orf 0) (fun l => if l < m then (one l).1 else 0)
      (exec (.vcvt n f) s) := by
  intro m
  have ints : isMx f.ty.toNat = false ∧ isMx f.xop.toNat = false := by simp [← Bool.not_eq_true, isMx_iff]; omega
  have out := vectorOut_first (op := fun a l => cvtElem (elemOf f.xop.toNat) (elemOf f.ty.toNat) (a.mode f.rm) (a.draw f.ri l)
    (a.vlane f.xop.toNat f.ra l)) hi legal (show cvtAccepts f.xop.toNat f.ty.toNat = true by simp [cvtAccepts, laneType, hs, hd])
    (common_lanes f.xop.toNat f.ty.toNat)
  have fits (l : Nat) := cvtElem_fits hs hd ((s.cell n).arch.mode f.rm) ((s.cell n).arch.draw f.ri l)
    ((s.cell n).arch.vlane f.xop.toNat f.ra l)
  simp only [lanes] at fits out
  simp only [Nat.mod_eq_of_lt (fits _).1, Nat.mod_eq_of_lt (fits _).2] at out
  rw [exec_vcvt, ints.1, ints.2]
  exact out

theorem exec_vcvt_toMx (hd : 10 ≤ f.ty.toNat) (hs : f.xop.toNat = 7 ∨ f.xop.toNat = 8) :
    let v := cvtToMx (s.cell n).arch f f.xop.toNat
    exec (.vcvt n f) s = .next (s.withArch n false { ((s.cell n).arch.setV f.rd.toNat (BitVec.ofNat 2048 v.1)).advance with
      xstat := (s.cell n).arch.xstat ||| BitVec.ofNat 32 v.2 }) := by
  have mx : isMx f.ty.toNat = true := (isMx_iff _).mpr ⟨hd, Nat.le_of_lt_succ f.ty.isLt⟩
  have takes : cvtAccepts f.xop.toNat f.ty.toNat = true := by obtain h | h := hs <;> simp [cvtAccepts, mx, h]
  have small := cvtToMx_flags_lt (s.cell n).arch f f.xop.toNat
  rw [exec_vcvt, mx]
  simp only [if_true]
  rw [issueVec_result hi legal takes fun a => cvtToMx a f f.xop.toNat, Nat.mod_eq_of_lt small]

theorem vectorOut_vcvt_fromMx (hs : 10 ≤ f.xop.toNat) (hx : f.xop.toNat < 16) (hd : f.ty.toNat = 7 ∨ f.ty.toNat = 8) :
    let once := fun l => (if f.ty.toNat = 7 then bf16 else fp32).round ((s.cell n).arch.mode f.rm) ((s.cell n).arch.draw f.ri l)
      (mxValue f.xop.toNat ((s.cell n).arch.vreg f.ra.toNat).toNat l)
    VectorOut s n f (laneFlags f.ty.toNat fun l => (once l).2) (fun l => (once l).1) (exec (.vcvt n f) s) := by
  intro once
  have fmt : elemOf f.ty.toNat = .fp (if f.ty.toNat = 7 then bf16 else fp32) := by obtain h | h := hd <;> rw [h] <;> rfl
  have fits (l : Nat) := FpFmt.round_fits (FpFmt.sound_of_elemOf (by omega) (by omega) fmt) ((s.cell n).arch.mode f.rm)
    ((s.cell n).arch.draw f.ri l) (mxValue f.xop.toNat ((s.cell n).arch.vreg f.ra.toNat).toNat l)
  have mx : isMx f.ty.toNat = false ∧ isMx f.xop.toNat = true := by simp [← Bool.not_eq_true, isMx_iff]; omega
  have takes : cvtAccepts f.xop.toNat f.ty.toNat = true := by obtain h | h := hd <;> simp [cvtAccepts, mx, h]
  rw [exec_vcvt, mx.1, mx.2]
  refine vectorOut_laneWise (op := fun a l => match elemOf f.ty.toNat with
    | .fp g => g.round (a.mode f.rm) (a.draw f.ri l) (mxValue f.xop.toNat (a.vreg f.ra.toNat).toNat l)
    | _ => (0, 0)) hi legal takes (fun l => by rw [fmt]) (fun l => ?_) fun l => (fits l).2
  rw [codeWidth_of_elemOf fmt, Nat.add_comm, ← Nat.add_assoc]
  exact (fits l).1

end

theorem vectorConversion : Claims.VectorConversion := by
  intro s n f hi hrb hrc h5 h6 hres hx src dst a m x draw one
  have legal : legalF0 { rd := true, ra := true, ty := true, rm := true } f (decide (f.xop.toNat < 16)) = true := by
    simpa [legalF0, hrb, hrc, hres, hx] using And.intro h5 h6
  refine ⟨fun hs hd => vectorOut_vcvt_plain hi legal hs hd fun l => ?_, exec_vcvt_toMx hi legal,
    fun hs hd => vectorOut_vcvt_fromMx hi legal hs hx hd⟩
  obtain ⟨w, he, -⟩ | ⟨g, he, -⟩ := elemOf_plain hd <;> obtain ⟨v, hsrc, -⟩ | ⟨h, hsrc, -⟩ := elemOf_plain hs <;>
    simp only [one, src, dst, he, hsrc]
  · exact cvtElem_int ..
  all_goals rfl

/-! ### BF16 is the upper half of FP32 (R141) -/

/-- The fields of an FP32 pattern whose lower half is zero are those of the BF16 pattern above it. -/
theorem fields_upper (v : Nat) : bits (v * 2 ^ 16) 23 8 = bits v 7 8 ∧ bits (v * 2 ^ 16) 0 23 = bits v 0 7 * 2 ^ 16 := by
  unfold bits
  omega

theorem decode_bf16 (v : Nat) : bf16.decode v =
    if bits v 7 8 = 255 then (if bits v 0 7 = 0 then .inf (bit v 15) else .nan (!bit (bits v 0 7) 6))
    else if bits v 7 8 = 0 then .fin (bit v 15) (bits v 0 7) (-133)
    else .fin (bit v 15) (2 ^ 7 + bits v 0 7) (Int.ofNat (bits v 7 8) - 127 - 7) := by
  simp [FpFmt.decode, bf16]

theorem decode_upper (v : Nat) : fp32.decode (v * 2 ^ 16) =
    if bits v 7 8 = 255 then
      (if bits v 0 7 = 0 then .inf (bit (v * 2 ^ 16) 31) else .nan (!bit (bits v 0 7 * 2 ^ 16) 22))
    else if bits v 7 8 = 0 then .fin (bit (v * 2 ^ 16) 31) (bits v 0 7 * 2 ^ 16) (-149)
    else .fin (bit (v * 2 ^ 16) 31) (2 ^ 23 + bits v 0 7 * 2 ^ 16) (Int.ofNat (bits v 7 8) - 127 - 23) := by
  obtain ⟨ex, mant⟩ := fields_upper v
  simp only [FpFmt.decode, fp32, ex, mant]
  simp

theorem decode_upper_nan {v : Nat} (h : (bf16.decode v).isNan = true) : ∃ sg, fp32.decode (v * 2 ^ 16) = .nan sg := by
  rw [decode_bf16] at h
  rw [decode_upper]
  by_cases top : bits v 7 8 = 255
  · rw [if_pos top] at h ⊢
    by_cases mant : bits v 0 7 = 0
    · rw [if_pos mant] at h
      exact nomatch h
    · exact ⟨_, if_neg mant⟩
  · rw [if_neg top] at h
    split at h <;> exact nomatch h

theorem decode_upper_zero {v : Nat} {neg : Bool} {e : Int} (h : bf16.decode v = .fin neg 0 e) :
    ∃ neg e, fp32.decode (v * 2 ^ 16) = .fin neg 0 e := by
  rw [decode_bf16] at h
  rw [decode_upper]
  by_cases top : bits v 7 8 = 255
  · rw [if_pos top] at h
    split at h <;> exact nomatch h
  · rw [if_neg top] at h ⊢
    by_cases bottom : bits v 7 8 = 0
    · rw [if_pos bottom] at h ⊢
      injection h with _ mant _
      exact ⟨_, _, by rw [mant, Nat.zero_mul]⟩
    · rw [if_neg bottom] at h
      injection h with _ mant _
      omega

/-! ### vtr (R158, R161) -/

/-- One lane of vtr as a function of the revision, the type, the function and the bits of the lane. -/
def trLane (arev ty fn x : Nat) : Nat × Nat :=
  if ty = 8 then vtr32 arev fn x
  else
    let (r, g) := vtr32 arev fn (x * 2 ^ 16)
    let (b, h) := bf16.round .rne 0 (fp32.decode r)
    (b, orf g h)

theorem exec_vtr (n : Nat) (f : F0) (s : State) : exec (.vtr n f) s =
    issueVec n f (legalF0 { rd := true, ra := true, ty := true } f (decide (f.xop.toNat ≤ 5))) (f.ty.toNat == 7 || f.ty.toNat == 8) s
      fun a => vecResult a f.rd (mapLanes (codeWidth f.ty.toNat) (laneCount f.ty.toNat)
        fun l => trLane s.arev f.ty.toNat f.xop.toNat (a.vlane f.ty.toNat f.ra l)) := rfl

theorem vtr32_nan {arev fn x : Nat} {sg : Bool} (h : fp32.decode x = .nan sg) : vtr32 arev fn x = (fp32.nan, flagIf sg fNv) := by
  simp only [vtr32, h]

theorem vtr32_exp_zero {arev x : Nat} {neg : Bool} {e : Int} (h : fp32.decode x = .fin neg 0 e) : vtr32 arev 0 x = (0x3F800000, 0) := by
  simp only [vtr32, h, if_true]

theorem vtr32_log_one (arev : Nat) : vtr32 arev 1 0x3F800000 = (0, 0) := by
  have one : fp32.decode 0x3F800000 = .fin false (2 ^ 23) (-23) := by decide +kernel
  simp [vtr32, one]

theorem vtr32_rcp_zero (arev fn : Nat) (h : fn = 2 ∨ fn = 3) : vtr32 arev fn 0 = (0x7F800000, fDz) := by
  have zero : fp32.decode 0 = .fin false 0 (1 - Int.ofNat fp32.bias - Int.ofNat fp32.mw) := by decide +kernel
  obtain rfl | rfl := h <;> simp [vtr32, zero]

theorem trLane_fp32 (arev fn x : Nat) : trLane arev 8 fn x = vtr32 arev fn x := if_pos rfl

theorem trLane_bf16 {arev fn x r g : Nat} (h : vtr32 arev fn (x * 2 ^ 16) = (r, g)) :
    trLane arev 7 fn x = ((bf16.round .rne 0 (fp32.decode r)).1, orf g (bf16.round .rne 0 (fp32.decode r)).2) := by
  rw [trLane, if_neg (by decide), h]

section
variable {arev ty : Nat} (hty : ty = 7 ∨ ty = 8)
include hty

theorem trLane_nan {fn v : Nat} (h : ((if ty = 7 then bf16 else fp32).decode v).isNan = true) :
    (trLane arev ty fn v).1 = (if ty = 7 then bf16 else fp32).nan := by
  obtain rfl | rfl := hty
  · obtain ⟨sg, nan⟩ := decode_upper_nan h
    rw [trLane_bf16 (vtr32_nan nan)]
    show (bf16.round .rne 0 (fp32.decode fp32.nan)).1 = bf16.nan
    decide +kernel
  · cases nan : fp32.decode v with
    | nan sg => rw [trLane_fp32, vtr32_nan nan]; rfl
    | inf neg => simp [nan, Fp.isNan] at h
    | fin neg m e => simp [nan, Fp.isNan] at h

theorem trLane_exp_zero {v : Nat} {neg : Bool} {e : Int} (h : (if ty = 7 then bf16 else fp32).decode v = .fin neg 0 e) :
    trLane arev ty 0 v = (if ty = 7 then 0x3F80 else 0x3F800000, 0) := by
  obtain rfl | rfl := hty
  · obtain ⟨neg', e', zero⟩ := decode_upper_zero h
    rw [trLane_bf16 (vtr32_exp_zero zero)]
    decide +kernel
  · rw [trLane_fp32, vtr32_exp_zero (by simpa using h)]
    rfl

theorem trLane_log_one : trLane arev ty 1 (if ty = 7 then 0x3F80 else 0x3F800000) = (0, 0) := by
  obtain rfl | rfl := hty
  · rw [trLane_bf16 (vtr32_log_one arev)]
    decide +kernel
  · exact vtr32_log_one arev

theorem trLane_rcp_zero {fn : Nat} (h : fn = 2 ∨ fn = 3) :
    trLane arev ty fn 0 = (if ty = 7 then 0x7F80 else 0x7F800000, fDz) := by
  obtain rfl | rfl := hty
  · rw [trLane_bf16 (vtr32_rcp_zero arev fn h)]
    decide +kernel
  · exact vtr32_rcp_zero arev fn h

end

section
variable {s : State} {n : Nat} {f : F0} (hi : Issues s n f.g false) (hty : f.ty.toNat = 7 ∨ f.ty.toNat = 8)
  (legal : legalF0 { rd := true, ra := true, ty := true } f (decide (f.xop.toNat ≤ 5)) = true)
include hi hty legal

theorem vectorOut_vtr :
    VectorOut s n f
      (laneFlags f.ty.toNat fun l => (trLane s.arev f.ty.toNat f.xop.toNat ((s.cell n).arch.vlane f.ty.toNat f.ra l)).2 % 128)
      (fun l => (trLane s.arev f.ty.toNat f.xop.toNat ((s.cell n).arch.vlane f.ty.toNat f.ra l)).1 % 2 ^ codeWidth f.ty.toNat)
      (exec (.vtr n f) s) := by
  have takes : (f.ty.toNat == 7 || f.ty.toNat == 8) = true := by simpa using hty
  obtain ⟨x, run, lanes⟩ := vectorOut_first
    (op := fun a l => trLane s.arev f.ty.toNat f.xop.toNat (a.vlane f.ty.toNat f.ra l)) hi legal takes
    (show codeWidth f.ty.toNat * laneCount f.ty.toNat ≤ 2048 from Nat.mul_div_le ..)
  exact ⟨x, run, fun l hl => (lanes l hl).trans (if_pos hl)⟩

/-- vtr leaves the vector registers of a cell with one result in place. -/
theorem v_vtr : ∃ t, exec (.vtr n f) s = .next t ∧
    (t.cell n).arch.v = ((s.cell n).arch.setV f.rd.toNat (BitVec.ofNat 2048
      (mapLanes (codeWidth f.ty.toNat) (laneCount f.ty.toNat) fun l =>
        trLane s.arev f.ty.toNat f.xop.toNat ((s.cell n).arch.vlane f.ty.toNat f.ra l)).1)).v := by
  have takes : (f.ty.toNat == 7 || f.ty.toNat == 8) = true := by simpa using hty
  refine ⟨_, (exec_vtr n f s).trans (issueVec_result hi legal takes _), ?_⟩
  rw [State.withArch, State.cell_setCell_self]
  rfl

end

theorem vectorTranscendental : Claims.VectorTranscendental := by
  refine ⟨fun s n f hi hty hrb hrc hrm hri hres hx => ?_, fun s u n m f arev v hi hu hty hrb hrc hrm hri hres hx => ?_⟩
  all_goals
    have legal : legalF0 { rd := true, ra := true, ty := true } f (decide (f.xop.toNat ≤ 5)) = true := by
      simp [legalF0, hrb, hrc, hrm, hri, hres, hx]
  · intro x fp one inf
    have fmt : fp = if f.ty.toNat = 7 then bf16 else fp32 := rfl
    have width : codeWidth f.ty.toNat = if f.ty.toNat = 7 then 16 else 32 := by obtain h | h := hty <;> rw [h] <;> rfl
    refine ⟨fun v => (trLane s.arev f.ty.toNat f.xop.toNat v).2 % 128,
      fun v => (trLane s.arev f.ty.toNat f.xop.toNat v).1 % 2 ^ codeWidth f.ty.toNat, vectorOut_vtr hi hty legal,
      fun v nan => ?_, fun hf q e zero => ?_, fun hf => ?_, fun hf => ?_⟩ <;> beta_reduce
    · rw [trLane_nan hty nan, fmt, width]
      split <;> rfl
    · rw [hf, show ((0 : BitVec 6).toNat) = 0 from rfl, trLane_exp_zero hty zero, width]
      exact ⟨by dsimp only [one]; split <;> rfl, rfl⟩
    · rw [hf, show ((1 : BitVec 6).toNat) = 1 from rfl, show one = if f.ty.toNat = 7 then 0x3F80 else 0x3F800000 from rfl, trLane_log_one hty]
      exact ⟨Nat.zero_mod _, rfl⟩
    · have code : f.xop.toNat = 2 ∨ f.xop.toNat = 3 := hf.imp (congrArg BitVec.toNat) (congrArg BitVec.toNat)
      rw [trLane_rcp_zero hty code, width]
      exact ⟨by dsimp only [inf]; split <;> rfl, rfl⟩
  · obtain ⟨t, run, ht⟩ := v_vtr hi hty legal
    obtain ⟨r, run', hr⟩ := v_vtr hu hty legal
    refine ⟨t, r, run, run', ?_⟩
    rw [ht, hr, arev]
    simp only [Arch.setV, Arch.vlane, Arch.vreg, v]

/-- Settles O13: a conversion is the lanes that both types have, each converted and cut to its width; vtr is one function of the
revision, the function code and the lane's bits, whose special cases need no evaluation of the approximations. -/
theorem vectorConversions : Obligations.VectorConversions :=
  ⟨vectorConversion, vectorTranscendental⟩

end Sys2Proof.Machine

/-!
PROOFS. Set-up registers: what a write and a commit leave in effect and staged, and what a read returns (O34, O35).
-/

namespace Sys2Proof.Machine

/-! ### What leaves the set-up registers as they are -/

/-- The set-up registers, in effect and staged, and the state of the commits. -/
def State.setUp (s : State) : Tab Word × Tab Word × Tab Commit := (s.bar, s.stg, s.commits)

theorem setUp_quenchInert : QuenchInert State.setUp where
  mem _ _ _ := rfl
  ext _ _ _ := rfl
  far _ _ := rfl
  count _ _ _ _ := rfl
  epoch _ _ _ := rfl
  rep _ _ _ := rfl
  sent _ _ _ _ := rfl
  traced _ _ _ _ _ := rfl
  noted _ _ _ := rfl
  corrected _ _ := rfl
  flips _ _ := rfl
  frg _ _ _ := rfl
  granules _ _ _ _ := rfl
  bi _ _ _ := rfl
  issued _ _ := rfl
  free _ _ := rfl
  run _ _ _ := rfl
  waits _ _ := rfl
  fdescs _ _ := rfl
  requests _ _ _ := rfl
  colls _ _ _ := rfl
  drip _ _ _ := rfl

theorem setUp_reportInert : ReportInert State.setUp := setUp_quenchInert.toReportInert

theorem setUp_of_calm {s t : State} (h : t.calm = s.calm) : t.setUp = s.setUp := State.field_of_calm State.setUp (fun _ => rfl) h

theorem setUp_powerReport (s : State) (ty r b a : Nat) : (s.powerReport ty r b a).setUp = s.setUp := setUp_of_calm (calm_powerReport ..)

theorem setUp_escalate (s : State) (p r j d : Nat) : (s.escalate p r j d).setUp = s.setUp :=
  setUp_reportInert.escalate (fun _ _ => rfl) ..

/-- A part of the state that neither reports nor the marks of a contact show in. -/
theorem field_of_hostContact {β : Type} (g : State → β) (calm : ∀ s, g s.calm = g s) (mgmt : ∀ s m, g { s with mgmt := m } = g s)
    (hold : ∀ s b, g { s with power := { s.power with hold := b } } = g s) (s : State) : g s.hostContact = g s := by
  refine Eq.trans ?_ (mgmt s { s.mgmt with lastHost := s.now })
  unfold State.hostContact
  generalize { s with mgmt := { s.mgmt with lastHost := s.now } } = u
  unfold State.setHold
  split
  · rfl
  · have noted : g (State.mEvent { u with power := { u.power with hold := false } } 9 0) = g u := (mgmt ..).trans (hold ..)
    dsimp only
    split
    · exact (State.field_of_calm g calm (calm_powerReport ..)).trans noted
    · exact noted

theorem setUp_hostContact (s : State) : s.hostContact.setUp = s.setUp :=
  field_of_hostContact State.setUp (fun _ => rfl) (fun _ _ => rfl) (fun _ _ => rfl) s

theorem setUp_quenchCmd (s : State) (id status : Nat) : (s.quenchCmd id status).setUp = s.setUp :=
  setUp_quenchInert.quenchCmd (fun _ _ => rfl) ..

theorem setUp_abortCmd (s : State) (id : Nat) : (s.abortCmd id).setUp = s.setUp :=
  setUp_quenchInert.abortCmd (fun _ _ => rfl) ..

/-- The definition with its entry taken apart. -/
theorem passHead_eq (s : State) (c : Cmd) : s.passHead c = match s.nextEntry c.part c.ring c.entry c.wrap with
    | (h, w) => s.setRing c.part c.ring { s.ring c.part c.ring with head := h, headWrap := w, lineDue := true } := rfl

theorem setUp_passHead (s : State) (c : Cmd) : (s.passHead c).setUp = s.setUp := by
  rw [passHead_eq]
  generalize s.nextEntry c.part c.ring c.entry c.wrap = e
  obtain ⟨h, w⟩ := e
  rfl

/-! ### Rings -/

theorem setUp_flushReports (s : State) (p : Nat) : (s.flushReports p).setUp = s.setUp := by
  unfold State.flushReports
  generalize (s.rep p).held = l
  induction l generalizing s with
  | nil => rfl
  | cons r l ih =>
    rw [List.foldl_cons, ih]
    dsimp only
    split
    · exact setUp_reportInert.writeReport ..
    · rfl

theorem setUp_openRing (s : State) (p i : Nat) : (s.openRing p i).setUp = s.setUp := by
  unfold State.openRing
  dsimp only
  split
  · rfl
  · exact setUp_escalate ..

theorem setUp_closeRing (s : State) (p i : Nat) : (s.closeRing p i).setUp = s.setUp :=
  foldS_keeps State.setUp (fun _ _ => by
    split
    · exact (setUp_passHead ..).trans (setUp_quenchCmd ..)
    · exact setUp_quenchCmd ..) _ _

theorem setUp_setRings (s : State) (p : Nat) : (s.setRings p).setUp = s.setUp := by
  unfold State.setRings
  dsimp only
  refine (foldS_keeps State.setUp (fun t i => ?_) _ _).trans ?_
  · split
    · split
      · rfl
      · exact setUp_openRing ..
    · split
      · exact setUp_closeRing ..
      · rfl
  · split
    · exact setUp_flushReports ..
    · split <;> rfl

/-! ### Linings, save areas and guests -/

theorem setUp_spareRow (s : State) (d r : Nat) : (s.spareRow d r).setUp = s.setUp := by
  unfold State.spareRow
  dsimp only
  split
  · exact setUp_reportInert.retire ..
  · rfl

theorem setUp_endLost (s : State) (d : Nat) (q : Nat → Bool) : (s.endLost d q).setUp = s.setUp :=
  foldS_keeps State.setUp (fun _ _ => setUp_spareRow ..) _ _

theorem setUp_endLostCmds (s : State) (p : Nat) : (s.endLostCmds p).setUp = s.setUp :=
  foldS_keeps State.setUp (f := fun (s : State) (c : Cmd) => (s.setCmd { c with hwLost := false }).abortCmd c.id)
    (fun _ _ => setUp_abortCmd ..) _ _

theorem setUp_liningOff (s : State) (p : Nat) : (s.liningOff p).setUp = s.setUp := by
  unfold State.liningOff
  dsimp only
  refine (setUp_endLostCmds ..).trans ((foldS_keeps State.setUp (fun _ _ => setUp_endLost ..) _ _).trans
    (foldS_keeps State.setUp (fun t u => ?_) _ _))
  split
  · exact setUp_quenchInert.freeBytes ..
  · exact foldS_keeps State.setUp (fun _ _ => setUp_quenchInert.freeBytes ..) _ _

theorem setUp_markGranule (s : State) (p k : Nat) : (s.markGranule p k).setUp = s.setUp := by
  unfold State.markGranule
  dsimp only
  split
  · exact setUp_quenchInert.markClose ..
  · exact setUp_quenchInert.markCell ..

theorem setUp_setLining (s : State) (p : Nat) : (s.setLining p).setUp = s.setUp := by
  unfold State.setLining
  dsimp only
  split
  · exact foldS_keeps State.setUp (fun _ _ => setUp_markGranule ..) _ _
  · split
    · exact setUp_liningOff ..
    · rfl

theorem setUp_moveSaves (s t : State) (p : Nat) : (s.moveSaves t p).setUp = t.setUp := by
  unfold State.moveSaves
  split
  · split <;> rfl
  · rfl

theorem setUp_retune (s : State) (c : Nat) : (s.retune c).setUp = s.setUp := by
  have same := congrArg State.setUp (untuned_retune s c)
  exact same

theorem setUp_makeGuest (s : State) (n : Nat) : (s.makeGuest n).setUp = s.setUp := by
  have save (s : State) o n : (s.saveCell o n).setUp = s.setUp :=
    (setUp_quenchInert.saveWrite ..).trans ((setUp_quenchInert.saveWrite ..).trans (setUp_quenchInert.saveWrite ..))
  have remap (s : State) n r : (s.changeRemap n r).setUp = s.setUp :=
    (setUp_retune ..).trans ((setUp_retune ..).trans ((setUp_reportInert.trace ..).trans (setUp_reportInert.retire ..)))
  exact (save ..).trans (remap ..)

theorem setUp_regainGuests (s : State) (p : Nat) : (s.regainGuests p).setUp = s.setUp := by
  unfold State.regainGuests
  split
  · rfl
  · refine foldS_keeps State.setUp (fun t n => ?_) _ _
    split
    · exact setUp_makeGuest ..
    · rfl

/-! ### What function 0 brings into effect -/

theorem setUp_beginOff (s : State) (kind : Nat) : (s.beginOff kind).setUp = s.setUp := by
  have wait (s : State) p : (s.abortWaiting p).setUp = s.setUp :=
    foldS_keeps State.setUp (fun _ _ => (setUp_passHead ..).trans (setUp_quenchCmd ..)) _ _
  refine (foldS_keeps State.setUp (fun _ _ => wait ..) _ _).trans ?_
  show s.reportOff.setUp = s.setUp
  unfold State.reportOff
  split
  · rfl
  · exact setUp_powerReport ..

theorem setUp_restPort (s : State) (k : Nat) : (s.restPort k).setUp = s.setUp := by
  unfold State.restPort
  dsimp only
  split
  · rfl
  · exact (setUp_reportInert.trace ..).trans (setUp_reportInert.retire ..)

theorem setUp_applyZero (s t : State) : (s.applyZero t).setUp = t.setUp := by
  unfold State.applyZero
  dsimp only
  refine (foldS_keeps State.setUp (fun u i => ?_) _ _).trans ?_
  · split <;> rfl
  generalize ht : foldS State.setLining t (List.range 4) = t1
  have h1 : t1.setUp = t.setUp := by rw [← ht]; exact foldS_keeps State.setUp setUp_setLining _ _
  generalize ht2 : foldS (fun u p => (s.moveSaves u p).regainGuests p) t1 (List.range s.parts) = t2
  have h2 : t2.setUp = t.setUp := by
    rw [← ht2]
    exact (foldS_keeps State.setUp (fun _ _ => (setUp_regainGuests ..).trans (setUp_moveSaves ..)) _ _).trans h1
  generalize ht3 : (if !t2.barB 0x050008 0 && s.barB 0x050008 0 && t2.power.running then t2.beginOff 1 else t2) = t3
  have h3 : t3.setUp = t.setUp := by
    rw [← ht3]
    split
    · exact (setUp_beginOff ..).trans h2
    · exact h2
  generalize ht4 : foldS (fun (u : State) p => if ((u.port p).state ≠ 6 ∧ (u.port p).state ≠ 7 ∧ (!u.barB (0x030200 + 8 * p) 0) = true) ∨
      ((u.port p).state = 6 ∧ u.barB (0x030200 + 8 * p) 0 = true) then u.restPort p
    else u.setPort p { u.port p with bucket := min (u.port p).bucket (1024 * u.barF (0x030200 + 8 * p) 16 16) }) t3 (List.range 18) = t4
  have h4 : t4.setUp = t.setUp := by
    rw [← ht4]
    refine (foldS_keeps State.setUp (fun u k => ?_) _ _).trans h3
    split
    · exact setUp_restPort ..
    · rfl
  split <;> exact h4

theorem setUp_takeOrder (s t : State) : (s.takeOrder t).setUp = t.setUp := by
  unfold State.takeOrder
  dsimp only
  split
  · exact setUp_powerReport ..
  · rfl

theorem setUp_drainAll (s t : State) : (s.drainAll t).setUp = t.setUp := by
  have window (u : State) h n c : (s.drainWindow u h n c).setUp = u.setUp := by
    unfold State.drainWindow
    dsimp only
    split <;> rfl
  exact (foldS_keeps State.setUp (fun _ _ => window ..) _ _).trans (foldS_keeps State.setUp (fun _ _ => window ..) _ _)

/-! ### The rows of registers (R327) -/

theorem regAt_mem {off : Nat} {r : RegRow} {i : Nat} (h : regAt off = some (r, i)) : r ∈ regRows := by
  obtain ⟨x, mem, at_⟩ := List.exists_of_findSome?_eq_some h
  obtain ⟨j, -, eq⟩ := Option.map_eq_some_iff.mp at_
  cases eq
  exact mem

theorem index_some {r : RegRow} {off i : Nat} (h : r.index off = some i) : r.base ≤ off ∧ off ≤ r.base + r.stride * (r.count - 1) := by
  unfold RegRow.index at h
  split at h
  next here =>
    simp only [Bool.and_eq_true, decide_eq_true_eq, beq_iff_eq] at here
    obtain ⟨⟨low, whole⟩, few⟩ := here
    have place := Nat.div_add_mod (off - r.base) r.stride
    have high := Nat.mul_le_mul_left r.stride (Nat.le_sub_one_of_lt few)
    exact ⟨low, by omega⟩
  · exact nomatch h

/-- No register lies in a range that the span of no row meets. -/
theorem regAt_none {lo hi off : Nat} (h : ∀ r ∈ regRows, r.base + r.stride * (r.count - 1) < lo ∨ hi ≤ r.base) (low : lo ≤ off)
    (high : off < hi) : regAt off = none := by
  refine List.findSome?_eq_none_iff.mpr fun r mem => Option.map_eq_none_iff.mpr ?_
  cases here : r.index off with
  | none => rfl
  | some i =>
    have := index_some here
    have := h r mem
    omega

/-- The fields of a register are given in the order of their bits. -/
theorem fields_ordered {r : RegRow} (h : r ∈ regRows) : r.fields.Pairwise fun f g => f.lsb + f.width ≤ g.lsb := by
  revert r
  decide +kernel

/-! ### Words put together from fields -/

theorem packW_above {n : Nat} : ∀ {l : List (Nat × Nat × Nat)}, (∀ x ∈ l, n ≤ x.1) → 2 ^ n ∣ packW l
  | [], _ => Nat.dvd_zero _
  | (place, width, v) :: l, h => by
    rw [packW_cons]
    rw [List.forall_mem_cons] at h
    exact Nat.dvd_add (Dvd.dvd.mul_left (pow_dvd_pow 2 h.1) _) (packW_above h.2)

/-- A field reads back from a word put together in the order of the fields' bits. -/
theorem bits_packW {place width v : Nat} : ∀ {l : List (Nat × Nat × Nat)}, l.Pairwise (fun x y => x.1 + x.2.1 ≤ y.1) →
    (place, width, v) ∈ l → bits (packW l) place width = v % 2 ^ width
  | (p, w, x) :: l, ordered, mem => by
    obtain ⟨first, rest⟩ := List.pairwise_cons.mp ordered
    rw [packW_cons, bits]
    obtain ⟨y, above⟩ := packW_above (n := p + w) (l := l) first
    rcases List.mem_cons.mp mem with here | later
    · cases here
      rw [above, pow_add, Nat.mul_assoc, Nat.mul_comm (v % _), ← Nat.mul_add, Nat.mul_div_cancel_left _ (Nat.two_pow_pos _),
        Nat.add_mul_mod_self_left, Nat.mod_mod]
    · have beyond : p + w ≤ place := first _ later
      have low : x % 2 ^ w * 2 ^ p < 2 ^ (p + w) := by
        rw [pow_add, Nat.mul_comm (2 ^ p)]
        exact Nat.mul_lt_mul_of_pos_right (Nat.mod_lt _ (Nat.two_pow_pos w)) (Nat.two_pow_pos p)
      have skip : (x % 2 ^ w * 2 ^ p + packW l) / 2 ^ place = packW l / 2 ^ place := by
        obtain ⟨k, rfl⟩ := Nat.exists_eq_add_of_le beyond
        rw [above, pow_add 2 (p + w) k, ← Nat.div_div_eq_div_mul, ← Nat.div_div_eq_div_mul, Nat.add_mul_div_left _ _ (Nat.two_pow_pos _),
          Nat.div_eq_of_lt low, Nat.zero_add, Nat.mul_div_cancel_left _ (Nat.two_pow_pos _)]
      rw [skip]
      exact bits_packW rest later

theorem bits_mod_self (x lo n : Nat) : bits x lo n % 2 ^ n = bits x lo n := Nat.mod_mod _ _

section
variable (s : State) (fn : Nat) {off : Nat} {r : RegRow} {i : Nat} (h : regAt off = some (r, i)) {f : Field} (mem : f ∈ r.fields)
include h mem

theorem bits_setUpWord_rwc (acc : f.acc = .rwc) : bits (s.setUpWord fn off) f.lsb f.width =
    bits (if r.writer == .fn0 then s.barW (regKey fn off) else s.stgW (regKey fn off)) f.lsb f.width := by
  rw [State.setUpWord, h]
  refine Eq.trans ?_ (bits_mod_self ..)
  exact bits_packW (List.pairwise_map.mpr (fields_ordered (regAt_mem h))) (List.mem_map.mpr ⟨f, mem, by rw [acc]⟩)

theorem bits_setUpWord_rw (acc : f.acc = .rw) : bits (s.setUpWord fn off) f.lsb f.width = bits (s.barW (regKey fn off)) f.lsb f.width := by
  rw [State.setUpWord, h]
  refine Eq.trans ?_ (bits_mod_self ..)
  exact bits_packW (List.pairwise_map.mpr (fields_ordered (regAt_mem h))) (List.mem_map.mpr ⟨f, mem, by rw [acc]⟩)

end

/-! ### What a commit leaves (R329-R331) -/

theorem commitRegs_congr {s t : State} (h : t.parts = s.parts) (fn : Nat) : t.commitRegs fn = s.commitRegs fn := by
  unfold State.commitRegs State.hostWinPart
  rw [h]

theorem parts_hostContact (s : State) : s.hostContact.parts = s.parts :=
  field_of_hostContact State.parts (fun _ => rfl) (fun _ _ => rfl) (fun _ _ => rfl) s

/-- Every register of a list is staged as it is in effect. -/
theorem get_restaged (b : Tab Word) {key : Nat} : ∀ (l : List (Nat × Nat × List Field)) (t : Tab Word),
    ((∃ r ∈ l, r.1 = key) ∨ Tab.get regReset t key = Tab.get regReset b key) →
    Tab.get regReset (l.foldl (fun t r => Tab.set regReset t r.1 (Tab.get regReset b r.1)) t) key = Tab.get regReset b key
  | [], _, h => h.elim nofun id
  | r :: l, t, h => by
    refine get_restaged b l _ ?_
    by_cases here : key = r.1
    · subst here
      exact .inr (Tab.get_set_self ..)
    · rw [Tab.get_set_other _ _ _ _ _ here]
      refine h.imp_left ?_
      rintro ⟨q, mem, eq⟩
      rcases List.mem_cons.mp mem with rfl | mem
      · exact absurd eq.symm here
      · exact ⟨q, mem, eq⟩

/-- The words that a commit of function `fn` puts in effect: staged, clamped, and where the rack manager orders off, with its run order. -/
def State.applied (s : State) (fn : Nat) : Tab Word := (if fn = 0 then s.keepRun (s.clampAll fn) else s.clampAll fn).bar

/-- The commit state after a commit: its clamps are logged. -/
def Commit.logged (c : Commit) (l : List (Nat × Nat × Nat × Nat)) : Commit :=
  { c with log := l.take 64, clamped := c.clamped || !l.isEmpty, overflow := c.overflow || decide (64 < l.length) }

theorem setUp_logClamps (s : State) (fn : Nat) (l : List (Nat × Nat × Nat × Nat)) :
    (s.logClamps fn l).setUp = (s.setCommit fn ((s.commitOf fn).logged l)).setUp := by
  unfold State.logClamps
  dsimp only
  split
  · rfl
  · exact setUp_reportInert.report ..

/-- A commit up to what function 0 brings into effect besides registers. -/
theorem setUp_restaged (s : State) (fn : Nat) {t1 : State} (ht : t1.calm = ({ s with bar := s.applied fn } : State).calm) :
    (t1.restage fn).setUp = (s.applied fn,
      (s.commitRegs fn).foldl (fun t r => Tab.set regReset t r.1 (Tab.get regReset (s.applied fn) r.1)) s.stg, s.commits) := by
  have regs : t1.commitRegs fn = s.commitRegs fn := commitRegs_congr (State.field_of_calm State.parts (fun _ => rfl) ht) fn
  have up : t1.setUp = (s.applied fn, s.stg, s.commits) := setUp_of_calm ht
  obtain ⟨bar, rest⟩ := Prod.mk.inj up
  obtain ⟨stg, commits⟩ := Prod.mk.inj rest
  unfold State.restage State.setUp
  dsimp only
  rw [regs, bar, stg, commits]

theorem setUp_commit (s : State) (fn : Nat) : ∃ stg,
    (s.commit fn).setUp = (s.applied fn, stg,
      Tab.set (fun _ => Commit.reset) s.commits fn ((s.commitOf fn).logged (s.clamped (s.clampAll fn) fn))) ∧
    ∀ r ∈ s.commitRegs fn, Tab.get regReset stg r.1 = Tab.get regReset (s.applied fn) r.1 := by
  let put := fun (u : State) => ({ u with bar := s.applied fn } : State)
  generalize ht1 : (if fn = 0 then s.setCap put else put s) = t1
  have calm : t1.calm = (put s).calm := by
    rw [← ht1]
    split
    · exact calm_setCap ..
    · rfl
  let t2 := s.drainAll (t1.restage fn)
  have up : ((if fn = 0 then s.takeOrder (s.applyZero t2) else t2).setRings fn).setUp = (t1.restage fn).setUp := by
    refine (setUp_setRings ..).trans ?_
    split
    · exact (setUp_takeOrder ..).trans ((setUp_applyZero ..).trans (setUp_drainAll ..))
    · exact setUp_drainAll ..
  have whole : s.commit fn = ((if fn = 0 then s.takeOrder (s.applyZero t2) else t2).setRings fn).logClamps fn
      (s.clamped (s.clampAll fn) fn) := by
    subst ht1
    rfl
  generalize ((if fn = 0 then s.takeOrder (s.applyZero t2) else t2).setRings fn) = u at up whole
  obtain ⟨bar, rest⟩ := Prod.mk.inj (up.trans (setUp_restaged s fn calm))
  obtain ⟨stg, commits⟩ := Prod.mk.inj rest
  refine ⟨_, ?_, fun r mem => get_restaged (s.applied fn) (s.commitRegs fn) s.stg (.inl ⟨r, mem, rfl⟩)⟩
  rw [whole, setUp_logClamps]
  unfold State.setCommit State.commitOf State.setUp
  dsimp only
  rw [bar, stg, commits]

section
variable {s : State} {fn : Nat} (live : s.live = true) (hfn : fn < s.parts) (h4 : fn < 4)
include live hfn h4

theorem exec_cfgCommit (up : s.link.up = true) : exec (.cfgCommit fn) s = .next (s.hostContact.requestCommit fn) := by
  have due : (s.hasFn fn && s.link.up) = true := by simp [State.hasFn, hfn, up]
  rw [exec, execCfgCommit, whenFormed_of_formed _ (decide_eq_true h4), whenLive_of_live _ live, whenDue_of_due _ due]

end

theorem requestCommit_busy {s : State} {fn : Nat} (busy : (s.commitOf fn).busy = true) :
    s.requestCommit fn = s.setCommit fn { s.commitOf fn with again := true } := if_pos busy

theorem requestCommit_idle {s : State} {fn : Nat} (idle : (s.commitOf fn).busy = false) :
    s.requestCommit fn = (s.commit fn).setCommit fn { (s.commit fn).commitOf fn with busy := true } :=
  if_neg (by rw [idle]; exact Bool.false_ne_true)

theorem commitOf_setCommit (s : State) (fn : Nat) (c : Commit) : (s.setCommit fn c).commitOf fn = c := Tab.get_set_self ..

theorem commitOf_setUp {s t : State} (h : t.setUp = s.setUp) (fn : Nat) : t.commitOf fn = s.commitOf fn := by
  obtain ⟨-, rest⟩ := Prod.mk.inj h
  obtain ⟨-, commits⟩ := Prod.mk.inj rest
  rw [State.commitOf, commits]
  rfl

/-- A commit that is requested while none is under way: what it applies is staged, and its clamps are logged. -/
theorem requestCommit_commits {s : State} {fn : Nat} (idle : (s.commitOf fn).busy = false) :
    (s.requestCommit fn).commitOf fn = { (s.commitOf fn).logged (s.clamped (s.clampAll fn) fn) with busy := true } ∧
      ∀ r ∈ s.commitRegs fn, (s.requestCommit fn).stgW r.1 = (s.requestCommit fn).barW r.1 := by
  obtain ⟨stg, up, staged⟩ := setUp_commit s fn
  obtain ⟨bar, rest⟩ := Prod.mk.inj up
  obtain ⟨hstg, commits⟩ := Prod.mk.inj rest
  rw [requestCommit_idle idle, commitOf_setCommit]
  refine ⟨?_, fun r mem => ?_⟩
  · rw [State.commitOf, commits, Tab.get_set_self]
  · show (Tab.get regReset (s.commit fn).stg r.1).toNat = (Tab.get regReset (s.commit fn).bar r.1).toNat
    rw [hstg, bar, staged r mem]

theorem logged_clamped (c : Commit) (l : List (Nat × Nat × Nat × Nat)) : (c.logged l).clamped = true ↔ c.clamped = true ∨ l ≠ [] := by
  simp [Commit.logged]

theorem logged_overflow (c : Commit) (l : List (Nat × Nat × Nat × Nat)) :
    (c.logged l).overflow = true ↔ c.overflow = true ∨ 64 < l.length := by
  simp [Commit.logged]

/-- A commit that has ended is counted. -/
def State.endCommit (s : State) (fn : Nat) : State :=
  (s.setRings fn).setCommit fn { s.commitOf fn with busy := false, again := false, count := ((s.commitOf fn).count + 1) % 2 ^ 32 }

/-- A further commit that was asked for follows the one that ends. -/
theorem exec_commitComplete {s : State} {fn : Nat} (live : s.live = true) (h4 : fn < 4) (up : s.link.up = true)
    (busy : (s.commitOf fn).busy = true) (shut : s.opening fn = false) :
    exec (.commitComplete fn) s = .next (if (s.commitOf fn).again then (s.endCommit fn).requestCommit fn else s.endCommit fn) := by
  have same := commitOf_setUp (setUp_setRings s fn) fn
  rw [exec, execCommitComplete, whenFormed_of_formed _ (decide_eq_true h4), whenLive_of_live _ live, whenDue_of_due _ (by simp [busy, shut, up])]
  dsimp only
  rw [same]
  rfl

theorem commits : Claims.Commits := by
  intro s fn live hfn h4 up
  have same := commitOf_setUp (setUp_hostContact s) fn
  refine ⟨fun busy => ?_, fun idle => ?_, fun busy shut once => ?_, fun busy wait => ?_, fun busy shut again => ?_, fun idle => ?_⟩
  · have busy' : (s.hostContact.commitOf fn).busy = true := by rw [same, busy]
    obtain ⟨bar, rest⟩ := Prod.mk.inj (setUp_hostContact s)
    refine ⟨_, (exec_cfgCommit live hfn h4 up).trans (congrArg _ (requestCommit_busy busy')), ?_, bar, (Prod.mk.inj rest).1⟩
    rw [commitOf_setCommit, same]
  · have idle' : (s.hostContact.commitOf fn).busy = false := by rw [same, idle]
    obtain ⟨done, staged⟩ := requestCommit_commits idle'
    refine ⟨_, _, exec_cfgCommit live hfn h4 up, rfl, ?_, ?_, ?_, ?_, fun r mem => staged r ?_⟩
    · rw [done]
    · rw [done]
      rfl
    · rw [done, ← same]
      exact logged_clamped ..
    · rw [done, ← same]
      exact logged_overflow ..
    · rwa [commitRegs_congr (parts_hostContact s)]
  · rw [exec_commitComplete live h4 up busy shut, once]
    rfl
  · rw [exec, execCommitComplete, whenFormed_of_formed _ (decide_eq_true h4), whenLive_of_live _ live, whenDue_of_not _ (by simp [wait])]
  · refine ⟨_, exec_commitComplete live h4 up busy shut, ?_⟩
    rw [if_pos again]
    have ended : (s.endCommit fn).commitOf fn =
        { s.commitOf fn with busy := false, again := false, count := ((s.commitOf fn).count + 1) % 2 ^ 32 } := commitOf_setCommit ..
    obtain ⟨done, -⟩ := requestCommit_commits (s := s.endCommit fn) (fn := fn) (by rw [ended])
    rw [done, ended]
    exact ⟨rfl, rfl, rfl⟩
  · rw [exec, execCommitComplete, whenFormed_of_formed _ (decide_eq_true h4), whenLive_of_live _ live, whenDue_of_not _ (by simp [idle])]

/-! ### Writes of registers (R327, R329) -/

theorem getLsbD_accMask (fields : List Field) (a : Acc) (b : Nat) :
    (accMask fields a).getLsbD b = (decide (b < 64) && fields.any fun f => decide (f.acc = a ∧ f.lsb ≤ b ∧ b < f.lsb + f.width)) := by
  have general : ∀ (l : List Field) (m : Word),
      (l.foldl (fun m f => if f.acc = a then m ||| BitVec.ofNat 64 ((2 ^ f.width - 1) * 2 ^ f.lsb) else m) m).getLsbD b =
        (m.getLsbD b || (decide (b < 64) && l.any fun f => decide (f.acc = a ∧ f.lsb ≤ b ∧ b < f.lsb + f.width))) := by
    intro l
    induction l with
    | nil => simp
    | cons f l ih =>
      intro m
      rw [List.foldl_cons, ih, List.any_cons]
      have field : (BitVec.ofNat 64 ((2 ^ f.width - 1) * 2 ^ f.lsb)).getLsbD b =
          (decide (b < 64) && decide (f.lsb ≤ b ∧ b < f.lsb + f.width)) := by
        rw [BitVec.getLsbD_ofNat, Nat.testBit_mul_two_pow, Nat.testBit_two_pow_sub_one]
        congr 1
        by_cases low : f.lsb ≤ b
        · simp only [low, decide_true, Bool.true_and, true_and]
          exact decide_eq_decide.mpr (by omega)
        · simp [low]
      split
      next acc =>
        rw [BitVec.getLsbD_or, field]
        simp only [acc, true_and]
        cases m.getLsbD b <;> cases decide (b < 64) <;> simp
      next acc => simp [acc]
  rw [accMask, general]
  simp

theorem getLsbD_blend (old m v : Word) (b : Nat) : (blend old m v).getLsbD b = if m.getLsbD b then v.getLsbD b else old.getLsbD b := by
  by_cases h : b < 64
  · cases hm : m.getLsbD b <;> simp_all [blend]
  · simp [BitVec.getLsbD_of_ge _ _ (Nat.not_lt.mp h)]

/-- A field that a mask reaches takes the value written. -/
theorem bits_blend {fields : List Field} {f : Field} (mem : f ∈ fields) {m : Word}
    (reach : ∀ b, (accMask fields f.acc).getLsbD b = true → m.getLsbD b = true) (old v : Word) :
    bits (blend old m v).toNat f.lsb f.width = bits v.toNat f.lsb f.width := by
  refine Nat.eq_of_testBit_eq fun j => ?_
  simp only [bits, Nat.testBit_mod_two_pow, Nat.testBit_div_two_pow, BitVec.testBit_toNat]
  by_cases hj : j < f.width
  · rw [getLsbD_blend]
    by_cases top : j + f.lsb < 64
    · have covered : m.getLsbD (j + f.lsb) = true := by
        refine reach _ ?_
        rw [getLsbD_accMask, decide_eq_true top, Bool.true_and, List.any_eq_true]
        exact ⟨f, mem, decide_eq_true ⟨rfl, by omega, by omega⟩⟩
      rw [if_pos covered]
    · rw [BitVec.getLsbD_of_ge old _ (by omega), BitVec.getLsbD_of_ge v _ (by omega), ite_self]
  · simp [hj]

section
variable {s : State} {fn off : Nat} {v : Word} (live : s.live = true) (hfn : fn < s.parts) (h4 : fn < 4)
include live hfn h4

theorem exec_registerWrite (size : Nat) : exec (.registerWrite ⟨fn, false⟩ off size v) s =
    .next (match writeLanes off size v with
      | some (o, m, v) => s.hostContact.writeReg fn o m v
      | none => s.hostContact) := by
  rw [exec, execRegisterWrite, whenFormed_of_formed _ (decide_eq_true h4), whenLive_of_live _ live,
    whenDue_of_due _ (by simp [State.hasFn, hfn])]
  rfl

theorem exec_registerWrite_firmware (size : Nat) (kept : collarReg off = true) :
    exec (.registerWrite ⟨fn, true⟩ off size v) s = .next s.collarClamp := by
  rw [exec, execRegisterWrite, whenFormed_of_formed _ (decide_eq_true h4), whenLive_of_live _ live,
    whenDue_of_due _ (by simp [State.hasFn, hfn, kept])]
  rfl

end

/-- The registers whose write does something of its own. -/
def effectRegs : List Nat := [0x001000, 0x001008, 0x080030, 0x050010, 0x061000, 0x07B000, 0x07C000, 0x080018]

theorem writeOnly_plain {off : Nat} (h : off ∉ effectRegs) (s : State) (v : Word) : s.writeOnly off v = s := by
  simp only [effectRegs, List.mem_cons, List.not_mem_nil, or_false, not_or] at h
  simp [State.writeOnly, h]

/-- A register whose write does nothing of its own: its stored fields are written by a function that may write it. -/
theorem writeReg_plain {s : State} {fn off : Nat} {r : RegRow} {i : Nat} (at_ : regAt off = some (r, i)) (h : off ∉ effectRegs)
    (hb : r.base ≠ 0x038000) (m v : Word) : ∃ order, s.writeReg fn off m v =
      if s.mayWrite fn r i then { s.storeReg (regKey fn off) r.fields m v with power := { s.power with hostOrder := order } } else s := by
  have plain := writeOnly_plain h (s.storeReg (regKey fn off) r.fields m v) v
  simp only [effectRegs, List.mem_cons, List.not_mem_nil, or_false, not_or] at h
  obtain ⟨h0, h8, h30, -⟩ := h
  rw [State.writeReg, if_neg h0, at_]
  cases may : s.mayWrite fn r i
  · exact ⟨false, by simp [may]⟩
  · dsimp only
    rw [may, if_neg (by decide), if_neg h8, if_neg hb, if_neg fun c => h30 c.1, plain]
    split
    · exact ⟨v.getLsbD 0, rfl⟩
    · exact ⟨s.power.hostOrder, rfl⟩

theorem cells_hostContact (s : State) : s.hostContact.cells = s.cells :=
  field_of_hostContact State.cells (fun _ => rfl) (fun _ _ => rfl) (fun _ _ => rfl) s

theorem routes_hostContact (s : State) : s.hostContact.fab.routes = s.fab.routes :=
  field_of_hostContact (fun s => s.fab.routes) (fun _ => rfl) (fun _ _ => rfl) (fun _ _ => rfl) s

/-- A bound of the Collar that has been applied shows in its counter and in the management port only. -/
theorem collarClamp_eq (s : State) : ∃ m, s.collarClamp = { s.bump 45 1 with mgmt := m } := by
  unfold State.collarClamp
  generalize s.bump 45 1 = u
  dsimp only
  split <;> split <;> exact ⟨_, rfl⟩

theorem collarClamp_keeps (s : State) : s.collarClamp.bar = s.bar ∧ s.collarClamp.stg = s.stg ∧ s.collarClamp.aon 45 = s.aon 45 + 1 ∧
    s.collarClamp.cells = s.cells ∧ s.collarClamp.mem = s.mem := by
  obtain ⟨m, clamped⟩ := collarClamp_eq s
  rw [clamped]
  exact ⟨rfl, rfl, aon_bump_self s 45 1, rfl, rfl⟩

theorem registerWrites : Claims.RegisterWrites := by
  intro s fn off v live hfn h4
  obtain ⟨bar, rest⟩ := Prod.mk.inj (setUp_hostContact s)
  obtain ⟨stg, coms⟩ := Prod.mk.inj rest
  refine ⟨fun r i at_ whole other hb => ?_, fun size bad => ?_, fun size kept =>
    ⟨_, exec_registerWrite_firmware live hfn h4 size kept, collarClamp_keeps s⟩⟩
  · have may : s.hostContact.mayWrite fn r i = s.mayWrite fn r i := by
      unfold State.mayWrite State.hostWinPart
      rw [parts_hostContact]
    obtain ⟨order, written⟩ := writeReg_plain (s := s.hostContact) (fn := fn) at_ other hb (BitVec.allOnes 64) v
    have run := exec_registerWrite (off := off) (v := v) live hfn h4 8
    rw [show writeLanes off 8 v = some (off, BitVec.allOnes 64, v) from if_pos ⟨rfl, whole⟩] at run
    dsimp only at run
    rw [written, may] at run
    refine ⟨_, run, fun mine f mem => ?_, fun foreign => ?_, ?_⟩
    · rw [if_pos mine]
      dsimp only [State.storeReg, State.stgW, State.barW]
      rw [Tab.get_set_self, Tab.get_set_self, BitVec.allOnes_and, BitVec.allOnes_and]
      refine ⟨fun acc => bits_blend mem (fun b hb => ?_) _ _, fun acc => bits_blend mem (fun b hb => ?_) _ _, fun b outside => ?_⟩
      · rw [acc] at hb
        rw [BitVec.getLsbD_or, hb, Bool.true_or]
      · rwa [acc] at hb
      · have clear : (accMask r.fields .rw).getLsbD b = false := by
          rw [getLsbD_accMask, Bool.and_eq_false_iff, List.any_eq_false]
          refine .inr fun g hg => ?_
          rw [decide_eq_true_eq]
          rintro ⟨acc, low, high⟩
          have := outside g hg acc
          omega
        show (blend _ _ _).getLsbD b = _
        rw [getLsbD_blend, clear, if_neg Bool.false_ne_true, bar]
        rfl
    · rw [foreign, if_neg Bool.false_ne_true]
      exact ⟨bar, stg⟩
    · split
      · exact cells_hostContact s
      · exact cells_hostContact s
  · have run := exec_registerWrite (off := off) (v := v) live hfn h4 size
    have none : writeLanes off size v = none := by
      rw [writeLanes, if_neg (by rintro ⟨rfl, h⟩; omega), if_neg (by rintro ⟨rfl, h⟩; omega)]
    rw [none] at run
    exact ⟨_, run, bar, stg, coms, routes_hostContact s⟩

/-- Settles O34: a write reaches the bits of the fields that the access names; nothing that a commit brings into effect touches the
registers again, so what it has applied stays staged. -/
theorem hostRegisters : Obligations.HostRegisters :=
  ⟨registerWrites, commits⟩

/-! ### Reads of registers (R327-R329) -/

theorem barRead_other {s : State} {fn off size : Nat} (h : (size ≠ 4 ∧ size ≠ 8) ∨ off % size ≠ 0) : s.barRead fn off size = 0 := by
  rw [State.barRead, if_neg (by rintro ⟨rfl, h⟩; omega), if_neg (by rintro ⟨rfl, h⟩; omega)]

theorem barRead_word {s : State} {fn off : Nat} (h : off % 8 = 0) :
    s.barRead fn off 8 = BitVec.ofNat 64 (s.setUpWord fn off) ||| BitVec.ofNat 64 (s.moduleWord fn off) := if_pos ⟨rfl, h⟩

theorem setUpWord_none {s : State} {fn off : Nat} (h : regAt off = none) : s.setUpWord fn off = 0 := by
  rw [State.setUpWord, h]

theorem rows_end : ∀ r ∈ regRows, r.base + r.stride * (r.count - 1) < 0x90000 := by
  decide +kernel

/-- No block lies between 0x2000 and 0x10000, nor from 0x90000 on. -/
theorem regWord_outside {s : State} {fn off : Nat} (h : (0x2000 ≤ off ∧ off < 0x10000) ∨ 0x90000 ≤ off) : s.regWord fn off = 0 := by
  have none : regAt off = none := by
    obtain ⟨low, high⟩ | far := h
    · exact regAt_none (lo := 0x2000) (hi := 0x10000) (by decide +kernel) low high
    · exact regAt_none (lo := 0x90000) (hi := off + 1) (fun r mem => .inl (rows_end r mem)) far (Nat.lt_succ_self off)
  have zero : s.moduleWord fn off = 0 := by
    unfold State.moduleWord
    split
    · omega
    · omega
    · split <;> omega
  rw [State.regWord, setUpWord_none none, zero]
  rfl

theorem barRead_outside {s : State} {fn off : Nat} (size : Nat) (h : (0x2000 ≤ off ∧ off < 0x10000) ∨ 0x90000 ≤ off) :
    s.barRead fn off size = 0 := by
  rw [State.barRead, regWord_outside h]
  split
  · rfl
  · split
    · rw [regWord_outside (by omega)]
      simp
    · rfl

theorem barRead_low {s : State} {fn off : Nat} (h : off % 8 = 0) : s.barRead fn off 4 = s.barRead fn off 8 &&& 0xFFFFFFFF := by
  have whole : off / 8 * 8 = off := by omega
  rw [State.barRead, State.barRead, if_neg (by omega), if_pos ⟨rfl, by omega⟩, if_pos ⟨rfl, h⟩, whole, h]
  simp

theorem barRead_high {s : State} {fn off : Nat} (h : off % 8 = 0) : s.barRead fn (off + 4) 4 = s.barRead fn off 8 >>> 32 := by
  have whole : (off + 4) / 8 * 8 = off := by omega
  rw [State.barRead, State.barRead, if_neg (by omega), if_pos ⟨rfl, by omega⟩, if_pos ⟨rfl, h⟩, whole,
    show 8 * ((off + 4) % 8) = 32 by omega]
  generalize s.regWord fn off = w
  have low : (w >>> 32).toNat < 2 ^ 32 := by
    rw [BitVec.toNat_ushiftRight, Nat.shiftRight_eq_div_pow]
    exact Nat.div_lt_of_lt_mul w.isLt
  refine BitVec.eq_of_toNat_eq ?_
  rw [BitVec.toNat_and, show (0xFFFFFFFF : Word).toNat = 2 ^ 32 - 1 from rfl, Nat.and_two_pow_sub_one_eq_mod, Nat.mod_eq_of_lt low]

/-- A word of the module alone, at an offset where nothing is set up. -/
theorem barRead_module {s : State} {fn off : Nat} (h : off % 8 = 0) (none : regAt off = none) :
    s.barRead fn off 8 = BitVec.ofNat 64 (s.moduleWord fn off) := by
  rw [barRead_word h, setUpWord_none none]
  simp

theorem nthAt_at {base stride count i : Nat} (pos : 0 < stride) (h : i < count) : nthAt base stride count (base + stride * i) = some i := by
  have place : base + stride * i - base = stride * i := by omega
  rw [nthAt, place, Nat.mul_mod_right, Nat.mul_div_cancel_left _ pos]
  exact if_pos ⟨by omega, rfl, h⟩

theorem barRead_counter (s : State) (fn : Nat) {n : Nat} (h : n < 64) : s.barRead fn (0x070000 + 8 * n) 8 = s.aon n := by
  have none : regAt (0x070000 + 8 * n) = none :=
    regAt_none (lo := 0x070000) (hi := 0x070200) (by decide +kernel) (by omega) (by omega)
  have block : s.moduleWord fn (0x070000 + 8 * n) = s.dbgWord (0x070000 + 8 * n) := by
    rw [State.moduleWord, show (0x070000 + 8 * n) / 0x1000 = 0x70 by omega, show (0x070000 + 8 * n) / 0x10000 = 7 by omega]
    rfl
  rw [barRead_module (by omega) none, block, State.dbgWord, if_neg (by omega), if_neg (by omega), if_neg (by omega), if_neg (by omega),
    nthAt_at (by decide) h]
  exact BitVec.ofNat_toNat ..

theorem barRead_committed (s : State) (fn : Nat) {p : Nat} (h : p < 4) :
    s.barRead fn (0x060200 + 0x10 * p) 8 = BitVec.ofNat 64 (s.epochOf p).committed := by
  have none : regAt (0x060200 + 0x10 * p) = none :=
    regAt_none (lo := 0x060200) (hi := 0x060240) (by decide +kernel) (by omega) (by omega)
  have block : s.moduleWord fn (0x060200 + 0x10 * p) = s.avlWord (0x060200 + 0x10 * p) := by
    rw [State.moduleWord, show (0x060200 + 0x10 * p) / 0x1000 = 0x60 by omega, show (0x060200 + 0x10 * p) / 0x10000 = 6 by omega]
    rfl
  have before : nthAt 0x060108 0x10 4 (0x060200 + 0x10 * p) = .none := if_neg (by omega)
  rw [barRead_module (by omega) none, block, State.avlWord, if_neg (by omega), if_neg (by omega), before]
  dsimp only
  rw [nthAt_at (by decide) h]
  exact BitVec.eq_of_toNat_eq (by simp)

theorem barRead_identity (s : State) {fn : Nat} (h : fn < 4) :
    bits (s.barRead fn 0x10 8).toNat 0 2 = fn ∧ (s.barRead fn 0x00 8).toNat % 2 ^ 16 = 0x4820 := by
  have mode : s.moduleWord fn 0x10 = packW [(0, 2, fn), (2, 2, min s.boot.modeNow 2)] := rfl
  have name : s.moduleWord fn 0x00 = packW [(0, 16, 0x4820), (16, 4, Config.stepping.toNat)] := rfl
  rw [barRead_module (by decide) (by decide +kernel), barRead_module (by decide) (by decide +kernel), mode, name]
  simp only [packW_cons, packW_nil, BitVec.toNat_ofNat, bits]
  generalize Config.stepping.toNat = k
  omega

/-- Settles O35: each part of a word that a read returns comes from one field or one register, and no two fields of a register
overlap. -/
theorem registerReads : Obligations.RegisterReads := by
  refine ⟨fun s fn off size => ⟨barRead_other, barRead_outside size, fun h => ⟨barRead_low h, barRead_high h, barRead_word h⟩,
      fun r i at_ f mem => ⟨fun acc => ?_, bits_setUpWord_rw s fn at_ mem⟩⟩,
    fun s fn off live hfn h4 up idle => ?_, fun s fn n h => barRead_counter s fn h, fun s fn p h => barRead_committed s fn h,
    fun s fn h => barRead_identity s h⟩
  · rw [bits_setUpWord_rwc s fn at_ mem acc]
    simp only [beq_iff_eq]
  · have idle' : (s.hostContact.commitOf fn).busy = false := by rw [commitOf_setUp (setUp_hostContact s) fn, idle]
    obtain ⟨-, staged⟩ := requestCommit_commits idle'
    refine ⟨_, exec_cfgCommit live hfn h4 up, fun r i at_ mine f mem acc => ?_⟩
    obtain ⟨o, mine⟩ := mine
    rw [bits_setUpWord_rwc _ fn at_ mem acc]
    split
    · rfl
    · have kept := staged (regKey fn off, o) (by rwa [commitRegs_congr (parts_hostContact s)])
      rw [kept]

end Sys2Proof.Machine

/-!
PROOFS. Watched lines, doorbells and intake of the rings (O36).
-/

namespace Sys2Proof.Machine

/-! ### Rings, watched lines and drip queues as tables -/

theorem ring_setRing_self (s : State) (p i : Nat) (r : Ring) : (s.setRing p i r).ring p i = r := Tab.get_set_self _ _ _ _

theorem ring_setRing_other (s : State) {p i j : Nat} (r : Ring) (h : j ≠ i) : (s.setRing p i r).ring p j = s.ring p j :=
  Tab.get_set_other _ _ _ _ _ (by omega)

theorem watch_setWatch_self (s : State) (p l : Nat) (w : Watch) : (s.setWatch p l w).watch p l = w := Tab.get_set_self _ _ _ _

theorem watch_setWatch_other (s : State) {p l q m : Nat} (w : Watch) (hl : l < 8) (hm : m < 8) (h : (q, m) ≠ (p, l)) :
    (s.setWatch p l w).watch q m = s.watch q m := by
  refine Tab.get_set_other _ _ _ _ _ fun e => h ?_
  rw [Prod.mk.injEq]
  omega

theorem drip_setDrip_self (s : State) (k : Nat) (d : Drip) : (s.setDrip k d).drip k = d := Tab.get_set_self _ _ _ _

theorem rep_of_reps {s t : State} (h : t.reps = s.reps) (p : Nat) : t.rep p = s.rep p := by
  unfold State.rep
  rw [h]

theorem rep_setRep_self (s : State) (p : Nat) (r : RepRing) : (s.setRep p r).rep p = r := Tab.get_set_self _ _ _ _

/-! ### Re-reads of watched lines (R343) -/

theorem watch_reread_self (s : State) (p l : Nat) :
    (s.reread p l false).watch p l = if (s.watch p l).out then s.watch p l else { s.watch p l with out := true } := by
  unfold State.reread
  dsimp only
  rw [watch_setWatch_self, Bool.or_false]

theorem watch_reread_other (s : State) {p l q m : Nat} (hl : l < 8) (hm : m < 8) (h : (q, m) ≠ (p, l)) :
    (s.reread p l false).watch q m = s.watch q m :=
  watch_setWatch_other s _ hl hm h

/-- The re-read of every line of a list begins: once in a list is as good as many times. -/
theorem watch_rereads {q m : Nat} (hm : m < 8) : ∀ (L : List (Nat × Nat)) (s : State), (∀ e ∈ L, e.2 < 8) →
    (foldS (fun t e => t.reread e.1 e.2 false) s L).watch q m =
      if L.contains (q, m) && !(s.watch q m).out then { s.watch q m with out := true } else s.watch q m
  | [], _, _ => rfl
  | (p, l) :: L, s, small => by
    have ih := watch_rereads (q := q) hm L (s.reread p l false) fun e he => small e (List.mem_cons_of_mem _ he)
    refine ih.trans ?_
    by_cases h : (q, m) = (p, l)
    · obtain ⟨rfl, rfl⟩ := Prod.mk.injEq .. ▸ h
      rw [watch_reread_self]
      cases out : (s.watch q m).out <;> simp [out]
    · rw [watch_reread_other s (small (p, l) List.mem_cons_self) hm h]
      simp [h]

/-- The beginning of re-reads changes nothing but the watched lines. -/
theorem rereads_only (L : List (Nat × Nat)) (s : State) :
    foldS (fun t e => t.reread e.1 e.2 false) s L =
      { s with watches := (foldS (fun t e => t.reread e.1 e.2 false) s L).watches } := by
  generalize ht : foldS (fun t e => t.reread e.1 e.2 false) s L = t
  have kept : { t with watches := [] } = { s with watches := [] } :=
    ht ▸ foldS_keeps (fun u : State => { u with watches := [] }) (f := fun t e => t.reread e.1 e.2 false) (fun _ _ => rfl) L s
  exact congrArg (fun u : State => { u with watches := t.watches }) kept

theorem mem_watchList {s : State} {p l : Nat} : (p, l) ∈ s.watchList ↔ p < s.parts ∧ l < 5 := by
  simp [State.watchList]

/-! ### Contact, failed reads and counts of reads -/

/-- What neither reports nor the marks of a contact show in. -/
theorem ReportInert.hostContact {β : Type} {g : State → β} (hg : ReportInert g) (mgmt : ∀ s m, g { s with mgmt := m } = g s)
    (hold : ∀ s b, g { s with power := { s.power with hold := b } } = g s) (s : State) : g s.hostContact = g s := by
  refine Eq.trans ?_ (mgmt s { s.mgmt with lastHost := s.now })
  unfold State.hostContact
  generalize { s with mgmt := { s.mgmt with lastHost := s.now } } = u
  unfold State.setHold
  split
  · rfl
  · have noted : g (State.mEvent { u with power := { u.power with hold := false } } 9 0) = g u := (mgmt ..).trans (hold ..)
    dsimp only
    split
    · exact (hg.reportAll ..).trans noted
    · exact noted

/-- The rings, the watched lines, the commands and the set-up registers. -/
def State.intakeSide (s : State) : Tab Ring × Tab Watch × List Cmd × Tab Word := (s.rings, s.watches, s.cmds, s.bar)

theorem intakeSide_reportInert : ReportInert State.intakeSide :=
  ⟨fun _ _ _ => rfl, fun _ _ _ => rfl, fun _ _ => rfl, fun _ _ _ _ => rfl, fun _ _ _ => rfl, fun _ _ _ => rfl, fun _ _ _ _ => rfl,
    fun _ _ _ _ _ => rfl, fun _ _ _ => rfl⟩

theorem intakeSide_escalate (s : State) (p r j d : Nat) : (s.escalate p r j d).intakeSide = s.intakeSide :=
  intakeSide_reportInert.escalate (fun _ _ => rfl) ..

theorem intakeSide_hostContact (s : State) : s.hostContact.intakeSide = s.intakeSide :=
  intakeSide_reportInert.hostContact (fun _ _ => rfl) (fun _ _ => rfl) s

theorem ring_of_intakeSide {s t : State} (h : t.intakeSide = s.intakeSide) (p i : Nat) : t.ring p i = s.ring p i := by
  unfold State.ring
  rw [show t.rings = s.rings from congrArg Prod.fst h]

theorem watch_of_intakeSide {s t : State} (h : t.intakeSide = s.intakeSide) (p l : Nat) : t.watch p l = s.watch p l := by
  unfold State.watch
  rw [show t.watches = s.watches from congrArg (fun x => x.2.1) h]

theorem cmds_of_intakeSide {s t : State} (h : t.intakeSide = s.intakeSide) : t.cmds = s.cmds := congrArg (fun x => x.2.2.1) h

theorem aon47_escalate (s : State) (p r j d : Nat) : (s.escalate p r j d).aon 47 = s.aon 47 + 1 := by
  have inert := aon_reportInert (k := 47) (by decide)
  exact (inert.relayReport ..).trans ((aon_bump_self ..).trans (congrArg (· + 1) (inert.report ..)))

theorem aon47_hostContact (s : State) : s.hostContact.aon 47 = s.aon 47 :=
  (aon_reportInert (k := 47) (by decide)).hostContact (fun _ _ => rfl) (fun _ _ => rfl) s

/-- A failed read leaves rings, watched lines and commands alone. -/
theorem intakeSide_readFailed (s : State) (p off : Nat) (f : ReadFail) : (s.readFailed p off f).intakeSide = s.intakeSide := by
  cases f with
  | unsupported => exact intakeSide_escalate ..
  | timeout => exact intakeSide_escalate ..
  | poisoned => rfl

/-- A failed read of the far tier is counted as an uncorrectable error where its data are poisoned, else reported (R228). -/
theorem aon_readFailed (s : State) (p off : Nat) (f : ReadFail) :
    (f = .poisoned → (s.readFailed p off f).aon 49 = s.aon 49 + 1) ∧ (f ≠ .poisoned → (s.readFailed p off f).aon 47 = s.aon 47 + 1) := by
  refine ⟨?_, fun h => ?_⟩
  · rintro rfl
    exact aon_bump_self ..
  · cases f with
    | unsupported => exact aon47_escalate ..
    | timeout => exact aon47_escalate ..
    | poisoned => exact absurd rfl h

/-- What does not show the counts of far and host accesses, a count of a read leaves as it was. -/
theorem field_of_countRead {β : Type} (g : State → β) (count : ∀ s n k, n = 59 ∨ n = 61 → g (s.bump n k) = g s)
    (part : ∀ s p c k, g (s.bumpPart p c k) = g s) (s : State) (p a n : Nat) : g (s.countRead p a n) = g s := by
  unfold State.countRead
  split
  · exact (part ..).trans (count _ 59 _ (.inl rfl))
  · split
    · exact count _ 61 _ (.inr rfl)
    · rfl

theorem intakeSide_countRead (s : State) (p a n : Nat) : (s.countRead p a n).intakeSide = s.intakeSide :=
  field_of_countRead _ (fun _ _ _ _ => rfl) (fun _ _ _ _ => rfl) ..

theorem aon47_countRead (s : State) (p a n : Nat) : (s.countRead p a n).aon 47 = s.aon 47 :=
  field_of_countRead (fun s => s.aon 47) (fun s n k h => aon_bump_other (by omega) s k) (fun _ _ _ _ => rfl) ..

/-! ### Data of a watched line (R343, R345) -/

theorem watch_returned (s : State) (p l : Nat) (first : Bool) (data : BitVec 512) :
    (s.returned p l first data).watch p l = if first then { last := data, out := (s.watch p l).again, again := false }
      else { s.watch p l with last := data } :=
  watch_setWatch_self ..

/-- Taking a slot leaves the watched lines and the commands alone. -/
theorem watch_takeSlot (s : State) (p i v q l : Nat) : (s.takeSlot p i v).watch q l = s.watch q l := by
  unfold State.takeSlot
  dsimp only
  split
  · rfl
  · split
    · rfl
    · exact watch_of_intakeSide (intakeSide_escalate ..) ..

theorem cmds_takeSlot (s : State) (p i v : Nat) : (s.takeSlot p i v).cmds = s.cmds := by
  unfold State.takeSlot
  dsimp only
  split
  · rfl
  · split
    · rfl
    · exact (cmds_of_intakeSide (intakeSide_escalate ..)).trans rfl

theorem ring_takeSlot_other (s : State) {p i j : Nat} (v : Nat) (h : j ≠ i) : (s.takeSlot p i v).ring p j = s.ring p j := by
  unfold State.takeSlot
  dsimp only
  split
  · exact ring_setRing_other s _ h
  · split
    · rfl
    · exact (ring_of_intakeSide (intakeSide_escalate ..) ..).trans (ring_setRing_other s _ h)

/-- A slot that keeps the conditions of R345 moves the tail. -/
theorem ring_takeSlot_good {s : State} {p i v : Nat} (good : s.slotGood p i v = true) :
    (s.takeSlot p i v).ring p i = { s.ring p i with tail := v % 2 ^ 16, tailWrap := bit v 16, bad := false } := by
  unfold State.takeSlot
  dsimp only
  rw [if_pos good]
  exact ring_setRing_self ..

/-- The first slot that breaks them is reported. -/
theorem takeSlot_reported {s : State} {p i v : Nat} (wrong : s.slotGood p i v = false) (fresh : (s.ring p i).bad = false) :
    (s.takeSlot p i v).ring p i = { s.ring p i with bad := true } ∧ (s.takeSlot p i v).aon 47 = s.aon 47 + 1 := by
  have eq : s.takeSlot p i v = (s.setRing p i { s.ring p i with bad := true }).escalate p 6 i v := by
    unfold State.takeSlot
    simp only [wrong, fresh, Bool.false_eq_true, if_false]
  rw [eq]
  exact ⟨(ring_of_intakeSide (intakeSide_escalate ..) ..).trans (ring_setRing_self ..), aon47_escalate ..⟩

/-- The next ones are ignored. -/
theorem takeSlot_ignored {s : State} {p i v : Nat} (wrong : s.slotGood p i v = false) (known : (s.ring p i).bad = true) :
    s.takeSlot p i v = s := by
  unfold State.takeSlot
  simp only [wrong, known, Bool.false_eq_true, if_false, if_true]

/-- The state that takes a slot of a doorbell line: contact is made, and the line's data have come. -/
def State.slotCame (s : State) (p i : Nat) (v : Nat) (first : Bool) : State :=
  let w := s.watch p (i / 16)
  let s1 := if bits w.last.toNat (32 * (i % 16)) 32 = v then s else s.hostContact
  let s2 := s1.returned p (i / 16) first (putSlot w.last (i % 16) v)
  if first then s2.countRead p (s.watchAddr p (i / 16)) 64 else s2

section
variable {s : State} {p i : Nat} {v : BitVec 32} {first : Bool}

/-- A part of the state that neither contact, nor a line's data, nor the count of a read changes. -/
theorem field_of_slotCame {β : Type} (g : State → β) (contact : ∀ s, g s.hostContact = g s)
    (watch : ∀ s w, g { s with watches := w } = g s) (count : ∀ s p a n, g (State.countRead s p a n) = g s) (s : State) (p i v : Nat)
    (first : Bool) : g (s.slotCame p i v first) = g s := by
  unfold State.slotCame
  dsimp only
  have start : g (if bits (s.watch p (i / 16)).last.toNat (32 * (i % 16)) 32 = v then s else s.hostContact) = g s := by
    split
    · rfl
    · exact contact s
  split
  · exact (count ..).trans ((watch ..).trans start)
  · exact (watch ..).trans start

theorem rings_slotCame (s : State) (p i v : Nat) (first : Bool) : (s.slotCame p i v first).rings = s.rings :=
  field_of_slotCame State.rings (fun _ => congrArg Prod.fst (intakeSide_hostContact _)) (fun _ _ => rfl)
    (fun _ _ _ _ => congrArg Prod.fst (intakeSide_countRead ..)) ..

theorem bar_slotCame (s : State) (p i v : Nat) (first : Bool) : (s.slotCame p i v first).bar = s.bar :=
  field_of_slotCame State.bar (fun _ => congrArg (fun x => x.2.2.2) (intakeSide_hostContact _)) (fun _ _ => rfl)
    (fun _ _ _ _ => congrArg (fun x => x.2.2.2) (intakeSide_countRead ..)) ..

theorem cmds_slotCame (s : State) (p i v : Nat) (first : Bool) : (s.slotCame p i v first).cmds = s.cmds :=
  field_of_slotCame State.cmds (fun _ => cmds_of_intakeSide (intakeSide_hostContact _)) (fun _ _ => rfl)
    (fun _ _ _ _ => cmds_of_intakeSide (intakeSide_countRead ..)) ..

theorem aon47_slotCame (s : State) (p i v : Nat) (first : Bool) : (s.slotCame p i v first).aon 47 = s.aon 47 :=
  field_of_slotCame (fun s => s.aon 47) aon47_hostContact (fun _ _ => rfl) aon47_countRead ..

theorem watch_slotCame (s : State) (p i v : Nat) (first : Bool) :
    (s.slotCame p i v first).watch p (i / 16) = if first then
        { last := putSlot (s.watch p (i / 16)).last (i % 16) v, out := (s.watch p (i / 16)).again, again := false }
      else { s.watch p (i / 16) with last := putSlot (s.watch p (i / 16)).last (i % 16) v } := by
  unfold State.slotCame
  dsimp only
  have start : (if bits (s.watch p (i / 16)).last.toNat (32 * (i % 16)) 32 = v then s else s.hostContact).watch p (i / 16) =
      s.watch p (i / 16) := by
    split
    · rfl
    · exact watch_of_intakeSide (intakeSide_hostContact s) ..
  cases first
  · exact (watch_returned ..).trans (by rw [start])
  · exact (watch_of_intakeSide (intakeSide_countRead ..) ..).trans ((watch_returned ..).trans (by rw [start]))

theorem ring_slotCame (s : State) (p i v : Nat) (first : Bool) (j : Nat) : (s.slotCame p i v first).ring p j = s.ring p j := by
  unfold State.ring
  rw [rings_slotCame]

theorem slotGood_slotCame (s : State) (p i v : Nat) (first : Bool) (w : Nat) :
    (s.slotCame p i v first).slotGood p i w = s.slotGood p i w := by
  unfold State.slotGood State.ringLog State.barF State.barW
  dsimp only
  rw [ring_slotCame, bar_slotCame]

end

/-! ### DOORBELL_UPDATE -/

section
variable {s : State} {p i : Nat} {v : BitVec 32} {first : Bool} (live : s.live = true) (hp : p < 4) (part : p < s.parts) (hi : i < 64)
  (active : (s.ring p i).active = true) (readable : s.lineReadable p (i / 16) = true)
include live hp part hi active readable

theorem exec_doorbellUpdate (slot : SlotRead) : exec (.doorbellUpdate p i slot) s = whenAwake s p (match slot.fail with
    | some f => whenDue (s.watchAddr p (i / 16) / 2 ^ 60 == 2) <| .next (s.lineFailed p (i / 16) f)
    | none => .next ((s.slotCame p i slot.value.toNat slot.first).takeSlot p i slot.value.toNat)) := by
  rw [exec, execDoorbellUpdate, whenFormed_of_formed _ (by simp [hp, hi]), whenLive_of_live _ live,
    whenDue_of_due _ (by simp [State.hasFn, part, active, readable])]
  rfl

theorem exec_doorbellUpdate_taken (awake : s.awake p = true) : exec (.doorbellUpdate p i ⟨v, first, none⟩) s =
    .next ((s.slotCame p i v.toNat first).takeSlot p i v.toNat) := by
  rw [exec_doorbellUpdate live hp part hi active readable, whenAwake, if_pos awake]

/-- A slot comes while its partition is awake. -/
theorem doorbellUpdate_taken (awake : s.awake p = true) : ∃ t, exec (.doorbellUpdate p i ⟨v, first, none⟩) s = .next t ∧
    (first = true → (t.watch p (i / 16)).out = (s.watch p (i / 16)).again ∧ (t.watch p (i / 16)).again = false) ∧
    (first = false → (t.watch p (i / 16)).out = (s.watch p (i / 16)).out ∧
      (t.watch p (i / 16)).again = (s.watch p (i / 16)).again) := by
  refine ⟨_, exec_doorbellUpdate_taken live hp part hi active readable awake, ?_⟩
  rw [watch_takeSlot, watch_slotCame]
  cases first <;> simp

/-- A re-read from a far window fails. -/
theorem doorbellUpdate_failed (awake : s.awake p = true) (f : ReadFail) (far : s.watchAddr p (i / 16) / 2 ^ 60 = 2) :
    ∃ t, exec (.doorbellUpdate p i ⟨v, first, some f⟩) s = .next t ∧
      t.watch p (i / 16) = { last := (s.watch p (i / 16)).last, out := (s.watch p (i / 16)).again, again := false } ∧
      (∀ j, t.ring p j = s.ring p j) ∧ (f = .poisoned → t.aon 49 = s.aon 49 + 1) ∧ (f ≠ .poisoned → t.aon 47 = s.aon 47 + 1) := by
  refine ⟨s.lineFailed p (i / 16) f, ?_, ?_, fun j => ?_, ?_⟩
  · rw [exec_doorbellUpdate live hp part hi active readable, whenAwake, if_pos awake]
    exact whenDue_of_due _ (beq_iff_eq.mpr far)
  · exact (watch_of_intakeSide (intakeSide_readFailed ..) ..).trans ((watch_returned ..).trans (if_pos rfl))
  · exact (ring_of_intakeSide (intakeSide_readFailed ..) ..).trans rfl
  · exact aon_readFailed ..

end

theorem slotGood_iff (s : State) (p i v : Nat) : s.slotGood p i v = true ↔ v % 2 ^ 16 < 2 ^ s.ringLog p i ∧ v < 2 ^ 17 ∧
    ahead (s.ringLog p i) (s.ring p i).head (s.ring p i).headWrap (v % 2 ^ 16) (bit v 16) ≤ 2 ^ s.ringLog p i := by
  simp only [State.slotGood, slotOk, Bool.and_eq_true, decide_eq_true_eq, and_assoc]

theorem watchedLines : Claims.WatchedLines := by
  refine ⟨fun s p l live hp part hl watched => ?_, fun s live => ?_, fun s p live hp part => ?_,
    fun s p i v first live hp part hi active readable => ?_⟩
  · rw [exec, execWatchedLineInvalidation, whenFormed_of_formed _ (by simp [hp]), whenLive_of_live _ live,
      whenDue_of_due _ (by simp [part, hl, watched])]
    unfold State.reread
    simp only [Bool.or_true]
  · refine ⟨_, by rw [exec, execWatchedLinePoll, whenLive_of_live _ live], rereads_only .., fun p l hp hl => ?_⟩
    rw [watch_rereads (by omega) _ _ fun e he => ?_]
    · congr 1
      have mem := mem_watchList.mpr ⟨hp, hl⟩
      rw [show (s.watchList.filter fun e => s.hostWatch e.1 e.2).contains (p, l) = s.hostWatch p l from
        Bool.eq_iff_iff.mpr (by simp [mem])]
    · have := (mem_watchList.mp (List.mem_filter.mp he).1).2
      omega
  · refine ⟨foldS (fun t e => t.reread e.1 e.2 false) s
      (((List.range 5).filter fun l => s.watched p l && s.watchAddr p l / 2 ^ 60 == 2).map fun l => (p, l)), ?_, rereads_only ..,
      fun l hl => ?_⟩
    · rw [exec, execFarLinePoll, whenFormed_of_formed _ (by simp [hp]), whenLive_of_live _ live, whenDue_of_due _ (by simp [part])]
      unfold foldS
      rw [List.foldl_map]
    · rw [watch_rereads (by omega) _ _ fun e he => ?_]
      · congr 1
        rw [show (((List.range 5).filter fun l => s.watched p l && s.watchAddr p l / 2 ^ 60 == 2).map fun l => (p, l)).contains (p, l) =
          (s.watched p l && s.watchAddr p l / 2 ^ 60 == 2) from Bool.eq_iff_iff.mpr (by simp [hl])]
      · obtain ⟨l, small, rfl⟩ := List.mem_map.mp he
        have := List.mem_range.mp (List.mem_filter.mp small).1
        dsimp only
        omega
  · intro w
    refine ⟨fun asleep => ?_, fun awake =>
      ⟨doorbellUpdate_taken live hp part hi active readable awake, doorbellUpdate_failed live hp part hi active readable awake⟩⟩
    rw [exec_doorbellUpdate live hp part hi active readable, whenAwake, if_neg (by simp [asleep])]

/-! ### Report lines (R340) -/

/-- What a report leaves of its ring: where the host has read to, and whether a value of the report line was wrong. -/
def RepRing.line (r : RepRing) : Nat × Bool × Bool := (r.head, r.headWrap, r.bad)

/-- What takes part in a report but the ring itself leaves the report rings alone. -/
theorem reps_farWrite (s : State) (o : Owner) (e p off key : Nat) (bs : List Byte) : (s.farWrite o e p off key bs).reps = s.reps :=
  foldS_keeps State.reps (f := fun t _ => t.pushFar _) (fun _ _ => rfl) _ _

theorem reps_ringWrite (s : State) (o : Owner) (p a : Nat) (bs : List Byte) : (s.ringWrite o p a bs).reps = s.reps := by
  unfold State.ringWrite
  split
  · split
    · rfl
    · exact reps_farWrite ..
  · exact reps_farWrite ..
  · rfl

theorem reps_linWrite (s : State) (o : Owner) (p off : Nat) (bs : List Byte) : (s.linWrite o p off bs).reps = s.reps := by
  unfold State.linWrite
  split
  · exact reps_farWrite ..
  · rfl

theorem reps_requestBoundary (s : State) (p : Nat) (u : Bool) : (s.requestBoundary p u).reps = s.reps := by
  unfold State.requestBoundary
  split
  · rfl
  · split <;> rfl

theorem reps_appendEffect (s : State) (p kd o r f : Nat) (v : Word) : (s.appendEffect p kd o r f v).reps = s.reps := by
  unfold State.appendEffect
  split
  · dsimp only
    split
    · exact (reps_requestBoundary ..).trans (reps_linWrite ..)
    · exact reps_linWrite ..
  · rfl

theorem reps_trace (s : State) (ty p src a b c : Nat) : (s.trace ty p src a b c).reps = s.reps := by
  unfold State.trace
  split
  · split <;> rfl
  · rfl

theorem reps_relayReport (s : State) (ty b : Nat) : (s.relayReport ty b).reps = s.reps := by
  unfold State.relayReport
  split
  · rfl
  · split <;> rfl

theorem line_writeReport (s : State) (p : Nat) (r : Report) : ((s.writeReport p r).rep p).line = (s.rep p).line := by
  unfold State.writeReport
  dsimp only
  rw [rep_of_reps (reps_appendEffect ..), rep_setRep_self]
  rfl

theorem line_report (s : State) (p ty r j b : Nat) : ((s.report p ty r j b).rep p).line = (s.rep p).line := by
  unfold State.report
  dsimp only
  split
  · rw [line_writeReport, rep_of_reps (reps_trace ..)]
  · split
    · rw [rep_setRep_self]
      rfl
    · rw [rep_setRep_self]
      rfl

theorem line_escalate (s : State) (p r j d : Nat) : ((s.escalate p r j d).rep p).line = (s.rep p).line := by
  unfold State.escalate
  dsimp only
  rw [rep_of_reps (reps_relayReport ..)]
  exact line_report ..

theorem flushReports_none {s : State} {p : Nat} (h : (s.rep p).held = []) : s.flushReports p = s := by
  unfold State.flushReports
  rw [h]
  rfl

/-- The state in which a report line is looked at: its data have come. -/
def State.lineCame (s : State) (p : Nat) (line : BitVec 512) : State :=
  (s.returned p repWatch true line).countRead p (s.watchAddr p repWatch) 64

theorem rep_lineCame (s : State) (p : Nat) (line : BitVec 512) : (s.lineCame p line).rep p = s.rep p :=
  (rep_of_reps (field_of_countRead State.reps (fun _ _ _ _ => rfl) (fun _ _ _ _ => rfl) ..) p).trans rfl

theorem aon47_lineCame (s : State) (p : Nat) (line : BitVec 512) : (s.lineCame p line).aon 47 = s.aon 47 := aon47_countRead ..

section
variable {s : State} {p : Nat} {line : BitVec 512} (live : s.live = true) (hp : p < 4) (part : p < s.parts)
  (readable : s.lineReadable p 4 = true)
include live hp part readable

theorem exec_reportLineUpdate : exec (.reportLineUpdate p ⟨line, none⟩) s = .next (
    if s.headGood p line.toNat then ((s.lineCame p line).setRep p { s.rep p with
      head := line.toNat % 2 ^ 16, headWrap := bit line.toNat 16, bad := false }).flushReports p
    else if (s.rep p).bad then s.lineCame p line
    else ((s.lineCame p line).setRep p { s.rep p with bad := true }).escalate p 9 p (line.toNat % 2 ^ 32)) := by
  rw [exec, execReportLineUpdate, whenFormed_of_formed _ (by simp [hp]), whenLive_of_live _ live,
    whenDue_of_due _ (by simp [State.hasFn, part, repWatch, readable])]
  rw [← rep_lineCame s p line]
  rfl

theorem reportLineUpdate (held : (s.rep p).held = []) : ∃ t, exec (.reportLineUpdate p ⟨line, none⟩) s = .next t ∧
    (s.headGood p line.toNat = true →
      t.rep p = { s.rep p with head := line.toNat % 2 ^ 16, headWrap := bit line.toNat 16, bad := false }) ∧
    (s.headGood p line.toNat = false → (t.rep p).head = (s.rep p).head ∧ (t.rep p).headWrap = (s.rep p).headWrap ∧
      (t.rep p).bad = true ∧ t.aon 47 = s.aon 47 + if (s.rep p).bad then 0 else 1) := by
  refine ⟨_, exec_reportLineUpdate live hp part readable, fun good => ?_, fun wrong => ?_⟩
  · rw [if_pos good, flushReports_none (by rw [rep_setRep_self]; exact held), rep_setRep_self]
  · rw [if_neg (by simp [wrong])]
    cases known : (s.rep p).bad
    · have kept := (line_escalate ((s.lineCame p line).setRep p { s.rep p with bad := true }) p 9 p (line.toNat % 2 ^ 32)).trans
        (congrArg RepRing.line (rep_setRep_self ..))
      simp only [RepRing.line, Prod.mk.injEq] at kept
      obtain ⟨head, wrap, bad⟩ := kept
      exact ⟨head, wrap, bad, (aon47_escalate ..).trans (congrArg (· + 1) (aon47_lineCame s p line))⟩
    · rw [if_pos rfl, rep_lineCame]
      exact ⟨rfl, rfl, known, (aon47_lineCame s p line).trans (by simp)⟩

end

theorem doorbells : Claims.Doorbells := by
  refine ⟨?_, fun s p line live hp part readable held => reportLineUpdate live hp part readable held⟩
  intro s p i v first live hp part hi active readable awake r k tail wrap good
  have iff : good ↔ (s.slotCame p i v.toNat first).slotGood p i v.toNat = true := by
    rw [slotGood_slotCame]
    exact (slotGood_iff s p i v.toNat).symm
  refine ⟨_, exec_doorbellUpdate_taken live hp part hi active readable awake,
    fun j _ hj => (ring_takeSlot_other _ _ hj).trans (ring_slotCame ..), fun h => ?_, fun h fresh => ?_, fun h known => ?_,
    (cmds_takeSlot ..).trans (cmds_slotCame ..)⟩
  · rw [ring_takeSlot_good (iff.mp h), ring_slotCame]
  · have wrong := Bool.eq_false_iff.mpr fun c => h (iff.mpr c)
    obtain ⟨ring, count⟩ := takeSlot_reported wrong (by rw [ring_slotCame]; exact fresh)
    exact ⟨ring.trans (by rw [ring_slotCame]), count.trans (by rw [aon47_slotCame])⟩
  · have wrong := Bool.eq_false_iff.mpr fun c => h (iff.mpr c)
    rw [takeSlot_ignored wrong (by rw [ring_slotCame]; exact known)]
    exact ⟨ring_slotCame .., aon47_slotCame ..⟩

/-! ### Intake (R349, R350) -/

/-- The state in which an entry is taken in: what can be sent to the far tier has been, and the read of the entry is counted. -/
def State.entryCame (s : State) (p i : Nat) : State :=
  (State.countRead { s.sendFar with farTurn := (p + 1) % 4 } p (s.entryAddr p i) 128)

/-- What does not show the far requests, sending them leaves as it was. -/
theorem field_of_sendFar {β : Type} (g : State → β) (far : ∀ s f k, g { s with far := f, farTurn := k } = g s) (s : State) :
    g s.sendFar = g s := by
  refine foldS_keeps g (f := fun t _ => t.sendOne) (fun s _ => ?_) _ _
  unfold State.sendOne
  split
  · rfl
  · split
    · exact far ..
    · rfl

/-- Sending far requests and counting a read changes the requests and the counters only. -/
theorem entryCame_eq (s : State) (p i : Nat) :
    ∃ f k d, s.entryCame p i = { s with far := f, farTurn := k, dbg := d } := by
  generalize ht : s.entryCame p i = t
  refine ⟨t.far, t.farTurn, t.dbg, ?_⟩
  let rest : State → State := fun u => { u with far := [], farTurn := 0, dbg := s.dbg }
  have kept : rest t = rest s := by
    subst ht
    exact (field_of_countRead rest (fun _ _ _ _ => rfl) (fun _ _ _ _ => rfl) ..).trans
      (show rest s.sendFar = rest s from field_of_sendFar rest (fun _ _ _ => rfl) s)
  exact congrArg (fun u : State => { u with far := t.far, farTurn := t.farTurn, dbg := t.dbg }) kept

/-- An item that enters a drip queue is its last. -/
theorem push_items (q : Drip) (id : Nat) : (q.push id).stages ++ (q.push id).overflow = q.stages ++ q.overflow ++ [id] := by
  unfold Drip.push
  split
  next h => simp [h.2]
  next => simp

theorem advanceRead_eq (s : State) (p i : Nat) : s.advanceRead p i = (s.setRing p i { s.ring p i with
    rd := (s.nextEntry p i (s.ring p i).rd (s.ring p i).rdWrap).1,
    rdWrap := (s.nextEntry p i (s.ring p i).rd (s.ring p i).rdWrap).2 }).endSweep p (s.procOf p i) := rfl

/-- The end of a sweep shows in the turn of the drip queue only. -/
theorem field_of_endSweep {β : Type} (g : State → β) (drip : ∀ s k q, g (State.setDrip s k q) = g s) (s : State) (p k : Nat) :
    g (s.endSweep p k) = g s := by
  unfold State.endSweep
  split
  · exact drip ..
  · rfl

theorem items_endSweep (s : State) (p k : Nat) :
    ((s.endSweep p k).drip k).stages ++ ((s.endSweep p k).drip k).overflow = (s.drip k).stages ++ (s.drip k).overflow := by
  unfold State.endSweep
  split
  · rw [drip_setDrip_self]
  · rfl

/-- What is left when a command is let in and its ring's reading place moves on. -/
theorem letIn_advanceRead (s : State) (p i : Nat) (c : Cmd) (hp : c.part = p) (hi : c.ring = i) :
    ((s.letIn c).advanceRead p i).cmds = s.cmds ++ [c] ∧ ((s.letIn c).advanceRead p i).nextId = s.nextId + 1 ∧
    ((s.letIn c).advanceRead p i).epochs = s.epochs ∧
    ((s.letIn c).advanceRead p i).ring p i = { s.ring p i with
      rd := (s.nextEntry p i (s.ring p i).rd (s.ring p i).rdWrap).1,
      rdWrap := (s.nextEntry p i (s.ring p i).rd (s.ring p i).rdWrap).2 } ∧
    (((s.letIn c).advanceRead p i).drip (s.procOf p i)).stages ++ (((s.letIn c).advanceRead p i).drip (s.procOf p i)).overflow =
      (s.drip (s.procOf p i)).stages ++ (s.drip (s.procOf p i)).overflow ++ [c.id] := by
  subst hp hi
  rw [advanceRead_eq]
  refine ⟨field_of_endSweep State.cmds (fun _ _ _ => rfl) .., field_of_endSweep State.nextId (fun _ _ _ => rfl) ..,
    field_of_endSweep State.epochs (fun _ _ _ => rfl) .., ?_, ?_⟩
  · exact (field_of_endSweep (fun t => t.ring c.part c.ring) (fun _ _ _ => rfl) ..).trans (ring_setRing_self ..)
  · refine (items_endSweep ..).trans ?_
    show ((s.letIn c).drip (s.procOf c.part c.ring)).stages ++ ((s.letIn c).drip (s.procOf c.part c.ring)).overflow = _
    unfold State.letIn
    dsimp only
    rw [drip_setDrip_self]
    exact push_items ..

section
variable {s : State} {p i : Nat} {desc : BitVec 1024} (live : s.live = true) (hp : p < 4) (hi : i < 64)
include live hp hi

/-- While anything holds intake, no entry is taken in (R29, R471, R512, R530). -/
theorem entryIntake_held (read : EntryRead) (held : s.intakes p = false) : exec (.entryIntake p i read) s = .refused .notDue := by
  rw [exec, execEntryIntake, whenFormed_of_formed _ (by simp [hp, hi]), whenLive_of_live _ live, whenDue_of_not _ (by simp [held])]

variable (part : p < s.parts) (intakes : s.intakes p = true)
  (room : (s.drip (s.procOf p i)).overflow.length < 4096) (normal : (s.epochOf p).recStep = 0)
  (turn : s.nextRing p (s.procOf p i) = some i) (up : s.link.up = true)
include part intakes room normal turn up

theorem exec_entryIntake (read : EntryRead) : exec (.entryIntake p i read) s = match read.fail with
    | some f => whenDue (s.entryAddr p i / 2 ^ 60 == 2) <|
        .next (State.readFailed { s.sendFar with farTurn := (p + 1) % 4 } p (s.entryAddr p i % 2 ^ 60) f)
    | none => .next ((s.entryCame p i).takeIn p i read.desc) := by
  rw [exec, execEntryIntake, whenFormed_of_formed _ (by simp [hp, hi]), whenLive_of_live _ live,
    whenDue_of_due _ (by simp [State.hasFn, part, intakes, Drip.room, room])]
  dsimp only
  rw [normal]
  exact whenDue_of_due _ (by simp [turn, up])

/-- The record of an entry that was taken in before, if the ring keeps one (R351, R526). -/
def State.relogged (s : State) (p i : Nat) (desc : BitVec 1024) : Option IntakeRec :=
  (s.ring p i).relog.find? fun q => q.entry == (s.ring p i).rd && q.wrap == (s.ring p i).rdWrap && q.desc == desc &&
    q.epoch == (s.epochOf p).epoch

/-- The record of an entry that is taken in for the first time (R527). -/
def State.recordOf (s : State) (p i : Nat) (desc : BitVec 1024) : IntakeRec where
  intake := (s.epochOf p).intakeNo
  ring := i
  entry := (s.ring p i).rd
  wrap := (s.ring p i).rdWrap
  epoch := (s.epochOf p).epoch
  desc := desc

/-- With no lining active, an entry is taken in with no record in a log. -/
theorem entryIntake_unlogged (off : s.linOn p = false) :
    ∃ t c, exec (.entryIntake p i ⟨desc, none⟩) s = .next t ∧ t.cmds = s.cmds ++ [c] ∧ c.id = s.nextId ∧ t.nextId = s.nextId + 1 ∧
      c.part = p ∧ c.ring = i ∧ c.entry = (s.ring p i).rd ∧ c.wrap = (s.ring p i).rdWrap ∧ c.desc = desc ∧ c.phase = .queued ∧
      c.prio = s.barF (regKey p (0x014008 + 0x40 * i)) 6 2 ∧
      (t.drip (s.procOf p i)).stages ++ (t.drip (s.procOf p i)).overflow =
        (s.drip (s.procOf p i)).stages ++ (s.drip (s.procOf p i)).overflow ++ [s.nextId] ∧
      t.ring p i = { s.ring p i with rd := (s.nextEntry p i (s.ring p i).rd (s.ring p i).rdWrap).1,
                                     rdWrap := (s.nextEntry p i (s.ring p i).rd (s.ring p i).rdWrap).2 } := by
  obtain ⟨f, k, d, came⟩ := entryCame_eq s p i
  have takes : (s.entryCame p i).takeIn p i desc =
      ((s.entryCame p i).letIn (newCmd (s.entryCame p i) p i (s.recordOf p i desc))).advanceRead p i := by
    rw [came]
    unfold State.takeIn
    dsimp only
    rw [List.find?_eq_none.mpr fun q _ h => ?_]
    · have off' : State.linOn { s with far := f, farTurn := k, dbg := d } p = false := off
      rw [if_neg (by rw [off']; decide)]
      rfl
    · have off' : State.linOn { s with far := f, farTurn := k, dbg := d } p = false := off
      simp [off'] at h
  obtain ⟨cmds, next, -, ring, items⟩ := letIn_advanceRead (s.entryCame p i) p i
    (newCmd (s.entryCame p i) p i (s.recordOf p i desc)) rfl rfl
  have proc : (s.entryCame p i).procOf p i = s.procOf p i := by
    rw [came]
    rfl
  rw [← takes] at cmds next ring items
  rw [proc] at items
  refine ⟨_, newCmd (s.entryCame p i) p i (s.recordOf p i desc),
    exec_entryIntake live hp hi part intakes room normal turn up ⟨desc, none⟩, cmds.trans ?_, ?_, next.trans ?_,
    rfl, rfl, rfl, rfl, rfl, rfl, ?_, items.trans ?_, ring.trans ?_⟩
  all_goals rw [came] <;> rfl

/-- With a lining, an entry that is read again keeps its intake record (R351, R526). -/
theorem entryIntake_relogged (on : s.linOn p = true) {q : IntakeRec} (found : s.relogged p i desc = some q) :
    ∃ t c, exec (.entryIntake p i ⟨desc, none⟩) s = .next t ∧ t.cmds = s.cmds ++ [c] ∧ c.intake = q.intake ∧ c.desc = desc ∧
      t.epochs = s.epochs := by
  obtain ⟨f, k, d, came⟩ := entryCame_eq s p i
  have takes : (s.entryCame p i).takeIn p i desc = (((s.entryCame p i).setRing p i { s.ring p i with
      relog := (s.ring p i).relog.erase q }).letIn (newCmd (s.entryCame p i) p i q)).advanceRead p i := by
    rw [came]
    unfold State.takeIn
    dsimp only
    have on' : State.linOn { s with far := f, farTurn := k, dbg := d } p = true := on
    have found' : (State.ring { s with far := f, farTurn := k, dbg := d } p i).relog.find? (fun q =>
        q.entry == (State.ring { s with far := f, farTurn := k, dbg := d } p i).rd &&
        q.wrap == (State.ring { s with far := f, farTurn := k, dbg := d } p i).rdWrap && q.desc == desc &&
        q.epoch == (State.epochOf { s with far := f, farTurn := k, dbg := d } p).epoch &&
        State.linOn { s with far := f, farTurn := k, dbg := d } p) = some q := by
      rw [on']
      simp only [Bool.and_true]
      exact found
    rw [found']
    rfl
  obtain ⟨cmds, -, epochs, -⟩ := letIn_advanceRead ((s.entryCame p i).setRing p i { s.ring p i with
    relog := (s.ring p i).relog.erase q }) p i (newCmd (s.entryCame p i) p i q) rfl rfl
  rw [← takes] at cmds epochs
  refine ⟨_, newCmd (s.entryCame p i) p i q, exec_entryIntake live hp hi part intakes room normal turn up ⟨desc, none⟩,
    cmds.trans ?_, rfl, ?_, epochs.trans ?_⟩
  · rw [came]
    rfl
  · have same := List.find?_some found
    simp only [Bool.and_eq_true, beq_iff_eq] at same
    exact same.1.2
  · rw [came]
    rfl

/-- An entry whose read from a far window fails stays unread (R228). -/
theorem entryIntake_failed (far : s.entryAddr p i / 2 ^ 60 = 2) (f : ReadFail) :
    ∃ t, exec (.entryIntake p i ⟨desc, some f⟩) s = .next t ∧ t.cmds = s.cmds ∧ t.rings = s.rings ∧
      (f = .poisoned → t.aon 49 = s.aon 49 + 1) ∧ (f ≠ .poisoned → t.aon 47 = s.aon 47 + 1) := by
  have sent : ∀ n, State.aon { s.sendFar with farTurn := (p + 1) % 4 } n = s.aon n := fun n =>
    field_of_sendFar (fun s => s.aon n) (fun _ _ _ => rfl) s
  have side : State.intakeSide { s.sendFar with farTurn := (p + 1) % 4 } = s.intakeSide :=
    field_of_sendFar State.intakeSide (fun _ _ _ => rfl) s
  obtain ⟨poisoned, other⟩ := aon_readFailed { s.sendFar with farTurn := (p + 1) % 4 } p (s.entryAddr p i % 2 ^ 60) f
  refine ⟨_, (exec_entryIntake live hp hi part intakes room normal turn up ⟨desc, some f⟩).trans
    (whenDue_of_due _ (beq_iff_eq.mpr far)), ?_, ?_, fun h => (poisoned h).trans (by rw [sent]), fun h => (other h).trans (by rw [sent])⟩
  · exact cmds_of_intakeSide ((intakeSide_readFailed ..).trans side)
  · exact congrArg Prod.fst ((intakeSide_readFailed ..).trans side)

end

/-! ### A pointer mismatch of the drip queue (R351) -/

/-- A command of a ring that has not started is discarded when its ring is read again, and only such commands are. -/
theorem mem_cmds_rereadRing {s : State} {p i : Nat} {c : Cmd} : c ∈ (s.rereadRing p i).cmds ↔
    c ∈ s.cmds ∧ ∀ d ∈ s.cmds, d.part = p → d.ring = i → d.waiting = true → d.id ≠ c.id := by
  simp [State.rereadRing, State.unstarted, State.setRing, not_and]

theorem ring_rereadRing_other (s : State) {p i j : Nat} (h : j ≠ i) : (s.rereadRing p i).ring p j = s.ring p j :=
  ring_setRing_other _ _ h

theorem ring_rereadRing_self (s : State) (p i : Nat) :
    ((s.rereadRing p i).ring p i).rd = (s.ring p i).head ∧ ((s.rereadRing p i).ring p i).head = (s.ring p i).head := by
  unfold State.rereadRing
  dsimp only
  rw [ring_setRing_self]
  exact ⟨rfl, rfl⟩

/-- Commands after rings have been read again: none is new, and one that has started is still there. -/
def Discarded (s t : State) : Prop :=
  (∀ c ∈ t.cmds, c ∈ s.cmds) ∧ ∀ c ∈ s.cmds, (∀ d ∈ s.cmds, d.id = c.id → d.waiting = false) → c ∈ t.cmds

theorem discarded_rereads (s : State) (p : Nat) (l : List Nat) {t : State} (h : Discarded s t) :
    Discarded s (foldS (fun t i => t.rereadRing p i) t l) := by
  refine foldS_holds (P := Discarded s) (fun u i _ hu => ?_) h
  obtain ⟨old, started⟩ := hu
  refine ⟨fun c hc => old c (mem_cmds_rereadRing.mp hc).1, fun c hc away => ?_⟩
  refine mem_cmds_rereadRing.mpr ⟨started c hc away, fun d hd _ _ waits same => ?_⟩
  rw [away d (old d hd) same] at waits
  cases waits

/-- A ring whose head is where it was, and which has been read again without its command `c`. -/
def Reread (s : State) (p : Nat) (c : Cmd) (t : State) : Prop :=
  (t.ring p c.ring).head = (s.ring p c.ring).head ∧ c ∉ t.cmds ∧ (t.ring p c.ring).rd = (s.ring p c.ring).head

theorem reread_rereadRing {s t : State} {p i : Nat} {c : Cmd} (h : Reread s p c t) : Reread s p c (t.rereadRing p i) := by
  obtain ⟨head, away, rd⟩ := h
  have still : c ∉ (t.rereadRing p i).cmds := fun hc => away (mem_cmds_rereadRing.mp hc).1
  by_cases hi : c.ring = i
  · subst hi
    obtain ⟨read, kept⟩ := ring_rereadRing_self t p c.ring
    exact ⟨kept.trans head, still, read.trans head⟩
  · unfold Reread
    rw [ring_rereadRing_other t hi]
    exact ⟨head, still, rd⟩

theorem reread_rereads {s : State} {p : Nat} {c : Cmd} (hp : c.part = p) (waits : c.waiting = true) (l : List Nat) :
    ∀ t : State, c.ring ∈ l → (t.ring p c.ring).head = (s.ring p c.ring).head →
      Reread s p c (foldS (fun t i => t.rereadRing p i) t l) := by
  induction l with
  | nil => exact fun _ hl => absurd hl List.not_mem_nil
  | cons i l ih =>
    intro t hl head
    refine Eq.mp (congrArg (Reread s p c) (List.foldl_cons ..).symm) ?_
    by_cases hi : c.ring = i
    · subst hi
      obtain ⟨read, kept⟩ := ring_rereadRing_self t p c.ring
      refine foldS_holds (P := Reread s p c) (fun u j _ hu => reread_rereadRing hu) ⟨kept.trans head, fun hc => ?_, read.trans head⟩
      obtain ⟨here, gone⟩ := mem_cmds_rereadRing.mp hc
      exact gone c here hp rfl waits rfl
    · refine ih _ ((List.mem_cons.mp hl).resolve_left hi) ?_
      rw [ring_rereadRing_other t hi]
      exact head

theorem drips_escalate (s : State) (p r j d : Nat) : (s.escalate p r j d).drips = s.drips :=
  ReportInert.escalate (g := State.drips) ⟨fun _ _ _ => rfl, fun _ _ _ => rfl, fun _ _ => rfl, fun _ _ _ _ => rfl, fun _ _ _ => rfl,
    fun _ _ _ => rfl, fun _ _ _ _ => rfl, fun _ _ _ _ _ => rfl, fun _ _ _ => rfl⟩ (fun _ _ => rfl) ..

/-- The rings whose commands wait in a drip queue. -/
def State.dripRings (s : State) (cp : Nat) : List Nat :=
  ((s.cmds.filter fun c => ((s.drip cp).stages ++ (s.drip cp).overflow).contains c.id).map Cmd.ring).eraseDups

theorem dripPointerMismatch {s : State} {cp : Nat} (live : s.live = true) (hcp : cp < 4) :
    ∃ t, exec (.dripPointerMismatch cp) s = .next t ∧
      (t.drip cp).stages = [] ∧ (t.drip cp).overflow = [] ∧ t.aon 47 = s.aon 47 + 1 ∧
      (∀ c ∈ s.cmds, (∀ d ∈ s.cmds, d.id = c.id → d.waiting = false) → c ∈ t.cmds) ∧ (∀ c ∈ t.cmds, c ∈ s.cmds) ∧
      ∀ c ∈ s.cmds, c.waiting = true → c.part = cp / s.procs → c.ring < 64 →
        (c.id ∈ (s.drip cp).stages ∨ c.id ∈ (s.drip cp).overflow) →
        c ∉ t.cmds ∧ (t.ring c.part c.ring).rd = (s.ring c.part c.ring).head := by
  let empty := s.setDrip cp { s.drip cp with stages := [], overflow := [] }
  let t := foldS (fun t i => t.rereadRing (cp / s.procs) i) empty (s.dripRings cp)
  have run : exec (.dripPointerMismatch cp) s = .next (t.escalate (cp / s.procs) 7 cp 0) := by
    rw [exec, execDripPointerMismatch, whenFormed_of_formed _ (by simp [hcp]), whenLive_of_live _ live]
    rfl
  have side := intakeSide_escalate t (cp / s.procs) 7 cp 0
  have drip : (t.escalate (cp / s.procs) 7 cp 0).drip cp = { s.drip cp with stages := [], overflow := [] } := by
    have kept : t.drips = empty.drips := foldS_keeps State.drips (f := fun t i => t.rereadRing (cp / s.procs) i) (fun _ _ => rfl) _ _
    unfold State.drip
    rw [drips_escalate, kept]
    exact drip_setDrip_self ..
  have count : t.aon 47 = s.aon 47 :=
    foldS_keeps (fun s => s.aon 47) (f := fun t i => t.rereadRing (cp / s.procs) i) (fun _ _ => rfl) _ _
  obtain ⟨old, started⟩ := discarded_rereads s (cp / s.procs) (s.dripRings cp) (t := empty) ⟨fun _ h => h, fun _ h _ => h⟩
  refine ⟨_, run, by rw [drip], by rw [drip], (aon47_escalate ..).trans (by rw [count]), ?_, ?_, ?_⟩
  · rw [cmds_of_intakeSide side]
    exact started
  · rw [cmds_of_intakeSide side]
    exact old
  · intro c hc waits hp _ queued
    have mem : c.ring ∈ s.dripRings cp := by
      unfold State.dripRings
      rw [List.mem_eraseDups, List.mem_map]
      refine ⟨c, List.mem_filter.mpr ⟨hc, ?_⟩, rfl⟩
      rw [List.contains_iff_mem, List.mem_append]
      exact queued
    obtain ⟨-, away, rd⟩ := reread_rereads (s := s) hp waits (s.dripRings cp) empty mem rfl
    rw [cmds_of_intakeSide side, ring_of_intakeSide side, hp]
    exact ⟨away, rd⟩

/-! ### The head line (R353) -/

/-- Bytes written outside the module at once read as written. -/
theorem extBytes_pokeExt (s : State) (a : Nat) (bs : List Byte) : (s.pokeExt a bs).extBytes a bs.length = bs := by
  refine List.ext_getElem (by simp [State.extBytes]) fun i h₁ h₂ => ?_
  simp only [State.extBytes, List.getElem_map, List.getElem_range]
  exact putBytes_get_self Config.extByte bs s.ext a i h₂

theorem rings_ringWrite (s : State) (o : Owner) (p a : Nat) (bs : List Byte) : (s.ringWrite o p a bs).rings = s.rings :=
  congrArg Prod.fst (intakeSide_reportInert.ringWrite s o p a bs)

theorem headLineWrite {s : State} {p i : Nat} (live : s.live = true) (hp : p < 4) (part : p < s.parts) (hi : i < 64)
    (due : (s.ring p i).lineDue = true) :
    ∃ t, exec (.headLineWrite p i) s = .next t ∧ t.ring p i = { s.ring p i with lineDue := false } ∧
      ∀ h, s.hostAtOnce h 4 = true → s.reach p .rings true false (s.cplBase p i + 32 * 2 ^ s.ringLog p i) 4 = .ok (.host h) →
        t.extBytes (hostKey h) 4 = leBytes 4 ((s.ring p i).head + if (s.ring p i).headWrap then 2 ^ 16 else 0) := by
  generalize hb : leBytes 4 ((s.ring p i).head + if (s.ring p i).headWrap then 2 ^ 16 else 0) = bs
  have len : bs.length = 4 := hb ▸ length_leBytes ..
  generalize ha : s.cplBase p i + 32 * 2 ^ s.ringLog p i = a
  refine ⟨(s.setRing p i { s.ring p i with lineDue := false }).ringWrite .none p a bs, ?_, ?_, fun h atOnce reach => ?_⟩
  · rw [exec, execHeadLineWrite, whenFormed_of_formed _ (by simp [hp, hi]), whenLive_of_live _ live,
      whenDue_of_due _ (by simp [State.hasFn, part, due]), ← hb, ← ha]
  · unfold State.ring
    rw [rings_ringWrite]
    exact ring_setRing_self ..
  · have wrote : (s.setRing p i { s.ring p i with lineDue := false }).ringWrite .none p a bs =
        ((s.setRing p i { s.ring p i with lineDue := false }).pokeExt (hostKey h) bs).bump 61 bs.length := by
      unfold State.ringWrite
      rw [len]
      have reach' : (s.setRing p i { s.ring p i with lineDue := false }).reach p .rings true false a 4 = .ok (.host h) := reach
      have atOnce' : (s.setRing p i { s.ring p i with lineDue := false }).hostAtOnce h 4 = true := atOnce
      rw [reach']
      exact if_pos atOnce'
    rw [wrote, ← len]
    exact extBytes_pokeExt ..

theorem intake : Claims.Intake := by
  refine ⟨?_, fun s cp live hcp => dripPointerMismatch live hcp, fun s p i live hp part hi due => headLineWrite live hp part hi due⟩
  intro s p i desc live hp part hi k r
  refine ⟨fun held => entryIntake_held live hp hi _ ?_,
    fun intakes room off normal turn up => entryIntake_unlogged live hp hi part intakes room normal turn up off,
    fun intakes room on normal turn up q found => entryIntake_relogged live hp hi part intakes room normal turn up on found,
    fun intakes room normal turn up far f => entryIntake_failed live hp hi part intakes room normal turn up far f⟩
  rcases held with h | h | h | h <;> simp [State.intakes, h]

/-- Settles O36. -/
theorem hostRings : Obligations.HostRings := ⟨watchedLines, doorbells, intake⟩

end Sys2Proof.Machine

/-!
PROOFS. What a command of a ring reads, how it starts, and its completion (O27).
-/

namespace Sys2Proof.Machine

theorem withItem_some {α : Type} (a : α) (k : α → Host.Outcome State Fault Refusal) : withItem (some a) k = k a := rfl

/-! ### Commands by their identifiers -/

theorem id_of_cmd {s : State} {id : Nat} {c : Cmd} (h : s.cmd id = some c) : c.id = id := by
  simpa using List.find?_some h

theorem cmd_setCmd_self {s : State} {id : Nat} {c d : Cmd} (h : s.cmd id = some c) (named : d.id = id) : (s.setCmd d).cmd id = some d := by
  subst named
  exact find?_map_replace rfl h

/-- Of two changes of a command the second stays. -/
theorem setCmd_setCmd (s : State) {c d : Cmd} (h : c.id = d.id) : (s.setCmd c).setCmd d = s.setCmd d := by
  unfold State.setCmd
  refine congrArg (fun l => ({ s with cmds := l } : State)) ?_
  rw [List.map_map]
  refine List.map_congr_left fun e _ => ?_
  simp only [Function.comp_apply, h]
  split <;> simp_all

/-! ### A descriptor at hand (R226, R319) -/

/-- The command with the bytes that it has fetched. -/
def Cmd.having (c : Cmd) (bs : List Byte) : Cmd := { c with fetch := some [(0, bs)] }

theorem putBytes_read (bs : List Byte) :
    (List.range bs.length).map (fun i => Tab.get memDefault (putBytes memDefault [] 0 bs) (0 + i)) = bs := by
  refine List.ext_getElem (by simp) fun i h₁ h₂ => ?_
  simp only [List.getElem_map, List.getElem_range]
  exact putBytes_get_self memDefault bs [] 0 i h₂

theorem fetched_having (c : Cmd) (bs : List Byte) : (c.having bs).fetched 0 bs.length = bs := putBytes_read bs

/-- The state in which a command has read its descriptor at once: the errors corrected are counted, and the command has the bytes. -/
def State.read (s : State) (c : Cmd) (o : Nat) : State :=
  (s.bump 51 (s.correctable o (klen c.d))).setCmd (c.having (s.memBytes o (klen c.d)))

/-- Bytes at hand join what a command fetches at once. -/
theorem fetch_atHand {s : State} {c : Cmd} (e p o len : Nat) (free : s.heldIn o len = false) :
    (s.setCmd { c with fetch := some [] }).fetchFrom c.id e p (.loc o) 0 len = s.setCmd (c.having (s.memBytes o len)) := by
  have held : (s.setCmd { c with fetch := some [] }).heldIn o len = false := free
  unfold State.fetchFrom
  dsimp only
  unfold State.readLocal
  rw [held]
  refine congrArg (fun l => ({ s with cmds := l } : State)) ?_
  refine List.map_map.trans (List.map_congr_left fun d _ => ?_)
  have same : (c.having (s.memBytes o len)).id = c.id := rfl
  by_cases h : d.id = c.id
  · simp only [Function.comp_apply, h, same, beq_self_eq_true, if_true]
    rfl
  · simp only [Function.comp_apply, same, beq_iff_eq, h, if_false]

theorem fetchedAll_of_requests {s t : State} (h : (t.far, t.fab, t.link, t.farTag) = (s.far, s.fab, s.link, s.farTag)) (id : Nat) :
    t.fetchedAll id = s.fetchedAll id := by
  simp only [Prod.mk.injEq] at h
  obtain ⟨far, fab, link, tag⟩ := h
  unfold State.fetchedAll State.outstanding State.pendingBefore
  rw [far, fab, link, tag]

section
variable {s : State} {id o : Nat} {c : Cmd} (here : ReadsHere s c o)
include here

/-- A read of memory that is whole goes on. -/
theorem moveReads_here (k : State → Host.Outcome State Fault Refusal) :
    moveReads c (s.localAt c.part (karg c.d 0)) (s.localAt c.part (karg c.d 0)) (klen c.d) s k =
      k (s.bump 51 (s.correctable o (klen c.d))) := by
  obtain ⟨-, place, whole, open_, good, -, -⟩ := here
  simp only [State.whole, Bool.and_eq_true, Bool.not_eq_true'] at whole
  rw [place]
  unfold moveReads
  rw [whole.1, whole.2, open_, good]
  rfl

variable (found : s.cmd id = some c)
include found

/-- A descriptor at hand is read at once. -/
theorem withDesc_here (fresh : c.fetch = none) (good : c.status = 0) (k : State → Cmd → List Byte → Host.Outcome State Fault Refusal) :
    withDesc c s k = k (s.read c o) (c.having (s.memBytes o (klen c.d))) (s.memBytes o (klen c.d)) := by
  have here' := here
  obtain ⟨reach, place, whole, open_, clean, free, all⟩ := here'
  have name := id_of_cmd found
  unfold withDesc
  dsimp only
  rw [fresh]
  refine (if_neg (by simp)).trans ((moveReads_here here _).trans ?_)
  have fetched : (((s.bump 51 (s.correctable o (klen c.d))).setCmd { c with fetch := some [] }).fetchAt c
      (Engine.processor (State.procOf (s.bump 51 (s.correctable o (klen c.d))) c.part c.ring)).key (karg c.d 0) (klen c.d) 0) =
      s.read c o := by
    unfold State.fetchAt
    have reach' : State.reach ((s.bump 51 (s.correctable o (klen c.d))).setCmd { c with fetch := some [] }) c.part .data false true
        (karg c.d 0) (klen c.d) = .ok (.loc o) := reach
    rw [reach']
    exact fetch_atHand (s := s.bump 51 (s.correctable o (klen c.d))) _ c.part o (klen c.d) free
  rw [fetched, fetchedAll_of_requests (t := s.read c o) (s := s) rfl, all, name]
  have mine : (s.read c o).cmd id = some (c.having (s.memBytes o (klen c.d))) :=
    cmd_setCmd_self (s := s.bump 51 _) found name
  rw [mine]
  rw [if_pos rfl]
  refine Eq.trans (if_pos good) ?_
  have len : (s.memBytes o (klen c.d)).length = klen c.d := length_memBytes ..
  have bytes := fetched_having c (s.memBytes o (klen c.d))
  rw [len] at bytes
  rw [bytes]

end

/-! ### Head passes an entry (R353) -/

/-- Head has passed the entry of a command, and the head line is due. -/
def Passed (s : State) (c : Cmd) (t : State) : Prop :=
  (t.ring c.part c.ring).head = (s.nextEntry c.part c.ring c.entry c.wrap).1 ∧
    (t.ring c.part c.ring).headWrap = (s.nextEntry c.part c.ring c.entry c.wrap).2 ∧ (t.ring c.part c.ring).lineDue = true

/-- What does not show the rings, head passing an entry leaves as it was. -/
theorem field_of_passHead {β : Type} (g : State → β) (rings : ∀ s r, g { s with rings := r } = g s) (s : State) (c : Cmd) :
    g (s.passHead c) = g s := by
  rw [passHead_eq]
  generalize s.nextEntry c.part c.ring c.entry c.wrap = e
  obtain ⟨h, w⟩ := e
  exact rings ..

theorem nextEntry_of_bar {s t : State} (h : t.bar = s.bar) (p i e : Nat) (w : Bool) : t.nextEntry p i e w = s.nextEntry p i e w := by
  unfold State.nextEntry State.barF State.barW
  rw [h]

theorem passed_passHead {s t : State} (h : t.bar = s.bar) (c : Cmd) : Passed s c (t.passHead c) := by
  unfold Passed
  rw [passHead_eq, nextEntry_of_bar h]
  generalize s.nextEntry c.part c.ring c.entry c.wrap = e
  obtain ⟨a, w⟩ := e
  dsimp only
  rw [ring_setRing_self]
  exact ⟨rfl, rfl, rfl⟩

theorem Passed.of_same {s u t : State} {c d : Cmd} (bar : u.bar = s.bar)
    (same : (d.part, d.ring, d.entry, d.wrap) = (c.part, c.ring, c.entry, c.wrap)) (h : Passed u d t) : Passed s c t := by
  simp only [Prod.mk.injEq] at same
  obtain ⟨part, ring, entry, wrap⟩ := same
  unfold Passed at h ⊢
  rw [part, ring, entry, wrap, nextEntry_of_bar bar] at h
  exact h

/-! ### Refusals and starts -/

/-- The command as a refusal leaves it (R362). -/
def Cmd.refused (c : Cmd) (status detail : Nat) (now : Word) : Cmd :=
  { c with phase := .finished, status := status, detail := detail, signalled := true, t0 := now }

theorem refuseCmd_spec {s : State} {c d : Cmd} (found : s.cmd c.id = some d) (status detail : Nat) :
    Passed s c (s.refuseCmd c status detail) ∧ (s.refuseCmd c status detail).cells = s.cells ∧
    (s.refuseCmd c status detail).mem = s.mem ∧ (s.refuseCmd c status detail).cmd c.id = some (c.refused status detail s.now) := by
  refine ⟨passed_passHead rfl c, field_of_passHead State.cells (fun _ _ => rfl) .., field_of_passHead State.mem (fun _ _ => rfl) .., ?_⟩
  exact (cmd_of_cmds (field_of_passHead State.cmds (fun _ _ => rfl) ..) _).trans (cmd_setCmd_self (s := s.undrip c) found rfl)

/-- The command as its start leaves it (R352, R643). -/
def State.startedCmd (s : State) (c : Cmd) : Cmd := { c with
  phase := .started, t0 := s.now, order := 1 + s.cmds.foldl (fun m b => max m b.order) 0, opp := s.requestOpp c,
  latch := dfield c.d 0 11 1 == 1 && s.crecOn c.part, sel := BitVec.ofNat 128 (s.selections c.part),
  snap := if dfield c.d 0 11 1 == 1 && s.crecOn c.part then s.counters c (s.selections c.part) else [],
  claimed := if kclass c.d = 1 then BitVec.ofNat 64 (kmask c.d) else 0,
  extra := (s.epochOf c.part).epoch + 1 }

/-- A started KERNEL has its cells. -/
def State.takeCells (s : State) (id : Nat) (l : List Nat) : State := foldS (fun s n => s.setCell n { s.cell n with cmd := some id }) s l

/-- The state after a start before head passes the entry. -/
def State.setOff (s : State) (c : Cmd) : State :=
  (if kclass c.d = 1 then ((s.undrip c).setCmd (s.startedCmd c)).takeCells c.id (cellsOfMask (kmask c.d))
    else (s.undrip c).setCmd (s.startedCmd c)).trace 1 c.part c.ring c.entry (if s.linOn c.part then c.intake else 0)
      (dfield c.d 0x20 0 64)

theorem begin_eq (s : State) (c : Cmd) : s.begin c = (s.setOff c).passHead c := by
  rw [State.begin, State.setOff, State.startedCmd, State.takeCells]

/-- A part of the state in which neither the drip queues, nor the trace, nor the commands, nor the cells show. -/
theorem field_of_setOff {β : Type} (g : State → β) (inert : ReportInert g) (drip : ∀ s k q, g (State.setDrip s k q) = g s)
    (cmd : ∀ s c, g (State.setCmd s c) = g s) (cell : ∀ s n k, g (State.setCell s n k) = g s) (s : State) (c : Cmd) :
    g (s.setOff c) = g s := by
  have first : g ((s.undrip c).setCmd (s.startedCmd c)) = g s := (cmd ..).trans (drip ..)
  refine (inert.trace ..).trans ?_
  split
  · exact (foldS_keeps g (f := fun t n => t.setCell n { t.cell n with cmd := some c.id }) (fun _ _ => cell ..) _ _).trans first
  · exact first

theorem bar_setOff (s : State) (c : Cmd) : (s.setOff c).bar = s.bar :=
  field_of_setOff State.bar ⟨fun _ _ _ => rfl, fun _ _ _ => rfl, fun _ _ => rfl, fun _ _ _ _ => rfl, fun _ _ _ => rfl,
    fun _ _ _ => rfl, fun _ _ _ _ => rfl, fun _ _ _ _ _ => rfl, fun _ _ _ => rfl⟩ (fun _ _ _ => rfl) (fun _ _ => rfl)
    (fun _ _ _ => rfl) s c

theorem cell_setCell_self (s : State) (n : Nat) (k : Cell) : (s.setCell n k).cell n = k := Tab.get_set_self _ _ _ _

theorem cell_setCell_other (s : State) {n m : Nat} (k : Cell) (h : m ≠ n) : (s.setCell n k).cell m = s.cell m :=
  Tab.get_set_other _ _ _ _ _ h

theorem cell_takeCells_other {id m : Nat} : ∀ (l : List Nat) (s : State), m ∉ l → (s.takeCells id l).cell m = s.cell m
  | [], _, _ => rfl
  | _ :: l, s, h => (cell_takeCells_other l _ fun hm => h (List.mem_cons_of_mem _ hm)).trans
      (cell_setCell_other s _ fun e => h (e ▸ List.mem_cons_self))

theorem cmd_takeCells {id m : Nat} (l : List Nat) : ∀ s : State, m ∈ l → ((s.takeCells id l).cell m).cmd = some id := by
  induction l with
  | nil => exact fun _ h => absurd h List.not_mem_nil
  | cons n l ih =>
    intro s h
    by_cases later : m ∈ l
    · exact ih _ later
    · obtain rfl := (List.mem_cons.mp h).resolve_right later
      refine (congrArg Cell.cmd (cell_takeCells_other l _ later)).trans ?_
      rw [cell_setCell_self]

/-- The cells after a start: those of a KERNEL are its own, no other changes. -/
theorem cells_setOff (s : State) (c : Cmd) :
    (kclass c.d = 1 → (∀ n ∈ cellsOfMask (kmask c.d), ((s.setOff c).cell n).cmd = some c.id) ∧
      ∀ n, n ∉ cellsOfMask (kmask c.d) → (s.setOff c).cell n = s.cell n) ∧
    (kclass c.d ≠ 1 → (s.setOff c).cells = s.cells) := by
  have inert : ReportInert State.cells := ⟨fun _ _ _ => rfl, fun _ _ _ => rfl, fun _ _ => rfl, fun _ _ _ _ => rfl, fun _ _ _ => rfl,
    fun _ _ _ => rfl, fun _ _ _ _ => rfl, fun _ _ _ _ _ => rfl, fun _ _ _ => rfl⟩
  unfold State.setOff
  refine ⟨fun kernel => ⟨fun n hn => ?_, fun n hn => ?_⟩, fun other => ?_⟩
  · rw [if_pos kernel, cell_eq_of_cells (inert.trace ..)]
    exact cmd_takeCells _ _ hn
  · rw [if_pos kernel, cell_eq_of_cells (inert.trace ..)]
    exact cell_takeCells_other _ _ hn
  · rw [if_neg other]
    exact inert.trace ..

theorem cmd_setOff {s : State} {c d : Cmd} (found : s.cmd c.id = some d) : (s.setOff c).cmd c.id = some (s.startedCmd c) := by
  have inert : ReportInert State.cmds := ⟨fun _ _ _ => rfl, fun _ _ _ => rfl, fun _ _ => rfl, fun _ _ _ _ => rfl, fun _ _ _ => rfl,
    fun _ _ _ => rfl, fun _ _ _ _ => rfl, fun _ _ _ _ _ => rfl, fun _ _ _ => rfl⟩
  have first := cmd_setCmd_self (s := s.undrip c) (d := s.startedCmd c) found rfl
  refine (cmd_of_cmds (inert.trace ..) _).trans ?_
  split
  · exact (cmd_of_cmds (foldS_keeps State.cmds (f := fun t n => t.setCell n { t.cell n with cmd := some c.id }) (fun _ _ => rfl) _ _)
      _).trans first
  · exact first

/-- A command has started: it has its cells and its combs, and head has passed its entry. -/
def Started (s : State) (id : Nat) (c : Cmd) (t : State) (d : Cmd) : Prop :=
  Passed s c t ∧ t.cmd id = some d ∧ d.phase = .started ∧ d.desc = c.desc ∧ d.t0 = s.now ∧ d.opp = s.requestOpp c ∧
    (kclass c.d = 1 → d.claimed = BitVec.ofNat 64 (kmask c.d) ∧
      (∀ n ∈ cellsOfMask (kmask c.d), (t.cell n).cmd = some id) ∧ ∀ n, n ∉ cellsOfMask (kmask c.d) → t.cell n = s.cell n) ∧
    (kclass c.d ≠ 1 → d.claimed = 0 ∧ t.cells = s.cells)

theorem started_begin {s : State} {c d : Cmd} (found : s.cmd c.id = some d) : Started s c.id c (s.begin c) (s.startedCmd c) := by
  rw [begin_eq]
  have cells : ((s.setOff c).passHead c).cells = (s.setOff c).cells := field_of_passHead State.cells (fun _ _ => rfl) ..
  obtain ⟨kernel, other⟩ := cells_setOff s c
  refine ⟨(passed_passHead rfl c).of_same (bar_setOff s c) rfl, ?_, rfl, rfl, rfl, rfl, fun k => ⟨if_pos k, fun n hn => ?_, fun n hn => ?_⟩,
    fun k => ⟨if_neg k, cells.trans (other k)⟩⟩
  · exact (cmd_of_cmds (field_of_passHead State.cmds (fun _ _ => rfl) ..) _).trans (cmd_setOff found)
  · rw [cell_eq_of_cells cells]
    exact (kernel k).1 n hn
  · rw [cell_eq_of_cells cells]
    exact (kernel k).2 n hn

theorem cmd_read {s : State} {id : Nat} {c : Cmd} (found : s.cmd id = some c) (o : Nat) :
    (s.read c o).cmd id = some (c.having (s.memBytes o (klen c.d))) := by
  have name := id_of_cmd found
  exact cmd_setCmd_self (s := s.bump 51 _) found name

theorem now_read (s : State) (c : Cmd) (o : Nat) : (s.read c o).now = s.now := aon_bump_other (by decide) s _

theorem collBad_read (s : State) (c : Cmd) (o p : Nat) (bs : List Byte) : (s.read c o).collBad p bs = s.collBad p bs := by
  have team : (s.read c o).team = s.team := rfl
  have rank : (s.read c o).rank = s.rank := rfl
  have reach : (s.read c o).bufReach = s.bufReach := rfl
  have owner : (s.read c o).owner = s.owner := rfl
  have object : (s.read c o).ownObject = s.ownObject := rfl
  have turned : (s.read c o).swarm = s.swarm := rfl
  unfold State.collBad State.collFormatList State.collDeniedList State.collBoundList
  rw [team, rank, reach, owner, object, turned]

theorem Started.of_read {s t : State} {id o : Nat} {c b d : Cmd} (h : Started (s.read b o) id c t d) : Started s id c t d := by
  obtain ⟨passed, cmd, phase, desc, time, opp, kernel, other⟩ := h
  exact ⟨passed.of_same rfl rfl, cmd, phase, desc, time.trans (now_read ..), opp, kernel, other⟩

/-- A command whose descriptor is put away again is the command that it was. -/
theorem having_none {c : Cmd} (fresh : c.fetch = none) (bs : List Byte) : { c.having bs with fetch := none } = c := by
  obtain ⟨⟩ := c
  subst fresh
  rfl

/-! ### Waits of a command (R310) -/

/-- The entry of the `i`-th wait of a command. -/
def Cmd.waitEntry (c : Cmd) (i : Nat) : WaitEntry :=
  { who := .command c.id i, obj := bits (kwait c.d i) 0 16, eq := bit (kwait c.d i) 16, v := BitVec.ofNat 64 (bits (kwait c.d i) 24 40),
    held := true }

theorem enterWaits_eq (s : State) (c : Cmd) :
    s.enterWaits c = foldS (fun t i => t.enterWait (c.waitEntry i)) s (List.range (knwait c.d)) := rfl

theorem enterWaits_none {s : State} {c : Cmd} (h : knwait c.d = 0) : s.enterWaits c = s := by
  rw [enterWaits_eq, h]
  rfl

/-- Waits are entered by the objects and the wait tables only. -/
theorem enterWait_only (s t : State) (h : (t.waits, t.sync) = (s.waits, s.sync)) (w : WaitEntry) :
    t.enterWait w = { t with waits := (s.enterWait w).waits } ∧ (s.enterWait w).sync = s.sync := by
  simp only [Prod.mk.injEq] at h
  obtain ⟨waits, sync⟩ := h
  unfold State.enterWait
  rw [show t.obj w.obj = s.obj w.obj from obj_eq_of_sync sync w.obj]
  split
  · exact ⟨by rw [← waits], rfl⟩
  · refine ⟨?_, rfl⟩
    unfold State.waitFull
    rw [waits]

theorem foldS_enterWait_only {α : Type} (f : α → WaitEntry) (l : List α) : ∀ s t : State, (t.waits, t.sync) = (s.waits, s.sync) →
    foldS (fun u a => u.enterWait (f a)) t l = { t with waits := (foldS (fun u a => u.enterWait (f a)) s l).waits } := by
  induction l with
  | nil =>
    intro s t h
    exact congrArg (fun w => ({ t with waits := w } : State)) (congrArg Prod.fst h)
  | cons a l ih =>
    intro s t h
    obtain ⟨entered, sync⟩ := enterWait_only s t h (f a)
    have next := ih (s.enterWait (f a)) (t.enterWait (f a)) (by
      rw [entered, sync]
      exact congrArg (Prod.mk _) (congrArg Prod.snd h))
    refine Eq.trans next ?_
    rw [entered]
    rfl

theorem enterWaits_only {s t : State} (h : (t.waits, t.sync) = (s.waits, s.sync)) (c : Cmd) :
    t.enterWaits c = { t with waits := (s.enterWaits c).waits } := by
  rw [enterWaits_eq, enterWaits_eq]
  exact foldS_enterWait_only c.waitEntry _ s t h

/-! ### COMMAND_START -/

/-- What follows when a command that stands first has passed its checks. -/
def decideStart (id : Nat) (s : State) (c : Cmd) : Host.Outcome State Fault Refusal :=
  let s1 := s.enterWaits c
  if !s1.waitsMet id then .next ((s1.undrip c).setCmd { c with phase := .parked })
  else if s.strandedCmd c then whenFree (!s.substitutes c.part) s <| .next (s.refuseCmd c 4 0)
  else whenFree (s.combsFree c) s <| .next (s1.begin c)

theorem checkedCmd_format {s : State} {c : Cmd} {o : Nat} {k : State → Cmd → Host.Outcome State Fault Refusal}
    (bad : s.checkCmd c.part c.d = some (.format, o)) : checkedCmd c s k = .next (s.refuseCmd c Bad.format.status o) := by
  unfold checkedCmd
  rw [bad]

section
variable {s : State} {c : Cmd} {k : State → Cmd → Host.Outcome State Fault Refusal} (unread : ¬(kclass c.d = 4 ∧ klen c.d ≠ 0))
include unread

theorem checkedCmd_refused {b : Bad} {o : Nat} (bad : s.checkCmd c.part c.d = some (b, o)) :
    checkedCmd c s k = .next (s.refuseCmd c b.status o) := by
  unfold checkedCmd
  rw [bad]
  cases b with
  | format => rfl
  | bound => cases s.argReach c.part false (karg c.d 0) (klen c.d) <;> simp [unread]
  | denied => cases s.argReach c.part false (karg c.d 0) (klen c.d) <;> simp [unread]

theorem checkedCmd_passed (good : s.checkCmd c.part c.d = none) : checkedCmd c s k = k s c := by
  unfold checkedCmd
  rw [good]
  cases s.argReach c.part false (karg c.d 0) (klen c.d) <;> simp [unread]

end

section
variable {s : State} {c : Cmd} {h : Home} {k : State → Cmd → Host.Outcome State Fault Refusal} (kind : kclass c.d = 4)
  (some_ : klen c.d ≠ 0) (reach : s.argReach c.part false (karg c.d 0) (klen c.d) = .ok h)
include kind some_ reach

theorem checkedCmd_read_refused {b : Bad} {o : Nat} (bad : s.checkCmd c.part c.d = some (b, o)) (other : b ≠ .format) :
    checkedCmd c s k = withDesc c s fun s c bs => match s.collBad c.part bs with
      | some (.format, o) => .next (s.refuseCmd c Bad.format.status o)
      | _ => .next (s.refuseCmd c b.status o) := by
  unfold checkedCmd
  rw [bad, reach, kind]
  cases b with
  | format => exact absurd rfl other
  | bound =>
    simp only [beq_self_eq_true, Bool.true_and, bne_iff_ne, ne_eq, some_, not_false_eq_true, if_true]
    refine congrArg (withDesc c s) (funext fun s => funext fun c => funext fun bs => ?_)
    rcases s.collBad c.part bs with _ | ⟨_ | _ | _, _⟩ <;> rfl
  | denied =>
    simp only [beq_self_eq_true, Bool.true_and, bne_iff_ne, ne_eq, some_, not_false_eq_true, if_true]
    refine congrArg (withDesc c s) (funext fun s => funext fun c => funext fun bs => ?_)
    rcases s.collBad c.part bs with _ | ⟨_ | _ | _, _⟩ <;> rfl

theorem checkedCmd_read_passed (good : s.checkCmd c.part c.d = none) :
    checkedCmd c s k = withDesc c s fun s c bs => match s.collBad c.part bs with
      | some (b, o) => .next (s.refuseCmd c b.status o)
      | none => k s { c with fetch := none } := by
  unfold checkedCmd
  rw [good, reach, kind]
  simp only [beq_self_eq_true, Bool.true_and, bne_iff_ne, ne_eq, some_, not_false_eq_true, if_true]
  refine congrArg (withDesc c s) (funext fun s => funext fun c => funext fun bs => ?_)
  rcases s.collBad c.part bs with _ | ⟨_ | _ | _, _⟩ <;> rfl

end

/-- A place that an argument names is reached when the checks are passed. -/
theorem argReach_of_passed {s : State} {p d : Nat} (kind : kclass d = 4) (good : s.checkCmd p d = none) :
    ∃ h, s.argReach p false (karg d 0) (klen d) = .ok h := by
  unfold State.checkCmd at good
  split at good
  · cases good
  · split at good
    · cases good
    next denied =>
      have bound : firstBad (s.boundList p d) = none := Option.map_eq_none_iff.mp good
      unfold firstBad at denied bound
      simp only [Option.map_eq_none_iff, List.find?_eq_none] at denied bound
      cases reach : s.argReach p false (karg d 0) (klen d) with
      | ok h => exact ⟨h, rfl⟩
      | bound => exact absurd rfl (bound (false, 0x30) (by simp [State.boundList, State.argPlaces, kind, reach]))
      | denied => exact absurd rfl (denied (false, 0x28) (by simp [State.deniedList, State.argPlaces, kind, reach]))

section
variable {s : State} {id : Nat} {c : Cmd} (live : s.live = true) (found : s.cmd id = some c) (starts : s.starts c.part = true)
  (turn : s.ringTurn c = true) (recorded : s.recorded c = true)
include live found starts turn recorded

theorem exec_commandStart_queued (queued : c.phase = .queued) (staged : id ∈ (s.drip (s.procOf c.part c.ring)).stages)
    (first : s.readerAhead c = false) : exec (.commandStart id) s = checkedCmd c s (decideStart id) := by
  rw [exec, execCommandStart, whenLive_of_live _ live, found, withItem_some, whenDue_of_due _ (by simp [Cmd.waiting, queued, starts, turn, recorded]), if_pos queued,
    whenDue_of_due _ (by simp [staged, first])]
  rfl

theorem exec_commandStart_parked (parked : c.phase = .parked) : exec (.commandStart id) s = whenFree (s.waitsMet id) s (
    if s.strandedCmd c then whenFree (!s.substitutes c.part) s <| .next (s.refuseCmd c 4 0)
    else whenFree (s.combsFree c) s <| .next (s.begin c)) := by
  rw [exec, execCommandStart, whenLive_of_live _ live, found, withItem_some, whenDue_of_due _ (by simp [Cmd.waiting, parked, starts, turn, recorded]), if_neg (by simp [parked])]

end

/-- The descriptor that the checks of a command read: a COLLECT's, of some length. -/
def Cmd.named (c : Cmd) : Prop := kclass c.d = 4 ∧ klen c.d ≠ 0

/-- A command that passes its checks goes on as it is, after the read of the descriptor that a COLLECT names. -/
theorem checkedCmd_valid {s : State} {id : Nat} {c : Cmd} (found : s.cmd id = some c) (good : s.checkCmd c.part c.d = none)
    (desc : ¬c.named ∨ c.fetch = none ∧ c.status = 0 ∧ ∃ o, ReadsHere s c o ∧ s.collBad c.part (s.memBytes o (klen c.d)) = none) :
    ∃ u, (u = s ∨ kclass c.d = 4 ∧ ∃ o, u = s.read c o) ∧ ∀ k, checkedCmd c s k = k u c := by
  by_cases named : c.named
  · obtain ⟨fresh, ok, o, here, right⟩ := desc.resolve_left (not_not_intro named)
    obtain ⟨kind, some_⟩ := named
    obtain ⟨h, reach⟩ := argReach_of_passed kind good
    refine ⟨s.read c o, .inr ⟨kind, o, rfl⟩, fun k => ?_⟩
    rw [checkedCmd_read_passed kind some_ reach good, withDesc_here here found fresh ok]
    rw [show (s.read c o).collBad (c.having (s.memBytes o (klen c.d))).part (s.memBytes o (klen c.d)) = none from
      (collBad_read ..).trans right]
    dsimp only
    rw [having_none fresh]
  · exact ⟨s, .inl rfl, fun k => checkedCmd_passed named good⟩

theorem found_of_checked {s u : State} {id : Nat} {c : Cmd} (found : s.cmd id = some c)
    (read : u = s ∨ kclass c.d = 4 ∧ ∃ o, u = s.read c o) : ∃ d, u.cmd id = some d := by
  rcases read with rfl | ⟨-, o, rfl⟩
  · exact ⟨c, found⟩
  · exact ⟨_, cmd_read found o⟩

theorem combsFree_of_other {s : State} {c : Cmd} (h : kclass c.d ≠ 1) : s.combsFree c = true := by
  simp [State.combsFree, h]

section
variable {s u : State} {id : Nat} {c : Cmd} (found : s.cmd id = some c) (read : u = s ∨ kclass c.d = 4 ∧ ∃ o, u = s.read c o)
include found read

/-- Nothing stands in the way: the command starts. -/
theorem decideStart_started (none_ : knwait c.d = 0) (met : s.waitsMet id = true) (served : s.strandedCmd c = false)
    (free : s.combsFree c = true) : ∃ t d, decideStart id u c = .next t ∧ Started s id c t d := by
  have name := id_of_cmd found
  obtain ⟨e, found'⟩ := found_of_checked found read
  have met' : u.waitsMet id = true := by
    rcases read with rfl | ⟨-, o, rfl⟩
    · exact met
    · exact met
  have served' : u.strandedCmd c = false := by
    rcases read with rfl | ⟨kind, o, rfl⟩
    · exact served
    · simp [State.strandedCmd, kind]
  have free' : u.combsFree c = true := by
    rcases read with rfl | ⟨kind, o, rfl⟩
    · exact free
    · exact combsFree_of_other (by omega)
  have begun := started_begin (name.symm ▸ found')
  rw [name] at begun
  refine ⟨u.begin c, u.startedCmd c, ?_, ?_⟩
  · unfold decideStart
    rw [enterWaits_none none_]
    dsimp only
    rw [met', served', free']
    rfl
  · rcases read with rfl | ⟨-, o, rfl⟩
    · exact begun
    · exact begun.of_read

/-- A wait is outstanding: the command is parked. -/
theorem decideStart_parked (waits : (s.enterWaits c).waitsMet id = false) : ∃ t, decideStart id u c = .next t ∧
    t.cmd id = some { c with phase := .parked } ∧ t.waits = (s.enterWaits c).waits ∧ t.cells = s.cells := by
  obtain ⟨e, found'⟩ := found_of_checked found read
  have entered : u.enterWaits c = { u with waits := (s.enterWaits c).waits } := by
    rcases read with rfl | ⟨-, o, rfl⟩
    · exact enterWaits_only rfl c
    · exact enterWaits_only (s := s) (t := s.read c o) rfl c
  have cells : u.cells = s.cells := by
    rcases read with rfl | ⟨-, o, rfl⟩
    · rfl
    · rfl
  refine ⟨((u.enterWaits c).undrip c).setCmd { c with phase := .parked }, ?_, ?_, ?_, ?_⟩
  · unfold decideStart
    dsimp only
    rw [show (u.enterWaits c).waitsMet id = false by rw [entered]; exact waits]
    rfl
  · rw [entered]
    have name := id_of_cmd found
    exact cmd_setCmd_self (s := State.undrip { u with waits := (s.enterWaits c).waits } c) found' name
  · rw [entered]
    rfl
  · rw [entered]
    exact cells

end

section
variable {s : State} {id : Nat} {c : Cmd} (found : s.cmd id = some c) {k : State → Cmd → Host.Outcome State Fault Refusal}
include found

theorem refused_next (status detail : Nat) : Passed s c (s.refuseCmd c status detail) ∧ (s.refuseCmd c status detail).cells = s.cells ∧
    (s.refuseCmd c status detail).mem = s.mem ∧
    (s.refuseCmd c status detail).cmd id =
      some { c with phase := .finished, status := status, detail := detail, signalled := true, t0 := s.now } := by
  have name := id_of_cmd found
  have spec := refuseCmd_spec (s := s) (c := c) (d := c) (name.symm ▸ found) status detail
  rw [name] at spec
  exact spec

/-- A refusal after the read of the descriptor. -/
theorem refused_read {o : Nat} (status detail : Nat) :
    let t := (s.read c o).refuseCmd (c.having (s.memBytes o (klen c.d))) status detail
    Passed s c t ∧ t.cells = s.cells ∧ t.mem = s.mem ∧ ∃ d, t.cmd id = some d ∧ d.phase = .finished ∧ d.status = status ∧
      d.detail = detail ∧ d.signalled = true := by
  have name := id_of_cmd found
  have found' : (s.read c o).cmd (c.having (s.memBytes o (klen c.d))).id = some (c.having (s.memBytes o (klen c.d))) := by
    rw [show (c.having (s.memBytes o (klen c.d))).id = id from name]
    exact cmd_read found o
  obtain ⟨passed, cells, mem, cmd⟩ := refuseCmd_spec found' status detail
  rw [show (c.having (s.memBytes o (klen c.d))).id = id from name] at cmd
  exact ⟨passed.of_same (c := c) (s := s) rfl rfl, cells, mem, _, cmd, rfl, rfl, rfl, rfl⟩

end

/-- The command that the checks of its fields refuse though they read its descriptor: the first check that fails counts (R430). -/
theorem checkedCmd_first {s : State} {id a : Nat} {c : Cmd} {b : Bad} {o : Nat} {h : Home}
    {k : State → Cmd → Host.Outcome State Fault Refusal} (found : s.cmd id = some c) (named : c.named) (fresh : c.fetch = none)
    (ok : c.status = 0) (here : ReadsHere s c a) (reach : s.argReach c.part false (karg c.d 0) (klen c.d) = .ok h)
    (bad : s.checkCmd c.part c.d = some (b, o)) (other : b ≠ .format) :
    let first := match s.collBad c.part (s.memBytes a (klen c.d)) with
      | some (.format, e) => (Bad.format.status, e)
      | _ => (b.status, o)
    checkedCmd c s k = .next ((s.read c a).refuseCmd (c.having (s.memBytes a (klen c.d))) first.1 first.2) := by
  rw [checkedCmd_read_refused named.1 named.2 reach bad other, withDesc_here here found fresh ok]
  rw [show (s.read c a).collBad (c.having (s.memBytes a (klen c.d))).part (s.memBytes a (klen c.d)) =
    s.collBad c.part (s.memBytes a (klen c.d)) from collBad_read ..]
  rcases s.collBad c.part (s.memBytes a (klen c.d)) with _ | ⟨_ | _ | _, _⟩ <;> rfl

/-- A COLLECT whose descriptor fails a check. -/
theorem checkedCmd_collBad {s : State} {id a : Nat} {c : Cmd} {b : Bad} {o : Nat}
    {k : State → Cmd → Host.Outcome State Fault Refusal} (found : s.cmd id = some c) (named : c.named) (fresh : c.fetch = none)
    (ok : c.status = 0) (here : ReadsHere s c a) (good : s.checkCmd c.part c.d = none)
    (bad : s.collBad c.part (s.memBytes a (klen c.d)) = some (b, o)) :
    checkedCmd c s k = .next ((s.read c a).refuseCmd (c.having (s.memBytes a (klen c.d))) b.status o) := by
  obtain ⟨h, reach⟩ := argReach_of_passed named.1 good
  rw [checkedCmd_read_passed named.1 named.2 reach good, withDesc_here here found fresh ok]
  rw [show (s.read c a).collBad (c.having (s.memBytes a (klen c.d))).part (s.memBytes a (klen c.d)) = some (b, o) from
    (collBad_read ..).trans bad]

theorem commandStart : Claims.CommandStart := by
  intro s id c live found starts turn recorded next passed ended started front reads valid
  have queued : front → exec (.commandStart id) s = checkedCmd c s (decideStart id) := fun ⟨queued, staged, first⟩ =>
    exec_commandStart_queued live found starts turn recorded queued staged first
  have parked := exec_commandStart_parked live found starts turn recorded
  refine ⟨fun fr b o bad kind => ?_, fun fr named fresh ok a b o h here reach bad other => ?_,
    fun fr good named fresh ok a b o here bad => ?_, fun fr val none_ met served free => ?_, fun fr val waits => ?_,
    fun park met served free => ?_, fun park met gone alone => ?_, fun park unmet => ?_⟩
  · have refused : checkedCmd c s (decideStart id) = .next (s.refuseCmd c b.status o) := by
      rcases kind with rfl | kind
      · exact checkedCmd_format bad
      · exact checkedCmd_refused (fun named => kind named.1) bad
    obtain ⟨pass, cells, mem, cmd⟩ := refused_next found b.status o
    exact ⟨_, (queued fr).trans refused, pass, cells, mem, cmd⟩
  · intro first
    obtain ⟨pass, cells, mem, cmd⟩ := refused_read (o := a) found first.1 first.2
    exact ⟨_, (queued fr).trans (checkedCmd_first found named fresh ok here reach bad other), pass, cells, mem, cmd⟩
  · obtain ⟨pass, cells, mem, cmd⟩ := refused_read (o := a) found b.status o
    exact ⟨_, (queued fr).trans (checkedCmd_collBad found named fresh ok here good bad), pass, cells, mem, cmd⟩
  · obtain ⟨u, read, run⟩ := checkedCmd_valid found val.1 val.2
    obtain ⟨t, d, decided, begun⟩ := decideStart_started found read none_ met served free
    obtain ⟨pass, begun⟩ := begun
    exact ⟨t, d, (queued fr).trans ((run _).trans decided), pass, begun⟩
  · obtain ⟨u, read, run⟩ := checkedCmd_valid found val.1 val.2
    obtain ⟨t, decided, rest⟩ := decideStart_parked found read waits
    exact ⟨t, (queued fr).trans ((run _).trans decided), rest⟩
  · have name := id_of_cmd found
    have begun := started_begin (s := s) (c := c) (d := c) (name.symm ▸ found)
    rw [name] at begun
    obtain ⟨pass, begun⟩ := begun
    refine ⟨_, _, (parked park).trans ?_, pass, begun⟩
    rw [met, served, free]
    rfl
  · obtain ⟨pass, cells, mem, cmd⟩ := refused_next found 4 0
    refine ⟨_, (parked park).trans ?_, pass, cells, mem, cmd⟩
    rw [met, gone, alone]
    rfl
  · rw [parked park, unmet]
    rfl

/-! ### The classes without a movement of data (R314, R356, R359) -/

section
variable {s : State} {id cls : Nat} {c : Cmd} (live : s.live = true) (found : s.cmd id = some c) (started : c.phase = .started)
  (ok : c.status = 0) (running : (s.epochOf c.part).stopped = false) (kind : kclass c.d = cls)
include live found started ok running kind

theorem classEffect_due (k : Cmd → Host.Outcome State Fault Refusal) : classEffect id cls s k = k c := by
  unfold classEffect
  rw [whenLive_of_live _ live, found, withItem_some, whenDue_of_due _ (by simp [started, ok, running, kind])]

end

theorem setBits_lt {w lsb width : Nat} (v : Nat) {n : Nat} (hw : w < 2 ^ n) (fits : lsb + width ≤ n) : setBits w lsb width v < 2 ^ n := by
  refine Nat.lt_pow_two_of_testBit _ fun i hi => ?_
  rw [testBit_setBits, if_neg (by omega)]
  exact Nat.testBit_lt_two_pow (hw.trans_le (Nat.pow_le_pow_right (by decide) hi))

/-- The word of a register with a field replaced. -/
theorem word_setBits (x : Word) (lsb width v : Nat) (fits : lsb + width ≤ 64) :
    (BitVec.ofNat 64 (setBits x.toNat lsb width v)).toNat = setBits x.toNat lsb width v := by
  rw [BitVec.toNat_ofNat]
  exact Nat.mod_eq_of_lt (setBits_lt v x.isLt fits)

section
variable (s : State) (key lsb width v : Nat) (fits : lsb + width ≤ 64)
include fits

theorem barW_setBarF : (s.setBarF key lsb width v).barW key = setBits (s.barW key) lsb width v :=
  (congrArg BitVec.toNat (Tab.get_set_self ..)).trans (word_setBits _ _ _ _ fits)

theorem stgW_setBarF : (s.setBarF key lsb width v).stgW key = setBits (s.stgW key) lsb width v :=
  (congrArg BitVec.toNat (Tab.get_set_self ..)).trans (word_setBits _ _ _ _ fits)

end

theorem words_setBarF_other (s : State) {key k : Nat} (lsb width v : Nat) (h : k ≠ key) :
    (s.setBarF key lsb width v).barW k = s.barW k ∧ (s.setBarF key lsb width v).stgW k = s.stgW k :=
  ⟨congrArg BitVec.toNat (Tab.get_set_other _ _ _ _ _ h), congrArg BitVec.toNat (Tab.get_set_other _ _ _ _ _ h)⟩

/-- A POWER command sets its field of the partition's register, in effect and staged (R359). -/
theorem powerField_sets {s : State} {id action lsb width : Nat} {c : Cmd} (live : s.live = true) (found : s.cmd id = some c)
    (started : c.phase = .started) (ok : c.status = 0) (running : (s.epochOf c.part).stopped = false) (kind : kclass c.d = 8)
    (fresh : c.performed = false) (named : karg c.d 0 = action) (small : karg c.d 1 < 2 ^ width) (fits : lsb + width ≤ 64) :
    let key := 0x050100 + 8 * c.part
    ∃ t, powerField id action lsb width s = .next t ∧
      t.cmd id = some { c with performed := true, phase := .finished } ∧ t.barF key lsb width = karg c.d 1 ∧
      bits (t.stgW key) lsb width = karg c.d 1 ∧ (∀ l w, l + w ≤ lsb ∨ lsb + width ≤ l → t.barF key l w = s.barF key l w) ∧
      (∀ l w, l + w ≤ lsb ∨ lsb + width ≤ l → bits (t.stgW key) l w = bits (s.stgW key) l w) ∧
      (∀ k, k ≠ key → t.barW k = s.barW k ∧ t.stgW k = s.stgW k) ∧ t = { s with bar := t.bar, stg := t.stg, cmds := t.cmds } := by
  intro key
  have name := id_of_cmd found
  have mod := Nat.mod_eq_of_lt small
  have bar : ((s.setBarF key lsb width (karg c.d 1)).setCmd { c.perform with phase := .finished }).barW key =
      setBits (s.barW key) lsb width (karg c.d 1) := barW_setBarF s key lsb width _ fits
  have stg : ((s.setBarF key lsb width (karg c.d 1)).setCmd { c.perform with phase := .finished }).stgW key =
      setBits (s.stgW key) lsb width (karg c.d 1) := stgW_setBarF s key lsb width _ fits
  refine ⟨(s.setBarF key lsb width (karg c.d 1)).setCmd { c.perform with phase := .finished }, ?_, ?_, ?_, ?_, fun l w apart => ?_,
    fun l w apart => ?_, fun k hk => words_setBarF_other s lsb width _ hk, rfl⟩
  · unfold powerField
    rw [classEffect_due live found started ok running kind, whenDue_of_due _ (by simp [fresh, named])]
  · exact cmd_setCmd_self (s := s.setBarF key lsb width (karg c.d 1)) found name
  · rw [State.barF, bar, bits_setBits_self, mod]
  · rw [stg, bits_setBits_self, mod]
  · rw [State.barF, bar, bits_setBits_other _ _ _ _ _ _ apart]
    rfl
  · rw [stg, bits_setBits_other _ _ _ _ _ _ apart]

/-- A request for a boundary at the partition itself (R508). -/
theorem requestBoundary_own {s : State} {p : Nat} (own : s.inSwarm = false ∨ s.owner ≠ p ∨ s.swarm.role = 3) (u : Bool) :
    ((s.epochOf p).cutting = false → ((s.requestBoundary p u).epochOf p).requested = true) ∧
      ((s.epochOf p).cutting = true → s.requestBoundary p u = s) := by
  have here : ¬((s.inSwarm && s.owner == p && s.swarm.role != 3) = true) := by
    rcases own with h | h | h <;> simp [h]
  unfold State.requestBoundary
  rw [if_neg here]
  refine ⟨fun free => ?_, fun busy => if_pos busy⟩
  rw [if_neg (by simp [free])]
  dsimp only
  rw [epochOf_setEpoch_self, epochOf_setEpoch_self]

theorem smallCommands : Claims.SmallCommands := by
  intro s id c live found started ok running fresh done key power
  have name := id_of_cmd found
  refine ⟨fun kind => ?_, fun kind => ?_, fun kind none_ => ?_, fun kind some_ => ?_, fun kind => ?_,
    fun kind named small => ?_, fun kind named small => ?_⟩
  · rw [exec, execSync, classEffect_due live found started ok running kind, whenDue_of_due _ (by simp [fresh])]
    rfl
  · rw [exec, execNopCommand, classEffect_due live found started ok running kind, whenDue_of_due _ (by simp [fresh])]
    rfl
  · rw [exec, execFence, classEffect_due live found started ok running kind, whenDue_of_due _ (by simp [fresh]), whenFree,
      if_pos (by simpa using none_)]
    rfl
  · obtain ⟨b, hb, earlier⟩ := some_
    rw [exec, execFence, classEffect_due live found started ok running kind, whenDue_of_due _ (by simp [fresh]), whenFree,
      if_neg (by simpa using ⟨b, hb, earlier⟩)]
  · have inert : ReportInert State.cmds := ⟨fun _ _ _ => rfl, fun _ _ _ => rfl, fun _ _ => rfl, fun _ _ _ _ => rfl, fun _ _ _ => rfl,
      fun _ _ _ => rfl, fun _ _ _ _ => rfl, fun _ _ _ _ _ => rfl, fun _ _ _ => rfl⟩
    refine ⟨(s.setCmd c.perform).requestBoundary c.part false, ?_, ?_, bare_requestBoundary .., fun own => ?_⟩
    · rw [exec, execEpoch, classEffect_due live found started ok running kind, whenDue_of_due _ (by simp [fresh])]
    · exact (cmd_of_cmds (inert.requestBoundary ..) id).trans (cmd_setCmd_self found name)
    · exact requestBoundary_own (s := s.setCmd c.perform) own false
  · exact powerField_sets live found started ok running kind fresh named small (by decide)
  · exact powerField_sets live found started ok running kind fresh named small (by decide)

/-! ### Signal entries of a command (R311) -/

/-- A signal is the `i`-th entry of a command. -/
def State.IsEntry (s : State) (c : Cmd) (i : Nat) (g : Sig) : Prop :=
  s.syncRef c.part (ksigObj c.d i) = .loc g.obj ∧ g.v = BitVec.ofNat 64 (ksigVal c.d i) ∧ g.cmd = some c.id ∧
    g.set = (dfield c.d 0 (17 + i) 1 == 1)

/-- The issue of the `i`-th signal entry of a command. -/
def State.issueEntry (c : Cmd) (t : State) (i : Nat) : State :=
  t.issueSig (.processor (t.procOf c.part c.ring)) (.cmd c.id) c.part (some c.id) t.farTag
    (t.syncRef c.part (ksigObj c.d i)) (dfield c.d 0 (17 + i) 1 == 1) (BitVec.ofNat 64 (ksigVal c.d i))

/-- The signal that an entry makes of an object of this module. -/
def State.entrySig (t : State) (c : Cmd) (i o : Nat) : Sig :=
  { eng := .processor (t.procOf c.part c.ring), part := c.part, obj := o, set := dfield c.d 0 (17 + i) 1 == 1,
    v := BitVec.ofNat 64 (ksigVal c.d i), cmd := some c.id, ord := t.farTag, ack := none }

theorem issueEntry_local {t : State} {c : Cmd} {i o : Nat} (ref : t.syncRef c.part (ksigObj c.d i) = .loc o) :
    t.issueEntry c i = { t with sigs := t.sigs ++ [t.entrySig c i o], farTag := t.farTag + 1 } := by
  unfold State.issueEntry
  rw [ref]
  rfl

theorem issueSignals_list {s : State} {c : Cmd} (l : List Nat) : ∀ t : State, t.syncRef = s.syncRef →
    (∀ i ∈ l, ∃ o, s.syncRef c.part (ksigObj c.d i) = .loc o) →
    (foldS (State.issueEntry c) t l).cmds = t.cmds ∧
      ∃ gs, (foldS (State.issueEntry c) t l).sigs = t.sigs ++ gs ∧ List.Forall₂ (s.IsEntry c) l gs := by
  induction l with
  | nil => exact fun t _ _ => ⟨rfl, [], (List.append_nil _).symm, .nil⟩
  | cons i l ih =>
    intro t same ok
    obtain ⟨o, ref⟩ := ok i List.mem_cons_self
    have issued : t.syncRef c.part (ksigObj c.d i) = .loc o := same ▸ ref
    obtain ⟨cmds, gs, sigs, entries⟩ := ih { t with sigs := t.sigs ++ [t.entrySig c i o], farTag := t.farTag + 1 } same
      fun j hj => ok j (List.mem_cons_of_mem _ hj)
    have step : foldS (State.issueEntry c) t (i :: l) =
        foldS (State.issueEntry c) { t with sigs := t.sigs ++ [t.entrySig c i o], farTag := t.farTag + 1 } l :=
      congrArg (fun u => foldS (State.issueEntry c) u l) (issueEntry_local issued)
    rw [step]
    exact ⟨cmds, t.entrySig c i o :: gs, sigs.trans (List.append_cons t.sigs _ gs).symm, .cons ⟨ref, rfl, rfl, rfl⟩ entries⟩

theorem issueSignals_spec {s : State} {c : Cmd} (ok : ∀ i, i < knsig c.d → ∃ o, s.syncRef c.part (ksigObj c.d i) = .loc o) :
    (s.issueSignals c).cmds = s.cmds ∧ (s.issueSignals c).sigs.length = s.sigs.length + knsig c.d ∧
      ∀ i, i < knsig c.d → ∃ g, (s.issueSignals c).sigs[s.sigs.length + i]? = some g ∧ s.IsEntry c i g := by
  obtain ⟨cmds, gs, sigs, entries⟩ := issueSignals_list (s := s) (c := c) (List.range (knsig c.d)) s rfl fun i hi =>
    ok i (List.mem_range.mp hi)
  obtain ⟨len, each⟩ := List.forall₂_iff_get.mp entries
  rw [List.length_range] at len
  refine ⟨cmds, (congrArg List.length sigs).trans (by rw [List.length_append, ← len]), fun i hi => ?_⟩
  refine ⟨gs[i], (congrArg (fun l : List Sig => l[s.sigs.length + i]?) sigs).trans ?_, ?_⟩
  · rw [List.getElem?_append_right (by omega), Nat.add_sub_cancel_left, List.getElem?_eq_getElem (by omega)]
  · have := each i (by simpa using hi) (by omega)
    simpa using this

/-! ### What a command holds is freed (R95) -/

/-- The cells of a command are freed. -/
def State.release (s : State) (id : Nat) (l : List Nat) : State :=
  foldS (fun s n => if (s.cell n).cmd = some id then
    s.setCell n { s.cell n with cmd := none, run := .idle, portQ := [], refusal := none } else s) s l

theorem cell_release_other {id n : Nat} (l : List Nat) : ∀ s : State, n ∉ l ∨ (s.cell n).cmd ≠ some id →
    (s.release id l).cell n = s.cell n := by
  induction l with
  | nil => exact fun _ _ => rfl
  | cons m l ih =>
    intro s h
    have kept : (if (s.cell m).cmd = some id then
        s.setCell m { s.cell m with cmd := none, run := .idle, portQ := [], refusal := none } else s).cell n = s.cell n := by
      split
      next mine =>
        refine cell_setCell_other s _ ?_
        rintro rfl
        exact h.elim (fun away => away List.mem_cons_self) (fun other => other mine)
      · rfl
    refine (ih _ ?_).trans kept
    rw [kept]
    exact h.imp_left fun away later => away (List.mem_cons_of_mem _ later)

theorem cell_release_own {id n : Nat} (l : List Nat) : ∀ s : State, n ∈ l → (s.cell n).cmd = some id →
    ((s.release id l).cell n).cmd = none ∧ ((s.release id l).cell n).run = .idle := by
  induction l with
  | nil => exact fun _ h => absurd h List.not_mem_nil
  | cons m l ih =>
    intro s h mine
    by_cases first : n = m
    · subst first
      have freed : (State.release s id (n :: l)).cell n = { s.cell n with cmd := none, run := .idle, portQ := [], refusal := none } := by
        have step : State.release s id (n :: l) =
            State.release (s.setCell n { s.cell n with cmd := none, run := .idle, portQ := [], refusal := none }) id l :=
          congrArg (fun t => State.release t id l) (if_pos mine)
        rw [step, cell_release_other l _ (.inr (by rw [cell_setCell_self]; exact (Option.some_ne_none id).symm)), cell_setCell_self]
      rw [freed]
      exact ⟨rfl, rfl⟩
    · refine ih _ ((List.mem_cons.mp h).resolve_left first) ?_
      dsimp only
      split
      · rw [cell_setCell_other s _ first]
        exact mine
      · exact mine

/-- A part of the state that shows neither the watchdogs, nor the commands, nor rings, nor operating points: freeing a command shows in
its cells only. -/
theorem field_of_freeCmd {β : Type} (g : State → β) (resets : ∀ s r, g { s with resets := r } = g s)
    (cmds : ∀ s c, g { s with cmds := c } = g s) (rings : ∀ s r, g { s with rings := r } = g s) (tuned : ∀ s, g (State.untuned s) = g s)
    (s : State) (c : Cmd) : g (s.freeCmd c) = g (s.release c.id c.cells) := by
  have freed : g { (s.release c.id c.cells).setCounted c.id 0 with
      cmds := (s.release c.id c.cells).cmds.filter fun b => b.id != c.id } = g (s.release c.id c.cells) :=
    (cmds ..).trans (resets ..)
  unfold State.freeCmd
  dsimp only
  split
  · split
    · exact (rings ..).trans freed
    · exact freed
  · refine (retuneAll_field g tuned _).trans ?_
    split
    · exact (rings ..).trans freed
    · exact freed

theorem cmds_freeCmd (s : State) (c : Cmd) : (s.freeCmd c).cmds = s.cmds.filter fun b => b.id != c.id := by
  have kept : (s.release c.id c.cells).cmds = s.cmds := foldS_keeps State.cmds (fun t n => by split <;> rfl) _ _
  unfold State.freeCmd
  dsimp only
  split
  · split
    · exact congrArg (List.filter _) kept
    · exact congrArg (List.filter _) kept
  · refine (retuneAll_field State.cmds (fun _ => rfl) _).trans ?_
    split
    · exact congrArg (List.filter _) kept
    · exact congrArg (List.filter _) kept

theorem cmd_freeCmd (s : State) (c : Cmd) : (s.freeCmd c).cmd c.id = none := by
  rw [State.cmd, cmds_freeCmd, List.find?_eq_none]
  intro b hb
  simpa using (List.mem_filter.mp hb).2

/-! ### COMMAND_COMPLETE (R95, R313, R365) -/

/-- The state before a completion frees what the command holds: its record is written, and counted and traced. -/
def State.recordDone (s : State) (c : Cmd) : State :=
  let s1 := if (dfield c.d 0 10 1 == 1 && c.final == 0) || s.replayed c then s
    else s.ringWrite .none c.part (s.cplBase c.part c.ring + 32 * c.entry) (s.cplBytes c)
  ((s1.bump 54 1).bump 55 (if c.final = 0 then 0 else 1)).trace 2 c.part c.ring c.entry c.final (dfield c.d 0x20 0 64)

theorem finishCmd_eq (s : State) (c : Cmd) : s.finishCmd c = (s.recordDone c).freeCmd c := rfl

/-- Writing the completion record leaves alone what neither reports nor the two counts show in. -/
theorem field_of_recordDone {β : Type} (g : State → β) (inert : ReportInert g) (count : ∀ s n k, g (State.bump s n k) = g s) (s : State)
    (c : Cmd) : g (s.recordDone c) = g s := by
  unfold State.recordDone
  dsimp only
  refine (inert.trace ..).trans ((count ..).trans ((count ..).trans ?_))
  split
  · rfl
  · exact inert.ringWrite ..

theorem cells_recordDone (s : State) (c : Cmd) : (s.recordDone c).cells = s.cells :=
  field_of_recordDone State.cells ⟨fun _ _ _ => rfl, fun _ _ _ => rfl, fun _ _ => rfl, fun _ _ _ _ => rfl, fun _ _ _ => rfl,
    fun _ _ _ => rfl, fun _ _ _ _ => rfl, fun _ _ _ _ _ => rfl, fun _ _ _ => rfl⟩ (fun _ _ _ => rfl) s c

theorem cells_finishCmd (s : State) (c : Cmd) (n : Nat) : (s.finishCmd c).cell n = (s.recordDone c |>.release c.id c.cells).cell n :=
  field_of_freeCmd (fun s => s.cell n) (fun _ _ => rfl) (fun _ _ => rfl) (fun _ _ => rfl) (fun _ => rfl) (s.recordDone c) c

theorem ext_trace (s : State) (ty p src a b c : Nat) : (s.trace ty p src a b c).ext = s.ext := by
  unfold State.trace
  split
  · split <;> rfl
  · rfl

theorem ext_finishCmd (s : State) (c : Cmd) : (s.finishCmd c).ext =
    (if (dfield c.d 0 10 1 == 1 && c.final == 0) || s.replayed c then s
      else s.ringWrite .none c.part (s.cplBase c.part c.ring + 32 * c.entry) (s.cplBytes c)).ext := by
  have freed := field_of_freeCmd State.ext (fun _ _ => rfl) (fun _ _ => rfl) (fun _ _ => rfl) (fun _ => rfl) (s.recordDone c) c
  have released : ((s.recordDone c).release c.id c.cells).ext = (s.recordDone c).ext :=
    foldS_keeps State.ext (fun t n => by split <;> rfl) _ _
  exact (freed.trans released).trans (ext_trace ..)

theorem cplBytes_length (s : State) (c : Cmd) : (s.cplBytes c).length = 32 := by
  simp only [State.cplBytes, List.length_append, length_leBytes]

/-- A record that goes to host memory at once stands there. -/
theorem extBytes_ringWrite {s : State} {o : Owner} {p a h : Nat} {bs : List Byte} (atOnce : s.hostAtOnce h bs.length = true)
    (reach : s.reach p .rings true false a bs.length = .ok (.host h)) :
    (s.ringWrite o p a bs).extBytes (hostKey h) bs.length = bs := by
  have wrote : s.ringWrite o p a bs = (s.pokeExt (hostKey h) bs).bump 61 bs.length := by
    unfold State.ringWrite
    rw [reach]
    exact if_pos atOnce
  rw [wrote]
  exact extBytes_pokeExt ..

theorem extBytes_of_ext {s t : State} (h : t.ext = s.ext) (a n : Nat) : t.extBytes a n = s.extBytes a n := by
  unfold State.extBytes State.extByte
  rw [h]

theorem pending_of_requests {s t : State} (h : (t.far, t.fab, t.link, t.farTag) = (s.far, s.fab, s.link, s.farTag)) :
    (∀ o, t.outstanding o = s.outstanding o) ∧ ∀ id, t.cmdPending id = s.cmdPending id := by
  simp only [Prod.mk.injEq] at h
  obtain ⟨far, fab, link, tag⟩ := h
  unfold State.cmdPending State.outstanding State.pendingBefore
  rw [far, fab, link, tag]
  exact ⟨fun _ => rfl, fun _ => rfl⟩

/-- The last stages of a completion with no counter record and no effect log. -/
theorem recordCmd_unlogged {s : State} {c b : Cmd} (plain : c.latch = false) (unlogged : c.logged = false) (off : s.linOn c.part = false)
    (ring : s.lacksRing c = false) (settled : s.cmdPending c.id = false) (clear : s.outstanding (.log c.part) = false)
    (found : s.cmd c.id = some b) : s.recordCmd c = .next ((s.setCmd { c with logged := true, extra := 0 }).finishCmd
      { c with logged := true, extra := 0 }) := by
  have open_ : (!s.effectFull c.part && (s.replayed c || !s.lacksRing c)) = true := by
    rw [State.effectFull, off, ring]
    simp
  have written : (s.writeCrec { c with logged := true }).appendEffect c.part 1 0 0 c.intake 0 =
      s.setCmd { c with logged := true, extra := 0 } := by
    have crec : s.writeCrec { c with logged := true } = s.setCmd { c with logged := true, extra := 0 } := by
      unfold State.writeCrec
      exact if_neg (by simp [State.writesCrec, plain])
    rw [crec]
    unfold State.appendEffect
    exact if_neg (by rw [show State.linOn (s.setCmd { c with logged := true, extra := 0 }) c.part = false from off]; decide)
  obtain ⟨same, same'⟩ := pending_of_requests (s := s) (t := s.setCmd { c with logged := true, extra := 0 }) rfl
  unfold State.recordCmd
  rw [unlogged]
  refine (if_pos open_).trans ?_
  rw [written, same', same, settled, clear, cmd_setCmd_self (d := { c with logged := true, extra := 0 }) found rfl]
  rfl

section
variable {s : State} {id : Nat} {c : Cmd} (live : s.live = true) (found : s.cmd id = some c)
  (started : c.phase = .started ∨ c.phase = .finished) (done : s.effectsDone c = true) (kept : c.hwLost = false)
include live found started done kept

theorem exec_commandComplete : exec (.commandComplete id) s =
    if !c.signalled then
      let d := { c with signalled := true, ends := if c.latch then s.counters c c.sel.toNat else [] }
      if d.final = 0 ∧ 0 < knsig d.d then .next ((s.setCmd d).issueSignals d) else (s.setCmd d).recordCmd d
    else s.recordCmd c := by
  have waits : c.waiting = false := by rcases started with h | h <;> simp [Cmd.waiting, h]
  rw [exec, execCommandComplete, whenLive_of_live _ live, found, withItem_some, whenDue_of_due _ (by simp [waits, kept, done])]

/-- A completion that begins, of a command without a counter record. -/
theorem exec_commandComplete_fresh (fresh : c.signalled = false) (plain : c.latch = false) : exec (.commandComplete id) s =
    if c.final = 0 ∧ 0 < knsig c.d then
      .next ((s.setCmd { c with signalled := true, ends := [] }).issueSignals { c with signalled := true, ends := [] })
    else (s.setCmd { c with signalled := true, ends := [] }).recordCmd { c with signalled := true, ends := [] } := by
  rw [exec_commandComplete live found started done kept]
  refine (if_pos (by rw [fresh]; rfl)).trans ?_
  dsimp only
  rw [if_neg (c := c.latch = true) (by rw [plain]; decide)]
  rfl

/-- Signal entries come first. -/
theorem commandComplete_signals (fresh : c.signalled = false) (plain : c.latch = false) (ok : c.final = 0) (some_ : 0 < knsig c.d)
    (here : ∀ i, i < knsig c.d → ∃ o, s.syncRef c.part (ksigObj c.d i) = .loc o) :
    ∃ t, exec (.commandComplete id) s = .next t ∧ t.cmd id = some { c with signalled := true, ends := [] } ∧
      t.sigs.length = s.sigs.length + knsig c.d ∧ ∀ i, i < knsig c.d → ∃ g, t.sigs[s.sigs.length + i]? = some g ∧
        s.syncRef c.part (ksigObj c.d i) = .loc g.obj ∧ g.v = BitVec.ofNat 64 (ksigVal c.d i) ∧ g.cmd = some id ∧
        g.set = (dfield c.d 0 (17 + i) 1 == 1) := by
  have name := id_of_cmd found
  obtain ⟨cmds, len, each⟩ := issueSignals_spec (s := s.setCmd { c with signalled := true, ends := [] })
    (c := { c with signalled := true, ends := [] }) here
  refine ⟨_, ?_, (cmd_of_cmds cmds id).trans (cmd_setCmd_self found name), len, fun i hi => ?_⟩
  · rw [exec_commandComplete_fresh live found started done kept fresh plain, if_pos ⟨ok, some_⟩]
  · obtain ⟨g, at_, ref, v, cmd, set⟩ := each i hi
    exact ⟨g, at_, ref, v, cmd.trans (congrArg some name), set⟩

/-- With nothing to signal and no log, the command is complete. -/
theorem commandComplete_unlogged (fresh : c.signalled = false) (plain : c.latch = false) (unlogged : c.logged = false)
    (quiet : knsig c.d = 0 ∨ c.final ≠ 0) (off : s.linOn c.part = false) (ring : s.lacksRing c = false)
    (clear : s.outstanding (.log c.part) = false) : ∃ t, exec (.commandComplete id) s = .next t ∧ t.cmd id = none := by
  have name := id_of_cmd found
  have settled : s.cmdPending id = false := by
    simp only [State.effectsDone, Bool.and_eq_true, Bool.not_eq_true'] at done
    obtain ⟨⟨⟨-, settled⟩, -⟩, -⟩ := done
    exact name ▸ settled
  obtain ⟨same, same'⟩ := pending_of_requests (s := s) (t := s.setCmd { c with signalled := true, ends := [] }) rfl
  have mine : (s.setCmd { c with signalled := true, ends := [] }).cmd c.id = some { c with signalled := true, ends := [] } := by
    have found' : s.cmd c.id = some c := by rw [name, found]
    exact cmd_setCmd_self found' rfl
  have written := recordCmd_unlogged (s := s.setCmd { c with signalled := true, ends := [] })
    (c := { c with signalled := true, ends := [] }) plain unlogged off ring ((same' c.id).trans (name.symm ▸ settled))
    ((same _).trans clear) mine
  refine ⟨_, Eq.trans ?_ written, ?_⟩
  · rw [exec_commandComplete_fresh live found started done kept fresh plain]
    have noSignal : ¬(c.final = 0 ∧ 0 < knsig c.d) := by
      rintro ⟨final, some_⟩
      exact quiet.elim (fun none_ => absurd some_ (by omega)) fun bad => bad final
    exact if_neg noSignal
  · exact (congrArg (State.cmd _) name.symm).trans (cmd_freeCmd ..)

/-- With the records in the logs, the completion record is written and the command is freed. -/
theorem commandComplete_logged (signalled : c.signalled = true) (logged : c.logged = true)
    (clear : s.outstanding (.log c.part) = false) :
    exec (.commandComplete id) s = .next (s.finishCmd c) := by
  rw [exec_commandComplete live found started done kept, signalled]
  show s.recordCmd c = _
  unfold State.recordCmd
  rw [logged, clear]
  rfl

end

/-- The completion record stands at its slot of a ring in host memory (R365). -/
theorem extBytes_finishCmd {s : State} {c : Cmd} {h : Nat} (atOnce : s.hostAtOnce h 32 = true) (first : s.replayed c = false)
    (loud : dfield c.d 0 10 1 = 0 ∨ c.final ≠ 0)
    (reach : s.reach c.part .rings true false (s.cplBase c.part c.ring + 32 * c.entry) 32 = .ok (.host h)) :
    (s.finishCmd c).extBytes (hostKey h) 32 = s.cplBytes c := by
  have written : (dfield c.d 0 10 1 == 1 && c.final == 0 || s.replayed c) = false := by
    rcases loud with h | h <;> simp [first, h]
  have len := cplBytes_length s c
  rw [extBytes_of_ext (ext_finishCmd s c), written, if_neg Bool.false_ne_true]
  rw [← len] at atOnce reach
  have stands := extBytes_ringWrite (o := .none) atOnce reach
  rw [len] at stands
  exact stands

theorem commandComplete : Claims.CommandComplete := by
  intro s id c live found started done kept
  refine ⟨fun fresh plain ok some_ here => commandComplete_signals live found started done kept fresh plain ok some_ here,
    fun fresh plain unlogged quiet off ring clear =>
      commandComplete_unlogged live found started done kept fresh plain unlogged quiet off ring clear,
    fun signalled logged clear => ⟨_, commandComplete_logged live found started done kept signalled logged clear, ?_,
      fun n hn mine => ?_, fun n hn => ?_, fun h atOnce first loud reach => extBytes_finishCmd atOnce first loud reach⟩⟩
  · exact (congrArg (State.cmd _) (id_of_cmd found).symm).trans (cmd_freeCmd ..)
  · rw [cells_finishCmd]
    refine cell_release_own _ _ hn ?_
    rw [cell_eq_of_cells (cells_recordDone s c), mine, id_of_cmd found]
  · rw [cells_finishCmd, cell_release_other _ _ (.inl hn), cell_eq_of_cells (cells_recordDone s c)]

/-- Settles O27. -/
theorem commandLife : Obligations.CommandLife := ⟨commandStart, smallCommands, commandComplete⟩

end Sys2Proof.Machine

/-!
PROOFS. The work of the commands MOVE, FORAGE, COLLECT and KERNEL (O28).
-/

namespace Sys2Proof.Machine

/-! ### Transfers (R226, R284, R358) -/

theorem cmds_dataInert : DataInert State.cmds where
  mem _ _ _ := rfl
  ext _ _ _ := rfl
  far _ _ := rfl
  count _ _ _ _ := rfl
  epoch _ _ _ := rfl
  rep _ _ _ := rfl
  sent _ _ _ _ := rfl
  traced _ _ _ _ _ := rfl
  noted _ _ _ := rfl
  corrected _ _ := rfl
  flips _ _ := rfl
  frg _ _ _ := rfl
  granules _ _ _ _ := rfl
  bi _ _ _ := rfl
  issued _ _ := rfl

/-- An owner for which data arrive at an address, not with a command that fetches them. -/
def Owner.places (o : Owner) : Prop := ∀ id, o ≠ .fetch id

theorem cmds_arriveAt {o : Owner} (h : o.places) (s : State) (e p dest : Nat) (bs : List Byte) :
    (s.arriveAt o e p dest bs).cmds = s.cmds := by
  unfold State.arriveAt
  split
  · exact absurd rfl (h _)
  · split
    · exact cmds_dataInert.deliver ..
    · rfl

theorem cmds_pour {o : Owner} (h : o.places) (s : State) : (s.pour o).cmds = s.cmds := by
  unfold State.pour
  refine foldS_keeps State.cmds (fun t line => ?_) _ _
  split
  · exact foldS_keeps State.cmds (f := fun t (r : Nat × List Byte) => t.arriveAt o _ _ r.1 r.2) (fun _ _ => cmds_arriveAt h ..) _ _
  · rfl

theorem cmds_readLocal (s : State) (o : Owner) (e p a len dest : Nat) {k : State → Nat → List Byte → State}
    (hk : ∀ s c bs, (k s c bs).cmds = s.cmds) : (s.readLocal o e p a len dest k).cmds = s.cmds := by
  unfold State.readLocal
  split
  · refine foldS_keeps State.cmds (fun t c => ?_) _ _
    dsimp only
    split
    · rfl
    · exact hk ..
  · exact hk ..

theorem cmds_farRead (s : State) (o : Owner) (e p off key len dest : Nat) : (s.farRead o e p off key len dest).cmds = s.cmds := by
  unfold State.farRead
  refine foldS_keeps State.cmds (fun _ _ => ?_) _ _
  rfl

theorem cmds_remRead (s : State) (o : Owner) (e m off len dest : Nat) : (s.remRead o e m off len dest).cmds = s.cmds := by
  unfold State.remRead
  refine foldS_keeps State.cmds (fun _ _ => ?_) _ _
  rfl

theorem cmds_readFor (s : State) (o : Owner) (e p : Nat) (src : Home) (dest len : Nat) :
    (s.readFor o e p src dest len).cmds = s.cmds := by
  unfold State.readFor
  cases src with
  | loc a =>
    dsimp only
    split
    · refine foldS_keeps State.cmds (fun t c => ?_) _ _
      split
      · exact cmds_farRead ..
      · rfl
    · exact cmds_readLocal _ _ _ _ _ _ _ fun _ _ _ => rfl
  | host a =>
    dsimp only
    split
    · rfl
    · exact cmds_farRead ..
  | far a c => exact cmds_farRead ..
  | rem m a => exact cmds_remRead ..

theorem take_cmds (s : State) (src : Home) (len : Nat) : (s.take src len).1.cmds = s.cmds := by
  cases src <;> rfl

theorem cmds_transfer {o : Owner} (h : o.places) (s : State) (e p : Nat) (src dst : Home) (dest span : Nat)
    (runs : List (Nat × Nat × Nat)) : (s.transfer o e p src dst dest span runs).cmds = s.cmds := by
  unfold State.transfer
  dsimp only
  split
  · refine foldS_keeps State.cmds (fun t r => ?_) _ (s.dropGathered o)
    exact (cmds_dataInert.deliver ..).trans (take_cmds ..)
  · exact (cmds_pour h _).trans (foldS_keeps State.cmds
      (f := fun t (r : Nat × Nat × Nat) => t.readFor o e p (src.add r.1) (dest + r.2.1) r.2.2) (fun _ _ => cmds_readFor ..) _ (s.dropGathered o))

/-- Nothing of the local map is frozen, held by a host, or switched out. -/
structure State.AtRest (s : State) : Prop where
  snoop : s.link.snoop = []
  bis : s.link.bis = []
  close : ∀ d k, (s.frg d).frozen.get k = false
  cell : ∀ k, (s.cell k).frozen = 0 ∧ s.isAway k = false

theorem State.AtRest.writable {s : State} (rest : s.AtRest) (o len : Nat) : s.writable o len = true := by
  obtain ⟨snoop, bis, close, cell⟩ := rest
  have stage : s.stageOk o len = true := by
    rw [stageOk_eq]
    beta_reduce
    rw [List.all_eq_true]
    intro c _
    split
    · generalize s.place4K (o + c.1) = e
      obtain ⟨d, k⟩ := e
      dsimp only
      rw [close d k]
      rfl
    · rw [State.frozenCell, (cell _).1]
      simp
  unfold State.writable
  rw [snoop, bis, stage]
  rfl

/-- A copy inside the local map at rest leaves the source's bytes at the destination and every other byte as it was. -/
theorem transfer_local {s : State} (rest : s.AtRest) (o : Owner) (e p x y dest n : Nat) :
    (s.transfer o e p (.loc x) (.loc y) dest n [(0, 0, n)]).mem = putBytes memDefault s.mem y (s.memBytes x n) := by
  have atHand : (s.dropGathered o).atHand (.loc x) n = true := by
    have held : (s.dropGathered o).heldIn x n = false := by
      show (isClose x && (s.link.snoop.any _ || s.link.bis.any _)) = false
      rw [rest.snoop, rest.bis]
      simp
    have away : (s.dropGathered o).isAway ((x - cellBase) / cellBytes) = false := (rest.cell _).2
    unfold State.atHand
    dsimp only
    rw [held, away, Bool.and_false]
    rfl
  unfold State.transfer
  rw [if_pos atHand]
  show ((s.dropGathered o).deliver o e p (.loc (y + 0)) ((s.dropGathered o).memBytes (x + 0) n)).mem = _
  show ((s.dropGathered o).engineWrite o e (y + 0) ((s.dropGathered o).memBytes (x + 0) n)).mem = _
  have writable : (s.dropGathered o).writable (y + 0) ((s.dropGathered o).memBytes (x + 0) n).length = true :=
    State.AtRest.writable (s := s.dropGathered o) ⟨rest.snoop, rest.bis, rest.close, rest.cell⟩ _ _
  rw [State.engineWrite, if_pos writable, mem_writeFor]
  rfl

/-! ### MOVE (R69, R286, R358) -/

/-- An access of memory that is whole goes on. -/
theorem moveReads_whole {s : State} {c : Cmd} {a b n : Nat} (whole : s.whole a n = true) (there : s.goneIn b n = false)
    (open_ : s.resetHolds b n = false) (clean : s.badWords a n = []) (k : State → Host.Outcome State Fault Refusal) :
    moveReads c a b n s k = k (s.bump 51 (s.correctable a n)) := by
  simp only [State.whole, Bool.and_eq_true, Bool.not_eq_true'] at whole
  obtain ⟨lost, gone⟩ := whole
  unfold moveReads
  rw [gone, there, lost, open_, clean]
  rfl

theorem engineHeld_bump {s : State} {k : Nat} (n : Nat) (h : k ≠ 63) (e : Nat) : (s.bump k n).engineHeld e = s.engineHeld e := by
  unfold State.engineHeld State.storeTakes
  rw [show (s.bump k n).now = s.now from aon_bump_other h.symm s n]
  rfl

/-- The state after a piece of a MOVE is taken by a mover. -/
def State.pieceMoved (s : State) (c : Cmd) (piece : Nat) (a b : Home) : State :=
  let m := s.idleMover c.part
  ((s.setCmd { c with pieces := c.pieces ++ [(piece, m)] }).transfer (.piece c.id piece) (Engine.mover m).key c.part
    (a.add (4096 * piece)) (b.add (4096 * piece)) (karg c.d 1 + 4096 * piece) (min 4096 (karg c.d 2 - 4096 * piece))
    [(0, 0, min 4096 (karg c.d 2 - 4096 * piece))]).bumpComb m 7 (min 4096 (karg c.d 2 - 4096 * piece))

section
variable {s : State} {id piece : Nat} {c : Cmd} (live : s.live = true) (found : s.cmd id = some c) (started : c.phase = .started)
  (ok : c.status = 0) (running : (s.epochOf c.part).stopped = false) (kind : kclass c.d = 2)
include live found started ok running kind

theorem exec_move {a b : Home} (valid : piece < pieces c.d) (fresh : ∀ m, (piece, m) ∉ c.pieces)
    (whole : s.whole (s.localAt c.part (karg c.d 0 + 4096 * piece)) (min 4096 (karg c.d 2 - 4096 * piece)) = true)
    (there : s.goneIn (s.localAt c.part (karg c.d 1 + 4096 * piece)) (min 4096 (karg c.d 2 - 4096 * piece)) = false)
    (open_ : s.resetHolds (s.localAt c.part (karg c.d 1 + 4096 * piece)) (min 4096 (karg c.d 2 - 4096 * piece)) = false)
    (clean : s.badWords (s.localAt c.part (karg c.d 0 + 4096 * piece)) (min 4096 (karg c.d 2 - 4096 * piece)) = [])
    (load : s.moverLoad (s.idleMover c.part) < 16) (free : s.engineHeld (Engine.mover (s.idleMover c.part)).key = false)
    (noSrc : s.owes (Engine.mover (s.idleMover c.part)).key (s.localAt c.part (karg c.d 0 + 4096 * piece))
      (min 4096 (karg c.d 2 - 4096 * piece)) = false)
    (noDst : s.owes (Engine.mover (s.idleMover c.part)).key (s.localAt c.part (karg c.d 1 + 4096 * piece))
      (min 4096 (karg c.d 2 - 4096 * piece)) = false)
    (src : s.reach c.part .data false true (karg c.d 0) (karg c.d 2) = .ok a)
    (dst : s.reach c.part .data true true (karg c.d 1) (karg c.d 2) = .ok b) :
    exec (.move id piece) s = .next ((s.bump 51 (s.correctable (s.localAt c.part (karg c.d 0 + 4096 * piece))
      (min 4096 (karg c.d 2 - 4096 * piece)))).pieceMoved c piece a b) := by
  have new : (!c.pieces.any fun e => e.1 == piece) = true := by
    simp only [Bool.not_eq_true', List.any_eq_false, beq_iff_eq]
    rintro ⟨q, m⟩ hm rfl
    exact fresh m hm
  rw [exec, execMove, classEffect_due live found started ok running kind, whenDue_of_due _ (by simp [valid, new])]
  refine (moveReads_whole whole there open_ clean _).trans ?_
  generalize s.correctable (s.localAt c.part (karg c.d 0 + 4096 * piece)) (min 4096 (karg c.d 2 - 4096 * piece)) = e
  have idle : (s.bump 51 e).idleMover = s.idleMover := rfl
  have loads : (s.bump 51 e).moverLoad = s.moverLoad := rfl
  have owes : (s.bump 51 e).owes = s.owes := rfl
  have place : (s.bump 51 e).localAt = s.localAt := rfl
  have reach : (s.bump 51 e).reach = s.reach := rfl
  dsimp only
  rw [idle, loads, owes, place, reach, engineHeld_bump e (by decide), free, noSrc, noDst, decide_eq_true load, src, dst]
  rw [← id_of_cmd found]
  rfl

end

theorem cmd_pieceMoved {s : State} {id : Nat} {c : Cmd} (found : s.cmd id = some c) (piece : Nat) (a b : Home) :
    (s.pieceMoved c piece a b).cmd id = some { c with pieces := c.pieces ++ [(piece, s.idleMover c.part)] } := by
  have name := id_of_cmd found
  have taken : (s.setCmd { c with pieces := c.pieces ++ [(piece, s.idleMover c.part)] }).cmd id =
      some { c with pieces := c.pieces ++ [(piece, s.idleMover c.part)] } := cmd_setCmd_self found name
  refine Eq.trans (cmd_of_cmds ?_ id) taken
  exact cmds_transfer (fun _ => Owner.noConfusion) ..

/-- A piece between places of the local map at rest is copied, and no other byte changes. -/
theorem memByte_pieceMoved {s : State} (rest : s.AtRest) (c : Cmd) (piece x y : Nat) :
    let n := min 4096 (karg c.d 2 - 4096 * piece)
    (∀ k, k < n → (s.pieceMoved c piece (.loc x) (.loc y)).memByte (y + 4096 * piece + k) = s.memByte (x + 4096 * piece + k)) ∧
    ∀ q, (q < y + 4096 * piece ∨ y + 4096 * piece + n ≤ q) → (s.pieceMoved c piece (.loc x) (.loc y)).memByte q = s.memByte q := by
  intro n
  have mem : (s.pieceMoved c piece (.loc x) (.loc y)).mem =
      putBytes memDefault s.mem (y + 4096 * piece) (s.memBytes (x + 4096 * piece) n) :=
    transfer_local (s := s.setCmd { c with pieces := c.pieces ++ [(piece, s.idleMover c.part)] })
      ⟨rest.snoop, rest.bis, rest.close, rest.cell⟩ ..
  have len := length_memBytes s (x + 4096 * piece) n
  refine ⟨fun k hk => ?_, fun q hq => ?_⟩
  · rw [State.memByte, mem, putBytes_get_self _ _ _ _ _ (by omega), getElem_memBytes]
  · rw [State.memByte, mem, putBytes_get_other _ _ _ _ _ (by omega)]
    rfl

/-! ### FORAGE and COLLECT (R237, R428, R430) -/

/-- The command as a refusal of its descriptor leaves it. -/
def Cmd.turned (c : Cmd) (status detail : Nat) : Cmd :=
  { c with performed := true, phase := .finished, status := status, detail := detail, signalled := true }

/-- A command whose descriptor is refused. -/
def Turned (s : State) (id status detail : Nat) (t : State) : Prop :=
  ∃ d, t.cmd id = some d ∧ d.phase = .finished ∧ d.status = status ∧ d.detail = detail ∧ d.signalled = true ∧ t.cells = s.cells ∧
    t.mem = s.mem

theorem turned_read {s : State} {id : Nat} {c : Cmd} (found : s.cmd id = some c) (o status detail : Nat) :
    Turned s id status detail ((s.read c o).setCmd ((c.having (s.memBytes o (klen c.d))).turned status detail)) := by
  have name := id_of_cmd found
  exact ⟨_, cmd_setCmd_self (cmd_read found o) name, rfl, rfl, rfl, rfl, rfl, rfl⟩

theorem checkForage_read (s : State) (c : Cmd) (o p : Nat) (bs : List Byte) : (s.read c o).checkForage p bs = s.checkForage p bs := by
  have dev : (s.read c o).partOfDev = s.partOfDev := rfl
  have place : (s.read c o).placedOk = s.placedOk := rfl
  have object : (s.read c o).syncRef = s.syncRef := rfl
  have reach : (s.read c o).reach = s.reach := rfl
  have data : (s.read c o).localData = s.localData := by
    unfold State.localData
    rw [reach]
  have copy : (s.read c o).copyDest = s.copyDest := by
    unfold State.copyDest
    rw [data, reach]
  unfold State.checkForage State.deniedOk
  rw [dev, copy, place, object, data]

/-- Filling the queues of the foragers leaves the commands as they are, and each descriptor but for its phase. -/
theorem fillQueues_keeps (s : State) : s.fillQueues.cmds = s.cmds ∧
    ∀ x ∈ s.fdescs, ∃ y ∈ s.fillQueues.fdescs, y.id = x.id ∧ y.raw = x.raw ∧ y.issuer = x.issuer ∧ y.part = x.part := by
  unfold State.fillQueues
  generalize s.fdescs.filter (fun d => d.phase == .placed) = l
  induction l generalizing s with
  | nil => exact ⟨rfl, fun x hx => ⟨x, hx, rfl, rfl, rfl, rfl⟩⟩
  | cons d l ih =>
    rw [List.foldl_cons]
    split
    · generalize hf : foldS (fun s f => s.setFrg f { s.frg f with queue := (s.frg f).queue ++ [d.id] }) s d.frgs = u
      have kept : u.cmds = s.cmds ∧ u.fdescs = s.fdescs :=
        hf ▸ ⟨foldS_keeps State.cmds (f := fun t f => t.setFrg f _) (fun _ _ => rfl) _ _,
          foldS_keeps State.fdescs (f := fun t f => t.setFrg f _) (fun _ _ => rfl) _ _⟩
      obtain ⟨cmds, each⟩ := ih { u with fdescs := u.fdescs.map fun e => if e.id == d.id then { e with phase := .queued } else e }
      refine ⟨cmds.trans kept.1, fun x hx => ?_⟩
      obtain ⟨y, hy, same⟩ := each (if x.id == d.id then { x with phase := .queued } else x)
        (List.mem_map.mpr ⟨x, kept.2 ▸ hx, rfl⟩)
      refine ⟨y, hy, ?_⟩
      obtain ⟨id, raw, issuer, part⟩ := same
      rw [id, raw, issuer, part]
      split <;> exact ⟨rfl, rfl, rfl, rfl⟩
    · exact ih s

/-- A descriptor as it is accepted (R235). -/
def State.placed (s : State) (p : Nat) (i : Issuer) (d : Nat) : FDesc where
  id := s.nextId
  raw := BitVec.ofNat 3072 d
  part := p
  issuer := i
  seqr := ddevice d / 4
  frgs := s.foragersOf p d
  phase := .placed
  flags := 0
  count1 := 0
  count2 := 0
  value := 0
  image := 0

theorem acceptForage_spec (s : State) (p : Nat) (i : Issuer) (bs : List Byte) : (s.acceptForage p i bs).cmds = s.cmds ∧
    ∃ x ∈ (s.acceptForage p i bs).fdescs, x.id = s.nextId ∧ x.raw = BitVec.ofNat 3072 (leNat bs) ∧ x.issuer = i ∧ x.part = p := by
  obtain ⟨cmds, each⟩ := fillQueues_keeps { s with fdescs := s.fdescs ++ [s.placed p i (leNat bs)], nextId := s.nextId + 1 }
  obtain ⟨y, hy, id, raw, issuer, part⟩ := each (s.placed p i (leNat bs)) (List.mem_append_right _ (List.mem_singleton.mpr rfl))
  exact ⟨cmds, y, hy, id, raw, issuer, part⟩

theorem field_of_enterWait {β : Type} (g : State → β) (waits : ∀ s w, g { s with waits := w } = g s) (s : State) (w : WaitEntry) :
    g (s.enterWait w) = g s := by
  unfold State.enterWait
  split
  · rfl
  · exact waits ..

theorem acceptColl_spec (s : State) (p : Nat) (i : Issuer) (bs : List Byte) : (s.acceptColl p i bs).cmds = s.cmds ∧
    ∃ x ∈ (s.acceptColl p i bs).coll.colls, x.id = s.nextId ∧ x.raw = BitVec.ofNat 1024 (leNat bs) ∧ x.issuer = i ∧
      x.started = false := by
  have kept : (s.acceptColl p i bs).cmds = s.cmds ∧ ∃ x : Coll, (s.acceptColl p i bs).coll.colls = s.coll.colls ++ [x] ∧
      x.id = s.nextId ∧ x.raw = BitVec.ofNat 1024 (leNat bs) ∧ x.issuer = i ∧ x.started = false := by
    unfold State.acceptColl
    dsimp only
    split
    · split
      · exact ⟨rfl, _, rfl, rfl, rfl, rfl, rfl⟩
      · exact ⟨field_of_enterWait State.cmds (fun _ _ => rfl) .., _,
          field_of_enterWait (fun s => s.coll.colls) (fun _ _ => rfl) .., rfl, rfl, rfl, rfl⟩
    · exact ⟨rfl, _, rfl, rfl, rfl, rfl, rfl⟩
  obtain ⟨cmds, x, colls, spec⟩ := kept
  exact ⟨cmds, x, colls ▸ List.mem_append_right _ (List.mem_singleton.mpr rfl), spec⟩

section
variable {s : State} {id o : Nat} {c : Cmd} (live : s.live = true) (found : s.cmd id = some c) (started : c.phase = .started)
  (ok : c.status = 0) (running : (s.epochOf c.part).stopped = false) (fresh : c.performed = false)
include live found started ok running fresh

theorem exec_forage_none (kind : kclass c.d = 3) (none_ : klen c.d = 0) :
    exec (.forage id) s = .next (s.setCmd { c with performed := true, phase := .finished }) := by
  rw [exec, execForage, classEffect_due live found started ok running kind, whenDue_of_due _ (by simp [fresh]), if_pos none_]
  rfl

theorem exec_collect_none (kind : kclass c.d = 4) (none_ : klen c.d = 0) :
    exec (.collect id) s = .next (s.setCmd { c with performed := true, phase := .finished }) := by
  rw [exec, execCollect, classEffect_due live found started ok running kind, whenDue_of_due _ (by simp [fresh]), if_pos none_]
  rfl

variable (some_ : klen c.d ≠ 0) (here : ReadsHere s c o) (unread : c.fetch = none)
include some_ here unread

theorem exec_forage (kind : kclass c.d = 3) (room : s.places (seqOf (s.memBytes o (klen c.d))) < 64) : exec (.forage id) s =
    match s.checkForage c.part (s.memBytes o (klen c.d)) with
    | some b => .next ((s.read c o).setCmd ((c.having (s.memBytes o (klen c.d))).turned b.status c.detail))
    | none => .next (((s.read c o).setCmd (c.having (s.memBytes o (klen c.d))).perform).acceptForage c.part (.cmd id)
        (s.memBytes o (klen c.d))) := by
  rw [exec, execForage, classEffect_due live found started ok running kind, whenDue_of_due _ (by simp [fresh]), if_neg some_,
    withDesc_here here found unread ok]
  rw [show (s.read c o).places (seqOf (s.memBytes o (klen c.d))) = s.places (seqOf (s.memBytes o (klen c.d))) from rfl,
    whenFree, if_pos (decide_eq_true room)]
  rw [show (s.read c o).checkForage (c.having (s.memBytes o (klen c.d))).part (s.memBytes o (klen c.d)) =
    s.checkForage c.part (s.memBytes o (klen c.d)) from checkForage_read ..]
  rfl

theorem exec_collect (kind : kclass c.d = 4) (room : s.collRoom = true) : exec (.collect id) s =
    match s.collBad c.part (s.memBytes o (klen c.d)) with
    | some (b, e) => .next ((s.read c o).setCmd ((c.having (s.memBytes o (klen c.d))).turned b.status e))
    | none => .next (((s.read c o).setCmd (c.having (s.memBytes o (klen c.d))).perform).acceptColl c.part (.cmd id)
        (s.memBytes o (klen c.d))) := by
  rw [exec, execCollect, classEffect_due live found started ok running kind, whenDue_of_due _ (by simp [fresh]), if_neg some_,
    whenFree, if_pos room, withDesc_here here found unread ok]
  rw [show (s.read c o).collBad (c.having (s.memBytes o (klen c.d))).part (s.memBytes o (klen c.d)) =
    s.collBad c.part (s.memBytes o (klen c.d)) from collBad_read ..]
  rfl

end

/-- The command as the acceptance of its descriptor leaves it. -/
theorem accepted_read {s t : State} {id : Nat} {c : Cmd} (found : s.cmd id = some c) (started : c.phase = .started) (o : Nat)
    (cmds : t.cmds = ((s.read c o).setCmd (c.having (s.memBytes o (klen c.d))).perform).cmds) :
    ∃ d, t.cmd id = some d ∧ d.performed = true ∧ d.phase = .started := by
  have name := id_of_cmd found
  exact ⟨_, (cmd_of_cmds cmds id).trans (cmd_setCmd_self (cmd_read found o) name), rfl, started⟩

section
variable {s : State} {id o : Nat} {c : Cmd} (live : s.live = true) (found : s.cmd id = some c) (started : c.phase = .started)
  (ok : c.status = 0) (running : (s.epochOf c.part).stopped = false) (fresh : c.performed = false) (some_ : klen c.d ≠ 0)
  (here : ReadsHere s c o) (unread : c.fetch = none)
include live found started ok running fresh some_ here unread

theorem forage_read (kind : kclass c.d = 3) (room : s.places (seqOf (s.memBytes o (klen c.d))) < 64) :
    (∀ b, s.checkForage c.part (s.memBytes o (klen c.d)) = some b →
      ∃ t, exec (.forage id) s = .next t ∧ Turned s id b.status c.detail t) ∧
    (s.checkForage c.part (s.memBytes o (klen c.d)) = none → ∃ t d, exec (.forage id) s = .next t ∧ t.cmd id = some d ∧
      d.performed = true ∧ d.phase = .started ∧ ∃ x ∈ t.fdescs, x.id = s.nextId ∧
        x.raw = BitVec.ofNat 3072 (leNat (s.memBytes o (klen c.d))) ∧ x.issuer = .cmd id ∧ x.part = c.part) := by
  have run := exec_forage live found started ok running fresh some_ here unread kind room
  refine ⟨fun b bad => ?_, fun good => ?_⟩
  · rw [bad] at run
    exact ⟨_, run, turned_read found ..⟩
  · rw [good] at run
    obtain ⟨cmds, desc⟩ := acceptForage_spec ((s.read c o).setCmd (c.having (s.memBytes o (klen c.d))).perform) c.part (.cmd id)
      (s.memBytes o (klen c.d))
    obtain ⟨d, cmd, performed, phase⟩ := accepted_read found started o cmds
    exact ⟨_, d, run, cmd, performed, phase, desc⟩

theorem collect_read (kind : kclass c.d = 4) (room : s.collRoom = true) :
    (∀ b e, s.collBad c.part (s.memBytes o (klen c.d)) = some (b, e) →
      ∃ t, exec (.collect id) s = .next t ∧ Turned s id b.status e t) ∧
    (s.collBad c.part (s.memBytes o (klen c.d)) = none → ∃ t d, exec (.collect id) s = .next t ∧ t.cmd id = some d ∧
      d.performed = true ∧ d.phase = .started ∧ ∃ x ∈ t.coll.colls, x.id = s.nextId ∧
        x.raw = BitVec.ofNat 1024 (leNat (s.memBytes o (klen c.d))) ∧ x.issuer = .cmd id ∧ x.started = false) := by
  have run := exec_collect live found started ok running fresh some_ here unread kind room
  refine ⟨fun b e bad => ?_, fun good => ?_⟩
  · rw [bad] at run
    exact ⟨_, run, turned_read found ..⟩
  · rw [good] at run
    obtain ⟨cmds, desc⟩ := acceptColl_spec ((s.read c o).setCmd (c.having (s.memBytes o (klen c.d))).perform) c.part (.cmd id)
      (s.memBytes o (klen c.d))
    obtain ⟨d, cmd, performed, phase⟩ := accepted_read found started o cmds
    exact ⟨_, d, run, cmd, performed, phase, desc⟩

end

theorem dataCommands : Claims.DataCommands := by
  intro s id c live found started ok running done turned
  have turns {i : Instr} {b : Bad} {e : Nat} : (∃ t, exec i s = .next t ∧ Turned s id b.status e t) → turned i b e := by
    rintro ⟨t, run, d, rest⟩
    exact ⟨t, d, run, rest⟩
  refine ⟨fun piece a b kind valid fresh => ?_, fun piece m kind mem => ?_,
    fun kind fresh => ⟨exec_forage_none live found started ok running fresh kind, fun o some_ here unread => ?_⟩,
    fun kind fresh => ⟨exec_collect_none live found started ok running fresh kind, fun o some_ room here unread => ?_⟩⟩
  · intro o n x dst whole there open_ clean load free noSrc noDst src dst_
    refine ⟨_, exec_move live found started ok running kind valid fresh whole there open_ clean load free noSrc noDst src dst_,
      cmd_pieceMoved (s := s.bump 51 _) found piece a b, ?_⟩
    rintro x y rfl rfl snoop bis close cell
    exact memByte_pieceMoved (s := s.bump 51 _) ⟨snoop, bis, close, cell⟩ c piece x y
  · rw [exec, execMove, classEffect_due live found started ok running kind]
    refine whenDue_of_not _ ?_
    rw [show (c.pieces.any fun e => e.1 == piece) = true from List.any_eq_true.mpr ⟨_, mem, beq_self_eq_true _⟩]
    exact Bool.and_false _
  · intro bs room
    obtain ⟨bad, good⟩ := forage_read live found started ok running fresh some_ here unread kind room
    exact ⟨fun b h => turns (bad b h), good⟩
  · intro bs
    obtain ⟨bad, good⟩ := collect_read live found started ok running fresh some_ here unread kind room
    exact ⟨fun b e h => turns (bad b e h), good⟩

end Sys2Proof.Machine

/-!
PROOFS. The command KERNEL: its images, operating points and cells (O28).
-/

namespace Sys2Proof.Machine

/-! ### Images at hand (R93) -/

/-- Data join what a command fetches. -/
def State.joined (s : State) (id : Nat) (ps : List (Nat × List Byte)) : State :=
  { s with cmds := s.cmds.map fun c => if c.id == id then { c with fetch := c.fetch.map fun l => l ++ ps } else c }

/-- The command with what has joined. -/
def Cmd.joined (c : Cmd) (id : Nat) (ps : List (Nat × List Byte)) : Cmd :=
  if c.id == id then { c with fetch := c.fetch.map fun l => l ++ ps } else c

theorem joined_nil (s : State) (id : Nat) : s.joined id [] = s := by
  have each (c : Cmd) : c.joined id [] = c := by
    unfold Cmd.joined
    split
    · simp
    · rfl
  exact congrArg (fun l => ({ s with cmds := l } : State)) ((List.map_congr_left fun c _ => each c).trans (List.map_id' s.cmds))

theorem joined_joined (s : State) (id : Nat) (ps qs : List (Nat × List Byte)) :
    (s.joined id ps).joined id qs = s.joined id (ps ++ qs) := by
  have each (c : Cmd) : (c.joined id ps).joined id qs = c.joined id (ps ++ qs) := by
    unfold Cmd.joined
    by_cases h : (c.id == id) = true
    · simp [h, Function.comp_def]
    · simp [h]
  exact congrArg (fun l => ({ s with cmds := l } : State)) (List.map_map.trans (List.map_congr_left fun c _ => each c))

theorem cmd_joined {s : State} {id : Nat} {c : Cmd} (found : s.cmd id = some c) (ps : List (Nat × List Byte)) :
    (s.joined id ps).cmd id = some { c with fetch := c.fetch.map fun l => l ++ ps } := by
  have same (d : Cmd) : (d.joined id ps).id = d.id := by
    unfold Cmd.joined
    split <;> rfl
  have name := id_of_cmd found
  have comp : (fun d : Cmd => d.id == id) ∘ (fun d : Cmd => d.joined id ps) = fun d : Cmd => d.id == id :=
    funext fun d => by simp only [Function.comp_apply, same]
  have find : s.cmds.find? ((fun d : Cmd => d.id == id) ∘ fun d : Cmd => d.joined id ps) = some c := by
    rw [comp]
    exact found
  refine (List.find?_map (f := fun d : Cmd => d.joined id ps) ..).trans ?_
  rw [find, Option.map_some, Cmd.joined, if_pos (by simp [name])]

/-- Where an image that a command reads is at hand. -/
structure AtHand (s : State) (c : Cmd) (o : Nat) : Prop where
  reach : s.reach c.part .data false true (karg c.d 0) (klen c.d) = .ok (.loc o)
  free : s.heldIn o (klen c.d) = false

theorem AtHand.joined {s : State} {c : Cmd} {o : Nat} (h : AtHand s c o) (id : Nat) (ps : List (Nat × List Byte)) :
    AtHand (s.joined id ps) c o := ⟨h.reach, h.free⟩

theorem fetchAt_atHand {s : State} {c : Cmd} {o : Nat} (h : AtHand s c o) (e at_ : Nat) :
    s.fetchAt c e (karg c.d 0) (klen c.d) at_ = s.joined c.id [(at_, s.memBytes o (klen c.d))] := by
  unfold State.fetchAt
  rw [h.reach]
  show s.fetchFrom c.id e c.part (.loc o) at_ (klen c.d) = _
  unfold State.fetchFrom
  dsimp only
  unfold State.readLocal
  rw [h.free]
  rfl

/-- Every mover of a list reads the image. -/
theorem fetchImages_atHand {c : Cmd} {o : Nat} (l : List Nat) : ∀ {s : State}, AtHand s c o →
    foldS (fun t b => t.fetchAt c (Engine.mover b).key (karg c.d 0) (klen c.d) (imageAt b)) s l =
      s.joined c.id (l.map fun b => (imageAt b, s.memBytes o (klen c.d))) := by
  induction l with
  | nil => exact fun _ => (joined_nil ..).symm
  | cons b l ih =>
    intro s h
    have first := fetchAt_atHand h (Engine.mover b).key (imageAt b)
    have rest := ih (h.joined c.id [(imageAt b, s.memBytes o (klen c.d))])
    refine Eq.trans ?_ ((rest.trans (joined_joined ..)).trans rfl)
    exact congrArg (fun t => foldS (fun t b => t.fetchAt c (Engine.mover b).key (karg c.d 0) (klen c.d) (imageAt b)) t l) first

/-- Each image stands whole at its place among what the command has fetched. -/
theorem get_images {bs : List Byte} (small : bs.length ≤ 2 ^ 17) (b i : Nat) (hi : i < bs.length) : ∀ (l : List Nat) (t : Tab Byte),
    Tab.get memDefault ((l.map fun b => (imageAt b, bs)).foldl (fun t e => putBytes memDefault t e.1 e.2) t) (imageAt b + i) =
      if b ∈ l then bs[i] else Tab.get memDefault t (imageAt b + i)
  | [], _ => by simp
  | a :: l, t => by
    rw [List.map_cons, List.foldl_cons, get_images small b i hi l]
    by_cases later : b ∈ l
    · simp [later]
    · by_cases h : b = a
      · subst h
        simp [later, putBytes_get_self _ _ _ _ _ hi]
      · rw [if_neg later, if_neg (by simp [h, later])]
        refine putBytes_get_other _ _ _ _ _ ?_
        dsimp only
        unfold imageAt
        omega

theorem fetched_images {c : Cmd} {bs : List Byte} {l : List Nat} (small : bs.length ≤ 2 ^ 17) {b : Nat} (hb : b ∈ l)
    (have_ : c.fetch = some (l.map fun b => (imageAt b, bs))) : c.fetched (imageAt b) bs.length = bs := by
  unfold Cmd.fetched
  rw [have_]
  refine List.ext_getElem (by simp) fun i h₁ h₂ => ?_
  simp only [List.getElem_map, List.getElem_range, Option.getD_some]
  rw [get_images small b i h₂, if_pos hb]

/-! ### Operating points of the combs (R96, R465) -/

/-- A comb runs, and rises, at most at the least index that its commands ask for. -/
def Tuned (w : State) (k : Nat) (t : State) : Prop :=
  t.untuned = w.untuned ∧ ∀ e ∈ w.carried k, Tab.get (fun _ => 0) t.power.opp k ≤ e.opp ∧ Tab.get (fun _ => 0) t.power.rise k ≤ e.opp

theorem tuned_applyRises {w t : State} {k : Nat} (h : Tuned w k t) (d : Nat) : Tuned w k (t.applyRises d) := by
  unfold State.applyRises
  refine foldS_holds (P := Tuned w k) (fun u i _ hu => ?_) h
  obtain ⟨same, low⟩ := hu
  dsimp only
  split
  · refine ⟨same, fun e he => ?_⟩
    obtain ⟨opp, rise⟩ := low e he
    by_cases hk : k = 8 * d + i
    · subst hk
      exact ⟨(Tab.get_set_self ..).trans_le rise, (Tab.get_set_self ..).trans_le (Nat.zero_le _)⟩
    · exact ⟨(Tab.get_set_other _ _ _ _ _ hk).trans_le opp, (Tab.get_set_other (fun _ => 0) u.power.rise (8 * d + i) k 0 hk).trans_le rise⟩
  · exact ⟨same, low⟩

theorem foldl_min_le_mem : ∀ (l : List Nat) (x : Nat) {y : Nat}, y ∈ l → l.foldl min x ≤ y
  | a :: l, x, y, h => by
    rw [List.foldl_cons]
    rcases List.mem_cons.mp h with rfl | h
    · exact (foldl_min_le id l _).trans (Nat.min_le_right ..)
    · exact foldl_min_le_mem l _ h

/-- A comb is brought to at most the index that any command it carries asks for. -/
theorem wantedOpp_le {s : State} {k : Nat} {e : Cmd} (h : e ∈ s.carried k) : s.wantedOpp k ≤ e.opp := by
  have mem : e.opp ∈ (s.carried k).map Cmd.opp := List.mem_map.mpr ⟨e, h, rfl⟩
  unfold State.wantedOpp
  dsimp only
  rw [if_neg (by
    rw [List.isEmpty_iff]
    exact List.ne_nil_of_mem mem)]
  exact foldl_min_le_mem _ _ mem

theorem carried_of_untuned {s t : State} (h : t.untuned = s.untuned) (k : Nat) : t.carried k = s.carried k := by
  have := congrArg (fun u => State.carried u k) h
  exact this

/-- A comb is set to its wanted index where that is lower, or is to rise to it. -/
def State.tuneTo (s : State) (k w : Nat) : State :=
  { s with power := { s.power with
      opp := Tab.set (fun _ => 0) s.power.opp k (min w (Tab.get (fun _ => 0) s.power.opp k)),
      rise := Tab.set (fun _ => 0) s.power.rise k (if Tab.get (fun _ => 0) s.power.opp k < w then w else 0) } }

theorem retune_eq (s : State) (k : Nat) :
    s.retune k = if s.boot.oscHeld then s else (s.tuneTo k (s.wantedOpp k)).applyRises (k / 8) := rfl

theorem tuned_tuneTo_self {w t : State} {k x : Nat} (same : t.untuned = w.untuned) (low : ∀ e ∈ w.carried k, x ≤ e.opp) :
    Tuned w k (t.tuneTo k x) := by
  refine ⟨same, fun e he => ⟨?_, ?_⟩⟩
  · exact (Tab.get_set_self ..).trans_le ((Nat.min_le_left ..).trans (low e he))
  · refine (Tab.get_set_self ..).trans_le ?_
    split
    · exact low e he
    · exact Nat.zero_le _

theorem tuned_tuneTo_other {w t : State} {k j : Nat} (h : Tuned w k t) (hk : k ≠ j) (x : Nat) : Tuned w k (t.tuneTo j x) := by
  obtain ⟨same, low⟩ := h
  refine ⟨same, fun e he => ?_⟩
  obtain ⟨opp, rise⟩ := low e he
  exact ⟨(Tab.get_set_other _ _ _ _ _ hk).trans_le opp, (Tab.get_set_other _ _ _ _ _ hk).trans_le rise⟩

theorem tuned_retune_self {w t : State} {k : Nat} (same : t.untuned = w.untuned) (held : t.boot.oscHeld = false) : Tuned w k (t.retune k) := by
  rw [retune_eq, if_neg (by simp [held])]
  exact tuned_applyRises (tuned_tuneTo_self same fun e he => wantedOpp_le (by rwa [carried_of_untuned same])) _

theorem tuned_retune_other {w t : State} {k j : Nat} (h : Tuned w k t) (hk : k ≠ j) : Tuned w k (t.retune j) := by
  rw [retune_eq]
  split
  · exact h
  · exact tuned_applyRises (tuned_tuneTo_other h hk _) _

theorem tuned_retune {w t : State} {k : Nat} (h : Tuned w k t) (held : t.boot.oscHeld = false) (j : Nat) : Tuned w k (t.retune j) := by
  by_cases hk : k = j
  · subst hk
    exact tuned_retune_self h.1 held
  · exact tuned_retune_other h hk

theorem oscHeld_of_untuned {s t : State} (h : t.untuned = s.untuned) : t.boot.oscHeld = s.boot.oscHeld := by
  have := congrArg (fun u : State => u.boot.oscHeld) h
  exact this

theorem tuned_retunes {w : State} (held : w.boot.oscHeld = false) {k : Nat} (l : List Nat) : ∀ t : State, t.untuned = w.untuned → k ∈ l →
    Tuned w k (foldS State.retune t l) := by
  induction l with
  | nil => exact fun _ _ h => absurd h List.not_mem_nil
  | cons j l ih =>
    intro t same h
    have next : (t.retune j).untuned = w.untuned := (untuned_retune t j).trans same
    by_cases later : k ∈ l
    · exact ih _ next later
    · obtain rfl := (List.mem_cons.mp h).resolve_right later
      have rest : Tuned w k (foldS State.retune (t.retune k) l) :=
        foldS_holds (P := Tuned w k) (fun u i _ hu => tuned_retune hu ((oscHeld_of_untuned hu.1).trans held) i)
          (tuned_retune_self same ((oscHeld_of_untuned same).trans held))
      exact rest

theorem tuned_retuneAll {s : State} (held : s.boot.oscHeld = false) {k : Nat} (hk : k < 64) : Tuned s k s.retuneAll :=
  tuned_retunes held _ s rfl (List.mem_range.mpr hk)

/-- Data that join a command change no index that a command asks for. -/
theorem opp_of_carried_joined {s : State} {id k : Nat} {ps : List (Nat × List Byte)} {e : Cmd} (h : e ∈ (s.joined id ps).carried k) :
    ∃ b ∈ s.carried k, b.opp = e.opp := by
  unfold State.carried at h ⊢
  dsimp only at h ⊢
  obtain ⟨mem, mine⟩ := List.mem_filter.mp h
  obtain ⟨b, hb, rfl⟩ := List.mem_map.mp mem
  refine ⟨b, List.mem_filter.mpr ⟨hb, ?_⟩, ?_⟩
  · split at mine <;> exact mine
  · split <;> rfl

/-! ### KERNEL (R69, R90, R93) -/

/-- The state after the combs of a KERNEL have taken it up, before its images are read. -/
def State.takenUp (s : State) (c : Cmd) (o : Nat) : State :=
  ((s.bump 51 (s.correctable o (klen c.d))).setCmd { c with performed := true, fetch := some [] }).retuneAll

/-- What does not show the operating points, and neither the counters nor the commands, is as it was. -/
theorem field_of_takenUp {β : Type} (g : State → β) (tuned : ∀ s, g (State.untuned s) = g s) (count : ∀ s n k, g (State.bump s n k) = g s)
    (cmd : ∀ s c, g (State.setCmd s c) = g s) (s : State) (c : Cmd) (o : Nat) : g (s.takenUp c o) = g s :=
  (retuneAll_field g tuned _).trans ((cmd ..).trans (count ..))

section
variable {s : State} {id : Nat} {c : Cmd} (live : s.live = true) (found : s.cmd id = some c) (started : c.phase = .started)
  (ok : c.status = 0) (running : (s.epochOf c.part).stopped = false) (kind : kclass c.d = 1)
include live found started ok running kind

theorem exec_kernel_none (fresh : c.performed = false) (none_ : klen c.d = 0 ∨ kmask c.d = 0) :
    exec (.kernel id) s = .next (s.setCmd { c with performed := true, phase := .finished }) := by
  rw [exec, execKernel, classEffect_due live found started ok running kind, whenDue_of_due _ (by simp [fresh]), if_pos none_]
  rfl

theorem exec_kernel {o : Nat} (fresh : c.performed = false) (some_ : klen c.d ≠ 0) (mask : kmask c.d ≠ 0) (here : ReadsHere s c o)
    (load : ∀ b, b < 64 → bit (kmask c.d) b = true → s.moverLoad b < 16) :
    exec (.kernel id) s = .next ((s.takenUp c o).joined c.id ((combsIn (kmask c.d)).map fun b => (imageAt b, s.memBytes o (klen c.d)))) := by
  have free : ((combsIn (kmask c.d)).all fun b => decide (s.moverLoad b < 16)) = true := by
    rw [List.all_eq_true]
    intro b hb
    obtain ⟨hb, mine⟩ := List.mem_filter.mp hb
    exact decide_eq_true (load b (List.mem_range.mp hb) mine)
  have hand : AtHand (s.takenUp c o) c o := by
    obtain ⟨reach, -, -, -, -, free, -⟩ := here
    refine ⟨Eq.trans ?_ reach, Eq.trans ?_ free⟩
    · exact field_of_takenUp (fun t => t.reach c.part .data false true (karg c.d 0) (klen c.d)) (fun _ => rfl) (fun _ _ _ => rfl)
        (fun _ _ => rfl) s c o
    · exact field_of_takenUp (fun t => t.heldIn o (klen c.d)) (fun _ => rfl) (fun _ _ _ => rfl) (fun _ _ => rfl) s c o
  have bytes : (s.takenUp c o).memBytes o (klen c.d) = s.memBytes o (klen c.d) :=
    field_of_takenUp (fun t => t.memBytes o (klen c.d)) (fun _ => rfl) (fun _ _ _ => rfl) (fun _ _ => rfl) s c o
  rw [exec, execKernel, classEffect_due live found started ok running kind, whenDue_of_due _ (by simp [fresh]),
    if_neg (by simp [some_, mask]), whenFree, if_pos free, moveReads_here here]
  have images := fetchImages_atHand (combsIn (kmask c.d)) hand
  rw [bytes] at images
  rw [← images]
  rfl

end

section
variable (s : State) (c : Cmd) (o : Nat) (ps : List (Nat × List Byte))

theorem field_of_joined {β : Type} (g : State → β) (cmds : ∀ s l, g { s with cmds := l } = g s) (s : State) (id : Nat)
    (ps : List (Nat × List Byte)) : g (s.joined id ps) = g s := cmds ..

theorem cells_takenUp : ((s.takenUp c o).joined c.id ps).cells = s.cells :=
  (field_of_joined State.cells (fun _ _ => rfl) ..).trans
    (field_of_takenUp State.cells (fun _ => rfl) (fun _ _ _ => rfl) (fun _ _ => rfl) s c o)

theorem mem_takenUp : ((s.takenUp c o).joined c.id ps).mem = s.mem :=
  (field_of_joined State.mem (fun _ _ => rfl) ..).trans
    (field_of_takenUp State.mem (fun _ => rfl) (fun _ _ _ => rfl) (fun _ _ => rfl) s c o)

theorem fetchedAll_takenUp (id : Nat) : ((s.takenUp c o).joined c.id ps).fetchedAll id = s.fetchedAll id :=
  fetchedAll_of_requests ((field_of_joined (fun t => (t.far, t.fab, t.link, t.farTag)) (fun _ _ => rfl) ..).trans
    (field_of_takenUp (fun t => (t.far, t.fab, t.link, t.farTag)) (fun _ => rfl) (fun _ _ _ => rfl) (fun _ _ => rfl) s c o)) id

theorem cmd_takenUp {s : State} {id : Nat} {c : Cmd} (found : s.cmd id = some c) (o : Nat) (ps : List (Nat × List Byte)) :
    ((s.takenUp c o).joined c.id ps).cmd id = some { c with performed := true, fetch := some ps } := by
  have name := id_of_cmd found
  have taken : (s.takenUp c o).cmd id = some { c with performed := true, fetch := some [] } := by
    refine Eq.trans (cmd_of_cmds (retuneAll_field State.cmds (fun _ => rfl) _) id) ?_
    exact cmd_setCmd_self (s := s.bump 51 _) found name
  refine Eq.trans (congrArg (fun i => ((s.takenUp c o).joined i ps).cmd id) name) ?_
  exact cmd_joined taken ps

theorem opp_retuned {w : State} (held : w.boot.oscHeld = false) {k : Nat} (hk : k < 64) {id : Nat} {e : Cmd}
    (he : e ∈ (w.retuneAll.joined id ps).carried k) : Tab.get (fun _ => 0) (w.retuneAll.joined id ps).power.opp k ≤ e.opp := by
  obtain ⟨b, hb, opp⟩ := opp_of_carried_joined he
  obtain ⟨same, low⟩ := tuned_retuneAll held hk
  rw [carried_of_untuned same] at hb
  have power : (w.retuneAll.joined id ps).power = w.retuneAll.power := field_of_joined State.power (fun _ _ => rfl) ..
  rw [← opp, power]
  exact (low b hb).1

theorem opp_takenUp (held : s.boot.oscHeld = false) {k : Nat} (hk : k < 64) {id : Nat} {e : Cmd}
    (he : e ∈ ((s.takenUp c o).joined id ps).carried k) :
    Tab.get (fun _ => 0) ((s.takenUp c o).joined id ps).power.opp k ≤ e.opp := by
  obtain ⟨w, same, kept⟩ : ∃ w : State, s.takenUp c o = w.retuneAll ∧ w.boot.oscHeld = s.boot.oscHeld := ⟨_, rfl, rfl⟩
  rw [same] at he ⊢
  exact opp_retuned _ (kept.trans held) hk he

end

/-- What a KERNEL has done when its movers have read its image at once. -/
theorem images_read {s : State} {id o : Nat} {c : Cmd} {bs : List Byte} (found : s.cmd id = some c) (len : bs.length = klen c.d)
    (small : klen c.d ≤ 2 ^ 17) (all : s.fetchedAll id = true)
    (run : exec (.kernel id) s = .next ((s.takenUp c o).joined c.id ((combsIn (kmask c.d)).map fun b => (imageAt b, bs)))) :
    ∃ t d, exec (.kernel id) s = .next t ∧ t.cmd id = some d ∧ d = { c with performed := true, fetch := d.fetch } ∧
      t.cells = s.cells ∧ t.mem = s.mem ∧ t.fetchedAll id = true ∧
      (∀ b, b < 64 → bit (kmask c.d) b = true → d.fetched (2 ^ 20 * b) (klen c.d) = bs) ∧
      (s.boot.oscHeld = false → ∀ k, k < 64 → ∀ e ∈ t.carried k, Tab.get (fun _ => 0) t.power.opp k ≤ e.opp) := by
  refine ⟨_, _, run, cmd_takenUp found o _, rfl, cells_takenUp .., mem_takenUp .., (fetchedAll_takenUp ..).trans all,
    fun b hb mine => ?_, fun held k hk e he => opp_takenUp s c o _ held hk he⟩
  have whole := fetched_images
    (c := { c with performed := true, fetch := some ((combsIn (kmask c.d)).map fun b => (imageAt b, bs)) }) (len.trans_le small)
    (List.mem_filter.mpr ⟨List.mem_range.mpr hb, mine⟩ : b ∈ combsIn (kmask c.d)) rfl
  rw [len] at whole
  exact whole

/-! ### KERNEL_IMAGE_LOADED (R46, R94, R106) -/

/-- A word of an image. -/
def imageWord (bs : List Byte) (i : Nat) : Word := BitVec.ofNat 64 (leNat ((bs.drop (8 * i)).take 8))

theorem get_setAll_range (f : Nat → Word) (n i : Nat) : ∀ (m : Nat) (t : Tab Word), (∀ j, j < m → Tab.get (fun _ => 0) t j = f j) →
    m + n > i → Tab.get (fun _ => 0) (Tab.setAll (fun _ => 0) t ((List.range' m n).map fun i => (i, f i))) i = f i := by
  induction n with
  | zero => exact fun m t ht h => ht i (by omega)
  | succ n ih =>
    intro m t ht h
    rw [List.range'_succ, List.map_cons, Tab.setAll]
    refine ih (m + 1) _ (fun j hj => ?_) (by omega)
    by_cases hm : j = m
    · subst hm
      exact Tab.get_set_self ..
    · exact (Tab.get_set_other _ _ _ _ _ hm).trans (ht j (by omega))

theorem get_imageWords (bs : List Byte) {i : Nat} (hi : i < bs.length / 8) : Tab.get (fun _ => 0) (imageWords bs) i = imageWord bs i := by
  have := get_setAll_range (imageWord bs) (bs.length / 8) i 0 [] (fun j hj => absurd hj (Nat.not_lt_zero j)) (by omega)
  rwa [← List.range_eq_range'] at this

theorem length_fetched (c : Cmd) (at_ len : Nat) : (c.fetched at_ len).length = len := by
  simp [Cmd.fetched]

/-- A cell that has started a command: its image is loaded, its registers are those of a start, and it issues from index 0. -/
structure StartedCell (s : State) (c : Cmd) (n : Nat) (k : Cell) : Prop where
  run : k.run = .issuing
  fence : k.fence = .none
  len : k.imageLen = klen c.d / 8
  image : ∀ i, i < klen c.d / 8 → Tab.get (fun _ => 0) k.imem i = imageWord (c.fetched (2 ^ 20 * (n / 8)) (klen c.d)) i
  arch : k.arch = (Arch.reset.setS 1 (BitVec.ofNat 64 (karg c.d 2))).setS 2 (BitVec.ofNat 64 (bits (karg c.d 1) 32 32))
  ident : k.ident = {
    cellid := BitVec.ofNat 9 n, combid := BitVec.ofNat 6 (n / 8), rank := BitVec.ofNat 9 ((cellsOfMask (kmask c.d)).idxOf n),
    ncells := BitVec.ofNat 10 (cellsOfMask (kmask c.d)).length, part := BitVec.ofNat 2 c.part,
    arev := BitVec.ofNat 16 s.arev, cmdtag := BitVec.ofNat 32 (dfield c.d 0x18 32 32) }

/-- What a save through requests leaves as it was. -/
theorem field_of_saveState {β : Type} (g : State → β) (far : ∀ s r, g (State.pushFar s r) = g s) (s : State) (o : Owner) (n : Nat) :
    g (s.saveState o n) = g s := by
  have write (s : State) (k : Nat) (bs : List Byte) : g (s.saveWrite o (Engine.mover (n / 8)).key n k bs) = g s := by
    unfold State.saveWrite
    refine foldS_keeps g (fun t e => ?_) _ _
    split
    · exact foldS_keeps g (f := fun t e => t.pushFar _) (fun _ _ => far ..) _ _
    · rfl
  exact (write ..).trans (write ..)

/-- The start of one cell of a KERNEL. -/
def State.startOne (c : Cmd) (s : State) (n : Nat) : State :=
  s.startCell c (imageWords (c.fetched (imageAt (n / 8)) (klen c.d))) (klen c.d / 8) ((cellsOfMask (kmask c.d)).idxOf n)
    (cellsOfMask (kmask c.d)).length n

/-- What shows neither far requests nor the cell itself. -/
theorem field_of_startOne {β : Type} (g : State → β) (far : ∀ s r, g (State.pushFar s r) = g s) {n : Nat}
    (cell : ∀ s k, g (State.setCell s n k) = g s) (c : Cmd) (s : State) : g (State.startOne c s n) = g s := by
  unfold State.startOne State.startCell
  dsimp only
  split
  · exact (field_of_saveState g far ..).trans (cell ..)
  · exact cell ..

/-- A cell as its start leaves it (R46, R106). -/
def State.cellStarted (s : State) (c : Cmd) (n : Nat) : Cell := { s.cell n with
  arch := (Arch.reset.setS 1 (BitVec.ofNat 64 (karg c.d 2))).setS 2 (BitVec.ofNat 64 (bits (karg c.d 1) 32 32)),
  imem := imageWords (c.fetched (imageAt (n / 8)) (klen c.d)), imageLen := klen c.d / 8, run := .issuing, fence := .none, slots := [],
  portQ := [], refusal := none,
  ident := { cellid := BitVec.ofNat 9 n, combid := BitVec.ofNat 6 (n / 8),
             rank := BitVec.ofNat 9 ((cellsOfMask (kmask c.d)).idxOf n),
             ncells := BitVec.ofNat 10 (cellsOfMask (kmask c.d)).length, part := BitVec.ofNat 2 c.part,
             arev := BitVec.ofNat 16 s.arev, cmdtag := BitVec.ofNat 32 (dfield c.d 0x18 32 32) } }

theorem cell_startOne (c : Cmd) (s : State) (n : Nat) : (State.startOne c s n).cell n = s.cellStarted c n := by
  have first := cell_setCell_self s n (s.cellStarted c n)
  unfold State.startOne State.startCell
  dsimp only
  split
  · exact (field_of_saveState (fun t => t.cell n) (fun _ _ => rfl) ..).trans first
  · exact first

theorem startedCell_startOne {w s : State} (arev : s.arev = w.arev) (c : Cmd) (n : Nat) :
    StartedCell w c n ((State.startOne c s n).cell n) := by
  have words : ∀ i, i < klen c.d / 8 → Tab.get (fun _ => 0) (imageWords (c.fetched (imageAt (n / 8)) (klen c.d))) i =
      imageWord (c.fetched (2 ^ 20 * (n / 8)) (klen c.d)) i := fun i hi =>
    get_imageWords _ (by rwa [length_fetched])
  rw [cell_startOne]
  exact ⟨rfl, rfl, rfl, words, rfl, by rw [← arev]; rfl⟩

theorem cell_startOne_other {s : State} (c : Cmd) {n m : Nat} (h : m ≠ n) : (State.startOne c s n).cell m = s.cell m :=
  field_of_startOne (fun t => t.cell m) (fun _ _ => rfl) (fun _ _ => cell_setCell_other _ _ h) c s

/-- A list of cells starts: each of it is started, no other changes. -/
theorem startOnes {w : State} (c : Cmd) (l : List Nat) : ∀ s : State, s.arev = w.arev →
    (foldS (State.startOne c) s l).arev = w.arev ∧ (foldS (State.startOne c) s l).mem = s.mem ∧
    (foldS (State.startOne c) s l).cmds = s.cmds ∧
    (∀ n, n ∉ l → (foldS (State.startOne c) s l).cell n = s.cell n) ∧
    ∀ n ∈ l, StartedCell w c n ((foldS (State.startOne c) s l).cell n) := by
  induction l with
  | nil => exact fun s arev => ⟨arev, rfl, rfl, fun _ _ => rfl, nofun⟩
  | cons m l ih =>
    intro s arev
    have arev' : (State.startOne c s m).arev = w.arev :=
      (field_of_startOne State.arev (fun _ _ => rfl) (fun _ _ => rfl) c s).trans arev
    obtain ⟨last, mem, cmds, others, each⟩ := ih (State.startOne c s m) arev'
    refine ⟨last, mem.trans (field_of_startOne State.mem (fun _ _ => rfl) (fun _ _ => rfl) c s),
      cmds.trans (field_of_startOne State.cmds (fun _ _ => rfl) (fun _ _ => rfl) c s), fun n hn => ?_, fun n hn => ?_⟩
    · obtain ⟨hm, hl⟩ := not_or.mp (mt List.mem_cons.mpr hn)
      exact (others n hl).trans (cell_startOne_other c hm)
    · by_cases later : n ∈ l
      · exact each n later
      · obtain rfl := (List.mem_cons.mp hn).resolve_right later
        have started := startedCell_startOne arev c n
        rw [← others n later] at started
        exact started

/-- The cells of a mask, comb by comb. -/
def combCells (c : Cmd) (b : Nat) : List Nat := (cellsOfMask (kmask c.d)).filter fun n => n / 8 == b

theorem foldS_flatMap {α β : Type} (f : State → β → State) (g : α → List β) (l : List α) : ∀ s : State,
    foldS (fun s a => foldS f s (g a)) s l = foldS f s (l.flatMap g) := by
  induction l with
  | nil => exact fun _ => rfl
  | cons a l ih =>
    intro s
    rw [List.flatMap_cons]
    refine (ih _).trans ?_
    unfold foldS
    rw [List.foldl_append]

theorem mem_combCells {c : Cmd} {n : Nat} : n ∈ (combsIn (kmask c.d)).flatMap (combCells c) ↔ n ∈ cellsOfMask (kmask c.d) := by
  simp only [List.mem_flatMap, combCells, List.mem_filter, beq_iff_eq]
  refine ⟨fun ⟨_, _, mine, _⟩ => mine, fun mine => ⟨n / 8, ?_, mine, rfl⟩⟩
  unfold cellsOfMask at mine
  obtain ⟨b, hb, hn⟩ := List.mem_flatMap.mp mine
  obtain ⟨i, hi, rfl⟩ := List.mem_map.mp hn
  have := List.mem_range.mp hi
  rw [show (8 * b + i) / 8 = b by omega]
  exact hb

section
variable {s : State} {id : Nat} {c : Cmd} (live : s.live = true) (found : s.cmd id = some c) (started : c.phase = .started)
  (ok : c.status = 0) (running : (s.epochOf c.part).stopped = false) (kind : kclass c.d = 1)
include live found started ok running kind

theorem exec_kernelImageLoaded (performed : c.performed = true) (fresh : c.loaded = false) (all : s.fetchedAll id = true) :
    exec (.kernelImageLoaded id) s = .next (foldS (State.startOne c) (s.setCmd { c with loaded := true, fetch := none })
      ((combsIn (kmask c.d)).flatMap (combCells c))) := by
  rw [exec, execKernelImageLoaded, classEffect_due live found started ok running kind,
    whenDue_of_due _ (by simp [performed, fresh, all]), ← foldS_flatMap]
  refine congrArg Host.Outcome.next (List.foldl_ext _ _ _ fun t b _ => List.foldl_ext _ _ _ fun u n hn => ?_)
  obtain rfl : n / 8 = b := by simpa using (List.mem_filter.mp hn).2
  rfl

theorem kernelImageLoaded (performed : c.performed = true) (fresh : c.loaded = false) (all : s.fetchedAll id = true) :
    ∃ t, exec (.kernelImageLoaded id) s = .next t ∧ t.cmd id = some { c with loaded := true, fetch := none } ∧ t.mem = s.mem ∧
      (∀ n, n ∉ cellsOfMask (kmask c.d) → t.cell n = s.cell n) ∧ ∀ n ∈ cellsOfMask (kmask c.d), StartedCell s c n (t.cell n) := by
  have name := id_of_cmd found
  obtain ⟨-, mem, cmds, others, each⟩ := startOnes (w := s) c ((combsIn (kmask c.d)).flatMap (combCells c))
    (s.setCmd { c with loaded := true, fetch := none }) rfl
  exact ⟨_, exec_kernelImageLoaded live found started ok running kind performed fresh all,
    (cmd_of_cmds cmds id).trans (cmd_setCmd_self found name), mem, fun n hn => others n (mt mem_combCells.mp hn),
    fun n hn => each n (mem_combCells.mpr hn)⟩

end

theorem kernelCommands : Claims.KernelCommands := by
  intro s id c live found started ok kind running cells
  refine ⟨exec_kernel_none live found started ok running kind, fun o fresh some_ small mask here load => ?_,
    fun performed fresh all => ?_⟩
  · have run := exec_kernel live found started ok running kind fresh some_ mask here load
    obtain ⟨-, -, -, -, -, -, all⟩ := here
    rw [id_of_cmd found] at all
    exact images_read found (length_memBytes ..) small all run
  · obtain ⟨t, run, cmd, mem, others, each⟩ := kernelImageLoaded live found started ok running kind performed fresh all
    refine ⟨t, run, cmd, mem, others, fun n hn => ?_⟩
    obtain ⟨issuing, fence, len, image, arch, ident⟩ := each n hn
    exact ⟨issuing, fence, len, image, arch, ident⟩

/-- Settles O28. -/
theorem commandWork : Obligations.CommandWork := ⟨kernelCommands, dataCommands⟩

end Sys2Proof.Machine

/-!
PROOFS. Step by step: a relation between a state and a later one that holds across the changes failures are made of holds across the
failures.
-/

namespace Sys2Proof.Machine

/-- What of the state a steady relation looks at. -/
def State.core (s : State) : Tab Byte × Tab Byte × Tab Cell × List Cmd × Tab Epoch × Tab (List Nat) × Tab Frg :=
  (s.mem, s.ext, s.cells, s.cmds, s.epochs, s.resets.expired, s.frgs)

/-- A command that ends, or has ended, with a status of its own. -/
def Cmd.Ends (c : Cmd) (status : Nat) : Prop := status ≠ 0 ∧ c.status = status ∧ (c.phase = .started ∨ c.phase = .finished)

/-- A later version of a command: where it ends with a status it still does. -/
def Cmd.Outlives (c d : Cmd) : Prop := d.id = c.id ∧ ∀ status, c.Ends status → d.Ends status

/-- A relation of a state to a later one that writes of memory keep, changes of a cell that leave its registers, later versions of a
command, changes of an epoch that leave a wanted recovery wanted, changes of a forager that leave its scratch and accumulators, and
whatever is not in the core. -/
structure Steady (R : State → State → Prop) : Prop where
  after : ∀ {s t u : State}, R t u → R s t → R s u
  rest : ∀ {s t : State}, t.core = s.core → R s t
  mem : ∀ s a bs, R s (s.pokeMem a bs)
  ext : ∀ s a bs, R s (s.pokeExt a bs)
  cell : ∀ s n c, c.arch = (s.cell n).arch → R s (s.setCell n c)
  cmd : ∀ {s id c d}, s.cmd id = some c → c.Outlives d → R s (s.setCmd d)
  epoch : ∀ s p e, ((s.epochOf p).recWant = true → e.recWant = true) → R s (s.setEpoch p e)
  frg : ∀ s d f, f.scratch = (s.frg d).scratch → f.ea = (s.frg d).ea → R s (s.setFrg d f)

theorem Steady.ite {R : State → State → Prop} (_ : Steady R) {c : Prop} [Decidable c] {s t u : State} (ht : R s t) (hu : R s u) :
    R s (if c then t else u) := by
  split <;> assumption

namespace Steady
variable {R : State → State → Prop} (hR : Steady R)
include hR

theorem refl (s : State) : R s s := hR.rest rfl

theorem foldS {α : Type} {f : State → α → State} (hf : ∀ s a, R s (f s a)) : ∀ (l : List α) (s : State), R s (foldS f s l)
  | [], s => hR.refl s
  | a :: l, s => hR.after (foldS hf l (f s a)) (hf s a)

theorem bump (s : State) (n k : Nat) : R s (s.bump n k) := hR.rest rfl
theorem setRep (s : State) (p : Nat) (q : RepRing) : R s (s.setRep p q) := hR.rest rfl
theorem maps (s : State) (d k n : Nat) (b : Bool) : R s (s.setFrg d { s.frg d with frozen := (s.frg d).frozen.set k b, share := n }) :=
  hR.frg _ _ _ rfl rfl
theorem marks (s : State) (d k : Nat) (b : Bool) : R s (s.setFrg d { s.frg d with live := (s.frg d).live.set k b }) :=
  hR.frg _ _ _ rfl rfl
theorem pushBi (s : State) (l : Nat) (w : BiWhat) : R s (s.pushBi l w) := hR.rest rfl
theorem setRemap (s : State) (n : Nat) (r : Remap) : R s (s.setRemap n r) := hR.rest rfl
theorem setPhys (s : State) (n : Nat) (p : Phys) : R s (s.setPhys n p) := hR.rest rfl
theorem countOutcome (s : State) (d : Nat) : R s (s.countOutcome d) := hR.rest rfl
theorem countReset (s : State) (d u : Nat) : R s (s.countReset d u) := hR.rest rfl
theorem freeCtr (s : State) (k : Nat) : R s { s with freeCtr := k } := hR.rest rfl
theorem power (s : State) (w : Power) : R s { s with power := w } := hR.rest rfl
theorem waits (s : State) (w : List WaitEntry) : R s { s with waits := w } := hR.rest rfl
theorem fdescs (s : State) (x : List FDesc) : R s { s with fdescs := x } := hR.rest rfl

theorem requests (s : State) (f : List FarReq) (b : List Bi) : R s { s with far := f, link := { s.link with bis := b } } := hR.rest rfl
theorem setDrip (s : State) (j : Nat) (q : Drip) : R s (s.setDrip j q) := hR.rest rfl
theorem quenchColls (s : State) (c : Cmd) : R s (s.quenchColls c) := hR.rest rfl
theorem granules (s : State) (n : Nat) (fz lv : BitVec 1024) : R s (s.setCell n { s.cell n with frozen := fz, live := lv }) :=
  hR.cell _ _ _ rfl

theorem then_rest {s t u : State} (h : R s t) (same : u.core = t.core) : R s u := hR.after (hR.rest same) h

/-! ### Reports -/

theorem trace (s : State) (ty p src a b c : Nat) : R s (s.trace ty p src a b c) := by
  unfold State.trace
  split
  · split
    · exact hR.rest rfl
    · exact hR.then_rest (hR.mem ..) rfl
  · exact hR.refl s

theorem farWrite (s : State) (o : Owner) (e p off key : Nat) (bs : List Byte) : R s (s.farWrite o e p off key bs) := by
  refine hR.foldS (fun _ _ => ?_) _ _
  exact hR.rest rfl

theorem ringWrite (s : State) (o : Owner) (p a : Nat) (bs : List Byte) : R s (s.ringWrite o p a bs) := by
  unfold State.ringWrite
  split
  · exact hR.ite (hR.then_rest (hR.ext ..) rfl) (hR.farWrite ..)
  · exact hR.farWrite ..
  · exact hR.refl s

end Steady

theorem core_farWrite (s : State) (o : Owner) (e p off key : Nat) (bs : List Byte) : (s.farWrite o e p off key bs).core = s.core := by
  refine foldS_keeps State.core (fun _ _ => ?_) _ _
  rfl

theorem core_linWrite (s : State) (o : Owner) (p off : Nat) (bs : List Byte) : (s.linWrite o p off bs).core = s.core := by
  unfold State.linWrite
  split
  · exact (show (State.bump _ _ _).core = _ from rfl).trans (core_farWrite ..)
  · rfl

theorem epochOf_of_core {s t : State} (h : t.core = s.core) (p : Nat) : t.epochOf p = s.epochOf p :=
  by
  have same : t.epochs = s.epochs := congrArg (fun c => c.2.2.2.2.1) h
  rw [State.epochOf, same, State.epochOf]

namespace Steady
variable {R : State → State → Prop} (hR : Steady R)
include hR

theorem linWrite (s : State) (o : Owner) (p off : Nat) (bs : List Byte) : R s (s.linWrite o p off bs) := hR.rest (core_linWrite ..)

theorem requestBoundary (s : State) (p : Nat) (u : Bool) : R s (s.requestBoundary p u) := by
  unfold State.requestBoundary
  refine hR.ite (hR.rest rfl) (hR.ite (hR.refl s) (hR.after (hR.epoch _ _ _ ?_) (hR.epoch s p _ ?_))) <;> exact id

/-- A change of an epoch read before a write of the lining. -/
theorem epoch_after {s t : State} (same : t.core = s.core) (p : Nat) (e : Epoch) (kept : e.recWant = (s.epochOf p).recWant) :
    R s (t.setEpoch p e) :=
  hR.after (hR.epoch t p e fun want => by rwa [kept, ← epochOf_of_core same]) (hR.rest same)

theorem appendEffect (s : State) (p kd o r f : Nat) (v : Word) : R s (s.appendEffect p kd o r f v) := by
  unfold State.appendEffect
  refine hR.ite ?_ (hR.refl s)
  have appended := fun e kept => hR.epoch_after (core_linWrite s (.log p) p (s.linOffset .effect + 32 * (s.epochOf p).effectPos)
    (effectBytes { kind := kd, obj := o, rseq := r, ref := f, value := v, lap := (s.epochOf p).lap })) p e kept
  exact hR.ite (by
    refine hR.after (hR.requestBoundary ..) (appended _ ?_)
    rfl) (by
    refine appended _ ?_
    rfl)

theorem writeReport (s : State) (p : Nat) (r : Report) : R s (s.writeReport p r) :=
  hR.after (hR.appendEffect ..) (hR.after (hR.setRep ..) (hR.ringWrite ..))

theorem report (s : State) (p ty reason subject body : Nat) : R s (s.report p ty reason subject body) := by
  unfold State.report
  dsimp only
  split
  · exact hR.after (hR.writeReport ..) (hR.trace ..)
  · split <;> exact hR.then_rest (hR.trace ..) rfl

theorem relayReport (s : State) (ty body : Nat) : R s (s.relayReport ty body) := by
  unfold State.relayReport
  exact hR.ite (hR.rest rfl) (hR.ite (hR.rest rfl) (hR.refl s))

theorem faultNotice (s : State) (p r : Nat) : R s (s.faultNotice p r) := by
  unfold State.faultNotice
  exact hR.ite (hR.ite (hR.ite (hR.refl s) (hR.rest rfl)) (hR.rest rfl)) (hR.refl s)

theorem retire (s : State) (p u st n o w : Nat) : R s (s.retire p u st n o w) := hR.after (hR.relayReport ..) (hR.report ..)

theorem escalate (s : State) (p r j d : Nat) : R s (s.escalate p r j d) :=
  hR.after (hR.relayReport ..) (hR.after (hR.bump ..) (hR.report ..))

/-! ### Data -/

theorem remWrite (s : State) (o : Owner) (e m off : Nat) (bs : List Byte) : R s (s.remWrite o e m off bs) := by
  refine hR.foldS (fun _ _ => ?_) _ _
  exact hR.rest rfl

theorem linCopy (s : State) (p u o : Nat) : R s (s.linCopy p u o) := by
  unfold State.linCopy
  refine hR.epoch_after ((core_linWrite ..).trans ?_) p _ rfl
  split
  · rfl
  · exact core_linWrite ..

theorem stageClose (s : State) (o : Nat) : R s (s.stageClose o) := by
  rw [stageClose_eq]
  beta_reduce
  cases s.place4K o
  exact hR.ite (hR.after (hR.maps ..) (hR.linCopy ..)) (hR.refl s)

theorem stageCell (s : State) (o : Nat) : R s (s.stageCell o) := by
  unfold State.stageCell
  exact hR.ite (hR.after (hR.granules _ _ _ (State.cell _ _).live) (hR.linCopy ..)) (hR.refl s)

theorem markClose (s : State) (o : Nat) : R s (s.markClose o) := by
  rw [markClose_eq]
  beta_reduce
  cases s.place4K o
  exact hR.marks ..

theorem markCell (s : State) (o : Nat) : R s (s.markCell o) := hR.cell _ _ _ rfl

theorem freshen (s : State) (o n : Nat) : R s (s.freshen o n) := by
  unfold State.freshen
  exact hR.ite (hR.refl s) (hR.rest rfl)

theorem writeGranule (s : State) (o : Nat) (bs : List Byte) : R s (s.writeGranule o bs) := by
  unfold State.writeGranule
  exact hR.ite (hR.after (hR.mem ..) (hR.after (hR.markClose ..) (hR.stageClose ..)))
    (hR.after (hR.freshen ..) (hR.after (hR.mem ..) (hR.after (hR.markCell ..) (hR.stageCell ..))))

theorem saveWrite (s : State) (o : Owner) (e n k : Nat) (bs : List Byte) : R s (s.saveWrite o e n k bs) :=
  hR.foldS (fun s c => by
    split
    · exact hR.farWrite ..
    · exact hR.refl s) _ _

theorem writeAway (s : State) (o : Owner) (a : Nat) (bs : List Byte) : R s (s.writeAway o a bs) := by
  unfold State.writeAway
  exact hR.ite (hR.saveWrite ..) (hR.refl s)

theorem writeFor (s : State) (o : Owner) (a : Nat) (bs : List Byte) : R s (s.writeFor o a bs) :=
  hR.foldS (fun _ _ => hR.after (hR.writeAway ..) (hR.writeGranule ..)) _ _

theorem engineWrite (s : State) (o : Owner) (e a : Nat) (bs : List Byte) : R s (s.engineWrite o e a bs) := by
  unfold State.engineWrite
  exact hR.ite (hR.writeFor ..) (hR.foldS (fun s c => by
    dsimp only
    split
    · exact hR.writeFor ..
    · exact hR.pushBi ..) _ _)

theorem deliver (s : State) (o : Owner) (e p : Nat) (h : Home) (bs : List Byte) : R s (s.deliver o e p h bs) := by
  unfold State.deliver
  split
  · exact hR.engineWrite ..
  · exact hR.ite (hR.then_rest (hR.ext ..) rfl) (hR.farWrite ..)
  · exact hR.farWrite ..
  · exact hR.remWrite ..

theorem classWrite (s : State) (x : FDesc) (a : Nat) (bs : List Byte) : R s (s.classWrite x a bs) := by
  unfold State.classWrite
  dsimp only
  split
  · exact hR.engineWrite ..
  · split
    · exact hR.deliver ..
    · exact hR.refl s

theorem cutShort (s : State) (x : FDesc) : R s (s.cutShort x) :=
  hR.after (hR.foldS (fun _ _ => hR.classWrite ..) _ _) (hR.freeCtr ..)

/-! ### Quenching -/

theorem quenchCell (s : State) (n : Nat) : R s (s.quenchCell n) := by
  unfold State.quenchCell
  dsimp only
  split
  · exact hR.after (hR.waits ..) (hR.cell s n _ rfl)
  · exact hR.refl s

theorem quenchForagers (s : State) (c : Cmd) : R s (s.quenchForagers c) :=
  hR.after (hR.fdescs ..) (hR.after (hR.foldS hR.cutShort _ _) (hR.requests ..))

theorem quenchStarted (s : State) (c : Cmd) (l : List Nat) :
    R s (((Machine.foldS State.quenchCell s l).quenchForagers c).quenchColls c) :=
  hR.after (hR.quenchColls ..) (hR.after (hR.quenchForagers ..) (hR.foldS hR.quenchCell l s))

theorem quenchCmd (s : State) (id status : Nat) : R s (s.quenchCmd id status) := by
  unfold State.quenchCmd
  split
  · exact hR.refl s
  next c found =>
    split
    · exact hR.refl s
    next unfinished =>
      split
      · dsimp only
        split
        next d present =>
          refine hR.after (hR.cmd present ⟨rfl, fun v => ?_⟩) (hR.quenchStarted ..)
          rintro ⟨nonzero, rfl, phase⟩
          refine ⟨nonzero, if_neg nonzero, ?_⟩
          dsimp only
          split
          · exact .inr rfl
          · exact phase
        · exact hR.quenchStarted ..
      next waits =>
        have same : (Machine.foldS (fun s j =>
            let q := s.drip j
            s.setDrip j
              { q with stages := q.stages.filter (fun i => i != id), overflow := q.overflow.filter (fun i => i != id) }.refill)
            s (List.range 4)).core = s.core := by
          refine foldS_keeps State.core (fun _ _ => ?_) _ _
          rfl
        dsimp only at same ⊢
        generalize Machine.foldS _ s (List.range 4) = u at same ⊢
        refine hR.after (hR.cmd (id := id) (c := c) ?_ ⟨rfl, fun v h => ?_⟩) (hR.after (hR.waits ..) (hR.rest same))
        · exact (congrArg (fun k => k.2.2.2.1.find? fun d => d.id == id) same).trans found
        · exact absurd h.2.2 (not_or.2 ⟨waits, unfinished⟩)

theorem abortCmd (s : State) (id : Nat) : R s (s.abortCmd id) := by
  unfold State.abortCmd
  dsimp only
  split
  next c present => exact hR.ite (hR.after (hR.cmd present ⟨rfl, fun _ h => h⟩) (hR.quenchCmd ..)) (hR.quenchCmd ..)
  · exact hR.quenchCmd ..

/-! ### Losses -/

theorem wantFor (s : State) (p f x : Nat) : R s (s.wantFor p f x) := hR.epoch _ _ _ fun _ => rfl

theorem wantRecovery (s : State) (p : Nat) : R s (s.wantRecovery p) := by
  unfold State.wantRecovery
  exact hR.ite (hR.wantFor ..) (hR.after (hR.faultNotice ..) (hR.epoch _ _ _ fun _ => rfl))

theorem noLining (s : State) (p : Nat) : R s (s.noLining p) := by
  unfold State.noLining
  exact hR.ite (hR.wantFor ..) (hR.faultNotice ..)

theorem loseCmd (s : State) (id : Nat) : R s (s.loseCmd id) := by
  unfold State.loseCmd
  split
  next c found => exact hR.cmd found ⟨rfl, fun _ h => h⟩
  · exact hR.refl s

theorem loseEngine (s : State) (p unit : Nat) (ids : List Nat) : R s (s.loseEngine p unit ids) := by
  unfold State.loseEngine
  exact hR.ite (hR.refl s) (hR.ite
    (hR.after (hR.wantRecovery ..) (hR.foldS (fun _ _ => hR.after (hR.loseCmd ..) (hR.escalate ..)) _ _))
    (hR.after (hR.noLining ..) (hR.foldS hR.abortCmd _ _)))

theorem freeBytes (s : State) (a n : Nat) : R s (s.freeBytes a n) := hR.then_rest (hR.mem ..) rfl

theorem loseData (s : State) (p : Nat) (u : Lost) (ids : List Nat) : R s (s.loseData p u ids) := by
  have ends : R s ((Machine.foldS State.abortCmd s ids).noLining p) := hR.after (hR.noLining ..) (hR.foldS hR.abortCmd _ _)
  have lost := fun e kept => hR.epoch s p e kept
  unfold State.loseData
  split
  · exact hR.ite (lost _ id) (hR.after (hR.wantRecovery ..) (lost _ id))
  · cases u with
    | cell n => exact hR.after (hR.freeBytes ..) ends
    | _ => exact hR.after (hR.foldS (fun _ _ => hR.freeBytes ..) _ _) ends

/-! ### Cells -/

theorem applyRises (s : State) (d : Nat) : R s (s.applyRises d) := by
  refine hR.foldS (fun s i => ?_) _ _
  dsimp only
  split
  · exact hR.power ..
  · exact hR.refl s

theorem retune (s : State) (k : Nat) : R s (s.retune k) := by
  unfold State.retune
  exact hR.ite (hR.refl s) (hR.after (hR.applyRises ..) (hR.power ..))

theorem changeRemap (s : State) (n : Nat) (r : Remap) : R s (s.changeRemap n r) :=
  hR.after (hR.retune ..) (hR.after (hR.retune ..) (hR.after (hR.trace ..) (hR.after (hR.retire ..) (hR.setRemap ..))))

theorem switchTo (s : State) (n : Nat) (b : Bool) : R s (s.switchTo n b) := hR.cell _ _ _ rfl

theorem saveState (s : State) (o : Owner) (n : Nat) : R s (s.saveState o n) := hR.after (hR.saveWrite ..) (hR.saveWrite ..)

theorem saveCell (s : State) (o : Owner) (n : Nat) : R s (s.saveCell o n) := hR.after (hR.saveState ..) (hR.saveWrite ..)

theorem savePoke (s : State) (n k : Nat) (bs : List Byte) : R s (s.savePoke n k bs) :=
  hR.foldS (fun s c => by
    split
    · exact hR.then_rest (hR.ext ..) rfl
    · exact hR.refl s) _ _

theorem saveNow (s : State) (n : Nat) : R s (s.saveNow n) :=
  hR.after (hR.savePoke ..) (hR.after (hR.savePoke ..) (hR.savePoke ..))

/-- One cell of a pair becomes unserved. -/
theorem unserveOne (s : State) (m : Nat) : R s (
    let p := s.partOfCell m
    let s1 := (((s.changeRemap m { s.remapOf m with state := 3 }).escalate p 1 m 0)).faultNotice p 1
    match (s.cell m).cmd with
    | some id => if s1.substitutes p then s1 else s1.abortCmd id
    | none => s1) := by
  have reported := hR.after (hR.faultNotice _ (s.partOfCell m) 1)
    (hR.after (hR.escalate _ (s.partOfCell m) 1 m 0) (hR.changeRemap s m { s.remapOf m with state := 3 }))
  dsimp only
  split
  · exact hR.ite reported (hR.after (hR.abortCmd ..) reported)
  · exact reported

theorem unserve (s : State) (n : Nat) : R s (s.unserve n) := by
  unfold State.unserve
  dsimp only
  split
  · exact hR.after (hR.unserveOne _ _) (hR.unserveOne s n)
  · exact hR.unserveOne s n

theorem makeGuest (s : State) (n : Nat) : R s (s.makeGuest n) :=
  hR.after (hR.saveCell ..) (hR.after (hR.switchTo ..) (hR.after (hR.switchTo ..) (hR.changeRemap ..)))

theorem displace (s : State) (n : Nat) : R s (s.displace n) := by
  unfold State.displace
  exact hR.ite (hR.makeGuest ..) (hR.unserve ..)

theorem replaceCell (s : State) (n : Nat) : R s (s.replaceCell n) := by
  unfold State.replaceCell
  dsimp only
  split
  · split
    · exact hR.after (hR.changeRemap ..) (hR.changeRemap ..)
    · exact hR.changeRemap ..
  · exact hR.displace ..

theorem loseCell (s : State) (n : Nat) : R s (s.loseCell n) := by
  unfold State.loseCell
  dsimp only
  split
  · exact hR.after (hR.loseEngine ..) (hR.after (hR.loseData ..) (hR.cell s n _ rfl))
  · exact hR.loseData ..

theorem retireCell (s : State) (phys n : Nat) : R s (s.retireCell phys n) := by
  have lost := fun inside => hR.after (hR.loseCell _ inside) (hR.after (hR.replaceCell _ n)
    (hR.setPhys s phys { s.physOf phys with retired := true }))
  unfold State.retireCell
  exact hR.ite (hR.after (hR.saveNow ..) (lost _)) (lost _)

theorem countCell (s : State) (n : Nat) : R s (s.countCell n) := by
  unfold State.countCell
  dsimp only
  split
  · split
    · exact hR.after (hR.escalate ..) (hR.after (hR.countOutcome ..) (hR.after (hR.retireCell ..) (hR.countReset ..)))
    · exact hR.countReset ..
  · exact hR.countReset ..

end Steady

end Sys2Proof.Machine

/-!
PROOFS. Watchdogs, heartbeats and counted resets (O54).
-/

namespace Sys2Proof.Machine

/-! ### What lasts (R557-R561) -/

/-- Registers of cells and foragers, the expired table, wanted recoveries and the statuses with which commands end last. -/
structure Lasting (s t : State) : Prop where
  arch : ∀ m, (t.cell m).arch = (s.cell m).arch
  expired : t.resets.expired = s.resets.expired
  wanted : ∀ p, (s.epochOf p).recWant = true → (t.epochOf p).recWant = true
  ends : ∀ id c v, s.cmd id = some c → c.Ends v → ∃ d, t.cmd id = some d ∧ d.Ends v
  frg : ∀ d, (t.frg d).scratch = (s.frg d).scratch ∧ (t.frg d).ea = (s.frg d).ea

theorem cmd_setCmd_other {id : Nat} {d : Cmd} (other : d.id ≠ id) (s : State) : (s.setCmd d).cmd id = s.cmd id := by
  unfold State.cmd State.setCmd
  dsimp only
  induction s.cmds with
  | nil => rfl
  | cons e l ih =>
    rw [List.map_cons]
    by_cases here : e.id = d.id
    · rw [if_pos (by simpa using here), List.find?_cons_of_neg (by simpa using other),
        List.find?_cons_of_neg (by simpa [here] using other), ih]
    · rw [if_neg (by simpa using here)]
      by_cases found : e.id = id
      · rw [List.find?_cons_of_pos (by simpa using found), List.find?_cons_of_pos (by simpa using found)]
      · rw [List.find?_cons_of_neg (by simpa using found), List.find?_cons_of_neg (by simpa using found), ih]

theorem lasting_of_core {s t : State} (h : t.core = s.core) : Lasting s t := by
  have cells : t.cells = s.cells := congrArg (fun c => c.2.2.1) h
  have cmds : t.cmds = s.cmds := congrArg (fun c => c.2.2.2.1) h
  refine ⟨fun m => by rw [cell_eq_of_cells cells], congrArg (fun c => c.2.2.2.2.2.1) h, fun p want => ?_,
    fun id c v found ends => ?_, fun d => ?_⟩
  · rwa [epochOf_of_core h]
  · exact ⟨c, (cmd_of_cmds cmds id).trans found, ends⟩
  · have frgs : t.frgs = s.frgs := congrArg (fun c => c.2.2.2.2.2.2) h
    rw [State.frg, frgs]
    exact ⟨rfl, rfl⟩

theorem lasting_setCell (s : State) (n : Nat) (k : Cell) (same : k.arch = (s.cell n).arch) : Lasting s (s.setCell n k) where
  arch m := by
    by_cases here : m = n
    · rw [here, cell_setCell_self, same]
    · rw [cell_setCell_other s k here]
  expired := rfl
  wanted _ h := h
  ends _ c _ found ends := ⟨c, found, ends⟩
  frg _ := ⟨rfl, rfl⟩

theorem lasting_setCmd {s : State} {id : Nat} {c d : Cmd} (found : s.cmd id = some c) (lives : c.Outlives d) :
    Lasting s (s.setCmd d) where
  arch _ := rfl
  expired := rfl
  wanted _ h := h
  ends i b v present ends := by
    have name : d.id = id := lives.1.trans (id_of_cmd found)
    by_cases here : i = id
    · subst here
      obtain rfl : c = b := Option.some.inj (found.symm.trans present)
      exact ⟨d, cmd_setCmd_self found name, lives.2 v ends⟩
    · exact ⟨b, (cmd_setCmd_other (by rw [name]; exact Ne.symm here) s).trans present, ends⟩
  frg _ := ⟨rfl, rfl⟩

theorem lasting_setEpoch (s : State) (p : Nat) (e : Epoch) (kept : (s.epochOf p).recWant = true → e.recWant = true) :
    Lasting s (s.setEpoch p e) where
  arch _ := rfl
  expired := rfl
  wanted q h := by
    by_cases here : q = p
    · subst here
      rw [epochOf_setEpoch_self]
      exact kept h
    · rwa [epochOf_setEpoch_other here]
  ends _ c _ found ends := ⟨c, found, ends⟩
  frg _ := ⟨rfl, rfl⟩

theorem lasting_setFrg (s : State) (n : Nat) (f : Frg) (scratch : f.scratch = (s.frg n).scratch) (ea : f.ea = (s.frg n).ea) :
    Lasting s (s.setFrg n f) where
  arch _ := rfl
  expired := rfl
  wanted _ h := h
  ends _ c _ found ends := ⟨c, found, ends⟩
  frg d := by
    by_cases here : d = n
    · rw [here, State.frg, State.setFrg, Tab.get_set_self]
      exact ⟨scratch, ea⟩
    · rw [State.frg, State.setFrg, Tab.get_set_other _ _ _ _ _ here]
      exact ⟨rfl, rfl⟩

theorem Lasting.after {s t u : State} (h : Lasting t u) (h' : Lasting s t) : Lasting s u where
  arch m := (h.arch m).trans (h'.arch m)
  expired := h.expired.trans h'.expired
  wanted p want := h.wanted p (h'.wanted p want)
  ends id c v found ends :=
    let ⟨d, present, still⟩ := h'.ends id c v found ends
    h.ends id d v present still
  frg d := ⟨(h.frg d).1.trans (h'.frg d).1, (h.frg d).2.trans (h'.frg d).2⟩

theorem lasting_steady : Steady Lasting where
  after := Lasting.after
  rest := lasting_of_core
  mem _ _ _ := ⟨fun _ => rfl, rfl, fun _ h => h, fun _ c _ found ends => ⟨c, found, ends⟩, fun _ => ⟨rfl, rfl⟩⟩
  ext _ _ _ := ⟨fun _ => rfl, rfl, fun _ h => h, fun _ c _ found ends => ⟨c, found, ends⟩, fun _ => ⟨rfl, rfl⟩⟩
  cell := lasting_setCell
  cmd := lasting_setCmd
  epoch := lasting_setEpoch
  frg := lasting_setFrg

namespace Steady
variable {R : State → State → Prop} (hR : Steady R)
include hR

/-- A command that is dropped keeps a status of its own. -/
theorem dropCmd (s : State) (c : Coll) (status : Nat) : R s (match c.issuer with
    | .cmd id => match s.cmd id with
      | some k => s.setCmd { k with phase := .finished, status := if k.status = 0 then status else k.status }
      | none => s
    | .cell _ _ => s) := by
  split
  next id _ =>
    split
    next k found =>
      refine hR.cmd found ⟨rfl, ?_⟩
      rintro v ⟨nonzero, rfl, -⟩
      exact ⟨nonzero, if_neg nonzero, .inr rfl⟩
    · exact hR.refl s
  · exact hR.refl s

theorem dropColls (s : State) (mine : Coll → Bool) (status : Nat) : R s (s.dropColls mine status) :=
  hR.after (hR.foldS (fun s c => hR.dropCmd s c status) _ _) (hR.rest rfl)

end Steady

/-! ### The cells of a kernel are reset (R546, R552) -/

/-- The cells that serve logical cells are reset. -/
def State.clearAll (s : State) (cells : List Nat) : State :=
  foldS (fun t n => foldS State.clearCell (t.beginReset 0 n) (t.resetTargets n)) s cells

theorem cells_reportInert : ReportInert State.cells :=
  ⟨fun _ _ _ => rfl, fun _ _ _ => rfl, fun _ _ => rfl, fun _ _ _ _ => rfl, fun _ _ _ => rfl, fun _ _ _ => rfl, fun _ _ _ _ => rfl,
    fun _ _ _ _ _ => rfl, fun _ _ _ => rfl⟩

theorem cells_beginReset (s : State) (d n : Nat) : (s.beginReset d n).cells = s.cells := by
  unfold State.beginReset
  exact cells_reportInert.trace ..

theorem cmds_beginReset (s : State) (d n : Nat) : (s.beginReset d n).cmds = s.cmds := by
  unfold State.beginReset
  exact cmds_reportInert.trace ..

theorem cell_clearCell_self (s : State) (n : Nat) : (s.clearCell n).cell n = { s.cell n with
    arch := Arch.reset, run := if (s.cell n).run.active then .hung else (s.cell n).run, fence := .none, portQ := [], refusal := none } :=
  cell_setCell_self s n _

theorem cell_clearCell_other (s : State) {n m : Nat} (h : m ≠ n) : (s.clearCell n).cell m = s.cell m :=
  cell_setCell_other s _ h

theorem switchedIn_clearCell (s : State) (n m : Nat) : ((s.clearCell n).cell m).switchedIn = (s.cell m).switchedIn := by
  by_cases h : m = n
  · subst h
    rw [cell_clearCell_self]
  · rw [cell_clearCell_other s h]

/-- What the targets of a reset depend on. -/
theorem resetTargets_of_same {s t : State} (remap : t.remap = s.remap) (switches : t.switches = s.switches)
    (inside : ∀ m, (t.cell m).switchedIn = (s.cell m).switchedIn) (n : Nat) : t.resetTargets n = s.resetTargets n := by
  have entry : ∀ m, t.remapOf m = s.remapOf m := fun m => by rw [State.remapOf, remap, State.remapOf]
  unfold State.resetTargets State.insideOf State.guestOf
  simp only [entry, switches, inside]

theorem resetTargets_clearCell (s : State) (m n : Nat) : (s.clearCell m).resetTargets n = s.resetTargets n :=
  resetTargets_of_same (s := s) (t := s.clearCell m) rfl rfl (switchedIn_clearCell s m) n

theorem remap_reportInert : ReportInert fun s => (s.remap, s.switches, s.cells) :=
  ⟨fun _ _ _ => rfl, fun _ _ _ => rfl, fun _ _ => rfl, fun _ _ _ _ => rfl, fun _ _ _ => rfl, fun _ _ _ => rfl, fun _ _ _ _ => rfl,
    fun _ _ _ _ _ => rfl, fun _ _ _ => rfl⟩

theorem resetTargets_of_frame {s t : State} (h : (t.remap, t.switches, t.cells) = (s.remap, s.switches, s.cells)) (n : Nat) :
    t.resetTargets n = s.resetTargets n := by
  simp only [Prod.mk.injEq] at h
  obtain ⟨remap, switches, cells⟩ := h
  exact resetTargets_of_same remap switches (fun m => by rw [cell_eq_of_cells cells]) n

theorem resetTargets_beginReset (s : State) (d m n : Nat) : (s.beginReset d m).resetTargets n = s.resetTargets n := by
  refine resetTargets_of_frame ?_ n
  unfold State.beginReset
  exact remap_reportInert.trace ..

theorem resetTargets_escalate (s : State) (p r j d n : Nat) : (s.escalate p r j d).resetTargets n = s.resetTargets n :=
  resetTargets_of_frame (remap_reportInert.escalate (fun _ _ => rfl) ..) n

/-- A cell that has been cleared stays so. -/
theorem clearCell_keeps {s : State} {m : Nat} (h : (s.cell m).arch = Arch.reset) (n : Nat) :
    ((s.clearCell n).cell m).arch = Arch.reset := by
  by_cases here : m = n
  · rw [here, cell_clearCell_self]
  · rw [cell_clearCell_other s here, h]

theorem clearCells_keep {m : Nat} : ∀ (l : List Nat) (s : State), (s.cell m).arch = Arch.reset →
    ((foldS State.clearCell s l).cell m).arch = Arch.reset
  | [], _, h => h
  | n :: l, s, h => clearCells_keep l (s.clearCell n) (clearCell_keeps h n)

theorem clearCells_clear {m : Nat} : ∀ (l : List Nat) (s : State), m ∈ l → ((foldS State.clearCell s l).cell m).arch = Arch.reset
  | [], _, h => absurd h List.not_mem_nil
  | n :: l, s, h => by
    rcases List.mem_cons.mp h with rfl | h
    · exact clearCells_keep l _ (congrArg Cell.arch (cell_clearCell_self s m))
    · exact clearCells_clear l _ h

theorem clearAll_keeps {m : Nat} : ∀ (cells : List Nat) (s : State), (s.cell m).arch = Arch.reset →
    ((s.clearAll cells).cell m).arch = Arch.reset
  | [], _, h => h
  | n :: l, s, h => clearAll_keeps l _ (clearCells_keep _ _ ((congrArg Cell.arch (cell_eq_of_cells (cells_beginReset s 0 n) m)).trans h))

theorem resetTargets_clearAll_step (s : State) (n k : Nat) :
    (foldS State.clearCell (s.beginReset 0 n) (s.resetTargets n)).resetTargets k = s.resetTargets k :=
  (foldS_keeps (fun t => t.resetTargets k) (fun t m => resetTargets_clearCell t m k) _ _).trans (resetTargets_beginReset ..)

theorem clearAll_clears {n m : Nat} : ∀ (cells : List Nat) (s : State), n ∈ cells → m ∈ s.resetTargets n →
    ((s.clearAll cells).cell m).arch = Arch.reset
  | [], _, h, _ => absurd h List.not_mem_nil
  | k :: l, s, h, hm => by
    rcases List.mem_cons.mp h with rfl | h
    · exact clearAll_keeps l _ (clearCells_clear _ _ hm)
    · exact clearAll_clears l _ h (by rwa [resetTargets_clearAll_step])

theorem cmds_clearAll (s : State) (cells : List Nat) : (s.clearAll cells).cmds = s.cmds :=
  foldS_keeps State.cmds (fun t n => (foldS_keeps State.cmds (f := State.clearCell) (fun _ _ => rfl) _ _).trans
    (cmds_beginReset t 0 n)) cells s

/-! ### WATCHDOG_EXPIRY -/

/-- The cells that an expired command's reset takes. -/
def State.expiringCells (s : State) (c : Cmd) : List Nat :=
  if kclass c.d = 1 then c.cells.filter fun n => (s.cell n).run.active else []

/-- The state of an expiry once its cells are reset. -/
def State.expiring (s : State) (c : Cmd) : State :=
  (s.escalate c.part 16 c.subject ((s.now - c.t0).toNat / 100)).clearAll (s.expiringCells c)

/-- A command that is asked for again: its work is dropped, and a recovery wanted. -/
def State.asksAgain (s : State) (c : Cmd) (head : Nat) : State :=
  (((s.dropWork c).enterExpired c.part c.intake).escalate c.part 17 (256 * head) c.intake).wantRecovery c.part

/-- A command that ends with `TIMEOUT`. -/
def State.timesOut (s : State) (id : Nat) : State := (s.quenchCmd id 5).dropColls (s.collFor id) 5

section
variable {s : State} {id : Nat} {c : Cmd} (live : s.live = true) (found : s.cmd id = some c)
include live found

theorem exec_watchdogExpiry_early (early : s.watchPaused c.part = true ∨ s.counted id < s.budget c) :
    exec (.watchdogExpiry id) s = .refused .notDue := by
  rw [exec, execWatchdogExpiry, whenLive_of_live _ live, found, withItem_some]
  refine whenDue_of_not _ ?_
  rcases early with paused | short
  · simp [paused]
  · simp [Nat.not_le.mpr short]

theorem exec_watchdogExpiry (started : c.phase = .started) (counts : s.watchPaused c.part = false) (due : s.budget c ≤ s.counted id) :
    exec (.watchdogExpiry id) s =
      if s.linSafe c.part && !(Tab.get (fun _ => []) s.resets.expired c.part).contains c.intake then
        .next (foldS State.countCell ((s.expiring c).asksAgain c ((s.expiringCells c).headD 0)) (s.expiringCells c))
      else .next ((foldS State.countCell ((s.expiring c).timesOut id) (s.expiringCells c)).escalate c.part 26 c.subject c.intake) := by
  rw [exec, execWatchdogExpiry, whenLive_of_live _ live, found, withItem_some, whenDue_of_due _ (by simp [started, counts, due])]
  rfl

end

theorem cmds_expiring (s : State) (c : Cmd) : (s.expiring c).cmds = s.cmds :=
  (cmds_clearAll ..).trans (cmds_reportInert.escalate (fun _ _ => rfl) ..)

/-- The cells of a kernel have been reset. -/
theorem expiring_clears {s : State} {c : Cmd} (kernel : kclass c.d = 1) {n m : Nat} (mine : n ∈ c.cells)
    (active : (s.cell n).run.active = true) (target : m ∈ s.resetTargets n) : ((s.expiring c).cell m).arch = Arch.reset := by
  refine clearAll_clears _ _ ?_ (by rwa [resetTargets_escalate])
  rw [State.expiringCells, if_pos kernel]
  exact List.mem_filter.mpr ⟨mine, active⟩

theorem expiringCells_other {s : State} {c : Cmd} (other : kclass c.d ≠ 1) : s.expiringCells c = [] := if_neg other

theorem aon_expiring_other {s : State} {c : Cmd} (other : kclass c.d ≠ 1) : (s.expiring c).aon 47 = s.aon 47 + 1 := by
  rw [State.expiring, expiringCells_other other]
  exact aon_escalate_count ..

/-! A command that ends. -/

theorem aon47_quenchInert : QuenchInert fun s => s.aon 47 where
  toReportInert := aon_reportInert (by decide)
  corrected s k := aon_bump_other (by decide) s k
  flips _ _ := rfl
  frg _ _ _ := rfl
  granules _ _ _ _ := rfl
  bi _ _ _ := rfl
  issued _ _ := rfl
  free _ _ := rfl
  run _ _ _ := rfl
  waits _ _ := rfl
  fdescs _ _ := rfl
  requests _ _ _ := rfl
  colls _ _ _ := rfl
  drip _ _ _ := rfl

/-- The status that an expired command ends with. -/
def Cmd.overdue (c : Cmd) : Nat := if c.status = 0 then 5 else c.status

theorem ends_quenched {c : Cmd} (started : c.phase = .started) (fin : Bool) : (c.quenched 5 fin).Ends c.overdue := by
  refine ⟨?_, rfl, ?_⟩
  · unfold Cmd.overdue
    split <;> omega
  · cases fin
    · exact .inl started
    · exact .inr rfl

theorem timesOut_ends {s : State} {id : Nat} {c : Cmd} (found : s.cmd id = some c) (started : c.phase = .started) :
    ∃ d, (s.timesOut id).cmd id = some d ∧ d.Ends c.overdue := by
  obtain ⟨fin, cmds⟩ := cmds_quenchCmd_of_started found started 5
  refine (lasting_steady.dropColls (s.quenchCmd id 5) (s.collFor id) 5).ends id (c.quenched 5 fin) _ ?_ (ends_quenched started fin)
  rw [State.cmd, cmds]
  have name : (c.quenched 5 fin).id = id := id_of_cmd (c := c) found
  exact find?_map_replace name found

theorem arch_timesOut (s : State) (id m : Nat) : ((s.timesOut id).cell m).arch = (s.cell m).arch :=
  (lasting_steady.after (lasting_steady.dropColls ..) (lasting_steady.quenchCmd ..)).arch m

theorem aon_timesOut (s : State) (id : Nat) : (s.timesOut id).aon 47 = s.aon 47 := by
  refine Eq.trans (foldS_keeps (fun s => s.aon 47) (fun t c => ?_) _ _) (aon47_quenchInert.quenchCmd (fun _ _ => rfl) s id 5)
  split
  · split <;> rfl
  · rfl

/-- A watchdog that ends its command. -/
theorem watchdog_ends {s : State} {id : Nat} {c : Cmd} (found : s.cmd id = some c) (started : c.phase = .started) :
    ∃ d, ((foldS State.countCell ((s.expiring c).timesOut id) (s.expiringCells c)).escalate c.part 26 c.subject c.intake).cmd id =
      some d ∧ d.status = c.overdue := by
  obtain ⟨b, present, ends⟩ := timesOut_ends ((cmd_of_cmds (cmds_expiring s c) id).trans found) started
  have lasts := lasting_steady.after (lasting_steady.escalate _ c.part 26 c.subject c.intake)
    (lasting_steady.foldS lasting_steady.countCell (s.expiringCells c) ((s.expiring c).timesOut id))
  obtain ⟨d, last, -, status, -⟩ := lasts.ends id b _ present ends
  exact ⟨d, last, status⟩

/-! A command that is asked for again. -/

theorem lasting_dropWork (s : State) (c : Cmd) : Lasting s (s.dropWork c) := by
  refine lasting_steady.after (lasting_steady.quenchColls ..) (lasting_steady.foldS (fun t x => ?_) _ _)
  refine lasting_steady.after (lasting_steady.fdescs ..) (lasting_steady.foldS (fun u f => ?_) _ _)
  exact lasting_setFrg _ _ _ rfl rfl

theorem cmds_dropWork (s : State) (c : Cmd) : (s.dropWork c).cmds = s.cmds := by
  refine Eq.trans (show _ = (foldS State.leave s _).cmds from rfl) (foldS_keeps State.cmds (fun t x => ?_) _ _)
  refine Eq.trans (show _ = (foldS _ t x.frgs).cmds from rfl) (foldS_keeps State.cmds (fun _ _ => ?_) _ _)
  rfl

theorem aon_leave (s : State) (x : FDesc) : (s.leave x).aon 47 = s.aon 47 := by
  refine Eq.trans (show _ = (foldS _ s x.frgs).aon 47 from rfl) (foldS_keeps (fun s => s.aon 47) (fun _ _ => ?_) _ _)
  rfl

theorem aon_dropWork (s : State) (c : Cmd) : (s.dropWork c).aon 47 = s.aon 47 :=
  Eq.trans (show _ = (foldS State.leave s _).aon 47 from rfl) (foldS_keeps (fun s => s.aon 47) aon_leave _ _)

theorem wanted_wantRecovery (s : State) (p : Nat) : ((s.wantRecovery p).epochOf p).recWant = true := by
  unfold State.wantRecovery
  split
  · exact congrArg Epoch.recWant (epochOf_setEpoch_self ..)
  · exact (lasting_steady.faultNotice ..).wanted p (congrArg Epoch.recWant (epochOf_setEpoch_self ..))

theorem field_of_wantRecovery {β : Type} {g : State → β} (inert : ReportInert g) (s : State) (p : Nat) :
    g (s.wantRecovery p) = g s := by
  unfold State.wantRecovery
  split
  · exact inert.epoch ..
  · exact (inert.faultNotice ..).trans (inert.epoch ..)

theorem asksAgain_lasts (s : State) (c : Cmd) (k : Nat) : Lasting ((s.dropWork c).enterExpired c.part c.intake) (s.asksAgain c k) :=
  lasting_steady.after (lasting_steady.wantRecovery ..) (lasting_steady.escalate ..)

theorem mem_enterExpired (s : State) (p intake : Nat) : intake ∈ Tab.get (fun _ => []) (s.enterExpired p intake).resets.expired p := by
  rw [State.enterExpired, Tab.get_set_self]
  generalize Tab.get (fun _ => []) s.resets.expired p = l
  rw [List.mem_iff_getElem]
  refine ⟨(l ++ [intake]).length - ((l ++ [intake]).length - 16) - 1, by simp, ?_⟩
  rw [List.getElem_drop, List.getElem_append_right (by simp; omega)]
  simp

theorem cmds_asksAgain (s : State) (c : Cmd) (k : Nat) : (s.asksAgain c k).cmds = s.cmds :=
  (field_of_wantRecovery cmds_reportInert ..).trans ((cmds_reportInert.escalate (fun _ _ => rfl) ..).trans
    (cmds_dropWork s c))

theorem aon_asksAgain (s : State) (c : Cmd) (k : Nat) : (s.asksAgain c k).aon 47 = s.aon 47 + 1 :=
  (field_of_wantRecovery aon47_quenchInert.toReportInert ..).trans ((aon_escalate_count ..).trans
    (congrArg (· + 1) (aon_dropWork s c)))

theorem arch_asksAgain (s : State) (c : Cmd) (k m : Nat) : ((s.asksAgain c k).cell m).arch = (s.cell m).arch :=
  ((asksAgain_lasts s c k).arch m).trans ((lasting_dropWork s c).arch m)

theorem watchdogs : Claims.Watchdogs := by
  intro s id c live found started
  refine ⟨exec_watchdogExpiry_early live found, fun counts due => ?_⟩
  have run := exec_watchdogExpiry live found started counts due
  intro known
  refine ⟨fun once => ?_, fun safe fresh => ?_⟩
  · have no : (s.linSafe c.part && !(Tab.get (fun _ => []) s.resets.expired c.part).contains c.intake) = false := by
      rcases once with off | again
      · rw [off, Bool.false_and]
      · rw [List.contains_iff_mem.mpr again, Bool.not_true, Bool.and_false]
    rw [no, if_neg Bool.false_ne_true] at run
    obtain ⟨d, last, status⟩ := watchdog_ends found started
    refine ⟨_, d, run, last, status, fun other => ?_, fun kernel n mine active m target => ?_⟩
    · rw [expiringCells_other other]
      refine (aon_escalate_count ..).trans ?_
      rw [show foldS State.countCell ((s.expiring c).timesOut id) [] = (s.expiring c).timesOut id from rfl, aon_timesOut,
        aon_expiring_other other]
      exact BitVec.add_assoc ..
    · refine Eq.trans ?_ (expiring_clears kernel mine active target)
      exact ((lasting_steady.after (lasting_steady.escalate ..)
        (lasting_steady.foldS lasting_steady.countCell (s.expiringCells c) _)).arch m).trans (arch_timesOut ..)
  · have yes : (s.linSafe c.part && !(Tab.get (fun _ => []) s.resets.expired c.part).contains c.intake) = true := by
      rw [safe, Bool.true_and, Bool.not_eq_true', ← Bool.not_eq_true, List.contains_iff_mem]
      exact fresh
    rw [yes, if_pos rfl] at run
    have lasts := lasting_steady.foldS lasting_steady.countCell (s.expiringCells c)
      ((s.expiring c).asksAgain c ((s.expiringCells c).headD 0))
    refine ⟨_, run, ?_, lasts.wanted _ (wanted_wantRecovery ..), fun other => ?_, fun kernel n mine active m target => ?_⟩
    · rw [lasts.expired, (asksAgain_lasts ..).expired]
      exact mem_enterExpired ..
    · rw [expiringCells_other other]
      refine ⟨(cmds_asksAgain ..).trans (cmds_expiring s c), (aon_asksAgain ..).trans ?_⟩
      rw [aon_expiring_other other]
      exact BitVec.add_assoc ..
    · exact ((lasts.arch m).trans (arch_asksAgain ..)).trans (expiring_clears kernel mine active target)

/-! ### Heartbeats (R562, R563) -/

theorem beat_stamp (s : State) (k : Nat) : Tab.get (fun _ => 0) (s.beat k).resets.beats k = (s.beat k).now :=
  Tab.get_set_self ..

/-- A cell that sends nothing is reset, whether its steward or a requested row says so. -/
theorem cellHung_resets {s : State} {n : Nat} (live : s.live = true) (hn : n < 512) (running : s.power.running = true)
    (state : (s.remapOf n).state ≤ 1) (inside : s.insideOf n = n) (silent : s.silent (s.remapOf n).phys = true)
    (free : s.resettingCell n = false) : ∃ t, exec (.cellHung n) s = .next t ∧ exec (.cellReset n .hung) s = .next t ∧
      Tab.get (fun _ => 0) t.resets.beats (s.remapOf n).phys = t.now := by
  have host : ¬(s.remapOf n).state = 2 := by omega
  have served : ((s.remapOf n).state != 3) = true := by rw [bne_iff_ne]; omega
  have hung : s.cellHung n = .next ((((s.escalate (s.partOfCell n) 18 n (s.remapOf n).loc).resetCell n).countCell n).beat
      (s.remapOf n).phys) := by
    unfold State.cellHung
    dsimp only
    rw [if_neg host]
    exact whenDue_of_due _ (by rw [running, served, inside, silent, free, beq_self_eq_true]; rfl)
  refine ⟨(((s.escalate (s.partOfCell n) 18 n (s.remapOf n).loc).resetCell n).countCell n).beat (s.remapOf n).phys, ?_, ?_,
    beat_stamp ..⟩
  · rw [exec, execCellHung, whenFormed_of_formed _ (decide_eq_true hn), whenLive_of_live _ live]
    exact hung
  · rw [exec, execCellReset, whenFormed_of_formed _ (decide_eq_true hn), whenLive_of_live _ live]
    exact hung

theorem cellHung_refuses {s : State} {n : Nat} (live : s.live = true) (hn : n < 512) (sent : s.silent (s.remapOf n).phys = false) :
    exec (.cellHung n) s = .refused .notDue := by
  rw [exec, execCellHung, whenFormed_of_formed _ (decide_eq_true hn), whenLive_of_live _ live]
  exact whenDue_of_not _ (by rw [sent]; simp)

namespace QuenchInert
variable {β : Type} {g : State → β} (hg : QuenchInert g)
include hg

theorem loseEngine (h47 : ∀ s k, g (s.bump 47 k) = g s) (hcmd : ∀ s c, g (s.setCmd c) = g s) (s : State) (p unit : Nat)
    (ids : List Nat) : g (s.loseEngine p unit ids) = g s := by
  have lose : ∀ s id, g (State.loseCmd s id) = g s := fun s id => by
    unfold State.loseCmd
    split
    · exact hcmd ..
    · rfl
  unfold State.loseEngine
  split
  · rfl
  split
  · exact (field_of_wantRecovery hg.toReportInert ..).trans
      (foldS_keeps g (fun _ _ => (lose ..).trans (hg.toReportInert.escalate h47 ..)) _ _)
  · exact (hg.noLining ..).trans (foldS_keeps g (hg.abortCmd hcmd) _ _)

end QuenchInert

theorem now_quenchInert : QuenchInert State.now where
  toReportInert := now_reportInert
  corrected s k := aon_bump_other (by decide) s k
  flips _ _ := rfl
  frg _ _ _ := rfl
  granules _ _ _ _ := rfl
  bi _ _ _ := rfl
  issued _ _ := rfl
  free _ _ := rfl
  run _ _ _ := rfl
  waits _ _ := rfl
  fdescs _ _ := rfl
  requests _ _ _ := rfl
  colls _ _ _ := rfl
  drip _ _ _ := rfl

/-- What the counted resets of a unit are computed from, besides the reference count. -/
def State.counting (s : State) : Tab (List Word) × (Nat → Nat → Nat → Nat) := (s.resets.counts, s.barF)

theorem counting_quenchInert : QuenchInert State.counting where
  mem _ _ _ := rfl
  ext _ _ _ := rfl
  far _ _ := rfl
  count _ _ _ _ := rfl
  epoch _ _ _ := rfl
  rep _ _ _ := rfl
  sent _ _ _ _ := rfl
  traced _ _ _ _ _ := rfl
  noted _ _ _ := rfl
  corrected _ _ := rfl
  flips _ _ := rfl
  frg _ _ _ := rfl
  granules _ _ _ _ := rfl
  bi _ _ _ := rfl
  issued _ _ := rfl
  free _ _ := rfl
  run _ _ _ := rfl
  waits _ _ := rfl
  fdescs _ _ := rfl
  requests _ _ _ := rfl
  colls _ _ _ := rfl
  drip _ _ _ := rfl

theorem countsOf_of_same {s t : State} (now : t.now = s.now) (counting : t.counting = s.counting) (d u : Nat) :
    t.countsOf d u = s.countsOf d u := by
  simp only [State.counting, Prod.mk.injEq] at counting
  obtain ⟨counts, bar⟩ := counting
  rw [State.countsOf, now, counts, bar, State.countsOf]

/-- The counted resets after one more. -/
theorem countsOf_countReset (s : State) (d u : Nat) : (s.countReset d u).countsOf d u =
    (s.countsOf d u ++ [s.now]).filter fun t => decide ((s.now - t).toNat < s.barF (escKey d) 8 11 * minuteTicks) := by
  unfold State.countsOf
  rw [State.countReset, Tab.get_set_self]
  rfl

theorem countFrg_below {s : State} {f : Nat} (below : (s.countsOf 0 (frgUnit f)).length + 1 < s.barF (escKey 0) 0 4) :
    s.countFrg f = s.countReset 0 (frgUnit f) := by
  have short : (s.countReset 0 (frgUnit f)).overCount 0 (frgUnit f) = false := by
    refine decide_eq_false (Nat.not_le.mpr (Nat.lt_of_le_of_lt ?_ below))
    rw [countsOf_countReset]
    exact (List.length_filter_le ..).trans (by simp)
  unfold State.countFrg
  dsimp only
  rw [short]
  rfl

/-- A restart that stays below the threshold leaves the datapath cleared. -/
theorem restartFrg_clears {s : State} {f : Nat} (below : (s.countsOf 0 (frgUnit f)).length + 1 < s.barF (escKey 0) 0 4) :
    ((s.restartFrg f).frg f).scratch = 0 ∧ ((s.restartFrg f).frg f).ea = [] := by
  have now : ((s.clearFrg f).loseEngine (s.partOfDev f) (256 * f) (s.runningOn f)).now = s.now :=
    now_quenchInert.loseEngine now_bump47 (fun _ _ => rfl) (s.clearFrg f) ..
  have counting : ((s.clearFrg f).loseEngine (s.partOfDev f) (256 * f) (s.runningOn f)).counting = s.counting :=
    counting_quenchInert.loseEngine (fun _ _ => rfl) (fun _ _ => rfl) (s.clearFrg f) ..
  have cleared : (s.clearFrg f).frg f = { s.frg f with ea := [], w := [], scratch := 0 } := Tab.get_set_self ..
  obtain ⟨scratch, ea⟩ := (lasting_steady.loseEngine (s.clearFrg f) (s.partOfDev f) (256 * f) (s.runningOn f)).frg f
  unfold State.restartFrg
  generalize (s.clearFrg f).loseEngine (s.partOfDev f) (256 * f) (s.runningOn f) = u at now counting scratch ea ⊢
  have bar : u.barF = s.barF := congrArg Prod.snd counting
  rw [← bar, ← countsOf_of_same now counting] at below
  rw [countFrg_below below]
  exact ⟨scratch.trans (congrArg Frg.scratch cleared), ea.trans (congrArg Frg.ea cleared)⟩

/-- A forager's datapath that sends nothing is restarted. -/
theorem foragerHung_restarts {s : State} {f : Nat} (live : s.live = true) (hf : f < 32) (running : s.power.running = true)
    (kept : (s.frg f).retired = false) (silent : s.silent (frgUnit f) = true) :
    ∃ t, exec (.foragerHung f) s = .next t ∧ Tab.get (fun _ => 0) t.resets.beats (frgUnit f) = t.now ∧
      ((s.countsOf 0 (frgUnit f)).length + 1 < s.barF (escKey 0) 0 4 → (t.frg f).scratch = 0 ∧ (t.frg f).ea = []) := by
  refine ⟨((s.escalate (s.partOfDev f) 19 f 0).restartFrg f).beat (frgUnit f), ?_, beat_stamp .., fun below => ?_⟩
  · rw [exec, execForagerHung, whenFormed_of_formed _ (decide_eq_true hf), whenLive_of_live _ live]
    exact whenDue_of_due _ (by rw [running, kept, silent]; rfl)
  · have counting : (s.escalate (s.partOfDev f) 19 f 0).counting = s.counting :=
      counting_quenchInert.toReportInert.escalate (fun _ _ => rfl) ..
    have bar : (s.escalate (s.partOfDev f) 19 f 0).barF = s.barF := congrArg Prod.snd counting
    rw [← bar, ← countsOf_of_same (now_escalate ..) counting] at below
    exact restartFrg_clears below

theorem foragerHung_refuses {s : State} {f : Nat} (live : s.live = true) (hf : f < 32) (sent : s.silent (frgUnit f) = false) :
    exec (.foragerHung f) s = .refused .notDue := by
  rw [exec, execForagerHung, whenFormed_of_formed _ (decide_eq_true hf), whenLive_of_live _ live]
  exact whenDue_of_not _ (by rw [sent]; simp)

theorem aon_reports (r j b : Nat) : ∀ (l : List Nat) (s : State),
    (foldS (fun s p => (s.report p 4 r j b).bump 47 1) s l).aon 47 = s.aon 47 + BitVec.ofNat 64 l.length
  | [], s => (BitVec.add_zero _).symm
  | p :: l, s => by
    have one : ((s.report p 4 r j b).bump 47 1).aon 47 = s.aon 47 + 1 :=
      (aon_bump_self _ 47 1).trans (congrArg (· + 1) (aon47_quenchInert.toReportInert.report s p 4 r j b))
    refine (aon_reports r j b l ((s.report p 4 r j b).bump 47 1)).trans ?_
    rw [one, List.length_cons, Nat.add_comm l.length 1, BitVec.ofNat_add, BitVec.add_assoc]
    rfl

theorem aon_escalateAll (s : State) (r j d : Nat) : (s.escalateAll r j d).aon 47 = s.aon 47 + BitVec.ofNat 64 s.parts := by
  refine (aon47_quenchInert.toReportInert.relayReport ..).trans ((aon_reports r j _ (List.range s.parts) s).trans ?_)
  rw [List.length_range]

/-- A controller that sends nothing is reloaded; a link's reload is reported in every partition. -/
theorem controllerHung_reloads {s : State} {k : Controller} {n : Nat} (live : s.live = true) (ok : controllerOk k n = true)
    (powered : s.beats (controllerSender k) n = true) (silent : s.silent (beatKey (controllerSender k) n) = true) :
    ∃ t, exec (.controllerHung k n) s = .next t ∧ Tab.get (fun _ => 0) t.resets.beats (beatKey (controllerSender k) n) = t.now ∧
      (k = .link → t.aon 47 = s.aon 47 + BitVec.ofNat 64 s.parts) := by
  have due : (s.beats (controllerSender k) n && s.silent (beatKey (controllerSender k) n)) = true := by rw [powered, silent]; rfl
  rw [exec]
  unfold execControllerHung
  rw [whenFormed_of_formed _ ok, whenLive_of_live _ live]
  dsimp only
  rw [whenDue_of_due _ due]
  refine ⟨_, rfl, beat_stamp .., ?_⟩
  rintro rfl
  exact aon_escalateAll ..

theorem controllerHung_refuses {s : State} {k : Controller} {n : Nat} (live : s.live = true) (ok : controllerOk k n = true)
    (sent : s.silent (beatKey (controllerSender k) n) = false) : exec (.controllerHung k n) s = .refused .notDue := by
  rw [exec]
  unfold execControllerHung
  rw [whenFormed_of_formed _ ok, whenLive_of_live _ live]
  exact whenDue_of_not _ (by rw [sent, Bool.and_false])

theorem heartbeats : Claims.Heartbeats := by
  intro s live
  refine ⟨fun k n ok ref powered => ?_, fun n hn running state inside silent free =>
    cellHung_resets live hn running state inside silent free,
    fun n hn _ sent => cellHung_refuses live hn sent, fun f hf running kept silent => foragerHung_restarts live hf running kept silent,
    fun f hf sent => foragerHung_refuses live hf sent, fun k n ok powered silent => controllerHung_reloads live ok powered silent,
    fun k n ok sent => controllerHung_refuses live ok sent⟩
  rw [exec, execHeartbeat, whenFormed_of_formed _ ok, whenLive_of_live _ live, whenDue_of_due _ (by rw [ref, powered]; rfl)]
  rfl

/-! ### Counted resets (R564-R566) -/

theorem resetCounts : Claims.ResetCounts := by
  intro s d u _ window t
  have counts : t.countsOf d u = s.countsOf d u ++ [s.now] := by
    refine (countsOf_countReset s d u).trans (List.filter_eq_self.mpr fun w hw => ?_)
    rcases List.mem_append.mp hw with old | new
    · exact (List.mem_filter.mp old).2
    · rw [List.mem_singleton.mp new, BitVec.sub_self]
      exact decide_eq_true (Nat.mul_pos window (by decide))
  refine ⟨counts, fun v other => ?_, Tab.get_set_self .., ?_⟩
  · unfold State.countsOf
    have kept : Tab.get (fun _ => []) t.resets.counts v = Tab.get (fun _ => []) s.resets.counts v := Tab.get_set_other _ _ _ _ _ other
    rw [kept]
    rfl
  · rw [State.overCount, decide_eq_true_iff, counts, List.length_append]
    exact Iff.rfl

/-- Settles O54. -/
theorem hangsAndEscalation : Obligations.HangsAndEscalation := ⟨watchdogs, heartbeats, resetCounts⟩

end Sys2Proof.Machine

/-!
PROOFS. The matrix unit: mma, acc.ld and acc.rd (O20).
-/

namespace Sys2Proof.Machine

/-! ### Accumulator arrays (R54, R57) -/

/-- The elements of an accumulator array of a type. -/
def elemCount (ty : Nat) : Nat := if ty = 9 then 2048 else 4096

/-- The width of an accumulator element. -/
def elemWidth (ty : Nat) : Nat := if ty = 9 then 64 else 32

theorem accW_setAccW_self (a : Arch) (n w : Nat) (x : BitVec 32) : (a.setAccW n w x).accW n w = x := Tab.get_set_self ..

theorem accW_setAccW_other {n w m v : Nat} (h : 4096 * m + v ≠ 4096 * n + w) (a : Arch) (x : BitVec 32) :
    (a.setAccW n w x).accW m v = a.accW m v := Tab.get_set_other _ _ _ _ _ h

section
variable (a : Arch) {n ty e x : Nat}

theorem accElem_setAccElem_self (hx : x < 2 ^ elemWidth ty) : (a.setAccElem n ty e x).accElem n ty e = x := by
  unfold Arch.setAccElem Arch.accElem
  by_cases h : ty = 9
  · have hx : x < 2 ^ 64 := by rwa [elemWidth, if_pos h] at hx
    rw [if_pos h, if_pos h, accW_setAccW_self, accW_setAccW_other (by omega), accW_setAccW_self, BitVec.toNat_ofNat, BitVec.toNat_ofNat]
    omega
  · have hx : x < 2 ^ 32 := by rwa [elemWidth, if_neg h] at hx
    rw [if_neg h, if_neg h, accW_setAccW_self, BitVec.toNat_ofNat, Nat.mod_eq_of_lt hx]

theorem accElem_setAccElem_other {i : Nat} (h : i ≠ e) : (a.setAccElem n ty e x).accElem n ty i = a.accElem n ty i := by
  unfold Arch.setAccElem Arch.accElem
  by_cases h9 : ty = 9
  · simp only [if_pos h9]
    rw [accW_setAccW_other (by omega), accW_setAccW_other (by omega), accW_setAccW_other (by omega), accW_setAccW_other (by omega)]
  · simp only [if_neg h9]
    rw [accW_setAccW_other (by omega)]

/-- Writing an element leaves the other arrays. -/
theorem accW_setAccElem_other (he : e < elemCount ty) {m w : Nat} (hw : w < 4096) (h : m ≠ n) :
    (a.setAccElem n ty e x).accW m w = a.accW m w := by
  unfold Arch.setAccElem
  by_cases h9 : ty = 9
  · rw [elemCount, if_pos h9] at he
    rw [if_pos h9, accW_setAccW_other (by omega), accW_setAccW_other (by omega)]
  · rw [elemCount, if_neg h9] at he
    rw [if_neg h9, accW_setAccW_other (by omega)]

theorem setAccElem_frame : a.setAccElem n ty e x = { a with acc := (a.setAccElem n ty e x).acc } := by
  unfold Arch.setAccElem
  split <;> rfl

end

/-- The places of a block of `M` rows of 64 elements. -/
def blockPlaces (M : Nat) : List (Nat × Nat) := (List.range M).flatMap fun i => (List.range 64).map fun j => (i, j)

theorem mem_blockPlaces {M i j : Nat} : (i, j) ∈ blockPlaces M ↔ i < M ∧ j < 64 := by
  simp [blockPlaces]

/-- Array `n` with elements written in turn. -/
def Arch.fill (n ty : Nat) (val : Nat → Nat → Nat) (l : List (Nat × Nat)) (a : Arch) : Arch :=
  l.foldl (fun b p => b.setAccElem n ty (p.1 * 64 + p.2) (val p.1 p.2)) a

section
variable {n ty : Nat} {val : Nat → Nat → Nat}

theorem fill_frame : ∀ (l : List (Nat × Nat)) (a : Arch), a.fill n ty val l = { a with acc := (a.fill n ty val l).acc }
  | [], _ => rfl
  | p :: l, a => by
    have later := fill_frame l (a.setAccElem n ty (p.1 * 64 + p.2) (val p.1 p.2))
    exact later.trans (congrArg (fun b : Arch => { b with acc := (Arch.fill n ty val (p :: l) a).acc }) (setAccElem_frame a))

theorem pc_fill (l : List (Nat × Nat)) (a : Arch) : (a.fill n ty val l).pc = a.pc := by rw [fill_frame]

theorem s_fill (l : List (Nat × Nat)) (a : Arch) : (a.fill n ty val l).s = a.s := by rw [fill_frame]

theorem accElem_fill_outside {e : Nat} : ∀ (l : List (Nat × Nat)) (a : Arch), (∀ p ∈ l, e ≠ p.1 * 64 + p.2) →
    (a.fill n ty val l).accElem n ty e = a.accElem n ty e
  | [], _, _ => rfl
  | p :: l, a, h => (accElem_fill_outside l _ fun q hq => h q (List.mem_cons_of_mem _ hq)).trans
      (accElem_setAccElem_other a (h p List.mem_cons_self))

/-- An element that was written holds its value. -/
theorem accElem_fill_inside {i j : Nat} (hj : j < 64) (fits : val i j < 2 ^ elemWidth ty) : ∀ (l : List (Nat × Nat)) (a : Arch),
    (∀ p ∈ l, p.2 < 64) → (i, j) ∈ l → (a.fill n ty val l).accElem n ty (i * 64 + j) = val i j
  | [], _, _, h => absurd h List.not_mem_nil
  | p :: l, a, narrow, h => by
    have narrowL : ∀ q ∈ l, q.2 < 64 := fun q hq => narrow q (List.mem_cons_of_mem _ hq)
    by_cases later : (i, j) ∈ l
    · exact accElem_fill_inside hj fits l _ narrowL later
    · obtain rfl : (i, j) = p := (List.mem_cons.mp h).resolve_right later
      refine (accElem_fill_outside l _ fun q hq same => later ?_).trans (accElem_setAccElem_self a fits)
      have := narrowL q hq
      obtain ⟨rfl, rfl⟩ : i = q.1 ∧ j = q.2 := by omega
      exact hq

theorem accW_fill_other {m w : Nat} (hw : w < 4096) (h : m ≠ n) : ∀ (l : List (Nat × Nat)) (a : Arch),
    (∀ p ∈ l, p.1 * 64 + p.2 < elemCount ty) → (a.fill n ty val l).accW m w = a.accW m w
  | [], _, _ => rfl
  | p :: l, a, small => (accW_fill_other hw h l _ fun q hq => small q (List.mem_cons_of_mem _ hq)).trans
      (accW_setAccElem_other a (small p List.mem_cons_self) hw h)

/-- A block written into an array: its elements, and the other arrays. -/
theorem fill_block {M : Nat} (hM : M * 64 ≤ elemCount ty) (fits : ∀ i j, val i j < 2 ^ elemWidth ty) (a : Arch) :
    (∀ i, i < M → ∀ j, j < 64 → (a.fill n ty val (blockPlaces M)).accElem n ty (64 * i + j) = val i j) ∧
    ∀ j w, j ≠ n → w < 4096 → (a.fill n ty val (blockPlaces M)).accW j w = a.accW j w := by
  refine ⟨fun i hi j hj => ?_, fun m w h hw => accW_fill_other hw h _ _ fun p hp => ?_⟩
  · rw [Nat.mul_comm 64 i]
    exact accElem_fill_inside hj (fits i j) _ _ (fun p hp => (mem_blockPlaces.mp hp).2) (mem_blockPlaces.mpr ⟨hi, hj⟩)
  · obtain ⟨row, column⟩ := mem_blockPlaces.mp hp
    omega

end

/-! ### mma (R54, R114, R115, R162-R164) -/

theorem foldl_fst {α β γ : Type} {F : α × β → γ → α × β} {f : α → γ → α} : ∀ (l : List γ) (x : α × β),
    (∀ x, ∀ p ∈ l, (F x p).1 = f x.1 p) → (l.foldl F x).1 = l.foldl f x.1
  | [], _, _ => rfl
  | p :: l, x, h => (foldl_fst l (F x p) fun y q hq => h y q (List.mem_cons_of_mem _ hq)).trans
      (congrArg (l.foldl f) (h x p List.mem_cons_self))

/-- What mma leaves at row `i`, column `j` of its array. -/
def mmaVal (s : State) (a : Arch) (acc ty cm : Nat) (ta tb : Tile) (r c k K : Nat) (i j : Nat) : Nat :=
  if ta.fmt = 0 then mmaInt cm (a.accElem acc ty (i * 64 + j)) (ta.elems s (r + i) k K) (tb.elems s (c + j) k K)
  else (mmaElem (if ty = 9 then fp64 else fp32) cm (a.accElem acc ty (i * 64 + j)) (ta.values s (r + i) k K) (tb.values s (c + j) k K)).1

/-- The shapes of R54: every block is 64 columns wide and fits its array. -/
theorem mmaShape_fits {fmt M N K ty : Nat} (h : mmaShape fmt = some (M, N, K, ty)) :
    N = 64 ∧ 0 < M ∧ M * 64 ≤ elemCount ty ∧ 0 < K ∧ (fmt = 0 → ty = 2) := by
  unfold mmaShape at h
  split at h <;> cases h <;> decide

theorem mmaVal_lt {s : State} {a : Arch} {acc ty cm : Nat} {ta tb : Tile} {r c k K : Nat} (int : ta.fmt = 0 → ty = 2) (i j : Nat) :
    mmaVal s a acc ty cm ta tb r c k K i j < 2 ^ elemWidth ty := by
  unfold mmaVal elemWidth
  split
  next zero =>
    rw [int zero]
    exact wrap_lt 32 _
  · by_cases h : ty = 9
    · rw [if_pos h, if_pos h]
      exact (FpFmt.round_fits (FpFmt.sound (.inl rfl)) ..).1
    · rw [if_neg h, if_neg h]
      exact (FpFmt.round_fits (FpFmt.sound (.inr (.inl rfl))) ..).1

theorem getD_map_range {α : Type} (g : Nat → List α) {M i : Nat} (h : i < M) : ((List.range M).map g).getD i [] = g i := by
  simp [List.getD, h]

/-- mma fills its block. -/
theorem mmaRun_fill {s : State} {a : Arch} {acc cm : Nat} {ta tb : Tile} {m q k M N K ty : Nat}
    (shape : mmaShape ta.fmt = some (M, N, K, ty)) : (mmaRun s a acc cm ta tb m q k).1 =
      a.fill acc ty (mmaVal s a acc ty cm ta tb (m * M) (q * N) (k * K) K) (blockPlaces M) := by
  obtain rfl := (mmaShape_fits shape).1
  unfold mmaRun
  rw [shape]
  dsimp only
  unfold Arch.fill
  split
  next zero =>
    refine List.foldl_ext _ _ _ fun b p hp => ?_
    obtain ⟨row, column⟩ := mem_blockPlaces.mp hp
    rw [getD_map_range _ row, getD_map_range _ column, mmaVal, if_pos zero]
  next nonzero =>
    refine foldl_fst _ _ fun b p hp => ?_
    obtain ⟨row, column⟩ := mem_blockPlaces.mp hp
    rw [getD_map_range _ row, getD_map_range _ column, mmaVal, if_neg nonzero]

/-- What mma leaves of the state. -/
def State.mmaDone (s : State) (n : Nat) (a : Arch) : State :=
  ((s.bumpCell (s.remapOf n).phys 1 1).bumpComb (n / 8) 3 1).setCell n { s.cell n with arch := a }

theorem exec_mma {s : State} {n : Nat} {f : F3} (hi : Issues s n f.g true) (hri : f.ri = 0) (hres : f.res = 0) (hcm : f.cm ≠ 3)
    (unflipped : s.flips = []) (free : ∀ r ∈ (s.cell n).arch.mmaRanges f, s.moveOverlaps n r.1 r.2 = false) {ta tb : Tile} {m q k : Nat}
    (hta : ta = tileOf ((s.cell n).arch.treg f.ta.toNat)) (htb : tb = tileOf ((s.cell n).arch.treg f.tb.toNat))
    (hm : m = ((s.cell n).arch.sreg f.sm.toNat).toNat) (hq : q = ((s.cell n).arch.sreg f.sn.toNat).toNat)
    (hk : k = ((s.cell n).arch.sreg f.sk.toNat).toNat) (check : mmaCheck n ta tb m q k f.aty.toNat = none) :
    exec (.mma n f) s = .next ((s.endFence n true).mmaDone n (if ta.empty || tb.empty then (s.cell n).arch.advance
      else ((mmaRun (s.endFence n true) (s.cell n).arch f.acc.toNat f.cm.toNat ta tb m q k).1.flags
        (mmaRun (s.endFence n true) (s.cell n).arch f.acc.toNat f.cm.toNat ta tb m q k).2).advance)) := by
  have legal : (legalF3 true true false f && f.cm != 3) = true := by simpa [legalF3, hri, hres] using hcm
  have still : ((s.cell n).arch.mmaRanges f).any (fun r => s.moveOverlaps n r.1 r.2) = false :=
    List.any_eq_false.mpr fun r hr => by rw [free r hr]; exact Bool.false_ne_true
  subst hta htb hm hq hk
  refine (withWords_unflipped unflipped ..).trans ?_
  rw [runMma, issueTouch, legal, still, Bool.and_false, if_neg Bool.false_ne_true, issue_executes hi]
  dsimp only
  rw [State.endFence_arch, check]
  generalize ((tileOf ((s.cell n).arch.treg f.ta.toNat)).empty || (tileOf ((s.cell n).arch.treg f.tb.toNat)).empty) = none_
  cases none_
  · rw [if_neg Bool.false_ne_true, State.mmaDone]
    rfl
  · rfl

/-! A fence leaves what tiles hold. -/

theorem elems_endFence (t : Tile) (s : State) (n : Nat) (memory : Bool) (r c k : Nat) :
    t.elems (s.endFence n memory) r c k = t.elems s r c k := by
  rw [Tile.elems, memBytes_endFence, Tile.elems]

theorem values_endFence (t : Tile) (s : State) (n : Nat) (memory : Bool) (r c k : Nat) :
    t.values (s.endFence n memory) r c k = t.values s r c k := by
  have byte : (s.endFence n memory).memByte = s.memByte := by
    rw [s.endFence_only_cells n memory]
    rfl
  rw [Tile.values, elems_endFence, byte, Tile.values]

theorem mmaVal_endFence (s : State) (n : Nat) (memory : Bool) (a : Arch) (acc ty cm : Nat) (ta tb : Tile) (r c k K i j : Nat) :
    mmaVal (s.endFence n memory) a acc ty cm ta tb r c k K i j = mmaVal s a acc ty cm ta tb r c k K i j := by
  rw [mmaVal, elems_endFence, elems_endFence, values_endFence, values_endFence, mmaVal]

theorem mem_endFence (s : State) (n : Nat) (memory : Bool) : (s.endFence n memory).mem = s.mem := by
  rw [s.endFence_only_cells n memory]

theorem mem_mmaDone (s : State) (n : Nat) (a : Arch) : (s.mmaDone n a).mem = s.mem := rfl

theorem cell_mmaDone (s : State) (n : Nat) (a : Arch) : (s.mmaDone n a).cell n = { s.cell n with arch := a } :=
  State.cell_setCell_self ..

/-- An INT8 element, as R164 says it. -/
theorem mmaInt_eq (cm : BitVec 2) (hcm : cm ≠ 3) (old : Nat) (xs ys : List Nat) :
    mmaInt cm.toNat old xs ys =
      let p := (xs.zip ys).foldl (fun v e => v + toSigned 8 e.1 * toSigned 8 e.2) 0
      wrap 32 (if cm = 0 then toSigned 32 old + p else if cm = 1 then p else toSigned 32 old - p) := by
  have sum : (List.zipWith (fun x y => toSigned 8 x * toSigned 8 y) xs ys).foldl (· + ·) 0 =
      (xs.zip ys).foldl (fun v e => v + toSigned 8 e.1 * toSigned 8 e.2) 0 := by
    rw [← List.map_uncurry_zip_eq_zipWith, List.foldl_map]
    rfl
  have codes : cm = 0 ∨ cm = 1 ∨ cm = 2 := by
    revert hcm cm
    decide
  unfold mmaInt
  rw [sum]
  rcases codes with rfl | rfl | rfl <;> rfl

/-- A floating-point element, as R162 says it. -/
theorem mmaElem_eq (ff : FpFmt) (cm : BitVec 2) (old : Nat) (xs ys : List Fp) :
    (mmaElem ff cm.toNat old xs ys).1 =
      let ps := List.zipWith (fun x y => (Fp.mul x y).1) xs ys
      let ps := if cm = 2 then ps.map Fp.negate else ps
      (ff.round .rne 0 (Fp.sum false (if cm = 1 then ps else ff.decode old :: ps)).1).1 := by
  have two : cm.toNat = 2 ↔ cm = 2 := by rw [BitVec.toNat_eq]; rfl
  have one : cm.toNat = 1 ↔ cm = 1 := by rw [BitVec.toNat_eq]; rfl
  have first : (List.zipWith Fp.mul xs ys).map Prod.fst = List.zipWith (fun x y => (Fp.mul x y).1) xs ys := List.map_zipWith ..
  unfold mmaElem products
  dsimp only
  rw [first]
  simp only [two, one]

theorem mmaCheck_none {n M N K ty m q k : Nat} {ta tb : Tile} (good : ta.malformed false = false) (goodB : tb.malformed false = false)
    (base : ta.base % 64 = 0) (stride : ta.s1 % 64 = 0) (baseB : tb.base % 64 = 0) (strideB : tb.s1 % 64 = 0)
    (pair : mmaPair ta.fmt tb.fmt = true) (shape : mmaShape ta.fmt = some (M, N, K, ty))
    (lies : (ta.empty || tb.empty) = true ∨ (ownRange n ta.base (ta.span 1) = true ∧ ownRange n tb.base (tb.span 1) = true ∧
      (m + 1) * M ≤ ta.d1 ∧ (q + 1) * N ≤ tb.d1 ∧ (k + 1) * K ≤ ta.d0 ∧ (k + 1) * K ≤ tb.d0 ∧
      scalesOwn n ta (m * M) M (k * K) K = true ∧ scalesOwn n tb (q * N) N (k * K) K = true)) :
    mmaCheck n ta tb m q k ty = none := by
  unfold mmaCheck
  rcases lies with none_ | ⟨own, ownB, rows, rowsB, columns, columnsB, scales, scalesB⟩
  · simp [good, goodB, none_, base, stride, baseB, strideB, pair, shape]
  · simp [good, goodB, own, ownB, base, stride, baseB, strideB, pair, shape, rows, rowsB, columns, columnsB, scales, scalesB]

theorem not_empty_of_block {t : Tile} {m M k K : Nat} (planes : t.d2 ≠ 0) (hM : 0 < M) (hK : 0 < K) (rows : (m + 1) * M ≤ t.d1)
    (columns : (k + 1) * K ≤ t.d0) : t.empty = false := by
  have d0 : t.d0 ≠ 0 := ((Nat.mul_pos (Nat.succ_pos k) hK).trans_le columns).ne'
  have d1 : t.d1 ≠ 0 := ((Nat.mul_pos (Nat.succ_pos m) hM).trans_le rows).ne'
  simp [Tile.empty, planes, d0, d1]

theorem tileRange_full {a : Arch} {r : BitVec 4} (full : (tileOf (a.treg r.toNat)).empty = false) :
    a.tileRange r = ((tileOf (a.treg r.toNat)).base, (tileOf (a.treg r.toNat)).span 1) := by
  rw [Arch.tileRange, full]
  rfl

/-- No move in flight meets what mma reads of a tile. -/
theorem tile_free {s : State} {n : Nat} {a : Arch} {r : BitVec 4} {t : Tile} (ht : t = tileOf (a.treg r.toNat)) (full : t.empty = false)
    (clear : Clear s n t.base (t.span 1)) (scales : isMx t.fmt = true → Clear s n t.scale (t.d1 * t.d0 / 32)) :
    ∀ e ∈ a.tileRange r :: if isMx t.fmt then [(t.scale, t.d1 * t.d0 / 32)] else [], s.moveOverlaps n e.1 e.2 = false := by
  subst ht
  intro e he
  rcases List.mem_cons.mp he with rfl | he
  · rw [tileRange_full full]
    exact clear.1
  · split at he
    next mx =>
      rw [List.mem_singleton.mp he]
      exact (scales mx).1
    · exact absurd he List.not_mem_nil

theorem matrixMultiply : Claims.MatrixMultiply := by
  intro s n f M N K ty a ta tb m q k hi hri hres hcm clear clearB clearS clearSB good goodB base stride baseB strideB pair shape aty
    own ownB planes planesB rows rowsB columns columnsB scales scalesB
  obtain ⟨rfl, hM, fits, hK, int⟩ := mmaShape_fits shape
  have full : ta.empty = false := not_empty_of_block planes hM hK rows columns
  have fullB : tb.empty = false := not_empty_of_block planesB (by decide) hK rowsB columnsB
  have free : ∀ r ∈ (s.cell n).arch.mmaRanges f, s.moveOverlaps n r.1 r.2 = false := by
    intro r hr
    unfold Arch.mmaRanges at hr
    rw [if_neg (by rw [show (tileOf ((s.cell n).arch.treg f.ta.toNat)).empty = false from full, show
      (tileOf ((s.cell n).arch.treg f.tb.toNat)).empty = false from fullB]; exact Bool.false_ne_true)] at hr
    rcases List.mem_append.mp hr with h | h
    · exact tile_free rfl full clear clearS r h
    · exact tile_free rfl fullB clearB clearSB r h
  have check : mmaCheck n ta tb m q k f.aty.toNat = none := aty ▸ mmaCheck_none good goodB base stride baseB strideB pair shape
    (.inr ⟨own, ownB, rows, rowsB, columns, columnsB, scales, scalesB⟩)
  have run := exec_mma hi hri hres hcm clear.2 free rfl rfl rfl rfl rfl check
  have same : mmaVal (s.endFence n true) a f.acc.toNat ty f.cm.toNat ta tb (m * M) (q * 64) (k * K) K =
      mmaVal s a f.acc.toNat ty f.cm.toNat ta tb (m * M) (q * 64) (k * K) K :=
    funext fun i => funext fun j => mmaVal_endFence ..
  rw [full, fullB, Bool.or_false, if_neg Bool.false_ne_true, mmaRun_fill shape] at run
  obtain ⟨elems, others⟩ := fill_block (n := f.acc.toNat) fits (mmaVal_lt (s := s) (a := a) (acc := f.acc.toNat)
    (cm := f.cm.toNat) (ta := ta) (tb := tb) (r := m * M) (c := q * 64) (k := k * K) (K := K) int) a
  refine ⟨_, run, ?_⟩
  rw [mem_mmaDone, mem_endFence, cell_mmaDone]
  dsimp only
  rw [show (mmaVal (s.endFence n true) _ _ _ _ _ _ _ _ _ _) = _ from same]
  generalize (mmaRun _ _ _ _ _ _ _ _ _).2 = g
  have place : ∀ j l, j * 64 + l = 64 * j + l := fun j l => by omega
  refine ⟨congrArg (· + 1) (pc_fill (blockPlaces M) a), rfl, s_fill (blockPlaces M) a, fun j hj l hl =>
    ⟨fun zero => (elems j hj l hl).trans ?_, fun nonzero => (elems j hj l hl).trans ?_⟩, fun j w _ other hw => others j w other hw⟩
  · rw [mmaVal, if_pos zero, mmaInt_eq f.cm hcm, place j l]
  · rw [mmaVal, if_neg nonzero, mmaElem_eq, place j l]

/-! ### acc.ld (R117) -/

theorem blockCheck_none {n ty m q : Nat} {t : Tile} (low : cellMem n ≤ t.base) (rows : (m + 1) * blockRows ty ≤ t.d1)
    (columns : (q + 1) * 64 ≤ t.d0) (wide : 8 ≤ t.width)
    (own : ownRange n (t.rowAddr (m * blockRows ty) 0 + q * 64 * t.width / 8) ((blockRows ty - 1) * t.s1 + 64 * t.width / 8) = true) :
    blockCheck n t ty m q = none := by
  have high := of_decide_eq_true ((Bool.and_eq_true ..).mp own).2
  unfold blockCheck
  dsimp only
  rw [if_neg, if_neg (by omega), if_neg (by rw [own]; simp)]
  unfold Tile.rowAddr at high
  omega

/-- The elements of a row, as bit patterns. -/
theorem elems_eq (t : Tile) (s : State) (r c : Nat) : t.elems s r c 64 = (List.range 64).map fun j =>
    bits (leNat (s.memBytes (t.rowAddr r 0 + c * t.width / 8) (64 * t.width / 8))) (j * t.width) t.width := by
  unfold Tile.elems
  rw [show (64 * t.width + 7) / 8 = 64 * t.width / 8 by omega]

theorem foldl_flatMap {α β γ : Type} (g : β → List γ) (f : α → γ → α) : ∀ (l : List β) (a : α),
    (l.flatMap g).foldl f a = l.foldl (fun a b => (g b).foldl f a) a
  | [], _ => rfl
  | b :: l, a => by rw [List.flatMap_cons, List.foldl_append, foldl_flatMap g f l]; rfl

/-- acc.ld fills its block. -/
theorem accLd_fill (s : State) (t : Tile) (n ty m q : Nat) (a : Arch) :
    (List.range (blockRows ty)).foldl (fun b i =>
      ((t.elems s (m * blockRows ty + i) (q * 64) 64).zip (List.range 64)).foldl (fun b p => b.setAccElem n ty (i * 64 + p.2) p.1) b) a =
    a.fill n ty (fun i j => bits (leNat (s.memBytes (t.rowAddr (m * blockRows ty + i) 0 + q * 64 * t.width / 8) (64 * t.width / 8)))
      (j * t.width) t.width) (blockPlaces (blockRows ty)) := by
  unfold Arch.fill blockPlaces
  rw [foldl_flatMap]
  refine List.foldl_ext _ _ _ fun b i _ => ?_
  have pairs (g : Nat → Nat) : ((List.range 64).map g).zip (List.range 64) = (List.range 64).map fun j => (g j, j) := by
    have := List.zip_map' (f := g) (g := id) (l := List.range 64)
    rwa [List.map_id] at this
  rw [elems_eq, pairs, List.foldl_map, List.foldl_map]

/-- The bits of a field fit it. -/
theorem bits_lt (x lo w : Nat) : bits x lo w < 2 ^ w := Nat.mod_lt _ (Nat.two_pow_pos w)

section
variable {s : State} {n : Nat} {f : F3} {t : Tile} {m q : Nat} (hi : Issues s n f.g true) (htb : f.tb = 0) (hsk : f.sk = 0)
  (hres : f.res = 0) (unflipped : s.flips = []) (ht : t = tileOf ((s.cell n).arch.treg f.ta.toNat))
  (free : s.moveOverlaps n ((s.cell n).arch.tileRange f.ta).1 ((s.cell n).arch.tileRange f.ta).2 = false) (good : t.malformed false = false)
  (hm : m = ((s.cell n).arch.sreg f.sm.toNat).toNat) (hq : q = ((s.cell n).arch.sreg f.sn.toNat).toNat)
include hi htb hsk hres unflipped ht free good

theorem exec_accLd_empty (hri : f.ri = 0) (hcm : f.cm = 0) (code : f.aty.toNat = 2 ∨ f.aty.toNat = 8 ∨ f.aty.toNat = 9)
    (fmt : t.fmt = f.aty.toNat) (none_ : t.empty = true) : exec (.accLd n f) s = .next (s.withArch n true (s.cell n).arch.advance) := by
  have legal : (legalF3 false false false f && f.cm == 0) = true := by simp [legalF3, htb, hsk, hri, hres, hcm]
  have types : (f.aty.toNat == 2 || f.aty.toNat == 8 || f.aty.toNat == 9) = true := by simpa [or_assoc] using code
  subst ht
  refine (withWords_unflipped unflipped ..).trans ?_
  rw [runAccLd, issueTouch, legal, if_neg (by simp [free]), issue_executes hi]
  simp [good, fmt, types, none_, State.withArch]

include hm hq

theorem exec_accLd (hri : f.ri = 0) (hcm : f.cm = 0) (code : f.aty.toNat = 2 ∨ f.aty.toNat = 8 ∨ f.aty.toNat = 9)
    (fmt : t.fmt = f.aty.toNat) (full : t.empty = false) (check : blockCheck n t f.aty.toNat m q = none) :
    exec (.accLd n f) s = .next (s.withArch n true ((s.cell n).arch.fill f.acc.toNat f.aty.toNat (fun i j =>
      bits (leNat (s.memBytes (t.rowAddr (m * blockRows f.aty.toNat + i) 0 + q * 64 * t.width / 8) (64 * t.width / 8)))
        (j * t.width) t.width) (blockPlaces (blockRows f.aty.toNat))).advance) := by
  have legal : (legalF3 false false false f && f.cm == 0) = true := by simp [legalF3, htb, hsk, hri, hres, hcm]
  have types : (f.aty.toNat == 2 || f.aty.toNat == 8 || f.aty.toNat == 9) = true := by simpa [or_assoc] using code
  rw [← accLd_fill s t f.acc.toNat f.aty.toNat m q]
  subst ht hm hq
  refine (withWords_unflipped unflipped ..).trans ?_
  rw [runAccLd, issueTouch, legal, if_neg (by simp [free]), issue_executes hi]
  simp [good, fmt, types, full, check, State.withArch, elems_endFence]

end

/-! ### Rows written to memory (R117, R118) -/

theorem mem_writeLocal (s : State) (o : Nat) (bs : List Byte) : (s.writeLocal o bs).mem = putBytes memDefault s.mem o bs := mem_writeFor ..

theorem memByte_writeLocal_self (s : State) (o : Nat) (bs : List Byte) {k : Nat} (hk : k < bs.length) :
    (s.writeLocal o bs).memByte (o + k) = bs[k] := by
  rw [State.memByte, mem_writeLocal, putBytes_get_self _ _ _ _ _ hk]

theorem memByte_writeLocal_other (s : State) (o : Nat) (bs : List Byte) {p : Nat} (hp : p < o ∨ o + bs.length ≤ p) :
    (s.writeLocal o bs).memByte p = s.memByte p := by
  rw [State.memByte, mem_writeLocal, putBytes_get_other _ _ _ _ _ hp]
  rfl

/-- Rows written one after the other. -/
def State.writeRows (s : State) (rows : List (Nat × List Byte)) : State := foldS (fun s r => s.writeLocal r.1 r.2) s rows

theorem memByte_writeRows_outside {p : Nat} : ∀ (rows : List (Nat × List Byte)) (s : State),
    (∀ r ∈ rows, p < r.1 ∨ r.1 + r.2.length ≤ p) → (s.writeRows rows).memByte p = s.memByte p
  | [], _, _ => rfl
  | r :: rows, s, h => (memByte_writeRows_outside rows _ fun q hq => h q (List.mem_cons_of_mem _ hq)).trans
      (memByte_writeLocal_other s _ _ (h r List.mem_cons_self))

/-- Rows that lie one behind the other all land. -/
theorem memByte_writeRows_inside {r : Nat × List Byte} {k : Nat} (hk : k < r.2.length) : ∀ (rows : List (Nat × List Byte)) (s : State),
    rows.Pairwise (fun x y => x.1 + x.2.length ≤ y.1) → r ∈ rows → (s.writeRows rows).memByte (r.1 + k) = r.2[k]
  | [], _, _, h => absurd h List.not_mem_nil
  | x :: rows, s, apart, h => by
    obtain ⟨behind, rest⟩ := List.pairwise_cons.mp apart
    rcases List.mem_cons.mp h with rfl | h
    · refine (memByte_writeRows_outside rows _ fun y hy => ?_).trans (memByte_writeLocal_self s _ _ hk)
      have := behind y hy
      omega
    · exact memByte_writeRows_inside hk rows _ rest h

theorem arch_writeRows (s : State) (rows : List (Nat × List Byte)) (n : Nat) : ((s.writeRows rows).cell n).arch = (s.cell n).arch :=
  foldS_keeps (fun s => (s.cell n).arch) (fun _ _ => (arch_dataInert n).writeFor ..) _ _

/-- The address of a row of a block. -/
def Tile.blockRow (t : Tile) (rows m q i : Nat) : Nat := t.rowAddr (m * rows + i) 0 + q * 64 * t.width / 8

/-- Rows of a block lie one behind the other where the stride holds a row of it. -/
theorem blockRow_behind {t : Tile} {rows m q i j len : Nat} (stride : len ≤ t.s1) (h : i < j) :
    t.blockRow rows m q i + len ≤ t.blockRow rows m q j := by
  have next : (m * rows + (i + 1)) * t.s1 ≤ (m * rows + j) * t.s1 := Nat.mul_le_mul_right _ (by omega)
  unfold Tile.blockRow Tile.rowAddr
  rw [← Nat.add_assoc, Nat.succ_mul] at next
  omega

/-- The rows of a block that a read-out writes. -/
def outRows (t : Tile) (rows m q : Nat) (val : Nat → Nat → Nat) : List (Nat × List Byte) :=
  (List.range rows).map fun i => (t.blockRow rows m q i, leBytes (64 * t.width / 8) (ofLanes t.width ((List.range 64).map (val i))))

section
variable {t : Tile} {rows m q : Nat} {val : Nat → Nat → Nat}

theorem outRows_outside {s : State} {p : Nat}
    (h : ∀ i, i < rows → p < t.blockRow rows m q i ∨ t.blockRow rows m q i + 64 * t.width / 8 ≤ p) :
    (s.writeRows (outRows t rows m q val)).memByte p = s.memByte p := by
  refine memByte_writeRows_outside _ _ fun r hr => ?_
  obtain ⟨i, hi, rfl⟩ := List.mem_map.mp hr
  rw [length_leBytes]
  exact h i (List.mem_range.mp hi)

/-- Bytes of a row that was written. -/
theorem outRows_bytes {s : State} (stride : 64 * t.width / 8 ≤ t.s1) {i o k : Nat} (hi : i < rows) (inside : o + k ≤ 64 * t.width / 8) :
    (s.writeRows (outRows t rows m q val)).memBytes (t.blockRow rows m q i + o) k =
      leBytes k (ofLanes t.width ((List.range 64).map (val i)) / 256 ^ o) := by
  have apart : (outRows t rows m q val).Pairwise fun x y => x.1 + x.2.length ≤ y.1 := by
    refine List.pairwise_map.mpr ((List.pairwise_lt_range).imp fun h => ?_)
    rw [length_leBytes]
    exact blockRow_behind stride h
  refine List.ext_getElem (by rw [length_memBytes, length_leBytes]) fun x h _ => ?_
  rw [length_memBytes] at h
  rw [getElem_memBytes, getElem_leBytes, Nat.add_assoc,
    memByte_writeRows_inside (r := (t.blockRow rows m q i, leBytes _ (ofLanes t.width ((List.range 64).map (val i)))))
      (by rw [length_leBytes]; omega) _ s apart (List.mem_map.mpr ⟨i, List.mem_range.mpr hi, rfl⟩), getElem_leBytes,
    Nat.div_div_eq_div_mul, ← pow_add]

theorem lane_outRow {j : Nat} (hj : j < 64) (i : Nat) :
    bits (ofLanes t.width ((List.range 64).map (val i))) (j * t.width) t.width = val i j % 2 ^ t.width := by
  have := lane_ofLanes t.width ((List.range 64).map (val i)) j (by simpa using hj)
  rwa [List.getElem_map, List.getElem_range] at this

end

/-! ### acc.rd (R117, R118, R165) -/

/-- A fold of steps that each add an item adds them all. -/
theorem foldl_some {β ι : Type} {F : Option (List β × Nat) → ι → Option (List β × Nat)} {row : ι → β} : ∀ {l : List ι},
    (∀ i ∈ l, ∀ out g, ∃ h, F (some (out, g)) i = some (out ++ [row i], h)) →
    ∀ out g, ∃ h, l.foldl F (some (out, g)) = some (out ++ l.map row, h)
  | [], _, out, g => ⟨g, by rw [List.map_nil, List.append_nil]; rfl⟩
  | i :: l, step, out, g => by
    obtain ⟨h, one⟩ := step i List.mem_cons_self out g
    obtain ⟨k, rest⟩ := foldl_some (l := l) (fun j hj => step j (List.mem_cons_of_mem _ hj)) (out ++ [row i]) h
    refine ⟨k, ?_⟩
    rw [List.foldl_cons, one, rest, List.map_cons, List.append_assoc]
    rfl

/-- One element that a read-out gives, if it gives one. -/
def rdOut (s : State) (a : Arch) (f : F3) (t : Tile) (m q : Nat) (image : Bool) (i j : Nat) : Option (Nat × Nat) :=
  if image then rdImage f.aty.toNat f.cm.toNat (leNat (s.memBytes (t.blockRow (blockRows f.aty.toNat) m q i + 80 * j) 80))
    (a.accElem f.acc.toNat f.aty.toNat (i * 64 + j))
  else some (rdElem a f.ri f.aty.toNat t.fmt (i * 64 + j) (a.accElem f.acc.toNat f.aty.toNat (i * 64 + j)))

/-- A read-out of which every element is given writes them all. -/
theorem rdRows_some {s : State} {a : Arch} {f : F3} {t : Tile} {m q : Nat} {image : Bool} {val : Nat → Nat → Nat}
    (given : ∀ i, i < blockRows f.aty.toNat → ∀ j, j < 64 → ∃ k, rdOut s a f t m q image i j = some (val i j, k)) :
    ∃ g, rdRows s a f t m q image = some (outRows t (blockRows f.aty.toNat) m q val, g) := by
  unfold rdRows
  refine foldl_some (fun i hi rows g => ?_) [] 0
  obtain ⟨flags, elems⟩ : ∃ flags : Nat → Nat, ((List.range 64).map fun j => rdOut s a f t m q image i j) =
      (List.range 64).map fun j => some (val i j, flags j) := by
    refine ⟨fun j => ((rdOut s a f t m q image i j).getD (0, 0)).2, List.map_congr_left fun j hj => ?_⟩
    obtain ⟨k, out⟩ := given i (List.mem_range.mp hi) j (List.mem_range.mp hj)
    dsimp only
    rw [out]
    rfl
  unfold rdOut Tile.blockRow at elems
  have whole : ((List.range 64).map fun j => some (val i j, flags j)).any Option.isNone = false := by simp
  have given : ((List.range 64).map fun j => some (val i j, flags j)).filterMap id = (List.range 64).map fun j => (val i j, flags j) := by
    rw [List.filterMap_map]
    exact congrFun List.filterMap_eq_map' _
  dsimp only
  rw [elems, whole, given, List.map_map, if_neg Bool.false_ne_true]
  exact ⟨_, rfl⟩

/-- A fresh image. -/
theorem rdImage_fresh (ty old x : Nat) : ∃ k, rdImage ty 0 old x =
    some (accuImage (Accu.empty.add (if ty = 9 then 2 else 1) ((elemOf ty).decode x)), k) := ⟨_, rfl⟩

/-- An image that takes an element. -/
theorem rdImage_added {ty old : Nat} (sound : imageMalformed old = false)
    (kin : kindsClash (accuOpen old).kind (if ty = 9 then 2 else 1) = false) (x : Nat) : ∃ k, rdImage ty 1 old x =
      some (accuImage ((accuOpen old).add (if ty = 9 then 2 else 1) ((elemOf ty).decode x)), k) := by
  unfold rdImage
  dsimp only
  rw [if_pos rfl, sound, kin]
  exact ⟨_, rfl⟩

section
variable {s : State} {n : Nat} {f : F3} {t : Tile} {m q : Nat} {image : Bool} (hi : Issues s n f.g true) (htb : f.tb = 0) (hsk : f.sk = 0)
  (hres : f.res = 0) (unflipped : s.flips = []) (ht : t = tileOf ((s.cell n).arch.treg f.ta.toNat))
  (free : s.moveOverlaps n ((s.cell n).arch.tileRange f.ta).1 ((s.cell n).arch.tileRange f.ta).2 = false) (good : t.malformed false = false)
  (stage : s.stageOk ((s.cell n).arch.tileRange f.ta).1 ((s.cell n).arch.tileRange f.ta).2 = true)
  (mode : ((s.cell n).arch.amode != 0) = image) (code : f.cm = 0 ∨ (image = true ∧ f.cm = 1))
  (agrees : (if image then t.fmt == 16 && (f.aty.toNat == 8 || f.aty.toNat == 9) else rdNormal f.aty.toNat t.fmt) = true)
include hi htb hsk hres unflipped ht free good stage mode code agrees

/-- acc.rd of a well-formed tile, with what the checks of the block leave. -/
theorem exec_accRd_issues : exec (.accRd n ⟨f, .none⟩) s =
    match (if t.empty then Eff.done ((s.endFence n true).advancePc n)
      else match blockCheck n t f.aty.toNat ((s.cell n).arch.sreg f.sm.toNat).toNat ((s.cell n).arch.sreg f.sn.toNat).toNat with
        | some e => .fault e
        | none => match rdRows (s.endFence n true) (s.cell n).arch f t ((s.cell n).arch.sreg f.sm.toNat).toNat
            ((s.cell n).arch.sreg f.sn.toNat).toNat image with
          | none => .fault 4
          | some (rows, g) => .done (((s.endFence n true).writeRows rows).setCell n { ((s.endFence n true).writeRows rows).cell n with
              arch := ((((s.endFence n true).writeRows rows).cell n).arch.flags g).advance })) with
    | .done u => .next u
    | .fault k => .next ((s.endFence n true).programFault n k) := by
  have legal : (legalF3 false false true f && (f.cm == 0 || (image && f.cm == 1))) = true := by
    rcases code with cm | ⟨yes, cm⟩
    · simp [legalF3, htb, hsk, hres, cm]
    · simp [legalF3, htb, hsk, hres, cm, yes]
  subst ht mode
  refine (withWords_unflipped unflipped ..).trans ?_
  dsimp only
  rw [ite_self, withResidue_none, runAccRd]
  dsimp only
  rw [legal, stage, Bool.not_true, Bool.and_false, if_neg Bool.false_ne_true, issueTouch, if_neg (by simp [free]), issue_executes hi]
  rw [State.endFence_arch, good, agrees]
  rfl

end

/-- What a read-out leaves. -/
def State.readOut (s : State) (n g : Nat) (rows : List (Nat × List Byte)) : State :=
  ((s.endFence n true).writeRows rows).setCell n { ((s.endFence n true).writeRows rows).cell n with
    arch := ((((s.endFence n true).writeRows rows).cell n).arch.flags g).advance }

theorem readOut_frame (s : State) (n g : Nat) (rows : List (Nat × List Byte)) :
    ((s.readOut n g rows).cell n).arch.pc = (s.cell n).arch.pc + 1 ∧ ((s.readOut n g rows).cell n).arch.acc = (s.cell n).arch.acc := by
  have kept : (((s.endFence n true).writeRows rows).cell n).arch = (s.cell n).arch := (arch_writeRows ..).trans (s.endFence_arch n true)
  rw [State.readOut, State.cell_setCell_self, kept]
  exact ⟨rfl, rfl⟩

/-! What a read-out stores of its elements. -/

section
variable {s : State} {n g : Nat} {t : Tile} {rows m q : Nat} {val : Nat → Nat → Nat}

theorem readOut_outside {p : Nat} (h : ∀ i, i < rows → p < t.blockRow rows m q i ∨ t.blockRow rows m q i + 64 * t.width / 8 ≤ p) :
    (s.readOut n g (outRows t rows m q val)).memByte p = s.memByte p := by
  refine Eq.trans (outRows_outside (s := s.endFence n true) h) ?_
  rw [State.memByte, mem_endFence]
  rfl

variable (stride : 64 * t.width / 8 ≤ t.s1) {i j : Nat} (hi : i < rows) (hj : j < 64)
include stride hi hj

/-- An element of whole bytes. -/
theorem readOut_elem (fits : val i j < 2 ^ t.width) :
    bits (leNat ((s.readOut n g (outRows t rows m q val)).memBytes (t.blockRow rows m q i) (64 * t.width / 8))) (j * t.width) t.width =
      val i j := by
  have row : (s.readOut n g (outRows t rows m q val)).memBytes (t.blockRow rows m q i) (64 * t.width / 8) = _ :=
    outRows_bytes (s := s.endFence n true) (val := val) (m := m) (q := q) stride (o := 0) hi (by omega)
  have inside : j * t.width + t.width ≤ 8 * (64 * t.width / 8) := by
    have : (j + 1) * t.width ≤ 64 * t.width := Nat.mul_le_mul_right _ hj
    rw [Nat.succ_mul] at this
    omega
  rw [row, leNat_leBytes, pow_zero, Nat.div_one, bits_mod _ _ _ _ inside, lane_outRow hj, Nat.mod_eq_of_lt fits]

/-- An image. -/
theorem readOut_image (wide : t.width = 640) :
    leNat ((s.readOut n g (outRows t rows m q val)).memBytes (t.blockRow rows m q i + 80 * j) 80) = val i j % 2 ^ 640 := by
  have row : (s.readOut n g (outRows t rows m q val)).memBytes (t.blockRow rows m q i + 80 * j) 80 = _ :=
    outRows_bytes (s := s.endFence n true) (val := val) (m := m) (q := q) stride hi (by omega)
  have place : (256 : Nat) ^ (80 * j) = 2 ^ (j * t.width) := by
    rw [wide, show (256 : Nat) = 2 ^ 8 by rfl, ← pow_mul]
    congr 1
    omega
  rw [row, leNat_leBytes, place]
  have lane := lane_outRow (t := t) (val := val) hj i
  rw [bits, wide] at lane
  rwa [wide]

end

/-! The images of sums (R168, R174). -/

theorem bitIf_le (b : Bool) (n : Nat) : bitIf b n ≤ 2 ^ n := by
  unfold bitIf
  split
  · exact le_rfl
  · exact Nat.zero_le _

theorem add_mul_two_pow_lt {x h k j : Nat} (hx : x < 2 ^ k) (hh : h < 2 ^ j) : x + h * 2 ^ k < 2 ^ (j + k) := by
  have : (h + 1) * 2 ^ k ≤ 2 ^ j * 2 ^ k := Nat.mul_le_mul_right _ hh
  rw [Nat.succ_mul] at this
  rw [pow_add]
  omega

theorem accuImage_lt {a : Accu} (h : a.kind < 4) : accuImage a < 2 ^ 640 := by
  unfold accuImage
  split
  · exact Nat.two_pow_pos _
  extract_lets hdr sum
  have head : hdr < 2 ^ 16 := by
    have := bitIf_le a.nan 2
    have := bitIf_le a.pinf 3
    have := bitIf_le a.ninf 4
    have := bitIf_le a.ovf 5
    have := wrap_lt 8 a.bwin
    simp only [hdr]
    omega
  have body : sum < 2 ^ 576 := by
    have small : 2 ^ 384 ≤ 2 ^ 576 := Nat.pow_le_pow_right (by decide) (by decide)
    simp only [sum]
    split
    · split
      · exact Nat.mod_lt _ (Nat.two_pow_pos _)
      · exact wrap_lt 576 _
    split
    · exact (Nat.mod_lt _ (Nat.two_pow_pos _)).trans_le small
    · have := wrap_lt 128 a.b0
      have := wrap_lt 128 a.b1
      have := wrap_lt 128 a.b2
      omega
  exact (add_mul_two_pow_lt body head).trans_le (Nat.pow_le_pow_right (by decide) (by decide))

theorem kind_shift (a : Accu) (d : Nat) : (a.shift d).kind = a.kind := by
  unfold Accu.shift
  split <;> rfl

theorem kind_add_empty {kind : Nat} (h : kind = 1 ∨ kind = 2) (v : Fp) : (Accu.empty.add kind v).kind < 4 := by
  rcases h with rfl | rfl
  · have : (Accu.empty.addExact v).kind = 1 := by
      unfold Accu.addExact
      dsimp only
      split
      · rfl
      · rfl
      · rfl
      · split <;> rfl
    exact this.trans_lt (by decide)
  · have : (Accu.empty.addBinned v).kind = 2 := by
      unfold Accu.addBinned
      rw [if_pos (show Accu.empty.kind = 0 from rfl)]
      dsimp only
      split
      · rfl
      · rfl
      · rfl
      · split
        · rfl
        · rw [Accu.checked]
          dsimp only
          split
          · exact kind_shift ..
          · rfl
    exact this.trans_lt (by decide)

theorem plain_of_normal {ty fmt : Nat} (normal : rdNormal ty fmt = true) : fmt ≤ 9 := by
  simp only [rdNormal, Bool.or_eq_true, Bool.and_eq_true, beq_iff_eq, decide_eq_true_eq] at normal
  omega

theorem codeWidth_of_normal {ty fmt : Nat} (normal : rdNormal ty fmt = true) : 8 ≤ codeWidth fmt := by
  have plain := plain_of_normal normal
  interval_cases fmt <;> decide

/-- An element of a `NORMAL` read-out fits its format. -/
theorem rdElem_lt {a : Arch} {ri : BitVec 5} {ty fmt e x : Nat} (normal : rdNormal ty fmt = true) :
    (rdElem a ri ty fmt e x).1 < 2 ^ codeWidth fmt := by
  have plain := plain_of_normal normal
  unfold rdElem
  obtain ⟨w, he, hw, pos⟩ | ⟨g, he, hw, sound⟩ := elemOf_plain plain
  · rw [he, hw]
    exact saturate_lt pos _
  · rw [he, hw]
    exact (FpFmt.round_fits sound ..).1

/-! ### Transfers and empty tiles (R111, R117, R118) -/

theorem arch_withArch (s : State) (n : Nat) (memory : Bool) (a : Arch) : ((s.withArch n memory a).cell n).arch = a := by
  rw [State.withArch, State.cell_setCell_self]

theorem mem_withArch (s : State) (n : Nat) (memory : Bool) (a : Arch) : (s.withArch n memory a).mem = s.mem := mem_endFence ..

theorem blockRows_fits (ty : Nat) : 0 < blockRows ty ∧ blockRows ty * 64 ≤ elemCount ty := by
  unfold blockRows elemCount
  split <;> decide

theorem accumulatorTransfers : Claims.AccumulatorTransfers := by
  intro s n f _ a tl m q ty rows len row hi htb hsk hres clear good low rowsFit columnsFit planes own stage
  obtain ⟨some_, fits⟩ := blockRows_fits ty
  have full : tl.empty = false := not_empty_of_block planes some_ (by decide) rowsFit columnsFit
  have range : a.tileRange f.ta = (tl.base, tl.span 1) := tileRange_full full
  have free : s.moveOverlaps n ((s.cell n).arch.tileRange f.ta).1 ((s.cell n).arch.tileRange f.ta).2 = false := by
    rw [show (s.cell n).arch.tileRange f.ta = _ from range]
    exact clear.1
  have staged : s.stageOk ((s.cell n).arch.tileRange f.ta).1 ((s.cell n).arch.tileRange f.ta).2 = true := by
    rw [show (s.cell n).arch.tileRange f.ta = _ from range]
    exact stage
  have check : 8 ≤ tl.width → blockCheck n tl ty m q = none := fun wide => blockCheck_none low rowsFit columnsFit wide own
  have reads {image : Bool} {val : Nat → Nat → Nat} (mode : (a.amode != 0) = image) (code : f.cm = 0 ∨ (image = true ∧ f.cm = 1))
      (agrees : (if image then tl.fmt == 16 && (ty == 8 || ty == 9) else rdNormal ty tl.fmt) = true) (wide : 8 ≤ tl.width)
      (given : ∀ i, i < rows → ∀ j, j < 64 → ∃ k, rdOut (s.endFence n true) a f tl m q image i j = some (val i j, k)) :
      ∃ g, exec (.accRd n ⟨f, .none⟩) s = .next (s.readOut n g (outRows tl rows m q val)) := by
    obtain ⟨g, written⟩ := rdRows_some given
    refine ⟨g, (exec_accRd_issues hi htb hsk hres clear.2 rfl free good staged mode code agrees).trans ?_⟩
    rw [show (tileOf ((s.cell n).arch.treg f.ta.toNat)).empty = false from full, if_neg Bool.false_ne_true,
      show blockCheck n (tileOf ((s.cell n).arch.treg f.ta.toNat)) _ _ _ = none from check wide]
    dsimp only
    rw [show rdRows _ _ f (tileOf ((s.cell n).arch.treg f.ta.toNat)) _ _ _ = _ from written]
    rfl
  have place : ∀ i j, i * 64 + j = 64 * i + j := fun i j => by omega
  have images (code : ty = 8 ∨ ty = 9) (fmt : tl.fmt = 16) : (tl.fmt == 16 && (ty == 8 || ty == 9)) = true ∧ tl.width = 640 := by
    refine ⟨by simpa [fmt] using code, ?_⟩
    rw [Tile.width, fmt]
    rfl
  refine ⟨fun hri hcm code fmt => ?_, fun hcm normal agrees => ?_, fun hcm image code fmt => ?_, ?_⟩
  · have width : tl.width = elemWidth ty := by
      rw [Tile.width, fmt]
      rcases code with h | h | h <;> rw [h] <;> rfl
    have run := exec_accLd hi htb hsk hres clear.2 rfl free good rfl rfl hri hcm code fmt full (check (by
      rw [width, elemWidth]
      split <;> decide))
    obtain ⟨elems, others⟩ := fill_block (n := f.acc.toNat) fits (val := fun i j =>
      bits (leNat (s.memBytes (tl.rowAddr (m * blockRows ty + i) 0 + q * 64 * tl.width / 8) (64 * tl.width / 8))) (j * tl.width) tl.width)
      (fun i j => width ▸ bits_lt ..) a
    refine ⟨_, run, ?_⟩
    rw [arch_withArch, mem_withArch]
    exact ⟨congrArg (· + 1) (pc_fill ..), rfl, elems, fun j w _ other hw => others j w other hw⟩
  · obtain ⟨g, run⟩ := reads (image := false) (by simpa using normal) (.inl hcm) agrees (codeWidth_of_normal agrees)
      (val := fun i j => (rdElem a f.ri ty tl.fmt (i * 64 + j) (a.accElem f.acc.toNat ty (i * 64 + j))).1) fun _ _ _ _ => ⟨_, rfl⟩
    obtain ⟨pc, acc⟩ := readOut_frame s n g (outRows tl rows m q fun i j =>
      (rdElem a f.ri ty tl.fmt (i * 64 + j) (a.accElem f.acc.toNat ty (i * 64 + j))).1)
    refine ⟨_, run, pc, acc, fun p hp => readOut_outside hp, fun stride i hi j hj => ?_⟩
    refine (readOut_elem stride hi hj (rdElem_lt agrees)).trans ?_
    rw [place i j]
  · obtain ⟨agrees, width⟩ := images code fmt
    have kind : (if ty = 9 then 2 else 1) = 1 ∨ (if ty = 9 then 2 else 1) = 2 := by
      split
      · exact .inr rfl
      · exact .inl rfl
    obtain ⟨g, run⟩ := reads (image := true) (val := fun i j => accuImage (Accu.empty.add (if ty = 9 then 2 else 1)
      ((elemOf ty).decode (a.accElem f.acc.toNat ty (i * 64 + j))))) (by simpa using image) (.inl hcm) agrees (by omega) fun i _ j _ => by
        rw [rdOut, if_pos rfl, hcm]
        exact rdImage_fresh ..
    obtain ⟨pc, acc⟩ := readOut_frame s n g (outRows tl rows m q fun i j => accuImage (Accu.empty.add (if ty = 9 then 2 else 1)
      ((elemOf ty).decode (a.accElem f.acc.toNat ty (i * 64 + j)))))
    refine ⟨_, run, pc, acc, fun p hp => readOut_outside hp, fun stride i hi j hj => ?_⟩
    refine (readOut_image stride hi hj width).trans ?_
    rw [Nat.mod_eq_of_lt (accuImage_lt (kind_add_empty kind _)), place i j]
  · intro hcm image code fmt kind old sound
    obtain ⟨agrees, width⟩ := images code fmt
    obtain ⟨g, run⟩ := reads (image := true) (val := fun i j => accuImage ((accuOpen (old i j)).add kind
      ((elemOf ty).decode (a.accElem f.acc.toNat ty (i * 64 + j))))) (by simpa using image) (.inr ⟨rfl, hcm⟩) agrees (by omega)
      fun i hi j hj => by
        obtain ⟨whole, kin⟩ := sound i hi j hj
        rw [rdOut, if_pos rfl, hcm, memBytes_endFence]
        exact rdImage_added whole kin _
    obtain ⟨pc, acc⟩ := readOut_frame s n g (outRows tl rows m q fun i j => accuImage ((accuOpen (old i j)).add kind
      ((elemOf ty).decode (a.accElem f.acc.toNat ty (i * 64 + j)))))
    refine ⟨_, run, pc, acc, fun p hp => readOut_outside hp, fun stride i hi j hj => ?_⟩
    refine (readOut_image stride hi hj width).trans ?_
    rw [place i j]

theorem matrixEmptyTiles : Claims.MatrixEmptyTiles := by
  intro s n f hi hres unflipped a ta tb ty good
  refine ⟨fun hri hcm none_ goodB base stride baseB strideB pair ⟨M, N, K, shape⟩ => ?_, fun htb hsk none_ => ?_⟩
  · have empty : (ta.empty || tb.empty) = true := by simpa using none_
    have free : ∀ r ∈ (s.cell n).arch.mmaRanges f, s.moveOverlaps n r.1 r.2 = false := by
      intro r hr
      unfold Arch.mmaRanges at hr
      rw [if_pos empty] at hr
      exact absurd hr List.not_mem_nil
    have run := exec_mma (k := ((s.cell n).arch.sreg f.sk.toNat).toNat) hi hri hres hcm unflipped free rfl rfl rfl rfl rfl
      (mmaCheck_none good goodB base stride baseB strideB pair shape (.inl empty))
    rw [show ((tileOf ((s.cell n).arch.treg f.ta.toNat)).empty || (tileOf ((s.cell n).arch.treg f.tb.toNat)).empty) = true from empty,
      if_pos rfl] at run
    exact ⟨_, run, cell_mmaDone .., mem_endFence ..⟩
  · have range : (s.cell n).arch.tileRange f.ta = (ta.base, 0) := by
      rw [Arch.tileRange, show (tileOf ((s.cell n).arch.treg f.ta.toNat)).empty = true from none_]
      rfl
    have free : s.moveOverlaps n ((s.cell n).arch.tileRange f.ta).1 ((s.cell n).arch.tileRange f.ta).2 = false := by
      rw [range]
      rfl
    have stage : s.stageOk ((s.cell n).arch.tileRange f.ta).1 ((s.cell n).arch.tileRange f.ta).2 = true := by
      rw [range]
      rfl
    have going {image : Bool} (mode : (a.amode != 0) = image) (code : f.cm = 0 ∨ (image = true ∧ f.cm = 1))
        (agrees : (if image then ta.fmt == 16 && (ty == 8 || ty == 9) else rdNormal ty ta.fmt) = true) :
        exec (.accRd n ⟨f, .none⟩) s = .next (s.withArch n true a.advance) := by
      refine (exec_accRd_issues hi htb hsk hres unflipped rfl free good stage mode code agrees).trans ?_
      rw [show (tileOf ((s.cell n).arch.treg f.ta.toNat)).empty = true from none_, if_pos rfl, State.advancePc, State.endFence_arch]
      rfl
    refine ⟨fun hri hcm code fmt => exec_accLd_empty hi htb hsk hres unflipped rfl free good hri hcm code fmt none_,
      fun hcm normal agrees => going (image := false) (by simpa using normal) (.inl hcm) agrees,
      fun hcm images code fmt => going (image := true) (by simpa using images) ?_ (by simpa [fmt] using code)⟩
    rcases Nat.le_one_iff_eq_zero_or_eq_one.mp hcm with h | h
    · exact .inl (BitVec.eq_of_toNat_eq h)
    · exact .inr ⟨rfl, BitVec.eq_of_toNat_eq h⟩

/-- Settles O20. -/
theorem matrixInstructions : Obligations.MatrixInstructions := ⟨matrixMultiply, matrixEmptyTiles, accumulatorTransfers⟩

end Sys2Proof.Machine

/-!
PROOFS. The canonical form of memory (R51): what keeping it means for the results of the model's functions, and the operations that
touch the two stores of bytes.
-/

namespace Sys2Proof.Machine

/-- Memory is in its canonical form. -/
def State.Canon (s : State) : Prop := Memory.wf s = true

/-- The state an outcome goes on with, if any, is in canonical form. -/
def CanonNext : Host.Outcome State Fault Refusal → Prop
  | .next t => t.Canon
  | _ => True

/-- The state an instruction is done with is in canonical form. -/
def CanonDone : Eff → Prop
  | .done t => t.Canon
  | .fault _ => True

/-- The state of a pair is in canonical form. -/
def CanonFst {α : Type} (x : State × α) : Prop := x.1.Canon

/-- The state of a pair is in canonical form. -/
def CanonSnd {α : Type} (x : α × State) : Prop := x.2.Canon

/-- The state that comes with a value, where there is one, is in canonical form. -/
def CanonSome {α : Type} : Option (α × State) → Prop
  | some x => x.2.Canon
  | none => True

namespace State.Canon
variable {s t : State}

/-- A state with the same two stores. -/
theorem keep (h : s.Canon) (hm : t.mem = s.mem) (he : t.ext = s.ext) : t.Canon := Memory.wf_congr hm he h

/-- A state that has lost what the local map held. -/
theorem drop (h : s.Canon) (hm : t.mem = []) (he : t.ext = s.ext) : t.Canon :=
  (Memory.wf_iff t).2 ⟨by rw [hm]; rfl, by rw [he]; exact ((Memory.wf_iff s).1 h).2⟩

theorem ite {c : Prop} [Decidable c] (hs : s.Canon) (ht : t.Canon) : (if c then s else t).Canon := by split <;> assumption

theorem pokeMem {a : Nat} {bs : List Byte} (h : s.Canon) : (s.pokeMem a bs).Canon :=
  (Memory.wf_iff _).2 ⟨putBytes_wf _ _ _ _ ((Memory.wf_iff s).1 h).1, ((Memory.wf_iff s).1 h).2⟩

theorem pokeExt {a : Nat} {bs : List Byte} (h : s.Canon) : (s.pokeExt a bs).Canon :=
  (Memory.wf_iff _).2 ⟨((Memory.wf_iff s).1 h).1, putBytes_wf _ _ _ _ ((Memory.wf_iff s).1 h).2⟩

theorem zeroRange {lo hi : Nat} (h : s.Canon) : (s.zeroRange lo hi).Canon :=
  (Memory.wf_iff _).2 ⟨Tab.wf_filter _ _ _ ((Memory.wf_iff s).1 h).1, ((Memory.wf_iff s).1 h).2⟩

theorem foldS {α : Type} {f : State → α → State} {l : List α} (hf : ∀ s a, s.Canon → (f s a).Canon) (h : s.Canon) :
    (Machine.foldS f s l).Canon := by
  induction l generalizing s with
  | nil => exact h
  | cons a l ih => exact ih (hf s a h)

theorem foldl {α : Type} {f : State → α → State} {l : List α} (hf : ∀ s a, s.Canon → (f s a).Canon) (h : s.Canon) :
    (l.foldl f s).Canon := by
  induction l generalizing s with
  | nil => exact h
  | cons a l ih => exact ih (hf s a h)

/-- What is known of a pair's state, by the name that a match gives it. -/
theorem of_fst {α : Type} {x : State × α} {t : State} {a : α} (e : x = (t, a)) (h : CanonFst x) : t.Canon := by
  subst e; exact h

theorem of_snd {α : Type} {x : α × State} {t : State} {a : α} (e : x = (a, t)) (h : CanonSnd x) : t.Canon := by
  subst e; exact h

theorem of_some {α : Type} {x : Option (α × State)} {t : State} {a : α} (e : x = some (a, t)) (h : CanonSome x) : t.Canon := by
  subst e; exact h

theorem of_next {x : Host.Outcome State Fault Refusal} {t : State} (e : x = .next t) (h : CanonNext x) : t.Canon := by
  subst e; exact h

theorem of_done {x : Eff} {t : State} (e : x = .done t) (h : CanonDone x) : t.Canon := by
  subst e; exact h

end State.Canon

/-- The canonical form is kept along every change that a steady relation allows. -/
theorem canon_steady : Steady fun s t => s.Canon → t.Canon where
  after h g c := h (g c)
  rest same h := h.keep (congrArg (·.1) same) (congrArg (·.2.1) same)
  mem _ _ _ h := h.pokeMem
  ext _ _ _ h := h.pokeExt
  cell _ _ _ _ h := h.keep rfl rfl
  cmd _ _ h := h.keep rfl rfl
  epoch _ _ _ _ h := h.keep rfl rfl
  frg _ _ _ _ _ h := h.keep rfl rfl

namespace CanonNext
variable {o p : Host.Outcome State Fault Refusal}

theorem next {t : State} (h : t.Canon) : CanonNext (.next t) := h

theorem refused {r : Refusal} : CanonNext (.refused r) := trivial

theorem fault {f : Fault} : CanonNext (.fault f) := trivial

theorem ite {c : Prop} [Decidable c] (ho : CanonNext o) (hp : CanonNext p) : CanonNext (if c then o else p) := by split <;> assumption

theorem withItem {α : Type} {x : Option α} {k : α → Host.Outcome State Fault Refusal} (hk : ∀ a, CanonNext (k a)) :
    CanonNext (Machine.withItem x k) := by
  cases x with
  | none => exact refused
  | some a => exact hk a

end CanonNext

namespace CanonDone

theorem done {t : State} (h : t.Canon) : CanonDone (.done t) := h

theorem fault {k : Nat} : CanonDone (.fault k) := trivial

theorem ite {c : Prop} [Decidable c] {x y : Eff} (hx : CanonDone x) (hy : CanonDone y) : CanonDone (if c then x else y) := by
  split <;> assumption

end CanonDone

namespace CanonFst
variable {α : Type}

theorem mk {t : State} {a : α} (h : t.Canon) : CanonFst (t, a) := h

theorem ite {c : Prop} [Decidable c] {x y : State × α} (hx : CanonFst x) (hy : CanonFst y) : CanonFst (if c then x else y) := by
  split <;> assumption

end CanonFst

namespace CanonSnd
variable {α : Type}

theorem mk {t : State} {a : α} (h : t.Canon) : CanonSnd (a, t) := h

theorem ite {c : Prop} [Decidable c] {x y : α × State} (hx : CanonSnd x) (hy : CanonSnd y) : CanonSnd (if c then x else y) := by
  split <;> assumption

end CanonSnd

namespace CanonSome
variable {α : Type}

theorem some {t : State} {a : α} (h : t.Canon) : CanonSome (some (a, t)) := h

theorem none : CanonSome (none : Option (α × State)) := trivial

theorem ite {c : Prop} [Decidable c] {x y : Option (α × State)} (hx : CanonSome x) (hy : CanonSome y) :
    CanonSome (if c then x else y) := by
  split <;> assumption

end CanonSome

end Sys2Proof.Machine

/-!
PROOFS. The operations on the state keep memory in its canonical form, in the order of the model: first part.
The lemma about an operation has its name; a proof names the states between and follows the branches of the definition.
-/

namespace Sys2Proof.Machine

/-! ### Regs -/

namespace State.Canon
variable {s : State}

theorem setBarF {key lsb width v : ℕ} (h : s.Canon) : (s.setBarF key lsb width v).Canon := h.keep rfl rfl

/-! ### Ops -/

theorem setCell {n : ℕ} {c : Cell} (h : s.Canon) : (s.setCell n c).Canon := h.keep rfl rfl
theorem setRemap {n : ℕ} {r : Remap} (h : s.Canon) : (s.setRemap n r).Canon := canon_steady.setRemap _ _ _ h
theorem setPhys {c : ℕ} {p : Phys} (h : s.Canon) : (s.setPhys c p).Canon := canon_steady.setPhys _ _ _ h
theorem setFrg {d : ℕ} {f : Frg} (h : s.Canon) : (s.setFrg d f).Canon := h.keep rfl rfl
theorem setDev {d : ℕ} {x : Dev} (h : s.Canon) : (s.setDev d x).Canon := h.keep rfl rfl
theorem setPort {p : ℕ} {x : Port} (h : s.Canon) : (s.setPort p x).Canon := h.keep rfl rfl
theorem setEpoch {p : ℕ} {e : Epoch} (h : s.Canon) : (s.setEpoch p e).Canon := h.keep rfl rfl
theorem setRing {p i : ℕ} {r : Ring} (h : s.Canon) : (s.setRing p i r).Canon := h.keep rfl rfl
theorem setRep {p : ℕ} {r : RepRing} (h : s.Canon) : (s.setRep p r).Canon := canon_steady.setRep _ _ _ h
theorem setDrip {k : ℕ} {d : Drip} (h : s.Canon) : (s.setDrip k d).Canon := canon_steady.setDrip _ _ _ h
theorem setCommit {f : ℕ} {c : Commit} (h : s.Canon) : (s.setCommit f c).Canon := h.keep rfl rfl

theorem endTests {hit : ℕ → ℕ → Bool} (h : s.Canon) : (s.endTests hit).Canon := by
  unfold State.endTests
  split
  · refine .ite ?_ h
    extract_lets _ s1
    have hs1 : s1.Canon := h.keep rfl rfl
    exact .ite (.setFrg hs1) hs1
  · exact h

theorem bump {n k : ℕ} (h : s.Canon) : (s.bump n k).Canon := canon_steady.bump _ _ _ h
theorem bumpCell {c i k : ℕ} (h : s.Canon) : (s.bumpCell c i k).Canon := .setPhys h
theorem bumpFrg {d i k : ℕ} (h : s.Canon) : (s.bumpFrg d i k).Canon := .setFrg h
theorem bumpPart {p code k : ℕ} (h : s.Canon) : (s.bumpPart p code k).Canon := h.keep rfl rfl
theorem bumpComb {c code k : ℕ} (h : s.Canon) : (s.bumpComb c code k).Canon := .bumpPart h

end State.Canon

namespace CanonSnd

theorem fresh {s : State} (h : s.Canon) : CanonSnd s.fresh := .mk (h.keep rfl rfl)

end CanonSnd

namespace State.Canon
variable {s : State}

theorem wake {p : ℕ} (h : s.Canon) : (s.wake p).Canon := .ite h (h.keep rfl rfl)
theorem spoilRecord {why : ℕ} (h : s.Canon) : (s.spoilRecord why).Canon := .ite (h.keep rfl rfl) h

/-! ### Mem -/

theorem flipStamp {d p : ℕ} {m : Word} (h : s.Canon) : (s.flipStamp d p m).Canon := .setDev h
theorem writeStamps {d : ℕ} (h : s.Canon) : (s.writeStamps d).Canon := .setDev h
theorem pushFar {r : FarReq} (h : s.Canon) : (s.pushFar r).Canon := h.keep rfl rfl

theorem farWrite {owner : Owner} {eng p off key : ℕ} {bs : List Byte} (h : s.Canon) : (s.farWrite owner eng p off key bs).Canon :=
  canon_steady.farWrite _ _ _ _ _ _ _ h

theorem farRead {owner : Owner} {eng p off key len dest : ℕ} (h : s.Canon) : (s.farRead owner eng p off key len dest).Canon :=
  .foldS (fun _ _ h1 => .pushFar h1) h

theorem linWrite {owner : Owner} {p off : ℕ} {bs : List Byte} (h : s.Canon) : (s.linWrite owner p off bs).Canon :=
  canon_steady.linWrite _ _ _ _ _ h

theorem freshen {o len : ℕ} (h : s.Canon) : (s.freshen o len).Canon := canon_steady.freshen _ _ _ h
theorem linCopy {p unit o : ℕ} (h : s.Canon) : (s.linCopy p unit o).Canon := canon_steady.linCopy _ _ _ _ h
theorem savePoke {n k : ℕ} {bs : List Byte} (h : s.Canon) : (s.savePoke n k bs).Canon := canon_steady.savePoke _ _ _ _ h

theorem saveWrite {owner : Owner} {eng n k : ℕ} {bs : List Byte} (h : s.Canon) : (s.saveWrite owner eng n k bs).Canon :=
  canon_steady.saveWrite _ _ _ _ _ _ h

theorem stageClose {o : ℕ} (h : s.Canon) : (s.stageClose o).Canon := canon_steady.stageClose _ _ h
theorem markClose {o : ℕ} (h : s.Canon) : (s.markClose o).Canon := canon_steady.markClose _ _ h
theorem stageCell {o : ℕ} (h : s.Canon) : (s.stageCell o).Canon := canon_steady.stageCell _ _ h
theorem markCell {o : ℕ} (h : s.Canon) : (s.markCell o).Canon := canon_steady.markCell _ _ h
theorem writeGranule {o : ℕ} {bs : List Byte} (h : s.Canon) : (s.writeGranule o bs).Canon := canon_steady.writeGranule _ _ _ h

theorem writeAway {owner : Owner} {o : ℕ} {bs : List Byte} (h : s.Canon) : (s.writeAway owner o bs).Canon :=
  canon_steady.writeAway _ _ _ _ h

theorem writeFor {owner : Owner} {o : ℕ} {bs : List Byte} (h : s.Canon) : (s.writeFor owner o bs).Canon := canon_steady.writeFor _ _ _ _ h
theorem writeLocal {o : ℕ} {bs : List Byte} (h : s.Canon) : (s.writeLocal o bs).Canon := .writeFor h
theorem pushBi {line : ℕ} {w : BiWhat} (h : s.Canon) : (s.pushBi line w).Canon := canon_steady.pushBi _ _ _ h
theorem invalidate {l : List ℕ} (h : s.Canon) : (s.invalidate l).Canon := .foldS (fun _ _ h1 => .pushBi h1) h

theorem engineWrite {owner : Owner} {eng o : ℕ} {bs : List Byte} (h : s.Canon) : (s.engineWrite owner eng o bs).Canon :=
  canon_steady.engineWrite _ _ _ _ _ h

/-! ### Packets -/

theorem originate {owner : Owner} {eng : ℕ} {p : Packet} (h : s.Canon) : (s.originate owner eng p).Canon := h.keep rfl rfl

theorem respond {q : Packet} {type arg0 arg1 : ℕ} {payload : Bool} {data : List Byte} (h : s.Canon) :
    (s.respond q type arg0 arg1 payload data).Canon :=
  h.keep rfl rfl

theorem ackPkt {q : Packet} (h : s.Canon) : (s.ackPkt q).Canon := .ite (h.keep rfl rfl) (.respond h)
theorem refusePkt {q : Packet} {reason : ℕ} (h : s.Canon) : (s.refusePkt q reason).Canon := .respond h
theorem countIssued {eng : ℕ} (h : s.Canon) : (s.countIssued eng).Canon := h.keep rfl rfl
theorem countAcked {eng : ℕ} (h : s.Canon) : (s.countAcked eng).Canon := h.keep rfl rfl

theorem remWrite {owner : Owner} {eng m off : ℕ} {bs : List Byte} (h : s.Canon) : (s.remWrite owner eng m off bs).Canon :=
  canon_steady.remWrite _ _ _ _ _ _ h

theorem remRead {owner : Owner} {eng m off len dest : ℕ} (h : s.Canon) : (s.remRead owner eng m off len dest).Canon := by
  unfold State.remRead
  refine .foldS (fun _ _ h1 => ?_) h
  extract_lets _ s2
  have hs2 : s2.Canon := .originate h1
  exact hs2.keep rfl rfl

theorem swarmSend {m subtype arg1 : ℕ} {data : List Byte} (h : s.Canon) : (s.swarmSend m subtype arg1 data).Canon := .originate h
theorem requestBoundary {p : ℕ} {urgent : Bool} (h : s.Canon) : (s.requestBoundary p urgent).Canon := canon_steady.requestBoundary _ _ _ h

/-! ### Report -/

theorem trace {type p src a b c : ℕ} (h : s.Canon) : (s.trace type p src a b c).Canon := canon_steady.trace _ _ _ _ _ _ _ h

theorem appendEffect {p kind obj rseq ref : ℕ} {value : Word} (h : s.Canon) : (s.appendEffect p kind obj rseq ref value).Canon :=
  canon_steady.appendEffect _ _ _ _ _ _ _ h

theorem ringWrite {owner : Owner} {p a : ℕ} {bs : List Byte} (h : s.Canon) : (s.ringWrite owner p a bs).Canon :=
  canon_steady.ringWrite _ _ _ _ _ h

theorem writeReport {p : ℕ} {r : Report} (h : s.Canon) : (s.writeReport p r).Canon := canon_steady.writeReport _ _ _ h
theorem flushReports {p : ℕ} (h : s.Canon) : (s.flushReports p).Canon := .foldl (fun _ _ h1 => .ite (.setRep (.writeReport h1)) h1) h

theorem report {p type reason subject body : ℕ} (h : s.Canon) : (s.report p type reason subject body).Canon :=
  canon_steady.report _ _ _ _ _ _ h

theorem reportAll {type reason subject body : ℕ} (h : s.Canon) : (s.reportAll type reason subject body).Canon :=
  .foldS (fun _ _ h1 => .report h1) h

/-! ### Net -/

theorem mEvent {code detail : ℕ} (h : s.Canon) : (s.mEvent code detail).Canon := h.keep rfl rfl
theorem countReport {m type reason : ℕ} (h : s.Canon) : (s.countReport m type reason).Canon := h.keep rfl rfl
theorem relayReport {type body : ℕ} (h : s.Canon) : (s.relayReport type body).Canon := canon_steady.relayReport _ _ _ h
theorem faultNotice {p reason : ℕ} (h : s.Canon) : (s.faultNotice p reason).Canon := canon_steady.faultNotice _ _ _ h

theorem escalate {p reason subject detail : ℕ} (h : s.Canon) : (s.escalate p reason subject detail).Canon :=
  canon_steady.escalate _ _ _ _ _ h

theorem escalateAll {reason subject detail : ℕ} (h : s.Canon) : (s.escalateAll reason subject detail).Canon :=
  .relayReport (.foldS (fun _ _ h1 => .bump (.report h1)) h)

theorem retire {p unit state number old new : ℕ} (h : s.Canon) : (s.retire p unit state number old new).Canon :=
  canon_steady.retire _ _ _ _ _ _ _ h

theorem setPortState {p st : ℕ} (h : s.Canon) : (s.setPortState p st).Canon := .trace (.retire (.setPort h))

theorem restPort {p : ℕ} (h : s.Canon) : (s.restPort p).Canon := by
  unfold State.restPort
  extract_lets _ _ s1
  have hs1 : s1.Canon := .setPort h
  exact .ite hs1 (.setPortState hs1)

theorem deliver {owner : Owner} {eng p : ℕ} {h : Home} {bs : List Byte} (hs : s.Canon) : (s.deliver owner eng p h bs).Canon :=
  canon_steady.deliver _ _ _ _ _ _ hs

theorem arriveAt {owner : Owner} {eng p dest : ℕ} {bs : List Byte} (h : s.Canon) : (s.arriveAt owner eng p dest bs).Canon := by
  unfold State.arriveAt
  split
  · exact h.keep rfl rfl
  · split
    · exact .deliver h
    · exact h

theorem pour {o : Owner} (h : s.Canon) : (s.pour o).Canon := by
  unfold State.pour
  extract_lets _ _ s1
  have hs1 : s1.Canon := h.keep rfl rfl
  refine .foldS (fun _ _ h1 => ?_) hs1
  split
  · exact .foldS (fun _ _ h2 => .arriveAt h2) h1
  · exact h1

theorem gatherAt {owner : Owner} {eng p dest : ℕ} {bs : List Byte} (h : s.Canon) : (s.gatherAt owner eng p dest bs).Canon :=
  h.keep rfl rfl

theorem comeTo {owner : Owner} {eng p dest : ℕ} {bs : List Byte} (h : s.Canon) : (s.comeTo owner eng p dest bs).Canon := by
  unfold State.comeTo
  split
  · exact .arriveAt h
  · exact .pour (.gatherAt h)

theorem dropGathered {o : Owner} (h : s.Canon) : (s.dropGathered o).Canon := h.keep rfl rfl

theorem readLocal {owner : Owner} {eng p o len dest : ℕ} {k : State → ℕ → List Byte → State}
    (h : s.Canon) (hk : ∀ (t : State) x y, t.Canon → (k t x y).Canon) : (s.readLocal owner eng p o len dest k).Canon :=
  .ite (.foldS (fun _ _ h1 => .ite (.pushBi h1) (hk _ _ _ h1)) h) (hk _ _ _ h)

end State.Canon

namespace CanonFst

theorem take {s : State} {src : Home} {len : ℕ} (h : s.Canon) : CanonFst (s.take src len) := by
  unfold State.take
  split
  · exact .mk h
  · exact .mk (.bump h)
  · exact .mk h

end CanonFst

namespace State.Canon
variable {s : State}

theorem readFor {owner : Owner} {eng p : ℕ} {src : Home} {dest len : ℕ} (h : s.Canon) : (s.readFor owner eng p src dest len).Canon := by
  unfold State.readFor
  split
  · extract_lets
    refine .ite (.foldS (fun _ _ h1 => ?_) h) (.readLocal h (fun _ _ _ h1 => .gatherAt h1))
    split
    · exact .farRead h1
    · exact .gatherAt h1
  · exact .ite (.gatherAt (.bump h)) (.farRead h)
  · exact .farRead h
  · exact .remRead h

theorem transfer {owner : Owner} {eng p : ℕ} {src dst : Home} {dest span : ℕ} {runs : List (ℕ × ℕ × ℕ)} (h : s.Canon) :
    (s.transfer owner eng p src dst dest span runs).Canon := by
  unfold State.transfer
  extract_lets s1
  have hs1 : s1.Canon := .dropGathered h
  refine .ite (.foldS (fun _ _ h1 => ?_) hs1) (.pour (.foldS (fun _ _ h1 => .readFor h1) hs1))
  split
  next t1 bs1 found =>
    have ht1 : t1.Canon := .of_fst found (.take h1)
    exact .deliver ht1

theorem fetchFrom {id eng p : ℕ} {src : Home} {at_ len : ℕ} (h : s.Canon) : (s.fetchFrom id eng p src at_ len).Canon := by
  unfold State.fetchFrom
  split
  · exact .readLocal h (fun _ _ _ h1 => .arriveAt h1)
  · exact .ite (.arriveAt (.bump h)) (.farRead h)
  · exact .farRead h
  · exact .remRead h

/-! ### Issue -/

theorem setCmd {c : Cmd} (h : s.Canon) : (s.setCmd c).Canon := h.keep rfl rfl
theorem quenchCell {n : ℕ} (h : s.Canon) : (s.quenchCell n).Canon := canon_steady.quenchCell _ _ h

theorem noteFault {n cause : ℕ} {pc : BitVec 14} (h : s.Canon) : (s.noteFault n cause pc).Canon := by
  unfold State.noteFault
  split
  · exact h
  · split
    · exact h
    · exact .setCmd h

theorem programFaultAt {n cause : ℕ} {pc : BitVec 14} (h : s.Canon) : (s.programFaultAt n cause pc).Canon := by
  unfold State.programFaultAt
  extract_lets _ _ _ _ s1 s2
  have hs1 : s1.Canon := .setCell h
  have hs2 : s2.Canon := hs1.keep rfl rfl
  exact .foldS (fun _ _ h1 => .quenchCell h1) (.noteFault hs2)

theorem programFault {n cause : ℕ} (h : s.Canon) : (s.programFault n cause).Canon := .programFaultAt h
theorem endFence {n : ℕ} {memory : Bool} (h : s.Canon) : (s.endFence n memory).Canon := .ite (.setCell h) h
theorem advancePc {n : ℕ} (h : s.Canon) : (s.advancePc n).Canon := .setCell h

/-! ### Boot -/

theorem lightService {k : Service} (h : s.Canon) : (s.lightService k).Canon := h.keep rfl rfl
theorem endService {k : Service} (h : s.Canon) : (s.endService k).Canon := h.keep rfl rfl
theorem mainOff (h : s.Canon) : s.mainOff.Canon := .drop h rfl rfl

theorem standbyOff (h : s.Canon) : s.standbyOff.Canon := by
  unfold State.standbyOff
  extract_lets t
  have ht : t.Canon := .mainOff h
  exact ht.keep rfl rfl

theorem storeCounts (h : s.Canon) : s.storeCounts.Canon := h.keep rfl rfl

/-! ### Sync -/

theorem issueSig {eng : Engine} {owner : Owner} {p : ℕ} {cmd : Option ℕ} {after : ℕ} {r : SyncRef} {set : Bool} {v : Word} (h : s.Canon) :
    (s.issueSig eng owner p cmd after r set v).Canon := by
  unfold State.issueSig
  split
  · exact h.keep rfl rfl
  · exact .countIssued (.originate h)
  · exact h

theorem resumeCell {n : ℕ} (h : s.Canon) : (s.resumeCell n).Canon := by
  unfold State.resumeCell
  extract_lets
  split
  · exact .setCell h
  · exact h

theorem testWaits {n : ℕ} (h : s.Canon) : (s.testWaits n).Canon := by
  unfold State.testWaits
  extract_lets _ _ s1
  have hs1 : s1.Canon := h.keep rfl rfl
  refine .foldS (fun _ _ h1 => ?_) hs1
  split
  · exact .resumeCell h1
  · exact h1

theorem passEffect {n : ℕ} (h : s.Canon) : (s.passEffect n).Canon := by
  unfold State.passEffect
  extract_lets
  split
  · exact .setEpoch h
  · exact h

theorem updateObj {g : Sig} (h : s.Canon) : (s.updateObj g).Canon := by
  unfold State.updateObj
  extract_lets s1
  have hs1 : s1.Canon := .testWaits (.passEffect (h.keep rfl rfl))
  split
  · exact .ackPkt hs1
  · exact hs1

theorem enterWait {w : WaitEntry} (h : s.Canon) : (s.enterWait w).Canon := .ite h (h.keep rfl rfl)
theorem applySig {g : Sig} (h : s.Canon) : (s.applySig g).Canon := .ite (.pushBi (.appendEffect h)) (.updateObj h)

/-! ### Tiles -/

theorem startMove {n slot : ℕ} {m : TileMove} {hs hd : Home} (h : s.Canon) : (s.startMove n slot m hs hd).Canon :=
  .bumpComb (.transfer (.setCell h))

theorem resumeSlot {n slot : ℕ} (h : s.Canon) : (s.resumeSlot n slot).Canon := by
  unfold State.resumeSlot
  extract_lets
  split
  · exact .ite (.setCell h) h
  · exact h

/-! ### ForageDesc -/

theorem reassign {p : ℕ} (h : s.Canon) : (s.reassign p).Canon := by
  unfold State.reassign
  extract_lets _ _ s1
  have hs1 : s1.Canon := .foldS (fun _ _ h1 => .setFrg h1) h
  clear_value s1
  exact .ite h (hs1.keep rfl rfl)

theorem fillQueues (h : s.Canon) : s.fillQueues.Canon := by
  unfold State.fillQueues
  refine .foldl (fun _ _ h1 => .ite ?_ h1) h
  extract_lets s11
  have hs11 : s11.Canon := .foldS (fun _ _ h2 => .setFrg h2) h1
  exact hs11.keep rfl rfl

theorem acceptForage {p : ℕ} {issuer : Issuer} {bs : List Byte} (h : s.Canon) : (s.acceptForage p issuer bs).Canon :=
  .fillQueues (h.keep rfl rfl)

/-! ### CollDesc -/

theorem setTeamSeq {t : ℕ} {x : Team} (h : s.Canon) : (s.setTeamSeq t x).Canon := h.keep rfl rfl

theorem acceptColl {p : ℕ} {issuer : Issuer} {bs : List Byte} (h : s.Canon) : (s.acceptColl p issuer bs).Canon := by
  unfold State.acceptColl
  extract_lets _ _ _ s1
  have hs1 : s1.Canon := h.keep rfl rfl
  split
  · exact .ite hs1 (.enterWait hs1)
  · exact hs1

/-! ### Handover -/

theorem acceptFirst {n : ℕ} (h : s.Canon) : (s.acceptFirst n).Canon := by
  unfold State.acceptFirst
  extract_lets
  split
  · exact h
  · exact .issueSig (.setCell h)
  · extract_lets _ bad s1
    have hs1 : s1.Canon := .setCell h
    refine .ite h ?_
    clear_value bad
    split
    · exact .setCell h
    · exact .ite (.acceptColl hs1) (.acceptForage hs1)

theorem acceptPort {n : ℕ} (h : s.Canon) : (s.acceptPort n).Canon := .foldl (fun _ _ h1 => .ite h1 (.acceptFirst h1)) h
theorem acceptPorts (h : s.Canon) : s.acceptPorts.Canon := .foldS (fun _ _ h1 => .acceptPort h1) h

/-! ### Forager -/

theorem setFdesc {d : FDesc} (h : s.Canon) : (s.setFdesc d).Canon := h.keep rfl rfl
theorem startOn {d : FDesc} (h : s.Canon) : (s.startOn d).Canon := .foldS (fun _ _ h1 => .setFrg (h1.keep rfl rfl)) h
theorem classWrite {x : FDesc} {a : ℕ} {bs : List Byte} (h : s.Canon) : (s.classWrite x a bs).Canon := canon_steady.classWrite _ _ _ _ h
theorem cutShort {x : FDesc} (h : s.Canon) : (s.cutShort x).Canon := canon_steady.cutShort _ _ h

theorem leave {x : FDesc} (h : s.Canon) : (s.leave x).Canon := by
  unfold State.leave
  extract_lets s1
  have hs1 : s1.Canon := .foldS (fun _ _ h1 => .setFrg h1) h
  exact hs1.keep rfl rfl

theorem endForage {x : FDesc} {status : ℕ} (h : s.Canon) : (s.endForage x status).Canon := by
  unfold State.endForage
  split
  · split
    · exact .setCmd h
    · exact h
  · exact h

theorem finishForage {x : FDesc} (h : s.Canon) : (s.finishForage x).Canon :=
  .acceptPorts (.fillQueues (.endForage (.leave (.foldS (fun _ _ h1 => .setFrg h1) (.ite h (.issueSig h))))))

/-! ### Rows -/

theorem spareRow {d row : ℕ} (h : s.Canon) : (s.spareRow d row).Canon := .ite (.retire (.bump (.setDev h))) (.setDev h)
theorem spareHandled {d : ℕ} {lines : List ℕ} (h : s.Canon) : (s.spareHandled d lines).Canon := .foldS (fun _ _ h1 => .spareRow h1) h
theorem endLost {d : ℕ} {p : ℕ → Bool} (h : s.Canon) : (s.endLost d p).Canon := .spareHandled (.setDev h)

/-! ### Package -/

theorem setSeam {frm at_ : ℕ} {l : List SeamPkt} (h : s.Canon) : (s.setSeam frm at_ l).Canon := h.keep rfl rfl
theorem forward {at_ : ℕ} {p : SeamPkt} (h : s.Canon) : (s.forward at_ p).Canon := .ite h (.setSeam h)
theorem applyRises {d : ℕ} (h : s.Canon) : (s.applyRises d).Canon := canon_steady.applyRises _ _ h
theorem zeroSlice {p : ℕ} (h : s.Canon) : (s.zeroSlice p).Canon := .foldS (fun _ _ h1 => .writeStamps (.endLost h1)) (.zeroRange h)

/-! ### SaveArea -/

theorem saveNow {n : ℕ} (h : s.Canon) : (s.saveNow n).Canon := canon_steady.saveNow _ _ h
theorem saveState {owner : Owner} {n : ℕ} (h : s.Canon) : (s.saveState owner n).Canon := canon_steady.saveState _ _ _ h
theorem saveCell {owner : Owner} {n : ℕ} (h : s.Canon) : (s.saveCell owner n).Canon := canon_steady.saveCell _ _ _ h
theorem restoreCell {n : ℕ} (h : s.Canon) : (s.restoreCell n).Canon := .bumpPart (.bump (.setCell (.freshen (.pokeMem h))))

/-! ### Command -/

theorem retune {comb : ℕ} (h : s.Canon) : (s.retune comb).Canon := canon_steady.retune _ _ h
theorem retuneAll (h : s.Canon) : s.retuneAll.Canon := .foldS (fun _ _ h1 => .retune h1) h
theorem quenchForagers {c : Cmd} (h : s.Canon) : (s.quenchForagers c).Canon := canon_steady.quenchForagers _ _ h
theorem quenchColls {c : Cmd} (h : s.Canon) : (s.quenchColls c).Canon := canon_steady.quenchColls _ _ h
theorem quenchCmd {id status : ℕ} (h : s.Canon) : (s.quenchCmd id status).Canon := canon_steady.quenchCmd _ _ _ h

/-! ### Failure -/

theorem abortCmd {id : ℕ} (h : s.Canon) : (s.abortCmd id).Canon := canon_steady.abortCmd _ _ h
theorem wantFor {p f x : ℕ} (h : s.Canon) : (s.wantFor p f x).Canon := canon_steady.wantFor _ _ _ _ h
theorem wantRecovery {p : ℕ} (h : s.Canon) : (s.wantRecovery p).Canon := canon_steady.wantRecovery _ _ h
theorem noLining {p : ℕ} (h : s.Canon) : (s.noLining p).Canon := canon_steady.noLining _ _ h
theorem loseCmd {id : ℕ} (h : s.Canon) : (s.loseCmd id).Canon := canon_steady.loseCmd _ _ h
theorem endLostCmds {p : ℕ} (h : s.Canon) : (s.endLostCmds p).Canon := .foldS (fun _ _ h1 => .abortCmd (.setCmd h1)) h
theorem loseEngine {p unit : ℕ} {ids : List ℕ} (h : s.Canon) : (s.loseEngine p unit ids).Canon := canon_steady.loseEngine _ _ _ _ h
theorem freeBytes {a n : ℕ} (h : s.Canon) : (s.freeBytes a n).Canon := canon_steady.freeBytes _ _ _ h
theorem loseData {p : ℕ} {u : Lost} {ids : List ℕ} (h : s.Canon) : (s.loseData p u ids).Canon := canon_steady.loseData _ _ _ _ h

theorem loseWords {p : ℕ} {ids words : List ℕ} (h : s.Canon) : (s.loseWords p ids words).Canon := by
  unfold State.loseWords
  extract_lets s1
  have hs1 : s1.Canon := .spoilRecord h
  exact .ite (.foldS (fun _ _ h1 => .loseData h1) hs1) (.foldS (fun _ _ h1 => .freshen (.freeBytes h1)) (.noLining (.foldS (fun _ _
      h1 => .abortCmd h1) hs1)))

/-! ### Cells -/

theorem changeRemap {n : ℕ} {r : Remap} (h : s.Canon) : (s.changeRemap n r).Canon := canon_steady.changeRemap _ _ _ h
theorem switchTo {n : ℕ} {b : Bool} (h : s.Canon) : (s.switchTo n b).Canon := canon_steady.switchTo _ _ _ h
theorem unserve {n : ℕ} (h : s.Canon) : (s.unserve n).Canon := canon_steady.unserve _ _ h
theorem makeGuest {n : ℕ} (h : s.Canon) : (s.makeGuest n).Canon := canon_steady.makeGuest _ _ h
theorem displace {n : ℕ} (h : s.Canon) : (s.displace n).Canon := canon_steady.displace _ _ h
theorem regainGuests {p : ℕ} (h : s.Canon) : (s.regainGuests p).Canon := .ite h (.foldS (fun _ _ h1 => .ite (.makeGuest h1) h1) h)
theorem replaceCell {n : ℕ} (h : s.Canon) : (s.replaceCell n).Canon := canon_steady.replaceCell _ _ h
theorem loseCell {n : ℕ} (h : s.Canon) : (s.loseCell n).Canon := canon_steady.loseCell _ _ h
theorem retireCell {phys n : ℕ} (h : s.Canon) : (s.retireCell phys n).Canon := canon_steady.retireCell _ _ _ h

theorem saveFails {n : ℕ} {out : Option FarOutcome} (h : s.Canon) : (s.saveFails n out).Canon := by
  unfold State.saveFails
  extract_lets _ _ s1 s11
  have hs1 : s1.Canon := .escalate h
  have hs11 : s11.Canon := .escalate h
  split
  · exact h
  · split
    · exact .quenchCmd hs1
    · exact hs1
  · exact .loseCell (.bump h)
  · split
    · exact .abortCmd hs11
    · exact hs11

theorem exchange {w : Switch} (h : s.Canon) : (s.exchange w).Canon := by
  unfold State.exchange
  extract_lets s1 s2
  have hs1 : s1.Canon := .bump h
  have hs2 : s2.Canon := hs1.keep rfl rfl
  exact .switchTo (.saveNow (.restoreCell hs2))

/-! ### CloseMemory -/

theorem countCorrected {d line : ℕ} (h : s.Canon) : (s.countCorrected d line).Canon := by
  unfold State.countCorrected
  extract_lets _ _ _ _ s1 s2
  have hs1 : s1.Canon := .setDev h
  have hs2 : s2.Canon := .bumpPart (.bumpFrg (.bump hs1))
  exact .ite (.spareRow hs2) hs2

theorem countLost {d line : ℕ} (h : s.Canon) : (s.countLost d line).Canon := .spoilRecord (.bump (.setDev h))

theorem loseLine {d l : ℕ} {ids : List ℕ} (h : s.Canon) : (s.loseLine d l ids).Canon := by
  unfold State.loseLine
  extract_lets s1
  have hs1 : s1.Canon := .countLost h
  split
  · exact hs1
  · exact .ite (.loseData (.setDev hs1)) (.freeBytes (.noLining (.foldS (fun _ _ h1 => .abortCmd h1) hs1)))

theorem retireDevice {d : ℕ} (h : s.Canon) : (s.retireDevice d).Canon := by
  unfold State.retireDevice
  extract_lets _ _ s1
  have hs1 : s1.Canon := .spoilRecord (.retire (.setDev h))
  exact .ite (.loseData (.fillQueues (.reassign (hs1.keep rfl rfl)))) (.faultNotice (.escalate (.fillQueues (.reassign hs1))))

/-! ### Commands -/

theorem undrip {c : Cmd} (h : s.Canon) : (s.undrip c).Canon := .setDrip h

theorem passHead {c : Cmd} (h : s.Canon) : (s.passHead c).Canon := by
  unfold State.passHead
  extract_lets
  split
  exact .setRing h

theorem refuseCmd {c : Cmd} {status detail : ℕ} (h : s.Canon) : (s.refuseCmd c status detail).Canon := .passHead (.setCmd (.undrip h))

theorem begin {c : Cmd} (h : s.Canon) : (s.begin c).Canon := by
  unfold State.begin
  extract_lets _ _ s1 s2
  have hs1 : s1.Canon := .setCmd (.undrip h)
  have hs2 : s2.Canon := .ite (.foldS (fun _ _ h1 => .setCell h1) hs1) hs1
  exact .passHead (.trace hs2)

theorem enterWaits {c : Cmd} (h : s.Canon) : (s.enterWaits c).Canon := .foldS (fun _ _ h1 => .enterWait h1) h

theorem fetchAt {c : Cmd} {eng a len at_ : ℕ} (h : s.Canon) : (s.fetchAt c eng a len at_).Canon := by
  unfold State.fetchAt
  split
  · exact .fetchFrom h
  · exact .quenchCmd h
  · exact .quenchCmd h

theorem passEnded {c : Cmd} (h : s.Canon) : (s.passEnded c).Canon := .ite (.passHead h) h

theorem startCell {c : Cmd} {img : Tab Word} {len rank ncells n : ℕ} (h : s.Canon) : (s.startCell c img len rank ncells n).Canon :=
    by
  unfold State.startCell
  extract_lets _ _ put
  have hput : ∀ (t : State), t.Canon → (put t).Canon := fun _ h1 => .ite (.saveState h1) h1
  exact hput _ (.setCell h)

theorem writeCrec {c : Cmd} (h : s.Canon) : (s.writeCrec c).Canon := by
  unfold State.writeCrec
  refine .ite ?_ (.setCmd h)
  extract_lets _ _ _ s1
  have hs1 : s1.Canon := h.keep rfl rfl
  split
  · exact .setCmd (.deliver hs1)
  · exact .setCmd hs1

theorem setCounted {id n : ℕ} (h : s.Canon) : (s.setCounted id n).Canon := h.keep rfl rfl

theorem freeCmd {c : Cmd} (h : s.Canon) : (s.freeCmd c).Canon := by
  unfold State.freeCmd
  extract_lets s1 x s2 _ s3
  have hs1 : s1.Canon := .foldS (fun _ _ h1 => .ite (.setCell h1) h1) h
  have hx : x.Canon := .setCounted hs1
  have hs2 : s2.Canon := hx.keep rfl rfl
  have hs3 : s3.Canon := .ite (.setRing hs2) hs2
  exact .ite hs3 (.retuneAll hs3)

theorem issueSignals {c : Cmd} (h : s.Canon) : (s.issueSignals c).Canon := .foldS (fun _ _ h1 => .issueSig h1) h
theorem finishCmd {c : Cmd} (h : s.Canon) : (s.finishCmd c).Canon := .freeCmd (.trace (.bump (.bump (.ite h (.ringWrite h)))))
theorem watchdogs (h : s.Canon) : s.watchdogs.Canon := .foldS (fun _ _ h1 => .setCounted h1) h

/-! ### HostLink -/

theorem snoopAdd {fn line : ℕ} (h : s.Canon) : (s.snoopAdd fn line).Canon := .ite h (h.keep rfl rfl)

theorem answerRead {fn off : ℕ} {peer : Bool} (h : s.Canon) : (s.answerRead fn off peer).Canon := by
  unfold State.answerRead
  extract_lets h0 s1
  have hs1 : s1.Canon := by
    unfold s1
    clear_value h0
    split
    · exact .bump h
    · exact .ite h (.snoopAdd h)
  exact hs1.keep rfl rfl

theorem hostRead {fn off : ℕ} (h : s.Canon) : (s.hostRead fn off).Canon := by
  unfold State.hostRead
  extract_lets
  refine .ite ?_ (.answerRead h)
  split
  · exact .pushBi h
  · exact .answerRead h

theorem hostWrite {fn off : ℕ} {data : List Byte} (h : s.Canon) : (s.hostWrite fn off data).Canon := by
  unfold State.hostWrite
  split
  · exact .ite (.bump h) (.writeLocal h)
  · exact .bump h

theorem serveHeld {a : ℕ × ℕ × Option (List Byte)} (h : s.Canon) : (s.serveHeld a).Canon := by
  unfold State.serveHeld
  split
  · exact .hostRead h
  · split
    · exact .ite (.hostWrite h) (.pushBi h)
    · exact .hostWrite h

theorem serveWaiting {fn : ℕ} (h : s.Canon) : (s.serveWaiting fn).Canon :=
  .ite h (.foldS (fun _ _ h1 => .serveHeld h1) (h.keep rfl rfl))

theorem holdHost {fn off : ℕ} {data : Option (List Byte)} (h : s.Canon) : (s.holdHost fn off data).Canon := .wake (h.keep rfl rfl)

theorem afterBi {b : Bi} (h : s.Canon) : (s.afterBi b).Canon := by
  unfold State.afterBi
  split
  · exact .hostRead h
  · exact .updateObj h
  · exact .writeFor h
  · exact .comeTo h
  · exact h

theorem hostReturns {line : ℕ} {data : Option (List Byte)} (h : s.Canon) : (s.hostReturns line data).Canon := by
  unfold State.hostReturns
  split
  · exact .ite (.writeLocal h) (.bump h)
  · exact h

/-! ### Power -/

theorem powerReport {type reason before after : ℕ} (h : s.Canon) : (s.powerReport type reason before after).Canon := .reportAll h
theorem traceCap {before : ℕ} (h : s.Canon) : (s.traceCap before).Canon := .ite h (.trace h)
theorem brakeControls (h : s.Canon) : s.brakeControls.Canon := .retuneAll (h.keep rfl rfl)
theorem brakeActions (h : s.Canon) : s.brakeActions.Canon := .brakeControls (h.keep rfl rfl)

theorem fastCutCheck {before : ℕ} (h : s.Canon) : (s.fastCutCheck before).Canon :=
  .ite (.traceCap (.powerReport (.brakeActions (h.keep rfl rfl)))) h

theorem setCap {f : State → State} (h : s.Canon) (hf : ∀ (t : State), t.Canon → (f t).Canon) : (s.setCap f).Canon := by
  unfold State.setCap
  extract_lets _ s1 _ s2
  have hs1 : s1.Canon := hf _ h
  have hs2 : s2.Canon := .ite (.powerReport hs1) (.ite (.powerReport hs1) hs1)
  exact .fastCutCheck (.traceCap hs2)

theorem protectAmid {type reason : ℕ} {f amid : State → State}
    (h : s.Canon) (hf : ∀ (t : State), t.Canon → (f t).Canon) (hamid : ∀ (t : State), t.Canon → (amid t).Canon) :
    (s.protectAmid type reason f amid).Canon := by
  unfold State.protectAmid
  extract_lets _ s1
  have hs1 : s1.Canon := hf _ h
  exact .ite (.powerReport (hamid _ (.fastCutCheck (.traceCap hs1)))) (.fastCutCheck (.traceCap (.powerReport (hamid _ hs1))))

theorem protect {type reason : ℕ} {f : State → State} (h : s.Canon) (hf : ∀ (t : State), t.Canon → (f t).Canon) :
    (s.protect type reason f).Canon :=
  .protectAmid h (fun _ h1 => hf _ h1) (fun _ h1 => h1)

theorem endFast (h : s.Canon) : s.endFast.Canon := by
  unfold State.endFast
  extract_lets f
  have hf : ∀ (s : State), s.Canon → (f s).Canon := fun _ h1 => h1.keep rfl rfl
  exact .ite (hf _ h) (.protect h (fun _ h1 => hf _ h1))

theorem endBrake (h : s.Canon) : s.endBrake.Canon := .protect h (fun _ h1 => h1.keep rfl rfl)
theorem abortWaiting {p : ℕ} (h : s.Canon) : (s.abortWaiting p).Canon := .foldS (fun _ _ h1 => .passHead (.quenchCmd h1)) h
theorem reportOff (h : s.Canon) : s.reportOff.Canon := .ite h (.powerReport h)
theorem drain {kind : ℕ} (h : s.Canon) : (s.drain kind).Canon := .foldS (fun _ _ h1 => .abortWaiting h1) (h.keep rfl rfl)
theorem beginOff {kind : ℕ} (h : s.Canon) : (s.beginOff kind).Canon := .drain (.reportOff h)

theorem quenchAll (h : s.Canon) : s.quenchAll.Canon := by
  unfold State.quenchAll
  extract_lets s1
  have hs1 : s1.Canon := .foldS (fun _ _ h1 => .quenchCmd h1) h
  exact hs1.keep rfl rfl

theorem railsOff (h : s.Canon) : s.railsOff.Canon := .drop h rfl rfl
theorem transit (h : s.Canon) : s.transit.Canon := h.keep rfl rfl

end State.Canon

end Sys2Proof.Machine

/-!
PROOFS. The operations on the state keep memory in its canonical form, in the order of the model: second part.
The lemma about an operation has its name; a proof names the states between and follows the branches of the definition.
-/

namespace Sys2Proof.Machine

/-! ### Governor -/

namespace State.Canon
variable {s : State}

theorem lowerRails {l : List (ℕ × ℕ)} (h : s.Canon) : (s.lowerRails l).Canon := h.keep rfl rfl
theorem setDemand {ph : ℕ} {d : Demand} (h : s.Canon) : (s.setDemand ph d).Canon := h.keep rfl rfl
theorem learnComb {share comb : ℕ} (h : s.Canon) : (s.learnComb share comb).Canon := .foldS (fun _ _ h1 => .setDemand h1) h

theorem learn {m : LoopFinds} (h : s.Canon) : (s.learn m).Canon := by
  unfold State.learn
  refine .ite h ?_
  extract_lets s1
  have hs1 : s1.Canon := .foldS (fun _ _ h1 => .ite h1 (.foldS (fun _ _ h2 => .learnComb h2) h1)) h
  exact .ite hs1 (.foldS (fun _ _ h1 => .setDemand h1) hs1)

theorem clearDemand (h : s.Canon) : s.clearDemand.Canon := h.keep rfl rfl

theorem thermLoop {die : ℕ} (h : s.Canon) : (s.thermLoop die).Canon := by
  unfold State.thermLoop
  split
  · exact h
  · extract_lets _ _ put _ s1 x s2
    have hput : ∀ (s : State) (x : ℕ), s.Canon → (put s x).Canon := fun _ _ h1 => h1.keep rfl rfl
    have hs1 : s1.Canon := hput _ _ h
    have hs2 : s2.Canon := hs1.keep rfl rfl
    exact .ite (.ite (.powerReport hs2) hs2) (.ite (hput _ _ h) h)

theorem setControls {d : Give} (h : s.Canon) : (s.setControls d).Canon := by
  unfold State.setControls
  extract_lets
  exact h.keep rfl rfl

/-! ### Thermal -/

theorem setSensor {i : ℕ} {x : Sensor} (h : s.Canon) : (s.setSensor i x).Canon := h.keep rfl rfl

theorem readDies {dies : List Reading} (h : s.Canon) : (s.readDies dies).Canon := by
  unfold State.readDies
  extract_lets _ _ s1 _ s2 _ s3
  have hs1 : s1.Canon := .foldS (fun _ _ h1 => .setSensor h1) h
  have hs2 : s2.Canon := .foldS (fun _ _ h1 => .powerReport h1) hs1
  have hs3 : s3.Canon := .foldS (fun _ _ h1 => .powerReport h1) hs2
  exact .ite (hs3.keep rfl rfl) hs3

theorem setCoast {reason : ℕ} (h : s.Canon) : (s.setCoast reason).Canon := .protect h (fun _ h1 => h1.keep rfl rfl)

theorem coastSensor {amid : State → State} (h : s.Canon) (hamid : ∀ (t : State), t.Canon → (amid t).Canon) : (s.coastSensor amid).Canon :=
  .protectAmid h (fun _ h1 => h1.keep rfl rfl) (fun _ h1 => hamid _ h1)

theorem readCoolant {inlet outlet : Reading} (h : s.Canon) : (s.readCoolant inlet outlet).Canon := h.keep rfl rfl

theorem setGuarded {g : Bool} (h : s.Canon) : (s.setGuarded g).Canon := by
  unfold State.setGuarded
  extract_lets f _ t
  have hf : ∀ (t : State), t.Canon → (f t).Canon := fun _ h1 => h1.keep rfl rfl
  have ht : t.Canon := hf _ h
  exact .ite (.protect h (fun _ h1 => hf _ h1)) (ht.keep rfl rfl)

theorem reportPhase {phase : ℕ} (h : s.Canon) : (s.reportPhase phase).Canon :=
  .foldS (fun _ _ h1 => .report h1) (.relayReport (h.keep rfl rfl))

/-! ### Contact -/

theorem setHold {b : Bool} (h : s.Canon) : (s.setHold b).Canon := by
  unfold State.setHold
  refine .ite h ?_
  extract_lets _ t
  have ht : t.Canon := .mEvent (h.keep rfl rfl)
  exact .ite (.powerReport ht) ht

theorem hostContact (h : s.Canon) : s.hostContact.Canon := .setHold (h.keep rfl rfl)
theorem rackContact (h : s.Canon) : s.rackContact.Canon := .setHold (h.keep rfl rfl)

/-! ### EpochOps -/

theorem freezeMaps {p : ℕ} (h : s.Canon) : (s.freezeMaps p).Canon :=
  .foldS (fun _ _ h1 => .setCell h1) (.foldS (fun _ _ h1 => .setFrg h1) h)

theorem unfreezeMaps {p : ℕ} (h : s.Canon) : (s.unfreezeMaps p).Canon :=
  .foldS (fun _ _ h1 => .setCell h1) (.foldS (fun _ _ h1 => .setFrg h1) h)

theorem markGranule {p k : ℕ} (h : s.Canon) : (s.markGranule p k).Canon := .ite (.markClose h) (.markCell h)
theorem recallEpochs {p : ℕ} (h : s.Canon) : (s.recallEpochs p).Canon := h.keep rfl rfl

theorem abandonEpoch {p : ℕ} {again : Bool} (h : s.Canon) : (s.abandonEpoch p again).Canon :=
  .ite h (.recallEpochs (.setEpoch (.foldS (fun _ _ h1 => .markGranule h1) (.unfreezeMaps h))))

theorem tellAbandon {m reason n : ℕ} (h : s.Canon) : (s.tellAbandon m reason n).Canon := .swarmSend h

theorem abandonSwarm {p reason : ℕ} (h : s.Canon) : (s.abandonSwarm p reason).Canon :=
  .ite (.abandonEpoch h) (.ite (.foldS (fun _ _ h1 => .tellAbandon h1) (.abandonEpoch h)) (.tellAbandon (.abandonEpoch h)))

theorem hearAbandon {p reason n : ℕ} (h : s.Canon) : (s.hearAbandon p reason n).Canon :=
  .ite h (.ite (.abandonSwarm h) (.abandonEpoch h))

/-! ### Far -/

theorem sendOne (h : s.Canon) : s.sendOne.Canon := by
  unfold State.sendOne
  refine .ite h ?_
  split
  · exact h.keep rfl rfl
  · exact h

theorem sendFar (h : s.Canon) : s.sendFar.Canon := .foldS (fun _ _ h1 => .sendOne h1) h
theorem dropFar {tag : ℕ} (h : s.Canon) : (s.dropFar tag).Canon := h.keep rfl rfl
theorem countFar {r : FarReq} (h : s.Canon) : (s.countFar r).Canon := .ite (.bump h) (.ite (.bumpPart (.bump h)) (.bumpPart (.bump h)))

theorem readFailed {p off : ℕ} {f : ReadFail} (h : s.Canon) : (s.readFailed p off f).Canon := by
  unfold State.readFailed
  split
  · exact .escalate h
  · exact .escalate h
  · exact .bump h

theorem countRead {p a n : ℕ} (h : s.Canon) : (s.countRead p a n).Canon := .ite (.bumpPart (.bump h)) (.ite (.bump h) h)
theorem idleLines {r : FarReq} (h : s.Canon) : (s.idleLines r).Canon := .ite h (.foldS (fun _ _ h1 => .ite (.setRing h1) h1) h)

theorem failOwner {o : Owner} {status : ℕ} (h : s.Canon) : (s.failOwner o status).Canon := by
  unfold State.failOwner
  extract_lets s1
  have hs1 : s1.Canon := .dropGathered h
  split
  · exact .abandonSwarm hs1
  · split
    · split
      · exact .ite (.setCmd hs1) (.passEnded (.ite (.abortCmd hs1) (.quenchCmd hs1)))
      · exact hs1
    · exact hs1

theorem poisoned {r : FarReq} (h : s.Canon) : (s.poisoned r).Canon := by
  unfold State.poisoned
  extract_lets s1
  have hs1 : s1.Canon := .bump h
  exact .ite (.wantRecovery (hs1.keep rfl rfl)) (.noLining (.failOwner (.dropFar hs1)))

/-! ### Commit -/

theorem putBar {key w : ℕ} (h : s.Canon) : (s.putBar key w).Canon := h.keep rfl rfl
theorem putF {key lsb width v : ℕ} (h : s.Canon) : (s.putF key lsb width v).Canon := .putBar h
theorem rangeClamp {fn : ℕ} (h : s.Canon) : (s.rangeClamp fn).Canon := .foldS (fun _ _ h1 => .putBar h1) h
theorem clampFloors {t : State} (h : t.Canon) : t.clampFloors.Canon := .putF (.putF (.putF h))

theorem clampTeam {t : State} {i : ℕ} (ht : t.Canon) : (s.clampTeam t i).Canon := by
  unfold State.clampTeam
  extract_lets _ _ _ _ t1
  have ht1 : t1.Canon := .ite (.putF ht) ht
  exact .ite (.putBar ht1) ht1

theorem clampSel {t : State} {k : ℕ} (h : t.Canon) : (t.clampSel k).Canon := .foldS (fun _ _ h1 => .ite (.putF h1) h1) h

theorem clampZero {t : State} (ht : t.Canon) : (s.clampZero t).Canon := by
  unfold State.clampZero
  extract_lets _ t1 t2 t3
  have ht1 : t1.Canon := .ite (.putF ht) ht
  have ht2 : t2.Canon := .ite ht1 (.putF ht1)
  have ht3 : t3.Canon := .foldS (fun _ _ h1 => .clampTeam h1) (.clampFloors ht2)
  refine .foldS (fun _ _ h1 => ?_) ht3
  extract_lets _ _ t11
  have ht11 : t11.Canon := .ite (.putF h1) h1
  exact .ite (.putF ht11) ht11

theorem crossClamp {t : State} {fn : ℕ} (ht : t.Canon) : (s.crossClamp t fn).Canon :=
  .clampSel (.clampSel (.foldS (fun _ _ h1 => .ite (.putF h1) h1) (.ite (.clampZero ht) ht)))

theorem clampFarKept {t : State} {keep : List ℕ} (ht : t.Canon) : (s.clampFarKept t keep).Canon := by
  unfold State.clampFarKept
  extract_lets t1
  have ht1 : t1.Canon := .foldS (fun _ _ h1 => .putBar (.putBar h1)) ht
  refine .foldS (fun _ _ h1 => ?_) ht1
  extract_lets _ t11
  have ht11 : t11.Canon := .ite (.putF h1) h1
  refine .ite h1 ?_
  split
  · exact ht11
  · exact .ite (.putF ht11) ht11

theorem keepMore {clamp : List ℕ → State} {taken : State → ℕ → Bool} {all : List ℕ} (hclamp : ∀ l, (clamp l).Canon) :
    ∀ {n : ℕ} {keep : List ℕ}, (Machine.keepMore clamp taken all n keep).Canon
  | 0, _ => hclamp _
  | _ + 1, _ => .ite (hclamp _) (keepMore hclamp)

theorem clampFar {t : State} (ht : t.Canon) : (s.clampFar t).Canon := .keepMore (fun _ => .clampFarKept ht)

theorem clampHostKept {t : State} {p : ℕ} {keep : List ℕ} (ht : t.Canon) : (s.clampHostKept t p keep).Canon := by
  unfold State.clampHostKept
  extract_lets t1
  have ht1 : t1.Canon := .foldS (fun _ _ h1 => .putBar (.putBar h1)) ht
  refine .foldS (fun _ _ h1 => .ite h1 ?_) ht1
  split
  · exact h1
  · exact .ite (.putF h1) h1

theorem clampHost {t : State} {p : ℕ} (ht : t.Canon) : (s.clampHost t p).Canon := .keepMore (fun _ => .clampHostKept ht)

theorem keepRings {t : State} {p : ℕ} (ht : t.Canon) : (s.keepRings t p).Canon := by
  unfold State.keepRings
  extract_lets same t1 k t2
  have hsame : ∀ (t : State) (k : ℕ), t.Canon → (same t k).Canon := fun _ _ h1 => .putBar h1
  have ht1 : t1.Canon := .foldS (fun _ _ h1 => .ite (.putF (hsame _ _ (hsame _ _ (hsame _ _ h1)))) h1) ht
  have ht2 : t2.Canon := .putBar (.putBar ht1)
  exact .ite (.putF ht2) ht1

theorem clampRings {t : State} {p : ℕ} (ht : t.Canon) : (s.clampRings t p).Canon :=
  .foldS (fun _ _ h1 => .ite (.putF h1) h1) (.ite (.putF ht) ht)

theorem clampLining {t : State} {p : ℕ} (ht : t.Canon) : (s.clampLining t p).Canon := by
  unfold State.clampLining
  extract_lets _ _ _ t1 t2 t3 t4
  have ht1 : t1.Canon := .ite (.putBar ht) ht
  have ht2 : t2.Canon := .ite (.putF ht1) ht1
  have ht3 : t3.Canon := .ite (.putF ht2) ht2
  have ht4 : t4.Canon := .putBar (.putF ht3)
  exact .ite (.ite (.putBar ht4) ht4) ht3

theorem clampCrec {t : State} {p : ℕ} (h : t.Canon) : (t.clampCrec p).Canon := .ite (.putF h) h
theorem clampTrace {t : State} (h : t.Canon) : t.clampTrace.Canon := .ite (.putF h) h

theorem clampAll {fn : ℕ} (h : s.Canon) : (s.clampAll fn).Canon := by
  unfold State.clampAll
  extract_lets t1 t2 t3
  have ht1 : t1.Canon := .crossClamp (.rangeClamp h)
  have ht2 : t2.Canon := .keepRings (.clampHost (.ite (.clampFar ht1) ht1))
  have ht3 : t3.Canon := .ite (.clampTrace (.foldS (fun _ _ h1 => .clampLining h1) ht2)) ht2
  exact .clampCrec (.clampRings ht3)

theorem logClamps {fn : ℕ} {l : List (ℕ × ℕ × ℕ × ℕ)} (h : s.Canon) : (s.logClamps fn l).Canon := by
  unfold State.logClamps
  extract_lets _ _ s1
  have hs1 : s1.Canon := .setCommit h
  exact .ite hs1 (.report (.bump hs1))

theorem restage {fn : ℕ} (h : s.Canon) : (s.restage fn).Canon := h.keep rfl rfl

theorem drainWindow {t : State} {host : Bool} {num : ℕ} {changed : Bool} (ht : t.Canon) : (s.drainWindow t host num changed).Canon :=
  .ite (ht.keep rfl rfl) ht

theorem drainAll {t : State} (ht : t.Canon) : (s.drainAll t).Canon :=
  .foldS (fun _ _ h1 => .drainWindow h1) (.foldS (fun _ _ h1 => .drainWindow h1) ht)

theorem setWatch {p l : ℕ} {w : Watch} (h : s.Canon) : (s.setWatch p l w).Canon := h.keep rfl rfl

theorem openRing {p i : ℕ} (h : s.Canon) : (s.openRing p i).Canon := by
  unfold State.openRing
  extract_lets _ _ _ _ _ _ s1 _ s2
  have hs1 : s1.Canon := .setRing h
  have hs2 : s2.Canon := .setWatch hs1
  exact .ite hs2 (.escalate hs2)

theorem closeRing {p i : ℕ} (h : s.Canon) : (s.closeRing p i).Canon :=
  .foldS (fun _ _ h1 => .ite (.passHead (.quenchCmd h1)) (.quenchCmd h1)) (.setRing h)

theorem setRings {p : ℕ} (h : s.Canon) : (s.setRings p).Canon :=
  .foldS (fun _ _ h1 => .ite (.ite h1 (.openRing h1)) (.ite (.closeRing h1) h1)) (.ite (.flushReports (.setRep h)) (.ite (.setRep h)
      h))

theorem liningOff {p : ℕ} (h : s.Canon) : (s.liningOff p).Canon := by
  unfold State.liningOff
  extract_lets _ _ s1 s2
  have hs1 : s1.Canon := .setEpoch h
  have hs2 : s2.Canon := by
    unfold s2
    refine .foldS (fun _ _ h1 => ?_) hs1
    split
    · exact .freeBytes h1
    · exact .foldS (fun _ _ h2 => .freeBytes h2) h1
  exact .endLostCmds (.foldS (fun _ _ h1 => .endLost h1) hs2)

theorem liningStart {p : ℕ} (h : s.Canon) : (s.liningStart p).Canon := .foldS (fun _ _ h1 => .markGranule h1) (.setEpoch h)
theorem setLining {p : ℕ} (h : s.Canon) : (s.setLining p).Canon := .ite (.liningStart h) (.ite (.liningOff h) h)

theorem moveSaves {t : State} {p : ℕ} (ht : t.Canon) : (s.moveSaves t p).Canon := by
  unfold State.moveSaves
  refine .ite ?_ ht
  split
  · exact ht.keep rfl rfl
  · exact ht

theorem applyZero {t : State} (ht : t.Canon) : (s.applyZero t).Canon := by
  unfold State.applyZero
  extract_lets t1 t2 t3 t4 _ t5
  have ht1 : t1.Canon := .foldS (fun _ _ h1 => .setLining h1) ht
  have ht2 : t2.Canon := .foldS (fun _ _ h1 => .regainGuests (.moveSaves h1)) ht1
  have ht3 : t3.Canon := .ite (.beginOff ht2) ht2
  have ht4 : t4.Canon := by
    unfold t4
    refine .foldS (fun _ _ h1 => ?_) ht3
    extract_lets
    exact .ite (.restPort h1) (.setPort h1)
  clear_value t4
  have ht5 : t5.Canon := .ite (ht4.keep rfl rfl) ht4
  exact .foldS (fun _ _ h1 => .ite (.setTeamSeq h1) h1) ht5

theorem keepRun {t : State} (ht : t.Canon) : (s.keepRun t).Canon := .ite (.putF ht) ht

theorem takeOrder {t : State} (ht : t.Canon) : (s.takeOrder t).Canon := by
  unfold State.takeOrder
  extract_lets u
  have hu : u.Canon := .ite (.powerReport ht) ht
  exact hu.keep rfl rfl

theorem commit {fn : ℕ} (h : s.Canon) : (s.commit fn).Canon := by
  unfold State.commit
  extract_lets _ _ _ put t1 t2 t3
  have hput : ∀ (u : State), u.Canon → (put u).Canon := fun _ h1 => h1.keep rfl rfl
  have ht1 : t1.Canon := .ite (.setCap h (fun _ h1 => hput _ h1)) (hput _ h)
  have ht2 : t2.Canon := .drainAll (.restage ht1)
  have ht3 : t3.Canon := .ite (.takeOrder (.applyZero ht2)) ht2
  exact .logClamps (.setRings ht3)

theorem requestCommit {fn : ℕ} (h : s.Canon) : (s.requestCommit fn).Canon := .ite (.setCommit h) (.setCommit (.commit h))

/-! ### Ports -/

theorem failPort {p : ℕ} (h : s.Canon) : (s.failPort p).Canon := .setPortState (.setPort h)

theorem comparePort {p : ℕ} (h : s.Canon) : (s.comparePort p).Canon := by
  unfold State.comparePort
  extract_lets
  refine .ite (.ite h (.setPortState (.setPort h))) (.ite (.restPort h) (.ite h (.ite ?_ (.mEvent (.ite h (.setPortState (.setPort
      h)))))))
  split
  extract_lets s1
  have hs1 : s1.Canon := .setPort h
  exact .ite (.failPort hs1) (.ite hs1 (.setPortState hs1))

theorem retireLane {port lane : ℕ} (h : s.Canon) : (s.retireLane port lane).Canon := by
  unfold State.retireLane
  extract_lets _ _ _ s1 s11
  have hs1 : s1.Canon := .ite (.endTests h) h
  have hs11 : s11.Canon := .retire (.bump (.setPort hs1))
  refine .ite ?_ hs11
  split
  refine .ite (.failPort hs11) ?_
  extract_lets s2
  have hs2 : s2.Canon := .setPort hs11
  exact .ite hs2 (.setPortState hs2)

theorem pumpPort {p : ℕ} (h : s.Canon) : (s.pumpPort p).Canon := .ite h (.setPort (h.keep rfl rfl))

theorem collarClamp (h : s.Canon) : s.collarClamp.Canon := by
  unfold State.collarClamp
  extract_lets s1 _ s2
  have hs1 : s1.Canon := .bump h
  have hs2 : s2.Canon := .mEvent hs1
  exact .ite (hs2.keep rfl rfl) hs1

theorem owe {k vc : ℕ} {p : Packet} (h : s.Canon) : (s.owe k vc p).Canon := .ite h (.setPort h)

theorem arrive {port vc : ℕ} {p : Packet} (h : s.Canon) : (s.arrive port vc p).Canon := by
  unfold State.arrive
  extract_lets s1
  have hs1 : s1.Canon := .bump h
  exact .ite (.collarClamp (.owe hs1)) (.ite (.bump (.owe hs1)) (hs1.keep rfl rfl))

theorem acceptFlit {port : ℕ} {f : Flit} (h : s.Canon) : (s.acceptFlit port f).Canon := by
  unfold State.acceptFlit
  extract_lets _ _ _ _ _ _ _ _ s1
  have hs1 : s1.Canon := .ite (.bump h) h
  split
  exact .ite (.setPort hs1) (.foldS (fun _ _ h1 => .arrive h1) (.setPort hs1))

/-! ### Routing -/

theorem withdraw {gone : Packet → Bool} (h : s.Canon) : (s.withdraw gone).Canon := h.keep rfl rfl

theorem unpark {p : Packet} (h : s.Canon) : (s.unpark p).Canon := by
  unfold State.unpark
  split
  · exact h
  · extract_lets _ s1
    have hs1 : s1.Canon := h.keep rfl rfl
    split
    · exact hs1
    · exact .owe hs1

theorem sendOn {die k : ℕ} {esc orig : Bool} {p : Packet} {residence : ℕ} (h : s.Canon) :
    (s.sendOn die k esc orig p residence).Canon := by
  unfold State.sendOn
  extract_lets _ _ _ _ _ s1 s2
  have hs1 : s1.Canon := .bump (.setPort h)
  have hs2 : s2.Canon := .ite (.bumpPart hs1) hs1
  exact hs2.keep rfl rfl

theorem spendCtl {p : Packet} (h : s.Canon) : (s.spendCtl p).Canon := by
  unfold State.spendCtl
  split
  · exact .ite (h.keep rfl rfl) h
  · exact h

theorem park {frm : Option ℕ} {p : Packet} (h : s.Canon) : (s.park frm p).Canon := .ite h (h.keep rfl rfl)

theorem ageOut {frm : Option ℕ} {p : Packet} (h : s.Canon) : (s.ageOut frm p).Canon := by
  unfold State.ageOut
  extract_lets s1
  have hs1 : s1.Canon := .bump (.unpark h)
  exact .ite (hs1.keep rfl rfl) hs1

theorem decide_ {frm : Option ℕ} {p : Packet} {residence : ℕ} (h : s.Canon) : (s.decide_ frm p residence).Canon := by
  unfold State.decide_
  extract_lets
  refine .ite (.ageOut h) (.ite (.bump (.unpark h)) (.ite (.park h) (.ite (.bump (.unpark h)) (.ite (.collarClamp (.unpark h))
      ?_))))
  split
  · extract_lets s1
    have hs1 : s1.Canon := .sendOn (.unpark h)
    exact .ite (.spendCtl hs1) (.transit hs1)
  · exact .ite (.park h) (.park (.transit h))

/-! ### Receive -/

theorem setRx {p : Packet} {r : RxStream} (h : s.Canon) : (s.setRx p r).Canon := h.keep rfl rfl

theorem answer {p : Packet} {v : Verdict} (h : s.Canon) : (s.answer p v).Canon := by
  unfold State.answer
  split
  · exact .ackPkt h
  · exact .refusePkt h
  · exact h

theorem sequence {p : Packet} {perform : State → State × Verdict} {dup : State → State}
    (h : s.Canon) (hperform : ∀ (t : State), t.Canon → CanonFst (perform t)) (hdup : ∀ (t : State), t.Canon → (dup t).Canon) :
    (s.sequence p perform dup).Canon := by
  unfold State.sequence
  refine .ite (.refusePkt h) ?_
  extract_lets
  refine .ite ?_ (.ite (hdup _ h) (.bump h))
  split
  next t1 v1 found =>
    have ht1 : t1.Canon := .of_fst found (hperform _ (.setRx h))
    exact .answer ht1

theorem checked {cls : ℕ} {p : Packet} {k : State → State} (h : s.Canon) (hk : ∀ (t : State), t.Canon → (k t).Canon) :
    (s.checked cls p k).Canon := by
  unfold State.checked
  extract_lets s1
  have hs1 : s1.Canon := .bumpPart (.unpark h)
  exact .ite (.bump hs1) (.ite (.collarClamp hs1) (.ite (.bump hs1) (.ite (.bump hs1) (.ite (.refusePkt hs1) (hk _ hs1)))))

end State.Canon

namespace CanonFst

theorem performWrite {s : State} {p : Packet} (h : s.Canon) : CanonFst (s.performWrite p) := by
  unfold State.performWrite
  extract_lets
  refine .ite (.mk h) ?_
  split
  · exact .mk h
  · exact .mk (.writeLocal h)

theorem performRead {s : State} {p : Packet} (h : s.Canon) : CanonFst (s.performRead p) := by
  unfold State.performRead
  extract_lets
  refine .ite (.mk h) ?_
  split
  · exact .mk h
  · exact .mk (.respond h)

end CanonFst

namespace State.Canon
variable {s : State}

theorem endRead {t : ReadTrack} (h : s.Canon) : (s.endRead t).Canon := h.keep rfl rfl

end State.Canon

namespace CanonFst

theorem performSig {s : State} {set : Bool} {p : Packet} (h : s.Canon) : CanonFst (s.performSig set p) :=
  .ite (.mk h) (.ite (.mk h) (.mk (.applySig h)))

end CanonFst

/-! ### CollRun -/

namespace State.Canon
variable {s : State}

theorem setColl {c : Coll} (h : s.Canon) : (s.setColl c).Canon := h.keep rfl rfl

theorem collSend {c : Coll} {type cls r arg0 arg1 : ℕ} {payload : Bool} {data : List Byte} (h : s.Canon) :
    (s.collSend c type cls r arg0 arg1 payload data).Canon :=
  .originate h

theorem abortTeam {c : Coll} (h : s.Canon) : (s.abortTeam c).Canon := .foldS (fun _ _ h1 => .swarmSend h1) (.setColl h)
theorem disagree {c : Coll} (h : s.Canon) : (s.disagree c).Canon := .escalate (.abortTeam h)
theorem setWentry {w : WEntry} (h : s.Canon) : (s.setWentry w).Canon := h.keep rfl rfl
theorem sendStage {c : Coll} (h : s.Canon) : (s.sendStage c).Canon := .foldS (fun _ _ h1 => .collSend h1) h
theorem collWrite {c : Coll} {a : ℕ} {bs : List Byte} (h : s.Canon) : (s.collWrite c a bs).Canon := .ite h (.engineWrite h)

theorem waggleOn : ∀ {k : ℕ} {s : State} {c : Coll}, s.Canon → (State.waggleOn k s c).Canon
  | 0, _, _, h => .setColl h
  | _ + 1, _, _, h => by
    unfold State.waggleOn
    refine .ite (.setColl (.collWrite h)) ?_
    extract_lets w got x c1
    exact .ite (waggleOn (.ite (.sendStage h) h)) (.setColl h)

theorem grantNext {id phase r : ℕ} (h : s.Canon) : (s.grantNext id phase r).Canon := by
  unfold State.grantNext
  split
  · exact h
  · exact .ite (.ite h (.collSend (.setColl h))) h

theorem readGroup {id g : ℕ} (h : s.Canon) : (s.readGroup id g).Canon := by
  unfold State.readGroup
  split
  · exact h
  · extract_lets
    split
    refine .ite h ?_
    split
    · exact h
    · extract_lets _ _ _ _ _ s1
      have hs1 : s1.Canon := .setColl (.collWrite h)
      exact .ite (.abortTeam hs1) hs1

theorem putChunk {c : Coll} {x : ℕ × ℕ × ℕ} {bs : List Byte} (h : s.Canon) : (s.putChunk c x bs).Canon := .collSend (.setColl h)

theorem sendChunk {c : Coll} {x : ℕ × ℕ × ℕ} {a n : ℕ} (h : s.Canon) : (s.sendChunk c x a n).Canon := by
  unfold State.sendChunk
  extract_lets
  refine .ite h ?_
  split
  · exact .putChunk h
  · exact .ite (.invalidate h) (.ite h (.ite (.loseWords h) (.putChunk (.bump h))))

theorem sendCredits {id : ℕ} (h : s.Canon) : (s.sendCredits id).Canon := by
  unfold State.sendCredits
  refine .foldS (fun _ _ h1 => .foldS (fun _ _ h2 => ?_) h1) h
  split
  · exact h2
  · split
    exact .ite h2 (.sendChunk h2)

theorem chunkOn {id : ℕ} (h : s.Canon) : (s.chunkOn id).Canon := by
  unfold State.chunkOn
  split
  · exact h
  · extract_lets _ _ s1 s2 s3
    have hs1 : s1.Canon := .foldS (fun _ _ h1 => .grantNext (.grantNext h1)) h
    have hs2 : s2.Canon := .foldS (fun _ _ h1 => .readGroup h1) hs1
    have hs3 : s3.Canon := .sendCredits hs2
    split
    · exact hs3
    · exact .ite (.setColl hs3) hs3

theorem drive {id : ℕ} (h : s.Canon) : (s.drive id).Canon := by
  unfold State.drive
  split
  · exact h
  · exact .ite h (.ite (.waggleOn h) (.chunkOn h))

theorem driveAll (h : s.Canon) : s.driveAll.Canon := .foldS (fun _ _ h1 => .drive h1) h

/-! ### Collect -/

theorem ownPart {c : Coll} (h : s.Canon) : (s.ownPart c).Canon := by
  unfold State.ownPart
  extract_lets
  split
  refine .ite (.setColl h) ?_
  split
  exact .ite (.setColl h) (.collWrite (.setColl h))

theorem startColl {c : Coll} (h : s.Canon) : (s.startColl c).Canon := by
  unfold State.startColl
  extract_lets _ _ _ s1
  have hs1 : s1.Canon := .setTeamSeq h
  exact .ite (.setColl hs1) (.ite (.disagree (.setColl hs1)) (.ite (.drive (.sendStage (.setColl hs1))) (.drive (.ownPart hs1))))

theorem loseColl {c : Coll} (h : s.Canon) : (s.loseColl c).Canon := by
  unfold State.loseColl
  extract_lets s1 _ s2
  have hs1 : s1.Canon := .freeBytes (.spoilRecord h)
  have hs2 : s2.Canon := hs1.keep rfl rfl
  exact .acceptPorts (.loseEngine hs2)

theorem driveChecked {c : Coll} {u : Upset} (h : s.Canon) : (s.driveChecked c u).Canon := by
  unfold State.driveChecked
  extract_lets t count
  have ht : t.Canon := .drive h
  have hcount : ∀ (x : State), x.Canon → (count x).Canon := fun _ h1 => .bumpPart (.bump h1)
  exact .ite ht (.ite (hcount _ ht) (.loseColl (hcount _ h)))

theorem endCollect {c : Coll} (h : s.Canon) : (s.endCollect c).Canon := by
  unfold State.endCollect
  split
  · split
    · exact .setCmd h
    · exact h
  · exact h

/-! ### Lining -/

theorem handOff {f : ℕ} (h : s.Canon) : (s.handOff f).Canon := .fillQueues (.reassign h)

theorem retireForager {f : ℕ} (h : s.Canon) : (s.retireForager f).Canon := by
  unfold State.retireForager
  extract_lets _ _ _ _ s1 s2
  have hs1 : s1.Canon := .setFrg h
  have hs2 : s2.Canon := .ite (.faultNotice (.escalate (.retire (.retire hs1)))) (.ite (.retireDevice (.handOff hs1)) (.retire
      (.handOff hs1)))
  exact .loseEngine hs2

/-! ### Swarm -/

theorem dropSwarm {p : Packet} {subtype : ℕ} (h : s.Canon) : (s.dropSwarm p subtype).Canon := .escalate (.bump h)
theorem newManager {m term : ℕ} (h : s.Canon) : (s.newManager m term).Canon := .abandonEpoch (h.keep rfl rfl)
theorem meetTerm {src term : ℕ} (h : s.Canon) : (s.meetTerm src term).Canon := .ite h (.ite (.newManager h) (.ite (h.keep rfl rfl) h))
theorem setMissed {m n : ℕ} (h : s.Canon) : (s.setMissed m n).Canon := h.keep rfl rfl

theorem endTakeover (h : s.Canon) : s.endTakeover.Canon := by
  unfold State.endTakeover
  split
  · exact .ite h (.escalate (h.keep rfl rfl))
  · exact h

theorem abandonModule {m : ℕ} (h : s.Canon) : (s.abandonModule m).Canon := by
  unfold State.abandonModule
  extract_lets _ _ s0 _ s1 s2 s3
  have hs0 : s0.Canon := .withdraw h
  have hs1 : s1.Canon := .foldS (fun _ _ h1 => .endRead h1) (hs0.keep rfl rfl)
  have hs2 : s2.Canon := .foldS (fun _ _ h1 => .ite (.countAcked h1) h1) hs1
  have hs3 : s3.Canon := .foldS (fun _ _ h1 => .failOwner h1) hs2
  exact hs3.keep rfl rfl

theorem endHeld (h : s.Canon) : s.endHeld.Canon := .foldS (fun _ _ h1 => .abortCmd h1) h

theorem setRoute {n : ℕ} {phys : BitVec 12} {valid : Bool} (h : s.Canon) : (s.setRoute n phys valid).Canon := by
  unfold State.setRoute
  extract_lets _ _ _ _ _ s1 s2
  have hs1 : s1.Canon := h.keep rfl rfl
  have hs2 : s2.Canon := .abandonModule hs1
  exact .ite (.endTakeover (.ite (.endHeld (.endLostCmds hs2)) hs2)) (.ite (hs1.keep rfl rfl) (.ite (hs1.keep rfl rfl) hs1))

theorem actTable {c : TableChange} (h : s.Canon) : (s.actTable c).Canon := .setRoute (.foldS (fun _ _ h1 => .swarmSend h1) h)

theorem changeTable {logical : ℕ} {phys : BitVec 12} {valid : Bool} (h : s.Canon) : (s.changeTable logical phys valid).Canon := by
  unfold State.changeTable
  split
  · extract_lets _ _ s1
    have hs1 : s1.Canon := .swarmSend h
    exact hs1.keep rfl rfl
  · exact .actTable h

theorem askAdmission (h : s.Canon) : s.askAdmission.Canon := .ite (h.keep rfl rfl) (.ite (.swarmSend h) h)
theorem noSpare {m : ℕ} (h : s.Canon) : (s.noSpare m).Canon := .changeTable (.escalate h)

theorem dropWant {p f : ℕ} (h : s.Canon) : (s.dropWant p f).Canon := by
  unfold State.dropWant
  extract_lets
  refine .ite ?_ (.setEpoch h)
  split <;> exact .setEpoch h

theorem respare {x : ℕ} (h : s.Canon) : (s.respare x).Canon := by
  unfold State.respare
  extract_lets _ _ f
  clear_value f
  split
  · exact h
  · refine .ite h ?_
    split
    · exact .wantFor h
    · exact .noSpare (.dropWant h)

theorem goOn {p : ℕ} (h : s.Canon) : (s.goOn p).Canon := by
  unfold State.goOn
  extract_lets _ s1
  have hs1 : s1.Canon := .setEpoch h
  exact .ite (.driveAll hs1) hs1

theorem applyQuench {reason : ℕ} (h : s.Canon) : (s.applyQuench reason).Canon := by
  unfold State.applyQuench
  extract_lets _ s1 _ _ t
  have hs1 : s1.Canon := h.keep rfl rfl
  have ht : t.Canon := hs1.keep rfl rfl
  exact .ite (.goOn (.setEpoch hs1)) (.ite (.goOn (.setEpoch ht)) hs1)

theorem endFreeze (h : s.Canon) : s.endFreeze.Canon := .trace (h.keep rfl rfl)

theorem releaseQuench {reason : ℕ} (h : s.Canon) : (s.releaseQuench reason).Canon := by
  unfold State.releaseQuench
  extract_lets _ s1
  have hs1 : s1.Canon := h.keep rfl rfl
  exact .ite (.goOn (.setEpoch hs1)) (.ite (.endFreeze (.driveAll (.goOn (.setEpoch hs1)))) (.driveAll hs1))

theorem sendQuench {act reason : ℕ} (h : s.Canon) : (s.sendQuench act reason).Canon := .foldS (fun _ _ h1 => .originate h1) h

theorem retireRtx {r : Rtx} {p : Packet} (h : s.Canon) : (s.retireRtx r p).Canon := by
  unfold State.retireRtx
  extract_lets _ s1
  have hs1 : s1.Canon := .withdraw (h.keep rfl rfl)
  exact .ite (.countAcked hs1) hs1

theorem deputyAcked {m : ℕ} {seq : BitVec 16} (h : s.Canon) : (s.deputyAcked m seq).Canon := by
  unfold State.deputyAcked
  refine .ite ?_ h
  split
  · exact .actTable (h.keep rfl rfl)
  · exact h

theorem ackOne {p : Packet} {j : ℕ} (h : s.Canon) : (s.ackOne p j).Canon := by
  unfold State.ackOne
  extract_lets
  split
  · exact h
  · extract_lets s1
    have hs1 : s1.Canon := .retireRtx h
    exact .ite (.deputyAcked hs1) hs1

theorem endRefused {r : Rtx} {p : Packet} {reason : ℕ} (h : s.Canon) : (s.endRefused r p reason).Canon := by
  unfold State.endRefused
  extract_lets s1 s2
  have hs1 : s1.Canon := .retireRtx h
  have hs2 : s2.Canon := .foldS (fun _ _ h1 => .endRead h1) hs1
  exact .ite (.failOwner hs2) hs2

end State.Canon

end Sys2Proof.Machine

/-!
PROOFS. The operations on the state keep memory in its canonical form, in the order of the model: third part.
The lemma about an operation has its name; a proof names the states between and follows the branches of the definition.
-/

namespace Sys2Proof.Machine

/-! ### Markers -/

namespace State.Canon
variable {s : State}

theorem sendMarker {p m step : ℕ} (h : s.Canon) : (s.sendMarker p m step).Canon := .originate h

theorem spreadDrain {p : ℕ} (h : s.Canon) : (s.spreadDrain p).Canon :=
  .ite h (.ite (.foldS (fun _ _ h1 => .sendMarker h1) h) (.ite (.foldS (fun _ _ h1 => .sendMarker h1) h) h))

end State.Canon

namespace CanonFst

theorem passStages {p step : ℕ} : ∀ {f : ℕ} {s : State} {k : ℕ}, s.Canon → CanonFst (State.passStages p step f s k)
  | 0, _, _, h => .mk h
  | _ + 1, _, _, h => .ite (.mk h) (.ite (passStages (.foldS (fun _ _ h => .sendMarker h) h)) (.mk h))

theorem barrierOn {s : State} {p step k : ℕ} (h : s.Canon) : CanonFst (s.barrierOn p step k) :=
  .ite (.mk h) (.ite (.mk h) (.ite (.passStages h) (.ite (.ite (.mk (.foldS (fun _ _ h1 => .sendMarker h1) h)) (.mk h)) (.mk h))))

end CanonFst

namespace State.Canon
variable {s : State}

theorem announce {p step : ℕ} (h : s.Canon) : (s.announce p step).Canon :=
  .ite h (.ite (.foldS (fun _ _ h1 => .sendMarker h1) h) (.ite h (.sendMarker h)))

theorem contribute {p step : ℕ} (h : s.Canon) : (s.contribute p step).Canon := by
  unfold State.contribute
  split
  next t1 k1 found =>
    have ht1 : t1.Canon := .of_fst found (.barrierOn (.announce h))
    exact .setEpoch ht1

theorem contributeFreeze {p : ℕ} (h : s.Canon) : (s.contributeFreeze p).Canon := by
  unfold State.contributeFreeze
  split
  next t1 k1 found =>
    have ht1 : t1.Canon := .of_fst found (.barrierOn (.announce h))
    exact .setEpoch ht1

theorem hear {p step m : ℕ} (h : s.Canon) : (s.hear p step m).Canon := by
  unfold State.hear
  extract_lets _ s1
  have hs1 : s1.Canon := .setEpoch h
  refine .ite ?_ ?_
  · refine .ite ?_ hs1
    split
    next t1 k1 found =>
      have ht1 : t1.Canon := .of_fst found (.barrierOn hs1)
      exact .setEpoch ht1
  · refine .ite ?_ hs1
    split
    next t1 k1 found =>
      have ht1 : t1.Canon := .of_fst found (.barrierOn hs1)
      exact .setEpoch ht1

theorem endBarrier {p step : ℕ} (h : s.Canon) : (s.endBarrier p step).Canon := .setEpoch h

/-! ### Measure -/

theorem setFw {st res : ℕ} (h : s.Canon) : (s.setFw st res).Canon := by
  unfold State.setFw
  extract_lets _ s1
  have hs1 : s1.Canon := .mEvent (h.keep rfl rfl)
  exact .ite (.reportAll hs1) hs1

theorem extend {reg kind : ℕ} {d : List Byte} (h : s.Canon) : (s.extend reg kind d).Canon := h.keep rfl rfl
theorem zeroMeasures (h : s.Canon) : s.zeroMeasures.Canon := h.keep rfl rfl
theorem measureImage (h : s.Canon) : s.measureImage.Canon := .extend (.extend h)
theorem measureControllers (h : s.Canon) : s.measureControllers.Canon := .extend (.extend (.extend h))
theorem measureBoot (h : s.Canon) : s.measureBoot.Canon := .measureImage (.extend h)
theorem measurePlacement (h : s.Canon) : s.measurePlacement.Canon := .extend (.extend h)
theorem measureOwner (h : s.Canon) : s.measureOwner.Canon := .extend h
theorem measureLock (h : s.Canon) : s.measureLock.Canon := .extend h

theorem measureAgain (h : s.Canon) : s.measureAgain.Canon := by
  unfold State.measureAgain
  extract_lets s1 s2
  have hs1 : s1.Canon := .measureControllers (.measureBoot (.zeroMeasures h))
  have hs2 : s2.Canon := .ite (.measurePlacement hs1) hs1
  exact .ite (.measureLock (.measureOwner hs2)) hs2

/-! ### Epochs -/

theorem syncOut {moment : ℕ} (h : s.Canon) : (s.syncOut moment).Canon := .ite (h.keep rfl rfl) h
theorem beginDrain {p n : ℕ} (h : s.Canon) : (s.beginDrain p n).Canon := .spreadDrain (.trace (.goOn (.setEpoch h)))
theorem fwActivating (h : s.Canon) : s.fwActivating.Canon := .foldS (fun _ _ h1 => .ite h1 (.goOn (.setEpoch h1))) (.setFw h)

theorem cut {p : ℕ} (h : s.Canon) : (s.cut p).Canon := by
  unfold State.cut
  extract_lets _ _ s1 s2
  have hs1 : s1.Canon := .trace (.endBarrier h)
  have hs2 : s2.Canon := .ite (.freezeMaps hs1) hs1
  split
  next n1 s31 found =>
    have hs31 : s31.Canon := .of_snd found (.ite (.fresh hs2) (.mk hs2))
    extract_lets _ s4 s5 s6
    have hs4 : s4.Canon := .setEpoch hs31
    have hs5 : s5.Canon := .ite hs4 (.bump hs4)
    have hs6 : s6.Canon := .ite (.fwActivating hs5) hs5
    exact .syncOut hs6

end State.Canon

namespace CanonSnd

theorem dump {s : State} {p : ℕ} (h : s.Canon) : CanonSnd (s.dump p) := .mk (h.keep rfl rfl)

end CanonSnd

namespace State.Canon
variable {s : State}

theorem writeDump {p : ℕ} (h : s.Canon) : (s.writeDump p).Canon := by
  unfold State.writeDump
  split
  · exact h
  · split
    next bs1 s11 found =>
      have hs11 : s11.Canon := .of_snd found (.dump h)
      split
      · exact .pokeMem hs11
      · exact .deliver hs11

theorem freezeCapture {p : ℕ} (h : s.Canon) : (s.freezeCapture p).Canon := .trace (.writeDump (.setEpoch h))
theorem afterDrained {p : ℕ} (h : s.Canon) : (s.afterDrained p).Canon := .ite (.cut h) (.ite (.freezeCapture h) h)
theorem afterCaptured {p : ℕ} (h : s.Canon) : (s.afterCaptured p).Canon := .ite (.goOn (.setEpoch (.trace (.endBarrier h)))) h
theorem writeHeader {p : ℕ} (h : s.Canon) : (s.writeHeader p).Canon := .linWrite h

theorem applyLoc {p : ℕ} (h : s.Canon) : (s.applyLoc p).Canon := by
  unfold State.applyLoc
  extract_lets
  split
  exact .foldS (fun _ _ h1 => .linWrite (.linWrite h1)) (.setEpoch h)

theorem afterCommitted {p : ℕ} (h : s.Canon) : (s.afterCommitted p).Canon := by
  unfold State.afterCommitted
  extract_lets _ s1 s2 _ _ _ s3
  have hs1 : s1.Canon := .bump (.trace (.endBarrier h))
  have hs2 : s2.Canon := .ite (.writeHeader (.applyLoc hs1)) hs1
  have hs3 : s3.Canon := .setEpoch hs2
  exact .ite (.syncOut (.report hs3)) h

/-! ### Intake -/

theorem reread {p l : ℕ} {inval : Bool} (h : s.Canon) : (s.reread p l inval).Canon := .setWatch h
theorem returned {p l : ℕ} {first : Bool} {data : BitVec 512} (h : s.Canon) : (s.returned p l first data).Canon := .setWatch h
theorem lineFailed {p l : ℕ} {f : ReadFail} (h : s.Canon) : (s.lineFailed p l f).Canon := .readFailed (.returned h)
theorem takeSlot {p i v : ℕ} (h : s.Canon) : (s.takeSlot p i v).Canon := .ite (.setRing h) (.ite h (.escalate (.setRing h)))
theorem endSweep {p k : ℕ} (h : s.Canon) : (s.endSweep p k).Canon := .ite (.setDrip h) h

theorem logIntake {p : ℕ} {r : IntakeRec} (h : s.Canon) : (s.logIntake p r).Canon := by
  unfold State.logIntake
  extract_lets _ s1 s2
  have hs1 : s1.Canon := .linWrite h
  have hs2 : s2.Canon := .setEpoch hs1
  exact .ite (.requestBoundary hs2) hs2

theorem letIn {c : Cmd} (h : s.Canon) : (s.letIn c).Canon := .setDrip (h.keep rfl rfl)

theorem advanceRead {p i : ℕ} (h : s.Canon) : (s.advanceRead p i).Canon := by
  unfold State.advanceRead
  extract_lets
  split
  exact .endSweep (.setRing h)

theorem takeIn {p i : ℕ} {desc : BitVec 1024} (h : s.Canon) : (s.takeIn p i desc).Canon := by
  unfold State.takeIn
  extract_lets _ _ _ s1
  have hs1 : s1.Canon := .ite (.logIntake h) h
  split
  · exact .advanceRead (.letIn (.setRing h))
  · exact .advanceRead (.letIn hs1)

theorem takeLogged {p : ℕ} {r : IntakeRec} {rest : List IntakeRec} (h : s.Canon) : (s.takeLogged p r rest).Canon := by
  unfold State.takeLogged
  extract_lets _ s1 s2
  have hs1 : s1.Canon := .setEpoch h
  have hs2 : s2.Canon := .letIn hs1
  split
  exact .setRing hs2

theorem rereadRing {p i : ℕ} (h : s.Canon) : (s.rereadRing p i).Canon := .setRing (h.keep rfl rfl)

/-! ### Recovery -/

theorem advanceGens {l : List ℕ} (h : s.Canon) : (s.advanceGens l).Canon := h.keep rfl rfl
theorem rebuild {p k : ℕ} (h : s.Canon) : (s.rebuild p k).Canon := .freshen (.pokeMem h)
theorem countRebuild {p : ℕ} {l : List ℕ} (h : s.Canon) : (s.countRebuild p l).Canon := .countRead h

theorem rebuildAll {p : ℕ} {l : List ℕ} (h : s.Canon) : (s.rebuildAll p l).Canon :=
  .foldS (fun _ _ h1 => .ite h1 (.rebuild h1)) (.countRebuild h)

theorem healLines {p k : ℕ} (h : s.Canon) : (s.healLines p k).Canon := by
  unfold State.healLines
  refine .ite ?_ h
  split
  exact .endLost h

theorem dropTraffic (h : s.Canon) : s.dropTraffic.Canon := by
  unfold State.dropTraffic
  extract_lets _ s1
  have hs1 : s1.Canon := .withdraw h
  exact hs1.keep rfl rfl

theorem stopEngines {p : ℕ} (h : s.Canon) : (s.stopEngines p).Canon := h.keep rfl rfl

theorem recoverFrom {p t f x : ℕ} {fs xs : Word} (h : s.Canon) : (s.recoverFrom p t f x fs xs).Canon := by
  unfold State.recoverFrom
  extract_lets s1 s2 s3 _ s4 _ _ s5
  have hs1 : s1.Canon := .stopEngines (.abandonEpoch h)
  have hs2 : s2.Canon := .advanceGens hs1
  have hs3 : s3.Canon := .ite (.dropTraffic hs2) hs2
  have hs4 : s4.Canon := .setEpoch hs3
  have hs5 : s5.Canon := .ite (hs4.keep rfl rfl) hs4
  exact .bump (.trace (.goOn hs5))

end State.Canon

namespace CanonSnd

theorem targetEpoch {s : State} {p : ℕ} (h : s.Canon) : CanonSnd (s.targetEpoch p) := by
  unfold State.targetEpoch
  extract_lets
  refine .ite (.mk h) (.ite (.mk h) ?_)
  split
  next v1 s11 found =>
    have hs11 : s11.Canon := .of_snd found (.fresh h)
    exact .mk hs11

end CanonSnd

namespace State.Canon
variable {s : State}

theorem moveNumber {f x : ℕ} {xs : Word} (h : s.Canon) : (s.moveNumber f x xs).Canon := .ite h (.changeTable (h.keep rfl rfl))

theorem startRecovery {p : ℕ} (h : s.Canon) : (s.startRecovery p).Canon := by
  unfold State.startRecovery
  extract_lets
  split
  next t1 s11 found =>
    have hs11 : s11.Canon := .of_snd found (.targetEpoch h)
    refine .ite (.ite (.endLostCmds (.setEpoch h)) (.noSpare (.dropWant h))) ?_
    extract_lets _ _ s2 s3 _ _ s4
    have hs2 : s2.Canon := .recoverFrom hs11
    have hs3 : s3.Canon := .applyQuench (.sendQuench hs2)
    have hs4 : s4.Canon := .foldS (fun _ _ h1 => .foldS (fun _ _ h2 => .swarmSend h2) h1) hs3
    exact .ite hs2 (.foldS (fun _ _ h1 => .moveNumber h1) hs4)

theorem refillDrips {p : ℕ} (h : s.Canon) : (s.refillDrips p).Canon := .foldS (fun _ _ h1 => .setDrip h1) h

theorem restoreCtx {p : ℕ} {c : Ctx} {own : Bool} (h : s.Canon) : (s.restoreCtx p c own).Canon := by
  unfold State.restoreCtx
  extract_lets _ _ _ _ _ s1 s2 _ _ s3 s4 s5
  have hs1 : s1.Canon := .foldS (fun _ _ h1 => .setCell h1) h
  have hs2 : s2.Canon := .foldS (fun _ _ h1 => .setFrg h1) hs1
  have hs3 : s3.Canon := hs2.keep rfl rfl
  have hs4 : s4.Canon := .foldS (fun _ _ h1 => .setRing h1) hs3
  have hs5 : s5.Canon := .fillQueues (.reassign (.refillDrips hs4))
  exact .retuneAll (.foldS (fun _ _ h1 => .saveCell h1) hs5)

theorem cleanMaps {p : ℕ} (h : s.Canon) : (s.cleanMaps p).Canon :=
  .setEpoch (.foldS (fun _ _ h1 => .setCell h1) (.foldS (fun _ _ h1 => .endLost (.setFrg h1)) h))

theorem restoreOwn {p : ℕ} (h : s.Canon) : (s.restoreOwn p).Canon := by
  unfold State.restoreOwn
  extract_lets _ _ s1 s2
  have hs1 : s1.Canon := .ite (.writeHeader (.applyLoc h)) h
  have hs2 : s2.Canon := .cleanMaps (.rebuildAll hs1)
  split
  · exact hs2
  · exact .setEpoch (.setRings (.restoreCtx hs2))

theorem adoptRings {p : ℕ} {c : Ctx} {es : List EffectRec} (h : s.Canon) : (s.adoptRings p c es).Canon := by
  unfold State.adoptRings
  extract_lets s1
  have hs1 : s1.Canon := .foldS (fun _ _ h1 => .setRing h1) h
  clear_value s1
  split
  exact .setRep (hs1.keep rfl rfl)

theorem restoreSpare {p f : ℕ} (h : s.Canon) : (s.restoreSpare p f).Canon := by
  unfold State.restoreSpare
  split
  · exact h
  · extract_lets _ s1 _ _ _ _ _ _ x2 s2 s3 s4 s5 _ _ _ _ x4
    have hs1 : s1.Canon := .setEpoch h
    have hx2 : x2.Canon := .setEpoch hs1
    clear_value x2
    have hs2 : s2.Canon := hx2.keep rfl rfl
    have hs3 : s3.Canon := .ite (.writeHeader (.applyLoc hs2)) hs2
    have hs4 : s4.Canon := .cleanMaps (.rebuildAll hs3)
    have hs5 : s5.Canon := .adoptRings (.restoreCtx hs4)
    have hx4 : x4.Canon := .setEpoch hs5
    clear_value x4
    exact hx4.keep rfl rfl

theorem unreadable {p : ℕ} {f : ReadFail} (h : s.Canon) : (s.unreadable p f).Canon := by
  unfold State.unreadable
  extract_lets s1
  have hs1 : s1.Canon := .readFailed h
  exact .ite (.ite (.noSpare hs1) (.faultNotice hs1)) (.goOn (.endLostCmds (.setEpoch hs1)))

theorem afterRestored {p : ℕ} (h : s.Canon) : (s.afterRestored p).Canon :=
  .ite (.ite (.releaseQuench (.sendQuench h)) (.goOn (.setEpoch h))) h

/-! ### Resets -/

theorem countReset {d unit : ℕ} (h : s.Canon) : (s.countReset d unit).Canon := canon_steady.countReset _ _ _ h
theorem countOutcome {d : ℕ} (h : s.Canon) : (s.countOutcome d).Canon := canon_steady.countOutcome _ _ h
theorem endPart {p : ℕ} (h : s.Canon) : (s.endPart p).Canon := .foldS (fun _ _ h1 => .abortCmd h1) (.abortWaiting h)

theorem partOut {p : ℕ} (h : s.Canon) : (s.partOut p).Canon := by
  unfold State.partOut
  extract_lets s1
  have hs1 : s1.Canon := .lightService (.mEvent (.endPart h))
  exact hs1.keep rfl rfl

theorem moduleOut (h : s.Canon) : s.moduleOut.Canon := by
  unfold State.moduleOut
  extract_lets s1
  have hs1 : s1.Canon := .lightService (.mEvent (.foldS (fun _ _ h1 => .endPart h1) h))
  exact hs1.keep rfl rfl

theorem degradeComb {k : ℕ} (h : s.Canon) : (s.degradeComb k).Canon :=
  .foldS (fun _ _ h1 => .ite (.loseCell (.displace h1)) h1) (.retire (h.keep rfl rfl))

theorem countCell {n : ℕ} (h : s.Canon) : (s.countCell n).Canon := canon_steady.countCell _ _ h

theorem countFrg {f : ℕ} (h : s.Canon) : (s.countFrg f).Canon := by
  unfold State.countFrg
  extract_lets _ s1
  have hs1 : s1.Canon := .countReset h
  exact .ite (.escalate (.countOutcome (.retireForager hs1))) hs1

theorem countComb {k : ℕ} (h : s.Canon) : (s.countComb k).Canon := by
  unfold State.countComb
  extract_lets _ s1
  have hs1 : s1.Canon := .countReset h
  exact .ite (.escalate (.countOutcome (.degradeComb hs1))) hs1

theorem countPart {p : ℕ} (h : s.Canon) : (s.countPart p).Canon := by
  unfold State.countPart
  extract_lets _ s1
  have hs1 : s1.Canon := .countReset h
  exact .ite (.escalate (.countOutcome (.partOut hs1))) hs1

theorem countModule (h : s.Canon) : s.countModule.Canon := by
  unfold State.countModule
  extract_lets s1
  have hs1 : s1.Canon := .countReset h
  exact .ite (.escalateAll (.countOutcome (.moduleOut hs1))) hs1

theorem abandonDomain {r : ResetIn} (h : s.Canon) : (s.abandonDomain r).Canon := .foldS (fun _ _ h1 => .setCell h1) (h.keep rfl rfl)

theorem clearCell {n : ℕ} (h : s.Canon) : (s.clearCell n).Canon := by
  unfold State.clearCell
  extract_lets _ s1
  have hs1 : s1.Canon := .setCell h
  exact hs1.keep rfl rfl

theorem wipeCell {domain n : ℕ} (h : s.Canon) : (s.wipeCell domain n).Canon := .loseEngine (.clearCell h)
theorem beginReset {domain number : ℕ} (h : s.Canon) : (s.beginReset domain number).Canon := .trace (h.keep rfl rfl)
theorem resetCell {n : ℕ} (h : s.Canon) : (s.resetCell n).Canon := .foldS (fun _ _ h1 => .wipeCell h1) (.beginReset h)

theorem expelGuest {n : ℕ} (h : s.Canon) : (s.expelGuest n).Canon := by
  unfold State.expelGuest
  split
  · exact h
  · extract_lets s1 s2
    have hs1 : s1.Canon := h.keep rfl rfl
    have hs2 : s2.Canon := .ite hs1 (.saveCell hs1)
    exact .switchTo (.switchTo hs2)

theorem resetComb {k : ℕ} (h : s.Canon) : (s.resetComb k).Canon :=
  .loseEngine (.foldS (fun _ _ h1 => .ite (.wipeCell h1) h1) (.foldS (fun _ _ h1 => .expelGuest h1) (.beginReset (.endTests h))))

theorem dropColls {mine : Coll → Bool} {status : ℕ} (h : s.Canon) : (s.dropColls mine status).Canon := canon_steady.dropColls _ _ _ h
theorem clearFrg {f : ℕ} (h : s.Canon) : (s.clearFrg f).Canon := .setFrg h

theorem resetPart {p : ℕ} (h : s.Canon) : (s.resetPart p).Canon := by
  unfold State.resetPart
  extract_lets _ s0 s1 s2 s3 keep _ _ s4 s5 _ _ s6
  have hs0 : s0.Canon := .endTests h
  have hs1 : s1.Canon := .foldS (fun _ _ h1 => .clearCell h1) (.beginReset hs0)
  have hs2 : s2.Canon := .loseEngine (.foldS (fun _ _ h1 => .clearFrg h1) hs1)
  have hs3 : s3.Canon := .dropColls (.abortWaiting hs2)
  have hs4 : s4.Canon := hs3.keep rfl rfl
  have hs5 : s5.Canon := .ite (.foldS (fun _ _ h1 => .setFrg h1) hs4) hs4
  have hs6 : s6.Canon := hs5.keep rfl rfl
  exact .ite hs5 (.ite (.liningOff hs6) hs6)

theorem beat {k : ℕ} (h : s.Canon) : (s.beat k).Canon := h.keep rfl rfl

theorem elapsedNow (h : s.Canon) : s.elapsedNow.Canon := by
  unfold State.elapsedNow
  split
  next v1 t1 found =>
    have ht1 : t1.Canon := .of_snd found (.fresh h)
    exact ht1.keep rfl rfl

theorem endReset {d n : ℕ} (h : s.Canon) : (s.endReset d n).Canon := by
  unfold State.endReset
  extract_lets _ _ s1 _ s11
  have hs1 : s1.Canon := h.keep rfl rfl
  have hs11 : s11.Canon := .elapsedNow hs1
  exact .ite (.serveWaiting (hs1.keep rfl rfl)) (.ite (hs11.keep rfl rfl) hs1)

theorem enterExpired {p intake : ℕ} (h : s.Canon) : (s.enterExpired p intake).Canon := h.keep rfl rfl
theorem dropWork {c : Cmd} (h : s.Canon) : (s.dropWork c).Canon := .quenchColls (.foldS (fun _ _ h1 => .leave h1) h)
theorem restartFrg {f : ℕ} (h : s.Canon) : (s.restartFrg f).Canon := .countFrg (.loseEngine (.clearFrg h))

/-! ### Debug -/

theorem freezeGo (h : s.Canon) : s.freezeGo.Canon := .ite h (.ite (h.keep rfl rfl) (.applyQuench (.sendQuench h)))
theorem freezeEnd (h : s.Canon) : s.freezeEnd.Canon := .ite (.releaseQuench (.sendQuench h)) h

theorem testGo {kind target seconds : ℕ} (h : s.Canon) : (s.testGo kind target seconds).Canon :=
  .ite h (.ite (h.keep rfl rfl) (h.keep rfl rfl))

theorem refuseTest (h : s.Canon) : s.refuseTest.Canon := h.keep rfl rfl
theorem startTest {r : ℕ × ℕ × ℕ} (h : s.Canon) : (s.startTest r).Canon := h.keep rfl rfl

theorem failTested {c : ℕ} (h : s.Canon) : (s.failTested c).Canon := by
  unfold State.failTested
  refine .ite h ?_
  extract_lets _ s1
  have hs1 : s1.Canon := .setPhys h
  split
  next n1 s21 found =>
    have hs21 : s21.Canon := .of_snd found (.fresh hs1)
    split
    next st1 s31 found =>
      have hs31 : s31.Canon := .of_snd found (.fresh hs21)
      exact .retire hs31

end State.Canon

/-! ### Status -/

namespace CanonSnd

theorem freshBytes {s : State} {n : ℕ} (h : s.Canon) : CanonSnd (s.freshBytes n) := .mk (h.keep rfl rfl)

theorem oneOf {s : State} {l : List ℕ} (h : s.Canon) : CanonSnd (s.oneOf l) := by
  unfold State.oneOf
  split
  · exact .mk h
  · exact .mk h
  · split
    next n1 s11 found =>
      have hs11 : s11.Canon := .of_snd found (.fresh h)
      exact .mk hs11

end CanonSnd

namespace CanonSome

theorem sensorValue {s : State} {k : ℕ} (h : s.Canon) : CanonSome (s.sensorValue k) := by
  unfold State.sensorValue
  refine .ite (.some h) (.ite (.some h) (.ite (.some h) (.ite (.some h) (.ite ?_ ?_))))
  · split
    · exact .some h
    · split
      next n1 s11 found =>
        have hs11 : s11.Canon := .of_snd found (.fresh h)
        exact .some hs11
  · refine .ite (.some h) (.ite ?_ .none)
    split
    next n1 s11 found =>
      have hs11 : s11.Canon := .of_snd found (.oneOf h)
      exact .some hs11

end CanonSome

/-! ### Mgmt -/

namespace State.Canon
variable {s : State}

theorem reply {cc : ℕ} {body : List Byte} (h : s.Canon) : (s.reply cc body).Canon := h.keep rfl rfl
theorem countRequest (h : s.Canon) : s.countRequest.Canon := h.keep rfl rfl

theorem pldmError (h : s.Canon) : s.pldmError.Canon := by
  unfold State.pldmError
  split
  next n1 s11 found =>
    have hs11 : s11.Canon := .of_snd found (.fresh h)
    exact .reply hs11

theorem setRack {w : ℕ} (h : s.Canon) : (s.setRack w).Canon := by
  unfold State.setRack
  extract_lets f
  have hf : ∀ (u : State), u.Canon → (f u).Canon := fun _ h1 => h1.keep rfl rfl
  exact .ite (.setCap h (fun _ h1 => hf _ h1)) (hf _ h)

theorem setRun {on : Bool} (h : s.Canon) : (s.setRun on).Canon := by
  unfold State.setRun
  extract_lets _ t
  have ht : t.Canon := h.keep rfl rfl
  exact .ite (.beginOff ht) ht

theorem setLocate {p : Pattern} {seconds : ℕ} (h : s.Canon) : (s.setLocate p seconds).Canon := h.keep rfl rfl

end State.Canon

namespace CanonSome

theorem takeIndex {s : State} (h : s.Canon) : CanonSome s.takeIndex :=
  .ite (.some (h.keep rfl rfl)) (.ite (.some (h.keep rfl rfl)) .none)

end CanonSome

/-! ### Firmware -/

namespace State.Canon
variable {s : State}

theorem stage {i : Image} (h : s.Canon) : (s.stage i).Canon := h.keep rfl rfl
theorem turnAway {cc res : ℕ} (h : s.Canon) : (s.turnAway cc res).Canon := .reply (h.keep rfl rfl)
theorem endPoint (h : s.Canon) : s.endPoint.Canon := .foldS (fun _ _ h1 => .ite (.goOn (.setEpoch h1)) h1) h

theorem armFw (h : s.Canon) : s.armFw.Canon := by
  unfold State.armFw
  extract_lets s1
  have hs1 : s1.Canon := .setFw h
  exact .ite hs1 (.ite (.requestBoundary hs1) (.goOn (.setEpoch hs1)))

theorem lockUpdate (h : s.Canon) : s.lockUpdate.Canon := .ite (.endPoint (.setFw h)) (.ite (.setFw (h.keep rfl rfl)) h)
theorem setLock {b : Bool} (h : s.Canon) : (s.setLock b).Canon := .ite h (.measureLock (h.keep rfl rfl))

/-! ### Start -/

theorem buildTables {f : StartFinds} (h : s.Canon) : (s.buildTables f).Canon := by
  unfold State.buildTables
  extract_lets _ _ _ s1
  have hs1 : s1.Canon := h.keep rfl rfl
  exact hs1.keep rfl rfl

theorem startDevice {d : ℕ} (h : s.Canon) : (s.startDevice d).Canon := by
  unfold State.startDevice
  extract_lets _ _ x1
  have hx1 : x1.Canon := .setDev h
  exact .ite (.retire (hx1.keep rfl rfl)) (.partOut (.escalate (.setDev h)))

theorem failCell {c : ℕ} (h : s.Canon) : (s.failCell c).Canon := by
  unfold State.failCell
  refine .ite h ?_
  extract_lets _ s1
  have hs1 : s1.Canon := .setPhys h
  split
  · exact .replaceCell hs1
  · exact hs1

theorem failComb {k : ℕ} (h : s.Canon) : (s.failComb k).Canon :=
  .ite h (.foldS (fun _ _ h1 => .ite (.displace h1) h1) (.retire (h.keep rfl rfl)))

theorem quickPass {f : StartFinds} (h : s.Canon) : (s.quickPass f).Canon := by
  unfold State.quickPass
  extract_lets s0 s1 s2 _ _ s3 s4 s5
  have hs0 : s0.Canon := .foldS (fun _ _ h1 => .ite (.countCorrected h1) h1) h
  have hs1 : s1.Canon := .foldS (fun _ _ h1 => .spareRow h1) hs0
  have hs2 : s2.Canon := .ite hs1 (.spoilRecord hs1)
  have hs3 : s3.Canon := .foldS (fun _ _ h1 => .startDevice h1) hs2
  have hs4 : s4.Canon := .ite hs3 (.spoilRecord hs3)
  have hs5 : s5.Canon := .foldS (fun _ _ h1 => .failComb h1) (.foldS (fun _ _ h1 => .failCell h1) (.foldS (fun _ _ h1 =>
      .writeStamps h1) hs4))
  exact .foldS (fun _ _ h1 => .ite h1 (.retireForager h1)) hs5

theorem parkGuests (h : s.Canon) : s.parkGuests.Canon := .foldS (fun _ _ h1 => .ite (.switchTo h1) h1) h

theorem reachReady {kind : ℕ} (h : s.Canon) : (s.reachReady kind).Canon := by
  unfold State.reachReady
  extract_lets s1 _ _ _ s2 s3 s4 s5
  have hs1 : s1.Canon := .parkGuests (.elapsedNow h)
  have hs2 : s2.Canon := hs1.keep rfl rfl
  have hs3 : s3.Canon := .endService hs2
  have hs4 : s4.Canon := .ite (.setCoast hs3) hs3
  have hs5 : s5.Canon := .ite (.brakeActions (.protect hs4 (fun _ h1 => h1.keep rfl rfl))) hs4
  exact .foldS (fun _ _ h1 => .powerReport h1) hs5

theorem haltStart {reason : ℕ} (h : s.Canon) : (s.haltStart reason).Canon := .lightService (.mEvent (h.keep rfl rfl))
theorem waitStart {step reason : ℕ} (h : s.Canon) : (s.waitStart step reason).Canon := h.keep rfl rfl
theorem failPhases {l : List ℕ} (h : s.Canon) : (s.failPhases l).Canon := .foldS (fun _ _ h1 => .ite h1 (.reportPhase h1)) h

theorem reportStop (h : s.Canon) : s.reportStop.Canon := by
  unfold State.reportStop
  extract_lets s1 s2
  have hs1 : s1.Canon := .ite (.escalateAll h) h
  have hs2 : s2.Canon := .ite (.powerReport hs1) hs1
  exact hs2.keep rfl rfl

theorem bringUp {f : StartFinds} (h : s.Canon) : (s.bringUp f).Canon := by
  unfold State.bringUp
  extract_lets _ _ s1 s2 _ _ s3 _ s4
  have hs1 : s1.Canon := .reportStop (h.keep rfl rfl)
  have hs2 : s2.Canon := .failPhases hs1
  have hs3 : s3.Canon := .buildTables hs2
  have hs4 : s4.Canon := .foldS (fun _ _ h1 => .partOut (.escalate h1)) hs3
  exact .ite (hs2.keep rfl rfl) (.ite (.reachReady (.quickPass hs2)) (.reachReady (.foldS (fun _ _ h1 => .escalate h1) hs4)))

theorem startChecks {f : StartFinds} (h : s.Canon) : (s.startChecks f).Canon := by
  unfold State.startChecks
  refine .ite (.lightService (.waitStart h)) ?_
  extract_lets _ s1 _ s2
  have hs1 : s1.Canon := .endService (h.keep rfl rfl)
  have hs2 : s2.Canon := .endService (hs1.keep rfl rfl)
  exact .ite (.waitStart hs1) (.ite (.haltStart hs2) (.bringUp hs2))

theorem startRun {f : StartFinds} (h : s.Canon) : (s.startRun f).Canon := by
  unfold State.startRun
  split
  · exact .haltStart h
  · exact .startChecks (.measureControllers (.measureBoot (.ite h (.mEvent (h.keep rfl rfl)))))

theorem revertTrial (h : s.Canon) : s.revertTrial.Canon := .setFw (h.keep rfl rfl)

theorem newStart (h : s.Canon) : s.newStart.Canon := by
  unfold State.newStart
  extract_lets s1 _ _ _ _ s2
  have hs1 : s1.Canon := .zeroMeasures h
  have hs2 : s2.Canon := hs1.keep rfl rfl
  exact .endService (.endService (.endService hs2))

theorem restart {f : StartFinds} (h : s.Canon) : (s.restart f).Canon := by
  unfold State.restart
  extract_lets _ s1
  have hs1 : s1.Canon := h.keep rfl rfl
  exact .ite (.waitStart hs1) (.ite (.waitStart hs1) (.ite (.haltStart hs1) (.reachReady (.quickPass (.failPhases hs1)))))

theorem endAll (h : s.Canon) : s.endAll.Canon := by
  unfold State.endAll
  extract_lets s1
  have hs1 : s1.Canon := .foldS (fun _ _ h1 => .abortWaiting h1) h
  exact hs1.keep rfl rfl

theorem liningsOff (h : s.Canon) : s.liningsOff.Canon := .foldS (fun _ _ h1 => .setBarF h1) h

theorem resetAll {back : Bool} (h : s.Canon) : (s.resetAll back).Canon := by
  unfold State.resetAll
  extract_lets keep t
  have hkeep : ∀ (u : State), u.Canon → (keep u).Canon := fun _ h1 => .ite (.brakeControls h1) h1
  have ht : t.Canon := .liningsOff (.endAll h)
  exact hkeep _ (.drop ht rfl rfl)

/-! ### Placement -/

theorem replacePlacement {raw : List Byte} (h : s.Canon) : (s.replacePlacement raw).Canon := by
  unfold State.replacePlacement
  extract_lets _ s1 _ s2 s3
  have hs1 : s1.Canon := .withdraw (.dropTraffic h)
  have hs2 : s2.Canon := hs1.keep rfl rfl
  have hs3 : s3.Canon := .advanceGens hs2
  exact .ite hs3 (.liningOff (.setBarF hs3))

theorem loadPlacement {raw : List Byte} (h : s.Canon) : (s.loadPlacement raw).Canon := h.keep rfl rfl

theorem loadEnvelope {raw : List Byte} (h : s.Canon) : (s.loadEnvelope raw).Canon :=
  .powerReport (.setCap h (fun _ h1 => h1.keep rfl rfl))

theorem acceptPlacement {raw : List Byte} (h : s.Canon) : (s.acceptPlacement raw).Canon :=
  .askAdmission (.measurePlacement (.foldS (fun _ _ h1 => .comparePort h1) (.loadEnvelope (.loadPlacement (.ite (.replacePlacement
      h) h)))))

theorem placementGo {length : ℕ} (h : s.Canon) : (s.placementGo length).Canon := .ite h (h.keep rfl rfl)

/-! ### RegisterWrite -/

theorem storeReg {key : ℕ} {fields : List Field} {m v : Word} (h : s.Canon) : (s.storeReg key fields m v).Canon := h.keep rfl rfl
theorem writePlanes {n : ℕ} {m v : Word} (h : s.Canon) : (s.writePlanes n m v).Canon := h.keep rfl rfl
theorem clearSticky {fn : ℕ} {v : Word} (h : s.Canon) : (s.clearSticky fn v).Canon := .setCommit h
theorem askReset {domain number : ℕ} (h : s.Canon) : (s.askReset domain number).Canon := .ite h (h.keep rfl rfl)

theorem writeOnly {off : ℕ} {v : Word} (h : s.Canon) : (s.writeOnly off v).Canon := by
  unfold State.writeOnly
  extract_lets _ s1
  have hs1 : s1.Canon := .ite (.freezeGo h) h
  exact .ite (.ite (.clearDemand h) h) (.ite (.ite (.askReset h) h) (.ite (.ite (.freezeEnd hs1) hs1) (.ite (.ite (.testGo h) h)
      (.ite (.ite (.placementGo h) h) h))))

theorem writeReg {fn off : ℕ} {m v : Word} (h : s.Canon) : (s.writeReg fn off m v).Canon := by
  unfold State.writeReg
  refine .ite (.ite (.requestCommit h) h) ?_
  split
  · exact h
  · refine .ite h (.ite (.clearSticky h) (.ite (.writePlanes h) (.ite h ?_)))
    extract_lets t
    have ht : t.Canon := .writeOnly (.storeReg h)
    exact .ite (ht.keep rfl rfl) ht

/-! ### Residue -/

theorem countRepeat {c : ℕ} (h : s.Canon) : (s.countRepeat c).Canon := .bumpPart (.bump h)

/-! ### Tick -/

theorem fillPort {p : ℕ} (h : s.Canon) : (s.fillPort p).Canon := .setPort h
theorem fillCtl (h : s.Canon) : s.fillCtl.Canon := .ite (h.keep rfl rfl) h

theorem flip {x : Option (ℕ × ℕ)} (h : s.Canon) : (s.flip x).Canon := by
  unfold State.flip
  split
  · exact .ite (h.keep rfl rfl) h
  · exact h

theorem tick (h : s.Canon) : s.tick.Canon := by
  unfold State.tick
  refine .ite ?_ h
  extract_lets t u
  have ht : t.Canon := .bump h
  have hu : u.Canon := .watchdogs (.fillCtl (.foldS (fun _ _ h1 => .pumpPort h1) (.foldS (fun _ _ h1 => .fillPort h1) ht)))
  exact .ite (.ite (.flip hu) hu) ht

/-! ### Step -/

theorem withQueue {q : List Instr} (h : s.Canon) : (s.withQueue q).Canon := h.keep rfl rfl

end State.Canon

end Sys2Proof.Machine

/-!
PROOFS. The commands keep memory in its canonical form, in the order of the model: first part.
The lemma about a command has the name of its row; a proof names the states between and follows the branches of the definition.
-/

namespace Sys2Proof.Machine

/-! ### Ops -/

namespace CanonNext

theorem whenAwake {s : State} {p : ℕ} {k : Host.Outcome State Fault Refusal} (h : s.Canon) (hk : CanonNext k) :
    CanonNext (whenAwake s p k) :=
  .ite hk (.next (.wake h))

theorem whenRoused {s : State} {p : ℕ} {k : Host.Outcome State Fault Refusal} (h : s.Canon) (hk : CanonNext k) :
    CanonNext (whenRoused s p k) :=
  .ite (.next (.wake h)) hk

theorem whenLive {s : State} {k : Host.Outcome State Fault Refusal} (hk : CanonNext k) : CanonNext (whenLive s k) := .ite hk .refused

theorem whenStandby {s : State} {k : Host.Outcome State Fault Refusal} (hk : CanonNext k) : CanonNext (whenStandby s k) :=
  .ite hk .refused

theorem whenDue {b : Bool} {k : Host.Outcome State Fault Refusal} (hk : CanonNext k) : CanonNext (whenDue b k) := .ite hk .refused

theorem whenFree {b : Bool} {s : State} {k : Host.Outcome State Fault Refusal} (h : s.Canon) (hk : CanonNext k) :
    CanonNext (whenFree b s k) :=
  .ite hk (.next h)

theorem whenFormed {b : Bool} {k : Host.Outcome State Fault Refusal} (hk : CanonNext k) : CanonNext (whenFormed b k) := .ite hk .refused

/-! ### Mem -/

theorem withRecall {ranges : List (ℕ × ℕ)} {s : State} {k : Host.Outcome State Fault Refusal} (h : s.Canon) (hk : CanonNext k) :
    CanonNext (withRecall ranges s k) :=
  .ite (.ite (.next h) (.next (.invalidate h))) hk

/-! ### Issue -/

theorem issue {n : ℕ} {g : Guard} {legal memory : Bool} {s : State} {body : State → Eff}
    (h : s.Canon) (hbody : ∀ (t : State), t.Canon → CanonDone (body t)) : CanonNext (issue n g legal memory s body) := by
  unfold Machine.issue
  refine .whenLive (.ite .refused ?_)
  extract_lets s1
  have hs1 : s1.Canon := .endFence h
  refine .ite (.next (.programFault hs1)) (.ite (.next (.programFault hs1)) (.ite (.next (.advancePc hs1)) ?_))
  split
  next t1 found =>
    have ht1 : t1.Canon := .of_done found (hbody _ hs1)
    exact .next ht1
  · exact .next (.programFault hs1)

theorem issueArch {n : ℕ} {g : Guard} {legal : Bool} {s : State} {f : Arch → ArchEff} (h : s.Canon) :
    CanonNext (issueArch n g legal s f) := by
  unfold Machine.issueArch
  refine .issue h (fun _ h1 => ?_)
  extract_lets
  split
  · exact .done (.setCell h1)
  · exact .fault

/-! ### Scalar -/

theorem scalarRR {n : ℕ} {f : F0} {legal : Bool} {s : State} {op : Word → Word → Word} (h : s.Canon) :
    CanonNext (scalarRR n f legal s op) :=
  .issueArch h

theorem execAdd {c : ℕ} {f : F0} {s : State} (h : s.Canon) : CanonNext (execAdd c f s) := .scalarRR h
theorem execSub {c : ℕ} {f : F0} {s : State} (h : s.Canon) : CanonNext (execSub c f s) := .scalarRR h
theorem execMul {c : ℕ} {f : F0} {s : State} (h : s.Canon) : CanonNext (execMul c f s) := .scalarRR h
theorem execMulh {c : ℕ} {f : F0} {s : State} (h : s.Canon) : CanonNext (execMulh c f s) := .scalarRR h
theorem execMulhu {c : ℕ} {f : F0} {s : State} (h : s.Canon) : CanonNext (execMulhu c f s) := .scalarRR h

theorem scalarDiv {n : ℕ} {f : F0} {s : State} {byZero : Word → Word} {op : Word → Word → Word} (h : s.Canon) :
    CanonNext (scalarDiv n f s byZero op) :=
  .issueArch h

theorem execDiv {c : ℕ} {f : F0} {s : State} (h : s.Canon) : CanonNext (execDiv c f s) := .scalarDiv h
theorem execDivu {c : ℕ} {f : F0} {s : State} (h : s.Canon) : CanonNext (execDivu c f s) := .scalarDiv h
theorem execRem {c : ℕ} {f : F0} {s : State} (h : s.Canon) : CanonNext (execRem c f s) := .scalarDiv h
theorem execRemu {c : ℕ} {f : F0} {s : State} (h : s.Canon) : CanonNext (execRemu c f s) := .scalarDiv h
theorem execAnd {c : ℕ} {f : F0} {s : State} (h : s.Canon) : CanonNext (execAnd c f s) := .scalarRR h
theorem execOr {c : ℕ} {f : F0} {s : State} (h : s.Canon) : CanonNext (execOr c f s) := .scalarRR h
theorem execXor {c : ℕ} {f : F0} {s : State} (h : s.Canon) : CanonNext (execXor c f s) := .scalarRR h
theorem execShl {c : ℕ} {f : F0} {s : State} (h : s.Canon) : CanonNext (execShl c f s) := .scalarRR h
theorem execShr {c : ℕ} {f : F0} {s : State} (h : s.Canon) : CanonNext (execShr c f s) := .scalarRR h
theorem execSra {c : ℕ} {f : F0} {s : State} (h : s.Canon) : CanonNext (execSra c f s) := .scalarRR h
theorem execMin {c : ℕ} {f : F0} {s : State} (h : s.Canon) : CanonNext (execMin c f s) := .scalarRR h
theorem execMax {c : ℕ} {f : F0} {s : State} (h : s.Canon) : CanonNext (execMax c f s) := .scalarRR h
theorem execCmp {c : ℕ} {f : F0} {s : State} (h : s.Canon) : CanonNext (execCmp c f s) := .issueArch h
theorem execPlog {c : ℕ} {f : F0} {s : State} (h : s.Canon) : CanonNext (execPlog c f s) := .issueArch h
theorem execCsrr {c : ℕ} {f : F0} {s : State} (h : s.Canon) : CanonNext (execCsrr c f s) := .issueArch h
theorem execCsrw {c : ℕ} {f : F0} {s : State} (h : s.Canon) : CanonNext (execCsrw c f s) := .issueArch h
theorem execRdid {c : ℕ} {f : F0} {s : State} (h : s.Canon) : CanonNext (execRdid c f s) := .issueArch h
theorem execAddi {c : ℕ} {f : F1} {s : State} (h : s.Canon) : CanonNext (execAddi c f s) := .issueArch h
theorem execLi {c : ℕ} {f : F1} {s : State} (h : s.Canon) : CanonNext (execLi c f s) := .issueArch h
theorem execLui {c : ℕ} {f : F1} {s : State} (h : s.Canon) : CanonNext (execLui c f s) := .issueArch h
theorem execCmpi {c : ℕ} {f : F1} {s : State} (h : s.Canon) : CanonNext (execCmpi c f s) := .issueArch h
theorem execAndi {c : ℕ} {f : F1} {s : State} (h : s.Canon) : CanonNext (execAndi c f s) := .issueArch h

theorem issueTouch {n : ℕ} {g : Guard} {legal : Bool} {ranges : List (ℕ × ℕ)} {s : State} {body : State → Eff}
    (h : s.Canon) (hbody : ∀ (t : State), t.Canon → CanonDone (body t)) : CanonNext (issueTouch n g legal ranges s body) :=
  .ite .refused (.issue h (fun _ h1 => hbody _ h1))

theorem issueOwn {n : ℕ} {f : F1} {legal : Bool} {align len : ℕ} {s : State} {body : ℕ → State → Eff}
    (h : s.Canon) (hbody : ∀ x (t : State), t.Canon → CanonDone (body x t)) : CanonNext (issueOwn n f legal align len s body) := by
  unfold Machine.issueOwn
  extract_lets
  refine .issueTouch h (fun _ h1 => ?_)
  split
  · exact .fault
  · exact hbody _ _ h1

theorem issueStore {n : ℕ} {f : F1} {legal : Bool} {align len : ℕ} {s : State} {body : ℕ → State → Eff}
    (h : s.Canon) (hbody : ∀ x (t : State), t.Canon → CanonDone (body x t)) : CanonNext (issueStore n f legal align len s body) :=
  .ite .refused (.issueOwn h (fun _ _ h1 => hbody _ _ h1))

theorem runLd {c : ℕ} {f : F1} {s : State} (h : s.Canon) : CanonNext (runLd c f s) := .issueOwn h (fun _ _ h1 => .done (.setCell h1))

theorem runSt {c : ℕ} {f : F1} {s : State} (h : s.Canon) : CanonNext (runSt c f s) :=
  .issueStore h (fun _ _ h1 => .done (.advancePc (.writeLocal h1)))

/-! ### Vector -/

theorem issueVec {n : ℕ} {f : F0} {legal accepted : Bool} {s : State} {k : Arch → ArchEff} (h : s.Canon) :
    CanonNext (issueVec n f legal accepted s k) :=
  .issueArch h

theorem execVadd {c : ℕ} {f : F0} {s : State} (h : s.Canon) : CanonNext (execVadd c f s) := .issueVec h
theorem execVsub {c : ℕ} {f : F0} {s : State} (h : s.Canon) : CanonNext (execVsub c f s) := .issueVec h
theorem execVmul {c : ℕ} {f : F0} {s : State} (h : s.Canon) : CanonNext (execVmul c f s) := .issueVec h
theorem execVfma {c : ℕ} {f : F0} {s : State} (h : s.Canon) : CanonNext (execVfma c f s) := .issueVec h
theorem execVfms {c : ℕ} {f : F0} {s : State} (h : s.Canon) : CanonNext (execVfms c f s) := .issueVec h
theorem execVmin {c : ℕ} {f : F0} {s : State} (h : s.Canon) : CanonNext (execVmin c f s) := .issueVec h
theorem execVmax {c : ℕ} {f : F0} {s : State} (h : s.Canon) : CanonNext (execVmax c f s) := .issueVec h
theorem execVun {c : ℕ} {f : F0} {s : State} (h : s.Canon) : CanonNext (execVun c f s) := .issueVec h

theorem vecBits {n : ℕ} {f : F0} {s : State} {op : BitVec 2048 → BitVec 2048 → BitVec 2048} (h : s.Canon) :
    CanonNext (vecBits n f s op) :=
  .issueVec h

theorem execVand {c : ℕ} {f : F0} {s : State} (h : s.Canon) : CanonNext (execVand c f s) := .vecBits h
theorem execVor {c : ℕ} {f : F0} {s : State} (h : s.Canon) : CanonNext (execVor c f s) := .vecBits h
theorem execVxor {c : ℕ} {f : F0} {s : State} (h : s.Canon) : CanonNext (execVxor c f s) := .vecBits h
theorem execVsh {c : ℕ} {f : F0} {s : State} (h : s.Canon) : CanonNext (execVsh c f s) := .issueVec h
theorem execVcmp {c : ℕ} {f : F0} {s : State} (h : s.Canon) : CanonNext (execVcmp c f s) := .issueVec h
theorem execVsel {c : ℕ} {f : F0} {s : State} (h : s.Canon) : CanonNext (execVsel c f s) := .issueVec h
theorem execVperm {c : ℕ} {f : F0} {s : State} (h : s.Canon) : CanonNext (execVperm c f s) := .issueVec h
theorem execVslide {c : ℕ} {f : F0} {s : State} (h : s.Canon) : CanonNext (execVslide c f s) := .issueVec h
theorem execVcvt {c : ℕ} {f : F0} {s : State} (h : s.Canon) : CanonNext (execVcvt c f s) := .issueVec h
theorem execVtr {c : ℕ} {f : F0} {s : State} (h : s.Canon) : CanonNext (execVtr c f s) := .issueVec h
theorem execVbcast {c : ℕ} {f : F0} {s : State} (h : s.Canon) : CanonNext (execVbcast c f s) := .issueVec h
theorem execVins {c : ℕ} {f : F0} {s : State} (h : s.Canon) : CanonNext (execVins c f s) := .issueVec h
theorem execVext {c : ℕ} {f : F0} {s : State} (h : s.Canon) : CanonNext (execVext c f s) := .issueVec h
theorem runVld {c : ℕ} {f : F1} {s : State} (h : s.Canon) : CanonNext (runVld c f s) := .issueOwn h (fun _ _ h1 => .done (.setCell h1))

theorem execVst {c : ℕ} {f : F1} {s : State} (h : s.Canon) : CanonNext (execVst c f s) :=
  .issueStore h (fun _ _ h1 => .done (.advancePc (.writeLocal h1)))

end CanonNext

/-! ### ExactAcc -/

namespace CanonDone

theorem eaDone {s : State} {n : ℕ} {rd : BitVec 5} {x flags values : ℕ} (h : s.Canon) : CanonDone (eaDone s n rd x flags values) :=
  .done (.bumpComb (.setCell h))

end CanonDone

namespace CanonNext

theorem execEaClr {c : ℕ} {f : F0} {s : State} (h : s.Canon) : CanonNext (execEaClr c f s) := .issueArch h

end CanonNext

namespace CanonDone

theorem eaAddLanes {s : State} {n : ℕ} {f : F0} {lanes : List ℕ} (h : s.Canon) : CanonDone (eaAddLanes s n f lanes) :=
  .ite .fault (.eaDone h)

end CanonDone

namespace CanonNext

theorem runEaAdd {c : ℕ} {f : F0} {s : State} (h : s.Canon) : CanonNext (runEaAdd c f s) := .issue h (fun _ h1 => .eaAddLanes h1)
theorem runEaAddm {c : ℕ} {f : F0} {s : State} (h : s.Canon) : CanonNext (runEaAddm c f s) := .issue h (fun _ h1 => .eaAddLanes h1)

end CanonNext

namespace CanonDone

theorem eaMergeInto {s : State} {n : ℕ} {rd : BitVec 5} {img : ℕ} (h : s.Canon) : CanonDone (eaMergeInto s n rd img) :=
  .ite .fault (.eaDone h)

end CanonDone

namespace CanonNext

theorem runEaMerge {c : ℕ} {f : F0} {s : State} (h : s.Canon) : CanonNext (runEaMerge c f s) := .issue h (fun _ h1 => .eaMergeInto h1)
theorem runEaRd {c : ℕ} {f : F0} {s : State} (h : s.Canon) : CanonNext (runEaRd c f s) := .issueArch h

end CanonNext

namespace CanonDone

theorem withImage {s : State} {addr : ℕ} {k : ℕ → Eff} (hk : ∀ x, CanonDone (k x)) : CanonDone (withImage s addr k) :=
  .ite .fault (hk _)

end CanonDone

namespace CanonNext

theorem runEaLdi {c : ℕ} {f : F1} {s : State} (h : s.Canon) : CanonNext (runEaLdi c f s) :=
  .issueOwn h (fun _ _ h1 => .withImage (fun _ => .ite .fault (.eaDone h1)))

theorem runEaAddi {c : ℕ} {f : F1} {s : State} (h : s.Canon) : CanonNext (runEaAddi c f s) :=
  .issueOwn h (fun _ _ h1 => .withImage (fun _ => .eaMergeInto h1))

theorem runEaSti {c : ℕ} {f : F1} {s : State} (h : s.Canon) : CanonNext (runEaSti c f s) :=
  .issueStore h (fun _ _ h1 => .done (.advancePc (.writeLocal h1)))

/-! ### Operands -/

theorem execTset {c : ℕ} {f : F0} {s : State} (h : s.Canon) : CanonNext (execTset c f s) := .issueArch h
theorem execTadv {c : ℕ} {f : F0} {s : State} (h : s.Canon) : CanonNext (execTadv c f s) := .issueArch h
theorem runLdt {c : ℕ} {f : F1} {s : State} (h : s.Canon) : CanonNext (runLdt c f s) := .issueOwn h (fun _ _ h1 => .done (.setCell h1))

theorem execStt {c : ℕ} {f : F1} {s : State} (h : s.Canon) : CanonNext (execStt c f s) :=
  .issueStore h (fun _ _ h1 => .done (.advancePc (.writeLocal h1)))

/-! ### Matrix -/

theorem runMma {c : ℕ} {f : F3} {s : State} (h : s.Canon) : CanonNext (runMma c f s) := by
  unfold Machine.runMma
  refine .issueTouch h (fun _ h1 => ?_)
  extract_lets _ _ _ _ _ _ _ s1
  have hs1 : s1.Canon := .bumpComb (.bumpCell h1)
  split
  · exact .fault
  · refine .ite (.done (.setCell hs1)) ?_
    split
    exact .done (.setCell hs1)

theorem runAccLd {c : ℕ} {f : F3} {s : State} (h : s.Canon) : CanonNext (runAccLd c f s) := by
  unfold Machine.runAccLd
  refine .issueTouch h (fun _ h1 => ?_)
  extract_lets
  refine .ite .fault (.ite (.done (.setCell h1)) ?_)
  split
  · exact .fault
  · exact .done (.setCell h1)

theorem runAccRd {c : ℕ} {f : F3} {s : State} (h : s.Canon) : CanonNext (runAccRd c f s) := by
  unfold Machine.runAccRd
  extract_lets
  refine .ite .refused (.issueTouch h (fun _ h1 => ?_))
  extract_lets
  refine .ite .fault (.ite (.done (.advancePc h1)) ?_)
  split
  · exact .fault
  · split
    · exact .fault
    · exact .done (.setCell (.foldS (fun _ _ h2 => .writeLocal h2) h1))

/-! ### Tiles -/

theorem runTm {c : ℕ} {f : F4} {s : State} (h : s.Canon) : CanonNext (runTm c f s) := by
  unfold Machine.runTm
  extract_lets
  refine .ite .refused (.issueTouch h (fun _ h1 => ?_))
  extract_lets
  refine .ite (.done (.setCell h1)) ?_
  split
  · exact .fault
  · refine .ite (.done (.advancePc (.setCell h1))) ?_
    split
    · exact .fault
    · exact .done (.advancePc (.startMove h1))

theorem execTmWait {c : ℕ} {f : F4} {s : State} (h : s.Canon) : CanonNext (execTmWait c f s) :=
  .issue h (fun _ h1 => .ite (.done (.setCell h1)) (.done (.advancePc h1)))

theorem execTileMoveComplete {c slot : ℕ} {s : State} (h : s.Canon) : CanonNext (execTileMoveComplete c slot s) := by
  unfold Machine.execTileMoveComplete
  refine .whenFormed (.whenLive (.withItem (fun _ => .whenDue ?_)))
  extract_lets s1 s2
  have hs1 : s1.Canon := .setCell h
  have hs2 : s2.Canon := by
    unfold s2
    split
    · exact .issueSig hs1
    · exact hs1
  exact .next (.resumeSlot hs2)

/-! ### SyncPort -/

theorem cellSignal {n : ℕ} {f : F5} {set : Bool} {s : State} (h : s.Canon) : CanonNext (cellSignal n f set s) := by
  unfold Machine.cellSignal
  extract_lets
  refine .ite .refused (.issue h (fun _ h1 => ?_))
  extract_lets _ _ u
  have hu : u.Canon := h1.keep rfl rfl
  split
  · exact .fault
  · exact .ite (.done (.advancePc (.issueSig h1))) (.done (.advancePc (.setCell hu)))

theorem afterSignals {n : ℕ} {f : F5} {s : State} {k : Host.Outcome State Fault Refusal} (hk : CanonNext k) :
    CanonNext (afterSignals n f s k) := by
  unfold Machine.afterSignals
  split
  · exact .ite .refused hk
  · exact hk

theorem cellWait {n : ℕ} {f : F5} {eq : Bool} {s : State} (h : s.Canon) : CanonNext (cellWait n f eq s) := by
  unfold Machine.cellWait
  refine .issue h (fun _ h1 => ?_)
  extract_lets
  split
  · exact .fault
  · exact .ite (.done (.advancePc h1)) (.ite (.done (.setCell h1)) (.done (.enterWait (.setCell h1))))

theorem execSigAdd {c : ℕ} {f : F5} {s : State} (h : s.Canon) : CanonNext (execSigAdd c f s) := .cellSignal h
theorem execSigSet {c : ℕ} {f : F5} {s : State} (h : s.Canon) : CanonNext (execSigSet c f s) := .cellSignal h
theorem execWaitGe {c : ℕ} {f : F5} {s : State} (h : s.Canon) : CanonNext (execWaitGe c f s) := .afterSignals (.cellWait h)
theorem execWaitEq {c : ℕ} {f : F5} {s : State} (h : s.Canon) : CanonNext (execWaitEq c f s) := .afterSignals (.cellWait h)

theorem execTestGe {c : ℕ} {f : F5} {s : State} (h : s.Canon) : CanonNext (execTestGe c f s) := by
  unfold Machine.execTestGe
  refine .afterSignals (.issue h (fun _ h1 => ?_))
  extract_lets
  split
  · exact .fault
  · exact .done (.setCell h1)

theorem execSread {c : ℕ} {f : F5} {s : State} (h : s.Canon) : CanonNext (execSread c f s) := by
  unfold Machine.execSread
  refine .afterSignals (.issue h (fun _ h1 => ?_))
  extract_lets
  split
  · exact .fault
  · exact .done (.setCell h1)

theorem execCellWaitPoll {c : ℕ} {s : State} (h : s.Canon) : CanonNext (execCellWaitPoll c s) := by
  unfold Machine.execCellWaitPoll
  refine .whenLive ?_
  split
  · exact .ite (.next (.resumeCell h)) (.ite (.next h) (.next (.enterWait (.setCell h))))
  · exact .refused

theorem execFenceLocal {c : ℕ} {f : F5} {s : State} (h : s.Canon) : CanonNext (execFenceLocal c f s) :=
  .issue h (fun _ h1 => .done (.advancePc (.setCell h1)))

theorem execFenceRemote {c : ℕ} {f : F5} {s : State} (h : s.Canon) : CanonNext (execFenceRemote c f s) :=
  .issue h (fun _ h1 => .done (.advancePc (.setCell h1)))

theorem issueJump {n : ℕ} {f : F2} {legal : Bool} {s : State} {k : Arch → ArchEff} (h : s.Canon) :
    CanonNext (issueJump n f legal s k) := by
  unfold Machine.issueJump
  refine .issue h (fun _ h1 => ?_)
  extract_lets
  split
  · exact .done (.setCell h1)
  · exact .fault

theorem execBr {c : ℕ} {f : F2} {s : State} (h : s.Canon) : CanonNext (execBr c f s) := .issueJump h
theorem execBrl {c : ℕ} {f : F2} {s : State} (h : s.Canon) : CanonNext (execBrl c f s) := .issueJump h
theorem execJr {c : ℕ} {f : F2} {s : State} (h : s.Canon) : CanonNext (execJr c f s) := .issueJump h
theorem execLoop {c : ℕ} {f : F2} {s : State} (h : s.Canon) : CanonNext (execLoop c f s) := .issueJump h

theorem execNop {c : ℕ} {w : NopWord} {s : State} (h : s.Canon) : CanonNext (execNop c w s) := by
  unfold Machine.execNop
  split
  · exact .issueJump h
  · exact .whenFormed (.issueJump h)

theorem execHalt {c : ℕ} {f : F2} {s : State} (h : s.Canon) : CanonNext (execHalt c f s) := .issue h (fun _ h1 => .done (.setCell h1))

/-! ### Handover -/

theorem handOver {n : ℕ} {f : F5} {isColl : Bool} {s : State} (h : s.Canon) : CanonNext (handOver n f isColl s) := by
  unfold Machine.handOver
  extract_lets
  refine .ite .refused (.issueTouch h (fun _ h1 => .ite (.done (.advancePc h1)) (.ite .fault ?_)))
  split
  · exact .fault
  · exact .done (.acceptPort (.advancePc (.setCell h1)))

theorem execForgRefusal {c : ℕ} {s : State} (h : s.Canon) : CanonNext (execForgRefusal c s) := by
  unfold Machine.execForgRefusal
  refine .whenLive (.withItem (fun _ => ?_))
  extract_lets _ s1
  have hs1 : s1.Canon := .setCell h
  exact .next (.acceptPort (.ite hs1 (.programFaultAt hs1)))

/-! ### Forager -/

theorem runClass {id cls : ℕ} {s : State} (h : s.Canon) : CanonNext (runClass id cls s) :=
  .whenLive (.withItem (fun _ => .whenDue (.withRecall h (.next (.acceptPorts (.fillQueues (.startOn (.setFdesc (.foldS (fun _ _ h1
      => .classWrite h1) (h.keep rfl rfl))))))))))

theorem execStream {id : ℕ} {s : State} (h : s.Canon) : CanonNext (execStream id s) := .runClass h
theorem execGather {id : ℕ} {s : State} (h : s.Canon) : CanonNext (execGather id s) := .runClass h
theorem execHistogram {id : ℕ} {s : State} (h : s.Canon) : CanonNext (execHistogram id s) := .runClass h
theorem execCompact {id : ℕ} {s : State} (h : s.Canon) : CanonNext (execCompact id s) := .runClass h
theorem execTranspose {id : ℕ} {s : State} (h : s.Canon) : CanonNext (execTranspose id s) := .runClass h
theorem execCopy {id : ℕ} {s : State} (h : s.Canon) : CanonNext (execCopy id s) := .runClass h
theorem execFill {id : ℕ} {s : State} (h : s.Canon) : CanonNext (execFill id s) := .runClass h

theorem execForagerDescriptorComplete {id : ℕ} {s : State} (h : s.Canon) : CanonNext (execForagerDescriptorComplete id s) := by
  unfold Machine.execForagerDescriptorComplete
  refine .whenLive (.withItem (fun _ => .ite (.whenDue (.next (.acceptPorts (.fillQueues (.endForage (.leave h)))))) (.ite (.whenDue
      (.next (.finishForage h))) (.ite (.whenFree h (.next (.acceptPorts (.fillQueues (.endForage (.leave h)))))) (.whenDue ?_)))))
  extract_lets _ _ s1
  have hs1 : s1.Canon := .ite h (.engineWrite h)
  exact .next (.ite (.setFdesc hs1) (.finishForage hs1))

/-! ### Package -/

theorem execSeamPacketArrival {frm at_ : ℕ} {inj : Option SeamPkt} {crcOk : Bool} {s : State} (h : s.Canon) :
    CanonNext (execSeamPacketArrival frm at_ inj crcOk s) := by
  unfold Machine.execSeamPacketArrival
  refine .whenFormed (.whenLive ?_)
  split
  · exact .whenDue (.next (.forward h))
  · exact .withItem (fun _ => .ite (.next (.forward (.setSeam h))) (.next h))

theorem execDroopTrip {island : ℕ} {s : State} (h : s.Canon) : CanonNext (execDroopTrip island s) :=
  .whenFormed (.whenStandby (.whenDue (.next (h.keep rfl rfl))))

theorem execDroopClear {island : ℕ} {s : State} (h : s.Canon) : CanonNext (execDroopClear island s) := by
  unfold Machine.execDroopClear
  refine .whenFormed (.whenStandby (.whenDue ?_))
  extract_lets _ t
  have ht : t.Canon := h.keep rfl rfl
  exact .next (.ite (.applyRises ht) ht)

theorem execReferenceLoss {s : State} (h : s.Canon) : CanonNext (execReferenceLoss s) :=
  .whenStandby (.whenDue (.next (.lightService (.mEvent (h.keep rfl rfl)))))

theorem execStandbyPresent {straps : BitVec 3} {s : State} (h : s.Canon) : CanonNext (execStandbyPresent straps s) :=
  .whenDue (.next (h.keep rfl rfl))

theorem execStandbyLoss {s : State} (h : s.Canon) : CanonNext (execStandbyLoss s) := by
  unfold Machine.execStandbyLoss
  refine .whenStandby ?_
  extract_lets t
  have ht : t.Canon := .standbyOff h
  exact .next (ht.keep rfl rfl)

theorem execZeroFillComplete {s : State} (h : s.Canon) : CanonNext (execZeroFillComplete s) := by
  unfold Machine.execZeroFillComplete
  refine .whenLive (.whenDue ?_)
  extract_lets _ t x t1
  have ht : t.Canon := .foldS (fun _ _ h1 => .zeroSlice h1) h
  have hx : x.Canon := .zeroRange ht
  have ht1 : t1.Canon := .ite (hx.keep rfl rfl) ht
  exact .next (ht1.keep rfl rfl)

theorem execBankStarvation {cell off : ℕ} {w : BankWait} {s : State} (h : s.Canon) : CanonNext (execBankStarvation cell off w s) :=
    by
  unfold Machine.execBankStarvation
  refine .whenFormed (.whenLive ?_)
  extract_lets _ _ _ t
  have ht : t.Canon := .bumpComb (.bumpCell h)
  exact .next (ht.keep rfl rfl)

/-! ### Cells -/

theorem execCellFailed {phys : ℕ} {s : State} (h : s.Canon) : CanonNext (execCellFailed phys s) := by
  unfold Machine.execCellFailed
  refine .whenFormed (.whenLive (.whenDue ?_))
  split
  · exact .next (.retireCell h)
  · exact .next (.setPhys h)

theorem execGuestSwitch {host : ℕ} {s : State} (h : s.Canon) : CanonNext (execGuestSwitch host s) := by
  unfold Machine.execGuestSwitch
  refine .whenFormed (.whenLive (.withItem (fun _ => ?_)))
  split
  refine .whenDue ?_
  extract_lets s1 _ s2
  have hs1 : s1.Canon := .switchTo h
  have hs2 : s2.Canon := hs1.keep rfl rfl
  exact .next (.bumpComb (.trace hs2))

theorem execGuestSwitchComplete {e : AreaEnd} {s : State} (h : s.Canon) : CanonNext (execGuestSwitchComplete e s) := by
  unfold Machine.execGuestSwitchComplete
  extract_lets _ _ _ s1
  have hs1 : s1.Canon := h.keep rfl rfl
  exact .whenFormed (.whenLive (.withItem (fun _ => .whenDue (.ite (.next (.saveFails (.switchTo hs1))) (.ite (.whenFree h (.next
      (.loseWords h))) (.ite (.next (.retireCell (.spoilRecord (.bumpPart (.bump (.setCell h)))))) (.ite (.next (.exchange h))
      (.next (.saveFails (.switchTo (.saveNow hs1)))))))))))

theorem execSaveAreaMoveComplete {e : AreaEnd} {s : State} (h : s.Canon) : CanonNext (execSaveAreaMoveComplete e s) := by
  unfold Machine.execSaveAreaMoveComplete
  extract_lets
  refine .whenFormed (.whenLive (.withItem (fun _ => .whenDue ?_)))
  extract_lets s1
  have hs1 : s1.Canon := h.keep rfl rfl
  exact .next (.ite (.foldS (fun _ _ h1 => .savePoke h1) hs1) (.foldS (fun _ _ h1 => .saveFails h1) hs1))

/-! ### CloseMemory -/

theorem execCloseMemoryRequest {addr : ℕ} {wr : Option (List Byte)} {len : ℕ} {errs : List (ℕ × Byte)} {cmd : Option ℕ} {s : State}
    (h : s.Canon) : CanonNext (execCloseMemoryRequest addr wr len errs cmd s) := by
  unfold Machine.execCloseMemoryRequest
  refine .whenFormed (.whenLive (.ite ?_ ?_))
  · split
    · exact .next (.quenchCmd h)
    · exact .fault
  · generalize s.lineOf addr = x
    obtain ⟨d, l⟩ := x
    refine .whenRoused h (.whenDue (.whenFree h (.withRecall h ?_)))
    extract_lets _ _ found s1 s2 s3
    have hs1 : s1.Canon := .ite (.bumpPart (.bumpFrg h)) h
    clear_value s1
    have hs2 : s2.Canon := by
      unfold s2
      clear_value s2 found
      cases found with
      | clean b => exact .pokeMem hs1
      | corrected b => exact .countCorrected (.pokeMem hs1)
      | lost => exact hs1
    clear_value s2
    have hs3 : s3.Canon := by
      unfold s3
      split
      · exact .bumpPart (.bumpFrg (.writeLocal hs2))
      · exact hs2
    refine .next ?_
    clear_value found
    split
    · exact .spareHandled (.loseLine hs3)
    · exact hs3

theorem execScrub {dev line : ℕ} {errs : List (ℕ × Byte)} {flips : Word} {s : State} (h : s.Canon) :
    CanonNext (execScrub dev line errs flips s) := by
  unfold Machine.execScrub
  refine .whenFormed (.whenLive (.whenRoused h (.whenDue ?_)))
  extract_lets s1 _ s11 _ s2
  have hs1 : s1.Canon := .flipStamp h
  have hs11 : s11.Canon := .setDev hs1
  have hs2 : s2.Canon := .bumpPart (.bumpFrg hs11)
  refine .ite (.next (.spareHandled (.foldS (fun _ _ h1 => .loseLine h1) hs2))) (.ite (.next hs2) (.next ?_))
  split
  · exact hs2
  · exact .countCorrected hs2
  · exact .spareHandled (.loseLine hs2)

theorem execDeviceRetire {dev : ℕ} {cause : DevCause} {s : State} (h : s.Canon) : CanonNext (execDeviceRetire dev cause s) :=
  .whenFormed (.whenLive (.whenDue (.next (.retireDevice h))))

/-! ### Commands -/

theorem moveReads {c : Cmd} {a b n : ℕ} {s : State} {k : State → Host.Outcome State Fault Refusal}
    (h : s.Canon) (hk : ∀ (t : State), t.Canon → CanonNext (k t)) : CanonNext (moveReads c a b n s k) :=
  .ite (.whenFree h (.next (.passEnded (.abortCmd h)))) (.ite (.next h) (.ite (hk _ (.bump h)) (.whenFree h (.next (.passEnded
      (.loseWords h))))))

theorem withDesc {c : Cmd} {s : State} {k : State → Cmd → List Byte → Host.Outcome State Fault Refusal}
    (h : s.Canon) (hk : ∀ (t : State) x y, t.Canon → CanonNext (k t x y)) : CanonNext (withDesc c s k) := by
  unfold Machine.withDesc
  extract_lets _ _ go
  have hgo : ∀ (s : State), s.Canon → CanonNext (go s) := fun _ h1 => .ite (.withItem (fun _ => .ite (hk _ _ _ h1) (.next
      (.passEnded h1)))) (.whenDue (.next h1))
  exact .ite (hgo _ h) (.moveReads h (fun _ h1 => hgo _ (.fetchAt (.setCmd h1))))

theorem checkedCmd {c : Cmd} {s : State} {k : State → Cmd → Host.Outcome State Fault Refusal}
    (h : s.Canon) (hk : ∀ (t : State) x, t.Canon → CanonNext (k t x)) : CanonNext (checkedCmd c s k) := by
  unfold Machine.checkedCmd
  extract_lets
  split
  · exact .next (.refuseCmd h)
  · refine .ite ?_ ?_
    · refine .withDesc h (fun _ _ _ h1 => ?_)
      split
      · exact .next (.refuseCmd h1)
      · exact .next (.refuseCmd h1)
      · exact .next (.refuseCmd h1)
      · exact hk _ _ h1
    · split
      · exact .next (.refuseCmd h)
      · exact hk _ _ h

theorem execCommandStart {id : ℕ} {s : State} (h : s.Canon) : CanonNext (execCommandStart id s) := by
  unfold Machine.execCommandStart
  refine .whenLive (.withItem (fun _ => .whenDue (.ite (.whenDue (.checkedCmd h (fun _ _ h1 => ?_))) (.whenFree h (.ite (.whenFree h
      (.next (.refuseCmd h))) (.whenFree h (.next (.begin h))))))))
  extract_lets s1
  have hs1 : s1.Canon := .enterWaits h1
  exact .ite (.next (.setCmd (.undrip hs1))) (.ite (.whenFree h1 (.next (.refuseCmd h1))) (.whenFree h1 (.next (.begin hs1))))

theorem classEffect {id cls : ℕ} {s : State} {k : Cmd → Host.Outcome State Fault Refusal} (hk : ∀ x, CanonNext (k x)) :
    CanonNext (classEffect id cls s k) :=
  .whenLive (.withItem (fun _ => .whenDue (hk _)))

theorem execKernel {id : ℕ} {s : State} (h : s.Canon) : CanonNext (execKernel id s) :=
  .classEffect (fun _ => .whenDue (.ite (.next (.setCmd h)) (.whenFree h (.moveReads h (fun _ h1 => .next (.foldS (fun _ _ h2 =>
      .fetchAt h2) (.retuneAll (.setCmd h1))))))))

theorem execKernelImageLoaded {id : ℕ} {s : State} (h : s.Canon) : CanonNext (execKernelImageLoaded id s) := by
  unfold Machine.execKernelImageLoaded
  refine .classEffect (fun _ => .whenDue ?_)
  extract_lets _ load
  have hload : ∀ (s : State) (b : ℕ), s.Canon → (load s b).Canon := fun _ _ h1 => .foldS (fun _ _ h2 => .startCell h2) h1
  exact .next (.foldS (fun _ _ h1 => hload _ _ h1) (.setCmd h))

theorem execMove {id piece : ℕ} {s : State} (h : s.Canon) : CanonNext (execMove id piece s) := by
  unfold Machine.execMove
  refine .classEffect (fun _ => .whenDue ?_)
  extract_lets
  refine .moveReads h (fun _ h1 => ?_)
  extract_lets _ _ s1 s2
  have hs1 : s1.Canon := .setCmd h1
  have hs2 : s2.Canon := by
    unfold s2
    split
    · exact .transfer hs1
    · exact .setCmd hs1
  exact .whenFree h1 (.next (.bumpComb hs2))

theorem execForage {id : ℕ} {s : State} (h : s.Canon) : CanonNext (execForage id s) := by
  unfold Machine.execForage
  refine .classEffect (fun _ => .whenDue (.ite (.next (.setCmd h)) (.withDesc h (fun _ _ _ h1 => .whenFree h1 ?_))))
  split
  · exact .next (.setCmd h1)
  · exact .next (.acceptForage (.setCmd h1))

theorem execCollect {id : ℕ} {s : State} (h : s.Canon) : CanonNext (execCollect id s) := by
  unfold Machine.execCollect
  refine .classEffect (fun _ => .whenDue (.ite (.next (.setCmd h)) (.whenFree h (.withDesc h (fun _ _ _ h1 => ?_)))))
  split
  · exact .next (.setCmd h1)
  · exact .next (.acceptColl (.setCmd h1))

theorem execSync {id : ℕ} {s : State} (h : s.Canon) : CanonNext (execSync id s) := .classEffect (fun _ => .whenDue (.next (.setCmd h)))

theorem execFence {id : ℕ} {s : State} (h : s.Canon) : CanonNext (execFence id s) :=
  .classEffect (fun _ => .whenDue (.whenFree h (.next (.setCmd h))))

theorem execEpoch {id : ℕ} {s : State} (h : s.Canon) : CanonNext (execEpoch id s) :=
  .classEffect (fun _ => .whenDue (.next (.requestBoundary (.setCmd h))))

theorem powerField {id action lsb width : ℕ} {s : State} (h : s.Canon) : CanonNext (powerField id action lsb width s) :=
  .classEffect (fun _ => .whenDue (.next (.setCmd (.setBarF h))))

theorem execPowerWakeTolerance {id : ℕ} {s : State} (h : s.Canon) : CanonNext (execPowerWakeTolerance id s) := .powerField h
theorem execPowerDefaultOpp {id : ℕ} {s : State} (h : s.Canon) : CanonNext (execPowerDefaultOpp id s) := .powerField h

theorem execNopCommand {id : ℕ} {s : State} (h : s.Canon) : CanonNext (execNopCommand id s) :=
  .classEffect (fun _ => .whenDue (.next (.setCmd h)))

theorem recordCmd {s : State} {c : Cmd} (h : s.Canon) : CanonNext (s.recordCmd c) := by
  unfold State.recordCmd
  refine .ite (.whenFree h ?_) (.whenFree h (.next (.finishCmd h)))
  extract_lets s1
  have hs1 : s1.Canon := .appendEffect (.writeCrec h)
  exact .ite (.next hs1) (.withItem (fun _ => .next (.finishCmd hs1)))

theorem execCommandComplete {id : ℕ} {s : State} (h : s.Canon) : CanonNext (execCommandComplete id s) := by
  unfold Machine.execCommandComplete
  refine .whenLive (.withItem (fun _ => .whenDue (.ite ?_ (.recordCmd h))))
  extract_lets _ s1
  have hs1 : s1.Canon := .setCmd h
  exact .ite (.next (.issueSignals hs1)) (.recordCmd hs1)

theorem execVoltageSettled {die : ℕ} {s : State} (h : s.Canon) : CanonNext (execVoltageSettled die s) := by
  unfold Machine.execVoltageSettled
  extract_lets top
  clear_value top
  exact .whenFormed (.whenLive (.whenDue (.next (.applyRises (h.keep rfl rfl)))))

/-! ### HostLink -/

theorem execSyncObjectUpdate {sig : ℕ} {s : State} (h : s.Canon) : CanonNext (execSyncObjectUpdate sig s) :=
  .whenLive (.withItem (fun _ => .whenFree h (.next (.applySig (h.keep rfl rfl)))))

theorem execWaitRetest {id : ℕ} {s : State} (h : s.Canon) : CanonNext (execWaitRetest id s) :=
  .whenLive (.whenDue (.next (.foldS (fun _ _ h1 => .enterWait h1) (h.keep rfl rfl))))

theorem peerServed {s : State} {fn off : ℕ} {data : Option (List Byte)} (h : s.Canon) : CanonNext (s.peerServed fn off data) := by
  unfold State.peerServed
  refine .ite (.next h) (.whenAwake h (.withRecall h (.next ?_)))
  split
  · exact .answerRead h
  · exact .hostWrite h

theorem execHostMemRead {fn : ℕ} {a : HdmAccess} {s : State} (h : s.Canon) : CanonNext (execHostMemRead fn a s) :=
  .whenFormed (.whenLive (.whenDue (.whenFree h (.ite (.peerServed h) (.next (.ite (.holdHost h) (.hostRead h)))))))

theorem execHostMemWrite {fn : ℕ} {a : HdmAccess} {data : List Byte} {s : State} (h : s.Canon) :
    CanonNext (execHostMemWrite fn a data s) :=
  .whenFormed (.whenLive (.whenDue (.whenFree h (.ite (.peerServed h) (.next (.ite (.holdHost h) (.hostWrite h)))))))

theorem execHostLinkDown {s : State} (h : s.Canon) : CanonNext (execHostLinkDown s) := .whenLive (.whenDue (.next (h.keep rfl rfl)))

theorem execHostLinkLost {s : State} (h : s.Canon) : CanonNext (execHostLinkLost s) :=
  .whenLive (.whenDue (.next (.escalateAll (h.keep rfl rfl))))

theorem execHostLinkUp {flit256 : Bool} {s : State} (h : s.Canon) : CanonNext (execHostLinkUp flit256 s) :=
  .whenLive (.whenDue (.next (.ite (h.keep rfl rfl) (.mEvent h))))

theorem execPerstAssert {s : State} (h : s.Canon) : CanonNext (execPerstAssert s) := .whenStandby (.whenDue (.next (h.keep rfl rfl)))

theorem execPerstDeassert {s : State} (h : s.Canon) : CanonNext (execPerstDeassert s) :=
  .whenStandby (.whenDue (.next (h.keep rfl rfl)))

/-! ### Power -/

theorem execBrakeAssert {s : State} (h : s.Canon) : CanonNext (execBrakeAssert s) := by
  unfold Machine.execBrakeAssert
  refine .whenStandby (.whenDue ?_)
  extract_lets _ _ s1
  have hs1 : s1.Canon := h.keep rfl rfl
  exact .next (.ite (.brakeActions (.protect hs1 (fun _ h1 => h1.keep rfl rfl))) hs1)

theorem execBrakeRelease {s : State} (h : s.Canon) : CanonNext (execBrakeRelease s) := by
  unfold Machine.execBrakeRelease
  refine .whenStandby (.whenDue ?_)
  extract_lets _ s1
  have hs1 : s1.Canon := h.keep rfl rfl
  exact .next (.ite (.endBrake hs1) hs1)

theorem execVinUndervoltage {s : State} (h : s.Canon) : CanonNext (execVinUndervoltage s) :=
  .whenLive (.whenDue (.next (.brakeActions (.protect h (fun _ h1 => h1.keep rfl rfl)))))

theorem execVinRecover {s : State} (h : s.Canon) : CanonNext (execVinRecover s) :=
  .whenLive (.whenDue (.next (.protect h (fun _ h1 => h1.keep rfl rfl))))

theorem execOffDrainTimeout {s : State} (h : s.Canon) : CanonNext (execOffDrainTimeout s) := .whenLive (.whenDue (.next (.quenchAll h)))

theorem execMainDomainShutdown {s : State} (h : s.Canon) : CanonNext (execMainDomainShutdown s) :=
  .whenLive (.whenDue (.next (.ite (.storeCounts (.railsOff h)) (.storeCounts (.mainOff h)))))

theorem execPwrEnRelease {s : State} (h : s.Canon) : CanonNext (execPwrEnRelease s) := by
  unfold Machine.execPwrEnRelease
  refine .whenStandby (.whenDue ?_)
  extract_lets _ s1 _ t
  have hs1 : s1.Canon := h.keep rfl rfl
  have ht : t.Canon := .mainOff hs1
  exact .next (.ite (.beginOff hs1) (.ite (hs1.keep rfl rfl) (.ite (.mainOff hs1) (.ite (ht.keep rfl rfl) (hs1.keep rfl rfl)))))

theorem execIdleDepthEntry {part idleUs : ℕ} {s : State} (h : s.Canon) : CanonNext (execIdleDepthEntry part idleUs s) :=
  .whenFormed (.whenLive (.whenDue (.next (h.keep rfl rfl))))

theorem execWake {part : ℕ} {s : State} (h : s.Canon) : CanonNext (execWake part s) :=
  .whenFormed (.whenLive (.whenDue (.next (.wake h))))

theorem execWakeComplete {part : ℕ} {s : State} (h : s.Canon) : CanonNext (execWakeComplete part s) :=
  .whenFormed (.whenLive (.whenDue (.next (.serveWaiting (h.keep rfl rfl)))))

/-! ### Governor -/

theorem execPowerSample {r : PowerReading} {s : State} (h : s.Canon) : CanonNext (execPowerSample r s) :=
  .whenFormed (.whenLive (.next (h.keep rfl rfl)))

theorem execGovernorLoop {m : LoopFinds} {s : State} (h : s.Canon) : CanonNext (execGovernorLoop m s) := by
  unfold Machine.execGovernorLoop
  refine .whenLive (.whenDue ?_)
  extract_lets s0 s1 s2 s3
  have hs0 : s0.Canon := .lowerRails h
  have hs1 : s1.Canon := .ite (.endFast hs0) hs0
  have hs2 : s2.Canon := .ite (.endBrake hs1) hs1
  have hs3 : s3.Canon := .learn (.foldS (fun _ _ h1 => .thermLoop h1) hs2)
  exact .next (.ite hs3 (.retuneAll (.setControls hs3)))

/-! ### Thermal -/

theorem execSensorSample {dies : List Reading} {inlet outlet : Reading} {s : State} (h : s.Canon) :
    CanonNext (execSensorSample dies inlet outlet s) := by
  unfold Machine.execSensorSample
  refine .whenFormed (.whenStandby ?_)
  extract_lets s1 rd
  have hs1 : s1.Canon := .readCoolant h
  have hrd : ∀ (t : State), t.Canon → (rd t).Canon := fun _ h1 => .readDies h1
  refine .next (.ite hs1 ?_)
  split
  · exact .coastSensor (.coastSensor hs1 (fun _ h1 => hrd _ h1)) (fun _ h1 => h1)
  · exact hrd _ hs1
  · exact .coastSensor hs1 (fun _ h1 => hrd _ h1)

theorem execSensorRetrust {sensor : ℕ} {s : State} (h : s.Canon) : CanonNext (execSensorRetrust sensor s) :=
  .whenFormed (.whenLive (.whenDue (.next (.setSensor h))))

theorem execCoolFaultAssert {s : State} (h : s.Canon) : CanonNext (execCoolFaultAssert s) := by
  unfold Machine.execCoolFaultAssert
  refine .whenStandby (.whenDue ?_)
  extract_lets _ s1
  have hs1 : s1.Canon := h.keep rfl rfl
  exact .next (.ite (.setCoast hs1) hs1)

theorem execCoolFaultDeassert {s : State} (h : s.Canon) : CanonNext (execCoolFaultDeassert s) :=
  .whenStandby (.whenDue (.next (h.keep rfl rfl)))

theorem execRiseLimitExceeded {s : State} (h : s.Canon) : CanonNext (execRiseLimitExceeded s) :=
  .whenLive (.whenDue (.next (.setCoast (h.keep rfl rfl))))

theorem execCoastClear {s : State} (h : s.Canon) : CanonNext (execCoastClear s) :=
  .whenLive (.whenDue (.next (.protect h (fun _ h1 => h1.keep rfl rfl))))

theorem execInletOverLimit {s : State} (h : s.Canon) : CanonNext (execInletOverLimit s) := by
  unfold Machine.execInletOverLimit
  refine .whenLive ?_
  extract_lets _ _ s0 x _ s1
  have hs0 : s0.Canon := .reportOff h
  have hx : x.Canon := .powerReport hs0
  have hs1 : s1.Canon := .ite h (.drain (hx.keep rfl rfl))
  exact .whenDue (.next (.ite (.quenchAll hs1) hs1))

theorem execLeakDetected {s : State} (h : s.Canon) : CanonNext (execLeakDetected s) := by
  unfold Machine.execLeakDetected
  refine .whenStandby (.whenDue ?_)
  extract_lets _ s1
  have hs1 : s1.Canon := .lightService (.mEvent (h.keep rfl rfl))
  exact .next (.ite (.quenchAll (.drain (.powerReport hs1))) hs1)

theorem execLeakSelfTest {isOpen : Bool} {s : State} (h : s.Canon) : CanonNext (execLeakSelfTest isOpen s) := by
  unfold Machine.execLeakSelfTest
  refine .whenStandby (.next (.ite (.lightService (.mEvent (.setGuarded (h.keep rfl rfl)))) ?_))
  extract_lets _ s1
  have hs1 : s1.Canon := .endService (h.keep rfl rfl)
  exact .ite (.setGuarded hs1) hs1

theorem execRegulatorPhaseRetire {phase : ℕ} {s : State} (h : s.Canon) : CanonNext (execRegulatorPhaseRetire phase s) :=
  .whenFormed (.whenLive (.whenDue (.next (.reportPhase h))))

theorem execVinIsolate {s : State} (h : s.Canon) : CanonNext (execVinIsolate s) := by
  unfold Machine.execVinIsolate
  refine .whenStandby (.whenDue ?_)
  extract_lets t
  have ht : t.Canon := .mainOff h
  exact .next (.lightService (.mEvent (ht.keep rfl rfl)))

/-! ### Contact -/

theorem execSilentHoldEnter {s : State} (h : s.Canon) : CanonNext (execSilentHoldEnter s) :=
  .whenStandby (.whenDue (.next (.setHold h)))

theorem execDemandClear {fn : ℕ} {s : State} (h : s.Canon) : CanonNext (execDemandClear fn s) :=
  .whenFormed (.whenLive (.whenDue (.next (.ite (.clearDemand (.hostContact h)) (.hostContact h)))))

/-! ### Far -/

theorem execFarCompletion {tag : ℕ} {out : FarOutcome} {s : State} (h : s.Canon) : CanonNext (execFarCompletion tag out s) := by
  unfold Machine.execFarCompletion
  refine .whenLive ?_
  extract_lets s1 s11
  have hs1 : s1.Canon := .sendFar h
  have hs11 : s11.Canon := .dropFar hs1
  refine .withItem (fun _ => .whenDue ?_)
  split
  · extract_lets s2
    have hs2 : s2.Canon := .countFar hs11
    exact .next (.ite (.idleLines (.pokeExt hs2)) (.comeTo hs2))
  · exact .next (.idleLines (.failOwner (.escalate hs11)))
  · exact .whenDue (.next (.poisoned hs1))

theorem execFarTimeout {tag : ℕ} {s : State} (h : s.Canon) : CanonNext (execFarTimeout tag s) := by
  unfold Machine.execFarTimeout
  refine .whenLive ?_
  extract_lets s1
  have hs1 : s1.Canon := .sendFar h
  exact .withItem (fun _ => .whenDue (.ite (.next (.idleLines (.failOwner (.escalate (.dropFar hs1))))) (.next (hs1.keep rfl rfl))))

theorem execWindowDrainComplete {host : Bool} {window : ℕ} {s : State} (h : s.Canon) :
    CanonNext (execWindowDrainComplete host window s) :=
  .whenFormed (.whenLive (.withItem (fun _ => .whenDue (.next (h.keep rfl rfl)))))

/-! ### Commit -/

theorem execCfgCommit {fn : ℕ} {s : State} (h : s.Canon) : CanonNext (execCfgCommit fn s) :=
  .whenFormed (.whenLive (.whenDue (.next (.requestCommit (.hostContact h)))))

theorem execCommitComplete {fn : ℕ} {s : State} (h : s.Canon) : CanonNext (execCommitComplete fn s) := by
  unfold Machine.execCommitComplete
  refine .whenFormed (.whenLive (.whenDue ?_))
  extract_lets s1 _ s11
  have hs1 : s1.Canon := .setRings h
  have hs11 : s11.Canon := .setCommit hs1
  exact .next (.ite (.requestCommit hs11) hs11)

/-! ### Ports -/

theorem execPortTrained {port : ℕ} {phys : BitVec 12} {pport : BitVec 5} {serial : Word} {s : State} (h : s.Canon) :
    CanonNext (execPortTrained port phys pport serial s) := by
  unfold Machine.execPortTrained
  refine .whenFormed (.whenLive (.whenDue ?_))
  extract_lets _ s1
  have hs1 : s1.Canon := .setPort h
  exact .next (.ite (.comparePort hs1) hs1)

theorem execLaneRetire {port lane : ℕ} {s : State} (h : s.Canon) : CanonNext (execLaneRetire port lane s) :=
  .whenFormed (.whenLive (.whenDue (.next (.retireLane h))))

theorem execLinkRetrain {port : ℕ} {s : State} (h : s.Canon) : CanonNext (execLinkRetrain port s) :=
  .whenFormed (.whenLive (.whenDue (.next (.setPort h))))

theorem execPortFailed {port : ℕ} {s : State} (h : s.Canon) : CanonNext (execPortFailed port s) :=
  .whenFormed (.whenLive (.whenDue (.next (.failPort h))))

theorem execFlitReceive {port : ℕ} {f : Flit} {s : State} (h : s.Canon) : CanonNext (execFlitReceive port f s) :=
  .whenFormed (.whenLive (.whenDue (.ite (.next (.bump (.setPort h))) (.ite (.next (.acceptFlit h)) (.next (.setPort h))))))

theorem execReplayTimeout {port : ℕ} {s : State} (h : s.Canon) : CanonNext (execReplayTimeout port s) :=
  .whenFormed (.whenLive (.whenDue (.next (.bump (.setPort h)))))

theorem execIdleFlit {port : ℕ} {s : State} (h : s.Canon) : CanonNext (execIdleFlit port s) :=
  .whenFormed (.whenLive (.whenDue (.next (.setPort h))))

/-! ### Routing -/

theorem execPacketRoute {frm : Option ℕ} {p : Packet} {residence : ℕ} {s : State} (h : s.Canon) :
    CanonNext (execPacketRoute frm p residence s) := by
  unfold Machine.execPacketRoute
  refine .whenFormed (.whenLive ?_)
  split
  · exact .whenDue (.next (.decide_ (h.keep rfl rfl)))
  · refine .ite (.next (.decide_ h)) (.whenDue ?_)
    extract_lets s1
    have hs1 : s1.Canon := .arrive h
    exact .next (.ite (.decide_ hs1) hs1)

theorem execDecideAgain {i residence : ℕ} {s : State} (h : s.Canon) : CanonNext (execDecideAgain i residence s) :=
  .whenLive (.withItem (fun _ => .whenDue (.next (.decide_ h))))

theorem execAgeDiscard {i : ℕ} {s : State} (h : s.Canon) : CanonNext (execAgeDiscard i s) :=
  .whenLive (.withItem (fun _ => .next (.ageOut h)))

theorem execRetransmitTimeout {cls : BitVec 3} {dstLog : BitVec 12} {seq : BitVec 16} {s : State} (h : s.Canon) :
    CanonNext (execRetransmitTimeout cls dstLog seq s) := by
  unfold Machine.execRetransmitTimeout
  refine .whenLive (.withItem (fun _ => .whenDue ?_))
  extract_lets s1
  have hs1 : s1.Canon := .bump h
  exact .next (hs1.keep rfl rfl)

end CanonNext

end Sys2Proof.Machine

/-!
PROOFS. The commands keep memory in its canonical form, in the order of the model: second part.
The lemma about a command has the name of its row; a proof names the states between and follows the branches of the definition.
-/

namespace Sys2Proof.Machine

/-! ### Receive -/

namespace CanonNext

theorem consume {type : ℕ} {p : Packet} {s : State} {k : State → Host.Outcome State Fault Refusal}
    (h : s.Canon) (hk : ∀ (t : State), t.Canon → CanonNext (k t)) : CanonNext (consume type p s k) :=
  .whenLive (.whenDue (.ite (.next (.checked h (fun _ h1 => h1))) (.ite (hk _ h) (.next (.wake (.park h))))))

theorem whenPerformed {c : Bool} {p : Packet} {s : State} {k : Host.Outcome State Fault Refusal} (h : s.Canon) (hk : CanonNext k) :
    CanonNext (whenPerformed c p s k) :=
  .ite hk (.next (.park h))

theorem execWrite {p : Packet} {s : State} (h : s.Canon) : CanonNext (execWrite p s) :=
  .consume h (fun _ h1 => .whenPerformed h1 (.ite (.next (.invalidate (.park h1))) (.next (.checked h1 (fun _ h2 => .sequence h2
      (fun _ h3 => .performWrite h3) (fun _ h3 => .ackPkt h3))))))

theorem execRead {p : Packet} {s : State} (h : s.Canon) : CanonNext (execRead p s) := by
  unfold Machine.execRead
  refine .consume h (fun _ h1 => ?_)
  extract_lets again
  have hagain : ∀ (t : State), t.Canon → (again t).Canon := by
    intro _ h2
    unfold again
    split
    next u1 v1 found =>
      have hu1 : u1.Canon := .of_fst found (.performRead h2)
      exact .answer hu1
  exact .whenPerformed h1 (.ite (.next (.invalidate (.park h1))) (.next (.checked h1 (fun _ h2 => .sequence h2 (fun _ h3 =>
      .performRead h3) (fun _ h3 => hagain _ h3)))))

theorem execRdata {p : Packet} {s : State} (h : s.Canon) : CanonNext (execRdata p s) := by
  unfold Machine.execRdata
  refine .consume h (fun _ h1 => .next (.checked h1 (fun _ h2 => ?_)))
  split
  · exact .bump h2
  · refine .ite (.bump h2) ?_
    extract_lets s1
    have hs1 : s1.Canon := .endRead h2
    exact .ite (.bump hs1) (.comeTo hs1)

theorem remoteSig {set : Bool} {type : ℕ} {p : Packet} {s : State} (h : s.Canon) : CanonNext (remoteSig set type p s) :=
  .consume h (fun _ h1 => .whenPerformed h1 (.next (.checked h1 (fun _ h2 => .sequence h2 (fun _ h3 => .performSig h3) (fun _ h3 =>
      .ite h3 (.ackPkt h3))))))

theorem execSigaddPkt {p : Packet} {s : State} (h : s.Canon) : CanonNext (execSigaddPkt p s) := .remoteSig h
theorem execSigsetPkt {p : Packet} {s : State} (h : s.Canon) : CanonNext (execSigsetPkt p s) := .remoteSig h

theorem execMgmt {p : Packet} {s : State} (h : s.Canon) : CanonNext (execMgmt p s) :=
  .consume h (fun _ h1 => .next (.checked h1 (fun _ h2 => .sequence h2 (fun _ h3 => .mk h3) (fun _ h3 => .ackPkt h3))))

/-! ### CollRun -/

theorem execBackInvalidateComplete {a : LineAnswer} {s : State} (h : s.Canon) : CanonNext (execBackInvalidateComplete a s) :=
  .whenFormed (.whenLive (.whenDue (.whenFree h (.next (.driveAll (.foldS (fun _ _ h1 => .afterBi h1) (.hostReturns (h.keep rfl
      rfl))))))))

/-! ### Collect -/

theorem collReads {c : Coll} {s : State} {k : State → Host.Outcome State Fault Refusal}
    (h : s.Canon) (hk : ∀ (t : State), t.Canon → CanonNext (k t)) : CanonNext (collReads c s k) :=
  .ite (.whenFree h (.next (.foldS (fun _ _ h1 => .abortCmd h1) h))) (.ite (.next h) (.withRecall h (.ite (hk _ (.bump h))
      (.whenFree h (.next (.loseWords h))))))

theorem startOp {op id : ℕ} {s : State} (h : s.Canon) : CanonNext (startOp op id s) :=
  .whenLive (.withItem (fun _ => .whenDue (.whenFree h (.ite (.next (.setColl h)) (.whenFree h (.collReads h (fun _ h1 => .next
      (.startColl h1))))))))

theorem execAllreduce {id : ℕ} {s : State} (h : s.Canon) : CanonNext (execAllreduce id s) := .startOp h
theorem execReduceScatter {id : ℕ} {s : State} (h : s.Canon) : CanonNext (execReduceScatter id s) := .startOp h
theorem execAllgather {id : ℕ} {s : State} (h : s.Canon) : CanonNext (execAllgather id s) := .startOp h
theorem execBroadcast {id : ℕ} {s : State} (h : s.Canon) : CanonNext (execBroadcast id s) := .startOp h
theorem execBarrier {id : ℕ} {s : State} (h : s.Canon) : CanonNext (execBarrier id s) := .startOp h
theorem execAllToAll {id : ℕ} {s : State} (h : s.Canon) : CanonNext (execAllToAll id s) := .startOp h

theorem consumeColl {type cls : ℕ} {p : Packet} {s : State} {ok : Bool} {k : State → State}
    (h : s.Canon) (hk : ∀ (t : State), t.Canon → (k t).Canon) : CanonNext (consumeColl type cls p s ok k) :=
  .consume h (fun _ h1 => .next (.checked h1 (fun _ h2 => .sequence h2 (fun _ h3 => .ite (.mk h3) (.ite (.mk (.bump h3)) (.mk (hk _
      h3)))) (fun _ h3 => .ackPkt h3))))

theorem execWaggle {g : CollPacket} {s : State} (h : s.Canon) : CanonNext (execWaggle g s) := by
  unfold Machine.execWaggle
  extract_lets
  refine .consumeColl h (fun _ h1 => ?_)
  extract_lets _ keep
  have hkeep : keep.Canon := .setWentry h1
  split
  · exact .ite (.disagree h1) (.ite h1 (.driveChecked (.setColl hkeep)))
  · exact .ite hkeep h1

theorem execGrant {p : Packet} {s : State} (h : s.Canon) : CanonNext (execGrant p s) := by
  unfold Machine.execGrant
  refine .consumeColl h (fun _ h1 => ?_)
  extract_lets
  split
  · exact h1
  · extract_lets _ keep
    have hkeep : keep.Canon := h1.keep rfl rfl
    split
    · exact .ite (.disagree h1) (.drive (.setColl hkeep))
    · exact .ite hkeep h1

theorem execColdata {g : CollPacket} {s : State} (h : s.Canon) : CanonNext (execColdata g s) := by
  unfold Machine.execColdata
  extract_lets
  refine .consumeColl h (fun _ h1 => ?_)
  split
  · exact h1
  · split
    exact .ite h1 (.driveAll (.driveChecked (.ite (.setColl h1) (.collWrite (.setColl h1)))))

theorem execCollectiveComplete {id : ℕ} {s : State} (h : s.Canon) : CanonNext (execCollectiveComplete id s) := by
  unfold Machine.execCollectiveComplete
  refine .whenLive (.withItem (fun _ => .whenDue ?_))
  extract_lets _ _ _ s1 _ s2 s3
  have hs1 : s1.Canon := .ite h (.issueSig h)
  have hs2 : s2.Canon := hs1.keep rfl rfl
  have hs3 : s3.Canon := .trace hs2
  exact .next (.driveAll (.acceptPorts (.endCollect hs3)))

/-! ### Lining -/

theorem copyCell {p o : ℕ} {s : State} {k : State → State} (h : s.Canon) (hk : ∀ (t : State), t.Canon → (k t).Canon) :
    CanonNext (copyCell p o s k) :=
  .ite (.next (hk _ h)) (.whenFree h (.next (.loseWords h)))

theorem execLiningCopy {part granule : ℕ} {s : State} (h : s.Canon) : CanonNext (execLiningCopy part granule s) := by
  unfold Machine.execLiningCopy
  refine .whenFormed (.whenLive (.whenDue (.whenRoused h ?_)))
  extract_lets
  refine .ite ?_ (.whenDue (.copyCell h (fun _ h1 => .stageCell h1)))
  split
  exact .whenDue (.next (.bumpFrg (.stageClose h)))

theorem execLiningBudgetSplit {s : State} (h : s.Canon) : CanonNext (execLiningBudgetSplit s) :=
  .whenLive (.next (.foldS (fun _ _ h1 => .foldS (fun _ _ h2 => .setFrg h2) h1) h))

theorem execCopyBeforeWrite {dev granule off : ℕ} {data : List Byte} {s : State} (h : s.Canon) :
    CanonNext (execCopyBeforeWrite dev granule off data s) :=
  .whenFormed (.whenLive (.whenDue (.whenFree h (.withItem (fun _ => .withRecall h (.next (.writeLocal (.bumpFrg h))))))))

theorem execCellCopyBeforeWrite {cell granule off : ℕ} {data : List Byte} {s : State} (h : s.Canon) :
    CanonNext (execCellCopyBeforeWrite cell granule off data s) :=
  .whenFormed (.whenLive (.whenDue (.whenFree h (.copyCell h (fun _ h1 => .writeLocal h1)))))

theorem execForagerRetire {frg : ℕ} {s : State} (h : s.Canon) : CanonNext (execForagerRetire frg s) :=
  .whenFormed (.whenLive (.whenDue (.next (.retireForager h))))

theorem withChecks {r : AdderRun} {s : State} {k : Host.Outcome State Fault Refusal} (h : s.Canon) (hk : CanonNext k) :
    CanonNext (withChecks r s k) := by
  unfold Machine.withChecks
  split
  · exact hk
  · split
    · exact .withItem fun _ => .whenDue (.next (.bumpPart (.bump hk)))
    · exact hk
  · split
    · exact .withItem fun _ => .whenDue (.next (.retireForager (.setFrg (.spoilRecord (.bumpPart (.bump h))))))
    · exact hk

theorem execReduce {r : AdderRun} {s : State} (h : s.Canon) : CanonNext (execReduce r s) := .whenFormed (.withChecks h (.runClass h))
theorem execScatter {r : AdderRun} {s : State} (h : s.Canon) : CanonNext (execScatter r s) := .whenFormed (.withChecks h (.runClass h))
theorem execCsr {r : AdderRun} {s : State} (h : s.Canon) : CanonNext (execCsr r s) := .whenFormed (.withChecks h (.runClass h))

/-! ### Swarm -/

theorem consumeSwarm {subtype : ℕ} {long : Bool} {p : Packet} {s : State} {ok : State → Bool} {k : State → State}
    (h : s.Canon) (hk : ∀ (t : State), t.Canon → (k t).Canon) : CanonNext (consumeSwarm subtype long p s ok k) := by
  unfold Machine.consumeSwarm
  refine .consume h (fun _ h1 => .whenDue (.next (.checked h1 (fun _ h2 => .sequence h2 (fun _ h3 => .ite (.mk h3) ?_) (fun _ h3 =>
      .ackPkt h3)))))
  extract_lets s1
  have hs1 : s1.Canon := .ite h3 (.meetTerm h3)
  exact .ite (.mk hs1) (.ite (.mk (.dropSwarm hs1)) (.mk (hk _ hs1)))

theorem execSwarmHeartbeatSend {s : State} (h : s.Canon) : CanonNext (execSwarmHeartbeatSend s) := by
  unfold Machine.execSwarmHeartbeatSend
  refine .whenLive (.whenDue ?_)
  extract_lets s1
  have hs1 : s1.Canon := .foldS (fun _ _ h1 => .setMissed h1) h
  exact .next (.ite (.foldS (fun _ _ h1 => .swarmSend h1) hs1) hs1)

theorem execSwarmHeartbeat {p : Packet} {s : State} (h : s.Canon) : CanonNext (execSwarmHeartbeat p s) := by
  unfold Machine.execSwarmHeartbeat
  refine .consumeSwarm h (fun _ h1 => ?_)
  extract_lets _ s1
  have hs1 : s1.Canon := .setMissed h1
  exact .ite (hs1.keep rfl rfl) hs1

theorem execTableUpdate {p : Packet} {s : State} (h : s.Canon) : CanonNext (execTableUpdate p s) :=
  .consumeSwarm h (fun _ h1 => .setRoute h1)

theorem execAdmissionRequest {p : Packet} {s : State} (h : s.Canon) : CanonNext (execAdmissionRequest p s) :=
  .consumeSwarm h (fun _ h1 => .ite (.swarmSend (h1.keep rfl rfl)) (.escalate (.swarmSend (h1.keep rfl rfl))))

theorem execAdmissionResult {p : Packet} {s : State} (h : s.Canon) : CanonNext (execAdmissionResult p s) :=
  .consumeSwarm h (fun _ h1 => .ite (h1.keep rfl rfl) (h1.keep rfl rfl))

theorem execTakeover {p : Packet} {s : State} (h : s.Canon) : CanonNext (execTakeover p s) :=
  .consumeSwarm h (fun _ h1 => .newManager h1)

theorem execManagerLost {s : State} (h : s.Canon) : CanonNext (execManagerLost s) := by
  unfold Machine.execManagerLost
  refine .whenLive (.whenDue ?_)
  extract_lets _ s1 s2 s3 _ s4
  have hs1 : s1.Canon := .newManager h
  have hs2 : s2.Canon := .foldS (fun _ _ h1 => .swarmSend h1) hs1
  have hs3 : s3.Canon := by
    unfold s3
    split
    · exact .foldS (fun _ _ h1 => .swarmSend h1) hs2
    · exact hs2
  have hs4 : s4.Canon := .ite hs3 (.wantFor hs3)
  exact .next (.endTakeover (hs4.keep rfl rfl))

theorem execNoManager {s : State} (h : s.Canon) : CanonNext (execNoManager s) :=
  .whenLive (.whenDue (.next (.endHeld (.escalate (h.keep rfl rfl)))))

theorem execFaultNotice {p : Packet} {s : State} (h : s.Canon) : CanonNext (execFaultNotice p s) :=
  .consumeSwarm h (fun _ h1 => .ite (.hearAbandon h1) (.ite (.wantFor h1) (.ite (.noSpare h1) (.ite (h1.keep rfl rfl) h1))))

theorem execMemberDeclaredFailed {module : ℕ} {s : State} (h : s.Canon) : CanonNext (execMemberDeclaredFailed module s) := by
  unfold Machine.execMemberDeclaredFailed
  refine .whenLive (.whenDue (.withItem (fun _ => ?_)))
  extract_lets _ s1 s2 s3
  have hs1 : s1.Canon := h.keep rfl rfl
  have hs2 : s2.Canon := .escalate hs1
  have hs3 : s3.Canon := .abandonEpoch hs2
  refine .ite (.next (.respare hs2)) ?_
  split
  · exact .next (.noSpare hs3)
  · exact .next (.wantFor hs3)

theorem execCollectiveAbort {p : Packet} {s : State} (h : s.Canon) : CanonNext (execCollectiveAbort p s) := by
  unfold Machine.execCollectiveAbort
  refine .consumeSwarm h (fun _ h1 => ?_)
  extract_lets _ _ _ s1
  have hs1 : s1.Canon := .setTeamSeq h1
  exact hs1.keep rfl rfl

theorem execBoundaryRequest {p : Packet} {s : State} (h : s.Canon) : CanonNext (execBoundaryRequest p s) :=
  .consumeSwarm h (fun _ h1 => .requestBoundary h1)

theorem execRelay {p : Packet} {s : State} (h : s.Canon) : CanonNext (execRelay p s) := by
  unfold Machine.execRelay
  refine .consume h (fun _ h1 => .next (.checked h1 (fun _ h2 => .sequence h2 (fun _ h3 => .ite (.mk h3) (.ite (.mk (.bump h3))
      (.ite ?_ (.mk h3)))) (fun _ h3 => .ackPkt h3))))
  extract_lets _ _ _ s1
  have hs1 : s1.Canon := .countReport h3
  exact .mk (hs1.keep rfl rfl)

theorem consumeQuench {act : ℕ} {p : Packet} {s : State} {k : State → State} (h : s.Canon) (hk : ∀ (t : State), t.Canon → (k t).Canon) :
    CanonNext (consumeQuench act p s k) := by
  unfold Machine.consumeQuench
  refine .consume h (fun _ h1 => .whenDue (.next (.checked h1 (fun _ h2 => .sequence h2 (fun _ h3 => .ite (.mk h3) ?_) (fun _ h3 =>
      .ackPkt h3)))))
  extract_lets s1
  have hs1 : s1.Canon := .meetTerm h3
  exact .ite (.mk hs1) (.ite (.mk (.dropSwarm hs1)) (.mk (hk _ hs1)))

theorem execQuench {p : Packet} {s : State} (h : s.Canon) : CanonNext (execQuench p s) := .consumeQuench h (fun _ h1 => .applyQuench h1)

theorem execQuenchRelease {p : Packet} {s : State} (h : s.Canon) : CanonNext (execQuenchRelease p s) :=
  .consumeQuench h (fun _ h1 => .releaseQuench h1)

theorem execAck {p : Packet} {s : State} (h : s.Canon) : CanonNext (execAck p s) :=
  .consume h (fun _ h1 => .next (.checked h1 (fun _ h2 => .endTakeover (.foldS (fun _ _ h3 => .ackOne h3) h2))))

theorem execRefuse {p : Packet} {s : State} (h : s.Canon) : CanonNext (execRefuse p s) := by
  unfold Machine.execRefuse
  refine .consume h (fun _ h1 => .next (.checked h1 (fun _ h2 => ?_)))
  extract_lets
  split
  · exact h2
  · exact .ite (h2.keep rfl rfl) (.endRefused h2)

/-! ### Markers -/

theorem consumeMarker {part step : ℕ} {p : Packet} {s : State} {k : State → State}
    (h : s.Canon) (hk : ∀ (t : State), t.Canon → (k t).Canon) : CanonNext (consumeMarker part step p s k) := by
  unfold Machine.consumeMarker
  refine .consume h (fun _ h1 => ?_)
  extract_lets
  refine .whenDue (.ite (.next (.bump (.bumpPart (.unpark h1)))) (.next (.checked h1 (fun _ h2 => .sequence h2 (fun _ h3 => .ite
      (.mk h3) ?_) (fun _ h3 => .ackPkt h3)))))
  extract_lets s1
  have hs1 : s1.Canon := .meetTerm h3
  exact .ite (.mk hs1) (.ite (.mk (hk _ hs1)) (.mk (.bump hs1)))

/-! ### Epochs -/

theorem execSyncOutEdge {s : State} (h : s.Canon) : CanonNext (execSyncOutEdge s) :=
  .whenLive (.whenDue (.next (.trace (h.keep rfl rfl))))

theorem execSyncInEdge {s : State} (h : s.Canon) : CanonNext (execSyncInEdge s) := by
  unfold Machine.execSyncInEdge
  refine .whenStandby (.ite ?_ (.next h))
  extract_lets _ s1
  have hs1 : s1.Canon := .trace (h.keep rfl rfl)
  exact .next (.ite (.foldS (fun _ _ h1 => .requestBoundary h1) hs1) hs1)

theorem execEpochTimer {part : ℕ} {s : State} (h : s.Canon) : CanonNext (execEpochTimer part s) :=
  .whenFormed (.whenLive (.whenDue (.next (.setEpoch (.requestBoundary h)))))

theorem execTakeBoundary {part : ℕ} {s : State} (h : s.Canon) : CanonNext (execTakeBoundary part s) :=
  .whenFormed (.whenLive (.whenDue (.next (.setEpoch h))))

theorem execMarkerDrain {part : ℕ} {p : Option Packet} {s : State} (h : s.Canon) : CanonNext (execMarkerDrain part p s) := by
  unfold Machine.execMarkerDrain
  refine .whenFormed ?_
  split
  · exact .consumeMarker h (fun _ h1 => .ite (.beginDrain h1) h1)
  · exact .whenLive (.whenDue (.next (.beginDrain h)))

theorem execDrainComplete {part : ℕ} {s : State} (h : s.Canon) : CanonNext (execDrainComplete part s) :=
  .whenFormed (.whenLive (.whenDue (.ite (.whenDue (.next (.contribute h))) (.ite (.whenDue (.next (.contributeFreeze h))) (.whenDue
      (.next (.fwActivating h)))))))

theorem execMarkerDrained {part : ℕ} {p : Option Packet} {s : State} (h : s.Canon) : CanonNext (execMarkerDrained part p s) := by
  unfold Machine.execMarkerDrained
  refine .whenFormed ?_
  split
  · exact .consumeMarker h (fun _ h1 => .afterDrained (.hear h1))
  · exact .whenLive (.whenDue (.next (.afterDrained h)))

theorem execContextWritten {part : ℕ} {s : State} (h : s.Canon) : CanonNext (execContextWritten part s) :=
  .whenFormed (.whenLive (.whenDue (.next (.contribute h))))

theorem execMarkerCaptured {part : ℕ} {p : Option Packet} {s : State} (h : s.Canon) : CanonNext (execMarkerCaptured part p s) := by
  unfold Machine.execMarkerCaptured
  refine .whenFormed ?_
  split
  · exact .consumeMarker h (fun _ h1 => .afterCaptured (.hear h1))
  · exact .whenLive (.whenDue (.next (.afterCaptured h)))

theorem execLocalCommit {part : ℕ} {s : State} (h : s.Canon) : CanonNext (execLocalCommit part s) :=
  .whenFormed (.whenLive (.whenDue (.ite (.next (.setEpoch (.writeHeader h))) (.next (.contribute (.setEpoch h))))))

theorem execMarkerCommitted {part : ℕ} {p : Option Packet} {s : State} (h : s.Canon) : CanonNext (execMarkerCommitted part p s) :=
    by
  unfold Machine.execMarkerCommitted
  refine .whenFormed ?_
  split
  · exact .consumeMarker h (fun _ h1 => .afterCommitted (.hear h1))
  · exact .whenLive (.whenDue (.next (.afterCommitted h)))

/-! ### Intake -/

theorem execWatchedLineInvalidation {part line : ℕ} {s : State} (h : s.Canon) : CanonNext (execWatchedLineInvalidation part line s) :=
  .whenFormed (.whenLive (.whenDue (.next (.reread h))))

theorem execWatchedLinePoll {s : State} (h : s.Canon) : CanonNext (execWatchedLinePoll s) :=
  .whenLive (.next (.foldS (fun _ _ h1 => .reread h1) h))

theorem execFarLinePoll {part : ℕ} {s : State} (h : s.Canon) : CanonNext (execFarLinePoll part s) :=
  .whenFormed (.whenLive (.whenDue (.next (.foldS (fun _ _ h1 => .reread h1) h))))

theorem execDoorbellUpdate {part ring : ℕ} {slot : SlotRead} {s : State} (h : s.Canon) :
    CanonNext (execDoorbellUpdate part ring slot s) := by
  unfold Machine.execDoorbellUpdate
  refine .whenFormed (.whenLive (.whenDue (.whenAwake h ?_)))
  extract_lets _ _ _ s1 s2 s3
  have hs1 : s1.Canon := .ite h (.hostContact h)
  have hs2 : s2.Canon := .returned hs1
  have hs3 : s3.Canon := .ite (.countRead hs2) hs2
  split
  · exact .whenDue (.next (.lineFailed h))
  · exact .next (.takeSlot hs3)

theorem execReportLineUpdate {part : ℕ} {line : LineRead} {s : State} (h : s.Canon) : CanonNext (execReportLineUpdate part line s) := by
  unfold Machine.execReportLineUpdate
  refine .whenFormed (.whenLive (.whenDue ?_))
  split
  · exact .whenDue (.next (.lineFailed h))
  · extract_lets s1
    have hs1 : s1.Canon := .countRead (.returned h)
    exact .next (.ite (.flushReports (.setRep hs1)) (.ite hs1 (.escalate (.setRep hs1))))

theorem execEntryIntake {part ring : ℕ} {read : EntryRead} {s : State} (h : s.Canon) : CanonNext (execEntryIntake part ring read s) := by
  unfold Machine.execEntryIntake
  refine .whenFormed (.whenLive (.whenDue ?_))
  extract_lets _ _ t t1
  have ht : t.Canon := .sendFar h
  have ht1 : t1.Canon := ht.keep rfl rfl
  split
  · exact .whenDue (.next (.takeLogged h))
  · refine .whenDue ?_
    split
    · exact .whenDue (.next (.readFailed ht1))
    · exact .next (.takeIn (.countRead ht1))

theorem execDripPointerMismatch {cp : ℕ} {s : State} (h : s.Canon) : CanonNext (execDripPointerMismatch cp s) :=
  .whenFormed (.whenLive (.next (.escalate (.foldS (fun _ _ h1 => .rereadRing h1) (.setDrip h)))))

theorem execHeadLineWrite {part ring : ℕ} {s : State} (h : s.Canon) : CanonNext (execHeadLineWrite part ring s) :=
  .whenFormed (.whenLive (.whenDue (.next (.ringWrite (.setRing h)))))

/-! ### Recovery -/

theorem execRepair {part : ℕ} {read : RepairRead} {s : State} (h : s.Canon) : CanonNext (execRepair part read s) := by
  unfold Machine.execRepair
  refine .whenFormed (.whenLive ?_)
  extract_lets _ _ _ s1
  have hs1 : s1.Canon := .foldS (fun _ _ h1 => .healLines (.rebuild h1)) (.countRebuild h)
  refine .whenDue ?_
  split
  · exact .next (.wantRecovery (.readFailed h))
  · exact .ite (.next (.wantRecovery h)) (.next (.driveAll (.setEpoch hs1)))

theorem execRecoveryStart {part : ℕ} {p : Option Packet} {s : State} (h : s.Canon) : CanonNext (execRecoveryStart part p s) := by
  unfold Machine.execRecoveryStart
  refine .whenFormed ?_
  split
  · exact .whenDue (.consumeSwarm h (fun _ h1 => .recoverFrom h1))
  · exact .whenLive (.whenDue (.next (.startRecovery h)))

theorem execRestoreComplete {read : RestoreRead} {s : State} (h : s.Canon) : CanonNext (execRestoreComplete read s) := by
  unfold Machine.execRestoreComplete
  extract_lets _ _ _ _ s1 _ s2
  have hs1 : s1.Canon := .ite (.restoreSpare h) (.restoreOwn h)
  have hs2 : s2.Canon := .trace (.setEpoch hs1)
  refine .whenFormed (.whenLive (.whenDue (.whenDue ?_)))
  split
  · exact .next (.unreadable h)
  · exact .next (.ite hs2 (.swarmSend hs2))

theorem execSwarmRestored {part : ℕ} {p : Option Packet} {s : State} (h : s.Canon) : CanonNext (execSwarmRestored part p s) := by
  unfold Machine.execSwarmRestored
  refine .whenFormed ?_
  split
  · exact .whenDue (.ite (.consumeSwarm h (fun _ h1 => h1)) (.consumeSwarm h (fun _ h1 => .afterRestored (.setEpoch h1))))
  · exact .whenLive (.whenDue (.next (.afterRestored h)))

theorem execReplayDone {part : ℕ} {s : State} (h : s.Canon) : CanonNext (execReplayDone part s) := by
  unfold Machine.execReplayDone
  refine .whenFormed (.whenLive ?_)
  extract_lets _ s1 s2
  have hs1 : s1.Canon := .setEpoch h
  have hs2 : s2.Canon := .trace hs1
  refine .whenDue ?_
  split
  next wait1 s21 found =>
    have hs21 : s21.Canon := .of_snd found (.ite (.fresh hs2) (.mk hs2))
    extract_lets _ s3
    have hs3 : s3.Canon := .foldS (fun _ _ h1 => .report h1) hs21
    exact .next (.ite hs3 (.swarmSend hs3))

/-! ### Resets -/

theorem cellHung {s : State} {n : ℕ} (h : s.Canon) : CanonNext (s.cellHung n) :=
  .whenDue (.next (.beat (.countCell (.resetCell (.escalate h)))))

theorem execCellReset {cell : ℕ} {cause : ResetCause} {s : State} (h : s.Canon) : CanonNext (execCellReset cell cause s) := by
  unfold Machine.execCellReset
  refine .whenFormed (.whenLive ?_)
  split
  · exact .whenDue (.next (.resetCell h))
  · exact .cellHung h
  · exact .refused

theorem execCombReset {comb : ℕ} {cause : ResetCause} {s : State} (h : s.Canon) : CanonNext (execCombReset comb cause s) := by
  unfold Machine.execCombReset
  refine .whenFormed (.whenLive ?_)
  split
  · exact .whenDue (.next (.resetComb h))
  · exact .refused

theorem execPartitionReset {part : ℕ} {cause : ResetCause} {s : State} (h : s.Canon) : CanonNext (execPartitionReset part cause s) := by
  unfold Machine.execPartitionReset
  refine .whenFormed (.whenLive ?_)
  split
  · exact .whenDue (.next (.resetPart h))
  · exact .whenDue (.next (.resetPart h))
  · exact .refused

theorem execResetComplete {domain number : ℕ} {s : State} (h : s.Canon) : CanonNext (execResetComplete domain number s) :=
  .whenFormed (.whenLive (.withItem (fun _ => .whenDue (.next (.endReset (.ite h (.advanceGens h)))))))

theorem execDrainLimit {domain number : ℕ} {s : State} (h : s.Canon) : CanonNext (execDrainLimit domain number s) := by
  unfold Machine.execDrainLimit
  refine .whenFormed (.whenLive (.withItem (fun _ => ?_)))
  extract_lets _ _ _ s1
  have hs1 : s1.Canon := .escalate (.advanceGens (.abandonDomain h))
  exact .whenDue (.next (hs1.keep rfl rfl))

theorem execWatchdogExpiry {id : ℕ} {s : State} (h : s.Canon) : CanonNext (execWatchdogExpiry id s) := by
  unfold Machine.execWatchdogExpiry
  refine .whenLive (.withItem (fun _ => .whenDue ?_))
  extract_lets _ s1 _ _ s2 s3 s31
  have hs1 : s1.Canon := .escalate h
  have hs2 : s2.Canon := .foldS (fun _ _ h1 => .foldS (fun _ _ h2 => .clearCell h2) (.beginReset h1)) hs1
  have hs3 : s3.Canon := .wantRecovery (.escalate (.enterExpired (.dropWork hs2)))
  have hs31 : s31.Canon := .dropColls (.quenchCmd hs2)
  exact .ite (.next (.foldS (fun _ _ h1 => .countCell h1) hs3)) (.next (.escalate (.foldS (fun _ _ h1 => .countCell h1) hs31)))

theorem execHeartbeat {kind : Beater} {unit : ℕ} {s : State} (h : s.Canon) : CanonNext (execHeartbeat kind unit s) :=
  .whenFormed (.whenLive (.whenDue (.next (.beat h))))

theorem execCellHung {cell : ℕ} {s : State} (h : s.Canon) : CanonNext (execCellHung cell s) := .whenFormed (.whenLive (.cellHung h))

theorem execForagerHung {frg : ℕ} {s : State} (h : s.Canon) : CanonNext (execForagerHung frg s) :=
  .whenFormed (.whenLive (.whenDue (.next (.beat (.restartFrg (.escalate h))))))

theorem execControllerHung {kind : Controller} {index : ℕ} {s : State} (h : s.Canon) : CanonNext (execControllerHung kind index s) := by
  unfold Machine.execControllerHung
  refine .whenFormed (.whenLive ?_)
  extract_lets _ _ _ s1 t s2
  have hs1 : s1.Canon := by
    unfold s1
    split
    · exact .escalateAll h
    · exact .escalate h
  have ht : t.Canon := .loseEngine hs1
  have hs2 : s2.Canon := by
    unfold s2
    split
    · exact .foldS (fun _ _ h1 => .ite h1 (.countComb (.resetComb h1))) hs1
    · exact .foldS (fun _ _ h1 => .restartFrg h1) ht
    · exact .ite hs1 (.countPart (.resetPart hs1))
    · exact hs1
  exact .whenDue (.next (.beat hs2))

theorem execFatalStop {trigger : ℕ} {record : List Byte} {s : State} (h : s.Canon) : CanonNext (execFatalStop trigger record s) :=
    by
  unfold Machine.execFatalStop
  refine .whenFormed (.whenLive (.whenDue ?_))
  extract_lets t _ _ t1 t2
  have ht : t.Canon := .mainOff (.spoilRecord h)
  have ht1 : t1.Canon := ht.keep rfl rfl
  have ht2 : t2.Canon := .lightService (.mEvent ht1)
  exact .next (.ite (.lightService (.mEvent ht2)) ht2)

/-! ### Debug -/

theorem execFreeze {fn : ℕ} {s : State} (h : s.Canon) : CanonNext (execFreeze fn s) := by
  unfold Machine.execFreeze
  refine .whenFormed (.whenLive (.whenDue ?_))
  extract_lets t
  have ht : t.Canon := .hostContact h
  exact .next (.ite (.freezeGo ht) ht)

theorem execFreezeRelease {fn : ℕ} {s : State} (h : s.Canon) : CanonNext (execFreezeRelease fn s) := by
  unfold Machine.execFreezeRelease
  refine .whenFormed (.whenLive (.whenDue ?_))
  extract_lets t
  have ht : t.Canon := .hostContact h
  exact .next (.ite (.freezeEnd ht) ht)

theorem execDumpComplete {s : State} (h : s.Canon) : CanonNext (execDumpComplete s) := .whenLive (.whenDue (.next (h.keep rfl rfl)))

theorem withTest {kind : ℕ} {s : State} {k : ℕ × ℕ × ℕ → Host.Outcome State Fault Refusal} (hk : ∀ x, CanonNext (k x)) :
    CanonNext (withTest kind s k) :=
  .whenLive (.withItem (fun _ => .whenDue (hk _)))

theorem execIstCell {s : State} (h : s.Canon) : CanonNext (execIstCell s) := by
  unfold Machine.execIstCell
  refine .withTest (fun _ => ?_)
  extract_lets
  refine .ite (.next (.refuseTest h)) ?_
  split
  · exact .next (.startTest h)
  · exact .ite (.next (.startTest h)) (.ite (.next (.refuseTest h)) (.whenDue (.next (.startTest (.replaceCell h)))))

theorem execIstForager {s : State} (h : s.Canon) : CanonNext (execIstForager s) :=
  .withTest (fun _ => .ite (.next (.refuseTest h)) (.whenDue (.next (.startTest (.handOff (.setFrg h))))))

theorem execIstLane {s : State} (h : s.Canon) : CanonNext (execIstLane s) :=
  .withTest (fun _ => .ite (.next (.refuseTest h)) (.next (.startTest h)))

theorem execIstPhase {s : State} (h : s.Canon) : CanonNext (execIstPhase s) :=
  .withTest (fun _ => .next (.ite (.startTest h) (.refuseTest h)))

theorem execIstComplete {passed : Bool} {errors : ℕ} {s : State} (h : s.Canon) : CanonNext (execIstComplete passed errors s) := by
  unfold Machine.execIstComplete
  refine .whenLive (.withItem (fun _ => ?_))
  extract_lets _ _ s1 _ s2 _ s3
  have hs1 : s1.Canon := h.keep rfl rfl
  have hs2 : s2.Canon := .ite (hs1.keep rfl rfl) hs1
  have hs3 : s3.Canon := .ite (.setFrg hs2) hs2
  refine .next (.ite hs3 ?_)
  split
  · exact .failTested hs3
  · exact .ite hs3 (.retireForager hs3)
  · exact .retireLane hs3
  · exact .ite hs3 (.reportPhase hs3)

/-! ### Mgmt -/

theorem execDynamicAddressAssign {setdasa : Option (BitVec 7)} {addr : BitVec 7} {s : State} (h : s.Canon) :
    CanonNext (execDynamicAddressAssign setdasa addr s) :=
  .whenStandby (.next (.ite h (h.keep rfl rfl)))

theorem onRequest {s : State} {k : State → State} (h : s.Canon) (hk : ∀ (t : State), t.Canon → (k t).Canon) :
    CanonNext (onRequest s k) := by
  unfold Machine.onRequest
  refine .whenStandby (.next (.ite h ?_))
  extract_lets t
  have ht : t.Canon := .rackContact h
  exact .ite (.reply (.collarClamp ht)) (hk _ (.countRequest ht))

theorem execMctpControl {known : Bool} {s : State} (h : s.Canon) : CanonNext (execMctpControl known s) := by
  unfold Machine.execMctpControl
  refine .onRequest h (fun _ h1 => .ite ?_ (.bump h1))
  split
  next b1 t11 found =>
    have ht11 : t11.Canon := .of_snd found (.freshBytes h1)
    exact .reply ht11

theorem execPldmGetSensor {sensor : ℕ} {s : State} (h : s.Canon) : CanonNext (execPldmGetSensor sensor s) := by
  unfold Machine.execPldmGetSensor
  refine .onRequest h (fun _ h1 => ?_)
  split
  next v1 t11 found =>
    have ht11 : t11.Canon := .of_some found (.sensorValue h1)
    exact .reply ht11
  · exact .pldmError h1

theorem execPldmSetEffecter {effecter value : ℕ} {s : State} (h : s.Canon) : CanonNext (execPldmSetEffecter effecter value s) :=
  .onRequest h (fun _ h1 => .ite (.reply (.setRack h1)) (.ite (.reply (.setRun h1)) (.ite (.reply (.setLocate h1)) (.ite (.reply
      (.setLocate h1)) (.pldmError h1)))))

theorem execPldmPollEvent {s : State} (h : s.Canon) : CanonNext (execPldmPollEvent s) := by
  unfold Machine.execPldmPollEvent
  refine .onRequest h (fun _ h1 => ?_)
  split
  · exact .reply h1
  · exact .reply (h1.keep rfl rfl)

theorem execIbi {s : State} (h : s.Canon) : CanonNext (execIbi s) := .whenStandby (.whenDue (.next (h.keep rfl rfl)))
theorem execI3cBusStuck {s : State} (h : s.Canon) : CanonNext (execI3cBusStuck s) := .whenStandby (.next (h.keep rfl rfl))

theorem execI3cBusRecover {s : State} (h : s.Canon) : CanonNext (execI3cBusRecover s) :=
  .whenStandby (.whenDue (.next (h.keep rfl rfl)))

theorem execGetStatus {s : State} (h : s.Canon) : CanonNext (execGetStatus s) := .onRequest h (fun _ h1 => .reply h1)

theorem execSetRackCap {w : BitVec 16} {s : State} (h : s.Canon) : CanonNext (execSetRackCap w s) :=
  .onRequest h (fun _ h1 => .reply (.setRack h1))

theorem execSetRun {on : Bool} {s : State} (h : s.Canon) : CanonNext (execSetRun on s) := .onRequest h (fun _ h1 => .reply (.setRun h1))

theorem execSetHoldup {on : Bool} {s : State} (h : s.Canon) : CanonNext (execSetHoldup on s) :=
  .onRequest h (fun _ h1 => .reply (h1.keep rfl rfl))

theorem execLights {locate : BitVec 2} {seconds : BitVec 12} {s : State} (h : s.Canon) : CanonNext (execLights locate seconds s) :=
  .onRequest h (fun _ h1 => .reply (.setLocate h1))

theorem execLightsClearService {s : State} (h : s.Canon) : CanonNext (execLightsClearService s) :=
  .onRequest h (fun _ h1 => .reply (.ite (h1.keep rfl rfl) h1))

theorem execLocateExpiry {s : State} (h : s.Canon) : CanonNext (execLocateExpiry s) := .whenStandby (.whenDue (.next (h.keep rfl rfl)))
theorem execReadInventory {s : State} (h : s.Canon) : CanonNext (execReadInventory s) := .onRequest h (fun _ h1 => .reply h1)

theorem execAppendRework {entry : List Byte} {s : State} (h : s.Canon) : CanonNext (execAppendRework entry s) :=
  .onRequest h (fun _ h1 => .ite (.reply h1) (.ite (.reply h1) (.ite (.reply h1) (.reply (h1.keep rfl rfl)))))

theorem execReadFatal {off : BitVec 16} {s : State} (h : s.Canon) : CanonNext (execReadFatal off s) := by
  unfold Machine.execReadFatal
  refine .onRequest h (fun _ h1 => ?_)
  extract_lets
  refine .ite (.reply h1) (.ite ?_ (.reply (h1.keep rfl rfl)))
  split
  next b1 t11 found =>
    have ht11 : t11.Canon := .of_snd found (.freshBytes h1)
    exact .reply ht11

theorem execReadMember {module : BitVec 12} {s : State} (h : s.Canon) : CanonNext (execReadMember module s) :=
  .onRequest h (fun _ h1 => .ite (.reply h1) (.reply h1))

theorem execSetStart {quickOk forceFull : Bool} {s : State} (h : s.Canon) : CanonNext (execSetStart quickOk forceFull s) :=
  .onRequest h (fun _ h1 => .reply (.setBarF (.setBarF h1)))

theorem execIdentity {s : State} (h : s.Canon) : CanonNext (execIdentity s) := .onRequest h (fun _ h1 => .reply h1)

theorem execAttest {nonce : BitVec 256} {s : State} (h : s.Canon) : CanonNext (execAttest nonce s) := by
  unfold Machine.execAttest
  refine .onRequest h (fun _ h1 => ?_)
  extract_lets
  refine .ite (.reply (.collarClamp h1)) ?_
  split
  · exact .reply h1
  next i1 t11 found =>
    have ht11 : t11.Canon := .of_some found (.takeIndex h1)
    exact .reply (ht11.keep rfl rfl)

theorem execReadLog {first : BitVec 8} {s : State} (h : s.Canon) : CanonNext (execReadLog first s) :=
  .onRequest h (fun _ h1 => .reply h1)

theorem execHourCountUpdate {s : State} (h : s.Canon) : CanonNext (execHourCountUpdate s) := by
  unfold Machine.execHourCountUpdate
  refine .whenStandby ?_
  extract_lets _ _ t
  have ht : t.Canon := h.keep rfl rfl
  exact .next (.ite (.storeCounts (.spoilRecord ht)) (.storeCounts ht))

/-! ### Firmware -/

theorem execFwBegin {length : BitVec 32} {s : State} (h : s.Canon) : CanonNext (execFwBegin length s) := by
  unfold Machine.execFwBegin
  refine .onRequest h (fun _ h1 => .ite (.turnAway h1) (.ite (.turnAway h1) (.ite (.turnAway h1) ?_)))
  extract_lets t1
  have ht1 : t1.Canon := .stage h1
  exact .reply (.setFw (ht1.keep rfl rfl))

theorem execFwData {off : BitVec 32} {data : List Byte} {s : State} (h : s.Canon) : CanonNext (execFwData off data s) :=
  .onRequest h (fun _ h1 => .ite (.reply h1) (.ite (.reply h1) (.ite (.turnAway h1) (.ite (.reply h1) (.reply (h1.keep rfl rfl))))))

theorem execFwReceiveTimeout {s : State} (h : s.Canon) : CanonNext (execFwReceiveTimeout s) :=
  .whenStandby (.whenDue (.next (.setFw h)))

theorem execFwEnd {s : State} (h : s.Canon) : CanonNext (execFwEnd s) :=
  .onRequest h (fun _ h1 => .ite (.reply h1) (.ite (.turnAway h1) (.reply (.setFw h1))))

theorem execFwVerifyDone {loaded : Bool} {s : State} (h : s.Canon) : CanonNext (execFwVerifyDone loaded s) := by
  unfold Machine.execFwVerifyDone
  refine .whenStandby (.whenDue ?_)
  extract_lets _ s1
  have hs1 : s1.Canon := .stage h
  refine .next (.ite (.setFw hs1) (.ite (.setFw hs1) ?_))
  split
  next n1 s21 found =>
    have hs21 : s21.Canon := .of_snd found (.fresh hs1)
    exact .setFw hs21

theorem execFwActivate {s : State} (h : s.Canon) : CanonNext (execFwActivate s) :=
  .onRequest h (fun _ h1 => .ite (.reply h1) (.ite (.turnAway h1) (.ite (.reply (.armFw h1)) (.reply (.setFw (h1.keep rfl rfl))))))

theorem execFwControllersReady {s : State} (h : s.Canon) : CanonNext (execFwControllersReady s) := by
  unfold Machine.execFwControllersReady
  refine .whenLive (.whenDue ?_)
  extract_lets _ s1 s2
  have hs1 : s1.Canon := h.keep rfl rfl
  have hs2 : s2.Canon := .endPoint (.setFw (.measureControllers (.measureImage hs1)))
  exact .next (.ite (.contribute hs2) hs2)

theorem execFwActivationTimeout {s : State} (h : s.Canon) : CanonNext (execFwActivationTimeout s) :=
  .whenLive (.whenDue (.next (.endPoint (.setFw h))))

theorem execFwConfirm {s : State} (h : s.Canon) : CanonNext (execFwConfirm s) :=
  .onRequest h (fun _ h1 => .ite (.reply h1) (.ite (.turnAway (h1.keep rfl rfl)) (.reply (.setFw (h1.keep rfl rfl)))))

theorem execFwAbort {s : State} (h : s.Canon) : CanonNext (execFwAbort s) :=
  .onRequest h (fun _ h1 => .ite (.reply (.setFw h1)) (.reply h1))

theorem execOwnerEnrol {key : List Byte} {s : State} (h : s.Canon) : CanonNext (execOwnerEnrol key s) :=
  .onRequest h (fun _ h1 => .ite (.reply h1) (.ite (.reply h1) (.reply (.measureOwner (h1.keep rfl rfl)))))

theorem onOwner {s : State} {op : ℕ} {serial sequence : Word} {key body signature : List Byte} {k : State → State}
    (h : s.Canon) (hk : ∀ (t : State), t.Canon → (k t).Canon) : CanonNext (onOwner s op serial sequence key body signature k) := by
  unfold Machine.onOwner
  refine .onRequest h (fun _ h1 => ?_)
  split
  · exact .reply h1
  · exact .ite (.reply h1) (.ite (.reply h1) (.ite (.reply h1) (.reply (hk _ (h1.keep rfl rfl)))))

theorem execOwnerSetLock {serial sequence : Word} {body signature : List Byte} {s : State} (h : s.Canon) :
    CanonNext (execOwnerSetLock serial sequence body signature s) :=
  .onOwner h (fun _ h1 => .lockUpdate (.setLock h1))

theorem execOwnerClearLock {serial sequence : Word} {body signature : List Byte} {s : State} (h : s.Canon) :
    CanonNext (execOwnerClearLock serial sequence body signature s) :=
  .onOwner h (fun _ h1 => .setLock h1)

theorem execOwnerReplaceKey {serial sequence : Word} {key body signature : List Byte} {s : State} (h : s.Canon) :
    CanonNext (execOwnerReplaceKey serial sequence key body signature s) :=
  .onOwner h (fun _ h1 => .measureOwner (h1.keep rfl rfl))

theorem execOwnerRelease {serial sequence : Word} {body signature : List Byte} {s : State} (h : s.Canon) :
    CanonNext (execOwnerRelease serial sequence body signature s) :=
  .onOwner h (fun _ h1 => .setLock (.measureOwner (h1.keep rfl rfl)))

/-! ### Start -/

theorem execStart {f : StartFinds} {s : State} (h : s.Canon) : CanonNext (execStart f s) := by
  unfold Machine.execStart
  refine .whenStandby (.ite (.ite (.next (h.keep rfl rfl)) (.whenDue (.next (.restart h)))) ?_)
  extract_lets _ s2
  have hs2 : s2.Canon := .ite (.startRun (.newStart h)) (.startChecks h)
  exact .whenDue (.next (.ite (.startRun (.revertTrial hs2)) hs2))

theorem execWholeModuleReset {cause : ResetCause} {finds : StartFinds} {s : State} (h : s.Canon) :
    CanonNext (execWholeModuleReset cause finds s) := by
  unfold Machine.execWholeModuleReset
  refine .whenLive ?_
  extract_lets _ s1 s2 s3 s4
  have hs1 : s1.Canon := .trace h
  have hs2 : s2.Canon := .measureAgain (.foldS (fun _ _ h1 => .restPort h1) (.resetAll hs1))
  have hs3 : s3.Canon := .ite (.parkGuests (.quickPass hs2)) hs2
  have hs4 : s4.Canon := .endService (.ite (.endService hs3) hs3)
  exact .whenDue (.next (.ite (.countModule hs4) hs4))

/-! ### Placement -/

theorem execPlacementGo {length : ℕ} {s : State} (h : s.Canon) : CanonNext (execPlacementGo length s) :=
  .whenLive (.next (.placementGo (.setBarF (.hostContact h))))

theorem execPlacementCheck {readOk : Bool} {bytes : List Byte} {s : State} (h : s.Canon) :
    CanonNext (execPlacementCheck readOk bytes s) := by
  unfold Machine.execPlacementCheck
  refine .whenLive (.whenDue ?_)
  extract_lets _ s1
  have hs1 : s1.Canon := h.keep rfl rfl
  refine .next ?_
  split
  · exact hs1.keep rfl rfl
  · exact .acceptPlacement hs1

/-! ### RegisterWrite -/

theorem execRegisterWrite {w : RegWriter} {off size : ℕ} {value : Word} {s : State} (h : s.Canon) :
    CanonNext (execRegisterWrite w off size value s) := by
  unfold Machine.execRegisterWrite
  refine .whenFormed (.whenLive (.whenDue (.ite (.next (.collarClamp h)) ?_)))
  extract_lets t
  have ht : t.Canon := .hostContact h
  refine .next ?_
  split
  · exact .writeReg ht
  · exact ht

/-! ### Words -/

theorem withWords {c : ℕ} {g : Guard} {ranges : List (ℕ × ℕ)} {s : State} {k : Host.Outcome State Fault Refusal} (h : s.Canon)
    (hk : CanonNext k) : CanonNext (withWords c g ranges s k) := by
  unfold Machine.withWords
  split
  · exact hk
  · split
    next t =>
      have ht : t.Canon := hk
      split
      · extract_lets bad
        exact .ite (.next (.bump ht)) (.ite .refused (.next (.loseWords h)))
      · exact .next ht
    · exact hk

theorem execLd {c : ℕ} {f : F1} {s : State} (h : s.Canon) : CanonNext (execLd c f s) := .withWords h (.runLd h)
theorem execSt {c : ℕ} {f : F1} {s : State} (h : s.Canon) : CanonNext (execSt c f s) := .ite (.withWords h (.runSt h)) (.runSt h)
theorem execVld {c : ℕ} {f : F1} {s : State} (h : s.Canon) : CanonNext (execVld c f s) := .withWords h (.runVld h)
theorem execLdt {c : ℕ} {f : F1} {s : State} (h : s.Canon) : CanonNext (execLdt c f s) := .withWords h (.runLdt h)
theorem execEaLdi {c : ℕ} {f : F1} {s : State} (h : s.Canon) : CanonNext (execEaLdi c f s) := .withWords h (.runEaLdi h)
theorem execMma {c : ℕ} {f : F3} {s : State} (h : s.Canon) : CanonNext (execMma c f s) := .withWords h (.runMma h)
theorem execAccLd {c : ℕ} {f : F3} {s : State} (h : s.Canon) : CanonNext (execAccLd c f s) := .withWords h (.runAccLd h)
theorem execTm {c : ℕ} {f : F4} {s : State} (h : s.Canon) : CanonNext (execTm c f s) := .withWords h (.runTm h)

theorem readDesc {c : ℕ} {f : F5} {s : State} {k : Host.Outcome State Fault Refusal} (h : s.Canon) (hk : CanonNext k) :
    CanonNext (readDesc c f s k) :=
  .withWords h hk

theorem execColl {c : ℕ} {f : F5} {s : State} (h : s.Canon) : CanonNext (execColl c f s) := .readDesc h (.handOver h)
theorem execForg {c : ℕ} {f : F5} {s : State} (h : s.Canon) : CanonNext (execForg c f s) := .readDesc h (.handOver h)

/-! ### Residue -/

theorem withResidue {c : ℕ} {g : Guard} {u : Upset} {s : State} {k : Host.Outcome State Fault Refusal} (h : s.Canon)
    (hk : CanonNext k) : CanonNext (withResidue c g u s k) := by
  unfold Machine.withResidue
  split
  · exact hk
  · split
    next t =>
      have ht : t.Canon := hk
      exact .next (.ite (.countRepeat ht) ht)
    · exact hk
  · split
    next t =>
      have ht : t.Canon := hk
      extract_lets phys
      split
      · exact .next (.ite (.retireCell (.spoilRecord (.countRepeat h))) ht)
      · exact .next ht
    · exact hk

theorem execEaAdd {c : ℕ} {f : F0} {u : Upset} {s : State} (h : s.Canon) : CanonNext (execEaAdd c f u s) := .withResidue h (.runEaAdd h)

theorem execEaAddm {c : ℕ} {f : F0} {u : Upset} {s : State} (h : s.Canon) : CanonNext (execEaAddm c f u s) :=
  .withResidue h (.runEaAddm h)

theorem execEaRd {c : ℕ} {f : F0} {u : Upset} {s : State} (h : s.Canon) : CanonNext (execEaRd c f u s) := .withResidue h (.runEaRd h)

theorem execEaMerge {c : ℕ} {f : F0} {u : Upset} {s : State} (h : s.Canon) : CanonNext (execEaMerge c f u s) :=
  .withResidue h (.runEaMerge h)

theorem execEaAddi {c : ℕ} {f : F1} {u : Upset} {s : State} (h : s.Canon) : CanonNext (execEaAddi c f u s) :=
  .withWords h (.withResidue h (.runEaAddi h))

theorem execEaSti {c : ℕ} {f : F1} {u : Upset} {s : State} (h : s.Canon) : CanonNext (execEaSti c f u s) := .withResidue h (.runEaSti h)

theorem execAccRd {c : ℕ} {w : AccRead} {s : State} (h : s.Canon) : CanonNext (execAccRd c w s) :=
  .withWords h (.withResidue h (.runAccRd h))

end CanonNext

end Sys2Proof.Machine

/-!
PROOFS. Memory stays in its canonical form with every step.
-/

namespace Sys2Proof.Machine

theorem CanonNext.exec {s : State} (h : s.Canon) : ∀ i : Instr, CanonNext (exec i s)
  | .seamPacketArrival .. => .execSeamPacketArrival h
  | .droopTrip .. => .execDroopTrip h
  | .droopClear .. => .execDroopClear h
  | .referenceLoss => .execReferenceLoss h
  | .standbyPresent .. => .execStandbyPresent h
  | .standbyLoss => .execStandbyLoss h
  | .zeroFillComplete => .execZeroFillComplete h
  | .bankStarvation .. => .execBankStarvation h
  | .add .. => .execAdd h
  | .sub .. => .execSub h
  | .mul .. => .execMul h
  | .mulh .. => .execMulh h
  | .mulhu .. => .execMulhu h
  | .div .. => .execDiv h
  | .divu .. => .execDivu h
  | .rem .. => .execRem h
  | .remu .. => .execRemu h
  | .and .. => .execAnd h
  | .or .. => .execOr h
  | .xor .. => .execXor h
  | .shl .. => .execShl h
  | .shr .. => .execShr h
  | .sra .. => .execSra h
  | .min .. => .execMin h
  | .max .. => .execMax h
  | .cmp .. => .execCmp h
  | .plog .. => .execPlog h
  | .csrr .. => .execCsrr h
  | .csrw .. => .execCsrw h
  | .rdid .. => .execRdid h
  | .addi .. => .execAddi h
  | .li .. => .execLi h
  | .lui .. => .execLui h
  | .ld .. => .execLd h
  | .st .. => .execSt h
  | .cmpi .. => .execCmpi h
  | .andi .. => .execAndi h
  | .vadd .. => .execVadd h
  | .vsub .. => .execVsub h
  | .vmul .. => .execVmul h
  | .vfma .. => .execVfma h
  | .vfms .. => .execVfms h
  | .vmin .. => .execVmin h
  | .vmax .. => .execVmax h
  | .vun .. => .execVun h
  | .vand .. => .execVand h
  | .vor .. => .execVor h
  | .vxor .. => .execVxor h
  | .vsh .. => .execVsh h
  | .vcmp .. => .execVcmp h
  | .vsel .. => .execVsel h
  | .vperm .. => .execVperm h
  | .vslide .. => .execVslide h
  | .vcvt .. => .execVcvt h
  | .vtr .. => .execVtr h
  | .vbcast .. => .execVbcast h
  | .vins .. => .execVins h
  | .vext .. => .execVext h
  | .vld .. => .execVld h
  | .vst .. => .execVst h
  | .mma .. => .execMma h
  | .accLd .. => .execAccLd h
  | .accRd .. => .execAccRd h
  | .tm .. => .execTm h
  | .tileMoveComplete .. => .execTileMoveComplete h
  | .tmWait .. => .execTmWait h
  | .ldt .. => .execLdt h
  | .stt .. => .execStt h
  | .tset .. => .execTset h
  | .tadv .. => .execTadv h
  | .eaClr .. => .execEaClr h
  | .eaAdd .. => .execEaAdd h
  | .eaAddm .. => .execEaAddm h
  | .eaRd .. => .execEaRd h
  | .eaLdi .. => .execEaLdi h
  | .eaAddi .. => .execEaAddi h
  | .eaSti .. => .execEaSti h
  | .eaMerge .. => .execEaMerge h
  | .sigAdd .. => .execSigAdd h
  | .sigSet .. => .execSigSet h
  | .waitGe .. => .execWaitGe h
  | .waitEq .. => .execWaitEq h
  | .testGe .. => .execTestGe h
  | .sread .. => .execSread h
  | .cellWaitPoll .. => .execCellWaitPoll h
  | .fenceLocal .. => .execFenceLocal h
  | .fenceRemote .. => .execFenceRemote h
  | .coll .. => .execColl h
  | .forg .. => .execForg h
  | .forgRefusal .. => .execForgRefusal h
  | .br .. => .execBr h
  | .brl .. => .execBrl h
  | .jr .. => .execJr h
  | .loop .. => .execLoop h
  | .nop .. => .execNop h
  | .halt .. => .execHalt h
  | .cellFailed .. => .execCellFailed h
  | .guestSwitch .. => .execGuestSwitch h
  | .guestSwitchComplete .. => .execGuestSwitchComplete h
  | .saveAreaMoveComplete .. => .execSaveAreaMoveComplete h
  | .kernel .. => .execKernel h
  | .kernelImageLoaded .. => .execKernelImageLoaded h
  | .move .. => .execMove h
  | .forage .. => .execForage h
  | .collect .. => .execCollect h
  | .sync .. => .execSync h
  | .fence .. => .execFence h
  | .epoch .. => .execEpoch h
  | .powerWakeTolerance .. => .execPowerWakeTolerance h
  | .powerDefaultOpp .. => .execPowerDefaultOpp h
  | .nopCommand .. => .execNopCommand h
  | .commandStart .. => .execCommandStart h
  | .commandComplete .. => .execCommandComplete h
  | .voltageSettled .. => .execVoltageSettled h
  | .closeMemoryRequest .. => .execCloseMemoryRequest h
  | .deviceRetire .. => .execDeviceRetire h
  | .scrub .. => .execScrub h
  | .farCompletion .. => .execFarCompletion h
  | .farTimeout .. => .execFarTimeout h
  | .windowDrainComplete .. => .execWindowDrainComplete h
  | .stream .. => .execStream h
  | .reduce .. => .execReduce h
  | .gather .. => .execGather h
  | .scatter .. => .execScatter h
  | .histogram .. => .execHistogram h
  | .compact .. => .execCompact h
  | .transpose .. => .execTranspose h
  | .csr .. => .execCsr h
  | .copy .. => .execCopy h
  | .fill .. => .execFill h
  | .foragerDescriptorComplete .. => .execForagerDescriptorComplete h
  | .liningCopy .. => .execLiningCopy h
  | .liningBudgetSplit => .execLiningBudgetSplit h
  | .copyBeforeWrite .. => .execCopyBeforeWrite h
  | .cellCopyBeforeWrite .. => .execCellCopyBeforeWrite h
  | .foragerRetire .. => .execForagerRetire h
  | .syncObjectUpdate .. => .execSyncObjectUpdate h
  | .waitRetest .. => .execWaitRetest h
  | .backInvalidateComplete .. => .execBackInvalidateComplete h
  | .hostMemRead .. => .execHostMemRead h
  | .hostMemWrite .. => .execHostMemWrite h
  | .hostLinkDown => .execHostLinkDown h
  | .hostLinkLost => .execHostLinkLost h
  | .perstAssert => .execPerstAssert h
  | .perstDeassert => .execPerstDeassert h
  | .registerWrite .. => .execRegisterWrite h
  | .cfgCommit .. => .execCfgCommit h
  | .commitComplete .. => .execCommitComplete h
  | .watchedLineInvalidation .. => .execWatchedLineInvalidation h
  | .watchedLinePoll => .execWatchedLinePoll h
  | .farLinePoll .. => .execFarLinePoll h
  | .doorbellUpdate .. => .execDoorbellUpdate h
  | .reportLineUpdate .. => .execReportLineUpdate h
  | .entryIntake .. => .execEntryIntake h
  | .dripPointerMismatch .. => .execDripPointerMismatch h
  | .headLineWrite .. => .execHeadLineWrite h
  | .portTrained .. => .execPortTrained h
  | .laneRetire .. => .execLaneRetire h
  | .linkRetrain .. => .execLinkRetrain h
  | .portFailed .. => .execPortFailed h
  | .flitReceive .. => .execFlitReceive h
  | .replayTimeout .. => .execReplayTimeout h
  | .idleFlit .. => .execIdleFlit h
  | .packetRoute .. => .execPacketRoute h
  | .decideAgain .. => .execDecideAgain h
  | .ageDiscard .. => .execAgeDiscard h
  | .retransmitTimeout .. => .execRetransmitTimeout h
  | .write .. => .execWrite h
  | .read .. => .execRead h
  | .rdata .. => .execRdata h
  | .ack .. => .execAck h
  | .refuse .. => .execRefuse h
  | .sigaddPkt .. => .execSigaddPkt h
  | .sigsetPkt .. => .execSigsetPkt h
  | .relay .. => .execRelay h
  | .mgmt .. => .execMgmt h
  | .quench .. => .execQuench h
  | .quenchRelease .. => .execQuenchRelease h
  | .allreduce .. => .execAllreduce h
  | .reduceScatter .. => .execReduceScatter h
  | .allgather .. => .execAllgather h
  | .broadcast .. => .execBroadcast h
  | .barrier .. => .execBarrier h
  | .allToAll .. => .execAllToAll h
  | .waggle .. => .execWaggle h
  | .grant .. => .execGrant h
  | .coldata .. => .execColdata h
  | .collectiveComplete .. => .execCollectiveComplete h
  | .swarmHeartbeatSend => .execSwarmHeartbeatSend h
  | .swarmHeartbeat .. => .execSwarmHeartbeat h
  | .tableUpdate .. => .execTableUpdate h
  | .admissionRequest .. => .execAdmissionRequest h
  | .admissionResult .. => .execAdmissionResult h
  | .takeover .. => .execTakeover h
  | .managerLost => .execManagerLost h
  | .faultNotice .. => .execFaultNotice h
  | .collectiveAbort .. => .execCollectiveAbort h
  | .boundaryRequest .. => .execBoundaryRequest h
  | .memberDeclaredFailed .. => .execMemberDeclaredFailed h
  | .noManager => .execNoManager h
  | .governorLoop .. => .execGovernorLoop h
  | .powerSample .. => .execPowerSample h
  | .brakeAssert => .execBrakeAssert h
  | .brakeRelease => .execBrakeRelease h
  | .offDrainTimeout => .execOffDrainTimeout h
  | .mainDomainShutdown => .execMainDomainShutdown h
  | .idleDepthEntry .. => .execIdleDepthEntry h
  | .wake .. => .execWake h
  | .sensorSample .. => .execSensorSample h
  | .sensorRetrust .. => .execSensorRetrust h
  | .coolFaultAssert => .execCoolFaultAssert h
  | .riseLimitExceeded => .execRiseLimitExceeded h
  | .coastClear => .execCoastClear h
  | .inletOverLimit => .execInletOverLimit h
  | .leakDetected => .execLeakDetected h
  | .leakSelfTest .. => .execLeakSelfTest h
  | .epochTimer .. => .execEpochTimer h
  | .takeBoundary .. => .execTakeBoundary h
  | .syncInEdge => .execSyncInEdge h
  | .syncOutEdge => .execSyncOutEdge h
  | .markerDrain .. => .execMarkerDrain h
  | .drainComplete .. => .execDrainComplete h
  | .markerDrained .. => .execMarkerDrained h
  | .contextWritten .. => .execContextWritten h
  | .markerCaptured .. => .execMarkerCaptured h
  | .localCommit .. => .execLocalCommit h
  | .markerCommitted .. => .execMarkerCommitted h
  | .repair .. => .execRepair h
  | .recoveryStart .. => .execRecoveryStart h
  | .restoreComplete .. => .execRestoreComplete h
  | .swarmRestored .. => .execSwarmRestored h
  | .replayDone .. => .execReplayDone h
  | .cellReset .. => .execCellReset h
  | .combReset .. => .execCombReset h
  | .partitionReset .. => .execPartitionReset h
  | .wholeModuleReset .. => .execWholeModuleReset h
  | .resetComplete .. => .execResetComplete h
  | .drainLimit .. => .execDrainLimit h
  | .watchdogExpiry .. => .execWatchdogExpiry h
  | .heartbeat .. => .execHeartbeat h
  | .cellHung .. => .execCellHung h
  | .foragerHung .. => .execForagerHung h
  | .controllerHung .. => .execControllerHung h
  | .fatalStop .. => .execFatalStop h
  | .start .. => .execStart h
  | .pwrEnRelease => .execPwrEnRelease h
  | .vinUndervoltage => .execVinUndervoltage h
  | .vinRecover => .execVinRecover h
  | .vinIsolate => .execVinIsolate h
  | .placementGo .. => .execPlacementGo h
  | .placementCheck .. => .execPlacementCheck h
  | .dynamicAddressAssign .. => .execDynamicAddressAssign h
  | .mctpControl .. => .execMctpControl h
  | .pldmGetSensor .. => .execPldmGetSensor h
  | .pldmSetEffecter .. => .execPldmSetEffecter h
  | .pldmPollEvent => .execPldmPollEvent h
  | .ibi => .execIbi h
  | .i3cBusStuck => .execI3cBusStuck h
  | .i3cBusRecover => .execI3cBusRecover h
  | .getStatus => .execGetStatus h
  | .setRackCap .. => .execSetRackCap h
  | .setRun .. => .execSetRun h
  | .setHoldup .. => .execSetHoldup h
  | .lights .. => .execLights h
  | .lightsClearService => .execLightsClearService h
  | .locateExpiry => .execLocateExpiry h
  | .readInventory => .execReadInventory h
  | .appendRework .. => .execAppendRework h
  | .readFatal .. => .execReadFatal h
  | .readMember .. => .execReadMember h
  | .setStart .. => .execSetStart h
  | .identity => .execIdentity h
  | .attest .. => .execAttest h
  | .readLog .. => .execReadLog h
  | .fwBegin .. => .execFwBegin h
  | .fwData .. => .execFwData h
  | .fwReceiveTimeout => .execFwReceiveTimeout h
  | .fwEnd => .execFwEnd h
  | .fwVerifyDone .. => .execFwVerifyDone h
  | .fwActivate => .execFwActivate h
  | .fwActivationTimeout => .execFwActivationTimeout h
  | .fwConfirm => .execFwConfirm h
  | .fwAbort => .execFwAbort h
  | .ownerEnrol .. => .execOwnerEnrol h
  | .ownerSetLock .. => .execOwnerSetLock h
  | .ownerClearLock .. => .execOwnerClearLock h
  | .ownerReplaceKey .. => .execOwnerReplaceKey h
  | .ownerRelease .. => .execOwnerRelease h
  | .silentHoldEnter => .execSilentHoldEnter h
  | .demandClear .. => .execDemandClear h
  | .freeze .. => .execFreeze h
  | .freezeRelease .. => .execFreezeRelease h
  | .dumpComplete => .execDumpComplete h
  | .istCell => .execIstCell h
  | .istForager => .execIstForager h
  | .istLane => .execIstLane h
  | .istPhase => .execIstPhase h
  | .istComplete .. => .execIstComplete h
  | .hostLinkUp .. => .execHostLinkUp h
  | .coolFaultDeassert => .execCoolFaultDeassert h
  | .regulatorPhaseRetire .. => .execRegulatorPhaseRetire h
  | .fwControllersReady => .execFwControllersReady h
  | .wakeComplete .. => .execWakeComplete h
  | .hourCountUpdate => .execHourCountUpdate h

theorem CanonNext.step {s : State} (h : s.Canon) : CanonNext (step s) := by
  unfold Machine.step
  split
  · exact .next (.tick h)
  · exact .exec (.withQueue h) _

/-- Settles O4: every operation that writes one of the two stores keeps it in canonical form, and every command is made of these. -/
theorem memoryStaysCanonical : Obligations.MemoryStaysCanonical := by
  unfold Obligations.MemoryStaysCanonical
  intro s t canon stepped
  exact State.Canon.of_next stepped (.step canon)

end Sys2Proof.Machine
